-- ==== Sys2Proof/Word.lean ====
section
/-! DEFINITION. The word types of the UV-6400: 64-bit registers, bytes, the bit patterns of its number formats. -/

namespace Sys2Proof

/-- A register is 64 bits wide ("All registers are 64 bits wide", 00_scope.md). -/
abbrev Word := BitVec 64

/-- One byte of memory, scratchpad or a frame. -/
abbrev Byte := BitVec 8

/-- The bit pattern of an IEEE 754-2019 binary32 value (R100). -/
abbrev F32 := BitVec 32

/-- A plan entry, 32 bytes (R74). -/
abbrev EntryBits := BitVec 256

/-- A descriptor or a command entry, 64 bytes (R88, R382). -/
abbrev Bits512 := BitVec 512

end Sys2Proof
end

