-- ==== Sys2Proof/Syntax.lean ====
section
/-! DEFINITION. The commands of the block: one constructor of Instr for each row of spec/opcode_table.json, with the
operands that name what the row's event is about. Frames and host writes carry their fields as data. -/

namespace Sys2Proof

/-- Where a host access comes from: the physical function of port A (`false`) or B (`true`), virtual function `n` of a
port, or the Ridge's management controller acting for a PLDM effecter (R370, R429). -/
inductive HostSrc where
  | pf (portB : Bool)
  | vf (portB : Bool) (n : Nat)
  | mgmt
deriving DecidableEq, Repr

/-- The part of a 64-bit register that an access covers: all 8 bytes, its low or its high 4 bytes, or a size or alignment
that R428 does not accept. -/
inductive AccSize where
  | eight
  | low
  | high
  | bad
deriving DecidableEq, Repr

/-- A command ring that the physical function's commands come from: the PF ring of a Ridge, or MGMT frames (R387). -/
inductive PfSrc where
  | ring (ridgeB : Bool)
  | mgmt
deriving DecidableEq, Repr

/-- The unit of a tile whose operation ends (R77). -/
inductive UnitKind where
  | matrix
  | vector
  | special
  | stream (engine : Nat)
deriving DecidableEq, Repr

/-- A class record of a LINKCTL payload (R302 and the table *LINKCTL payload*). -/
structure ClassRec where
  ack : BitVec 32
  ackv : Bool
  nak : Bool
  freed : Word
deriving DecidableEq, Repr

/-- A flow record of a LINKCTL payload: context, consumer's link, ON (R302). -/
structure FlowRec where
  ctx : Nat
  link : Nat
  on : Bool
deriving DecidableEq, Repr

/-- What a frame of class 0 carries from a package to another: a vote (R245), a decision (R246), a command for the PF ring
or its completion record (R387). The manual gives the contents of these payloads and no bit layout (log 30). -/
inductive CtlMsg where
  | vote (seq : BitVec 32) (slot : Nat) (flags : BitVec 8) (nsum ssum : F32) (step : BitVec 48)
  | decide (seq : BitVec 32) (slot : Nat) (decision : Nat) (flags : BitVec 8) (nsum ssum : F32)
  | mgmt (entry : Bits512)
  | mgmtDone (record : List Word)
deriving DecidableEq, Repr

/-- Which piece of a collective instance a message carries: the chunk, the leg of the algorithm's route, the piece and
sub-piece, and the member whose contribution an all-gather leg carries (R267, R268; log 31). -/
structure PieceTag where
  chunk : Nat
  leg : Nat
  piece : Nat
  sub : Nat
  org : Nat
deriving DecidableEq, Repr

/-- Data of a part of a collective piece, or of a RING_PASS area (R271, R273, R277): sequence of the instance, pool ordinal, logical tile that
the data go to, their offset in the piece and the whole length of the piece, the offset and length of the part. -/
structure CollMsg where
  seq : BitVec 32
  ordinal : BitVec 32
  tag : PieceTag
  tile : Nat
  off : Nat
  total : Nat
  part : Nat × Nat
  data : List Byte
deriving DecidableEq, Repr

/-- The payload record of a MIRROR frame (R349): generation, kind (0 start, 1 page data, 2 end, 3 acknowledgement), FULL,
REBUILD, ERR, page index, byte offset, and the data that follows. -/
structure MirrorMsg where
  gen : BitVec 48
  kind : Nat
  full : Bool
  rebuild : Bool
  err : Bool
  page : Nat
  off : Nat
  data : List Byte
deriving DecidableEq, Repr

/-- The payload of a frame, by its type (table *Frame types*, R291). -/
inductive Payload where
  | raw (bytes : List Byte)
  | linkctl (recs : List ClassRec) (flows : List FlowRec)
  | ctl (m : CtlMsg)
  | coll (m : CollMsg)
  | mirror (m : MirrorMsg)
  | relayed (final orig typ : Nat) (m : CtlMsg)
deriving DecidableEq, Repr

/-- The transport header (R290) with the LANED and LANE fields of R352. -/
structure FrameHdr where
  dst : Nat
  src : Nat
  cls : Nat
  typ : Nat
  obj : Nat
  ackv : Bool
  replay : Bool
  last : Bool
  kalive : Bool
  seq : BitVec 32
  ack : BitVec 32
  pepoch : BitVec 16
  oepoch : BitVec 16
  len : Nat
  ctx : Nat
  laned : Bool
  lane : Nat
  poison : Word
deriving DecidableEq, Repr

/-- A frame: its transport header and its payload. -/
structure Frame where
  hdr : FrameHdr
  body : Payload
deriving DecidableEq, Repr

/-- What stands before the transport header of a frame, of what check 2 of R296 looks at (table *Frame on the wire*): destination MAC, TPID and TCI
of the 802.1Q tag, EtherType. -/
structure EthHdr where
  dst : BitVec 48
  tpid : BitVec 16
  tci : BitVec 16
  etype : BitVec 16
deriving DecidableEq, Repr

/-- A frame as it arrives at package port `port` (R33): whether FEC and FCS are correct (check 1), its Ethernet header (check 2), and its counted
codewords, corrected and uncorrectable (EAV_FECCNT). -/
structure RxFrame where
  port : Nat
  fcsOk : Bool
  eth : EthHdr
  fecCorr : Nat
  fecUncorr : Nat
  frame : Frame
deriving DecidableEq, Repr

/-- What the management bus writes into the firmware flash of a Ridge (R32, R420, R422). -/
inductive FlashPart where
  | primary (signed : Bool)
  | secondary (signed : Bool)
  | portConfig (signed : Bool) (bytes : List Byte)
deriving DecidableEq, Repr

/-- A request of a Dormer guest die (R333 to R337). -/
inductive GuestReq where
  | read (addr len : Nat)
  | write (addr : Nat) (data : List Byte)
  | atomic (addr : Nat) (op : Nat) (src cmp : Word)
  | register (die block off : Nat) (write : Bool) (value : Word)
  | frame (node : Nat) (data : List Byte)
deriving DecidableEq, Repr

/-- What the test access port is asked for (R31): a boundary-scan instruction, an unlock with its authentication's
outcome, or an access to internal test chains. -/
inductive TapOp where
  | boundaryScan (ir : Nat)
  | unlock (authentic : Bool)
  | internalChain
deriving DecidableEq, Repr

/-- A host access to a BAR4 aperture (R381). -/
inductive AperOp where
  | read (len : Nat)
  | write (data : List Byte)
deriving DecidableEq, Repr

/-- An error that a sector of a stack holds until a read finds it or a write replaces it (R209 to R212): both codes together make so many
corrections; the first read cannot be corrected and the re-read is right after so many corrections; the re-read fails too. -/
inductive Upset where
  | corrected (n : Nat)
  | again (n : Nat)
  | dead
deriving DecidableEq, Repr

/-- A sealed checkpoint or snapshot image as the device reads it back (R358): whether its seal and CRC-64 are right, and
per mirrored page its bytes, and the snapshot record. The byte format is not documented (log 23). -/
structure SealedImage where
  ok : Bool
  pages : List (Nat × List Byte)
  record : List Byte
deriving DecidableEq, Repr

/-- One energy meter's reading over a closed interval, in µJ: the die and its energy (R398). -/
structure MeterReading where
  die : Nat
  uj : Nat
deriving DecidableEq, Repr

/-- What a margin epoch measures of one path-delay monitor (R366): its slack in ps at the present supply, and its slope in fs per mV. -/
structure MonitorReading where
  slack : Int
  slope : Int
deriving DecidableEq, Repr

/-- The commands. -/
inductive Instr where
  -- pins, resets, supply
  | pwrEnRise
  | pwrEnFall
  | pkgPwrgd
  | perstMgmtAssert
  | perstOtherAssert
  | perstDeassert (portB : Bool)
  | flrVf (portB : Bool) (n : Nat)
  | flrPf (portB : Bool)
  | supplySample (tabs : List Nat)
  | sagLevelEnter (level : Nat)
  | sagLevelLeave (level : Nat)
  | selfRefreshEnter
  | thermalTrip (die temp : Nat)
  | thermalCrit (die : Nat)
  | thermClear (src : HostSrc)
  | clkDivWrite (src : HostSrc) (div : Nat)
  | clkRestore (src : HostSrc)
  | dividerChange
  | sagRPrefetch (src : HostSrc)
  | sagRResume (src : HostSrc)
  | sagClrMax (src : HostSrc)
  | pstateActive (src : HostSrc)
  | pstateHold (src : HostSrc)
  | pstateNap (src : HostSrc)
  | pstateDormant (src : HostSrc)
  | pstateDone
  | pkgResetWrite (src : HostSrc) (code : Nat) (go : Bool)
  | warmResetEnd
  -- bring-up
  | ridgeBootDone (ridgeB : Bool)
  | thatchReady (t : Nat)
  | eaveReady (e : Nat)
  | rafterReady (r : Nat) (spares failed : List Nat)
  | portUp (port : Nat)
  | edgeTrained (die dir : Nat)
  | discoveryWave (die dir kind : Nat)
  | dieTableBuild
  | firmwareActivation
  | fwact (src : PfSrc)
  | firmwareActivationEnd
  | pldmFirmwareUpdate (ridgeB : Bool) (part : FlashPart)
  -- launches and sequencer entries
  | launchReady (c : Nat)
  | launchEnd (c : Nat)
  | nop (c t : Nat)
  | hold (c t : Nat)
  | signal (c t : Nat)
  | repeatEntry (c t : Nat)
  | endEntry (c t : Nat)
  | mark (c t : Nat)
  | planRefillArrive (c t id : Nat)
  | deadlockSuspect (c t : Nat)
  | mma (c t : Nat)
  | mmaSparse (c t : Nat)
  | conv (c t : Nat)
  | mmaColl (c t : Nat)
  | vec (c t : Nat)
  | sfu (c t : Nat)
  | normStat (c t : Nat)
  | softmax (c t : Nat)
  | upd (c t : Nat)
  | rngFill (c t : Nat)
  | gnsStat (c t : Nat)
  | streamIn (c t : Nat)
  | streamOut (c t : Nat)
  | assign (c t : Nat)
  | slotGather (c t : Nat)
  | slotScatter (c t : Nat)
  | clear (c t : Nat)
  | send (c t : Nat)
  | sendRetry (c t ep : Nat)
  | recv (c t : Nat)
  | combine (c t : Nat)
  | messageArrival (c id : Nat)
  | ackArrival (c id : Nat)
  | combineSum (c t ep : Nat)
  | qpush (c t : Nat)
  | qpop (c t : Nat)
  | verdict (c t : Nat)
  | commitIf (c t : Nat)
  | transferAccept (c id : Nat)
  | transferArrival (c id : Nat)
  | unitOperationComplete (c t : Nat) (u : UnitKind)
  | queueWordWrite (c link id : Nat)
  | packetArrival (c link : Nat)
  | queueFlush (src : HostSrc) (c link : Nat)
  | collChunkComplete (c inst t : Nat)
  | packageStageEnd (c slot : Nat)
  | voteSend (c slot : Nat)
  | vote (f : RxFrame)
  | decide (f : RxFrame)
  | checkpointDone (c bytes : Nat)
  | checkpointTrigger (c cause die : Nat)
  | checkpointTimer (c : Nat)
  | mirror (f : RxFrame)
  | mirrorAck (f : RxFrame)
  | rebuildFrame (f : RxFrame)
  | stage (f : RxFrame)
  | coll (f : RxFrame)
  | ring (f : RxFrame)
  | ingest (f : RxFrame)
  | guest (f : RxFrame)
  | mgmt (f : RxFrame)
  | relayed (f : RxFrame)
  | linkctl (f : RxFrame)
  | ptpFrame (port : Nat) (synchronised : Bool)
  | pauseFrame (port prio quanta : Nat)
  | pauseRepeat (port prio : Nat)
  | frameTransmit (link cls : Nat)
  | replayTimer (link cls : Nat)
  | linkctlTimer (link : Nat)
  | linkSilenceTimeout (link : Nat)
  | portSignalLoss (port : Nat)
  | linkMove (link : Nat)
  | replayRateWindow (e : Nat)
  | ppsSecond
  | ptpSelect (src : HostSrc) (value : Word)
  | eavPctlWrite (src : HostSrc) (port : Nat) (value : Word)
  | eavWrrWrite (src : HostSrc) (port : Nat) (value : Word)
  | nodeWrite (src : HostSrc) (node : Nat)
  -- package fabric
  | flitCrcFail (die dir strand : Nat)
  | strandFail (die dir strand : Nat)
  | edgeDown (die dir : Nat)
  | strandRetire (src : HostSrc) (die dir mask : Nat)
  | strandWarnWindow (die dir : Nat)
  | dieClockSupplyLoss (die : Nat)
  | fenceNotice (die cause : Nat)
  | takeover
  | takeoverComplete
  | guestRequest (site : Nat) (req : GuestReq)
  | guestAdmit (site : Nat)
  | overpower (site : Nat)
  | sitePowerOn (src : HostSrc) (site : Nat)
  -- memory and Ligger engines
  | memoryRead (c id k : Nat)
  | memoryWrite (c id k : Nat)
  | eccReread (stack sector : Nat)
  | ceRateWindow (t : Nat)
  | atomicApply (c id k : Nat)
  | refreshRateChange (t temp : Nat)
  | refreshTick (t : Nat) (errors : List (Nat × Upset))
  | bandWrite (src : HostSrc) (kinds : Nat)
  | copyIn (t eng n : Nat) (data : List Byte)
  | copyOut (t eng n : Nat)
  | fillConst (t eng n : Nat)
  | fillRng (t eng n : Nat)
  | test (t eng n : Nat) (failing : List Nat)
  | verify (t eng n : Nat)
  | scrub (t eng n : Nat)
  | restore (t eng n : Nat) (image : SealedImage)
  | rebuild (t eng n : Nat)
  | repair (t eng : Nat) (ok : Bool)
  | liggerCommandDone (t eng : Nat)
  | liggerResume (src : HostSrc) (t eng : Nat)
  | liggerAbort (src : HostSrc) (t eng : Nat)
  -- host commands
  | doorbell (src : HostSrc) (ring : Option Nat) (tail : Nat)
  | loadPlan (c : Nat)
  | loadPlanComplete (c : Nat)
  | launchStep (c : Nat)
  | stageLinks (c : Nat)
  | versionRings (c : Nat)
  | group (src : PfSrc)
  | reform (src : PfSrc)
  | route (src : PfSrc)
  | routePrefix (src : PfSrc)
  | rollback (c : Nat)
  | context (src : PfSrc)
  | bind (src : PfSrc)
  | snapshot (c : Nat)
  | snapshotComplete (c : Nat)
  | exportRing (c : Nat)
  | exportComplete (c : Nat)
  | fence (ring : Option Nat) (src : PfSrc)
  | flush (c : Nat)
  | cancel (c : Nat)
  -- results, logs, context control
  | cplHeadWrite (src : HostSrc) (c head : Nat)
  | cplBaseWrite (src : HostSrc) (c : Nat) (base : Word)
  | resAck (src : HostSrc) (c : Nat) (seq : BitVec 32)
  | cmdRingConfigWrite (src : HostSrc) (c : Nat) (isCtl : Bool) (value : Word)
  | evlogConfigWrite (src : HostSrc) (c : Nat) (isCtl : Bool) (value : Word)
  | evlogReadWrite (src : HostSrc) (c : Nat) (read : BitVec 32)
  | evlogClrLost (src : HostSrc) (c : Nat)
  | trainingRegisterWrite (src : HostSrc) (c which : Nat) (value : Word)
  | xlateInv (src : HostSrc) (c : Nat)
  | ctxReset (src : HostSrc) (c : Nat)
  | contextResetDone (c : Nat)
  | acctClr (src : HostSrc) (c : Nat)
  | apertureAccess (portB : Bool) (n off : Nat) (op : AperOp)
  -- meters, ageing
  | energyInterval (readings : List MeterReading)
  | marginSample (r : Nat) (slack : List Int)
  | epoch (src : HostSrc) (r : Nat)
  | marginEpochEnd (r : Nat) (monitors : List MonitorReading) (tiles : List (Nat × Int))
  | voffWrite (src : HostSrc) (r steps : Nat)
  | tileRetire (src : HostSrc) (r tile : Nat)
  -- counter clears
  | schedClrMiss (src : HostSrc) (c : Nat)
  | schedClrSlip (src : HostSrc) (c : Nat)
  | schedClrWait (src : HostSrc) (c : Nat)
  | schedClrSusp (src : HostSrc) (c : Nat)
  | arithClrSat (src : HostSrc) (c : Nat)
  | arithClrGate (src : HostSrc) (c : Nat)
  | arithClrPoison (src : HostSrc) (c : Nat)
  | sfuClrMasked (src : HostSrc) (c : Nat)
  | sfuClrNan (src : HostSrc) (c : Nat)
  | slotClrOverflow (src : HostSrc) (c : Nat)
  | slotClrEmpty (src : HostSrc) (c : Nat)
  | pipeClrQcount (src : HostSrc) (c : Nat)
  | pipeClrChan (src : HostSrc) (c : Nat)
  | memClrEcc (src : HostSrc) (t : Nat)
  | memClrWin (src : HostSrc) (t : Nat)
  | ctxMemClrPoison (src : HostSrc) (c : Nat)
  | trainClrSkip (src : HostSrc) (c : Nat)
  | collClrSts (src : HostSrc) (c : Nat)
  | collClrChunks (src : HostSrc) (c : Nat)
  | collClrStale (src : HostSrc) (c : Nat)
  | eavClrPorts (src : HostSrc) (e : Nat)
  | eavClrDrop (src : HostSrc) (e : Nat)
  | eavClrRelay (src : HostSrc) (e : Nat)
  | eavClrReroute (src : HostSrc) (e : Nat)
  | resClrMirwait (src : HostSrc) (c : Nat)
  | resClrCkpt (src : HostSrc) (c : Nat)
  | clrErr (src : HostSrc) (addr : Nat)
  | registerWrite (src : HostSrc) (addr : Nat) (size : AccSize) (value : Word)
  -- further events
  | launchT0 (c : Nat)
  | queueSpaceFreed (c link : Nat)
  | flitReplayCaughtUp (die dir strand : Nat)
  | pauseExpiry (port prio : Nat)
  | voffMove (r : Nat)
  | tileRetireDone (r : Nat)
  | hostLinkUp (portB : Bool) (width : Nat) (reversed : Bool) (inverted : List Nat)
  | configurationRequest (portB : Bool)
  | testAccessPort (op : TapOp)
  | dynamicAddressAssignment (ridgeB : Bool) (addr : Nat)
  | otherEthertypeFrame (port : Nat) (fcsOk : Bool) (etype : BitVec 16)
  | temperatureSample (die temp : Nat)
deriving DecidableEq, Repr

end Sys2Proof
end

