-- ==== Sys2Proof/Config.lean ====
section
/-! DEFINITION. What one part fixes or the manual leaves open: constants without a body, so that nothing can be proved of
their values. Each has its entry in the assumption log. -/

namespace Sys2Proof.Config

/-- The FP32 result of special function `f` (codes of the table *Functions*, R133) on the FP32 input `x`, where R136 gives
an error bound and no value (log 20). SIN and COS go through `sfuTrig`. Safety.lean states the bound. -/
opaque sfu : (f : Nat) → (x : F32) → F32

/-- SIN (`c = false`) or COS (`c = true`) of position × frequency `θ` (R134, R136; log 20). -/
opaque sfuTrig : (c : Bool) → (pos : Nat) → (θ : F32) → F32

/-- The result of the UV-1600 special-function unit (R150, R2; log 21): function code and widened input. -/
opaque uv1600Sfu : (f : Nat) → (x : F32) → F32

/-- The UV-1600 stream generator (R255, R2; log 21): the state a seeding gives. -/
opaque uv1600Seed : (seed : Word) → (stream : BitVec 16) → (index : BitVec 32) → BitVec 128

/-- The UV-1600 stream generator: the state after one draw (log 21). -/
opaque uv1600Next : BitVec 128 → BitVec 128

/-- The UV-1600 stream generator: the word that a draw from a state gives (log 21). -/
opaque uv1600Word : BitVec 128 → BitVec 32

/-- The fused MAC address of a package port (EAV_MAC, "reset value assigned by Cyade and fused"; log 22). -/
opaque fusedMac : (port : Nat) → BitVec 48

/-- The number of bytes of a sealed image that holds `n` bytes of state (R256: the format is not documented; log 23). -/
opaque sealedBytes : (n : Nat) → Nat

/-- The data that an access through a window of the wrong kind, or to a lost stack, returns poisoned (R201, R230; log 26). -/
opaque poisonByte : (dpa : Nat) → Byte

/-- What a unit reads beyond the last line of a scratchpad, which a plan that breaks R78 may name (R5; log 25). -/
opaque padBeyond : (address : Nat) → Byte

/-- The class-0 bound in ns from the relay `via` to node `final` (R307): the relay's own configuration, which no register here shows (log
101). -/
opaque relayBound : (via : Nat) → (final : Nat) → BitVec 16

/-- The neighbour at node `node` grants credit at time `tb` for a part of the instance of sequence `seq` of group `group` into logical tile
`tile` (R271): the manual gives no frame and no register that carries credit (log 39). -/
opaque peerCredit : (tb node group : Nat) → (seq : BitVec 32) → (tile : Nat) → Bool

/-- The Eave die to which a sending engine on die `die` hands its frames for node `node` (R294): the manual does not say which (log 104). -/
opaque eaveFor : (die : Nat) → (node : Nat) → Fin 8

/-- The payload bytes of a control message of kind `k` (0 vote, 1 decision), whose layout the manual does not give (log 30). -/
opaque ctlLen : (k : Nat) → Nat

/-- What a Ligger TEST leaves in a byte of its range (R226: the contents are destroyed; log 29). -/
opaque testLeaves : (dpa : Nat) → Byte

/-- The scratchpad banks that a compute operation names in cycle `n` after its issue, for reading or for writing (R61): the manual gives its
operand areas and its latency, and not which lines it takes in which cycle (log 11). -/
opaque unitBanks : (entry : EntryBits) → (n : Nat) → (write : Bool) → List Nat

/-- First VF Offset and VF Stride of the SR-IOV capability of a host port (R370): the manual gives no value (log 108). -/
opaque firstVfOffset : BitVec 16

/-- VF Stride (log 108). -/
opaque vfStride : BitVec 16

/-- WFMT in the header of an EXPORT image of a ring (R256): the manual keeps no format with a ring (log 32). -/
opaque exportWfmt : (ring : Nat) → Byte

/-- What an EXPORT writes for a byte of the ring that it cannot read (R388, R449; log 32). -/
opaque exportByte : (va : Nat) → Byte

end Sys2Proof.Config
end

