-- ==== Sys2Proof/Machine/RegDefs.lean ====
section
/-! DEFINITION. The register tables: every register of every page and of the context window, with its fields, access types
and reset values, as the tables of the manual give them (R9, R425, R430, R436). -/

namespace Sys2Proof.Machine

/-- Access types (R9). -/
inductive Access where
  | rw
  | ro
  | w1c
  | w1s
  | wo
  | rwl
  | wos
deriving DecidableEq, Repr

/-- A field of a register: bits [hi:lo], access type, reset value. -/
structure FieldDef where
  hi : Nat
  lo : Nat
  acc : Access
  reset : Nat
deriving DecidableEq, Repr

/-- A register or a row of `count` registers `spacing` bytes apart, and its fields. Bits of no field are reserved. -/
structure RegDef where
  off : Nat
  spacing : Nat
  count : Nat
  fields : List FieldDef
deriving DecidableEq, Repr

/-- The page kinds of the table *Register prefixes*, and the guest pages of a Dormer site. -/
inductive PageKind where
  | rdg
  | rft
  | thc
  | eav
  | prl
  | btn
  | seq
  | dmr
  | ctx
  | guest
deriving DecidableEq, Repr

/-- The registers of the common header: offset, spacing, how many, fields. -/
def hdrRegs : List RegDef :=
  [
    ⟨0x0, 0, 1, [⟨5, 0, .ro, 0⟩, ⟨11, 6, .ro, 0⟩, ⟨15, 12, .ro, 0⟩, ⟨23, 16, .ro, 1⟩, ⟨41, 32, .ro, 0⟩]⟩,
    ⟨0x8, 0, 1, [⟨7, 0, .ro, 0⟩, ⟨8, 8, .ro, 0⟩, ⟨9, 9, .ro, 0⟩]⟩,
    ⟨0x10, 0, 1, [⟨0, 0, .wo, 0⟩]⟩,
    ⟨0x18, 0, 1, [⟨0, 0, .ro, 0⟩, ⟨1, 1, .w1c, 0⟩]⟩,
    ⟨0x20, 0, 1, [⟨63, 0, .w1c, 0⟩]⟩,
    ⟨0x28, 0, 1, [⟨63, 0, .rw, 0⟩]⟩,
    ⟨0x30, 0, 1, [⟨63, 0, .ro, 0⟩]⟩,
    ⟨0x38, 0, 1, [⟨0, 0, .w1s, 0⟩]⟩,
    ⟨0x40, 0, 1, [⟨15, 0, .ro, 0⟩, ⟨27, 16, .ro, 0⟩, ⟨29, 28, .ro, 0⟩]⟩,
    ⟨0x48, 0, 1, [⟨15, 0, .ro, 0⟩, ⟨31, 16, .ro, 0⟩, ⟨47, 32, .ro, 0⟩]⟩,
    ⟨0x50, 0, 1, [⟨63, 0, .rw, 0⟩]⟩]

/-- The registers of the RDG page: offset, spacing, how many, fields. -/
def rdgRegs : List RegDef :=
  [
    ⟨0x80, 0, 1, [⟨1, 0, .rw, 0⟩, ⟨3, 2, .ro, 0⟩, ⟨4, 4, .ro, 0⟩, ⟨5, 5, .wo, 0⟩, ⟨6, 6, .ro, 0⟩]⟩,
    ⟨0x88, 0, 1, [⟨63, 0, .ro, 0⟩]⟩,
    ⟨0x90, 0, 1, [⟨1, 0, .wo, 0⟩, ⟨4, 2, .ro, 0⟩, ⟨5, 5, .ro, 0⟩]⟩,
    ⟨0x98, 0, 1, [⟨2, 0, .ro, 0⟩, ⟨5, 3, .ro, 0⟩, ⟨6, 6, .wo, 0⟩, ⟨7, 7, .wo, 0⟩, ⟨8, 8, .wo, 0⟩, ⟨9, 9, .ro, 0⟩, ⟨28, 16, .ro, 0x1fff⟩, ⟨44, 32, .ro, 0⟩]⟩,
    ⟨0xa0, 0, 1, [⟨0, 0, .ro, 0⟩, ⟨1, 1, .wo, 0⟩, ⟨2, 2, .ro, 0⟩, ⟨10, 3, .ro, 0⟩, ⟨16, 11, .ro, 0⟩]⟩,
    ⟨0xa8, 0, 1, [⟨15, 0, .wo, 0⟩, ⟨16, 16, .wo, 0⟩, ⟨17, 17, .ro, 0⟩, ⟨18, 18, .ro, 0⟩]⟩,
    ⟨0xb0, 0, 1, [⟨0, 0, .ro, 0⟩, ⟨1, 1, .ro, 0⟩, ⟨2, 2, .ro, 0⟩, ⟨31, 16, .ro, 0⟩]⟩,
    ⟨0xb8, 0, 1, [⟨63, 0, .rw, 0xf00⟩]⟩,
    ⟨0xc0, 0, 1, [⟨63, 0, .wos, 0⟩]⟩,
    ⟨0xc8, 0, 1, [⟨63, 0, .ro, 0⟩]⟩,
    ⟨0xd0, 0, 1, [⟨63, 0, .ro, 0⟩]⟩,
    ⟨0xd8, 0, 1, [⟨5, 0, .rw, 0⟩, ⟨13, 6, .rw, 0⟩, ⟨14, 14, .rw, 0⟩, ⟨15, 15, .ro, 0⟩]⟩,
    ⟨0x300, 0, 1, [⟨5, 0, .rw, 0⟩]⟩,
    ⟨0x308, 0, 1, [⟨31, 0, .rw, 0x55555555⟩, ⟨32, 32, .ro, 0⟩]⟩,
    ⟨0x340, 0, 1, [⟨11, 0, .rw, 0⟩]⟩,
    ⟨0x348, 0, 1, [⟨0, 0, .ro, 0⟩, ⟨10, 1, .ro, 0⟩, ⟨26, 11, .ro, 0⟩, ⟨58, 27, .ro, 0⟩]⟩,
    ⟨0x380, 0, 1, [⟨7, 0, .rw, 0x10⟩, ⟨15, 8, .rw, 0x10⟩, ⟨23, 16, .rw, 0x10⟩, ⟨31, 24, .rw, 0x10⟩, ⟨39, 32, .rw, 0x10⟩, ⟨47, 40, .rw, 0x10⟩, ⟨55, 48, .rw, 0x10⟩, ⟨63, 56, .rw, 0x10⟩]⟩,
    ⟨0x388, 0, 1, [⟨19, 0, .rw, 0⟩, ⟨20, 20, .ro, 0⟩]⟩,
    ⟨0x400, 0x10, 16, [⟨15, 0, .rw, 0⟩, ⟨31, 16, .rw, 0⟩, ⟨47, 32, .rw, 0⟩, ⟨63, 48, .rw, 0⟩]⟩,
    ⟨0x408, 0x10, 16, [⟨15, 0, .rw, 0⟩, ⟨31, 16, .rw, 0⟩, ⟨47, 32, .rw, 0⟩, ⟨63, 48, .rw, 0⟩]⟩] ++
  [
    ⟨0x500, 0, 1, [⟨63, 0, .ro, 0⟩]⟩,
    ⟨0x508, 0, 1, [⟨0, 0, .ro, 0⟩]⟩,
    ⟨0x510, 0, 1, [⟨5, 0, .rw, 0⟩]⟩,
    ⟨0x518, 0, 1, [⟨2, 0, .ro, 0⟩, ⟨5, 3, .ro, 0⟩]⟩,
    ⟨0x600, 0x8, 16, [⟨9, 0, .rw, 0⟩, ⟨10, 10, .rw, 0⟩]⟩,
    ⟨0x780, 0, 1, [⟨9, 0, .wo, 0⟩, ⟨10, 10, .wo, 0⟩, ⟨11, 11, .ro, 0⟩]⟩,
    ⟨0x788, 0, 1, [⟨9, 0, .wo, 0⟩, ⟨10, 10, .wo, 0⟩]⟩,
    ⟨0x790, 0, 1, [⟨9, 0, .wo, 0⟩, ⟨10, 10, .wo, 0⟩]⟩,
    ⟨0x798, 0, 1, [⟨63, 0, .ro, 0⟩]⟩,
    ⟨0x7a0, 0, 1, [⟨0, 0, .rw, 0⟩, ⟨20, 1, .rw, 0⟩]⟩,
    ⟨0x7a8, 0, 1, [⟨0, 0, .ro, 0⟩]⟩]

/-- The registers of the RFT page: offset, spacing, how many, fields. -/
def rftRegs : List RegDef :=
  [
    ⟨0x80, 0, 1, [⟨15, 0, .ro, 0⟩, ⟨22, 16, .ro, 0⟩]⟩,
    ⟨0x88, 0, 1, [⟨15, 0, .rw, 0x28⟩, ⟨31, 16, .rw, 0x14⟩]⟩,
    ⟨0x90, 0, 1, [⟨0, 0, .wo, 0⟩]⟩,
    ⟨0x98, 0, 1, [⟨1, 0, .ro, 0⟩, ⟨5, 2, .ro, 0⟩, ⟨12, 6, .ro, 0⟩, ⟨13, 13, .ro, 0⟩, ⟨31, 16, .ro, 0⟩]⟩,
    ⟨0xa0, 0, 1, [⟨5, 0, .rw, 0⟩]⟩,
    ⟨0xa8, 0, 1, [⟨11, 0, .ro, 0⟩]⟩,
    ⟨0xb0, 0, 1, [⟨3, 0, .rw, 0⟩, ⟨7, 4, .ro, 0⟩]⟩,
    ⟨0xb8, 0, 1, [⟨11, 0, .wo, 0⟩, ⟨12, 12, .wo, 0⟩, ⟨13, 13, .ro, 0⟩, ⟨20, 14, .ro, 0x40⟩]⟩,
    ⟨0xc0, 0, 1, [⟨6, 0, .ro, 0⟩, ⟨7, 7, .ro, 0⟩, ⟨39, 8, .ro, 0⟩]⟩,
    ⟨0xc8, 0, 1, [⟨5, 0, .rw, 0⟩]⟩,
    ⟨0xd0, 0, 1, [⟨47, 0, .ro, 0⟩]⟩,
    ⟨0xd8, 0, 1, [⟨47, 0, .ro, 0⟩]⟩,
    ⟨0xe0, 0, 1, [⟨63, 0, .ro, 0⟩]⟩]

/-- The registers of the THC page: offset, spacing, how many, fields. -/
def thcRegs : List RegDef :=
  [
    ⟨0x80, 0, 1, [⟨7, 0, .ro, 0⟩, ⟨9, 8, .ro, 0⟩]⟩,
    ⟨0x88, 0, 1, [⟨31, 0, .ro, 0⟩, ⟨63, 32, .ro, 0⟩]⟩,
    ⟨0x90, 0, 1, [⟨31, 0, .ro, 0⟩]⟩,
    ⟨0x98, 0, 1, [⟨35, 0, .ro, 0⟩]⟩,
    ⟨0xa0, 0, 1, [⟨31, 0, .rw, 0x1000⟩]⟩,
    ⟨0xa8, 0, 1, [⟨31, 0, .ro, 0⟩]⟩,
    ⟨0xb0, 0, 1, [⟨63, 0, .ro, 0⟩]⟩,
    ⟨0xb8, 0, 1, [⟨63, 0, .ro, 0⟩]⟩,
    ⟨0xc0, 0, 1, [⟨63, 0, .ro, 0⟩]⟩,
    ⟨0xc8, 0, 1, [⟨0, 0, .wo, 0⟩, ⟨1, 1, .wo, 0⟩]⟩,
    ⟨0xd0, 0, 1, [⟨63, 0, .ro, 0⟩]⟩,
    ⟨0x200, 0x40, 4, [⟨47, 0, .rw, 0⟩]⟩,
    ⟨0x208, 0x40, 4, [⟨40, 0, .rw, 0⟩]⟩,
    ⟨0x210, 0x40, 4, [⟨63, 0, .rw, 0⟩]⟩,
    ⟨0x218, 0x40, 4, [⟨63, 0, .rw, 0⟩]⟩,
    ⟨0x220, 0x40, 4, [⟨3, 0, .rw, 0⟩, ⟨7, 4, .rw, 0⟩, ⟨23, 8, .rw, 0⟩, ⟨25, 24, .rw, 0⟩, ⟨63, 63, .wo, 0⟩]⟩,
    ⟨0x228, 0x40, 4, [⟨2, 0, .ro, 0⟩, ⟨3, 3, .ro, 0⟩, ⟨35, 4, .ro, 0⟩]⟩,
    ⟨0x230, 0x40, 4, [⟨63, 0, .ro, 0⟩]⟩,
    ⟨0x238, 0x40, 4, [⟨0, 0, .wo, 0⟩, ⟨1, 1, .wo, 0⟩]⟩]

/-- The registers of the EAV page: offset, spacing, how many, fields. -/
def eavRegs : List RegDef :=
  [
    ⟨0x80, 0, 1, [⟨15, 0, .rw, 0x88b5⟩, ⟨27, 16, .rw, 0⟩]⟩,
    ⟨0x88, 0, 1, [⟨15, 0, .ro, 0⟩, ⟨31, 16, .ro, 0⟩, ⟨47, 32, .ro, 0⟩, ⟨63, 48, .ro, 0⟩]⟩,
    ⟨0x90, 0, 1, [⟨31, 0, .ro, 0⟩, ⟨63, 32, .ro, 0⟩]⟩,
    ⟨0x98, 0, 1, [⟨15, 0, .ro, 0⟩, ⟨21, 16, .ro, 0⟩]⟩,
    ⟨0xa0, 0, 1, [⟨31, 0, .rw, 0x4000⟩]⟩,
    ⟨0xa8, 0, 1, [⟨0, 0, .wo, 0⟩, ⟨1, 1, .wo, 0⟩, ⟨2, 2, .wo, 0⟩, ⟨3, 3, .wo, 0⟩]⟩,
    ⟨0xb0, 0, 1, [⟨2, 0, .rw, 0⟩]⟩,
    ⟨0x180, 0x8, 8, [⟨7, 0, .rw, 0x40⟩, ⟨15, 8, .rw, 0x60⟩, ⟨23, 16, .rw, 0x30⟩, ⟨31, 24, .rw, 0x18⟩, ⟨39, 32, .rw, 0x10⟩, ⟨47, 40, .rw, 8⟩, ⟨48, 48, .ro, 0⟩]⟩,
    ⟨0x1c0, 0x8, 8, [⟨63, 0, .ro, 0⟩]⟩,
    ⟨0x200, 0x8, 8, [⟨63, 0, .ro, 0⟩]⟩,
    ⟨0x400, 0x40, 8, [⟨1, 0, .rw, 0⟩, ⟨2, 2, .rw, 0⟩, ⟨10, 3, .rw, 0x3f⟩, ⟨17, 11, .rw, 0⟩, ⟨41, 32, .rw, 0x100⟩]⟩,
    ⟨0x408, 0x40, 8, [⟨0, 0, .ro, 0⟩, ⟨1, 1, .ro, 0⟩, ⟨6, 2, .ro, 0⟩]⟩,
    ⟨0x410, 0x40, 8, [⟨7, 0, .rw, 0⟩, ⟨15, 8, .rw, 0⟩]⟩,
    ⟨0x418, 0x40, 8, [⟨47, 0, .rwl, 0⟩]⟩,
    ⟨0x420, 0x40, 8, [⟨63, 0, .ro, 0⟩]⟩,
    ⟨0x428, 0x40, 8, [⟨31, 0, .ro, 0⟩, ⟨63, 32, .ro, 0⟩]⟩,
    ⟨0x430, 0x40, 8, [⟨31, 0, .ro, 0⟩, ⟨63, 32, .ro, 0⟩]⟩,
    ⟨0x438, 0x40, 8, [⟨31, 0, .ro, 0⟩, ⟨63, 32, .ro, 0⟩]⟩]

/-- The registers of the PRL page: offset, spacing, how many, fields. -/
def prlRegs : List RegDef :=
  [
    ⟨0x80, 0, 1, [⟨2, 0, .ro, 0⟩, ⟨5, 3, .ro, 0⟩, ⟨11, 6, .ro, 0⟩]⟩,
    ⟨0x88, 0, 1, [⟨31, 0, .ro, 0⟩, ⟨63, 32, .ro, 0⟩]⟩,
    ⟨0x90, 0, 1, [⟨63, 0, .ro, 0⟩]⟩,
    ⟨0x98, 0, 1, [⟨7, 0, .ro, 0⟩, ⟨15, 8, .ro, 0⟩]⟩,
    ⟨0xa0, 0, 1, [⟨63, 0, .ro, 0⟩]⟩]

/-- The registers of the BTN page: offset, spacing, how many, fields. -/
def btnRegs : List RegDef :=
  [
    ⟨0x80, 0x20, 4, [⟨1, 0, .ro, 0⟩, ⟨9, 2, .ro, 0⟩]⟩,
    ⟨0x88, 0x20, 4, [⟨7, 0, .rw, 0⟩, ⟨8, 8, .ro, 0⟩]⟩,
    ⟨0x90, 0x20, 4, [⟨31, 0, .ro, 0⟩]⟩,
    ⟨0x98, 0x20, 4, [⟨31, 0, .rw, 0x400⟩]⟩]

/-- The registers of the SEQ page: offset, spacing, how many, fields. -/
def seqRegs : List RegDef :=
  [
    ⟨0x100, 0, 1, [⟨63, 0, .ro, 0⟩]⟩,
    ⟨0x108, 0, 1, [⟨11, 0, .rw, 0⟩]⟩,
    ⟨0x110, 0, 1, [⟨9, 0, .ro, 0⟩, ⟨10, 10, .ro, 0⟩, ⟨11, 11, .ro, 0⟩, ⟨12, 12, .ro, 0⟩, ⟨23, 13, .ro, 0⟩, ⟨40, 24, .ro, 0⟩, ⟨41, 41, .ro, 0⟩, ⟨42, 42, .ro, 0⟩]⟩]

/-- The registers of the DMR page: offset, spacing, how many, fields. -/
def dmrRegs : List RegDef :=
  [
    ⟨0x80, 0, 1, [⟨0, 0, .rw, 0⟩, ⟨8, 1, .rwl, 0⟩]⟩,
    ⟨0x88, 0, 1, [⟨0, 0, .ro, 1⟩]⟩,
    ⟨0x90, 0, 1, [⟨31, 0, .ro, 0⟩]⟩,
    ⟨0x98, 0, 1, [⟨2, 0, .ro, 0⟩, ⟨50, 3, .ro, 0⟩]⟩,
    ⟨0x100, 0x20, 16, [⟨47, 0, .rwl, 0⟩]⟩,
    ⟨0x108, 0x20, 16, [⟨47, 0, .rwl, 0⟩]⟩,
    ⟨0x110, 0x20, 16, [⟨1, 0, .rwl, 0⟩, ⟨2, 2, .rwl, 0⟩, ⟨3, 3, .rwl, 0⟩, ⟨4, 4, .rwl, 0⟩, ⟨10, 5, .rwl, 0⟩]⟩]

/-- The registers of the context window: offset, spacing, how many, fields. -/
def ctxRegs : List RegDef :=
  [
    ⟨0x100, 0, 1, [⟨47, 0, .rw, 0⟩]⟩,
    ⟨0x108, 0, 1, [⟨4, 0, .rw, 4⟩]⟩,
    ⟨0x110, 0, 1, [⟨15, 0, .wo, 0⟩]⟩,
    ⟨0x118, 0, 1, [⟨15, 0, .ro, 0⟩, ⟨31, 16, .ro, 0⟩]⟩,
    ⟨0x120, 0, 1, [⟨63, 0, .rw, 0⟩]⟩,
    ⟨0x128, 0, 1, [⟨4, 0, .rw, 4⟩, ⟨31, 16, .rw, 0⟩]⟩,
    ⟨0x130, 0, 1, [⟨15, 0, .ro, 0⟩, ⟨19, 16, .ro, 0⟩]⟩,
    ⟨0x140, 0x8, 4, [⟨63, 0, .ro, 0⟩]⟩,
    ⟨0x160, 0, 1, [⟨31, 0, .wo, 0⟩]⟩,
    ⟨0x168, 0, 1, [⟨5, 0, .ro, 0⟩, ⟨6, 6, .ro, 0⟩, ⟨7, 7, .ro, 0⟩]⟩,
    ⟨0x170, 0, 1, [⟨2, 0, .ro, 0⟩, ⟨5, 3, .ro, 0⟩, ⟨6, 6, .ro, 0⟩]⟩,
    ⟨0x178, 0, 1, [⟨7, 0, .ro, 0⟩, ⟨39, 8, .ro, 0⟩]⟩,
    ⟨0x180, 0, 1, [⟨63, 0, .ro, 0⟩]⟩,
    ⟨0x188, 0, 1, [⟨6, 0, .w1c, 0⟩]⟩,
    ⟨0x190, 0, 1, [⟨6, 0, .rw, 0⟩]⟩,
    ⟨0x198, 0, 1, [⟨6, 0, .ro, 0⟩]⟩,
    ⟨0x1a0, 0, 1, [⟨27, 0, .rw, 0⟩]⟩,
    ⟨0x1b0, 0, 1, [⟨15, 0, .rw, 0⟩, ⟨47, 16, .ro, 0⟩]⟩,
    ⟨0x1b8, 0, 1, [⟨31, 0, .rw, 0⟩, ⟨55, 32, .rw, 0⟩]⟩,
    ⟨0x1c0, 0, 1, [⟨31, 0, .ro, 0⟩, ⟨63, 32, .ro, 0⟩]⟩] ++
  [
    ⟨0x200, 0x8, 7, [⟨63, 0, .ro, 0⟩]⟩,
    ⟨0x400, 0, 1, [⟨31, 0, .rw, 0x61a80⟩]⟩,
    ⟨0x408, 0, 1, [⟨31, 0, .ro, 0⟩, ⟨63, 32, .ro, 0⟩]⟩,
    ⟨0x410, 0, 1, [⟨31, 0, .ro, 0⟩]⟩,
    ⟨0x418, 0, 1, [⟨63, 0, .ro, 0⟩]⟩,
    ⟨0x420, 0, 1, [⟨63, 0, .ro, 0⟩]⟩,
    ⟨0x428, 0, 1, [⟨1, 0, .ro, 0⟩, ⟨15, 8, .ro, 0⟩, ⟨31, 16, .ro, 0⟩]⟩,
    ⟨0x430, 0, 1, [⟨31, 0, .ro, 0⟩]⟩,
    ⟨0x438, 0, 1, [⟨16, 0, .ro, 0⟩, ⟨42, 32, .ro, 0⟩, ⟨51, 48, .ro, 0⟩]⟩,
    ⟨0x440, 0, 1, [⟨0, 0, .wo, 0⟩, ⟨1, 1, .wo, 0⟩, ⟨2, 2, .wo, 0⟩, ⟨3, 3, .wo, 0⟩]⟩,
    ⟨0x480, 0, 1, [⟨31, 0, .ro, 0⟩]⟩,
    ⟨0x488, 0, 1, [⟨63, 0, .ro, 0⟩]⟩,
    ⟨0x490, 0, 1, [⟨31, 0, .ro, 0⟩]⟩,
    ⟨0x498, 0, 1, [⟨0, 0, .wo, 0⟩, ⟨1, 1, .wo, 0⟩, ⟨2, 2, .wo, 0⟩]⟩,
    ⟨0x4a0, 0, 1, [⟨31, 0, .ro, 0⟩]⟩,
    ⟨0x4a8, 0, 1, [⟨31, 0, .ro, 0⟩]⟩,
    ⟨0x4b0, 0, 1, [⟨0, 0, .wo, 0⟩, ⟨1, 1, .wo, 0⟩]⟩,
    ⟨0x4c0, 0, 1, [⟨31, 0, .ro, 0⟩]⟩,
    ⟨0x4c8, 0, 1, [⟨63, 0, .ro, 0⟩]⟩,
    ⟨0x4d0, 0, 1, [⟨0, 0, .wo, 0⟩, ⟨1, 1, .wo, 0⟩]⟩] ++
  [
    ⟨0x500, 0, 1, [⟨9, 0, .rw, 0⟩]⟩,
    ⟨0x508, 0, 1, [⟨6, 0, .ro, 0⟩, ⟨23, 7, .ro, 0⟩, ⟨24, 24, .ro, 0⟩, ⟨25, 25, .ro, 0⟩, ⟨26, 26, .ro, 0⟩, ⟨42, 27, .ro, 0⟩, ⟨58, 43, .ro, 0⟩]⟩,
    ⟨0x510, 0, 1, [⟨31, 0, .ro, 0⟩, ⟨63, 32, .ro, 0⟩]⟩,
    ⟨0x518, 0, 1, [⟨9, 0, .wo, 0⟩, ⟨10, 10, .wo, 0⟩]⟩,
    ⟨0x520, 0, 1, [⟨31, 0, .ro, 0⟩, ⟨41, 32, .ro, 0⟩, ⟨42, 42, .ro, 0⟩, ⟨43, 43, .ro, 0⟩]⟩,
    ⟨0x528, 0, 1, [⟨16, 0, .rw, 0⟩, ⟨20, 17, .rw, 0⟩, ⟨21, 21, .rw, 0⟩]⟩,
    ⟨0x530, 0, 1, [⟨31, 0, .ro, 0⟩, ⟨47, 32, .ro, 0⟩, ⟨50, 48, .ro, 0⟩, ⟨52, 51, .ro, 0⟩]⟩,
    ⟨0x538, 0, 1, [⟨31, 0, .ro, 0⟩]⟩,
    ⟨0x540, 0, 1, [⟨4, 0, .rw, 0⟩]⟩,
    ⟨0x548, 0, 1, [⟨15, 0, .ro, 0⟩, ⟨16, 16, .ro, 0⟩]⟩,
    ⟨0x550, 0, 1, [⟨0, 0, .wo, 0⟩, ⟨1, 1, .wo, 0⟩]⟩,
    ⟨0x580, 0, 1, [⟨31, 0, .ro, 0⟩]⟩,
    ⟨0x588, 0, 1, [⟨0, 0, .wo, 0⟩]⟩,
    ⟨0x600, 0, 1, [⟨47, 0, .rw, 0⟩]⟩,
    ⟨0x608, 0, 1, [⟨47, 0, .rw, 0⟩]⟩,
    ⟨0x610, 0, 1, [⟨63, 0, .rw, 0⟩]⟩,
    ⟨0x618, 0, 1, [⟨63, 0, .rw, 0⟩]⟩,
    ⟨0x620, 0, 1, [⟨63, 0, .rw, 0⟩]⟩,
    ⟨0x628, 0, 1, [⟨31, 0, .ro, 0⟩, ⟨63, 32, .ro, 0⟩]⟩,
    ⟨0x630, 0, 1, [⟨31, 0, .rw, 0x7f800000⟩]⟩] ++
  [
    ⟨0x638, 0, 1, [⟨1, 0, .ro, 0⟩, ⟨9, 2, .ro, 0⟩, ⟨57, 10, .ro, 0⟩, ⟨58, 58, .ro, 0⟩, ⟨59, 59, .ro, 0⟩]⟩,
    ⟨0x640, 0x10, 4, [⟨1, 0, .ro, 0⟩, ⟨3, 2, .ro, 0⟩, ⟨11, 4, .ro, 0⟩]⟩,
    ⟨0x648, 0x10, 4, [⟨31, 0, .ro, 0⟩, ⟨63, 32, .ro, 0⟩]⟩,
    ⟨0x680, 0, 1, [⟨31, 0, .ro, 0⟩, ⟨63, 32, .ro, 0⟩]⟩,
    ⟨0x688, 0, 1, [⟨16, 0, .ro, 0⟩]⟩,
    ⟨0x690, 0, 1, [⟨47, 0, .ro, 0⟩]⟩,
    ⟨0x698, 0, 1, [⟨0, 0, .wo, 0⟩]⟩,
    ⟨0x700, 0x8, 64, [⟨31, 0, .ro, 0⟩]⟩,
    ⟨0x900, 0, 1, [⟨11, 0, .ro, 0⟩, ⟨15, 12, .ro, 0⟩, ⟨63, 32, .ro, 0⟩]⟩,
    ⟨0x908, 0, 1, [⟨63, 0, .ro, 0⟩]⟩,
    ⟨0x910, 0, 1, [⟨31, 0, .ro, 0⟩, ⟨63, 32, .ro, 0⟩]⟩,
    ⟨0x918, 0, 1, [⟨0, 0, .wo, 0⟩, ⟨1, 1, .wo, 0⟩, ⟨2, 2, .wo, 0⟩]⟩,
    ⟨0xa00, 0, 1, [⟨0, 0, .rw, 0⟩, ⟨20, 1, .rw, 0⟩, ⟨52, 21, .rw, 0⟩]⟩,
    ⟨0xa08, 0, 1, [⟨63, 0, .rw, 0⟩]⟩,
    ⟨0xa10, 0, 1, [⟨15, 0, .rw, 0⟩]⟩,
    ⟨0xa18, 0, 1, [⟨47, 0, .ro, 0⟩, ⟨48, 48, .ro, 0⟩, ⟨49, 49, .ro, 0⟩, ⟨50, 50, .ro, 0⟩]⟩,
    ⟨0xa20, 0, 1, [⟨63, 0, .ro, 0⟩]⟩,
    ⟨0xa28, 0, 1, [⟨0, 0, .rw, 0⟩, ⟨20, 1, .rw, 0⟩]⟩,
    ⟨0xa30, 0, 1, [⟨31, 0, .rw, 0⟩, ⟨55, 32, .rw, 0⟩]⟩,
    ⟨0xa38, 0, 1, [⟨31, 0, .rw, 0⟩, ⟨63, 32, .rw, 0⟩]⟩] ++
  [
    ⟨0xa40, 0, 1, [⟨51, 0, .ro, 0⟩]⟩,
    ⟨0xa48, 0, 1, [⟨63, 0, .rw, 0⟩]⟩,
    ⟨0xa50, 0, 1, [⟨5, 0, .rw, 0⟩, ⟨31, 16, .rw, 0⟩]⟩,
    ⟨0xa58, 0, 1, [⟨31, 0, .rw, 0⟩, ⟨63, 32, .rw, 0⟩]⟩,
    ⟨0xa60, 0, 1, [⟨63, 0, .rw, 0⟩]⟩,
    ⟨0xa68, 0, 1, [⟨0, 0, .ro, 0⟩, ⟨1, 1, .ro, 0⟩, ⟨4, 2, .ro, 0⟩, ⟨52, 5, .ro, 0⟩]⟩,
    ⟨0xa70, 0, 1, [⟨31, 0, .ro, 0⟩]⟩,
    ⟨0xa78, 0, 1, [⟨0, 0, .wo, 0⟩, ⟨1, 1, .wo, 0⟩]⟩,
    ⟨0xb00, 0, 1, [⟨47, 0, .rw, 0⟩]⟩,
    ⟨0xb08, 0, 1, [⟨4, 0, .rw, 0xa⟩, ⟨5, 5, .wo, 0⟩]⟩,
    ⟨0xb10, 0, 1, [⟨31, 0, .ro, 0⟩, ⟨63, 32, .rw, 0⟩]⟩,
    ⟨0xb18, 0, 1, [⟨31, 0, .ro, 0⟩]⟩,
    ⟨0x1000, 0x40, 64, [⟨31, 0, .rw, 0⟩, ⟨63, 32, .rw, 0⟩]⟩,
    ⟨0x1008, 0x40, 64, [⟨31, 0, .rw, 0⟩, ⟨63, 32, .rw, 0⟩]⟩,
    ⟨0x1010, 0x40, 64, [⟨31, 0, .rw, 0⟩, ⟨63, 32, .rw, 0⟩]⟩,
    ⟨0x1018, 0x40, 64, [⟨31, 0, .rw, 0⟩, ⟨63, 32, .rw, 0⟩]⟩,
    ⟨0x1020, 0x40, 64, [⟨31, 0, .rw, 0⟩, ⟨63, 32, .rw, 0⟩]⟩,
    ⟨0x1028, 0x40, 64, [⟨1, 0, .rw, 0⟩, ⟨2, 2, .rw, 0⟩, ⟨63, 32, .rw, 0⟩]⟩,
    ⟨0x1030, 0x40, 64, [⟨31, 0, .rw, 0⟩, ⟨55, 32, .rw, 0⟩]⟩,
    ⟨0x1038, 0x40, 64, [⟨31, 0, .rw, 0⟩, ⟨63, 32, .rw, 0⟩]⟩]

/-- The PF ring and the PF event log of the RDG page: the registers 0x100 to 0x168 and 0xB00 to 0xB18 of a context window at
offsets 0x700 to 0x768 and 0x800 to 0x818 (R387, R395). -/
def pfRegs : List RegDef :=
  (ctxRegs.filter fun r => 0x100 ≤ r.off ∧ r.off ≤ 0x168).map (fun r =>
    RegDef.mk (r.off + 0x600) r.spacing r.count r.fields) ++
  (ctxRegs.filter fun r => 0xB00 ≤ r.off ∧ r.off ≤ 0xB18).map (fun r =>
    RegDef.mk (r.off - 0x300) r.spacing r.count r.fields)

/-- The registers of a page of kind `k`, the common header first. -/
def pageRegs (k : PageKind) : List RegDef :=
  match k with
  | .rdg => hdrRegs ++ rdgRegs ++ pfRegs
  | .rft => hdrRegs ++ rftRegs
  | .thc => hdrRegs ++ thcRegs
  | .eav => hdrRegs ++ eavRegs
  | .prl => hdrRegs ++ prlRegs
  | .btn => hdrRegs ++ btnRegs
  | .seq => hdrRegs ++ seqRegs
  | .dmr => hdrRegs ++ dmrRegs
  | .ctx => hdrRegs ++ ctxRegs
  | .guest => []

/-- PG_CAP.NSRC of a page kind (table *Register prefixes*). -/
def pageNsrc (k : PageKind) : Nat :=
  match k with
  | .rdg => 13
  | .rft => 2
  | .thc => 8
  | .eav => 5
  | .btn => 3
  | .dmr => 2
  | .prl | .seq | .ctx | .guest => 0

/-- PG_ID.KIND of a page kind. -/
def pageKindCode (k : PageKind) : Nat :=
  match k with
  | .rdg => 0
  | .rft => 1
  | .thc => 2
  | .eav => 3
  | .prl => 4
  | .btn => 5
  | .seq => 6
  | .dmr => 7
  | .ctx => 8
  | .guest => 0

/-- The definition that holds offset `off`, if a register occupies it. -/
def findReg (rs : List RegDef) (off : Nat) : Option RegDef :=
  rs.find? fun r =>
    r.off ≤ off ∧ (if r.spacing = 0 then off = r.off
      else (off - r.off) % r.spacing = 0 ∧ (off - r.off) / r.spacing < r.count)

/-- The reset value of a register: its fields' reset values in place. -/
def RegDef.resetWord (r : RegDef) : Word :=
  BitVec.ofNat 64 ((r.fields.map fun f => f.reset * 2 ^ f.lo).sum)

/-! ## Offsets of the registers within their page, under the manual's names (spaced registers: the first of the row) -/

namespace Off

abbrev PG_ID : Nat := 0x0
abbrev PG_CAP : Nat := 0x8
abbrev PG_CTL : Nat := 0x10
abbrev PG_STS : Nat := 0x18
abbrev PG_IRQ_RAW : Nat := 0x20
abbrev PG_IRQ_EN : Nat := 0x28
abbrev PG_IRQ : Nat := 0x30
abbrev PG_LOCK : Nat := 0x38
abbrev PG_ERR_LOCK : Nat := 0x40
abbrev PG_ERR : Nat := 0x48
abbrev PG_SCRATCH : Nat := 0x50
abbrev RDG_CLK : Nat := 0x80
abbrev RDG_CLK_AT : Nat := 0x88
abbrev RDG_PSTATE : Nat := 0x90
abbrev RDG_SAG : Nat := 0x98
abbrev RDG_THERM : Nat := 0xa0
abbrev RDG_PKG_RESET : Nat := 0xa8
abbrev RDG_BOOT : Nat := 0xb0
abbrev RDG_ALERT_EN : Nat := 0xb8
abbrev RDG_ASSET : Nat := 0xc0
abbrev RDG_SAT_PCIE_A : Nat := 0xc8
abbrev RDG_SAT_PCIE_B : Nat := 0xd0
abbrev RDG_PTP : Nat := 0xd8
abbrev RDG_BANDSEL : Nat := 0x300
abbrev RDG_BAND : Nat := 0x308
abbrev RDG_GRP_SEL : Nat := 0x340
abbrev RDG_GRP_STS : Nat := 0x348
abbrev RDG_RXWIN : Nat := 0x380
abbrev RDG_NODE : Nat := 0x388
abbrev RDG_BOUND_LO : Nat := 0x400
abbrev RDG_BOUND_HI : Nat := 0x408
abbrev RDG_DIE_LOST : Nat := 0x500
abbrev RDG_ROLE : Nat := 0x508
abbrev RDG_DIE_SEL : Nat := 0x510
abbrev RDG_DIE_STS : Nat := 0x518
abbrev RDG_PRIV : Nat := 0x600
abbrev RDG_XLATE_INV : Nat := 0x780
abbrev RDG_CTX_RESET : Nat := 0x788
abbrev RDG_ACCT_CLR : Nat := 0x790
abbrev RDG_ENERGY_IDLE : Nat := 0x798
abbrev RDG_MGMT : Nat := 0x7a0
abbrev RDG_FWACT : Nat := 0x7a8
abbrev RFT_MARGIN : Nat := 0x80
abbrev RFT_AGE_CFG : Nat := 0x88
abbrev RFT_AGE_CMD : Nat := 0x90
abbrev RFT_AGE_STS : Nat := 0x98
abbrev RFT_PROP_SEL : Nat := 0xa0
abbrev RFT_PROP_TILE : Nat := 0xa8
abbrev RFT_VOFF : Nat := 0xb0
abbrev RFT_RETIRE : Nat := 0xb8
abbrev RFT_BOOT : Nat := 0xc0
abbrev RFT_MAP_SEL : Nat := 0xc8
abbrev RFT_MAP : Nat := 0xd0
abbrev RFT_MAP2 : Nat := 0xd8
abbrev RFT_SAT_ARRAY : Nat := 0xe0
abbrev THC_TEMP : Nat := 0x80
abbrev THC_ECC_CE : Nat := 0x88
abbrev THC_ECC_UE : Nat := 0x90
abbrev THC_ECC_LAST : Nat := 0x98
abbrev THC_CE_WARN : Nat := 0xa0
abbrev THC_WINDOW_ERR : Nat := 0xa8
abbrev THC_CACHE_HIT : Nat := 0xb0
abbrev THC_CACHE_MISS : Nat := 0xb8
abbrev THC_ATOMIC : Nat := 0xc0
abbrev THC_MEM_CLR : Nat := 0xc8
abbrev THC_SAT : Nat := 0xd0
abbrev THC_LIG_BASE : Nat := 0x200
abbrev THC_LIG_LEN : Nat := 0x208
abbrev THC_LIG_AUX : Nat := 0x210
abbrev THC_LIG_AUX2 : Nat := 0x218
abbrev THC_LIG_CMD : Nat := 0x220
abbrev THC_LIG_STS : Nat := 0x228
abbrev THC_LIG_RES : Nat := 0x230
abbrev THC_LIG_CTL : Nat := 0x238
abbrev EAV_ETYPE : Nat := 0x80
abbrev EAV_DROP : Nat := 0x88
abbrev EAV_RELAY : Nat := 0x90
abbrev EAV_REROUTE : Nat := 0x98
abbrev EAV_REPLAY_WARN : Nat := 0xa0
abbrev EAV_CLR : Nat := 0xa8
abbrev EAV_SAT_SEL : Nat := 0xb0
abbrev EAV_WRR : Nat := 0x180
abbrev EAV_SAT_TX : Nat := 0x1c0
abbrev EAV_SAT_CLS : Nat := 0x200
abbrev EAV_PCTL : Nat := 0x400
abbrev EAV_PSTS : Nat := 0x408
abbrev EAV_LANE_INV : Nat := 0x410
abbrev EAV_MAC : Nat := 0x418
abbrev EAV_TXCNT : Nat := 0x420
abbrev EAV_REPLAY : Nat := 0x428
abbrev EAV_RXERR : Nat := 0x430
abbrev EAV_FECCNT : Nat := 0x438
abbrev PRL_COORD : Nat := 0x80
abbrev PRL_DETOUR : Nat := 0x88
abbrev PRL_ENERGY : Nat := 0x90
abbrev PRL_TEMP : Nat := 0x98
abbrev PRL_SAT : Nat := 0xa0
abbrev BTN_EDGE_STS : Nat := 0x80
abbrev BTN_RETIRE : Nat := 0x88
abbrev BTN_CRC : Nat := 0x90
abbrev BTN_STRAND_WARN : Nat := 0x98
abbrev SEQ_TB_NOW : Nat := 0x100
abbrev SEQ_TILE_SEL : Nat := 0x108
abbrev SEQ_TILE_STS : Nat := 0x110
abbrev DMR_CTL : Nat := 0x80
abbrev DMR_STS : Nat := 0x88
abbrev DMR_VIOL : Nat := 0x90
abbrev DMR_VLAST : Nat := 0x98
abbrev DMR_WBASE : Nat := 0x100
abbrev DMR_WDPA : Nat := 0x108
abbrev DMR_WCTL : Nat := 0x110
abbrev CTX_CMD_BASE : Nat := 0x100
abbrev CTX_CMD_CTL : Nat := 0x108
abbrev CTX_DOORBELL : Nat := 0x110
abbrev CTX_CMD_PTR : Nat := 0x118
abbrev CTX_CPL_BASE : Nat := 0x120
abbrev CTX_CPL_CTL : Nat := 0x128
abbrev CTX_CPL_STS : Nat := 0x130
abbrev CTX_RES_MBOX : Nat := 0x140
abbrev CTX_RES_ACK : Nat := 0x160
abbrev CTX_RES_STS : Nat := 0x168
abbrev CTX_STATE : Nat := 0x170
abbrev CTX_FAULT : Nat := 0x178
abbrev CTX_FAULT_TIME : Nat := 0x180
abbrev CTX_IRQ_RAW : Nat := 0x188
abbrev CTX_IRQ_EN : Nat := 0x190
abbrev CTX_IRQ : Nat := 0x198
abbrev CTX_IRQ_VEC : Nat := 0x1a0
abbrev CTX_APERTURE : Nat := 0x1b0
abbrev CTX_INGEST_WIN : Nat := 0x1b8
abbrev CTX_INGEST : Nat := 0x1c0
abbrev CTX_TILE_CYCLES : Nat := 0x200
abbrev CTX_HOLD_LIMIT : Nat := 0x400
abbrev CTX_CONTRACT_MISS : Nat := 0x408
abbrev CTX_SLIP_MAX : Nat := 0x410
abbrev CTX_SLIP_CYCLES : Nat := 0x418
abbrev CTX_ACCEPT_WAIT : Nat := 0x420
abbrev CTX_PROMISE : Nat := 0x428
abbrev CTX_SUSP_LATE : Nat := 0x430
abbrev CTX_WD_SITE : Nat := 0x438
abbrev CTX_SCHED_CLR : Nat := 0x440
abbrev CTX_MX_SAT : Nat := 0x480
abbrev CTX_ROWGATE : Nat := 0x488
abbrev CTX_POISON_OPS : Nat := 0x490
abbrev CTX_ARITH_CLR : Nat := 0x498
abbrev CTX_MASKED_ROWS : Nat := 0x4a0
abbrev CTX_SFU_NAN : Nat := 0x4a8
abbrev CTX_SFU_CLR : Nat := 0x4b0
abbrev CTX_SLOT_OVERFLOW : Nat := 0x4c0
abbrev CTX_SLOT_EMPTY : Nat := 0x4c8
abbrev CTX_SLOT_CLR : Nat := 0x4d0
abbrev CTX_QSEL : Nat := 0x500
abbrev CTX_QSTAT : Nat := 0x508
abbrev CTX_QCOUNT : Nat := 0x510
abbrev CTX_QFLUSH : Nat := 0x518
abbrev CTX_QFLUSH_STS : Nat := 0x520
abbrev CTX_CHSEL : Nat := 0x528
abbrev CTX_CHSTAT : Nat := 0x530
abbrev CTX_CHSTALL : Nat := 0x538
abbrev CTX_VRSEL : Nat := 0x540
abbrev CTX_VRING : Nat := 0x548
abbrev CTX_PIPE_CLR : Nat := 0x550
abbrev CTX_MEM_POISON : Nat := 0x580
abbrev CTX_MEM_CLR : Nat := 0x588
abbrev CTX_STEP : Nat := 0x600
abbrev CTX_RNG_STEP : Nat := 0x608
abbrev CTX_DATA_CURSOR : Nat := 0x610
abbrev CTX_DATA_STRIDE : Nat := 0x618
abbrev CTX_SEED : Nat := 0x620
abbrev CTX_SKIP_COUNT : Nat := 0x628
abbrev CTX_NORM_LIMIT : Nat := 0x630
abbrev CTX_VERDICT : Nat := 0x638
abbrev CTX_VSLOT_STS : Nat := 0x640
abbrev CTX_VSLOT_SUM : Nat := 0x648
abbrev CTX_GNS_SQ : Nat := 0x680
abbrev CTX_GNS_COUNT : Nat := 0x688
abbrev CTX_GNS_STEP : Nat := 0x690
abbrev CTX_TRAIN_CLR : Nat := 0x698
abbrev CTX_PS_RATE : Nat := 0x700
abbrev CTX_COLL_STS : Nat := 0x900
abbrev CTX_COLL_CHUNKS : Nat := 0x908
abbrev CTX_STALE_EPOCH : Nat := 0x910
abbrev CTX_COLL_CLR : Nat := 0x918
abbrev CTX_MIR_OUT : Nat := 0xa00
abbrev CTX_MIR_SETS : Nat := 0xa08
abbrev CTX_MIR_RATE : Nat := 0xa10
abbrev CTX_MIR_STS : Nat := 0xa18
abbrev CTX_MIR_WAIT : Nat := 0xa20
abbrev CTX_MIR_IN : Nat := 0xa28
abbrev CTX_MIR_INBASE : Nat := 0xa30
abbrev CTX_MIR_INBASE2 : Nat := 0xa38
abbrev CTX_MIR_HELD : Nat := 0xa40
abbrev CTX_SNAP_ADDR : Nat := 0xa48
abbrev CTX_CKPT_CTL : Nat := 0xa50
abbrev CTX_CKPT_PERIOD : Nat := 0xa58
abbrev CTX_CKPT_DEST : Nat := 0xa60
abbrev CTX_CKPT_STS : Nat := 0xa68
abbrev CTX_CKPT_COUNT : Nat := 0xa70
abbrev CTX_RES_CLR : Nat := 0xa78
abbrev CTX_EVLOG_BASE : Nat := 0xb00
abbrev CTX_EVLOG_CTL : Nat := 0xb08
abbrev CTX_EVLOG_PTR : Nat := 0xb10
abbrev CTX_EVLOG_LOST : Nat := 0xb18
abbrev CTX_PS_LR : Nat := 0x1000
abbrev CTX_PS_SCHED : Nat := 0x1008
abbrev CTX_PS_BETA : Nat := 0x1010
abbrev CTX_PS_EPS_WD : Nat := 0x1018
abbrev CTX_PS_SCALE : Nat := 0x1020
abbrev CTX_PS_CTL : Nat := 0x1028
abbrev CTX_PS_SHADOW : Nat := 0x1030
abbrev CTX_PS_SHADOW2 : Nat := 0x1038
abbrev CTX_BYTES_MRD : Nat := 0x208
abbrev CTX_BYTES_MWR : Nat := 0x210
abbrev CTX_BYTES_ETX : Nat := 0x218
abbrev CTX_BYTES_ERX : Nat := 0x220
abbrev CTX_BYTES_PCIE : Nat := 0x228
abbrev CTX_ENERGY_UJ : Nat := 0x230
abbrev PF_EVLOG_BASE : Nat := 0x800

end Off

end Sys2Proof.Machine
end

