-- ==== Sys2Proof/Machine/State.lean ====
section
/-! DEFINITION. The state of the UV-6400: every register, table, queue, memory and pin the manual gives the package, as
plain data, with the queue of waiting commands. Registers stand in `regs` under their BAR address; what is no register
has a field of its own. -/

namespace Sys2Proof.Machine

/-- A sparse table: keys strictly rising, and no entry equal to what an unlisted key holds (Machine/Ops.lean). -/
abbrev Table (α : Type) := List (Nat × α)

/-- Why the machine stops. The manual calls nothing undefined (R7) and gives every command an effect or none, so no
meaning raises a fault: a context fault (R401) is a state. -/
inductive Fault where
  /-- Nobody raises it. It keeps the type inhabited; safe. -/
  | unused
deriving DecidableEq, Repr

/-- Why a command has no meaning here. -/
inductive Refusal where
  /-- The command has no meaning yet. Raised by no arm of this model; safe. -/
  | notModelled (mnemonic : String)
  /-- An access to internal test chains after an authenticated unlock (TEST_ACCESS_PORT, R31): the manual does not say what
  the chains do. Raised by execTestAccessPort; safe, the model stops. -/
  | internalTestChain
deriving DecidableEq, Repr

/-! ## Launches, commands and completions -/

/-- A completion record without its ring and mailbox bits (table *Completion record*, R389). -/
structure Completion where
  seq : BitVec 32
  op : Nat
  status : Nat
  time : Word
  word2 : Word
  word3 : Word
deriving DecidableEq, Repr

/-- A launch in the queue of a context: SEQ of its command, T₀ (R383), and whether its ready cycle has been reached while
a power state held it back (R410). -/
structure Launch where
  seq : BitVec 32
  t0 : Nat
  missed : Bool
deriving DecidableEq, Repr

/-- What one tile hands to a verdict slot: logical tile ID, flags, sums, and the counter that gets the token (R244). -/
structure Contribution where
  tile : Nat
  flags : BitVec 8
  nsum : F32
  ssum : F32
  ctr : Nat
deriving DecidableEq, Repr

/-- A member's vote as the root holds it (R246). -/
structure VoteRec where
  node : Nat
  flags : BitVec 8
  nsum : F32
  ssum : F32
  step : BitVec 48
deriving DecidableEq, Repr

/-- A decision on a verdict slot (R246): 1 COMMIT, 2 SKIP, 3 ABORTED, with flags and sums. -/
structure Decision where
  code : Nat
  flags : BitVec 8
  nsum : F32
  ssum : F32
deriving DecidableEq, Repr

/-- A decision that has reached this package and is applied at its time t_d (R248, R249): SEQ of the launch, slot, decision. -/
structure Due where
  seq : BitVec 32
  slot : Nat
  decision : Decision
deriving DecidableEq, Repr

/-- A verdict slot of the running launch (R243 to R249): its operands, sequence value and epoch, what it has gathered, and
how far it has come (STATE of CTX_VSLOT_STS: 0 idle, 1 gathering, 2 voted, 3 decided). `stageEnd` is the time its package
stage ended, `decision` 1 COMMIT, 2 SKIP, 3 ABORTED. -/
structure Slot where
  group : Nat
  final : Bool
  gslot : Nat
  ncontrib : Nat
  seq : Option (BitVec 32)
  epoch : BitVec 16
  given : List Contribution
  lastGiven : Nat
  pkg : Option Contribution
  stageEnd : Nat
  state : Nat
  decision : Nat
  flags : BitVec 8
  nsum : F32
  ssum : F32
deriving DecidableEq, Repr

/-- The running launch of a context: from its ready cycle until every tile has issued END or the context faults (R384).
The values taken at T₀ stand here (R237, R243, R253, R258). -/
structure Running where
  seq : BitVec 32
  t0 : Nat
  started : Bool
  step0 : BitVec 48
  seed : Word
  normLimit : F32
  stride : Word
  newest0 : Table (BitVec 16)
  slots : Table Slot
  skipped : Bool
  aborted : Bool
  finalDecision : Nat
  chargedFrom : Nat
deriving DecidableEq, Repr

/-- A verdict slot that the plans of a plan set use: its VERDICT operands (R243). -/
structure SlotDef where
  group : Nat
  final : Bool
  gslot : Nat
  ncontrib : Nat
deriving DecidableEq, Repr

/-- A plan set that LOAD_PLAN has accepted (R70 to R72, R95), and the verdict slots its plans use. -/
structure PlanSet where
  divider : Nat
  courses : Nat
  refillRate : Nat
  slots : Table SlotDef
deriving DecidableEq, Repr

/-- A command that has been taken and completes later: LOAD_PLAN, SNAPSHOT or EXPORT (R382, R383). -/
inductive Open where
  | loadPlan (seq : BitVec 32)
  | snapshot (seq : BitVec 32) (host : Nat) (sets rings : Nat)
  | exportRing (seq : BitVec 32) (host ring : Nat)
deriving DecidableEq, Repr

/-! ## Tiles -/

/-- A write into scratchpad that an operation has still to make: first byte, bytes, whether the lines it writes are
poisoned (R451), and the cycle from which it is in place where that comes before the end of the operation (R104). -/
structure ScratchWrite where
  at_ : Nat
  data : List Byte
  poison : Bool
  due : Option Nat := none
deriving DecidableEq, Repr

/-- What a unit operation does when its latency ends (R54, R103): its entry with its plan position and issue time, its writes, its
counter increments, the verdict flags and sums it raises (R240, R241), and the collective instance its output feeds (R260). -/
structure UnitOp where
  entry : EntryBits
  pos : Nat
  startAt : Nat
  endAt : Nat
  writes : List ScratchWrite
  sat : Nat
  gate : Nat
  poisonOps : Nat
  sfuNan : Nat
  masked : Nat
  overflow : Nat
  flags : BitVec 8
  nsum : Option F32
  ssum : Option F32
  ctr : Option Nat
  inst : Option Nat
deriving DecidableEq, Repr

/-- A pass loop of a REPEAT entry: first body position, body length, passes, index of the running pass (R81). -/
structure Rep where
  first : Nat
  len : Nat
  passes : Nat
  index : Nat
deriving DecidableEq, Repr

/-- One of the 8 frames of plan store: the segment it holds or has requested, and its entries; none until they are resident
(R91 to R93). -/
structure FrameSlot where
  seg : Option Nat
  entries : List EntryBits
deriving DecidableEq, Repr

/-- A receive endpoint (R193 to R195): armed for a RECV, or gathering a COMBINE with the contributions accepted so far
(source tile, bytes, poison); `sumAt` is when the sum is written. -/
structure RxEp where
  armed : Bool
  fromCycle : Nat
  combine : Bool
  ctr : Nat
  dstLine : Nat
  maxLen : Nat
  hdrLine : Nat
  nsend : Nat
  fmt : Nat
  got : List (Nat × List Byte × Bool)
  sumAt : Option Nat
  msgs : BitVec 32
  nacks : BitVec 16
  reason : BitVec 3
deriving DecidableEq, Repr

/-- A send endpoint (R90): busy from issue until the outcome is known, with the SEND's operands, the attempts left, the
time from which the next attempt may go, and the channel counters of CTX_CHSTAT and CTX_CHSTALL. -/
structure TxEp where
  busy : Bool
  target : Nat
  rxEp : Nat
  len : Nat
  srcLine : Nat
  ackCtr : Nat
  retries : Nat
  rgap : Nat
  rate : Nat
  position : Nat
  lastTry : Nat
  nackAt : Option Nat
  msgs : BitVec 32
  nacks : BitVec 16
  reason : BitVec 3
  outcome : BitVec 2
  stall : BitVec 32
deriving DecidableEq, Repr

/-- A logical tile of a context: its plan and plan store (R91 to R95), its sequencer (R43 to R53, R81 to R83), token
counters (R47) with the cycle of the last addition to each and what was added in it (R48), version registers (R190), verdict flags and pending sums (R244), units (R61), endpoints (R90, R193), pool
ordinals and collective instance counts (R272, R280), and the UV-1600 generator (R255). -/
structure Tile where
  planAddr : Nat
  length : Nat
  descs : List Bits512
  frames : List FrameSlot
  ptrSeg : Nat
  running : Bool
  pos : Nat
  prevA : Nat
  planned : Nat
  reps : List Rep
  subEnd : Option (Nat × Nat)
  tokens : Table (BitVec 16)
  fresh : Table (Nat × Nat)
  vr0 : BitVec 16
  vr1 : BitVec 16
  flags : BitVec 8
  nsum : F32
  ssum : F32
  matrix : Option UnitOp
  vector : Option UnitOp
  special : Option UnitOp
  streams : Table UnitOp
  rx : Table RxEp
  tx : Table TxEp
  poolOrd : Table (BitVec 32)
  instCount : Table Nat
  uv1600 : BitVec 128
deriving DecidableEq, Repr

/-! ## Transfers -/

/-- A part of a memory transfer that one request moves: a run of bytes inside one 256-byte block, at a context virtual
address or at a device physical address, at `off` in the transfer's buffer (R201, R221). -/
structure Seg where
  addr : Nat
  len : Nat
  off : Nat
deriving DecidableEq, Repr

/-- What a transfer moves and where (R57, R87 to R90, R160 to R163, R173, R183, R273, R349). -/
inductive XKind where
  | streamIn (line layout : Nat) (elem row : Nat)
  | streamOut (line layout : Nat) (elem row : Nat) (atop : Nat) (shadow : Bool)
  | gather (e : EntryBits) (d : Bits512)
  | scatter (e : EntryBits) (d : Bits512)
  | clear (e : EntryBits) (d : Bits512)
  | refill (seg frame : Nat)
  | signal (target ctr inc : Nat)
  | message (ep : Nat)
  | ack (ep : Nat) (accepted : Bool) (reason : Nat)
  | qpush (link srcLine len mb ver : Nat) (remote : Bool)
  | qpop (link dstLine maxLen expMb : Nat) (check trunc : Bool) (vload hdrLine : Nat)
  | piece (group : Nat) (epoch : BitVec 16) (member : Nat) (msg : CollMsg) (poison : List (Nat × Nat))
  | ringPass (group : Nat) (epoch : BitVec 16) (member : Nat) (msg : CollMsg) (poison : List (Nat × Nat))
  | mirrorPage (page : Nat)
deriving DecidableEq, Repr

/-- Something an absorbed fault affects (R445): an edge direction, a stack and its controller, a logical link with all its
classes, one class of a logical link or lane. -/
inductive Elem where
  | edge (die dir : Nat)
  | stack (t : Nat)
  | link (key : Nat)
  | linkClass (key cls : Nat)
deriving DecidableEq, Repr

/-- A transfer under R57: the tile and plan position that issued it, its stream engine, token counter, size, contracted
rate and path bound, issue and acceptance time, deadline (none: it has none, R60) and unextended deadline, the requests
that move it, its buffer and the poisoned ranges of it, the requests done, the elements its route crosses, the chunks of 4 KiB that it has
taken stream buffer for and the requests whose bytes have left it (R220), the parts of it that a fence has discarded on their way (R326), and
whether its context has been stopped and only what has left its tile is still delivered (R401). -/
structure Xfer where
  tile : Nat
  position : Nat
  engine : Option Nat
  ctr : Option Nat
  kind : XKind
  size : Nat
  rate : Nat
  boundNs : Nat
  issuedAt : Nat
  acceptedAt : Option Nat
  deadline : Option Nat
  baseDeadline : Nat
  extended : Bool
  segs : List Seg
  done : List Nat
  waiting : List Nat
  buf : List Byte
  bufPoison : List (Nat × Nat)
  cache : Bool
  crosses : List Elem
  words : Nat
  chunks : List Nat := []
  landed : List Nat := []
  lost : List Nat := []
  orphan : Bool := false
deriving DecidableEq, Repr

/-! ## Stage links and version rings -/

/-- A stage-link entry (R170). -/
structure StageLink where
  txEn : Bool
  rxEn : Bool
  remote : Bool
  maxLen : Nat
  destNode : Nat
  destLink : Nat
  qEave : Bool
  qDie : Nat
  depth : Nat
  high : Nat
  low : Nat
  pktHigh : Nat
  pktLow : Nat
  arrTile : Nat
  arrCtr : Nat
deriving DecidableEq, Repr

/-- A word of a queue block: 64 bytes, its eight parity bits as written, end mark, poison tag (R177), and the cycle of its producer edge
(R178). -/
structure QWord where
  data : List Byte
  parity : BitVec 8
  last : Bool
  poison : Bool
  at_ : Nat
deriving DecidableEq, Repr

/-- A packet that has been counted: its words, MB_ID and version tag. -/
structure Packet where
  words : List QWord
  mb : BitVec 16
  ver : BitVec 16
deriving DecidableEq, Repr

/-- The micro-batch queue of a receive half (R177 to R187): packets counted at the consumer, packets whose words are all
written and wait for the clock crossing, words of the packet being written, packets read whose space the producer has not
seen freed (cycle of the read, words), the flow state, overrun bit, pending tail discard, and what CTX_QSTAT and CTX_QCOUNT show. `off` is
the producer-side flow state, `offAt` when it last turned OFF, `seenOff` the state a transmit half has from its peer, `peer`
the node of a remote producer. `order` holds the transfers accepted on the link that have not arrived, in acceptance order, `lastDeadline`
the deadline of the last one accepted (R173), `enteredAt` the cycle in which the last packet to enter whole did so (R175). -/
structure Queue where
  packets : List Packet
  written : List Packet
  partialWords : List QWord
  partialMb : BitVec 16
  partialVer : BitVec 16
  reads : List (Nat × Nat)
  off : Bool
  seenOff : Bool
  turnedOnAt : Option Nat
  offAt : Nat
  peer : Option Nat
  overrun : Bool
  tail : Bool
  lastMb : BitVec 16
  lastVer : BitVec 16
  popped : BitVec 32
  parityFails : BitVec 32
  order : List Nat
  lastDeadline : Nat
  enteredAt : Option Nat
  skipping : Bool
deriving DecidableEq, Repr

/-- A version-ring entry (R188). -/
structure VRing where
  base : Nat
  stride : Nat
  slots : Nat
  newest : BitVec 16
  advance : Bool
  valid : Bool
deriving DecidableEq, Repr

/-! ## Collectives -/

/-- A group-table entry with its copied member list, its running sequence, and the votes the root holds by sequence value and
slot (R246, R263, R265). -/
structure Group where
  ctx : Nat
  alg : Nat
  cls : Nat
  epoch : BitVec 16
  members : List Nat
  self : Nat
  chunk : Nat
  node : Nat
  pool : Nat
  order : Nat
  npool : Nat
  rate : Nat
  stgLine : Nat
  stgLines : Nat
  ctr : Nat
  ltFirst : Nat
  ltCount : Nat
  seq : BitVec 32
  votes : List (BitVec 32 × Nat × VoteRec)
deriving DecidableEq, Repr

/-- A byte of a collective's data, and whether it is poisoned (R269). -/
abbrev PByte := Byte × Bool

/-- A part of a piece in a half of a tile's staging area (R271): its piece, its offset and length, the bytes of it that have arrived, its half. -/
structure Staged where
  tag : PieceTag
  off : Nat
  len : Nat
  got : Nat
  half : Nat
deriving DecidableEq, Repr

/-- What one tile has in a collective instance: the size of its contribution in bytes, its output and result areas, its contribution
once read (R260), the chunks whose tokens it has been given, the parts in its staging area. -/
structure InstTile where
  size : Nat
  outLine : Nat
  resLine : Nat
  contrib : Option (List PByte)
  given : List Nat
  staging : List Staged := []
deriving DecidableEq, Repr

/-- A collective instance (R267 to R273): group, its ordinal among the group's instances of the epoch, sequence value, epoch, pool
ordinal, COLL_OP, RED_FMT, participating tiles, pieces received, parts of pieces still arriving with their offsets, areas of a RING_PASS received for
a tile, the legs already sent, and the tiles whose RING_PASS area has been taken for sending. -/
structure Inst where
  group : Nat
  ordinal : Nat
  seq : BitVec 32
  epoch : BitVec 16
  poolOrd : BitVec 32
  op : Nat
  redFmt : Nat
  tiles : Table InstTile
  received : List (PieceTag × List PByte)
  arriving : List (PieceTag × Nat × List PByte)
  areas : Table (List PByte)
  performed : List PieceTag
deriving DecidableEq, Repr

/-! ## Contexts -/

/-- The installed descriptor of a context (table *Context descriptor*). -/
structure CtxCfg where
  priority : Nat
  setKind : Nat
  setIdx : Nat
  share : Nat
  pshare : Nat
  courses : List Nat
  ttRoot : Nat
  eshare : List Nat
deriving DecidableEq, Repr

/-- What CTX_STATE.STATE distinguishes beyond its launches (R404). -/
inductive CtxPhase where
  | normal
  | faulted
  | resetting
deriving DecidableEq, Repr

/-- A mirror generation in progress (R349): its number, whether it is FULL, the mirrored pages still to be sent, and
whether its end record has gone. -/
structure MirrorGen where
  gen : BitVec 48
  full : Bool
  left : List Nat
  endSent : Bool
deriving DecidableEq, Repr

/-- An entry of a translation cache: the 64 KiB or 2 MiB page it maps and its level-2 entry (R378, R379). -/
structure TlbEntry where
  page : Nat
  big : Bool
  entry : Word
deriving DecidableEq, Repr

/-- A context (R370 to R404). `taken` holds, by window offset, the values still in force of training registers
written while a launch ran, until the next T₀ (R258). `ended` are the launches that have ended with verdicts open: by a fault, for what this
package still has to decide as root (R250), or after every END, for the decisions still to come. `due` are the decisions that have reached this
package and are not applied yet, in rising slot order (R249). `sealed_` is the image of the last checkpoint's COMMIT (R360). -/
structure Ctx where
  cfg : Option CtxCfg
  boundB : Bool
  rebinding : Bool
  phase : CtxPhase
  plan : Option PlanSet
  openCmd : Option Open
  queue : List Launch
  running : Option Running
  ended : List Running
  due : List Due
  mailbox : List Completion
  lastAck : BitVec 32
  held : List Completion
  cplPhase : Bool
  links : Table StageLink
  rings : Table VRing
  queues : Table Queue
  tiles : Table Tile
  xfers : Table Xfer
  nextXfer : Nat
  insts : Table Inst
  nextInst : Nat
  tlb : List TlbEntry
  mirrorGen : Option MirrorGen
  mirrorFull : Bool
  mirrorDoneAt : Nat
  heldFull : Bool
  snapFresh : Bool
  ckptEnd : Option Nat
  ckptCommits : Nat
  ckptTimer : Nat
  sealed_ : Option (BitVec 48 × SealedImage)
  taken : Table Word
deriving DecidableEq, Repr

/-! ## Link layer -/

/-- A direct route entry (R292). -/
structure Route where
  primary : Nat
  secondary : Nat
  pepoch : BitVec 16
  bound : Nat
  macP : BitVec 48
  macS : BitVec 48
  lanes : Word
deriving DecidableEq, Repr

/-- A prefix entry (table *Prefix entry*). -/
structure PrefixEntry where
  bits : Nat
  plen : Nat
  via : Nat
deriving DecidableEq, Repr

/-- A frame that waits to be sent, and the transfer it belongs to (context, number), if any; of a vote or decision the context and the last
cycle within the bound of its stage (R247). -/
structure TxFrame where
  frame : Frame
  owner : Option (Nat × Nat)
  stage : Option (Nat × Nat) := none
deriving DecidableEq, Repr

/-- A frame held for retransmission: its sequence number, when it was last sent, the frame (R299), its transfer, its stage (R247). -/
structure HeldFrame where
  seq : BitVec 32
  sentAt : Nat
  frame : Frame
  owner : Option (Nat × Nat)
  stage : Option (Nat × Nat) := none
deriving DecidableEq, Repr

/-- The state of one class of a logical link (R298 to R301): next number to send, UNA, EXP, whether a negative
acknowledgement has been sent for the present gap, whether an acknowledgement is due, FREED, SENT and FREED_held, frames
held, frames waiting to be sent, the position of a replay in progress and the last number it resends. -/
structure LinkClass where
  next : BitVec 32
  una : BitVec 32
  exp : BitVec 32
  nakSent : Bool
  ackDue : Bool
  freed : Word
  sent : Word
  freedHeld : Word
  held : List HeldFrame
  txq : List TxFrame
  replay : Option (BitVec 32)
  replayEnd : BitVec 32
deriving DecidableEq, Repr

/-- A logical link or a mirror lane of it (R292, R302, R310, R312, R352): which port is active, the ports failed for it, DOWN, when the
last frame, the last frame of a class other than 1, arrived, when the last such frame and the last LINKCTL were sent, since when it has
been active on its port, the latest KALIVE, whether the replay after a move still runs, and whether its active port has failed and the move to
the other is due. -/
structure Link where
  classes : Table LinkClass
  onSecondary : Bool
  failedP : Bool
  failedS : Bool
  down : Bool
  lastRx : Nat
  lastData : Nat
  lastTx : Nat
  lastCtl : Nat
  since : Nat
  peerKalive : Bool
  movedUntil : Bool
  moving : Bool
deriving DecidableEq, Repr

/-- What an Eave port has beside its registers (R34, R275, R288, R305, R411): its powered lanes, the class-0 and 1 shaping bucket, bytes in its
receive buffer per priority, priorities it has paused at its peer with the time of the last pause, priorities the peer has paused here until a
time, frames held in ingress memory in keep-alive, frames that found no room there, the service of the weighted classes (the port's virtual
time, and each class's), and the cycle in which it ends the frame that it transmits. -/
structure Port where
  lanes : List Nat
  bucket : Nat
  bucketAt : Nat
  fill : Table Nat
  pausedPeer : Table Nat
  pausedUntil : Table Nat
  ingress : List RxFrame
  rxbuf : List RxFrame
  vtime : Nat
  served : Table Nat
  busyUntil : Nat
deriving DecidableEq, Repr

/-- A frame on the wire but for its FCS (table *Frame on the wire*, R290): MAC addresses, 802.1Q tag, EtherType, the words of the transport header,
the payload where the manual lays it out, bytes of padding. -/
structure EthFrame where
  dst : BitVec 48
  src : BitVec 48
  tpid : BitVec 16
  tci : BitVec 16
  etype : BitVec 16
  header : List Word
  payload : Option (List Byte)
  pad : Nat
deriving DecidableEq, Repr

/-- A frame of pause or data that the device has put on a port's wire; nothing reads it back. -/
inductive WireFrame where
  | data (port : Nat) (e : EthFrame) (f : Frame)
  | pause (port prio quanta : Nat)
deriving DecidableEq, Repr

/-- What a host port's link has negotiated (R36): width, lane reversal, lanes of inverted polarity. -/
structure HostLanes where
  width : Nat
  reversed : Bool
  inverted : List Nat
deriving DecidableEq, Repr

/-- An MSI-X message: port, function (none: the PF), vector (R393, R394). -/
structure Msix where
  portB : Bool
  vf : Option Nat
  vector : Nat
deriving DecidableEq, Repr

/-! ## Dies, memory and Ligger engines -/

/-- A die: coordinates learnt, whether discovery has reached it and found two coordinates or a wrong kind, whether it has
reported, whether its function and its PRL page are ready, whether it is fenced and why (CAUSE of RDG_DIE_STS), the
neighbours it has marked LOST, whether it is powered, and the edge on which the discovery wave first came (R323). -/
structure Die where
  coord : Option (Nat × Nat)
  conflict : Bool
  wrongKind : Bool
  reported : Bool
  ready : Bool
  prlReady : Bool
  fenced : Bool
  cause : Nat
  marked : List Nat
  powered : Bool
  waveFrom : Option Nat
deriving DecidableEq, Repr

/-- A Purlin packet (R315, R316): its class, its 1 to 8 flits, its ends, the hops still before it (die entered, edge direction, lane), the lane
that it came on, the transfer whose part it is (context, number; part), what its sink answers with (class, bytes), how many flits have left
the router where it is, and the cycle from which it can go on from there. -/
structure PurlinPacket where
  cls : Nat
  flits : Nat
  src : Nat
  dst : Nat
  hops : List (Nat × Nat × Nat)
  lane : Nat
  owner : Nat × Nat
  part : Nat
  reply : Option (Nat × Nat)
  sent : Nat
  ready : Nat
deriving DecidableEq, Repr

/-- A vote or decision that the managing Ridge has not confirmed as sent (R331): node, TYPE, object, context, epoch, message. -/
structure Unsent where
  node : Nat
  typ : Nat
  obj : Nat
  ctx : Nat
  epoch : BitVec 16
  msg : CtlMsg
deriving DecidableEq, Repr

/-- A command that an MGMT frame brought and that waits (R387): node it came from, entry, and how many commands of the managing Ridge's PF ring
arrived before it and still wait. -/
structure MgmtCmd where
  node : Nat
  entry : Bits512
  behind : Nat
deriving DecidableEq, Repr

/-- A way of a cache set: the stack-local 256-byte line it holds and the dirty sectors of it (bytes and poison) (R214). -/
structure Way where
  line : Nat
  dirty : List (Nat × List Byte × Bool)
deriving DecidableEq, Repr

/-- A sector that the controller is to read again, with the transfer that waits for it (R210). -/
structure Reread where
  stack : Nat
  sector : Nat
  ctx : Nat
  xfer : Nat
deriving DecidableEq, Repr

/-- A Ligger command that its engine has accepted (R224): OP with its range, AUX, AUX2 and the fields of THC_LIG_CMD, the blocks of the
engine processed so far (of a RESTORE or REBUILD: pages), the CRC-64 over them (VERIFY), whether its action has been done, the outcome due
at its end, and the host port whose memory it uses. -/
structure LigJob where
  op : Nat
  base : Nat
  len : Nat
  aux : Nat
  aux2 : Nat
  fmt : Nat
  strm : Nat
  at_ : Nat
  crc : Nat
  done : Bool
  failed : Bool
  portB : Bool
deriving DecidableEq, Repr

/-- A Dormer site's traffic (R335): requests waiting for tokens, the tokens of its bucket in bytes, and what the device
has answered to it (none: poison). -/
structure Site where
  waiting : List GuestReq
  bucket : Nat
  bucketAt : Nat
  answers : List (Option (List Byte))
deriving DecidableEq, Repr

/-- A sealed image written to host memory (R256, R360, R388): host address, what it holds. -/
structure HostImage where
  addr : Nat
  ctx : Nat
  step : BitVec 48
  image : SealedImage
deriving DecidableEq, Repr

/-- The firmware flash of a Ridge (R420, R422): the signature check of each image, and the port configuration. -/
structure Flash where
  primary : Bool
  secondary : Bool
  portCfg : Option (Bool × List Byte)
deriving DecidableEq, Repr

/-- A divider change on its way (R406, R407): the new divider, whether it is a RESTORE, the time of the write. -/
structure DivChange where
  div : Nat
  restore : Bool
  written : Nat
deriving DecidableEq, Repr

/-- A tile retirement in progress or done on a Rafter die (R368): retired or failed tile, spare that took its place. -/
structure Retired where
  tile : Nat
  spare : Nat
  copying : Bool
deriving DecidableEq, Repr

/-- What a Rafter die has beside its registers (R21, R366 to R368, R421): its spare tiles, tiles that failed self-test,
replacements, and the proposals of the last margin epoch. -/
structure Rafter where
  spares : List Nat
  failed : List Nat
  retired : List Retired
  proposals : List Nat
deriving DecidableEq, Repr

/-! ## One cycle (R444) -/

/-- A fault that has been detected in the present cycle and takes effect at its end (R62): context, fault code, and of a schedule
fault the site: its code, logical tile and plan-store entry index. -/
structure PendFault where
  ctx : Nat
  code : Nat
  site : Option (Nat × Nat × Nat)
deriving DecidableEq, Repr

/-- Events of one cycle that the manual orders among themselves, by what they meet in: transfers accepted on a stage link (R173,
R175), messages at a receive endpoint (R193), requests at a stack (R216), decisions of a context (R249). -/
inductive OrderKey where
  | linkAccept (c link : Nat)
  | endpoint (c tile ep : Nat)
  | stack (t : Nat)
  | decision (c : Nat)
deriving DecidableEq, Repr

/-- The order is that of the requests at a stack, which holds for a cycle of CLK_F (R216). -/
def OrderKey.isStack (k : OrderKey) : Bool :=
  match k with
  | .stack _ => true
  | .linkAccept _ _ | .endpoint _ _ _ | .decision _ => false

/-- One of the three completion rings: a context's, or the PF ring of a Ridge (R387). -/
inductive RingOf where
  | ctx (c : Nat)
  | pf (ridgeB : Bool)
deriving DecidableEq, Repr

/-- What has happened in the present cycle, as far as a rule about one cycle asks for it: whether a sequencer has issued (step 4 of
R444 has begun), what hardware has added to each counter field (key 64 · address + lowest bit; R68 and its like), which status bits
hardware and which W1S bits software has set (by address; R12), the faults that take effect at the end of the cycle, the last place
taken in each order, and the completions that occur in it (R389). -/
structure Cycle where
  issued : Bool
  counted : Table Nat
  raised : Table Word
  faults : List PendFault
  order : List (OrderKey × Nat)
  done : List (RingOf × Completion)
deriving DecidableEq, Repr

/-- A cycle in which nothing has happened. -/
def Cycle.start : Cycle := ⟨false, [], [], [], [], []⟩

/-! ## The state -/

/-- The machine. Register addresses: a BAR0 offset (R424), or 2²⁴ + the BAR2 offset of a context window (R436). -/
structure State where
  /-- commands waiting, first in, first out -/
  pending : List Instr
  /-- the time base (R37) -/
  tb : BitVec 64
  /-- what has happened in the present cycle, and commands that take effect at the beginning of the next (R444) -/
  cycle : Cycle
  late : List Instr
  /-- registers that differ from their reset value -/
  regs : Table Word
  /-- pins and power (R29, R31) -/
  pwrEn : Bool
  pwrgd : Bool
  perstA : Bool
  perstB : Bool
  linkA : Bool
  linkB : Bool
  /-- what training of each host port has negotiated, while its link is up (R36) -/
  hostLanesA : Option HostLanes
  hostLanesB : Option HostLanes
  rrs : List (Bool × Bool)
  ppsPulses : Nat
  tapUnlocked : Bool
  i3cA : Option Nat
  i3cB : Option Nat
  thermtrip : Bool
  /-- supply-sag shedding (R412 to R415): consecutive samples below each threshold and at or above each leave threshold,
  levels whose action is in force, memory in self-refresh, shutdown performed -/
  below : Table Nat
  above : Table Nat
  entered : List Nat
  bufLimited : Bool
  halted : Bool
  haltSpans : List (Nat × Nat)
  haltSince : Option Nat
  keepAlive : Bool
  selfRefresh : Bool
  shutdown : Bool
  /-- clocks and power states (R405 to R410) -/
  divPend : Option DivChange
  psTarget : Option Nat
  pstate : Nat
  /-- promise (R60, R445) -/
  takeoverActive : Bool
  faultWins : List Elem
  /-- firmware (R403, R420, R422) -/
  flashA : Flash
  flashB : Flash
  warmActive : Bool
  roleB : Bool
  ptpLocked : Bool
  /-- RDG_ASSET has taken its one write (R9, R431) -/
  assetWritten : Bool
  mgmtCmds : List MgmtCmd
  /-- PF rings: completions held, mailbox, last acknowledged, phase, per Ridge (R387) -/
  pfHeldA : List Completion
  pfHeldB : List Completion
  pfMailA : List Completion
  pfMailB : List Completion
  pfAckA : BitVec 32
  pfAckB : BitVec 32
  pfPhaseA : Bool
  pfPhaseB : Bool
  /-- dies and Rafter dies -/
  dies : Table Die
  rafters : Table Rafter
  /-- positions of the spare tiles of each Rafter die, fixed at manufacturing test (R21), once the die has presented them -/
  fusedSpares : Table (List Nat)
  /-- Purlin: packets at each router by port (key die · 5 + edge, 4 the die's own), the turn of each output (key die · 4 + edge), strands whose
  replay or failure is not absorbed yet (key 8 · output + strand); votes and decisions for the other Ridge to send (R316, R317, R320, R331) -/
  routers : Table (List PurlinPacket)
  turns : Table Nat
  strandFaults : List Nat
  unsent : List Unsent
  /-- windows of one second: corrections per Thatch die, replays per Eave die, flit replays per BTN edge -/
  ceCount : Table Nat
  replayCount : Table Nat
  flitCount : Table Nat
  memTemp : Table Nat
  refreshes : Table Nat
  /-- when each stack was last refreshed (R207), and when each running period began: keys of `PeriodOf.key` -/
  refreshAt : Table Nat
  periodAt : Table Nat
  /-- kinds of the bands (RDG_BAND by RDG_BANDSEL, R200) where they differ from kind 1 in every stack -/
  bands : Table (BitVec 32)
  /-- memory -/
  mem : List Host.Cell
  poison : List Nat
  cache : Table (List Way)
  rereads : List Reread
  /-- errors of sectors that no read has found yet (R212): key stack · 2³⁰ + sector -/
  upsets : Table Upset
  scratch : List Host.Cell
  scratchPoison : List Nat
  hostMem : List Host.Cell
  images : List HostImage
  ligger : Table LigJob
  /-- contexts and package tables -/
  ctxs : Table Ctx
  groups : Table Group
  routes : Table Route
  prefixes : List PrefixEntry
  links : Table Link
  ports : Table Port
  sites : Table Site
  /-- energy of each die that the last interval left undivided, in µJ (R398), and tile-cycles charged since the last interval:
  key context · 64 + die -/
  energyRem : Table Nat
  tileCycles : Table Nat
  /-- outputs -/
  wire : List WireFrame
  msix : List Msix
deriving DecidableEq, Repr

/-- Firmware flash as delivered: both images signed, no port configuration (log 24). -/
def Flash.delivered : Flash := ⟨true, true, none⟩

/-- The machine at the end of package cold reset (R37): supplies in regulation, the time base 0, no die ready, nothing
listed, the queue of commands empty. -/
def State.reset : State where
  pending := []
  tb := 0
  cycle := .start
  late := []
  regs := []
  pwrEn := true
  pwrgd := true
  perstA := false
  perstB := false
  linkA := false
  linkB := false
  hostLanesA := none
  hostLanesB := none
  rrs := []
  ppsPulses := 0
  tapUnlocked := false
  i3cA := none
  i3cB := none
  thermtrip := false
  below := []
  above := []
  entered := []
  bufLimited := false
  halted := false
  haltSpans := []
  haltSince := none
  keepAlive := false
  selfRefresh := false
  shutdown := false
  divPend := none
  psTarget := none
  pstate := 0
  takeoverActive := false
  faultWins := []
  flashA := .delivered
  flashB := .delivered
  warmActive := false
  roleB := false
  ptpLocked := false
  assetWritten := false
  mgmtCmds := []
  pfHeldA := []
  pfHeldB := []
  pfMailA := []
  pfMailB := []
  pfAckA := 0
  pfAckB := 0
  pfPhaseA := true
  pfPhaseB := true
  dies := []
  rafters := []
  fusedSpares := []
  routers := []
  turns := []
  strandFaults := []
  unsent := []
  ceCount := []
  replayCount := []
  flitCount := []
  memTemp := []
  refreshes := []
  refreshAt := []
  periodAt := []
  bands := []
  mem := []
  poison := []
  cache := []
  rereads := []
  upsets := []
  scratch := []
  scratchPoison := []
  hostMem := []
  images := []
  ligger := []
  ctxs := []
  groups := []
  routes := []
  prefixes := []
  links := []
  ports := []
  sites := []
  energyRem := []
  tileCycles := []
  wire := []
  msix := []

end Sys2Proof.Machine
end

