-- ==== Sys2Proof/Machine/Ops.lean ====
section
/-! DEFINITION. The named operations every meaning is written with: sparse tables, bit fields, counters, byte order,
registers, contexts, tiles, interrupts. -/

namespace Sys2Proof.Machine

/-! ## Sparse tables -/

/-- The entry of key `k`. -/
def Table.get? {α : Type} (t : Table α) (k : Nat) : Option α :=
  match t with
  | [] => none
  | (j, v) :: r => if k = j then some v else Table.get? r k

/-- What key `k` holds: its entry, or `d` where it is not listed. -/
def Table.getD {α : Type} (d : α) (t : Table α) (k : Nat) : α := (Table.get? t k).getD d

/-- The table without key `k`. -/
def Table.erase {α : Type} (t : Table α) (k : Nat) : Table α := t.filter fun e => e.1 ≠ k

/-- The table with `v` at key `k`, its place kept in rising order of keys. -/
def Table.set {α : Type} (t : Table α) (k : Nat) (v : α) : Table α :=
  match t with
  | [] => [(k, v)]
  | (j, w) :: r => if k < j then (k, v) :: (j, w) :: r else if k = j then (k, v) :: r else (j, w) :: Table.set r k v

/-- The table with `v` at key `k`, where unlisted keys hold `d`: `d` itself is never listed. -/
def Table.put {α : Type} [DecidableEq α] (d : α) (t : Table α) (k : Nat) (v : α) : Table α :=
  if v = d then Table.erase t k else Table.set t k v

/-- The canonical form of a table whose unlisted keys hold `d`. -/
def Table.wf {α : Type} [DecidableEq α] (d : α) (t : Table α) : Bool :=
  decide (t.Pairwise fun a b => a.1 < b.1) && t.all fun e => decide (e.2 ≠ d)

/-- The table with its entries changed in place by `f`. -/
def Table.mapVals {α : Type} (f : Nat → α → α) (t : Table α) : Table α := t.map fun e => (e.1, f e.1 e.2)

/-! ## Numbers and bit fields -/

/-- Bits [hi:lo] of a number. -/
def bits (n hi lo : Nat) : Nat := n / 2 ^ lo % 2 ^ (hi + 1 - lo)

/-- Bit `i` of a number. -/
def bitAt (n i : Nat) : Bool := n / 2 ^ i % 2 = 1

/-- Bits [hi:lo] of a register. -/
def fld (w : Word) (hi lo : Nat) : Nat := bits w.toNat hi lo

/-- A register with bits [hi:lo] replaced by `v`. -/
def ins (w : Word) (hi lo v : Nat) : Word :=
  BitVec.ofNat 64 (w.toNat - fld w hi lo * 2 ^ lo + v % 2 ^ (hi + 1 - lo) * 2 ^ lo)

/-- A Bool as a one-bit number. -/
def b2n (b : Bool) : Nat := if b then 1 else 0

/-- `a` is later than `b` modulo 2ⁿ (R8). -/
def laterMod (n a b : Nat) : Bool :=
  let d := (a + 2 ^ n - b % 2 ^ n) % 2 ^ n
  decide (1 ≤ d ∧ d ≤ 2 ^ (n - 1) - 1)

/-- `a` is earlier than `b` modulo 2ⁿ (R8). -/
def earlierMod (n a b : Nat) : Bool := !laterMod n a b && decide (a % 2 ^ n ≠ b % 2 ^ n)

/-- `n + k` in an N-bit saturating counter (R14). -/
def satPlus (w n k : Nat) : Nat := min (n + k) (2 ^ w - 1)

/-- Ceiling of a quotient. -/
def ceilDiv (a b : Nat) : Nat := (a + b - 1) / b

/-- The number that bytes spell, least significant first. -/
def leNat : List Byte → Nat
  | [] => 0
  | b :: r => b.toNat + 256 * leNat r

/-- `n` bytes of a number, least significant first. -/
def leBytes : Nat → Nat → List Byte
  | 0, _ => []
  | n + 1, v => BitVec.ofNat 8 v :: leBytes n (v / 256)

/-- The 64-bit words of a byte string, least significant byte first. -/
def wordsOf (bs : List Byte) : List Word := (List.range (bs.length / 8)).map fun i =>
  BitVec.ofNat 64 (leNat ((bs.drop (8 * i)).take 8))

/-- Word `i` of a 64-byte entry as a number. -/
def w512 (e : Bits512) (i : Nat) : Nat := bits e.toNat (64 * i + 63) (64 * i)

/-- Word `i` of a 32-byte entry as a number. -/
def w256 (e : EntryBits) (i : Nat) : Nat := bits e.toNat (64 * i + 63) (64 * i)

/-- The elements of a list put in rising order without repeats. -/
def insertNat (n : Nat) : List Nat → List Nat
  | [] => [n]
  | m :: r => if n < m then n :: m :: r else if n = m then m :: r else m :: insertNat n r

/-- Element `i` of a list replaced. -/
def setAt {α : Type} (l : List α) (i : Nat) (v : α) : List α := l.set i v

/-- A function applied `n` times, counting up from 0. -/
def iter {α : Type} (f : Nat → α → α) : Nat → α → α
  | 0, a => a
  | n + 1, a => f n (iter f n a)

/-- A state change for every element of a list, in order. -/
def forAll {α β : Type} (l : List α) (f : α → β → β) (s : β) : β := l.foldl (fun b a => f a b) s

/-! ## The outcome of a meaning -/

/-- What a meaning answers. -/
abbrev Out := Host.Outcome State Fault Refusal

/-- The state behind a next outcome, or `s`. -/
def Out.stateOr (s : State) (o : Out) : State :=
  match o with
  | .next t => t
  | .fault _ => s
  | .refused _ => s

/-! ## Die positions (R16 to R19) -/

/-- What stands at a die position. -/
inductive DieKind where
  | ridge
  | rafter
  | thatch
  | eave
  | dormer
deriving DecidableEq, Repr

/-- The kind of die at a die number (table *Die map*). -/
def dieKind (d : Nat) : DieKind :=
  let x := d % 8
  let y := d / 8
  if y = 0 ∨ y = 7 then
    if (y = 0 ∧ x = 0) ∨ (y = 7 ∧ x = 7) then .ridge
    else if (y = 0 ∧ x = 7) ∨ (y = 7 ∧ x = 0) then .dormer
    else if x = 3 ∨ x = 4 then .thatch
    else .eave
  else if x = 0 ∨ x = 7 then .thatch
  else .rafter

/-- Die number of Rafter r (R18). -/
def rafterDie (r : Nat) : Nat := (r / 6 + 1) * 8 + (r % 6 + 1)

/-- Rafter index of a die (R18). -/
def rafterIdx (d : Nat) : Nat := (d / 8 - 1) * 6 + (d % 8 - 1)

/-- Die number of Thatch t (table *Die map*). -/
def thatchDie (t : Nat) : Nat :=
  if t < 2 then 3 + t else if t ≥ 14 then 59 + (t - 14) else ((t - 2) / 2 + 1) * 8 + (t % 2) * 7

/-- Thatch index of a die. -/
def thatchIdx (d : Nat) : Nat :=
  if d < 8 then d - 3 else if d ≥ 56 then 14 + (d - 59) else 2 + (d / 8 - 1) * 2 + (if d % 8 = 0 then 0 else 1)

/-- Die number of Eave e (table *Die map*). -/
def eaveDie (e : Nat) : Nat :=
  match e with
  | 0 => 1 | 1 => 2 | 2 => 5 | 3 => 6 | 4 => 57 | 5 => 58 | 6 => 61 | _ => 62

/-- Eave index of a die. -/
def eaveIdx (d : Nat) : Nat :=
  match d with
  | 1 => 0 | 2 => 1 | 5 => 2 | 6 => 3 | 57 => 4 | 58 => 5 | 61 => 6 | _ => 7

/-- Die number of Dormer site i. -/
def siteDie (i : Nat) : Nat := if i = 0 then 7 else 56

/-- The quadrant of a Thatch die (R19). -/
def quadrantOf (d : Nat) : Nat := 2 * (d / 8 / 4) + d % 8 / 4

/-- The stacks of a set: 0 full, 1 quadrant, 2 single (R19, R372). -/
def stacksOf (kind idx : Nat) : List Nat :=
  match kind with
  | 0 => List.range 16
  | 1 => (List.range 16).filter fun t => quadrantOf (thatchDie t) = idx
  | _ => [idx]

/-! ## Registers -/

/-- The BAR0 offset of a register (R424). -/
def bar0 (die block off : Nat) : Nat := die * 2 ^ 18 + block * 2 ^ 12 + off

/-- The address of a register of a context window (R436). -/
def ctxA (c off : Nat) : Nat := 2 ^ 24 + c * 2 ^ 16 + off

/-- The page that a block of a die position holds (table *Page map*). -/
def pageAt (die block : Nat) : Option PageKind :=
  match dieKind die with
  | .dormer => if block < 0x20 then some .guest else if block = 0x30 then some .dmr else none
  | k =>
    match block with
    | 0 =>
      match k with
      | .ridge => some .rdg
      | .rafter => some .rft
      | .thatch => some .thc
      | _ => some .eav
    | 1 => some .prl
    | 2 => some .btn
    | 3 => if k = .rafter then some .seq else none
    | _ => none

/-- The page kind of a register address. -/
def pageOf (a : Nat) : Option PageKind :=
  if a < 2 ^ 24 then pageAt (a / 2 ^ 18) (a / 2 ^ 12 % 64)
  else if a < 2 ^ 24 + 2 ^ 26 then some .ctx
  else none

/-- The offset of an address within its page or window. -/
def offOf (a : Nat) : Nat := if a < 2 ^ 24 then a % 2 ^ 12 else (a - 2 ^ 24) % 2 ^ 16

/-- The definition of the register at an address. -/
def regAt (a : Nat) : Option RegDef := (pageOf a).bind fun k => findReg (pageRegs k) (offOf a)

/-- The reset value of the register at an address; EAV_MAC takes the fused value. -/
def regReset (a : Nat) : Word :=
  match regAt a with
  | none => 0
  | some r =>
    if pageOf a = some .eav ∧ r.off = Off.EAV_MAC then
      (Config.fusedMac (8 * eaveIdx (a / 2 ^ 18) + (offOf a - Off.EAV_MAC) / 0x40)).setWidth 64
    else r.resetWord

/-- The offsets of the RDG page that each Ridge keeps for itself (R435). -/
def ridgeOwn (off : Nat) : Bool :=
  off = Off.PG_ID ∨ off = Off.PG_CAP ∨ off = Off.PG_ERR ∨ off = Off.PG_SCRATCH ∨ off = Off.RDG_BOOT
    ∨ (0x700 ≤ off ∧ off ≤ 0x768)

/-- Where a register stands: package registers of the RDG page stand at die 0 whichever Ridge's page is used (R435). -/
def homeAddr (a : Nat) : Nat :=
  if a / 2 ^ 12 = 63 * 64 ∧ !ridgeOwn (a % 2 ^ 12) then a % 2 ^ 12 else a

/-- The stored value of the register at an address. -/
def State.reg (s : State) (a : Nat) : Word := Table.getD (regReset (homeAddr a)) s.regs (homeAddr a)

/-- The state with a register's stored value set. -/
def State.setReg (s : State) (a : Nat) (w : Word) : State :=
  { s with regs := Table.put (regReset (homeAddr a)) s.regs (homeAddr a) w }

/-- A field of a register. -/
def State.rf (s : State) (a hi lo : Nat) : Nat := fld (s.reg a) hi lo

/-- The state with a field of a register set. -/
def State.wf (s : State) (a hi lo v : Nat) : State := s.setReg a (ins (s.reg a) hi lo v)

/-- The key of a counter field in the record of a cycle. -/
def countKey (a lo : Nat) : Nat := 64 * homeAddr a + lo

/-- What hardware has put into a counter field in the present cycle. -/
def State.countedIn (s : State) (a lo : Nat) : Nat := Table.getD 0 s.cycle.counted (countKey a lo)

/-- The status bits of a register that have been set in the present cycle (R12). -/
def State.raisedIn (s : State) (a : Nat) : Word := Table.getD 0 s.cycle.raised (homeAddr a)

/-- The record of a counter field in the present cycle set. -/
def State.noteCount (s : State) (a lo n : Nat) : State :=
  { s with cycle := { s.cycle with counted := Table.put 0 s.cycle.counted (countKey a lo) n } }

/-- A counter field advanced and saturating (R14). -/
def State.sat (s : State) (a hi lo n : Nat) : State :=
  (s.wf a hi lo (satPlus (hi + 1 - lo) (s.rf a hi lo) n)).noteCount a lo (s.countedIn a lo + n)

/-- A counter field advanced and wrapping (R14). -/
def State.wrap (s : State) (a hi lo n : Nat) : State :=
  (s.wf a hi lo (s.rf a hi lo + n)).noteCount a lo (s.countedIn a lo + n)

/-- A field set to the greater of its value and `v`. -/
def State.maxF (s : State) (a hi lo v : Nat) : State :=
  (s.wf a hi lo (max (s.rf a hi lo) v)).noteCount a lo (max (s.countedIn a lo) v)

/-- What the counters of a register are after a clear: in each field what hardware has put into it in the present cycle alone (R68, R130,
R152, R169, R231, R257, R286). -/
def State.cleared (s : State) (a : Nat) : Word :=
  (((regAt a).map (·.fields)).getD []).foldl (fun w f => ins w f.hi f.lo (satPlus (f.hi + 1 - f.lo) 0 (s.countedIn a f.lo))) 0

/-- A register whose counters are cleared. -/
def State.clearReg (s : State) (a : Nat) : State := s.setReg a (s.cleared a)

/-- A counter field cleared: it ends at what hardware has put into it in the present cycle alone. -/
def State.clearField (s : State) (a hi lo : Nat) : State := s.wf a hi lo (satPlus (hi + 1 - lo) 0 (s.countedIn a lo))

/-- Status bits of a register that hardware sets, or W1S bits that software sets, in the present cycle (R12). -/
def State.noteRaised (s : State) (a : Nat) (w : Word) : State :=
  { s with cycle := { s.cycle with raised := Table.put 0 s.cycle.raised (homeAddr a) (s.raisedIn a ||| w) } }

/-- A field of a register of context `c`. -/
def State.cf (s : State) (c off hi lo : Nat) : Nat := s.rf (ctxA c off) hi lo

/-- The state with a field of a register of context `c` set. -/
def State.cw (s : State) (c off hi lo v : Nat) : State := s.wf (ctxA c off) hi lo v

/-- A saturating counter of context `c` advanced. -/
def State.cSat (s : State) (c off hi lo n : Nat) : State := s.sat (ctxA c off) hi lo n

/-- A wrapping counter of context `c` advanced. -/
def State.cWrap (s : State) (c off hi lo n : Nat) : State := s.wrap (ctxA c off) hi lo n

/-- Registers put back to their reset values: those whose home address `p` selects. -/
def State.resetRegs (s : State) (p : Nat → Bool) : State := { s with regs := s.regs.filter fun e => !p e.1 }

/-! ## Contexts and tiles -/

/-- A context that nothing has configured. -/
def Ctx.init : Ctx where
  cfg := none
  boundB := false
  rebinding := false
  phase := .normal
  plan := none
  openCmd := none
  queue := []
  running := none
  ended := []
  due := []
  mailbox := []
  lastAck := 0
  held := []
  cplPhase := true
  links := []
  rings := []
  queues := []
  tiles := []
  xfers := []
  nextXfer := 0
  insts := []
  nextInst := 0
  tlb := []
  mirrorGen := none
  mirrorFull := true
  mirrorDoneAt := 0
  heldFull := false
  snapFresh := false
  ckptEnd := none
  ckptCommits := 0
  ckptTimer := 0
  sealed_ := none
  taken := []

/-- A logical tile before any plan is loaded. -/
def Tile.init : Tile where
  planAddr := 0
  length := 0
  descs := []
  frames := []
  ptrSeg := 0
  running := false
  pos := 0
  prevA := 0
  planned := 0
  reps := []
  subEnd := none
  tokens := []
  fresh := []
  vr0 := 0
  vr1 := 0
  flags := 0
  nsum := 0
  ssum := 0
  matrix := none
  vector := none
  special := none
  streams := []
  rx := []
  tx := []
  poolOrd := []
  instCount := []
  uv1600 := 0

/-- A receive endpoint nothing has armed. -/
def RxEp.init : RxEp := ⟨false, 0, false, 0, 0, 0, 0, 0, 0, [], none, 0, 0, 0⟩

/-- A send endpoint nothing has used. -/
def TxEp.init : TxEp := ⟨false, 0, 0, 0, 0, 0, 0, 0, 0, 0, 0, none, 0, 0, 0, 0, 0⟩

/-- A micro-batch queue that holds nothing, its flow state ON. -/
def Queue.init : Queue := ⟨[], [], [], 0, 0, [], false, false, none, 0, none, false, false, 0, 0, 0, 0, [], 0, none, false⟩

/-- A link class at epoch start (R298, R301, R310). -/
def LinkClass.init : LinkClass := ⟨0, 0, 0, false, false, 0, 0, 0, [], [], none, 0⟩

/-- A logical link as installed. -/
def Link.init : Link := ⟨[], false, false, false, false, 0, 0, 0, 0, 0, false, false, false⟩

/-- A package port at reset. -/
def Port.init : Port := ⟨[], 65536, 0, [], [], [], [], [], 0, [], 0⟩

/-- A die at reset. -/
def Die.init : Die := ⟨none, false, false, false, false, false, false, 0, [], true, none⟩

/-- A Rafter die before it has presented its bitmap. -/
def Rafter.init : Rafter := ⟨[], [], [], []⟩

/-- A Dormer site at reset. -/
def Site.init : Site := ⟨[], 0, 0, []⟩

/-- The time base as a number. -/
def State.now (s : State) : Nat := s.tb.toNat

/-! ## The order of effects within a cycle (R444) -/

/-- A command that takes effect at the beginning of the next cycle, because a sequencer has issued in this one. -/
def State.post (s : State) (i : Instr) : State := { s with late := s.late ++ [i] }

/-- A sequencer has issued: step 4 of R444 has begun. -/
def State.noteIssue (s : State) : State := { s with cycle := { s.cycle with issued := true } }

/-- Place `n` of an order may come now: no later place has come in this cycle. -/
def State.inOrder (s : State) (k : OrderKey) (n : Nat) : Bool := s.cycle.order.all fun e => e.1 ≠ k || e.2 ≤ n

/-- Place `n` of an order has come. -/
def State.noteOrder (s : State) (k : OrderKey) (n : Nat) : State :=
  { s with cycle := { s.cycle with order := (k, n) :: s.cycle.order } }

/-- Context `c`. -/
def State.ctx (s : State) (c : Nat) : Ctx := Table.getD Ctx.init s.ctxs c

/-- The state with context `c` replaced. -/
def State.setCtx (s : State) (c : Nat) (x : Ctx) : State := { s with ctxs := Table.put Ctx.init s.ctxs c x }

/-- The state with context `c` changed by `f`. -/
def State.modCtx (s : State) (c : Nat) (f : Ctx → Ctx) : State := s.setCtx c (f (s.ctx c))

/-- Every context changed by `f`. -/
def State.mapCtxs (s : State) (f : Ctx → Ctx) : State :=
  { s with ctxs := (Table.mapVals (fun _ x => f x) s.ctxs).filter fun (e : Nat × Ctx) => decide (e.2 ≠ Ctx.init) }

/-- Logical tile `t` of context `c`. -/
def State.tile (s : State) (c t : Nat) : Tile := Table.getD Tile.init (s.ctx c).tiles t

/-- The context with its tile `t` changed by `f`. -/
def Ctx.modTile (x : Ctx) (t : Nat) (f : Tile → Tile) : Ctx :=
  { x with tiles := Table.put Tile.init x.tiles t (f (Table.getD Tile.init x.tiles t)) }

/-- The state with logical tile `t` of context `c` changed by `f`. -/
def State.modTile (s : State) (c t : Nat) (f : Tile → Tile) : State := s.modCtx c fun x => x.modTile t f

/-- The state with the running launch of context `c` changed by `f`, if one runs. -/
def State.modRun (s : State) (c : Nat) (f : Running → Running) : State :=
  s.modCtx c fun x => { x with running := x.running.map f }

/-- Transfer `id` of context `c`. -/
def State.xfer (s : State) (c id : Nat) : Option Xfer := Table.get? (s.ctx c).xfers id

/-- The state with transfer `id` of context `c` changed by `f`, if it exists. -/
def State.modXfer (s : State) (c id : Nat) (f : Xfer → Xfer) : State :=
  match s.xfer c id with
  | none => s
  | some x => s.modCtx c fun k => { k with xfers := Table.set k.xfers id (f x) }

/-- The state without transfer `id` of context `c`. -/
def State.dropXfer (s : State) (c id : Nat) : State :=
  s.modCtx c fun k => { k with xfers := Table.erase k.xfers id }

/-- The state with a new transfer of context `c`, and its number. -/
def State.newXfer (s : State) (c : Nat) (x : Xfer) : State :=
  s.modCtx c fun k => { k with xfers := Table.set k.xfers k.nextXfer x, nextXfer := k.nextXfer + 1 }

/-- The queue of the receive half of link `l` of context `c`. -/
def State.queue (s : State) (c l : Nat) : Queue := Table.getD Queue.init (s.ctx c).queues l

/-- The state with the queue of link `l` of context `c` changed by `f`. -/
def State.modQueue (s : State) (c l : Nat) (f : Queue → Queue) : State :=
  s.modCtx c fun k => { k with queues := Table.put Queue.init k.queues l (f (Table.getD Queue.init k.queues l)) }

/-- Die `d`. -/
def State.die (s : State) (d : Nat) : Die := Table.getD Die.init s.dies d

/-- The state with die `d` changed by `f`. -/
def State.modDie (s : State) (d : Nat) (f : Die → Die) : State :=
  { s with dies := Table.put Die.init s.dies d (f (s.die d)) }

/-- Rafter `r`. -/
def State.rafter (s : State) (r : Nat) : Rafter := Table.getD Rafter.init s.rafters r

/-- The state with Rafter `r` changed by `f`. -/
def State.modRafter (s : State) (r : Nat) (f : Rafter → Rafter) : State :=
  { s with rafters := Table.put Rafter.init s.rafters r (f (s.rafter r)) }

/-- Package port `p`. -/
def State.port (s : State) (p : Nat) : Port := Table.getD Port.init s.ports p

/-- The state with package port `p` changed by `f`. -/
def State.modPort (s : State) (p : Nat) (f : Port → Port) : State :=
  { s with ports := Table.put Port.init s.ports p (f (s.port p)) }

/-- Logical link or lane `k`. -/
def State.link (s : State) (k : Nat) : Link := Table.getD Link.init s.links k

/-- The state with link `k` changed by `f`. -/
def State.modLink (s : State) (k : Nat) (f : Link → Link) : State :=
  { s with links := Table.put Link.init s.links k (f (s.link k)) }

/-- Class `n` of link `k`. -/
def State.lc (s : State) (k n : Nat) : LinkClass := Table.getD LinkClass.init (s.link k).classes n

/-- The state with class `n` of link `k` changed by `f`. -/
def State.modLc (s : State) (k n : Nat) (f : LinkClass → LinkClass) : State :=
  s.modLink k fun l =>
    { l with classes := Table.put LinkClass.init l.classes n (f (Table.getD LinkClass.init l.classes n)) }

/-- Dormer site `i`. -/
def State.site (s : State) (i : Nat) : Site := Table.getD Site.init s.sites i

/-- The state with Dormer site `i` changed by `f`. -/
def State.modSite (s : State) (i : Nat) (f : Site → Site) : State :=
  { s with sites := Table.put Site.init s.sites i (f (s.site i)) }

/-! ## Roles, readiness and sources -/

/-- The Ridge that holds the management role, as a die number. -/
def State.mgr (s : State) : Nat := if s.roleB then 63 else 0

/-- The Ridge of a host port. -/
def ridgeOf (portB : Bool) : Nat := if portB then 63 else 0

/-- A die works: powered and not fenced. -/
def State.alive (s : State) (d : Nat) : Bool := s.pwrgd && (s.die d).powered && !(s.die d).fenced

/-- The number of RDG_NODE.NODE. -/
def State.node (s : State) : Nat := s.rf Off.RDG_NODE 19 0

/-- The current CLK_C divider (RDG_CLK_STS.EFF): 4, 5 or 8. -/
def effDiv (code : Nat) : Nat := if code = 0 then 4 else if code = 1 then 5 else 8

/-- EFF of RDG_CLK. -/
def State.eff (s : State) : Nat := s.rf Off.RDG_CLK 3 2

/-- Time-base cycles in `ns` nanoseconds at the divider in force, rounded up (R15). -/
def State.cyc (s : State) (ns : Nat) : Nat := ceilDiv (ns * 8) (effDiv s.eff)

/-- Time-base cycles in `ns` nanoseconds at the divider in force, rounded down: no event `ns` after another comes in fewer. -/
def State.cycFloor (s : State) (ns : Nat) : Nat := ns * 8 / effDiv s.eff

/-- Where the record of a cycle counts what is added to CTX_QCOUNT of link `l` of context `c`: no register's address. -/
def qcountKey (c l : Nat) : Nat := 2 ^ 40 + 1024 * c + l

/-- Where the record of a cycle counts what is added to CTX_CHSTAT and CTX_CHSTALL of an endpoint of tile `t` of context `c`. -/
def chanKey (c t ep : Nat) (rx : Bool) : Nat := 2 ^ 50 + 32 * (2 ^ 17 * c + t) + 16 * b2n rx + ep

/-! ## Periods: windows, samples and intervals (R26, R213, R300, R320, R365 to R367, R398, R416, R438) -/

/-- What the manual lets happen once in a while: windows of one second over the corrections of a Thatch die, the replays of an Eave die and the
flits resent on an edge; samples of the supply, of a die's temperature and of a Rafter die's monitors; the energy interval; a step of a supply
offset, a margin epoch; how long a die has not been below 120 °C. -/
inductive PeriodOf where
  | corrections (t : Nat)
  | replays (e : Nat)
  | flits (die dir : Nat)
  | supply
  | energy
  | temperature (die : Nat)
  | hot (die : Nat)
  | margin (r : Nat)
  | voff (r : Nat)
  | epoch (r : Nat)
deriving DecidableEq, Repr

/-- The key of a period. -/
def PeriodOf.key (w : PeriodOf) : Nat :=
  match w with
  | .corrections t => t
  | .replays e => 1024 + e
  | .flits die dir => 2048 + 4 * die + dir
  | .supply => 4096
  | .energy => 4097
  | .temperature die => 5120 + die
  | .hot die => 6144 + die
  | .margin r => 7168 + r
  | .voff r => 8192 + r
  | .epoch r => 9216 + r

/-- How long a period is, in nanoseconds of CLK_S time. -/
def PeriodOf.ns (w : PeriodOf) : Nat :=
  match w with
  | .corrections _ | .replays _ | .flits _ _ => 1000000000
  | .supply => 250
  | .energy | .temperature _ | .margin _ => 1000000
  | .hot _ => 10000000
  | .voff _ => 10000
  | .epoch _ => 64000000

/-- The running period is over. -/
def State.periodOver (s : State) (w : PeriodOf) : Bool := decide (Table.getD 0 s.periodAt w.key + s.cyc w.ns ≤ s.now)

/-- The next period begins. -/
def State.newPeriod (s : State) (w : PeriodOf) : State := { s with periodAt := Table.put 0 s.periodAt w.key s.now }

/-! ## Interrupts -/

/-- An MSI-X message sent. -/
def State.sendMsix (s : State) (m : Msix) : State := { s with msix := s.msix ++ [m] }

/-- The PF vector of a page kind (R394). -/
def pfVector (k : PageKind) : Nat :=
  match k with
  | .rdg => 1
  | .thc => 2
  | .eav => 3
  | .rft => 4
  | .btn | .prl => 5
  | .dmr => 6
  | .seq | .ctx | .guest => 0

/-- The interrupt registers of a page set to new values: each bit of PG_IRQ that rises fires the vector of the page's kind
at the PF of the Ridge that holds the management role (R394, R434). -/
def State.setPgIrq (s : State) (die block : Nat) (raw en : Word) : State :=
  let aRaw := bar0 die block Off.PG_IRQ_RAW
  let aEn := bar0 die block Off.PG_IRQ_EN
  let rises := (raw &&& en) &&& ~~~(s.reg aRaw &&& s.reg aEn)
  let s1 := (s.setReg aRaw raw).setReg aEn en
  if rises = 0 then s1
  else
    match pageAt die block with
    | none => s1
    | some k => s1.sendMsix ⟨s.roleB, none, pfVector k⟩

/-- Interrupt source `b` of a page is raised (R434). -/
def State.raisePg (s : State) (die block b : Nat) : State :=
  let a := bar0 die block Off.PG_IRQ_RAW
  let bit := BitVec.ofNat 64 (2 ^ b)
  (s.setPgIrq die block (s.reg a ||| bit) (s.reg (bar0 die block Off.PG_IRQ_EN))).noteRaised a bit

/-- Interrupt source `b` of the RDG pages is raised. -/
def State.raiseRdg (s : State) (b : Nat) : State := s.raisePg 0 0 b

/-- The context's interrupt registers set to new values: each bit of CTX_IRQ that rises sends its VF vector on the bound
port (R393). -/
def State.setCtxIrq (s : State) (c : Nat) (raw en : Word) : State :=
  let old := s.reg (ctxA c Off.CTX_IRQ_RAW) &&& s.reg (ctxA c Off.CTX_IRQ_EN)
  let rises := (raw &&& en) &&& ~~~old
  let s1 := (s.setReg (ctxA c Off.CTX_IRQ_RAW) raw).setReg (ctxA c Off.CTX_IRQ_EN) en
  forAll (List.range 7) (fun b t =>
    if bitAt rises.toNat b then t.sendMsix ⟨(s.ctx c).boundB, some c, s.cf c Off.CTX_IRQ_VEC (4 * b + 3) (4 * b)⟩ else t) s1

/-- Interrupt source `b` of context `c` is raised (R393). -/
def State.raiseCtx (s : State) (c b : Nat) : State :=
  let bit := BitVec.ofNat 64 (2 ^ b)
  (s.setCtxIrq c (s.reg (ctxA c Off.CTX_IRQ_RAW) ||| bit) (s.reg (ctxA c Off.CTX_IRQ_EN))).noteRaised (ctxA c Off.CTX_IRQ_RAW) bit

/-- PG_IRQ of a page: RAW and EN (R434). -/
def State.pgIrq (s : State) (die block : Nat) : Word :=
  s.reg (bar0 die block Off.PG_IRQ_RAW) &&& s.reg (bar0 die block Off.PG_IRQ_EN)

/-- ALERT# is low (R434). -/
def State.alertLow (s : State) : Bool := s.reg Off.PG_IRQ_RAW &&& s.reg Off.RDG_ALERT_EN ≠ 0

end Sys2Proof.Machine
end

