-- ==== Sys2Proof/Machine/Float.lean ====
section
/-! DEFINITION. The number formats (R100), exact values, rounding to nearest even and stochastic rounding (R113 to R118),
and the FP32 operations of the matrix array, the vector unit and the special-function unit. -/

namespace Sys2Proof.Machine

/-- An exact value: NaN, an infinity, or (−1)^neg · m · 2^e. -/
inductive FV where
  | nan
  | inf (neg : Bool)
  | fin (neg : Bool) (m : Nat) (e : Int)
deriving DecidableEq, Repr

/-- A format that values are rounded to: mantissa bits, exponent of the least normal value, magnitude code of the largest
finite value, whether overflow saturates (R116). -/
structure Fmt where
  mb : Nat
  emin : Int
  maxCode : Nat
  saturates : Bool
deriving DecidableEq, Repr

/-- E4M3 as an output (R100, R116). -/
def fmtE4M3 : Fmt := ⟨3, -6, 0x7E, true⟩
/-- E5M2 as an output. -/
def fmtE5M2 : Fmt := ⟨2, -14, 0x7B, true⟩
/-- BF16 as an output. -/
def fmtBF16 : Fmt := ⟨7, -126, 0x7F7F, false⟩
/-- FP32. -/
def fmtFP32 : Fmt := ⟨23, -126, 0x7F7FFFFF, false⟩

/-- The bits of an element of a format code (table *Formats*). -/
def fmtBits (code : Nat) : Nat :=
  match code with
  | 0 | 1 | 3 | 4 => 8
  | 2 => 16
  | 5 | 6 => 6
  | 7 => 4
  | _ => 32

/-- A format code is an MX format. -/
def isMx (code : Nat) : Bool := 3 ≤ code ∧ code ≤ 7

/-- m · 2^e as an exact value from a sign, an exponent field and a mantissa field. -/
def fromFields (neg : Bool) (ef mf mb : Nat) (emin : Int) : FV :=
  if ef = 0 then .fin neg mf (emin - mb) else .fin neg (2 ^ mb + mf) (emin - mb + (ef - 1 : Nat))

/-- The exact value of an element (R100): the element encodings of codes 0 to 8. -/
def decodeElem (code n : Nat) : FV :=
  match code with
  | 0 | 3 => -- E4M3
    if n % 128 = 127 then .nan else fromFields (n / 128 % 2 = 1) (n / 8 % 16) (n % 8) 3 (-6)
  | 1 | 4 => -- E5M2
    if n / 4 % 32 = 31 then (if n % 4 = 0 then .inf (n / 128 % 2 = 1) else .nan)
    else fromFields (n / 128 % 2 = 1) (n / 4 % 32) (n % 4) 2 (-14)
  | 2 => -- BF16
    if n / 128 % 256 = 255 then (if n % 128 = 0 then .inf (n / 32768 % 2 = 1) else .nan)
    else fromFields (n / 32768 % 2 = 1) (n / 128 % 256) (n % 128) 7 (-126)
  | 5 => fromFields (n / 32 % 2 = 1) (n / 8 % 4) (n % 8) 3 0      -- E2M3
  | 6 => fromFields (n / 32 % 2 = 1) (n / 4 % 8) (n % 4) 2 (-2)   -- E3M2
  | 7 => fromFields (n / 8 % 2 = 1) (n / 2 % 4) (n % 2) 1 0       -- E2M1
  | _ => -- FP32
    if n / 2 ^ 23 % 256 = 255 then (if n % 2 ^ 23 = 0 then .inf (n / 2 ^ 31 % 2 = 1) else .nan)
    else fromFields (n / 2 ^ 31 % 2 = 1) (n / 2 ^ 23 % 256) (n % 2 ^ 23) 23 (-126)

/-- The exact value of an FP32 pattern. -/
def f32val (x : F32) : FV := decodeElem 8 x.toNat

/-- A value multiplied by an MX scale code (R100): code 0xFF makes NaN. -/
def scaleMx (v : FV) (s : Nat) : FV :=
  if s = 255 then .nan
  else
    match v with
    | .fin n m e => .fin n m (e + s - 127)
    | w => w

/-- The exact product; 0 times an infinity is NaN (R114). -/
def FV.mul (a b : FV) : FV :=
  match a, b with
  | .nan, _ => .nan
  | _, .nan => .nan
  | .inf s, .inf t => .inf (s != t)
  | .inf s, .fin t m _ => if m = 0 then .nan else .inf (s != t)
  | .fin s m _, .inf t => if m = 0 then .nan else .inf (s != t)
  | .fin s m e, .fin t n f => .fin (s != t) (m * n) (e + f)

/-- The exact sum; opposite infinities give NaN, and an exact zero is +0 unless both addends are −0 (R114). -/
def FV.add (a b : FV) : FV :=
  match a, b with
  | .nan, _ => .nan
  | _, .nan => .nan
  | .inf s, .inf t => if s = t then .inf s else .nan
  | .inf s, .fin _ _ _ => .inf s
  | .fin _ _ _, .inf t => .inf t
  | .fin s m e, .fin t n f =>
    let q := min e f
    let x : Int := (if s then -1 else 1) * (m * 2 ^ (e - q).toNat : Nat)
    let y : Int := (if t then -1 else 1) * (n * 2 ^ (f - q).toNat : Nat)
    if x + y = 0 then .fin (s && t && m = 0 && n = 0) 0 q else .fin (x + y < 0) (x + y).natAbs q

/-- The value with its sign turned. -/
def FV.neg (a : FV) : FV :=
  match a with
  | .nan => .nan
  | .inf s => .inf !s
  | .fin s m e => .fin (!s) m e

/-- Whether a value is NaN. -/
def FV.isNan (a : FV) : Bool :=
  match a with
  | .nan => true
  | _ => false

/-- Whether a value is finite. -/
def FV.isFin (a : FV) : Bool :=
  match a with
  | .fin _ _ _ => true
  | _ => false

/-- Whether a value is zero. -/
def FV.isZero (a : FV) : Bool :=
  match a with
  | .fin _ m _ => m = 0
  | _ => false

/-- Whether a value is NaN or infinite: non-finite. -/
def FV.nonFinite (a : FV) : Bool := !a.isFin

/-- The quantum of a non-zero magnitude m · 2^e in a format: the exponent of its last place. -/
def Fmt.quantum (f : Fmt) (m : Nat) (e : Int) : Int := max (m.log2 + e - f.mb) (f.emin - f.mb)

/-- Floor of m · 2^e over 2^q, and whether it is exact. -/
def scaleTo (m : Nat) (e q : Int) : Nat × Nat × Nat :=
  if q ≤ e then (m * 2 ^ (e - q).toNat, 0, 1) else (m / 2 ^ (q - e).toNat, m % 2 ^ (q - e).toNat, 2 ^ (q - e).toNat)

/-- The magnitude code of n units of 2^q. -/
def Fmt.code (f : Fmt) (n : Nat) (q : Int) : Nat := (q - (f.emin - f.mb)).toNat * 2 ^ f.mb + n

/-- The magnitude code of m · 2^e rounded to nearest, ties to even, as if the exponent range had no end. -/
def Fmt.rne (f : Fmt) (m : Nat) (e : Int) : Nat :=
  if m = 0 then 0
  else
    let q := f.quantum m e
    let (n, r, d) := scaleTo m e q
    f.code (if 2 * r > d ∨ (2 * r = d ∧ n % 2 = 1 ∧ d ≠ 1) then n + 1 else n) q

/-- The magnitude code of m · 2^e under stochastic rounding with random word `u` (R118). -/
def Fmt.stoch (f : Fmt) (m : Nat) (e : Int) (u : Nat) : Nat :=
  if m = 0 then 0
  else
    let q := f.quantum m e
    let (n, r, d) := scaleTo m e q
    f.code (if r ≠ 0 ∧ u < r * 2 ^ 32 / d then n + 1 else n) q

/-- The FP32 pattern of an exact value, rounded once to nearest even; NaN is 0x7FC0_0000 (R113, R114). -/
def toF32 (v : FV) : F32 :=
  match v with
  | .nan => 0x7FC00000
  | .inf s => if s then 0xFF800000 else 0x7F800000
  | .fin s m e =>
    let c := min (fmtFP32.rne m e) 0x7F800000
    BitVec.ofNat 32 (c + if s then 2 ^ 31 else 0)

/-- FP32 +0. -/
def f32zero : F32 := 0
/-- FP32 1.0. -/
def f32one : F32 := 0x3F800000
/-- The mask value, −2¹²⁷ (R138). -/
def f32mask : F32 := 0xFF000000
/-- The FP32 NaN that the units produce (R114). -/
def f32nan : F32 := 0x7FC00000

/-- An FP32 pattern is NaN. -/
def isNan32 (x : F32) : Bool := (f32val x).isNan

/-- FP32 addition. -/
def fadd (a b : F32) : F32 := toF32 ((f32val a).add (f32val b))
/-- FP32 subtraction. -/
def fsub (a b : F32) : F32 := toF32 ((f32val a).add (f32val b).neg)
/-- FP32 multiplication. -/
def fmul (a b : F32) : F32 := toF32 ((f32val a).mul (f32val b))
/-- FP32 fused multiply-add, one rounding. -/
def ffma (a b c : F32) : F32 := toF32 (((f32val a).mul (f32val b)).add (f32val c))

/-- The exact quotient kept to 64 bits with a sticky bit, so that one rounding of it is the correct rounding of the
quotient; x/0 is an infinity and 0/0 NaN. -/
def FV.div (a b : FV) : FV :=
  match a, b with
  | .nan, _ => .nan
  | _, .nan => .nan
  | .inf _, .inf _ => .nan
  | .inf s, .fin t _ _ => .inf (s != t)
  | .fin s _ _, .inf t => .fin (s != t) 0 0
  | .fin s m e, .fin t n f =>
    if n = 0 then (if m = 0 then .nan else .inf (s != t))
    else
      let k := n.log2 + 64
      let x := m * 2 ^ k
      .fin (s != t) (2 * (x / n) + if x % n = 0 then 0 else 1) (e - f - k - 1)

/-- FP32 division, correctly rounded. -/
def fdiv (a b : F32) : F32 := toF32 ((f32val a).div (f32val b))

/-- The integer square root of `x`, bit by bit from bit `k − 1` of the root. -/
def isqrt (x : Nat) : Nat → Nat → Nat
  | 0, r => r
  | k + 1, r => isqrt x k (if (r + 2 ^ k) * (r + 2 ^ k) ≤ x then r + 2 ^ k else r)

/-- The square root with a sticky bit; of a negative value NaN. -/
def FV.sqrt (a : FV) : FV :=
  match a with
  | .nan => .nan
  | .inf s => if s then .nan else .inf false
  | .fin s m e =>
    if m = 0 then .fin s 0 0
    else if s then .nan
    else
      let k : Nat := 64 + (if (e - 64) % 2 = 0 then 0 else 1)
      let x := m * 2 ^ k
      let r := isqrt x (x.log2 / 2 + 1) 0
      .fin false (2 * r + if r * r = x then 0 else 1) ((e - k) / 2 - 1)

/-- FP32 square root, correctly rounded. -/
def fsqrt (a : F32) : F32 := toF32 (f32val a).sqrt

/-- The order of two finite or infinite values: a is less than b, −0 and +0 equal. -/
def FV.lt (a b : FV) : Bool :=
  match a, b with
  | .nan, _ => false
  | _, .nan => false
  | .inf s, .inf t => s && !t
  | .inf s, .fin _ _ _ => s
  | .fin _ _ _, .inf t => !t
  | .fin _ _ _, .fin _ _ _ =>
    match a.add b.neg with
    | .fin s m _ => s && m ≠ 0
    | _ => false

/-- a is less than b in FP32. -/
def flt (a b : F32) : Bool := (f32val a).lt (f32val b)

/-- The larger of two FP32 values: NaN when either is, −0 below +0 (R127). -/
def fmax (a b : F32) : F32 :=
  if isNan32 a ∨ isNan32 b then f32nan
  else if flt a b then b else if flt b a then a else if a.msb then b else a

/-- The smaller of two FP32 values (R127). -/
def fmin (a b : F32) : F32 :=
  if isNan32 a ∨ isNan32 b then f32nan
  else if flt a b then a else if flt b a then b else if a.msb then a else b

/-- The FP32 value of a natural number. A count above 2²⁴ may have no exact FP32 value, which R145 takes for granted: it is rounded to
nearest even (DESIGN CHOICE, log 88). -/
def f32ofNat (n : Nat) : F32 := toF32 (.fin false n 0)

/-- A non-negative decimal p/q is below the magnitude of a finite value: value > p/q. -/
def gtRat (v : FV) (p q : Nat) : Bool :=
  match v with
  | .inf s => !s
  | .fin s m e => !s && decide (if 0 ≤ e then m * 2 ^ e.toNat * q > p else m * q > p * 2 ^ (-e).toNat)
  | .nan => false

/-- value ≥ p/q for a non-negative p/q. -/
def geRat (v : FV) (p q : Nat) : Bool :=
  match v with
  | .inf s => !s
  | .fin s m e => (!s && decide (if 0 ≤ e then m * 2 ^ e.toNat * q ≥ p else m * q ≥ p * 2 ^ (-e).toNat))
  | .nan => false

/-! ## Output conversion (R116 to R118) -/

/-- A conversion's result: the element code, and whether it counts in CTX_MX_SAT. -/
structure Conv where
  code : Nat
  sat : Bool
deriving DecidableEq, Repr

/-- An exact value converted to E4M3, E5M2 or BF16 (output codes 0, 1, 2) under R116, with the random word of stochastic
rounding where SR is set (R118). -/
def convTo (outCode : Nat) (v : FV) (u : Option Nat) : Conv :=
  let f := if outCode = 1 then fmtE5M2 else if outCode = 2 then fmtBF16 else fmtE4M3
  let sb := if outCode = 2 then 2 ^ 15 else 2 ^ 7
  match v with
  | .nan => ⟨if outCode = 1 then 0x7E else if outCode = 2 then 0x7FC0 else 0x7F, false⟩
  | .inf s => ⟨(if s ∧ (outCode = 1 ∨ outCode = 2) then sb else 0) + if outCode = 1 then 0x7C else if outCode = 2 then 0x7F80 else 0x7F, false⟩
  | .fin s m e =>
    let c := match u with
      | none => f.rne m e
      | some w => f.stoch m e w
    let sgn := if s then sb else 0
    if c ≤ f.maxCode then ⟨sgn + c, false⟩
    else if f.saturates then ⟨sgn + f.maxCode, true⟩
    else ⟨sgn + 0x7F80, false⟩

/-- The bytes of one output element in format code 0, 1, 2 or 8, and whether it saturated. -/
def outBytes (code : Nat) (x : F32) (u : Option Nat) : List Byte × Bool :=
  if code = 8 then (leBytes 4 x.toNat, false)
  else
    let c := convTo code (f32val x) u
    (leBytes (fmtBits code / 8) c.code, c.sat)

/-- The MX scale exponent of a block of FP32 values (R117): ⌊log₂ a⌋ − 8 within −127 to 127, or −127 when a is 0; none for
a block that holds a NaN or an infinity. -/
def mxScale (xs : List F32) : Option Int :=
  if xs.any fun x => (f32val x).nonFinite then none
  else
    let lg := xs.filterMap fun x =>
      match f32val x with
      | .fin _ m e => if m = 0 then none else some ((m.log2 : Int) + e)
      | _ => none
    some (match lg with
      | [] => -127
      | y :: r => max (-127) (min 127 (r.foldl max y - 8)))

/-- A block of 32 outputs in code 3 (R117): element codes and scale code, and the saturations counted. `us` holds the
random words where SR is set. -/
def mxBlock (xs : List F32) (us : List (Option Nat)) : List Byte × Byte × Nat :=
  match mxScale xs with
  | none => (xs.map fun _ => 0x7F, 0xFF, 0)
  | some k =>
    let cs := (xs.zip us).map fun (x, u) =>
      convTo 0 (match f32val x with
        | .fin s m e => .fin s m (e - k)
        | v => v) u
    (cs.map fun c => BitVec.ofNat 8 c.code, BitVec.ofNat 8 (k + 127).toNat, (cs.filter (·.sat)).length)

end Sys2Proof.Machine
end

