-- ==== Sys2Proof/Machine/Functions.lean ====
section
/-! DEFINITION. The functions of the special-function unit (R133 to R137, R150, R151): the exact result of each as a fixed-point number,
the interval that R136 allows around it, and the FP32 result inside that interval. -/

namespace Sys2Proof.Machine

/-! ## Fixed point: an integer stands for itself times 2⁻⁵¹²

The series below run until their terms fall under 2⁻⁵⁰⁰, far below the 2⁻¹²⁶ that R136 allows at the least (log 20). -/

/-- The places after the binary point. -/
def fixP : Nat := 512

/-- 1 in fixed point. -/
def fixOne : Int := 2 ^ fixP

/-- A product. -/
def fixMul (a b : Int) : Int := a * b / fixOne

/-- A quotient. -/
def fixDiv (a b : Int) : Int := a * fixOne / b

/-- A finite FP32 value; exact. -/
def fixOf (v : FV) : Int :=
  match v with
  | .fin s m e => (if s then -1 else 1) * (m * 2 ^ (e + fixP).toNat : Nat)
  | _ => 0

/-- The exact value that a fixed-point number stands for. -/
def fixVal (x : Int) : FV := .fin (x < 0) x.natAbs (-fixP)

/-- Horner's rule: `f n (… (f 1 (f 0 a)))` run from `n − 1` down to 0. -/
def hornerDown (f : Nat → Int → Int) (n : Nat) (a : Int) : Int := iter (fun i acc => f (n - 1 - i) acc) n a

/-- The sum of tʲ/(2j + 1) over j; `t` stands for t². -/
def oddSeries (t : Int) : Int := hornerDown (fun j acc => fixOne / (2 * j + 1) + fixMul t acc) 180 0

/-- artanh t and arctan t. -/
def fixArtanh (t : Int) : Int := fixMul t (oddSeries (fixMul t t))
/-- arctan t. -/
def fixArctan (t : Int) : Int := fixMul t (oddSeries (-(fixMul t t)))

/-- ln 2. -/
def fixLn2 : Int := 2 * fixArtanh (fixOne / 3)
/-- π, by Machin's formula. -/
def fixPi : Int := 16 * fixArctan (fixOne / 5) - 4 * fixArctan (fixOne / 239)

/-- The square root of a fixed-point number that is not negative. -/
def fixSqrt (x : Int) : Int :=
  let n := x.toNat * 2 ^ fixP
  (isqrt n (n.log2 / 2 + 1) 0 : Nat)

/-- eᶻ. -/
def fixExp (z : Int) : Int :=
  let k := (z + fixLn2 / 2) / fixLn2
  let r := z - k * fixLn2
  let t := hornerDown (fun n acc => fixOne + fixMul r acc / (n + 1)) 110 fixOne
  if 0 ≤ k then t * 2 ^ k.toNat else t / 2 ^ (-k).toNat

/-- ln z of a number above 0. -/
def fixLn (z : Int) : Int :=
  let e : Int := (z.toNat.log2 : Int) - fixP
  let m := if 0 ≤ e then z / 2 ^ e.toNat else z * 2 ^ (-e).toNat
  e * fixLn2 + 2 * fixArtanh (fixDiv (m - fixOne) (m + fixOne))

/-- `z` held between −n and n. -/
def fixClip (n : Nat) (z : Int) : Int := max (-(n * fixOne)) (min (n * fixOne) z)

/-- 1/(1 + e⁻ᶻ). -/
def fixSigmoid (z : Int) : Int := fixDiv fixOne (fixOne + fixExp (-(fixClip 500 z)))

/-- erf z. -/
def fixErf (z : Int) : Int :=
  let w := fixClip 15 z
  let q := fixMul w w
  let sum := hornerDown (fun n acc => fixOne + 2 * fixMul q acc / (2 * n + 3)) 1200 fixOne
  fixDiv (2 * fixMul (fixMul w sum) (fixExp (-q))) (fixSqrt fixPi)

/-- sin r and cos r for |r| ≤ π. -/
def fixSin (r : Int) : Int :=
  fixMul r (hornerDown (fun n acc => fixOne - fixMul (fixMul r r) acc / ((2 * n + 2) * (2 * n + 3))) 80 fixOne)
/-- cos r for |r| ≤ π. -/
def fixCos (r : Int) : Int := hornerDown (fun n acc => fixOne - fixMul (fixMul r r) acc / ((2 * n + 1) * (2 * n + 2))) 80 fixOne

/-- The exact result of a function of the table *Functions* whose result R136 bounds and does not fix. -/
def fixFn (f : Nat) (x : Int) : Int :=
  match f with
  | 0 => fixExp x
  | 1 => fixExp (fixMul x fixLn2)
  | 2 => fixLn x
  | 4 => fixDiv fixOne (fixSqrt x)
  | 6 =>
    let e := fixExp (2 * fixClip 20 x)
    fixDiv (e - fixOne) (e + fixOne)
  | 7 => fixSigmoid x
  | 8 => fixMul x (fixSigmoid (2 * fixMul (fixSqrt (2 * fixDiv fixOne fixPi)) (x + 44715 * fixMul (fixMul x x) x / 1000000)))
  | 9 => fixMul x (fixOne + fixErf (fixDiv x (fixSqrt (2 * fixOne)))) / 2
  | 10 => fixMul x (fixSigmoid x)
  | 11 => if x > 500 * fixOne then x else fixLn (fixOne + fixExp (fixClip 500 x))
  | _ => fixErf x

/-- The exact sine or cosine of position × frequency, reduced modulo 2π (R134). -/
def fixTrig (c : Bool) (pos : Nat) (θ : Int) : Int :=
  let y := pos * θ
  let r := y - (y + fixPi) / (2 * fixPi) * (2 * fixPi)
  if c then fixCos r else fixSin r

/-! ## The bound (R136) -/

/-- ULPs that the table *Error bounds* allows a function, in halves. -/
def boundHalves (f : Nat) : Nat :=
  match f with
  | 0 | 1 | 2 | 4 => 2
  | 3 | 5 => 1
  | 8 | 9 => 6
  | _ => 4

/-- The error allowed around an exact result: so many half ULPs, or an absolute 2⁻¹²⁶ where the result lies below 2⁻¹⁰⁰. -/
def boundAt (halves : Nat) (r : Int) : Int :=
  if r.natAbs < 2 ^ (fixP - 100) then 2 ^ (fixP - 126) else (halves * 2 ^ (max (r.natAbs.log2 - 23) (fixP - 149)) / 2 : Nat)

/-- The error allowed SIN and COS. -/
def trigBoundAt (r : Int) : Int := if r.natAbs < 2 ^ (fixP - 4) then 2 ^ (fixP - 27) else boundAt 4 r

/-- A result within `b` of the exact result `r`: the free value where it lies there, else the exact result rounded to nearest. -/
def boundResult (r b : Int) (free : F32) : F32 :=
  if (f32val free).isFin ∧ (fixOf (f32val free) - r).natAbs ≤ b then free else toF32 (fixVal r)

/-- The result of a function on a finite input: free within its bound (log 20). -/
def sfuBounded (f : Nat) (x : F32) : F32 :=
  let r := fixFn f (fixOf (f32val x))
  boundResult r (boundAt (boundHalves f) r) (Config.sfu f x)

/-! ## The functions (R133 to R137) -/

/-- ±1.0 by sign. -/
def signOne (neg : Bool) : F32 := if neg then 0xBF800000 else f32one

/-- FP32 +∞ and −0. -/
def f32inf : F32 := 0x7F800000
/-- FP32 −0. -/
def f32negZero : F32 := 0x80000000

/-- RECIP, correctly rounded (R136). -/
def sfuRecip (x : F32) : F32 := fdiv f32one x

/-- A special function of the table *Functions* but SIN and COS: the special values and limits of the table *Error bounds*,
RECIP and SQRT exact, and elsewhere a value within the bound of R136. -/
def sfuFn (f : Nat) (x : F32) : F32 :=
  let v := f32val x
  let neg := x.msb
  if v.isNan then f32nan
  else
    match f with
    | 0 => if gtRat v 8872284 100000 then f32inf
        else if gtRat v.neg 10397208 100000 then f32zero else sfuBounded 0 x
    | 1 => if geRat v 128 1 then f32inf else if gtRat v.neg 150 1 then f32zero else sfuBounded 1 x
    | 2 => if v.isZero then 0xFF800000 else if neg then f32nan
        else if v.isFin then sfuBounded 2 x else f32inf
    | 3 => sfuRecip x
    | 4 => if v.isZero then (if neg then 0xFF800000 else f32inf) else if neg then f32nan
        else if v.isFin then sfuBounded 4 x else f32zero
    | 5 => fsqrt x
    | 6 => if geRat v 91 10 ∨ geRat v.neg 91 10 then signOne neg else sfuBounded 6 x
    | 7 => if v.isFin then sfuBounded 7 x else if neg then f32zero else f32one
    | 8 => if v.isFin then sfuBounded 8 x else if neg then f32negZero else f32inf
    | 9 => if v.isFin then sfuBounded 9 x else if neg then f32negZero else f32inf
    | 10 => if v.isFin then sfuBounded 10 x else if neg then f32negZero else f32inf
    | 11 => if v.isFin then sfuBounded 11 x else if neg then f32zero else f32inf
    | 12 => if geRat v 392 100 ∨ geRat v.neg 392 100 then signOne neg else sfuBounded 12 x
    | n => sfuBounded n x

/-- SIN (FUNC 13) or COS (FUNC 14) of position × frequency (R134, R136). -/
def sfuTrigFn (f pos : Nat) (θ : F32) : F32 :=
  match f32val θ with
  | .fin _ _ _ =>
    let r := fixTrig (f = 14) pos (fixOf (f32val θ))
    boundResult r (trigBoundAt r) (Config.sfuTrig (f = 14) pos θ)
  | _ => f32nan

/-- A subnormal FP32 value flushed to zero of its sign (R151). -/
def flushSub (x : F32) : F32 :=
  if x.toNat / 2 ^ 23 % 256 = 0 then (if x.msb then f32negZero else f32zero) else x

/-- A special function under COMPAT (R150, R151). Of a NaN input R137 fixes the result, and R150 promises the bits of the UV-1600 for
every input; the model takes R137 (DESIGN CHOICE, log 90). -/
def sfuCompat (f : Nat) (x : F32) : F32 :=
  if isNan32 x then f32nan else flushSub (Config.uv1600Sfu f (flushSub x))

end Sys2Proof.Machine
end

