-- ==== Sys2Proof/Machine/Mem.lean ====
section
/-! DEFINITION. Stacked memory, scratchpads, host memory and address translation: device physical addresses (R199 to R204),
poison (R212, R451), the shared cache (R214, R215), translation (R378, R379), shadow regions (R233), CRC-64. -/

namespace Sys2Proof.Machine

/-! ## Device physical addresses -/

/-- What a DPA names: a byte of stacked memory (kind of its window's set, band, stack, stack-local address, R204), a byte
of a scratchpad, or nothing. -/
inductive Loc where
  | mem (kind idx band stack local_ : Nat)
  | pad (die tile off : Nat)
  | hole
deriving DecidableEq, Repr

/-- The XOR of the `k` lowest groups of `w` bits of `n`. -/
def xorGroups (w n : Nat) : Nat → Nat
  | 0 => 0
  | k + 1 => Nat.xor (n % 2 ^ w) (xorGroups w (n / 2 ^ w) k)

/-- The place of a DPA (table *DPA windows*, R204). -/
def dpaLoc (a : Nat) : Loc :=
  if a < 2 ^ 40 then
    let b := a / 2 ^ 34
    let o := a % 2 ^ 34
    let n := o / 256
    .mem 1 0 b (xorGroups 4 (n % 2 ^ 26) 7) (b * 2 ^ 30 + n / 16 * 256 + o % 256)
  else if a < 2 ^ 41 then
    let q := a % 2 ^ 40 / 2 ^ 38
    let b := a % 2 ^ 38 / 2 ^ 32
    let o := a % 2 ^ 32
    let n := o / 256
    .mem 2 q b ((stacksOf 1 q).getD (xorGroups 2 (n % 2 ^ 24) 12) 0) (b * 2 ^ 30 + n / 4 * 256 + o % 256)
  else if a < 3 * 2 ^ 40 then
    let t := a % 2 ^ 40 / 2 ^ 36
    .mem 3 t (a % 2 ^ 36 / 2 ^ 30) t (a % 2 ^ 36)
  else if a < 3 * 2 ^ 40 + 2 ^ 36 then
    let d := (a - 3 * 2 ^ 40) / 2 ^ 30
    if dieKind d = .rafter ∧ a % 2 ^ 30 / 2 ^ 18 < 2304 then .pad d (a % 2 ^ 30 / 2 ^ 18) (a % 2 ^ 18) else .hole
  else .hole

/-- The kind of band `b` in stack `t` (R200). -/
def State.bandKind (s : State) (b t : Nat) : Nat := (Table.getD 0x55555555 s.bands b).toNat / 4 ^ t % 4

/-- A DPA reaches its stack: its window's kind is the kind of the band (R201) and the stack's Thatch die is not lost. -/
def State.memOk (s : State) (kind band stack : Nat) : Bool :=
  decide (s.bandKind band stack = kind) && s.alive (thatchDie stack)

/-! ## Sectors, the cache and stacked memory -/

/-- The bytes of memory at key `k`, `n` of them. -/
def State.memBytes (s : State) (k n : Nat) : List Byte := (List.range n).map fun i => Table.getD 0 s.mem (k + i)

/-- Bytes written into memory at key `k`. -/
def putBytes (m : List Host.Cell) (k : Nat) : List Byte → List Host.Cell
  | [] => m
  | b :: r => putBytes (Table.put 0 m k b) (k + 1) r

/-- The canonical form of a memory: addresses strictly rising, and no entry equal to what an unlisted address reads as (0). -/
def Memory.wf (m : List Host.Cell) : Bool := Table.wf (0 : Byte) m

/-- A number put into or taken out of a sorted list. -/
def putFlag (l : List Nat) (k : Nat) (on : Bool) : List Nat := if on then insertNat k l else l.filter (· ≠ k)

/-- The cache set of a stack-local line, as a key of `cache`: 65,536 sets a slice, the line's low bits (R214). -/
def cacheKey (stack line : Nat) : Nat := stack * 65536 + line % 65536

/-- The way that holds a line. -/
def State.wayOf (s : State) (stack line : Nat) : Option Way :=
  (Table.getD [] s.cache (cacheKey stack line)).find? fun w => w.line = line

/-- The key of a sector among the poisoned ones and among the errors. -/
def sectorKey (stack sec : Nat) : Nat := stack * 2 ^ 30 + sec

/-- The error that a sector holds and no read has found yet. -/
def State.upset (s : State) (stack sec : Nat) : Option Upset := Table.get? s.upsets (sectorKey stack sec)

/-- A sector's 64 bytes and poison: the cached dirty copy, or the stack's; a read of a sector whose errors no re-read mends returns poison
(R211). -/
def State.sector (s : State) (stack sec : Nat) : List Byte × Bool :=
  match (s.wayOf stack (sec / 4)).bind fun w => w.dirty.find? fun d => d.1 = sec % 4 with
  | some d => (d.2.1, d.2.2)
  | none => (s.memBytes (stack * 2 ^ 36 + sec * 64) 64,
      decide (sectorKey stack sec ∈ s.poison) || decide (s.upset stack sec = some .dead))

/-- A sector written into the stack itself, with new check bits: an error that it held is replaced (R212). -/
def State.stackPut (s : State) (stack sec : Nat) (data : List Byte) (poison : Bool) : State :=
  { s with
    mem := putBytes s.mem (stack * 2 ^ 36 + sec * 64) (data.take 64)
    poison := putFlag s.poison (sectorKey stack sec) poison
    upsets := Table.erase s.upsets (sectorKey stack sec) }

/-- The 64 bytes of a sector from a list. -/
def sectorBytes (data : List Byte) : List Byte := (List.range 64).map fun i => data.getD i 0

/-- A sector written: into the line the cache holds, or into the stack (R214). -/
def State.putSector (s : State) (stack sec : Nat) (data : List Byte) (poison : Bool) : State :=
  match s.wayOf stack (sec / 4) with
  | none => s.stackPut stack sec data poison
  | some w =>
    let k := cacheKey stack (sec / 4)
    { s with
      cache := Table.put [] s.cache k ((Table.getD [] s.cache k).map fun v =>
        if v.line = w.line then { v with dirty := (sec % 4, sectorBytes data, poison) :: v.dirty.filter fun d => d.1 ≠ sec % 4 } else v) }

/-- Dirty sectors of a way written back. -/
def State.writeBack (s : State) (stack : Nat) (w : Way) : State :=
  forAll w.dirty (fun d t => t.stackPut stack (w.line * 4 + d.1) d.2.1 d.2.2) s

/-- A request of one line at the slice: a hit makes the line the most recent; a miss allocates it where the request says so,
writing the least recently used line back (R214, R215). Ways stand most recent first. Answers whether it hit. -/
def State.cacheTouch (s : State) (stack line : Nat) (allocate : Bool) : State × Bool :=
  let k := cacheKey stack line
  let ws := Table.getD [] s.cache k
  let d := thatchDie stack
  match ws.find? fun w => w.line = line with
  | some w =>
    ({ s with cache := Table.put [] s.cache k (w :: ws.filter fun v => v.line ≠ line) }.wrap
      (bar0 d 0 Off.THC_CACHE_HIT) 63 0 1, true)
  | none =>
    let s1 := s.wrap (bar0 d 0 Off.THC_CACHE_MISS) 63 0 1
    if !allocate then (s1, false)
    else
      let s2 := forAll (ws.drop 15) (fun w t => t.writeBack stack w) s1
      ({ s2 with cache := Table.put [] s2.cache k (⟨line, []⟩ :: ws.take 15) }, false)

/-! ## Codes (R209 to R213) -/

/-- Corrections counted on a Thatch die, in THC_ECC_CE and in the running second (R213). -/
def State.corrected (s : State) (t n : Nat) : State :=
  let s1 := s.sat (bar0 (thatchDie t) 0 Off.THC_ECC_CE) 31 0 n
  { s1 with ceCount := Table.put 0 s1.ceCount t (Table.getD 0 s1.ceCount t + n) }

/-- The controller reads a sector once more, which counts in THC_ECC_CE.REREAD and in the running second: the re-read is right, perhaps after
corrections, or fails, and then the sector is poisoned, counted, recorded and reported (R210, R211, R213). -/
def State.reread (s : State) (t sec : Nat) : State :=
  let d := thatchDie t
  let s1 := s.sat (bar0 d 0 Off.THC_ECC_CE) 63 32 1
  let s2 := { s1 with ceCount := Table.put 0 s1.ceCount t (Table.getD 0 s1.ceCount t + 1) }
  match s.upset t sec with
  | some .dead =>
    (((s2.stackPut t sec (s2.memBytes (t * 2 ^ 36 + sec * 64) 64) true).sat (bar0 d 0 Off.THC_ECC_UE) 31 0 1).wf
      (bar0 d 0 Off.THC_ECC_LAST) 35 0 sec).raisePg d 0 0
  | some (.again n) => { s2.corrected t n with upsets := Table.erase s2.upsets (sectorKey t sec) }
  | _ => s2

/-- The stack reads a sector for its slice, and no transfer waits for a re-read (R209 to R211). -/
def State.meetSector (s : State) (t sec : Nat) : State :=
  match s.upset t sec with
  | none => s
  | some (.corrected n) => s.corrected t n
  | some _ => s.reread t sec

/-- The sectors that a slice reads from its stack for an access of `n` bytes at stack-local address `l` whose line it does not hold: those of
the access, or the whole line where it allocates it, but for those that a write covers whole (R212, R215; log 99). -/
def missReads (l n : Nat) (write alloc : Bool) : List Nat :=
  let own := (List.range ((l + n - 1) / 64 - l / 64 + 1)).map (l / 64 + ·)
  let line := (List.range 4).map (l / 256 * 4 + ·)
  (if alloc then line else own).filter fun sec => !(write && decide (l ≤ 64 * sec ∧ 64 * sec + 64 ≤ l + n))

/-- A request of `n` bytes at the slice of a stack, which every read, write and atomic passes (R214): what it must read from the stack meets the
codes, and the line is looked up. -/
def State.slice (s : State) (t l n : Nat) (write alloc : Bool) : State :=
  let s1 := if (s.wayOf t (l / 256)).isSome then s else forAll (missReads l n write alloc) (fun sec u => u.meetSector t sec) s
  (s1.cacheTouch t (l / 256) alloc).1

/-- Every slice's dirty lines written back and the slices emptied (R230). -/
def State.flushCache (s : State) : State :=
  { forAll s.cache (fun e t => forAll e.2 (fun w u => u.writeBack (e.1 / 65536) w) t) s with cache := [] }

/-! ## Scratchpads -/

/-- Bytes of a scratchpad. -/
def padSize : Nat := 196608

/-- The key of byte `off` of physical tile `p` of die `d`. -/
def padKey (d p off : Nat) : Nat := d * 2 ^ 30 + p * 2 ^ 18 + off

/-- A byte of a scratchpad as a unit of the tile reads it. -/
def State.padByte (s : State) (base off : Nat) : Byte :=
  if off < padSize then Table.getD 0 s.scratch (base + off) else Config.padBeyond (base + off)

/-- `n` bytes of a scratchpad. -/
def State.padRead (s : State) (base off n : Nat) : List Byte := (List.range n).map fun i => s.padByte base (off + i)

/-- Line `l` of a scratchpad is poisoned. -/
def State.padPoison (s : State) (base l : Nat) : Bool := decide (base / 64 + l ∈ s.scratchPoison)

/-- Any line that holds one of `n` bytes from `off` is poisoned. -/
def State.padAny (s : State) (base off n : Nat) : Bool :=
  (List.range (if n = 0 then 0 else (off + n - 1) / 64 - off / 64 + 1)).any fun i => s.padPoison base (off / 64 + i)

/-- Bytes written into a scratchpad at `off`, with the poison rule of a line (R451): a line written whole takes the poison of
the data, a line written in part keeps its poison and takes that of the data too. -/
def State.padWrite (s : State) (base off : Nat) (data : List Byte) (poison : Bool) : State :=
  let ds := data.take (padSize - off)
  if ds = [] then s
  else
    let lines := (List.range ((off + ds.length - 1) / 64 - off / 64 + 1)).map (off / 64 + ·)
    { s with
      scratch := putBytes s.scratch (base + off) ds
      scratchPoison := lines.foldl (fun l k =>
        let whole := decide (off ≤ 64 * k ∧ 64 * k + 64 ≤ off + ds.length)
        putFlag l (base / 64 + k) (poison || (!whole && decide (base / 64 + k ∈ l)))) s.scratchPoison }

/-! ## Reading and writing by DPA -/

/-- A byte by DPA and whether it is poisoned (R199, R201, R212). -/
def State.dpaByte (s : State) (a : Nat) : Byte × Bool :=
  match dpaLoc a with
  | .mem k _ b t l =>
    if s.memOk k b t then
      let x := s.sector t (l / 64)
      (x.1.getD (l % 64) 0, x.2)
    else (Config.poisonByte a, true)
  | .pad d p o => if o < padSize then (Table.getD 0 s.scratch (padKey d p o), s.padPoison (padKey d p 0) (o / 64)) else (0, false)
  | .hole => (0, false)

/-- `n` bytes by DPA, and whether any is poisoned. -/
def State.dpaRead (s : State) (a n : Nat) : List Byte × Bool :=
  let l := (List.range n).map fun i => s.dpaByte (a + i)
  (l.map (·.1), l.any (·.2))

/-- The stack that a DPA names. -/
def stackOf (a : Nat) : Option Nat :=
  match dpaLoc a with
  | .mem _ _ _ t _ => some t
  | .pad _ _ _ => none
  | .hole => none

/-- The parts of an access that lie each in one block of `w` bytes: address, offset in the access, length. -/
def blockParts (w a len : Nat) : List (Nat × Nat × Nat) :=
  (List.range (if len = 0 then 0 else (a + len - 1) / w - a / w + 1)).map fun i =>
    let lo := max a ((a / w + i) * w)
    (lo, lo - a, min (a + len) ((a / w + i + 1) * w) - lo)

/-- The parts of an access that lie each in one sector. -/
def sectorParts (a len : Nat) : List (Nat × Nat × Nat) := blockParts 64 a len

/-- The requests of an access: its parts of 256-byte blocks (R201, R221). -/
def requestParts (a len : Nat) : List (Nat × Nat × Nat) := blockParts 256 a len

/-- A request through a window of the wrong kind (R201). -/
def State.windowErr (s : State) (t : Nat) : State :=
  (s.sat (bar0 (thatchDie t) 0 Off.THC_WINDOW_ERR) 31 0 1).raisePg (thatchDie t) 0 2

/-- What a request of `n` bytes at DPA `a` in one 256-byte block does beside moving its bytes: a window of the wrong kind is counted (R201), a stack
that works is reached through its slice (R214). -/
def State.touch (s : State) (a n : Nat) (write alloc : Bool) : State :=
  match dpaLoc a with
  | .mem k _ b t l =>
    if s.bandKind b t ≠ k then s.windowErr t
    else if s.alive (thatchDie t) then s.slice t l n write alloc
    else s
  | .pad _ _ _ => s
  | .hole => s

/-- A range lies in the scratchpad window. -/
def inPadWindow (a : Nat) : Bool := 3 * 2 ^ 40 ≤ a && a < 3 * 2 ^ 40 + 2 ^ 36

/-- A byte as the device itself or a guest reads it by DPA: only COPY_IN and COPY_OUT reach the scratchpad window (R203); others find nothing
there (R199; log 100). -/
def State.devByte (s : State) (a : Nat) : Byte × Bool := if inPadWindow a then (0, false) else s.dpaByte a

/-- `n` bytes that the device reads by DPA, and whether any is poisoned. -/
def State.devRead (s : State) (a n : Nat) : List Byte × Bool :=
  let l := (List.range n).map fun i => s.devByte (a + i)
  (l.map (·.1), l.any (·.2))

/-- What such a read does beside returning its bytes. -/
def State.devTouch (s : State) (a n : Nat) : State := forAll (requestParts a n) (fun p t => t.touch p.1 p.2.2 false false) s

/-- Bytes written inside one sector by DPA: a whole sector takes the poison of the data, part of one keeps its own too (R212). -/
def State.dpaPutIn (s : State) (a : Nat) (data : List Byte) (poison : Bool) : State :=
  match dpaLoc a with
  | .mem k _ b t l =>
    if s.memOk k b t then
      let x := s.sector t (l / 64)
      s.putSector t (l / 64) (x.1.take (l % 64) ++ data ++ x.1.drop (l % 64 + data.length))
        (poison || (x.2 && decide (data.length < 64)))
    else s
  | .pad d p o => s.padWrite (padKey d p 0) o data poison
  | .hole => s

/-- Bytes written by DPA, sector by sector; `fuel` bounds the number of sectors. -/
def dpaPutLoop (poison : Bool) : Nat → Nat → List Byte → State → State
  | 0, _, _, s => s
  | f + 1, a, data, s =>
    match data with
    | [] => s
    | _ =>
      let n := 64 - a % 64
      dpaPutLoop poison f (a + n) (data.drop n) (s.dpaPutIn a (data.take n) poison)

/-- Bytes written by DPA. -/
def State.dpaWrite (s : State) (a : Nat) (data : List Byte) (poison : Bool) : State :=
  dpaPutLoop poison (data.length / 64 + 2) a data s

/-- Bytes that the device writes by DPA, request by request and sector by sector (R201, R212, R214). -/
def State.devWrite (s : State) (a : Nat) (data : List Byte) (poison : Bool) : State :=
  forAll (requestParts a data.length) (fun p t =>
    if inPadWindow p.1 then t
    else
      forAll (sectorParts p.1 p.2.2) (fun q u => u.dpaPutIn q.1 ((data.drop (p.2.1 + q.2.1)).take q.2.2) poison)
        (t.touch p.1 p.2.2 true false)) s

/-- A 64-bit word that the device reads by DPA; none where its sector is poisoned. -/
def State.dpaWord (s : State) (a : Nat) : Option Word :=
  let x := s.devRead a 8
  if x.2 then none else some (BitVec.ofNat 64 (leNat x.1))

/-! ## Translation (R378, R379) -/

/-- The set of a context: kind and index of its descriptor; the full set before it has one. -/
def Ctx.set (x : Ctx) : Nat × Nat :=
  match x.cfg with
  | none => (0, 0)
  | some g => (g.setKind, g.setIdx)

/-- A DPA lies in the memory window of a set contained in set `k`, `i` (R379). -/
def dpaInSet (k i a : Nat) : Bool :=
  match dpaLoc a with
  | .mem w j _ _ _ =>
    match k with
    | 0 => true
    | 1 => (w = 2 ∧ j = i) ∨ (w = 3 ∧ quadrantOf (thatchDie j) = i)
    | _ => w = 3 ∧ j = i
  | .pad _ _ _ => false
  | .hole => false

/-- The level-2 entry that maps a context virtual address, with V = 1: from the translation cache, or by the walk. -/
def State.walk (s : State) (c va : Nat) : Option TlbEntry :=
  match (s.ctx c).tlb.find? fun e => if e.big then e.page = va / 2 ^ 21 else e.page = va / 2 ^ 16 with
  | some e => some e
  | none =>
    match (s.ctx c).cfg with
    | none => none
    | some g =>
      (s.dpaWord (g.ttRoot + va / 2 ^ 32 * 8)).bind fun l1 =>
        if l1.getLsbD 0 then
          let t2 := fld l1 47 19 * 2 ^ 19
          let first := s.dpaWord (t2 + va % 2 ^ 32 / 2 ^ 21 * 32 * 8)
          if (first.map fun w => w.getLsbD 2).getD false then
            first.bind fun w => if w.getLsbD 0 then some ⟨va / 2 ^ 21, true, w⟩ else none
          else
            (s.dpaWord (t2 + va % 2 ^ 32 / 2 ^ 16 * 8)).bind fun w =>
              if w.getLsbD 0 then some ⟨va / 2 ^ 16, false, w⟩ else none
        else none

/-- The DPA of a context virtual address, for reading or for writing; none where R379 faults. -/
def State.xlate (s : State) (c va : Nat) (write : Bool) : Option Nat :=
  if va ≥ 2 ^ 48 then none
  else
    (s.walk c va).bind fun e =>
      let a := if e.big then fld e.entry 47 21 * 2 ^ 21 + va % 2 ^ 21 else fld e.entry 47 16 * 2 ^ 16 + va % 2 ^ 16
      let k := (s.ctx c).set
      if (write ∧ !e.entry.getLsbD 1) ∨ !dpaInSet k.1 k.2 a then none else some a

/-- The entry of the translation cache that maps a context virtual address. -/
def State.tlbHit (s : State) (c va : Nat) : Option TlbEntry :=
  (s.ctx c).tlb.find? fun e => if e.big then e.page = va / 2 ^ 21 else e.page = va / 2 ^ 16

/-- The reads that a walk makes where the translation cache has no entry: the level-1 word, and behind a valid one the level-2 words (R378). -/
def State.walkTouch (s : State) (c va : Nat) : State :=
  match s.tlbHit c va, (s.ctx c).cfg with
  | none, some g =>
    let a1 := g.ttRoot + va / 2 ^ 32 * 8
    let s1 := s.devTouch a1 8
    match s.dpaWord a1 with
    | none => s1
    | some l1 =>
      if l1.getLsbD 0 then
        let t2 := fld l1 47 19 * 2 ^ 19
        let s2 := s1.devTouch (t2 + va % 2 ^ 32 / 2 ^ 21 * 32 * 8) 8
        if va % 2 ^ 21 / 2 ^ 16 = 0 then s2 else s2.devTouch (t2 + va % 2 ^ 32 / 2 ^ 16 * 8) 8
      else s1
  | _, _ => s

/-- The translation cache after a use of `va`: the entry found with V = 1 is kept, at most 2,048 of them, oldest out first. -/
def State.fillTlb (s : State) (c va : Nat) : State :=
  let s1 := s.walkTouch c va
  match s.walk c va with
  | none => s1
  | some e => s1.modCtx c fun x => if e ∈ x.tlb then x else { x with tlb := (x.tlb ++ [e]).drop (x.tlb.length + 1 - 2048) }

/-! ## Shadow regions (R233) -/

/-- The value of a training register of context `c` that is in force: a write while a launch runs takes effect at the next T₀ (R258). -/
def State.trainReg (s : State) (c off : Nat) : Word := (Table.get? (s.ctx c).taken off).getD (s.reg (ctxA c off))

/-- An enabled shadow region: its set, base of each copy, page-state table, pages. -/
structure Region where
  set : Nat
  vbase : Nat
  alt : Nat
  state : Nat
  pages : Nat
deriving DecidableEq, Repr

/-- The shadow region of parameter set `p` of context `c`, if enabled. -/
def State.region (s : State) (c p : Nat) : Option Region :=
  if (s.trainReg c (Off.CTX_PS_CTL + 0x40 * p)).getLsbD 2 then
    let a := s.trainReg c (Off.CTX_PS_SHADOW + 0x40 * p)
    let b := s.trainReg c (Off.CTX_PS_SHADOW2 + 0x40 * p)
    some ⟨p, fld a 31 0 * 2 ^ 16, fld b 31 0 * 2 ^ 16, fld b 63 32 * 2 ^ 16, fld a 55 32 + 1⟩
  else none

/-- The enabled shadow regions of a context, in rising set number. -/
def State.regions (s : State) (c : Nat) : List Region := (List.range 64).filterMap (s.region c)

/-- The region and page that an address lies in: the lowest-numbered set's (R233). -/
def State.regionOf (s : State) (c va : Nat) : Option (Region × Nat) :=
  ((s.regions c).find? fun r => r.vbase ≤ va ∧ va < r.vbase + r.pages * 65536).map fun r => (r, (va - r.vbase) / 65536)

/-- A byte of context memory read without effects; none behind a translation fault or in a poisoned sector. -/
def State.vaByte (s : State) (c va : Nat) : Option Byte :=
  (s.xlate c va false).bind fun a =>
    let x := s.devByte a
    if x.2 then none else some x.1

/-- `n` bytes of context memory read for a command or a table (R449); none where one byte cannot be read. -/
def State.vaRead (s : State) (c va : Nat) : Nat → Option (List Byte)
  | 0 => some []
  | n + 1 => (s.vaByte c va).bind fun b => (s.vaRead c (va + 1) n).map (b :: ·)

/-- Every byte of `n` from `va` translates, for writing where `write`; checked at the first byte and at each page. -/
def State.vaOk (s : State) (c va n : Nat) (write : Bool) : Bool :=
  (List.range (if n = 0 then 0 else (va + n - 1) / 65536 - va / 65536 + 1)).all fun i =>
    (s.xlate c (if i = 0 then va else (va / 65536 + i) * 65536) write).isSome

/-- What the device's read of `n` bytes of context memory does beside returning them. -/
def State.vaTouch (s : State) (c va n : Nat) : State :=
  forAll (blockParts 65536 va n) (fun p t =>
    let u := t.fillTlb c p.1
    match t.xlate c p.1 false with
    | none => u
    | some a => u.devTouch a p.2.2) s

/-- Bytes written to context memory by the device, those that translate. -/
def State.vaWrite (s : State) (c va : Nat) (data : List Byte) : State :=
  iter (fun i t =>
    let lo := max va ((va / 65536 + i) * 65536)
    let hi := min (va + data.length) ((va / 65536 + i + 1) * 65536)
    if lo < hi then
      match t.xlate c lo true with
      | none => t.fillTlb c lo
      | some a => (t.fillTlb c lo).devWrite a ((data.drop (lo - va)).take (hi - lo)) false
    else t) (data.length / 65536 + 2) s

/-- The 4-bit state of page `k` of a region: LIVE, WRITTEN, FLIPPED in bits 0, 1, 2 (R235). -/
def State.nibble (s : State) (c table k : Nat) : Nat :=
  ((s.vaByte c (table + k / 2)).getD 0).toNat / 16 ^ (k % 2) % 16

/-- The 4-bit state of page `k` of a region set. -/
def State.setNibble (s : State) (c table k v : Nat) : State :=
  let b := ((s.vaByte c (table + k / 2)).getD 0).toNat
  let o := b / 16 ^ (1 - k % 2) % 16
  s.vaWrite c (table + k / 2) [BitVec.ofNat 8 (if k % 2 = 0 then o * 16 + v else v * 16 + o)]

/-- Bit `i` of a nibble set or cleared. -/
def nibBit (n i : Nat) (on : Bool) : Nat := n - n / 2 ^ i % 2 * 2 ^ i + b2n on * 2 ^ i

/-- The address that an access of a context really goes to: copy LIVE of a shadow page, the other copy for a shadow write
(R233). A shadow write outside every region has none (R234). -/
def State.redirect (s : State) (c va : Nat) (shadow : Bool) : Option Nat :=
  match s.regionOf c va with
  | none => if shadow then none else some va
  | some (r, k) =>
    let live := s.nibble c r.state k % 2
    let copy := if shadow then 1 - live else live
    some (if copy = 0 then va else r.alt + (va - r.vbase))

/-! ## Host memory and CRC-64 -/

/-- Bytes written to host memory through a port. -/
def State.hostPut (s : State) (portB : Bool) (a : Nat) (data : List Byte) : State :=
  { s with hostMem := putBytes s.hostMem (a + if portB then 2 ^ 64 else 0) data }

/-- One bit step of the CRC-64 of ECMA-182, most significant bit first. -/
def crcBit (c : Nat) (b : Bool) : Nat :=
  let t := (bitAt c 63) != b
  let d := c * 2 % 2 ^ 64
  if t then Nat.xor d 0x42F0E1EBA9EA3693 else d

/-- CRC-64 (ECMA-182 polynomial) over bytes, on from a value. -/
def crc64From (start : Nat) (bs : List Byte) : Nat :=
  bs.foldl (fun c b => (List.range 8).foldl (fun c i => crcBit c (bitAt b.toNat (7 - i))) c) start

/-- CRC-64 over bytes, initial value 0 (R224, R256; log 27). -/
def crc64 (bs : List Byte) : Nat := crc64From 0 bs

end Sys2Proof.Machine
end

