-- ==== Sys2Proof/Machine/Operands.lean ====
section
/-! DEFINITION. The operand forms: plan entries (R74 to R90 and the chapters that own a class), stream and convolution
descriptors (R88, R123), ring entries (R382), table entries (R170, R188, R263, R292), context descriptors; and the shapes
of operands in scratchpad (R106 to R109). -/

namespace Sys2Proof.Machine

/-! ## Plan entries (R74) -/

/-- Bits [hi:lo] of a plan entry. -/
def ef (e : EntryBits) (hi lo : Nat) : Nat := bits e.toNat hi lo

/-- Bit `i` of a plan entry. -/
def eb (e : EntryBits) (i : Nat) : Bool := bitAt e.toNat i

/-- CLASS of an entry. -/
def eClass (e : EntryBits) : Nat := ef e 255 248

/-- OFFSET of an entry. -/
def eOffset (e : EntryBits) : Nat := ef e 239 216

/-- The TRACE, COMPAT, SR and PRIV flags (R75). -/
def eTrace (e : EntryBits) : Bool := eb e 241
/-- COMPAT. -/
def eCompat (e : EntryBits) : Bool := eb e 242
/-- SR. -/
def eSr (e : EntryBits) : Bool := eb e 243
/-- PRIV. -/
def ePriv (e : EntryBits) : Bool := eb e 244

/-- The gap of a hold entry: HOLD [215:192], COMMIT_IF [207:184]. -/
def eGap (e : EntryBits) : Nat := if eClass e = 0x49 then ef e 207 184 else ef e 215 192

/-- The token pairs of a hold entry: counter and required count (R79, R83). -/
def ePairs (e : EntryBits) : List (Nat × Nat) :=
  if eClass e = 0x49 then [(ef e 215 210, 1)]
  else (List.range (ef e 191 188)).map fun j => (ef e (22 * j + 21) (22 * j + 16), ef e (22 * j + 15) (22 * j))

/-- An entry is a hold point. -/
def eIsHold (e : EntryBits) : Bool := eClass e = 0x01 ∨ eClass e = 0x49

/-- The entry whose 32 bytes these are (R69, R74). -/
def entryOf (bs : List Byte) : EntryBits := BitVec.ofNat 256 (leNat (bs.take 32))

/-- The entries of a byte string. -/
def entriesOf (bs : List Byte) : List EntryBits := (List.range (bs.length / 32)).map fun i => entryOf (bs.drop (32 * i))

/-- MMA-layout fields (table *MMA operands*). -/
structure MmaOp where
  m : Nat
  n : Nat
  k : Nat
  fa : Nat
  fb : Nat
  fo : Nat
  acc : Bool
  occ : Bool
  aLine : Nat
  bLine : Nat
  cLine : Nat
  occLine : Nat
  stream : Nat
  meta_ : Nat
  idxBase : Nat
  idxPass : Bool
deriving DecidableEq, Repr

/-- The MMA-layout fields of an entry. -/
def mmaOp (e : EntryBits) : MmaOp where
  m := ef e 215 207 + 1
  n := ef e 206 198 + 1
  k := ef e 197 186 + 1
  fa := ef e 185 182
  fb := ef e 181 178
  fo := ef e 177 174
  acc := eb e 173
  occ := eb e 172
  aLine := ef e 171 160
  bLine := ef e 159 148
  cLine := ef e 147 136
  occLine := ef e 135 124
  stream := ef e 123 108
  meta_ := ef e 107 96
  idxBase := ef e 89 44
  idxPass := eb e 43

/-! ## Descriptors -/

/-- A signed 32-bit field. -/
def s32 (n : Nat) : Int := if n < 2 ^ 31 then n else (n : Int) - 2 ^ 32

/-- A stream descriptor (tables *Stream descriptor* and *added field*, R234). -/
structure StreamDesc where
  vaddr : Nat
  counts : List Nat
  strides : List Int
  stepP : Int
  rate : Nat
  cache : Bool
  elem : Nat
  row : Nat
  atop : Nat
  shadow : Bool
deriving DecidableEq, Repr

/-- The stream descriptor that 64 bytes hold. -/
def streamDesc (d : Bits512) : StreamDesc where
  vaddr := w512 d 0
  counts := [bits (w512 d 1) 15 0 + 1, bits (w512 d 1) 31 16 + 1, bits (w512 d 1) 47 32 + 1, bits (w512 d 1) 63 48 + 1]
  strides := [s32 (bits (w512 d 2) 31 0), s32 (bits (w512 d 2) 63 32), s32 (bits (w512 d 3) 31 0)]
  stepP := s32 (bits (w512 d 3) 63 32)
  rate := bits (w512 d 4) 15 0
  cache := bitAt (w512 d 4) 16
  elem := bits (w512 d 4) 20 17
  row := bits (w512 d 4) 32 21 + 1
  atop := bits (w512 d 4) 36 33
  shadow := bitAt (w512 d 4) 37

/-- The size S of a descriptor's transfer (R88). -/
def StreamDesc.size (d : StreamDesc) : Nat := d.counts.foldl (· * ·) 1

/-- An address moved by a signed step, modulo 2⁶⁴. -/
def addS (a : Nat) (k : Int) : Nat := (((a : Int) + k) % 2 ^ 64).toNat

/-- The runs of a descriptor from a base address, in walk order: i₁ fastest (R221). -/
def StreamDesc.runs (d : StreamDesc) (base : Nat) : List (Nat × Nat) :=
  let c (i : Nat) := d.counts.getD i 1
  let t (i : Nat) := d.strides.getD i 0
  (List.range (c 3)).flatMap fun (i3 : Nat) => (List.range (c 2)).flatMap fun (i2 : Nat) => (List.range (c 1)).map fun (i1 : Nat) =>
    (addS base (t 0 * i1 + t 1 * i2 + t 2 * i3), c 0)

/-- A run split at 256-byte block boundaries; `off` is its place in the transfer (R221). -/
def splitRun : Nat → Nat → Nat → Nat → List Seg
  | 0, _, _, _ => []
  | f + 1, a, n, off =>
    if n = 0 then []
    else
      let k := min n (256 - a % 256)
      ⟨a, k, off⟩ :: splitRun f (a + k) (n - k) (off + k)

/-- The requests of a list of runs packed in walk order. -/
def segsOf (runs : List (Nat × Nat)) : List Seg :=
  (runs.foldl (fun (acc : List Seg × Nat) r =>
    (acc.1 ++ splitRun (r.2 / 256 + 2) r.1 r.2 acc.2, acc.2 + r.2)) ([], 0)).1

/-- A convolution descriptor (table *Convolution descriptor*): per dimension input size, first output, outputs, kernel,
stride, dilation, padding. A dimension beyond NDIM has size 1 and a kernel of 1 (R124). -/
structure ConvDim where
  inp : Nat
  ostart : Nat
  out : Nat
  ks : Nat
  st : Nat
  dl : Nat
  pb : Nat
deriving DecidableEq, Repr

/-- Dimension `i` (1 to 3) of a convolution descriptor. -/
def convDim (d : Bits512) (i : Nat) : ConvDim :=
  if i > bits (w512 d 0) 1 0 then ⟨1, 0, 1, 1, 1, 1, 0⟩
  else
    let w := w512 d i
    ⟨bits w 15 0 + 1, bits w 31 16, bits w 40 32 + 1, bits w 44 41 + 1, bits w 48 45 + 1, bits w 52 49 + 1, bits w 60 53⟩

/-- CIN and COUT. -/
def convCin (d : Bits512) : Nat := bits (w512 d 0) 13 2 + 1
/-- COUT. -/
def convCout (d : Bits512) : Nat := bits (w512 d 0) 22 14 + 1

/-- M, N and K of a CONV entry (R124). -/
def convMNK (d : Bits512) : Nat × Nat × Nat :=
  let a := convDim d 1
  let b := convDim d 2
  let c := convDim d 3
  (a.out * b.out * c.out, convCout d, convCin d * a.ks * b.ks * c.ks)

/-! ## Operand shapes in scratchpad -/

/-- Bytes rounded up to whole lines. -/
def lineUp (n : Nat) : Nat := ceilDiv n 64 * 64

/-- The element area of a block of 16 rows of `k` elements, in bytes and in whole lines (R106, R108). -/
def elemArea (code k : Nat) : Nat := lineUp (2 * k * fmtBits code)

/-- The block stride: element area and, for an MX format, scale area of `g` scales a row (R107, R108). -/
def blockStride (code k g : Nat) : Nat := elemArea code k + if isMx code then lineUp (16 * g) else 0

/-- The bit offset of element (i, k) of a block in the diagonal layout (R106). -/
def diagBit (code i k : Nat) : Nat := (16 * k + (i + k) % 16) * fmtBits code

/-- The byte offset of scale (i, g) of a block (R107). -/
def diagScale (i g : Nat) : Nat := 16 * g + (i + g) % 16

/-- Bits [lo + w − 1 : lo] of a byte source, counted from its first byte. -/
def readBits (rd : Nat → Byte) (lo w : Nat) : Nat :=
  let b := lo / 8
  (((rd b).toNat + 256 * (rd (b + 1)).toNat + 65536 * (rd (b + 2)).toNat + 2 ^ 24 * (rd (b + 3)).toNat
    + 2 ^ 32 * (rd (b + 4)).toNat) / 2 ^ (lo % 8)) % 2 ^ w

/-- The bytes of one row record of `row` elements: packed elements and, for an MX code, ROW/32 scale bytes (R109). -/
def recordBytes (code row : Nat) : Nat := ceilDiv (row * fmtBits code) 8 + if isMx code then row / 32 else 0

/-- Where the row records of a diagonal transfer stand in scratchpad, as (record bit, scratchpad bit, width) moves of record
`j`, relative to the first line (R109). -/
def diagMoves (code row j : Nat) : List (Nat × Nat × Nat) :=
  let w := fmtBits code
  let g := row / 32
  let base := (j / 16) * blockStride code row g * 8
  ((List.range row).map fun k => (k * w, base + diagBit code (j % 16) k, w)) ++
  if isMx code then
    (List.range g).map fun x => (ceilDiv (row * w) 8 * 8 + 8 * x, base + elemArea code row * 8 + 8 * diagScale (j % 16) x, 8)
  else []

/-! ## Ring entries (R382) -/

/-- OP of a command entry. -/
def cmdOp (e : Bits512) : Nat := bits (w512 e 0) 7 0

/-- SEQ of a command entry. -/
def cmdSeq (e : Bits512) : BitVec 32 := BitVec.ofNat 32 (bits (w512 e 0) 39 8)

/-- PARAM of a SET_PARAM. -/
def cmdParam (e : Bits512) : Nat := bits (w512 e 1) 7 0

/-- CTX of a SET_PARAM on the PF ring. -/
def cmdCtx (e : Bits512) : Nat := bits (w512 e 1) 17 8

/-- A SET_PARAM immediate or payload is used by a parameter: which words besides 1 may be set, with their top bits. -/
def paramWords (p : Nat) : List (Nat × Nat) :=
  match p with
  | 0x01 | 0x02 | 0x05 | 0x06 | 0x08 => [(2, 63)]
  | 0x03 => [(2, 63), (3, 11)]
  | 0x04 => [(2, 63), (3, 27), (4, 32)]
  | 0x07 => [(3, 0), (4, 47)]
  | 0x09 => [(3, 0)]
  | _ => []

/-- The operand words of a command and the top bit each may use (tables *Commands* and *Parameters*). -/
def cmdWords (e : Bits512) (pfRing : Bool) : List (Nat × Nat) :=
  match cmdOp e with
  | 0x01 | 0x02 => [(1, 63)]
  | 0x03 => (1, if pfRing then 17 else 7) :: paramWords (cmdParam e)
  | 0x04 => [(1, 63), (2, 63), (3, 31)]
  | 0x05 => [(1, 63), (2, 4)]
  | 0x08 => [(1, 31)]
  | _ => []

/-- A command entry is well formed for its ring: a known OP, on the PF ring not an OP of a context ring, and no reserved bit
set (R382). -/
def cmdOk (e : Bits512) (pfRing : Bool) : Bool :=
  let ws := cmdWords e pfRing
  (cmdOp e = 0x03 ∨ cmdOp e = 0x06 ∨ (!pfRing ∧ 1 ≤ cmdOp e ∧ cmdOp e ≤ 8))
    && bits (w512 e 0) 63 40 = 0
    && (List.range 7).all fun i =>
      match ws.find? fun w => w.1 = i + 1 with
      | none => w512 e (i + 1) = 0
      | some w => w512 e (i + 1) < 2 ^ (w.2 + 1)

/-! ## Table entries -/

/-- A stage-link entry from its four words (table *Stage-link entry*). -/
def stageLinkOf (e : EntryBits) : StageLink where
  txEn := bitAt (w256 e 0) 0
  rxEn := bitAt (w256 e 0) 1
  remote := bitAt (w256 e 0) 2
  maxLen := bits (w256 e 0) 14 3 + 1
  destNode := bits (w256 e 0) 35 16
  destLink := bits (w256 e 0) 45 36
  qEave := bitAt (w256 e 1) 0
  qDie := bits (w256 e 1) 4 1
  depth := bits (w256 e 1) 20 5 + 1
  high := bits (w256 e 1) 36 21
  low := bits (w256 e 1) 52 37
  pktHigh := bits (w256 e 1) 59 53
  pktLow := bits (w256 e 2) 6 0
  arrTile := bits (w256 e 2) 23 7
  arrCtr := bits (w256 e 2) 29 24

/-- No reserved bit of a stage-link entry is set (R170). -/
def stageLinkReserved (e : EntryBits) : Bool :=
  bits (w256 e 0) 15 15 = 0 ∧ bits (w256 e 0) 63 46 = 0 ∧ bits (w256 e 1) 63 60 = 0 ∧ bits (w256 e 2) 63 30 = 0 ∧ w256 e 3 = 0

/-- A version-ring entry from its words (R188). -/
def vringOf (e : EntryBits) : VRing where
  base := w256 e 0
  stride := bits (w256 e 1) 47 0
  slots := 2 ^ (bits (w256 e 2) 1 0 + 1)
  newest := BitVec.ofNat 16 (bits (w256 e 2) 17 2)
  advance := bitAt (w256 e 2) 18
  valid := bitAt (w256 e 2) 19

/-- A version-ring entry holds its stated values (R188). -/
def vringOk (e : EntryBits) : Bool :=
  bits (w256 e 0) 15 0 = 0 ∧ bits (w256 e 1) 63 48 = 0 ∧ bits (w256 e 1) 47 0 % 65536 = 0 ∧ bits (w256 e 2) 63 20 = 0 ∧ w256 e 3 = 0

/-- The direct route entry that 32 bytes hold, with its node and VALID (R292). -/
def routeOf (e : EntryBits) : Nat × Bool × Route :=
  (bits (w256 e 0) 19 0, bitAt (w256 e 0) 52,
   { primary := bits (w256 e 0) 25 20, secondary := bits (w256 e 0) 31 26, pepoch := BitVec.ofNat 16 (bits (w256 e 0) 47 32)
     bound := bits (w256 e 0) 51 48, macP := BitVec.ofNat 48 (w256 e 1), macS := BitVec.ofNat 48 (w256 e 2)
     lanes := BitVec.ofNat 64 (w256 e 3) })

/-- The number of set bits. -/
def popcount (w : Word) : Nat := ((List.range 64).filter fun i => w.getLsbD i).length

/-- A direct route entry holds its stated values (R292). -/
def routeOk (e : EntryBits) : Bool :=
  let r := (routeOf e).2.2
  bits (w256 e 0) 63 53 = 0 && w256 e 1 < 2 ^ 48 && w256 e 2 < 2 ^ 48 && r.primary / 8 ≠ r.secondary / 8 && popcount r.lanes ≤ 16

/-- The context descriptor that 32 bytes hold: EN, number of courses, address of the list, and the rest (table *Context
descriptor*). -/
def ctxDesc (e : EntryBits) : Bool × Nat × Nat × CtxCfg :=
  let w0 := w256 e 0
  (bitAt w0 0, bits w0 42 32, w256 e 1,
   { priority := bits w0 3 1, setKind := bits w0 5 4, setIdx := bits w0 9 6, share := bits w0 20 10, pshare := bits w0 31 21
     courses := [], ttRoot := w256 e 2
     eshare := (List.range 6).map fun i => bits (w256 e 3) (9 * (i + 2) - 10) (9 * (i + 2) - 18) })

/-- The fields of a context descriptor lie within their values. -/
def ctxDescOk (e : EntryBits) : Bool :=
  let (_, n, l, g) := ctxDesc e
  g.setKind ≤ 2 && (g.setKind ≠ 0 || g.setIdx = 0) && (g.setKind ≠ 1 || g.setIdx < 4) && g.share ≤ 1024 && g.pshare ≤ 1024
    && n ≤ 1152 && bits (w256 e 0) 63 43 = 0 && l < 2 ^ 48 && g.ttRoot < 2 ^ 48 && g.ttRoot % 2 ^ 19 = 0
    && (g.eshare.all fun x => x ≤ 256) && bits (w256 e 3) 63 54 = 0

end Sys2Proof.Machine
end

