-- ==== Sys2Proof/Machine/Flags.lean ====
section
/-! DEFINITION. Status the device sets by itself: event logs (R395, R396), completion records, the completion ring and the
mailbox queue (R389 to R392), promise states (R60, R445), token counters (R47), and the routes that faults affect
(R316, R327, R446). -/

namespace Sys2Proof.Machine

/-! ## Event logs -/

/-- The offset and address space of an event log: a context's, or the physical function's by DPA. -/
inductive LogOf where
  | ctx (c : Nat)
  | pf
deriving DecidableEq, Repr

/-- The address of register `k` (0 BASE, 1 CTL, 2 PTR, 3 LOST) of an event log. -/
def LogOf.addr (l : LogOf) (k : Nat) : Nat :=
  match l with
  | .ctx c => ctxA c (Off.CTX_EVLOG_BASE + 8 * k)
  | .pf => Off.PF_EVLOG_BASE + 8 * k

/-- A record of four words put into an event log (R395), which a context's goes to as any write of the context does (R233): discarded and counted in LOST while BASE is 0 or behind a
translation fault; the oldest item is overwritten and counted when the log is full. -/
def State.evlogPut (s : State) (l : LogOf) (rec : List Nat) : State :=
  let base := s.rf (l.addr 0) 47 0
  let size := 2 ^ s.rf (l.addr 1) 4 0
  let w := s.rf (l.addr 2) 31 0
  let r := s.rf (l.addr 2) 63 32
  let a := base + w % size * 64
  let data := rec.flatMap (leBytes 8) ++ List.replicate 32 0
  let dpa := match l with
    | .ctx c => (s.redirect c a false).bind fun x => s.xlate c x true
    | .pf => some a
  if base = 0 then s.sat (l.addr 3) 31 0 1
  else
    match dpa with
    | none => s.sat (l.addr 3) 31 0 1
    | some d =>
      let s1 := if (w + 2 ^ 32 - r) % 2 ^ 32 ≥ size then (s.wrap (l.addr 2) 63 32 1).sat (l.addr 3) 31 0 1 else s
      (s1.devWrite d data false).wrap (l.addr 2) 31 0 1

/-! ## Completions -/

/-- A completion as the ring holds it (table *Completion record*): word 0 with VALID 1 and PHASE. -/
def Completion.ringWord0 (r : Completion) (phase : Bool) : Nat :=
  r.seq.toNat + r.op * 2 ^ 32 + r.status * 2 ^ 40 + 2 ^ 48 + b2n phase * 2 ^ 49

/-- The four words of a record in the mailbox: VALID 1, PHASE 0. -/
def Completion.mboxWords (r : Completion) : List Nat := [r.ringWord0 false, r.time.toNat, r.word2.toNat, r.word3.toNat]

/-- The 32 bytes of a record in the ring. -/
def Completion.bytes (r : Completion) (phase : Bool) : List Byte :=
  [r.ringWord0 phase, r.time.toNat, r.word2.toNat, r.word3.toNat].flatMap (leBytes 8)

/-- The address of the register at context-window offset `off` of a ring. -/
def RingOf.addr (r : RingOf) (off : Nat) : Nat :=
  match r with
  | .ctx c => ctxA c off
  | .pf b => bar0 (ridgeOf b) 0 (off + 0x600)

/-- How many entries of a ring wait (R382). -/
def State.ringCount (s : State) (r : RingOf) : Nat :=
  let size := 2 ^ s.rf (r.addr Off.CTX_CMD_CTL) 4 0
  (s.rf (r.addr Off.CTX_CMD_PTR) 31 16 + size - s.rf (r.addr Off.CTX_CMD_PTR) 15 0) % size

/-- What waits on the PF ring of a Ridge before each MGMT command changes; only the managing Ridge's ring counts (R387). -/
def State.mgmtBehind (s : State) (b : Bool) (f : Nat → Nat) : State :=
  if s.roleB = b then { s with mgmtCmds := s.mgmtCmds.map fun m => { m with behind := f m.behind } } else s

/-- The records held, in order (R390). -/
def State.heldOf (s : State) (r : RingOf) : List Completion :=
  match r with
  | .ctx c => (s.ctx c).held
  | .pf b => if b then s.pfHeldB else s.pfHeldA

/-- The held records set, and HELD with them. -/
def State.setHeld (s : State) (r : RingOf) (l : List Completion) : State :=
  let s1 := match r with
    | .ctx c => s.modCtx c fun x => { x with held := l }
    | .pf b => if b then { s with pfHeldB := l } else { s with pfHeldA := l }
  s1.wf (r.addr Off.CTX_CPL_STS) 19 16 l.length

/-- The phase of the ring's present pass. -/
def State.phaseOf (s : State) (r : RingOf) : Bool :=
  match r with
  | .ctx c => (s.ctx c).cplPhase
  | .pf b => if b then s.pfPhaseB else s.pfPhaseA

/-- The phase set. -/
def State.setPhase (s : State) (r : RingOf) (p : Bool) : State :=
  match r with
  | .ctx c => s.modCtx c fun x => { x with cplPhase := p }
  | .pf b => if b then { s with pfPhaseB := p } else { s with pfPhaseA := p }

/-- The records of the mailbox queue, oldest first. -/
def State.mailOf (s : State) (r : RingOf) : List Completion :=
  match r with
  | .ctx c => (s.ctx c).mailbox
  | .pf b => if b then s.pfMailB else s.pfMailA

/-- The mailbox queue set, and PENDING with it. -/
def State.setMail (s : State) (r : RingOf) (l : List Completion) : State :=
  let s1 := match r with
    | .ctx c => s.modCtx c fun x => { x with mailbox := l }
    | .pf b => if b then { s with pfMailB := l } else { s with pfMailA := l }
  s1.wf (r.addr Off.CTX_RES_STS) 5 0 l.length

/-- The ring may take no record now: full, or its context is being rebound (R390). -/
def State.ringBlocked (s : State) (r : RingOf) : Bool :=
  let size := 2 ^ s.rf (r.addr Off.CTX_CPL_CTL) 4 0
  let tail := s.rf (r.addr Off.CTX_CPL_STS) 15 0
  let head := s.rf (r.addr Off.CTX_CPL_CTL) 31 16
  (s.reg (r.addr Off.CTX_CPL_BASE) ≠ 0 && (tail + 1) % size = head % size)
    || (match r with
      | .ctx c => (s.ctx c).rebinding
      | .pf _ => false)

/-- The port through which a ring's records go. -/
def State.ringPort (s : State) (r : RingOf) : Bool :=
  match r with
  | .ctx c => (s.ctx c).boundB
  | .pf b => b

/-- TLP payload bytes of a context's VF counted (R397). -/
def State.pcieBytes (s : State) (r : RingOf) (n : Nat) : State :=
  match r with
  | .ctx c => s.cWrap c Off.CTX_BYTES_PCIE 63 0 n
  | .pf _ => s

/-- A record written to the completion ring, unless CPL_BASE is 0 (R390). -/
def State.ringPut (s : State) (r : RingOf) (x : Completion) : State :=
  let base := (s.reg (r.addr Off.CTX_CPL_BASE)).toNat
  let size := 2 ^ s.rf (r.addr Off.CTX_CPL_CTL) 4 0
  let tail := s.rf (r.addr Off.CTX_CPL_STS) 15 0 % size
  if base = 0 then s
  else
    let s1 := (s.hostPut (s.ringPort r) (base + tail * 32) (x.bytes (s.phaseOf r))).pcieBytes r 32
    let s2 := s1.wf (r.addr Off.CTX_CPL_STS) 15 0 ((tail + 1) % size)
    if tail + 1 = size then s2.setPhase r (!s.phaseOf r) else s2

/-- Held records written in order while the ring takes them (R390). -/
def State.drainHeld (s : State) (r : RingOf) : Nat → State
  | 0 => s
  | n + 1 =>
    match s.heldOf r with
    | [] => s
    | x :: l => if s.ringBlocked r then s else ((s.ringPut r x).setHeld r l).drainHeld r n

/-- A completion record is written (R389 to R391): the mailbox queue takes it or overruns; the ring takes it, or it is held. -/
def State.putRecord (s : State) (r : RingOf) (x : Completion) : State :=
  let s1 :=
    if (s.mailOf r).length < 32 then s.setMail r (s.mailOf r ++ [x])
    else
      let t := s.wf (r.addr Off.CTX_RES_STS) 6 6 1
      match r with
      | .ctx c => t.raiseCtx c 3
      | .pf _ => t
  let s2 := if s1.heldOf r ≠ [] ∨ s1.ringBlocked r then s1.setHeld r (s1.heldOf r ++ [x]) else s1.ringPut r x
  match r with
  | .ctx c => s2.raiseCtx c 0
  | .pf b => s2.sendMsix ⟨b, none, 0⟩

/-- A completion occurs; its record is written at the end of the cycle, so that an acknowledgement of the cycle applies first (R389, R392, R444). -/
def State.complete (s : State) (r : RingOf) (x : Completion) : State :=
  { s with cycle := { s.cycle with done := s.cycle.done ++ [(r, x)] } }

/-- The completion of a launch by a FLUSH or CANCEL. -/
def Completion.stopped (x : Completion) : Bool := decide (x.op = 2 ∧ (x.status = 1 ∨ x.status = 2))

/-- A record put into a list in rising SEQ, behind those of the same SEQ. -/
def Completion.insert (x : Completion) : List Completion → List Completion
  | [] => [x]
  | y :: r => if x.seq < y.seq then x :: y :: r else y :: x.insert r

/-- The record of a FLUSH or CANCEL put in its place by SEQ, or else behind the launches that such a command has completed (R389). -/
def Completion.insertLate (x : Completion) (l : List Completion) : List Completion :=
  let n := l.length - (l.reverse.takeWhile fun y => !y.stopped && decide (x.seq < y.seq)).length
  l.take n ++ x :: l.drop n

/-- The records of one cycle in the order in which they are written: rising SEQ, a launch that a FLUSH or CANCEL completes before it (R389). -/
def inSeq (l : List Completion) : List Completion :=
  let late := l.filter fun x => x.op = 7 || x.op = 8
  late.foldl (fun a x => x.insertLate a) ((l.filter fun x => !(x.op = 7 || x.op = 8)).foldl (fun a x => x.insert a) [])

/-- The records of the completions of the cycle are written, ring by ring. -/
def State.putRecords (s : State) : State :=
  let l := s.cycle.done
  let rings := l.foldl (fun a e => if e.1 ∈ a then a else a ++ [e.1]) []
  forAll rings (fun r t => forAll (inSeq ((l.filter fun e => e.1 = r).map (·.2))) (fun x u => u.putRecord r x) t)
    { s with cycle := { s.cycle with done := [] } }

/-- Records held, or about to be in this cycle (R390). -/
def State.heldCount (s : State) (r : RingOf) : Nat :=
  (s.heldOf r).length + if s.heldOf r ≠ [] ∨ s.ringBlocked r then (s.cycle.done.filter fun e => e.1 = r).length else 0

/-- A completion of SEQ, OP, STATUS at the present time. -/
def State.cpl (s : State) (seq : BitVec 32) (op status w2 w3 : Nat) : Completion :=
  ⟨seq, op, status, s.tb, BitVec.ofNat 64 w2, BitVec.ofNat 64 w3⟩

/-! ## Promise (R60, R445) -/

/-- Batten hops between two dies. -/
def dieDistance (a b : Nat) : Nat :=
  max (a % 8) (b % 8) - min (a % 8) (b % 8) + (max (a / 8) (b / 8) - min (a / 8) (b / 8))

/-- Of two dies that marked each other, the one that the managing Ridge fences: the farther, or the higher-numbered (R322). -/
def State.loses (s : State) (d n : Nat) : Bool :=
  dieDistance s.mgr n < dieDistance s.mgr d || (dieDistance s.mgr n = dieDistance s.mgr d && n < d)

/-- A fence notice names die `d` with a cause: 4, a partner has marked it LOST; 5, its own loss of clock or supply. -/
def State.fenceDue (s : State) (d cause : Nat) : Bool :=
  !(s.die d).fenced &&
  (match cause with
    | 4 => s.dies.any fun e => !e.2.fenced && decide (d ∈ e.2.marked) && (decide (e.1 ∉ (s.die d).marked) || s.loses d e.1)
    | 5 => !(s.die d).powered
    | _ => false)

/-- The loss of the managing Ridge has been detected, and it is not fenced yet (R330). -/
def State.mgrLost (s : State) : Bool := s.fenceDue s.mgr 4 || s.fenceDue s.mgr 5

/-- The promise of every context is suspended: a forced divider that no RESTORE has returned, firmware activation, or the
takeover from the detection of the loss on (R330; table *Promise states*; a level of 3 or more or a trip forces the divider). -/
def State.suspended (s : State) : Bool :=
  s.rf Off.RDG_CLK 4 4 = 1 ∨ s.rf Off.RDG_FWACT 0 0 = 1 ∨ s.takeoverActive ∨ s.mgrLost

/-- A transfer has been accepted and has not arrived. -/
def Xfer.inFlight (x : Xfer) : Bool := x.acceptedAt.isSome

/-- Two elements touch: a class of a link lies on the link (R445). -/
def Elem.hits (w : Elem) (e : Elem) : Bool :=
  match w, e with
  | .link k, .linkClass j _ => k = j
  | a, b => a = b

/-- A transfer crosses an element. -/
def Xfer.crossing (x : Xfer) (w : Elem) : Bool := x.crosses.any fun e => w.hits e

/-- A fault window is open on an element that a transfer of the context crosses. -/
def State.extendedNow (s : State) (c : Nat) : Bool :=
  (s.ctx c).xfers.any fun e => e.2.inFlight && s.faultWins.any fun w => e.2.crossing w

/-- The deadlines of transfers of one stage link, in acceptance order, none before that of the one accepted just before it, and the last of
them (R173); a transfer without a deadline bounds none. -/
def raiseDeadlines (xs : Table Xfer) (before : Nat) : List Nat → Table Xfer × Nat
  | [] => (xs, before)
  | id :: r =>
    match Table.get? xs id with
    | none => raiseDeadlines xs before r
    | some x =>
      let d := x.deadline.map (max before)
      raiseDeadlines (Table.set xs id { x with deadline := d }) (d.getD 0) r

/-- The deadlines of every stage link of a context brought in order after a change of some (R173). -/
def Ctx.linkOrder (x : Ctx) : Ctx :=
  x.queues.foldl (fun y e =>
    if e.2.order = [] then y
    else
      let r := raiseDeadlines y.xfers 0 e.2.order
      { y with xfers := r.1, queues := Table.put Queue.init y.queues e.1 { e.2 with lastDeadline := r.2 } }) x

/-- The promise state of a context brought up to date, entries counted; on entry into SUSPENDED a transfer whose deadline
has not passed loses it (R60). -/
def State.refreshPromise (s : State) (c : Nat) : State :=
  let a := ctxA c Off.CTX_PROMISE
  let old := s.rf a 1 0
  let new := if s.suspended then 2 else if s.extendedNow c then 1 else 0
  if new = old then s
  else
    let s1 := s.wf a 1 0 new
    if new = 2 then
      (s1.sat a 15 8 1).modCtx c fun x => Ctx.linkOrder { x with
        xfers := x.xfers.mapVals fun _ y => if y.deadline.any (s.now ≤ ·) then { y with deadline := none } else y }
    else if new = 1 then s1.sat a 31 16 1
    else s1

/-- The promise of every context brought up to date. -/
def State.refreshAll (s : State) : State := forAll (List.range 1024) (fun c t => t.refreshPromise c) s

/-- A fault window opens on an element: every transfer in flight that crosses it gets 100,000 cycles more (R60, R445). -/
def State.openWindow (s : State) (w : Elem) : State :=
  if w ∈ s.faultWins then s
  else
    let s1 := { s with faultWins := w :: s.faultWins }
    forAll s.ctxs (fun e t =>
      (t.modCtx e.1 fun x => Ctx.linkOrder { x with
        xfers := x.xfers.mapVals fun _ y =>
          if y.inFlight && y.crossing w then { y with deadline := y.deadline.map (· + 100000), extended := true } else y }).refreshPromise e.1) s1

/-- A fault window closes: the fault is absorbed. -/
def State.closeWindow (s : State) (w : Elem) : State :=
  forAll s.ctxs (fun e t => t.refreshPromise e.1) { s with faultWins := s.faultWins.filter (· ≠ w) }

/-! ## Purlin routes (R316, R318, R327, R446) -/

/-- The dies that a dimension-order route visits after `a`, with the direction taken into each: first along x, then along y.
Directions: 0 up, 1 right, 2 down, 3 left. -/
def dorPath (a b : Nat) : List (Nat × Nat) :=
  let ax := a % 8
  let bx := b % 8
  let ay := a / 8
  let by_ := b / 8
  ((List.range (if ax ≤ bx then bx - ax else ax - bx)).map fun i =>
      if ax < bx then (ay * 8 + ax + i + 1, 1) else (ay * 8 + (ax - i - 1), 3)) ++
  ((List.range (if ay ≤ by_ then by_ - ay else ay - by_)).map fun i =>
      if ay < by_ then ((ay + i + 1) * 8 + bx, 2) else ((ay - i - 1) * 8 + bx, 0))

/-- A dimension-order route from `a` to `b` passes between its ends only through dies that `bad` does not hold. -/
def dorClear (bad : List Nat) (a b : Nat) : Bool := (dorPath a b).all fun h => h.1 = b ∨ h.1 ∉ bad

/-- The intermediate die of a route (R327): the legs avoid every bad die, the fewest hops, then the lowest number. -/
def viaDie (bad : List Nat) (a b : Nat) : Option Nat :=
  let cand := (List.range 64).filter fun v => v ≠ a ∧ v ≠ b ∧ v ∉ bad ∧ dorClear bad a v ∧ dorClear bad v b
  cand.foldl (fun o v =>
    match o with
    | none => some v
    | some w => if (dorPath a v).length + (dorPath v b).length < (dorPath a w).length + (dorPath w b).length then some v else some w) none

/-- Hops taken on a lane: die entered, edge direction, lane. -/
def onLane (lane : Nat) (l : List (Nat × Nat)) : List (Nat × Nat × Nat) := l.map fun h => (h.1, h.2, lane)

/-- The hops of the route from `a` to `b` when `bad` dies are avoided, with the lane of each: lane 0 along the dimension-order route or to the
intermediate die, lane 1 from there (R316); none where the pair is unreachable. -/
def laneRoute (bad : List Nat) (a b : Nat) : Option (List (Nat × Nat × Nat)) :=
  if a = b then some []
  else if dorClear bad a b then some (onLane 0 (dorPath a b))
  else (viaDie bad a b).map fun v => onLane 0 (dorPath a v) ++ onLane 1 (dorPath v b)

/-- The same hops without their lanes. -/
def routeAvoid (bad : List Nat) (a b : Nat) : Option (List (Nat × Nat)) := (laneRoute bad a b).map fun r => r.map fun h => (h.1, h.2.1)

/-- The fenced dies. -/
def State.fencedDies (s : State) : List Nat := (List.range 64).filter fun d => (s.die d).fenced

/-- The route in use from die `a` to die `b`: Dormer positions are never crossed (R446), nor a fenced die (R327). -/
def State.purlin (s : State) (a b : Nat) : Option (List (Nat × Nat)) :=
  if (s.die a).fenced ∨ (s.die b).fenced then none else routeAvoid (7 :: 56 :: s.fencedDies) a b

/-- The route in use with its lanes. -/
def State.lanes (s : State) (a b : Nat) : Option (List (Nat × Nat × Nat)) :=
  if (s.die a).fenced ∨ (s.die b).fenced then none else laneRoute (7 :: 56 :: s.fencedDies) a b

/-- Neither die is fenced, and no route joins them (R327). -/
def State.unreachable (s : State) (a b : Nat) : Bool := !(s.die a).fenced && !(s.die b).fenced && (s.purlin a b).isNone

/-- A request or packet of die `d` to die `b`, which the fence cuts off: counted where the pair is unreachable (R327). -/
def State.unreach (s : State) (d b : Nat) : State := if s.unreachable d b then s.sat (bar0 d 1 Off.PRL_DETOUR) 63 32 1 else s

/-- Batten hops of the route in use (R57). -/
def State.hops (s : State) (a b : Nat) : Nat := ((s.purlin a b).getD []).length

/-- The edge directions of a route from `a`: the die that each hop leaves, and the direction. -/
def edgesOf (a : Nat) : List (Nat × Nat) → List Elem
  | [] => []
  | (d, dir) :: r => .edge a dir :: edgesOf d r

/-- The edge directions between two dies, both ways. -/
def State.edges2 (s : State) (a b : Nat) : List Elem :=
  edgesOf a ((s.purlin a b).getD []) ++ edgesOf b ((s.purlin b a).getD [])

/-! ## Tiles and their dies (R96, R98, R373) -/

/-- The physical IDs that a Rafter die's courses use, in rising order: every tile but its spares (R373). -/
def enabledTiles (spares : List Nat) : List Nat := (List.range 2304).filter fun p => p ∉ spares

/-- Element `k` of the enabled tiles, counted without building the list: spares in rising order push it up (R373). -/
def nthEnabled (spares : List Nat) (k : Nat) : Nat := spares.foldl (fun p sp => if sp ≤ p then p + 1 else p) k

/-- The physical tile of course place `i` (0 to 2,239) of Rafter `r`, after self-test and retirements (R98, R368, R421). -/
def State.physTile (s : State) (r i : Nat) : Nat :=
  let f := s.rafter r
  f.retired.foldl (fun p t => if t.tile = p ∧ !t.copying then t.spare else p) (nthEnabled f.spares i)

/-- The course ID of a logical tile of a context (R373, R96). -/
def State.courseOf (s : State) (c t : Nat) : Nat :=
  match (s.ctx c).cfg with
  | none => 0
  | some g => g.courses.getD (t / 70) 0

/-- The Rafter die of a logical tile. -/
def State.tileDie (s : State) (c t : Nat) : Nat := rafterDie (s.courseOf c t / 32)

/-- The scratchpad of a logical tile: the key of its byte 0. -/
def State.padBase (s : State) (c t : Nat) : Nat :=
  let k := s.courseOf c t
  padKey (rafterDie (k / 32)) (s.physTile (k / 32) (k % 32 * 70 + t % 70)) 0

/-- The logical tiles of a context: 70 for each course. -/
def State.tileCount (s : State) (c : Nat) : Nat :=
  match (s.ctx c).cfg with
  | none => 0
  | some g => 70 * g.courses.length

/-! ## Plan store (R91) -/

/-- The frame that a segment is in or is requested into. -/
def Tile.frameOf (t : Tile) (seg : Nat) : Option Nat :=
  (List.range t.frames.length).find? fun f => (t.frames[f]?.bind (·.seg)) = some seg

/-- The entry at a plan position, if its segment is resident. -/
def Tile.entryAt (t : Tile) (p : Nat) : Option EntryBits :=
  (t.frameOf (p / 256)).bind fun f => (t.frames[f]?.map (·.entries)).bind fun l => l[p % 256]?

/-- The plan-store index of a plan position (R91). -/
def Tile.index (t : Tile) (p : Nat) : Nat := ((t.frameOf (p / 256)).getD 0) * 256 + p % 256

/-- The number of segments of a tile's plan. -/
def Tile.segs (t : Tile) : Nat := ceilDiv t.length 256

/-- The pass index that an entry reads: of the innermost REPEAT, 0 outside (R81). -/
def Tile.pass (t : Tile) : Nat := (t.reps.head?.map (·.index)).getD 0

end Sys2Proof.Machine
end

