-- ==== Sys2Proof/Machine/Purlin.lean ====
section
/-! DEFINITION. Purlin and its Batten edges (R315 to R321, R326): strands, packets and their flits, the lanes of a router port, what each router
output serves next, and what a fence discards on its way. -/

namespace Sys2Proof.Machine

/-! ## Edges and strands -/

/-- The die beyond edge `dir` of a die: 0 up, 1 right, 2 down, 3 left. -/
def neighbour (d dir : Nat) : Option Nat :=
  match dir with
  | 0 => if 8 ≤ d then some (d - 8) else none
  | 1 => if d % 8 < 7 then some (d + 1) else none
  | 2 => if d + 8 < 64 then some (d + 8) else none
  | 3 => if 0 < d % 8 then some (d - 1) else none
  | _ => none

/-- The direction back. -/
def opposite (dir : Nat) : Nat := (dir + 2) % 4

/-- The address of a register of an edge on its die's BTN page. -/
def btnReg (die dir off : Nat) : Nat := bar0 die 2 (off + 0x20 * dir)

/-- An edge is UP and both its dies work. -/
def State.edgeUp (s : State) (die dir : Nat) : Bool :=
  match neighbour die dir with
  | none => false
  | some n => decide (s.rf (btnReg die dir Off.BTN_EDGE_STS) 1 0 = 1) && s.alive die && s.alive n

/-- A strand of an edge is in use: neither failed nor retired at either end. -/
def State.strandUsed (s : State) (die dir strand : Nat) : Bool :=
  let off (d e : Nat) : Bool :=
    bitAt (s.rf (btnReg d e Off.BTN_EDGE_STS) 9 2) strand || bitAt (s.rf (btnReg d e Off.BTN_RETIRE) 7 0) strand
  decide (strand < 8) && !off die dir && !((neighbour die dir).any fun n => off n (opposite dir))

/-- The strands of an edge in use. -/
def State.strands (s : State) (die dir : Nat) : Nat := ((List.range 8).filter (s.strandUsed die dir)).length

/-! ## Packets (R315, R316) -/

/-- The flits of each packet that carries `n` bytes: packets of at most 8 flits of 512 bytes, and one where there is nothing to carry (R315). -/
def packetFlits (n : Nat) : List Nat :=
  (List.range (max 1 (ceilDiv n 4096))).map fun i => max 1 (ceilDiv (min 4096 (n - 4096 * i)) 512)

/-- The key of a port of a router: 0 to 3 its edges, 4 the die's own. -/
def portKey (die port : Nat) : Nat := die * 5 + port

/-- The packets at a port of a router, oldest first. -/
def State.routerPort (s : State) (die port : Nat) : List PurlinPacket := Table.getD [] s.routers (portKey die port)

/-- The state with the packets at a port of a router changed. -/
def State.modRouter (s : State) (die port : Nat) (f : List PurlinPacket → List PurlinPacket) : State :=
  { s with routers := Table.put [] s.routers (portKey die port) (f (s.routerPort die port)) }

/-- Packets of a transfer enter the router of die `a` for die `b`, parts from `part` on; the sink answers the last as `reply` says. Nothing crosses
an edge on the way to the die itself (R315, R316). -/
def State.inject (s : State) (a b cls : Nat) (owner : Nat × Nat) (part n : Nat) (reply : Option (Nat × Nat)) : State :=
  match s.lanes a b with
  | none => s
  | some [] => s
  | some (h :: r) =>
    let l := packetFlits n
    s.modRouter a 4 fun q => q ++ l.zipIdx.map fun f =>
      { cls := cls, flits := f.1, src := a, dst := b, hops := h :: r, lane := 0, owner := owner, part := part + f.2
        reply := if f.2 + 1 = l.length then reply else none, sent := 0, ready := s.now }

/-- Part `k` of a transfer is on its way. -/
def State.onWay (s : State) (c id k : Nat) : Bool := s.routers.any fun e => e.2.any fun f => decide (f.owner = (c, id) ∧ f.part = k)

/-- Some part of a transfer is on its way. -/
def State.anyOnWay (s : State) (c id : Nat) : Bool := s.routers.any fun e => e.2.any fun f => decide (f.owner = (c, id))

/-! ## Router outputs (R316, R317, R319) -/

/-- The flits that a lane of a router port buffers: 8 KiB (R316). -/
def laneFlits : Nat := 16

/-- The lane that a packet takes next, and the edge direction. -/
def PurlinPacket.nextLane (f : PurlinPacket) : Nat := (f.hops.head?.map fun h => h.2.2).getD 0

/-- The packets of a port that are first in their lanes. -/
def laneHeads (l : List PurlinPacket) : List PurlinPacket :=
  l.foldl (fun acc f => if acc.any fun g => g.cls = f.cls ∧ g.lane = f.lane then acc else acc ++ [f]) []

/-- A packet at the router of `die` is for the output `dir`. -/
def PurlinPacket.goes (f : PurlinPacket) (dir : Nat) : Bool := f.hops.head?.any fun h => decide (h.2.1 = dir)

/-- Flits that a lane of the port beyond an output holds, or that are being sent into it. -/
def State.laneUsed (s : State) (die dir cls lane : Nat) : Nat :=
  let there := match neighbour die dir with
    | none => []
    | some n => (s.routerPort n (opposite dir)).filter fun f => f.cls = cls ∧ f.lane = lane
  let coming := (List.range 5).flatMap fun p =>
    (s.routerPort die p).filter fun f => f.goes dir && decide (0 < f.sent ∧ f.cls = cls ∧ f.nextLane = lane)
  ((there ++ coming).map (·.flits)).sum

/-- The packets that an output may send a flit of now, with their ports: first in their lanes, and begun or with room beyond. -/
def State.sendable (s : State) (die dir : Nat) : List (Nat × PurlinPacket) :=
  (List.range 5).flatMap fun p =>
    ((laneHeads (s.routerPort die p)).filter fun f =>
      f.goes dir && decide (f.ready ≤ s.now) &&
        (decide (0 < f.sent) || decide (s.laneUsed die dir f.cls f.nextLane + f.flits ≤ laneFlits))).map fun f => (p, f)

/-- An output holds a flit that can not move for lack of lane buffer (PRL_SAT). -/
def State.outputBlocked (s : State) (die dir : Nat) : Bool :=
  s.edgeUp die dir && (List.range 5).any fun p => (laneHeads (s.routerPort die p)).any fun f =>
    f.goes dir && decide (f.ready ≤ s.now ∧ f.sent = 0 ∧ laneFlits < s.laneUsed die dir f.cls f.nextLane + f.flits)

/-- The turns of classes 0 to 3, in proportion to their strand shares 2 : 2.5 : 1 : 1 (R317). -/
def turnOrder : List Nat := [1, 0, 2, 1, 0, 3, 1, 0, 1, 2, 0, 1, 3]

/-- The class that an output serves next among those that have something to send, and the turn after it: classes 4 and 5 first, in that order,
then the weighted ones, where a class with nothing to send passes its turn on (R317; log 105). -/
def nextClass (has : Nat → Bool) (turn : Nat) : Option (Nat × Nat) :=
  if has 4 then some (4, turn)
  else if has 5 then some (5, turn)
  else
    (((List.range 13).map fun i => (turn + i) % 13).find? fun i => has (turnOrder.getD i 0)).map fun i => (turnOrder.getD i 0, (i + 1) % 13)

/-- One flit leaves through an output; with its last flit a packet is in the lane of the port beyond, where it can go on after the 12 cycles of
CLK_F of a hop (R317, R318). -/
def State.sendFlit (s : State) (die dir : Nat) : State :=
  let l := s.sendable die dir
  match nextClass (fun c => l.any fun x => x.2.cls = c) (Table.getD 0 s.turns (die * 4 + dir)), neighbour die dir with
  | some (c, turn), some n =>
    match l.find? fun x => x.2.cls = c with
    | none => s
    | some (p, f) =>
      let s1 := { s with turns := Table.put 0 s.turns (die * 4 + dir) turn }
      if f.sent + 1 < f.flits then s1.modRouter die p fun q => q.map fun g => if g = f then { g with sent := g.sent + 1 } else g
      else
        (s1.modRouter die p fun q => q.erase f).modRouter n (opposite dir) fun q =>
          q ++ [{ f with hops := f.hops.tail, lane := f.nextLane, sent := 0, ready := s.now + s.cyc 12 }]
  | _, _ => s

/-- One cycle of CLK_F of an output: each strand in use carries one flit (R319). -/
def State.outputCycle (s : State) (die dir : Nat) : State :=
  if s.edgeUp die dir then iter (fun _ t => t.sendFlit die dir) (s.strands die dir) s else s

/-- The packets at the ports of a router that have reached their sink. -/
def State.arrived (s : State) (die : Nat) : List PurlinPacket :=
  (List.range 5).flatMap fun p => (s.routerPort die p).filter fun f => f.hops.isEmpty && decide (f.ready ≤ s.now)

/-- The router of a die without the packets that have reached their sink: a sink takes every packet at once (R315). -/
def State.drainSink (s : State) (die : Nat) : State :=
  iter (fun p t => t.modRouter die p fun q => q.filter fun f => !(f.hops.isEmpty && decide (f.ready ≤ s.now))) 5 s

/-- The dies whose routers hold packets. -/
def State.busyRouters (s : State) : List Nat := s.routers.foldl (fun l e => insertNat (e.1 / 5) l) []

/-! ## Packets and fences (R326) -/

/-- A packet has not wholly left a die that is fenced, or is to go through it, or to it. -/
def PurlinPacket.cutBy (f : PurlinPacket) (at_ d : Nat) : Bool := decide (at_ = d) || f.hops.any fun h => decide (h.1 = d)

/-- The frames that have not been sent yet of the transfers in a list. -/
def State.dropFrames (s : State) (l : List (Nat × Nat)) : State :=
  { s with links := s.links.mapVals fun _ x => { x with classes := x.classes.mapVals fun _ k =>
      { k with txq := k.txq.filter fun f => f.owner.all fun o => o ∉ l } } }

/-- A QPUSH none of whose words stands in its queue leaves the acceptance order of its link. -/
def State.unqueuePush (s : State) (c id : Nat) : State :=
  match s.xfer c id with
  | none => s
  | some x =>
    match x.kind with
    | .qpush l _ _ _ _ _ => if x.words = 0 then s.modQueue c l fun q => { q with order := q.order.filter fun j => j ≠ id } else s
    | _ => s

/-- What a transfer has of a packet that is discarded: a request outstanding to the fenced die completes with poison when it is served, a response
of that die with poison at once; any other part never arrives (R326, R327; log 106). -/
def State.discarded (s : State) (d : Nat) (f : PurlinPacket) : State :=
  if f.cls = 0 ∧ f.dst = d ∧ f.reply = none then s
  else
    (s.unqueuePush f.owner.1 f.owner.2).modXfer f.owner.1 f.owner.2 fun x =>
      match x.segs[f.part]? with
      | some g =>
        if f.cls = 1 ∧ f.src = d then { x with bufPoison := x.bufPoison ++ [(g.off, g.len)], landed := insertNat f.part x.landed }
        else { x with lost := insertNat f.part x.lost }
      | none => { x with lost := insertNat f.part x.lost }

/-- The packets that the fence of die `d` discards are gone from every router. -/
def State.cutPackets (s : State) (d : Nat) : State :=
  let gone := s.routers.flatMap fun e => e.2.filter fun f => f.cutBy (e.1 / 5) d
  forAll gone (fun f t => t.discarded d f)
    { s.dropFrames (gone.map (·.owner)) with routers := (s.routers.map fun e => (e.1, e.2.filter fun f => !f.cutBy (e.1 / 5) d)).filter fun e => e.2 ≠ [] }

/-- A transfer that reads memory. -/
def XKind.reads (k : XKind) : Bool :=
  match k with
  | .streamIn _ _ _ _ | .gather _ _ | .refill _ _ | .mirrorPage _ => true
  | _ => false

/-- The atomic operation of a transfer, 0 for none. -/
def XKind.atop (k : XKind) : Nat :=
  match k with
  | .streamOut _ _ _ _ a _ => a
  | _ => 0

/-- A transfer that writes memory without atomics. -/
def XKind.writes (k : XKind) : Bool :=
  match k with
  | .streamOut _ _ _ _ a _ => decide (a = 0)
  | .scatter _ _ | .clear _ _ => true
  | _ => false

/-! ## Transfers of a context that is stopped (R401) -/

/-- The parts of a transfer whose packets have not left its tile for Purlin. -/
def State.unsentParts (s : State) (c id : Nat) : List Nat :=
  s.routers.flatMap fun e => if e.1 % 5 = 4 then (e.2.filter fun f => f.owner = (c, id) ∧ f.cls = 0 ∧ f.sent = 0).map (·.part) else []

/-- A transfer of which only what has left the tile is still delivered. -/
def Xfer.orphaned (x : Xfer) (unsent : List Nat) : Xfer :=
  { x with
    orphan := true
    engine := none
    ctr := none
    done := unsent.foldl (fun l k => insertNat k l) x.done
    landed := unsent.foldl (fun l k => insertNat k l) x.landed }

/-- The accepted writes and atomics of a context, which go on as far as they have left their tiles (R401). -/
def State.orphans (s : State) (c : Nat) : Table Xfer :=
  ((s.ctx c).xfers.filter fun e => e.2.inFlight && (e.2.kind.writes || decide (e.2.kind.atop ≠ 0))).map fun e =>
    (e.1, e.2.orphaned (s.unsentParts c e.1))

/-- The packets of a context's transfers that have not left their tiles discarded. -/
def State.dropPackets (s : State) (c : Nat) : State :=
  { s with routers := (s.routers.map fun e =>
      (e.1, e.2.filter fun f => !(decide (e.1 % 5 = 4) && decide (f.owner.1 = c ∧ f.sent = 0 ∧ f.cls ≠ 1)))).filter fun e => e.2 ≠ [] }

end Sys2Proof.Machine
end

