-- ==== Sys2Proof/Machine/Links.lean ====
section
/-! DEFINITION. Logical links: keys, active ports, path bounds, the sending of frames, route lookup with relaying
(R292 to R295, R307, R310, R352). -/

namespace Sys2Proof.Machine

/-! ## Keys and ports -/

/-- The key of the logical link to a node. -/
def linkKey (node : Nat) : Nat := node * 17

/-- The key of lane `l` of the logical link to a node (R352). -/
def laneKey (node l : Nat) : Nat := node * 17 + l + 1

/-- The node of a link key. -/
def keyNode (k : Nat) : Nat := k / 17

/-- The ports of a lane mask in rising order: lane 0 first. -/
def lanePorts (w : Word) : List Nat := (List.range 64).filter fun i => w.getLsbD i

/-- The direct route entry of a link key. -/
def State.routeOfKey (s : State) (k : Nat) : Option Route := Table.get? s.routes (keyNode k)

/-- The primary and the other port of a link or lane (R292, R352). -/
def State.linkPorts (s : State) (k : Nat) : Option (Nat × Nat) :=
  (s.routeOfKey k).bind fun r =>
    if k % 17 = 0 then some (r.primary, r.secondary)
    else ((lanePorts r.lanes)[k % 17 - 1]?).map fun p => (p, (p + 32) % 64)

/-- The active port of a link or lane. -/
def State.activePort (s : State) (k : Nat) : Option Nat :=
  (s.linkPorts k).map fun p => if (s.link k).onSecondary then p.2 else p.1

/-- The other port of a link or lane. -/
def State.otherPort (s : State) (k : Nat) : Option Nat :=
  (s.linkPorts k).map fun p => if (s.link k).onSecondary then p.1 else p.2

/-- The keys of the links and lanes of a direct route entry. -/
def Route.keys (r : Route) (node : Nat) : List Nat :=
  linkKey node :: (List.range (lanePorts r.lanes).length).map (laneKey node)

/-- The keys of every link and lane. -/
def State.linkKeys (s : State) : List Nat := s.routes.flatMap fun e => e.2.keys e.1

/-- The Eave die of a package port (R33). -/
def portDie (p : Nat) : Nat := eaveDie (p / 8)

/-- The address of register `off` of a package port on its EAV page. -/
def portReg (p off : Nat) : Nat := bar0 (portDie p) 0 (off + 0x40 * (p % 8))

/-- A port is up (EAV_PSTS.UP). -/
def State.portUpNow (s : State) (p : Nat) : Bool := s.rf (portReg p Off.EAV_PSTS) 0 0 = 1

/-- A port has failed (EAV_PSTS.FAILED). -/
def State.portFailed (s : State) (p : Nat) : Bool := s.rf (portReg p Off.EAV_PSTS) 1 1 = 1

/-- A port stops being up: the ordinary clock on it is no longer synchronised (R289). -/
def State.portDown (s : State) (p : Nat) : State :=
  let s1 := s.wf (portReg p Off.EAV_PSTS) 0 0 0
  if s.rf Off.RDG_PTP 5 0 = p then { s1 with ptpLocked := false } else s1

/-- The lanes a port uses in a mode: 0 to n−1 (R34, table *Port modes*). -/
def modeLanes (m : Nat) : Nat :=
  match m with
  | 0 => 0
  | 1 => 2
  | 2 => 4
  | _ => 8

/-- SerDes lane of lane `l` of package port `p` (R33). -/
def serdesLane (p l : Nat) : Nat := 8 * p + l

/-- A SerDes lane is powered: its port's MODE uses it; any other is powered down and its transmitter held at electrical idle (R34). -/
def State.lanePowered (s : State) (lane : Nat) : Bool := decide (lane % 8 ∈ (s.port (lane / 8)).lanes)

/-- Bytes per nanosecond of a port mode (table *Port modes*): 25, 50, 100. -/
def modeRate (m : Nat) : Nat :=
  match m with
  | 1 => 25
  | 2 => 50
  | 3 => 100
  | _ => 0

/-- The rate of a port in bytes per nanosecond. -/
def State.portRate (s : State) (p : Nat) : Nat := modeRate (s.rf (portReg p Off.EAV_PCTL) 1 0)

/-- Bound of class `c` in profile `j`, in ns (R307). -/
def State.boundNs (s : State) (j c : Nat) : Nat :=
  let a := (if c < 4 then Off.RDG_BOUND_LO else Off.RDG_BOUND_HI) + 0x10 * j
  s.rf a (16 * (c % 4) + 15) (16 * (c % 4))

/-- The path bound of class `c` of the logical link to a node (R307). -/
def State.linkBound (s : State) (node c : Nat) : Nat :=
  match Table.get? s.routes node with
  | none => 0
  | some r => s.boundNs r.bound c

/-- The latest frame received on a link carries KALIVE and the class is one of 2 to 7 (R411). -/
def State.kaliveOn (s : State) (k c : Nat) : Bool := (s.link k).peerKalive && decide (2 ≤ c)

/-! ## Frames -/

/-- The payload bytes of a control message. -/
def ctlBytes (m : CtlMsg) : Nat :=
  match m with
  | .vote _ _ _ _ _ _ => min 4088 (Config.ctlLen 0)
  | .decide _ _ _ _ _ _ => min 4088 (Config.ctlLen 1)
  | .mgmt _ => 64
  | .mgmtDone _ => 32

/-- A header towards a node with the link-layer fields still open: SEQ, ACK and KALIVE are set when the frame starts. -/
def State.header (s : State) (node cls typ obj c : Nat) (oepoch : BitVec 16) (len : Nat) (last : Bool) : FrameHdr where
  dst := node
  src := s.node
  cls := cls
  typ := typ
  obj := obj
  ackv := false
  replay := false
  last := last
  kalive := false
  seq := 0
  ack := 0
  pepoch := ((Table.get? s.routes node).map (·.pepoch)).getD 0
  oepoch := oepoch
  len := len
  ctx := c
  laned := false
  lane := 0
  poison := 0

/-- A frame put at the end of its class on a link. -/
def State.enqueue (s : State) (k : Nat) (f : Frame) (owner : Option (Nat × Nat)) (stage : Option (Nat × Nat) := none) : State :=
  s.modLc k f.hdr.cls fun l => { l with txq := l.txq ++ [⟨f, owner, stage⟩] }

/-- The valid prefix entry with the longest PLEN that matches a node (R294). -/
def State.prefixOf (s : State) (node : Nat) : Option PrefixEntry :=
  (s.prefixes.filter fun p => node / 2 ^ (20 - p.plen) = p.bits / 2 ^ (20 - p.plen)).foldl (fun o p =>
    match o with
    | none => some p
    | some q => if q.plen < p.plen then some p else some q) none

/-- A frame without a route is counted on an Eave die (R294). -/
def State.dropNoRoute (s : State) (e : Nat) : State := s.sat (bar0 (eaveDie e) 0 Off.EAV_DROP) 15 0 1

/-- The plan's divider of a context, as a number. -/
def State.planDiv (s : State) (c : Nat) : Nat := effDiv (((s.ctx c).plan.map (·.divider)).getD s.eff)

/-- The bound of a RELAYED frame in ns (R307). -/
def State.relayedBound (s : State) (via final : Nat) : Nat := s.linkBound via 0 + 1000 + (Config.relayBound via final).toNat

/-- A contract miss of a context is counted where now is later than `by_` (R59). -/
def State.countMiss (s : State) (c by_ : Nat) : State :=
  if by_ < s.now then
    ((s.cSat c Off.CTX_CONTRACT_MISS 31 0 1).maxF (ctxA c Off.CTX_CONTRACT_MISS) 63 32 (min (s.now - by_) (2 ^ 32 - 1))).raiseCtx c 2
  else s

/-- A stage of a verdict that ran to now is a contract miss where it overran its bound while the promise is in force (R247). -/
def State.stageOver (s : State) (c by_ : Nat) : State := if s.suspended then s else s.countMiss c by_

/-- The stage of a vote or decision that leaves now under a path bound in ns: its context, and the last cycle within the bound (R247). -/
def State.stageOf (s : State) (typ c bound : Nat) : Option (Nat × Nat) :=
  if typ = 4 ∨ typ = 5 then some (c, s.now + ceilDiv (bound * 8) (s.planDiv c)) else none

/-- A VOTE, DECIDE or MGMT frame handed to the link layer: on the direct entry, or as RELAYED to VIA, or discarded without a route (R294). -/
def State.postCtl (s : State) (node typ obj c : Nat) (oepoch : BitVec 16) (m : CtlMsg) : State :=
  match Table.get? s.routes node with
  | some _ => s.enqueue (linkKey node) ⟨s.header node 0 typ obj c oepoch (ctlBytes m) true, .ctl m⟩ none (s.stageOf typ c (s.linkBound node 0))
  | none =>
    match (s.prefixOf node).bind fun p => (Table.get? s.routes p.via).map fun _ => p.via with
    | none => s.dropNoRoute (Config.eaveFor s.mgr node).val
    | some v =>
      s.enqueue (linkKey v) ⟨s.header v 0 10 obj c oepoch ((ctlBytes m) + 8) true, .relayed node s.node typ m⟩ none
        (s.stageOf typ c (s.relayedBound v node))

/-- The managing Ridge works, as far as its package has noticed. -/
def State.mgrWorks (s : State) : Bool := s.alive s.mgr && !s.mgrLost

/-- A control frame sent by the Ridge that holds the management role; a vote or decision that it can not send is left for the other Ridge (R331). -/
def State.sendCtl (s : State) (node typ obj c : Nat) (oepoch : BitVec 16) (m : CtlMsg) : State :=
  if (typ = 4 ∨ typ = 5) ∧ !s.mgrWorks then { s with unsent := s.unsent ++ [⟨node, typ, obj, c, oepoch, m⟩] }
  else s.postCtl node typ obj c oepoch m

/-- The votes and decisions that the other Ridge has not confirmed as sent are sent (R331). -/
def State.sendUnsent (s : State) : State :=
  forAll s.unsent (fun x t => t.postCtl x.node x.typ x.obj x.ctx x.epoch x.msg) { s with unsent := [] }

/-- The transport TYPE whose class the manual fixes (table *Frame types*). -/
def typeClass (t : Nat) : Option Nat :=
  match t with
  | 0 => some 1
  | 1 => some 2
  | 2 => some 3
  | 3 => some 4
  | 4 => some 0
  | 5 => some 0
  | 6 => some 5
  | 7 => some 6
  | 8 => some 7
  | 9 => some 0
  | 10 => some 0
  | _ => none

/-! ## Link-control frames (R302) -/

/-- The class records of a LINKCTL frame of a link: ACK is the number expected, or the number to replay from for the class that
is negatively acknowledged; class 1 is all 0. -/
def State.classRecs (s : State) (k : Nat) (nak : Option Nat) : List ClassRec :=
  (List.range 8).map fun c =>
    if c = 1 then ⟨0, false, false, 0⟩ else ⟨(s.lc k c).exp, true, decide (nak = some c), (s.lc k c).freed⟩

/-- The flow records due to a peer: receive halves it produces for whose state is OFF, or that turned ON in the last 8 µs. -/
def State.flowRecs (s : State) (node : Nat) : List FlowRec :=
  s.ctxs.flatMap fun e => e.2.queues.filterMap fun q =>
    if q.2.peer = some node ∧ (q.2.off ∨ q.2.turnedOnAt.any fun t => s.now ≤ t + s.cyc 8000) then
      some ⟨e.1, q.1, !q.2.off⟩
    else none

/-- A LINKCTL frame put at the end of class 1 of a link: the acknowledgements due are then given, and a negative
acknowledgement for class `nak` is noted as sent. Lanes carry no flow records. -/
def State.sendLinkctl (s : State) (k : Nat) (nak : Option Nat) : State :=
  let node := keyNode k
  let flows := if k % 17 = 0 then s.flowRecs node else []
  let h := s.header node 1 0 0 0 0 (132 + 4 * flows.length) true
  let f : Frame := ⟨{ h with laned := k % 17 ≠ 0, lane := k % 17 - 1 }, .linkctl (s.classRecs k nak) flows⟩
  let s1 := (s.enqueue k f none).modLink k fun l => { l with
    lastCtl := s.now
    classes := l.classes.mapVals fun _ x => { x with ackDue := false } }
  match nak with
  | none => s1
  | some c => s1.modLc k c fun x => { x with nakSent := true }

end Sys2Proof.Machine
end

