-- ==== Sys2Proof/Machine/QueueOps.lean ====
section
/-! DEFINITION. The queue block (R177 to R187): levels, flow state, flush. -/

namespace Sys2Proof.Machine

/-- Words of packets that are whole. -/
def pktWords (l : List Packet) : Nat := (l.map fun p => p.words.length).sum

/-- Words stored in a queue block. -/
def Queue.stored (q : Queue) : Nat := pktWords q.packets + pktWords q.written + q.partialWords.length

/-- The producer-side level (R179). -/
def Queue.level (q : Queue) : Nat := q.stored + (q.reads.map (·.2)).sum

/-- The stored packet count as the producer sees it. -/
def Queue.pkts (q : Queue) : Nat := q.packets.length + q.written.length + q.reads.length

/-- The flow state of a queue after an edge, under the marks of its entry (R179). -/
def Queue.flow (q : Queue) (e : StageLink) : Bool :=
  if e.high ≤ q.level ∨ e.pktHigh ≤ q.pkts then true
  else if q.level ≤ e.low ∧ q.pkts ≤ e.pktLow then false
  else q.off

/-- The flow state of the receive half of link `l` brought up to date; a change for a producer in another package sends a
LINKCTL frame at once (R179, R302). -/
def State.flowUpdate (s : State) (c l : Nat) : State :=
  match Table.get? (s.ctx c).links l with
  | none => s
  | some e =>
    let q := s.queue c l
    let new := q.flow e
    if new = q.off then s
    else
      let s1 := s.modQueue c l fun q =>
        if new then { q with off := true, offAt := s.now } else { q with off := false, turnedOnAt := some s.now }
      match q.peer with
      | none => s1
      | some n => s1.sendLinkctl (linkKey n) none

/-- A queue after a flush: nothing stored; the rest of a packet being written is still to be discarded (R187). -/
def Queue.flushed (q : Queue) : Queue :=
  { q with
    packets := []
    written := []
    partialWords := []
    reads := []
    overrun := false
    tail := q.tail || decide (q.partialWords ≠ []) }

/-- The cycle in which the last word of a packet was written. -/
def Packet.enteredAt (p : Packet) : Nat := (p.words.getLast?.map (·.at_)).getD 0

/-- The earliest cycle of the consumer's (or the producer's) 2nd edge after an event of the other side (table *Clock-crossing timing*): one
period of CLK_F lies between. -/
def State.crossedFrom (s : State) (at_ : Nat) : Nat := at_ + s.cycFloor 1

/-- The latest cycle of the 3rd edge. -/
def State.crossedBy (s : State) (at_ : Nat) : Nat := at_ + s.cyc 3

/-- Words stored as the consumer sees them (R178): those of packets counted, and any other once its 3rd edge has passed (log 98). -/
def State.seenWords (s : State) (q : Queue) : Nat :=
  pktWords q.packets + ((q.written.flatMap (·.words) ++ q.partialWords).filter fun w => s.crossedBy w.at_ ≤ s.now).length

/-- Every word of a QPUSH within the package stands in the queue, and the packet is not counted. -/
def Xfer.uncounted (x : Xfer) : Bool := decide (x.words * 64 = x.size)

/-- The transfers whose packets stand wholly written in the queue of a link, not yet counted. -/
def State.uncounted (s : State) (c l : Nat) : List Nat :=
  (s.queue c l).order.filter fun id => (s.xfer c id).any (·.uncounted)

/-- A flush of link `l` of context `c`, with its status (R186, R187); a transfer whose packet is discarded is over. -/
def State.flushQueue (s : State) (c l : Nat) : State :=
  let q := s.queue c l
  let a := ctxA c Off.CTX_QFLUSH_STS
  let gone := s.uncounted c l
  let s1 := forAll gone (fun id t => t.dropXfer c id)
    (s.modQueue c l fun q => { q.flushed with order := q.order.filter fun id => id ∉ gone })
  let s2 := ((s1.wf a 31 0 (min q.stored (2 ^ 32 - 1))).wf a 41 32 l).wf a 42 42 (b2n !q.flushed.tail)
  s2.flowUpdate c l

/-- Every queue of a context, that is of every link with a receive half, flushed, in rising link order (R186). -/
def State.flushQueues (s : State) (c : Nat) : State :=
  forAll ((s.ctx c).links.filter (·.2.rxEn)) (fun e t => t.flushQueue c e.1) s

end Sys2Proof.Machine
end

