-- ==== Sys2Proof/Machine/Fault.lean ====
section
/-! DEFINITION. Context faults (R401), schedule-fault sites (R62), the votes a fault sends (R250), the root's decision (R246),
token additions (R47), the accounting of tile-cycles (R397). -/

namespace Sys2Proof.Machine

/-! ## Tile-cycles (R397) -/

/-- `n` tile-cycles of logical tile `t` counted, in the accounting counter and for the energy division of R398. -/
def State.addCycles (s : State) (c t n : Nat) : State :=
  let k := c * 64 + s.tileDie c t
  let s1 := s.cWrap c Off.CTX_TILE_CYCLES 63 0 n
  { s1 with tileCycles := Table.put 0 s1.tileCycles k (Table.getD 0 s1.tileCycles k + n) }

/-- The tile-cycles of logical tile `t` counted up to but not including cycle `upTo`, since the launch was last charged. -/
def State.chargeTile (s : State) (c t upTo : Nat) : State :=
  match (s.ctx c).running with
  | none => s
  | some r => if r.started && (s.tile c t).running then s.addCycles c t (upTo - r.chargedFrom) else s

/-- The tile-cycles of every running tile counted up to but not including cycle `upTo`. -/
def State.chargeAll (s : State) (c upTo : Nat) : State :=
  (forAll (s.ctx c).tiles (fun e t => t.chargeTile c e.1 upTo) s).modRun c fun r => { r with chargedFrom := upTo }

/-! ## Verdict flags and the root's decision (R246) -/

/-- The flags of CTX_VERDICT.FLAGS. -/
def flNAN : BitVec 8 := 1
/-- INF. -/
def flINF : BitVec 8 := 2
/-- POISON. -/
def flPOISON : BitVec 8 := 4
/-- ABSURD. -/
def flABSURD : BitVec 8 := 8
/-- SUMNF. -/
def flSUMNF : BitVec 8 := 16
/-- FAULT. -/
def flFAULT : BitVec 8 := 32
/-- STEP_MISMATCH. -/
def flMISMATCH : BitVec 8 := 64

/-- The votes that the root of a group holds for a sequence value and slot. -/
def Group.votesFor (g : Group) (seq : BitVec 32) (v : Nat) : List VoteRec :=
  (g.votes.filter fun x => x.1 = seq ∧ x.2.1 = v).map fun x => x.2.2

/-- The votes in member-list order, once there is one from every member. -/
def Group.ballot (g : Group) (seq : BitVec 32) (v : Nat) : Option (List VoteRec) :=
  let l := g.members.filterMap fun m => (g.votesFor seq v).find? fun x => x.node = m
  if l.length = g.members.length then some l else none

/-- The decision on votes in member-list order, with the norm limit of T₀; `skipped` where an earlier verdict of the launch was
SKIP (R246). -/
def tally (votes : List VoteRec) (limit : F32) (skipped : Bool) : Decision :=
  let n := votes.foldl (fun a v => fadd a v.nsum) f32zero
  let m := votes.foldl (fun a v => fadd a v.ssum) f32zero
  let f := votes.foldl (fun a v => a ||| v.flags) 0
  let f1 := if votes.any fun v => votes.any fun w => v.step ≠ w.step then f ||| flMISMATCH else f
  let f2 := if (f32val n).nonFinite then f1 ||| flSUMNF else f1
  let f3 := if flt (fmul limit limit) n then f2 ||| flABSURD else f2
  ⟨if f3 ≠ 0 ∨ skipped then 2 else 1, f3, n, m⟩

/-- The decision sent to every other member (R246). -/
def State.sendDecides (s : State) (c v : Nat) (sl : Slot) (g : Group) (seq : BitVec 32) (d : Decision) : State :=
  forAll (g.members.filter fun m => m ≠ s.node) (fun m t =>
    t.sendCtl m 5 sl.group c sl.epoch (.decide seq v d.code d.flags d.nsum d.ssum)) s

/-- A vote held at the root; a second vote of a member is discarded (R331). -/
def State.holdVote (s : State) (gi : Nat) (seq : BitVec 32) (v : Nat) (x : VoteRec) : State :=
  match Table.get? s.groups gi with
  | none => s
  | some g =>
    if (g.votesFor seq v).any fun y => y.node = x.node then s
    else { s with groups := Table.set s.groups gi { g with votes := g.votes ++ [(seq, v, x)] } }

/-- The group of a slot as it stands, while its epoch is the slot's. -/
def State.slotGroup (s : State) (c : Nat) (sl : Slot) : Option Group :=
  (Table.get? s.groups sl.group).bind fun g => if g.ctx = c ∧ g.epoch = sl.epoch then some g else none

/-! ## Launches with open verdicts -/

/-- A verdict slot of a launch that has a sequence value and no decision applied. -/
def Slot.isOpen (x : Slot) : Bool := x.seq.isSome && decide (x.state ≠ 3)

/-- Slot `v` of a launch. -/
def Running.slot? (r : Running) (v : Nat) : Option Slot := Table.get? r.slots v

/-- The state with slot `v` of a launch changed. -/
def Running.modSlot (r : Running) (v : Nat) (f : Slot → Slot) : Running :=
  { r with slots := r.slots.mapVals fun k x => if k = v then f x else x }

/-- A launch has a verdict open. -/
def Running.hasOpen (r : Running) : Bool := r.slots.any fun e => e.2.isOpen

/-- The launches of a context: the running one, and those that have ended with verdicts open. -/
def Ctx.launches (x : Ctx) : List Running := x.running.toList ++ x.ended

/-- The launch of a context that `p` holds of. -/
def Ctx.launchWith (x : Ctx) (p : Running → Bool) : Option Running := x.launches.find? p

/-- The state with the launch of SEQ `q` changed. -/
def State.modLaunch (s : State) (c : Nat) (q : BitVec 32) (f : Running → Running) : State :=
  s.modCtx c fun x =>
    { x with
      running := x.running.map fun r => if r.seq = q then f r else r
      ended := if (x.running.map (·.seq)) = some q then x.ended else x.ended.map fun r => if r.seq = q then f r else r }

/-- A group's votes for a slot and sequence value are dropped once it is decided. -/
def State.clearVotes (s : State) (gi : Nat) (seq : BitVec 32) (v : Nat) : State :=
  match Table.get? s.groups gi with
  | none => s
  | some g => { s with groups := Table.set s.groups gi { g with votes := g.votes.filter fun x => !(x.1 = seq ∧ x.2.1 = v) } }

/-- The root of a launch that a fault has ended decides a slot once it holds every vote: the decision is sent, and discarded
at the root itself (R250). -/
def State.deadDecide (s : State) (c v : Nat) (r : Running) (sl : Slot) : State :=
  match s.slotGroup c sl, sl.seq with
  | some g, some q =>
    match g.ballot q v with
    | none => s
    | some l =>
      let d := tally l r.normLimit r.skipped
      ((s.modLaunch c r.seq fun y => { (y.modSlot v fun z => { z with state := 3 }) with
          skipped := y.skipped || decide (d.code = 2) }).clearVotes sl.group q v).sendDecides c v sl g q d
  | _, _ => s

/-- The FAULT vote of one slot that has not been voted (R250). -/
def State.faultVote (s : State) (c v : Nat) (r : Running) (sl : Slot) : State :=
  match s.slotGroup c sl, sl.seq with
  | some g, some q =>
    let step := BitVec.ofNat 48 (s.cf c Off.CTX_STEP 47 0)
    if 2 ≤ sl.state ∨ g.members.length ≤ 1 then s
    else if g.self = 0 then (s.holdVote sl.group q v ⟨s.node, flFAULT, 0, 0, step⟩).deadDecide c v r sl
    else s.sendCtl (g.members.getD 0 0) 4 sl.group c sl.epoch (.vote q v flFAULT 0 0 step)
  | _, _ => s

/-- The FAULT votes of the open slots of a context's launches, in rising slot of each, a running launch first (R250). -/
def State.faultVotes (s : State) (c : Nat) : State :=
  forAll (s.ctx c).launches (fun r t =>
    forAll (r.slots.filter (·.2.isOpen)) (fun e u => u.faultVote c e.1 r e.2) t) s

/-! ## Context faults -/

/-- A tile after fault teardown: it issues nothing, its units' outstanding results are gone, its endpoints are idle (R401). -/
def Tile.stopped (t : Tile) : Tile :=
  { t with
    running := false
    matrix := none
    vector := none
    special := none
    streams := []
    rx := t.rx.mapVals fun _ x => { x with armed := false, got := [], sumAt := none }
    tx := t.tx.mapVals fun _ x => { x with busy := false, nackAt := none } }

/-- A context stopped: tiles, transfers but for those in a list, collective instances; its launches with verdicts open are kept for what this package has to decide
as root, and a decision not yet applied is discarded (R250). -/
def Ctx.stopped (left : Table Xfer) (x : Ctx) : Ctx :=
  { x with
    tiles := Table.mapVals (fun _ t => t.stopped) x.tiles
    queues := Table.mapVals (fun _ q => { q with order := [] }) x.queues
    xfers := left
    insts := []
    mirrorGen := none
    ended := x.launches.filter Running.hasOpen
    due := []
    running := none
    queue := [] }

/-- A SEQ put into a list in rising order. -/
def insertSeq (q : BitVec 32) : List (BitVec 32) → List (BitVec 32)
  | [] => [q]
  | p :: r => if q ≤ p then q :: p :: r else p :: insertSeq q r

/-- Launches completed with FAULTED, in rising SEQ (R389, R401). -/
def State.faultLaunches (s : State) (c code : Nat) (l : List (BitVec 32)) : State :=
  forAll (l.foldr insertSeq []) (fun q t => t.complete (.ctx c) (t.cpl q 2 10 code 0)) s

/-- The launches of a context: the running one and the queued ones. -/
def Ctx.launchSeqs (x : Ctx) : List (BitVec 32) := (x.running.map (·.seq)).toList ++ x.queue.map (·.seq)

/-- A context is stopped as R401 says, short of its completions and its state: tile-cycles counted to this cycle, FAULT votes
sent, queues flushed, everything in flight discarded but the writes that have left their tiles. -/
def State.stopCtx (s : State) (c : Nat) : State :=
  (((((s.chargeAll c (s.now + 1)).faultVotes c).modCtx c (Ctx.stopped (s.orphans c))).dropPackets c).flushQueues c).refreshPromise c

/-- CTX_WD_SITE takes the first schedule fault (R62). -/
def State.wdSite (s : State) (c : Nat) (w : Nat × Nat × Nat) : State :=
  let a := ctxA c Off.CTX_WD_SITE
  if s.rf a 51 48 = 0 then ((s.wf a 16 0 w.2.1).wf a 42 32 w.2.2).wf a 51 48 w.1 else s

/-- A fault takes effect (R401): it is recorded, its interrupts are raised, the context is stopped, its launches complete. -/
def State.takeFault (s0 : State) (f : PendFault) : State :=
  let c := f.ctx
  let code := f.code
  let s := match f.site with
    | none => s0
    | some w => s0.wdSite c w
  let a := ctxA c Off.CTX_FAULT
  let seq := ((s.ctx c).running.map fun r => r.seq.toNat).getD 0
  let s1 :=
    if s.rf a 7 0 = 0 then
      ((s.wf a 7 0 code).wf a 39 8 seq).setReg (ctxA c Off.CTX_FAULT_TIME) s.tb
    else s
  let s2 := (s1.raiseCtx c 1).sendMsix ⟨s1.roleB, none, 7⟩
  let l := (s.ctx c).launchSeqs
  let s3 := s2.stopCtx c
  (s3.faultLaunches c (s3.rf a 7 0) l).modCtx c fun x => { x with phase := .faulted }

/-- A fault is detected: it takes effect at the end of the cycle (R62). -/
def State.detect (s : State) (f : PendFault) : State :=
  if f ∈ s.cycle.faults then s
  else { s with cycle := { s.cycle with faults := s.cycle.faults ++ [f] } }

/-- A context faults (R62, R401). -/
def State.ctxFault (s : State) (c code : Nat) : State := s.detect ⟨c, code, none⟩

/-- A schedule fault of the entry at position `p` of tile `t`: site code, fault code (R62). -/
def State.schedFault (s : State) (c t p site code : Nat) : State := s.detect ⟨c, code, some (site, t, (s.tile c t).index p)⟩

/-- The faults of the cycle take effect (R62). -/
def State.takeFaults (s : State) : State :=
  forAll s.cycle.faults (fun f t => t.takeFault f) { s with cycle := { s.cycle with faults := [] } }

/-- `n` tokens added to counter `k` of tile `t`: past 65,535 the counter stays there and the context faults with TOKEN_OVERFLOW
at the tile's next entry (R47, R62). -/
def State.addTokens (s : State) (c t k n : Nat) : State :=
  let x := s.tile c t
  let v := (Table.getD 0 x.tokens k).toNat + n
  let f := Table.getD (0, 0) x.fresh k
  let s1 := s.modTile c t fun y =>
    { y with
      tokens := Table.put 0 y.tokens k (BitVec.ofNat 16 (min v 65535))
      fresh := Table.put (0, 0) y.fresh k (s.now, (if f.1 = s.now then f.2 else 0) + n) }
  if v > 65535 then s1.schedFault c t x.pos 4 4 else s1

/-- A context takes no more part in its launch: no launch runs that could take the effect. -/
def State.live (s : State) (c : Nat) : Bool := (s.ctx c).running.isSome && decide ((s.ctx c).phase = .normal)

end Sys2Proof.Machine
end

