-- ==== Sys2Proof/Machine/Sequencer.lean ====
section
/-! DEFINITION. The sequencers (R37 to R53, R74 to R95): when an entry is due, issue, positions and passes, the issue pointer
and plan refills, trace records, transfers and unit operations started at issue; the classes NOP, HOLD, SIGNAL, REPEAT, END
and MARK. -/

namespace Sys2Proof.Machine

/-! ## When the next entry is due -/

/-- The tokens of a counter at the end of the previous cycle (R48). -/
def State.tokensBefore (s : State) (x : Tile) (k : Nat) : Nat :=
  let f := Table.getD (0, 0) x.fresh k
  (Table.getD 0 x.tokens k).toNat - (if f.1 = s.now then f.2 else 0)

/-- The token condition of a hold entry (R48, R79). -/
def State.tokensReady (s : State) (x : Tile) (e : EntryBits) : Bool := (ePairs e).all fun p => p.2 ≤ s.tokensBefore x p.1

/-- The verdict of a slot has been applied in the running launch (R83, R248). -/
def State.slotApplied (s : State) (c v : Nat) : Bool :=
  match (s.ctx c).running with
  | none => false
  | some r => ((Table.get? r.slots v).map fun x => decide (x.state = 3)).getD false

/-- The sequencer of tile `t` runs: its launch has started, the context has not faulted, no halt is in force, its die works. -/
def State.seqRuns (s : State) (c t : Nat) : Bool :=
  s.live c && (((s.ctx c).running.map (·.started)).getD false) && (s.tile c t).running && !s.halted && s.alive (s.tileDie c t)

/-- The earliest issue time of an entry of tile `x` (R44, R45). -/
def Tile.dueAt (x : Tile) (e : EntryBits) : Nat :=
  if eIsHold e then max (x.planned + eOffset e) (x.prevA + eGap e) else x.prevA + eOffset e

/-- Cycles of a span that lie after `a` and before `b`. -/
def overlap (a b : Nat) (x : Nat × Nat) : Nat := min b x.2 - max a x.1

/-- Cycles since `a` during which the sequencers were halted (R64). -/
def State.haltedSince (s : State) (a : Nat) : Nat :=
  (s.haltSpans.map (overlap a s.now)).sum + (match s.haltSince with
    | none => 0
    | some h => overlap a s.now (h, s.now))

/-- The last cycle in which a hold entry may release (R63 to R65): CTX_HOLD_LIMIT cycles, halts left out, from its earliest issue time. -/
def State.holdEnd (s : State) (c : Nat) (x : Tile) (e : EntryBits) : Nat :=
  x.dueAt e + max 2000 (s.cf c Off.CTX_HOLD_LIMIT 31 0) + s.haltedSince (x.dueAt e)

/-- A unit of the tile holds an operation whose latency has ended: step 1 of R444 is still to come in this cycle. -/
def Tile.unitEnds (x : Tile) (now : Nat) : Bool :=
  let ended (o : Option UnitOp) : Bool := o.any fun u => u.endAt ≤ now
  ended x.matrix || ended x.vector || ended x.special || x.streams.any fun e => ended (some e.2)

/-- The entry that tile `t` may issue now (R43 to R45, R51, R83): resident, due, not in the cycle of the entry before it, after the unit
operations that end in this cycle (R444), and for a hold entry its condition met within its limit (R63). -/
def State.dueEntry (s : State) (c t : Nat) : Option EntryBits :=
  let x := s.tile c t
  if !s.seqRuns c t ∨ x.unitEnds s.now then none
  else
    match x.entryAt x.pos with
    | none => none
    | some e =>
      if s.now < x.dueAt e ∨ (x.pos ≠ 0 ∧ s.now ≤ x.prevA) then none
      else if eIsHold e && (!(s.tokensReady x e && (eClass e = 0x01 || s.slotApplied c (ef e 209 208))) || s.holdEnd c x e < s.now) then none
      else some e

/-- The due entry of tile `t`, if it is of class `cls`. -/
def State.dueClass (s : State) (c t cls : Nat) : Option EntryBits := (s.dueEntry c t).filter fun e => eClass e = cls

/-! ## Issue -/

/-- The trace record of an entry at position `p` (R76). -/
def State.traceRecord (s : State) (c t : Nat) (e : EntryBits) (slip : Nat) : List Nat :=
  let x := s.tile c t
  [s.now, t + x.index x.pos * 2 ^ 17 + x.pos * 2 ^ 28 + eClass e * 2 ^ 48,
   min slip (2 ^ 32 - 1) + (if eClass e = 0x60 then ef e 215 184 * 2 ^ 32 else 0), 0]

/-- The position after the last body entry of a pass: the next pass, or on past the body (R81). -/
def nextPos (p : Nat) : List Rep → Nat × List Rep × Bool
  | [] => (p, [], false)
  | r :: rest =>
    if p = r.first + r.len then
      if r.index + 1 < r.passes then (r.first, { r with index := r.index + 1 } :: rest, true) else nextPos p rest
    else (p, r :: rest, false)

/-- A REPEAT with passes remaining has part of its body in a segment (R94). -/
def repCovers (reps : List Rep) (seg : Nat) : Bool :=
  reps.any fun r => r.index + 1 < r.passes && r.first / 256 ≤ seg && seg ≤ (r.first + r.len - 1) / 256

/-- The requests of a plan refill: the bytes of a segment of the plan (R91). -/
def Tile.segRuns (x : Tile) (seg : Nat) : List (Nat × Nat) :=
  [(x.planAddr + seg * 8192, min 8192 ((x.length - seg * 256) * 32))]

/-- A transfer issued now: it waits for acceptance. -/
def State.startXfer (s : State) (c t p : Nat) (engine ctr : Option Nat) (kind : XKind) (size rate : Nat) (segs : List Seg)
    (cache : Bool) : State :=
  s.newXfer c
    { tile := t
      position := p
      engine := engine
      ctr := ctr
      kind := kind
      size := size
      rate := rate
      boundNs := 0
      issuedAt := s.now
      acceptedAt := none
      deadline := none
      baseDeadline := 0
      extended := false
      segs := segs
      done := []
      waiting := []
      buf := []
      bufPoison := []
      cache := cache
      crosses := []
      words := 0 }

/-- One move of the issue pointer, from its segment to the next in cyclic order, with its refill request; a request that would
overwrite part of the body of a REPEAT with passes remaining is left to the final pass (R93, R94). -/
def State.pointerMove (s : State) (c t : Nat) : State :=
  let x := s.tile c t
  let n := x.segs
  let seg := (x.ptrSeg + 1) % n
  let s1 := s.modTile c t fun y => { y with ptrSeg := seg }
  match x.frameOf x.ptrSeg with
  | none => s1
  | some f =>
    if n ≤ 8 ∨ repCovers x.reps x.ptrSeg then s1
    else
      let req := (seg + 7) % n
      let s2 := s1.modTile c t fun y => { y with frames := y.frames.set f ⟨some req, []⟩ }
      let rate := ((s.ctx c).plan.map (·.refillRate)).getD 1
      let runs := x.segRuns req
      s2.startXfer c t x.pos none none (.refill req f) ((runs.map (·.2)).sum) rate (segsOf runs) false

/-- The pointer moved through the segments in cyclic order up to that of position `p`. -/
def State.pointerTo (s : State) (c t p : Nat) : State :=
  let x := s.tile c t
  iter (fun _ u => u.pointerMove c t) ((p / 256 + x.segs - x.ptrSeg) % x.segs) s

/-- The tile's position, passes and pointer after its entry at the present position has issued and `p` comes next: a pass or a
sub-plan that ends there is left (R81, R83, R93). -/
def State.goto (s : State) (c t p : Nat) : State :=
  let x := s.tile c t
  let q := match x.subEnd with
    | some (stop, resume) => if p = stop then (resume, none) else (p, some (stop, resume))
    | none => (p, none)
  let n := nextPos q.1 x.reps
  let s1 := s.modTile c t fun y => { y with pos := n.1, reps := n.2.1, subEnd := q.2 }
  if n.2.2 then s1.modTile c t fun y => { y with ptrSeg := n.1 / 256 } else s1.pointerTo c t n.1

/-- The tokens of a hold entry consumed (R49). -/
def Tile.consume (x : Tile) (e : EntryBits) : Tile :=
  { x with tokens := (ePairs e).foldl (fun m p => Table.put 0 m p.1 (BitVec.ofNat 16 ((Table.getD 0 m p.1).toNat - p.2))) x.tokens }

/-- Slip recorded at a hold release (R52). -/
def State.recordSlip (s : State) (c slip : Nat) : State :=
  (s.maxF (ctxA c Off.CTX_SLIP_MAX) 31 0 (min slip (2 ^ 32 - 1))).cWrap c Off.CTX_SLIP_CYCLES 63 0 slip

/-- What every issue does: step 4 of R444 has begun; trace record, tokens and slip of a hold, the times of the sequencer (R44, R45, R76). -/
def State.issueAt (s : State) (c t : Nat) (e : EntryBits) : State :=
  let x := s.tile c t
  let planned := x.planned + eOffset e
  let slip := s.now - planned
  let s1 := if eTrace e ∨ eClass e = 0x60 then s.evlogPut (.ctx c) (s.traceRecord c t e slip) else s
  let s2 := if eIsHold e then s1.recordSlip c slip else s1
  s2.noteIssue.modTile c t fun y => { (if eIsHold e then y.consume e else y) with prevA := s.now, planned := planned }

/-- An entry that only goes on to the next one issues. -/
def State.issue (s : State) (c t : Nat) (e : EntryBits) : State :=
  (s.issueAt c t e).goto c t ((s.tile c t).pos + 1)

/-! ## Checkpoint triggers (R359, R361) -/

/-- A context is privileged. -/
def State.privileged (s : State) (c : Nat) : Bool :=
  (List.range 16).any fun j => s.rf (Off.RDG_PRIV + 8 * j) 10 0 = c + 1024

/-- The checkpoint trigger of TRIG bit `b` occurs: PEND is set unless the trigger is not enabled, a checkpoint ended less than
MIN_GAP seconds ago, or one is pending or being written, with which it is merged. -/
def State.ckptTrigger (s : State) (c b : Nat) : State :=
  let a := ctxA c Off.CTX_CKPT_STS
  let gap := (s.ctx c).ckptEnd.any fun e => s.now < e + s.cyc (s.cf c Off.CTX_CKPT_CTL 31 16 * 1000000000)
  if !bitAt (s.cf c Off.CTX_CKPT_CTL 5 0) b ∨ gap ∨ (3 ≤ b ∧ !s.privileged c) then s
  else
    let s1 := s.wf a 4 2 (b + 1)
    if s.rf a 0 0 = 1 ∨ s.rf a 1 1 = 1 then s1 else s1.wf a 0 0 1

/-- The source of TRIG bit `b` (0 CE_RATE, 1 REPLAY_RATE, 2 MARGIN_LOW) on a die is one of context `c`'s (R359). -/
def State.ckptSource (s : State) (c b die : Nat) : Bool :=
  match b with
  | 0 => decide (dieKind die = .thatch) && decide (thatchIdx die ∈ stacksOf (s.ctx c).set.1 (s.ctx c).set.2)
  | 1 => decide (dieKind die = .eave)
  | 2 => decide (dieKind die = .rafter) && (((s.ctx c).cfg.map (·.courses)).getD []).any (fun k => rafterDie (k / 32) = die)
  | _ => false

/-- The source of TRIG bit `b` occurs on a die: it is a trigger of every context that it belongs to (R359). -/
def State.triggerCkpts (s : State) (b die : Nat) : State :=
  forAll s.ctxs (fun e t => if t.ckptSource e.1 b die then t.ckptTrigger e.1 b else t) s

/-! ## The sequencer classes -/

/-- NOP (R77): only the sequencer is occupied. -/
def execNop (c t : Nat) (s : State) : Out :=
  match s.dueClass c t 0x00 with
  | none => .next s
  | some e => .next (s.issue c t e)

/-- HOLD (R45, R48, R49, R52). -/
def execHold (c t : Nat) (s : State) : Out :=
  match s.dueClass c t 0x01 with
  | none => .next s
  | some e => .next (s.issue c t e)

/-- The tiles that a SIGNAL adds to (R80): the target, or the 70 tiles of its course. -/
def signalTargets (e : EntryBits) : List Nat :=
  let t := ef e 215 199
  if eb e 184 then (List.range 70).map fun i => t / 70 * 70 + i else [t]

/-- SIGNAL (R80): one transfer of size 0 to each target. -/
def execSignal (c t : Nat) (s : State) : Out :=
  match s.dueClass c t 0x02 with
  | none => .next s
  | some e =>
    .next (forAll (signalTargets e) (fun u z =>
      z.startXfer c t (s.tile c t).pos none none (.signal u (ef e 198 193) (ef e 192 185)) 0 1 [] false) (s.issue c t e))

/-- REPEAT (R81): the body runs PASSES times. -/
def execRepeatEntry (c t : Nat) (s : State) : Out :=
  match s.dueClass c t 0x03 with
  | none => .next s
  | some e =>
    let p := (s.tile c t).pos
    let s1 := (s.issueAt c t e).modTile c t fun y => { y with reps := ⟨p + 1, ef e 215 205, ef e 204 185, 0⟩ :: y.reps }
    .next (s1.goto c t (p + 1))

/-- END (R82, R397): the sequencer stops for the launch; its tile-cycles are counted to this cycle. -/
def execEndEntry (c t : Nat) (s : State) : Out :=
  match s.dueClass c t 0x04 with
  | none => .next s
  | some e => .next (((s.issueAt c t e).chargeTile c t (s.now + 1)).modTile c t fun y => { y with running := false })

/-- MARK (R76, R359): a trace record with VALUE; with PRIV a storage checkpoint is requested. -/
def execMark (c t : Nat) (s : State) : Out :=
  match s.dueClass c t 0x60 with
  | none => .next s
  | some e =>
    let s1 := s.issue c t e
    .next (if ePriv e then s1.ckptTrigger c 3 else s1)

/-! ## Unit operations -/

/-- The unit operation that a tile's unit executes. -/
def Tile.unit (x : Tile) (u : UnitKind) : Option UnitOp :=
  match u with
  | .matrix => x.matrix
  | .vector => x.vector
  | .special => x.special
  | .stream k => Table.get? x.streams k

/-- The tile with the operation of a unit set. -/
def Tile.setUnit (x : Tile) (u : UnitKind) (o : Option UnitOp) : Tile :=
  match u with
  | .matrix => { x with matrix := o }
  | .vector => { x with vector := o }
  | .special => { x with special := o }
  | .stream k => { x with streams := match o with
      | none => Table.erase x.streams k
      | some v => Table.set x.streams k v }

/-- A unit operation that raises and counts nothing: latency and writes. -/
def UnitOp.plain (endAt : Nat) (writes : List ScratchWrite) : UnitOp :=
  ⟨0, 0, 0, endAt, writes, 0, 0, 0, 0, 0, 0, 0, none, none, none, none⟩

/-- The matrix array of tile `t` is occupied in this cycle (RFT_SAT_ARRAY, R443). -/
def State.arrayBusy (s : State) (c t : Nat) : State := s.wrap (bar0 (s.tileDie c t) 0 Off.RFT_SAT_ARRAY) 63 0 1

/-- An operation with its entry, plan position and issue time. -/
def UnitOp.begun (o : UnitOp) (e : EntryBits) (pos now : Nat) : UnitOp := { o with entry := e, pos := pos, startAt := now }

/-- An entry issues to a unit that takes the latency of `op` (R54, R61): a busy unit is an ISSUE_CONFLICT; otherwise the operation is what the
unit executes. -/
def State.issueUnit (s : State) (c t : Nat) (e : EntryBits) (u : UnitKind) (op : UnitOp) : State :=
  let x := s.tile c t
  if (x.unit u).isSome then s.schedFault c t x.pos 2 2
  else
    (s.modTile c t fun y => y.setUnit u (some (op.begun e x.pos s.now))).issue c t e

/-! ## Scratchpad banks and slots (R55, R56, R61) -/

/-- The bank of a scratchpad line (R55). -/
def bankOf (line : Nat) : Nat := line % 16

/-- The row of a scratchpad line in its bank (R55). -/
def rowOf (line : Nat) : Nat := line / 16

/-- Who owns a slot of the wheel of a bank (table *Scratchpad slot owners*). -/
inductive SlotOwner where
  | computeRead
  | computeWrite
  | inbound
  | outbound
deriving DecidableEq, Repr

/-- The slot number of an owner. -/
def SlotOwner.slot (o : SlotOwner) : Nat :=
  match o with
  | .computeRead => 0
  | .computeWrite => 1
  | .inbound => 2
  | .outbound => 3

/-- The slot of bank `b` at time-base value `t` (R55). -/
def slotAt (t b : Nat) : Nat := (t + b) % 4

/-- The cycles that an access of an owner to bank `b` waits at time `t` for its slot: at most 3 (R56). -/
def slotWait (o : SlotOwner) (t b : Nat) : Nat := (o.slot + 4 - slotAt t b) % 4

/-- The compute operations that run on a tile at time `now`. -/
def Tile.computing (x : Tile) (now : Nat) : List UnitOp :=
  [x.matrix, x.vector, x.special].filterMap fun o => o.filter fun u => u.startAt ≤ now && now < u.endAt

/-- An operation names bank `b` at time `now` for an owner whose slot it is; which banks it names in which of its cycles is not given
(log 11). -/
def UnitOp.names (u : UnitOp) (o : SlotOwner) (now b : Nat) : Bool :=
  decide (slotAt now b = o.slot ∧ b ∈ Config.unitBanks u.entry (now - u.startAt) (o = .computeWrite))

/-- Two operations name one bank in one slot at time `now` (R61). -/
def UnitOp.clash (u v : UnitOp) (now : Nat) : Bool :=
  (List.range 16).any fun b => [SlotOwner.computeRead, SlotOwner.computeWrite].any fun o => u.names o now b && v.names o now b

/-- The plan position of the later of two operations of a tile that clash at time `now`, if any do. -/
def Tile.clashAt (x : Tile) (now : Nat) : Option Nat :=
  let l := x.computing now
  (l.findSome? fun u => (l.find? fun v => v.pos ≠ u.pos && u.startAt ≤ v.startAt && u.clash v now).map (·.pos))

/-- BANK_CLASH of a tile in the present cycle (R61, R62). -/
def State.clashFault (s : State) (c t : Nat) : State :=
  match (s.tile c t).clashAt s.now with
  | none => s
  | some p => s.schedFault c t p 3 3

/-- The places of a stream engine's queue that are taken (R61). -/
def State.engineLoad (s : State) (c t k : Nat) : Nat :=
  ((s.ctx c).xfers.filter fun e => e.2.tile = t ∧ e.2.engine = some k).length
    + (if (Table.get? (s.tile c t).streams k).isSome then 1 else 0)

end Sys2Proof.Machine
end

