-- ==== Sys2Proof/Machine/Launch.lean ====
section
/-! DEFINITION. Launches (R41 to R50, R384, R448): the ready cycle, T₀ and what it samples (R237, R243, R258), the update
constants (R237), the end of a launch, the hold watchdog (R63 to R65). -/

namespace Sys2Proof.Machine

/-! ## Update constants (R237) -/

/-- The routine pow of R237; `fuel` bounds the bits of `k`. -/
def powLoop : Nat → F32 → F32 → Nat → F32
  | 0, p, _, _ => p
  | f + 1, p, x, k => if k = 0 then p else powLoop f (if k % 2 = 1 then fmul p x else p) (fmul x x) (k / 2)

/-- pow(x, k) of R237. -/
def powF (x : F32) (k : Nat) : F32 := powLoop 64 f32one x k

/-- A 32-bit half of a training register of parameter set `p`, as taken at T₀. -/
def State.psHalf (s : State) (c p off : Nat) (high : Bool) : Nat :=
  fld (s.trainReg c (off + 0x40 * p)) (if high then 63 else 31) (if high then 32 else 0)

/-- The FP32 value of a half of a training register. -/
def State.psF (s : State) (c p off : Nat) (high : Bool) : F32 := BitVec.ofNat 32 (s.psHalf c p off high)

/-- The learning rate of parameter set `p` for launch step `k` (R237). -/
def State.psLr (s : State) (c p k : Nat) : F32 :=
  let peak := s.psF c p Off.CTX_PS_LR false
  let floor := s.psF c p Off.CTX_PS_LR true
  let warmup := s.psHalf c p Off.CTX_PS_SCHED false
  let decay := s.psHalf c p Off.CTX_PS_SCHED true
  let form := fld (s.trainReg c (Off.CTX_PS_CTL + 0x40 * p)) 1 0
  let gamma := s.psF c p Off.CTX_PS_CTL true
  if form = 0 then peak
  else if k < warmup then fdiv (fmul peak (f32ofNat (k + 1))) (f32ofNat warmup)
  else
    let d := k - warmup
    if form = 1 then peak
    else if form = 2 then
      if decay = 0 then floor
      else
        let u := fdiv (f32ofNat (min d decay)) (f32ofNat decay)
        let y := sfuTrigFn 14 1 (fmul 0x40490FDB u)
        fadd floor (fmul (fsub peak floor) (fmul 0x3F000000 (fadd f32one y)))
    else if decay = 0 then peak
    else fmul peak (powF gamma (d / decay))

/-- The update constants of a parameter set. -/
structure PsConst where
  lr : F32
  beta1 : F32
  beta2 : F32
  eps : F32
  a1 : F32
  a2 : F32
  bc1 : F32
  bc2 : F32
  dk : F32
  clip : F32
  gscale : F32
deriving DecidableEq, Repr

/-- The update constants of parameter set `p` for launch step `k`, computed in FP32 from the values taken at T₀ (R237). -/
def State.psConst (s : State) (c p k : Nat) : PsConst :=
  let lr := s.psLr c p k
  let b1 := s.psF c p Off.CTX_PS_BETA false
  let b2 := s.psF c p Off.CTX_PS_BETA true
  { lr := lr
    beta1 := b1
    beta2 := b2
    eps := s.psF c p Off.CTX_PS_EPS_WD false
    a1 := fsub f32one b1
    a2 := fsub f32one b2
    bc1 := fsub f32one (powF b1 (k + 1))
    bc2 := fsub f32one (powF b2 (k + 1))
    dk := fsub f32one (fmul lr (s.psF c p Off.CTX_PS_EPS_WD true))
    clip := s.psF c p Off.CTX_PS_SCALE false
    gscale := s.psF c p Off.CTX_PS_SCALE true }

/-! ## The ready cycle (R384, R448) -/

/-- The tables and the record that a launch's decisions will write translate for writing (R448). -/
def State.tablesOk (s : State) (c : Nat) : Bool :=
  ((s.regions c).all fun r => s.vaOk c r.state ((r.pages + 1) / 2) true)
    && (let a := (s.reg (ctxA c Off.CTX_SNAP_ADDR)).toNat
        a = 0 || s.vaOk c a 256 true)

/-- A tile armed for a launch: counters 0, positions back at the start, the sequencer ready to run from T₀ (R50, R190). -/
def Tile.arm (x : Tile) (t0 : Nat) : Tile :=
  { x with
    running := decide (0 < x.length)
    pos := 0
    prevA := t0
    planned := t0
    reps := []
    subEnd := none
    tokens := []
    fresh := []
    vr0 := 0
    vr1 := 0 }

/-- The launch record of a launch that has become ready. -/
def Launch.run (l : Launch) : Running :=
  { seq := l.seq
    t0 := l.t0
    started := false
    step0 := 0
    seed := 0
    normLimit := 0
    stride := 0
    newest0 := []
    slots := []
    skipped := false
    aborted := false
    finalDecision := 0
    chargedFrom := l.t0 }

/-- The head launch leaves the queue and completes with a status (R384, R408). -/
def State.refuseLaunch (s : State) (c : Nat) (l : Launch) (status : Nat) : State :=
  (s.modCtx c fun x => { x with queue := x.queue.tail }).complete (.ctx c) (s.cpl l.seq 2 status l.t0 0)

/-- The head launch becomes ready: the tiles are armed, the pointers go on to segment 0, the tables are translated (R384, R93,
R448). -/
def State.armLaunch (s : State) (c : Nat) (l : Launch) : State :=
  let s1 := s.modCtx c fun x => { x with
    queue := x.queue.tail
    running := some l.run
    tiles := x.tiles.mapVals fun _ t => t.arm l.t0 }
  let s2 := forAll (s1.ctx c).tiles (fun e u => if e.2.segs = 0 then u else u.pointerTo c e.1 0) s1
  if s2.tablesOk c then s2 else s2.ctxFault c 20

/-- LAUNCH_READY (R384, R408, R410, R448). In a power state other than ACTIVE the head launch only notes that its ready cycle
has passed. -/
def execLaunchReady (c : Nat) (s : State) : Out :=
  match (s.ctx c).queue with
  | [] => .next s
  | l :: rest =>
    if s.now + 4000 < l.t0 ∨ (s.ctx c).phase ≠ .normal then .next s
    else if s.pstate ≠ 0 ∨ s.psTarget.isSome then .next (s.modCtx c fun x => { x with queue := { l with missed := true } :: rest })
    else if (s.ctx c).running.isSome then .next (s.refuseLaunch c l 3)
    else if ((s.ctx c).plan.map (·.divider)) ≠ some s.eff then .next (s.refuseLaunch c l 4)
    else .next (s.armLaunch c l)

/-! ## T₀ (R189, R190, R237, R243, R244, R255, R258, R397) -/

/-- A slot of a launch at T₀: it takes the next value of its group's sequence, unless the group is not valid for the context
(R243). -/
def State.openSlot (s : State) (c : Nat) (d : SlotDef) : State × Slot :=
  let sl : Slot :=
    { group := d.group, final := d.final, gslot := d.gslot, ncontrib := d.ncontrib, seq := none, epoch := 0, given := []
      lastGiven := 0, pkg := none, stageEnd := 0, state := 0, decision := 0, flags := 0, nsum := 0, ssum := 0 }
  match Table.get? s.groups d.group with
  | none => (s, sl)
  | some g =>
    if g.ctx = c then
      ({ s with groups := Table.set s.groups d.group { g with seq := g.seq + 1 } }, { sl with seq := some g.seq, epoch := g.epoch })
    else (s, sl)

/-- The slots of a launch opened in rising order. -/
def State.openSlots (s : State) (c : Nat) (l : Table SlotDef) : State × Table Slot :=
  l.foldl (fun a e => let r := a.1.openSlot c e.2; (r.1, Table.set a.2 e.1 r.2)) (s, [])

/-- CTX_PS_RATE of parameter set `p`: lr of the launch; sets whose registers are at reset have lr 0. -/
def State.showRate (s : State) (c p k : Nat) : State :=
  let used := (s.regs.any fun e => ctxA c (0x1000 + 0x40 * p) ≤ e.1 ∧ e.1 < ctxA c (0x1040 + 0x40 * p))
  s.setReg (ctxA c (Off.CTX_PS_RATE + 8 * p)) (if used then (s.psLr c p k).setWidth 64 else 0)

/-- The state at T₀ of a launch. -/
def State.startLaunch (s : State) (c : Nat) (r : Running) : State :=
  let o := s.openSlots c (((s.ctx c).plan.map (·.slots)).getD [])
  let s1 := o.1
  let seed := s1.reg (ctxA c Off.CTX_SEED)
  let step := s1.cf c Off.CTX_STEP 47 0
  let run : Running :=
    { r with
      started := true
      step0 := BitVec.ofNat 48 step
      seed := seed
      normLimit := BitVec.ofNat 32 (s1.cf c Off.CTX_NORM_LIMIT 31 0)
      stride := s1.reg (ctxA c Off.CTX_DATA_STRIDE)
      newest0 := (s1.ctx c).rings.map fun e => (e.1, e.2.newest)
      slots := o.2
      chargedFrom := r.t0 }
  let s2 := s1.modCtx c fun x => { x with
    running := some run
    taken := []
    tiles := x.tiles.mapVals fun _ t => { t with flags := 0, nsum := 0, ssum := 0, uv1600 := Config.uv1600Seed seed 0 0 } }
  let s3 := forAll (List.range 4) (fun v u => u.setReg (ctxA c (Off.CTX_VSLOT_STS + 0x10 * v)) 0) s2
  forAll (List.range 64) (fun p u => u.showRate c p step) s3

/-- LAUNCH_T0 (R237, R258). -/
def execLaunchT0 (c : Nat) (s : State) : Out :=
  match (s.ctx c).running with
  | none => .next s
  | some r => if r.started ∨ s.now < r.t0 then .next s else .next (s.startLaunch c r)

/-! ## The end of a launch -/

/-- LAUNCH_END (R384, R389): every tile has issued END; the launch completes with the final decision and CTX_STEP. -/
def execLaunchEnd (c : Nat) (s : State) : Out :=
  match (s.ctx c).running with
  | none => .next s
  | some r =>
    if !r.started ∨ (s.ctx c).tiles.any (fun e => e.2.running) then .next s
    else
      let s1 := s.modCtx c fun x => { x with
        running := none
        ended := if r.hasOpen then r :: x.ended else x.ended }
      .next (s1.complete (.ctx c) (s.cpl r.seq 2 0 r.t0 (r.finalDecision + s.cf c Off.CTX_STEP 47 0 * 4)))

/-! ## The hold watchdog (R63 to R65) -/

/-- The next entry of a tile, resident or still in memory. -/
def State.planEntry (s : State) (c t : Nat) : Option EntryBits :=
  let x := s.tile c t
  match x.entryAt x.pos with
  | some e => some e
  | none => (s.vaRead c (x.planAddr + 32 * x.pos) 32).map entryOf

/-- DEADLOCK_SUSPECT (R63): a hold has waited longer than CTX_HOLD_LIMIT from its earliest issue time. -/
def execDeadlockSuspect (c t : Nat) (s : State) : Out :=
  let x := s.tile c t
  match s.planEntry c t with
  | none => .next s
  | some e =>
    if s.seqRuns c t && eIsHold e && decide (s.holdEnd c x e < s.now) then
      .next (s.schedFault c t x.pos 1 1)
    else .next s

end Sys2Proof.Machine
end

