-- ==== Sys2Proof/Machine/Units.lean ====
section
/-! DEFINITION. What the units of a tile share: elements in scratchpad with poison (R106, R107, R115, R129, R451), the
Philox generator (R253), random words for rounding (R119, R120), outputs by line, and the end of a unit operation (R54). -/

namespace Sys2Proof.Machine

/-! ## Elements -/

/-- A line that holds one of the bits [bit, bit + w) of a scratchpad is poisoned. -/
def State.bitsPoison (s : State) (base bit w : Nat) : Bool := s.padAny base (bit / 8) ((bit + w - 1) / 8 - bit / 8 + 1)

/-- The element of format `code` at bit offset `bit` of a scratchpad; NaN in a poisoned line. -/
def State.elemAt (s : State) (base code bit : Nat) : FV :=
  let w := fmtBits code
  if s.bitsPoison base bit w then .nan else decodeElem code (readBits (s.padByte base) bit w)

/-- Element `k` of row `m` of an operand of rows of `kk` elements in diagonal blocks from line `line`, times its MX scale (R106 to
R108, R113). -/
def State.diagElem (s : State) (base code line kk m k : Nat) : FV :=
  let start := line * 64 + m / 16 * blockStride code kk (kk / 32)
  let v := s.elemAt base code (start * 8 + diagBit code (m % 16) k)
  if isMx code then
    let a := start + elemArea code kk + diagScale (m % 16) (k / 32)
    if s.padAny base a 1 then .nan else scaleMx v (s.padByte base a).toNat
  else v

/-- Bytes of an element of a linear operand of format code 0, 1, 2 or 8. -/
def elemBytes (code : Nat) : Nat := fmtBits code / 8

/-- Element `j` of a linear operand from line `line`, and whether its line is poisoned. -/
def State.linElem (s : State) (base code line j : Nat) : FV × Bool :=
  let a := line * 64 + j * elemBytes code
  (s.elemAt base code (a * 8), s.padAny base a (elemBytes code))

/-- The lines of an area of `n` bytes from line `line` hold poison. -/
def State.areaPoison (s : State) (base line n : Nat) : Bool := s.padAny base (line * 64) n

/-- Bit `i` of a mask from line `line` (R126). -/
def State.maskBit (s : State) (base line i : Nat) : Bool := bitAt (s.padByte base (line * 64 + i / 8)).toNat (i % 8)

/-! ## Writes -/

/-- Elements in order written from byte `at`, split at lines: each write covers the bytes of one line and is poisoned when one of
its elements is (R129, R451). -/
def lineWrites : Nat → Nat → List (List Byte × Bool) → List ScratchWrite
  | 0, _, _ => []
  | f + 1, at_, els =>
    match els with
    | [] => []
    | e :: _ =>
      let n := max 1 ((64 - at_ % 64) / max 1 e.1.length)
      let now := els.take n
      let data := now.flatMap (·.1)
      ⟨at_, data, now.any (·.2), none⟩ :: lineWrites f (at_ + data.length) (els.drop n)

/-- Elements of `w` bytes from byte `at_`, some of which are not written: the runs of written ones, each split at lines. -/
def runWrites (w : Nat) : Nat → Nat → List (Option (List Byte) × Bool) → List ScratchWrite
  | 0, _, _ => []
  | f + 1, at_, els =>
    let now := els.takeWhile (·.1.isSome)
    lineWrites (now.length + 1) at_ (now.map fun e => (e.1.getD [], e.2)) ++
      runWrites w f (at_ + w * (now.length + 1)) (els.drop (now.length + 1))

/-- The writes of a linear output from a line. -/
def linWrites (line : Nat) (els : List (List Byte × Bool)) : List ScratchWrite := lineWrites (els.length + 1) (line * 64) els

/-! ## The generator (R253) and random words (R119, R120) -/

/-- One round of Philox-4×32 on counter and key words. -/
def philoxRound (x : Nat × Nat × Nat × Nat × Nat × Nat) : Nat × Nat × Nat × Nat × Nat × Nat :=
  let (c0, c1, c2, c3, k0, k1) := x
  let p0 := 0xd2511f53 * c0
  let p1 := 0xcd9e8d57 * c2
  (Nat.xor (Nat.xor (p1 / 2 ^ 32) c1) k0, p1 % 2 ^ 32, Nat.xor (Nat.xor (p0 / 2 ^ 32) c3) k1, p0 % 2 ^ 32,
   (k0 + 0x9e3779b9) % 2 ^ 32, (k1 + 0xbb67ae85) % 2 ^ 32)

/-- Output word `n` of the generator for a 128-bit counter and a 64-bit key (R253). -/
def philox (counter key n : Nat) : Nat :=
  let (c0, c1, c2, c3, _, _) := iter (fun _ x => philoxRound x) 10
    (bits counter 31 0, bits counter 63 32, bits counter 95 64, bits counter 127 96, bits key 31 0, bits key 63 32)
  if n = 0 then c0 else if n = 1 then c1 else if n = 2 then c2 else c3

/-- The word of index `i` of a stream at a step (R119, R254): counter [127:80] step, [79:64] stream, [61:0] ⌊i/4⌋. -/
def randWord (key step stream i : Nat) : Nat :=
  philox (step % 2 ^ 48 * 2 ^ 80 + stream % 2 ^ 16 * 2 ^ 64 + i / 4 % 2 ^ 62) key (i % 4)

/-- The index of element `j` (R120). -/
def elemIndex (idxBase pass : Nat) (idxPass : Bool) (j : Nat) : Nat :=
  (if idxPass then (idxBase + pass) % 2 ^ 46 else idxBase) * 2 ^ 18 + j

/-- The seed of the running launch, as taken at T₀ (R253). -/
def State.seed (s : State) (c : Nat) : Nat :=
  match (s.ctx c).running with
  | none => 0
  | some r => r.seed.toNat

/-- The random word for the rounding of element `j`, when SR is set (R118 to R120). -/
def State.roundWord (s : State) (c t : Nat) (e : EntryBits) (stream idxBase : Nat) (idxPass : Bool) (j : Nat) : Option Nat :=
  if eSr e then
    some (randWord (s.seed c) (s.cf c Off.CTX_STEP 47 0) stream (elemIndex idxBase (s.tile c t).pass idxPass j))
  else none

/-! ## The end of a unit operation (R54, R103) -/

/-- A scratchpad written by an operation. -/
def State.applyWrites (s : State) (base : Nat) (l : List ScratchWrite) : State :=
  forAll l (fun w t => t.padWrite base w.at_ w.data w.poison) s

/-- The output tiles of a running matrix operation that are converted and written by now are in place (R104). -/
def State.writesDue (s : State) (c t : Nat) : State :=
  match (s.tile c t).matrix with
  | none => s
  | some o =>
    let here (w : ScratchWrite) : Bool := w.due.any (· ≤ s.now)
    (s.modTile c t fun x => { x with matrix := some { o with writes := o.writes.filter fun w => !here w } }).applyWrites (s.padBase c t)
      (o.writes.filter here)

/-- The token of an ASSIGN that stands in the last of its cycles (R159). -/
def State.lastCycleToken (s : State) (c t k : Nat) : State :=
  match Table.get? (s.tile c t).streams k with
  | none => s
  | some o =>
    match o.ctr with
    | none => s
    | some r =>
      if s.now + 1 < o.endAt then s
      else (s.modTile c t fun x => x.setUnit (.stream k) (some { o with ctr := none })).addTokens c t r 1

/-- What a unit operation counts and raises when it ends (R115, R116, R126, R132, R152, R240, R244). -/
def State.opCounts (s : State) (c t : Nat) (o : UnitOp) : State :=
  let s1 := (((((s.cSat c Off.CTX_MX_SAT 31 0 o.sat).cWrap c Off.CTX_ROWGATE 63 0 o.gate).cSat c Off.CTX_POISON_OPS 31 0
    o.poisonOps).cSat c Off.CTX_SFU_NAN 31 0 o.sfuNan).cSat c Off.CTX_MASKED_ROWS 31 0 o.masked).cSat c Off.CTX_SLOT_OVERFLOW 31 0
    o.overflow
  s1.modTile c t fun x =>
    { x with
      flags := x.flags ||| o.flags
      nsum := match o.nsum with
        | none => x.nsum
        | some v => fadd x.nsum v
      ssum := match o.ssum with
        | none => x.ssum
        | some v => fadd x.ssum v }

end Sys2Proof.Machine
end

