-- ==== Sys2Proof/Machine/Matrix.lean ====
section
/-! DEFINITION. The matrix array (R100 to R126): MMA, MMA_SPARSE and CONV; the product that MMA_COLL computes. -/

namespace Sys2Proof.Machine

/-- Depth steps of an output tile for a depth `k`: ⌈k · c⌉ with the factor c of the table *Input pairs*. -/
def depthSteps (fa fb k : Nat) : Nat :=
  if fa = 2 then 2 * k else if 5 ≤ fa ∧ 5 ≤ fb then ceilDiv k 2 else k

/-- The cycles of a matrix entry (R103). -/
def mmaCycles (m n steps : Nat) : Nat := ceilDiv m 16 * ceilDiv n 16 * steps + 20

/-- A product to compute: its shape, how row `m` of A meets depth position `j`, and the depth position of B that goes with it; lines
of A that hold poison for block `b` of 16 rows. -/
structure Product where
  m : Nat
  n : Nat
  depth : Nat
  a : Nat → Nat → FV
  bAt : Nat → Nat → Nat
  aPoison : Bool

/-- One output element: the sequence of R113 over the depth. -/
def dotLoop (a b : Nat → FV) : Nat → F32 → F32
  | 0, acc => acc
  | j + 1, acc =>
    let r := dotLoop a b j acc
    toF32 ((f32val r).add ((a j).mul (b j)))

/-- Row `m` is gated (R126); a row whose bit lies in a poisoned mask line counts as occupied (R166). -/
def State.gated (s : State) (base : Nat) (o : MmaOp) (m : Nat) : Bool :=
  o.occ && !s.maskBit base o.occLine m && !s.padAny base (o.occLine * 64 + m / 8) 1

/-- The FP32 value at the C place of output `i` in row-major order. -/
def State.accAt (s : State) (base : Nat) (o : MmaOp) (i : Nat) : F32 := toF32 (s.linElem base 8 o.cLine i).1

/-- The FP32 outputs of a product in row-major order (R111, R113, R126). -/
def State.productOut (s : State) (base : Nat) (o : MmaOp) (p : Product) (kb : Nat) : List F32 :=
  (List.range p.m).flatMap fun m => (List.range p.n).map fun n =>
    let acc := if o.acc then s.accAt base o (m * p.n + n) else f32zero
    if s.gated base o m then acc
    else dotLoop (p.a m) (fun j => s.diagElem base o.fb o.bLine kb n (p.bAt m j)) p.depth acc

/-- The converted output of a matrix entry: bytes in order, and saturations (R111, R116, R117). -/
def convRows (code : Nat) (word : Nat → Option Nat) (n : Nat) (xs : List F32) : List Byte × Nat :=
  if code = 3 then
    let rows := (List.range (xs.length / n)).map fun m =>
      let bs := (List.range (n / 32)).map fun g =>
        mxBlock ((xs.drop (m * n + g * 32)).take 32) ((List.range 32).map fun i => word (m * n + g * 32 + i))
      (bs.flatMap (·.1) ++ bs.map (·.2.1), (bs.map (·.2.2)).sum)
    (rows.flatMap (·.1), (rows.map (·.2)).sum)
  else
    let es := (xs.zipIdx).map fun x => outBytes code x.1 (word x.2)
    (es.flatMap (·.1), (es.filter (·.2)).length)

/-- Some row of block `b` of 16 rows among `m` is not gated. Rows at or beyond `m` of the last block, which have no mask bit, count as gated:
a line of a block whose rows below `m` are all gated does not propagate poison (DESIGN CHOICE, log 87). -/
def State.blockUsed (s : State) (base : Nat) (o : MmaOp) (m b : Nat) : Bool :=
  (List.range 16).any fun i => 16 * b + i < m && !s.gated base o (16 * b + i)

/-- Poison in the lines of a diagonal operand of `rows` rows of `kk` elements; blocks whose rows are all gated do not count
(R115, R126). -/
def State.operandPoison (s : State) (base code line kk rows : Nat) (used : Nat → Bool) : Bool :=
  let st := blockStride code kk (kk / 32)
  (List.range (ceilDiv rows 16)).any fun b => used b && s.padAny base (line * 64 + b * st) st

/-- Poison in the accumulator lines that hold elements of rows that are not gated (R126). -/
def State.accPoison (s : State) (base : Nat) (o : MmaOp) (m n : Nat) : Bool :=
  o.acc && (List.range m).any fun i => !s.gated base o i && s.padAny base (o.cLine * 64 + i * n * 4) (n * 4)

/-- Bytes of an output row of `n` elements (R111): code 3 has its scale bytes after the elements. -/
def outRowBytes (code n : Nat) : Nat := if code = 3 then n + n / 32 else n * elemBytes code

/-- The place, in the order of R104, of the last output tile that contributes to bytes [lo, hi) of the output area. -/
def lastTile (code n lo hi : Nat) : Nat :=
  let rb := outRowBytes code n
  let col (b : Nat) : Nat := if code = 3 then min b (n - 1) else b / elemBytes code
  ((List.range ((hi - 1) / rb - lo / rb + 1)).map fun i =>
    let row := lo / rb + i
    row / 16 * ceilDiv n 16 + col (min hi ((row + 1) * rb) - 1 - row * rb) / 16).foldl max 0

/-- The writes of a matrix output, line by line, each in place once the last tile that contributes to it is converted and written (R104,
R105, R111): a row that is left in place is not written (R126). -/
def matrixWrites (o : MmaOp) (m n steps start : Nat) (keep : Nat → Bool) (bytes : List Byte) (poison : Bool) : List ScratchWrite :=
  let rb := outRowBytes o.fo n
  let total := m * rb
  (List.range (ceilDiv total 64)).flatMap fun l =>
    let lo := 64 * l
    let hi := min (lo + 64) total
    let write (a b : Nat) : ScratchWrite :=
      ⟨o.cLine * 64 + a, (bytes.drop a).take (b - a), poison, some (start + (lastTile o.fo n a b + 1) * steps + 20)⟩
    let rows := (List.range ((hi - 1) / rb - lo / rb + 1)).map (lo / rb + ·)
    if rows.all fun r => !keep r then [write lo hi]
    else (rows.filter fun r => !keep r).map fun r => write (max lo (r * rb)) (min hi ((r + 1) * rb))

/-- The unit operation of a matrix entry on product `p` with B rows of `kb` elements. -/
def State.matrixOp (s : State) (c t : Nat) (e : EntryBits) (o : MmaOp) (p : Product) (kb steps : Nat) (meta_ : Bool) : UnitOp :=
  let base := s.padBase c t
  let occ := o.occ && s.areaPoison base o.occLine (ceilDiv p.m 8)
  let poison := p.aPoison || s.operandPoison base o.fb o.bLine kb p.n (fun _ => true) || s.accPoison base o p.m p.n || occ || meta_
  let out := convRows o.fo (s.roundWord c t e o.stream o.idxBase o.idxPass) p.n (s.productOut base o p kb)
  let gate := ((List.range p.m).filter (s.gated base o)).length * ceilDiv p.n 16 * steps
  let kept (m : Nat) : Bool := o.acc && s.gated base o m
  { UnitOp.plain (s.now + mmaCycles p.m p.n steps) (matrixWrites o p.m p.n steps s.now kept out.1 poison) with
    sat := out.2
    gate := gate
    poisonOps := b2n poison }

/-- The product of an MMA. -/
def State.mmaProduct (s : State) (base : Nat) (o : MmaOp) : Product :=
  { m := o.m, n := o.n, depth := o.k
    a := fun m k => s.diagElem base o.fa o.aLine o.k m k
    bAt := fun _ k => k
    aPoison := s.operandPoison base o.fa o.aLine o.k o.m (s.blockUsed base o o.m) }

/-- The unit operation of an MMA or of the product of an MMA_COLL (R103, R113). -/
def State.mmaUnit (s : State) (c t : Nat) (e : EntryBits) : UnitOp :=
  let o := mmaOp e
  s.matrixOp c t e o (s.mmaProduct (s.padBase c t) o) o.k (depthSteps o.fa o.fb o.k) false

/-- MMA (R103). -/
def execMma (c t : Nat) (s : State) : Out :=
  match s.dueClass c t 0x10 with
  | none => .next s
  | some e => .next (s.issueUnit c t e .matrix (s.mmaUnit c t e))

/-- The metadata position of stored element `j` of row `m` (R121). -/
def State.metaPos (s : State) (base : Nat) (o : MmaOp) (m j : Nat) : Nat :=
  let g := j / 2
  let nib := 16 * g + (m % 16 + g) % 16
  let a := o.meta_ * 64 + m / 16 * lineUp (2 * o.k) + nib / 2
  (s.padByte base a).toNat / 2 ^ (4 * (nib % 2) + 2 * (j % 2)) % 4

/-- The product of an MMA_SPARSE (R121, R122). -/
def State.sparseProduct (s : State) (base : Nat) (o : MmaOp) : Product :=
  { m := o.m, n := o.n, depth := o.k / 2
    a := fun m j => s.diagElem base o.fa o.aLine (o.k / 2) m j
    bAt := fun m j => 4 * (j / 2) + s.metaPos base o m j
    aPoison := s.operandPoison base o.fa o.aLine (o.k / 2) o.m (s.blockUsed base o o.m) }

/-- Poison in the metadata of blocks with a row that is not gated. -/
def State.metaPoison (s : State) (base : Nat) (o : MmaOp) : Bool :=
  (List.range (ceilDiv o.m 16)).any fun b =>
    s.blockUsed base o o.m b && s.padAny base (o.meta_ * 64 + b * lineUp (2 * o.k)) (2 * o.k)

/-- The unit operation of an MMA_SPARSE (R103, R122). -/
def State.sparseUnit (s : State) (c t : Nat) (e : EntryBits) : UnitOp :=
  let o := mmaOp e
  let base := s.padBase c t
  s.matrixOp c t e o (s.sparseProduct base o) o.k (depthSteps o.fa o.fb (o.k / 2)) (s.metaPoison base o)

/-- MMA_SPARSE (R122). -/
def execMmaSparse (c t : Nat) (s : State) : Out :=
  match s.dueClass c t 0x11 with
  | none => .next s
  | some e => .next (s.issueUnit c t e .matrix (s.sparseUnit c t e))

/-- The descriptor that an entry names. -/
def State.descOf (s : State) (c t i : Nat) : Bits512 := (s.tile c t).descs.getD i 0

/-- The byte of the input element of (m, k) of a CONV, or none in the padding (R125). -/
def convByte (d : Bits512) (width m k : Nat) : Option Nat :=
  let d1 := convDim d 1
  let d2 := convDim d 2
  let d3 := convDim d 3
  let cin := convCin d
  let pos (x : ConvDim) (o j : Nat) : Option Nat :=
    let p : Int := ((x.ostart + o) * x.st : Nat) - (x.pb : Int) + (j * x.dl : Nat)
    if p < 0 ∨ (x.inp : Int) ≤ p then none else some p.toNat
  let j := k / cin
  match pos d1 (m % d1.out) (j % d1.ks), pos d2 (m / d1.out % d2.out) (j / d1.ks % d2.ks),
      pos d3 (m / (d1.out * d2.out)) (j / (d1.ks * d2.ks)) with
  | some p1, some p2, some p3 => some ((((p3 * d2.inp + p2) * d1.inp + p1) * cin + k % cin) * width)
  | _, _, _ => none

/-- The product of a CONV (R124, R125). -/
def State.convProduct (s : State) (base : Nat) (o : MmaOp) (d : Bits512) : Product :=
  let (m, n, k) := convMNK d
  let w := elemBytes o.fa
  { m := m, n := n, depth := k
    a := fun i j => match convByte d w i j with
      | none => .fin false 0 0
      | some b => s.elemAt base o.fa ((o.aLine * 64 + b) * 8)
    bAt := fun _ j => j
    aPoison := (List.range m).any fun i => (List.range k).any fun j =>
      ((convByte d w i j).map fun b => s.padAny base (o.aLine * 64 + b) w).getD false }

/-- The unit operation of a CONV. -/
def State.convUnit (s : State) (c t : Nat) (e : EntryBits) : UnitOp :=
  let o := mmaOp e
  let d := s.descOf c t (ef e 215 208)
  let p := s.convProduct (s.padBase c t) o d
  s.matrixOp c t e o p p.depth (depthSteps o.fa o.fb p.depth) false

/-- CONV (R125). -/
def execConv (c t : Nat) (s : State) : Out :=
  match s.dueClass c t 0x12 with
  | none => .next s
  | some e => .next (s.issueUnit c t e .matrix (s.convUnit c t e))

end Sys2Proof.Machine
end

