-- ==== Sys2Proof/Machine/Vector.lean ====
section
/-! DEFINITION. The vector unit (R127 to R129, R238 to R241, R253 to R255): VEC, UPD, RNG_FILL, GNS_STAT. -/

namespace Sys2Proof.Machine

/-- Values merged in pairs (0,1), (2,3), … until one remains (R146); `fuel` bounds the rounds. -/
def pairRound {α : Type} (f : α → α → α) : List α → List α
  | a :: b :: r => f a b :: pairRound f r
  | l => l

/-- The pair order of R146. -/
def pairTree {α : Type} (f : α → α → α) : Nat → List α → List α
  | 0, l => l
  | k + 1, l => pairTree f k (pairRound f l)

/-- The sum over `lanes` lanes: lane L adds the values with j mod lanes = L in rising j from +0, and the lane sums add in pair
order (R142, R146, R241). -/
def laneSum (lanes : Nat) (xs : List F32) : F32 :=
  let lane (i : Nat) : F32 := ((xs.zipIdx).filter fun x => x.2 % lanes = i).foldl (fun a x => fadd a x.1) f32zero
  (pairTree fadd 6 ((List.range lanes).map lane)).headD f32zero

/-! ## VEC -/

/-- The result of a VEC operation on one element (table *VEC operations*). -/
def vecFn (op : Nat) (x y z imm : F32) : F32 :=
  match op with
  | 0 => fadd x y
  | 1 => fmul x y
  | 2 => ffma x y z
  | 3 => fmax x y
  | 4 => fmin x y
  | 5 => fadd x imm
  | 6 => fmul x imm
  | 9 => toF32 (match f32val x with
      | .fin _ m e => .fin false m e
      | .inf _ => .inf false
      | .nan => .nan)
  | _ => toF32 (f32val x)

/-- The order in which RELAYOUT writes the elements of block `b` of rows of `row` elements: the element at each place of the diagonal
layout (R106, R128). -/
def diagOrder (row b : Nat) : List Nat :=
  (List.range row).flatMap fun k => (List.range 16).map fun r => (16 * b + (r + 16 - k % 16) % 16) * row + k

/-- The unit operation of a VEC (R127 to R129). -/
def State.vecUnit (s : State) (c t : Nat) (e : EntryBits) : UnitOp :=
  let base := s.padBase c t
  let op := ef e 215 212
  let fo := ef e 203 200
  let n := (ef e 151 140 + 1) * 32
  let imm : F32 := BitVec.ofNat 32 (ef e 139 108)
  let rd (code line j : Nat) (used : Bool) : F32 × Bool :=
    if used then let x := s.linElem base code line j; (toF32 x.1, x.2) else (f32zero, false)
  let el (j : Nat) : (List Byte × Bool) × Bool :=
    let x := rd (ef e 211 208) (ef e 199 188) j true
    let y := rd (ef e 207 204) (ef e 187 176) j (op = 0 ∨ op = 1 ∨ op = 2 ∨ op = 3 ∨ op = 4)
    let z := rd fo (ef e 175 164) j (op = 2)
    let o := outBytes fo (vecFn op x.1 y.1 z.1 imm) (s.roundWord c t e (ef e 107 92) (ef e 91 46) (eb e 45) j)
    ((o.1, x.2 || y.2 || z.2), o.2)
  let els := (List.range n).map el
  let writes :=
    if op = 8 then
      let row := ef e 119 108 + 1
      (List.range (n / (16 * row))).flatMap fun b =>
        lineWrites (16 * row + 1) (ef e 163 152 * 64 + b * blockStride fo row 0)
          ((diagOrder row b).map fun j => ((els.getD j (([], false), false))).1)
    else linWrites (ef e 163 152) (els.map (·.1))
  { UnitOp.plain (s.now + n / 32 + 12) writes with
    sat := (els.filter (·.2)).length
    poisonOps := b2n (writes.any (·.poison)) }

/-- VEC (R127). -/
def execVec (c t : Nat) (s : State) : Out :=
  match s.dueClass c t 0x20 with
  | none => .next s
  | some e => .next (s.issueUnit c t e .vector (s.vecUnit c t e))

/-! ## UPD -/

/-- sign(c) of R238. -/
def signF (x : F32) : F32 :=
  match f32val x with
  | .nan => f32nan
  | .inf s => if s then 0xBF800000 else f32one
  | .fin s m _ => if m = 0 then f32zero else if s then 0xBF800000 else f32one

/-- The negation of an FP32 value. -/
def fneg (x : F32) : F32 := toF32 (f32val x).neg

/-- One element of the update (R238): new m, v, w. -/
def updElem (alg : Nat) (k : PsConst) (scale g0 m v w : F32) : F32 × F32 × F32 :=
  let g := fmul g0 scale
  match alg with
  | 0 =>
    let m1 := ffma k.beta1 m (fmul k.a1 g)
    let v1 := ffma k.beta2 v (fmul k.a2 (fmul g g))
    let x := fdiv (fdiv m1 k.bc1) (fadd (fsqrt (fdiv v1 k.bc2)) k.eps)
    (m1, v1, ffma w k.dk (fneg (fmul k.lr x)))
  | 1 =>
    let c := ffma k.beta1 m (fmul k.a1 g)
    (ffma k.beta2 m (fmul k.a2 g), v, ffma w k.dk (fneg (fmul k.lr (signF c))))
  | _ =>
    let m1 := ffma k.beta1 m g
    (m1, v, ffma w k.dk (fneg (fmul k.lr m1)))

/-- What a UPD makes of one element: its gradient, the new m, v and w, and whether a poisoned line contributes to each of these three: the
gradient to all, M1 to m and w, M2 to v and w, the master copy to w (R238, R240). -/
structure UpdResult where
  g : F32
  m : F32
  v : F32
  w : F32
  mBad : Bool
  vBad : Bool
  wBad : Bool

/-- The gradient scale of a UPD (R238). -/
def updScale (k : PsConst) (clipn : Bool) (nsum : F32) : F32 :=
  if clipn then
    let gn := fmul (fsqrt nsum) k.gscale
    if flt f32zero k.clip && flt k.clip gn then fmul k.gscale (fdiv k.clip gn) else k.gscale
  else k.gscale

/-- A slot of the running launch. -/
def State.runSlot (s : State) (c v : Nat) : Option Slot :=
  match (s.ctx c).running with
  | none => none
  | some r => Table.get? r.slots v

/-- The cycles of a UPD (R239). -/
def updCycles (alg n32 : Nat) : Nat := if alg = 0 then 4 * n32 + 40 else if alg = 1 then 3 * n32 + 32 else 2 * n32 + 28

/-- The unit operation of a UPD (R238 to R240). -/
def State.updUnit (s : State) (c t : Nat) (e : EntryBits) : UnitOp :=
  let base := s.padBase c t
  let alg := ef e 215 213
  let step := match (s.ctx c).running with
    | none => 0
    | some r => r.step0.toNat
  let k := s.psConst c (ef e 212 207) step
  let scale := updScale k (eb e 69) (((s.runSlot c (ef e 71 70)).map (·.nsum)).getD 0)
  let n32 := ef e 142 135 + 1
  let el (j : Nat) : UpdResult :=
    let g := s.linElem base (if eb e 203 then 8 else 2) (ef e 166 155) j
    let m := s.linElem base 8 (ef e 190 179) j
    let v := if alg = 0 then s.linElem base 8 (ef e 178 167) j else (.fin false 0 0, false)
    let w := s.linElem base 8 (ef e 202 191) j
    let r := updElem alg k scale (toF32 g.1) (toF32 m.1) (toF32 v.1) (toF32 w.1)
    ⟨toF32 g.1, r.1, r.2.1, r.2.2, g.2 || m.2, g.2 || v.2, g.2 || m.2 || v.2 || w.2⟩
  let els := (List.range (n32 * 32)).map el
  let work := els.zipIdx.map fun x =>
    (outBytes (ef e 206 204) x.1.w (s.roundWord c t e (ef e 134 119) (ef e 118 73) (eb e 72) x.2), x.1.wBad)
  let area (line : Nat) (f : UpdResult → F32) (bad : UpdResult → Bool) : List ScratchWrite :=
    linWrites line (els.map fun x => (leBytes 4 (f x).toNat, bad x))
  let vals := (els.filter fun x => !x.wBad).flatMap fun x => [x.g, x.m, x.w] ++ (if alg = 0 then [x.v] else [])
  let nan := vals.any isNan32
  let inf := vals.any fun x => (f32val x).nonFinite && !isNan32 x
  let poison := els.any (·.wBad)
  { UnitOp.plain (s.now + updCycles alg n32)
      (area (ef e 202 191) (·.w) (·.wBad) ++ area (ef e 190 179) (·.m) (·.mBad)
        ++ (if alg = 0 then area (ef e 178 167) (·.v) (·.vBad) else [])
        ++ linWrites (ef e 154 143) (work.map fun x => (x.1.1, x.2))) with
    sat := (work.filter fun x => x.1.2).length
    poisonOps := b2n poison
    flags := (if nan then 1 else 0) ||| (if inf then 2 else 0) ||| (if poison then 4 else 0) }

/-- UPD (R238, R239): with CLIPN = 1 the verdict of NSLOT must have been decided in this launch. -/
def execUpd (c t : Nat) (s : State) : Out :=
  match s.dueClass c t 0x28 with
  | none => .next s
  | some e =>
    if ((s.tile c t).vector).isNone && eb e 69 && !s.slotApplied c (ef e 71 70) then .next (s.ctxFault c 13)
    else .next (s.issueUnit c t e .vector (s.updUnit c t e))

/-! ## RNG_FILL -/

/-- ⌊P · 2³²⌋ of an FP32 value 0 ≤ P < 1. -/
def floorP (p : F32) : Nat :=
  match f32val p with
  | .fin _ m e => if 0 ≤ e + 32 then m * 2 ^ (e + 32).toNat else m / 2 ^ (-(e + 32)).toNat
  | _ => 0

/-- u = ⌊x/2⁸⌋ · 2⁻²⁴. -/
def unitF (x : Nat) : F32 := toF32 (.fin false (x / 256) (-24))

/-- `n` words of the UV-1600 generator and the state after them (R255). -/
def legacyWords : Nat → BitVec 128 → List Nat × BitVec 128
  | 0, g => ([], g)
  | n + 1, g => let r := legacyWords n (Config.uv1600Next g); ((Config.uv1600Word g).toNat :: r.1, r.2)

/-- The words of an RNG_FILL and the state of the tile's UV-1600 generator after it (R254, R255). -/
def State.rngWords (s : State) (c t : Nat) (e : EntryBits) : List Nat × BitVec 128 :=
  let n := (ef e 181 170 + 1) * 32
  let stream := ef e 169 154
  if eCompat e then
    let g := if eb e 66 then Config.uv1600Seed (BitVec.ofNat 64 (s.seed c)) (BitVec.ofNat 16 stream) (BitVec.ofNat 32 (ef e 107 76))
      else (s.tile c t).uv1600
    legacyWords n g
  else
    let step := (s.cf c Off.CTX_RNG_STEP 47 0 + 2 ^ 48 - ef e 74 67) % 2 ^ 48
    ((List.range n).map fun j =>
      randWord (s.seed c) step stream (elemIndex (ef e 121 76) (s.tile c t).pass (eb e 75) j), (s.tile c t).uv1600)

/-- Bits gathered into bytes, the first in bit 0. -/
def packBits (l : List Bool) : List Byte := (List.range (ceilDiv l.length 8)).map fun i =>
  BitVec.ofNat 8 ((List.range 8).map fun k => b2n (l.getD (8 * i + k) false) * 2 ^ k).sum

/-- The unit operation of an RNG_FILL (R254). -/
def State.rngUnit (s : State) (c t : Nat) (e : EntryBits) : UnitOp :=
  let base := s.padBase c t
  let mode := ef e 215 214
  let fo := ef e 209 206
  let n32 := ef e 181 170 + 1
  let p : F32 := BitVec.ofNat 32 (ef e 153 122)
  let ks := fdiv f32one (fsub f32one p)
  let ws := (s.rngWords c t e).1
  let line := ef e 193 182
  if mode = 2 then
    UnitOp.plain (s.now + n32 + 16) (linWrites line ((packBits (ws.map fun x => decide (floorP p ≤ x))).map fun b => ([b], false)))
  else
    let els := ws.zipIdx.map fun x =>
      if mode = 0 then (outBytes fo (unitF x.1) none, false)
      else
        let v := s.linElem base (ef e 213 210) (ef e 205 194) x.2
        (outBytes fo (if floorP p ≤ x.1 then fmul (toF32 v.1) ks else f32zero) none, v.2)
    let writes := linWrites line (els.map fun x => (x.1.1, x.2))
    { UnitOp.plain (s.now + n32 + 16) writes with
      sat := (els.filter fun x => x.1.2).length
      poisonOps := b2n (writes.any (·.poison)) }

/-- RNG_FILL (R254, R255). The UV-1600 generator moves on only where the entry issues. -/
def execRngFill (c t : Nat) (s : State) : Out :=
  match s.dueClass c t 0x50 with
  | none => .next s
  | some e =>
    let g := (s.rngWords c t e).2
    let op := s.rngUnit c t e
    if ((s.tile c t).vector).isSome then .next (s.issueUnit c t e .vector op)
    else .next ((s.issueUnit c t e .vector op).modTile c t fun x => { x with uv1600 := g })

/-! ## GNS_STAT -/

/-- The unit operation of a GNS_STAT (R241). -/
def State.gnsUnit (s : State) (c t : Nat) (e : EntryBits) : UnitOp :=
  let base := s.padBase c t
  let mode := ef e 215 214
  let n32 := ef e 197 186 + 1
  let els := (List.range (n32 * 32)).map fun j => s.linElem base (ef e 213 210) (ef e 209 198) j
  let xs := els.map fun x => toF32 x.1
  let clean := (els.filter fun x => !x.2).map (·.1)
  let nan := clean.any fun x => x.isNan
  let inf := clean.any fun x => x.nonFinite && !x.isNan
  let poison := els.any (·.2)
  let sum := laneSum 32 (xs.map fun x => fmul x x)
  { UnitOp.plain (s.now + n32 + 12) [] with
    flags := (if nan then 1 else 0) ||| (if inf then 2 else 0) ||| (if poison then 4 else 0)
    nsum := if mode = 1 then some sum else none
    ssum := if mode = 2 then some sum else none }

/-- GNS_STAT (R241). -/
def execGnsStat (c t : Nat) (s : State) : Out :=
  match s.dueClass c t 0x58 with
  | none => .next s
  | some e => .next (s.issueUnit c t e .vector (s.gnsUnit c t e))

end Sys2Proof.Machine
end

