-- ==== Sys2Proof/Machine/Special.lean ====
section
/-! DEFINITION. The special-function unit (R131 to R152): SFU, SOFTMAX, NORM_STAT. -/

namespace Sys2Proof.Machine

/-! ## SFU -/

/-- The result of an SFU function for output element `j` on input `x` (R133, R134, R150). -/
def sfuResult (f : Nat) (compat : Bool) (pos : Nat) (x : F32) : F32 :=
  if compat then sfuCompat f x else if f = 13 ∨ f = 14 then sfuTrigFn f pos x else sfuFn f x

/-- The unit operation of an SFU (R132 to R137, R151). -/
def State.sfuUnit (s : State) (c t : Nat) (e : EntryBits) : UnitOp :=
  let base := s.padBase c t
  let f := ef e 215 211
  let fx := ef e 210 207
  let fo := ef e 206 203
  let n := (ef e 178 165 + 1) * 16
  let rowlen := ef e 115 104 + 1
  let trig := decide (f = 13 ∨ f = 14)
  let pos := ef e 164 117 + (if eb e 116 then (s.tile c t).pass else 0)
  let el (j : Nat) : (List Byte × Bool) × Bool × Bool :=
    let x := s.linElem base fx (ef e 202 191) (if trig then j % rowlen else j)
    let r := sfuResult f (eCompat e) ((pos + j / rowlen) % 2 ^ 48) (toF32 x.1)
    (outBytes fo r none, x.2, isNan32 r && !x.1.isNan)
  let els := (List.range n).map el
  let writes := linWrites (ef e 190 179) (els.map fun x => (x.1.1, x.2.1))
  { UnitOp.plain (s.now + (if trig then 2 * (n / 16) + 26 else n / 16 + 18)) writes with
    sat := (els.filter fun x => x.1.2).length
    sfuNan := (els.filter fun x => x.2.2).length
    poisonOps := b2n (writes.any (·.poison)) }

/-- SFU (R133). -/
def execSfu (c t : Nat) (s : State) : Out :=
  match s.dueClass c t 0x21 with
  | none => .next s
  | some e => .next (s.issueUnit c t e .special (s.sfuUnit c t e))

/-! ## SOFTMAX -/

/-- What a row of a SOFTMAX gives: output elements, new state (none: not written), scale, saturations, whether the row counts in
CTX_MASKED_ROWS. -/
structure SmRow where
  out : List (List Byte)
  state : Option (F32 × F32)
  scale : F32
  sat : Nat
  masked : Bool

/-- The largest of a list, NaN if one is (R141). -/
def maxList : List F32 → F32
  | [] => f32mask
  | x :: r => r.foldl fmax x

/-- A row in FULL or BLOCK mode: elements with their masks, the row state before (R139 to R142). -/
def smRow (full : Bool) (fo : Nat) (imm : F32) (init : Bool) (xs : List (F32 × Bool)) (old : F32 × F32) : SmRow :=
  let zero := (outBytes fo f32zero none).1
  if xs.all (·.2) then
    ⟨xs.map fun _ => zero, if full then some (f32mask, f32zero) else if init then some old else none, f32one, 0, full⟩
  else
    let ys := xs.map fun x => if x.2 then none else some (fmul imm x.1)
    let b := maxList (ys.filterMap id)
    let m := if full then b else fmax old.1 b
    let scale := if old.2 = f32zero then f32zero else sfuFn 0 (fsub old.1 m)
    let ps := ys.map fun y => y.map fun v => sfuFn 0 (fsub v m)
    let sum := laneSum 16 (ps.map fun p => p.getD f32zero)
    let l := if full then sum else fadd (fmul old.2 scale) sum
    let outs := ps.map fun p => p.map fun v => outBytes fo (if full then fmul v (sfuRecip l) else v) none
    ⟨outs.map fun o => (o.map (·.1)).getD zero, some (m, l), scale, (outs.filter fun o => (o.map (·.2)).getD false).length, false⟩

/-- Two FP32 values as 8 bytes. -/
def pairBytes (a b : F32) : List Byte := leBytes 4 a.toNat ++ leBytes 4 b.toNat

/-- The FP32 word of a row state at a byte address of a scratchpad; NaN in a poisoned line. A NaN of another payload is read as the NaN
of R114, so that a merge with an empty state writes that one back (DESIGN CHOICE, log 89). -/
def State.f32At (s : State) (base a : Nat) : F32 := toF32 (s.elemAt base 8 (a * 8))

/-- The elements of row `r` of a SOFTMAX, with their masks, and whether a line they or their masks come from is poisoned. The bits of a
poisoned mask line count as they stand, and a poisoned line poisons the row whether or not its elements are masked (DESIGN CHOICE,
log 86). -/
def State.smElems (s : State) (base : Nat) (e : EntryBits) (r : Nat) : List (F32 × Bool) × Bool :=
  let fx := ef e 213 210
  let rl := ef e 148 136 + 1
  let el (j : Nat) : (F32 × Bool) × Bool :=
    let i := r * rl + j
    let a := ef e 205 194 * 64 + i * elemBytes fx
    let x := s.linElem base fx (ef e 205 194) i
    let raw := readBits (s.padByte base) (a * 8) (fmtBits fx)
    let off := eb e 102 && !s.maskBit base (ef e 101 90) i
    let mp := eb e 102 && s.padAny base (ef e 101 90 * 64 + i / 8) 1
    ((toF32 x.1, off || (!x.2 && decide (raw = if fx = 2 then 0xFF00 else 0xFF000000))), x.2 || mp)
  let els := (List.range rl).map el
  (els.map (·.1), els.any (·.2))

/-- The unit operation of a SOFTMAX (R138 to R143). -/
def State.smUnit (s : State) (c t : Nat) (e : EntryBits) : UnitOp :=
  let base := s.padBase c t
  let mode := ef e 215 214
  let fo := ef e 209 206
  let rows := ef e 157 149 + 1
  let rl := ef e 148 136 + 1
  let rep := ef e 89 81 + 1
  let sl := ef e 193 182 * 64
  let ol := ef e 181 170 * 64
  let imm : F32 := BitVec.ofNat 32 (ef e 135 104)
  let stP (r : Nat) : Bool := s.padAny base (sl + 8 * r) 8
  if mode = 2 then
    let one (r : Nat) : F32 × Bool :=
      let l := s.f32At base (sl + 8 * r + 4)
      if l = f32zero then (f32zero, true) else (sfuRecip l, false)
    let vs := (List.range rows).map fun r => (one r, stP r)
    let writes := lineWrites (rows * rep + 1) ol (vs.flatMap fun v => List.replicate rep (leBytes 4 v.1.1.toNat, v.2))
    { UnitOp.plain (s.now + ceilDiv (rows * rep) 16 + 24) writes with
      masked := (vs.filter fun v => v.1.2).length
      poisonOps := b2n (writes.any (·.poison)) }
  else
    let full := decide (mode = 0)
    let init := full || eb e 103
    let one (r : Nat) : SmRow × Bool :=
      let x := s.smElems base e r
      let old := if init then (f32mask, f32zero) else (s.f32At base (sl + 8 * r), s.f32At base (sl + 8 * r + 4))
      (smRow full fo imm init x.1 old, x.2 || (!init && stP r))
    let vs := (List.range rows).map one
    let outW := lineWrites (rows * rl + 1) ol (vs.flatMap fun v => v.1.out.map fun b => (b, v.2))
    let stW := runWrites 8 (rows + 1) sl (vs.map fun v => (v.1.state.map fun q => pairBytes q.1 q.2, v.2))
    let scW := if full then [] else
      lineWrites (rows * rep + 1) (ef e 169 158 * 64) (vs.flatMap fun v => List.replicate rep (leBytes 4 v.1.scale.toNat, v.2))
    let writes := outW ++ stW ++ scW
    let steps := rows * ceilDiv rl 16
    { UnitOp.plain (s.now + (if full then 3 * steps + 40 else 2 * steps + 36)) writes with
      sat := (vs.map fun v => v.1.sat).sum
      masked := (vs.filter fun v => v.1.masked).length
      poisonOps := b2n (writes.any (·.poison)) }

/-- SOFTMAX (R141). -/
def execSoftmax (c t : Nat) (s : State) : Out :=
  match s.dueClass c t 0x23 with
  | none => .next s
  | some e => .next (s.issueUnit c t e .special (s.smUnit c t e))

/-! ## NORM_STAT -/

/-- A row state: count, mean or sum of squares, M2 (R144). -/
structure NState where
  n : Nat
  a : F32
  b : F32
deriving DecidableEq, Repr

/-- The empty state. -/
def NState.empty : NState := ⟨0, 0, 0⟩

/-- A count held at 2³² − 1. -/
def satCount (n : Nat) : Nat := min n (2 ^ 32 - 1)

/-- One element into a WELFORD state (R145). -/
def NState.add (st : NState) (x : F32) : NState :=
  let n := satCount (st.n + 1)
  let d := fsub x st.a
  let mean := fadd st.a (fdiv d (f32ofNat n))
  ⟨n, mean, fadd st.b (fmul d (fsub x mean))⟩

/-- Two WELFORD states merged (R145). -/
def NState.merge (x y : NState) : NState :=
  if x = NState.empty then y
  else if y = NState.empty then x
  else
    let n := satCount (x.n + y.n)
    let d := fsub y.a x.a
    let fn := f32ofNat n
    ⟨n, fadd x.a (fmul d (fdiv (f32ofNat y.n) fn)),
     fadd (fadd x.b y.b) (fmul (fmul d d) (fdiv (fmul (f32ofNat x.n) (f32ofNat y.n)) fn))⟩

/-- Two RMS states added. -/
def NState.addRms (x y : NState) : NState := ⟨satCount (x.n + y.n), fadd x.a y.a, 0⟩

/-- The row state at a byte address of a scratchpad; NaN in the FP32 fields of a poisoned line. -/
def State.nstate (s : State) (base a : Nat) : NState :=
  ⟨leNat (s.padRead base a 4), s.f32At base (a + 4), s.f32At base (a + 8)⟩

/-- The 16 bytes of a row state. -/
def NState.bytes (st : NState) (rms : Bool) : List Byte :=
  leBytes 4 st.n ++ leBytes 4 st.a.toNat ++ leBytes 4 (if rms then 0 else st.b.toNat) ++ leBytes 4 0

/-- The statistics of a row's elements: 16 lanes merged in pair order (R145, R146). -/
def rowStats (rms : Bool) (xs : List F32) : NState :=
  if rms then ⟨satCount xs.length, laneSum 16 (xs.map fun x => fmul x x), 0⟩
  else
    let lane (i : Nat) : NState := ((xs.zipIdx).filter fun x => x.2 % 16 = i).foldl (fun st x => st.add x.1) NState.empty
    (pairTree NState.merge 5 ((List.range 16).map lane)).headD NState.empty

/-- The unit operation of a NORM_STAT (R144 to R149). -/
def State.normUnit (s : State) (c t : Nat) (e : EntryBits) : UnitOp :=
  let base := s.padBase c t
  let mode := ef e 215 214
  let fx := ef e 213 210
  let xl := ef e 209 198
  let sl := ef e 197 186 * 64
  let rows := ef e 173 165 + 1
  let rl := ef e 164 152 + 1
  let init := eb e 119
  let merge := eb e 118
  let rms := decide (mode % 2 = 1)
  let stored (r : Nat) : NState × Bool :=
    if init then (NState.empty, false) else (s.nstate base (sl + 16 * r), s.padAny base (sl + 16 * r) 16)
  if 2 ≤ mode then
    let eps : F32 := BitVec.ofNat 32 (ef e 151 120)
    let one (r : Nat) : (List Byte × Bool) × Bool :=
      let st := stored r
      let v := if st.1.n = 0 then eps else fadd (fdiv (if rms then st.1.a else st.1.b) (f32ofNat st.1.n)) eps
      ((pairBytes (if rms ∨ st.1.n = 0 then f32zero else st.1.a) (sfuFn 4 v), st.2), isNan32 (sfuFn 4 v) && !isNan32 v)
    let els := (List.range rows).map one
    let writes := lineWrites (rows + 1) (ef e 185 174 * 64) (els.map (·.1))
    { UnitOp.plain (s.now + ceilDiv rows 16 + 24) writes with
      sfuNan := (els.filter (·.2)).length
      poisonOps := b2n (writes.any (·.poison)) }
  else
    let one (r : Nat) : List Byte × Bool :=
      let st := stored r
      let inp : NState × Bool :=
        if merge then
          ((List.range rl).foldl (fun acc j =>
              let y := s.nstate base (xl * 64 + (r * rl + j) * 16)
              if rms then acc.addRms y else acc.merge y) NState.empty,
           s.padAny base (xl * 64 + r * rl * 16) (rl * 16))
        else
          let els := (List.range rl).map fun j => s.linElem base fx xl (r * rl + j)
          (rowStats rms (els.map fun x => toF32 x.1), els.any (·.2))
      let new := if rms then st.1.addRms inp.1 else st.1.merge inp.1
      (new.bytes rms, st.2 || inp.2)
    let writes := lineWrites (rows + 1) sl ((List.range rows).map one)
    { UnitOp.plain (s.now + (if merge then 2 * rows * rl + 30 else rows * ceilDiv rl 16 + 30)) writes with
      poisonOps := b2n (writes.any (·.poison)) }

/-- NORM_STAT (R145). -/
def execNormStat (c t : Nat) (s : State) : Out :=
  match s.dueClass c t 0x22 with
  | none => .next s
  | some e => .next (s.issueUnit c t e .special (s.normUnit c t e))

end Sys2Proof.Machine
end

