-- ==== Sys2Proof/Machine/Layout.lean ====
section
/-! DEFINITION. How transfers lay data out in scratchpad: bytes built bit by bit, linear areas, the diagonal layout in both
directions (R106 to R109), and the poison of the lines written (R212, R451). -/

namespace Sys2Proof.Machine

/-- Bytes being built: byte offset, with its value, the bits of it that have been written, and whether any of them is
poisoned. -/
abbrev ByteMap := Table (Byte × Nat × Bool)

/-- `w` bits of value `v` put at bit `dst`; bytes not built yet start as `rd` reads them. -/
def putBitsT (rd : Nat → Byte) (t : ByteMap) (dst w v : Nat) (p : Bool) : ByteMap :=
  (List.range ((dst + w - 1) / 8 - dst / 8 + 1)).foldl (fun t i =>
    let b := dst / 8 + i
    let old := Table.getD (rd b, 0, false) t b
    let lo := max dst (8 * b)
    let k := min (dst + w) (8 * b + 8) - lo
    let sh := lo - 8 * b
    let n := old.1.toNat
    Table.set t b
      (BitVec.ofNat 8 (n - n / 2 ^ sh % 2 ^ k * 2 ^ sh + v / 2 ^ (lo - dst) % 2 ^ k * 2 ^ sh),
       Nat.lor old.2.1 ((2 ^ k - 1) * 2 ^ sh), old.2.2 || p)) t

/-- The built bytes written into a scratchpad: a line whose 512 bits are all written takes the poison of what is written, any other
keeps its own too (R451). -/
def State.writeMap (s : State) (base : Nat) (t : ByteMap) : State :=
  let u := t.filter fun e => e.1 < padSize
  let lines := u.foldl (fun l e => insertNat (e.1 / 64) l) []
  { s with
    scratch := u.foldl (fun m e => Table.put 0 m (base + e.1) e.2.1) s.scratch
    scratchPoison := lines.foldl (fun l k =>
      let bs := u.filter fun e => e.1 / 64 = k
      let whole := decide (bs.length = 64) && bs.all fun e => decide (e.2.2.1 = 255)
      putFlag l (base / 64 + k) ((bs.any fun e => e.2.2.2) || (!whole && decide (base / 64 + k ∈ l)))) s.scratchPoison }

/-- Byte `i` of a buffer. -/
def bufByte (b : List Byte) (i : Nat) : Byte := b.getD i 0

/-- Byte `i` of a buffer with poisoned ranges is poisoned. -/
def inRanges (l : List (Nat × Nat)) (i : Nat) : Bool := l.any fun r => r.1 ≤ i && i < r.1 + r.2

/-- Any of `n` bytes from `i` is poisoned. -/
def anyRange (l : List (Nat × Nat)) (i n : Nat) : Bool := l.any fun r => r.1 < i + n && i < r.1 + r.2 && 0 < n

/-- A buffer written at byte `at_` of a scratchpad in order, each line poisoned when a poisoned byte goes into it. -/
def State.putLinear (s : State) (base at_ : Nat) (buf : List Byte) (poison : List (Nat × Nat)) : State :=
  s.applyWrites base (lineWrites (buf.length + 1) at_ ((buf.zipIdx).map fun x => ([x.1], inRanges poison x.2)))

/-- Row records written in the diagonal layout from a line: each record's place in the buffer and its row (R109). -/
def State.putDiag (s : State) (base line code row : Nat) (recs : List (Nat × Nat)) (buf : List Byte)
    (poison : List (Nat × Nat)) : State :=
  let rd (i : Nat) := s.padByte base i
  s.writeMap base (recs.foldl (fun t r =>
    (diagMoves code row r.2).foldl (fun t m =>
      let b := r.1 * 8 + m.1
      putBitsT rd t (line * 512 + m.2.1) m.2.2 (readBits (bufByte buf) b m.2.2)
        (anyRange poison (b / 8) ((b + m.2.2 - 1) / 8 - b / 8 + 1))) t) [])

/-- Bytes of a scratchpad read for a transfer: data, and the poisoned ranges, by line. -/
def State.takeLinear (s : State) (base at_ n : Nat) : List Byte × List (Nat × Nat) :=
  (s.padRead base at_ n,
   (List.range (if n = 0 then 0 else (at_ + n - 1) / 64 - at_ / 64 + 1)).filterMap fun i =>
     let l := at_ / 64 + i
     let lo := max at_ (64 * l)
     if s.padPoison base l then some (lo - at_, min (at_ + n) (64 * l + 64) - lo) else none)

/-- Row records read out of the diagonal layout (R109). -/
def State.takeDiag (s : State) (base line code row n : Nat) : List Byte × List (Nat × Nat) :=
  let rec_ := recordBytes code row
  let t := (List.range (n / rec_)).foldl (fun t j =>
    (diagMoves code row j).foldl (fun t m =>
      let b := line * 512 + m.2.1
      putBitsT (fun _ => 0) t (j * rec_ * 8 + m.1) m.2.2 (readBits (s.padByte base) b m.2.2) (s.bitsPoison base b m.2.2)) t) []
  ((List.range n).map fun i => (Table.getD (0, 0, false) t i).1,
   (t.filter fun e => e.2.2.2).map fun e => (e.1, 1))

/-- The record numbers and rows of a diagonal transfer of `n` bytes. -/
def recsOf (code row n : Nat) : List (Nat × Nat) :=
  (List.range (n / recordBytes code row)).map fun j => (j * recordBytes code row, j)

end Sys2Proof.Machine
end

