-- ==== Sys2Proof/Machine/Slots.lean ====
section
/-! DEFINITION. Operation class 0x32 (R153 to R167): ASSIGN, and the issue and the visits of SLOT_GATHER, SLOT_SCATTER and
CLEAR. -/

namespace Sys2Proof.Machine

/-! ## ASSIGN (R155 to R159) -/

/-- A score may be selected: no NaN, no −∞, not the mask value (R156). -/
def selectable (x : F32) : Bool :=
  match f32val x with
  | .nan => false
  | .inf neg => !neg
  | .fin _ _ _ => decide (x ≠ f32mask)

/-- The largest score, the lowest expert among equals. -/
def bestOf (l : List (Nat × F32)) : Option (Nat × F32) :=
  l.foldl (fun o x =>
    match o with
    | none => some x
    | some y => if flt y.2 x.2 then some x else some y) none

/-- Up to `k` experts in rank order (R156). -/
def pickK : Nat → List (Nat × F32) → List (Nat × F32)
  | 0, _ => []
  | k + 1, l =>
    match bestOf l with
    | none => []
    | some x => x :: pickK k (l.filter fun y => y.1 ≠ x.1)

/-- The gates of the selected scores: the scores, or with RENORM each divided by their sum; a sum of zero gives 0x7FC0_0000
(R156). -/
def gatesOf (renorm : Bool) (l : List (Nat × F32)) : List (Nat × F32) :=
  if !renorm then l
  else
    let sum := l.foldl (fun a x => fadd a x.2) f32zero
    l.map fun x => (x.1, if (f32val sum).isZero then f32nan else fdiv x.2 sum)

/-- A slot-map entry of a taken slot (table *Slot-map entry*). The 24 bits of POS hold a position beyond 2²⁴ − 1 modulo 2²⁴ (DESIGN CHOICE,
log 91). -/
def smapWord (gate : F32) (pos rank : Nat) : Nat := gate.toNat + pos % 2 ^ 24 * 2 ^ 32 + rank * 2 ^ 56 + 2 ^ 63

/-- A token-map entry (table *Token-map entry*). -/
def tmapWord (gate : F32) (expert slot : Nat) (kept : Bool) : Nat :=
  gate.toNat + expert * 2 ^ 32 + slot * 2 ^ 40 + 2 ^ 62 + b2n kept * 2 ^ 63

/-- Where routing has come to: fill counts, slot-map entries taken (by index), token-map entries in reverse order, dropped
pairs. -/
structure Routing where
  fill : List Nat
  smap : Table Nat
  tmap : List Nat
  dropped : Nat
deriving DecidableEq, Repr

/-- One token routed: rank by rank (R157). -/
def Routing.token (r : Routing) (k cap pos : Nat) (gates : List (Nat × F32)) : Routing :=
  (List.range k).foldl (fun r rank =>
    match gates[rank]? with
    | none => { r with tmap := 0 :: r.tmap }
    | some (e, g) =>
      let n := r.fill.getD e 0
      let fill := r.fill.set e (min (n + 1) (2 ^ 32 - 1))
      if n < cap then
        { r with
          fill := fill
          smap := Table.set r.smap (e * cap + n) (smapWord g pos rank)
          tmap := tmapWord g e n true :: r.tmap }
      else { r with fill := fill, tmap := tmapWord f32zero e 0 false :: r.tmap, dropped := r.dropped + 1 }) r

/-- The occupancy mask of an expert with `fill` tokens over `cap` slots: whole lines (R155). -/
def occMask (fill cap : Nat) : List Byte :=
  leBytes (64 * ceilDiv cap 512) (2 ^ min fill cap - 1)

/-- Cycles of an ASSIGN (R159). -/
def assignCycles (t e k c : Nat) : Nat := ceilDiv (t * e) 16 + t * k + ceilDiv (e * c) 8 + ceilDiv e 16 + 32

/-- The operation of an ASSIGN (R155 to R159, R166). A fill line that it reads poisoned counts by its bits, and the line it writes there
takes the poison of the scores alone (DESIGN CHOICE, log 92). -/
def State.assignUnit (s : State) (c t : Nat) (en : EntryBits) : UnitOp :=
  let base := s.padBase c t
  let nt := ef en 204 192 + 1
  let ne := ef en 191 184 + 1
  let k := ef en 183 181 + 1
  let cap := ef en 180 169 + 1
  let score (i : Nat) : FV × Bool := s.linElem base 8 (ef en 168 157) i
  let init := eb en 84
  let fill0 := (List.range ne).map fun e => if init then 0 else leNat (s.padRead base (ef en 156 145 * 64 + 4 * e) 4)
  let r := (List.range nt).foldl (fun (r : Routing) i =>
    let row := (List.range ne).map fun e => (e, toF32 (score (i * ne + e)).1)
    r.token k cap (ef en 108 85 + i) (gatesOf (eb en 83) (pickK k (row.filter fun x => selectable x.2)))) ⟨fill0, [], [], 0⟩
  let poison := s.areaPoison base (ef en 168 157) (nt * ne * 4)
  let sl := ef en 144 133 * 64
  let smap :=
    if init then [⟨sl, (List.range (ne * cap)).flatMap fun i => leBytes 8 (Table.getD 0 r.smap i), poison, none⟩]
    else runWrites 8 (ne * cap + 1) 0 ((List.range (ne * cap)).map fun i => ((Table.get? r.smap i).map (leBytes 8), poison))
      |>.map fun w => { w with at_ := sl + w.at_ }
  let writes : List ScratchWrite :=
    [⟨ef en 156 145 * 64, r.fill.flatMap (leBytes 4), poison, none⟩] ++ smap ++
    [⟨ef en 132 121 * 64, r.tmap.reverse.flatMap (leBytes 8), poison, none⟩,
     ⟨ef en 120 109 * 64, r.fill.flatMap fun f => occMask f cap, poison, none⟩]
  { UnitOp.plain (s.now + assignCycles nt ne k cap) writes with
    overflow := r.dropped
    poisonOps := b2n poison
    ctr := some (ef en 210 205) }

/-- MODE of a class 0x32 entry. -/
def slotMode (e : EntryBits) : Nat := ef e 215 214

/-- The due entry of a tile, if it is of class 0x32 in mode `m`. -/
def State.dueSlot (s : State) (c t m : Nat) : Option EntryBits := (s.dueClass c t 0x32).filter fun e => slotMode e = m

/-- ASSIGN (R157, R159): its engine must hold no queued or running transfer. -/
def execAssign (c t : Nat) (s : State) : Out :=
  match s.dueSlot c t 0 with
  | none => .next s
  | some e =>
    let k := ef e 213 211
    if s.engineLoad c t k ≠ 0 then .next (s.schedFault c t (s.tile c t).pos 2 2)
    else .next ((s.modTile c t fun y => y.setUnit (.stream k) (some ((s.assignUnit c t e).begun e (s.tile c t).pos s.now))).issue c t e)

/-! ## The issue of SLOT_GATHER, SLOT_SCATTER and CLEAR (R160, R163) -/

/-- The descriptor of a class 0x32 entry. -/
def State.slotDesc (s : State) (c t : Nat) (e : EntryBits) : Bits512 := s.descOf c t (ef e 152 145)

/-- The row size of a class 0x32 descriptor (R153). -/
def rowBytes (d : Bits512) : Nat := (streamDesc d).counts.getD 0 1

/-- The size S of a slot transfer (R163). -/
def slotSize (e : EntryBits) (d : Bits512) : Nat :=
  if slotMode e = 3 then (ef e 204 192 + 1) * (ef e 191 189 + 1) * rowBytes d
  else (ef e 196 189 + 1) * (ef e 188 177 + 1) * rowBytes d

/-- A slot transfer issues to its stream engine: with four transfers not yet arrived the engine's queue is full (R61). -/
def State.issueSlot (s : State) (c t : Nat) (e : EntryBits) (kind : XKind) (d : Bits512) : State :=
  let k := ef e 213 211
  let p := (s.tile c t).pos
  if 4 ≤ s.engineLoad c t k then s.schedFault c t p 2 2
  else (s.startXfer c t p (some k) (some (ef e 210 205)) kind (slotSize e d) (streamDesc d).rate [] (streamDesc d).cache).issue c t e

/-- SLOT_GATHER (R160, R163). -/
def execSlotGather (c t : Nat) (s : State) : Out :=
  match s.dueSlot c t 1 with
  | none => .next s
  | some e =>
    let d := s.slotDesc c t e
    .next (s.issueSlot c t e (.gather e d) d)

/-- SLOT_SCATTER (R160, R163). -/
def execSlotScatter (c t : Nat) (s : State) : Out :=
  match s.dueSlot c t 2 with
  | none => .next s
  | some e =>
    let d := s.slotDesc c t e
    .next (s.issueSlot c t e (.scatter e d) d)

/-- CLEAR (R160, R163). -/
def execClear (c t : Nat) (s : State) : Out :=
  match s.dueSlot c t 3 with
  | none => .next s
  | some e =>
    let d := s.slotDesc c t e
    .next (s.issueSlot c t e (.clear e d) d)

/-! ## Visits (R160 to R162, R166) -/

/-- A slot or pair visited: its row in the transfer's walk, its record in the diagonal layout, and what the map holds for it; `poison`
where its map line is poisoned. -/
structure Visit where
  row : Nat
  record : Nat
  gate : F32
  pos : Nat
  rank : Nat
  hit : Bool
  poison : Bool
deriving DecidableEq, Repr

/-- The slots that GATHER and SCATTER visit, in order; a slot behind poison reads as empty (R160, R166). -/
def State.slotVisits (s : State) (base : Nat) (e : EntryBits) : List Visit :=
  let cap := ef e 188 177 + 1
  (List.range (ef e 196 189 + 1)).flatMap fun k => (List.range cap).map fun i =>
    let a := ef e 176 165 * 64 + ((ef e 204 197 + k) * cap + i) * 8
    let w := leNat (s.padRead base a 8)
    let bad := s.padAny base a 8
    { row := k * cap + i
      record := k * ceilDiv cap 16 * 16 + i
      gate := BitVec.ofNat 32 (bits w 31 0)
      pos := bits w 55 32
      rank := bits w 58 56
      hit := !bad && bitAt w 63
      poison := bad }

/-- The pairs that CLEAR visits, in order; `hit` marks a pair whose memory row it writes (R160, R166). The position
POS_BASE + t is taken in full, where a slot map would hold it modulo 2²⁴ (DESIGN CHOICE, log 91). -/
def State.clearVisits (s : State) (base : Nat) (e : EntryBits) : List Visit :=
  let k := ef e 191 189 + 1
  (List.range (ef e 204 192 + 1)).flatMap fun t => (List.range k).map fun r =>
    let a := ef e 188 177 * 64 + (t * k + r) * 8
    let bad := s.padAny base a 8
    { row := t * k + r
      record := t * k + r
      gate := 0
      pos := ef e 176 153 + t
      rank := r
      hit := bad || !bitAt (leNat (s.padRead base a 8)) 63
      poison := bad }

/-- The memory row of a position and rank (R153). -/
def slotRow (d : Bits512) (pos rank : Nat) : Nat :=
  let x := streamDesc d
  addS (addS x.vaddr (x.strides.getD 0 0 * pos)) (x.strides.getD 1 0 * rank)

/-- The requests of the visits that touch memory. -/
def visitSegs (d : Bits512) (rank : Bool) (l : List Visit) : List Seg :=
  let n := rowBytes d
  (l.filter (·.hit)).flatMap fun v => splitRun (n / 256 + 2) (slotRow d v.pos (if rank then v.rank else 0)) n (v.row * n)

/-- The row that SCATTER takes from scratchpad for a slot: as it is, or with WEIGHT each element times its gate (R162). -/
def State.scatterRow (s : State) (base : Nat) (e : EntryBits) (d : Bits512) (v : Visit) : List Byte :=
  let n := rowBytes d
  let at_ := ef e 164 153 * 64 + v.row * n
  if eb e 143 then
    let code := (streamDesc d).elem
    let w := elemBytes code
    (List.range (n / w)).flatMap fun i =>
      (outBytes code (fmul (toF32 (s.elemAt base code ((at_ + i * w) * 8))) v.gate) none).1
  else s.padRead base at_ n

end Sys2Proof.Machine
end

