-- ==== Sys2Proof/Machine/Streams.lean ====
section
/-! DEFINITION. The issue of stream, link and channel entries: STREAM_IN and STREAM_OUT with version rings (R88, R191), SEND and
its retries (R90), RECV and COMBINE (R193 to R195), QPUSH and QPOP (R173, R174, R183). -/

namespace Sys2Proof.Machine

/-- An entry issues a transfer to a stream engine; with four transfers not yet arrived the engine's queue is full (R61). -/
def State.issueXfer (s : State) (c t : Nat) (e : EntryBits) (k : Nat) (ctr : Option Nat) (kind : XKind) (size rate : Nat)
    (segs : List Seg) (cache : Bool) : State :=
  let p := (s.tile c t).pos
  if 4 ≤ s.engineLoad c t k then s.schedFault c t p 2 2
  else (s.startXfer c t p (some k) ctr kind size rate segs cache).issue c t e

/-! ## Streams and version rings (R189 to R191) -/

/-- The launch version L of a ring. -/
def State.launchVer (s : State) (c ring : Nat) : BitVec 16 :=
  match (s.ctx c).running with
  | none => 0
  | some r => Table.getD 0 r.newest0 ring

/-- The version that VSEL selects (R191). -/
def State.selVer (s : State) (c t : Nat) (e : EntryBits) : BitVec 16 :=
  let l := s.launchVer c (ef e 182 178)
  match ef e 177 176 with
  | 0 => l
  | 1 => l + 1
  | 2 => (s.tile c t).vr0
  | _ => (s.tile c t).vr1

/-- The base address of a stream entry: the descriptor's address with the pass step, in the slot of the selected version where VRING
is set; none where R191 faults. -/
def State.streamBase (s : State) (c t : Nat) (e : EntryBits) (d : StreamDesc) : Option Nat :=
  let a := if eb e 184 then addS d.vaddr (d.stepP * (s.tile c t).pass) else d.vaddr
  if eb e 183 then
    match Table.get? (s.ctx c).rings (ef e 182 178) with
    | none => none
    | some r =>
      let v := s.selVer c t e
      let old := (s.launchVer c (ef e 182 178) - v).toNat
      if !r.valid ∨ (ef e 177 176 ≠ 1 ∧ old + 2 > r.slots) then none
      else some ((r.base + v.toNat % r.slots * r.stride + a) % 2 ^ 64)
  else some a

/-- A stream entry issues: VERSION_GONE where its ring's version is not readable (R191). -/
def State.issueStream (s : State) (c t : Nat) (e : EntryBits) (kind : StreamDesc → XKind) : State :=
  let d := streamDesc (s.descOf c t (ef e 215 208))
  match s.streamBase c t e d with
  | none => s.schedFault c t (s.tile c t).pos 5 11
  | some a => s.issueXfer c t e (ef e 207 205) (some (ef e 204 199)) (kind d) d.size d.rate (segsOf (d.runs a)) d.cache

/-- STREAM_IN (R57, R221). -/
def execStreamIn (c t : Nat) (s : State) : Out :=
  match s.dueClass c t 0x30 with
  | none => .next s
  | some e => .next (s.issueStream c t e fun d => .streamIn (ef e 198 187) (ef e 186 185) d.elem d.row)

/-- STREAM_OUT (R57, R221). -/
def execStreamOut (c t : Nat) (s : State) : Out :=
  match s.dueClass c t 0x31 with
  | none => .next s
  | some e => .next (s.issueStream c t e fun d => .streamOut (ef e 198 187) (ef e 186 185) d.elem d.row d.atop d.shadow)

/-! ## Message channels (R90, R193 to R195) -/

/-- Send endpoint `k` of a tile. -/
def State.txEp (s : State) (c t k : Nat) : TxEp := Table.getD TxEp.init (s.tile c t).tx k

/-- The state with a send endpoint changed. -/
def State.modTx (s : State) (c t k : Nat) (f : TxEp → TxEp) : State :=
  s.modTile c t fun x => { x with tx := Table.put TxEp.init x.tx k (f (Table.getD TxEp.init x.tx k)) }

/-- Receive endpoint `k` of a tile. -/
def State.rxEp (s : State) (c t k : Nat) : RxEp := Table.getD RxEp.init (s.tile c t).rx k

/-- The state with a receive endpoint changed. -/
def State.modRx (s : State) (c t k : Nat) (f : RxEp → RxEp) : State :=
  s.modTile c t fun x => { x with rx := Table.put RxEp.init x.rx k (f (Table.getD RxEp.init x.rx k)) }

/-- One attempt of the message of a send endpoint: a transfer (R90). -/
def State.attempt (s : State) (c t k : Nat) : State :=
  let x := s.txEp c t k
  s.startXfer c t x.position none none (.message k) x.len x.rate [] false

/-- SEND (R90). -/
def execSend (c t : Nat) (s : State) : Out :=
  match s.dueClass c t 0x38 with
  | none => .next s
  | some e =>
    let k := ef e 194 191
    let p := (s.tile c t).pos
    if (s.txEp c t k).busy then .next (s.schedFault c t p 2 2)
    else
      .next (((s.modTx c t k fun x =>
        { x with
          busy := true
          target := ef e 215 199
          rxEp := ef e 198 195
          len := ef e 190 183 + 1
          srcLine := ef e 182 171
          ackCtr := ef e 170 165
          retries := ef e 164 161
          rgap := ef e 160 149
          rate := ef e 148 133
          position := p
          lastTry := s.now
          nackAt := none }).attempt c t k).issue c t e)

/-- SEND_RETRY (R90): RGAP cycles after the attempt before it, a negatively acknowledged message is tried again; the wait is counted in
CTX_CHSTALL. -/
def execSendRetry (c t ep : Nat) (s : State) : Out :=
  let x := s.txEp c t ep
  match x.nackAt with
  | none => .next s
  | some n =>
    if !x.busy ∨ s.now < x.lastTry + x.rgap ∨ s.now < n then .next s
    else
      let key := chanKey c t ep false
      .next (((s.noteCount key 53 (s.countedIn key 53 + (s.now - n))).modTx c t ep fun y =>
        { y with
          nackAt := none
          lastTry := s.now
          retries := y.retries - 1
          stall := BitVec.ofNat 32 (satPlus 32 y.stall.toNat (s.now - n)) }).attempt c t ep)

/-- RECV (R193, R194): the endpoint is armed from the next cycle. -/
def execRecv (c t : Nat) (s : State) : Out :=
  match s.dueClass c t 0x39 with
  | none => .next s
  | some e =>
    let k := ef e 215 212
    if (s.rxEp c t k).armed then .next (s.schedFault c t (s.tile c t).pos 2 2)
    else
      .next ((s.modRx c t k fun x =>
        { x with
          armed := true
          fromCycle := s.now + 1
          combine := false
          ctr := ef e 211 206
          dstLine := ef e 205 194
          maxLen := ef e 193 186 + 1
          hdrLine := ef e 185 174
          got := []
          sumAt := none }).issue c t e)

/-- COMBINE (R195): the endpoint gathers from the next cycle. -/
def execCombine (c t : Nat) (s : State) : Out :=
  match s.dueClass c t 0x3A with
  | none => .next s
  | some e =>
    let k := ef e 215 212
    if (s.rxEp c t k).armed then .next (s.schedFault c t (s.tile c t).pos 2 2)
    else
      .next ((s.modRx c t k fun x =>
        { x with
          armed := true
          fromCycle := s.now + 1
          combine := true
          ctr := ef e 211 206
          dstLine := ef e 205 194
          maxLen := ef e 193 186 + 1
          nsend := ef e 185 180 + 1
          fmt := ef e 179 178
          got := []
          sumAt := none }).issue c t e)

/-! ## Stage links (R173, R174, R183, R192) -/

/-- QPUSH (R173, R174): LINK_MISMATCH where the table no longer allows it. -/
def execQpush (c t : Nat) (s : State) : Out :=
  match s.dueClass c t 0x40 with
  | none => .next s
  | some e =>
    let l := ef e 215 206
    let n := ef e 191 180 + 1
    match Table.get? (s.ctx c).links l with
    | none => .next (s.ctxFault c 5)
    | some k =>
      if !k.txEn ∨ k.maxLen < n then .next (s.ctxFault c 5)
      else
        let mb := ef e 179 164 + if eb e 147 then (s.tile c t).pass else 0
        let ver := if eb e 146 then (s.launchVer c (ef e 145 141)).toNat else ef e 163 148
        .next (s.issueXfer c t e (ef e 124 122) none (.qpush l (ef e 203 192) n (mb % 2 ^ 16) ver k.remote) (n * 64) (ef e 140 125) [] false)

/-- QPOP (R174, R183): LINK_MISMATCH where the table no longer allows it. -/
def execQpop (c t : Nat) (s : State) : Out :=
  match s.dueClass c t 0x41 with
  | none => .next s
  | some e =>
    let l := ef e 215 206
    let n := ef e 184 173 + 1
    match Table.get? (s.ctx c).links l with
    | none => .next (s.ctxFault c 5)
    | some k =>
      if !k.rxEn ∨ k.maxLen < n then .next (s.ctxFault c 5)
      else
        let mb := ef e 172 157 + if eb e 156 then (s.tile c t).pass else 0
        .next (s.issueXfer c t e (ef e 205 203) (some (ef e 202 197))
          (.qpop l (ef e 196 185) n (mb % 2 ^ 16) (eb e 155) (eb e 154) (ef e 153 152) (ef e 151 140)) (n * 64) (ef e 139 124) [] false)

end Sys2Proof.Machine
end

