-- ==== Sys2Proof/Machine/Accept.lean ====
section
/-! DEFINITION. Acceptance of a transfer (R57, R173, R174, R183, R220, R233, R379): credits and buffer space, the addresses it
moves, its source data, path bound and deadline. -/

namespace Sys2Proof.Machine

/-! ## Stream buffer (R220) -/

/-- A transfer between stacked memory and a scratchpad. -/
def XKind.isStream (k : XKind) : Bool :=
  match k with
  | .streamIn _ _ _ _ | .streamOut _ _ _ _ _ _ | .gather _ _ | .scatter _ _ | .clear _ _ => true
  | _ => false

/-- The first chunk of a transfer. -/
def Xfer.chunk (x : Xfer) : Nat := min 4096 x.size

/-- The chunk that a request belongs to. -/
def Seg.chunk (g : Seg) : Nat := g.off / 4096

/-- Bytes of chunk `j` of a transfer that its requests have still to move. -/
def Xfer.chunkLeft (x : Xfer) (j : Nat) : Nat :=
  ((x.segs.zipIdx.filter fun g => decide (g.1.chunk = j ∧ g.2 ∉ x.landed)).map fun g => g.1.len).sum

/-- Stream buffer that an accepted transfer holds: its chunks on their way, less what has reached the scratchpad or the slice (R220). -/
def Xfer.held (x : Xfer) : Nat := (x.chunks.map x.chunkLeft).sum

/-- Stream buffer that the transfers of a tile hold. -/
def State.bufferUsed (s : State) (c t : Nat) : Nat :=
  ((s.ctx c).xfers.map fun e => if e.2.tile = t ∧ e.2.kind.isStream ∧ e.2.inFlight then e.2.held else 0).sum

/-- The first chunk of stream transfer `id` fits, and none issued before it by its tile waits (R220). -/
def State.bufferOk (s : State) (c id : Nat) (x : Xfer) : Bool :=
  ((s.ctx c).xfers.all fun e => !(decide (e.2.tile = x.tile) && e.2.kind.isStream && decide (e.1 < id) && !e.2.inFlight))
    && decide (s.bufferUsed c x.tile + x.chunk ≤ if s.bufLimited then 32768 else 65536)

/-- The chunk of a request of an accepted transfer has its place in the stream buffer, or finds one (R220): a later chunk may use the whole
64 KiB. -/
def State.chunkOk (s : State) (c : Nat) (x : Xfer) (g : Seg) : Bool :=
  !x.kind.isStream || decide (g.chunk ∈ x.chunks) || decide (s.bufferUsed c x.tile + x.chunkLeft g.chunk ≤ 65536)

/-! ## Addresses -/

/-- The requests of an access by DPA: SHADOW_RANGE (12) for a shadow write outside every region, XLATE_FAULT (20) where translation
faults (R233, R234, R379). -/
def State.resolve (s : State) (c : Nat) (write shadow : Bool) : List Seg → Nat ⊕ List Seg
  | [] => .inr []
  | g :: r =>
    match s.redirect c g.addr shadow with
    | none => .inl 12
    | some a =>
      match s.xlate c a write with
      | none => .inl 20
      | some d =>
        match s.resolve c write shadow r with
        | .inl e => .inl e
        | .inr l => .inr ({ g with addr := d } :: l)

/-- The stacks of a list of requests. -/
def stacksOfSegs (l : List Seg) : List Nat := l.foldl (fun a g =>
  match stackOf g.addr with
  | none => a
  | some t => insertNat t a) []

/-- The elements that a memory transfer of a die crosses (R445). -/
def State.memElems (s : State) (d : Nat) (l : List Seg) : List Elem :=
  (stacksOfSegs l).flatMap fun t => .stack t :: s.edges2 d (thatchDie t)

/-- The pages of a shadow write are marked WRITTEN, and UNDO is cleared in the snapshot record, where one stands at CTX_SNAP_ADDR (R233,
R345). -/
def State.markShadow (s : State) (c : Nat) (l : List Seg) : State :=
  let a := (s.reg (ctxA c Off.CTX_SNAP_ADDR)).toNat
  let s1 :=
    if a ≠ 0 ∧ s.vaRead c a 4 = some (leBytes 4 0x55565352) then
      match s.vaByte c (a + 4) with
      | none => s
      | some b => if bitAt b.toNat 0 then s.vaWrite c (a + 4) [BitVec.ofNat 8 (b.toNat - 1)] else s
    else s
  forAll l (fun g t =>
    match t.regionOf c g.addr with
    | none => t
    | some (r, k) => t.setNibble c r.state k (nibBit (t.nibble c r.state k) 1 true)) s1

/-! ## What acceptance finds -/

/-- What a transfer has when it is accepted: requests, source data, path bound in ns, the elements its route crosses, and whether it
has a deadline at all. -/
structure Accept where
  segs : List Seg
  buf : List Byte
  poison : List (Nat × Nat)
  boundNs : Nat
  crosses : List Elem
  contracted : Bool
deriving DecidableEq, Repr

/-- The outcome of an attempt to accept: it waits, it is discarded, the context faults, or it is taken. -/
inductive Prep where
  | wait
  | drop (s : State)
  | fault (s : State) (code : Nat)
  | go (s : State) (a : Accept)
deriving DecidableEq, Repr

/-- A memory transfer: its addresses resolved; a poisoned or absent stack shows only when a request reaches it. -/
def State.prepMem (s : State) (c : Nat) (x : Xfer) (segs : List Seg) (write shadow : Bool) (buf : List Byte)
    (poison : List (Nat × Nat)) : Prep :=
  match s.resolve c write shadow segs with
  | .inl e => .fault s e
  | .inr l =>
    let s1 := forAll segs (fun g t => t.fillTlb c ((s.redirect c g.addr shadow).getD 0)) s
    let s2 := if shadow then s1.markShadow c segs else s1
    .go s2 ⟨l, buf, poison, 1500, s.memElems (s.tileDie c x.tile) l, true⟩

/-- A SIGNAL or message to a tile: bound by Batten hops; without a route it is discarded (R57, R327). -/
def State.prepTile (s : State) (c : Nat) (x : Xfer) (target : Nat) (buf : List Byte) (poison : List (Nat × Nat)) : Prep :=
  let a := s.tileDie c x.tile
  let b := s.tileDie c target
  match s.purlin a b with
  | none => .drop (s.unreach a b)
  | some _ => .go s ⟨[], buf, poison, 60 + 16 * s.hops a b, s.edges2 a b, true⟩

/-- A transfer to another package on class `cls`: NO_ROUTE (16) without a direct entry, PEER_LOST (17) while the link is DOWN
(R294, R312), discarded where no route leads to the Eave die (R327); no deadline while the peer is in keep-alive (R411). -/
def State.prepLink (s : State) (c : Nat) (x : Xfer) (node key cls : Nat) (segs : List Seg) (buf : List Byte)
    (poison : List (Nat × Nat)) (more : List Elem) : Prep :=
  match Table.get? s.routes node with
  | none => .fault (s.dropNoRoute (Config.eaveFor (s.tileDie c x.tile) node).val) 16
  | some _ =>
    let d := s.tileDie c x.tile
    let e := (s.activePort key).map portDie
    if (s.link key).down then .fault s 17
    else if e.any fun p => s.unreachable d p then .drop (s.unreach d (e.getD 0))
    else
      let edges := match e with
        | none => []
        | some p => s.edges2 d p
      .go s ⟨segs, buf, poison, s.linkBound node cls, more ++ .linkClass key cls :: edges, !s.kaliveOn key cls⟩

/-- The words of a packet as a QPUSH reads them. -/
def State.packetBytes (s : State) (c : Nat) (x : Xfer) (line len : Nat) : List Byte × List (Nat × Nat) :=
  s.takeLinear (s.padBase c x.tile) (line * 64) (len * 64)

/-- The flow state of a link as seen at a producer in the package: OFF reaches every engine within 100 ns (R179). -/
def State.localOff (s : State) (q : Queue) : Bool := q.off && decide (q.offAt + s.cyc 100 ≤ s.now)

/-- The die of a receive half's queue (R170). -/
def StageLink.die (k : StageLink) : Nat := if k.qEave then eaveDie k.qDie else thatchDie k.qDie

/-- Even parity of each 64-bit lane of a word (table *Queue-block properties*). -/
def parityOf (data : List Byte) : BitVec 8 :=
  BitVec.ofNat 8 (((List.range 8).map fun i =>
    popcount (BitVec.ofNat 64 (leNat ((data.drop (8 * i)).take 8))) % 2 * 2 ^ i).sum)

/-- The header of a popped packet (table *Packet header*). -/
def packetHeader (p : Packet) (maxLen : Nat) : Nat :=
  p.mb.toNat + p.ver.toNat * 2 ^ 16 + (p.words.length - 1) * 2 ^ 32 + b2n (p.words.any (·.poison)) * 2 ^ 44
    + b2n (decide (maxLen < p.words.length)) * 2 ^ 45

/-- A word is delivered with its poison tag set: stored so, or its parity fails (R177). -/
def QWord.bad (w : QWord) : Bool := w.poison || decide (w.parity ≠ parityOf w.data)

/-- The die of the queue that a QPOP of link `l` reads. -/
def State.queueDie (s : State) (c l : Nat) (x : Xfer) : Nat :=
  match Table.get? (s.ctx c).links l with
  | none => s.tileDie c x.tile
  | some k => k.die

/-- A QPOP takes the packet at the head of the queue (R183 to R185): faults QUEUE_UNDERRUN (7), MB_GAP (9), MB_STALE (10),
PKT_LONG (8). The buffer holds the header and then the words. From a queue that no route leads to it completes with poison: the header and
MAXLEN words, poisoned (R327; log 106). -/
def State.prepPop (s : State) (c link maxLen expMb : Nat) (check trunc : Bool) (x : Xfer) : Prep :=
  let q := s.queue c link
  let d := s.queueDie c link x
  if s.unreachable (s.tileDie c x.tile) d then
    .go (s.unreach (s.tileDie c x.tile) d) ⟨[], List.replicate (8 + 64 * maxLen) 0, [(0, 8 + 64 * maxLen)], 1500, [], true⟩
  else match q.packets with
  | [] => .fault s 7
  | p :: rest =>
    if check ∧ p.mb.toNat ≠ expMb then .fault s (if laterMod 16 p.mb.toNat expMb then 9 else 10)
    else if maxLen < p.words.length ∧ !trunc then .fault s 8
    else
      let ws := p.words.take maxLen
      let hdr := packetHeader { p with words := p.words.map fun w => { w with poison := w.bad } } maxLen
      let fails := (ws.filter fun w => decide (w.parity ≠ parityOf w.data)).length
      let k := qcountKey c link
      let s0 := (s.noteCount k 0 (s.countedIn k 0 + 1)).noteCount k 32 (s.countedIn k 32 + fails)
      let s1 := s0.modQueue c link fun q =>
        { q with
          packets := rest
          reads := q.reads ++ [(s.now, p.words.length)]
          lastMb := p.mb
          lastVer := p.ver
          popped := q.popped + 1
          parityFails := BitVec.ofNat 32 (satPlus 32 q.parityFails.toNat fails) }
      .go s1 ⟨[], leBytes 8 hdr ++ ws.flatMap (·.data),
        (ws.zipIdx).filterMap fun w => if w.1.bad then some (8 + 64 * w.2, 64) else none, 1500,
        s.edges2 (s.tileDie c x.tile) d, true⟩

/-- The source rows of a SLOT_SCATTER and their poison, by line (R160, R162, R166). -/
def State.scatterSource (s : State) (base : Nat) (e : EntryBits) (d : Bits512) (l : List Visit) : List Byte × List (Nat × Nat) :=
  let n := rowBytes d
  (l.flatMap fun v => if v.hit then s.scatterRow base e d v else List.replicate n 0,
   (l.filter (·.hit)).flatMap fun v =>
    (s.takeLinear base (ef e 164 153 * 64 + v.row * n) n).2.map fun r => (v.row * n + r.1, r.2))

/-- The key and class of the link that a collective piece to a member takes. -/
def Group.nodeOf (g : Group) (member : Nat) : Nat := g.members.getD member 0

/-- The lane key of mirrored page `k` towards a node, or the logical link's (R352). -/
def State.mirrorKey (s : State) (node k : Nat) : Nat :=
  match Table.get? s.routes node with
  | none => linkKey node
  | some r => if popcount r.lanes = 0 then linkKey node else laneKey node (k % popcount r.lanes)

/-- The elements that a mirrored page crosses: its stacks, and the edges between them and the Eave die of the active port of its link (R349,
R445). -/
def State.mirrorElems (s : State) (key : Nat) (l : List Seg) : List Elem :=
  (stacksOfSegs l).flatMap fun t => .stack t :: ((s.activePort key).map fun p => s.edges2 (thatchDie t) (portDie p)).getD []

/-- It is the turn of the instance with pool ordinal `ord` to use its pool's staging: every earlier instance of the pool has ended at this member
(R280). -/
def State.poolTurn (s : State) (c : Nat) (g : Group) (ord : BitVec 32) : Bool :=
  g.pool = 0 || !(s.ctx c).insts.any fun e =>
    (Table.get? s.groups e.2.group).any (fun h => decide (h.ctx = c ∧ h.pool = g.pool)) && earlierMod 32 e.2.poolOrd.toNat ord.toNat

/-- What transfer `x` finds when it could be accepted now. A collective piece waits for its pool's turn and for the neighbour's credit (R271,
R279, R280). GATHER, SCATTER and CLEAR read their map here, SCATTER its rows, and count
CTX_SLOT_EMPTY (R163): the manual does not say in which cycle (log 97). -/
def State.prepare (s : State) (c : Nat) (x : Xfer) : Prep :=
  let base := s.padBase c x.tile
  match x.kind with
  | .streamIn _ _ _ _ => s.prepMem c x x.segs false false [] []
  | .streamOut line layout elem row atop shadow =>
    let src := if layout = 1 then s.takeDiag base line elem row x.size
      else s.takeLinear base (line * 64) (if atop = 9 then 2 * x.size else x.size)
    s.prepMem c x x.segs true shadow src.1 src.2
  | .gather e d =>
    let l := s.slotVisits base e
    let n := rowBytes d
    match s.prepMem c x (visitSegs d false l) false false (List.replicate x.size 0)
        ((l.filter (·.poison)).map fun v => (v.row * n, n)) with
    | .go t a => .go (t.cWrap c Off.CTX_SLOT_EMPTY 63 0 (l.filter fun v => !v.hit).length) a
    | p => p
  | .scatter e d =>
    let l := s.slotVisits base e
    let src := s.scatterSource base e d l
    match s.prepMem c x (visitSegs d true l) true false src.1 src.2 with
    | .go t a => .go (t.cWrap c Off.CTX_SLOT_EMPTY 63 0 (l.filter fun v => !v.hit).length) a
    | p => p
  | .clear e d =>
    let l := s.clearVisits base e
    let n := rowBytes d
    s.prepMem c x (visitSegs d true l) true false (List.replicate x.size 0)
      ((l.filter (·.poison)).map fun v => (v.row * n, n))
  | .refill _ _ => s.prepMem c x x.segs false false [] []
  | .signal target _ _ => s.prepTile c x target [] []
  | .message ep =>
    let k := s.txEp c x.tile ep
    let src := s.takeLinear base (k.srcLine * 64) k.len
    s.prepTile c x k.target src.1 src.2
  | .ack _ _ _ => .wait
  | .qpush link line len _ _ remote =>
    let src := s.packetBytes c x line len
    match Table.get? (s.ctx c).links link with
    | none => .fault s 5
    | some k =>
      if remote then
        if (s.queue c link).seenOff then .wait
        else s.prepLink c x k.destNode (linkKey k.destNode) 2 [] src.1 src.2 []
      else if s.localOff (s.queue c link) then .wait
      else if s.unreachable (s.tileDie c x.tile) k.die then .drop (s.unreach (s.tileDie c x.tile) k.die)
      else .go s ⟨[], src.1, src.2, 400, s.edges2 (s.tileDie c x.tile) k.die, true⟩
  | .qpop link _ maxLen expMb check trunc _ _ => s.prepPop c link maxLen expMb check trunc x
  | .piece gi epoch member m _ | .ringPass gi epoch member m _ =>
    match (Table.get? s.groups gi).filter fun g => g.epoch = epoch with
    | none => .drop s
    | some g =>
      if s.poolTurn c g m.ordinal && Config.peerCredit s.now (g.nodeOf member) gi m.seq m.tile then
        s.prepLink c x (g.nodeOf member) (linkKey (g.nodeOf member)) g.cls [] [] [] []
      else .wait
  | .mirrorPage page =>
    let node := s.cf c Off.CTX_MIR_OUT 20 1
    match s.resolve c false false x.segs with
    | .inl e => .fault s e
    | .inr l =>
      let key := s.mirrorKey node page
      match s.prepLink c x node key 5 l (List.replicate 65536 0) [] [] with
      | .go t a => .go t { a with
          crosses := .linkClass key 5 :: s.mirrorElems key l
          contracted := a.contracted && decide (x.rate ≠ 0) }
      | p => p

/-! ## Frames of a transfer to another package -/

/-- The bytes of a list cut into pieces of `n`. -/
def cutBytes (n : Nat) (b : List Byte) : List (List Byte) :=
  (List.range (ceilDiv b.length n)).map fun i => (b.drop (n * i)).take n

/-- The POISON word of a payload: bit i when any of its bytes 64i to 64i + 63 is poisoned; `off` is where the payload starts in the
poisoned ranges (R290). -/
def poisonWord (poison : List (Nat × Nat)) (off len : Nat) : Word :=
  BitVec.ofNat 64 (((List.range (ceilDiv len 64)).map fun i => b2n (anyRange poison (off + 64 * i) (min 64 (len - 64 * i))) * 2 ^ i).sum)

/-- The packet record of a stage-link packet (section *Link layer frames*). -/
def packetRecord (mb ver len : Nat) : List Byte :=
  leBytes 2 mb ++ leBytes 2 ver ++ leBytes 2 (len - 1) ++ List.replicate 58 0

/-- The STAGE frames of a packet. -/
def State.stageFrames (s : State) (c : Nat) (k : StageLink) (mb ver len : Nat) (buf : List Byte) (poison : List (Nat × Nat)) : List Frame :=
  let all := packetRecord mb ver len ++ buf
  let sh := poison.map fun r => (r.1 + 64, r.2)
  let parts := cutBytes 4096 all
  (parts.zipIdx).map fun p =>
    ⟨{ s.header k.destNode 2 1 k.destLink c 0 p.1.length (decide (p.2 + 1 = parts.length)) with
        poison := poisonWord sh (4096 * p.2) p.1.length }, .raw p.1⟩

/-- Bytes of a collective part that one frame carries beside its tag (log 31). -/
def collData : Nat := 4032

/-- The frames of a part of a collective piece (type 2), or of a RING_PASS area (type 3). -/
def State.collFrames (s : State) (c typ node : Nat) (gi : Nat) (g : Group) (m : CollMsg) (poison : List (Nat × Nat)) : List Frame :=
  let parts := cutBytes collData m.data
  (parts.zipIdx).map fun p =>
    ⟨{ s.header node g.cls typ gi c g.epoch (64 + p.1.length) (decide (m.off + collData * p.2 + p.1.length = m.total)) with
        poison := poisonWord (poison.map fun r => (r.1 + 64, r.2)) (collData * p.2) (64 + p.1.length) },
      .coll { m with off := m.off + collData * p.2, data := p.1 }⟩

/-- The frames that leave when transfer `id` is accepted are put at the end of their class. -/
def State.sendAccepted (s : State) (c id : Nat) (x : Xfer) (a : Accept) : State :=
  match x.kind with
  | .qpush link _ len mb ver true =>
    match Table.get? (s.ctx c).links link with
    | none => s
    | some k =>
      forAll (s.stageFrames c k mb ver len a.buf a.poison) (fun f t => t.enqueue (linkKey k.destNode) f (some (c, id))) s
  | .piece gi _ member m p =>
    match Table.get? s.groups gi with
    | none => s
    | some g =>
      forAll (s.collFrames c 2 (g.nodeOf member) gi g m p)
        (fun f t => t.enqueue (linkKey (g.nodeOf member)) f (some (c, id))) s
  | .ringPass gi _ member m p =>
    match Table.get? s.groups gi with
    | none => s
    | some g =>
      forAll (s.collFrames c 3 (g.nodeOf member) gi g m p)
        (fun f t => t.enqueue (linkKey (g.nodeOf member)) f (some (c, id))) s
  | _ => s

/-! ## Packets of a transfer (R315) -/

/-- The die on whose behalf the requests of a transfer go: its tile's, of a mirrored page the Eave die that its frames leave from (R349). -/
def State.homeDie (s : State) (c : Nat) (x : Xfer) : Nat :=
  match x.kind with
  | .mirrorPage page => ((s.activePort (s.mirrorKey (s.cf c Off.CTX_MIR_OUT 20 1) page)).map portDie).getD (s.tileDie c x.tile)
  | _ => s.tileDie c x.tile

/-- The requests of a memory transfer leave for their stacks on class 0; a write takes its data along (R315, table *Purlin classes*). -/
def State.departRequests (s : State) (c id : Nat) (x : Xfer) (segs : List Seg) (write : Bool) : State :=
  forAll segs.zipIdx (fun g t =>
    match stackOf g.1.addr with
    | none => t
    | some k => t.inject (s.homeDie c x) (thatchDie k) 0 (c, id) g.2 (if write then g.1.len else 0) none) s

/-- Packets leave for the Eave die that a link goes through now. -/
def State.departEave (s : State) (c id : Nat) (x : Xfer) (key cls n : Nat) : State :=
  match s.activePort key with
  | none => s
  | some p => s.inject (s.tileDie c x.tile) (portDie p) cls (c, id) 0 n none

/-- The packets of an accepted transfer enter Purlin (table *Purlin classes*). -/
def State.depart (s : State) (c id : Nat) (x : Xfer) (a : Accept) : State :=
  let d := s.tileDie c x.tile
  match x.kind with
  | .streamIn _ _ _ _ | .gather _ _ | .refill _ _ | .mirrorPage _ => s.departRequests c id x a.segs false
  | .streamOut _ _ _ _ _ _ | .scatter _ _ | .clear _ _ => s.departRequests c id x a.segs true
  | .signal target _ _ => s.inject d (s.tileDie c target) 4 (c, id) 0 0 none
  | .message ep => s.inject d (s.tileDie c (s.txEp c x.tile ep).target) 4 (c, id) 0 a.buf.length none
  | .ack _ _ _ => s
  | .qpush link _ len _ _ remote =>
    match Table.get? (s.ctx c).links link with
    | none => s
    | some k => if remote then s.departEave c id x (linkKey k.destNode) 3 (64 * len) else s.inject d k.die 3 (c, id) 0 (64 * len) none
  | .qpop link _ _ _ _ _ _ _ => s.inject d (s.queueDie c link x) 0 (c, id) 0 0 (some (1, a.buf.length))
  | .piece gi _ member m _ | .ringPass gi _ member m _ =>
    match Table.get? s.groups gi with
    | none => s
    | some g => s.departEave c id x (linkKey (g.nodeOf member)) 2 m.data.length

/-! ## Acceptance -/

/-- The deadline of R57 for a transfer accepted now: path bound and size over rate. -/
def State.dueBy (s : State) (c : Nat) (x : Xfer) (boundNs : Nat) : Nat :=
  s.now + ceilDiv (boundNs * 8) (s.planDiv c) + ceilDiv (x.size * 1024) x.rate

/-- The link of a QPUSH. -/
def XKind.pushLink (k : XKind) : Option Nat :=
  match k with
  | .qpush l _ _ _ _ _ => some l
  | _ => none

/-- The transfer is taken: acceptance time, wait, deadline (R57, R60, R173, R445). However many open fault windows it crosses, it gets 100,000
cycles once, while each window that opens during its flight adds 100,000: the manual does not say how two combine (log 95). -/
def State.take (s : State) (c id : Nat) (x : Xfer) (a : Accept) : State :=
  let own := s.dueBy c x a.boundNs
  let base := match x.kind.pushLink with
    | none => own
    | some l => max own (s.queue c l).lastDeadline
  let ext := s.faultWins.any fun w => a.crosses.any fun e => w.hits e
  let free := s.suspended || !a.contracted
  let dl := if free then none else some (base + if ext then 100000 else 0)
  let s1 := s.cWrap c Off.CTX_ACCEPT_WAIT 63 0 (s.now - x.issuedAt)
  let s2 := s1.modXfer c id fun y =>
    { y with
      acceptedAt := some s.now
      boundNs := a.boundNs
      deadline := dl
      baseDeadline := base
      extended := ext && !free
      segs := a.segs
      buf := a.buf
      bufPoison := a.poison
      crosses := a.crosses
      chunks := [0] }
  let s3 := match x.kind.pushLink with
    | none => s2
    | some l => s2.modQueue c l fun q => { q with order := q.order ++ [id], lastDeadline := dl.getD 0 }
  ((s3.sendAccepted c id x a).depart c id x a).refreshPromise c

/-- No QPUSH of a higher logical tile has been accepted on the link in this cycle (R173, R175). -/
def State.pushInOrder (s : State) (c : Nat) (x : Xfer) : Bool :=
  match x.kind.pushLink with
  | none => true
  | some l => s.inOrder (.linkAccept c l) x.tile

/-- A QPUSH has its place in the acceptance order of the cycle. -/
def State.notePush (s : State) (c : Nat) (x : Xfer) : State :=
  match x.kind.pushLink with
  | none => s
  | some l => s.noteOrder (.linkAccept c l) x.tile

/-- TRANSFER_ACCEPT (R57): the transfer is taken once credits, buffer space and flow state allow its first chunk; not while the
sequencers are halted (R414). A transfer of an engine that an ASSIGN occupies may be accepted while the ASSIGN runs: R61 gives the ASSIGN one
of the engine's four places and no more (log 96). -/
def execTransferAccept (c id : Nat) (s : State) : Out :=
  match s.xfer c id with
  | none => .next s
  | some x =>
    if x.inFlight ∨ s.halted ∨ (s.ctx c).phase ≠ .normal ∨ !s.pushInOrder c x then .next s
    else if x.kind.isStream ∧ !s.bufferOk c id x then .next s
    else
      match s.prepare c x with
      | .wait => .next s
      | .drop t => .next (t.dropXfer c id)
      | .fault t code => .next (t.ctxFault c code)
      | .go t a => .next ((t.take c id x a).notePush c x)

end Sys2Proof.Machine
end

