-- ==== Sys2Proof/Machine/MirrorOps.lean ====
section
/-! DEFINITION. The buddy mirror at its source (R348 to R350, R352): mirrored pages, generations, MIRROR frames; the snapshot record
(R343, R344). -/

namespace Sys2Proof.Machine

/-! ## The snapshot record -/

/-- The state that the snapshot record keeps of a context (table *Snapshot record*): NEWEST and ADVANCE of the rings in bytes 72 to
139. -/
def State.ringBytes (s : State) (c : Nat) : List Byte :=
  let r (n : Nat) := Table.get? (s.ctx c).rings n
  ((List.range 32).flatMap fun n => leBytes 2 ((r n).map (·.newest.toNat) |>.getD 0)) ++
  leBytes 4 (((List.range 32).map fun n => b2n (((r n).map (·.advance)).getD false) * 2 ^ n).sum)

/-- Bytes 8 to 47 of the record: CTX_STEP, CTX_RNG_STEP, CTX_DATA_CURSOR, CTX_DATA_STRIDE, CTX_SEED. -/
def State.stepBytes (s : State) (c : Nat) : List Byte :=
  leBytes 8 (s.cf c Off.CTX_STEP 47 0) ++ leBytes 8 (s.cf c Off.CTX_RNG_STEP 47 0)
    ++ leBytes 8 (s.reg (ctxA c Off.CTX_DATA_CURSOR)).toNat ++ leBytes 8 (s.reg (ctxA c Off.CTX_DATA_STRIDE)).toNat
    ++ leBytes 8 (s.reg (ctxA c Off.CTX_SEED)).toNat

/-- Bytes 48 to 71 of the record at a COMMIT: CTX_STEP, CTX_RNG_STEP and CTX_DATA_CURSOR before it. -/
def State.prevBytes (s : State) (c : Nat) : List Byte :=
  leBytes 8 (s.cf c Off.CTX_STEP 47 0) ++ leBytes 8 (s.cf c Off.CTX_RNG_STEP 47 0)
    ++ leBytes 8 (s.reg (ctxA c Off.CTX_DATA_CURSOR)).toNat

/-- The record written at a final decision (R344): `old` is the state before it. -/
def State.writeRecord (s old : State) (c : Nat) (commit : Bool) : State :=
  let a := (s.reg (ctxA c Off.CTX_SNAP_ADDR)).toNat
  if a = 0 then s
  else
    let s1 :=
      if (s.ctx c).snapFresh then
        (s.vaWrite c a (leBytes 4 0x55565352 ++ List.replicate 252 0)).modCtx c fun x => { x with snapFresh := false }
      else s
    let s2 := if commit then (s1.vaWrite c (a + 48) (old.prevBytes c)).vaWrite c (a + 4) (leBytes 4 3) else s1
    (s2.vaWrite c (a + 8) (s.stepBytes c)).vaWrite c (a + 72) (s.ringBytes c)

/-! ## Mirrored pages (R348) -/

/-- A mirrored page: its address in the context, and whether it changed at the last COMMIT (R349). -/
structure MPage where
  va : Nat
  changed : Bool
deriving DecidableEq, Repr

/-- The pages of the parameter sets and of the NEWEST slots of the rings that two masks name, in index order (R348, R388). -/
def State.maskPages (s : State) (c : Nat) (sets : Word) (rings : Nat) : List MPage :=
  ((List.range 64).flatMap fun p =>
    if sets.getLsbD p then
      match s.region c p with
      | none => []
      | some r => (List.range r.pages).map fun k => MPage.mk (r.vbase + k * 65536) (bitAt (s.nibble c r.state k) 2)
    else []) ++
  ((List.range 32).flatMap fun n =>
    if bitAt rings n then
      match Table.get? (s.ctx c).rings n with
      | none => []
      | some r =>
        if r.valid then
          (List.range (r.stride / 65536)).map fun k => MPage.mk (r.base + r.newest.toNat % r.slots * r.stride + k * 65536) true
        else []
    else [])

/-- The mirrored pages of a context in index order (R348). -/
def State.mirrorPages (s : State) (c : Nat) : List MPage := s.maskPages c (s.reg (ctxA c Off.CTX_MIR_SETS)) (s.cf c Off.CTX_MIR_OUT 52 21)

/-- CTX_MIR_OUT.BUDDY. -/
def State.buddy (s : State) (c : Nat) : Nat := s.cf c Off.CTX_MIR_OUT 20 1

/-- A MIRROR frame to a node on a lane key. -/
def State.mirrorFrame (s : State) (c node key : Nat) (m : MirrorMsg) (last : Bool) (poison : Word) : Frame :=
  ⟨{ s.header node 5 6 0 c 0 (16 + m.data.length) last with
      laned := key % 17 ≠ 0
      lane := key % 17 - 1
      poison := poison }, .mirror m⟩

/-- The bytes of the snapshot record as an end record carries them: zeros where CTX_SNAP_ADDR is 0. -/
def State.recordBytes (s : State) (c : Nat) : List Byte :=
  let a := (s.reg (ctxA c Off.CTX_SNAP_ADDR)).toNat
  if a = 0 then List.replicate 256 0 else (s.vaRead c a 256).getD (List.replicate 256 0)

/-- The end record of a generation, once every page has been sent and acknowledged (R349). -/
def State.endMirror (s : State) (c : Nat) : State :=
  match (s.ctx c).mirrorGen with
  | none => s
  | some g =>
    if g.left = [] ∧ !g.endSent then
      let key := s.mirrorKey (s.buddy c) 0
      (s.enqueue key (s.mirrorFrame c (s.buddy c) key ⟨g.gen, 2, false, false, false, 0, 0, s.recordBytes c⟩ true 0) none).modCtx c
        fun x => { x with mirrorGen := some { g with endSent := true } }
    else s

/-- A mirrored page has been sent and acknowledged. -/
def State.pageSent (s : State) (c page : Nat) : State :=
  (s.modCtx c fun x => { x with mirrorGen := x.mirrorGen.map fun g => { g with left := g.left.filter (· ≠ page) } }).endMirror c

/-- A generation starts at a COMMIT with mirroring enabled (R349): start record, one transfer for each page that changed, and the end
record after them. -/
def State.startMirror (s : State) (c : Nat) : State :=
  if s.cf c Off.CTX_MIR_OUT 0 0 = 0 then s
  else
    let full := (s.ctx c).mirrorFull
    let pages := (s.mirrorPages c).zipIdx.filter fun p => full || p.1.changed
    let gen := BitVec.ofNat 48 (s.cf c Off.CTX_STEP 47 0)
    let key := s.mirrorKey (s.buddy c) 0
    let s1 := (s.enqueue key (s.mirrorFrame c (s.buddy c) key ⟨gen, 0, full, false, false, 0, 0, []⟩ true 0) none).modCtx c fun x =>
      { x with mirrorGen := some ⟨gen, full, pages.map (·.2), false⟩, mirrorFull := false }
    let rate := s.cf c Off.CTX_MIR_RATE 15 0
    (forAll pages (fun p t =>
      t.startXfer c 0 0 none none (.mirrorPage p.2) 65536 rate (splitRun 257 p.1.va 65536 0) false) s1).endMirror c

/-- The frames of a mirrored page that has been read (R349). -/
def State.mirrorFrames (s : State) (c node page : Nat) (gen : BitVec 48) (x : Xfer) : List Frame :=
  let key := s.mirrorKey node page
  let parts := cutBytes 4080 x.buf
  (parts.zipIdx).map fun p =>
    s.mirrorFrame c node key ⟨gen, 1, false, false, false, page, 4080 * p.2, p.1⟩ (decide (p.2 + 1 = parts.length))
      (poisonWord (x.bufPoison.map fun r => (r.1 + 16, r.2)) (4080 * p.2) (16 + p.1.length))

/-- A mirrored page that has been read whole goes out (R349). -/
def State.sendPage (s : State) (c id : Nat) : State :=
  match s.xfer c id with
  | none => s
  | some x =>
    match x.kind, (s.ctx c).mirrorGen with
    | .mirrorPage page, some g =>
      if x.landed.length = x.segs.length then
        forAll (s.mirrorFrames c (s.buddy c) page g.gen x)
          (fun f t => t.enqueue (s.mirrorKey (s.buddy c) page) f (some (c, id))) s
      else s
    | _, _ => s

end Sys2Proof.Machine
end

