-- ==== Sys2Proof/Machine/Arrive.lean ====
section
/-! DEFINITION. Arrival of transfers (R57, R59, R60), messages and acknowledgements (R90, R193 to R196), plan refills (R93), the queue
block's events (R175 to R181). -/

namespace Sys2Proof.Machine

/-! ## Misses (R59, R60) -/

/-- A transfer that arrives now is counted when it is late: a contract miss against its deadline, or without a deadline a late arrival
against its unextended one. -/
def State.countLate (s : State) (c : Nat) (x : Xfer) : State :=
  match x.deadline with
  | some d => s.countMiss c d
  | none =>
    match x.kind with
    | .mirrorPage _ => if x.rate ≠ 0 ∧ x.baseDeadline < s.now then s.cSat c Off.CTX_SUSP_LATE 31 0 1 else s
    | _ => if x.baseDeadline < s.now then s.cSat c Off.CTX_SUSP_LATE 31 0 1 else s

/-- A frame of a transfer waits to be sent or is held for retransmission. -/
def State.framesOut (s : State) (c id : Nat) : Bool :=
  s.links.any fun l => l.2.classes.any fun k =>
    k.2.txq.any (fun f => f.owner = some (c, id)) || k.2.held.any fun f => f.owner = some (c, id)

/-- Every request of a transfer has been served. -/
def Xfer.served (x : Xfer) : Bool := decide (x.done.length = x.segs.length) && x.waiting.isEmpty

/-- Every packet of a transfer has come to its sink, and none is lost (R326). -/
def State.allHere (s : State) (c id : Nat) (x : Xfer) : Bool := !s.anyOnWay c id && x.lost.isEmpty

/-- A transfer can arrive: accepted in an earlier cycle, its requests served, its packets here, its frames acknowledged, its packet counted. -/
def State.canArrive (s : State) (c id : Nat) (x : Xfer) : Bool :=
  (x.acceptedAt.any fun a => decide (a < s.now)) && x.served && s.allHere c id x &&
  (match x.kind with
    | .qpush l _ len _ _ remote =>
      decide ((s.queue c l).order.head? = some id) && if remote then !s.framesOut c id else decide (x.words = len + 1)
    | .piece _ _ _ _ _ | .ringPass _ _ _ _ _ | .mirrorPage _ => !s.framesOut c id
    | .message _ | .ack _ _ _ | .refill _ _ => false
    | _ => true)

/-- A class 0x32 transfer whose output carries poison counts (R166). -/
def State.slotPoison (s : State) (c : Nat) (x : Xfer) : State :=
  if x.bufPoison = [] then s else s.cSat c Off.CTX_POISON_OPS 31 0 1

/-- The rows and records of a SLOT_GATHER in the diagonal layout (R161). -/
def gatherRecs (e : EntryBits) (n : Nat) : List (Nat × Nat) :=
  let cap := ef e 188 177 + 1
  (List.range (ef e 196 189 + 1)).flatMap fun k => (List.range cap).map fun i =>
    ((k * cap + i) * n, k * ceilDiv cap 16 * 16 + i)

/-- What a QPOP puts into scratchpad: words, header, version register, and the count of a poisoned delivery (R177, R183, R190). -/
def State.popDeliver (s : State) (c : Nat) (x : Xfer) (dstLine vload hdrLine : Nat) : State :=
  let base := s.padBase c x.tile
  let words := x.buf.drop 8
  let poison := x.bufPoison.map fun r => (r.1 - 8, r.1 + r.2 - max 8 r.1)
  let s1 := (s.putLinear base (dstLine * 64) words poison).padWrite base (hdrLine * 64) (x.buf.take 8) (anyRange x.bufPoison 0 8)
  let ver := BitVec.ofNat 16 (leNat ((x.buf.drop 2).take 2))
  let s2 := if x.bufPoison = [] then s1 else s1.cSat c Off.CTX_POISON_OPS 31 0 1
  s2.modTile c x.tile fun t =>
    if vload = 1 then { t with vr0 := ver } else if vload = 2 then { t with vr1 := ver } else t

/-- What a transfer leaves at its destination (R109, R160, R161, R183, R217). -/
def State.deliver (s : State) (c : Nat) (x : Xfer) : State :=
  let base := s.padBase c x.tile
  match x.kind with
  | .streamIn line layout elem row =>
    if layout = 1 then s.putDiag base line elem row (recsOf elem row x.size) x.buf x.bufPoison
    else s.putLinear base (line * 64) x.buf x.bufPoison
  | .streamOut line _ _ _ atop _ =>
    if atop = 9 then s.putLinear base (line * 64) (x.buf.take x.size) (x.bufPoison.filter fun r => r.1 < x.size) else s
  | .gather e d =>
    let n := rowBytes d
    let w := streamDesc d
    let s1 :=
      if eb e 144 then s.putDiag base (ef e 164 153) w.elem w.row (gatherRecs e n) x.buf x.bufPoison
      else s.putLinear base (ef e 164 153 * 64) x.buf x.bufPoison
    s1.slotPoison c x
  | .scatter _ _ | .clear _ _ => s.slotPoison c x
  | .qpop _ dst _ _ _ _ vload hdr => s.popDeliver c x dst vload hdr
  | _ => s

/-- What follows the arrival of a transfer: its tokens; for a mirrored page, the end record after the last (R349). -/
def State.giveTokens (s : State) (c : Nat) (x : Xfer) : State :=
  match x.kind with
  | .signal target ctr inc => s.addTokens c target ctr inc
  | .mirrorPage page => s.pageSent c page
  | _ =>
    match x.ctr with
    | none => s
    | some k => s.addTokens c x.tile k 1

/-- A QPUSH is over: it leaves the acceptance order of its link. -/
def State.dropPush (s : State) (c id : Nat) (x : Xfer) : State :=
  match x.kind.pushLink with
  | none => s
  | some l => s.modQueue c l fun q => { q with order := q.order.filter (· ≠ id) }

/-- TRANSFER_ARRIVAL (R57, R59): the last byte is in place and the completion token is added; of a transfer of a context that has been stopped
nothing follows (R401). -/
def execTransferArrival (c id : Nat) (s : State) : Out :=
  match s.xfer c id with
  | none => .next s
  | some x =>
    if !s.canArrive c id x then .next s
    else if x.orphan then .next (s.dropXfer c id)
    else
      .next ((((((s.deliver c x).countLate c x).dropXfer c id).dropPush c id x).giveTokens c x).refreshPromise c)

/-! ## Plan refills (R93, R94) -/

/-- The transfer of a pending refill of tile `t`. -/
def State.refillOf (s : State) (c t id : Nat) : Option (Xfer × Nat × Nat) :=
  (s.xfer c id).bind fun x =>
    match x.kind with
    | .refill seg frame => if x.tile = t then some (x, seg, frame) else none
    | _ => none

/-- PLAN_REFILL_ARRIVE (R93): the frame holds its segment from now on. -/
def execPlanRefillArrive (c t id : Nat) (s : State) : Out :=
  match s.refillOf c t id with
  | none => .next s
  | some (x, seg, frame) =>
    if (x.acceptedAt.any fun a => decide (a < s.now)) && x.served && s.allHere c id x then
      let s1 := s.modTile c t fun y =>
        if (y.frames[frame]?.bind (·.seg)) = some seg then { y with frames := y.frames.set frame ⟨some seg, entriesOf x.buf⟩ } else y
      .next (((s1.countLate c x).dropXfer c id).refreshPromise c)
    else .next s

/-! ## Messages (R90, R193 to R196) -/

/-- What a receive endpoint does with a message that arrives: accepted, or the reason of its negative acknowledgement (R193, R195, table
*Negative-acknowledgement reasons*). -/
def RxEp.judge (r : RxEp) (now src len : Nat) : Option Nat :=
  if !r.armed ∨ now < r.fromCycle then some 1
  else if r.combine then
    if r.got.any fun g => g.1 = src then some 3
    else if r.nsend ≤ r.got.length then some 4
    else if len ≠ r.maxLen then some 5
    else none
  else if r.maxLen < len then some 2
  else none

/-- Cycles in which the sum of a COMBINE is formed and written (R195). -/
def combineCycles (nsend len : Nat) : Nat := nsend + ceilDiv len 64 + 8

/-- The header of a message (table *RECV operands*). -/
def messageHeader (len src : Nat) : Nat := (len - 1) + src * 2 ^ 8

/-- A message accepted at endpoint `k` of tile `u` (R193, R195). -/
def State.acceptMessage (s : State) (c u k : Nat) (x : Xfer) : State :=
  let r := s.rxEp c u k
  let poison := decide (x.bufPoison ≠ [])
  if r.combine then
    s.modRx c u k fun y =>
      let got := y.got ++ [(x.tile, x.buf, poison)]
      { y with
        got := got
        msgs := y.msgs + 1
        sumAt := if got.length = y.nsend then some (s.now + combineCycles y.nsend y.maxLen - 1) else none }
  else
    let base := s.padBase c u
    let s1 := (s.putLinear base (r.dstLine * 64) x.buf x.bufPoison).padWrite base (r.hdrLine * 64)
      (leBytes 8 (messageHeader x.buf.length x.tile)) false
    (s1.modRx c u k fun y => { y with armed := false, msgs := y.msgs + 1 }).addTokens c u r.ctr 1

/-- The message that a transfer carries: target tile and receive endpoint. -/
def State.messageOf (s : State) (c id : Nat) : Option (Xfer × Nat × Nat × Nat) :=
  (s.xfer c id).bind fun x =>
    match x.kind with
    | .message ep => some (x, ep, (s.txEp c x.tile ep).target, (s.txEp c x.tile ep).rxEp)
    | _ => none

/-- What hardware adds to a counter of an endpoint, for a clear in the same cycle (R197). -/
def State.noteChan (s : State) (c t ep : Nat) (rx : Bool) (lo n : Nat) : State :=
  s.noteCount (chanKey c t ep rx) lo (s.countedIn (chanKey c t ep rx) lo + n)

/-- The acknowledgement of a message leaves tile `u` on class 5; where no route leads back it is discarded and counted (R315, R327). -/
def State.departAck (s : State) (c id : Nat) (x : Xfer) (u : Nat) : State :=
  let a := s.tileDie c u
  let b := s.tileDie c x.tile
  match s.purlin a b with
  | none => (s.unreach a b).modXfer c id fun y => { y with lost := [0] }
  | some _ => s.inject a b 5 (c, id) 0 0 none

/-- MESSAGE_ARRIVAL (R193, R195): the message is accepted and acknowledged, or negatively acknowledged with its reason; messages of one cycle
come in rising source logical tile ID. -/
def execMessageArrival (c id : Nat) (s : State) : Out :=
  match s.messageOf c id with
  | none => .next s
  | some (x, ep, u, k) =>
    if (x.acceptedAt.any fun a => decide (a < s.now)) && s.allHere c id x && s.inOrder (.endpoint c u k) x.tile then
      let s := (s.noteOrder (.endpoint c u k) x.tile).departAck c id x u
      match (s.rxEp c u k).judge s.now x.tile x.buf.length with
      | none => .next (((s.modXfer c id fun y => { y with kind := .ack ep true 0 }).acceptMessage c u k x).noteChan c u k true 0 1)
      | some why =>
        .next (((s.modXfer c id fun y => { y with kind := .ack ep false why }).modRx c u k fun y =>
          { y with nacks := BitVec.ofNat 16 (satPlus 16 y.nacks.toNat 1), reason := BitVec.ofNat 3 why }).noteChan c u k true 32 1)
    else .next s

/-- The acknowledgement that a transfer carries. -/
def State.ackOf (s : State) (c id : Nat) : Option (Xfer × Nat × Bool × Nat) :=
  (s.xfer c id).bind fun x =>
    match x.kind with
    | .ack ep ok why => some (x, ep, ok, why)
    | _ => none

/-- The outcome of an attempt at its send endpoint: acknowledged, to be retried, or retries exhausted (R90). -/
def State.messageOutcome (s : State) (c t ep : Nat) (ok : Bool) (why : Nat) : State :=
  let k := s.txEp c t ep
  if ok then
    ((s.noteChan c t ep false 0 1).modTx c t ep fun y => { y with busy := false, msgs := y.msgs + 1, outcome := 1 }).addTokens c t k.ackCtr 1
  else
    let s1 := (s.noteChan c t ep false 32 1).modTx c t ep fun y =>
      { y with nacks := BitVec.ofNat 16 (satPlus 16 y.nacks.toNat 1), reason := BitVec.ofNat 3 why }
    if k.retries = 0 then (s1.modTx c t ep fun y => { y with busy := false, outcome := 2 }).addTokens c t k.ackCtr 1
    else s1.modTx c t ep fun y => { y with nackAt := some s.now }

/-- ACK_ARRIVAL (R90): the attempt is over. -/
def execAckArrival (c id : Nat) (s : State) : Out :=
  match s.ackOf c id with
  | none => .next s
  | some (x, ep, ok, why) =>
    if !s.allHere c id x then .next s
    else .next ((((s.countLate c x).dropXfer c id).messageOutcome c x.tile ep ok why).refreshPromise c)

/-- One element of a sum of contributions, in rising source tile (R196). -/
def combineElem (fmt : Nat) (l : List Nat) : Nat :=
  match l with
  | [] => 0
  | a :: r =>
    if fmt = 2 then (r.foldl (· + ·) a) % 2 ^ 32
    else
      let w (n : Nat) : F32 := toF32 (decodeElem (if fmt = 1 then 2 else 8) n)
      let sum := r.foldl (fun x n => fadd x (w n)) (w a)
      if fmt = 1 then (convTo 2 (f32val sum) none).code else if r = [] then a else sum.toNat

/-- Contributions put in rising source tile. -/
def bySource (x : Nat × List Byte × Bool) : List (Nat × List Byte × Bool) → List (Nat × List Byte × Bool)
  | [] => [x]
  | y :: r => if x.1 ≤ y.1 then x :: y :: r else y :: bySource x r

/-- The sum of a COMBINE's contributions, and whether any was poisoned (R196). -/
def RxEp.sum (r : RxEp) : List Byte × Bool :=
  let w := if r.fmt = 1 then 2 else 4
  let l := r.got.foldr bySource []
  ((List.range (r.maxLen / w)).flatMap fun i =>
      leBytes w (combineElem r.fmt (l.map fun g => leNat ((g.2.1.drop (i * w)).take w))),
   l.any fun g => g.2.2)

/-- COMBINE_SUM (R195): the sum is written, the token added, the endpoint disarmed. -/
def execCombineSum (c t ep : Nat) (s : State) : Out :=
  let r := s.rxEp c t ep
  match r.sumAt with
  | none => .next s
  | some a =>
    if s.now < a then .next s
    else
      let s1 := s.padWrite (s.padBase c t) (r.dstLine * 64) r.sum.1 r.sum.2
      .next ((s1.modRx c t ep fun y => { y with armed := false, combine := false, got := [], sumAt := none }).addTokens c t r.ctr 1)

/-! ## The queue block (R175 to R181) -/

/-- The block is full for the next word: DEPTH words, or 64 whole packets and the word begins another (R181). -/
def Queue.full (q : Queue) (e : StageLink) : Bool :=
  e.depth ≤ q.level || (64 ≤ q.pkts && q.partialWords.isEmpty)

/-- A word that arrives while a tail discard is pending is discarded and counted; its end mark ends the discard (R187). -/
def State.tailWord (s : State) (c l : Nat) (last : Bool) : State :=
  let a := ctxA c Off.CTX_QFLUSH_STS
  let s1 := if s.rf a 41 32 = l then s.sat a 31 0 1 else s
  if last then
    let s2 := s1.modQueue c l fun q => { q with tail := false }
    if s.rf a 41 32 = l then s2.wf a 42 42 1 else s2
  else s1

/-- A producer writes a word into the queue of link `l` of context `c` (R179, R181): QUEUE_OVERRUN (6) when it is full. -/
def State.writeWord (s : State) (c l : Nat) (e : StageLink) (w : QWord) (mb ver : BitVec 16) : State :=
  let q := s.queue c l
  if q.tail then s.tailWord c l w.last
  else if q.full e then (s.modQueue c l fun q => { q with overrun := true }).ctxFault c 6
  else
    let w := { w with at_ := s.now }
    let s1 := s.modQueue c l fun q =>
      if w.last then
        { q with
          written := q.written ++ [⟨q.partialWords ++ [w], if q.partialWords = [] then mb else q.partialMb,
            if q.partialWords = [] then ver else q.partialVer⟩]
          partialWords := []
          enteredAt := some s.now }
      else { q with partialWords := q.partialWords ++ [w], partialMb := mb, partialVer := ver }
    s1.flowUpdate c l

/-- Word `i` of a transfer's packet. -/
def Xfer.word (x : Xfer) (len i : Nat) : QWord :=
  let d := (x.buf.drop (64 * i)).take 64
  ⟨d, parityOf d, decide (i + 1 = len), anyRange x.bufPoison (64 * i) 64, 0⟩

/-- The QPUSH within the package whose words enter the queue of a link next: the first in acceptance order with words left (R175). -/
def State.pusher (s : State) (c l : Nat) : Option (Nat × Xfer × Nat × Nat × Nat) :=
  (s.queue c l).order.findSome? fun id => (s.xfer c id).bind fun x =>
    match x.kind with
    | .qpush k _ len mb ver false => if k = l ∧ x.words < len then some (id, x, len, mb, ver) else none
    | _ => none

/-- A packet may begin: the one before it entered in an earlier cycle (R175). -/
def State.mayEnter (s : State) (c l : Nat) (x : Xfer) : Bool :=
  x.words ≠ 0 || (s.queue c l).enteredAt.all fun a => a < s.now

/-- QUEUE_WORD_WRITE (R181): the next word of QPUSH transfer `id` within the package. -/
def execQueueWordWrite (c link id : Nat) (s : State) : Out :=
  match s.pusher c link, Table.get? (s.ctx c).links link with
  | some (i, x, len, mb, ver), some e =>
    if i = id ∧ s.mayEnter c link x ∧ !s.onWay c id (x.words / 64) ∧ x.words / 64 ∉ x.lost then
      let s1 :=
        if (s.queue c link).tail ∧ x.words + 1 = len then
          (s.dropXfer c id).modQueue c link fun q => { q with order := q.order.filter fun j => j ≠ id }
        else s.modXfer c id fun y => { y with words := y.words + 1 }
      .next (s1.writeWord c link e (x.word len x.words) (BitVec.ofNat 16 mb) (BitVec.ofNat 16 ver))
    else .next s
  | _, _ => .next s

/-- The oldest QPUSH within the package whose words are all written is counted. -/
def State.countPush (s : State) (c l : Nat) : State :=
  match (s.uncounted c l).head? with
  | none => s
  | some id => s.modXfer c id fun y => { y with words := y.words + 1 }

/-- PACKET_ARRIVAL (R178, R173): the consumer counts the packet and the arrival token is added, not before its 2nd edge after the last word. -/
def execPacketArrival (c link : Nat) (s : State) : Out :=
  let q := s.queue c link
  match q.written, Table.get? (s.ctx c).links link with
  | p :: r, some e =>
    if s.now < s.crossedFrom p.enteredAt then .next s else
    let s1 := s.modQueue c link fun q => { q with packets := q.packets ++ [p], written := r }
    let s2 := if e.txEn then s1.countPush c link else s1
    .next (s2.addTokens c e.arrTile e.arrCtr 1)
  | _, _ => .next s

/-- QUEUE_SPACE_FREED (R178, R179): the producer sees as freed the words read, not before its 2nd edge after the read. -/
def execQueueSpaceFreed (c link : Nat) (s : State) : Out :=
  .next ((s.modQueue c link fun q => { q with reads := q.reads.filter fun r => s.now < s.crossedFrom r.1 }).flowUpdate c link)

end Sys2Proof.Machine
end

