-- ==== Sys2Proof/Machine/MemEvents.lean ====
section
/-! DEFINITION. Requests at the Thatch slices: reads, writes and atomics of transfers (R201, R209 to R219, R221), re-reads (R210, R211),
the correction window (R213), refresh (R207). -/

namespace Sys2Proof.Machine

/-! ## Requests -/

/-- Another transfer of the same engine, accepted earlier, still has a request to the block (R221). -/
def State.blockBusy (s : State) (c id : Nat) (x : Xfer) (a : Nat) : Bool :=
  (s.ctx c).xfers.any fun e =>
    x.engine.isSome && decide (e.2.tile = x.tile ∧ e.2.engine = x.engine ∧ e.1 ≠ id) &&
    (match e.2.acceptedAt, x.acceptedAt with
      | some p, some q => decide (p < q ∨ (p = q ∧ e.1 < id))
      | _, _ => false) &&
    (e.2.segs.zipIdx).any fun g => decide (g.1.addr / 256 = a / 256 ∧ g.2 ∉ e.2.done)

/-- Request `k` of transfer `id`, when it can reach its slice now. -/
def State.request (s : State) (c id k : Nat) : Option (Xfer × Seg) :=
  (s.xfer c id).bind fun x => (x.segs[k]?).bind fun g =>
    if x.inFlight ∧ k ∉ x.done ∧ k ∉ x.waiting ∧ !s.onWay c id k ∧ k ∉ x.lost ∧ !s.blockBusy c id x g.addr ∧ s.chunkOk c x g then some (x, g)
    else none

/-- Bytes put into a buffer at an offset; the buffer grows with zeros. -/
def putSlice (b : List Byte) (off : Nat) (d : List Byte) : List Byte :=
  b.take off ++ List.replicate (off - b.length) 0 ++ d ++ b.drop (off + d.length)

/-- Where a request goes: its stack and stack-local address, the wrong kind of window, a stack out of reach, or nothing there. -/
inductive Reach where
  | ok (stack local_ : Nat)
  | wrong (stack : Nat)
  | lost
  | none
deriving DecidableEq, Repr

/-- What the request at DPA `a` from die `d` meets (R199, R201, R230, R326, R327). -/
def State.reach (s : State) (d a : Nat) : Reach :=
  match dpaLoc a with
  | .mem k _ b t l =>
    if s.bandKind b t ≠ k then .wrong t
    else if s.alive (thatchDie t) ∧ (s.purlin d (thatchDie t)).isSome then .ok t l
    else .lost
  | .pad _ _ _ => .none
  | .hole => .none

/-- The die of the stack that a DPA names. -/
def stackDie (a : Nat) : Nat := thatchDie ((stackOf a).getD 0)

/-- A request done: its chunk of the stream buffer was taken with it, and what it has brought to the slice has left the buffer. -/
def Xfer.finish (y : Xfer) (k : Nat) (g : Seg) : Xfer :=
  { y with
    done := insertNat k y.done
    waiting := y.waiting.filter (· ≠ k)
    chunks := insertNat g.chunk y.chunks
    landed := if y.kind.reads then y.landed else insertNat k y.landed }

/-- Bits of a move that come from bits `lo` to `hi - 1` of the buffer: where from, where to, how many. -/
def clipMove (lo hi : Nat) (m : Nat × Nat × Nat) : Option (Nat × Nat × Nat) :=
  let a := max lo m.1
  let b := min hi (m.1 + m.2.2)
  if a < b then some (a, m.2.1 + (a - m.1), b - a) else none

/-- Bytes `off` to `off + n - 1` of a buffer put into the diagonal layout. -/
def State.landDiag (s : State) (base line code row : Nat) (recs : List (Nat × Nat)) (off n : Nat) (buf : List Byte)
    (poison : List (Nat × Nat)) : State :=
  let rd (i : Nat) := s.padByte base i
  s.writeMap base (recs.foldl (fun t r =>
    ((diagMoves code row r.2).filterMap fun m => clipMove (8 * off) (8 * (off + n)) (r.1 * 8 + m.1, line * 512 + m.2.1, m.2.2)).foldl
      (fun t m => putBitsT rd t m.2.1 m.2.2 (readBits (bufByte buf) m.1 m.2.2)
        (anyRange poison (m.1 / 8) ((m.1 + m.2.2 - 1) / 8 - m.1 / 8 + 1))) t) [])

/-- Data that a request has read reaches the scratchpad and leaves the stream buffer (R220); the poison of a line that the transfer writes whole
is settled when it arrives (R451). -/
def State.land (s : State) (c : Nat) (x : Xfer) (g : Seg) : State :=
  let base := s.padBase c x.tile
  let data := (x.buf.drop g.off).take g.len
  let bad := (x.bufPoison.filter fun r => g.off < r.1 + r.2 && r.1 < g.off + g.len).map fun r => (r.1 - g.off, r.2)
  match x.kind with
  | .streamIn line layout elem row =>
    if layout = 1 then s.landDiag base line elem row (recsOf elem row x.size) g.off g.len x.buf x.bufPoison
    else s.putLinear base (line * 64 + g.off) data bad
  | .gather e d =>
    let w := streamDesc d
    if eb e 144 then s.landDiag base (ef e 164 153) w.elem w.row (gatherRecs e (rowBytes d)) g.off g.len x.buf x.bufPoison
    else s.putLinear base (ef e 164 153 * 64 + g.off) data bad
  | _ => s

/-- What request `k` of a transfer has read lands, and the last page of a mirror goes out (R220, R349). -/
def State.landOf (s : State) (c id k : Nat) : State :=
  match s.xfer c id with
  | none => s
  | some x =>
    match x.segs[k]? with
    | none => s
    | some g => ((s.land c x g).modXfer c id fun y => { y with landed := insertNat k y.landed }).sendPage c id

/-- The answer to a request leaves the stack on class 1: data, or the completion of a write; what no die has to carry is in place at once
(R315, R327). -/
def State.respond (s : State) (c id k : Nat) (x : Xfer) (g : Seg) : State :=
  let n := if x.kind.reads ∨ x.kind.atop = 9 then g.len else 0
  match s.lanes (stackDie g.addr) (s.homeDie c x) with
  | some (_ :: _) => if (stackOf g.addr).isSome then s.inject (stackDie g.addr) (s.homeDie c x) 1 (c, id) k n none else s.landOf c id k
  | _ => s.landOf c id k

/-- A read request served (R209, R212, R214, R215). -/
def State.serveRead (s : State) (c id k : Nat) (x : Xfer) (g : Seg) : State :=
  let d := s.homeDie c x
  let ps := sectorParts g.addr g.len
  let r : State × List Byte × List (Nat × Nat) :=
    match s.reach d g.addr with
    | .ok t l =>
      let u := s.slice t l g.len false x.cache
      (u, (u.dpaRead g.addr g.len).1, ps.filterMap fun p => if (u.dpaByte p.1).2 then some (g.off + p.2.1, p.2.2) else none)
    | .wrong t => (s.windowErr t, (s.dpaRead g.addr g.len).1, ps.map fun p => (g.off + p.2.1, p.2.2))
    | .lost =>
      (s.unreach d (stackDie g.addr),
       (s.dpaRead g.addr g.len).1, ps.map fun p => (g.off + p.2.1, p.2.2))
    | .none => (s, List.replicate g.len 0, [])
  (((r.1.cWrap c Off.CTX_BYTES_MRD 63 0 g.len).cSat c Off.CTX_MEM_POISON 31 0 r.2.2.length).modXfer c id fun y =>
    { y.finish k g with
      buf := putSlice y.buf g.off r.2.1
      bufPoison := y.bufPoison ++ r.2.2 }).respond c id k x g

/-- A write request served, sector by sector (R212, R214, R222). -/
def State.serveWrite (s : State) (c id k : Nat) (x : Xfer) (g : Seg) : State :=
  let d := s.homeDie c x
  let s1 :=
    match s.reach d g.addr with
    | .ok t l =>
      forAll (sectorParts g.addr g.len) (fun (p : Nat × Nat × Nat) (u : State) =>
        u.dpaPutIn p.1 ((x.buf.drop (g.off + p.2.1)).take p.2.2) (anyRange x.bufPoison (g.off + p.2.1) p.2.2))
        (s.slice t l g.len true x.cache)
    | .wrong t => s.windowErr t
    | .lost => s.unreach d (stackDie g.addr)
    | .none => s
  ((s1.cWrap c Off.CTX_BYTES_MWR 63 0 g.len).modXfer c id fun y => y.finish k g).respond c id k x g

/-! ## Atomics (R215 to R219) -/

/-- Bytes of an element of an atomic operation (table *Atomic operations*). -/
def atomWidth (op : Nat) : Nat := if op = 2 then 2 else if op = 4 ∨ op = 9 then 8 else 4

/-- A number of `w` bits read as two's complement. -/
def signed (w n : Nat) : Int := if n < 2 ^ (w - 1) then n else (n : Int) - 2 ^ w

/-- The value stored by an atomic operation (table *Atomic operations*). -/
def atomFn (op old src cmp : Nat) : Nat :=
  let o : F32 := BitVec.ofNat 32 old
  let x : F32 := BitVec.ofNat 32 src
  match op with
  | 1 => (fadd o x).toNat
  | 2 => (convTo 2 (f32val (fadd (toF32 (decodeElem 2 old)) (toF32 (decodeElem 2 src)))) none).code
  | 3 => (old + src) % 2 ^ 32
  | 4 => (old + src) % 2 ^ 64
  | 5 => (fmax o x).toNat
  | 6 => (fmin o x).toNat
  | 7 => if signed 32 old < signed 32 src then src else old
  | 8 => if signed 32 src < signed 32 old then src else old
  | _ => if old = cmp then src else old

/-- One element at DPA `a` of a sector that its slice reaches: the new state, the old value, whether it comes from poison (R219). -/
def State.atomOne (s : State) (op a : Nat) (src cmp : Nat) (srcBad : Bool) : State × Nat × Bool :=
  let w := atomWidth op
  let r := s.dpaRead a w
  let old := leNat r.1
  if r.2 then (s, old, true)
  else if srcBad then (s.dpaPutIn a r.1 true, old, false)
  else (s.dpaPutIn a (leBytes w (atomFn op old src cmp)) false, old, false)

/-- An atomic request served: its elements one at a time; CAS64 leaves each old value over its compare value (R216, R217). -/
def State.serveAtomic (s : State) (c id k : Nat) (x : Xfer) (g : Seg) : State :=
  let op := x.kind.atop
  let w := atomWidth op
  let n := g.len / w
  let d := s.homeDie c x
  let part (off : Nat) : Nat := leNat ((x.buf.drop off).take w)
  let r : State × List Byte × List (Nat × Nat) :=
    match s.reach d g.addr with
    | .ok t l =>
      let s1 := (s.slice t l g.len false true).wrap (bar0 (thatchDie t) 0 Off.THC_ATOMIC) 63 0 n
      (List.range n).foldl (fun acc i =>
        let off := g.off + i * w
        let bad := anyRange x.bufPoison off w || (op = 9 && anyRange x.bufPoison (x.size + off) w)
        let q := acc.1.atomOne op (g.addr + i * w) (if op = 9 then part (x.size + off) else part off) (part off) bad
        (q.1, acc.2.1 ++ leBytes w q.2.1, if q.2.2 then acc.2.2 ++ [(off, w)] else acc.2.2)) (s1, [], [])
    | .wrong t => (s.windowErr t, (s.dpaRead g.addr g.len).1, [(g.off, g.len)])
    | .lost =>
      (s.unreach d (stackDie g.addr), (s.dpaRead g.addr g.len).1, [(g.off, g.len)])
    | .none => (s, List.replicate g.len 0, [])
  let bads := if op = 9 then
      ((sectorParts g.addr g.len).filter fun p => anyRange r.2.2 (g.off + p.2.1) p.2.2).length
    else 0
  (((r.1.cWrap c Off.CTX_BYTES_MWR 63 0 g.len).cSat c Off.CTX_MEM_POISON 31 0 bads).modXfer c id fun y =>
    { y.finish k g with
      buf := if op = 9 then putSlice y.buf g.off r.2.1 else y.buf
      bufPoison := if op = 9 then y.bufPoison ++ r.2.2 else y.bufPoison }).respond c id k x g

/-! ## Codes and re-reads (R209 to R213) -/

/-- The sectors that a request of a transfer waits for: those that its slice must read from the stack and whose first read cannot be corrected
(R210). -/
def State.mustReread (s : State) (t l n : Nat) (write alloc : Bool) : List Nat :=
  if (s.wayOf t (l / 256)).isSome then []
  else (missReads l n write alloc).filter fun sec =>
    match s.upset t sec with
    | some (.again _) | some .dead => true
    | some (.corrected _) | none => false

/-- A request waits for the re-read of sectors: the fault window of the stack opens (R210, R445). -/
def State.waitReread (s : State) (c id k t : Nat) (secs : List Nat) : State :=
  let s1 := s.modXfer c id fun y => { y with waiting := insertNat k y.waiting }
  ({ s1 with rereads := s1.rereads ++ secs.map fun sec => Reread.mk t sec c id }).openWindow (.stack t)

/-- A transfer's requests allocate a line on a miss: CACHE = 1, or an atomic (R215). -/
def Xfer.allocates (x : Xfer) : Bool := x.cache || decide (x.kind.atop ≠ 0)

/-- A request meets the codes of its stack: a sector that cannot be corrected at once makes it wait (R210); otherwise `go` serves it. -/
def State.meetEcc (s : State) (c id k : Nat) (x : Xfer) (g : Seg) (go : State → State) : State :=
  match s.reach (s.homeDie c x) g.addr with
  | .ok t l =>
    match s.mustReread t l g.len x.kind.writes x.allocates with
    | [] => go s
    | secs => s.waitReread c id k t secs
  | _ => go s

/-- MEMORY_READ (R209, R214). -/
def execMemoryRead (c id k : Nat) (s : State) : Out :=
  match s.request c id k with
  | none => .next s
  | some (x, g) => if x.kind.reads ∧ !s.selfRefresh then .next (s.meetEcc c id k x g fun t => t.serveRead c id k x g) else .next s

/-- MEMORY_WRITE (R212, R214). -/
def execMemoryWrite (c id k : Nat) (s : State) : Out :=
  match s.request c id k with
  | none => .next s
  | some (x, g) => if x.kind.writes ∧ !s.selfRefresh then .next (s.meetEcc c id k x g fun t => t.serveWrite c id k x g) else .next s

/-- The place of an atomic request in the order of those that reach a slice in one cycle of CLK_F: rising source die, then rising logical tile
(R216). -/
def State.atomPlace (s : State) (c : Nat) (x : Xfer) : Nat := s.tileDie c x.tile * 2 ^ 17 + x.tile

/-- The slice that an atomic request reaches has applied none of a later place in this cycle. -/
def State.atomTurn (s : State) (c : Nat) (x : Xfer) (g : Seg) : Bool :=
  match stackOf g.addr with
  | none => true
  | some t => s.inOrder (.stack t) (s.atomPlace c x)

/-- The place of an atomic request noted. -/
def State.noteAtom (s : State) (c : Nat) (x : Xfer) (g : Seg) : State :=
  match stackOf g.addr with
  | none => s
  | some t => s.noteOrder (.stack t) (s.atomPlace c x)

/-- ATOMIC_APPLY (R216 to R219). -/
def execAtomicApply (c id k : Nat) (s : State) : Out :=
  match s.request c id k with
  | none => .next s
  | some (x, g) =>
    if x.kind.atop ≠ 0 ∧ !s.selfRefresh ∧ s.atomTurn c x g then
      .next ((s.meetEcc c id k x g fun t => t.serveAtomic c id k x g).noteAtom c x g)
    else .next s

/-- Request `k` of a transfer still waits for a sector. -/
def State.stillWaits (s : State) (r : Reread) (x : Xfer) (k : Nat) : Bool :=
  match x.segs[k]? with
  | none => true
  | some g =>
    s.rereads.any fun q => decide (q.ctx = r.ctx ∧ q.xfer = r.xfer) &&
      (match dpaLoc g.addr with
        | .mem _ _ _ t l => decide (q.stack = t) && decide (q.sector ∈ missReads l g.len x.kind.writes x.allocates)
        | _ => false)

/-- The requests of a transfer that waited for a sector, and wait for no other, go on. -/
def State.resume (s : State) (r : Reread) : State :=
  match s.xfer r.ctx r.xfer with
  | none => s
  | some x =>
    forAll (x.waiting.filter fun k => !s.stillWaits r x k) (fun k u =>
      match u.xfer r.ctx r.xfer, x.segs[k]? with
      | some y, some g =>
        if y.kind.reads then u.serveRead r.ctx r.xfer k y g
        else if y.kind.writes then u.serveWrite r.ctx r.xfer k y g
        else u.serveAtomic r.ctx r.xfer k y g
      | _, _ => u) s

/-- ECC_REREAD (R210, R211): absorbed, or the sector is poisoned; the requests that wait for it go on. -/
def execEccReread (stack sector : Nat) (s : State) : Out :=
  let own := s.rereads.filter fun r => r.stack = stack ∧ r.sector = sector
  if own = [] then .next s
  else
    let s1 := { s with rereads := s.rereads.filter fun r => !(r.stack = stack ∧ r.sector = sector) }.reread stack sector
    let s2 := forAll own (fun r t => t.resume r) s1
    .next (if s2.rereads.any fun r => r.stack = stack then s2 else s2.closeWindow (.stack stack))

/-- The contexts whose interleave set has a stack. -/
def State.ctxsOnStack (s : State) (t : Nat) : List Nat :=
  (s.ctxs.filter fun e => e.2.cfg.isSome && decide (t ∈ stacksOf e.2.set.1 e.2.set.2)).map fun e => e.1

/-- CE_RATE_WINDOW (R213, R359): a second of CLK_S time ends. -/
def execCeRateWindow (t : Nat) (s : State) : Out :=
  if !s.periodOver (.corrections t) then .next s else
  let n := Table.getD 0 s.ceCount t
  let s1 := { s with ceCount := Table.put 0 s.ceCount t 0 }.newPeriod (.corrections t)
  if s.rf (bar0 (thatchDie t) 0 Off.THC_CE_WARN) 31 0 < n then
    .next ((s1.raisePg (thatchDie t) 0 1).triggerCkpts 0 (thatchDie t))
  else .next s1

/-! ## Refresh (R207) -/

/-- The refresh rate code at a temperature, from the rate in force (R207). -/
def refreshRate (old temp : Nat) : Nat :=
  if 95 ≤ temp then 2
  else if old = 2 ∧ 93 < temp then 2
  else if 85 ≤ temp then 1
  else if 1 ≤ old ∧ 83 < temp then 1
  else 0

/-- REFRESH_RATE_CHANGE (R207): the stack reads `temp`; MEM_HOT is raised while it reads 95 °C or more. -/
def execRefreshRateChange (t temp : Nat) (s : State) : Out :=
  let d := thatchDie t
  let a := bar0 d 0 Off.THC_TEMP
  let s1 := (s.wf a 9 8 (refreshRate (s.rf a 9 8) temp)).wf a 7 0 (min temp 255)
  let s2 := { s1 with memTemp := Table.put 0 s1.memTemp t temp }
  .next (if 95 ≤ temp then s2.raisePg d 0 3 else s2)

/-- The refresh interval of a stack in time-base cycles: 3,900, 1,950 or 975 cycles of CLK_F (table *Refresh by temperature*). -/
def State.refreshInterval (s : State) (t : Nat) : Nat :=
  s.cyc (match s.rf (bar0 (thatchDie t) 0 Off.THC_TEMP) 9 8 with
    | 0 => 3900
    | 1 => 1950
    | _ => 975)

/-- Errors that have come about in sectors of a stack since its last refresh; the cells under a line that the slice holds show theirs later
(log 99). -/
def State.strike (s : State) (t : Nat) (errors : List (Nat × Upset)) : State :=
  forAll errors (fun e u =>
    if 2 ^ 30 ≤ e.1 ∨ (u.wayOf t (e.1 / 4)).isSome ∨ sectorKey t e.1 ∈ u.poison then u
    else { u with upsets := Table.set u.upsets (sectorKey t e.1) e.2 }) s

/-- REFRESH_TICK (R207): a refresh interval ends and the controller refreshes, unless the stack refreshes itself; `errors` have come about in
its cells. -/
def execRefreshTick (t : Nat) (errors : List (Nat × Upset)) (s : State) : Out :=
  if s.selfRefresh ∨ !s.alive (thatchDie t) ∨ s.now < Table.getD 0 s.refreshAt t + s.refreshInterval t then .next s
  else
    .next ({ s with
      refreshes := Table.put 0 s.refreshes t (Table.getD 0 s.refreshes t + 1)
      refreshAt := Table.put 0 s.refreshAt t s.now }.strike t errors)

end Sys2Proof.Machine
end

