-- ==== Sys2Proof/Machine/Verdict.lean ====
section
/-! DEFINITION. The step verdict (R243 to R251): VERDICT, COMMIT_IF, the package stage, votes and decisions, the effects of a final
decision; checkpoints (R359, R360). -/

namespace Sys2Proof.Machine

/-! ## VERDICT and COMMIT_IF -/

/-- CTX_COLL_STS takes the first collective fault (table *Context window: collective registers*). -/
def State.collSts (s : State) (c group code : Nat) : State :=
  let a := ctxA c Off.CTX_COLL_STS
  if s.rf a 15 12 = 0 then (s.wf a 11 0 group).wf a 15 12 code else s

/-- VERDICT issues (R244): the tile's flags and sums go to the slot, its pending sums become +0. A tile whose slot has already been decided gets
its token at once (R248, R251). -/
def State.issueVerdict (s : State) (c t : Nat) (e : EntryBits) (x : Slot) : State :=
  let v := ef e 209 208
  let k := s.tile c t
  let a := ctxA c (Off.CTX_VSLOT_STS + 0x10 * v)
  let s1 := (s.modTile c t fun y => { y with nsum := 0, ssum := 0 }).modRun c fun r => r.modSlot v fun y =>
    { y with
      given := y.given ++ [⟨t, k.flags, k.nsum, k.ssum, ef e 215 210⟩]
      lastGiven := s.now
      state := if y.state = 0 then 1 else y.state }
  let s2 := if x.state = 0 then s1.wf a 1 0 1 else s1
  (if x.state = 3 then s2.addTokens c t (ef e 215 210) 1 else s2).issue c t e

/-- VERDICT (R244, R266). -/
def execVerdict (c t : Nat) (s : State) : Out :=
  match s.dueClass c t 0x48, (s.ctx c).running with
  | some e, some r =>
    let v := ef e 209 208
    let g := ef e 207 196
    let x := Table.get? r.slots v
    let valid := ((Table.get? s.groups g).map fun q => decide (q.ctx = c)).getD false
    match x with
    | none => .next s
    | some x =>
      if valid ∧ x.seq.isSome then .next (s.issueVerdict c t e x)
      else .next (((s.modRun c fun r => r.modSlot v fun y => { y with seq := none }).collSts c g 1).ctxFault c 14)
  | _, _ => .next s

/-- COMMIT_IF (R83): on release the sub-plan of the slot's verdict comes next. -/
def execCommitIf (c t : Nat) (s : State) : Out :=
  match s.dueClass c t 0x49, (s.ctx c).running with
  | some e, some r =>
    let p := (s.tile c t).pos
    let clen := ef e 183 172
    let slen := ef e 171 160
    let s1 := s.issueAt c t e
    if ((Table.get? r.slots (ef e 209 208)).map (·.decision)) = some 1 then
      .next ((s1.modTile c t fun y => { y with subEnd := some (p + 1 + clen, p + 1 + clen + slen) }).goto c t (p + 1))
    else .next (s1.goto c t (p + 1 + clen))
  | _, _ => .next s

/-! ## The effects of a final decision (R248) -/

/-- The page-state nibble after a decision (table *Effects of a final decision*). -/
def nibbleAfter (n code : Nat) : Nat :=
  if code = 1 then
    if bitAt n 1 then nibBit (nibBit (nibBit n 0 (!bitAt n 0)) 2 true) 1 false else nibBit n 2 false
  else nibBit n 1 false

/-- Every page of every region after a decision. -/
def State.decidePages (s : State) (c code : Nat) : State :=
  forAll (s.regions c) (fun r t => iter (fun k u => u.setNibble c r.state k (nibbleAfter (u.nibble c r.state k) code)) r.pages t) s

/-- The registers that a final decision changes; `g` holds the sums of slot GSLOT where it has been decided. -/
def State.decideRegs (s : State) (c code : Nat) (flags : BitVec 8) (stride : Word) (ncontrib : Nat) (g : Option (F32 × F32)) : State :=
  let step := s.cf c Off.CTX_STEP 47 0
  let v := ctxA c Off.CTX_VERDICT
  let s1 := (((s.wf v 1 0 code).wf v 9 2 flags.toNat).wf v 57 10 step).wf v 58 58 0
  if code = 1 then
    let s2 := ((s1.cWrap c Off.CTX_STEP 47 0 1).cWrap c Off.CTX_RNG_STEP 47 0 1).cWrap c Off.CTX_DATA_CURSOR 63 0 stride.toNat
    let s3 := s2.modCtx c fun x => { x with
      rings := x.rings.mapVals fun _ r => if r.advance then { r with newest := r.newest + 1 } else r }
    match g with
    | none => s3
    | some q =>
      (((s3.cw c Off.CTX_GNS_SQ 31 0 q.1.toNat).cw c Off.CTX_GNS_SQ 63 32 q.2.toNat).cw c Off.CTX_GNS_COUNT 16 0 ncontrib).cw c
        Off.CTX_GNS_STEP 47 0 (step + 1)
  else if code = 2 then
    ((s1.cSat c Off.CTX_SKIP_COUNT 31 0 1).cWrap c Off.CTX_RNG_STEP 47 0 1).cWrap c Off.CTX_DATA_CURSOR 63 0 stride.toNat
  else s1.cSat c Off.CTX_SKIP_COUNT 63 32 1

/-- The sealed image of a context's step boundary: every mirrored page as it is live, and the snapshot record (R360, log 23). -/
def State.seal (s : State) (c : Nat) (pages : List MPage) : SealedImage :=
  { ok := true
    pages := (pages.zipIdx).map fun p =>
      (p.2, match s.redirect c p.1.va false with
        | none => []
        | some a => (s.vaRead c a 65536).getD [])
    record := s.recordBytes c }

/-- A checkpoint starts at a COMMIT with PEND set, and its image is that of this COMMIT; the commits since the last checkpoint are a trigger in
a privileged context (R359, R360). -/
def State.commitCkpt (s : State) (c : Nat) : State :=
  let a := ctxA c Off.CTX_CKPT_STS
  let s1 :=
    if s.rf a 0 0 = 1 then
      ((s.wf a 0 0 0).wf a 1 1 1).modCtx c fun x =>
        { x with sealed_ := some (BitVec.ofNat 48 (s.cf c Off.CTX_STEP 47 0), s.seal c (s.mirrorPages c)) }
    else s
  let s2 := s1.modCtx c fun x => { x with ckptCommits := x.ckptCommits + 1 }
  let n := s2.cf c Off.CTX_CKPT_PERIOD 63 32
  if n ≠ 0 ∧ n ≤ (s2.ctx c).ckptCommits then s2.ckptTrigger c 5 else s2

/-- A final decision takes effect (R248, R344, R349, R360). -/
def State.finalEffects (s : State) (c code : Nat) (flags : BitVec 8) (r : Running) (x : Slot) : State :=
  let g := (r.slot? x.gslot).bind fun y => if y.state = 3 then some (y.nsum, y.ssum) else none
  let s1 := ((s.decidePages c code).decideRegs c code flags r.stride x.ncontrib g).writeRecord s c (decide (code = 1))
  if code = 1 then (s1.startMirror c).commitCkpt c else s1

/-- A decision is applied to slot `v` of the launch of SEQ `q` (R248, R251): slot registers, effects of a final decision, tokens. -/
def State.applyDecision (s : State) (c : Nat) (q : BitVec 32) (v : Nat) (d : Decision) : State :=
  match (s.ctx c).launchWith fun r => decide (r.seq = q) with
  | none => s
  | some r =>
    match r.slot? v with
    | none => s
    | some x =>
      if x.state = 3 then s
      else
      let code := if r.aborted then 3 else d.code
      let a := ctxA c (Off.CTX_VSLOT_STS + 0x10 * v)
      let b := ctxA c (Off.CTX_VSLOT_SUM + 0x10 * v)
      let y : Slot := { x with state := 3, decision := code, flags := d.flags, nsum := d.nsum, ssum := d.ssum }
      let r1 : Running := { (r.modSlot v fun _ => y) with
        skipped := r.skipped || decide (code = 2)
        finalDecision := if x.final then code else r.finalDecision }
      let s1 := (((((s.modLaunch c q fun _ => r1).wf a 1 0 3).wf a 3 2 code).wf a 11 4 d.flags.toNat).wf b 31 0 d.nsum.toNat).wf b 63 32
        d.ssum.toNat
      let s2 := if x.final then s1.finalEffects c code d.flags r1 y else s1
      (forAll x.given (fun k t => t.addTokens c k.tile k.ctr 1) s2).modCtx c fun z => { z with ended := z.ended.filter Running.hasOpen }

/-- A decision put behind those of the same or a lower slot (R249). -/
def insertDue (d : Due) : List Due → List Due
  | [] => [d]
  | e :: r => if e.slot ≤ d.slot then e :: insertDue d r else d :: e :: r

/-- A decision has reached this package, at its root or by a DECIDE frame: it is applied at t_d, with the state changes of the present cycle, or
of the next where a sequencer has issued in the present one already (R248, R444). -/
def State.noteDue (s : State) (c : Nat) (d : Due) : State := s.modCtx c fun x => { x with due := insertDue d x.due }

/-- The decisions that have reached a context are applied in rising slot order (R249). -/
def State.applyDue (s : State) (c : Nat) : State :=
  forAll (s.ctx c).due (fun d t => t.applyDecision c d.seq d.slot d.decision) (s.modCtx c fun x => { x with due := [] })

/-! ## Votes and decisions -/

/-- The root decides slot `v` of the launch of SEQ `q` once it holds every member's vote, in the cycle of the last of them; a context that has
faulted only sends the decision (R246, R250). -/
def State.rootDecide (s : State) (c : Nat) (q : BitVec 32) (v : Nat) : State :=
  match (s.ctx c).launchWith fun r => decide (r.seq = q) with
  | none => s
  | some r =>
    match r.slot? v with
    | none => s
    | some x =>
      if (s.ctx c).phase ≠ .normal then s.deadDecide c v r x
      else
        match s.slotGroup c x, x.seq with
        | some g, some n =>
          match g.ballot n v with
          | none => s
          | some l =>
            let d := tally l r.normLimit r.skipped
            (((s.modLaunch c q fun y => { y with skipped := y.skipped || decide (d.code = 2) }).clearVotes x.group n v).sendDecides
              c v x g n d).noteDue c ⟨q, v, d⟩
        | _, _ => s

/-- A stage of a verdict that began at `start` and ends now, under a bound in ns (R247). The root's decision and the application of a decision
come in the cycle of what they answer, or in the next, and overrun no bound. -/
def State.stageMiss (s : State) (c start bound : Nat) : State := s.stageOver c (start + ceilDiv (bound * 8) (s.planDiv c))

/-- Contributions put in rising tile. -/
def byTile (x : Contribution) : List Contribution → List Contribution
  | [] => [x]
  | y :: r => if x.tile ≤ y.tile then x :: y :: r else y :: byTile x r

/-- The package's flags and sums for a slot (R245). -/
def packageSum (l : List Contribution) : Contribution :=
  let o := l.foldr byTile []
  { tile := 0
    flags := o.foldl (fun a x => a ||| x.flags) 0
    nsum := o.foldl (fun a x => fadd a x.nsum) f32zero
    ssum := o.foldl (fun a x => fadd a x.ssum) f32zero
    ctr := 0 }

/-- The tiles of a context that a launch runs on. -/
def Ctx.planTiles (x : Ctx) : Nat := (x.tiles.filter fun e => 0 < e.2.length).length

/-- PACKAGE_STAGE_END (R245): every tile has issued its VERDICT for the slot; the package's flags and sums are formed. -/
def execPackageStageEnd (c slot : Nat) (s : State) : Out :=
  let ready (r : Running) : Bool := (r.slot? slot).any fun x =>
    x.seq.isSome && x.pkg.isNone && decide (x.state = 1 ∧ x.given.length = (s.ctx c).planTiles)
  match (s.ctx c).launchWith ready with
  | none => .next s
  | some r =>
    if (s.ctx c).phase ≠ .normal then .next s
    else
      .next (s.modLaunch c r.seq fun r => r.modSlot slot fun x => { x with pkg := some (packageSum x.given), stageEnd := s.now })

/-- A slot's vote leaves the package: the root holds its own, a single member decides, any other member sends a VOTE frame (R245,
R246). -/
def State.castVote (s : State) (c v : Nat) (r : Running) (x : Slot) (p : Contribution) : State :=
  match s.slotGroup c x, x.seq with
  | some g, some n =>
    let step := BitVec.ofNat 48 (s.cf c Off.CTX_STEP 47 0)
    if g.members.length = 1 ∨ g.self = 0 then (s.holdVote x.group n v ⟨s.node, p.flags, p.nsum, p.ssum, step⟩).rootDecide c r.seq v
    else s.sendCtl (g.members.getD 0 0) 4 x.group c x.epoch (.vote n v p.flags p.nsum p.ssum step)
  | _, _ => s

/-- VOTE_SEND (R245, R350): once no mirror generation is incomplete the package votes; the wait is counted, and the package stage held to its
bound. -/
def execVoteSend (c slot : Nat) (s : State) : Out :=
  let ready (r : Running) : Bool := (r.slot? slot).any fun x => x.seq.isSome && x.pkg.isSome && decide (x.state = 1)
  match (s.ctx c).launchWith ready with
  | none => .next s
  | some r =>
    match r.slot? slot with
    | none => .next s
    | some x =>
      match x.pkg with
      | none => .next s
      | some p =>
        if (s.ctx c).phase ≠ .normal ∨ (s.ctx c).mirrorGen.isSome then .next s
        else
          let done := (s.ctx c).mirrorDoneAt
          let s1 := ((s.cWrap c Off.CTX_MIR_WAIT 63 0 (done - x.stageEnd)).stageMiss c (max x.lastGiven done) 2000).modLaunch c r.seq
            fun r => r.modSlot slot fun x => { x with state := 2 }
          let s2 := s1.wf (ctxA c (Off.CTX_VSLOT_STS + 0x10 * slot)) 1 0 2
          let s3 := if x.final then s2.cw c Off.CTX_VERDICT 58 58 1 else s2
          .next (s3.castVote c slot r x p)

/-- The launch whose slot `v` has a sequence value of a group and is still open, its decision not yet here. -/
def Ctx.openLaunch (x : Ctx) (gi : Nat) (seq : BitVec 32) (v : Nat) : Option Running :=
  x.launchWith fun r => (r.slot? v).any (fun y => decide (y.group = gi ∧ y.seq = some seq ∧ y.state ≠ 3))
    && !x.due.any fun d => decide (d.seq = r.seq ∧ d.slot = v)

/-- A vote that reaches this package, for group `gi` of context `c` at its current epoch (R246, R283): held, or discarded and counted where no
open verdict has its sequence value. -/
def State.takeVote (s : State) (c gi : Nat) (seq : BitVec 32) (v : Nat) (x : VoteRec) : State :=
  match (s.ctx c).openLaunch gi seq v with
  | none => s.cSat c Off.CTX_STALE_EPOCH 63 32 1
  | some r => (s.holdVote gi seq v x).rootDecide c r.seq v

/-- A decision that reaches a member (R248, R250, R283). -/
def State.takeDecide (s : State) (c gi : Nat) (seq : BitVec 32) (v : Nat) (d : Decision) : State :=
  match (s.ctx c).openLaunch gi seq v with
  | none => s.cSat c Off.CTX_STALE_EPOCH 63 32 1
  | some r => if (s.ctx c).phase ≠ .normal then s else s.noteDue c ⟨r.seq, v, d⟩

/-! ## Checkpoints (R359, R360) -/

/-- The interrupt source of a TRIG bit in PG_IRQ_RAW of its die: CE_RATE, REPLAY_RATE, MARGIN_LOW. -/
def ckptBit (cause : Nat) : Nat :=
  match cause with
  | 0 => 1
  | 1 => 3
  | _ => 0

/-- CHECKPOINT_TRIGGER (R359): the trigger of a TRIG bit occurs for a context, with the source that the die has raised in this cycle. The window
or sample that raises the source has it as its own effect already (`triggerCkpts`), and this is merged with it. -/
def execCheckpointTrigger (c cause die : Nat) (s : State) : Out :=
  if s.ckptSource c cause die ∧ (s.raisedIn (bar0 die 0 Off.PG_IRQ_RAW)).getLsbD (ckptBit cause) then .next (s.ckptTrigger c cause) else .next s

/-- CHECKPOINT_TIMER (R359): PERIOD.SECONDS have passed since the last checkpoint of a privileged context. -/
def execCheckpointTimer (c : Nat) (s : State) : Out :=
  let sec := s.cf c Off.CTX_CKPT_PERIOD 31 0
  let last := max (s.ctx c).ckptTimer ((s.ctx c).ckptEnd.getD 0)
  if sec = 0 ∨ s.now < last + s.cyc (sec * 1000000000) then .next s
  else .next ((s.modCtx c fun x => { x with ckptTimer := s.now }).ckptTrigger c 4)

/-- CHECKPOINT_DONE (R360): the image of the COMMIT that began the checkpoint is complete. -/
def execCheckpointDone (c bytes : Nat) (s : State) : Out :=
  let a := ctxA c Off.CTX_CKPT_STS
  match (s.ctx c).sealed_ with
  | none => .next s
  | some (step, img) =>
    if s.rf a 1 1 = 0 then .next s
    else
      let at_ := (s.reg (ctxA c Off.CTX_CKPT_DEST)).toNat + if (s.ctx c).boundB then 2 ^ 64 else 0
      let s1 := ((({ s with images := s.images ++ [HostImage.mk at_ c step img] }.wf a 1 1 0).wf a 52 5 step.toNat).cSat c
        Off.CTX_CKPT_COUNT 31 0 1).cWrap c Off.CTX_BYTES_PCIE 63 0 bytes
      .next ((s1.modCtx c fun x => { x with sealed_ := none, ckptEnd := some s.now, ckptCommits := 0, ckptTimer := s.now }).raiseCtx c 4)

end Sys2Proof.Machine
end

