-- ==== Sys2Proof/Machine/Coll.lean ====
section
/-! DEFINITION. Collectives (R259 to R284): MMA_COLL, the legs that carry pieces between members, reduction in the order of R268,
chunk tokens, RING_PASS, what arrives in COLL and RING frames, aborted instances; the end of unit operations (R54). -/

namespace Sys2Proof.Machine

/-! ## Bytes and pieces -/

/-- Bytes `lo` to `lo + len - 1` of a list. -/
def cutP (l : List PByte) (p : Nat × Nat) : List PByte := (l.drop p.1).take p.2

/-- Piece `k` of `L` bytes divided into `d`: offset and length (R267). -/
def pieceAt (d L k : Nat) : Nat × Nat :=
  let z := ceilDiv L (64 * d) * 64
  let lo := min (k * z) L
  (lo, min ((k + 1) * z) L - lo)

/-- The sum of two elements under RED_FMT (R269). -/
def redElem (fmt a b : Nat) : Nat :=
  if fmt = 2 then (a + b) % 2 ^ 32
  else
    let w (n : Nat) : F32 := toF32 (decodeElem (if fmt = 1 then 2 else 8) n)
    let sum := fadd (w a) (w b)
    if fmt = 1 then (convTo 2 (f32val sum) none).code else sum.toNat

/-- The bytes of two runs of elements added, left addend first; an element is poisoned when one of its addends is (R269). The first
argument bounds the number of elements. -/
def redAdd (fmt : Nat) : Nat → List PByte → List PByte → List PByte
  | 0, _, _ => []
  | n + 1, a, b =>
    if a = [] then []
    else
      let w := if fmt = 1 then 2 else 4
      let p := (a.take w).any (·.2) || (b.take w).any (·.2)
      ((leBytes w (redElem fmt (leNat ((a.take w).map (·.1))) (leNat ((b.take w).map (·.1))))).map fun x => (x, p))
        ++ redAdd fmt n (a.drop w) (b.drop w)

/-- The sum of two optional runs. -/
def redAdd? (fmt : Nat) (a b : Option (List PByte)) : Option (List PByte) :=
  a.bind fun x => b.map fun y => redAdd fmt x.length x y

/-! ## The shape of a group -/

/-- Q and G of a group: a RING is one node (R267). -/
def Group.shape (g : Group) : Nat × Nat := if g.alg = 2 then (g.node, g.members.length / g.node) else (g.members.length, 1)

/-- This member's local index and node. -/
def Group.place (g : Group) : Nat × Nat := (g.self % g.shape.1, g.self / g.shape.1)

/-- The member after this one inside its node. -/
def Group.nextLocal (g : Group) : Nat := g.place.2 * g.shape.1 + (g.place.1 + 1) % g.shape.1

/-- The member of the next node with this local index. -/
def Group.nextNode (g : Group) : Nat := (g.place.2 + 1) % g.shape.2 * g.shape.1 + g.place.1

/-- COLL_OP is one that ALG serves (table *Algorithms*). -/
def Group.serves (g : Group) (op : Nat) : Bool :=
  match g.alg with
  | 0 => op ≤ 3
  | 1 => op = 0
  | _ => op ≤ 2

/-- The logical tiles that take part. -/
def Group.hasTile (g : Group) (t : Nat) : Bool := g.ltFirst ≤ t && t < g.ltFirst + g.ltCount

/-- Bytes of a staging half (R271). -/
def Group.half (g : Group) : Nat := g.stgLines * 32

/-! ## What an instance holds -/

/-- The payload of the instance at this package (R267), once every participating tile's contribution has been read. -/
def Inst.payload (x : Inst) (g : Group) : Option (List PByte) :=
  if x.tiles.length = g.ltCount ∧ x.tiles.all (fun e => e.2.contrib.isSome) then
    some (x.tiles.flatMap fun e => e.2.contrib.getD [])
  else none

/-- The first byte of each tile's contribution in the payload, and its size. -/
def Inst.places (x : Inst) : List (Nat × Nat × Nat) :=
  (x.tiles.foldl (fun (a : List (Nat × Nat × Nat) × Nat) e => (a.1 ++ [(e.1, a.2, e.2.size)], a.2 + e.2.size)) ([], 0)).1

/-- The payload's size as far as it is known. -/
def Inst.total (x : Inst) : Nat := (x.tiles.map fun e => e.2.size).sum

/-- The bytes of chunk `k`. -/
def Inst.chunkLen (x : Inst) (g : Group) (k : Nat) : Nat := min g.chunk (x.total - k * g.chunk)

/-- A message received whole, of `len` bytes; an empty piece needs none. -/
def Inst.got (x : Inst) (tag : PieceTag) (len : Nat) : Option (List PByte) :=
  if len = 0 then some [] else (x.received.find? fun r => r.1 = tag).map (·.2)

/-! ## Reductions (R267, R268) -/

/-- A reduction of one chunk of `own` bytes at this member. -/
structure Red where
  x : Inst
  g : Group
  k : Nat
  own : List PByte

/-- Offset and length of piece `p` of the chunk. -/
def Red.piece (r : Red) (p : Nat) : Nat × Nat := pieceAt r.g.shape.1 r.own.length p

/-- Offset in this member's piece, and length, of sub-piece `h`. -/
def Red.sub (r : Red) (h : Nat) : Nat × Nat := pieceAt r.g.shape.2 (r.piece r.g.place.1).2 h

/-- The partial sum that this member sends at leg `a` of the reduction inside its node, and its piece. -/
def Red.valA (r : Red) (a : Nat) : Nat × Option (List PByte) :=
  let q := r.g.shape.1
  let p := (r.g.place.1 + q - 1 - a) % q
  let mine := cutP r.own (r.piece p)
  (p, if a = 0 then some mine else redAdd? r.x.redFmt (r.x.got ⟨r.k, a - 1, p, 0, 0⟩ mine.length) (some mine))

/-- The node sum of this member's piece. -/
def Red.nodeSum (r : Red) : Option (List PByte) :=
  let q := r.g.shape.1
  let i := r.g.place.1
  let mine := cutP r.own (r.piece i)
  if q = 1 then some mine else redAdd? r.x.redFmt (r.x.got ⟨r.k, q - 2, i, 0, 0⟩ mine.length) (some mine)

/-- Sub-piece `h` of the node sum. -/
def Red.subSum (r : Red) (h : Nat) : Option (List PByte) := r.nodeSum.map fun v => cutP v (r.sub h)

/-- The first leg between nodes. -/
def Red.legB (r : Red) : Nat := r.g.shape.1 - 1

/-- The first leg of the gathering between nodes. -/
def Red.legC (r : Red) : Nat := r.legB + (r.g.shape.2 - 1)

/-- The first leg of the gathering inside a node. -/
def Red.legD (r : Red) : Nat := r.legC + (r.g.shape.2 - 1)

/-- The partial sum that this member sends at leg `b` of the reduction between nodes, and its sub-piece. -/
def Red.valB (r : Red) (b : Nat) : Nat × Option (List PByte) :=
  let n := r.g.shape.2
  let h := (r.g.place.2 + n - 1 - b) % n
  (h, if b = 0 then r.subSum h
    else redAdd? r.x.redFmt (r.x.got ⟨r.k, r.legB + b - 1, r.g.place.1, h, 0⟩ (r.sub h).2) (r.subSum h))

/-- The result of the sub-piece that this member finishes. -/
def Red.finalSub (r : Red) : Option (List PByte) :=
  let n := r.g.shape.2
  let h := r.g.place.2
  if n = 1 then r.subSum h
  else redAdd? r.x.redFmt (r.x.got ⟨r.k, r.legB + n - 2, r.g.place.1, h, 0⟩ (r.sub h).2) (r.subSum h)

/-- The result of sub-piece `h` of this member's piece. -/
def Red.subFinal (r : Red) (h : Nat) : Option (List PByte) :=
  let n := r.g.shape.2
  if h = r.g.place.2 then r.finalSub
  else r.x.got ⟨r.k, r.legC + (r.g.place.2 + n - h) % n - 1, r.g.place.1, h, 0⟩ (r.sub h).2

/-- Optional runs joined. -/
def joinP (l : List (Option (List PByte))) : Option (List PByte) :=
  l.foldl (fun a v => a.bind fun x => v.map fun y => x ++ y) (some [])

/-- The result of this member's piece. -/
def Red.finalPiece (r : Red) : Option (List PByte) := joinP ((List.range r.g.shape.2).map r.subFinal)

/-- The result of piece `p`. -/
def Red.pieceFinal (r : Red) (p : Nat) : Option (List PByte) :=
  let q := r.g.shape.1
  if p = r.g.place.1 then r.finalPiece
  else r.x.got ⟨r.k, r.legD + (r.g.place.1 + q - p) % q - 1, p, 0, 0⟩ (r.piece p).2

/-! ## Sends -/

/-- A message that this member sends: its tag, the member it goes to, the payload byte it starts at, the length after which its data
start again at that byte (a bundle of several nodes' chunks), and its bytes once they are known. -/
structure Leg where
  tag : PieceTag
  dest : Nat
  at_ : Nat
  unit : Nat
  data : Option (List PByte)

/-- The messages of one chunk of a reduction over RING or TWO_LEVEL, in leg order; a REDUCE_SCATTER has no gathering (R267). -/
def Red.legs (r : Red) : List Leg :=
  let q := r.g.shape.1
  let n := r.g.shape.2
  let i := r.g.place.1
  let base := r.k * r.g.chunk
  ((List.range (q - 1)).map fun a =>
    let v := r.valA a
    Leg.mk ⟨r.k, a, v.1, 0, 0⟩ r.g.nextLocal (base + (r.piece v.1).1) 0 v.2) ++
  ((List.range (n - 1)).map fun b =>
    let v := r.valB b
    Leg.mk ⟨r.k, r.legB + b, i, v.1, 0⟩ r.g.nextNode (base + (r.piece i).1 + (r.sub v.1).1) 0 v.2) ++
  if r.x.op = 1 then []
  else
    ((List.range (n - 1)).map fun b =>
      let h := (r.g.place.2 + n - b) % n
      Leg.mk ⟨r.k, r.legC + b, i, h, 0⟩ r.g.nextNode (base + (r.piece i).1 + (r.sub h).1) 0 (r.subFinal h)) ++
    ((List.range (q - 1)).map fun b =>
      let p := (i + q - b) % q
      Leg.mk ⟨r.k, r.legD + b, p, 0, 0⟩ r.g.nextLocal (base + (r.piece p).1) 0 (r.pieceFinal p))

/-- The subtree sum of this member under TREE (R268). -/
def Red.treeSum (r : Red) : Option (List PByte) :=
  [2 * r.g.self + 1, 2 * r.g.self + 2].foldl (fun a j =>
    if j < r.g.members.length then redAdd? r.x.redFmt a (r.x.got ⟨r.k, 0, 0, 0, j⟩ r.own.length) else a) (some r.own)

/-- The result of a chunk under TREE: at member 0 its sum, at any other what its parent returns. -/
def Red.treeFinal (r : Red) : Option (List PByte) :=
  if r.g.self = 0 then r.treeSum
  else r.x.got ⟨r.k, 1, 0, r.g.self, (r.g.self - 1) / 2⟩ r.own.length

/-- The messages of one chunk under TREE. -/
def Red.treeLegs (r : Red) : List Leg :=
  (if r.g.self = 0 then [] else [Leg.mk ⟨r.k, 0, 0, 0, r.g.self⟩ ((r.g.self - 1) / 2) (r.k * r.g.chunk) 0 r.treeSum]) ++
  ([2 * r.g.self + 1, 2 * r.g.self + 2].filter fun j => j < r.g.members.length).map fun j =>
    Leg.mk ⟨r.k, 1, 0, j, r.g.self⟩ j (r.k * r.g.chunk) 0 r.treeFinal

/-- The chunk of node `h` with this member's local index in an ALL_GATHER. -/
def Red.nodeChunk (r : Red) (h : Nat) : Option (List PByte) :=
  let n := r.g.shape.2
  if h = r.g.place.2 then some r.own else r.x.got ⟨r.k, (r.g.place.2 + n - h) % n - 1, 0, 0, h⟩ r.own.length

/-- The chunks of every node with local index `p`, in node order. -/
def Red.bundle (r : Red) (p : Nat) : Option (List PByte) :=
  let q := r.g.shape.1
  let n := r.g.shape.2
  if p = r.g.place.1 then joinP ((List.range n).map r.nodeChunk)
  else r.x.got ⟨r.k, n - 1 + (r.g.place.1 + q - p) % q - 1, 0, 0, p⟩ (n * r.own.length)

/-- The messages of one chunk of an ALL_GATHER: whole chunks between nodes, then bundles inside the node (R267). -/
def Red.gatherLegs (r : Red) : List Leg :=
  let q := r.g.shape.1
  let n := r.g.shape.2
  ((List.range (n - 1)).map fun b =>
    let h := (r.g.place.2 + n - b) % n
    Leg.mk ⟨r.k, b, 0, 0, h⟩ r.g.nextNode (r.k * r.g.chunk) r.own.length (r.nodeChunk h)) ++
  ((List.range (q - 1)).map fun b =>
    let p := (r.g.place.1 + q - b) % q
    Leg.mk ⟨r.k, n - 1 + b, 0, 0, p⟩ r.g.nextLocal (r.k * r.g.chunk) r.own.length (r.bundle p))

/-- The messages of one chunk. -/
def Red.allLegs (r : Red) : List Leg :=
  if r.x.op = 2 then r.gatherLegs else if r.g.alg = 1 then r.treeLegs else r.legs

/-- The reductions of an instance, one for each chunk. -/
def Inst.reds (x : Inst) (g : Group) : List Red :=
  match x.payload g with
  | none => []
  | some l => (List.range (ceilDiv l.length g.chunk)).map fun k => Red.mk x g k (cutP l (k * g.chunk, g.chunk))

/-- The length that a received message of a chunk must have (R266); 0 for a message that no algorithm sends. -/
def Red.expect (r : Red) (tag : PieceTag) : Nat :=
  if r.x.op = 2 then (if tag.leg < r.g.shape.2 - 1 then r.own.length else r.g.shape.2 * r.own.length)
  else if r.g.alg = 1 then r.own.length
  else if r.legB ≤ tag.leg ∧ tag.leg < r.legD then (r.sub tag.sub).2
  else (r.piece tag.piece).2

/-- A received message has the wrong length. -/
def Inst.badLength (x : Inst) (g : Group) : Bool :=
  let rs := x.reds g
  decide (rs ≠ []) && x.received.any fun m =>
    match rs[m.1.chunk]? with
    | none => true
    | some r => decide (r.expect m.1 ≠ m.2.length)

/-! ## Parts (R271, R273) -/

/-- The parts of `len` bytes from payload byte `lo` that go to each tile, in parts of at most `half` bytes: tile, offset, length. -/
def Inst.partsOf (x : Inst) (half lo len : Nat) : List (Nat × Nat × Nat) :=
  x.places.flatMap fun p =>
    let a := max lo p.2.1
    let b := min (lo + len) (p.2.1 + p.2.2)
    if a < b then (List.range (ceilDiv (b - a) half)).map fun k => (p.1, a - lo + k * half, min half (b - a - k * half)) else []

/-- The parts of a message. -/
def Inst.legParts (x : Inst) (half : Nat) (l : Leg) (n : Nat) : List (Nat × Nat × Nat) :=
  let u := if l.unit = 0 then n else l.unit
  (List.range (n / max 1 u)).flatMap fun k => (x.partsOf half l.at_ u).map fun p => (p.1, k * u + p.2.1, p.2.2)

/-- The poisoned bytes of a run. -/
def poisonOf (l : List PByte) : List (Nat × Nat) := (l.zipIdx).filterMap fun b => if b.1.2 then some (b.2, 1) else none

/-- A message starts: each part is one transfer at the group's RATE (R273). -/
def State.sendLeg (s : State) (c : Nat) (x : Inst) (g : Group) (l : Leg) (data : List PByte) : State :=
  forAll (x.legParts g.half l data.length) (fun p t =>
    let d := cutP data (p.2.1, p.2.2)
    t.startXfer c p.1 (t.tile c p.1).pos none none
      (.piece x.group x.epoch l.dest ⟨x.seq, x.poolOrd, l.tag, p.1, p.2.1, data.length, p.2, d.map (·.1)⟩ (poisonOf d)) p.2.2 g.rate [] false) s

/-! ## Instances -/

/-- Instance `id` of context `c`. -/
def State.inst (s : State) (c id : Nat) : Option Inst := Table.get? (s.ctx c).insts id

/-- The state with instance `id` changed. -/
def State.modInst (s : State) (c id : Nat) (f : Inst → Inst) : State :=
  match s.inst c id with
  | none => s
  | some x => s.modCtx c fun k => { k with insts := Table.set k.insts id (f x) }

/-- The group of an instance, while its epoch is the instance's. -/
def State.instGroup (s : State) (x : Inst) : Option Group := (Table.get? s.groups x.group).filter fun g => g.epoch = x.epoch

/-- The chunks that hold a byte of tile `t`'s contribution (R270); a RING_PASS has one. -/
def Inst.chunksOf (x : Inst) (g : Group) (t : Nat) : List Nat :=
  if x.op = 3 then [0]
  else
    match x.places.find? fun p => p.1 = t with
    | none => []
    | some p => (List.range ((p.2.1 + p.2.2 - 1) / g.chunk + 1 - p.2.1 / g.chunk)).map (p.2.1 / g.chunk + ·)

/-- Tile `t` has all its tokens of an instance. -/
def Inst.tileDone (x : Inst) (g : Group) (t : Nat) : Bool :=
  (Table.get? x.tiles t).any fun y => (x.chunksOf g t).all fun k => k ∈ y.given

/-- Every tile has its tokens and every message has been handed to the engine. -/
def Inst.finished (x : Inst) (g : Group) : Bool :=
  decide (x.tiles.length = g.ltCount) && x.tiles.all (fun e => x.tileDone g e.1)
    && (x.op = 3 || (x.reds g).all fun r => r.allLegs.all fun l => l.tag ∈ x.performed)

/-- A finished instance is closed. -/
def State.retireInst (s : State) (c id : Nat) : State :=
  match s.inst c id with
  | none => s
  | some x =>
    match s.instGroup x with
    | none => s
    | some g => if x.finished g then s.modCtx c fun k => { k with insts := Table.erase k.insts id } else s

/-- Every message whose bytes are known and that has not gone yet is sent; a received piece of the wrong length faults the context
(R266). -/
def State.progress (s : State) (c id : Nat) : State :=
  match s.inst c id with
  | none => s
  | some x =>
    match s.instGroup x with
    | none => s
    | some g =>
      if x.badLength g then (s.collSts c x.group 1).ctxFault c 14
      else
        let ready := (x.reds g).flatMap fun r => r.allLegs.filterMap fun l =>
          if l.tag ∈ x.performed then none else l.data.map fun d => (l, d)
        (forAll ready (fun p t => t.sendLeg c x g p.1 p.2)
          (s.modInst c id fun y => { y with performed := y.performed ++ ready.map fun p => p.1.tag })).retireInst c id

/-- Bytes of a scratchpad with their poison. -/
def State.takePBytes (s : State) (base at_ n : Nat) : List PByte :=
  (List.range n).map fun i => (s.padByte base (at_ + i), s.padPoison base ((at_ + i) / 64))

/-- Bytes written into a scratchpad, each line poisoned when a poisoned byte goes into it. -/
def State.putPBytes (s : State) (base at_ : Nat) (l : List PByte) : State :=
  s.applyWrites base (lineWrites (l.length + 1) at_ (l.map fun b => ([b.1], b.2)))

/-! ## Staging and credit (R271, R280) -/

/-- A staging half of a tile that no part uses. -/
def InstTile.freeHalf (y : InstTile) : Option Nat := [0, 1].find? fun h => y.staging.all fun p => p.half ≠ h

/-- Parts that have arrived whole leave the staging area once the tile's own contribution is there to be added to them. -/
def InstTile.drain (y : InstTile) : InstTile :=
  if y.contrib.isSome then { y with staging := y.staging.filter fun p => p.got < p.len } else y

/-- This member grants a neighbour credit for a part into tile `t` of an instance: the tile has issued, a staging half of it is free, and the
pool's staging is this instance's to use (R271, R280). -/
def State.grants (s : State) (c t : Nat) (g : Group) (x : Inst) : Bool :=
  ((Table.get? x.tiles t).any fun y => y.freeHalf.isSome) && s.poolTurn c g x.poolOrd

/-- Data of a part put into the staging half of tile `m.tile` that its part has, or that it takes with its credit (R271). -/
def State.stagePart (s : State) (c id : Nat) (g : Group) (m : CollMsg) (data : List PByte) : State :=
  match s.inst c id with
  | none => s
  | some x =>
    match Table.get? x.tiles m.tile with
    | none => s
    | some y =>
      let old := y.staging.find? fun p => p.tag = m.tag ∧ p.off = m.part.1
      let place := match old with
        | some p => some p
        | none => if s.grants c m.tile g x then y.freeHalf.map fun h => ⟨m.tag, m.part.1, m.part.2, 0, h⟩ else none
      match place with
      | none => s
      | some p =>
        let s1 := s.putPBytes (s.padBase c m.tile) (g.stgLine * 64 + p.half * g.half + (m.off - p.off)) data
        s1.modInst c id fun z => { z with
          tiles := Table.set z.tiles m.tile
            { y with staging := (y.staging.filter fun (q : Staged) => q.half ≠ p.half) ++ [{ p with got := p.got + data.length }] }.drain }

/-- The engine reads a tile's contribution (R260). -/
def State.contribute (s : State) (c t id : Nat) : State :=
  match (s.inst c id).bind fun x => Table.get? x.tiles t with
  | none => s
  | some y =>
    if y.contrib.isSome then s
    else
      (s.modInst c id fun x => { x with
        tiles := Table.set x.tiles t { y with contrib := some (s.takePBytes (s.padBase c t) (y.outLine * 64) y.size) }.drain }).progress c id

/-! ## The end of unit operations (R54, R103, R260) -/

/-- UNIT_OPERATION_COMPLETE (R54): at the end of its latency the operation writes its output, counts, and frees the unit; the
collective engine reads the contribution of an MMA_COLL. -/
def execUnitOperationComplete (c t : Nat) (u : UnitKind) (s : State) : Out :=
  match (s.tile c t).unit u with
  | none => .next s
  | some o =>
    if s.now < o.endAt then .next s
    else
      let s1 := (((s.modTile c t fun x => x.setUnit u none).applyWrites (s.padBase c t) o.writes).opCounts c t o)
      let s2 := match o.inst with
        | none => s1
        | some i => s1.contribute c t i
      .next (match o.ctr with
        | none => s2
        | some k => s2.addTokens c t k 1)

/-! ## MMA_COLL -/

/-- The operands that MMA_COLL adds (R87 and the table *MMA_COLL: added operands*). -/
structure CollOp where
  group : Nat
  op : Nat
  redFmt : Nat
  resLine : Nat
deriving DecidableEq, Repr

/-- The collective operands of an entry. -/
def collOp (e : EntryBits) : CollOp := ⟨ef e 107 96, ef e 95 93, ef e 92 90, ef e 42 31⟩

/-- The operand B area of an entry: first byte and bytes (R108, R277). -/
def bArea (o : MmaOp) : Nat × Nat := (o.bLine * 64, ceilDiv o.n 16 * blockStride o.fb o.k (o.k / 32))

/-- The bytes of an output of M · N elements. -/
def outSize (o : MmaOp) : Nat := o.m * o.n * elemBytes o.fo

/-- The areas of an MMA-layout entry beside its result: A, B, the C place, the occupancy mask: first byte and bytes. -/
def mmaAreas (o : MmaOp) : List (Nat × Nat) :=
  [(o.aLine * 64, ceilDiv o.m 16 * blockStride o.fa o.k (o.k / 32)), bArea o,
   (o.cLine * 64, if o.acc then max (o.m * o.n * 4) (outSize o) else outSize o)]
    ++ if o.occ then [(o.occLine * 64, ceilDiv o.m 8)] else []

/-- Two areas overlap. -/
def areasMeet (a b : Nat × Nat) : Bool := a.1 < b.1 + b.2 && b.1 < a.1 + a.2

/-- The ALL_GATHER result of an entry passes the scratchpad or overlaps another area of it (R261). -/
def gatherBad (e : EntryBits) (members : Nat) : Bool :=
  let o := mmaOp e
  let r := ((collOp e).resLine * 64, members * outSize o)
  decide (padSize < r.1 + r.2) || (mmaAreas o).any (areasMeet r)

/-- The open instances of a group at its epoch that tile `t` takes part in (R272). -/
def State.openInsts (s : State) (c t gi : Nat) (g : Group) : List Nat :=
  ((s.ctx c).insts.filter fun e => e.2.group = gi ∧ e.2.epoch = g.epoch ∧ (Table.get? e.2.tiles t).isSome ∧ !e.2.tileDone g t).map (·.1)

/-- The instance that tile `t`'s next MMA_COLL on a group belongs to, made where no tile has issued it yet; it takes the next value of
the group's sequence (R272). -/
def State.joinInst (s : State) (c t : Nat) (g : Group) (k : CollOp) (y : InstTile) : State × Nat :=
  let x := s.tile c t
  let n := Table.getD 0 x.instCount k.group
  let po := Table.getD 0 x.poolOrd g.pool
  let s1 := s.modTile c t fun z => { z with
    instCount := Table.put 0 z.instCount k.group (n + 1)
    poolOrd := if g.pool = 0 then z.poolOrd else Table.put 0 z.poolOrd g.pool (po + 1) }
  match (s.ctx c).insts.find? fun e => e.2.group = k.group ∧ e.2.epoch = g.epoch ∧ e.2.ordinal = n with
  | some e => (s1.modInst c e.1 fun z => { z with tiles := Table.set z.tiles t y }, e.1)
  | none =>
    let id := (s.ctx c).nextInst
    let z : Inst :=
      { group := k.group, ordinal := n, seq := g.seq, epoch := g.epoch, poolOrd := po, op := k.op, redFmt := k.redFmt
        tiles := [(t, y)], received := [], arriving := [], areas := [], performed := [] }
    ({ (s1.modCtx c fun q => { q with insts := Table.set q.insts id z, nextInst := id + 1 }) with
        groups := Table.set s1.groups k.group { g with seq := g.seq + 1 } }, id)

/-- A RING_PASS sends its B area to the same tile of the next member, unless this member is the only one (R277). -/
def State.startRing (s : State) (c t id : Nat) (g : Group) (data : List PByte) : State :=
  match s.inst c id with
  | none => s
  | some x =>
    let p := g.members.length
    if p = 1 then s.modInst c id fun y => { y with areas := Table.set y.areas t data }
    else
      s.startXfer c t (s.tile c t).pos none none
        (.ringPass x.group x.epoch ((g.self + 1) % p) ⟨x.seq, x.poolOrd, ⟨0, 0, 0, 0, 0⟩, t, 0, data.length, (0, data.length), data.map (·.1)⟩ (poisonOf data))
        data.length g.rate [] false

/-- MMA_COLL issues: the product on the array, and its instance. -/
def State.issueColl (s : State) (c t : Nat) (e : EntryBits) (g : Group) : State :=
  let o := mmaOp e
  let k := collOp e
  let ring := decide (k.op = 3)
  let b := bArea o
  let data := s.takePBytes (s.padBase c t) b.1 b.2
  let y : InstTile :=
    { size := if ring then b.2 else outSize o, outLine := o.cLine, resLine := k.resLine
      contrib := if ring then some data else none, given := [] }
  let j := s.joinInst c t g k y
  let op := { (s.mmaUnit c t e).begun e (s.tile c t).pos s.now with inst := if ring then none else some j.2 }
  let s1 := (j.1.modTile c t fun z => z.setUnit .matrix (some op)).issue c t e
  if ring then s1.startRing c t j.2 g data else s1

/-- MMA_COLL (R260): ISSUE_CONFLICT as any matrix entry and for a third open instance (R272), COLL_INVALID (R261,
R266), COLL_ORDER (R280). -/
def execMmaColl (c t : Nat) (s : State) : Out :=
  match s.dueClass c t 0x18 with
  | none => .next s
  | some e =>
    let k := collOp e
    let p := (s.tile c t).pos
    let bad := (s.collSts c k.group 1).ctxFault c 14
    if ((s.tile c t).matrix).isSome then .next (s.schedFault c t p 2 2)
    else
      match (Table.get? s.groups k.group).filter fun g => g.ctx = c with
      | none => .next bad
      | some g =>
        if 2 ≤ (s.openInsts c t k.group g).length then .next (s.schedFault c t p 2 2)
        else if !g.hasTile t ∨ !g.serves k.op ∨ (k.op = 2 ∧ gatherBad e g.members.length) then .next bad
        else if g.pool ≠ 0 ∧ (Table.getD 0 (s.tile c t).poolOrd g.pool).toNat % g.npool ≠ g.order then
          .next ((s.collSts c k.group 2).ctxFault c 15)
        else .next (s.issueColl c t e g)

/-! ## Completion of chunks (R261, R270, R277) -/

/-- The result bytes of a chunk that this member receives, once they are all here: member whose contribution they are (0 for a
reduction), offset in the chunk, bytes. -/
def Red.result (r : Red) : Option (List (Nat × Nat × List PByte)) :=
  let q := r.g.shape.1
  if r.x.op = 2 then
    (joinP ((List.range q).map r.bundle)).map fun _ =>
      (List.range q).flatMap fun p => (List.range r.g.shape.2).map fun h =>
        (h * q + p, 0, cutP ((r.bundle p).getD []) (h * r.own.length, r.own.length))
  else if r.g.alg = 1 then r.treeFinal.map fun d => [(0, 0, d)]
  else if r.x.op = 1 then r.finalSub.map fun d => [(0, (r.piece r.g.place.1).1 + (r.sub r.g.place.2).1, d)]
  else (joinP ((List.range q).map r.pieceFinal)).map fun d => [(0, 0, d)]

/-- A part of a chunk's result written into the result area of tile `t` (R261). -/
def State.writeResult (s : State) (c t : Nat) (x : Inst) (y : InstTile) (chunkAt : Nat) (part : Nat × Nat × List PByte) : State :=
  match x.places.find? fun p => p.1 = t with
  | none => s
  | some p =>
    let lo := max (chunkAt + part.2.1) p.2.1
    let hi := min (chunkAt + part.2.1 + part.2.2.length) (p.2.1 + p.2.2)
    if lo < hi then
      s.putPBytes (s.padBase c t) (y.resLine * 64 + part.1 * y.size + (lo - p.2.1))
        (cutP part.2.2 (lo - (chunkAt + part.2.1), hi - lo))
    else s

/-- A chunk token (R270). -/
def State.chunkToken (s : State) (c id t k : Nat) (g : Group) : State :=
  (((s.modInst c id fun x => { x with tiles := x.tiles.mapVals fun u y => if u = t then { y with given := y.given ++ [k] } else y }).cWrap c
    Off.CTX_COLL_CHUNKS 63 0 1).addTokens c t g.ctr 1).retireInst c id

/-- The outgoing area of a RING_PASS of tile `t` has been read: its transfer has been accepted. -/
def State.ringRead (s : State) (c t : Nat) (x : Inst) : Bool :=
  (s.ctx c).xfers.all fun e =>
    match e.2.kind with
    | .ringPass gi ep _ m _ => !(decide (gi = x.group ∧ ep = x.epoch ∧ m.seq = x.seq ∧ m.tile = t) && !e.2.inFlight)
    | _ => true

/-- COLL_CHUNK_COMPLETE (R270, R277): the next chunk of a tile is complete at this member: its result is in the result area and the
tile gets its token. -/
def execCollChunkComplete (c inst t : Nat) (s : State) : Out :=
  match s.inst c inst with
  | none => .next s
  | some x =>
    match s.instGroup x, Table.get? x.tiles t with
    | some g, some y =>
      match (x.chunksOf g t).find? fun k => k ∉ y.given with
      | none => .next s
      | some k =>
        if x.op = 3 then
          match (Table.get? x.areas t).filter fun a => a.length = y.size with
          | none => .next s
          | some a =>
            if s.ringRead c t x then .next ((s.putPBytes (s.padBase c t) (y.resLine * 64) a).chunkToken c inst t 0 g) else .next s
        else
          match ((x.reds g)[k]?).bind Red.result with
          | none => .next s
          | some l => .next ((forAll l (fun part u => u.writeResult c t x y (k * g.chunk) part) s).chunkToken c inst t k g)
    | _, _ => .next s

/-! ## Frames (R273, R277, R280, R283) -/

/-- The bytes of a payload with the poison of its POISON word, from payload byte `off` on (R290). -/
def withPoison (poison : Word) (off : Nat) (data : List Byte) : List PByte :=
  (data.zipIdx).map fun b => (b.1, poison.getLsbD ((off + b.2) / 64))

/-- The instance of a group that a frame's sequence value names, opened by the tile that the frame's data go to (R271, R283). -/
def State.matchInst (s : State) (c gi : Nat) (g : Group) (seq : BitVec 32) (t : Nat) (ring : Bool) : Option (Nat × Inst) :=
  (s.ctx c).insts.find? fun e =>
    e.2.group = gi ∧ e.2.epoch = g.epoch ∧ e.2.seq = seq ∧ (decide (e.2.op = 3) = ring) ∧ (Table.get? e.2.tiles t).isSome

/-- The parts of a piece that have arrived, put in place; the whole piece once every byte of it is there. -/
def Inst.assemble (x : Inst) (tag : PieceTag) (total : Nat) : Option (List PByte) :=
  let l := (x.arriving.filter fun p => p.1 = tag).map (·.2)
  if (l.map fun p => p.2.length).sum = total then
    some ((List.range total).map fun i =>
      ((l.find? fun p => p.1 ≤ i ∧ i < p.1 + p.2.length).map fun p => p.2.getD (i - p.1) (0, false)).getD (0, false))
  else none

/-- Part of a collective piece arrives (R271, R273); a piece that is whole may let more messages go. -/
def State.takePiece (s : State) (c id : Nat) (g : Group) (m : CollMsg) (data : List PByte) : State :=
  match ((s.stagePart c id g m data).modInst c id fun x => { x with arriving := x.arriving ++ [(m.tag, m.off, data)] }) with
  | t =>
    match (t.inst c id).bind fun x => x.assemble m.tag m.total with
    | none => t
    | some l =>
      (t.modInst c id fun x => { x with
        arriving := x.arriving.filter fun p => p.1 ≠ m.tag
        received := x.received ++ [(m.tag, l)] }).progress c id

/-- Part of a RING_PASS area arrives (R277); an area of another length than the tile's own faults the context (R266). -/
def State.takeArea (s : State) (c id : Nat) (gi : Nat) (m : CollMsg) (data : List PByte) : State :=
  if ((s.inst c id).bind fun x => Table.get? x.tiles m.tile).any fun y => y.size ≠ m.total then (s.collSts c gi 1).ctxFault c 14
  else s.modInst c id fun x => { x with areas := Table.set x.areas m.tile (Table.getD [] x.areas m.tile ++ data) }

/-- A group that is valid for a context. -/
def State.groupFor (s : State) (c gi : Nat) : Option Group := (Table.get? s.groups gi).filter fun g => g.ctx = c

/-- The payload of a COLL (`ring = false`) or RING frame that passed the receive checks, for context `c`, group `gi` at epoch `epoch`:
discarded and counted where its epoch is not the group's or no open instance matches (R283), COLL_ORDER (15) for a pooled piece out of
turn (R280). -/
def State.takeColl (s : State) (c gi : Nat) (epoch : BitVec 16) (ring : Bool) (m : CollMsg) (poison : Word) : State :=
  match s.groupFor c gi with
  | none => s.cSat c Off.CTX_STALE_EPOCH 31 0 1
  | some g =>
    if g.epoch ≠ epoch then s.cSat c Off.CTX_STALE_EPOCH 31 0 1
    else if g.pool ≠ 0 ∧ m.ordinal.toNat % g.npool ≠ g.order then (s.collSts c gi 2).ctxFault c 15
    else
      match s.matchInst c gi g m.seq m.tile ring with
      | none => s.cSat c Off.CTX_STALE_EPOCH 63 32 1
      | some (id, _) =>
        let data := withPoison poison 64 m.data
        if ring then s.takeArea c id gi m data else s.takePiece c id g m data

/-! ## Aborted instances (R282) -/

/-- The result bytes of tile `t` that this member is to receive in chunks without a token: offsets from the result area's start. -/
def Inst.openRanges (x : Inst) (g : Group) (t : Nat) (y : InstTile) : List (Nat × Nat) :=
  let left := (x.chunksOf g t).filter fun k => k ∉ y.given
  if x.op = 3 then (if left = [] then [] else [(0, y.size)])
  else
    match x.places.find? fun p => p.1 = t with
    | none => []
    | some p =>
      left.flatMap fun k =>
        let L := x.chunkLen g k
        let r := if x.op = 1 then
            let pc := pieceAt g.shape.1 L g.place.1
            let sb := pieceAt g.shape.2 pc.2 g.place.2
            (pc.1 + sb.1, sb.2)
          else (0, L)
        let lo := max (k * g.chunk + r.1) p.2.1
        let hi := min (k * g.chunk + r.1 + r.2) (p.2.1 + p.2.2)
        if lo < hi then (List.range (if x.op = 2 then g.members.length else 1)).map fun j => (j * y.size + (lo - p.2.1), hi - lo) else []

/-- The lines of a range of bytes of a scratchpad marked poisoned. -/
def State.poisonRange (s : State) (base at_ n : Nat) : State :=
  if n = 0 then s
  else
    { s with
      scratchPoison := (List.range ((at_ + n - 1) / 64 - at_ / 64 + 1)).foldl (fun l k => insertNat (base / 64 + (at_ / 64 + k)) l)
        s.scratchPoison }

/-- An open instance aborts: result lines not final are poisoned, the remaining tokens are added at once, and ABORTS counts. -/
def State.abortInst (s : State) (c id : Nat) (g : Group) : State :=
  match s.inst c id with
  | none => s
  | some x =>
    let s1 := (s.modCtx c fun k => { k with insts := Table.erase k.insts id }).cSat c Off.CTX_COLL_STS 63 32 1
    forAll x.tiles (fun e t =>
      let left := ((x.chunksOf g e.1).filter fun k => k ∉ e.2.given).length
      let t1 := forAll (x.openRanges g e.1 e.2) (fun r u => u.poisonRange (u.padBase c e.1) (e.2.resLine * 64 + r.1) r.2) t
      (t1.cWrap c Off.CTX_COLL_CHUNKS 63 0 left).addTokens c e.1 g.ctr left) s1

end Sys2Proof.Machine
end

