-- ==== Sys2Proof/Machine/Wire.lean ====
section
/-! DEFINITION. What a frame is on the wire (R288, R290): the Ethernet header, the words of the transport header, the payload records whose
layout the manual gives (R295, R302, R349, R352). -/

namespace Sys2Proof.Machine

/-! ## Words -/

/-- A 64-bit word with fields at their lowest bits. -/
def packW (l : List (Nat × Nat)) : Word := BitVec.ofNat 64 (l.map fun e => e.1 * 2 ^ e.2).sum

/-- The four words of the transport header (tables *Transport header* and R352): bits of no field are 0 when sent. -/
def hdrWords (h : FrameHdr) : List Word :=
  [packW [(h.dst % 2 ^ 20, 0), (h.src % 2 ^ 20, 20), (h.cls % 8, 40), (h.typ % 32, 43), (h.obj % 4096, 48), (b2n h.ackv, 60), (b2n h.replay, 61),
     (b2n h.last, 62), (b2n h.kalive, 63)],
   packW [(h.seq.toNat, 0), (h.ack.toNat, 32)],
   packW [(h.pepoch.toNat, 0), (h.oepoch.toNat, 16), (h.len % 8192, 32), (h.ctx % 1024, 45), (h.lane % 16, 55), (b2n h.laned, 59)],
   h.poison]

/-- The transport header that four words hold; bits of no field are ignored on receipt (R290). -/
def hdrOfWords (l : List Word) : FrameHdr :=
  let w (i : Nat) := l.getD i 0
  { dst := fld (w 0) 19 0
    src := fld (w 0) 39 20
    cls := fld (w 0) 42 40
    typ := fld (w 0) 47 43
    obj := fld (w 0) 59 48
    ackv := decide (fld (w 0) 60 60 = 1)
    replay := decide (fld (w 0) 61 61 = 1)
    last := decide (fld (w 0) 62 62 = 1)
    kalive := decide (fld (w 0) 63 63 = 1)
    seq := BitVec.ofNat 32 (fld (w 1) 31 0)
    ack := BitVec.ofNat 32 (fld (w 1) 63 32)
    pepoch := BitVec.ofNat 16 (fld (w 2) 15 0)
    oepoch := BitVec.ofNat 16 (fld (w 2) 31 16)
    len := fld (w 2) 44 32
    ctx := fld (w 2) 54 45
    lane := fld (w 2) 58 55
    laned := decide (fld (w 2) 59 59 = 1)
    poison := w 3 }

/-! ## Payloads -/

/-- The record in the first 16 bytes of a MIRROR frame (table *MIRROR payload record*, R349). -/
def mirrorWords (m : MirrorMsg) : List Word :=
  [packW [(m.gen.toNat, 0), (m.kind % 4, 48), (b2n m.full, 50), (b2n m.rebuild, 51), (b2n m.err, 52)],
   packW [(m.page % 2 ^ 24, 0), (m.off % 2 ^ 17, 24)]]

/-- The relay record (R295). -/
def relayWord (final orig typ : Nat) : Word := packW [(final % 2 ^ 20, 0), (orig % 2 ^ 20, 20), (typ % 32, 40)]

/-- A class record of a LINKCTL payload: two words (table *LINKCTL payload*). -/
def classWords (r : ClassRec) : List Word := [packW [(r.ack.toNat, 0), (b2n r.ackv, 32), (b2n r.nak, 33)], r.freed]

/-- A flow record of a LINKCTL payload: 32 bits. -/
def flowWord (r : FlowRec) : Nat := r.ctx % 1024 + r.link % 1024 * 2 ^ 10 + b2n r.on * 2 ^ 20

/-- Words as little-endian bytes. -/
def wordBytes (l : List Word) : List Byte := l.flatMap fun w => leBytes 8 w.toNat

/-- The bytes of a payload, as far as the manual lays them out: not those of a vote, a decision or a collective piece (logs 30, 31). -/
def payloadBytes (b : Payload) : Option (List Byte) :=
  match b with
  | .raw l => some l
  | .linkctl recs flows =>
    some (wordBytes (recs.flatMap classWords) ++ leBytes 4 flows.length ++ flows.flatMap fun r => leBytes 4 (flowWord r))
  | .mirror m => some (wordBytes (mirrorWords m) ++ m.data)
  | .relayed final orig typ (.mgmt e) => some (leBytes 8 (relayWord final orig typ).toNat ++ leBytes 64 e.toNat)
  | .ctl (.mgmt e) => some (leBytes 64 e.toNat)
  | .ctl (.mgmtDone l) => some (wordBytes l)
  | .ctl _ | .coll _ | .relayed _ _ _ _ => none

/-! ## The Ethernet frame -/

/-- The bytes of a frame from destination MAC to FCS (table *Frame on the wire*, R290). -/
def wireBytes (len : Nat) : Nat := max 64 (54 + len)

/-- The zeros that pad a frame before its FCS (R290). -/
def padBytes (len : Nat) : Nat := wireBytes len - (54 + len)

/-- The priority of a class (table *Traffic classes*). -/
def pcpOf (c : Nat) : Nat := 7 - c

/-- The next-hop MAC of a link or lane through its active port (tables *Direct route entry*, *Frame on the wire*); a lane takes MAC_P on its own port
and MAC_S on that port's partner (log 103). -/
def State.nextHop (s : State) (k : Nat) : BitVec 48 :=
  ((s.routeOfKey k).map fun r => if (s.link k).onSecondary then r.macS else r.macP).getD 0

/-- The VLAN tag of a class on the port's die: PCP, DEI 0, VID. -/
def State.tagOf (s : State) (p c : Nat) : BitVec 16 := BitVec.ofNat 16 (pcpOf c * 2 ^ 13 + s.rf (bar0 (portDie p) 0 Off.EAV_ETYPE) 27 16)

/-- A frame of a link as port `p` puts it on the wire. -/
def State.ethernet (s : State) (k p : Nat) (f : Frame) : EthFrame :=
  { dst := s.nextHop k
    src := BitVec.ofNat 48 (s.rf (portReg p Off.EAV_MAC) 47 0)
    tpid := 0x8100
    tci := s.tagOf p f.hdr.cls
    etype := BitVec.ofNat 16 (s.rf (bar0 (portDie p) 0 Off.EAV_ETYPE) 15 0)
    header := hdrWords f.hdr
    payload := payloadBytes f.body
    pad := padBytes f.hdr.len }

/-- Check 2 of R296: EtherType, VID and destination MAC of a received frame match its port. -/
def State.macMatch (s : State) (f : RxFrame) : Bool :=
  f.eth.dst.toNat = s.rf (portReg f.port Off.EAV_MAC) 47 0 && f.eth.tpid = 0x8100
    && f.eth.tci.toNat % 4096 = s.rf (bar0 (portDie f.port) 0 Off.EAV_ETYPE) 27 16
    && f.eth.etype.toNat = s.rf (bar0 (portDie f.port) 0 Off.EAV_ETYPE) 15 0

end Sys2Proof.Machine
end

