-- ==== Sys2Proof/Machine/LinkLayer.lean ====
section
/-! DEFINITION. The reliable link layer (R296 to R312, R411, R441): receive checks, acknowledgement and replay, credits, the start of
frames, timers, failed ports and moves, per-hop pause. -/

namespace Sys2Proof.Machine

/-! ## Fault windows of links (R300, R310, R445) -/

/-- A replay on a class of a link is an absorbed fault of its own unless one of the link is already open. -/
def State.openReplay (s : State) (k c : Nat) : State :=
  if .link k ∈ s.faultWins then s else s.openWindow (.linkClass k c)

/-- The last frame of a replay has been acknowledged: its fault is absorbed, and that of a moved link once no class of it waits. -/
def State.replayAbsorbed (s : State) (k c : Nat) : State :=
  let s1 := s.closeWindow (.linkClass k c)
  if (s1.link k).movedUntil ∧ (s1.link k).classes.all (fun e => e.2.held = [] || laterMod 32 e.2.una.toNat e.2.replayEnd.toNat) then
    (s1.modLink k fun l => { l with movedUntil := false }).closeWindow (.link k)
  else s1

/-! ## Acknowledgement and replay (R299) -/

/-- Whether an acknowledgement `a` is later than UNA and not later than the next number to send. -/
def LinkClass.ackOk (l : LinkClass) (a : BitVec 32) : Bool :=
  laterMod 32 a.toNat l.una.toNat && !laterMod 32 a.toNat l.next.toNat

/-- An acknowledgement for class `c` of a link: frames before it are freed, and a replay that it passes is over. The stage of a vote or decision
ends for its sender with the acknowledgement, which is all it sees of the arrival (R247; log 101). -/
def State.ackClass (s : State) (k c : Nat) (a : BitVec 32) : State :=
  let l := s.lc k c
  if l.ackOk a then
    let stages := (l.held.filter fun f => earlierMod 32 f.seq.toNat a.toNat).filterMap (·.stage)
    let s1 := (forAll stages (fun x t => t.stageOver x.1 x.2) s).modLc k c fun x => { x with
      una := a
      held := x.held.filter fun f => !earlierMod 32 f.seq.toNat a.toNat
      replay := x.replay.map fun p => if earlierMod 32 p.toNat a.toNat then a else p }
    if laterMod 32 a.toNat l.replayEnd.toNat ∨ (s1.lc k c).held = [] then
      (s1.modLc k c fun x => { x with replay := if x.held = [] then none else x.replay }).replayAbsorbed k c
    else s1
  else s

/-- A replay of class `c` of a link starts from sequence number `n`, or goes on from the earlier of its place and `n` (R299, R300). -/
def State.startReplay (s : State) (k c : Nat) (n : BitVec 32) : State :=
  let l := s.lc k c
  match l.held.getLast? with
  | none => s
  | some z =>
    let s1 := s.modLc k c fun x => { x with
      replay := match x.replay with
        | none => some n
        | some p => some (if earlierMod 32 n.toNat p.toNat then n else p)
      replayEnd := z.seq }
    let s2 := if l.replay.isSome then s1
      else
        match s1.activePort k with
        | none => s1
        | some p => { s1 with replayCount := Table.put 0 s1.replayCount (p / 8) (Table.getD 0 s1.replayCount (p / 8) + 1) }
    s2.openReplay k c

/-- A negative acknowledgement for class `c` that arrives at port `p` (R299). -/
def State.nakClass (s : State) (k c p : Nat) (n : BitVec 32) : State :=
  let l := s.lc k c
  let s1 := s.sat (portReg p Off.EAV_REPLAY) 63 32 1
  if !earlierMod 32 n.toNat l.una.toNat && earlierMod 32 n.toNat l.next.toNat then s1.startReplay k c n else s1

/-! ## Activity (R302) -/

/-- Some frame is held for retransmission here, or a frame of class 0 or 2 to 7 went or came within the last 50 µs, or an acknowledgement
is due. -/
def State.linkActive (s : State) (k : Nat) : Bool :=
  let l := s.link k
  !l.down && (l.classes.any (fun e => e.2.held ≠ [] || e.2.ackDue) || (l.lastTx ≠ 0 && s.now ≤ l.lastTx + s.cyc 50000)
    || (l.lastData ≠ 0 && s.now ≤ l.lastData + s.cyc 50000))

/-- A link that is not active yet is active on its port from now on. -/
def State.wakeLink (s : State) (k : Nat) : State :=
  if s.linkActive k then s else s.modLink k fun l => { l with since := s.now }

/-- Active logical links on a port. -/
def State.activeOn (s : State) (p : Nat) : Nat := (s.linkKeys.filter fun k => s.activePort k = some p && s.linkActive k).length

/-- The LINKCTL interval of a port in ns (R302, R441). -/
def State.ctlNs (s : State) (p : Nat) : Nat := 2000 * max 1 (ceilDiv (s.activeOn p) 16)

/-! ## Receiving (R296 to R298) -/

/-- The link or lane that a frame from a node belongs to; none where the entry has no such lane. -/
def State.frameKey (s : State) (h : FrameHdr) : Option Nat :=
  (Table.get? s.routes h.src).bind fun r =>
    if !h.laned then some (linkKey h.src) else if h.lane < popcount r.lanes then some (laneKey h.src h.lane) else none

/-- A saturating counter of the EAV page of a port's die. -/
def State.eavSat (s : State) (p off hi lo : Nat) : State := s.sat (bar0 (portDie p) 0 off) hi lo 1

/-- Check 1 to check 6 of a frame: the counter that a failed check advances, as register offset and bits. -/
def State.checks (s : State) (f : RxFrame) : Option (Nat × Nat × Nat) :=
  let h := f.frame.hdr
  if !s.macMatch f then some (Off.EAV_DROP, 47, 32)
  else if h.dst ≠ s.node then some (Off.EAV_DROP, 15, 0)
  else if (s.frameKey h).isNone then some (Off.EAV_DROP, 15, 0)
  else if typeClass h.typ ≠ some h.cls ∨ 4096 < h.len then some (Off.EAV_DROP, 47, 32)
  else if ((Table.get? s.routes h.src).map (·.pepoch)) ≠ some h.pepoch then some (Off.EAV_DROP, 31, 16)
  else none

/-- The context whose frame this is, for the byte counters (R397). -/
def frameCtx (f : Frame) : Option Nat := if (1 ≤ f.hdr.typ ∧ f.hdr.typ ≤ 7) ∨ f.hdr.typ = 10 then some f.hdr.ctx else none

/-- A context whose transfers of classes 2 to 7 that cross link `k` have no deadline any more (R411). -/
def Ctx.dropDeadlines (k : Nat) (x : Ctx) : Ctx :=
  { x with
    xfers := x.xfers.mapVals fun _ y =>
      if y.inFlight && y.crosses.any (fun e => match e with
        | .linkClass j c => decide (j = k ∧ 2 ≤ c)
        | _ => false) then { y with deadline := none } else y }

/-- A frame of a link arrived at port `p`: the time of the last one on its active port (R303), its KALIVE; on the first with KALIVE the transfers of
classes 2 to 7 on the link lose their deadlines (R411). -/
def State.sawFrame (s : State) (k p : Nat) (f : Frame) : State :=
  let first := f.hdr.kalive && !(s.link k).peerKalive
  let s1 := (s.wakeLink k).modLink k fun l => { l with
    lastRx := if s.activePort k = some p then s.now else l.lastRx
    lastData := if f.hdr.cls = 1 then l.lastData else s.now
    peerKalive := f.hdr.kalive }
  if first then s1.mapCtxs (Ctx.dropDeadlines k) else s1

/-- Bytes that a frame takes in windows and in ingress memory (R301). -/
def hdrCredit (h : FrameHdr) : Nat := h.len + 32

/-- Bytes of ingress memory of an Eave die in use. -/
def State.ingressUsed (s : State) (e : Nat) : Nat :=
  ((List.range 8).map fun i => ((s.port (8 * e + i)).ingress.map fun f => hdrCredit f.frame.hdr).sum).sum

/-- Bytes of headroom of a port (R305). -/
def State.headroom (s : State) (p : Nat) : Nat :=
  s.portRate p * (10 * min 100 (s.rf (portReg p Off.EAV_PCTL) 17 11) + 500) + 8340

/-- XOFF of a priority of a port (R305). -/
def State.xoff (s : State) (p : Nat) : Nat :=
  let n := ((List.range 6).filter fun b => bitAt (s.rf (portReg p Off.EAV_PCTL) 10 3) b).length
  1835008 / max 1 n - s.headroom p

/-- A pause frame put on a port's wire. -/
def State.sendPause (s : State) (p prio quanta : Nat) : State := { s with wire := s.wire ++ [.pause p prio quanta] }

/-- The nanoseconds of a pause: a quantum is 512 bit times of the port (R305). -/
def State.pauseNs (s : State) (p quanta : Nat) : Nat := ceilDiv (quanta * 64) (max 1 (s.portRate p))

/-- Flow control runs on a priority of a port: classes 2 to 7, as far as PFC_EN has them (R305). -/
def State.pfcOn (s : State) (p prio : Nat) : Bool := bitAt (s.rf (portReg p Off.EAV_PCTL) 10 3) prio && decide (prio < 6)

/-- The level of a priority in a port's receive buffer set: at XOFF the port sends a pause, at XON one of 0 quanta (R305). -/
def State.setFill (s : State) (p prio n : Nat) : State :=
  let s1 := s.modPort p fun x => { x with fill := Table.put 0 x.fill prio n }
  let held := (Table.get? (s.port p).pausedPeer prio).isSome
  if s.pfcOn p prio && !held && decide (s.xoff p ≤ n) then
    (s1.modPort p fun x => { x with pausedPeer := Table.set x.pausedPeer prio s.now }).sendPause p prio 0xFFFF
  else if held && decide (n ≤ s.xoff p - 8340) then
    (s1.modPort p fun x => { x with pausedPeer := Table.erase x.pausedPeer prio }).sendPause p prio 0
  else s1

/-- A frame in sequence is accepted (R297, R298): its acknowledgement takes effect, then its delivery; in keep-alive a frame of classes 2
to 7 is held in ingress memory instead (R411). -/
def State.acceptFrame (s : State) (k : Nat) (f : RxFrame) (deliver : State → State) : State :=
  let h := f.frame.hdr
  let s1 := if h.ackv then s.ackClass k h.cls h.ack else s
  let s2 := s1.modLc k h.cls fun l => { l with exp := l.exp + 1, nakSent := false, ackDue := true }
  if s.keepAlive ∧ 2 ≤ h.cls then s2.modPort f.port fun p => { p with ingress := p.ingress ++ [f] }
  else
    let s3 := s2.modLc k h.cls fun l => { l with freed := l.freed + BitVec.ofNat 64 (hdrCredit h) }
    deliver (match frameCtx f.frame with
      | none => s3
      | some c => s3.cWrap c Off.CTX_BYTES_ERX 63 0 (wireBytes h.len))

/-- The sequence rule (R298) on a frame that passed checks 1 to 6; a LINKCTL frame has none. -/
def State.sequence (s : State) (k : Nat) (f : RxFrame) (deliver : State → State) : State :=
  let h := f.frame.hdr
  let l := s.lc k h.cls
  if h.cls = 1 then deliver s
  else if h.seq = l.exp then
    if s.keepAlive ∧ 2 ≤ h.cls ∧ 2 ^ 24 < s.ingressUsed (f.port / 8) + hdrCredit h then
      (s.modPort f.port fun p => { p with rxbuf := p.rxbuf ++ [f] }).setFill f.port (pcpOf h.cls)
        (Table.getD 0 (s.port f.port).fill (pcpOf h.cls) + wireBytes h.len)
    else s.acceptFrame k f deliver
  else if laterMod 32 h.seq.toNat l.exp.toNat then if l.nakSent then s else s.sendLinkctl k (some h.cls)
  else (s.sat (portReg f.port Off.EAV_RXERR) 63 32 1).modLc k h.cls fun l => { l with ackDue := true }

/-- A frame arrives at a port that is up (R296): the first check that fails decides its outcome. -/
def State.receive (s : State) (f : RxFrame) (deliver : State → State) : State :=
  if !s.portUpNow f.port ∨ !s.alive (portDie f.port) then s
  else
    let a := portReg f.port Off.EAV_FECCNT
    let s1 := (s.sat a 31 0 f.fecCorr).sat a 63 32 f.fecUncorr
    if !f.fcsOk ∨ 0 < f.fecUncorr then s1.sat (portReg f.port Off.EAV_RXERR) 31 0 1
    else
      match s1.checks f with
      | some (off, hi, lo) => s1.eavSat f.port off hi lo
      | none =>
        match s1.frameKey f.frame.hdr with
        | none => s1
        | some k => (s1.sawFrame k f.port f.frame).sequence k f deliver

/-! ## Starting frames (R275, R299, R301, R309) -/

/-- The shaping tokens of a port: 1/64 of the port rate since the last time, at most 64 KiB (R275). -/
def State.shapeTokens (s : State) (p : Nat) : Nat :=
  let x := s.port p
  min 65536 (x.bucket + (s.now - x.bucketAt) * effDiv s.eff * s.portRate p / 8 / 64)

/-- The shaping tokens of a port counted up to now, before its rate or the divider changes. -/
def State.settlePort (s : State) (p : Nat) : State := s.modPort p fun x => { x with bucket := s.shapeTokens p, bucketAt := s.now }

/-- The priority of a class is paused at a port now. -/
def State.pausedNow (s : State) (p c : Nat) : Bool := (Table.get? (s.port p).pausedUntil (pcpOf c)).any fun t => decide (s.now < t)

/-- The frame that class `c` of a link sends next: one of a replay, or a new one. -/
def State.nextFrame (s : State) (k c : Nat) : Option (Bool × Frame) :=
  let l := s.lc k c
  match l.replay with
  | some n => (l.held.find? fun f => !earlierMod 32 f.seq.toNat n.toNat).map fun f => (true, f.frame)
  | none => l.txq.head?.map fun f => (false, f.frame)

/-- Bytes held for links whose active port, or whose active or other port, is `p` (R309). -/
def State.heldBytes (s : State) (p : Nat) (both : Bool) : Nat :=
  ((s.linkKeys.filter fun k => s.activePort k = some p ∨ (both ∧ s.otherPort k = some p)).map fun k =>
    ((s.link k).classes.map fun e => (e.2.held.map fun f => hdrCredit f.frame.hdr).sum).sum).sum

/-- RTX_LIMIT of a port in bytes. -/
def State.rtxLimit (s : State) (p : Nat) : Nat := max 1 (min 512 (s.rf (portReg p Off.EAV_PCTL) 41 32)) * 4096

/-- A new frame of class `c` has credit and retransmit room (R301, R309). -/
def State.creditOk (s : State) (k c n : Nat) : Bool :=
  let l := s.lc k c
  c = 1 || (decide ((l.sent + BitVec.ofNat 64 n - l.freedHeld).toNat ≤ s.rf Off.RDG_RXWIN (8 * c + 7) (8 * c) * 4096)
    && (match s.activePort k, s.otherPort k with
      | some p, some q => decide (s.heldBytes p false + n ≤ s.rtxLimit p) && decide (s.heldBytes p true + n ≤ 2 ^ 22)
          && decide (s.heldBytes q true + n ≤ 2 ^ 22)
      | _, _ => false))

/-- The next new frame of a class has all come from its tile to the Eave die (R315). -/
def State.headHere (s : State) (k c : Nat) : Bool := (s.lc k c).txq.head?.all fun f => f.owner.all fun o => !s.anyOnWay o.1 o.2

/-- Class `c` of a link has a frame that could start now on its active port, but for a frame that the port is transmitting. -/
def State.startable (s : State) (k c : Nat) : Bool :=
  match s.activePort k, s.nextFrame k c with
  | some p, some (again, f) =>
    s.portUpNow p && !s.portFailed p && s.alive (portDie p) && !(s.link k).down && !(s.link k).moving && !(s.keepAlive && decide (2 ≤ c))
      && !s.pausedNow p c && (decide (2 ≤ c) || decide (wireBytes f.hdr.len ≤ s.shapeTokens p))
      && (again || (s.creditOk k c (hdrCredit f.hdr) && s.headHere k c
        && !(decide (2 ≤ c) && (s.link k).movedUntil && (s.link k).classes.any fun e => e.2.replay.isSome)))
  | _, _ => false

/-- A port is transmitting a frame. -/
def State.transmits (s : State) (p : Nat) : Bool := s.now < (s.port p).busyUntil

/-- Class `c` of a link may start a frame now on its active port. -/
def State.mayStart (s : State) (k c : Nat) : Bool := s.startable k c && !(s.activePort k).any s.transmits

/-- A frame of class `c` of some link waits with credit on a port now. -/
def State.waiting (s : State) (p c : Nat) : Bool := s.linkKeys.any fun j => s.activePort j = some p && s.startable j c

/-- The weight of a class 2 to 7 in EAV_WRR of a port, in 1/256. -/
def State.weight (s : State) (p c : Nat) : Nat :=
  s.rf (bar0 (portDie p) 0 (Off.EAV_WRR + 8 * (p % 8))) (8 * (c - 2) + 7) (8 * (c - 2))

/-- When a weighted class is due by its share: where it stands in the port's virtual time, which a class with nothing to send does not hold back
(R275). -/
def State.shareAt (s : State) (p c : Nat) : Nat := max (Table.getD 0 (s.port p).served c) (s.port p).vtime

/-- Another class goes before class `c` on a port: classes 0 and 1 strictly; of the weighted classes one that is behind it in its share, and any
before a class of weight 0 (R275; log 51). -/
def State.servedBefore (s : State) (p c : Nat) : Bool :=
  ((List.range (min c 2)).any fun b => s.waiting p b)
    || (decide (2 ≤ c) && [2, 3, 4, 5, 6, 7].any fun b =>
      b ≠ c && s.waiting p b && s.weight p b ≠ 0 && (s.weight p c = 0 || s.shareAt p b < s.shareAt p c))

/-- The share that a frame of `n` bytes of a weighted class takes (R275). -/
def State.takeShare (s : State) (p c n : Nat) : State :=
  if c < 2 then s
  else
    s.modPort p fun x =>
      { x with vtime := s.shareAt p c, served := Table.put 0 x.served c (s.shareAt p c + n * 65536 / max 1 (s.weight p c)) }

/-- A frame leaves on a port: its link-layer fields are set, its bytes counted, its tokens taken (R275, R290, R397). -/
def State.onWire (s : State) (k p : Nat) (f : Frame) (again : Bool) (seq : BitVec 32) : State :=
  let l := s.lc k f.hdr.cls
  let h : FrameHdr := { f.hdr with
    kalive := s.keepAlive
    replay := again
    seq := if f.hdr.cls = 1 then 0 else seq
    ackv := decide (f.hdr.cls ≠ 1)
    ack := if f.hdr.cls = 1 then 0 else l.exp
    pepoch := ((s.routeOfKey k).map fun r => r.pepoch).getD 0 }
  let s := s.modPort p fun x =>
    { x with busyUntil := s.now + ceilDiv (wireBytes f.hdr.len * 8) (max 1 (s.portRate p * effDiv s.eff)) }
  let s1 := if 2 ≤ f.hdr.cls then s.takeShare p f.hdr.cls (wireBytes f.hdr.len)
    else s.modPort p fun x => { x with bucket := s.shapeTokens p - wireBytes f.hdr.len, bucketAt := s.now }
  let s2 := { s1 with wire := s1.wire ++ [WireFrame.data p (s.ethernet k p ⟨h, f.body⟩) ⟨h, f.body⟩] }.wrap (portReg p Off.EAV_TXCNT) 63 0 1
  let s3 := if again then s2.sat (portReg p Off.EAV_REPLAY) 31 0 1
    else
      match frameCtx f with
      | none => s2
      | some c => s2.cWrap c Off.CTX_BYTES_ETX 63 0 (wireBytes f.hdr.len)
  if f.hdr.cls = 1 then s3
  else (s3.wakeLink k).modLink k fun x => { x with
    lastTx := s.now
    classes := x.classes.mapVals fun c y => if c = f.hdr.cls then { y with ackDue := false } else y }

/-- The next frame of a replay is sent again (R299). -/
def State.sendAgain (s : State) (k c p : Nat) (n : BitVec 32) : State :=
  match (s.lc k c).held.find? fun f => !earlierMod 32 f.seq.toNat n.toNat with
  | none => s.modLc k c fun l => { l with replay := none }
  | some z =>
    (s.onWire k p z.frame true z.seq).modLc k c fun l => { l with
      held := l.held.map fun f => if f.seq = z.seq then { f with sentAt := s.now } else f
      replay := if z.seq = l.replayEnd ∨ laterMod 32 z.seq.toNat l.replayEnd.toNat then none else some (z.seq + 1) }

/-- A new frame is sent and, but for class 1, held until it is acknowledged (R299, R301). -/
def State.sendNew (s : State) (k c p : Nat) : State :=
  match (s.lc k c).txq with
  | [] => s
  | x :: r =>
    let seq := (s.lc k c).next
    (s.onWire k p x.frame false seq).modLc k c fun l =>
      if c = 1 then { l with txq := r }
      else { l with
        txq := r
        next := l.next + 1
        sent := l.sent + BitVec.ofNat 64 (hdrCredit x.frame.hdr)
        held := l.held ++ [⟨seq, s.now, x.frame, x.owner, x.stage⟩] }

/-- FRAME_TRANSMIT (R275, R301): class `cls` of a link starts its next frame. -/
def execFrameTransmit (link cls : Nat) (s : State) : Out :=
  match s.activePort link with
  | none => .next s
  | some p =>
    if s.mayStart link cls ∧ !s.servedBefore p cls then
      .next (match (s.lc link cls).replay with
        | some n => s.sendAgain link cls p n
        | none => s.sendNew link cls p)
    else .next s

/-! ## Timers -/

/-- REPLAY_TIMER (R299, R411): the oldest held frame has gone 4 µs since it was last sent; the timer of classes 2 to 7 stands still while
the peer is in keep-alive. -/
def execReplayTimer (link cls : Nat) (s : State) : Out :=
  match (s.lc link cls).held with
  | [] => .next s
  | f :: _ =>
    if s.kaliveOn link cls ∨ (s.link link).down ∨ s.now < f.sentAt + s.cyc 4000 then .next s
    else .next (s.startReplay link cls (s.lc link cls).una)

/-- LINKCTL_TIMER (R298, R302): an active link sends a LINKCTL frame; an acknowledgement that is due may go earlier. -/
def execLinkctlTimer (link : Nat) (s : State) : Out :=
  match s.activePort link with
  | none => .next s
  | some p =>
    let due := (s.link link).classes.any fun e => e.2.ackDue
    if s.linkActive link ∧ (due ∨ (s.link link).lastCtl + s.cyc (s.ctlNs p) ≤ s.now) then .next (s.sendLinkctl link none) else .next s

/-! ## Failed ports and moves (R303, R310, R312) -/

/-- A port of a link has failed, for it alone or as a whole (`second`: the secondary). -/
def State.sideFailed (s : State) (k : Nat) (second : Bool) : Bool :=
  let l := s.link k
  (if second then l.failedS else l.failedP)
    || ((s.linkPorts k).map fun p => s.portFailed (if second then p.2 else p.1)).getD true

/-- The frames, replays and windows of a link are gone. -/
def Link.emptied (l : Link) : Link :=
  { l with down := true, movedUntil := false, moving := false, classes := l.classes.mapVals fun _ c => { c with held := [], txq := [], replay := none } }

/-- The windows of a link closed. -/
def State.closeLink (s : State) (k : Nat) : State :=
  (List.range 8).foldl (fun t c => t.closeWindow (.linkClass k c)) (s.closeWindow (.link k))

/-- The contexts with a transfer in flight on a link. -/
def State.ctxsOnLink (s : State) (k : Nat) : List Nat :=
  (s.ctxs.filter fun e => e.2.xfers.any fun x => x.2.inFlight && x.2.crossing (.link k)).map (·.1)

/-- A link goes DOWN (R312): PAIR_LOST, held frames discarded, PEER_LOST (17) for its contexts. -/
def State.linkDown (s : State) (k p : Nat) : State :=
  let cs := s.ctxsOnLink k
  forAll cs (fun c t => t.ctxFault c 17) (((s.modLink k Link.emptied).closeLink k).raisePg (portDie p) 0 2)

/-- The active or the other port of a link has failed: with both failed the link is DOWN; with its active port failed the move is due, and it is an
absorbed fault until the frames held then are acknowledged (R310, R312). -/
def State.linkLoss (s : State) (k p : Nat) : State :=
  if (s.link k).down then s
  else if s.sideFailed k false ∧ s.sideFailed k true then s.linkDown k p
  else if s.activePort k = some p then (s.modLink k fun l => { l with moving := true }).openWindow (.link k)
  else s

/-- LINK_SILENCE_TIMEOUT (R303): no frame of an active link has arrived on its active port for 6 µs; that link's use of the port fails. -/
def execLinkSilenceTimeout (link : Nat) (s : State) : Out :=
  match s.activePort link with
  | none => .next s
  | some p =>
    let l := s.link link
    if !s.linkActive link ∨ s.sideFailed link l.onSecondary ∨ s.now < max l.lastRx l.since + s.cyc 6000 then .next s
    else
      let s1 := (s.modLink link fun x => if x.onSecondary then { x with failedS := true } else { x with failedP := true }).wf
        (bar0 (portDie p) 0 Off.EAV_REROUTE) 21 16 p
      .next (s1.linkLoss link p)

/-- The links and lanes that use a port. -/
def State.linksOf (s : State) (p : Nat) : List Nat := s.linkKeys.filter fun k => (s.linkPorts k).any fun q => decide (q.1 = p ∨ q.2 = p)

/-- A port fails as a whole (R303): FAILED, PORT_FAIL, and every link on it. -/
def State.portFails (s : State) (p : Nat) : State :=
  let s1 := (((s.portDown p).wf (portReg p Off.EAV_PSTS) 1 1 1).wf (bar0 (portDie p) 0 Off.EAV_REROUTE) 21 16 p).raisePg (portDie p) 0 0
  forAll (s1.linksOf p) (fun k t => t.linkLoss k p) s1

/-- PORT_SIGNAL_LOSS (R303): a port that is up loses signal, FEC lock or PCS alignment. -/
def execPortSignalLoss (port : Nat) (s : State) : Out :=
  if s.portUpNow port then .next (s.portFails port) else .next s

/-- A link whose active port had failed goes on with its active port as it is now: every held frame is replayed there, and the EXTENDED state lasts
until they are acknowledged (R310). -/
def State.replayAll (s : State) (k : Nat) : State :=
  let s1 := s.modLink k fun l => { l with moving := false, movedUntil := true, since := s.now }
  let s2 := forAll (List.range 8) (fun c t => t.startReplay k c (t.lc k c).una) s1
  if (s2.link k).classes.all (fun e => e.2.held = []) then
    (s2.modLink k fun l => { l with movedUntil := false }).closeWindow (.link k)
  else s2

/-- A link moves from port `p` to its other port (R310). -/
def State.moveLink (s : State) (k p : Nat) : State :=
  (((s.modLink k fun l => { l with onSecondary := !l.onSecondary }).sat (bar0 (portDie p) 0 Off.EAV_REROUTE) 15 0 1).raisePg (portDie p) 0
    1).replayAll k

/-- LINK_MOVE (R310): the active port of a link has failed and the other port is up. -/
def execLinkMove (link : Nat) (s : State) : Out :=
  match s.activePort link, s.otherPort link with
  | some p, some q =>
    let l := s.link link
    if !l.down ∧ l.moving ∧ !s.sideFailed link (!l.onSecondary) ∧ s.portUpNow q then
      .next (s.moveLink link p)
    else .next s
  | _, _ => .next s

/-- REPLAY_RATE_WINDOW (R300): a second of CLK_S has passed on an Eave die. -/
def execReplayRateWindow (e : Nat) (s : State) : Out :=
  if !s.periodOver (.replays e) then .next s
  else
    let n := Table.getD 0 s.replayCount e
    let s1 := { s with replayCount := Table.erase s.replayCount e }.newPeriod (.replays e)
    if s.rf (bar0 (eaveDie e) 0 Off.EAV_REPLAY_WARN) 31 0 < n then .next ((s1.raisePg (eaveDie e) 0 3).triggerCkpts 1 (eaveDie e))
    else .next s1

/-! ## Pause, IEEE 1588 and other frames (R288, R289, R305) -/

/-- PAUSE_FRAME (R305): 0 quanta resume the priority; PCP 6 and 7 are never paused. -/
def execPauseFrame (port prio quanta : Nat) (s : State) : Out :=
  if s.portUpNow port ∧ s.pfcOn port prio then
    .next (s.modPort port fun x => { x with
      pausedUntil := if quanta = 0 then Table.erase x.pausedUntil prio
        else Table.set x.pausedUntil prio (s.now + s.cyc (s.pauseNs port quanta)) })
  else .next s

/-- PAUSE_EXPIRY (R305): the pause time of a priority has run out. -/
def execPauseExpiry (port prio : Nat) (s : State) : Out :=
  if (Table.get? (s.port port).pausedUntil prio).any fun t => t ≤ s.now then
    .next (s.modPort port fun x => { x with pausedUntil := Table.erase x.pausedUntil prio })
  else .next s

/-- Half of the time of a pause of 0xFFFF quanta has passed since the last pause of a priority (R305). -/
def State.pauseDue (s : State) (p prio : Nat) : Bool :=
  (Table.get? (s.port p).pausedPeer prio).any fun t => t + s.cyc (ceilDiv (s.pauseNs p 0xFFFF) 2) ≤ s.now

/-- PAUSE_REPEAT (R305): a port that is up repeats its pause every half of its time while the level stays above XON. -/
def execPauseRepeat (port prio : Nat) (s : State) : Out :=
  if s.portUpNow port ∧ s.pfcOn port prio ∧ s.pauseDue port prio then
    .next ((s.modPort port fun x => { x with pausedPeer := Table.set x.pausedPeer prio s.now }).sendPause port prio 0xFFFF)
  else .next s

/-- PTP_FRAME (R288, R289): the ordinary clock handles an IEEE 1588 frame on its port; `synchronised` says whether it is then synchronised
to a master. -/
def execPtpFrame (port : Nat) (synchronised : Bool) (s : State) : Out :=
  if s.rf Off.RDG_PTP 14 14 = 1 ∧ s.rf Off.RDG_PTP 5 0 = port ∧ s.portUpNow port then .next { s with ptpLocked := synchronised }
  else .next s

/-- PPS_SECOND (R289): PPS_OUT pulses at each second, also of the free-running clock. -/
def execPpsSecond (s : State) : Out := if s.pwrgd then .next { s with ppsPulses := s.ppsPulses + 1 } else .next s

/-- OTHER_ETHERTYPE_FRAME (R288, R296): discarded and counted. A frame of EAV_ETYPE.ETYPE comes as one of the frames above, and one of IEEE 1588
as PTP_FRAME. -/
def execOtherEthertypeFrame (port : Nat) (fcsOk : Bool) (etype : BitVec 16) (s : State) : Out :=
  if !s.portUpNow port ∨ !s.alive (portDie port) ∨ etype = 0x88F7
      ∨ etype.toNat = s.rf (bar0 (portDie port) 0 Off.EAV_ETYPE) 15 0 then .next s
  else if fcsOk then .next (s.eavSat port Off.EAV_DROP 47 32)
  else .next (s.sat (portReg port Off.EAV_RXERR) 31 0 1)

end Sys2Proof.Machine
end

