-- ==== Sys2Proof/Machine/Guest.lean ====
section
/-! DEFINITION. Dormer sites behind Flashing (R333 to R338): windows, rate limit, violations, guest frames, power. -/

namespace Sys2Proof.Machine

/-- The address of a register of a site's DMR page. -/
def dmrReg (site off : Nat) : Nat := bar0 (siteDie site) 0x30 off

/-- A site is powered: DMR_STS.OFF is 0. -/
def State.siteOn (s : State) (site : Nat) : Bool := s.rf (dmrReg site Off.DMR_STS) 0 0 = 0

/-- A violation (R337): DMR_VIOL, DMR_VLAST, the physical function's event log (R396), VIOLATION. -/
def State.violation (s : State) (site kind addr : Nat) : State :=
  let v := dmrReg site Off.DMR_VLAST
  let a := addr % 2 ^ 48
  (((((s.sat (dmrReg site Off.DMR_VIOL) 31 0 1).wf v 2 0 kind).wf v 50 3 a).evlogPut .pf
    [s.now, kind + site * 8 + a * 16, 0, 1])).raisePg (siteDie site) 0x30 0

/-- A window of a site: kind, permissions, guest base, bytes, DPA or node. -/
structure Window where
  kind : Nat
  rd : Bool
  wr : Bool
  atom : Bool
  base : Nat
  size : Nat
  dpa : Nat
deriving DecidableEq, Repr

/-- Window `w` of a site (table *Window entry*). -/
def State.window (s : State) (site w : Nat) : Window :=
  let f (off hi lo : Nat) : Nat := s.rf (dmrReg site (off + 0x20 * w)) hi lo
  { kind := f Off.DMR_WCTL 1 0, rd := f Off.DMR_WCTL 2 2 = 1, wr := f Off.DMR_WCTL 3 3 = 1, atom := f Off.DMR_WCTL 4 4 = 1
    base := f Off.DMR_WBASE 47 0, size := 2 ^ (16 + f Off.DMR_WCTL 10 5), dpa := f Off.DMR_WDPA 47 0 }

/-- The windows of a site, lowest first. -/
def State.windows (s : State) (site : Nat) : List Window := (List.range 16).map (s.window site)

/-- The request's kind is permitted by a window. -/
def Window.permits (w : Window) (r : GuestReq) : Bool :=
  match r with
  | .read _ _ => w.rd
  | .write _ _ => w.wr
  | .atomic _ _ _ _ => w.atom
  | .register _ _ _ _ _ => false
  | .frame _ _ => w.wr

/-- The guest address and bytes of a memory request. -/
def reqSpan (r : GuestReq) : Nat × Nat :=
  match r with
  | .read a n => (a, n)
  | .write a d => (a, d.length)
  | .atomic a op _ _ => (a, atomWidth op)
  | .register _ _ _ _ _ => (0, 0)
  | .frame _ d => (0, d.length)

/-- Bytes that a request takes from the token bucket: those it carries and those it asks for (R335). -/
def reqBytes (r : GuestReq) : Nat := (reqSpan r).2

/-- What Flashing finds: a DPA to go to, a network window's node, a register of the site's own, or a violation of a kind (R334, R336,
R337). -/
inductive Judged where
  | memory (dpa : Nat)
  | network (node : Nat)
  | own
  | bad (kind addr : Nat)
deriving DecidableEq, Repr

/-- Flashing's judgement of a request: the address of a memory request lies inside a memory window that permits it, the lowest such. -/
def State.flashing (s : State) (site : Nat) (r : GuestReq) : Judged :=
  let ws := s.windows site
  match r with
  | .register die block off _ _ => if die = siteDie site ∧ block < 0x20 then .own else .bad 3 (bar0 die block off)
  | .frame node _ =>
    if ws.any fun w => w.kind = 2 && w.wr && w.dpa % 2 ^ 20 = node then .network node else .bad 4 node
  | _ =>
    let p := reqSpan r
    let hit := ws.filter fun w => w.kind = 1 && w.base ≤ p.1 && p.1 < w.base + w.size
    match hit.find? fun w => w.permits r with
    | some w => .memory (w.dpa + (p.1 - w.base))
    | none => .bad (if hit = [] then 1 else 2) p.1

/-- An answer to a site: bytes, or none for poison. -/
def State.answer (s : State) (site : Nat) (a : Option (List Byte)) : State := s.modSite site fun x => { x with answers := x.answers ++ [a] }

/-- The slice that a guest request reaches from the managing Ridge, after its lookup in the cache; a window of the wrong kind is counted
(R201, R214). -/
def State.guestTouch (s : State) (a n : Nat) (write alloc : Bool) : State × Bool :=
  match s.reach s.mgr a with
  | .ok t l => (s.slice t l n write alloc, true)
  | .wrong t => (s.windowErr t, false)
  | .lost => (s.unreach s.mgr (stackDie a), false)
  | .none => (s, false)

/-- A guest read served block by block: data, or poison where any block can not be reached or any byte is poisoned (R201, R327, R337). -/
def State.guestRead (s : State) (site a n : Nat) : State :=
  let l := splitRun (n / 256 + 2) a n 0
  let s1 := forAll l (fun g t => (t.guestTouch g.addr g.len false false).1) s
  let r := s1.devRead a n
  s1.answer site (if r.2 || l.any (fun g => !(s.guestTouch g.addr g.len false false).2) then none else some r.1)

/-- A guest write served block by block. -/
def State.guestWrite (s : State) (a : Nat) (data : List Byte) : State :=
  forAll (splitRun (data.length / 256 + 2) a data.length 0) (fun g t =>
    let u := t.guestTouch g.addr g.len true false
    if u.2 then u.1.dpaWrite g.addr ((data.drop g.off).take g.len) false else u.1) s

/-- A guest atomic served; its old value is the answer. -/
def State.guestAtomic (s : State) (site a op : Nat) (src cmp : Word) : State :=
  let u := s.guestTouch a (atomWidth op) false true
  if u.2 then
    let v := match stackOf a with
      | none => u.1
      | some t => u.1.wrap (bar0 (thatchDie t) 0 Off.THC_ATOMIC) 63 0 1
    let r := v.atomOne op a src.toNat cmp.toNat false
    r.1.answer site (if r.2.2 then none else some (leBytes (atomWidth op) r.2.1))
  else u.1.answer site none

/-- A request that Flashing blocks: a violation, and poison to a site that waits for a completion (R337). -/
def State.block (s : State) (site : Nat) (r : GuestReq) (kind addr : Nat) : State :=
  let s1 := s.violation site kind addr
  match r with
  | .read _ _ | .atomic _ _ _ _ => s1.answer site none
  | .register _ _ _ w _ => if w then s1 else s1.answer site none
  | _ => s1

/-- A request that Flashing has admitted is re-issued (R333), or blocked where its windows have changed while it waited. -/
def State.serveGuest (s : State) (site : Nat) (r : GuestReq) : State :=
  match s.flashing site r with
  | .bad k a => s.block site r k a
  | .own => s
  | .network node =>
    match r with
    | .frame _ d =>
      match Table.get? s.routes node with
      | none => s.dropNoRoute (Config.eaveFor s.mgr node).val
      | some _ => s.enqueue (linkKey node) ⟨s.header node 7 8 0 site 0 d.length true, .raw d⟩ none
    | _ => s
  | .memory dpa =>
    match r with
    | .read _ n => s.guestRead site dpa n
    | .write _ d => s.guestWrite dpa d
    | .atomic _ op src cmp => s.guestAtomic site dpa op src cmp
    | _ => s

/-- DMR_CTL.RATE in bytes per nanosecond. -/
def State.guestRate (s : State) (site : Nat) : Nat := s.rf (dmrReg site Off.DMR_CTL) 8 1

/-- The tokens of a site's bucket now, in bytes: RATE GB/s, at most 64 KiB (R335). -/
def State.guestTokens (s : State) (site : Nat) : Nat :=
  let x := s.site site
  min 65536 (x.bucket + (s.now - x.bucketAt) * effDiv s.eff * s.guestRate site / 8)

/-- The tokens of a site counted up to now, before its rate or the divider changes. -/
def State.settleSite (s : State) (site : Nat) : State := s.modSite site fun x => { x with bucket := s.guestTokens site, bucketAt := s.now }

/-- A request has the tokens it needs; RATE 0 admits nothing. -/
def State.guestOk (s : State) (site : Nat) (r : GuestReq) : Bool :=
  decide (0 < s.guestRate site) && decide (reqBytes r ≤ s.guestTokens site)

/-- A request takes its tokens and is served. -/
def State.admitGuest (s : State) (site : Nat) (r : GuestReq) : State :=
  (s.modSite site fun x => { x with bucket := s.guestTokens site - reqBytes r, bucketAt := s.now }).serveGuest site r

/-- GUEST_REQUEST (R333 to R337): blocked as a violation, where a read or an atomic completes with poison; admitted; or waiting for tokens. -/
def execGuestRequest (site : Nat) (req : GuestReq) (s : State) : Out :=
  if !s.siteOn site ∨ !s.pwrgd then .next s
  else
    match s.flashing site req with
    | .bad k a => .next (s.block site req k a)
    | .own => .next s
    | _ =>
      if (s.site site).waiting = [] ∧ s.guestOk site req then .next (s.admitGuest site req)
      else .next (s.modSite site fun x => { x with waiting := x.waiting ++ [req] })

/-- GUEST_ADMIT (R335): the oldest waiting request finds its tokens. -/
def execGuestAdmit (site : Nat) (s : State) : Out :=
  match (s.site site).waiting with
  | [] => .next s
  | r :: rest =>
    if s.guestOk site r then .next ((s.modSite site fun x => { x with waiting := rest }).admitGuest site r) else .next s

/-- A site powers off (R337, R338): requests in flight are discarded, its windows kept. -/
def State.siteOff (s : State) (site : Nat) : State :=
  if s.siteOn site then
    ((((s.wf (dmrReg site Off.DMR_CTL) 0 0 0).wf (dmrReg site Off.DMR_STS) 0 0 1).modSite site fun x => { x with waiting := [] })).raisePg
      (siteDie site) 0x30 1
  else s

/-- OVERPOWER (R337): a draw above 75 W for 1 ms powers the site off and counts as a violation. -/
def execOverpower (site : Nat) (s : State) : Out :=
  if s.siteOn site then .next ((s.siteOff site).violation site 5 0) else .next s

/-- A GUEST frame that passed the receive checks (R336): delivered to its site through a network window with RD = 1 for its source node,
otherwise blocked. -/
def State.takeGuest (s : State) (site src : Nat) (data : List Byte) : State :=
  if 2 ≤ site ∨ !s.siteOn site then s
  else if (s.windows site).any fun w => w.kind = 2 && w.rd && w.dpa % 2 ^ 20 = src then s.answer site (some data)
  else s.violation site 4 src

end Sys2Proof.Machine
end

