-- ==== Sys2Proof/Machine/Receive.lean ====
section
/-! DEFINITION. What arriving frames do once they have passed the receive checks (R176, R246, R248, R295, R302, R336, R353, R357, R387,
R400), and the commands of the frame types. -/

namespace Sys2Proof.Machine

/-! ## Bytes with poison written through translation -/

/-- The address where a byte of context memory really is, by ordinary access or, `plain`, without redirection. -/
def State.placeOf (s : State) (c va : Nat) (plain : Bool) : Option Nat :=
  (if plain then some va else s.redirect c va false).bind fun a => s.xlate c a true

/-- The use of the translation cache by such a write (R379). -/
def State.usePlace (s : State) (c va : Nat) (plain : Bool) : State :=
  match if plain then some va else s.redirect c va false with
  | none => s
  | some a => s.fillTlb c a

/-- Bytes written to context memory request by request, each sector poisoned when a poisoned byte goes into it; what does not translate is
discarded (R201, R212, R214). -/
def State.vaPutP (s : State) (c va : Nat) (plain : Bool) (l : List PByte) : State :=
  forAll (requestParts va l.length) (fun (p : Nat × Nat × Nat) (t : State) =>
    match t.placeOf c p.1 plain with
    | none => t.usePlace c p.1 plain
    | some a =>
      forAll (sectorParts a p.2.2) (fun q u =>
        let d := cutP l (p.2.1 + q.2.1, q.2.2)
        u.dpaPutIn q.1 (d.map (·.1)) (d.any (·.2))) ((t.usePlace c p.1 plain).touch a p.2.2 true false)) s

/-- Every sector of a write translates. -/
def State.putOk (s : State) (c va n : Nat) (plain : Bool) : Bool := (sectorParts va n).all fun p => (s.placeOf c p.1 plain).isSome

/-! ## STAGE (R173, R176) -/

/-- The words of a STAGE payload with their poison; the last carries the end mark of the packet where `last`. -/
def stageWords (l : List PByte) (last : Bool) : List QWord :=
  let n := ceilDiv l.length 64
  (List.range n).map fun i =>
    let d := cutP l (64 * i, 64)
    ⟨d.map (·.1), parityOf (d.map (·.1)), last && decide (i + 1 = n), d.any (·.2), 0⟩

/-- The words of a frame written into a receive half's queue, up to a fault. -/
def State.writeWords (s : State) (c l : Nat) (e : StageLink) (ws : List QWord) (mb ver : BitVec 16) : State :=
  forAll ws (fun w t => if (t.ctx c).phase ≠ .normal ∧ !(t.queue c l).tail then t else t.writeWord c l e w mb ver) s

/-- A STAGE frame for link `l` of context `c` (R176): discarded and counted on the Eave page where RX_EN is 0, discarded for a context that
has faulted, LINK_MISMATCH (5) for a packet longer than MAXLEN. -/
def State.takeStage (s : State) (c l src port : Nat) (data : List PByte) (last : Bool) : State :=
  match (Table.get? (s.ctx c).links l).filter (·.rxEn) with
  | none => if last then s.eavSat port Off.EAV_DROP 63 48 else s
  | some e =>
    let q := s.queue c l
    let s1 := s.modQueue c l fun x => { x with peer := some src }
    if q.tail then s1.writeWords c l e (stageWords data last) 0 0
    else if (s.ctx c).phase ≠ .normal then s
    else if q.skipping then (if last then s1.modQueue c l fun x => { x with skipping := false } else s1)
    else if q.partialWords ≠ [] then s1.writeWords c l e (stageWords data last) q.partialMb q.partialVer
    else
      let n (lo : Nat) : Nat := leNat ((cutP data (lo, 2)).map (·.1))
      if e.maxLen < n 4 % 4096 + 1 then (s1.modQueue c l fun x => { x with skipping := !last }).ctxFault c 5
      else s1.writeWords c l e (stageWords (data.drop 64) last) (BitVec.ofNat 16 (n 0)) (BitVec.ofNat 16 (n 2))

/-! ## LINKCTL (R302) -/

/-- The acknowledgements, FREED counts and negative acknowledgements of a LINKCTL frame: acknowledgements first (R299). -/
def State.takeRecs (s : State) (k port : Nat) (recs : List ClassRec) : State :=
  let l := recs.zipIdx.filter fun r => r.2 ≠ 1
  let s1 := forAll l (fun r t =>
    let u := if r.1.ackv then t.ackClass k r.2 r.1.ack else t
    u.modLc k r.2 fun x => if laterMod 64 r.1.freed.toNat x.freedHeld.toNat then { x with freedHeld := r.1.freed } else x) s
  forAll (l.filter fun r => r.1.nak) (fun r t => t.nakClass k r.2 port r.1.ack) s1

/-- The flow state of every transmit half whose consumer is node `src`: OFF or ON by its record, ON without one. -/
def State.takeFlows (s : State) (src : Nat) (flows : List FlowRec) : State :=
  forAll s.ctxs (fun e t =>
    forAll e.2.links (fun h u =>
      if h.2.txEn && h.2.remote && decide (h.2.destNode = src) then
        let off := flows.any fun r => decide (r.ctx = e.1 ∧ r.link = h.2.destLink) && !r.on
        u.modQueue e.1 h.1 fun q => { q with seenOff := off }
      else u) t) s

/-- A LINKCTL frame. -/
def State.takeLinkctl (s : State) (k port : Nat) (recs : List ClassRec) (flows : List FlowRec) : State :=
  let s1 := s.takeRecs k port recs
  if k % 17 = 0 then s1.takeFlows (keyNode k) flows else s1

/-! ## The held mirror (R353) and REBUILD frames (R357) -/

/-- A field of CTX_MIR_INBASE or CTX_MIR_INBASE2 that names a 64 KiB-aligned address. -/
def State.heldBase (s : State) (c off : Nat) (high : Bool) : Nat := s.cf c off (if high then 63 else 31) (if high then 32 else 0) * 65536

/-- The state area of a held mirror. -/
def State.heldState (s : State) (c : Nat) : Nat := s.heldBase c Off.CTX_MIR_INBASE2 true

/-- Held pages. -/
def State.heldPages (s : State) (c : Nat) : Nat := s.cf c Off.CTX_MIR_INBASE 55 32 + 1

/-- Bits [51:0] of the held record: CUR, VALID (48), BUSY (49), UNDO (50), BAD (51). -/
def State.heldWord (s : State) (c : Nat) : Nat := leNat ((s.vaRead c (s.heldState c) 8).getD [])

/-- The held record's first word written. -/
def State.setHeldWord (s : State) (c w : Nat) : State := s.vaWrite c (s.heldState c) (leBytes 8 w)

/-- BAD is set in the held record. -/
def State.heldBad (s : State) (c : Nat) : State :=
  let w := s.heldWord c
  if bitAt w 51 then s else s.setHeldWord c (w + 2 ^ 51)

/-- The whole state area translates for writing. -/
def State.heldOk (s : State) (c : Nat) : Bool := s.vaOk c (s.heldState c) (320 + (s.heldPages c + 1) / 2) true

/-- The nibbles of the held pages changed. -/
def State.heldNibbles (s : State) (c : Nat) (f : Nat → Nat) : State :=
  iter (fun k t => t.setNibble c (t.heldState c + 320) k (f (t.nibble c (t.heldState c + 320) k))) (s.heldPages c) s

/-- Copy `v` of held page `k`. -/
def State.heldPage (s : State) (c k v : Nat) : Nat :=
  (if v = 0 then s.heldBase c Off.CTX_MIR_INBASE false else s.heldBase c Off.CTX_MIR_INBASE2 false) + k * 65536

/-- The acknowledgement of an end record. -/
def State.mirrorReply (s : State) (c src : Nat) (gen : BitVec 48) (err : Bool) : State :=
  let k := s.mirrorKey src 0
  s.enqueue k (s.mirrorFrame c src k ⟨gen, 3, false, false, err, 0, 0, []⟩ true 0) none

/-- The page nibble after an end record. -/
def endNibble (full : Bool) (n : Nat) : Nat :=
  if bitAt n 1 then nibBit (nibBit (nibBit n 0 (!bitAt n 0)) 2 true) 1 false
  else if full then n else nibBit n 2 false

/-- A start record (R353); it begins a generation that is not BAD. -/
def State.heldStart (s : State) (c : Nat) (full : Bool) : State :=
  if s.heldOk c then
    let w := s.heldWord c
    ((s.heldNibbles c fun n => nibBit n 1 false).setHeldWord c (w % 2 ^ 49 + 2 ^ 49)).modCtx c fun x => { x with heldFull := full }
  else s.heldBad c

/-- A page-data frame (R353). -/
def State.heldData (s : State) (c : Nat) (m : MirrorMsg) (data : List PByte) : State :=
  let t := s.heldState c + 320
  let live := s.nibble c t m.page % 2
  let a := s.heldPage c m.page (1 - live) + m.off
  if m.page < s.heldPages c ∧ m.off + data.length ≤ 65536 ∧ s.putOk c a data.length true ∧ s.vaOk c (t + m.page / 2) 1 true then
    (s.vaPutP c a true data).setNibble c t m.page (nibBit (s.nibble c t m.page) 1 true)
  else s.heldBad c

/-- An end record (R353): the generation becomes the held one and is acknowledged; a BAD one is acknowledged with ERR. -/
def State.heldEnd (s : State) (c src : Nat) (m : MirrorMsg) : State :=
  if bitAt (s.heldWord c) 51 then s.mirrorReply c src m.gen true
  else if !s.heldOk c then (s.heldBad c).mirrorReply c src m.gen true
  else
    let s1 := (s.heldNibbles c (endNibble (s.ctx c).heldFull)).vaWrite c (s.heldState c + 64) (m.data.take 256)
    (s1.setHeldWord c (m.gen.toNat + 2 ^ 48 + 2 ^ 50)).mirrorReply c src m.gen false

/-- A MIRROR start, page-data or end record from node `src` (R353). -/
def State.takeMirror (s : State) (c src : Nat) (m : MirrorMsg) (data : List PByte) : State :=
  if s.cf c Off.CTX_MIR_IN 0 0 = 0 ∨ (s.ctx c).phase ≠ .normal then s
  else if s.cf c Off.CTX_MIR_IN 20 1 ≠ src then s.heldBad c
  else
    match m.kind with
    | 0 => s.heldStart c m.full
    | 1 => s.heldData c m data
    | 2 => s.heldEnd c src m
    | _ => s

/-- The buddy's acknowledgement of a generation's end record (R349, R350). -/
def State.takeMirrorAck (s : State) (c src : Nat) (m : MirrorMsg) : State :=
  match (s.ctx c).mirrorGen with
  | none => s
  | some g =>
    if src ≠ s.buddy c ∨ !g.endSent ∨ g.gen ≠ m.gen then s
    else
      let a := ctxA c Off.CTX_MIR_STS
      let s1 := ((s.modCtx c fun x => { x with mirrorGen := none, mirrorDoneAt := s.now }).wf a 50 50 (b2n m.err))
      if m.err then s1.ctxFault c 19 else (s1.wf a 47 0 g.gen.toNat).wf a 49 49 1

/-- A REBUILD frame (R357): a page goes to the live copy of the mirrored page it names, an end record to CTX_SNAP_ADDR. -/
def State.takeRebuild (s : State) (c src : Nat) (m : MirrorMsg) (data : List PByte) : State :=
  if src ≠ s.buddy c ∨ (s.ctx c).running.isSome ∨ (s.ctx c).phase ≠ .normal then s
  else if m.kind = 1 then
    match (s.mirrorPages c)[m.page]? with
    | none => s
    | some p =>
      let s1 := s.vaPutP c (p.va + m.off) false data
      match s.regionOf c p.va with
      | none => s1
      | some (r, k) => s1.setNibble c r.state k (s1.nibble c r.state k % 2)
  else if m.kind = 2 then
    let a := (s.reg (ctxA c Off.CTX_SNAP_ADDR)).toNat
    if a = 0 then s
    else
      let d := m.data.take 256
      let b := (d.getD 4 0).toNat
      (s.vaWrite c a (d.set 4 (BitVec.ofNat 8 (b - b % 4)))).modCtx c fun x => { x with snapFresh := false }
  else s

/-! ## INGEST (R400) -/

/-- An INGEST frame: data inside the window and behind a valid translation is written, other data is discarded and counted once for the
frame. -/
def State.takeIngest (s : State) (c : Nat) (data : List PByte) (last : Bool) : State :=
  if (s.ctx c).phase ≠ .normal then s
  else
    let off := leNat ((data.take 8).map (·.1)) % 2 ^ 40
    let body := data.drop 8
    let base := s.cf c Off.CTX_INGEST_WIN 31 0 * 65536
    let room := (s.cf c Off.CTX_INGEST_WIN 55 32 + 1) * 65536 - off
    let ok := body.take room
    let s1 := s.vaPutP c (base + off) false ok
    let s2 := if room < body.length ∨ !s.putOk c (base + off) ok.length false then s1.cSat c Off.CTX_INGEST 63 32 1 else s1
    if last then (s2.cWrap c Off.CTX_INGEST 31 0 1).raiseCtx c 5 else s2

/-! ## Control messages (R246, R248, R283, R387) -/

/-- A VOTE, DECIDE or MGMT payload, as if from node `src`. -/
def State.takeCtl (s : State) (c gi src typ : Nat) (epoch : BitVec 16) (m : CtlMsg) : State :=
  match m with
  | .vote seq v flags nsum ssum step =>
    if typ ≠ 4 then s
    else
      match s.groupFor c gi with
      | none => s.cSat c Off.CTX_STALE_EPOCH 31 0 1
      | some g =>
        if g.epoch ≠ epoch then s.cSat c Off.CTX_STALE_EPOCH 31 0 1
        else s.takeVote c gi seq v ⟨src, flags, nsum, ssum, step⟩
  | .decide seq v code flags nsum ssum =>
    if typ ≠ 5 then s
    else
      match s.groupFor c gi with
      | none => s.cSat c Off.CTX_STALE_EPOCH 31 0 1
      | some g =>
        if g.epoch ≠ epoch then s.cSat c Off.CTX_STALE_EPOCH 31 0 1
        else s.takeDecide c gi seq v ⟨code, flags, nsum, ssum⟩
  | .mgmt entry =>
    if typ = 9 ∧ s.rf Off.RDG_MGMT 0 0 = 1 ∧ s.rf Off.RDG_MGMT 20 1 = src then
      { s with mgmtCmds := s.mgmtCmds ++ [⟨src, entry, s.ringCount (.pf s.roleB)⟩] }
    else s
  | .mgmtDone _ => s

/-- A RELAYED frame (R295): handled at its final receiver as if from ORIG_NODE, sent on unchanged but for its link-layer fields at a relay, dropped
there without a route. -/
def State.takeRelayed (s : State) (port : Nat) (h : FrameHdr) (final orig typ : Nat) (m : CtlMsg) : State :=
  let d := portDie port
  if final = s.node then s.takeCtl h.ctx h.obj orig typ h.oepoch m
  else
    match Table.get? s.routes final with
    | none => (s.sat (bar0 d 0 Off.EAV_RELAY) 63 32 1).raisePg d 0 4
    | some _ =>
      (s.sat (bar0 d 0 Off.EAV_RELAY) 31 0 1).enqueue (linkKey final) ⟨{ h with dst := final, src := s.node }, .relayed final orig typ m⟩ none

/-! ## Delivery -/

/-- What the payload of a frame does (check 8 of R296). -/
def deliverFrame (f : RxFrame) (s : State) : State :=
  let h := f.frame.hdr
  match f.frame.body with
  | .raw d =>
    let data := withPoison h.poison 0 d
    match h.typ with
    | 1 => s.takeStage h.ctx h.obj h.src f.port data h.last
    | 7 => s.takeIngest h.ctx data h.last
    | 8 => s.takeGuest h.ctx h.src d
    | _ => s
  | .linkctl recs flows =>
    match s.frameKey h with
    | none => s
    | some k => s.takeLinkctl k f.port recs flows
  | .ctl m => s.takeCtl h.ctx h.obj h.src h.typ h.oepoch m
  | .coll m => if h.typ = 2 ∨ h.typ = 3 then s.takeColl h.ctx h.obj h.oepoch (decide (h.typ = 3)) m h.poison else s
  | .mirror m =>
    let data := withPoison h.poison 16 m.data
    if m.kind = 3 then s.takeMirrorAck h.ctx h.src m
    else if m.rebuild then s.takeRebuild h.ctx h.src m data
    else s.takeMirror h.ctx h.src m data
  | .relayed final orig typ m => s.takeRelayed f.port h final orig typ m

/-- A frame of type `typ` arrives. -/
def State.arrive (s : State) (typ : Nat) (f : RxFrame) : State :=
  if f.frame.hdr.typ = typ then s.receive f (deliverFrame f) else s

/-- What a MIRROR frame's payload record is: 0 start, page data or end; 1 acknowledgement; 2 sent by a REBUILD. -/
def mirrorSort (f : RxFrame) : Nat :=
  match f.frame.body with
  | .mirror m => if m.kind = 3 then 1 else if m.rebuild then 2 else 0
  | _ => 0

/-- A MIRROR frame of one sort arrives. -/
def State.arriveMirror (s : State) (sort : Nat) (f : RxFrame) : State := if mirrorSort f = sort then s.arrive 6 f else s

/-- VOTE (R246). -/
def execVote (f : RxFrame) (s : State) : Out := .next (s.arrive 4 f)

/-- DECIDE (R248). -/
def execDecide (f : RxFrame) (s : State) : Out := .next (s.arrive 5 f)

/-- MIRROR (R353). -/
def execMirror (f : RxFrame) (s : State) : Out := .next (s.arriveMirror 0 f)

/-- MIRROR_ACK (R350). -/
def execMirrorAck (f : RxFrame) (s : State) : Out := .next (s.arriveMirror 1 f)

/-- REBUILD_FRAME (R357). -/
def execRebuildFrame (f : RxFrame) (s : State) : Out := .next (s.arriveMirror 2 f)

/-- STAGE (R173, R176). -/
def execStage (f : RxFrame) (s : State) : Out := .next (s.arrive 1 f)

/-- COLL (R273). -/
def execColl (f : RxFrame) (s : State) : Out := .next (s.arrive 2 f)

/-- RING (R277). -/
def execRing (f : RxFrame) (s : State) : Out := .next (s.arrive 3 f)

/-- INGEST (R400). -/
def execIngest (f : RxFrame) (s : State) : Out := .next (s.arrive 7 f)

/-- GUEST (R336). -/
def execGuest (f : RxFrame) (s : State) : Out := .next (s.arrive 8 f)

/-- MGMT (R387). -/
def execMgmt (f : RxFrame) (s : State) : Out := .next (s.arrive 9 f)

/-- RELAYED (R295). -/
def execRelayed (f : RxFrame) (s : State) : Out := .next (s.arrive 10 f)

/-- LINKCTL (R302). -/
def execLinkctl (f : RxFrame) (s : State) : Out := .next (s.arrive 0 f)

/-- The return to ACTIVE (R411): ingress memory drains in order, then the frames that waited in receive buffers are handled. -/
def State.drainPort (s : State) (p : Nat) : State :=
  let x := s.port p
  let s1 := s.modPort p fun y => { y with ingress := [], rxbuf := [] }
  let s2 := forAll x.ingress (fun f t =>
    match t.frameKey f.frame.hdr with
    | none => t
    | some k =>
      let u := t.modLc k f.frame.hdr.cls fun l => { l with freed := l.freed + BitVec.ofNat 64 (hdrCredit f.frame.hdr) }
      deliverFrame f (match frameCtx f.frame with
        | none => u
        | some c => u.cWrap c Off.CTX_BYTES_ERX 63 0 (wireBytes f.frame.hdr.len))) s1
  let s3 := forAll x.rxbuf (fun f t =>
    match t.frameKey f.frame.hdr with
    | none => t
    | some k => t.sequence k f (deliverFrame f)) s2
  forAll (List.range 8) (fun prio t => t.setFill p prio 0) s3

end Sys2Proof.Machine
end

