-- ==== Sys2Proof/Machine/Fabric.lean ====
section
/-! DEFINITION. Batten edges and strands (R319 to R322), the loss of a die (R325 to R328), the takeover (R330). -/

namespace Sys2Proof.Machine

/-! ## Purlin moves (R315 to R318) -/

/-- A packet is taken by its sink: what a stack has read lands; a packet that asks for an answer gets it on a later class (R315). -/
def State.sink (s : State) (f : PurlinPacket) : State :=
  let s1 := match f.reply with
    | none => s
    | some (cls, n) => s.inject f.dst f.src cls f.owner f.part n none
  if f.cls = 1 then s1.landOf f.owner.1 f.owner.2 f.part else s1

/-- The sinks of a die take what has come to them. -/
def State.sinks (s : State) (d : Nat) : State := forAll (s.arrived d) (fun f u => u.sink f) (s.drainSink d)

/-- One cycle of CLK_F of Purlin: every sink, then every router output; a router with an output that is blocked counts it in PRL_SAT. -/
def State.purlinCycle (s : State) : State :=
  let s1 := forAll s.busyRouters (fun d t => t.sinks d) s
  let s2 := forAll s1.busyRouters (fun d t =>
    if (List.range 4).any fun dir => t.outputBlocked d dir then t.wrap (bar0 d 1 Off.PRL_SAT) 63 0 1 else t) s1
  forAll s2.busyRouters (fun d t => iter (fun dir u => u.outputCycle d dir) 4 t) s2

/-- One cycle of CLK_F of the saturation counters of the ports that are up (table *Saturation registers*). -/
def State.countPorts (s : State) : State :=
  forAll ((List.range 64).filter s.portUpNow) (fun p t =>
    let d := bar0 (portDie p) 0
    let i := 8 * (p % 8)
    let t1 := if s.transmits p ∧ [2, 3, 4, 5, 6, 7].any (s.waiting p) then t.wrap (d (Off.EAV_SAT_TX + i)) 63 0 1 else t
    if s.waiting p (s.rf (d Off.EAV_SAT_SEL) 2 0) then t1.wrap (d (Off.EAV_SAT_CLS + i)) 63 0 1 else t1) s

/-! ## Edges and strands -/

/-- A strand's key among those with a fault that is not absorbed. -/
def strandKey (die dir strand : Nat) : Nat := (die * 4 + dir) * 8 + strand

/-- A strand of an edge direction replays or has failed: an absorbed fault of that direction (R320, R321, R445). -/
def State.strandFault (s : State) (die dir strand : Nat) : State :=
  { s with strandFaults := insertNat (strandKey die dir strand) s.strandFaults }.openWindow (.edge die dir)

/-- Faults of an edge direction are over: its window closes when none is left. -/
def State.strandsOver (s : State) (die dir : Nat) (ended : Nat → Bool) : State :=
  let s1 := { s with strandFaults := s.strandFaults.filter fun k => !(decide (k / 8 = die * 4 + dir) && ended (k % 8)) }
  if s1.strandFaults.any fun k => k / 8 = die * 4 + dir then s1 else s1.closeWindow (.edge die dir)

/-- FLIT_CRC_FAIL (R320, R445): a flit of a strand that leaves `die` through edge `dir` is resent, an absorbed fault of that edge
direction. -/
def execFlitCrcFail (die dir strand : Nat) (s : State) : Out :=
  if s.edgeUp die dir ∧ s.strandUsed die dir strand then
    let k := die * 4 + dir
    let s1 := s.sat (btnReg die dir Off.BTN_CRC) 31 0 1
    .next ({ s1 with flitCount := Table.put 0 s1.flitCount k (Table.getD 0 s1.flitCount k + 1) }.strandFault die dir strand)
  else .next s

/-- FLIT_REPLAY_CAUGHT_UP (R320, R60): the strand has caught up, or its flits have gone over the others. -/
def execFlitReplayCaughtUp (die dir strand : Nat) (s : State) : Out :=
  if strandKey die dir strand ∈ s.strandFaults ∧ strand < 8 then .next (s.strandsOver die dir fun k => k = strand) else .next s

/-- The promise follows a mark that may name the managing Ridge (R330). -/
def State.markedPair (s : State) (a b : Nat) : State := if a = s.mgr ∨ b = s.mgr then s.refreshAll else s

/-- An edge goes DOWN as a die detects it (R322): STATE, EDGE_DOWN, the mark on its partner; nothing replays on it any more. -/
def State.edgeFalls (s : State) (die dir : Nat) : State :=
  match neighbour die dir with
  | none => s
  | some n =>
    let s1 := ((s.wf (btnReg die dir Off.BTN_EDGE_STS) 1 0 2).raisePg die 2 2).modDie die fun x => { x with marked := insertNat n x.marked }
    ((s1.strandsOver die dir fun _ => true).strandsOver n (opposite dir) fun _ => true).markedPair die n

/-- STRAND_FAIL (R321, R322): a strand of an edge fails in both directions; with fewer than 7 left the edge is DOWN. -/
def execStrandFail (die dir strand : Nat) (s : State) : Out :=
  match neighbour die dir with
  | none => .next s
  | some n =>
    if s.edgeUp die dir ∧ s.strandUsed die dir strand then
      let mark (d e : Nat) (t : State) : State :=
        let a := btnReg d e Off.BTN_EDGE_STS
        (t.wf a 9 2 (Nat.lor (t.rf a 9 2) (2 ^ strand))).raisePg d 2 1
      let s1 := (mark n (opposite dir) (mark die dir s)).strandFault die dir strand
      if s1.strands die dir < 7 then .next ((s1.edgeFalls die dir).edgeFalls n (opposite dir)) else .next s1
    else .next s

/-- EDGE_DOWN (R322): a die receives no training word on any strand of an edge. -/
def execEdgeDown (die dir : Nat) (s : State) : Out :=
  if s.alive die ∧ s.rf (btnReg die dir Off.BTN_EDGE_STS) 1 0 = 1 then .next (s.edgeFalls die dir) else .next s

/-- STRAND_WARN_WINDOW: a second of CLK_S has passed on an edge; STRAND_WARN when its replays exceeded the limit. -/
def execStrandWarnWindow (die dir : Nat) (s : State) : Out :=
  if !s.periodOver (.flits die dir) then .next s else
  let k := die * 4 + dir
  let s1 := { s with flitCount := Table.erase s.flitCount k }.newPeriod (.flits die dir)
  if s.rf (btnReg die dir Off.BTN_STRAND_WARN) 31 0 < Table.getD 0 s.flitCount k then .next (s1.raisePg die 2 0) else .next s1

/-! ## Host links and the management bus -/

/-- The link of a host port is trained. -/
def State.hostLink (s : State) (portB : Bool) : Bool := if portB then s.linkB else s.linkA

/-- The state with the link of a host port set: up with what it has negotiated, or down. -/
def State.setHostLink (s : State) (portB : Bool) (lanes : Option HostLanes) : State :=
  if portB then { s with linkB := lanes.isSome, hostLanesB := lanes } else { s with linkA := lanes.isSome, hostLanesA := lanes }

/-- The dynamic address of a Ridge's I3C target set or lost. -/
def State.setI3c (s : State) (ridgeB : Bool) (addr : Option Nat) : State := if ridgeB then { s with i3cB := addr } else { s with i3cA := addr }

/-! ## Loss of a die (R325 to R328) -/

/-- DIE_CLOCK_SUPPLY_LOSS (R325): a die reports that it has lost its clock or supply. -/
def execDieClockSupplyLoss (die : Nat) (s : State) : Out :=
  if s.alive die then .next ((s.modDie die fun x => { x with powered := false }).markedPair die die) else .next s

/-- Routes from `a` that a fence of `d` changes (R327). -/
def State.detours (s : State) (d a : Nat) : Nat :=
  let bad := 7 :: 56 :: s.fencedDies
  ((List.range 64).filter fun b => b ≠ a && b ≠ d && !(s.die b).fenced &&
    (match routeAvoid bad a b with
      | none => false
      | some r => r.any (fun h => decide (h.1 = d)) && (routeAvoid (d :: bad) a b).isSome)).length

/-- A stage link of a context has its queue on a die. -/
def Ctx.queueOn (x : Ctx) (d : Nat) : Bool := x.links.any fun e => e.2.rxEn && decide (e.2.die = d)

/-- A context that a fenced die faults (table *Effect of a fenced die*). -/
def Ctx.losesDie (x : Ctx) (d : Nat) : Bool :=
  match dieKind d with
  | .rafter => ((x.cfg.map (·.courses)).getD []).any fun k => rafterDie (k / 32) = d
  | .thatch => (x.cfg.isSome && decide (thatchIdx d ∈ stacksOf x.set.1 x.set.2)) || x.queueOn d
  | .eave => x.queueOn d
  | .ridge => decide (d = 63) && x.boundB && x.cfg.isSome
  | .dormer => false

/-- What stood in a stack's controller is gone with its Thatch die: its slice, its re-reads and errors, its Ligger commands (R230). -/
def State.dropThatch (s : State) (t : Nat) : State :=
  { s with
    cache := s.cache.filter fun e => e.1 / 65536 ≠ t
    rereads := s.rereads.filter fun r => r.stack ≠ t
    upsets := s.upsets.filter fun e => e.1 / 2 ^ 30 ≠ t
    ligger := s.ligger.filter fun e => e.1 / 4 ≠ t }.closeWindow (.stack t)

/-- The edges of a fenced die carry nothing: no fault on them is to be absorbed any more. -/
def State.dropEdges (s : State) (d : Nat) : State :=
  iter (fun dir t =>
    match neighbour d dir with
    | none => t
    | some n => (t.strandsOver d dir fun _ => true).strandsOver n (opposite dir) fun _ => true) 4 s

/-- A die is fenced (R325 to R328): RDG_DIE_LOST, DIE_LOST, changed routes, contexts with DIE_LOST (18), ports, site, takeover. -/
def State.fenceDie (s : State) (d cause : Nat) : State :=
  let n := (List.range 64).map fun a => if a = d ∨ (s.die a).fenced then 0 else s.detours d a
  let mgmt := decide (d = s.mgr)
  let s1 := (s.modDie d fun x => { x with fenced := true, cause := cause }).raiseRdg 8
  let s2 := forAll n.zipIdx (fun e t => if e.1 = 0 then t else t.sat (bar0 e.2 1 Off.PRL_DETOUR) 31 0 e.1) s1
  let hit := (s2.ctxs.filter fun e => e.2.losesDie d && decide (e.2.phase = .normal)).map (·.1)
  let s3 := forAll hit (fun c t => t.ctxFault c 18) s2
  let s4 := match dieKind d with
    | .eave => forAll ((List.range 8).map fun i => 8 * eaveIdx d + i) (fun p (t : State) => if t.portUpNow p then t.portFails p else t) s3
    | .dormer => s3.siteOff (if d = 7 then 0 else 1)
    | .thatch => s3.dropThatch (thatchIdx d)
    | _ => s3
  let s4 := (s4.cutPackets d).dropEdges d
  if mgmt then { s4 with takeoverActive := true }.refreshAll else s4

/-- FENCE_NOTICE (R325): the managing Ridge fences the die; the other Ridge does when the notice names the managing one, and starts the
takeover. -/
def execFenceNotice (die cause : Nat) (s : State) : Out :=
  if s.shutdown ∨ !s.fenceDue die cause then .next s
  else if s.cycle.issued then .next (s.post (.fenceNotice die cause))
  else .next (s.fenceDie die cause)

/-- TAKEOVER (R330, R331): the other Ridge has the management role and the time base, and sends what the fenced one has not; the host port of the
fenced one is lost, TAKEOVER is raised. -/
def execTakeover (s : State) : Out :=
  if s.takeoverActive ∧ (s.die s.mgr).fenced ∧ !(s.die (63 - s.mgr)).fenced then
    if s.cycle.issued then .next (s.post .takeover)
    else
      let s1 := (s.setHostLink s.roleB none).setI3c s.roleB none
      .next ((({ s1 with roleB := !s.roleB }.mgmtBehind (!s.roleB) fun _ => 0).raiseRdg 9).sendUnsent)
  else .next s

/-- TAKEOVER_COMPLETE (R330): the promise returns from SUSPENDED unless another condition holds. -/
def execTakeoverComplete (s : State) : Out :=
  if s.takeoverActive ∧ !(s.die s.mgr).fenced then .next ({ s with takeoverActive := false }.refreshAll) else .next s

end Sys2Proof.Machine
end

