-- ==== Sys2Proof/Machine/Ligger.lean ====
section
/-! DEFINITION. The Ligger engines of the Thatch dies (R224 to R229, R356, R358): start, the ten commands, end, pause, abort. -/

namespace Sys2Proof.Machine

/-! ## Engines and ranges -/

/-- The address of a register of engine `n` of Thatch `t`. -/
def ligReg (t n off : Nat) : Nat := bar0 (thatchDie t) 0 (off + 0x40 * n)

/-- The key of an engine. -/
def ligKey (t n : Nat) : Nat := t * 4 + n

/-- STATE of an engine. -/
def State.ligState (s : State) (t n : Nat) : Nat := s.rf (ligReg t n Off.THC_LIG_STS) 2 0

/-- STATE of an engine set. -/
def State.setLig (s : State) (t n v : Nat) : State := s.wf (ligReg t n Off.THC_LIG_STS) 2 0 v

/-- A command is accepted: GO on an engine that is not running (R224). Its range and operands are those of the registers now (log 47). -/
def State.ligGo (s : State) (t n : Nat) (portB : Bool) : State :=
  let a := ligReg t n Off.THC_LIG_STS
  let cmd := ligReg t n Off.THC_LIG_CMD
  if s.ligState t n = 1 ∨ s.ligState t n = 4 then s.wf a 3 3 1
  else
    let op := s.rf cmd 3 0
    let job : LigJob :=
      { op := op
        base := s.rf (ligReg t n Off.THC_LIG_BASE) 47 0 / 64 * 64
        len := s.rf (ligReg t n Off.THC_LIG_LEN) 40 0 / 64 * 64
        aux := (s.reg (ligReg t n Off.THC_LIG_AUX)).toNat
        aux2 := (s.reg (ligReg t n Off.THC_LIG_AUX2)).toNat
        fmt := s.rf cmd 7 4
        strm := s.rf cmd 23 8
        at_ := 0
        crc := 0
        done := decide (9 < op)
        failed := decide (9 < op)
        portB := portB }
    { ((s.setReg a 0).setLig t n 1) with ligger := Table.set s.ligger (ligKey t n) job }

/-- The running command of an engine that still has its action to do. -/
def State.ligJob (s : State) (t n op : Nat) : Option LigJob :=
  if s.alive (thatchDie t) ∧ s.ligState t n = 1 then (Table.get? s.ligger (ligKey t n)).filter fun j => decide (j.op = op) && !j.done else none

/-- The command of an engine changed. -/
def State.modLig (s : State) (t n : Nat) (f : LigJob → LigJob) : State :=
  { s with ligger := Table.mapVals (fun k j => if k = ligKey t n then f j else j) s.ligger }

/-- An engine's action is done. -/
def State.ligDone (s : State) (t n : Nat) (failed : Bool) : State := s.modLig t n fun j => { j with done := true, failed := failed }

/-- An engine has processed `k` more of `total` blocks; its action is done with the last (R227: a command that ends before leaves its range
partly processed). -/
def State.ligStep (s : State) (t n k total : Nat) : State :=
  s.modLig t n fun j => { j with at_ := j.at_ + k, done := decide (total ≤ j.at_ + k) }

/-- Some of a range lies in the scratchpad window. -/
def LigJob.pads (j : LigJob) : Bool := decide (j.base < 3 * 2 ^ 40 + 2 ^ 36 ∧ 3 * 2 ^ 40 < j.base + j.len)

/-- The 256-byte blocks of a range that an engine acts on, those of its own stack in rising DPA order, and all of the scratchpad window (R224):
address, offset in the range, bytes. -/
def LigJob.blocks (j : LigJob) (t : Nat) : List (Nat × Nat × Nat) :=
  (requestParts j.base j.len).filter fun p => inPadWindow p.1 || decide (stackOf p.1 = some t)

/-- The blocks that the next `n` are. -/
def LigJob.next (j : LigJob) (t n : Nat) : List (Nat × Nat × Nat) := ((j.blocks t).drop j.at_).take n

/-- Whether a physical tile's scratchpad belongs to a context with a running launch. -/
def State.padInUse (s : State) (die p : Nat) : Bool :=
  s.ctxs.any fun e => e.2.running.isSome && e.2.tiles.any fun x => decide (s.padBase e.1 x.1 = padKey die p 0)

/-- A tile of a range is in a running launch. -/
def State.padRangeBusy (s : State) (t : Nat) (j : LigJob) : Bool :=
  (j.blocks t).any fun b =>
    match dpaLoc b.1 with
    | .pad d p _ => s.padInUse d p
    | _ => false

/-- Sectors added to ERRCNT of an engine. -/
def State.ligErr (s : State) (t n k : Nat) : State :=
  let a := ligReg t n Off.THC_LIG_STS
  s.wf a 35 4 (satPlus 32 (s.rf a 35 4) k)

/-- The DPAs of the sectors of blocks. -/
def sectorsOf (l : List (Nat × Nat × Nat)) : List Nat := l.flatMap fun p => (sectorParts p.1 p.2.2).map (·.1)

/-- Poisoned sectors of blocks. -/
def State.poisonedSectors (s : State) (l : List (Nat × Nat × Nat)) : Nat := ((sectorsOf l).filter fun a => (s.dpaByte a).2).length

/-- The engine's reads of blocks pass through the slice (R214), windows of the wrong kind are counted (R201). -/
def State.ligTouch (s : State) (l : List (Nat × Nat × Nat)) : State := forAll l (fun p t => t.touch p.1 p.2.2 false false) s

/-- A block written: in a memory window through the slice, in the scratchpad window directly. -/
def State.ligPut (s : State) (a : Nat) (data : List Byte) : State := if inPadWindow a then s.dpaWrite a data false else s.devWrite a data false

/-- Blocks written, each with what `f` gives for the addresses of its bytes. -/
def State.ligFill (s : State) (l : List (Nat × Nat × Nat)) (f : Nat → Byte) : State :=
  forAll l (fun p u => u.devWrite p.1 ((List.range p.2.2).map fun i => f (p.1 + i)) false) s

/-! ## Commands -/

/-- Blocks that take their bytes, one after another, from what the host's memory holds for them. -/
def copyBlocks : List (Nat × Nat × Nat) → List Byte → State → State
  | [], _, s => s
  | p :: r, d, s => copyBlocks r (d.drop p.2.2) (s.ligPut p.1 ((List.range p.2.2).map fun i => d.getD i 0))

/-- COPY_IN (R224): the next `n` blocks of the engine; `data` is what the host's memory holds for them, in order. -/
def execCopyIn (t eng n : Nat) (data : List Byte) (s : State) : Out :=
  match s.ligJob t eng 0 with
  | none => .next s
  | some j =>
    if s.padRangeBusy t j then .next (s.ligDone t eng true)
    else .next ((copyBlocks (j.next t n) data s).ligStep t eng n (j.blocks t).length)

/-- COPY_OUT (R224): the next `n` blocks of the engine go to the host address at the same offset as in the range; poisoned sectors are
counted and written as stored (R212). -/
def execCopyOut (t eng n : Nat) (s : State) : Out :=
  match s.ligJob t eng 1 with
  | none => .next s
  | some j =>
    if s.padRangeBusy t j then .next (s.ligDone t eng true)
    else
      let l := j.next t n
      let s1 := s.ligTouch l
      .next (((forAll l (fun p u => u.hostPut j.portB (j.aux + p.2.1) (s1.dpaRead p.1 p.2.2).1) s1).ligErr t eng (s1.poisonedSectors l)).ligStep
        t eng n (j.blocks t).length)

/-- A command that only a memory range takes fails on a range in the scratchpad window (R224). -/
def State.ligMem (s : State) (t n : Nat) (j : LigJob) (act : State) : State := if j.pads then s.ligDone t n true else act

/-- FILL_CONST (R224): the next `n` blocks. -/
def execFillConst (t eng n : Nat) (s : State) : Out :=
  match s.ligJob t eng 2 with
  | none => .next s
  | some j =>
    .next (s.ligMem t eng j ((s.ligFill (j.next t n) fun a => (leBytes 8 j.aux).getD (a % 8) 0).ligStep t eng n (j.blocks t).length))

/-- Element `i` of a FILL_RNG (R225). -/
def LigJob.fillElem (j : LigJob) (i : Nat) : List Byte :=
  let x := randWord j.aux 0 j.strm i
  let u := toF32 (.fin false (x / 2 ^ 8) (-24))
  (outBytes j.fmt (ffma (BitVec.ofNat 32 (bits j.aux2 31 0)) u (BitVec.ofNat 32 (bits j.aux2 63 32))) none).1

/-- FILL_RNG (R225): the next `n` blocks; a format that has no byte width of 1, 2 or 4 fails. -/
def execFillRng (t eng n : Nat) (s : State) : Out :=
  match s.ligJob t eng 3 with
  | none => .next s
  | some j =>
    if j.fmt ≠ 0 ∧ j.fmt ≠ 1 ∧ j.fmt ≠ 2 ∧ j.fmt ≠ 8 then .next (s.ligDone t eng true)
    else
      let w := elemBytes j.fmt
      .next (s.ligMem t eng j ((s.ligFill (j.next t n) fun a =>
        (j.fillElem ((a - j.base) / w)).getD ((a - j.base) % w) 0).ligStep t eng n (j.blocks t).length))

/-- TEST (R226): the next `n` blocks; `failing` are the places of the failing sectors among theirs, rising; the contents are destroyed. -/
def execTest (t eng n : Nat) (failing : List Nat) (s : State) : Out :=
  match s.ligJob t eng 4 with
  | none => .next s
  | some j =>
    let l := j.next t n
    let first := s.rf (ligReg t eng Off.THC_LIG_STS) 35 4 = 0
    let s1 := (s.ligFill l Config.testLeaves).ligErr t eng failing.length
    let s2 := match (failing.head?).bind fun i => (sectorsOf l)[i]? with
      | none => s1
      | some a => if first then s1.setReg (ligReg t eng Off.THC_LIG_RES) (BitVec.ofNat 64 a) else s1
    .next (s.ligMem t eng j (s2.ligStep t eng n (j.blocks t).length))

/-- VERIFY (R224): the next `n` blocks enter the CRC-64 of the engine's sectors, which stands in THC_LIG_RES after the last; poisoned sectors are
counted. -/
def execVerify (t eng n : Nat) (s : State) : Out :=
  match s.ligJob t eng 5 with
  | none => .next s
  | some j =>
    let l := j.next t n
    let c := crc64From j.crc (l.flatMap fun p => (s.dpaRead p.1 p.2.2).1)
    let s0 := s.ligTouch l
    let s1 := (s0.ligErr t eng (s0.poisonedSectors l)).modLig t eng fun j => { j with crc := c }
    let s2 := if (j.blocks t).length ≤ j.at_ + n then s1.setReg (ligReg t eng Off.THC_LIG_RES) (BitVec.ofNat 64 c) else s1
    .next (s.ligMem t eng j (s2.ligStep t eng n (j.blocks t).length))

/-- Corrected data rewritten into the sectors that the stack has delivered: they hold no error any more (R224). -/
def State.rewrite (s : State) (l : List Nat) : State :=
  forAll l (fun a u =>
    match dpaLoc a with
    | .mem k _ b t x =>
      match u.upset t (x / 64) with
      | some (.corrected _) =>
        if u.memOk k b t ∧ (u.wayOf t (x / 256)).isNone then { u with upsets := Table.erase u.upsets (sectorKey t (x / 64)) } else u
      | _ => u
    | _ => u) s

/-- SCRUB (R224, R213): the next `n` blocks are read and corrected data rewritten; corrections and poisoned sectors are counted. -/
def execScrub (t eng n : Nat) (s : State) : Out :=
  match s.ligJob t eng 6 with
  | none => .next s
  | some j =>
    let l := j.next t n
    let s1 := (s.ligTouch l).rewrite (sectorsOf l)
    .next (s.ligMem t eng j ((s1.ligErr t eng (s1.poisonedSectors l)).ligStep t eng n (j.blocks t).length))

/-- A sector of context memory that an engine writes for a RESTORE: on its own stack and within the range (R358). -/
def State.ligOwn (s : State) (t c va : Nat) (j : LigJob) : Option Nat :=
  (s.placeOf c va false).filter fun a => decide (j.base ≤ a ∧ a < j.base + j.len ∧ stackOf a = some t)

/-- Bytes at a context address restored, those of the engine's sectors. -/
def State.restoreBytes (s : State) (t c va : Nat) (j : LigJob) (data : List Byte) : State :=
  forAll (sectorParts va data.length) (fun (p : Nat × Nat × Nat) (u : State) =>
    match u.ligOwn t c p.1 j with
    | none => u
    | some a => u.devWrite a ((data.drop p.2.1).take p.2.2) false) s

/-- Page `p` of an image restored (R357, R358). -/
def State.restorePage (s : State) (t c : Nat) (j : LigJob) (p : Nat × List Byte) : State :=
  match (s.mirrorPages c)[p.1]? with
  | none => s
  | some m =>
    let v := s.restoreBytes t c m.va j p.2
    match v.regionOf c m.va with
    | none => v
    | some (r, k) =>
      if (sectorParts m.va 65536).any fun q => (v.ligOwn t c q.1 j).isSome then v.setNibble c r.state k (v.nibble c r.state k % 2) else v

/-- The snapshot record of an image restored, UNDO and PREV_VALID cleared (R357). -/
def State.restoreRecord (s : State) (t c : Nat) (j : LigJob) (record : List Byte) : State :=
  let a := (s.reg (ctxA c Off.CTX_SNAP_ADDR)).toNat
  let b := (record.getD 4 0).toNat
  if a = 0 then s
  else (s.restoreBytes t c a j (record.set 4 (BitVec.ofNat 8 (b - b % 4)))).modCtx c fun x => { x with snapFresh := false }

/-- RESTORE (R358, R357): the next `n` pages of the image and, with the last, its record; an image whose seal or CRC-64 is wrong fails and
writes nothing. -/
def execRestore (t eng n : Nat) (image : SealedImage) (s : State) : Out :=
  match s.ligJob t eng 7 with
  | none => .next s
  | some j =>
    let c := bits j.aux2 9 0
    if !image.ok then .next (s.ligDone t eng true)
    else
      let s1 := forAll ((image.pages.drop j.at_).take n) (fun p u => u.restorePage t c j p) s
      let s2 := if image.pages.length ≤ j.at_ + n then s1.restoreRecord t c j image.record else s1
      .next (s.ligMem t eng j (s2.ligStep t eng n image.pages.length))

/-- The blocks of a held page's live copy that lie on an engine's stack within its range: offset in the page, DPA, bytes. -/
def State.rebuildBlocks (s : State) (t c k : Nat) (j : LigJob) : List (Nat × Nat × Nat) :=
  let live := s.nibble c (s.heldState c + 320) k % 2
  match s.xlate c (s.heldPage c k live) false with
  | none => []
  | some a => (requestParts a 65536).filterMap fun p =>
    let lo := max p.1 j.base
    let hi := min (p.1 + p.2.2) (j.base + j.len)
    if stackOf p.1 = some t ∧ lo < hi then some (lo - a, lo, hi - lo) else none

/-- Blocks that follow one another joined. -/
def joinBlocks (l : List (Nat × Nat × Nat)) : List (Nat × Nat × Nat) :=
  l.foldr (fun p acc =>
    match acc with
    | q :: r => if p.1 + p.2.2 = q.1 ∧ p.2.1 + p.2.2 = q.2.1 then (p.1, p.2.1, p.2.2 + q.2.2) :: r else p :: acc
    | [] => [p]) []

/-- The page data of a held page that an engine sends, cut where page-data frames are cut (R349, R356): offset in the page, bytes. -/
def State.rebuildParts (s : State) (t c k : Nat) (j : LigJob) : List (Nat × List PByte) :=
  (joinBlocks (s.rebuildBlocks t c k j)).flatMap fun r =>
    (blockParts 4080 r.1 r.2.2).map fun p => (p.1, (List.range p.2.2).map fun i => s.dpaByte (r.2.1 + p.2.1 + i))

/-- The POISON word of a payload of a MIRROR record and these bytes. -/
def mirrorPoison (l : List PByte) : Word := poisonWord ((poisonOf l).map fun r => (r.1 + 16, r.2)) 0 (16 + l.length)

/-- The frames of a held page that an engine sends. -/
def State.rebuildPage (s : State) (t c k node : Nat) (gen : BitVec 48) (j : LigJob) : State :=
  let key := s.mirrorKey node k
  let s1 := forAll (s.rebuildBlocks t c k j) (fun b u => u.touch b.2.1 b.2.2 false false) s
  forAll (s1.rebuildParts t c k j) (fun p v =>
    v.enqueue key (v.mirrorFrame c node key ⟨gen, 1, false, true, false, k, p.1, p.2.map (·.1)⟩ true (mirrorPoison p.2)) none) s1

/-- REBUILD (R356): the live copies of the next `n` held pages go to the package that replaces the source, and after the last the end record
from the engine whose stack holds the held record; FAILED when the held record shows BUSY without VALID, or BAD. -/
def execRebuild (t eng n : Nat) (s : State) : Out :=
  match s.ligJob t eng 8 with
  | none => .next s
  | some j =>
    let node := bits j.aux 19 0
    let c := bits j.aux 29 20
    let w := leNat (s.devRead j.aux2 8).1
    if (bitAt w 49 ∧ !bitAt w 48) ∨ bitAt w 51 then .next (s.ligDone t eng true)
    else
      let gen := BitVec.ofNat 48 w
      let s1 := forAll ((List.range (s.heldPages c)).drop j.at_ |>.take n) (fun k u => u.rebuildPage t c k node gen j) s
      let s2 := if s.heldPages c ≤ j.at_ + n ∧ stackOf j.aux2 = some t then
          let key := s1.mirrorKey node 0
          s1.enqueue key (s1.mirrorFrame c node key ⟨gen, 2, false, true, false, 0, 0, (s.devRead (j.aux2 + 64) 256).1⟩ true 0) none
        else s1
      .next (s.ligMem t eng j (s2.ligStep t eng n (s.heldPages c)))

/-- REPAIR (R224): `ok` is the outcome of the hard post-package repair. -/
def execRepair (t eng : Nat) (ok : Bool) (s : State) : Out :=
  match s.ligJob t eng 9 with
  | none => .next s
  | some j => .next (s.ligMem t eng j (s.ligDone t eng (!ok)))

/-- LIGGER_COMMAND_DONE (R224): DONE or FAILED, and the engine's completion source. -/
def execLiggerCommandDone (t eng : Nat) (s : State) : Out :=
  match (Table.get? s.ligger (ligKey t eng)).filter fun j => j.done with
  | none => .next s
  | some j =>
    if s.alive (thatchDie t) ∧ s.ligState t eng = 1 then
      .next (({ s with ligger := Table.erase s.ligger (ligKey t eng) }.setLig t eng (if j.failed then 3 else 2)).raisePg (thatchDie t) 0
        (4 + eng))
    else .next s

/-- A paused command continues (R227). -/
def State.ligResume (s : State) (t n : Nat) : State := if s.ligState t n = 4 then s.setLig t n 1 else s

/-- A running or paused command ends (R227). -/
def State.ligAbort (s : State) (t n : Nat) : State :=
  if s.ligState t n = 1 ∨ s.ligState t n = 4 then { s with ligger := Table.erase s.ligger (ligKey t n) }.setLig t n 5 else s

/-- Every engine for which `p` holds of its STATE set to `v`. -/
def State.allEngines (s : State) (f : Nat → Nat → State → State) : State :=
  forAll (List.range 16) (fun t u => forAll (List.range 4) (fun n v => f t n v) u) s

end Sys2Proof.Machine
end

