-- ==== Sys2Proof/Machine/Resets.lean ====
section
/-! DEFINITION. What resets do (R31, R37, R372, R402, R409, R415 to R417): context reset, package cold and warm reset, OFF, the
level-5 shutdown, Function Level Resets. -/

namespace Sys2Proof.Machine

/-! ## Context reset (R402) -/

/-- The offsets of a context window that context reset leaves as they are: CTX_IRQ_EN, CTX_IRQ_VEC, the accounting counters,
CTX_HOLD_LIMIT (R67, R399, R404). -/
def ctxKeeps (off : Nat) : Bool :=
  off = Off.CTX_IRQ_EN || off = Off.CTX_IRQ_VEC || (0x200 ≤ off && off ≤ 0x230) || off = Off.CTX_HOLD_LIMIT

/-- A register address lies in the window of context `c`. -/
def inWindow (c a : Nat) : Bool := ctxA c 0 ≤ a && a < ctxA (c + 1) 0

/-- The registers of a context at context reset. -/
def State.resetWindow (s : State) (c : Nat) : State := s.resetRegs fun a => inWindow c a && !ctxKeeps (offOf a)

/-- What a context keeps through a reset: configuration, binding, the numbers of its transfers and instances, and the writes of it that are on
their way (R401, R402). -/
def Ctx.cleared (x : Ctx) : Ctx :=
  { Ctx.init with
    cfg := x.cfg
    boundB := x.boundB
    rebinding := x.rebinding
    phase := x.phase
    xfers := x.xfers
    nextXfer := x.nextXfer
    nextInst := x.nextInst }

/-- A context reset starts: the context is stopped as by a fault, faults and completions of this cycle among what is discarded, and what R402 names is
discarded without a completion. A promise that is SUSPENDED is entered afresh when CTX_PROMISE has taken its reset value, and counts as
one entry (DESIGN CHOICE, log 94). -/
def State.ctxReset (s : State) (c : Nat) : State :=
  if 1024 ≤ c ∨ (s.ctx c).phase = .resetting then s
  else
    let s0 := { s with cycle :=
      { s.cycle with
        faults := s.cycle.faults.filter fun f => f.ctx ≠ c
        done := s.cycle.done.filter fun e => e.1 ≠ RingOf.ctx c } }
    let s1 := (s0.stopCtx c).modCtx c Ctx.cleared
    let s2 := { s1 with groups := s1.groups.filter fun e => e.2.ctx ≠ c }
    ((s2.resetWindow c).modCtx c fun x => { x with phase := .resetting }).refreshPromise c

/-- CONTEXT_RESET_DONE (R402): CTX_STATE reads IDLE. -/
def execContextResetDone (c : Nat) (s : State) : Out :=
  if (s.ctx c).phase = .resetting then .next (s.modCtx c fun x => { x with phase := .normal }) else .next s

/-! ## Host ports and functions -/

/-- The Ridge of a port is ready and works. -/
def State.ridgeReady (s : State) (portB : Bool) : Bool := (s.die (ridgeOf portB)).ready && s.alive (ridgeOf portB)

/-- Accesses reach the device through a host port. -/
def State.portUsable (s : State) (portB : Bool) : Bool := s.hostLink portB && s.ridgeReady portB

/-- A Ridge answers on its management bus: ready, with a dynamic address (R32). -/
def State.i3cUp (s : State) (ridgeB : Bool) : Bool := s.ridgeReady ridgeB && (if ridgeB then s.i3cB else s.i3cA).isSome

/-- FLR_VF (R372). -/
def execFlrVf (portB : Bool) (n : Nat) (s : State) : Out :=
  if s.portUsable portB ∧ (s.ctx n).boundB = portB then .next (s.ctxReset n) else .next s

/-- The PF ring and completion state of a Ridge take their reset values (R372). -/
def State.resetPf (s : State) (ridgeB : Bool) : State :=
  let s1 := s.resetRegs fun a => bar0 (ridgeOf ridgeB) 0 0x700 ≤ a && a ≤ bar0 (ridgeOf ridgeB) 0 0x768
  if ridgeB then { s1 with pfHeldB := [], pfMailB := [], pfAckB := 0, pfPhaseB := true }
  else { s1 with pfHeldA := [], pfMailA := [], pfAckA := 0, pfPhaseA := true }

/-- FLR_PF (R372). -/
def execFlrPf (portB : Bool) (s : State) : Out := if s.portUsable portB then .next (s.resetPf portB) else .next s

/-! ## Package cold reset and OFF -/

/-- The package after a cold reset (R37, R228, table *Reset kinds*): fused values and firmware flash are kept, and beside them only
what lies outside the package: pins, host memory, what the device has already sent. -/
def State.coldReset (s : State) : State :=
  { State.reset with
    pending := s.pending
    pwrEn := s.pwrEn
    perstA := s.perstA
    perstB := s.perstB
    rrs := s.rrs
    ppsPulses := s.ppsPulses
    flashA := s.flashA
    flashB := s.flashB
    fusedSpares := s.fusedSpares
    hostMem := s.hostMem
    images := s.images
    wire := s.wire
    msix := s.msix }

/-- The package is OFF (R31, R415): nothing is kept but flash and fuses; PKG_PWRGD is low. -/
def State.off (s : State) : State := { s.coldReset with pwrgd := false }

/-- PWR_EN_RISE (R31): regulation starts; PKG_PWRGD rises when every supply is in regulation. -/
def execPwrEnRise (s : State) : Out := .next { s with pwrEn := true }

/-- PWR_EN_FALL (R31): the package goes to OFF whatever any other input does. -/
def execPwrEnFall (s : State) : Out := .next { s.off with pwrEn := false }

/-- PKG_PWRGD (R37): its rise performs package cold reset. -/
def execPkgPwrgd (s : State) : Out := if s.pwrEn ∧ !s.pwrgd then .next { s.coldReset with pwrgd := true } else .next s

/-- PERST# of a port is asserted. -/
def State.perst (s : State) (portB : Bool) : Bool := if portB then s.perstB else s.perstA

/-- The state with the PERST# of a port set. -/
def State.setPerst (s : State) (portB low : Bool) : State := if portB then { s with perstB := low } else { s with perstA := low }

/-- PERST_MGMT_ASSERT (R31, R330): package cold reset; ignored while PKG_PWRGD is low. -/
def execPerstMgmtAssert (s : State) : Out := if s.pwrgd then .next (s.setPerst s.roleB true).coldReset else .next (s.setPerst s.roleB true)

/-- The binding state of a port's virtual functions is reset: a rebinding to the port that is under way is given up, and the bindings
themselves stay, since the device serves the contexts' doorbells again when the link retrains (R31; log 58). -/
def State.resetVfs (s : State) (portB : Bool) : State := s.mapCtxs fun x => if x.boundB = portB then { x with rebinding := false } else x

/-- PERST_OTHER_ASSERT (R31): the other port's link goes down, its physical function and the binding state of its virtual functions are
reset; contexts bound to the port keep plans, memory and rings. -/
def execPerstOtherAssert (s : State) : Out :=
  let b := !s.roleB
  if s.pwrgd then .next ((((s.setPerst b true).setHostLink b none).resetPf b).resetVfs b) else .next (s.setPerst b true)

/-- PERST_DEASSERT (R31): link training of the port begins; HOST_LINK_UP ends it. -/
def execPerstDeassert (portB : Bool) (s : State) : Out := .next (s.setPerst portB false)

/-! ## The level-5 shutdown (R415) -/

/-- A context after the loss of everything but its configuration and registers: no launch, plan, queue content, transfer. -/
def Ctx.lost (x : Ctx) : Ctx :=
  { x with
    plan := none
    openCmd := none
    queue := []
    running := none
    ended := []
    due := []
    queues := []
    tiles := []
    xfers := []
    insts := []
    mirrorGen := none
    taken := [] }

/-- Every die but the managing Ridge is powered off; launches, plans, queue contents, link state and the cache are lost. -/
def State.shutDown (s : State) : State :=
  let keep := s.mgr
  let s1 := forAll ((List.range 64).filter fun d => d ≠ keep) (fun d t => t.modDie d fun x =>
    { x with powered := false, ready := false, prlReady := false, coord := none, waveFrom := none }) s
  (({ s1.mapCtxs Ctx.lost with
      cache := []
      scratch := []
      scratchPoison := []
      rereads := []
      ligger := []
      links := []
      ports := []
      sites := []
      routers := []
      turns := []
      strandFaults := []
      unsent := []
      faultWins := []
      selfRefresh := true
      shutdown := true }.setHostLink (!s.roleB) none).setI3c (!s.roleB) none).refreshAll

/-! ## Package warm reset (R417) -/

/-- The offsets of the RDG page whose registers take their reset values at package warm reset (R286, R339, R423). -/
def rdgWarm (off : Nat) : Bool :=
  off = Off.RDG_CLK_AT || off = Off.RDG_PSTATE || off = Off.RDG_PKG_RESET || off = Off.RDG_GRP_SEL || off = Off.RDG_DIE_SEL

/-- A register takes its reset value at package warm reset (R130, R152, R169, R197, R231, R257, R286, R314, R339, R369, R396, R399, R404,
R423, R432, R437, R438, R443); fields that are kept in a register that is not are set apart in `warmFields`. -/
def warmResets (a : Nat) : Bool :=
  let off := offOf a
  match pageOf a with
  | some .rdg => rdgWarm off
  | some .prl =>
    let ridge := decide (dieKind (a / 2 ^ 18) = .ridge)
    !((ridge && (off < 0x80 || off = Off.PRL_COORD)) || off = Off.PRL_ENERGY || off = Off.PRL_TEMP)
  | some .btn => !(decide (dieKind (a / 2 ^ 18) = .ridge) && decide (off < 0x80))
  | some .rft => !(off = Off.RFT_VOFF || off = Off.RFT_RETIRE)
  | some .ctx => !(0x200 ≤ off && off ≤ 0x230)
  | some _ => true
  | none => false

/-- The fields that package warm reset clears in registers it keeps: BAD of RDG_CLK and of RDG_SAG, CRIT of RDG_THERM, PORTCFG of
RDG_BOOT, TJ of each PRL_TEMP, BAD of each RFT_RETIRE. -/
def State.warmFields (s : State) : State :=
  let s1 := (((s.wf Off.RDG_CLK 6 6 0).wf Off.RDG_SAG 9 9 0).wf Off.RDG_THERM 2 2 0).wf Off.RDG_BOOT 2 2 0
  let s2 := forAll (List.range 64) (fun d t => t.wf (bar0 d 1 Off.PRL_TEMP) 7 0 0) s1
  forAll (List.range 36) (fun r t => t.wf (bar0 (rafterDie r) 0 Off.RFT_RETIRE) 13 13 0) s2

/-- The locks that software has set in this very cycle outlast the reset (R12). -/
def State.relock (s : State) : State :=
  forAll s.cycle.raised (fun e t => if e.1 < 2 ^ 24 ∧ e.1 % 2 ^ 12 = Off.PG_LOCK then t.setReg e.1 e.2 else t) s

/-- A die after package warm reset: not ready, nothing discovered, no fence. The Ridges are not reset; one that was off boots again. -/
def warmDie (d : Nat) (x : Die) : Die :=
  if dieKind d = .ridge then
    { x with conflict := false, wrongKind := false, reported := false, ready := x.ready && x.powered, fenced := false, cause := 0, marked := []
             powered := true, waveFrom := none }
  else Die.init

/-- A context after package warm reset: descriptor and binding are kept. -/
def Ctx.warm (x : Ctx) : Ctx := { x.cleared with phase := .normal, xfers := [] }

/-- Package warm reset (R230, R314, R369, R417). -/
def State.warmReset (s : State) : State :=
  let s1 := s.flushCache
  let s2 := { (s1.resetRegs warmResets).mapCtxs Ctx.warm with
    dies := (Table.mapVals warmDie s1.dies).filter fun (e : Nat × Die) => decide (e.2 ≠ Die.init)
    rafters := (Table.mapVals (fun _ (f : Rafter) => { f with proposals := [] }) s1.rafters).filter fun (e : Nat × Rafter) =>
      decide (e.2 ≠ Rafter.init)
    groups := []
    links := []
    ports := []
    sites := []
    routers := []
    turns := []
    strandFaults := []
    unsent := []
    ligger := []
    rereads := []
    scratch := []
    scratchPoison := []
    faultWins := []
    ceCount := []
    replayCount := []
    flitCount := []
    refreshes := []
    entered := []
    bufLimited := false
    halted := false
    haltSpans := []
    haltSince := none
    keepAlive := false
    selfRefresh := true
    shutdown := false
    divPend := none
    psTarget := none
    pstate := 0
    warmActive := true
    cycle := { s1.cycle with faults := [], done := [] } }
  s2.warmFields.relock.refreshAll

/-- A write of RDG_PKG_RESET (R417): another CODE, or a level of 4 or above, is refused; during firmware activation it is deferred. -/
def State.pkgReset (s : State) (code : Nat) (go : Bool) : State :=
  if code ≠ 0x5741 ∨ 4 ≤ s.rf Off.RDG_SAG 2 0 then s.wf Off.RDG_PKG_RESET 17 17 1
  else
    let s1 := s.wf Off.RDG_PKG_RESET 17 17 0
    if !go then s1 else if s.rf Off.RDG_FWACT 0 0 = 1 then s1.wf Off.RDG_PKG_RESET 18 18 1 else s1.warmReset

/-- WARM_RESET_END (R417): FORCED and EFF are set afresh, WARM_COUNT advances. -/
def execWarmResetEnd (s : State) : Out :=
  if s.warmActive then
    let forced := decide (s.rf Off.RDG_THERM 0 0 = 1 ∨ s.rf Off.RDG_SAG 2 0 = 3)
    let s1 := ((s.wf Off.RDG_CLK 4 4 (b2n forced)).wf Off.RDG_CLK 3 2 (if forced then 2 else s.rf Off.RDG_CLK 1 0)).sat Off.RDG_BOOT 31 16 1
    .next ({ s1 with warmActive := false, selfRefresh := false, entered := if forced then [3] else [] }.refreshAll)
  else .next s

/-! ## What can not be done while a launch is queued or runs -/

/-- A launch of the context is queued or running. -/
def State.busy (s : State) (c : Nat) : Bool := (s.ctx c).running.isSome || !(s.ctx c).queue.isEmpty

/-- A launch of any context is queued or running. -/
def State.anyBusy (s : State) : Bool := s.ctxs.any fun e => e.2.running.isSome || !e.2.queue.isEmpty

end Sys2Proof.Machine
end

