-- ==== Sys2Proof/Machine/Views.lean ====
section
/-! DEFINITION. What a host access reads from a register (R9, R11, R404, R419, R426, R430, R435): the stored value, with the fields
that show other state computed at the read. -/

namespace Sys2Proof.Machine

/-! ## Pages (R419, R425, R427, R447) -/

/-- The function of a page is usable (R419): PRL by its coordinates (R447), a context window with the Ridge of the port, a DMR page
with the managing Ridge that serves it, every other page with its die. -/
def State.pageReady (s : State) (a : Nat) (portB : Bool) : Bool :=
  match pageOf a with
  | some .prl => (s.die (a / 2 ^ 18)).prlReady
  | some .ctx => s.ridgeReady portB
  | some .dmr => s.ridgeReady s.roleB
  | some _ => (s.die (a / 2 ^ 18)).ready
  | none => false

/-- The page lies on a fenced die. -/
def State.pageFenced (s : State) (a : Nat) : Bool := decide (a < 2 ^ 24) && (s.die (a / 2 ^ 18)).fenced

/-! ## Fields that show other state -/

/-- The header fields of a page (R430, table *Common header*). -/
def State.viewHdr (s : State) (a : Nat) (k : PageKind) (portB : Bool) : Word :=
  let off := offOf a
  let isCtx := decide (k = .ctx)
  if off = Off.PG_ID then
    packW (if isCtx then [(8, 12), (1, 16), ((a - 2 ^ 24) / 2 ^ 16, 32)]
      else [(a / 2 ^ 18, 0), (a / 2 ^ 12 % 64, 6), (pageKindCode k, 12), (1, 16)])
  else if off = Off.PG_CAP then packW [(pageNsrc k, 0), (b2n (k = .eav || k = .dmr), 8), (b2n (k = .rdg), 9)]
  else if off = Off.PG_STS then ins (s.reg a) 0 0 (b2n (s.pageReady a portB))
  else if isCtx && (off = Off.PG_IRQ_RAW || off = Off.PG_IRQ_EN || off = Off.PG_IRQ || off = Off.PG_LOCK) then 0
  else if off = Off.PG_IRQ then s.pgIrq (a / 2 ^ 18) (a / 2 ^ 12 % 64)
  else s.reg a

/-- The die-kind code of RDG_DIE_STS. -/
def dieKindCode (d : Nat) : Nat :=
  match dieKind d with
  | .ridge => 0
  | .rafter => 1
  | .thatch => 2
  | .eave => 3
  | .dormer => 4

/-- The hottest junction and its die, the lowest on a tie (RDG_THERM.TMAX, DIE). -/
def State.hottest (s : State) : Nat × Nat :=
  (List.range 64).foldl (fun b d => let t := s.rf (bar0 d 1 Off.PRL_TEMP) 7 0; if b.1 < t then (t, d) else b) (0, 0)

/-- RDG registers that show other state. -/
def State.viewRdg (s : State) (a : Nat) : Word :=
  let off := offOf a
  let w := s.reg a
  if off = Off.RDG_THERM then ins (ins w 10 3 s.hottest.1) 16 11 s.hottest.2
  else if off = Off.RDG_BOOT then ins (ins w 2 2 (s.rf Off.RDG_BOOT 2 2)) 31 16 (s.rf Off.RDG_BOOT 31 16)
  else if off = Off.RDG_PTP then
    ins w 15 15 (b2n (s.ptpLocked && decide (s.rf Off.RDG_PTP 14 14 = 1) && s.portUpNow (s.rf Off.RDG_PTP 5 0)))
  else if off = Off.RDG_BAND then ins w 31 0 (Table.getD 0x55555555 s.bands (s.rf Off.RDG_BANDSEL 5 0)).toNat
  else if off = Off.RDG_GRP_STS then
    match Table.get? s.groups (s.rf Off.RDG_GRP_SEL 11 0) with
    | none => 0
    | some g => packW [(1, 0), (g.ctx, 1), (g.epoch.toNat, 11), (g.seq.toNat, 27)]
  else if off = Off.RDG_DIE_LOST then packW ((s.fencedDies).map fun d => (1, d))
  else if off = Off.RDG_ROLE then packW [(b2n s.roleB, 0)]
  else if off = Off.RDG_DIE_STS then
    let d := s.rf Off.RDG_DIE_SEL 5 0
    packW [(dieKindCode d, 0), ((s.die d).cause, 3)]
  else w

/-- A physical tile is out of use on its die: replaced by self-test or retired. -/
def Rafter.gone (f : Rafter) (p : Nat) : Bool := p ∈ f.failed || f.retired.any fun t => t.tile = p && !t.copying

/-- A physical tile is a spare that nothing uses and that passed self-test. -/
def Rafter.freeSpare (f : Rafter) (p : Nat) : Bool :=
  p ∈ f.spares && !(p ∈ f.failed) && !f.retired.any fun t => t.spare = p || t.tile = p

/-- A physical tile is enabled: it is in a course, or replaces one that was (R21, R368, R421). -/
def Rafter.enabled (f : Rafter) (p : Nat) : Bool :=
  decide (p < 2304) && !f.gone p && (!(p ∈ f.spares) || f.retired.any fun t => t.spare = p && !t.copying)

/-- RFT registers that show other state. -/
def State.viewRft (s : State) (a : Nat) : Word :=
  let off := offOf a
  let d := a / 2 ^ 18
  let f := s.rafter (rafterIdx d)
  let row := s.rf (bar0 d 0 Off.RFT_MAP_SEL) 5 0
  let cols (p : Nat → Bool) : Word :=
    packW (((List.range 48).filter fun x => decide (row < 48) && p (row * 48 + x)).map fun x => (1, x))
  if off = Off.RFT_PROP_TILE then packW [(f.proposals.getD (s.rf (bar0 d 0 Off.RFT_PROP_SEL) 5 0) 0, 0)]
  else if off = Off.RFT_MAP then cols f.enabled
  else if off = Off.RFT_MAP2 then cols fun p => decide (p ∈ f.failed)
  else s.reg a

/-- EAV_PSTS.ACTIVE. -/
def State.viewEav (s : State) (a : Nat) : Word :=
  let off := offOf a
  if 0x400 ≤ off ∧ (off - 0x400) % 0x40 = 8 then
    ins (s.reg a) 6 2 (min 31 (s.activeOn (8 * eaveIdx (a / 2 ^ 18) + (off - 0x400) / 0x40)))
  else s.reg a

/-- The context and logical tile that a physical tile of a Rafter serves (SEQ_TILE_STS). -/
def State.tileOwner (s : State) (r p : Nat) : Option (Nat × Nat) :=
  s.ctxs.findSome? fun e =>
    match e.2.cfg with
    | none => none
    | some g => (g.courses.zipIdx.filter fun k => k.1 / 32 = r).findSome? fun k =>
        ((List.range 70).find? fun j => s.physTile r (k.1 % 32 * 70 + j) = p).map fun j => (e.1, 70 * k.2 + j)

/-- SEQ_TILE_STS of the selected tile (R438): a tile waits at a hold when its next entry, at its earliest time or later, has not issued. -/
def State.viewTile (s : State) (d : Nat) : Word :=
  let p := s.rf (bar0 d 3 Off.SEQ_TILE_SEL) 11 0
  let f := s.rafter (rafterIdx d)
  let fate : List (Nat × Nat) := [(b2n (f.freeSpare p), 41), (b2n (f.gone p), 42)]
  if 2304 ≤ p then 0
  else
    match s.tileOwner (rafterIdx d) p with
    | none => packW fate
    | some (c, t) =>
      let x := s.tile c t
      let holding := match x.entryAt x.pos with
        | none => false
        | some e => s.seqRuns c t && eIsHold e && decide (x.dueAt e ≤ s.now)
      packW ([(c, 0), (1, 10), (b2n ((s.ctx c).running.isSome && x.running), 11), (b2n holding, 12), (x.index x.pos, 13), (t, 24)] ++ fate)

/-- SEQ registers. -/
def State.viewSeq (s : State) (a : Nat) : Word :=
  let off := offOf a
  if off = Off.SEQ_TB_NOW then s.tb else if off = Off.SEQ_TILE_STS then s.viewTile (a / 2 ^ 18) else s.reg a

/-- The code of CTX_STATE.STATE (R404). -/
def State.ctxStateCode (s : State) (c : Nat) : Nat :=
  match (s.ctx c).phase with
  | .resetting => 3
  | .faulted => 2
  | .normal => if s.busy c then 1 else 0

/-- Word `w` of the mailbox of a ring (R391). -/
def State.mboxWord (s : State) (r : RingOf) (w : Nat) : Word :=
  match s.mailOf r with
  | x :: _ => BitVec.ofNat 64 (x.mboxWords.getD w 0)
  | [] =>
    if w = 0 then
      (match r with
        | .ctx c => (s.ctx c).lastAck
        | .pf b => if b then s.pfAckB else s.pfAckA).setWidth 64
    else 0

/-- The endpoint that CTX_CHSEL names: CTX_CHSTAT and CTX_CHSTALL of it. -/
def State.viewChan (s : State) (c : Nat) : Word × Word :=
  let sel := s.reg (ctxA c Off.CTX_CHSEL)
  let x := s.tile c (fld sel 16 0)
  if fld sel 21 21 = 1 then
    let e := Table.getD RxEp.init x.rx (fld sel 20 17)
    (packW [(e.msgs.toNat, 0), (e.nacks.toNat, 32), (e.reason.toNat, 48)], 0)
  else
    let e := Table.getD TxEp.init x.tx (fld sel 20 17)
    (packW [(e.msgs.toNat, 0), (e.nacks.toNat, 32), (e.reason.toNat, 48), (e.outcome.toNat, 51)], e.stall.setWidth 64)

/-- Registers of a context window that show other state (R197, R361, R393, R404). -/
def State.viewCtx (s : State) (a : Nat) : Word :=
  let off := offOf a
  let c := (a - 2 ^ 24) / 2 ^ 16
  let w := s.reg a
  if 0x140 ≤ off ∧ off ≤ 0x158 then s.mboxWord (.ctx c) ((off - 0x140) / 8)
  else if off = Off.CTX_STATE then packW [(s.ctxStateCode c, 0), ((s.ctx c).queue.length, 3), (b2n (s.ctx c).boundB, 6)]
  else if off = Off.CTX_IRQ then s.reg (ctxA c Off.CTX_IRQ_RAW) &&& s.reg (ctxA c Off.CTX_IRQ_EN)
  else if off = Off.CTX_QSTAT then
    let q := s.queue c (s.cf c Off.CTX_QSEL 9 0)
    packW [(q.packets.length, 0), (s.seenWords q, 7), (b2n q.off, 24), (b2n q.overrun, 25), (b2n q.tail, 26), (q.lastMb.toNat, 27), (q.lastVer.toNat, 43)]
  else if off = Off.CTX_QCOUNT then
    let q := s.queue c (s.cf c Off.CTX_QSEL 9 0)
    packW [(q.popped.toNat, 0), (q.parityFails.toNat, 32)]
  else if off = Off.CTX_CHSTAT then (s.viewChan c).1
  else if off = Off.CTX_CHSTALL then (s.viewChan c).2
  else if off = Off.CTX_VRING then
    match Table.get? (s.ctx c).rings (s.cf c Off.CTX_VRSEL 4 0) with
    | none => 0
    | some r => packW [(r.newest.toNat, 0), (b2n r.valid, 16)]
  else if off = Off.CTX_MIR_STS then ins w 48 48 (b2n (s.ctx c).mirrorGen.isSome)
  else if off = Off.CTX_MIR_HELD then
    if s.cf c Off.CTX_MIR_IN 0 0 = 1 then BitVec.ofNat 64 (bits (s.heldWord c) 51 0) else 0
  else if off = Off.CTX_CKPT_CTL then (if s.privileged c then w else ins w 5 3 0)
  else w

/-- The value of a register whose page is present, ready and not fenced. -/
def State.view (s : State) (a : Nat) (portB : Bool) : Word :=
  match pageOf a, regAt a with
  | some k, some _ =>
    if offOf a < 0x80 then s.viewHdr a k portB
    else
      match k with
      | .rdg =>
        if 0x740 ≤ offOf a ∧ offOf a ≤ 0x758 then s.mboxWord (.pf (a / 2 ^ 18 = 63)) ((offOf a - 0x740) / 8) else s.viewRdg a
      | .rft => s.viewRft a
      | .eav => s.viewEav a
      | .seq => s.viewSeq a
      | .ctx => s.viewCtx a
      | .thc | .prl | .btn | .dmr | .guest => s.reg a
  | _, _ => 0

/-- What a page returns (R419, R427): nothing but PG_ID and PG_STS before READY, nothing of a fenced die. -/
def State.pageRead (s : State) (a : Nat) (portB : Bool) : Word :=
  if s.pageFenced a then 0
  else if s.pageReady a portB ∨ offOf a = Off.PG_ID ∨ offOf a = Off.PG_STS then s.view a portB
  else 0

/-- What an 8-byte read through a port's physical function returns. -/
def State.hostRead (s : State) (a : Nat) (portB : Bool) : Word := if s.portUsable portB then s.pageRead a portB else 0

/-- The junction temperature of a die as the management bus reports it, while the managing Ridge's target answers (R28, R32). -/
def State.tempSensor (s : State) (die : Nat) : Option Nat :=
  if s.i3cUp s.roleB ∧ die < 64 ∧ !(s.die die).fenced then some (s.rf (bar0 die 1 Off.PRL_TEMP) 7 0) else none

end Sys2Proof.Machine
end

