-- ==== Sys2Proof/Machine/HostWrite.lean ====
section
/-! DEFINITION. Host writes to registers (R9, R12, R424 to R433, R436, R453): readiness and fences, sizes, locks, and what a write of each
register does. The rows that are writes of one register perform that write here. -/

namespace Sys2Proof.Machine

/-! ## Clocks, power states, sag and thermal controls (R31, R406 to R409, R413) -/

/-- CLK_C is forced to ÷8 (R407): FORCED is set; the divider changes within 4,096 cycles. A restore of this same cycle loses. -/
def State.forceDiv (s : State) : State :=
  let s1 := if s.divPend.any fun p => p.restore && p.written = s.now then s.wf Off.RDG_CLK 6 6 1 else s
  ({ s1.wf Off.RDG_CLK 4 4 1 with divPend := if s.eff = 2 then none else some ⟨2, false, s.now⟩ }).refreshAll

/-- A write of RDG_CLK (R406, R407). With RESTORE = 1 it is a restore, and also a divider write when it changes DIV; with RESTORE = 0 it is
a divider write. One refused makes the whole write ignored. -/
def State.writeClk (s : State) (v : Word) : State :=
  let div := fld v 1 0
  let restore := decide (fld v 5 5 = 1)
  let setDiv := !restore || decide (div ≠ s.rf Off.RDG_CLK 1 0)
  let okDiv := !s.anyBusy && decide (s.rf Off.RDG_CLK 4 4 = 0) && decide (div ≠ 3)
  let okRestore := decide (s.rf Off.RDG_SAG 2 0 < 3) && decide (s.rf Off.RDG_THERM 0 0 = 0)
  if (setDiv && !okDiv) || (restore && !okRestore) then s.wf Off.RDG_CLK 6 6 1
  else
    let s1 := s.wf Off.RDG_CLK 6 6 0
    let s2 := if setDiv then { s1.wf Off.RDG_CLK 1 0 div with divPend := some ⟨div, false, s.now⟩ } else s1
    if restore then { s2 with divPend := some ⟨s2.rf Off.RDG_CLK 1 0, true, s.now⟩, entered := s2.entered.filter (· ≠ 3) } else s2

/-- The entry column of the table *Power states*: from state `a` a command to state `b` is allowed. -/
def pstateFrom (a b : Nat) : Bool := if b = 0 then 0 < a else a < b

/-- A write of RDG_PSTATE.CMD (R409): one that falls in the cycle of a sag-level entry is refused. The cycle's record holds the entry at the
key of RDG_SAG.LEVEL, and a command taken at the key of RDG_PSTATE.CMD. -/
def State.writePstate (s : State) (cmd : Nat) : State :=
  if s.countedIn Off.RDG_SAG 0 = 1 ∨ s.psTarget.isSome ∨ !pstateFrom s.pstate cmd ∨ 2 ≤ s.rf Off.RDG_SAG 2 0 ∨ s.ctxs.any fun e => e.2.running.isSome then
    s.wf Off.RDG_PSTATE 5 5 1
  else { (s.wf Off.RDG_PSTATE 5 5 0).wf Off.RDG_PSTATE 4 2 4 with psTarget := some cmd }.noteCount Off.RDG_PSTATE 0 1

/-- The level-4 action is undone (R414): sequencers, transfers, ports and memory go on. -/
def State.unhalt (s : State) : State :=
  let span := match s.haltSince with
    | none => []
    | some h => [(h, s.now)]
  let s1 := { s with
    halted := false
    haltSpans := s.haltSpans ++ span
    haltSince := none
    keepAlive := decide (s.pstate = 3)
    selfRefresh := decide (s.pstate = 3) }
  if s1.keepAlive then s1 else forAll (List.range 64) (fun p t => if (t.port p).ingress = [] ∧ (t.port p).rxbuf = [] then t else t.drainPort p) s1

/-- A write of RDG_SAG (R412, R413): MAX and VMIN start again from the present flag and reading. -/
def State.writeSag (s : State) (v : Word) : State :=
  let level := s.rf Off.RDG_SAG 2 0
  let s1 := if fld v 6 6 = 1 then (s.wf Off.RDG_SAG 5 3 level).wf Off.RDG_SAG 28 16 (s.rf Off.RDG_SAG 44 32) else s
  let pre := decide (fld v 7 7 = 1)
  let res := decide (fld v 8 8 = 1)
  let s2 := if pre || res then s1.wf Off.RDG_SAG 9 9 (b2n ((pre && decide (2 ≤ level)) || (res && decide (4 ≤ level)))) else s1
  let s3 := if pre && decide (level < 2) then { s2 with bufLimited := false, entered := s2.entered.filter (· ≠ 2) } else s2
  if res && decide (level < 4) && decide (4 ∈ s3.entered) then { s3 with entered := s3.entered.filter (· ≠ 4) }.unhalt else s3

/-- A write of RDG_THERM.CLEAR (R31): it takes effect only while every junction reads below 105 °C. -/
def State.writeTherm (s : State) (v : Word) : State :=
  if fld v 1 1 = 1 ∧ s.hottest.1 < 105 then { s.wf Off.RDG_THERM 0 0 0 with thermtrip := false } else s

/-! ## Package tables (R200, R289, R313, R380) -/

/-- The band table stays consistent with the kinds `w` of one band in the 16 stacks (R200). -/
def bandOk (w : Nat) : Bool :=
  let kind (t : Nat) : Nat := w / 4 ^ t % 4
  let same (l : List Nat) (k : Nat) : Bool := l.all (fun t => kind t = k) || l.all (fun t => kind t ≠ k)
  same (List.range 16) 1 && (List.range 4).all fun q => same (stacksOf 1 q) 2

/-- A write of RDG_BAND (R200). -/
def State.writeBand (s : State) (kinds : Nat) : State :=
  if bandOk kinds then
    let s1 := s.wf Off.RDG_BAND 32 32 0
    { s1 with bands := Table.put 0x55555555 s1.bands (s.rf Off.RDG_BANDSEL 5 0) (BitVec.ofNat 32 kinds) }
  else s.wf Off.RDG_BAND 32 32 1

/-- A write of RDG_NODE (R313). -/
def State.writeNode (s : State) (node : Nat) : State :=
  if s.routes = [] then (s.wf Off.RDG_NODE 19 0 node).wf Off.RDG_NODE 20 20 0 else s.wf Off.RDG_NODE 20 20 1

/-- A write of RDG_PTP (R289): a write with EN = 1 that names another port, or EN = 0, ends the synchronisation. -/
def State.writePtp (s : State) (v : Word) : State :=
  let same := fld v 14 14 = 1 ∧ s.rf Off.RDG_PTP 14 14 = 1 ∧ fld v 5 0 = s.rf Off.RDG_PTP 5 0
  { s.wf Off.RDG_PTP 14 0 (fld v 14 0) with ptpLocked := s.ptpLocked && decide same }

/-- A write of RDG_XLATE_INV (R380). -/
def State.writeXlate (s : State) (v : Word) : State :=
  if fld v 10 10 = 0 then s
  else if s.busy (fld v 9 0) then s.wf Off.RDG_XLATE_INV 11 11 1
  else (s.wf Off.RDG_XLATE_INV 11 11 0).modCtx (fld v 9 0) fun x => { x with tlb := [] }

/-- A write of RDG_ACCT_CLR (R399). -/
def State.clearAcct (s : State) (c : Nat) : State := s.resetRegs fun a => ctxA c 0x200 ≤ a && a ≤ ctxA c 0x230

/-! ## Rings and event logs (R371, R382, R390 to R392, R395, R403, R453) -/

/-- A value kept within a range. -/
def clampN (lo hi n : Nat) : Nat := max lo (min hi n)

/-- HEAD and TAIL of a command ring differ. -/
def State.ringWaits (s : State) (r : RingOf) : Bool := s.rf (r.addr Off.CTX_CMD_PTR) 15 0 ≠ s.rf (r.addr Off.CTX_CMD_PTR) 31 16

/-- A launch of the context of a ring is queued or running. -/
def State.ringBusy (s : State) (r : RingOf) : Bool :=
  match r with
  | .ctx c => s.busy c
  | .pf _ => false

/-- A write of CMD_BASE or CMD_CTL of a ring (R382, R453). -/
def State.writeCmdRing (s : State) (r : RingOf) (isCtl : Bool) (v : Word) : State :=
  if s.ringWaits r ∨ s.ringBusy r then s
  else
    let s1 := if isCtl then s.setReg (r.addr Off.CTX_CMD_CTL) (BitVec.ofNat 64 (clampN 4 16 (fld v 4 0)))
      else s.setReg (r.addr Off.CTX_CMD_BASE) (BitVec.ofNat 64 (fld v 47 12 * 2 ^ 12))
    s1.setReg (r.addr Off.CTX_CMD_PTR) 0

/-- A write of DOORBELL.TAIL of a ring (R332, R382, R402, R403): discarded during a context reset, and while the host port of the context is lost;
during firmware activation discarded with one
completion BUSY_FWACT, unless 8 records are held. A TAIL moved back takes commands out of those that wait before an MGMT command (R387). -/
def State.ringDoorbell (s : State) (r : RingOf) (tail : Nat) : State :=
  let closed : Bool := match r with
    | .ctx c => decide ((s.ctx c).phase = .resetting) || !s.alive (ridgeOf (s.ctx c).boundB)
    | .pf _ => false
  if closed then s
  else if s.rf Off.RDG_FWACT 0 0 = 1 then
    if 8 ≤ s.heldCount r then s else s.complete r (s.cpl (BitVec.ofNat 32 tail) 0 9 0 0)
  else
    let s1 := s.wf (r.addr Off.CTX_CMD_PTR) 31 16 (tail % 2 ^ s.rf (r.addr Off.CTX_CMD_CTL) 4 0)
    match r with
    | .ctx _ => s1
    | .pf b => s1.mgmtBehind b (min (min (s.ringCount r) (s1.ringCount r)))

/-- A write of CPL_BASE of a ring: through the port that the context is bound to it ends the rebinding (R371, R390). -/
def State.writeCplBase (s : State) (r : RingOf) (portB : Bool) (v : Word) : State :=
  let s1 := s.setReg (r.addr Off.CTX_CPL_BASE) (BitVec.ofNat 64 (fld v 63 12 * 2 ^ 12))
  let s2 := match r with
    | .ctx c => if (s1.ctx c).boundB = portB then s1.modCtx c fun x => { x with rebinding := false } else s1
    | .pf _ => s1
  s2.drainHeld r (s2.heldOf r).length

/-- A write of CPL_CTL of a ring: LOG2 and HEAD (R390, R453). -/
def State.writeCplCtl (s : State) (r : RingOf) (v : Word) : State :=
  let a := r.addr Off.CTX_CPL_CTL
  let s1 := (s.wf a 4 0 (clampN 4 16 (fld v 4 0))).wf a 31 16 (fld v 31 16)
  s1.drainHeld r (s1.heldOf r).length

/-- The SEQ last acknowledged on a ring set. -/
def State.setAck (s : State) (r : RingOf) (q : BitVec 32) : State :=
  match r with
  | .ctx c => s.modCtx c fun x => { x with lastAck := q }
  | .pf b => if b then { s with pfAckB := q } else { s with pfAckA := q }

/-- A write of RES_ACK of a ring (R392). -/
def State.ackRecord (s : State) (r : RingOf) (q : BitVec 32) : State :=
  match s.mailOf r with
  | x :: rest =>
    if x.seq = q then ((s.setMail r rest).setAck r q).wf (r.addr Off.CTX_RES_STS) 7 7 0 else s.wf (r.addr Off.CTX_RES_STS) 7 7 1
  | [] => s.wf (r.addr Off.CTX_RES_STS) 7 7 1

/-- A write of EVLOG_BASE, or of EVLOG_CTL (R395, R453). -/
def State.writeEvlog (s : State) (l : LogOf) (isCtl : Bool) (v : Word) : State :=
  if isCtl then
    let log2 := clampN 10 24 (fld v 4 0)
    let s1 := if fld v 5 5 = 1 then s.setReg (l.addr 3) 0 else s
    if log2 = s.rf (l.addr 1) 4 0 then s1 else (s1.wf (l.addr 1) 4 0 log2).setReg (l.addr 2) 0
  else (s.setReg (l.addr 0) (BitVec.ofNat 64 (fld v 47 16 * 2 ^ 16))).setReg (l.addr 2) 0

/-- A write of EVLOG_PTR.READ: one later than WRITE is taken as WRITE; in a cycle with an overwrite the later value stands (R395). -/
def State.writeEvread (s : State) (l : LogOf) (read : Nat) : State :=
  let write := s.rf (l.addr 2) 31 0
  let new := if laterMod 32 read write then write else read
  if s.countedIn (l.addr 2) 32 ≠ 0 ∧ laterMod 32 (s.rf (l.addr 2) 63 32) new then s else s.wf (l.addr 2) 63 32 new

/-! ## Context registers -/

/-- A write of CTX_STEP, CTX_RNG_STEP or CTX_DATA_CURSOR (R258). -/
def State.writeTraining (s : State) (c off : Nat) (w : Word) : State :=
  if (s.ctx c).running.isSome then s.cw c Off.CTX_VERDICT 59 59 1 else (s.setReg (ctxA c off) w).cw c Off.CTX_VERDICT 59 59 0

/-- The other training registers of a context, by window offset (R258). -/
def isTraining (off : Nat) : Bool := decide ((0x600 ≤ off ∧ off < 0x700) ∨ (0x1000 ≤ off ∧ off < 0x2000))

/-- A training register is about to be written: while a launch runs, the value in force stays so until the next T₀ (R258). -/
def State.keepTaken (s : State) (c off : Nat) : State :=
  if isTraining off then
    s.modCtx c fun x => { x with
      taken := if x.running.isSome then (if (Table.get? x.taken off).isSome then x.taken else Table.set x.taken off (s.reg (ctxA c off)))
        else Table.erase x.taken off }
  else s

/-- A write of CTX_QFLUSH with GO = 1 (R186). -/
def State.writeFlush (s : State) (c link : Nat) : State :=
  if (s.ctx c).running.isSome then s.cw c Off.CTX_QFLUSH_STS 43 43 1 else (s.cw c Off.CTX_QFLUSH_STS 43 43 0).flushQueue c link

/-- What a counter of `n` bits outside the registers holds after a clear: what the present cycle has added to it (R197). -/
def State.leftIn (s : State) (key lo n : Nat) : BitVec n := BitVec.ofNat n (satPlus n 0 (s.countedIn key lo))

/-- A write of CTX_PIPE_CLR (R197). -/
def State.clearPipe (s : State) (c : Nat) (v : Word) : State :=
  let l := s.cf c Off.CTX_QSEL 9 0
  let s1 := if fld v 0 0 = 1 then s.modQueue c l fun q =>
      { q with popped := s.leftIn (qcountKey c l) 0 32, parityFails := s.leftIn (qcountKey c l) 32 32 } else s
  if fld v 1 1 = 1 then
    let sel := s.reg (ctxA c Off.CTX_CHSEL)
    let ep := fld sel 20 17
    let k := chanKey c (fld sel 16 0) ep (fld sel 21 21 = 1)
    s1.modTile c (fld sel 16 0) fun x =>
      if fld sel 21 21 = 1 then
        { x with rx := Table.put RxEp.init x.rx ep { Table.getD RxEp.init x.rx ep with
            msgs := s.leftIn k 0 32, nacks := s.leftIn k 32 16, reason := 0 } }
      else
        { x with tx := Table.put TxEp.init x.tx ep { Table.getD TxEp.init x.tx ep with
            msgs := s.leftIn k 0 32, nacks := s.leftIn k 32 16, reason := 0, outcome := 0, stall := s.leftIn k 53 32 } }
  else s1

/-- Registers cleared when the bit written is 1. -/
def State.clearIf (s : State) (v : Word) (l : List (Nat × Nat)) : State :=
  forAll l (fun e t => if fld v e.1 e.1 = 1 then t.clearReg e.2 else t) s

/-- The counters that a clear register of a context window clears: bit, offset (R68, R130, R152, R169, R231, R257, R286, R369). -/
def clearsOf (off : Nat) : List (Nat × Nat) :=
  if off = Off.CTX_SCHED_CLR then
    [(0, Off.CTX_CONTRACT_MISS), (1, Off.CTX_SLIP_MAX), (1, Off.CTX_SLIP_CYCLES), (2, Off.CTX_ACCEPT_WAIT), (3, Off.CTX_SUSP_LATE)]
  else if off = Off.CTX_ARITH_CLR then [(0, Off.CTX_MX_SAT), (1, Off.CTX_ROWGATE), (2, Off.CTX_POISON_OPS)]
  else if off = Off.CTX_SFU_CLR then [(0, Off.CTX_MASKED_ROWS), (1, Off.CTX_SFU_NAN)]
  else if off = Off.CTX_SLOT_CLR then [(0, Off.CTX_SLOT_OVERFLOW), (1, Off.CTX_SLOT_EMPTY)]
  else if off = Off.CTX_MEM_CLR then [(0, Off.CTX_MEM_POISON)]
  else if off = Off.CTX_TRAIN_CLR then [(0, Off.CTX_SKIP_COUNT)]
  else if off = Off.CTX_COLL_CLR then [(0, Off.CTX_COLL_STS), (1, Off.CTX_COLL_CHUNKS), (2, Off.CTX_STALE_EPOCH)]
  else if off = Off.CTX_RES_CLR then [(0, Off.CTX_MIR_WAIT), (1, Off.CTX_CKPT_COUNT)]
  else []

/-- A write of a clear register of a context window; CTX_SCHED_CLR.SUSP also clears the counts of CTX_PROMISE and keeps its state. -/
def State.clearCtx (s : State) (c off : Nat) (v : Word) : State :=
  let s1 := s.clearIf v ((clearsOf off).map fun e => (e.1, ctxA c e.2))
  if off = Off.CTX_SCHED_CLR ∧ fld v 3 3 = 1 then
    (s1.clearField (ctxA c Off.CTX_PROMISE) 15 8).clearField (ctxA c Off.CTX_PROMISE) 31 16
  else s1

/-! ## Pages -/

/-- A strand mask retired on an edge leaves 7 strands usable (R321). -/
def State.writeRetire (s : State) (die dir mask : Nat) : State :=
  let a := btnReg die dir Off.BTN_RETIRE
  let s1 := s.wf a 7 0 mask
  if (neighbour die dir).isNone ∨ s1.strands die dir < 7 then s.wf a 8 8 1 else s1.wf a 8 8 0

/-- A port restarts: it is neither up nor failed, until PORT_UP. -/
def State.restartPort (s : State) (p : Nat) : State := (s.portDown p).wf (portReg p Off.EAV_PSTS) 1 1 0

/-- A write of EAV_PCTL (R34, R287, R312): a write of MODE restarts the port and clears FAILED; the lanes of MODE are powered and the others idle.
`low` says that the write covers MODE. -/
def State.writePctl (s : State) (p : Nat) (low : Bool) (v : Word) : State :=
  let a := portReg p Off.EAV_PCTL
  let s1 := (((s.settlePort p).wf a 17 0 (fld v 17 0)).wf a 41 32 (fld v 41 32)).modPort p fun x => { x with lanes := List.range (modeLanes (fld v 1 0)) }
  if low then s1.restartPort p else s1

/-- A write of EAV_WRR of a port (R285). -/
def State.writeWrr (s : State) (a : Nat) (v : Word) : State :=
  if 256 < ((List.range 6).map fun i => fld v (8 * i + 7) (8 * i)).sum then s.wf a 48 48 1
  else (s.wf a 47 0 (fld v 47 0)).wf a 48 48 0

/-- A write of EAV_CLR of an Eave die (R314). -/
def State.clearEav (s : State) (e : Nat) (v : Word) : State :=
  let ports : List Nat := (List.range 8).flatMap fun i =>
    [Off.EAV_TXCNT, Off.EAV_REPLAY, Off.EAV_RXERR, Off.EAV_FECCNT].map fun off => portReg (8 * e + i) off
  let d := eaveDie e
  s.clearIf v (ports.map (fun a => (0, a)) ++
    [(1, bar0 d 0 Off.EAV_DROP), (2, bar0 d 0 Off.EAV_RELAY), (3, bar0 d 0 Off.EAV_REROUTE)])

/-- A write of DMR_CTL.POWER (R338): from 0 to 1 the site powers on with an empty bucket, from 1 to 0 it powers off. -/
def State.sitePower (s : State) (site : Nat) (on : Bool) : State :=
  if on then
    if s.siteOn site then s
    else ((s.wf (dmrReg site Off.DMR_CTL) 0 0 1).wf (dmrReg site Off.DMR_STS) 0 0 0).modSite site fun x => { x with bucket := 0, bucketAt := s.now }
  else if s.siteOn site then s.siteOff site else s.wf (dmrReg site Off.DMR_CTL) 0 0 0

/-- A physical tile belongs to a context with a running launch (R368). -/
def State.tileRuns (s : State) (r p : Nat) : Bool :=
  match s.tileOwner r p with
  | none => false
  | some (c, _) => (s.ctx c).running.isSome

/-- A write of RFT_RETIRE with GO = 1 (R368): a tile that is not enabled is not one to retire, and is refused too. -/
def State.retireTile (s : State) (r tile : Nat) : State :=
  let a := bar0 (rafterDie r) 0 Off.RFT_RETIRE
  let f := s.rafter r
  match (List.range 2304).find? f.freeSpare with
  | none => s.wf a 13 13 1
  | some sp =>
    if s.tileRuns r tile ∨ !f.enabled tile ∨ f.retired.any fun x => x.tile = tile then s.wf a 13 13 1
    else (s.wf a 13 13 0).modRafter r fun f => { f with retired := f.retired ++ [⟨tile, sp, true⟩] }

/-- A write of RFT_AGE_CMD.EPOCH: ignored while an epoch is measured (R366). -/
def State.startEpoch (s : State) (r : Nat) : State :=
  let a := bar0 (rafterDie r) 0 Off.RFT_AGE_STS
  if s.rf a 1 0 = 1 then s else (s.wf a 1 0 1).newPeriod (.epoch r)

/-- GO of a Ligger engine: in DORMANT a command that the engine could take ends at once with FAILED (R224, R410). -/
def State.writeGo (s : State) (t n : Nat) (portB : Bool) : State :=
  if s.pstate = 3 ∧ s.ligState t n ≠ 1 ∧ s.ligState t n ≠ 4 then (s.setReg (ligReg t n Off.THC_LIG_STS) 0).setLig t n 3 else s.ligGo t n portB

/-! ## Storing fields -/

/-- The stored word after a write of `v`: RW, RWL and WOS fields take it, W1C and W1S fields clear or set, the others stay (R9). -/
def storeWord (r : RegDef) (cur v : Word) : Word :=
  forAll r.fields (fun f w =>
    match f.acc with
    | .rw | .rwl | .wos => ins w f.hi f.lo (fld v f.hi f.lo)
    | .w1c => ins w f.hi f.lo (fld (cur &&& ~~~v) f.hi f.lo)
    | .w1s => ins w f.hi f.lo (fld (cur ||| v) f.hi f.lo)
    | .ro | .wo => w) cur

/-- The W1S bits of a register. -/
def w1sBits (r : RegDef) : Word :=
  forAll r.fields (fun f w => if f.acc = .w1s then ins w f.hi f.lo (2 ^ (f.hi + 1 - f.lo) - 1) else w) 0

/-- The W1C and W1S bits of a register. -/
def statusBits (r : RegDef) : Word :=
  forAll r.fields (fun f w => if f.acc = .w1c ∨ f.acc = .w1s then ins w f.hi f.lo (2 ^ (f.hi + 1 - f.lo) - 1) else w) 0

/-- The stored word after a write: a status bit that has been set in the present cycle stays set (R12). -/
def State.stored (s : State) (a : Nat) (r : RegDef) (v : Word) : Word := storeWord r (s.reg a) v ||| (s.raisedIn a &&& statusBits r)

/-- A write that only stores; a W1S bit that it sets outlasts a hardware clear of the same cycle (R12). -/
def State.plainWrite (s : State) (a : Nat) (r : RegDef) (v : Word) : State :=
  let s1 := s.setReg a (s.stored a r v)
  if w1sBits r &&& v = 0 then s1 else s1.noteRaised a (w1sBits r &&& v)

/-- The interrupt sources of a page that stand while a condition lasts, whatever is cleared: MEM_HOT of a THC page while its stack reads 95 °C or
more (R207). -/
def State.standing (s : State) (die block : Nat) : Word :=
  if block = 0 ∧ dieKind die = .thatch ∧ 95 ≤ Table.getD 0 s.memTemp (thatchIdx die) then 8 else 0

/-- A write of a register of the common header (R430, R434). -/
def State.writeHdr (s : State) (k : PageKind) (a : Nat) (r : RegDef) (v : Word) : State :=
  let off := offOf a
  let die := a / 2 ^ 18
  let block := a / 2 ^ 12 % 64
  if off = Off.PG_CTL then
    if fld v 0 0 = 1 then (s.clearReg (a - off + Off.PG_ERR)).clearReg (a - off + Off.PG_ERR_LOCK) else s
  else if k = .ctx ∧ (off = Off.PG_IRQ_RAW ∨ off = Off.PG_IRQ_EN ∨ off = Off.PG_LOCK) then s
  else if off = Off.PG_IRQ_RAW then s.setPgIrq die block ((s.reg a &&& ~~~v) ||| s.raisedIn a ||| s.standing die block) (s.reg (bar0 die block Off.PG_IRQ_EN))
  else if off = Off.PG_IRQ_EN then s.setPgIrq die block (s.reg (bar0 die block Off.PG_IRQ_RAW)) v
  else s.plainWrite a r v

/-- The port through which a source's accesses and data go. -/
def State.srcPort (s : State) (src : HostSrc) : Bool :=
  match src with
  | .pf b => b
  | .vf b _ => b
  | .mgmt => s.roleB

/-- A write of a ring register at context-window offset `off` (0x100 to 0x168) of a ring. -/
def State.writeRing (s : State) (r : RingOf) (off : Nat) (portB low : Bool) (v : Word) : State :=
  if off = Off.CTX_CMD_BASE then s.writeCmdRing r false v
  else if off = Off.CTX_CMD_CTL then s.writeCmdRing r true v
  else if off = Off.CTX_DOORBELL then (if low then s.ringDoorbell r (fld v 15 0) else s)
  else if off = Off.CTX_CPL_BASE then s.writeCplBase r portB v
  else if off = Off.CTX_CPL_CTL then s.writeCplCtl r v
  else if off = Off.CTX_RES_ACK then (if low then s.ackRecord r (BitVec.ofNat 32 (fld v 31 0)) else s)
  else s

/-- A write of an event-log register, `k` its place (0 BASE, 1 CTL, 2 PTR). -/
def State.writeLog (s : State) (l : LogOf) (k : Nat) (v : Word) : State :=
  match k with
  | 0 => s.writeEvlog l false v
  | 1 => s.writeEvlog l true v
  | 2 => s.writeEvread l (fld v 63 32)
  | _ => s

/-- A write of a register of the RDG page. -/
def State.writeRdg (s : State) (src : HostSrc) (low : Bool) (a : Nat) (r : RegDef) (v : Word) : State :=
  let off := offOf a
  if off = Off.RDG_CLK then s.writeClk v
  else if off = Off.RDG_PSTATE then (if low then s.writePstate (fld v 1 0) else s)
  else if off = Off.RDG_SAG then s.writeSag v
  else if off = Off.RDG_THERM then s.writeTherm v
  else if off = Off.RDG_PKG_RESET then (if low then s.pkgReset (fld v 15 0) (fld v 16 16 = 1) else s)
  else if off = Off.RDG_ASSET then { s.plainWrite a r v with assetWritten := true }
  else if off = Off.RDG_PTP then s.writePtp v
  else if off = Off.RDG_BAND then s.writeBand (fld v 31 0)
  else if off = Off.RDG_NODE then s.writeNode (fld v 19 0)
  else if off = Off.RDG_XLATE_INV then s.writeXlate v
  else if off = Off.RDG_CTX_RESET then (if fld v 10 10 = 1 then s.ctxReset (fld v 9 0) else s)
  else if off = Off.RDG_ACCT_CLR then (if fld v 10 10 = 1 then s.clearAcct (fld v 9 0) else s)
  else if 0x700 ≤ off ∧ off ≤ 0x768 then s.writeRing (.pf (a / 2 ^ 18 = 63)) (off - 0x600) (s.srcPort src) low v
  else if 0x800 ≤ off ∧ off ≤ 0x818 then s.writeLog .pf ((off - 0x800) / 8) v
  else s.plainWrite a r v

/-- A write of a register of the RFT page. -/
def State.writeRft (s : State) (a : Nat) (r : RegDef) (v : Word) : State :=
  let off := offOf a
  let i := rafterIdx (a / 2 ^ 18)
  if off = Off.RFT_AGE_CMD then (if fld v 0 0 = 1 then s.startEpoch i else s)
  else if off = Off.RFT_RETIRE then (if fld v 12 12 = 1 then s.retireTile i (fld v 11 0) else s)
  else s.plainWrite a r v

/-- A write of a register of the THC page; bits [5:0] of an engine's base and length stay 0. -/
def State.writeThc (s : State) (src : HostSrc) (a : Nat) (r : RegDef) (v : Word) : State :=
  let off := offOf a
  let d := a / 2 ^ 18
  let t := thatchIdx d
  let n := (off - 0x200) / 0x40
  if off = Off.THC_MEM_CLR then
    s.clearIf v [(0, bar0 d 0 Off.THC_ECC_CE), (0, bar0 d 0 Off.THC_ECC_UE), (1, bar0 d 0 Off.THC_WINDOW_ERR)]
  else if off < 0x200 then s.plainWrite a r v
  else
    match (off - 0x200) % 0x40 with
    | 0x0 | 0x8 => s.plainWrite a r (v &&& ~~~0x3F)
    | 0x20 =>
      let s1 := s.plainWrite a r v
      if fld v 63 63 = 1 then s1.writeGo t n (s.srcPort src) else s1
    | 0x38 =>
      let s1 := if fld v 0 0 = 1 then s.ligResume t n else s
      if fld v 1 1 = 1 then s1.ligAbort t n else s1
    | _ => s.plainWrite a r v

/-- A write of a register of the EAV page. -/
def State.writeEav (s : State) (low : Bool) (a : Nat) (r : RegDef) (v : Word) : State :=
  let off := offOf a
  let e := eaveIdx (a / 2 ^ 18)
  if off = Off.EAV_CLR then s.clearEav e v
  else if 0x180 ≤ off ∧ off < 0x1C0 then s.writeWrr a v
  else if 0x400 ≤ off ∧ (off - 0x400) % 0x40 = 0 then s.writePctl (8 * e + (off - 0x400) / 0x40) low v
  else s.plainWrite a r v

/-- A write of a register of the BTN page. -/
def State.writeBtn (s : State) (a : Nat) (r : RegDef) (v : Word) : State :=
  let off := offOf a
  if (off - 0x80) % 0x20 = 8 then s.writeRetire (a / 2 ^ 18) ((off - 0x80) / 0x20) (fld v 7 0) else s.plainWrite a r v

/-- A write of a register of the DMR page: of DMR_CTL, RATE is stored and POWER acts. -/
def State.writeDmr (s : State) (a : Nat) (r : RegDef) (v : Word) : State :=
  let site := if a / 2 ^ 18 = 7 then 0 else 1
  if offOf a = Off.DMR_CTL then ((s.settleSite site).wf a 8 1 (fld v 8 1)).sitePower site (fld v 0 0 = 1) else s.plainWrite a r v

/-- A write of a register of a context window. -/
def State.writeCtx (s : State) (src : HostSrc) (low : Bool) (a : Nat) (r : RegDef) (v : Word) : State :=
  let off := offOf a
  let c := (a - 2 ^ 24) / 2 ^ 16
  let w := s.stored a r v
  if 0x100 ≤ off ∧ off ≤ 0x168 then s.writeRing (.ctx c) off (s.srcPort src) low v
  else if off = Off.CTX_IRQ_RAW then s.setCtxIrq c w (s.reg (ctxA c Off.CTX_IRQ_EN))
  else if off = Off.CTX_IRQ_EN then s.setCtxIrq c (s.reg (ctxA c Off.CTX_IRQ_RAW)) w
  else if off = Off.CTX_QFLUSH then (if fld v 10 10 = 1 then s.writeFlush c (fld v 9 0) else s)
  else if off = Off.CTX_PIPE_CLR then s.clearPipe c v
  else if clearsOf off ≠ [] then s.clearCtx c off v
  else if off = Off.CTX_STEP ∨ off = Off.CTX_RNG_STEP ∨ off = Off.CTX_DATA_CURSOR then s.writeTraining c off w
  else if off = Off.CTX_MIR_OUT then (s.setReg a w).modCtx c fun x => { x with mirrorFull := true }
  else if off = Off.CTX_SNAP_ADDR then
    let n := w &&& ~~~0xFF
    let s1 := s.setReg a n
    if n ≠ 0 ∧ n ≠ s.reg a then s1.modCtx c fun x => { x with snapFresh := true } else s1
  else if off = Off.CTX_CKPT_CTL then s.setReg a (if s.privileged c then w else ins w 5 3 (fld (s.reg a) 5 3))
  else if 0xB00 ≤ off ∧ off ≤ 0xB18 then s.writeLog (.ctx c) ((off - 0xB00) / 8) v
  else (s.keepTaken c off).setReg a w

/-- What a write that reaches its register does; `low` says that the low half was written. -/
def State.writeReg (s : State) (src : HostSrc) (low : Bool) (a : Nat) (v : Word) : State :=
  match pageOf a, regAt a with
  | some k, some r =>
    if offOf a < 0x80 then s.writeHdr k a r v
    else
      match k with
      | .rdg => s.writeRdg src low a r v
      | .rft => s.writeRft a r v
      | .thc => s.writeThc src a r v
      | .eav => s.writeEav low a r v
      | .btn => s.writeBtn a r v
      | .dmr => s.writeDmr a r v
      | .ctx => s.writeCtx src low a r v
      | .prl | .seq | .guest => s.plainWrite a r v
  | _, _ => s

/-! ## Functions of a host port (R370) -/

/-- TotalVFs of the SR-IOV capability of a port. -/
def totalVfs : Nat := 1024

/-- The routing ID of virtual function `n` beside that of its physical function: First VF Offset and VF Stride are an implementation's. -/
def vfRoutingId (pf n : Nat) : Nat := (pf + (Config.firstVfOffset).toNat + n * (Config.vfStride).toNat) % 2 ^ 16

/-- The MSI-X vectors of a function: 64 of the physical function, 16 of a virtual one. -/
def msixVectors (vf : Option Nat) : Nat :=
  match vf with
  | none => 64
  | some _ => 16

/-- The bytes of a BAR of a function, 0 for one that it does not have (table *Host BARs*). -/
def barSize (vf : Option Nat) (bar : Nat) : Nat :=
  match vf, bar with
  | none, 0 => 2 ^ 24
  | none, 2 => 2 ^ 26
  | some _, 2 => 2 ^ 16
  | some _, 4 => 2 ^ 32
  | _, _ => 0

/-! ## The path of a host write (R371, R419, R420, R426 to R431, R436) -/

/-- Accesses of a source reach the pages: its port works; a virtual function only its own context's window, while bound there. -/
def State.srcOk (s : State) (src : HostSrc) (a : Nat) : Bool :=
  match src with
  | .pf b => s.portUsable b
  | .vf b n => s.portUsable b && decide ((s.ctx n).boundB = b) && inWindow n a && decide (n < 1024)
  | .mgmt => s.i3cUp s.roleB

/-- A Ridge in recovery serves its own RDG page and nothing else (R420). -/
def State.recoveryOk (s : State) (src : HostSrc) (a : Nat) : Bool :=
  let d := ridgeOf (s.srcPort src)
  decide (s.rf (bar0 d 0 Off.RDG_BOOT) 0 0 = 1) || decide (a / 2 ^ 12 = d * 64)

/-- The base address of a page or window. -/
def pageBase (a : Nat) : Nat := a - offOf a

/-- The RDG page that counts accesses to blocks without a page (R426, R428). -/
def State.mgrPage (s : State) : Nat := bar0 s.mgr 0 0

/-- The SRC code of a refused rewrite (PG_ERR_LOCK). -/
def srcCode (src : HostSrc) : Nat :=
  match src with
  | .pf b => b2n b
  | .vf b _ => b2n b
  | .mgmt => 2

/-- The word that an access of part of a register acts as: the other half holds the current value of its RW, RWL and WOS fields and 0
elsewhere (R428). -/
def mergeWord (r : RegDef) (cur v : Word) (size : AccSize) : Word :=
  let keep : Word := forAll r.fields (fun f w =>
    match f.acc with
    | .rw | .rwl | .wos => ins w f.hi f.lo (fld cur f.hi f.lo)
    | .ro | .w1c | .w1s | .wo => w) 0
  match size with
  | .low => ins keep 31 0 (fld v 31 0)
  | .high => ins keep 63 32 (fld v 31 0)
  | .eight | .bad => v

/-- A write of a size covers a field (R428). -/
def covers (size : AccSize) (f : FieldDef) : Bool :=
  match size with
  | .low => f.lo < 32
  | .high => 32 ≤ f.hi
  | .eight | .bad => true

/-- A covered field is locked: RWL on a locked page, or WOS after its write (R431). -/
def State.lockedField (s : State) (a : Nat) (size : AccSize) (f : FieldDef) : Bool :=
  covers size f &&
  (match f.acc with
    | .rwl => decide (s.rf (pageBase a + Off.PG_LOCK) 0 0 = 1)
    | .wos => s.assetWritten
    | .rw | .ro | .w1c | .w1s | .wo => false)

/-- A write would change a locked field. -/
def State.violates (s : State) (a : Nat) (r : RegDef) (size : AccSize) (v : Word) : Bool :=
  r.fields.any fun f => s.lockedField a size f && decide (fld (s.reg a) f.hi f.lo ≠ fld v f.hi f.lo)

/-- A refused rewrite (R431). -/
def State.lockViolation (s : State) (src : HostSrc) (a : Nat) : State :=
  let e := pageBase a + Off.PG_ERR_LOCK
  let s0 := (s.wf (pageBase a + Off.PG_STS) 1 1 1).noteRaised (pageBase a + Off.PG_STS) 2
  let s1 := (((s0.sat e 15 0 1).wf e 27 16 (offOf a)).wf e 29 28 (srcCode src))
  s1.raisePg (a / 2 ^ 18) (a / 2 ^ 12 % 64) 63

/-- A write that reaches a ready page. -/
def State.pageWrite (s : State) (src : HostSrc) (a : Nat) (size : AccSize) (value : Word) : State :=
  match regAt a with
  | none => s.sat (pageBase a + Off.PG_ERR) 15 0 1
  | some r =>
    let v := mergeWord r (s.view a (s.srcPort src)) value size
    if s.violates a r size v then s.lockViolation src a else s.writeReg src (size ≠ .high) a v

/-- A write of a virtual function counts its payload (R397). -/
def State.countVf (s : State) (src : HostSrc) (size : AccSize) : State :=
  match src, size with
  | .vf _ n, .eight => s.cWrap n Off.CTX_BYTES_PCIE 63 0 8
  | .vf _ n, .low => s.cWrap n Off.CTX_BYTES_PCIE 63 0 4
  | .vf _ n, .high => s.cWrap n Off.CTX_BYTES_PCIE 63 0 4
  | _, _ => s

/-- A host write to the register at address `a` takes effect: through its port, to a block that holds a page, by a size that R428 accepts,
to a page that is not fenced and is ready. The blocks that a guest die defines take no part in the device's state. -/
def State.hostWriteNow (s : State) (src : HostSrc) (a : Nat) (size : AccSize) (value : Word) : State :=
  if !s.srcOk src a ∨ !s.recoveryOk src a then s
  else
    let s1 := s.countVf src size
    match pageOf a with
    | none => if a < 2 ^ 24 then s1.sat (s.mgrPage + Off.PG_ERR) (if size = .bad then 31 else 15) (if size = .bad then 16 else 0) 1 else s1
    | some .guest => s1
    | some _ =>
      if s.pageFenced a then s1
      else if size = .bad then s1.sat (pageBase a + Off.PG_ERR) 31 16 1
      else if !s.pageReady a (s.srcPort src) then s1.sat (pageBase a + Off.PG_ERR) 47 32 1
      else s1.pageWrite src a size value

/-- A host write to the register at address `a`: it takes effect in the present cycle, or at the beginning of the next where a sequencer has
issued in this one (R444). -/
def State.hostWrite (s : State) (src : HostSrc) (a : Nat) (size : AccSize) (value : Word) : State :=
  if s.cycle.issued then s.post (.registerWrite src a size value) else s.hostWriteNow src a size value

/-- What a host read of a size returns: one instant's value, or the half of it that a 4-byte read covers; 0 through a virtual function on a
port that its context is not bound to, of a block without a page, and for a size that R428 does not accept (R13, R371, R426 to R428). -/
def State.readValue (s : State) (src : HostSrc) (a : Nat) (size : AccSize) : Word :=
  if !s.srcOk src a ∨ !s.recoveryOk src a then 0
  else
    let w := s.pageRead a (s.srcPort src)
    match size with
    | .eight => w
    | .low => BitVec.ofNat 64 (fld w 31 0)
    | .high => BitVec.ofNat 64 (fld w 63 32)
    | .bad => 0

/-- What a host read counts: the payload of a virtual function, an offset or block without a register, a size not accepted (R397, R426,
R428). -/
def State.countRead (s : State) (src : HostSrc) (a : Nat) (size : AccSize) : State :=
  if !s.srcOk src a ∨ !s.recoveryOk src a then s
  else
    let s1 := s.countVf src size
    match pageOf a with
    | none => if a < 2 ^ 24 then s1.sat (s.mgrPage + Off.PG_ERR) (if size = .bad then 31 else 15) (if size = .bad then 16 else 0) 1 else s1
    | some .guest => s1
    | some _ =>
      if s.pageFenced a then s1
      else if size = .bad then s1.sat (pageBase a + Off.PG_ERR) 31 16 1
      else if s.pageReady a (s.srcPort src) ∧ regAt a = none then s1.sat (pageBase a + Off.PG_ERR) 15 0 1
      else s1

/-- An 8-byte host write. -/
def State.write8 (s : State) (src : HostSrc) (a : Nat) (value : Word) : State := s.hostWrite src a .eight value

/-- A value with one field. -/
def field (lo v : Nat) : Word := BitVec.ofNat 64 (v * 2 ^ lo)

/-! ## The rows that are writes -/

/-- REGISTER_WRITE (R9, R424 to R433). -/
def execRegisterWrite (src : HostSrc) (addr : Nat) (size : AccSize) (value : Word) (s : State) : Out :=
  .next (s.hostWrite src addr (if addr % 8 = 0 then size else .bad) value)

/-- THERM_CLEAR (R31). -/
def execThermClear (src : HostSrc) (s : State) : Out := .next (s.write8 src Off.RDG_THERM (field 1 1))

/-- CLK_DIV_WRITE (R406). -/
def execClkDivWrite (src : HostSrc) (div : Nat) (s : State) : Out := .next (s.write8 src Off.RDG_CLK (field 0 (div % 4)))

/-- CLK_RESTORE (R407). -/
def execClkRestore (src : HostSrc) (s : State) : Out :=
  .next (s.write8 src Off.RDG_CLK (field 5 1 ||| field 0 (s.rf Off.RDG_CLK 1 0)))

/-- SAG_R_PREFETCH (R413). -/
def execSagRPrefetch (src : HostSrc) (s : State) : Out := .next (s.write8 src Off.RDG_SAG (field 7 1))

/-- SAG_R_RESUME (R414). -/
def execSagRResume (src : HostSrc) (s : State) : Out := .next (s.write8 src Off.RDG_SAG (field 8 1))

/-- SAG_CLR_MAX (R412). -/
def execSagClrMax (src : HostSrc) (s : State) : Out := .next (s.write8 src Off.RDG_SAG (field 6 1))

/-- PSTATE_ACTIVE (R409). -/
def execPstateActive (src : HostSrc) (s : State) : Out := .next (s.write8 src Off.RDG_PSTATE 0)

/-- PSTATE_HOLD (R409). -/
def execPstateHold (src : HostSrc) (s : State) : Out := .next (s.write8 src Off.RDG_PSTATE 1)

/-- PSTATE_NAP (R409). -/
def execPstateNap (src : HostSrc) (s : State) : Out := .next (s.write8 src Off.RDG_PSTATE 2)

/-- PSTATE_DORMANT (R409, R410). -/
def execPstateDormant (src : HostSrc) (s : State) : Out := .next (s.write8 src Off.RDG_PSTATE 3)

/-- PKG_RESET_WRITE (R417). -/
def execPkgResetWrite (src : HostSrc) (code : Nat) (go : Bool) (s : State) : Out :=
  .next (s.write8 src Off.RDG_PKG_RESET (field 0 (code % 2 ^ 16) ||| field 16 (b2n go)))

/-- QUEUE_FLUSH (R186, R187). -/
def execQueueFlush (src : HostSrc) (c link : Nat) (s : State) : Out :=
  .next (s.write8 src (ctxA c Off.CTX_QFLUSH) (field 0 (link % 1024) ||| field 10 1))

/-- PTP_SELECT (R289). -/
def execPtpSelect (src : HostSrc) (value : Word) (s : State) : Out := .next (s.write8 src Off.RDG_PTP value)

/-- EAV_PCTL_WRITE (R287, R312). -/
def execEavPctlWrite (src : HostSrc) (port : Nat) (value : Word) (s : State) : Out :=
  .next (s.write8 src (portReg (port % 64) Off.EAV_PCTL) value)

/-- EAV_WRR_WRITE (R285). -/
def execEavWrrWrite (src : HostSrc) (port : Nat) (value : Word) (s : State) : Out :=
  .next (s.write8 src (bar0 (portDie (port % 64)) 0 (Off.EAV_WRR + 8 * (port % 8))) value)

/-- NODE_WRITE (R313). -/
def execNodeWrite (src : HostSrc) (node : Nat) (s : State) : Out := .next (s.write8 src Off.RDG_NODE (field 0 node))

/-- STRAND_RETIRE (R321). -/
def execStrandRetire (src : HostSrc) (die dir mask : Nat) (s : State) : Out :=
  .next (s.write8 src (btnReg (die % 64) (dir % 4) Off.BTN_RETIRE) (field 0 (mask % 256)))

/-- SITE_POWER_ON (R338): DMR_CTL written with POWER = 1 and RATE as it stands. -/
def execSitePowerOn (src : HostSrc) (site : Nat) (s : State) : Out :=
  .next (s.write8 src (dmrReg (site % 2) Off.DMR_CTL) (field 0 1 ||| field 1 (s.guestRate (site % 2))))

/-- BAND_WRITE (R200): the band that RDG_BANDSEL selects. -/
def execBandWrite (src : HostSrc) (kinds : Nat) (s : State) : Out := .next (s.write8 src Off.RDG_BAND (field 0 (kinds % 2 ^ 32)))

/-- LIGGER_RESUME (R227). -/
def execLiggerResume (src : HostSrc) (t eng : Nat) (s : State) : Out :=
  .next (s.write8 src (ligReg (t % 16) (eng % 4) Off.THC_LIG_CTL) (field 0 1))

/-- LIGGER_ABORT (R227). -/
def execLiggerAbort (src : HostSrc) (t eng : Nat) (s : State) : Out :=
  .next (s.write8 src (ligReg (t % 16) (eng % 4) Off.THC_LIG_CTL) (field 1 1))

/-- DOORBELL (R382): the doorbell of a context, or with no context the PF ring of the port's Ridge. -/
def execDoorbell (src : HostSrc) (ring : Option Nat) (tail : Nat) (s : State) : Out :=
  match ring with
  | some c => .next (s.write8 src (ctxA c Off.CTX_DOORBELL) (field 0 (tail % 2 ^ 16)))
  | none => .next (s.write8 src (bar0 (ridgeOf (s.srcPort src)) 0 (Off.CTX_DOORBELL + 0x600)) (field 0 (tail % 2 ^ 16)))

/-- CPL_HEAD_WRITE (R390): CTX_CPL_CTL written with a new HEAD and LOG2 as it stands. -/
def execCplHeadWrite (src : HostSrc) (c head : Nat) (s : State) : Out :=
  .next (s.write8 src (ctxA c Off.CTX_CPL_CTL) (field 0 (s.cf c Off.CTX_CPL_CTL 4 0) ||| field 16 (head % 2 ^ 16)))

/-- CPL_BASE_WRITE (R371). -/
def execCplBaseWrite (src : HostSrc) (c : Nat) (base : Word) (s : State) : Out := .next (s.write8 src (ctxA c Off.CTX_CPL_BASE) base)

/-- RES_ACK (R392). -/
def execResAck (src : HostSrc) (c : Nat) (seq : BitVec 32) (s : State) : Out :=
  .next (s.write8 src (ctxA c Off.CTX_RES_ACK) (field 0 seq.toNat))

/-- CMD_RING_CONFIG_WRITE (R382). -/
def execCmdRingConfigWrite (src : HostSrc) (c : Nat) (isCtl : Bool) (value : Word) (s : State) : Out :=
  .next (s.write8 src (ctxA c (if isCtl then Off.CTX_CMD_CTL else Off.CTX_CMD_BASE)) value)

/-- EVLOG_CONFIG_WRITE (R395). -/
def execEvlogConfigWrite (src : HostSrc) (c : Nat) (isCtl : Bool) (value : Word) (s : State) : Out :=
  .next (s.write8 src (ctxA c (if isCtl then Off.CTX_EVLOG_CTL else Off.CTX_EVLOG_BASE)) value)

/-- EVLOG_READ_WRITE (R395). -/
def execEvlogReadWrite (src : HostSrc) (c : Nat) (read : BitVec 32) (s : State) : Out :=
  .next (s.write8 src (ctxA c Off.CTX_EVLOG_PTR) (field 32 read.toNat))

/-- EVLOG_CLR_LOST (R395): CTX_EVLOG_CTL written with CLR_LOST and LOG2 as it stands. -/
def execEvlogClrLost (src : HostSrc) (c : Nat) (s : State) : Out :=
  .next (s.write8 src (ctxA c Off.CTX_EVLOG_CTL) (field 5 1 ||| field 0 (s.cf c Off.CTX_EVLOG_CTL 4 0)))

/-- The register that TRAINING_REGISTER_WRITE writes: 0 CTX_STEP, 1 CTX_RNG_STEP, 2 CTX_DATA_CURSOR. -/
def trainingOff (which : Nat) : Nat :=
  match which with
  | 0 => Off.CTX_STEP
  | 1 => Off.CTX_RNG_STEP
  | _ => Off.CTX_DATA_CURSOR

/-- TRAINING_REGISTER_WRITE (R258). -/
def execTrainingRegisterWrite (src : HostSrc) (c which : Nat) (value : Word) (s : State) : Out :=
  .next (s.write8 src (ctxA c (trainingOff which)) value)

/-- XLATE_INV (R380). -/
def execXlateInv (src : HostSrc) (c : Nat) (s : State) : Out := .next (s.write8 src Off.RDG_XLATE_INV (field 0 (c % 1024) ||| field 10 1))

/-- CTX_RESET (R402). -/
def execCtxReset (src : HostSrc) (c : Nat) (s : State) : Out := .next (s.write8 src Off.RDG_CTX_RESET (field 0 (c % 1024) ||| field 10 1))

/-- ACCT_CLR (R399). -/
def execAcctClr (src : HostSrc) (c : Nat) (s : State) : Out := .next (s.write8 src Off.RDG_ACCT_CLR (field 0 (c % 1024) ||| field 10 1))

/-- EPOCH (R366). -/
def execEpoch (src : HostSrc) (r : Nat) (s : State) : Out := .next (s.write8 src (bar0 (rafterDie (r % 36)) 0 Off.RFT_AGE_CMD) (field 0 1))

/-- VOFF_WRITE (R367). -/
def execVoffWrite (src : HostSrc) (r steps : Nat) (s : State) : Out :=
  .next (s.write8 src (bar0 (rafterDie (r % 36)) 0 Off.RFT_VOFF) (field 0 (steps % 16)))

/-- TILE_RETIRE (R368). -/
def execTileRetire (src : HostSrc) (r tile : Nat) (s : State) : Out :=
  .next (s.write8 src (bar0 (rafterDie (r % 36)) 0 Off.RFT_RETIRE) (field 0 (tile % 4096) ||| field 12 1))

/-- SCHED_CLR_MISS (R68). -/
def execSchedClrMiss (src : HostSrc) (c : Nat) (s : State) : Out := .next (s.write8 src (ctxA c Off.CTX_SCHED_CLR) (field 0 1))
/-- SCHED_CLR_SLIP (R68). -/
def execSchedClrSlip (src : HostSrc) (c : Nat) (s : State) : Out := .next (s.write8 src (ctxA c Off.CTX_SCHED_CLR) (field 1 1))
/-- SCHED_CLR_WAIT (R68). -/
def execSchedClrWait (src : HostSrc) (c : Nat) (s : State) : Out := .next (s.write8 src (ctxA c Off.CTX_SCHED_CLR) (field 2 1))
/-- SCHED_CLR_SUSP (R68). -/
def execSchedClrSusp (src : HostSrc) (c : Nat) (s : State) : Out := .next (s.write8 src (ctxA c Off.CTX_SCHED_CLR) (field 3 1))
/-- ARITH_CLR_SAT (R130). -/
def execArithClrSat (src : HostSrc) (c : Nat) (s : State) : Out := .next (s.write8 src (ctxA c Off.CTX_ARITH_CLR) (field 0 1))
/-- ARITH_CLR_GATE (R130). -/
def execArithClrGate (src : HostSrc) (c : Nat) (s : State) : Out := .next (s.write8 src (ctxA c Off.CTX_ARITH_CLR) (field 1 1))
/-- ARITH_CLR_POISON (R130). -/
def execArithClrPoison (src : HostSrc) (c : Nat) (s : State) : Out := .next (s.write8 src (ctxA c Off.CTX_ARITH_CLR) (field 2 1))
/-- SFU_CLR_MASKED (R152). -/
def execSfuClrMasked (src : HostSrc) (c : Nat) (s : State) : Out := .next (s.write8 src (ctxA c Off.CTX_SFU_CLR) (field 0 1))
/-- SFU_CLR_NAN (R152). -/
def execSfuClrNan (src : HostSrc) (c : Nat) (s : State) : Out := .next (s.write8 src (ctxA c Off.CTX_SFU_CLR) (field 1 1))
/-- SLOT_CLR_OVERFLOW (R169). -/
def execSlotClrOverflow (src : HostSrc) (c : Nat) (s : State) : Out := .next (s.write8 src (ctxA c Off.CTX_SLOT_CLR) (field 0 1))
/-- SLOT_CLR_EMPTY (R169). -/
def execSlotClrEmpty (src : HostSrc) (c : Nat) (s : State) : Out := .next (s.write8 src (ctxA c Off.CTX_SLOT_CLR) (field 1 1))
/-- PIPE_CLR_QCOUNT (R197). -/
def execPipeClrQcount (src : HostSrc) (c : Nat) (s : State) : Out := .next (s.write8 src (ctxA c Off.CTX_PIPE_CLR) (field 0 1))
/-- PIPE_CLR_CHAN (R197). -/
def execPipeClrChan (src : HostSrc) (c : Nat) (s : State) : Out := .next (s.write8 src (ctxA c Off.CTX_PIPE_CLR) (field 1 1))
/-- MEM_CLR_ECC (R231). -/
def execMemClrEcc (src : HostSrc) (t : Nat) (s : State) : Out := .next (s.write8 src (bar0 (thatchDie (t % 16)) 0 Off.THC_MEM_CLR) (field 0 1))
/-- MEM_CLR_WIN (R231). -/
def execMemClrWin (src : HostSrc) (t : Nat) (s : State) : Out := .next (s.write8 src (bar0 (thatchDie (t % 16)) 0 Off.THC_MEM_CLR) (field 1 1))
/-- CTX_MEM_CLR_POISON (R231). -/
def execCtxMemClrPoison (src : HostSrc) (c : Nat) (s : State) : Out := .next (s.write8 src (ctxA c Off.CTX_MEM_CLR) (field 0 1))
/-- TRAIN_CLR_SKIP (R257). -/
def execTrainClrSkip (src : HostSrc) (c : Nat) (s : State) : Out := .next (s.write8 src (ctxA c Off.CTX_TRAIN_CLR) (field 0 1))
/-- COLL_CLR_STS (R286). -/
def execCollClrSts (src : HostSrc) (c : Nat) (s : State) : Out := .next (s.write8 src (ctxA c Off.CTX_COLL_CLR) (field 0 1))
/-- COLL_CLR_CHUNKS (R286). -/
def execCollClrChunks (src : HostSrc) (c : Nat) (s : State) : Out := .next (s.write8 src (ctxA c Off.CTX_COLL_CLR) (field 1 1))
/-- COLL_CLR_STALE (R286). -/
def execCollClrStale (src : HostSrc) (c : Nat) (s : State) : Out := .next (s.write8 src (ctxA c Off.CTX_COLL_CLR) (field 2 1))
/-- EAV_CLR_PORTS (R314). -/
def execEavClrPorts (src : HostSrc) (e : Nat) (s : State) : Out := .next (s.write8 src (bar0 (eaveDie (e % 8)) 0 Off.EAV_CLR) (field 0 1))
/-- EAV_CLR_DROP (R314). -/
def execEavClrDrop (src : HostSrc) (e : Nat) (s : State) : Out := .next (s.write8 src (bar0 (eaveDie (e % 8)) 0 Off.EAV_CLR) (field 1 1))
/-- EAV_CLR_RELAY (R314). -/
def execEavClrRelay (src : HostSrc) (e : Nat) (s : State) : Out := .next (s.write8 src (bar0 (eaveDie (e % 8)) 0 Off.EAV_CLR) (field 2 1))
/-- EAV_CLR_REROUTE (R314). -/
def execEavClrReroute (src : HostSrc) (e : Nat) (s : State) : Out := .next (s.write8 src (bar0 (eaveDie (e % 8)) 0 Off.EAV_CLR) (field 3 1))
/-- RES_CLR_MIRWAIT (R369). -/
def execResClrMirwait (src : HostSrc) (c : Nat) (s : State) : Out := .next (s.write8 src (ctxA c Off.CTX_RES_CLR) (field 0 1))
/-- RES_CLR_CKPT (R369). -/
def execResClrCkpt (src : HostSrc) (c : Nat) (s : State) : Out := .next (s.write8 src (ctxA c Off.CTX_RES_CLR) (field 1 1))
/-- CLR_ERR (R433): PG_CTL.CLR_ERR of the page that holds an address. -/
def execClrErr (src : HostSrc) (addr : Nat) (s : State) : Out := .next (s.write8 src (pageBase addr + Off.PG_CTL) (field 0 1))

end Sys2Proof.Machine
end

