-- ==== Sys2Proof/Machine/Power.lean ====
section
/-! DEFINITION. Supply-sag shedding (R26, R412 to R415), thermal trip (R416), the divider change (R406, R407), power states (R408 to
R411), temperatures (R438), energy meters (R398), margin epochs, supply offset and tile retirement (R365 to R368). -/

namespace Sys2Proof.Machine

/-! ## Supply samples and levels (R26, R412) -/

/-- The threshold below which a level is entered, in 10 mV; level 6 is OFF (table *Sag levels*). -/
def sagEnter (level : Nat) : Nat := 4600 - 200 * level

/-- The threshold at or above which the flag leaves a level. -/
def sagLeave (level : Nat) : Nat := 4700 - 200 * level

/-- Consecutive samples counted up to 9. -/
def runLength (hit : Bool) (n : Nat) : Nat := if hit then min 9 (n + 1) else 0

/-- SUPPLY_SAMPLE (R26, R412): `tabs` are the voltages of the eight tabs in 10 mV; the lowest counts. -/
def execSupplySample (tabs : List Nat) (s : State) : Out :=
  match tabs.min? with
  | none => .next s
  | some v =>
    if !s.pwrgd ∨ !s.periodOver .supply then .next s
    else
      let r := min v 8191
      let s1 := (s.wf Off.RDG_SAG 44 32 r).wf Off.RDG_SAG 28 16 (min r (s.rf Off.RDG_SAG 28 16))
      .next (forAll (List.range 6) (fun i t =>
        let l := i + 1
        { t with
          below := Table.put 0 t.below l (runLength (v < sagEnter l) (Table.getD 0 t.below l))
          above := Table.put 0 t.above l (runLength (sagLeave l ≤ v) (Table.getD 0 t.above l)) }) (s1.newPeriod .supply))

/-- The level flag takes a value (R412). -/
def State.setLevel (s : State) (level : Nat) : State :=
  ((s.wf Off.RDG_SAG 2 0 level).maxF Off.RDG_SAG 5 3 level).raiseRdg 10

/-- A running Ligger engine pauses (R227). -/
def State.pauseEngine (s : State) (t n : Nat) : State := if s.ligState t n = 1 then s.setLig t n 4 else s

/-- The action of a sag level (table *Sag levels*). -/
def State.sagAction (s : State) (level : Nat) : State :=
  let s1 := { s with entered := insertNat level s.entered }
  match level with
  | 2 => { ((s1.siteOff 0).siteOff 1).allEngines (fun t n u => u.pauseEngine t n) with bufLimited := true }
  | 3 => s1.forceDiv
  | 4 => { s1 with halted := true, haltSince := if s.halted then s.haltSince else some s.now, keepAlive := true }
  | 5 => s1.shutDown
  | _ => s1

/-- A level is entered: the actions of lower levels that are not in force, then its own (R412). -/
def State.enterLevel (s : State) (level : Nat) : State :=
  let low := (List.range level).filter fun j => 0 < j && j ∉ s.entered
  (forAll low (fun j t => t.sagAction j) s).sagAction level

/-- A power-state command that was taken in the cycle of a sag-level entry is ignored and sets BAD (R409). -/
def State.undoPstate (s : State) : State :=
  if s.countedIn Off.RDG_PSTATE 0 = 1 ∧ s.psTarget.isSome then
    { (s.wf Off.RDG_PSTATE 5 5 1).wf Off.RDG_PSTATE 4 2 s.pstate with psTarget := none }
  else s

/-- SAG_LEVEL_ENTER (R412, R415): after 9 samples below the threshold of a level above the flag; level 6 turns the package off. -/
def execSagLevelEnter (level : Nat) (s : State) : Out :=
  if s.pwrgd ∧ 0 < level ∧ level ≤ 6 ∧ s.rf Off.RDG_SAG 2 0 < level ∧ Table.getD 0 s.below level = 9 then
    if level = 6 then .next s.off
    else if s.cycle.issued then .next (s.post (.sagLevelEnter level))
    else .next (((s.undoPstate.enterLevel level).setLevel level).noteCount Off.RDG_SAG 0 1)
  else .next s

/-- The flag after the leave condition of `level` has held: the highest level below it whose own has not. -/
def State.flagBelow (s : State) (level : Nat) : Nat :=
  ((List.range level).filter fun j => 0 < j && Table.getD 0 s.above j < 9).foldl max 0

/-- SAG_LEVEL_LEAVE (R412, R413): only the flag falls. -/
def execSagLevelLeave (level : Nat) (s : State) : Out :=
  if 0 < level ∧ s.rf Off.RDG_SAG 2 0 = level ∧ Table.getD 0 s.above level = 9 then .next (s.setLevel (s.flagBelow level)) else .next s

/-- A transfer of the package is accepted and has not arrived. -/
def State.anyInFlight (s : State) : Bool := s.ctxs.any fun e => e.2.xfers.any fun x => x.2.inFlight

/-- SELF_REFRESH_ENTER (R414): after the last accepted transfer has arrived. -/
def execSelfRefreshEnter (s : State) : Out := if s.halted ∧ !s.anyInFlight then .next { s with selfRefresh := true } else .next s

/-! ## Thermal trip (R416) and temperatures (R438) -/

/-- THERMAL_TRIP (R416): a junction at 110 °C or above. -/
def execThermalTrip (die temp : Nat) (s : State) : Out :=
  if s.pwrgd ∧ die < 64 ∧ 110 ≤ temp ∧ s.rf Off.RDG_THERM 0 0 = 0 then
    let s1 := { s.wf Off.RDG_THERM 0 0 1 with thermtrip := true, entered := insertNat 3 s.entered }
    .next (s1.forceDiv.raiseRdg 11)
  else .next s

/-- THERMAL_CRIT (R416): a die that reads 120 °C or above has not read less for 10 ms; the sag flag stays. -/
def execThermalCrit (die : Nat) (s : State) : Out :=
  if s.pwrgd ∧ die < 64 ∧ s.alive die ∧ s.rf Off.RDG_THERM 2 2 = 0 ∧ 120 ≤ s.rf (bar0 die 1 Off.PRL_TEMP) 7 0
      ∧ s.periodOver (.hot die) then .next ((s.wf Off.RDG_THERM 2 2 1).enterLevel 5)
  else .next s

/-- TEMPERATURE_SAMPLE (R438): TJ, and TJ_MAX when it is exceeded. -/
def execTemperatureSample (die temp : Nat) (s : State) : Out :=
  if die < 64 ∧ dieKind die ≠ .dormer ∧ s.alive die ∧ s.periodOver (.temperature die) then
    let a := bar0 die 1 Off.PRL_TEMP
    let s1 := ((s.wf a 7 0 (min temp 255)).maxF a 15 8 (min temp 255)).newPeriod (.temperature die)
    .next (if temp < 120 then s1.newPeriod (.hot die) else s1)
  else .next s

/-! ## The divider (R406, R407) -/

/-- What token buckets hold is settled before the divider changes: they fill by the nanosecond (R275, R335). -/
def State.settleBuckets (s : State) : State :=
  forAll s.ports (fun e t => t.settlePort e.1) (iter (fun i t => t.settleSite i) 2 s)

/-- DIVIDER_CHANGE (R406, R407, R444): the pending change takes effect; a restore clears FORCED. -/
def execDividerChange (s : State) : Out :=
  match s.divPend with
  | none => .next s
  | some p =>
    if s.cycle.issued then .next (s.post .dividerChange)
    else
    let s1 := (s.settleBuckets.wf Off.RDG_CLK 3 2 p.div).setReg Off.RDG_CLK_AT s.tb
    let s2 := if p.restore then s1.wf Off.RDG_CLK 4 4 0 else s1
    .next ({ s2 with divPend := none }.refreshAll)

/-! ## Power states (R409 to R411) -/

/-- Plan sets discarded in DORMANT (R410): the tiles keep nothing of them. -/
def Ctx.unplanned (x : Ctx) : Ctx :=
  { x with
    plan := none
    tiles := (Table.mapVals (fun _ t => { t with planAddr := 0, length := 0, descs := [], frames := [], ptrSeg := 0 }) x.tiles).filter
      fun (e : Nat × Tile) => decide (e.2 ≠ Tile.init) }

/-- The package enters DORMANT: plans discarded, slices written back, memory in self-refresh, ports in keep-alive, Rafter dies off. -/
def State.enterDormant (s : State) : State :=
  let s1 := s.flushCache
  { s1.mapCtxs Ctx.unplanned with
    scratch := []
    scratchPoison := []
    selfRefresh := true
    keepAlive := true }

/-- The launches at the head of a queue whose ready cycle passed in another power state complete with START_PASSED (R410). -/
def State.passLaunches (s : State) (c : Nat) : List Launch → State
  | [] => s
  | l :: rest => if l.missed ∨ l.t0 < s.now + 4000 then (s.refuseLaunch c l 3).passLaunches c rest else s

/-- The package returns to ACTIVE. -/
def State.enterActive (s : State) : State :=
  let s1 := forAll s.ctxs (fun e t => t.passLaunches e.1 e.2.queue) s
  if s1.halted then s1
  else
    forAll (List.range 64) (fun p t => if (t.port p).ingress = [] ∧ (t.port p).rxbuf = [] then t else t.drainPort p)
      { s1 with selfRefresh := false, keepAlive := false }

/-- PSTATE_DONE (R409): the commanded state is reached. -/
def execPstateDone (s : State) : Out :=
  match s.psTarget with
  | none => .next s
  | some t =>
    let s1 := { s.wf Off.RDG_PSTATE 4 2 t with pstate := t, psTarget := none }
    let s2 := if t = 3 then s1.enterDormant else if t = 0 then s1.enterActive else s1
    .next (s2.raiseRdg 12)

/-! ## Energy meters (R398) -/

/-- The tile-cycles of the interval by context: those of a Rafter die on it, for every other die those of the package. -/
def State.shares (s : State) (d : Nat) : List (Nat × Nat) :=
  let l := s.tileCycles.filter fun e => dieKind d ≠ .rafter || e.1 % 64 = d
  (s.ctxs.map fun e => (e.1, ((l.filter fun x => x.1 / 64 = e.1).map (·.2)).sum)).filter fun e => 0 < e.2

/-- The energy of one die divided: whole µJ to each context, what is left to the next interval; all of it to RDG_ENERGY_IDLE where no
tile-cycles carry it. -/
def State.divideEnergy (s : State) (d uj : Nat) : State :=
  let e := uj + Table.getD 0 s.energyRem d
  let l := s.shares d
  let total := (l.map (·.2)).sum
  let s1 := s.wrap (bar0 d 1 Off.PRL_ENERGY) 63 0 uj
  if total = 0 then { s1.wrap Off.RDG_ENERGY_IDLE 63 0 e with energyRem := Table.erase s1.energyRem d }
  else
    let given := l.map fun x => (x.1, e * x.2 / total)
    let s2 := forAll given (fun x t => t.cWrap x.1 Off.CTX_ENERGY_UJ 63 0 x.2) s1
    { s2 with energyRem := Table.put 0 s2.energyRem d (e - (given.map (·.2)).sum) }

/-- ENERGY_INTERVAL (R398): each die's meter closes an interval. -/
def execEnergyInterval (readings : List MeterReading) (s : State) : Out :=
  if !s.periodOver .energy then .next s
  else
    let s1 := forAll s.ctxs (fun e t => if (t.ctx e.1).running.any (fun r => r.started && r.chargedFrom ≤ t.now) then t.chargeAll e.1 t.now else t) s
    let s2 := forAll (readings.filter fun m => m.die < 64) (fun m t => t.divideEnergy m.die m.uj) s1
    .next ({ s2 with tileCycles := [] }.newPeriod .energy)

/-! ## Ageing (R365 to R368) -/

/-- A signed number as a 16-bit field. -/
def toField16 (z : Int) : Nat := (z % 2 ^ 16).toNat

/-- A 16-bit field as a signed number. -/
def ofField16 (n : Nat) : Int := if n < 2 ^ 15 then n else (n : Int) - 2 ^ 16

/-- MARGIN_SAMPLE (R365): `slack` are the monitors' reports in ps; the least and the lowest monitor that has it. -/
def execMarginSample (r : Nat) (slack : List Int) (s : State) : Out :=
  let d := rafterDie r
  match (slack.take 96).min? with
  | none => .next s
  | some m =>
    if 36 ≤ r ∨ !s.alive d ∨ !s.periodOver (.margin r) then .next s
    else
      let a := bar0 d 0 Off.RFT_MARGIN
      let s1 := ((s.wf a 15 0 (toField16 m)).wf a 22 16 (slack.idxOf m)).newPeriod (.margin r)
      .next (if m < ofField16 (s.rf (bar0 d 0 Off.RFT_AGE_CFG) 31 16) then (s1.raisePg d 0 0).triggerCkpts 2 d else s1)

/-- The path-delay monitor whose block of 6 columns and 4 rows a physical tile lies in (R365). -/
def monitorOf (p : Nat) : Nat := p / 48 / 4 * 8 + p % 48 / 6

/-- The slack in fs predicted at an offset of `n` steps of 5 mV, from a slack in ps measured at an offset of `cur` steps (R366; log 102). -/
def predicted (slack slope : Int) (cur n : Nat) : Int := slack * 1000 + slope * 5 * ((n : Int) - cur)

/-- PVOFF: the least offset at which every monitor is predicted to have the target; 12 where none is enough (R366; log 102). -/
def proposedOffset (monitors : List MonitorReading) (cur : Nat) (target : Int) : Nat :=
  ((List.range 13).find? fun n => monitors.all fun m => target * 1000 ≤ predicted m.slack m.slope cur n).getD 12

/-- The enabled tiles that miss the target at +60 mV by the slope of their monitor, in rising physical ID (R366). -/
def proposedTiles (f : Rafter) (monitors : List MonitorReading) (tiles : List (Nat × Int)) (cur : Nat) (target : Int) : List Nat :=
  ((tiles.filter fun x => f.enabled x.1 && (monitors[monitorOf x.1]?).any fun m => decide (predicted x.2 m.slope cur 12 < target * 1000)).map
    (·.1)).foldl (fun l p => insertNat p l) []

/-- MARGIN_EPOCH_END (R366): 64 ms after its start, from what the epoch has measured of the monitors and of the enabled tiles, the proposal, PRETIRE and SHORT, and the
PROPOSAL source. -/
def execMarginEpochEnd (r : Nat) (monitors : List MonitorReading) (tiles : List (Nat × Int)) (s : State) : Out :=
  let d := rafterDie r
  let a := bar0 d 0 Off.RFT_AGE_STS
  if 36 ≤ r ∨ !s.alive d ∨ s.rf a 1 0 ≠ 1 ∨ !s.periodOver (.epoch r) then .next s
  else
    let cur := s.rf (bar0 d 0 Off.RFT_VOFF) 7 4
    let target := ofField16 (s.rf (bar0 d 0 Off.RFT_AGE_CFG) 15 0)
    let l := proposedTiles (s.rafter r) monitors tiles cur target
    let s1 := ((((s.wf a 1 0 2).wf a 5 2 (proposedOffset monitors cur target)).wf a 12 6 (min l.length 64)).wf a 13 13
      (b2n (decide (s.rf (bar0 d 0 Off.RFT_RETIRE) 20 14 < l.length)))).sat a 31 16 1
    .next ((s1.modRafter r fun f => { f with proposals := l.take 64 }).raisePg d 0 1)

/-- VOFF_MOVE (R367): one 5 mV step toward STEPS, of which values above 12 act as 12. -/
def execVoffMove (r : Nat) (s : State) : Out :=
  let a := bar0 (rafterDie r) 0 Off.RFT_VOFF
  let want := min 12 (s.rf a 3 0)
  let cur := s.rf a 7 4
  if 36 ≤ r ∨ !s.alive (rafterDie r) ∨ cur = want ∨ !s.periodOver (.voff r) then .next s
  else .next ((s.wf a 7 4 (if cur < want then cur + 1 else cur - 1)).newPeriod (.voff r))

/-- The scratchpad of a physical tile copied to another with its poison (R368). -/
def State.copyPad (s : State) (d src dst : Nat) : State :=
  let a := padKey d src 0
  let b := padKey d dst 0
  let keep := s.scratch.filter fun e => e.1 < b || b + 2 ^ 18 ≤ e.1
  let moved := (s.scratch.filter fun e => a ≤ e.1 && e.1 < a + 2 ^ 18).map fun e => (e.1 - a + b, e.2)
  let keepP := s.scratchPoison.filter fun l => l < b / 64 || (b + 2 ^ 18) / 64 ≤ l
  let movedP := (s.scratchPoison.filter fun l => a / 64 ≤ l && l < (a + 2 ^ 18) / 64).map fun l => l - a / 64 + b / 64
  { s with scratch := moved.foldl (fun m e => Table.put 0 m e.1 e.2) keep, scratchPoison := movedP.foldl (fun m l => insertNat l m) keepP }

/-- TILE_RETIRE_DONE (R368): the copy has ended; the logical ID moves to the spare. -/
def execTileRetireDone (r : Nat) (s : State) : Out :=
  match (s.rafter r).retired.find? (·.copying) with
  | none => .next s
  | some x =>
    let d := rafterDie r
    let s1 := s.copyPad d x.tile x.spare
    let a := bar0 d 0 Off.RFT_RETIRE
    .next ((s1.modRafter r fun f =>
      { f with retired := f.retired.map fun y => if y.tile = x.tile then { y with copying := false } else y }).wf a 20 14 (s.rf a 20 14 - 1))

end Sys2Proof.Machine
end

