-- ==== Sys2Proof/Machine/Boot.lean ====
section
/-! DEFINITION. Bring-up (R419 to R422), discovery and the die table (R323, R324, R447), firmware (R32, R403), host links, the management bus
and the test access port (R31, R32). -/

namespace Sys2Proof.Machine

/-! ## Edges and discovery (R323, R324) -/

/-- EDGE_TRAINED (R323): both ends of an edge have trained. -/
def execEdgeTrained (die dir : Nat) (s : State) : Out :=
  match neighbour die dir with
  | none => .next s
  | some n =>
    let a := btnReg die dir Off.BTN_EDGE_STS
    let b := btnReg n (opposite dir) Off.BTN_EDGE_STS
    if die < 64 ∧ s.alive die ∧ s.alive n ∧ s.rf a 1 0 = 0 then .next ((s.wf a 1 0 1).wf b 1 0 1) else .next s

/-- Coordinates learnt by a die (R323, R447): PRL_COORD and READY of its PRL page. -/
def State.learn (s : State) (d x y : Nat) : State :=
  let a := bar0 d 1 Off.PRL_COORD
  (((s.wf a 2 0 x).wf a 5 3 y).wf a 11 6 (y * 8 + x)).modDie d fun k => { k with coord := some (x, y), prlReady := true, reported := true }

/-- The coordinates that the wave carries on from a die: the managing Ridge starts it with its own position, any other die forwards what it has
learnt (R323). -/
def State.waveFrom (s : State) (n : Nat) : Option (Nat × Nat) :=
  if n = s.mgr then some (n % 8, n / 8) else if (s.die n).waveFrom.isSome then (s.die n).coord else none

/-- Coordinates one hop on in a direction, in their 3-bit fields: x rises going right and falls going left, y rises going down and falls going up
(R323). -/
def hopCoord (p : Nat × Nat) (dir : Nat) : Nat × Nat :=
  match dir with
  | 0 => (p.1, (p.2 + 7) % 8)
  | 1 => ((p.1 + 1) % 8, p.2)
  | 2 => (p.1, (p.2 + 1) % 8)
  | _ => ((p.1 + 7) % 8, p.2)

/-- The wave that reaches a die on its edge `dir`: the edge is UP, the die beyond has the wave and forwards it on this edge, not being the one it
came from. -/
def State.waveOn (s : State) (die dir : Nat) : Option (Nat × Nat) :=
  (neighbour die dir).bind fun n =>
    if s.edgeUp die dir ∧ dieKind n ≠ .dormer ∧ (n = s.mgr ∨ (s.die n).waveFrom ≠ some (opposite dir)) then
      (s.waveFrom n).map fun p => hopCoord p (opposite dir)
    else none

/-- DISCOVERY_WAVE (R323, R324): the wave reaches a die on its edge `dir`; it takes its coordinates from the first wave, and later ones with others
are a conflict. `kind` is its fused kind, which it reports. -/
def execDiscoveryWave (die dir kind : Nat) (s : State) : Out :=
  match s.waveOn die dir with
  | none => .next s
  | some p =>
    let s1 := s.modDie die fun k =>
      { k with wrongKind := k.wrongKind || decide (kind ≠ dieKindCode die), waveFrom := some (k.waveFrom.getD dir) }
    match (s.die die).coord with
    | none => .next (s1.learn die p.1 p.2)
    | some q => .next (s1.modDie die fun k => { k with conflict := k.conflict || decide (q ≠ p), reported := true })

/-- The cause for which the die table marks a die LOST (CAUSE of RDG_DIE_STS): 1 not reported, 2 two coordinates, 3 wrong kind. A Dormer
position holds a customer's die behind Flashing, which does not report. -/
def State.tableCause (s : State) (d : Nat) : Option Nat :=
  let k := s.die d
  if d = s.mgr ∨ dieKind d = .dormer ∨ k.fenced then none
  else if !k.reported then some 1
  else if k.conflict then some 2
  else if k.wrongKind then some 3
  else none

/-- DIE_TABLE_BUILD (R324): the managing Ridge, which starts the wave at its own position, fences the dies that it marks LOST. -/
def execDieTableBuild (s : State) : Out :=
  if !s.alive s.mgr ∨ s.shutdown then .next s
  else if s.cycle.issued then .next (s.post .dieTableBuild)
  else
    let m := s.mgr
    let s1 := if (s.die m).coord.isNone then s.learn m (m % 8) (m / 8) else s
    .next (forAll (List.range 64) (fun d t =>
      match t.tableCause d with
      | none => t
      | some k => t.fenceDie d k) s1)

/-! ## Readiness of dies (R419 to R422) -/

/-- The flash of a Ridge. -/
def State.flash (s : State) (ridgeB : Bool) : Flash := if ridgeB then s.flashB else s.flashA

/-- RIDGE_BOOT_DONE (R420): the primary image, else the secondary, else recovery. -/
def execRidgeBootDone (ridgeB : Bool) (s : State) : Out :=
  let d := ridgeOf ridgeB
  let f := s.flash ridgeB
  let a := bar0 d 0 Off.RDG_BOOT
  if !s.alive d ∨ (s.die d).ready then .next s
  else
    .next (((s.wf a 0 0 (b2n (f.primary || f.secondary))).wf a 1 1 (b2n (!f.primary && f.secondary))).modDie d fun k => { k with ready := true })

/-- The managing Ridge has released the other dies from reset: it runs signed firmware (R420). -/
def State.released (s : State) : Bool := s.ridgeReady s.roleB && decide (s.rf (bar0 s.mgr 0 Off.RDG_BOOT) 0 0 = 1)

/-- A die may become ready. -/
def State.mayReady (s : State) (d : Nat) : Bool := s.released && s.alive d && !(s.die d).ready

/-- The state with a die ready. -/
def State.setReady (s : State) (d : Nat) : State := s.modDie d fun k => { k with ready := true }

/-- THATCH_READY (R228): the stack is trained, and after a cold reset zero-filled. -/
def execThatchReady (t : Nat) (s : State) : Out :=
  if t < 16 ∧ s.mayReady (thatchDie t) then .next (s.setReady (thatchDie t)) else .next s

/-- One bit of the CRC-32 of IEEE 802.3, least significant bit first. -/
def crc32Bit (c : Nat) : Nat := if c % 2 = 1 then Nat.xor (c / 2) 0xEDB88320 else c / 2

/-- CRC-32 of IEEE 802.3 over bytes. -/
def crc32 (bs : List Byte) : Nat :=
  Nat.xor 0xFFFFFFFF (bs.foldl (fun c b => iter (fun _ x => crc32Bit x) 8 (Nat.xor c b.toNat)) 0xFFFFFFFF)

/-- The EAV_PCTL and EAV_LANE_INV images of port `p` in a port configuration. -/
def portImages (b : List Byte) (p : Nat) : Word × Word :=
  let w (o : Nat) : Word := BitVec.ofNat 64 (leNat ((b.drop o).take 8))
  (w (16 + 16 * p), w (24 + 16 * p))

/-- No bit outside the fields of either image is set. -/
def imageOk (i : Word × Word) : Bool := fld i.1 31 18 = 0 && fld i.1 63 42 = 0 && fld i.2 63 16 = 0

/-- A port configuration component is valid (R422). -/
def portCfgOk (signed : Bool) (b : List Byte) : Bool :=
  signed && decide (b.length = 1040) && decide (leNat (b.take 4) = 0x55565043) && decide (leNat ((b.drop 4).take 2) = 1)
    && decide (leNat ((b.drop 6).take 6) = 0) && decide (leNat ((b.drop 12).take 4) = crc32 (b.drop 16))
    && (List.range 64).all fun p => imageOk (portImages b p)

/-- The Ridge writes both registers of each port of an Eave die from its port configuration (R422). -/
def State.portConfig (s : State) (e : Nat) : State :=
  match (s.flash s.roleB).portCfg with
  | none => s.wf Off.RDG_BOOT 2 2 0
  | some (signed, b) =>
    if portCfgOk signed b then
      (forAll (List.range 8) (fun i t =>
        let p := 8 * e + i
        let w := portImages b p
        (t.setReg (portReg p Off.EAV_LANE_INV) w.2).writePctl p true w.1) s).wf Off.RDG_BOOT 2 2 1
    else s.wf Off.RDG_BOOT 2 2 0

/-- EAVE_READY (R422). -/
def execEaveReady (e : Nat) (s : State) : Out :=
  if e < 8 ∧ s.mayReady (eaveDie e) then .next ((s.setReady (eaveDie e)).portConfig e) else .next s

/-- Failed tiles replaced one by one, each by the lowest-numbered good spare that is free (R421). -/
def Rafter.replaceFailed (f : Rafter) : List Nat → Rafter
  | [] => f
  | p :: r =>
    match f.spares.find? f.freeSpare with
    | none => f
    | some sp => Rafter.replaceFailed { f with retired := f.retired ++ [⟨p, sp, false⟩] } r

/-- The self-test of a Rafter die: spares as fused, failed tiles replaced (R21, R421). -/
def selfTest (spares failed : List Nat) : Rafter :=
  let f : Rafter := ⟨spares, failed, [], []⟩
  f.replaceFailed (failed.filter fun p => p ∉ spares)

/-- A sorted list of physical tile IDs. -/
def tileIds (l : List Nat) : List Nat := (l.filter (· < 2304)).foldl (fun x p => insertNat p x) []

/-- RFT_BOOT after self-test or the ageing check: REPLACED, SHORT, COURSE_BAD. -/
def State.writeRftBoot (s : State) (r : Nat) : State :=
  let f := s.rafter r
  let done (p : Nat) : Bool := f.retired.any fun t => t.tile = p
  let lost := f.failed.filter fun p => p ∉ f.spares && !done p
  let replaced := (f.failed.filter done).length
  let bad := (List.range 32).filter fun k => (List.range 70).any fun j => decide (nthEnabled f.spares (70 * k + j) ∈ lost)
  s.setReg (bar0 (rafterDie r) 0 Off.RFT_BOOT) (packW ([(min replaced 64, 0), (b2n (lost ≠ []), 7)] ++ bad.map fun k => (1, 8 + k)))

/-- RAFTER_READY (R21, R421): `spares` are the 64 spares the die presents, which are the same at every bring-up, `failed` the tiles that
self-test found failed. After a package warm reset there is no self-test: replacements and retirements stand. -/
def execRafterReady (r : Nat) (spares failed : List Nat) (s : State) : Out :=
  let d := rafterDie r
  let sp := (Table.get? s.fusedSpares r).getD (tileIds spares)
  if !(r < 36 ∧ s.mayReady d) then .next s
  else if (s.rafter r).spares = [] then
    if sp.length ≠ 64 then .next s
    else
      let f := selfTest sp (tileIds failed)
      let s1 := { s.modRafter r fun _ => f with fusedSpares := Table.set s.fusedSpares r sp }
      let left := (sp.filter f.freeSpare).length
      .next (((s1.wf (bar0 d 0 Off.RFT_RETIRE) 20 14 left).writeRftBoot r).setReady d)
  else .next ((s.writeRftBoot r).setReady d)

/-- PORT_UP (R287): training of a port ends; a link whose active port it still is, having failed as a whole before it could move, goes on there with
what it holds (R312). -/
def execPortUp (port : Nat) (s : State) : Out :=
  let a := portReg port Off.EAV_PSTS
  if port < 64 ∧ s.alive (portDie port) ∧ (s.die (portDie port)).ready ∧ s.rf (portReg port Off.EAV_PCTL) 1 0 ≠ 0 ∧ s.rf a 1 0 = 0 then
    let mine := s.linkKeys.filter fun k => s.activePort k = some port && !(s.link k).down
    .next (forAll mine (fun k t =>
      let u := t.modLink k fun l => { l with since := t.now }
      if (u.link k).moving ∧ !u.sideFailed k (u.link k).onSecondary then u.replayAll k else u) (s.wf a 0 0 1))
  else .next s

/-! ## Firmware (R32, R403, R420, R422) -/

/-- Firmware activation starts (R403). -/
def State.activate (s : State) : State := if s.rf Off.RDG_FWACT 0 0 = 1 then s else (s.wf Off.RDG_FWACT 0 0 1).refreshAll

/-- FIRMWARE_ACTIVATION (R32, R403): by PLDM ActivateFirmware on the managing Ridge, whose target answers. -/
def execFirmwareActivation (s : State) : Out := if s.released ∧ s.i3cUp s.roleB then .next s.activate else .next s

/-- FIRMWARE_ACTIVATION_END (R403, R417): FWACT_DONE in every context, PF vector 8, and a warm reset that waited. -/
def execFirmwareActivationEnd (s : State) : Out :=
  if s.rf Off.RDG_FWACT 0 0 = 1 then
    let s1 := (s.wf Off.RDG_FWACT 0 0 0).refreshAll
    let s2 := (forAll (List.range 1024) (fun c t => t.raiseCtx c 6) s1).sendMsix ⟨s.roleB, none, 8⟩
    .next (if s2.rf Off.RDG_PKG_RESET 18 18 = 1 then s2.warmReset else s2)
  else .next s

/-- A flash with one part written. -/
def Flash.put (f : Flash) (p : FlashPart) : Flash :=
  match p with
  | .primary signed => { f with primary := signed }
  | .secondary signed => { f with secondary := signed }
  | .portConfig signed bytes => { f with portCfg := some (signed, bytes) }

/-- PLDM_FIRMWARE_UPDATE (R32, R420, R422): accepted in recovery too. -/
def execPldmFirmwareUpdate (ridgeB : Bool) (part : FlashPart) (s : State) : Out :=
  if !s.i3cUp ridgeB then .next s
  else if ridgeB then .next { s with flashB := s.flashB.put part }
  else .next { s with flashA := s.flashA.put part }

/-! ## Ports and pins (R31, R32) -/

/-- HOST_LINK_UP (R31, R36): PCIe training of a port ends with a width of x16, x8, x4, x2 or x1, its lanes reversed or not and some of them
inverted. -/
def execHostLinkUp (portB : Bool) (width : Nat) (reversed : Bool) (inverted : List Nat) (s : State) : Out :=
  if s.alive (ridgeOf portB) ∧ !s.perst portB ∧ width ∈ [16, 8, 4, 2, 1] then
    .next (s.setHostLink portB (some ⟨width, reversed, inverted.filter (· < 16)⟩))
  else .next s

/-- CONFIGURATION_REQUEST (R31): the answer is kept as (port, Request Retry Status). -/
def execConfigurationRequest (portB : Bool) (s : State) : Out :=
  if s.hostLink portB ∧ s.alive (ridgeOf portB) then .next { s with rrs := s.rrs ++ [(portB, !(s.die (ridgeOf portB)).ready)] } else .next s

/-- TEST_ACCESS_PORT (R31): boundary scan works at all times and changes nothing here; what internal chains do the manual does not say. -/
def execTestAccessPort (op : TapOp) (s : State) : Out :=
  match op with
  | .boundaryScan _ => .next s
  | .unlock authentic => .next { s with tapUnlocked := s.tapUnlocked || authentic }
  | .internalChain => if s.tapUnlocked then .refused .internalTestChain else .next s

/-- DYNAMIC_ADDRESS_ASSIGNMENT (R32). -/
def execDynamicAddressAssignment (ridgeB : Bool) (addr : Nat) (s : State) : Out :=
  if !s.ridgeReady ridgeB then .next s
  else .next (s.setI3c ridgeB (some addr))

end Sys2Proof.Machine
end

