-- ==== Sys2Proof/Machine/PlanCheck.lean ====
section
/-! DEFINITION. What LOAD_PLAN checks (R69 to R72, R75 to R90, R97, R99, R361, R449, R450): the plan set as read from memory, its items
in image order, and the first that fails. -/

namespace Sys2Proof.Machine

/-! ## Entry layouts: classes, flags, reserved bits (R74 to R90) -/

/-- The operation classes (table *Operation classes*). -/
def planClasses : List Nat :=
  [0x00, 0x01, 0x02, 0x03, 0x04, 0x10, 0x11, 0x12, 0x18, 0x20, 0x21, 0x22, 0x23, 0x28, 0x30, 0x31, 0x32, 0x38, 0x39, 0x3A, 0x40, 0x41,
   0x48, 0x49, 0x50, 0x58, 0x60]

/-- A flag of the entry stands on a class that the table *Flags* does not permit, HOLD is clear on a hold class, or a reserved flag is
set (R75). -/
def flagBad (e : EntryBits) : Bool :=
  let k := eClass e
  (eb e 240 != eIsHold e) || (eCompat e && k ∉ [0x21, 0x50]) || (eSr e && k ∉ [0x10, 0x11, 0x12, 0x18, 0x20, 0x28])
    || (ePriv e && k ≠ 0x60) || ef e 247 245 ≠ 0

/-- The operand bits that a class names (R78 and the operand tables). -/
def usedBits (e : EntryBits) : List (Nat × Nat) :=
  match eClass e with
  | 0x01 => [(215, 188), (175, 0)]
  | 0x02 => [(215, 184)]
  | 0x03 => [(215, 185)]
  | 0x10 => [(215, 108), (89, 43)]
  | 0x11 => [(215, 96), (89, 43)]
  | 0x12 => [(215, 208), (185, 108), (89, 43)]
  | 0x18 => [(215, 90), (89, 31)]
  | 0x20 => if ef e 215 212 = 8 then [(215, 140), (119, 45)] else [(215, 45)]
  | 0x21 => [(215, 104)]
  | 0x22 => [(215, 118)]
  | 0x23 => [(215, 81)]
  | 0x28 => [(215, 69)]
  | 0x30 | 0x31 => [(215, 176)]
  | 0x32 => if slotMode e = 0 then [(215, 83)] else if slotMode e = 3 then [(215, 145)] else [(215, 143)]
  | 0x38 => [(215, 133)]
  | 0x39 => [(215, 174)]
  | 0x3A => [(215, 178)]
  | 0x40 => [(215, 206), (203, 122)]
  | 0x41 => [(215, 124)]
  | 0x48 => [(215, 177)]
  | 0x49 => [(215, 160)]
  | 0x50 => [(215, 66)]
  | 0x58 => [(215, 186)]
  | 0x60 => [(215, 184)]
  | _ => []

/-- A reserved operand bit is set (R78, R128). -/
def reservedBad (e : EntryBits) : Bool := ef e 215 0 ≠ ((usedBits e).map fun r => ef e r.1 r.2 * 2 ^ r.2).sum

/-! ## Areas -/

/-- An area of `n` bytes from a line. -/
def area (line n : Nat) : Nat × Nat := (line * 64, n)

/-- No two areas of a list overlap. -/
def disjoint : List (Nat × Nat) → Bool
  | [] => true
  | a :: l => !l.any (areasMeet a) && disjoint l

/-- Scratchpad line numbers run from 0 to 3,071 (R78). -/
def linesOk (l : List Nat) : Bool := l.all (· < 3072)

/-- Format codes 0, 1, 2 and 8. -/
def fmtV (k : Nat) : Bool := k ≤ 2 || k = 8

/-- A diagonal operand of `rows` rows of `k` elements, with `g` scales a row (R106 to R108). -/
def diagSize (rows code k : Nat) : Nat := ceilDiv rows 16 * blockStride code k (k / 32)

/-! ## Matrix entries -/

/-- A permitted input pair (R101). -/
def pairOk (a b : Nat) : Bool :=
  (a ≤ 1 && b ≤ 1) || (a = 2 && b = 2) || (isMx a && isMx b)

/-- The output area's bytes (R111). -/
def matrixOut (m n fo : Nat) : Nat := if fo = 3 then m * (n + n / 32) else m * n * elemBytes fo

/-- The conditions on formats, lines and shape that every matrix class shares (R85, R102). -/
def matrixOk (e : EntryBits) (o : MmaOp) (n k : Nat) : Bool :=
  pairOk o.fa o.fb && (o.fo ≤ 3 || o.fo = 8) && linesOk [o.aLine, o.bLine, o.cLine, o.occLine]
    && (eSr e || o.stream = 0) && (o.occ || o.occLine = 0) && (!o.acc || o.fo = 8)
    && (!isMx o.fa || k % 32 = 0) && (o.fo ≠ 3 || n % 32 = 0)

/-- The output area overlaps none of the areas that the entry reads (R112); ACC reads the output's own places. -/
def outClear (o : MmaOp) (m n : Nat) (ins : List (Nat × Nat)) : Bool := !ins.any (areasMeet (area o.cLine (matrixOut m n o.fo)))

/-- The occupancy mask of a matrix entry (R126). -/
def occArea (o : MmaOp) (m : Nat) : List (Nat × Nat) := if o.occ then [area o.occLine (ceilDiv m 8)] else []

/-- MMA and MMA_COLL operands. -/
def mmaOk (e : EntryBits) : Bool :=
  let o := mmaOp e
  matrixOk e o o.n o.k && outClear o o.m o.n ([area o.aLine (diagSize o.m o.fa o.k), area o.bLine (diagSize o.n o.fb o.k)] ++ occArea o o.m)

/-- MMA_SPARSE operands (R86, R102, R121). -/
def sparseOk (e : EntryBits) : Bool :=
  let o := mmaOp e
  matrixOk e o o.n o.k && o.meta_ < 3072 && o.k % 4 = 0 && (!isMx o.fa || o.k % 64 = 0)
    && outClear o o.m o.n ([area o.aLine (diagSize o.m o.fa (o.k / 2)), area o.bLine (diagSize o.n o.fb o.k),
        area o.meta_ (ceilDiv o.m 16 * lineUp (2 * o.k))] ++ occArea o o.m)

/-- A reserved bit of a convolution descriptor is set (R123). -/
def convReserved (d : Bits512) : Bool :=
  bits (w512 d 0) 63 23 ≠ 0 || [1, 2, 3].any (fun i => bits (w512 d i) 63 61 ≠ 0) || [4, 5, 6, 7].any fun i => w512 d i ≠ 0

/-- What a convolution descriptor alone must satisfy (R123, R124). -/
def convDescOk (d : Bits512) : Bool :=
  let nd := bits (w512 d 0) 1 0
  let (m, n, k) := convMNK d
  1 ≤ nd && [1, 2, 3].all (fun i => i ≤ nd || w512 d i = 0) && m ≤ 512 && n ≤ 512 && k ≤ 4096

/-- The fields of a CONV entry (R123, R124). -/
def convFieldsOk (e : EntryBits) : Bool := (mmaOp e).fa ≤ 2 && !(mmaOp e).occ && matrixOk e (mmaOp e) 32 32

/-- CONV operands and its descriptor (R123, R124). -/
def convOk (e : EntryBits) (d : Bits512) : Bool :=
  let o := mmaOp e
  let (m, n, k) := convMNK d
  let inp := (convDim d 1).inp * (convDim d 2).inp * (convDim d 3).inp * convCin d * elemBytes o.fa
  convDescOk d && matrixOk e o n k && o.aLine * 64 + inp ≤ padSize
    && outClear o m n [area o.aLine inp, area o.bLine (diagSize n o.fb k)]

/-- The operands that MMA_COLL adds (R87, R259, R261, R278), but for its group: of an ALL_GATHER result the extent depends on the group, and only
what it has for any group is checked. -/
def collOk (e : EntryBits) : Bool :=
  let o := mmaOp e
  let k := collOp e
  let out := area o.cLine (matrixOut o.m o.n o.fo)
  let res := area k.resLine (if k.op = 3 then diagSize o.n o.fb o.k else out.2)
  mmaOk e && k.op ≤ 3 && k.redFmt ≤ 2 && o.fo = (if k.redFmt = 1 then 2 else 8) && (k.op ≠ 3 || k.redFmt = 0) && k.resLine < 3072
    && ((k.op = 0 && res = out)
      || !(out :: [area o.aLine (diagSize o.m o.fa o.k), area o.bLine (diagSize o.n o.fb o.k)] ++ occArea o o.m).any (areasMeet res))

/-! ## Vector and special-function entries -/

/-- VEC operands (R127, R128). -/
def vecOk (e : EntryBits) : Bool :=
  let op := ef e 215 212
  let fx := ef e 211 208
  let fy := ef e 207 204
  let fo := ef e 203 200
  let n := 32 * (ef e 151 140 + 1)
  let row := ef e 119 108 + 1
  let ins := [(area (ef e 199 188) (n * elemBytes fx), fx)]
    ++ (if op ≤ 4 then [(area (ef e 187 176) (n * elemBytes fy), fy)] else [])
    ++ (if op = 2 then [(area (ef e 175 164) (n * elemBytes fo), fo)] else [])
  let out := area (ef e 163 152) (if op = 8 then diagSize (n / row) fo row else n * elemBytes fo)
  op ≤ 9 && fmtV fx && fmtV fy && fmtV fo && linesOk [ef e 199 188, ef e 187 176, ef e 175 164, ef e 163 152]
    && (op ≤ 4 || ef e 187 176 = 0) && (op = 2 || ef e 175 164 = 0) && (eSr e || ef e 107 92 = 0)
    && (op ≠ 8 || (fo ≤ 2 && n % (16 * row) = 0))
    && ins.all fun i => !areasMeet out i.1 || (op ≠ 8 && out = i.1 && elemBytes i.2 = elemBytes fo)

/-- SFU operands (R133 to R135, R150). -/
def sfuOk (e : EntryBits) : Bool :=
  let f := ef e 215 211
  let fx := ef e 210 207
  let fo := ef e 206 203
  let n := 16 * (ef e 178 165 + 1)
  let row := ef e 115 104 + 1
  let trig := decide (f = 13 ∨ f = 14)
  let x := area (ef e 202 191) ((if trig then row else n) * elemBytes fx)
  let out := area (ef e 190 179) (n * elemBytes fo)
  f ≤ 14 && fmtV fx && fmtV fo && linesOk [ef e 202 191, ef e 190 179]
    && (if trig then n % row = 0 else ef e 164 117 = 0 && !eb e 116 && row = 1)
    && (!eCompat e || ((f ≤ 8 || f = 10) && [2, 8].contains fx && [2, 8].contains fo))
    && (!areasMeet out x || (!trig && out = x && elemBytes fx = elemBytes fo))

/-- NORM_STAT operands (R144, R147 to R149). -/
def normOk (e : EntryBits) : Bool :=
  let fin := 2 ≤ ef e 215 214
  let fx := ef e 213 210
  let rows := ef e 173 165 + 1
  let len := ef e 164 152 + 1
  let merge := eb e 118
  let state := area (ef e 197 186) (16 * rows)
  fmtV fx && linesOk [ef e 209 198, ef e 197 186, ef e 185 174]
    && (if fin then fx = 0 && ef e 209 198 = 0 && len = 1 && !merge && disjoint [state, area (ef e 185 174) (8 * rows)]
        else ef e 185 174 = 0 && ef e 151 120 = 0 && (!merge || fx = 0)
          && disjoint [state, area (ef e 209 198) (rows * len * (if merge then 16 else elemBytes fx))])

/-- SOFTMAX operands (R138 to R143). -/
def softmaxOk (e : EntryBits) : Bool :=
  let mode := ef e 215 214
  let fx := ef e 213 210
  let fo := ef e 209 206
  let rows := ef e 157 149 + 1
  let len := ef e 148 136 + 1
  let rep := ef e 89 81 + 1
  let fin := decide (mode = 2)
  let areas := [area (ef e 193 182) (8 * rows),
      area (ef e 181 170) (if fin then 4 * rep * rows else rows * len * elemBytes fo)]
    ++ (if fin then [] else [area (ef e 205 194) (rows * len * elemBytes fx)])
    ++ (if mode = 1 then [area (ef e 169 158) (4 * rep * rows)] else [])
    ++ (if eb e 102 then [area (ef e 101 90) (ceilDiv (rows * len) 8)] else [])
  mode ≤ 2 && [2, 8].contains fx && fmtV fo && linesOk [ef e 205 194, ef e 193 182, ef e 181 170, ef e 169 158, ef e 101 90]
    && (!fin || (ef e 205 194 = 0 && len = 1)) && (mode = 1 || ef e 169 158 = 0) && disjoint areas

/-- UPD operands (R239). -/
def updOk (e : EntryBits) : Bool :=
  let alg := ef e 215 213
  let wf := ef e 206 204
  let n := 32 * (ef e 142 135 + 1)
  let m2 := ef e 178 167
  alg ≤ 2 && wf ≤ 2 && linesOk [ef e 202 191, ef e 190 179, m2, ef e 166 155, ef e 154 143] && (alg = 0 || m2 = 0)
    && (eb e 69 || ef e 71 70 = 0)
    && disjoint ([area (ef e 202 191) (4 * n), area (ef e 190 179) (4 * n), area (ef e 166 155) (n * if eb e 203 then 4 else 2),
        area (ef e 154 143) (n * elemBytes wf)] ++ if alg = 0 then [area m2 (4 * n)] else [])

/-- RNG_FILL operands (R254, R255). -/
def rngOk (e : EntryBits) : Bool :=
  let mode := ef e 215 214
  let fx := ef e 213 210
  let fo := ef e 209 206
  let p := ef e 153 122
  mode ≤ 2 && (if mode = 1 then fmtV fx else fx = 0)
    && (if mode = 0 then [2, 8].contains fo else if mode = 1 then fmtV fo else fo = 0)
    && (mode = 1 || ef e 205 194 = 0) && linesOk [ef e 205 194, ef e 193 182] && (p < 0x3F800000 || p = 0x80000000)
    && (eCompat e || !eb e 66)

/-- GNS_STAT operands (R241). -/
def gnsOk (e : EntryBits) : Bool := ef e 215 214 ≤ 2 && fmtV (ef e 213 210) && ef e 209 198 < 3072

/-! ## Stream descriptors and the entries that name them -/

/-- A reserved bit of a stream descriptor is set (R88, R234). -/
def descReserved (d : Bits512) : Bool := bits (w512 d 4) 63 38 ≠ 0 || [5, 6, 7].any fun i => w512 d i ≠ 0

/-- What a stream descriptor alone must satisfy (R88, R215, R218, R234). -/
def descOk (d : Bits512) : Bool :=
  let x := streamDesc d
  let w := atomWidth x.atop
  x.vaddr < 2 ^ 48 && 1 ≤ x.rate && x.elem ≤ 8 && x.atop ≤ 9 && (!x.shadow || x.atop = 0)
    && (x.atop = 0 || (x.vaddr % w = 0 && x.counts.getD 0 1 % w = 0 && x.strides.all fun t => t % (w : Int) = 0))

/-- The diagonal layout of a descriptor: a code from 0 to 7 and, for an MX code, whole scales (R109). -/
def diagDescOk (x : StreamDesc) : Bool := x.elem ≤ 7 && (!isMx x.elem || x.row % 32 = 0)

/-- The fields of STREAM_IN and STREAM_OUT (R78, R87). -/
def streamFieldsOk (e : EntryBits) : Bool := ef e 186 185 ≤ 1 && ef e 198 187 < 3072

/-- STREAM_IN and STREAM_OUT with their descriptor (R87 to R89, R109, R110, R217, R218, R234). -/
def streamOk (e : EntryBits) (d : Bits512) : Bool :=
  let x := streamDesc d
  let line := ef e 198 187
  let diag := decide (ef e 186 185 = 1)
  let out := decide (eClass e = 0x31)
  let rec_ := recordBytes x.elem x.row
  let ext := if diag then diagSize (x.size / rec_) x.elem x.row else if x.atop = 9 then 2 * x.size else x.size
  descOk d && x.size ≤ padSize && line * 64 + x.size ≤ padSize && line * 64 + ext ≤ padSize
    && (!diag || (diagDescOk x && x.size % rec_ = 0)) && (x.atop ≠ 9 || x.size % 64 = 0)
    && (x.atop = 0 || (out && !diag)) && (!x.shadow || out)

/-- The descriptor of a GATHER, SCATTER or CLEAR (R153, R218, R234). -/
def slotDescOk (e : EntryBits) (d : Bits512) : Bool :=
  let x := streamDesc d
  let gs := slotMode e ≠ 3
  descOk d && x.atop = 0 && !x.shadow && x.counts.getD 0 1 % 64 = 0 && (x.counts.drop 1).all (· = 1)
    && (!(gs && eb e 144) || (diagDescOk x && x.counts.getD 0 1 = recordBytes x.elem x.row))
    && (!(gs && eb e 143) || [2, 8].contains x.elem)

/-- The scratchpad areas of a class 0x32 entry (R154); `rowb` is the row size of its descriptor. -/
def slotAreas (e : EntryBits) (d : Bits512) : List (Nat × Nat) :=
  if slotMode e = 0 then
    let t := ef e 204 192 + 1
    let x := ef e 191 184 + 1
    let k := ef e 183 181 + 1
    let c := ef e 180 169 + 1
    [area (ef e 168 157) (t * x * 4), area (ef e 156 145) (x * 4), area (ef e 144 133) (x * c * 8), area (ef e 132 121) (t * k * 8),
      area (ef e 120 109) (x * ceilDiv c 512 * 64)]
  else if slotMode e = 3 then [area (ef e 188 177) ((ef e 204 192 + 1) * (ef e 191 189 + 1) * 8)]
  else
    let n := ef e 196 189 + 1
    let c := ef e 188 177 + 1
    let x := streamDesc d
    [area (ef e 176 165) ((ef e 204 197 + n) * c * 8),
      area (ef e 164 153) (if eb e 144 then n * diagSize c x.elem x.row else n * c * x.counts.getD 0 1)]

/-- Areas lie in the scratchpad and none overlaps another (R154). -/
def areasOk (l : List (Nat × Nat)) : Bool := l.all (fun a => a.1 + a.2 ≤ padSize) && disjoint l

/-- The lines that a class 0x32 entry names. -/
def slotLines (e : EntryBits) : List Nat :=
  if slotMode e = 0 then [ef e 168 157, ef e 156 145, ef e 144 133, ef e 132 121, ef e 120 109]
  else if slotMode e = 3 then [ef e 188 177] else [ef e 176 165, ef e 164 153]

/-- The fields of a class 0x32 entry, and its areas but the rows, whose size its descriptor gives (R153, R154). -/
def slotFieldsOk (e : EntryBits) : Bool :=
  linesOk (slotLines e)
    && (match slotMode e with
        | 0 => areasOk (slotAreas e 0)
        | 1 => ef e 204 197 + ef e 196 189 + 1 ≤ 256 && !eb e 143 && areasOk ((slotAreas e 0).take 1)
        | 2 => ef e 204 197 + ef e 196 189 + 1 ≤ 256 && !eb e 144 && areasOk ((slotAreas e 0).take 1)
        | _ => areasOk (slotAreas e 0))

/-- A GATHER, SCATTER or CLEAR with its descriptor (R153, R154). -/
def slotOk (e : EntryBits) (d : Bits512) : Bool := slotDescOk e d && areasOk (slotAreas e d)

/-- The descriptor index that an entry names, and whether as a convolution descriptor. -/
def descNamed (e : EntryBits) : Option (Nat × Bool) :=
  match eClass e with
  | 0x12 => some (ef e 215 208, true)
  | 0x30 | 0x31 => some (ef e 215 208, false)
  | 0x32 => if slotMode e = 0 then none else some (ef e 152 145, false)
  | _ => none

/-! ## Operands of the other classes -/

/-- HOLD (R79). -/
def holdOk (e : EntryBits) : Bool :=
  let n := ef e 191 188
  let cs : List Nat := (ePairs e).map (·.1)
  n ≤ 8 && (ePairs e).all (fun p => 1 ≤ p.2) && decide cs.Nodup && bits (ef e 175 0) 175 (22 * n) = 0

/-- SEND, RECV and COMBINE (R90, R195, R452). -/
def messageOk (e : EntryBits) : Bool :=
  match eClass e with
  | 0x38 => 1 ≤ ef e 148 133 && ef e 182 171 < 3072 && ef e 182 171 * 64 + ef e 190 183 + 1 ≤ padSize
  | 0x39 => linesOk [ef e 205 194, ef e 185 174] && ef e 205 194 * 64 + ef e 193 186 + 1 ≤ padSize
  | _ => ef e 205 194 < 3072 && (ef e 193 186 + 1) % 4 = 0 && ef e 179 178 ≤ 2 && ef e 205 194 * 64 + ef e 193 186 + 1 ≤ padSize

/-- What the checks of a tile's plan need beside the plan; `convs` are the descriptors that its CONV entries name. -/
structure LoadEnv where
  tiles : Nat
  tile : Nat
  links : Table StageLink
  groups : Table Group
  ctx : Nat
  priv : Bool
  descs : List (Option Bits512)
  convs : List Nat

/-- A group is valid for the context (R266). -/
def LoadEnv.group (v : LoadEnv) (k : Nat) : Option Group := (Table.get? v.groups k).filter fun g => g.ctx = v.ctx

/-- QPUSH and QPOP against the installed stage-link table (R173, R174, R183, R452). -/
def LoadEnv.queueOk (v : LoadEnv) (e : EntryBits) : Bool :=
  match Table.get? v.links (ef e 215 206) with
  | none => false
  | some k =>
    if eClass e = 0x40 then
      k.txEn && ef e 191 180 + 1 ≤ k.maxLen && ef e 203 192 < 3072 && ef e 203 192 + ef e 191 180 + 1 ≤ 3072 && 1 ≤ ef e 140 125
        && (eb e 146 || ef e 145 141 = 0)
    else
      k.rxEn && ef e 184 173 + 1 ≤ k.maxLen && ef e 184 173 + 1 ≤ 3072 && ef e 196 185 + ef e 184 173 + 1 ≤ 3072 && ef e 153 152 ≤ 2
        && linesOk [ef e 196 185, ef e 151 140] && 1 ≤ ef e 139 124

/-- VERDICT (R243, R266). -/
def LoadEnv.verdictOk (v : LoadEnv) (e : EntryBits) : Bool :=
  (v.group (ef e 207 196)).isSome && (eb e 195 || ef e 194 177 = 0)

/-- The checks of an entry against the descriptor it names. A descriptor that any CONV entry of the plan names is examined as a convolution
descriptor also at a stream entry that names it earlier; that the two kinds of entry share it is reported at the later one (R123, R450;
DEDUCED, log 93). -/
def LoadEnv.descOperandOk (v : LoadEnv) (e : EntryBits) (i : Nat) (d : Bits512) : Bool :=
  if eClass e = 0x12 then convOk e d
  else if i ∈ v.convs then convDescOk d
  else if eClass e = 0x32 then slotOk e d
  else streamOk e d

/-- The operands of an entry, but for what its descriptor decides. -/
def LoadEnv.operandOk (v : LoadEnv) (e : EntryBits) : Bool :=
  match eClass e with
  | 0x01 => holdOk e
  | 0x02 => 1 ≤ ef e 192 185
  | 0x03 => 1 ≤ ef e 215 205 && ef e 215 205 ≤ 1536 && 1 ≤ ef e 204 185
  | 0x10 => mmaOk e
  | 0x11 => sparseOk e
  | 0x12 => convFieldsOk e
  | 0x18 => collOk e && (v.group (collOp e).group).any fun g => g.hasTile v.tile
  | 0x20 => vecOk e
  | 0x21 => sfuOk e
  | 0x22 => normOk e
  | 0x23 => softmaxOk e
  | 0x28 => updOk e
  | 0x30 | 0x31 => streamFieldsOk e
  | 0x32 => slotFieldsOk e
  | 0x38 | 0x39 | 0x3A => messageOk e
  | 0x40 | 0x41 => v.queueOk e
  | 0x48 => v.verdictOk e
  | 0x49 => 1 ≤ ef e 183 172 && ef e 183 172 ≤ 1535 && 1 ≤ ef e 171 160 && ef e 171 160 ≤ 1535
  | 0x50 => rngOk e
  | 0x58 => gnsOk e
  | _ => true

/-! ## Structure (R81 to R84, R243) -/

/-- Where the checks of a plan have come to: ends of the open REPEAT bodies, innermost first; the slots that the VERDICTs so far name;
the descriptors named so far, with whether as convolution descriptors. -/
structure Scan where
  stack : List Nat
  slots : Table SlotDef
  named : Table Bool
deriving DecidableEq, Repr

/-- The slot that a VERDICT defines (R243). -/
def slotDefOf (e : EntryBits) : SlotDef := ⟨ef e 207 196, eb e 195, ef e 194 193, ef e 192 177 + 1⟩

/-- The slots that the VERDICTs of a plan name. -/
def slotsUsed (l : List (Option EntryBits)) : List Nat :=
  l.filterMap fun o => o.bind fun e => if eClass e = 0x48 then some (ef e 209 208) else none

/-- An entry of one of some classes stands among entries. -/
def hasClass (ks : List Nat) (l : List (Option EntryBits)) : Bool := l.any fun o => o.any fun e => eClass e ∈ ks

/-- Reason 9 at position `p`: `rest` are the entries after it, `used` the slots of the whole plan, `first` the slots of tile 0 (none on tile
0 itself). -/
def structureBad (e : EntryBits) (p : Nat) (rest : List (Option EntryBits)) (used : List Nat) (first : Option (Table SlotDef)) (x : Scan) : Bool :=
  let here : Bool := match eClass e with
    | 0x03 =>
      let n := ef e 215 205
      rest.length < n || 4 ≤ x.stack.length || x.stack.any (· < p + 1 + n) || hasClass [0x04, 0x49] (rest.take n)
    | 0x49 =>
      let n := ef e 183 172 + ef e 171 160
      1536 < n || rest.length < n || hasClass [0x03, 0x49, 0x48, 0x04] (rest.take n) || (Table.get? x.slots (ef e 209 208)).isNone
    | 0x48 =>
      let k := ef e 209 208
      let d := slotDefOf e
      x.stack ≠ [] || (Table.get? x.slots k).isSome || (d.final && (x.slots.any (·.2.final) || d.gslot ∉ used))
        || first.any fun f => Table.get? f k ≠ some d
    | _ => false
  here || (rest.isEmpty && (eClass e ≠ 0x04 || first.any fun f => f.any fun y => y.1 ∉ used))

/-- Reason 10: the offsets of the two sub-plans of a COMMIT_IF sum to different values (R84). -/
def balanceBad (e : EntryBits) (rest : List (Option EntryBits)) : Bool :=
  eClass e = 0x49 &&
    (let c := ef e 183 172
     let n := ef e 171 160
     let sum (l : List (Option EntryBits)) : Nat := (l.map fun o => (o.map eOffset).getD 0).sum
     let all := rest.take (c + n)
     all.all (·.isSome) && sum (all.take c) ≠ sum (all.drop c))

/-- The scan after an entry that passed. -/
def Scan.next (x : Scan) (e : EntryBits) (p : Nat) : Scan :=
  { stack := (if eClass e = 0x03 then (p + 1 + ef e 215 205) :: x.stack else x.stack).filter fun q => p + 1 < q
    slots := if eClass e = 0x48 then Table.set x.slots (ef e 209 208) (slotDefOf e) else x.slots
    named := match descNamed e with
      | none => x.named
      | some (i, k) => if (Table.get? x.named i).isSome then x.named else Table.set x.named i k }

/-! ## Items (R99, R450) -/

/-- The lowest reason of a list of reasons with whether each holds; the list is in rising order. -/
def firstReason (l : List (Nat × Bool)) : Option Nat := (l.find? (·.2)).map (·.1)

/-- The reason for which an entry fails, with the descriptor it is the first to name. -/
def LoadEnv.entryFails (v : LoadEnv) (e : EntryBits) (p : Nat) (rest : List (Option EntryBits)) (used : List Nat)
    (first : Option (Table SlotDef)) (x : Scan) : Option Nat :=
  let nd := descNamed e
  let d : Option Bits512 := nd.bind fun n => (v.descs[n.1]?).join
  let beyond := nd.any fun n => decide (v.descs.length ≤ n.1)
  let fresh := nd.any fun n => (Table.get? x.named n.1).isNone
  let mixed := nd.any fun n => (Table.get? x.named n.1).any (· ≠ n.2)
  let conv := nd.any fun n => n.1 ∈ v.convs
  firstReason [
    (2, eClass e ∉ planClasses),
    (3, flagBad e),
    (4, reservedBad e || (fresh && d.any fun y => if conv then convReserved y else descReserved y)),
    (5, decide (0 < p ∧ eOffset e = 0)),
    (6, eIsHold e && decide (eOffset e < eGap e)),
    (7, beyond || mixed || !v.operandOk e || nd.any fun n => d.any fun y => !v.descOperandOk e n.1 y),
    (8, decide ((eClass e = 0x02 ∨ eClass e = 0x38) ∧ v.tiles ≤ ef e 215 199)),
    (9, structureBad e p rest used first x),
    (10, balanceBad e rest),
    (12, ePriv e && !v.priv),
    (13, nd.isSome && !beyond && d.isNone)]

/-- The entries of a plan from position `p`: the first failure, with its position, or the scan after the last. -/
def LoadEnv.entries (v : LoadEnv) (used : List Nat) (first : Option (Table SlotDef)) : Nat → List (Option EntryBits) → Scan → (Nat × Nat) ⊕ Scan
  | _, [], x => .inr x
  | p, o :: rest, x =>
    match o with
    | none => .inl (13, p)
    | some e =>
      match v.entryFails e p rest used first x with
      | some r => .inl (r, p)
      | none => v.entries used first (p + 1) rest (x.next e p)

/-- The reason for which a descriptor that no entry names fails: it counts as a stream descriptor, and an atomic one must be named
(R218). -/
def unnamedFails (d : Option Bits512) : Option Nat :=
  match d with
  | none => some 13
  | some y => firstReason [(4, descReserved y), (7, !descOk y || decide ((streamDesc y).atop ≠ 0))]

/-- A directory record (R71). -/
structure DirRec where
  plan : Nat
  length : Nat
  desc : Nat
  ndesc : Nat
deriving DecidableEq, Repr

/-- The directory record that 32 bytes hold. -/
def dirRec (e : EntryBits) : DirRec := ⟨w256 e 0, bits (w256 e 1) 20 0, w256 e 2, bits (w256 e 3) 8 0⟩

/-- The reason for which a directory record fails (R71). -/
def dirFails (e : EntryBits) : Option Nat :=
  let d := dirRec e
  firstReason [
    (4, bits (w256 e 1) 63 21 ≠ 0 || bits (w256 e 3) 63 9 ≠ 0),
    (7, d.plan % 2 ^ 13 ≠ 0 || d.length = 0 || 2 ^ 20 < d.length || d.desc % 64 ≠ 0 || 256 < d.ndesc)]

/-- The reason for which the plan-set header fails (R70, R99); `courses` is the context's course count. -/
def headerFails (h : Bits512) (courses : Nat) : Option Nat :=
  let w0 := w512 h 0
  let w1 := w512 h 1
  firstReason [
    (1, bits w0 31 0 ≠ 0x55563634 || bits w0 47 32 ≠ 0x0200 || bits w0 49 48 = 3 || w512 h 2 % 64 ≠ 0 || w512 h 3 % 64 ≠ 0),
    (4, bits w0 63 50 ≠ 0 || bits w1 15 11 ≠ 0 || bits w1 63 32 ≠ 0 || [4, 5, 6, 7].any fun i => w512 h i ≠ 0),
    (7, bits w1 10 0 = 0 || 1152 < bits w1 10 0 || bits w1 31 16 = 0),
    (8, bits w1 10 0 ≠ courses)]

/-- The reason for which a byte of the course-region table fails (R72, R97); `r` is the Rafter index of the context's course. -/
def regionFails (b : Option Byte) (r : Nat) : Option Nat :=
  match b with
  | none => some 13
  | some x => firstReason [(4, decide (64 ≤ x.toNat)), (7, decide (35 < x.toNat)), (11, decide (x.toNat ≠ r))]

/-! ## The plan set in memory -/

/-- `n` bytes of context memory as an access of the context reads them, page by page through the shadow regions (R233); none where one
byte cannot be read (R449). -/
def State.liveRead (s : State) (c va n : Nat) : Option (List Byte) :=
  (List.range (n / 65536 + 2)).foldl (fun o i =>
    o.bind fun l =>
      let lo := max va ((va / 65536 + i) * 65536)
      let hi := min (va + n) ((va / 65536 + i + 1) * 65536)
      if lo < hi then (s.redirect c lo false).bind fun a => (s.vaRead c a (hi - lo)).map (l ++ ·) else some l) (some [])

/-- What such a read does beside returning its bytes (R201, R209, R214, R379). -/
def State.liveTouch (s : State) (c va n : Nat) : State :=
  forAll (blockParts 65536 va n) (fun p t =>
    match s.redirect c p.1 false with
    | none => t
    | some a => t.vaTouch c a p.2.2) s

/-- A plan tile that has been read: its record, entries and descriptors. -/
structure ReadTile where
  dir : DirRec
  entries : List (Option EntryBits)
  descs : List (Option Bits512)
deriving DecidableEq, Repr

/-- The 64 bytes at an address as a number. -/
def State.read512 (s : State) (c va : Nat) : Option Bits512 := (s.liveRead c va 64).map fun b => BitVec.ofNat 512 (leNat b)

/-- The 32 bytes at an address as a number. -/
def State.read256 (s : State) (c va : Nat) : Option EntryBits := (s.liveRead c va 32).map entryOf

/-- The plan and descriptors that a directory record names. -/
def State.readTile (s : State) (c : Nat) (d : DirRec) : ReadTile :=
  ⟨d, (List.range d.length).map fun p => s.read256 c (d.plan + 32 * p), (List.range d.ndesc).map fun i => s.read512 c (d.desc + 64 * i)⟩

/-- A failure that the completion reports: reason, logical tile ID, plan position (R99). -/
structure LoadFail where
  reason : Nat
  tile : Nat
  position : Nat
deriving DecidableEq, Repr

/-- The descriptors that the CONV entries of a plan name. -/
def convsNamed (l : List (Option EntryBits)) : List Nat :=
  l.filterMap fun o => (o.bind descNamed).bind fun n => if n.2 then some n.1 else none

/-- A tile checked (R450): its record, its entries, the descriptors that no entry names; its slots where it passes. -/
def State.checkTile (s : State) (v : LoadEnv) (dirAt : Nat) (first : Option (Table SlotDef)) : LoadFail ⊕ (ReadTile × Table SlotDef) :=
  match s.read256 v.ctx dirAt with
  | none => .inl ⟨13, v.tile, 0⟩
  | some e =>
    match dirFails e with
    | some r => .inl ⟨r, v.tile, 0⟩
    | none =>
      let t := s.readTile v.ctx (dirRec e)
      let w := { v with descs := t.descs, convs := convsNamed t.entries }
      match w.entries (slotsUsed t.entries) first 0 t.entries ⟨[], [], []⟩ with
      | .inl (r, p) => .inl ⟨r, v.tile, p⟩
      | .inr x =>
        match (t.descs.zipIdx.filterMap fun y => if (Table.get? x.named y.2).isSome then none else unnamedFails y.1).head? with
        | some r => .inl ⟨r, v.tile, 0⟩
        | none => .inr (t, x.slots)

/-- A plan set that passed: its header, its tiles, the slots of its plans. -/
structure PlanImage where
  header : Bits512
  tiles : List ReadTile
  slots : Table SlotDef
deriving DecidableEq, Repr

/-- The tiles from ID `t` on, `n` of them. -/
def State.checkTiles (s : State) (v : LoadEnv) (dir : Nat) (h : Bits512) : Nat → Nat → Option (Table SlotDef) → List ReadTile → LoadFail ⊕ PlanImage
  | 0, _, first, l => .inr ⟨h, l, first.getD []⟩
  | n + 1, t, first, l =>
    match s.checkTile { v with tile := t } (dir + 32 * t) first with
    | .inl f => .inl f
    | .inr r => s.checkTiles v dir h n (t + 1) (some (first.getD r.2)) (l ++ [r.1])

/-- The first course whose region byte fails. -/
def State.checkRegions (s : State) (c at_ : Nat) : Nat → List Nat → Option LoadFail
  | _, [] => none
  | k, id :: l =>
    match regionFails (((s.liveRead c (at_ + k) 1).getD []).head?) (id / 32) with
    | some r => some ⟨r, 70 * k, 0⟩
    | none => s.checkRegions c at_ (k + 1) l

/-- LOAD_PLAN's examination of the plan set at an address (R99, R450). -/
def State.checkPlan (s : State) (c at_ : Nat) : LoadFail ⊕ PlanImage :=
  if at_ % 64 ≠ 0 then .inl ⟨1, 0, 0⟩
  else
    match s.read512 c at_ with
    | none => .inl ⟨13, 0, 0⟩
    | some h =>
      let courses := ((s.ctx c).cfg.map (·.courses)).getD []
      match headerFails h courses.length with
      | some r => .inl ⟨r, 0, 0⟩
      | none =>
        match s.checkRegions c (w512 h 3) 0 courses with
        | some f => .inl f
        | none =>
          s.checkTiles ⟨70 * courses.length, 0, (s.ctx c).links, s.groups, c, s.privileged c, [], []⟩ (w512 h 2) h (70 * courses.length) 0 none []

end Sys2Proof.Machine
end

