-- ==== Sys2Proof/Machine/Take.lean ====
section
/-! DEFINITION. Taking commands from the rings (R382, R383, R385 to R387, R390, R401, R403, R410) and the commands of launches and plans:
LOAD_PLAN, LAUNCH_STEP, FENCE, FLUSH, CANCEL. -/

namespace Sys2Proof.Machine

/-! ## The head of a ring -/

/-- The entry at HEAD of a ring; none where its bytes cannot be read. The PF ring lies at a DPA (R382, R387). -/
def State.ringEntry (s : State) (r : RingOf) : Option Bits512 :=
  let at_ := (s.reg (r.addr Off.CTX_CMD_BASE)).toNat + s.rf (r.addr Off.CTX_CMD_PTR) 15 0 * 64
  match r with
  | .ctx c => s.read512 c at_
  | .pf _ => if (s.devRead at_ 64).2 then none else some (BitVec.ofNat 512 (leNat (s.devRead at_ 64).1))

/-- What the device's read of the entry at HEAD does beside returning it. -/
def State.entryTouch (s : State) (r : RingOf) : State :=
  let at_ := (s.reg (r.addr Off.CTX_CMD_BASE)).toNat + s.rf (r.addr Off.CTX_CMD_PTR) 15 0 * 64
  match r with
  | .ctx c => s.liveTouch c at_ 64
  | .pf _ => s.devTouch at_ 64

/-- The entry at HEAD has been read, and HEAD moves past it. -/
def State.popRing (s : State) (r : RingOf) : State :=
  (s.entryTouch r).wf (r.addr Off.CTX_CMD_PTR) 15 0 ((s.rf (r.addr Off.CTX_CMD_PTR) 15 0 + 1) % 2 ^ s.rf (r.addr Off.CTX_CMD_CTL) 4 0)

/-- Commands are taken in the package's present condition: no firmware activation, no level-4 halt or shutdown, power state ACTIVE or HOLD
and no change of it (R403, R410, R414). -/
def State.takesCommands (s : State) : Bool :=
  s.rf Off.RDG_FWACT 0 0 = 0 && !s.halted && !s.shutdown && s.pstate ≤ 1 && s.psTarget.isNone

/-- The device may take the entry at HEAD of a ring: entries are exposed, fewer than 8 records are held, its port works, and no command
of the ring is open or, but for LAUNCH_STEP, FLUSH and CANCEL, has yet to complete in this cycle (R382, R383, R390, R402). -/
def State.ringOpen (s : State) (r : RingOf) : Bool :=
  s.takesCommands && s.ringWaits r && decide (s.heldCount r < 8) && s.portUsable (s.ringPort r)
    && (s.cycle.done.all fun e => e.1 ≠ r || e.2.op = 2 || e.2.op = 7 || e.2.op = 8)
    && (match r with
        | .ctx c => decide (c < 1024) && decide ((s.ctx c).phase ≠ .resetting) && (s.ctx c).openCmd.isNone
        | .pf b => decide (s.rf (bar0 (ridgeOf b) 0 Off.RDG_BOOT) 0 0 = 1))

/-- The entry at HEAD is taken and completes. -/
def State.finish (s : State) (r : RingOf) (e : Bits512) (status w2 : Nat) : State :=
  (s.popRing r).complete r (s.cpl (cmdSeq e) (cmdOp e) status w2 0)

/-- A SET_PARAM that its ring does not serve: an unknown PARAM, or one of the other ring (table *Parameters*, R264, R292). -/
def strayParam (e : Bits512) (pfRing : Bool) : Bool :=
  cmdOp e = 3 && (if pfRing then cmdParam e ∉ [3, 4, 5, 6, 8, 9, 10] else cmdParam e ∉ [1, 2, 7])

/-- The entry waits at HEAD (R383, R410): a LAUNCH_STEP while the launch queue is full or outside ACTIVE; any other command than FLUSH and
CANCEL while a launch is queued or runs. -/
def State.entryWaits (s : State) (c : Nat) (e : Bits512) : Bool :=
  match cmdOp e with
  | 2 => decide (4 ≤ (s.ctx c).queue.length) || decide (s.pstate ≠ 0)
  | 7 | 8 => false
  | _ => s.busy c

/-- A command of context `k` waits to be taken, and nothing keeps it waiting (R383). -/
def State.ctxReady (s : State) (k : Nat) : Bool :=
  s.ringOpen (.ctx k) && (s.ringEntry (.ctx k)).any fun e => decide ((s.ctx k).phase = .faulted) || !s.entryWaits k e

/-- PRIORITY of a context (R376, R377); 0 while it has no descriptor. -/
def State.priority (s : State) (c : Nat) : Nat := ((s.ctx c).cfg.map (·.priority)).getD 0

/-- No other context's waiting command is taken before one of context `c`: higher PRIORITY first, then the lower number (R385). -/
def State.firstInLine (s : State) (c : Nat) : Bool :=
  s.ctxs.all fun e => decide (s.priority e.1 < s.priority c ∨ (s.priority e.1 = s.priority c ∧ c ≤ e.1)) || !s.ctxReady e.1

/-- What a row that takes entries of a context's ring finds at HEAD: an entry of its own kind (`inl`), or the state it leaves. A faulted
context's commands complete with FAULTED, malformed ones with BAD_COMMAND, stray parameters with PARAM_INVALID; an entry behind a
translation fault faults the context with XLATE_FAULT (R379, R382, R401). -/
def State.ctxHead (s : State) (c : Nat) (mine : Bits512 → Bool) : Bits512 ⊕ State :=
  if !s.ringOpen (.ctx c) ∨ !s.firstInLine c then .inr s
  else
    match s.ringEntry (.ctx c) with
    | none => .inr (if (s.ctx c).phase = .faulted then s else s.ctxFault c 20)
    | some e =>
      if (s.ctx c).phase = .faulted then .inr (s.finish (.ctx c) e 10 (s.cf c Off.CTX_FAULT 7 0))
      else if s.entryWaits c e then .inr s
      else if !cmdOk e false then .inr (s.finish (.ctx c) e 14 0)
      else if strayParam e false then .inr (s.finish (.ctx c) e 6 0)
      else if mine e then .inl e
      else .inr s

/-- A row that takes entries of a context's ring. -/
def State.ctxCommand (s : State) (c : Nat) (mine : Bits512 → Bool) (act : Bits512 → State) : Out :=
  match s.ctxHead c mine with
  | .inl e => .next (act e)
  | .inr t => .next t

/-! ## Commands of the physical function (R387) -/

/-- An MGMT command is the first of the two sources' commands: nothing of the managing Ridge's PF ring waits that arrived before it (R387). -/
def State.mgmtFirst (s : State) : Bool :=
  match s.mgmtCmds with
  | [] => false
  | m :: _ => m.behind == 0 || !s.ringWaits (.pf s.roleB)

/-- The command of the physical function that waits first in a source; those of the managing Ridge's ring and of MGMT frames in order of
arrival (R387). -/
def State.pfEntry (s : State) (src : PfSrc) : Option Bits512 :=
  match src with
  | .ring b => if s.ringOpen (.pf b) && !(b = s.roleB && s.mgmtFirst) then s.ringEntry (.pf b) else none
  | .mgmt => if s.takesCommands && s.released && s.mgmtFirst then s.mgmtCmds.head?.map (·.entry) else none

/-- A command of the physical function is taken and completes: on its ring, or by an MGMT frame to the node it came from. -/
def State.pfFinish (s : State) (src : PfSrc) (e : Bits512) (status : Nat) : State :=
  match src with
  | .ring b => (s.finish (.pf b) e status 0).mgmtBehind b (· - 1)
  | .mgmt =>
    let node := (s.mgmtCmds.head?.map (·.node)).getD 0
    let r := s.cpl (cmdSeq e) (cmdOp e) status 0 0
    { s with mgmtCmds := s.mgmtCmds.tail }.sendCtl node 9 0 0 0 (.mgmtDone (r.mboxWords.map fun w => BitVec.ofNat 64 w))

/-- What a row that takes commands of the physical function finds: a command of its own kind, or the state it leaves. -/
def State.pfHead (s : State) (src : PfSrc) (mine : Bits512 → Bool) : Bits512 ⊕ State :=
  match s.pfEntry src with
  | none => .inr s
  | some e =>
    if !cmdOk e true then .inr (s.pfFinish src e 14)
    else if strayParam e true then .inr (s.pfFinish src e 6)
    else if mine e then .inl e
    else .inr s

/-- A row that takes commands of the physical function. -/
def State.pfCommand (s : State) (src : PfSrc) (mine : Bits512 → Bool) (act : Bits512 → State) : Out :=
  match s.pfHead src mine with
  | .inl e => .next (act e)
  | .inr t => .next t

/-- A SET_PARAM of a parameter. -/
def isParam (p : Nat) (e : Bits512) : Bool := cmdOp e = 3 && cmdParam e = p

/-- `n` bytes by DPA for a command of the physical function; none where a byte cannot be read. -/
def State.pfRead (s : State) (a n : Nat) : Option (List Byte) := if (s.devRead a n).2 then none else some (s.devRead a n).1

/-! ## LOAD_PLAN (R92, R95, R99) -/

/-- The device's reads of a plan set that passes: header, course table, directory, plans and descriptors. -/
def State.planTouch (s : State) (c at_ : Nat) (p : PlanImage) : State :=
  let s1 := ((s.liveTouch c at_ 64).liveTouch c (w512 p.header 3) (bits (w512 p.header 1) 10 0)).liveTouch c (w512 p.header 2) (32 * p.tiles.length)
  forAll p.tiles (fun r u => (u.liveTouch c r.dir.plan (32 * r.dir.length)).liveTouch c r.dir.desc (64 * r.dir.ndesc)) s1

/-- The Rafter dies of a context's courses are ready (table *Ready times*). -/
def State.coursesReady (s : State) (c : Nat) : Bool :=
  (((s.ctx c).cfg.map (·.courses)).getD []).all fun k => (s.die (rafterDie (k / 32))).ready && s.alive (rafterDie (k / 32))

/-- A tile with its plan: descriptors copied, the first segments in their frames but not yet filled, the pointer at segment 0. -/
def Tile.planned' (x : Tile) (r : ReadTile) : Tile :=
  { x with
    planAddr := r.dir.plan
    length := r.dir.length
    descs := r.descs.map (·.getD 0)
    frames := (List.range 8).map fun f => ⟨if f < ceilDiv r.dir.length 256 then some f else none, []⟩
    ptrSeg := 0
    running := false
    reps := [] }

/-- A transfer is a plan refill. -/
def XKind.isRefill (k : XKind) : Bool :=
  match k with
  | .refill _ _ => true
  | _ => false

/-- The context with a plan set that passed its checks; refills of the set before it are dropped. -/
def Ctx.withPlan (x : Ctx) (p : PlanImage) (seq : BitVec 32) : Ctx :=
  { x with
    plan := some ⟨bits (w512 p.header 0) 49 48, bits (w512 p.header 1) 10 0, bits (w512 p.header 1) 31 16, p.slots⟩
    tiles := p.tiles.zipIdx.map fun r => (r.2, (Table.getD Tile.init x.tiles r.2).planned' r.1)
    xfers := x.xfers.filter fun (e : Nat × Xfer) => !e.2.kind.isRefill
    openCmd := some (.loadPlan seq) }

/-- Word 2 of a PLAN_INVALID completion (table *Completion record*). -/
def LoadFail.word (f : LoadFail) : Nat := f.reason + f.tile * 2 ^ 8 + f.position * 2 ^ 25

/-- LOAD_PLAN (R99): a plan set that fails leaves none loaded; one that passes is being made resident. -/
def execLoadPlan (c : Nat) (s : State) : Out :=
  if !s.coursesReady c then .next s
  else s.ctxCommand c (fun e => cmdOp e = 1) fun e =>
    match s.checkPlan c (w512 e 1) with
    | .inl f => ((s.liveTouch c (w512 e 1) 64).modCtx c Ctx.unplanned).finish (.ctx c) e 5 f.word
    | .inr p => ((s.planTouch c (w512 e 1) p).modCtx c fun x => x.withPlan p (cmdSeq e)).popRing (.ctx c)

/-- The first entry that a tile's initial frames cannot be filled with: tile and position. -/
def State.unreadable (s : State) (c : Nat) : Option LoadFail :=
  ((s.ctx c).tiles.findSome? fun (e : Nat × Tile) =>
    ((List.range (min e.2.length 2048)).find? fun p => (s.read256 c (e.2.planAddr + 32 * p)).isNone).map fun p => ⟨13, e.1, p⟩)

/-- The entries of segment `g` of a tile's plan as memory holds them. -/
def State.segEntries (s : State) (c : Nat) (x : Tile) (g : Nat) : List EntryBits :=
  (List.range (min 256 (x.length - g * 256))).map fun k => (s.read256 c (x.planAddr + 32 * (g * 256 + k))).getD 0

/-- A tile whose frames hold the segments they name (R92). -/
def State.filled (s : State) (c : Nat) (x : Tile) : Tile :=
  { x with frames := x.frames.map fun f =>
      match f.seg with
      | none => f
      | some g => ⟨some g, s.segEntries c x g⟩ }

/-- A command that was open completes. -/
def State.closeCmd (s : State) (c : Nat) (seq : BitVec 32) (op status w2 : Nat) : State :=
  (s.modCtx c fun x => { x with openCmd := none }).complete (.ctx c) (s.cpl seq op status w2 0)

/-- LOAD_PLAN_COMPLETE (R92, R95): every initial frame is filled. A byte that can no longer be read ends the LOAD_PLAN with UNREADABLE (R449). -/
def execLoadPlanComplete (c : Nat) (s : State) : Out :=
  match (s.ctx c).openCmd with
  | some (.loadPlan seq) =>
    match s.unreadable c with
    | some f => .next ((s.modCtx c Ctx.unplanned).closeCmd c seq 1 5 f.word)
    | none => .next ((s.modCtx c fun x => { x with tiles := x.tiles.mapVals fun _ t => s.filled c t }).closeCmd c seq 1 0 0)
  | _ => .next s

/-! ## LAUNCH_STEP, FENCE, FLUSH, CANCEL (R41, R42, R383, R386) -/

/-- LAUNCH_STEP (R41, R42, R360, R383): START_PASSED, PSTATE_MISMATCH, NO_PLAN, or the launch queue; none is taken while a checkpoint
image is being written. -/
def execLaunchStep (c : Nat) (s : State) : Out :=
  if s.cf c Off.CTX_CKPT_STS 1 1 = 1 ∧ (s.ctx c).phase = .normal then .next s
  else s.ctxCommand c (fun e => cmdOp e = 2) fun e =>
    let t0 := w512 e 1
    if t0 < s.now + 20000 then s.finish (.ctx c) e 3 t0
    else
      match (s.ctx c).plan with
      | none => s.finish (.ctx c) e 11 t0
      | some p =>
        if p.divider ≠ s.eff then s.finish (.ctx c) e 4 t0
        else (s.modCtx c fun x => { x with queue := x.queue ++ [⟨cmdSeq e, t0, false⟩] }).popRing (.ctx c)

/-- FENCE (R382): on a context's ring every earlier command has completed when it is taken (R383); on the PF ring too. -/
def execFence (ring : Option Nat) (src : PfSrc) (s : State) : Out :=
  match ring with
  | some c => s.ctxCommand c (fun e => cmdOp e = 6) fun e => s.finish (.ctx c) e 0 0
  | none => s.pfCommand src (fun e => cmdOp e = 6) fun e => s.pfFinish src e 0

/-- The launch that has become ready in this very cycle (R386). -/
def State.justReady (s : State) (c : Nat) : Option Launch :=
  (s.ctx c).running.bind fun r => if !r.started ∧ s.now + 4000 = r.t0 then some ⟨r.seq, r.t0, false⟩ else none

/-- The launches that a FLUSH completes, or a CANCEL may name: those queued, and one that becomes ready in this cycle. -/
def State.cancellable (s : State) (c : Nat) : List Launch := (s.justReady c).toList ++ (s.ctx c).queue

/-- The context without the launches of a list; one that was just ready is not armed any more. -/
def State.unqueue (s : State) (c : Nat) (l : List Launch) : State :=
  match (s.justReady c).filter fun x => x ∈ l with
  | none => s.modCtx c fun x => { x with queue := x.queue.diff l }
  | some y => s.modCtx c fun x => { x with
      queue := x.queue.diff (l.erase y)
      running := none
      tiles := x.tiles.mapVals fun _ t => { t with running := false } }

/-- A launch put into a list in rising SEQ. -/
def insertLaunch (l : Launch) : List Launch → List Launch
  | [] => [l]
  | y :: r => if l.seq.toNat ≤ y.seq.toNat then l :: y :: r else y :: insertLaunch l r

/-- Launches completed with a status, in rising SEQ (R389). -/
def State.completeLaunches (s : State) (c status : Nat) (l : List Launch) : State :=
  forAll (l.foldr insertLaunch []) (fun x t => t.complete (.ctx c) (t.cpl x.seq 2 status x.t0 0)) s

/-- FLUSH (R386): every queued launch completes with FLUSHED, then the FLUSH. -/
def execFlush (c : Nat) (s : State) : Out :=
  s.ctxCommand c (fun e => cmdOp e = 7) fun e =>
    ((s.unqueue c (s.cancellable c)).completeLaunches c 1 (s.cancellable c)).finish (.ctx c) e 0 0

/-- CANCEL (R386): the named launch completes with LAUNCH_CANCELLED, then the CANCEL; CANCEL_MISS where no queued launch has its SEQ. -/
def execCancel (c : Nat) (s : State) : Out :=
  s.ctxCommand c (fun e => cmdOp e = 8) fun e =>
    match (s.cancellable c).find? fun l => l.seq.toNat = w512 e 1 with
    | none => s.finish (.ctx c) e 12 0
    | some l => ((s.unqueue c [l]).completeLaunches c 2 [l]).finish (.ctx c) e 0 0

end Sys2Proof.Machine
end

