-- ==== Sys2Proof/Machine/Params.lean ====
section
/-! DEFINITION. The SET_PARAM commands (table *Parameters*): stage links, version rings, groups, REFORM, routes, prefixes, ROLLBACK, CONTEXT,
BIND, FWACT. -/

namespace Sys2Proof.Machine

/-! ## Stage links (R170 to R172) -/

/-- The fields of a stage-link entry that its receive half uses, and its combination of halves, hold stated values (R170, R171); `tiles` is the
number of logical tiles of the context. -/
def stageLinkOk (k : StageLink) (tiles : Nat) : Bool :=
  ((!k.txEn && !k.rxEn) || k.maxLen ≤ 3072)
    && (!k.txEn || k.remote != k.rxEn)
    && (!k.rxEn ||
      ((k.qEave != k.txEn) && (!k.qEave || k.qDie < 8) && k.maxLen ≤ k.depth && 1 ≤ k.high && k.high < k.depth && k.low < k.high
        && 1 ≤ k.pktHigh && k.pktHigh ≤ 64 && k.pktLow < k.pktHigh && k.arrTile < tiles))

/-- The stage-link table that its bytes hold; none where an entry breaks its rules. -/
def stageTable (bs : List Byte) (tiles : Nat) : Option (Table StageLink) :=
  let es := entriesOf bs
  if es.all fun e => stageLinkReserved e && stageLinkOk (stageLinkOf e) tiles then
    some ((es.zipIdx.map fun e => (e.2, stageLinkOf e.1)).filter fun e => e.2.txEn || e.2.rxEn)
  else none

/-- Queue memory of a die that a stage-link table uses, in words (R171). -/
def queueWords (d : Nat) (t : Table StageLink) : Nat := ((t.filter fun e => e.2.rxEn && e.2.die = d).map fun e => e.2.depth).sum

/-- The queues of a new table fit the queue memory of their dies: 65,536 words on a Thatch die, 131,072 on an Eave die (R171). -/
def State.queuesFit (s : State) (c : Nat) (t : Table StageLink) : Bool :=
  (List.range 64).all fun d =>
    let room := if dieKind d = .eave then 131072 else 65536
    queueWords d t = 0
      || queueWords d t + ((s.ctxs.filter fun e => e.1 ≠ c).map fun e => queueWords d e.2.links).sum ≤ room

/-- The receive half of an entry. -/
def StageLink.rxHalf (k : StageLink) : StageLink := { k with remote := false, destNode := 0, destLink := 0 }

/-- The links whose receive half a new table changes (R172). -/
def State.changedLinks (s : State) (c : Nat) (t : Table StageLink) : List Nat :=
  ((s.ctx c).links.filter fun e => e.2.rxEn && (Table.get? t e.1).map (·.rxHalf) ≠ some e.2.rxHalf).map (·.1)

/-- A payload of a context's SET_PARAM. -/
def State.payload (s : State) (c : Nat) (e : Bits512) (n : Nat) : Option (List Byte) := s.liveRead c (w512 e 2) n

/-- STAGE_LINKS (R170 to R172). -/
def execStageLinks (c : Nat) (s : State) : Out :=
  s.ctxCommand c (isParam 1) fun e =>
    let s := s.liveTouch c (w512 e 2) 32768
    match (s.payload c e 32768).bind fun b => stageTable b (s.tileCount c) with
    | none => s.finish (.ctx c) e 6 0
    | some t =>
      if s.queuesFit c t then
        ((forAll (s.changedLinks c t) (fun l u => u.flushQueue c l) s).modCtx c fun x => { x with links := t }).finish (.ctx c) e 0 0
      else s.finish (.ctx c) e 7 0

/-! ## Version rings (R188) -/

/-- VERSION_RINGS (R188). -/
def execVersionRings (c : Nat) (s : State) : Out :=
  s.ctxCommand c (isParam 2) fun e =>
    let s := s.liveTouch c (w512 e 2) 1024
    match s.payload c e 1024 with
    | none => s.finish (.ctx c) e 6 0
    | some b =>
      if (entriesOf b).all vringOk then
        (s.modCtx c fun x => { x with rings := (entriesOf b).zipIdx.map fun r => (r.2, vringOf r.1) }).finish (.ctx c) e 0 0
      else s.finish (.ctx c) e 6 0

/-! ## Groups (R263 to R265, R281, R282) -/

/-- A group entry's own fields, its sequence at 0 and no members yet (table *Group entry*). -/
def groupOf (d : Bits512) : Group :=
  let w0 := w512 d 0
  let w2 := w512 d 2
  let w3 := w512 d 3
  { ctx := bits w0 10 1, alg := bits w0 12 11, cls := bits w0 15 13, epoch := BitVec.ofNat 16 (bits w0 31 16), members := []
    self := bits w0 63 48, chunk := 2 ^ (16 + bits w2 2 0), node := bits w2 6 3 + 1, pool := bits w2 10 7, order := bits w2 14 11
    npool := bits w2 18 15 + 1, rate := bits w2 34 19, stgLine := bits w3 11 0, stgLines := bits w3 23 12 + 1, ctr := bits w3 29 24
    ltFirst := bits w3 46 30, ltCount := bits w3 63 47 + 1, seq := 0, votes := [] }

/-- Members P of a group entry. -/
def groupP (d : Bits512) : Nat := bits (w512 d 0) 47 32 + 1

/-- The fields of a group entry hold their stated values (table *Group entry*). -/
def groupOk (d : Bits512) : Bool :=
  let g := groupOf d
  let p := groupP d
  g.alg ≤ 2 && 2 ≤ g.cls && g.self < p && w512 d 1 % 8 = 0 && bits (w512 d 2) 2 0 ≤ 6
    && (if g.alg = 2 then g.node ≤ 8 && p % g.node = 0 else g.node = 1)
    && (if g.pool = 0 then g.order = 0 && g.npool = 1 else g.order < g.npool)
    && 1 ≤ g.rate && bits (w512 d 2) 63 35 = 0 && g.stgLine < 3072 && 2 ≤ g.stgLines && g.stgLines ≤ 3072 && g.stgLines % 2 = 0
    && g.ltCount ≤ 80640 && [4, 5, 6, 7].all fun i => w512 d i = 0

/-- A group keeps to the rule of its pool beside the other groups of its context (R264). -/
def State.poolOk (s : State) (gi : Nat) (g : Group) : Bool :=
  g.pool = 0 || s.groups.all fun e =>
    e.1 = gi || e.2.ctx ≠ g.ctx || e.2.pool ≠ g.pool
      || (e.2.stgLine = g.stgLine && e.2.stgLines = g.stgLines && e.2.npool = g.npool && e.2.order ≠ g.order)

/-- The member list of P entries at a context virtual address of context `c`; none where it cannot be read or breaks R265 for position
`self`. -/
def State.memberList (s : State) (c at_ p self : Nat) : Option (List Nat) :=
  (s.liveRead c at_ (4 * p)).bind fun b =>
    let ids := (List.range p).map fun i => leNat ((b.drop (4 * i)).take 4)
    if (ids.all fun n => n < 2 ^ 20) && decide ids.Nodup && ids[self]? = some s.node then some ids else none

/-- Instances and instance counts of a group index forgotten. -/
def Ctx.dropGroup (x : Ctx) (gi : Nat) : Ctx :=
  { x with
    insts := x.insts.filter fun (e : Nat × Inst) => e.2.group ≠ gi
    tiles := (x.tiles.mapVals fun _ t => { t with instCount := Table.erase t.instCount gi }).filter
      fun (e : Nat × Tile) => decide (e.2 ≠ Tile.init) }

/-- A group installed at an index, replacing what its context had there. -/
def State.installGroup (s : State) (gi : Nat) (g : Group) : State :=
  { s with groups := Table.set s.groups gi g }.modCtx g.ctx fun x => x.dropGroup gi

/-- The status of a GROUP command with entry `d` for index `gi`, and the state it leaves (R264, R265). -/
def State.groupCommand (s : State) (gi : Nat) (d : Bits512) : State × Nat :=
  let g := groupOf d
  let other := (Table.get? s.groups gi).any fun o => decide (o.ctx ≠ g.ctx)
  if !bitAt (w512 d 0) 0 then
    if other then (s, 6)
    else if (Table.get? s.groups gi).isNone then (s, 0)
    else ({ s with groups := Table.erase s.groups gi }.modCtx g.ctx fun x => x.dropGroup gi, 0)
  else if other then (s, if s.groups.length = 4096 then 7 else 6)
  else if !groupOk d || !s.poolOk gi g then (s, 6)
  else
    match s.memberList g.ctx (w512 d 1) (groupP d) g.self with
    | none => (s, 6)
    | some l => (s.installGroup gi { g with members := l }, 0)

/-- GROUP (R264): for a context with a running launch it waits for the launch's end. -/
def execGroup (src : PfSrc) (s : State) : Out :=
  s.pfCommand src (isParam 3) fun e =>
    let t := s.devTouch (w512 e 2) 64
    match t.pfRead (w512 e 2) 64 with
    | none => t.pfFinish src e 6
    | some b =>
      let d : Bits512 := BitVec.ofNat 512 (leNat b)
      if (s.ctx (groupOf d).ctx).running.isSome then s
      else
        let u := t.liveTouch (groupOf d).ctx (w512 d 1) (if bitAt (w512 d 0) 0 then 4 * groupP d else 0)
        let r := u.groupCommand (bits (w512 e 3) 11 0) d
        r.1.pfFinish src e r.2

/-- The verdicts of an old epoch that the launches of a context have not applied become ABORTED, and with them every verdict, of whatever group,
that a launch which has started applies later (R251). -/
def State.abortVerdicts (s : State) (c gi : Nat) (epoch : BitVec 16) : State :=
  if (s.ctx c).phase ≠ .normal then s
  else
    forAll ((s.ctx c).launches.filter (·.started)) (fun r t =>
      forAll (r.slots.filter fun e => e.2.group = gi && e.2.epoch = epoch && e.2.isOpen)
        (fun v u => u.applyDecision c r.seq v.1 ⟨3, v.2.flags, v.2.nsum, v.2.ssum⟩)
        (t.modLaunch c r.seq fun x => { x with aborted := true })) s

/-- A group re-formed with a member list, a position and the next epoch (R282): open instances of the old epoch abort, its verdicts become
ABORTED, the sequence restarts at 0. -/
def State.reformGroup (s : State) (gi : Nat) (g : Group) (l : List Nat) (self : Nat) (epoch : BitVec 16) : State :=
  let s1 := { s with groups := Table.set s.groups gi { g with epoch := epoch, members := l, self := self, seq := 0, votes := [] } }
  let open_ := ((s1.ctx g.ctx).insts.filter fun e => e.2.group = gi && e.2.epoch = g.epoch).map (·.1)
  let s2 := forAll open_ (fun id t => t.abortInst g.ctx id g) s1
  (s2.modCtx g.ctx fun x => x.dropGroup gi).abortVerdicts g.ctx gi g.epoch

/-- REFORM (R281, R282): it takes effect while launches run. -/
def execReform (src : PfSrc) (s : State) : Out :=
  s.pfCommand src (isParam 4) fun e =>
    let gi := bits (w512 e 3) 11 0
    let epoch := BitVec.ofNat 16 (bits (w512 e 3) 27 12)
    let p := bits (w512 e 4) 16 0
    let self := bits (w512 e 4) 32 17
    match Table.get? s.groups gi with
    | none => s.pfFinish src e 6
    | some g =>
      if epoch ≠ g.epoch + 1 || p = 0 || 65536 < p || p ≤ self || (g.alg = 2 && p % g.node ≠ 0) then s.pfFinish src e 6
      else
        let s := s.liveTouch g.ctx (w512 e 2) (4 * p)
        match s.memberList g.ctx (w512 e 2) p self with
        | none => s.pfFinish src e 6
        | some l => (s.reformGroup gi g l self epoch).pfFinish src e 0

/-! ## Routes (R292, R293) -/

/-- Every Eave die that works is ready: routes and prefixes are kept on each of them (table *Ready times*, R292). -/
def State.eavesReady (s : State) : Bool := (List.range 8).all fun e => !s.alive (eaveDie e) || (s.die (eaveDie e)).ready

/-- The frames waiting or held on the links of a node are lost: transfers they belong to never arrive. -/
def State.loseFrames (s : State) (node : Nat) : State :=
  let owners := (s.links.filter fun e => keyNode e.1 = node).flatMap fun e => e.2.classes.flatMap fun k =>
    (k.2.txq.filterMap (·.owner)) ++ k.2.held.filterMap (·.owner)
  forAll owners (fun o t => t.modXfer o.1 o.2 fun x => { x with waiting := x.waiting ++ [x.segs.length] }) s

/-- The state of the logical link to a node and its lanes discarded. -/
def State.dropLinks (s : State) (node : Nat) : State :=
  let s1 := forAll ((s.links.map (·.1)).filter fun k => keyNode k = node) (fun k t => t.closeLink k) (s.loseFrames node)
  { s1 with links := s1.links.filter fun e => keyNode e.1 ≠ node }

/-- A link on the ports of its entry, as it is installed or rewritten: DOWN with both failed, due to move with its primary failed (R310, R312). -/
def State.settleLink (s : State) (k : Nat) : State :=
  match s.linkPorts k with
  | none => s
  | some p => if s.sideFailed k false then s.linkLoss k p.1 else s

/-- The links and lanes of a route at its installation: nothing sent or received, active on the primary port from now. -/
def State.freshLinks (s : State) (node : Nat) (r : Route) : State :=
  forAll (r.keys node) (fun k t => (t.modLink k fun _ => { Link.init with since := t.now }).settleLink k) (s.dropLinks node)

/-- A rewritten entry of the same PEPOCH: the link state is kept, and the link is on the primary port of its entry; where it was due to move, what it
holds is replayed there (R293, R310, R312). -/
def State.rewriteLinks (s : State) (node : Nat) (r : Route) : State :=
  forAll (r.keys node) (fun k t =>
      let moving := (t.link k).moving
      let u := t.modLink k fun l => { l with onSecondary := false, failedP := false, failedS := false, moving := false, since := t.now }
      if moving ∧ !u.sideFailed k false then u.replayAll k else u.settleLink k)
    { s with links := s.links.filter fun e => keyNode e.1 ≠ node || e.1 ∈ r.keys node }

/-- The status of a ROUTE with entry `e`, and the state it leaves (R292, R293). -/
def State.routeCommand (s : State) (e : EntryBits) : State × Nat :=
  let (node, valid, r) := routeOf e
  if !valid then ({ s.dropLinks node with routes := Table.erase s.routes node }, 0)
  else if !routeOk e then (s, 6)
  else
    match Table.get? s.routes node with
    | none => if 16384 ≤ s.routes.length then (s, 7) else ({ s with routes := Table.set s.routes node r }.freshLinks node r, 0)
    | some o =>
      let s1 := { s with routes := Table.set s.routes node r }
      if o.pepoch = r.pepoch then (s1.rewriteLinks node r, 0) else (s1.freshLinks node r, 0)

/-- ROUTE (R292, R293). -/
def execRoute (src : PfSrc) (s : State) : Out :=
  if !s.eavesReady then .next s
  else s.pfCommand src (isParam 5) fun e =>
    let s := s.devTouch (w512 e 2) 32
    match s.pfRead (w512 e 2) 32 with
    | none => s.pfFinish src e 6
    | some b =>
      let r := s.routeCommand (entryOf b)
      r.1.pfFinish src e r.2

/-- The status of a PREFIX with entry word `w`, and the state it leaves (R292). -/
def State.prefixCommand (s : State) (w : Nat) : State × Nat :=
  let p : PrefixEntry := ⟨bits w 19 0, bits w 24 20, bits w 44 25⟩
  let same (q : PrefixEntry) : Bool := q.bits = p.bits && q.plen = p.plen
  if !bitAt w 45 then ({ s with prefixes := s.prefixes.filter fun q => !same q }, 0)
  else if bits w 63 46 ≠ 0 || p.plen = 0 || 20 < p.plen || p.bits % 2 ^ (20 - p.plen) ≠ 0 then (s, 6)
  else if s.prefixes.any same then ({ s with prefixes := s.prefixes.map fun q => if same q then p else q }, 0)
  else if 1024 ≤ s.prefixes.length then (s, 7)
  else ({ s with prefixes := s.prefixes ++ [p] }, 0)

/-- PREFIX (R292). -/
def execRoutePrefix (src : PfSrc) (s : State) : Out :=
  if !s.eavesReady then .next s
  else s.pfCommand src (isParam 6) fun e =>
    let s := s.devTouch (w512 e 2) 8
    match s.pfRead (w512 e 2) 8 with
    | none => s.pfFinish src e 6
    | some b =>
      let r := s.prefixCommand (leNat b)
      r.1.pfFinish src e r.2

/-! ## ROLLBACK (R346, R354, R449) -/

/-- The page-state tables and the snapshot record of a context can be read and written (R448, R449). -/
def State.rollbackOk (s : State) (c : Nat) : Bool :=
  s.tablesOk c && ((s.regions c).all fun r => (s.vaRead c r.state ((r.pages + 1) / 2)).isSome)

/-- A field of `n` bytes of a record. -/
def recField (rec_ : List Byte) (at_ n : Nat) : Nat := leNat ((rec_.drop at_).take n)

/-- The nibble of a page after the undo of one commit. -/
def nibbleUndo (n : Nat) : Nat := (n % 2 + n / 4 % 2) % 2

/-- Every page of the context's regions changed. -/
def State.allPages (s : State) (c : Nat) (f : Nat → Nat) : State :=
  forAll (s.regions c) (fun r t => iter (fun k u => u.setNibble c r.state k (f (u.nibble c r.state k))) r.pages t) s

/-- Training registers and rings loaded from a record; `prev` takes the step before (table *Undo of one commit*). -/
def State.loadRecord (s : State) (c : Nat) (rec_ : List Byte) (prev : Bool) : State :=
  let o := if prev then 48 else 8
  let set (off n : Nat) (t : State) : State := t.setReg (ctxA c off) (BitVec.ofNat 64 n)
  let adv := recField rec_ 136 4
  let s1 := set Off.CTX_SEED (recField rec_ 40 8) (set Off.CTX_DATA_STRIDE (recField rec_ 32 8) (set Off.CTX_DATA_CURSOR (recField rec_ (o + 16) 8)
    (set Off.CTX_RNG_STEP (recField rec_ (o + 8) 8 % 2 ^ 48) (set Off.CTX_STEP (recField rec_ o 8 % 2 ^ 48) s))))
  s1.modCtx c fun x => { x with
    rings := x.rings.mapVals fun n r =>
      let v := BitVec.ofNat 16 (recField rec_ (72 + 2 * n) 2)
      if prev then (if bitAt adv n then { r with newest := v - 1 } else r) else { r with newest := v } }

/-- ROLLBACK of the context's own state (R346); none where it completes with ROLLBACK_GONE. -/
def State.rollbackOwn (s : State) (c target : Nat) : Option State :=
  let a := (s.reg (ctxA c Off.CTX_SNAP_ADDR)).toNat
  if a = 0 || !s.rollbackOk c then none
  else
    let s := s.vaTouch c a 256
    (s.vaRead c a 256).bind fun r =>
      let step := recField r 8 8 % 2 ^ 48
      if recField r 0 4 ≠ 0x55565352 then none
      else if step = target then some ((s.loadRecord c r false).allPages c fun n => nibBit n 1 false)
      else if step = (target + 1) % 2 ^ 48 ∧ bitAt (recField r 4 4) 0 then
        some ((((s.loadRecord c r true).allPages c nibbleUndo).vaWrite c (a + 8) ((r.drop 48).take 24)).vaWrite c (a + 4) (leBytes 4 0))
      else none

/-- ROLLBACK of the mirror that the context holds (R354); none where it completes with ROLLBACK_GONE. -/
def State.rollbackHeld (s : State) (c target : Nat) : Option State :=
  let t := s.heldState c
  let w := s.heldWord c
  if s.cf c Off.CTX_MIR_IN 0 0 = 0 || !s.heldOk c || (s.vaRead c t (320 + (s.heldPages c + 1) / 2)).isNone then none
  else if w % 2 ^ 48 = target then some ((s.heldNibbles c fun n => nibBit n 1 false).setHeldWord c (nibBit (nibBit w 49 false) 51 false))
  else if w % 2 ^ 48 = (target + 1) % 2 ^ 48 ∧ bitAt w 50 then
    some ((s.heldNibbles c nibbleUndo).setHeldWord c (w - w % 2 ^ 48 - 2 ^ 50 + target))
  else none

/-- ROLLBACK (R346, R354). -/
def execRollback (c : Nat) (s : State) : Out :=
  s.ctxCommand c (isParam 7) fun e =>
    let target := bits (w512 e 4) 47 0
    match (if bitAt (w512 e 3) 0 then s.rollbackHeld c target else s.rollbackOwn c target) with
    | none => s.finish (.ctx c) e 8 0
    | some t => t.finish (.ctx c) e 0 0

/-! ## CONTEXT, BIND, FWACT (R371, R374, R375, R403, R421) -/

/-- The stacks of a descriptor's set. -/
def CtxCfg.stacks (g : CtxCfg) : List Nat := stacksOf g.setKind g.setIdx

/-- A course may be named in a CONTEXT of context `c` (R374, R421). -/
def State.courseOk (s : State) (c id : Nat) : Bool :=
  let d := rafterDie (id / 32)
  id < 1152 && !(s.die d).fenced && s.alive d && (s.die d).ready
    && !bitAt (s.rf (bar0 d 0 Off.RFT_BOOT) 39 8) (id % 32)
    && !s.ctxs.any fun e => e.1 ≠ c && (e.2.cfg.map (·.courses)).any fun l => id ∈ l

/-- The shares of every configured context, the new descriptor of `c` counted, keep within their limits (R374). -/
def State.sharesOk (s : State) (c : Nat) (g : CtxCfg) : Bool :=
  let all := g :: (s.ctxs.filter fun e => e.1 ≠ c).filterMap fun e => e.2.cfg
  ((List.range 16).all fun t => ((all.filter fun x => t ∈ x.stacks).map (·.share)).sum ≤ 1024)
    && (all.map (·.pshare)).sum ≤ 1024
    && (List.range 6).all fun k => (all.map fun x => x.eshare.getD k 0).sum ≤ 256

/-- The course IDs of a list of `n` at a DPA. -/
def State.courseList (s : State) (a n : Nat) : Option (List Nat) :=
  (s.pfRead a (2 * n)).map fun b => (List.range n).map fun i => leNat ((b.drop (2 * i)).take 2)

/-- The context with a descriptor; another course list discards its plan set (R375). -/
def Ctx.configured (x : Ctx) (g : CtxCfg) : Ctx :=
  let y := if x.cfg.map (·.courses) = some g.courses then x else x.unplanned
  { y with cfg := some g }

/-- The status of a CONTEXT for context `c` with descriptor `d`, and the state it leaves (R374, R375, R421). -/
def State.contextCommand (s : State) (c : Nat) (d : EntryBits) : State × Nat :=
  let (en, n, l, g) := ctxDesc d
  if !en then ((s.ctxReset c).modCtx c fun x => { x with cfg := none }, 0)
  else if !ctxDescOk d || !(g.stacks.all fun t => (s.die (thatchDie t)).ready && s.alive (thatchDie t)) then (s, 6)
  else
    let s := s.devTouch l (2 * n)
    match s.courseList l n with
    | none => (s, 6)
    | some ids =>
      if !decide ids.Nodup || !ids.all (s.courseOk c) then (s, 6)
      else if !s.sharesOk c g then (s, 13)
      else (s.modCtx c fun x => x.configured { g with courses := ids }, 0)

/-- CONTEXT (R374, R375): it waits while a launch of the context is queued or runs. -/
def execContext (src : PfSrc) (s : State) : Out :=
  s.pfCommand src (isParam 8) fun e =>
    let c := cmdCtx e
    if s.busy c || (s.ctx c).openCmd.isSome then s
    else
      let s := s.devTouch (w512 e 2) 32
      match s.pfRead (w512 e 2) 32 with
      | none => s.pfFinish src e 6
      | some b =>
        let r := s.contextCommand c (entryOf b)
        r.1.pfFinish src e r.2

/-- BIND (R371): between two commands of the context; from now on its completions are held until CTX_CPL_BASE is written through the new
port. -/
def execBind (src : PfSrc) (s : State) : Out :=
  s.pfCommand src (isParam 9) fun e =>
    let c := cmdCtx e
    let b := bitAt (w512 e 3) 0
    if (s.ctx c).openCmd.isSome then s
    else (if (s.ctx c).boundB = b then s else s.modCtx c fun x => { x with boundB := b, rebinding := true }).pfFinish src e 0

/-- FWACT (R403): the command completes and firmware activation starts. -/
def execFwact (src : PfSrc) (s : State) : Out :=
  s.pfCommand src (isParam 10) fun e => (s.pfFinish src e 0).activate

end Sys2Proof.Machine
end

