-- ==== Sys2Proof/Machine/Images.lean ====
section
/-! DEFINITION. SNAPSHOT and EXPORT (R256, R388) and the aperture BAR4 (R381). -/

namespace Sys2Proof.Machine

/-! ## SNAPSHOT and EXPORT -/

/-- SNAPSHOT (R383, R388): the command is taken and its image is being written. -/
def execSnapshot (c : Nat) (s : State) : Out :=
  s.ctxCommand c (fun e => cmdOp e = 4) fun e =>
    (s.modCtx c fun x => { x with openCmd := some (.snapshot (cmdSeq e) (w512 e 1) (w512 e 2) (bits (w512 e 3) 31 0)) }).popRing (.ctx c)

/-- An open command may end: its context exists and is not being reset, and the host port of its ring works. -/
def State.mayClose (s : State) (c : Nat) : Bool :=
  decide (c < 1024) && decide ((s.ctx c).phase ≠ .resetting) && s.portUsable (s.ringPort (.ctx c))

/-- The number of bytes that the pages of an image hold with the snapshot record. -/
def imageState (pages : List MPage) : Nat := pages.length * 65536 + 256

/-- The device's reads of the pages of an image. -/
def State.imageTouch (s : State) (c : Nat) (pages : List MPage) : State := forAll pages (fun p t => t.liveTouch c p.va 65536) s

/-- SNAPSHOT_COMPLETE (R388, R389): the sealed image of the named sets, the NEWEST slots of the named rings and the snapshot record is
in host memory. -/
def execSnapshotComplete (c : Nat) (s : State) : Out :=
  match (s.ctx c).openCmd with
  | some (.snapshot seq host sets rings) =>
    if !s.mayClose c then .next s
    else
      let pages := s.maskPages c (BitVec.ofNat 64 sets) rings
      let s := s.imageTouch c pages
      let n := Config.sealedBytes (imageState pages)
      let at_ := host + if s.ringPort (.ctx c) then 2 ^ 64 else 0
      let img := HostImage.mk at_ c (BitVec.ofNat 48 (s.cf c Off.CTX_STEP 47 0)) (s.seal c pages)
      .next (({ s with images := s.images ++ [img] }.cWrap c Off.CTX_BYTES_PCIE 63 0 n).closeCmd c seq 4 0 n)
  | _ => .next s

/-- EXPORT (R256, R383, R388): the command is taken; a ring that is not installed ends it at once with PARAM_INVALID (log 32). -/
def execExportRing (c : Nat) (s : State) : Out :=
  s.ctxCommand c (fun e => cmdOp e = 5) fun e =>
    let n := bits (w512 e 2) 4 0
    if ((Table.get? (s.ctx c).rings n).map (·.valid)).getD false then
      (s.modCtx c fun x => { x with openCmd := some (.exportRing (cmdSeq e) (w512 e 1) n) }).popRing (.ctx c)
    else s.finish (.ctx c) e 6 0

/-- The bytes of the NEWEST slot of a ring as they are live (R233, R256, R388). -/
def State.ringData (s : State) (c : Nat) (r : VRing) : List Byte :=
  (List.range r.stride).map fun i =>
    let va := r.base + r.newest.toNat % r.slots * r.stride + i
    ((s.redirect c va false).bind (s.vaByte c)).getD (Config.exportByte va)

/-- The header of an EXPORT image (R256). -/
def State.exportHeader (s : State) (c n : Nat) (r : VRing) (data : List Byte) : List Byte :=
  leBytes 4 0x55564558 ++ [Config.exportWfmt n] ++ List.replicate 3 0 ++ leBytes 8 data.length ++ leBytes 8 (s.cf c Off.CTX_STEP 47 0)
    ++ leBytes 2 r.newest.toNat ++ List.replicate 30 0 ++ leBytes 8 (crc64 data)

/-- EXPORT_COMPLETE (R256, R388, R389): header and data are in host memory. -/
def execExportComplete (c : Nat) (s : State) : Out :=
  match (s.ctx c).openCmd with
  | some (.exportRing seq host n) =>
    if !s.mayClose c then .next s
    else
      match Table.get? (s.ctx c).rings n with
      | none => .next s
      | some r =>
        let data := s.ringData c r
        let s := s.liveTouch c (r.base + r.newest.toNat % r.slots * r.stride) r.stride
        let img := s.exportHeader c n r data ++ data
        .next (((s.hostPut (s.ringPort (.ctx c)) host img).cWrap c Off.CTX_BYTES_PCIE 63 0 img.length).closeCmd c seq 5 0 img.length)
  | _ => .next s

/-! ## The aperture -/

/-- The context address of offset `off` of BAR4. -/
def State.aperAddr (s : State) (c off : Nat) : Nat := s.cf c Off.CTX_APERTURE 15 0 * 2 ^ 32 + off

/-- A range of context addresses cut at the 64 KiB pages. -/
def pagePieces (va n : Nat) : List (Nat × Nat) :=
  (List.range (if n = 0 then 0 else (va + n - 1) / 65536 - va / 65536 + 1)).map fun i =>
    let lo := max va ((va / 65536 + i) * 65536)
    (lo, min (va + n) ((va / 65536 + i + 1) * 65536) - lo)

/-- The DPA that a host access to a context address reaches: copy LIVE of a shadow page, then translation (R233, R381). -/
def State.aperXlate (s : State) (c va : Nat) (write : Bool) : Option Nat := (s.redirect c va false).bind fun a => s.xlate c a write

/-- An access of `n` bytes reaches memory: outside DORMANT, every Thatch die of the context's set ready, no translation fault (R381, R410,
table *Ready times*). -/
def State.aperOk (s : State) (c va n : Nat) (write : Bool) : Bool :=
  decide (s.pstate ≠ 3)
    && ((stacksOf (s.ctx c).set.1 (s.ctx c).set.2).all fun t => (s.die (thatchDie t)).ready)
    && ((pagePieces va n).all fun p => (s.aperXlate c p.1 write).isSome)

/-- What a read of BAR4 returns: its bytes, zeros where it does not reach memory, and the EP bit (R381). -/
def State.aperData (s : State) (c off n : Nat) : List Byte × Bool :=
  let va := s.aperAddr c off
  if s.aperOk c va n false then
    let l := (pagePieces va n).map fun p =>
      match s.aperXlate c p.1 false with
      | none => ([], false)
      | some a => s.devRead a p.2
    (l.flatMap (·.1), l.any (·.2))
  else (List.replicate n 0, false)

/-- What a host port's read of BAR4 of a virtual function returns: 0 where the context is bound to the other port (R371, R381). -/
def State.aperRead (s : State) (portB : Bool) (n off len : Nat) : List Byte × Bool :=
  if (s.ctx n).boundB = portB ∧ s.portUsable portB then s.aperData n off len else (List.replicate len 0, false)

/-- The bytes of an access counted for the VF (R397). -/
def aperBytes (op : AperOp) : Nat :=
  match op with
  | .read n => n
  | .write data => data.length

/-- The access writes. -/
def aperWrites (op : AperOp) : Bool :=
  match op with
  | .read _ => false
  | .write _ => true

/-- The bytes of a host write stored, page by page. -/
def State.aperStore (s : State) (c va : Nat) (data : List Byte) : State :=
  forAll (pagePieces va data.length) (fun (p : Nat × Nat) t =>
    match s.aperXlate c p.1 true with
    | none => t
    | some a => t.devWrite a ((data.drop (p.1 - va)).take p.2) false) s

/-- The entries that an access uses are kept in the translation cache (R379). -/
def State.aperFill (s : State) (c va n : Nat) : State :=
  forAll (pagePieces va n) (fun (p : Nat × Nat) t => t.fillTlb c ((s.redirect c p.1 false).getD p.1)) s

/-- What a host read of BAR4 does beside returning its bytes (R201, R209, R214). -/
def State.aperTouch (s : State) (c va n : Nat) : State :=
  forAll (pagePieces va n) (fun (p : Nat × Nat) t =>
    match s.aperXlate c p.1 false with
    | none => t
    | some a => t.devTouch a p.2) s

/-- APERTURE_ACCESS (R371, R381, R410): an access that does not reach memory only counts in CTX_APERTURE.ERR. -/
def execApertureAccess (portB : Bool) (n off : Nat) (op : AperOp) (s : State) : Out :=
  if n < 1024 ∧ (s.ctx n).boundB = portB ∧ s.portUsable portB ∧ off + aperBytes op ≤ 2 ^ 32 then
    let va := s.aperAddr n off
    let s0 := s.cWrap n Off.CTX_BYTES_PCIE 63 0 (aperBytes op)
    if s0.aperOk n va (aperBytes op) (aperWrites op) then
      match op with
      | .read len => .next ((s0.aperFill n va len).aperTouch n va len)
      | .write data => .next ((s0.aperFill n va data.length).aperStore n va data)
    else .next (s0.cSat n Off.CTX_APERTURE 47 16 1)
  else .next s

end Sys2Proof.Machine
end

