-- ==== Sys2Proof/Machine/Dispatch.lean ====
section
/-! DEFINITION. One arm for each command: a direct call of its meaning. -/

namespace Sys2Proof.Machine

/-- The effect of a command on everything but the queue. -/
def exec (i : Instr) (s : State) : Host.Outcome State Fault Refusal :=
  match i with
  | .pwrEnRise => Sys2Proof.Machine.execPwrEnRise s
  | .pwrEnFall => Sys2Proof.Machine.execPwrEnFall s
  | .pkgPwrgd => Sys2Proof.Machine.execPkgPwrgd s
  | .perstMgmtAssert => Sys2Proof.Machine.execPerstMgmtAssert s
  | .perstOtherAssert => Sys2Proof.Machine.execPerstOtherAssert s
  | .perstDeassert portB => Sys2Proof.Machine.execPerstDeassert portB s
  | .flrVf portB n => Sys2Proof.Machine.execFlrVf portB n s
  | .flrPf portB => Sys2Proof.Machine.execFlrPf portB s
  | .supplySample tabs => Sys2Proof.Machine.execSupplySample tabs s
  | .sagLevelEnter level => Sys2Proof.Machine.execSagLevelEnter level s
  | .sagLevelLeave level => Sys2Proof.Machine.execSagLevelLeave level s
  | .selfRefreshEnter => Sys2Proof.Machine.execSelfRefreshEnter s
  | .thermalTrip die temp => Sys2Proof.Machine.execThermalTrip die temp s
  | .thermalCrit die => Sys2Proof.Machine.execThermalCrit die s
  | .thermClear src => Sys2Proof.Machine.execThermClear src s
  | .clkDivWrite src div => Sys2Proof.Machine.execClkDivWrite src div s
  | .clkRestore src => Sys2Proof.Machine.execClkRestore src s
  | .dividerChange => Sys2Proof.Machine.execDividerChange s
  | .sagRPrefetch src => Sys2Proof.Machine.execSagRPrefetch src s
  | .sagRResume src => Sys2Proof.Machine.execSagRResume src s
  | .sagClrMax src => Sys2Proof.Machine.execSagClrMax src s
  | .pstateActive src => Sys2Proof.Machine.execPstateActive src s
  | .pstateHold src => Sys2Proof.Machine.execPstateHold src s
  | .pstateNap src => Sys2Proof.Machine.execPstateNap src s
  | .pstateDormant src => Sys2Proof.Machine.execPstateDormant src s
  | .pstateDone => Sys2Proof.Machine.execPstateDone s
  | .pkgResetWrite src code go => Sys2Proof.Machine.execPkgResetWrite src code go s
  | .warmResetEnd => Sys2Proof.Machine.execWarmResetEnd s
  | .ridgeBootDone ridgeB => Sys2Proof.Machine.execRidgeBootDone ridgeB s
  | .thatchReady t => Sys2Proof.Machine.execThatchReady t s
  | .eaveReady e => Sys2Proof.Machine.execEaveReady e s
  | .rafterReady r spares failed => Sys2Proof.Machine.execRafterReady r spares failed s
  | .portUp port => Sys2Proof.Machine.execPortUp port s
  | .edgeTrained die dir => Sys2Proof.Machine.execEdgeTrained die dir s
  | .discoveryWave die dir kind => Sys2Proof.Machine.execDiscoveryWave die dir kind s
  | .dieTableBuild => Sys2Proof.Machine.execDieTableBuild s
  | .firmwareActivation => Sys2Proof.Machine.execFirmwareActivation s
  | .fwact src => Sys2Proof.Machine.execFwact src s
  | .firmwareActivationEnd => Sys2Proof.Machine.execFirmwareActivationEnd s
  | .pldmFirmwareUpdate ridgeB part => Sys2Proof.Machine.execPldmFirmwareUpdate ridgeB part s
  | .launchReady c => Sys2Proof.Machine.execLaunchReady c s
  | .launchEnd c => Sys2Proof.Machine.execLaunchEnd c s
  | .nop c t => Sys2Proof.Machine.execNop c t s
  | .hold c t => Sys2Proof.Machine.execHold c t s
  | .signal c t => Sys2Proof.Machine.execSignal c t s
  | .repeatEntry c t => Sys2Proof.Machine.execRepeatEntry c t s
  | .endEntry c t => Sys2Proof.Machine.execEndEntry c t s
  | .mark c t => Sys2Proof.Machine.execMark c t s
  | .planRefillArrive c t id => Sys2Proof.Machine.execPlanRefillArrive c t id s
  | .deadlockSuspect c t => Sys2Proof.Machine.execDeadlockSuspect c t s
  | .mma c t => Sys2Proof.Machine.execMma c t s
  | .mmaSparse c t => Sys2Proof.Machine.execMmaSparse c t s
  | .conv c t => Sys2Proof.Machine.execConv c t s
  | .mmaColl c t => Sys2Proof.Machine.execMmaColl c t s
  | .vec c t => Sys2Proof.Machine.execVec c t s
  | .sfu c t => Sys2Proof.Machine.execSfu c t s
  | .normStat c t => Sys2Proof.Machine.execNormStat c t s
  | .softmax c t => Sys2Proof.Machine.execSoftmax c t s
  | .upd c t => Sys2Proof.Machine.execUpd c t s
  | .rngFill c t => Sys2Proof.Machine.execRngFill c t s
  | .gnsStat c t => Sys2Proof.Machine.execGnsStat c t s
  | .streamIn c t => Sys2Proof.Machine.execStreamIn c t s
  | .streamOut c t => Sys2Proof.Machine.execStreamOut c t s
  | .assign c t => Sys2Proof.Machine.execAssign c t s
  | .slotGather c t => Sys2Proof.Machine.execSlotGather c t s
  | .slotScatter c t => Sys2Proof.Machine.execSlotScatter c t s
  | .clear c t => Sys2Proof.Machine.execClear c t s
  | .send c t => Sys2Proof.Machine.execSend c t s
  | .sendRetry c t ep => Sys2Proof.Machine.execSendRetry c t ep s
  | .recv c t => Sys2Proof.Machine.execRecv c t s
  | .combine c t => Sys2Proof.Machine.execCombine c t s
  | .messageArrival c id => Sys2Proof.Machine.execMessageArrival c id s
  | .ackArrival c id => Sys2Proof.Machine.execAckArrival c id s
  | .combineSum c t ep => Sys2Proof.Machine.execCombineSum c t ep s
  | .qpush c t => Sys2Proof.Machine.execQpush c t s
  | .qpop c t => Sys2Proof.Machine.execQpop c t s
  | .verdict c t => Sys2Proof.Machine.execVerdict c t s
  | .commitIf c t => Sys2Proof.Machine.execCommitIf c t s
  | .transferAccept c id => Sys2Proof.Machine.execTransferAccept c id s
  | .transferArrival c id => Sys2Proof.Machine.execTransferArrival c id s
  | .unitOperationComplete c t u => Sys2Proof.Machine.execUnitOperationComplete c t u s
  | .queueWordWrite c link id => Sys2Proof.Machine.execQueueWordWrite c link id s
  | .packetArrival c link => Sys2Proof.Machine.execPacketArrival c link s
  | .queueFlush src c link => Sys2Proof.Machine.execQueueFlush src c link s
  | .collChunkComplete c inst t => Sys2Proof.Machine.execCollChunkComplete c inst t s
  | .packageStageEnd c slot => Sys2Proof.Machine.execPackageStageEnd c slot s
  | .voteSend c slot => Sys2Proof.Machine.execVoteSend c slot s
  | .vote f => Sys2Proof.Machine.execVote f s
  | .decide f => Sys2Proof.Machine.execDecide f s
  | .checkpointDone c bytes => Sys2Proof.Machine.execCheckpointDone c bytes s
  | .checkpointTrigger c cause die => Sys2Proof.Machine.execCheckpointTrigger c cause die s
  | .checkpointTimer c => Sys2Proof.Machine.execCheckpointTimer c s
  | .mirror f => Sys2Proof.Machine.execMirror f s
  | .mirrorAck f => Sys2Proof.Machine.execMirrorAck f s
  | .rebuildFrame f => Sys2Proof.Machine.execRebuildFrame f s
  | .stage f => Sys2Proof.Machine.execStage f s
  | .coll f => Sys2Proof.Machine.execColl f s
  | .ring f => Sys2Proof.Machine.execRing f s
  | .ingest f => Sys2Proof.Machine.execIngest f s
  | .guest f => Sys2Proof.Machine.execGuest f s
  | .mgmt f => Sys2Proof.Machine.execMgmt f s
  | .relayed f => Sys2Proof.Machine.execRelayed f s
  | .linkctl f => Sys2Proof.Machine.execLinkctl f s
  | .ptpFrame port synchronised => Sys2Proof.Machine.execPtpFrame port synchronised s
  | .pauseFrame port prio quanta => Sys2Proof.Machine.execPauseFrame port prio quanta s
  | .pauseRepeat port prio => Sys2Proof.Machine.execPauseRepeat port prio s
  | .frameTransmit link cls => Sys2Proof.Machine.execFrameTransmit link cls s
  | .replayTimer link cls => Sys2Proof.Machine.execReplayTimer link cls s
  | .linkctlTimer link => Sys2Proof.Machine.execLinkctlTimer link s
  | .linkSilenceTimeout link => Sys2Proof.Machine.execLinkSilenceTimeout link s
  | .portSignalLoss port => Sys2Proof.Machine.execPortSignalLoss port s
  | .linkMove link => Sys2Proof.Machine.execLinkMove link s
  | .replayRateWindow e => Sys2Proof.Machine.execReplayRateWindow e s
  | .ppsSecond => Sys2Proof.Machine.execPpsSecond s
  | .ptpSelect src value => Sys2Proof.Machine.execPtpSelect src value s
  | .eavPctlWrite src port value => Sys2Proof.Machine.execEavPctlWrite src port value s
  | .eavWrrWrite src port value => Sys2Proof.Machine.execEavWrrWrite src port value s
  | .nodeWrite src node => Sys2Proof.Machine.execNodeWrite src node s
  | .flitCrcFail die dir strand => Sys2Proof.Machine.execFlitCrcFail die dir strand s
  | .strandFail die dir strand => Sys2Proof.Machine.execStrandFail die dir strand s
  | .edgeDown die dir => Sys2Proof.Machine.execEdgeDown die dir s
  | .strandRetire src die dir mask => Sys2Proof.Machine.execStrandRetire src die dir mask s
  | .strandWarnWindow die dir => Sys2Proof.Machine.execStrandWarnWindow die dir s
  | .dieClockSupplyLoss die => Sys2Proof.Machine.execDieClockSupplyLoss die s
  | .fenceNotice die cause => Sys2Proof.Machine.execFenceNotice die cause s
  | .takeover => Sys2Proof.Machine.execTakeover s
  | .takeoverComplete => Sys2Proof.Machine.execTakeoverComplete s
  | .guestRequest site req => Sys2Proof.Machine.execGuestRequest site req s
  | .guestAdmit site => Sys2Proof.Machine.execGuestAdmit site s
  | .overpower site => Sys2Proof.Machine.execOverpower site s
  | .sitePowerOn src site => Sys2Proof.Machine.execSitePowerOn src site s
  | .memoryRead c id k => Sys2Proof.Machine.execMemoryRead c id k s
  | .memoryWrite c id k => Sys2Proof.Machine.execMemoryWrite c id k s
  | .eccReread stack sector => Sys2Proof.Machine.execEccReread stack sector s
  | .ceRateWindow t => Sys2Proof.Machine.execCeRateWindow t s
  | .atomicApply c id k => Sys2Proof.Machine.execAtomicApply c id k s
  | .refreshRateChange t temp => Sys2Proof.Machine.execRefreshRateChange t temp s
  | .refreshTick t errors => Sys2Proof.Machine.execRefreshTick t errors s
  | .bandWrite src kinds => Sys2Proof.Machine.execBandWrite src kinds s
  | .copyIn t eng n data => Sys2Proof.Machine.execCopyIn t eng n data s
  | .copyOut t eng n => Sys2Proof.Machine.execCopyOut t eng n s
  | .fillConst t eng n => Sys2Proof.Machine.execFillConst t eng n s
  | .fillRng t eng n => Sys2Proof.Machine.execFillRng t eng n s
  | .test t eng n failing => Sys2Proof.Machine.execTest t eng n failing s
  | .verify t eng n => Sys2Proof.Machine.execVerify t eng n s
  | .scrub t eng n => Sys2Proof.Machine.execScrub t eng n s
  | .restore t eng n image => Sys2Proof.Machine.execRestore t eng n image s
  | .rebuild t eng n => Sys2Proof.Machine.execRebuild t eng n s
  | .repair t eng ok => Sys2Proof.Machine.execRepair t eng ok s
  | .liggerCommandDone t eng => Sys2Proof.Machine.execLiggerCommandDone t eng s
  | .liggerResume src t eng => Sys2Proof.Machine.execLiggerResume src t eng s
  | .liggerAbort src t eng => Sys2Proof.Machine.execLiggerAbort src t eng s
  | .doorbell src ring tail => Sys2Proof.Machine.execDoorbell src ring tail s
  | .loadPlan c => Sys2Proof.Machine.execLoadPlan c s
  | .loadPlanComplete c => Sys2Proof.Machine.execLoadPlanComplete c s
  | .launchStep c => Sys2Proof.Machine.execLaunchStep c s
  | .stageLinks c => Sys2Proof.Machine.execStageLinks c s
  | .versionRings c => Sys2Proof.Machine.execVersionRings c s
  | .group src => Sys2Proof.Machine.execGroup src s
  | .reform src => Sys2Proof.Machine.execReform src s
  | .route src => Sys2Proof.Machine.execRoute src s
  | .routePrefix src => Sys2Proof.Machine.execRoutePrefix src s
  | .rollback c => Sys2Proof.Machine.execRollback c s
  | .context src => Sys2Proof.Machine.execContext src s
  | .bind src => Sys2Proof.Machine.execBind src s
  | .snapshot c => Sys2Proof.Machine.execSnapshot c s
  | .snapshotComplete c => Sys2Proof.Machine.execSnapshotComplete c s
  | .exportRing c => Sys2Proof.Machine.execExportRing c s
  | .exportComplete c => Sys2Proof.Machine.execExportComplete c s
  | .fence ring src => Sys2Proof.Machine.execFence ring src s
  | .flush c => Sys2Proof.Machine.execFlush c s
  | .cancel c => Sys2Proof.Machine.execCancel c s
  | .cplHeadWrite src c head => Sys2Proof.Machine.execCplHeadWrite src c head s
  | .cplBaseWrite src c base => Sys2Proof.Machine.execCplBaseWrite src c base s
  | .resAck src c seq => Sys2Proof.Machine.execResAck src c seq s
  | .cmdRingConfigWrite src c isCtl value => Sys2Proof.Machine.execCmdRingConfigWrite src c isCtl value s
  | .evlogConfigWrite src c isCtl value => Sys2Proof.Machine.execEvlogConfigWrite src c isCtl value s
  | .evlogReadWrite src c read => Sys2Proof.Machine.execEvlogReadWrite src c read s
  | .evlogClrLost src c => Sys2Proof.Machine.execEvlogClrLost src c s
  | .trainingRegisterWrite src c which value => Sys2Proof.Machine.execTrainingRegisterWrite src c which value s
  | .xlateInv src c => Sys2Proof.Machine.execXlateInv src c s
  | .ctxReset src c => Sys2Proof.Machine.execCtxReset src c s
  | .contextResetDone c => Sys2Proof.Machine.execContextResetDone c s
  | .acctClr src c => Sys2Proof.Machine.execAcctClr src c s
  | .apertureAccess portB n off op => Sys2Proof.Machine.execApertureAccess portB n off op s
  | .energyInterval readings => Sys2Proof.Machine.execEnergyInterval readings s
  | .marginSample r slack => Sys2Proof.Machine.execMarginSample r slack s
  | .epoch src r => Sys2Proof.Machine.execEpoch src r s
  | .marginEpochEnd r monitors tiles => Sys2Proof.Machine.execMarginEpochEnd r monitors tiles s
  | .voffWrite src r steps => Sys2Proof.Machine.execVoffWrite src r steps s
  | .tileRetire src r tile => Sys2Proof.Machine.execTileRetire src r tile s
  | .schedClrMiss src c => Sys2Proof.Machine.execSchedClrMiss src c s
  | .schedClrSlip src c => Sys2Proof.Machine.execSchedClrSlip src c s
  | .schedClrWait src c => Sys2Proof.Machine.execSchedClrWait src c s
  | .schedClrSusp src c => Sys2Proof.Machine.execSchedClrSusp src c s
  | .arithClrSat src c => Sys2Proof.Machine.execArithClrSat src c s
  | .arithClrGate src c => Sys2Proof.Machine.execArithClrGate src c s
  | .arithClrPoison src c => Sys2Proof.Machine.execArithClrPoison src c s
  | .sfuClrMasked src c => Sys2Proof.Machine.execSfuClrMasked src c s
  | .sfuClrNan src c => Sys2Proof.Machine.execSfuClrNan src c s
  | .slotClrOverflow src c => Sys2Proof.Machine.execSlotClrOverflow src c s
  | .slotClrEmpty src c => Sys2Proof.Machine.execSlotClrEmpty src c s
  | .pipeClrQcount src c => Sys2Proof.Machine.execPipeClrQcount src c s
  | .pipeClrChan src c => Sys2Proof.Machine.execPipeClrChan src c s
  | .memClrEcc src t => Sys2Proof.Machine.execMemClrEcc src t s
  | .memClrWin src t => Sys2Proof.Machine.execMemClrWin src t s
  | .ctxMemClrPoison src c => Sys2Proof.Machine.execCtxMemClrPoison src c s
  | .trainClrSkip src c => Sys2Proof.Machine.execTrainClrSkip src c s
  | .collClrSts src c => Sys2Proof.Machine.execCollClrSts src c s
  | .collClrChunks src c => Sys2Proof.Machine.execCollClrChunks src c s
  | .collClrStale src c => Sys2Proof.Machine.execCollClrStale src c s
  | .eavClrPorts src e => Sys2Proof.Machine.execEavClrPorts src e s
  | .eavClrDrop src e => Sys2Proof.Machine.execEavClrDrop src e s
  | .eavClrRelay src e => Sys2Proof.Machine.execEavClrRelay src e s
  | .eavClrReroute src e => Sys2Proof.Machine.execEavClrReroute src e s
  | .resClrMirwait src c => Sys2Proof.Machine.execResClrMirwait src c s
  | .resClrCkpt src c => Sys2Proof.Machine.execResClrCkpt src c s
  | .clrErr src addr => Sys2Proof.Machine.execClrErr src addr s
  | .registerWrite src addr size value => Sys2Proof.Machine.execRegisterWrite src addr size value s
  | .launchT0 c => Sys2Proof.Machine.execLaunchT0 c s
  | .queueSpaceFreed c link => Sys2Proof.Machine.execQueueSpaceFreed c link s
  | .flitReplayCaughtUp die dir strand => Sys2Proof.Machine.execFlitReplayCaughtUp die dir strand s
  | .pauseExpiry port prio => Sys2Proof.Machine.execPauseExpiry port prio s
  | .voffMove r => Sys2Proof.Machine.execVoffMove r s
  | .tileRetireDone r => Sys2Proof.Machine.execTileRetireDone r s
  | .hostLinkUp portB width reversed inverted => Sys2Proof.Machine.execHostLinkUp portB width reversed inverted s
  | .configurationRequest portB => Sys2Proof.Machine.execConfigurationRequest portB s
  | .testAccessPort op => Sys2Proof.Machine.execTestAccessPort op s
  | .dynamicAddressAssignment ridgeB addr => Sys2Proof.Machine.execDynamicAddressAssignment ridgeB addr s
  | .otherEthertypeFrame port fcsOk etype => Sys2Proof.Machine.execOtherEthertypeFrame port fcsOk etype s
  | .temperatureSample die temp => Sys2Proof.Machine.execTemperatureSample die temp s

end Sys2Proof.Machine
end

