-- ==== Sys2Proof/Machine/Tick.lean ====
section
/-! DEFINITION. What passes while no command waits: the rest of one cycle of CLK_C (R37, R444; log 2), in the order of R444, and the
beginning of the next. -/

namespace Sys2Proof.Machine

/-- The state after a command that comes of itself. -/
def State.run (s : State) (i : Instr) : State := Out.stateOr s (exec i s)

/-- The engines of a tile that execute an ASSIGN. -/
def Tile.assigns (x : Tile) : List Nat := x.streams.map (·.1)

/-- Step 1 of R444 on a tile: the unit operations whose latency ends now complete, output tiles that are ready are written, and an ASSIGN
in its last cycle gives its token (R54, R104, R159). -/
def State.endUnits (s : State) (c t : Nat) : State :=
  let units : List UnitKind := [.matrix, .vector, .special] ++ (s.tile c t).assigns.map .stream
  let s1 := forAll units (fun u z => z.run (.unitOperationComplete c t u)) s
  forAll (s1.tile c t).assigns (fun k z => z.lastCycleToken c t k) (s1.writesDue c t)

/-- The endpoints of a tile whose time has come: a COMBINE's sum is written in the last of its cycles (R195), and a negatively acknowledged
message is tried again RGAP cycles after its last attempt (R90). -/
def State.endpointsDue (s : State) (c t : Nat) : State :=
  let x := s.tile c t
  let s1 := forAll (x.rx.filter (·.2.sumAt.isSome)) (fun e z => z.run (.combineSum c t e.1)) s
  forAll (x.tx.filter (·.2.nackAt.isSome)) (fun e z => z.run (.sendRetry c t e.1)) s1

/-- The command that issues an entry of a class (table *Operation classes*). -/
def issueCommand (c t : Nat) (e : EntryBits) : Option Instr :=
  match eClass e with
  | 0x00 => some (.nop c t)
  | 0x01 => some (.hold c t)
  | 0x02 => some (.signal c t)
  | 0x03 => some (.repeatEntry c t)
  | 0x04 => some (.endEntry c t)
  | 0x10 => some (.mma c t)
  | 0x11 => some (.mmaSparse c t)
  | 0x12 => some (.conv c t)
  | 0x18 => some (.mmaColl c t)
  | 0x20 => some (.vec c t)
  | 0x21 => some (.sfu c t)
  | 0x22 => some (.normStat c t)
  | 0x23 => some (.softmax c t)
  | 0x28 => some (.upd c t)
  | 0x30 => some (.streamIn c t)
  | 0x31 => some (.streamOut c t)
  | 0x32 => some (match slotMode e with
    | 0 => .assign c t
    | 1 => .slotGather c t
    | 2 => .slotScatter c t
    | _ => .clear c t)
  | 0x38 => some (.send c t)
  | 0x39 => some (.recv c t)
  | 0x3A => some (.combine c t)
  | 0x40 => some (.qpush c t)
  | 0x41 => some (.qpop c t)
  | 0x48 => some (.verdict c t)
  | 0x49 => some (.commitIf c t)
  | 0x50 => some (.rngFill c t)
  | 0x58 => some (.gnsStat c t)
  | 0x60 => some (.mark c t)
  | _ => none

/-- Step 4 of R444 on a tile: its due entry issues; a hold past its limit and a bank that two operations name are faults of this cycle
(R44, R45, R61, R63). -/
def State.issueTile (s : State) (c t : Nat) : State :=
  let s1 := match (s.dueEntry c t).bind (issueCommand c t) with
    | none => s
    | some i => s.run i
  (s1.run (.deadlockSuspect c t)).clashFault c t

/-- A state change on every tile of every context. -/
def State.allTiles (s : State) (f : State → Nat → Nat → State) : State :=
  forAll s.ctxs (fun x u => forAll x.2.tiles (fun y z => f z x.1 y.1) u) s

/-- The launches that become ready or reach T₀ in this cycle (R384, R410). -/
def State.launchesDue (s : State) : State :=
  forAll s.ctxs (fun x u => (u.run (.launchReady x.1)).run (.launchT0 x.1)) s

/-- The clock crossings of queues that end in this cycle at the latest (table *Clock-crossing timing*). -/
def State.crossingsDue (s : State) : State :=
  forAll s.ctxs (fun x u => forAll x.2.queues (fun q z =>
    let z1 := if q.2.written.any fun p => u.crossedBy p.enteredAt ≤ u.now then z.run (.packetArrival x.1 q.1) else z
    if q.2.reads.any fun r => u.crossedBy r.1 ≤ u.now then z1.run (.queueSpaceFreed x.1 q.1) else z1) u) s

/-- Refreshes of the stacks, windows of one second, and pauses to be repeated, that fall in this cycle (R207, R213, R300, R305, R321). -/
def State.timersDue (s : State) : State :=
  let s1 := forAll (List.range 16) (fun t u => (u.run (.refreshTick t [])).run (.ceRateWindow t)) s
  let s2 := forAll (List.range 8) (fun e u => u.run (.replayRateWindow e)) s1
  let s3 := forAll (List.range 64) (fun d u => forAll (List.range 4) (fun dir z => z.run (.strandWarnWindow d dir)) u) s2
  forAll s3.ports (fun p u => forAll p.2.pausedPeer (fun x z => z.run (.pauseRepeat p.1 x.1)) u) s3

/-- Step 3 of R444: decisions that have reached a context are applied, unless a sequencer has issued in this cycle already (R248, R249). -/
def State.decisionsDue (s : State) : State :=
  if s.cycle.issued then s else forAll s.ctxs (fun x u => if x.2.due = [] then u else u.applyDue x.1) s

/-- The tile-cycles in which a matrix array is occupied (RFT_SAT_ARRAY, R443). -/
def State.countArrays (s : State) : State :=
  s.allTiles fun u c t => if (u.tile c t).matrix.isSome then u.arrayBusy c t else u

/-- The rest of the present cycle: clock crossings, launches, step 1, step 3, step 4, then the faults detected in it and the records of its
completions (R62, R389, R444). -/
def State.endCycle (s : State) : State :=
  ((s.timersDue.crossingsDue.launchesDue.allTiles fun u c t => (u.endUnits c t).endpointsDue c t).decisionsDue.allTiles
    fun u c t => u.issueTile c t).countArrays.takeFaults.putRecords

/-- The next cycle begins: the time base counts, in every power state but OFF, whatever the divider (R37, R406, R408). A cycle of CLK_F, in
which R216 orders the atomics at a slice, is 8 / (the divider) cycles of CLK_C long. -/
def State.nextCycle (s : State) : State :=
  let sameFabric := decide ((s.now + 1) * effDiv s.eff / 8 = s.now * effDiv s.eff / 8)
  let s1 := { s with
    tb := s.tb + 1
    cycle := { Cycle.start with order := if sameFabric then s.cycle.order.filter (·.1.isStack) else [] } }
  if sameFabric then s1 else s1.countPorts.purlinCycle

/-- The commands that take effect at the beginning of a cycle. -/
def State.runLate (s : State) : State := forAll s.late (fun i u => u.run i) { s with late := [] }

/-- One cycle of CLK_C. -/
def State.tick (s : State) : State := if s.pwrgd then s.endCycle.nextCycle.runLate else s

end Sys2Proof.Machine
end

