-- ==== Sys2Proof/Safety.lean ====
section
/-! DEFINITION. The terms claims are stated in: the invariant of the machine, what a command leaves alone, and the bounds that the
manual sets on the results it leaves open. -/

namespace Sys2Proof.Machine

/-! ## The invariant -/

/-- The registers in canonical form: addresses strictly rising, none listed with its reset value. -/
def Registers.wf (t : Table Word) : Bool :=
  decide (t.Pairwise fun a b => a.1 < b.1) && t.all fun e => decide (e.2 ≠ regReset e.1)

/-- The ways of a cache set as a slice keeps them: at most 16 lines, all of the set, each once, with whole dirty sectors, each once
(R214). -/
def setOk (line : Nat) (ws : List Way) : Prop :=
  ws.length ≤ 16 ∧ (ws.map (·.line)).Nodup
    ∧ ∀ w ∈ ws, w.line % 65536 = line % 65536 ∧ (w.dirty.map (·.1)).Nodup ∧ ∀ d ∈ w.dirty, d.1 < 4 ∧ d.2.1.length = 64

/-- The shared cache in canonical form: sets strictly rising by key, none empty, each as a slice keeps it. -/
def Cache.wf (t : Table (List Way)) : Prop := Table.wf [] t = true ∧ ∀ e ∈ t, setOk e.1 e.2

/-- What every step keeps: memory, scratchpads, host memory and registers in canonical form, so that equal contents are equal data; the
contexts and dies too; cache sets as a slice keeps them (R214); and a power state of the table *Power states* (R409). -/
structure State.Inv (s : State) : Prop where
  mem : Memory.wf s.mem = true
  scratch : Memory.wf s.scratch = true
  hostMem : Memory.wf s.hostMem = true
  cache : Cache.wf s.cache
  regs : Registers.wf s.regs = true
  ctxs : Table.wf Ctx.init s.ctxs = true
  dies : Table.wf Die.init s.dies = true
  pstate : s.pstate ≤ 3
  psTarget : ∀ t, s.psTarget = some t → t ≤ 3

/-! ## Completing -/

/-- The command answers a next state, of which `P` holds. -/
def Completes (i : Instr) (s : State) (P : State → Prop) : Prop := ∃ t, exec i s = .next t ∧ P t

/-- Nothing of a context's memory, of stacked memory, scratchpads or host memory differs between two states. -/
def sameMemory (s t : State) : Prop :=
  t.mem = s.mem ∧ t.poison = s.poison ∧ t.cache = s.cache ∧ t.scratch = s.scratch ∧ t.scratchPoison = s.scratchPoison
    ∧ t.hostMem = s.hostMem

/-- Every register but those of a list reads as before. -/
def sameRegsBut (l : List Nat) (s t : State) : Prop := ∀ a, homeAddr a ∉ l.map homeAddr → t.reg a = s.reg a

/-- Only registers differ between two states, and the record of what the present cycle has counted and raised. -/
def onlyRegs (s t : State) : Prop := t = { s with regs := t.regs, cycle := t.cycle }

/-- A host access of a source reaches the page that holds address `a` in the present cycle: no sequencer has issued in it (R444), the port of
the source works and the address is one the source may use, the Ridge is not in recovery (or the page is its own), the page is not
fenced and is ready (R371, R420, R426 to R429). -/
def WriteReaches (s : State) (src : HostSrc) (a : Nat) : Prop :=
  s.cycle.issued = false ∧ s.srcOk src a = true ∧ s.recoveryOk src a = true ∧ s.pageFenced a = false ∧ s.pageReady a (s.srcPort src) = true

/-- The register that counts the payload of a virtual function's accesses (R397); other sources have none. -/
def pcieOf (src : HostSrc) : List Nat :=
  match src with
  | .vf _ n => [ctxA n Off.CTX_BYTES_PCIE]
  | .pf _ => []
  | .mgmt => []

/-- `t` is `s` but for registers, and the registers outside a list, and outside the access count of the source, read as before. -/
def wroteRegs (src : HostSrc) (l : List Nat) (s t : State) : Prop := onlyRegs s t ∧ sameRegsBut (l ++ pcieOf src) s t

/-- A fault has been detected (R62): it stands among the faults of the present cycle, and nothing else differs between two states. -/
def Detected (f : PendFault) (s t : State) : Prop := f ∈ t.cycle.faults ∧ t = { s with cycle := { s.cycle with faults := t.cycle.faults } }

/-- The device has read memory between two states, for context `c` where it reads by context address: reads count on Thatch dies, change the order
of the ways, find errors and poison sectors (R201, R209 to R214), and fill the translation cache (R379). The bytes stay, and of contexts all else. -/
def Looked (c : Nat) (s t : State) : Prop :=
  t = { s with
      mem := t.mem, poison := t.poison, upsets := t.upsets, cache := t.cache, ceCount := t.ceCount, ctxs := t.ctxs, regs := t.regs, msix := t.msix
      cycle := { s.cycle with counted := t.cycle.counted, raised := t.cycle.raised } }
    ∧ (Memory.wf s.mem = true → t.mem = s.mem)
    ∧ (∀ k, k ≠ c → t.ctx k = s.ctx k) ∧ t.ctx c = { s.ctx c with tlb := (t.ctx c).tlb }
    ∧ ∀ k off, k < 1024 → off < 2 ^ 16 → t.reg (ctxA k off) = s.reg (ctxA k off)

/-! ## Frames of the sequencers -/

/-- Nothing but contexts differs between two states. -/
def onlyCtxs (s t : State) : Prop := t = { s with ctxs := t.ctxs }

/-- Nothing but context `c` differs between two states. -/
def onlyCtx (c : Nat) (s t : State) : Prop := onlyCtxs s t ∧ ∀ k, k ≠ c → t.ctx k = s.ctx k

/-- Nothing but tile `u` of context `c` and its transfers differ between two states; the transfers under way stay. -/
def onlyTile (c u : Nat) (s t : State) : Prop :=
  onlyCtx c s t
    ∧ t.ctx c = { s.ctx c with tiles := (t.ctx c).tiles, xfers := (t.ctx c).xfers, nextXfer := (t.ctx c).nextXfer }
    ∧ (∀ v, v ≠ u → t.tile c v = s.tile c v)
    ∧ (s.ctx c).nextXfer ≤ (t.ctx c).nextXfer ∧ ∀ id, id < (s.ctx c).nextXfer → t.xfer c id = s.xfer c id

/-- The state with what the issue of an entry records outside the tile: the trace record of a traced entry and of a MARK (R76), the slip
of a hold (R52), and that step 4 of R444 has begun. -/
def State.logged (s : State) (c t : Nat) (e : EntryBits) : State :=
  let slip := s.now - ((s.tile c t).planned + eOffset e)
  let s1 := if eTrace e ∨ eClass e = 0x60 then s.evlogPut (.ctx c) (s.traceRecord c t e slip) else s
  (if eIsHold e then s1.recordSlip c slip else s1).noteIssue

/-- Position, pass loops and sub-plan when position `p` comes next: a sub-plan or a pass that ends there is left (R81, R83). -/
def Tile.upNext (x : Tile) (p : Nat) : Nat × List Rep × Option (Nat × Nat) :=
  let q := match x.subEnd with
    | some (stop, resume) => if p = stop then (resume, none) else (p, some (stop, resume))
    | none => (p, none)
  let n := nextPos q.1 x.reps
  (n.1, n.2.1, q.2)

/-- An entry of tile `t` issued between two states and position `p` comes next: the sequencer's times and tokens (R44, R45, R49), its
position; of the rest of the machine only the records of the issue. -/
def Issued (c t : Nat) (e : EntryBits) (p : Nat) (s u : State) : Prop :=
  let x := s.tile c t
  let y := u.tile c t
  onlyTile c t (s.logged c t e) u
    ∧ y = { (if eIsHold e then x.consume e else x) with
        prevA := s.now, planned := x.planned + eOffset e, pos := y.pos, reps := y.reps, subEnd := y.subEnd, frames := y.frames,
        ptrSeg := y.ptrSeg }
    ∧ (y.pos, y.reps, y.subEnd) = x.upNext p

/-- A transfer issued between two states under the number that was next: what it moves, of what size and at what contracted rate, for which
engine and token counter; it is not yet accepted (R57). -/
def Started (c t : Nat) (engine ctr : Option Nat) (kind : XKind) (size rate : Nat) (segs : List Seg) (cache : Bool) (s u : State) : Prop :=
  ∃ x, u.xfer c (s.ctx c).nextXfer = some x ∧ x.tile = t ∧ x.engine = engine ∧ x.ctr = ctr ∧ x.kind = kind ∧ x.size = size ∧ x.rate = rate
    ∧ x.segs = segs ∧ x.cache = cache ∧ x.issuedAt = s.now ∧ x.acceptedAt = none ∧ x.deadline = none

/-- An entry issues a transfer to a stream engine: the transfer starts, and the entry issues and goes on to the next position. -/
def IssuesXfer (c t : Nat) (e : EntryBits) (k : Nat) (ctr : Option Nat) (kind : XKind) (size rate : Nat) (segs : List Seg) (cache : Bool)
    (s u : State) : Prop :=
  let p := (s.tile c t).pos
  Started c t (some k) ctr kind size rate segs cache s u
    ∧ Issued c t e (p + 1) (s.startXfer c t p (some k) ctr kind size rate segs cache) u

/-- The tokens in counter `k` of a tile. -/
def State.tokens (s : State) (c t k : Nat) : Nat := (Table.getD 0 (s.tile c t).tokens k).toNat

/-- The set of the slice of stack `t` that a stack-local address belongs to. -/
def State.cacheSet (s : State) (t l : Nat) : List Way := Table.getD [] s.cache (cacheKey t (l / 256))

/-! ## Commands of the rings -/

/-- Entry `e` at HEAD of the ring of context `c` may run now (R382, R383, R385, R401): the ring is served, no other context's command is taken
before it, the context has not faulted, the entry does not wait, is well formed and belongs to this ring. -/
def CtxTakes (s : State) (c : Nat) (e : Bits512) : Prop :=
  s.ringOpen (.ctx c) = true ∧ s.firstInLine c = true ∧ s.ringEntry (.ctx c) = some e ∧ (s.ctx c).phase = .normal ∧ s.entryWaits c e = false ∧ cmdOk e false = true
    ∧ strayParam e false = false

/-- Command `e` of the physical function waits first in a source and may run now (R382, R387). -/
def PfTakes (s : State) (src : PfSrc) (e : Bits512) : Prop := s.pfEntry src = some e ∧ cmdOk e true = true ∧ strayParam e true = false

/-- A step of the queue of commands stops nowhere: the machine meets no refusal (R31, R7). -/
def safeStep (s : State) : Prop := ∃ t, step s = .next t

/-! ## Bounds on special functions (R136) -/

/-- The real value of a finite exact value. -/
def FV.IsReal (v : FV) (r : ℝ) : Prop :=
  match v with
  | .fin neg m e => r = (if neg then -1 else 1) * (m : ℝ) * (2 : ℝ) ^ e
  | .nan => False
  | .inf _ => False

/-- The exact function of a code of the table *Functions* at `x` is `r` (R133). -/
def sfuExact (f : Nat) (x r : ℝ) : Prop :=
  match f with
  | 0 => r = Real.exp x
  | 1 => r = (2 : ℝ) ^ x
  | 2 => 0 < x ∧ r = Real.log x
  | 3 => x ≠ 0 ∧ r = 1 / x
  | 4 => 0 < x ∧ r = 1 / Real.sqrt x
  | 5 => 0 ≤ x ∧ r = Real.sqrt x
  | 6 => r = Real.tanh x
  | 7 => r = 1 / (1 + Real.exp (-x))
  | 8 => r = 0.5 * x * (1 + Real.tanh (Real.sqrt (2 / Real.pi) * (x + 0.044715 * x ^ 3)))
  | 9 => r = 0.5 * x * (1 + 2 / Real.sqrt Real.pi * ∫ t in (0 : ℝ)..(x / Real.sqrt 2), Real.exp (-t ^ 2))
  | 10 => r = x / (1 + Real.exp (-x))
  | 11 => r = Real.log (1 + Real.exp x)
  | 12 => r = 2 / Real.sqrt Real.pi * ∫ t in (0 : ℝ)..x, Real.exp (-t ^ 2)
  | _ => False

/-- ULPs that the table *Error bounds* allows a code, in halves. -/
def sfuUlps (f : Nat) : Nat :=
  match f with
  | 0 | 1 | 2 | 4 => 2
  | 3 | 5 => 1
  | 8 | 9 => 6
  | _ => 4

/-- `y` lies within the bound of R136 of the exact result `r`: an absolute error where `r` is tiny, else so many ULPs of `r`. -/
def withinBound (halves : Nat) (y r : ℝ) : Prop :=
  if |r| < (2 : ℝ) ^ (-100 : ℤ) then |y - r| ≤ (2 : ℝ) ^ (-126 : ℤ)
  else |y - r| ≤ halves / 2 * (2 : ℝ) ^ (max (Int.log 2 |r| - 23) (-149))

/-- What the manual requires of the results that Config leaves open: every finite result of a special function lies within its bound
(R136; log 20). -/
def SfuBounds : Prop :=
  ∀ (f : Nat) (x : F32) (xr yr r : ℝ), (f32val x).IsReal xr → (f32val (sfuFn f x)).IsReal yr → sfuExact f xr r →
    withinBound (sfuUlps f) yr r

/-- The bound of SIN and COS: two ULPs where the result is 2⁻⁴ or more, an absolute error below (R134, R136). -/
def SfuTrigBounds : Prop :=
  ∀ (p : Nat) (θ : F32) (tr ys yc : ℝ), (f32val θ).IsReal tr → (f32val (sfuTrigFn 13 p θ)).IsReal ys →
    (f32val (sfuTrigFn 14 p θ)).IsReal yc →
    (∀ y r : ℝ, (y = ys ∧ r = Real.sin (p * tr)) ∨ (y = yc ∧ r = Real.cos (p * tr)) →
      if |r| < (2 : ℝ) ^ (-4 : ℤ) then |y - r| ≤ (2 : ℝ) ^ (-27 : ℤ) else withinBound 4 y r)

end Sys2Proof.Machine
end

