-- ==== Sys2Proof/Certificates/Slice0/Obligations.lean ====
section
/-! DEFINITION. The statements for the provers, one for each row of OBLIGATIONS.json. `Completes i s P` says that the command answers a
next state of which `P` holds; a clause `u = s` for a command that is not enabled is the model's choice (log 1). -/

open Sys2Proof Sys2Proof.Machine

/-- The front command runs on the rest of the queue. On an empty queue one cycle of CLK_C passes (rests on R37): the rest of the present cycle,
the beginning of the next, and the commands that waited for it; in OFF nothing passes. That a step on an empty queue is such a cycle is the
model's choice (log 2). -/
def Obligations.StepRunsTheFrontCommand : Prop :=
  (∀ (s : State) (c : Instr) (r : List Instr), s.pending = c :: r → step s = exec c { s with pending := r })
  ∧ (∀ (s : State), s.pending = [] →
       (s.pwrgd = false → step s = .next s) ∧ (s.pwrgd = true → step s = .next s.endCycle.nextCycle.runLate))

/-- A command leaves the queue of waiting commands alone. Every command answers a next state in every state, but for the one access the manual
gives no effect: internal test chains after an authenticated unlock (rests on R31), which stop by name. -/
def Obligations.CommandsKeepTheQueueAndAnswer : Prop :=
  (∀ (c : Instr) (s t : State), s.Inv → exec c s = .next t → t.pending = s.pending)
  ∧ (∀ (c : Instr) (s : State),
       (c = .testAccessPort .internalChain ∧ s.tapUnlocked = true → exec c s = .refused .internalTestChain)
       ∧ (¬(c = .testAccessPort .internalChain ∧ s.tapUnlocked = true) → ∃ t, exec c s = .next t))

/-- Every step keeps the invariant: canonical memory, scratchpads, host memory, registers, contexts and dies, a legal power state. -/
def Obligations.StepKeepsInvariant : Prop :=
  ∀ (s t : State), s.Inv → step s = .next t → t.Inv

/-- The machine after reset meets the invariant. Package cold reset sets the time base to 0 (rests on R37), every register reads its reset
value (rests on R9), no command, context, launch or fault stands, every die is unready and none is fenced. -/
def Obligations.ResetMeetsInvariantAndValues : Prop :=
  (State.reset.Inv)
  ∧ (State.reset.tb = 0 ∧ (∀ a, State.reset.reg a = regReset (homeAddr a)) ∧ State.reset.pending = []
       ∧ (∀ c, State.reset.ctx c = Ctx.init) ∧ (∀ d, (State.reset.die d).ready = false ∧ (State.reset.die d).fenced = false)
       ∧ State.reset.pstate = 0 ∧ State.reset.roleB = false ∧ State.reset.mem = [] ∧ State.reset.scratch = [] ∧ State.reset.ligger = [])

/-- Every counter-clear row of a context window (rests on R68, R130, R152, R169, R231, R257, R286, R369): the registers it names read what the
present cycle alone has put into them, which is 0 where it has put nothing, and nothing else changes, but for the byte count of a virtual
function's own access (rests on R397). SCHED_CLR_SUSP (rests on R68): so do CTX_SUSP_LATE and the counts of CTX_PROMISE, the promise state
stays; nothing else changes. -/
def Obligations.ContextClearRows : Prop :=
  (∀ (s : State) (src : HostSrc) (c : Nat), c < 1024 →
       ∀ r ∈ [(Off.CTX_SCHED_CLR, Instr.schedClrMiss, [Off.CTX_CONTRACT_MISS]),
           (Off.CTX_SCHED_CLR, Instr.schedClrSlip, [Off.CTX_SLIP_MAX, Off.CTX_SLIP_CYCLES]),
           (Off.CTX_SCHED_CLR, Instr.schedClrWait, [Off.CTX_ACCEPT_WAIT]),
           (Off.CTX_ARITH_CLR, Instr.arithClrSat, [Off.CTX_MX_SAT]),
           (Off.CTX_ARITH_CLR, Instr.arithClrGate, [Off.CTX_ROWGATE]),
           (Off.CTX_ARITH_CLR, Instr.arithClrPoison, [Off.CTX_POISON_OPS]),
           (Off.CTX_SFU_CLR, Instr.sfuClrMasked, [Off.CTX_MASKED_ROWS]),
           (Off.CTX_SFU_CLR, Instr.sfuClrNan, [Off.CTX_SFU_NAN]),
           (Off.CTX_SLOT_CLR, Instr.slotClrOverflow, [Off.CTX_SLOT_OVERFLOW]),
           (Off.CTX_SLOT_CLR, Instr.slotClrEmpty, [Off.CTX_SLOT_EMPTY]),
           (Off.CTX_MEM_CLR, Instr.ctxMemClrPoison, [Off.CTX_MEM_POISON]),
           (Off.CTX_TRAIN_CLR, Instr.trainClrSkip, [Off.CTX_SKIP_COUNT]),
           (Off.CTX_COLL_CLR, Instr.collClrSts, [Off.CTX_COLL_STS]),
           (Off.CTX_COLL_CLR, Instr.collClrChunks, [Off.CTX_COLL_CHUNKS]),
           (Off.CTX_COLL_CLR, Instr.collClrStale, [Off.CTX_STALE_EPOCH]),
           (Off.CTX_RES_CLR, Instr.resClrMirwait, [Off.CTX_MIR_WAIT]),
           (Off.CTX_RES_CLR, Instr.resClrCkpt, [Off.CTX_CKPT_COUNT])],
         WriteReaches s src (ctxA c r.1) →
           Completes (r.2.1 src c) s fun t => (∀ o ∈ r.2.2, t.reg (ctxA c o) = s.cleared (ctxA c o)) ∧ wroteRegs src (r.2.2.map (ctxA c)) s t)
  ∧ (∀ (s : State) (src : HostSrc) (c : Nat), c < 1024 → WriteReaches s src (ctxA c Off.CTX_SCHED_CLR) →
       Completes (.schedClrSusp src c) s fun t =>
         t.reg (ctxA c Off.CTX_SUSP_LATE) = s.cleared (ctxA c Off.CTX_SUSP_LATE)
           ∧ t.cf c Off.CTX_PROMISE 15 8 = satPlus 8 0 (s.countedIn (ctxA c Off.CTX_PROMISE) 8)
           ∧ t.cf c Off.CTX_PROMISE 31 16 = satPlus 16 0 (s.countedIn (ctxA c Off.CTX_PROMISE) 16)
           ∧ t.cf c Off.CTX_PROMISE 1 0 = s.cf c Off.CTX_PROMISE 1 0
           ∧ wroteRegs src [ctxA c Off.CTX_SUSP_LATE, ctxA c Off.CTX_PROMISE] s t)
  ∧ (∀ (s : State) (a : Nat), (∀ lo, s.countedIn a lo = 0) → s.cleared a = 0)

/-- The clear rows of the Thatch and Eave pages (rests on R231, R314) and PG_CTL.CLR_ERR (rests on R433): the registers they name read what the
present cycle alone has put into them, and nothing else changes. The clear of a context's accounting counters (rests on R399): they read 0, and
nothing else changes. PIPE_CLR (rests on R197): QCOUNT clears the queue counters of the link that CTX_QSEL selects, CHAN the channel counters of
the endpoint that CTX_CHSEL selects, but for what the present cycle has counted; packets, armed endpoints and messages in progress stay. -/
def Obligations.PageAndPipeClearRows : Prop :=
  ((∀ (s : State) (src : HostSrc) (x : Nat),
       let th (o : Nat) : Nat := bar0 (thatchDie (x % 16)) 0 o
       let ea (o : Nat) : Nat := bar0 (eaveDie (x % 8)) 0 o
       let ports : List Nat := (List.range 8).flatMap fun i =>
         [Off.EAV_TXCNT, Off.EAV_REPLAY, Off.EAV_RXERR, Off.EAV_FECCNT].map fun o => portReg (8 * (x % 8) + i) o
       ∀ r ∈ [(th Off.THC_MEM_CLR, Instr.memClrEcc, [th Off.THC_ECC_CE, th Off.THC_ECC_UE]),
           (th Off.THC_MEM_CLR, Instr.memClrWin, [th Off.THC_WINDOW_ERR]),
           (ea Off.EAV_CLR, Instr.eavClrPorts, ports),
           (ea Off.EAV_CLR, Instr.eavClrDrop, [ea Off.EAV_DROP]),
           (ea Off.EAV_CLR, Instr.eavClrRelay, [ea Off.EAV_RELAY]),
           (ea Off.EAV_CLR, Instr.eavClrReroute, [ea Off.EAV_REROUTE])],
         WriteReaches s src r.1 → Completes (r.2.1 src x) s fun t => (∀ a ∈ r.2.2, t.reg a = s.cleared a) ∧ wroteRegs src r.2.2 s t)
     ∧ (∀ (s : State) (src : HostSrc) (die block : Nat) (k : PageKind), die < 64 → block < 64 → pageAt die block = some k → k ≠ .guest →
         WriteReaches s src (bar0 die block Off.PG_CTL) →
         Completes (.clrErr src (bar0 die block 0)) s fun t =>
           (∀ o ∈ [Off.PG_ERR, Off.PG_ERR_LOCK], t.reg (bar0 die block o) = s.cleared (bar0 die block o))
             ∧ wroteRegs src [bar0 die block Off.PG_ERR, bar0 die block Off.PG_ERR_LOCK] s t)
     ∧ (∀ (s : State) (src : HostSrc) (c : Nat), c < 1024 → WriteReaches s src Off.RDG_ACCT_CLR →
         Completes (.acctClr src c) s fun t =>
           (∀ i < 7, t.reg (ctxA c (0x200 + 8 * i)) = 0) ∧ wroteRegs src ((List.range 7).map fun i => ctxA c (0x200 + 8 * i)) s t))
  ∧ (∀ (s : State) (src : HostSrc) (c : Nat), c < 1024 → WriteReaches s src (ctxA c Off.CTX_PIPE_CLR) →
       (Completes (.pipeClrQcount src c) s fun t =>
         let l := s.cf c Off.CTX_QSEL 9 0
         t.queue c l = { s.queue c l with popped := s.leftIn (qcountKey c l) 0 32, parityFails := s.leftIn (qcountKey c l) 32 32 }
           ∧ (∀ j, j ≠ l → t.queue c j = s.queue c j) ∧ sameRegsBut (pcieOf src) s t ∧ sameMemory s t)
       ∧ Completes (.pipeClrChan src c) s fun t =>
         let u := s.cf c Off.CTX_CHSEL 16 0
         let k := s.cf c Off.CTX_CHSEL 20 17
         let rx := s.cf c Off.CTX_CHSEL 21 21 = 1
         let key := chanKey c u k rx
         (if rx then
             t.rxEp c u k = { s.rxEp c u k with msgs := s.leftIn key 0 32, nacks := s.leftIn key 32 16, reason := 0 } ∧ t.txEp c u k = s.txEp c u k
           else
             t.txEp c u k = { s.txEp c u k with
               msgs := s.leftIn key 0 32, nacks := s.leftIn key 32 16, reason := 0, outcome := 0, stall := s.leftIn key 53 32 }
               ∧ t.rxEp c u k = s.rxEp c u k)
           ∧ (∀ v, v ≠ u → t.tile c v = s.tile c v) ∧ sameRegsBut (pcieOf src) s t ∧ sameMemory s t)

/-- NOP, HOLD and a MARK without PRIV (rests on R44, R45, R49, R52, R76, R77): the due entry issues, a hold consumes its tokens, and the next
position comes next; nothing else changes but the records of the issue. A MARK with PRIV requests a checkpoint beside (rests on R359). SIGNAL
(rests on R80): beside the issue, one transfer of size 0 starts for each target, which carries the counter and the increment. -/
def Obligations.PlainEntriesAndSignalsIssue : Prop :=
  (∀ (s : State) (c t : Nat) (e : EntryBits),
       (s.dueClass c t 0x00 = some e → Completes (.nop c t) s fun u => Issued c t e ((s.tile c t).pos + 1) s u)
       ∧ (s.dueClass c t 0x01 = some e → Completes (.hold c t) s fun u => Issued c t e ((s.tile c t).pos + 1) s u)
       ∧ (s.dueClass c t 0x60 = some e → Completes (.mark c t) s fun u =>
           ∃ z, Issued c t e ((s.tile c t).pos + 1) s z ∧ u = if ePriv e then z.ckptTrigger c 3 else z))
  ∧ (∀ (s : State) (c t : Nat) (e : EntryBits), s.dueClass c t 0x02 = some e →
       Completes (.signal c t) s fun u => ∃ z, Issued c t e ((s.tile c t).pos + 1) s z ∧ onlyTile c t z u
         ∧ ∀ v ∈ signalTargets e, ∃ id, (z.ctx c).nextXfer ≤ id ∧ ∃ x, u.xfer c id = some x
           ∧ x.kind = .signal v (ef e 198 193) (ef e 192 185) ∧ x.size = 0 ∧ x.issuedAt = s.now ∧ x.acceptedAt = none)

/-- REPEAT (rests on R81): the body comes next, as pass 0 of the PASSES it runs; the loops around it stay. A pass loop (rests on R81): after
the last entry of a pass the body comes again with the next pass index; after the last pass the position after the body comes next and the
loop is gone. END (rests on R82, R397): the tile's sequencer stops and its tile-cycles are counted to this cycle; nothing else changes but
the records of the issue. -/
def Obligations.LoopsAndEnd : Prop :=
  (∀ (s : State) (c t : Nat) (e : EntryBits), s.dueClass c t 0x03 = some e →
       Completes (.repeatEntry c t) s fun u =>
         let x := s.tile c t
         let y := u.tile c t
         let body : Rep := ⟨x.pos + 1, ef e 215 205, ef e 204 185, 0⟩
         onlyTile c t (s.logged c t e) u ∧ y.prevA = s.now ∧ y.planned = x.planned + eOffset e ∧ y.tokens = x.tokens
           ∧ (0 < ef e 215 205 → x.subEnd = none → y.pos = x.pos + 1 ∧ y.reps = body :: x.reps ∧ y.subEnd = none))
  ∧ (∀ (r : Rep) (rest : List Rep),
       (r.index + 1 < r.passes → nextPos (r.first + r.len) (r :: rest) = (r.first, { r with index := r.index + 1 } :: rest, true))
       ∧ (r.passes ≤ r.index + 1 → nextPos (r.first + r.len) (r :: rest) = nextPos (r.first + r.len) rest)
       ∧ ∀ p, p ≠ r.first + r.len → nextPos p (r :: rest) = (p, r :: rest, false))
  ∧ (∀ (s : State) (c t : Nat) (e : EntryBits) (r : Running), s.dueClass c t 0x04 = some e → (s.ctx c).running = some r → r.started = true →
       (s.tile c t).running = true →
       Completes (.endEntry c t) s fun u =>
         let w := s.logged c t e
         (u.tile c t).running = false ∧ (u.tile c t).prevA = s.now ∧ (u.tile c t).tokens = (s.tile c t).tokens
           ∧ (∀ v, v ≠ t → u.tile c v = s.tile c v) ∧ (∀ k, k ≠ c → u.ctx k = s.ctx k) ∧ (u.ctx c).running = some r
           ∧ u.reg (ctxA c Off.CTX_TILE_CYCLES) = BitVec.ofNat 64 ((w.reg (ctxA c Off.CTX_TILE_CYCLES)).toNat + (s.now + 1 - r.chargedFrom))
           ∧ sameRegsBut [ctxA c Off.CTX_TILE_CYCLES] w u ∧ sameMemory w u)

/-- A compute entry issues to its idle unit (rests on R54, R61, R103, R122, R125, R127, R133, R141, R145, R238, R241, R254): the unit executes
the operation of the entry until its latency ends, and the sequencer goes on. UPD and RNG_FILL (rests on R238, R254, R255): as every compute
entry; an UPD with CLIPN = 1 needs the decision of its slot, and the UV-1600 generator is left where the fill left it. -/
def Obligations.ComputeEntriesIssue : Prop :=
  (∀ (s : State) (c t : Nat) (e : EntryBits),
       ∀ r ∈ [(Instr.mma c t, 0x10, UnitKind.matrix, s.mmaUnit c t e), (.mmaSparse c t, 0x11, .matrix, s.sparseUnit c t e),
           (.conv c t, 0x12, .matrix, s.convUnit c t e), (.vec c t, 0x20, .vector, s.vecUnit c t e),
           (.gnsStat c t, 0x58, .vector, s.gnsUnit c t e), (.sfu c t, 0x21, .special, s.sfuUnit c t e),
           (.normStat c t, 0x22, .special, s.normUnit c t e), (.softmax c t, 0x23, .special, s.smUnit c t e)],
         let op := r.2.2.2.begun e (s.tile c t).pos s.now
         s.dueClass c t r.2.1 = some e → (s.tile c t).unit r.2.2.1 = none →
         Completes r.1 s fun u =>
           Issued c t e ((s.tile c t).pos + 1) (s.modTile c t fun y => y.setUnit r.2.2.1 (some op)) u ∧ (u.tile c t).unit r.2.2.1 = some op)
  ∧ (∀ (s : State) (c t : Nat) (e : EntryBits), (s.tile c t).vector = none →
       let upd := (s.updUnit c t e).begun e (s.tile c t).pos s.now
       let rng := (s.rngUnit c t e).begun e (s.tile c t).pos s.now
       (s.dueClass c t 0x28 = some e → (eb e 69 = true → s.slotApplied c (ef e 71 70) = true) →
         Completes (.upd c t) s fun u =>
           Issued c t e ((s.tile c t).pos + 1) (s.modTile c t fun y => y.setUnit .vector (some upd)) u ∧ (u.tile c t).vector = some upd)
       ∧ (s.dueClass c t 0x50 = some e →
         Completes (.rngFill c t) s fun u => ∃ z,
           Issued c t e ((s.tile c t).pos + 1) (s.modTile c t fun y => y.setUnit .vector (some rng)) z
             ∧ onlyTile c t z u ∧ u.tile c t = { z.tile c t with uv1600 := (s.rngWords c t e).2 } ∧ (u.tile c t).vector = some rng))

/-- Stream, slot and link entries issue their transfer (rests on R57, R88, R160, R163, R173, R183, R191, R221): it takes the next number of
its context, waits for acceptance, and the sequencer goes on. ASSIGN (rests on R157, R159): with no transfer queued or running on its
engine, the engine executes the assignment and the sequencer goes on. -/
def Obligations.TransferEntriesAndAssignIssue : Prop :=
  (∀ (s : State) (c t : Nat) (e : EntryBits),
       let d := streamDesc (s.descOf c t (ef e 215 208))
       let b := s.slotDesc c t e
       (∀ a, s.streamBase c t e d = some a → s.engineLoad c t (ef e 207 205) < 4 →
         (s.dueClass c t 0x30 = some e → Completes (.streamIn c t) s
           (IssuesXfer c t e (ef e 207 205) (some (ef e 204 199)) (.streamIn (ef e 198 187) (ef e 186 185) d.elem d.row) d.size d.rate
             (segsOf (d.runs a)) d.cache s))
         ∧ (s.dueClass c t 0x31 = some e → Completes (.streamOut c t) s
           (IssuesXfer c t e (ef e 207 205) (some (ef e 204 199)) (.streamOut (ef e 198 187) (ef e 186 185) d.elem d.row d.atop d.shadow) d.size
             d.rate (segsOf (d.runs a)) d.cache s)))
       ∧ (s.engineLoad c t (ef e 213 211) < 4 →
         ∀ r ∈ [(Instr.slotGather c t, 1, XKind.gather e b), (.slotScatter c t, 2, .scatter e b), (.clear c t, 3, .clear e b)],
           s.dueSlot c t r.2.1 = some e → Completes r.1 s
             (IssuesXfer c t e (ef e 213 211) (some (ef e 210 205)) r.2.2 (slotSize e b) (streamDesc b).rate [] (streamDesc b).cache s)))
  ∧ (∀ (s : State) (c t : Nat) (e : EntryBits), s.dueSlot c t 0 = some e → s.engineLoad c t (ef e 213 211) = 0 →
       Completes (.assign c t) s fun u =>
         let op := (s.assignUnit c t e).begun e (s.tile c t).pos s.now
         Issued c t e ((s.tile c t).pos + 1) (s.modTile c t fun y => y.setUnit (.stream (ef e 213 211)) (some op)) u
           ∧ (u.tile c t).unit (.stream (ef e 213 211)) = some op)

/-- QPUSH and QPOP (rests on R173, R174, R183): with the stage-link entry as the plan was checked against, the packet's transfer starts. -/
def Obligations.QueueEntriesIssue : Prop :=
  ∀ (s : State) (c t : Nat) (e : EntryBits) (k : StageLink), Table.get? (s.ctx c).links (ef e 215 206) = some k →
    (s.dueClass c t 0x40 = some e → k.txEn = true → ef e 191 180 + 1 ≤ k.maxLen → s.engineLoad c t (ef e 124 122) < 4 →
      Completes (.qpush c t) s
        (IssuesXfer c t e (ef e 124 122) none
          (.qpush (ef e 215 206) (ef e 203 192) (ef e 191 180 + 1) ((ef e 179 164 + if eb e 147 then (s.tile c t).pass else 0) % 2 ^ 16)
            (if eb e 146 then (s.launchVer c (ef e 145 141)).toNat else ef e 163 148) k.remote)
          ((ef e 191 180 + 1) * 64) (ef e 140 125) [] false s))
    ∧ (s.dueClass c t 0x41 = some e → k.rxEn = true → ef e 184 173 + 1 ≤ k.maxLen → s.engineLoad c t (ef e 205 203) < 4 →
      Completes (.qpop c t) s
        (IssuesXfer c t e (ef e 205 203) (some (ef e 202 197))
          (.qpop (ef e 215 206) (ef e 196 185) (ef e 184 173 + 1) ((ef e 172 157 + if eb e 156 then (s.tile c t).pass else 0) % 2 ^ 16)
            (eb e 155) (eb e 154) (ef e 153 152) (ef e 151 140))
          ((ef e 184 173 + 1) * 64) (ef e 139 124) [] false s))

/-- SEND and its retries (rests on R90): an idle endpoint takes the operands and a first attempt starts; RGAP cycles after a negative
acknowledgement another attempt starts, with one retry less and the wait counted. RECV and COMBINE (rests on R193 to R195): an endpoint
that is not armed takes the operands, and accepts from the next cycle. -/
def Obligations.ChannelEntriesIssue : Prop :=
  ((∀ (s : State) (c t : Nat) (e : EntryBits), s.dueClass c t 0x38 = some e → (s.txEp c t (ef e 194 191)).busy = false →
       Completes (.send c t) s fun u =>
         let k := ef e 194 191
         let y := u.txEp c t k
         y = { s.txEp c t k with
             busy := true, target := ef e 215 199, rxEp := ef e 198 195, len := ef e 190 183 + 1, srcLine := ef e 182 171, ackCtr := ef e 170 165,
             retries := ef e 164 161, rgap := ef e 160 149, rate := ef e 148 133, position := (s.tile c t).pos, lastTry := s.now, nackAt := none }
           ∧ (∀ j, j ≠ k → u.txEp c t j = s.txEp c t j)
           ∧ Started c t none none (.message k) (ef e 190 183 + 1) (ef e 148 133) [] false s u)
     ∧ ∀ (s : State) (c t ep n : Nat), (s.txEp c t ep).nackAt = some n → (s.txEp c t ep).busy = true →
         (s.txEp c t ep).lastTry + (s.txEp c t ep).rgap ≤ s.now → n ≤ s.now →
         Completes (.sendRetry c t ep) s fun u =>
           let x := s.txEp c t ep
           u.txEp c t ep = { x with
               nackAt := none, lastTry := s.now, retries := x.retries - 1,
               stall := BitVec.ofNat 32 (satPlus 32 x.stall.toNat (s.now - n)) }
             ∧ Started c t none none (.message ep) x.len x.rate [] false s u ∧ onlyTile c t { s with cycle := u.cycle } u)
  ∧ (∀ (s : State) (c t : Nat) (e : EntryBits), (s.rxEp c t (ef e 215 212)).armed = false →
       (s.dueClass c t 0x39 = some e →
         Completes (.recv c t) s fun u =>
           let k := ef e 215 212
           u.rxEp c t k = { s.rxEp c t k with
               armed := true, fromCycle := s.now + 1, combine := false, ctr := ef e 211 206, dstLine := ef e 205 194, maxLen := ef e 193 186 + 1,
               hdrLine := ef e 185 174, got := [], sumAt := none }
             ∧ (∀ j, j ≠ k → u.rxEp c t j = s.rxEp c t j) ∧ (u.tile c t).prevA = s.now)
       ∧ (s.dueClass c t 0x3A = some e →
         Completes (.combine c t) s fun u =>
           let k := ef e 215 212
           u.rxEp c t k = { s.rxEp c t k with
               armed := true, fromCycle := s.now + 1, combine := true, ctr := ef e 211 206, dstLine := ef e 205 194, maxLen := ef e 193 186 + 1,
               nsend := ef e 185 180 + 1, fmt := ef e 179 178, got := [], sumAt := none }
             ∧ (∀ j, j ≠ k → u.rxEp c t j = s.rxEp c t j) ∧ (u.tile c t).prevA = s.now))

/-- The faults an issue can raise (rests on R61, R62, R83, R174, R191): a busy unit or endpoint and a full stream engine are ISSUE_CONFLICT (2),
a version that is not readable VERSION_GONE (11), schedule faults that name the tile and the entry; a stage-link entry that does not allow the
packet is LINK_MISMATCH (5), an UPD without the decision it clips by code 13. The fault is detected in this cycle, and nothing else changes.
MMA_COLL that cannot issue (rests on R62, R261, R272, R280): a busy array or a third open instance is ISSUE_CONFLICT (2), a group that does
not serve the entry COLL_INVALID (14), a pool out of turn COLL_ORDER (15). Two compute operations that name one bank in one slot are
BANK_CLASH (3) of the later entry (rests on R61); which banks an operation names in which of its cycles is left free (log 11). -/
def Obligations.EntriesThatCannotIssueFault : Prop :=
  (∀ (s : State) (c t : Nat) (e : EntryBits) (i : Instr) (code : Nat) (site : Option Nat),
       ((∃ r ∈ [(Instr.mma c t, 0x10, UnitKind.matrix), (.mmaSparse c t, 0x11, .matrix), (.conv c t, 0x12, .matrix), (.vec c t, 0x20, .vector),
             (.upd c t, 0x28, .vector), (.rngFill c t, 0x50, .vector), (.gnsStat c t, 0x58, .vector), (.sfu c t, 0x21, .special),
             (.normStat c t, 0x22, .special), (.softmax c t, 0x23, .special)],
           i = r.1 ∧ s.dueClass c t r.2.1 = some e ∧ ((s.tile c t).unit r.2.2).isSome = true ∧ code = 2 ∧ site = some 2)
         ∨ (i = .upd c t ∧ s.dueClass c t 0x28 = some e ∧ (s.tile c t).vector = none ∧ eb e 69 = true
             ∧ s.slotApplied c (ef e 71 70) = false ∧ code = 13 ∧ site = none)
         ∨ (i = .assign c t ∧ s.dueSlot c t 0 = some e ∧ s.engineLoad c t (ef e 213 211) ≠ 0 ∧ code = 2 ∧ site = some 2)
         ∨ (i = .send c t ∧ s.dueClass c t 0x38 = some e ∧ (s.txEp c t (ef e 194 191)).busy = true ∧ code = 2 ∧ site = some 2)
         ∨ (i = .recv c t ∧ s.dueClass c t 0x39 = some e ∧ (s.rxEp c t (ef e 215 212)).armed = true ∧ code = 2 ∧ site = some 2)
         ∨ (i = .combine c t ∧ s.dueClass c t 0x3A = some e ∧ (s.rxEp c t (ef e 215 212)).armed = true ∧ code = 2 ∧ site = some 2)
         ∨ (∃ r ∈ [(Instr.streamIn c t, 0x30), (.streamOut c t, 0x31)], i = r.1 ∧ s.dueClass c t r.2 = some e
             ∧ ((s.streamBase c t e (streamDesc (s.descOf c t (ef e 215 208))) = none ∧ code = 11 ∧ site = some 5)
               ∨ ((s.streamBase c t e (streamDesc (s.descOf c t (ef e 215 208)))).isSome = true ∧ 4 ≤ s.engineLoad c t (ef e 207 205) ∧ code = 2
                 ∧ site = some 2)))
         ∨ (∃ r ∈ [(Instr.slotGather c t, 1), (.slotScatter c t, 2), (.clear c t, 3)],
             i = r.1 ∧ s.dueSlot c t r.2 = some e ∧ 4 ≤ s.engineLoad c t (ef e 213 211) ∧ code = 2 ∧ site = some 2)
         ∨ (∃ r ∈ [(Instr.qpush c t, 0x40), (.qpop c t, 0x41)],
             i = r.1 ∧ s.dueClass c t r.2 = some e ∧ Table.get? (s.ctx c).links (ef e 215 206) = none ∧ code = 5 ∧ site = none)) →
       Completes i s (Detected ⟨c, code, site.map fun w => (w, t, (s.tile c t).index (s.tile c t).pos)⟩ s))
  ∧ (∀ (s : State) (c t : Nat) (e : EntryBits) (code : Nat) (site : Option Nat), s.dueClass c t 0x18 = some e →
       let k := collOp e
       let mine := (Table.get? s.groups k.group).filter fun g => g.ctx = c
       ((s.tile c t).matrix.isSome = true ∧ code = 2 ∧ site = some 2)
         ∨ ((s.tile c t).matrix = none ∧ mine = none ∧ code = 14 ∧ site = none)
         ∨ (∃ g, (s.tile c t).matrix = none ∧ mine = some g ∧ 2 ≤ (s.openInsts c t k.group g).length ∧ code = 2 ∧ site = some 2)
         ∨ (∃ g, (s.tile c t).matrix = none ∧ mine = some g ∧ (s.openInsts c t k.group g).length < 2
             ∧ (g.hasTile t = false ∨ g.serves k.op = false ∨ (k.op = 2 ∧ gatherBad e g.members.length = true)) ∧ code = 14 ∧ site = none)
         ∨ (∃ g, (s.tile c t).matrix = none ∧ mine = some g ∧ (s.openInsts c t k.group g).length < 2 ∧ g.hasTile t = true
             ∧ g.serves k.op = true ∧ (k.op = 2 → gatherBad e g.members.length = false) ∧ g.pool ≠ 0
             ∧ (Table.getD 0 (s.tile c t).poolOrd g.pool).toNat % g.npool ≠ g.order ∧ code = 15 ∧ site = none) →
       Completes (.mmaColl c t) s fun u =>
         ⟨c, code, site.map fun w => (w, t, (s.tile c t).index (s.tile c t).pos)⟩ ∈ u.cycle.faults ∧ onlyRegs s u)
  ∧ (∀ (s : State) (c t p : Nat), (s.tile c t).clashAt s.now = some p →
       Detected ⟨c, 3, some (3, t, (s.tile c t).index p)⟩ s (s.clashFault c t))

/-- A context fault (rests on R62, R401): at the end of the cycle in which it is detected the context is faulted, its launches are over and
complete with FAULTED (10), its tiles issue nothing, nothing of it is in flight but writes that have left their tiles, CTX_FAULT keeps the first
code, and CTX_WD_SITE takes the code, tile and entry of the first schedule fault. -/
def Obligations.ContextFaultStopsTheContext : Prop :=
  (∀ (s : State) (f : PendFault), f.code < 256 →
    let c := f.ctx
    let u := s.takeFault f
    (u.ctx c).phase = .faulted ∧ (u.ctx c).running = none ∧ (u.ctx c).queue = [] ∧ (u.ctx c).insts = [] ∧ (u.ctx c).due = []
      ∧ (∀ e ∈ (u.ctx c).xfers, e.2.orphan = true)
      ∧ (∀ e ∈ (u.ctx c).tiles, e.2.running = false ∧ e.2.matrix = none ∧ e.2.vector = none ∧ e.2.special = none ∧ e.2.streams = [])
      ∧ (∀ q ∈ (s.ctx c).launchSeqs, ∃ x, (RingOf.ctx c, x) ∈ u.cycle.done ∧ x.seq = q ∧ x.op = 2 ∧ x.status = 10)
      ∧ u.cf c Off.CTX_FAULT 7 0 = (if s.cf c Off.CTX_FAULT 7 0 = 0 then f.code else s.cf c Off.CTX_FAULT 7 0)
      ∧ (∀ w, f.site = some w → s.cf c Off.CTX_WD_SITE 51 48 = 0 → w.1 < 16 → w.2.1 < 2 ^ 17 → w.2.2 < 2 ^ 11 →
          u.cf c Off.CTX_WD_SITE 51 48 = w.1 ∧ u.cf c Off.CTX_WD_SITE 16 0 = w.2.1 ∧ u.cf c Off.CTX_WD_SITE 42 32 = w.2.2))
  ∧ (∀ (s : State) (f : PendFault) (l : List PendFault), s.cycle.faults = f :: l →
       s.takeFaults = forAll l (fun g t => t.takeFault g) (State.takeFault { s with cycle := { s.cycle with faults := [] } } f))

/-- TRANSFER_ACCEPT (rests on R57, R60): a transfer that finds what it needs is accepted now, its wait is counted, and its deadline is its
path bound and its size over its contracted rate, none while promises are suspended; one that must wait stays as it is; one without a
route within the package is discarded; one that acceptance faults is a fault of this cycle (rests on R233, R294, R312, R379). That a transfer
that crosses several open fault windows gets 100,000 cycles once is the model's choice (log 95). -/
def Obligations.TransferAcceptanceFixesTheDeadline : Prop :=
  ∀ (s : State) (c id : Nat) (x : Xfer), s.xfer c id = some x → x.acceptedAt = none → s.halted = false → (s.ctx c).phase = .normal →
    s.pushInOrder c x = true → (x.kind.isStream = true → s.bufferOk c id x = true) →
    (∀ z a, s.prepare c x = .go z a → Completes (.transferAccept c id) s fun u =>
      ∃ y, u.xfer c id = some y ∧ y.acceptedAt = some s.now ∧ y.segs = a.segs ∧ y.buf = a.buf ∧ y.bufPoison = a.poison ∧ y.kind = x.kind
        ∧ y.tile = x.tile
        ∧ (x.kind.pushLink = none → z.suspended = false → a.contracted = true →
            y.deadline = some (z.dueBy c x a.boundNs + if z.faultWins.any (fun w => a.crosses.any fun e => w.hits e) then 100000 else 0))
        ∧ (z.suspended = true ∨ a.contracted = false → y.deadline = none)
        ∧ u.reg (ctxA c Off.CTX_ACCEPT_WAIT) = BitVec.ofNat 64 ((z.reg (ctxA c Off.CTX_ACCEPT_WAIT)).toNat + (s.now - x.issuedAt)))
    ∧ (s.prepare c x = .wait → Completes (.transferAccept c id) s fun u => u = s)
    ∧ (∀ z, s.prepare c x = .drop z → Completes (.transferAccept c id) s fun u => u = z.dropXfer c id)
    ∧ ∀ z code, s.prepare c x = .fault z code → Completes (.transferAccept c id) s (Detected ⟨c, code, none⟩ z)

/-- A request that reaches its slice and finds no sector to be read again (rests on R209). MEMORY_READ (rests on R214, R397): the request's bytes
stand in the transfer's buffer as memory holds them, it is done and its bytes are counted, every byte of memory reads as before; then the
answer goes back, and what a linear STREAM_IN has read lands in the scratchpad. MEMORY_WRITE (rests on R212, R214, R397): the request's bytes
are written, it is done and its bytes are counted; no other byte changes. ATOMIC_APPLY (rests on R215 to R219, R397): in its turn the request is
done, its elements are counted at the slice, its bytes for the context; a request of one element that meets no poison stores what the operation
gives on the old value. A request that meets a sector to be read again waits for it, and the stack's fault window is open (rests on R210,
R445). -/
def Obligations.MemoryRequestsAct : Prop :=
  (∀ (s : State) (c id k : Nat) (x : Xfer) (g : Seg) (t l : Nat), s.request c id k = some (x, g) → s.selfRefresh = false →
       s.reach (s.homeDie c x) g.addr = .ok t l → s.mustReread t l g.len x.kind.writes x.allocates = [] → s.Inv →
       (x.kind.reads = true →
         Completes (.memoryRead c id k) s fun u => ∃ z : State, u = z.respond c id k x g
           ∧ (∃ y, z.xfer c id = some y ∧ y.done = insertNat k x.done ∧ y.buf = putSlice x.buf g.off (s.dpaRead g.addr g.len).1)
           ∧ z.reg (ctxA c Off.CTX_BYTES_MRD) = BitVec.ofNat 64 ((s.reg (ctxA c Off.CTX_BYTES_MRD)).toNat + g.len)
           ∧ (∀ a, z.dpaByte a = s.dpaByte a) ∧ z.scratch = s.scratch ∧ z.hostMem = s.hostMem ∧ ∀ v, z.tile c v = s.tile c v)
       ∧ (x.kind.writes = true → 0 < g.len → g.addr % 256 + g.len ≤ 256 → g.off + g.len ≤ x.buf.length →
         Completes (.memoryWrite c id k) s fun u =>
           (∃ y, u.xfer c id = some y ∧ y.done = insertNat k x.done)
           ∧ u.reg (ctxA c Off.CTX_BYTES_MWR) = BitVec.ofNat 64 ((s.reg (ctxA c Off.CTX_BYTES_MWR)).toNat + g.len)
           ∧ (∀ i, i < g.len → (u.dpaByte (g.addr + i)).1 = x.buf.getD (g.off + i) 0)
           ∧ (∀ a, (∀ i, i < g.len → dpaLoc a ≠ dpaLoc (g.addr + i)) → (u.dpaByte a).1 = (s.dpaByte a).1)
           ∧ u.scratch = s.scratch ∧ u.hostMem = s.hostMem ∧ ∀ v, u.tile c v = s.tile c v)
       ∧ (x.kind.atop ≠ 0 → x.kind.atop ≤ 9 → s.atomTurn c x g = true →
         let op := x.kind.atop
         let w := atomWidth op
         let part (off : Nat) : Nat := leNat ((x.buf.drop off).take w)
         Completes (.atomicApply c id k) s fun u =>
           (∃ y, u.xfer c id = some y ∧ y.done = insertNat k x.done)
           ∧ u.reg (bar0 (thatchDie t) 0 Off.THC_ATOMIC) = BitVec.ofNat 64 ((s.reg (bar0 (thatchDie t) 0 Off.THC_ATOMIC)).toNat + g.len / w)
           ∧ u.reg (ctxA c Off.CTX_BYTES_MWR) = BitVec.ofNat 64 ((s.reg (ctxA c Off.CTX_BYTES_MWR)).toNat + g.len)
           ∧ (g.len = w → g.addr % w = 0 → x.bufPoison = [] → (s.dpaRead g.addr w).2 = false →
               (u.dpaRead g.addr w).1
                 = leBytes w (atomFn op (leNat (s.dpaRead g.addr w).1) (if op = 9 then part (x.size + g.off) else part g.off) (part g.off)))))
  ∧ (∀ (s : State) (c id k line elem row : Nat) (x : Xfer) (g : Seg), s.xfer c id = some x → x.segs[k]? = some g →
       x.kind = .streamIn line 0 elem row →
       ∀ i, i < g.len → g.off + i < x.buf.length → line * 64 + g.off + i < padSize →
         (s.landOf c id k).padByte (s.padBase c x.tile) (line * 64 + g.off + i) = x.buf.getD (g.off + i) 0)
  ∧ (∀ (s : State) (c id k : Nat) (x : Xfer) (g : Seg) (t l : Nat), s.request c id k = some (x, g) → s.selfRefresh = false →
       s.reach (s.homeDie c x) g.addr = .ok t l → s.mustReread t l g.len x.kind.writes x.allocates ≠ [] →
       ∀ i, (i = .memoryRead c id k ∧ x.kind.reads = true) ∨ (i = .memoryWrite c id k ∧ x.kind.writes = true) →
         Completes i s fun u =>
           (∃ y, u.xfer c id = some y ∧ k ∈ y.waiting ∧ y.done = x.done ∧ y.buf = x.buf) ∧ Elem.stack t ∈ u.faultWins
             ∧ (∀ sec ∈ s.mustReread t l g.len x.kind.writes x.allocates, Reread.mk t sec c id ∈ u.rereads) ∧ sameMemory s u)

/-- ECC_REREAD (rests on R210, R211): the controller reads the sector once more, and the requests that wait for it go on. The re-read counts; where
the errors stay the sector is poisoned, counted as lost, named in THC_ECC_LAST and reported; where they do not it is absorbed. Memory upkeep
(rests on R207, R213, R359): more corrections in a second than THC_CE_WARN raise CE_RATE; the refresh rate follows the stack's temperature with
its hysteresis, and 95 °C raises MEM_HOT; a stack that does not refresh itself is refreshed at each interval. SELF_REFRESH_ENTER (rests on
R414): once a halted package has nothing in flight, memory refreshes itself. -/
def Obligations.MemoryUpkeep : Prop :=
  (∀ (s : State) (stack sector : Nat), (∃ r ∈ s.rereads, r.stack = stack ∧ r.sector = sector) →
       Completes (.eccReread stack sector) s fun u =>
         let z := State.reread { s with rereads := s.rereads.filter fun r => !(r.stack = stack ∧ r.sector = sector) } stack sector
         let w := forAll (s.rereads.filter fun r => r.stack = stack ∧ r.sector = sector) (fun r t => t.resume r) z
         u = (if w.rereads.any fun r => r.stack = stack then w else w.closeWindow (.stack stack))
           ∧ ∀ r ∈ u.rereads, ¬(r.stack = stack ∧ r.sector = sector))
  ∧ (∀ (s : State) (stack sector : Nat), stack < 16 → sector < 2 ^ 30 →
       let d := thatchDie stack
       let z := s.reread stack sector
       z.rf (bar0 d 0 Off.THC_ECC_CE) 63 32 = satPlus 32 (s.rf (bar0 d 0 Off.THC_ECC_CE) 63 32) 1
         ∧ (s.upset stack sector = some .dead →
             z.rf (bar0 d 0 Off.THC_ECC_UE) 31 0 = satPlus 32 (s.rf (bar0 d 0 Off.THC_ECC_UE) 31 0) 1
               ∧ z.rf (bar0 d 0 Off.THC_ECC_LAST) 35 0 = sector ∧ sectorKey stack sector ∈ z.poison ∧ z.upset stack sector = none
               ∧ z.rf (bar0 d 0 Off.PG_IRQ_RAW) 0 0 = 1)
         ∧ (∀ n, s.upset stack sector = some (.again n) →
             z.reg (bar0 d 0 Off.THC_ECC_UE) = s.reg (bar0 d 0 Off.THC_ECC_UE) ∧ z.reg (bar0 d 0 Off.THC_ECC_LAST) = s.reg (bar0 d 0 Off.THC_ECC_LAST)
               ∧ z.poison = s.poison ∧ z.upset stack sector = none
               ∧ z.rf (bar0 d 0 Off.THC_ECC_CE) 31 0 = satPlus 32 (s.rf (bar0 d 0 Off.THC_ECC_CE) 31 0) n))
  ∧ (∀ (s : State) (t : Nat), t < 16 →
       (s.periodOver (.corrections t) = true → Completes (.ceRateWindow t) s fun u =>
         Table.getD 0 u.ceCount t = 0
           ∧ (s.rf (bar0 (thatchDie t) 0 Off.THC_CE_WARN) 31 0 < Table.getD 0 s.ceCount t → u.rf (bar0 (thatchDie t) 0 Off.PG_IRQ_RAW) 1 1 = 1)
           ∧ (Table.getD 0 s.ceCount t ≤ s.rf (bar0 (thatchDie t) 0 Off.THC_CE_WARN) 31 0 → u.regs = s.regs) ∧ sameMemory s u)
       ∧ (∀ temp, Completes (.refreshRateChange t temp) s fun u =>
         let a := bar0 (thatchDie t) 0 Off.THC_TEMP
         u.rf a 7 0 = min temp 255 ∧ (95 ≤ temp → u.rf a 9 8 = 2 ∧ u.rf (bar0 (thatchDie t) 0 Off.PG_IRQ_RAW) 3 3 = 1)
           ∧ (85 ≤ temp → temp < 94 → u.rf a 9 8 = 1) ∧ (temp ≤ 83 → u.rf a 9 8 = 0) ∧ sameMemory s u)
       ∧ (∀ errors, s.selfRefresh = false → s.alive (thatchDie t) = true → Table.getD 0 s.refreshAt t + s.refreshInterval t ≤ s.now →
         Completes (.refreshTick t errors) s fun u =>
           Table.getD 0 u.refreshes t = Table.getD 0 s.refreshes t + 1 ∧ Table.getD 0 u.refreshAt t = s.now
             ∧ u = { s with refreshes := u.refreshes, refreshAt := u.refreshAt, upsets := u.upsets }
             ∧ (errors = [] → u.upsets = s.upsets))
       ∧ (∀ errors, s.selfRefresh = true → Completes (.refreshTick t errors) s fun u => u = s))
  ∧ (∀ s : State, s.halted = true → s.anyInFlight = false → Completes .selfRefreshEnter s fun u => u = { s with selfRefresh := true })

/-- TRANSFER_ARRIVAL (rests on R57): the transfer is over and its completion token is added; a linear STREAM_IN has its bytes in scratchpad;
stacked memory, other tiles and other contexts stay. A SIGNAL that arrives (rests on R57, R80) adds its increment to the counter of its
target tile, and nothing to another. PLAN_REFILL_ARRIVE (rests on R93): the frame holds the segment's entries, if it is still the one
requested, and the request is over. Of a transfer whose context has been stopped nothing follows its arrival (rests on R401). -/
def Obligations.ArrivalsGiveTheirTokens : Prop :=
  (∀ (s : State) (c id k : Nat) (x : Xfer), s.xfer c id = some x → s.canArrive c id x = true → x.orphan = false → x.ctr = some k →
       (∀ v i n, x.kind ≠ .signal v i n) → (∀ p, x.kind ≠ .mirrorPage p) → s.tokens c x.tile k < 65535 →
       Completes (.transferArrival c id) s fun u =>
         u.xfer c id = none ∧ u.tokens c x.tile k = s.tokens c x.tile k + 1 ∧ (∀ j, j ≠ k → u.tokens c x.tile j = s.tokens c x.tile j)
           ∧ (∀ line elem row, x.kind = .streamIn line 0 elem row → ∀ i, i < x.buf.length → line * 64 + i < padSize →
               u.padByte (s.padBase c x.tile) (line * 64 + i) = x.buf.getD i 0)
           ∧ (∀ v, v ≠ x.tile → u.tile c v = s.tile c v) ∧ (∀ j, j ≠ c → u.ctx j = s.ctx j)
           ∧ u.mem = s.mem ∧ u.poison = s.poison ∧ u.cache = s.cache ∧ u.hostMem = s.hostMem)
  ∧ (∀ (s : State) (c id v k n : Nat) (x : Xfer), s.xfer c id = some x → x.kind = .signal v k n → s.canArrive c id x = true →
       x.orphan = false →
       s.tokens c v k + n ≤ 65535 →
       Completes (.transferArrival c id) s fun u =>
         u.xfer c id = none ∧ u.tokens c v k = s.tokens c v k + n ∧ (∀ w j, w ≠ v ∨ j ≠ k → u.tokens c w j = s.tokens c w j)
           ∧ (∀ j, j ≠ c → u.ctx j = s.ctx j) ∧ sameMemory s u)
  ∧ (∀ (s : State) (c t id seg frame a : Nat) (x : Xfer), s.refillOf c t id = some (x, seg, frame) → x.acceptedAt = some a → a < s.now →
       x.served = true → s.allHere c id x = true →
       Completes (.planRefillArrive c t id) s fun u =>
         u.xfer c id = none
           ∧ u.tile c t = { s.tile c t with
               frames := if ((s.tile c t).frames[frame]?.bind (·.seg)) = some seg then (s.tile c t).frames.set frame ⟨some seg, entriesOf x.buf⟩
                 else (s.tile c t).frames }
           ∧ (∀ v, v ≠ t → u.tile c v = s.tile c v) ∧ (∀ j, j ≠ c → u.ctx j = s.ctx j) ∧ sameMemory s u)
  ∧ (∀ (s : State) (c id : Nat) (x : Xfer), s.xfer c id = some x → s.canArrive c id x = true → x.orphan = true →
       Completes (.transferArrival c id) s fun u => u = s.dropXfer c id)

/-- MESSAGE_ARRIVAL (rests on R193, R195): a message that its endpoint refuses is counted with its reason and negatively acknowledged; one
that a RECV takes disarms the endpoint, is counted and adds the token; one that a COMBINE takes joins the contributions. ACK_ARRIVAL
(rests on R90): an acknowledged message frees its endpoint and adds the token; a negative one waits for the next retry, or with none left
frees the endpoint, adds the token and says so in the outcome. COMBINE_SUM (rests on R195, R196): the sum stands in scratchpad, the token
is added, the endpoint is disarmed. -/
def Obligations.MessagesAndCombines : Prop :=
  (∀ (s : State) (c id ep u k a : Nat) (x : Xfer), s.messageOf c id = some (x, ep, u, k) → x.acceptedAt = some a → a < s.now →
       s.allHere c id x = true → s.inOrder (.endpoint c u k) x.tile = true → (s.purlin (s.tileDie c u) (s.tileDie c x.tile)).isSome = true →
       let r := s.rxEp c u k
       (∀ why, r.judge s.now x.tile x.buf.length = some why → Completes (.messageArrival c id) s fun w =>
         w.rxEp c u k = { r with nacks := BitVec.ofNat 16 (satPlus 16 r.nacks.toNat 1), reason := BitVec.ofNat 3 why }
           ∧ (w.xfer c id).map (·.kind) = some (.ack ep false why) ∧ sameRegsBut [] s w ∧ sameMemory s w)
       ∧ (r.judge s.now x.tile x.buf.length = none → r.combine = false → s.tokens c u r.ctr < 65535 → Completes (.messageArrival c id) s fun w =>
         w.rxEp c u k = { r with armed := false, msgs := r.msgs + 1 } ∧ (w.xfer c id).map (·.kind) = some (.ack ep true 0)
           ∧ w.tokens c u r.ctr = s.tokens c u r.ctr + 1 ∧ sameRegsBut [] s w)
       ∧ (r.judge s.now x.tile x.buf.length = none → r.combine = true → Completes (.messageArrival c id) s fun w =>
         (w.rxEp c u k).got = r.got ++ [(x.tile, x.buf, decide (x.bufPoison ≠ []))] ∧ (w.rxEp c u k).msgs = r.msgs + 1
           ∧ (w.rxEp c u k).armed = r.armed ∧ (w.xfer c id).map (·.kind) = some (.ack ep true 0) ∧ sameRegsBut [] s w ∧ sameMemory s w))
  ∧ (∀ (s : State) (c id ep why : Nat) (ok : Bool) (x : Xfer), s.ackOf c id = some (x, ep, ok, why) → s.allHere c id x = true →
       s.tokens c x.tile (s.txEp c x.tile ep).ackCtr < 65535 →
       let k := s.txEp c x.tile ep
       Completes (.ackArrival c id) s fun u =>
         let y := u.txEp c x.tile ep
         u.xfer c id = none
           ∧ (ok = true → y = { k with busy := false, msgs := k.msgs + 1, outcome := 1 })
           ∧ (ok = false → y.nacks = BitVec.ofNat 16 (satPlus 16 k.nacks.toNat 1) ∧ y.reason = BitVec.ofNat 3 why)
           ∧ (ok = false → k.retries ≠ 0 → y.busy = k.busy ∧ y.nackAt = some s.now)
           ∧ (ok = false → k.retries = 0 → y.busy = false ∧ y.outcome = 2)
           ∧ u.tokens c x.tile k.ackCtr = s.tokens c x.tile k.ackCtr + (if ok = true ∨ k.retries = 0 then 1 else 0) ∧ sameMemory s u)
  ∧ (∀ (s : State) (c t ep a : Nat), (s.rxEp c t ep).sumAt = some a → a ≤ s.now → s.tokens c t (s.rxEp c t ep).ctr < 65535 →
       Completes (.combineSum c t ep) s fun u =>
         let r := s.rxEp c t ep
         u.rxEp c t ep = { r with armed := false, combine := false, got := [], sumAt := none }
           ∧ u.tokens c t r.ctr = s.tokens c t r.ctr + 1
           ∧ (∀ i, i < r.sum.1.length → r.dstLine * 64 + i < padSize → u.padByte (s.padBase c t) (r.dstLine * 64 + i) = r.sum.1.getD i 0)
           ∧ (∀ v, v ≠ t → u.tile c v = s.tile c v) ∧ sameRegsBut [] s u ∧ u.mem = s.mem ∧ u.cache = s.cache)

/-- The queue block (rests on R175 to R181): a word written is stored, a word into a full block faults QUEUE_OVERRUN (6); a packet that
arrives is counted at the consumer with its token, not before its words can be seen there; freed space is seen by the producer once the read
can be. QUEUE_FLUSH (rests on R186, R187): with no launch
running the link's queue is emptied, its words are counted in CTX_QFLUSH_STS and the link is named there; while a launch runs the write is
refused with BUSY. Other queues stay. -/
def Obligations.QueueBlockKeepsPacketsInOrder : Prop :=
  ((∀ (s : State) (c l id len mb ver : Nat) (x : Xfer) (e : StageLink), s.pusher c l = some (id, x, len, mb, ver) →
         Table.get? (s.ctx c).links l = some e → (s.queue c l).tail = false → s.mayEnter c l x = true → s.onWay c id (x.words / 64) = false →
         x.words / 64 ∉ x.lost →
         ((s.queue c l).full e = false → Completes (.queueWordWrite c l id) s fun u =>
           (u.queue c l).stored = (s.queue c l).stored + 1 ∧ (u.queue c l).packets = (s.queue c l).packets
             ∧ (u.xfer c id).map (·.words) = some (x.words + 1) ∧ (∀ j, j ≠ l → u.queue c j = s.queue c j) ∧ sameMemory s u)
         ∧ ((s.queue c l).full e = true → Completes (.queueWordWrite c l id) s fun u =>
           PendFault.mk c 6 none ∈ u.cycle.faults ∧ u.queue c l = { s.queue c l with overrun := true } ∧ sameRegsBut [] s u ∧ sameMemory s u))
     ∧ (∀ (s : State) (c l : Nat) (p : Packet) (r : List Packet) (e : StageLink), (s.queue c l).written = p :: r →
         Table.get? (s.ctx c).links l = some e → s.tokens c e.arrTile e.arrCtr < 65535 → s.crossedFrom p.enteredAt ≤ s.now →
         Completes (.packetArrival c l) s fun u =>
           (u.queue c l).packets = (s.queue c l).packets ++ [p] ∧ (u.queue c l).written = r
             ∧ u.tokens c e.arrTile e.arrCtr = s.tokens c e.arrTile e.arrCtr + 1 ∧ (∀ j, j ≠ l → u.queue c j = s.queue c j)
             ∧ sameRegsBut [] s u ∧ sameMemory s u)
     ∧ ∀ (s : State) (c l : Nat),
         Completes (.queueSpaceFreed c l) s fun u =>
           (u.queue c l).reads = (s.queue c l).reads.filter (fun r => s.now < s.crossedFrom r.1) ∧ (u.queue c l).packets = (s.queue c l).packets
             ∧ (∀ j, j ≠ l → u.queue c j = s.queue c j) ∧ sameMemory s u)
  ∧ (∀ (s : State) (src : HostSrc) (c l : Nat), c < 1024 → l < 1024 → WriteReaches s src (ctxA c Off.CTX_QFLUSH) →
       ((s.ctx c).running = none → Completes (.queueFlush src c l) s fun u =>
         let q := u.queue c l
         q.packets = [] ∧ q.written = [] ∧ q.partialWords = [] ∧ q.reads = [] ∧ q.overrun = false
           ∧ (∀ j, j ≠ l → u.queue c j = s.queue c j)
           ∧ u.cf c Off.CTX_QFLUSH_STS 31 0 = min (s.queue c l).stored (2 ^ 32 - 1) ∧ u.cf c Off.CTX_QFLUSH_STS 41 32 = l
           ∧ u.cf c Off.CTX_QFLUSH_STS 42 42 = b2n (!(s.queue c l).flushed.tail) ∧ u.cf c Off.CTX_QFLUSH_STS 43 43 = 0 ∧ sameMemory s u)
       ∧ ((s.ctx c).running.isSome = true → Completes (.queueFlush src c l) s fun u =>
         u.cf c Off.CTX_QFLUSH_STS 43 43 = 1 ∧ u.cf c Off.CTX_QFLUSH_STS 42 0 = s.cf c Off.CTX_QFLUSH_STS 42 0
           ∧ wroteRegs src [ctxA c Off.CTX_QFLUSH_STS] s u))

/-- REGISTER_WRITE of a register that only stores (rests on R9, R428, R430), PG_SCRATCH of every page and window: 8 bytes store the value, 4
bytes their half; no other register changes. Locked and write-once registers (rests on R431, R9): EAV_MAC takes a value while its page is
unlocked; on a locked page a write that would change it is refused, counted and its offset and source are kept; RDG_ASSET takes one write.
Accesses that do not act (rests on R426, R428): of a size or alignment that is not accepted, to a page that is not ready, to an offset
without a register; each only counts in its field of PG_ERR. A write that falls behind the issues of a cycle waits for the next (rests on
R444). -/
def Obligations.RegisterWritesAndRefusals : Prop :=
  (∀ (s : State) (src : HostSrc) (a : Nat) (v : Word),
       (∃ die block k, die < 64 ∧ block < 64 ∧ pageAt die block = some k ∧ k ≠ .guest ∧ a = bar0 die block Off.PG_SCRATCH)
         ∨ (∃ c, c < 1024 ∧ a = ctxA c Off.PG_SCRATCH) →
       WriteReaches s src a →
       (Completes (.registerWrite src a .eight v) s fun u => u.reg a = v ∧ wroteRegs src [a] s u)
       ∧ (Completes (.registerWrite src a .low v) s fun u => u.reg a = ins (s.reg a) 31 0 (fld v 31 0) ∧ wroteRegs src [a] s u)
       ∧ (Completes (.registerWrite src a .high v) s fun u => u.reg a = ins (s.reg a) 63 32 (fld v 31 0) ∧ wroteRegs src [a] s u))
  ∧ ((∀ (s : State) (src : HostSrc) (p : Nat) (v : Word), p < 64 → WriteReaches s src (portReg p Off.EAV_MAC) →
       let a := portReg p Off.EAV_MAC
       let pg := bar0 (portDie p) 0 0
       (s.rf (pg + Off.PG_LOCK) 0 0 = 0 → Completes (.registerWrite src a .eight v) s fun u =>
         u.rf a 47 0 = fld v 47 0 ∧ wroteRegs src [a] s u)
       ∧ (s.rf (pg + Off.PG_LOCK) 0 0 = 1 → s.rf a 47 0 ≠ fld v 47 0 → Completes (.registerWrite src a .eight v) s fun u =>
         u.reg a = s.reg a ∧ u.rf (pg + Off.PG_ERR_LOCK) 15 0 = satPlus 16 (s.rf (pg + Off.PG_ERR_LOCK) 15 0) 1
           ∧ u.rf (pg + Off.PG_ERR_LOCK) 27 16 = offOf a ∧ u.rf (pg + Off.PG_ERR_LOCK) 29 28 = srcCode src ∧ u.rf (pg + Off.PG_STS) 1 1 = 1))
     ∧ ∀ (s : State) (src : HostSrc) (v : Word), WriteReaches s src Off.RDG_ASSET →
       (s.assetWritten = false → Completes (.registerWrite src Off.RDG_ASSET .eight v) s fun u => u.reg Off.RDG_ASSET = v ∧ u.assetWritten = true)
       ∧ (s.assetWritten = true → s.reg Off.RDG_ASSET ≠ v → Completes (.registerWrite src Off.RDG_ASSET .eight v) s fun u =>
           u.reg Off.RDG_ASSET = s.reg Off.RDG_ASSET))
  ∧ (∀ (s : State) (src : HostSrc) (a : Nat) (size : AccSize) (v : Word) (k : PageKind), pageOf a = some k → k ≠ .guest →
       s.cycle.issued = false → s.srcOk src a = true → s.recoveryOk src a = true → s.pageFenced a = false →
       let e := pageBase a + Off.PG_ERR
       let bad := decide (a % 8 ≠ 0) || decide (size = .bad)
       (bad = true → Completes (.registerWrite src a size v) s fun u => u.rf e 31 16 = satPlus 16 (s.rf e 31 16) 1 ∧ wroteRegs src [e] s u)
       ∧ (bad = false → s.pageReady a (s.srcPort src) = false → Completes (.registerWrite src a size v) s fun u =>
           u.rf e 47 32 = satPlus 16 (s.rf e 47 32) 1 ∧ wroteRegs src [e] s u)
       ∧ (bad = false → s.pageReady a (s.srcPort src) = true → regAt a = none → Completes (.registerWrite src a size v) s fun u =>
           u.rf e 15 0 = satPlus 16 (s.rf e 15 0) 1 ∧ wroteRegs src [e] s u))
  ∧ (∀ (s : State) (src : HostSrc) (a : Nat) (size : AccSize) (v : Word), s.cycle.issued = true → a % 8 = 0 →
       Completes (.registerWrite src a size v) s fun u => u = s.post (.registerWrite src a size v))

/-- The divider (rests on R406, R407): a divider write with no launch queued or running and the divider not forced, and a RESTORE while the
sag level is below 3 and no thermal trip stands, start a change; every other write is refused with BAD and changes nothing else. The
change sets EFF and its time, at the beginning of the next cycle where a sequencer has issued in this one (rests on R444); a restore ends
FORCED. Power-state commands (rests on R409): a command that the table allows from the
present state, with no change in progress, a sag level below 2, none entered in this cycle and no launch running, starts the change; every other
is refused with BAD.
At its end the state is the commanded one and PSTATE is raised. -/
def Obligations.DividerAndPowerStates : Prop :=
  ((∀ (s : State) (src : HostSrc) (div : Nat), WriteReaches s src Off.RDG_CLK →
       let ok := s.anyBusy = false ∧ s.rf Off.RDG_CLK 4 4 = 0 ∧ div % 4 ≠ 3
       (ok → Completes (.clkDivWrite src div) s fun u =>
         u.rf Off.RDG_CLK 1 0 = div % 4 ∧ u.rf Off.RDG_CLK 6 6 = 0 ∧ u.rf Off.RDG_CLK 5 2 = s.rf Off.RDG_CLK 5 2
           ∧ u = { s with regs := u.regs, cycle := u.cycle, divPend := some ⟨div % 4, false, s.now⟩ } ∧ sameRegsBut (Off.RDG_CLK :: pcieOf src) s u)
       ∧ (¬ok → Completes (.clkDivWrite src div) s fun u =>
         u.rf Off.RDG_CLK 6 6 = 1 ∧ u.rf Off.RDG_CLK 5 0 = s.rf Off.RDG_CLK 5 0 ∧ wroteRegs src [Off.RDG_CLK] s u))
     ∧ (∀ (s : State) (src : HostSrc), WriteReaches s src Off.RDG_CLK →
       let ok := s.rf Off.RDG_SAG 2 0 < 3 ∧ s.rf Off.RDG_THERM 0 0 = 0
       (ok → Completes (.clkRestore src) s fun u =>
         u.rf Off.RDG_CLK 6 6 = 0 ∧ u.divPend = some ⟨s.rf Off.RDG_CLK 1 0, true, s.now⟩ ∧ sameRegsBut (Off.RDG_CLK :: pcieOf src) s u)
       ∧ (¬ok → Completes (.clkRestore src) s fun u =>
         u.rf Off.RDG_CLK 6 6 = 1 ∧ u.rf Off.RDG_CLK 5 0 = s.rf Off.RDG_CLK 5 0 ∧ wroteRegs src [Off.RDG_CLK] s u))
     ∧ ∀ (s : State) (p : DivChange), s.divPend = some p → p.div < 4 → s.cycle.issued = false → Completes .dividerChange s fun u =>
         u.eff = p.div ∧ u.reg Off.RDG_CLK_AT = s.tb ∧ u.divPend = none
           ∧ u.rf Off.RDG_CLK 4 4 = (if p.restore then 0 else s.rf Off.RDG_CLK 4 4) ∧ u.rf Off.RDG_CLK 1 0 = s.rf Off.RDG_CLK 1 0
           ∧ sameMemory s u)
  ∧ (∀ (s : State) (p : DivChange), s.divPend = some p → s.cycle.issued = true → Completes .dividerChange s fun u => u = s.post .dividerChange)
  ∧ ((∀ (s : State) (src : HostSrc), WriteReaches s src Off.RDG_PSTATE →
       ∀ r ∈ [(Instr.pstateActive src, 0), (.pstateHold src, 1), (.pstateNap src, 2), (.pstateDormant src, 3)],
         let ok := s.psTarget = none ∧ pstateFrom s.pstate r.2 = true ∧ s.rf Off.RDG_SAG 2 0 < 2 ∧ s.countedIn Off.RDG_SAG 0 ≠ 1
           ∧ ∀ e ∈ s.ctxs, e.2.running = none
         (ok → Completes r.1 s fun u =>
           u.rf Off.RDG_PSTATE 4 2 = 4 ∧ u.rf Off.RDG_PSTATE 5 5 = 0 ∧ u = { s with regs := u.regs, cycle := u.cycle, psTarget := some r.2 }
             ∧ sameRegsBut (Off.RDG_PSTATE :: pcieOf src) s u)
         ∧ (¬ok → Completes r.1 s fun u => u.rf Off.RDG_PSTATE 5 5 = 1 ∧ u.rf Off.RDG_PSTATE 4 0 = s.rf Off.RDG_PSTATE 4 0
             ∧ wroteRegs src [Off.RDG_PSTATE] s u))
     ∧ ∀ (s : State) (t : Nat), s.psTarget = some t → t ≤ 3 → Completes .pstateDone s fun u =>
         u.pstate = t ∧ u.psTarget = none ∧ u.rf Off.RDG_PSTATE 4 2 = t ∧ u.rf Off.PG_IRQ_RAW 12 12 = 1
           ∧ (t = 3 → u.selfRefresh = true ∧ u.keepAlive = true ∧ u.scratch = [] ∧ u.cache = [] ∧ ∀ c, (u.ctx c).plan = none)
           ∧ (t = 0 → s.halted = false → u.selfRefresh = false ∧ u.keepAlive = false))

/-- Supply samples and sag levels (rests on R26, R412, R415): the lowest of the tabs is taken, runs below and above the thresholds are
counted; after nine samples below the threshold of a level above the flag that level and the lower ones are in force and SAG is raised,
level 6 turns the package off; an entry behind the issues of a cycle waits for the next (rests on R444), and one in the cycle of a power-state
command undoes it (rests on R409); after nine samples above only the flag falls. RDG_SAG writes (rests on R412 to R414): R_PREFETCH below
level 2 ends the buffer limit, R_RESUME below level 4 ends the halt, each is refused with BAD above; CLR_MAX starts MAX and VMIN again. -/
def Obligations.SagLevelsAndTheirUndoing : Prop :=
  ((∀ (s : State) (tabs : List Nat) (v : Nat), tabs.min? = some v → s.pwrgd = true → s.periodOver .supply = true →
       Completes (.supplySample tabs) s fun u =>
         u.rf Off.RDG_SAG 44 32 = min v 8191 ∧ u.rf Off.RDG_SAG 28 16 = min (min v 8191) (s.rf Off.RDG_SAG 28 16)
           ∧ (∀ l, 1 ≤ l → l ≤ 6 →
               Table.getD 0 u.below l = (if v < sagEnter l then min 9 (Table.getD 0 s.below l + 1) else 0)
                 ∧ Table.getD 0 u.above l = (if sagLeave l ≤ v then min 9 (Table.getD 0 s.above l + 1) else 0))
           ∧ u = { s with regs := u.regs, below := u.below, above := u.above, periodAt := u.periodAt } ∧ sameRegsBut [Off.RDG_SAG] s u)
     ∧ (∀ (s : State) (l : Nat), s.pwrgd = true → 0 < l → s.rf Off.RDG_SAG 2 0 < l → Table.getD 0 s.below l = 9 →
         (l ≤ 5 → s.cycle.issued = true → Completes (.sagLevelEnter l) s fun u => u = s.post (.sagLevelEnter l))
         ∧ (l ≤ 5 → s.cycle.issued = false → Completes (.sagLevelEnter l) s fun u =>
           u.rf Off.RDG_SAG 2 0 = l ∧ u.rf Off.RDG_SAG 5 3 = max (s.rf Off.RDG_SAG 5 3) l ∧ u.rf Off.PG_IRQ_RAW 10 10 = 1
             ∧ (∀ j, 1 ≤ j → j ≤ l → j ∈ u.entered) ∧ (2 ≤ l → (2 ∈ s.entered → s.bufLimited = true) → u.bufLimited = true)
             ∧ (4 ≤ l → (4 ∈ s.entered → s.halted = true ∧ s.keepAlive = true) → u.halted = true ∧ u.keepAlive = true)
             ∧ (s.countedIn Off.RDG_PSTATE 0 = 1 → u.psTarget = none) ∧ (l = 5 → u.shutdown = true))
         ∧ (l = 6 → Completes (.sagLevelEnter l) s fun u => u = s.off))
     ∧ ∀ (s : State) (l : Nat), 0 < l → s.rf Off.RDG_SAG 2 0 = l → Table.getD 0 s.above l = 9 → Completes (.sagLevelLeave l) s fun u =>
         u.rf Off.RDG_SAG 2 0 = s.flagBelow l % 8 ∧ u.entered = s.entered ∧ u.halted = s.halted ∧ u.bufLimited = s.bufLimited
           ∧ u.rf Off.PG_IRQ_RAW 10 10 = 1)
  ∧ (∀ (s : State) (src : HostSrc), WriteReaches s src Off.RDG_SAG →
       (Completes (.sagRPrefetch src) s fun u =>
         u.rf Off.RDG_SAG 9 9 = (if 2 ≤ s.rf Off.RDG_SAG 2 0 then 1 else 0)
           ∧ u.bufLimited = (s.bufLimited && decide (2 ≤ s.rf Off.RDG_SAG 2 0)) ∧ u.halted = s.halted ∧ sameRegsBut (Off.RDG_SAG :: pcieOf src) s u)
       ∧ (4 ≤ s.rf Off.RDG_SAG 2 0 → Completes (.sagRResume src) s fun u => u.rf Off.RDG_SAG 9 9 = 1 ∧ wroteRegs src [Off.RDG_SAG] s u)
       ∧ (s.rf Off.RDG_SAG 2 0 < 4 → 4 ∈ s.entered → Completes (.sagRResume src) s fun u =>
           u.halted = false ∧ u.haltSince = none ∧ u.keepAlive = decide (s.pstate = 3) ∧ u.selfRefresh = decide (s.pstate = 3) ∧ 4 ∉ u.entered)
       ∧ (Completes (.sagClrMax src) s fun u =>
           u.rf Off.RDG_SAG 5 3 = s.rf Off.RDG_SAG 2 0 ∧ u.rf Off.RDG_SAG 28 16 = s.rf Off.RDG_SAG 44 32 % 2 ^ 13
             ∧ u.rf Off.RDG_SAG 2 0 = s.rf Off.RDG_SAG 2 0 ∧ wroteRegs src [Off.RDG_SAG] s u))

/-- Thermal protection (rests on R416, R438): 110 °C forces the divider, sets TRIP, pulls THERMTRIP# low and raises THERM; a die that has not
read below 120 °C for 10 ms performs the shutdown and sets CRIT, the sag flag stays; a sample sets TJ and its maximum. THERM_CLEAR
(rests on R31, R416): with every junction below
105 °C the trip ends and THERMTRIP# is high; else nothing changes. -/
def Obligations.ThermalProtection : Prop :=
  ((∀ (s : State) (d temp : Nat), s.pwrgd = true → d < 64 → 110 ≤ temp → s.rf Off.RDG_THERM 0 0 = 0 → Completes (.thermalTrip d temp) s fun u =>
         u.rf Off.RDG_THERM 0 0 = 1 ∧ u.thermtrip = true ∧ u.rf Off.RDG_CLK 4 4 = 1 ∧ u.rf Off.PG_IRQ_RAW 11 11 = 1
           ∧ u.divPend = (if s.eff = 2 then none else some ⟨2, false, s.now⟩) ∧ sameMemory s u)
     ∧ (∀ (s : State) (d : Nat), s.pwrgd = true → d < 64 → s.alive d = true → s.rf Off.RDG_THERM 2 2 = 0 → 120 ≤ s.rf (bar0 d 1 Off.PRL_TEMP) 7 0 →
         s.periodOver (.hot d) = true → Completes (.thermalCrit d) s fun u =>
         u.rf Off.RDG_THERM 2 2 = 1 ∧ u.shutdown = true ∧ u.rf Off.RDG_SAG 2 0 = s.rf Off.RDG_SAG 2 0)
     ∧ ∀ (s : State) (d temp : Nat), d < 64 → dieKind d ≠ .dormer → s.alive d = true → s.periodOver (.temperature d) = true →
       Completes (.temperatureSample d temp) s fun u =>
         u.rf (bar0 d 1 Off.PRL_TEMP) 7 0 = min temp 255 ∧ u.rf (bar0 d 1 Off.PRL_TEMP) 15 8 = max (s.rf (bar0 d 1 Off.PRL_TEMP) 15 8) (min temp 255)
           ∧ Table.getD 0 u.periodAt (PeriodOf.hot d).key = (if temp < 120 then s.now else Table.getD 0 s.periodAt (PeriodOf.hot d).key)
           ∧ u = { s with regs := u.regs, cycle := u.cycle, periodAt := u.periodAt } ∧ sameRegsBut [bar0 d 1 Off.PRL_TEMP] s u)
  ∧ (∀ (s : State) (src : HostSrc), WriteReaches s src Off.RDG_THERM →
       (s.hottest.1 < 105 → Completes (.thermClear src) s fun u =>
         u.rf Off.RDG_THERM 0 0 = 0 ∧ u = { s with regs := u.regs, thermtrip := false } ∧ sameRegsBut (Off.RDG_THERM :: pcieOf src) s u)
       ∧ (105 ≤ s.hottest.1 → Completes (.thermClear src) s fun u => u.thermtrip = s.thermtrip ∧ wroteRegs src [] s u))

/-- The package tables that a register writes: RDG_NODE only while no route stands (rests on R313), a band's kinds only while the table stays
consistent (rests on R200), RDG_PTP (rests on R289), a context's translation cache emptied only while it has no launch (rests on R380).
A write of EAV_PCTL restarts the port with the lanes of its MODE powered; the
registers of edges, Rafter dies and sites that act (rests on R34, R287, R312, R321, R338, R366, R367, R368). -/
def Obligations.PackageAndDieRegisterWrites : Prop :=
  (∀ (s : State) (src : HostSrc),
       (∀ n, n < 2 ^ 20 → WriteReaches s src Off.RDG_NODE →
         (s.routes = [] → Completes (.nodeWrite src n) s fun u => u.node = n ∧ u.rf Off.RDG_NODE 20 20 = 0 ∧ wroteRegs src [Off.RDG_NODE] s u)
         ∧ (s.routes ≠ [] → Completes (.nodeWrite src n) s fun u =>
             u.node = s.node ∧ u.rf Off.RDG_NODE 20 20 = 1 ∧ wroteRegs src [Off.RDG_NODE] s u))
       ∧ (∀ kinds, kinds < 2 ^ 32 → WriteReaches s src Off.RDG_BAND →
         (bandOk kinds = true → Completes (.bandWrite src kinds) s fun u =>
           (∀ t, u.bandKind (s.rf Off.RDG_BANDSEL 5 0) t = kinds / 4 ^ t % 4)
             ∧ (∀ b t, b ≠ s.rf Off.RDG_BANDSEL 5 0 → u.bandKind b t = s.bandKind b t) ∧ u.rf Off.RDG_BAND 32 32 = 0
             ∧ sameRegsBut (Off.RDG_BAND :: pcieOf src) s u)
         ∧ (bandOk kinds = false → Completes (.bandWrite src kinds) s fun u => u.rf Off.RDG_BAND 32 32 = 1 ∧ wroteRegs src [Off.RDG_BAND] s u))
       ∧ (∀ v, WriteReaches s src Off.RDG_PTP → Completes (.ptpSelect src v) s fun u =>
           u.rf Off.RDG_PTP 14 0 = fld v 14 0 ∧ (fld v 14 14 = 0 → u.ptpLocked = false) ∧ sameRegsBut (Off.RDG_PTP :: pcieOf src) s u)
       ∧ (∀ c, c < 1024 → WriteReaches s src Off.RDG_XLATE_INV →
         (s.busy c = false → Completes (.xlateInv src c) s fun u =>
           (u.ctx c).tlb = [] ∧ u.rf Off.RDG_XLATE_INV 11 11 = 0 ∧ (∀ k, k ≠ c → u.ctx k = s.ctx k)
             ∧ sameRegsBut (Off.RDG_XLATE_INV :: pcieOf src) s u)
         ∧ (s.busy c = true → Completes (.xlateInv src c) s fun u =>
           u.rf Off.RDG_XLATE_INV 11 11 = 1 ∧ wroteRegs src [Off.RDG_XLATE_INV] s u)))
  ∧ ((∀ (s : State) (src : HostSrc) (p : Nat) (v : Word), p < 64 → WriteReaches s src (portReg p Off.EAV_PCTL) →
       Completes (.eavPctlWrite src p v) s fun u =>
         u.rf (portReg p Off.EAV_PCTL) 17 0 = fld v 17 0 ∧ u.rf (portReg p Off.EAV_PCTL) 41 32 = fld v 41 32
           ∧ u.portUpNow p = false ∧ u.portFailed p = false ∧ (u.port p).lanes = List.range (modeLanes (fld v 1 0)))
     ∧ (∀ (s : State) (src : HostSrc) (d dir mask : Nat), d < 64 → dir < 4 → mask < 256 → dieKind d ≠ .dormer →
       WriteReaches s src (btnReg d dir Off.BTN_RETIRE) →
       let a := btnReg d dir Off.BTN_RETIRE
       Completes (.strandRetire src d dir mask) s fun u =>
         u.rf a 7 0 = mask ∧ u.rf a 8 8 = (if neighbour d dir = none ∨ u.strands d dir < 7 then 1 else 0) ∧ wroteRegs src [a] s u)
     ∧ (∀ (s : State) (src : HostSrc) (i : Nat), i < 2 → WriteReaches s src (dmrReg i Off.DMR_CTL) → s.siteOn i = false →
       Completes (.sitePowerOn src i) s fun u =>
         u.siteOn i = true ∧ u.rf (dmrReg i Off.DMR_CTL) 0 0 = 1 ∧ u.guestRate i = s.guestRate i ∧ (u.site i).bucket = 0 ∧ (u.site i).bucketAt = s.now
           ∧ sameRegsBut ([dmrReg i Off.DMR_CTL, dmrReg i Off.DMR_STS] ++ pcieOf src) s u)
     ∧ ∀ (s : State) (src : HostSrc) (r : Nat), r < 36 →
       let d := rafterDie r
       (WriteReaches s src (bar0 d 0 Off.RFT_AGE_CMD) → Completes (.epoch src r) s fun u =>
           u.rf (bar0 d 0 Off.RFT_AGE_STS) 1 0 = 1
             ∧ (s.rf (bar0 d 0 Off.RFT_AGE_STS) 1 0 ≠ 1 → Table.getD 0 u.periodAt (PeriodOf.epoch r).key = s.now)
             ∧ u = { s with regs := u.regs, cycle := u.cycle, periodAt := u.periodAt }
             ∧ sameRegsBut (bar0 d 0 Off.RFT_AGE_STS :: pcieOf src) s u)
       ∧ (∀ n, n < 16 → WriteReaches s src (bar0 d 0 Off.RFT_VOFF) → Completes (.voffWrite src r n) s fun u =>
           u.rf (bar0 d 0 Off.RFT_VOFF) 3 0 = n ∧ u.rf (bar0 d 0 Off.RFT_VOFF) 7 4 = s.rf (bar0 d 0 Off.RFT_VOFF) 7 4
             ∧ wroteRegs src [bar0 d 0 Off.RFT_VOFF] s u)
       ∧ ∀ t sp, t < 2304 → WriteReaches s src (bar0 d 0 Off.RFT_RETIRE) → (List.range 2304).find? (s.rafter r).freeSpare = some sp →
           s.tileRuns r t = false → (s.rafter r).enabled t = true → (∀ x ∈ (s.rafter r).retired, x.tile ≠ t) →
           Completes (.tileRetire src r t) s fun u =>
             (u.rafter r).retired = (s.rafter r).retired ++ [⟨t, sp, true⟩] ∧ u.rf (bar0 d 0 Off.RFT_RETIRE) 13 13 = 0
               ∧ sameRegsBut (bar0 d 0 Off.RFT_RETIRE :: pcieOf src) s u)

/-- The rings and event log of a context (rests on R332, R371, R382, R390, R392, R395): the doorbell moves TAIL, but not during a reset or
while the Ridge of the context's port is lost; HEAD and CPL_BASE are taken, the
front record of the mailbox is acknowledged, ring and log addresses change only while the ring is idle, READ follows the host but for a later
value that an overwrite of the cycle left. CTX_STEP,
CTX_RNG_STEP and CTX_DATA_CURSOR (rests on R258): taken while no launch runs, refused with WREJ while one does. -/
def Obligations.RingLogAndTrainingWrites : Prop :=
  (∀ (s : State) (src : HostSrc) (c : Nat), c < 1024 →
       (∀ tail, tail < 2 ^ 16 → WriteReaches s src (ctxA c Off.CTX_DOORBELL) → (s.ctx c).phase ≠ .resetting →
         s.alive (ridgeOf (s.ctx c).boundB) = true → s.rf Off.RDG_FWACT 0 0 = 0 →
         Completes (.doorbell src (some c) tail) s fun u =>
           u.cf c Off.CTX_CMD_PTR 31 16 = tail % 2 ^ s.cf c Off.CTX_CMD_CTL 4 0 % 2 ^ 16 ∧ u.cf c Off.CTX_CMD_PTR 15 0 = s.cf c Off.CTX_CMD_PTR 15 0
             ∧ wroteRegs src [ctxA c Off.CTX_CMD_PTR] s u)
       ∧ (∀ tail, WriteReaches s src (ctxA c Off.CTX_DOORBELL) → ((s.ctx c).phase = .resetting ∨ s.alive (ridgeOf (s.ctx c).boundB) = false) →
         Completes (.doorbell src (some c) tail) s fun u => wroteRegs src [] s u)
       ∧ (∀ head, head < 2 ^ 16 → WriteReaches s src (ctxA c Off.CTX_CPL_CTL) → Completes (.cplHeadWrite src c head) s fun u =>
           u.cf c Off.CTX_CPL_CTL 31 16 = head ∧ ((s.ctx c).held = [] → wroteRegs src [ctxA c Off.CTX_CPL_CTL] s u))
       ∧ (∀ base, WriteReaches s src (ctxA c Off.CTX_CPL_BASE) → Completes (.cplBaseWrite src c base) s fun u =>
           u.reg (ctxA c Off.CTX_CPL_BASE) = BitVec.ofNat 64 (fld base 63 12 * 2 ^ 12)
             ∧ (u.ctx c).rebinding = ((s.ctx c).rebinding && decide ((s.ctx c).boundB ≠ s.srcPort src)) ∧ (∀ k, k ≠ c → u.ctx k = s.ctx k))
       ∧ (∀ seq, WriteReaches s src (ctxA c Off.CTX_RES_ACK) →
         (∀ x rest, (s.ctx c).mailbox = x :: rest → x.seq = seq → Completes (.resAck src c seq) s fun u =>
           (u.ctx c).mailbox = rest ∧ (u.ctx c).lastAck = seq ∧ u.cf c Off.CTX_RES_STS 7 7 = 0
             ∧ sameRegsBut (ctxA c Off.CTX_RES_STS :: pcieOf src) s u)
         ∧ ((∀ x rest, (s.ctx c).mailbox = x :: rest → x.seq ≠ seq) → Completes (.resAck src c seq) s fun u =>
           u.cf c Off.CTX_RES_STS 7 7 = 1 ∧ wroteRegs src [ctxA c Off.CTX_RES_STS] s u))
       ∧ (∀ v, s.ringWaits (.ctx c) = false → s.busy c = false →
         (WriteReaches s src (ctxA c Off.CTX_CMD_BASE) → Completes (.cmdRingConfigWrite src c false v) s fun u =>
           u.reg (ctxA c Off.CTX_CMD_BASE) = BitVec.ofNat 64 (fld v 47 12 * 2 ^ 12) ∧ u.reg (ctxA c Off.CTX_CMD_PTR) = 0
             ∧ wroteRegs src [ctxA c Off.CTX_CMD_BASE, ctxA c Off.CTX_CMD_PTR] s u)
         ∧ (WriteReaches s src (ctxA c Off.CTX_CMD_CTL) → Completes (.cmdRingConfigWrite src c true v) s fun u =>
           u.cf c Off.CTX_CMD_CTL 4 0 = max 4 (min 16 (fld v 4 0)) ∧ u.reg (ctxA c Off.CTX_CMD_PTR) = 0
             ∧ wroteRegs src [ctxA c Off.CTX_CMD_CTL, ctxA c Off.CTX_CMD_PTR] s u))
       ∧ (∀ v isCtl, (s.ringWaits (.ctx c) = true ∨ s.busy c = true) →
           WriteReaches s src (ctxA c (if isCtl then Off.CTX_CMD_CTL else Off.CTX_CMD_BASE)) →
           Completes (.cmdRingConfigWrite src c isCtl v) s fun u => wroteRegs src [] s u)
       ∧ (∀ v, WriteReaches s src (ctxA c Off.CTX_EVLOG_BASE) → Completes (.evlogConfigWrite src c false v) s fun u =>
           u.reg (ctxA c Off.CTX_EVLOG_BASE) = BitVec.ofNat 64 (fld v 47 16 * 2 ^ 16) ∧ u.reg (ctxA c Off.CTX_EVLOG_PTR) = 0
             ∧ wroteRegs src [ctxA c Off.CTX_EVLOG_BASE, ctxA c Off.CTX_EVLOG_PTR] s u)
       ∧ (∀ v, WriteReaches s src (ctxA c Off.CTX_EVLOG_CTL) → Completes (.evlogConfigWrite src c true v) s fun u =>
           u.cf c Off.CTX_EVLOG_CTL 4 0 = max 10 (min 24 (fld v 4 0))
             ∧ (u.cf c Off.CTX_EVLOG_CTL 4 0 ≠ s.cf c Off.CTX_EVLOG_CTL 4 0 → u.reg (ctxA c Off.CTX_EVLOG_PTR) = 0)
             ∧ wroteRegs src [ctxA c Off.CTX_EVLOG_CTL, ctxA c Off.CTX_EVLOG_PTR, ctxA c Off.CTX_EVLOG_LOST] s u)
       ∧ (∀ q : BitVec 32, WriteReaches s src (ctxA c Off.CTX_EVLOG_PTR) → Completes (.evlogReadWrite src c q) s fun u =>
           let old := s.cf c Off.CTX_EVLOG_PTR 63 32
           let new := if laterMod 32 q.toNat (s.cf c Off.CTX_EVLOG_PTR 31 0) then s.cf c Off.CTX_EVLOG_PTR 31 0 else q.toNat
           u.cf c Off.CTX_EVLOG_PTR 63 32
               = (if s.countedIn (ctxA c Off.CTX_EVLOG_PTR) 32 ≠ 0 ∧ laterMod 32 old new then old else new)
             ∧ u.cf c Off.CTX_EVLOG_PTR 31 0 = s.cf c Off.CTX_EVLOG_PTR 31 0 ∧ wroteRegs src [ctxA c Off.CTX_EVLOG_PTR] s u)
       ∧ (WriteReaches s src (ctxA c Off.CTX_EVLOG_CTL) → 10 ≤ s.cf c Off.CTX_EVLOG_CTL 4 0 → s.cf c Off.CTX_EVLOG_CTL 4 0 ≤ 24 →
           Completes (.evlogClrLost src c) s fun u =>
             u.reg (ctxA c Off.CTX_EVLOG_LOST) = 0 ∧ wroteRegs src [ctxA c Off.CTX_EVLOG_LOST] s u))
  ∧ (∀ (s : State) (src : HostSrc) (c which : Nat) (v : Word), c < 1024 → WriteReaches s src (ctxA c (trainingOff which)) →
       ((s.ctx c).running = none → Completes (.trainingRegisterWrite src c which v) s fun u =>
         u.cf c (trainingOff which) 47 0 = fld v 47 0 ∧ u.cf c Off.CTX_VERDICT 59 59 = 0 ∧ u.cf c Off.CTX_VERDICT 58 0 = s.cf c Off.CTX_VERDICT 58 0
           ∧ wroteRegs src [ctxA c (trainingOff which), ctxA c Off.CTX_VERDICT] s u)
       ∧ ((s.ctx c).running.isSome = true → Completes (.trainingRegisterWrite src c which v) s fun u =>
         u.cf c Off.CTX_VERDICT 59 59 = 1 ∧ u.cf c Off.CTX_VERDICT 58 0 = s.cf c Off.CTX_VERDICT 58 0 ∧ wroteRegs src [ctxA c Off.CTX_VERDICT] s u))

/-- Package supplies and cold reset (rests on R31, R37, R415): PWR_EN falling turns the package off; PKG_PWRGD rising and PERST# of the
managing port reset it, flash, pins and host memory kept; PERST# of the other port takes its link down and resets its physical function
and the binding state of its virtual functions: a rebinding under way there, the model's reading (log 58). Package warm reset (rests on R417): accepted with CODE 0x5741 below sag level 4, at once or after firmware activation; memory and
the time base stay, memory refreshing itself until the end of it (rests on R198), contexts keep descriptor and binding, every power-state and sag action ends. At its end the divider is set afresh and
WARM_COUNT advances. -/
def Obligations.PackageResets : Prop :=
  (∀ s : State,
       (Completes .pwrEnRise s fun u => u = { s with pwrEn := true })
       ∧ (Completes .pwrEnFall s fun u => u.pwrEn = false ∧ u.pwrgd = false ∧ u.tb = 0 ∧ u.regs = [] ∧ u.ctxs = [] ∧ u.mem = []
           ∧ u.flashA = s.flashA ∧ u.flashB = s.flashB)
       ∧ (s.pwrEn = true → s.pwrgd = false → Completes .pkgPwrgd s fun u =>
           u.pwrgd = true ∧ u.tb = 0 ∧ u.regs = [] ∧ u.ctxs = [] ∧ u.mem = [] ∧ (∀ d, u.die d = Die.init) ∧ u.flashA = s.flashA
             ∧ u.flashB = s.flashB ∧ u.hostMem = s.hostMem)
       ∧ (s.pwrgd = true → Completes .perstMgmtAssert s fun u =>
           u.perst s.roleB = true ∧ u.tb = 0 ∧ u.regs = [] ∧ u.ctxs = [] ∧ u.mem = [] ∧ u.roleB = false ∧ u.hostMem = s.hostMem)
       ∧ (s.pwrgd = false → Completes .perstMgmtAssert s fun u => u = s.setPerst s.roleB true)
       ∧ (s.pwrgd = true → Completes .perstOtherAssert s fun u =>
           u.perst (!s.roleB) = true ∧ u.hostLink (!s.roleB) = false ∧ u.hostLink s.roleB = s.hostLink s.roleB 
             ∧ (s.Inv → ∀ c, u.ctx c = { s.ctx c with rebinding := (s.ctx c).rebinding && decide ((s.ctx c).boundB = s.roleB) })
             ∧ u.heldOf (.pf (!s.roleB)) = [] ∧ u.mailOf (.pf (!s.roleB)) = [] ∧ sameMemory s u
             ∧ (∀ a, offOf (homeAddr a) < 0x700 ∨ 0x768 < offOf (homeAddr a) → u.reg a = s.reg a))
       ∧ ∀ b, Completes (.perstDeassert b) s fun u => u = s.setPerst b false)
  ∧ ((∀ (s : State) (src : HostSrc), s.Inv → WriteReaches s src Off.RDG_PKG_RESET → s.rf Off.RDG_SAG 2 0 < 4 →
       (s.rf Off.RDG_FWACT 0 0 = 0 → Completes (.pkgResetWrite src 0x5741 true) s fun u =>
         u.tb = s.tb ∧ (∀ c, (u.ctx c).cfg = (s.ctx c).cfg ∧ (u.ctx c).boundB = (s.ctx c).boundB ∧ (u.ctx c).plan = none ∧ (u.ctx c).running = none
             ∧ (u.ctx c).phase = .normal)
           ∧ u.warmActive = true ∧ u.pstate = 0 ∧ u.groups = [] ∧ u.scratch = [] ∧ u.halted = false ∧ u.selfRefresh = true ∧ u.routes = s.routes)
       ∧ (s.rf Off.RDG_FWACT 0 0 = 1 → Completes (.pkgResetWrite src 0x5741 true) s fun u =>
         u.rf Off.RDG_PKG_RESET 18 18 = 1 ∧ u.rf Off.RDG_PKG_RESET 17 17 = 0 ∧ wroteRegs src [Off.RDG_PKG_RESET] s u))
     ∧ (∀ (s : State) (src : HostSrc) (code : Nat) (go : Bool), WriteReaches s src Off.RDG_PKG_RESET →
         (code % 2 ^ 16 ≠ 0x5741 ∨ 4 ≤ s.rf Off.RDG_SAG 2 0) → Completes (.pkgResetWrite src code go) s fun u =>
           u.rf Off.RDG_PKG_RESET 17 17 = 1 ∧ wroteRegs src [Off.RDG_PKG_RESET] s u)
     ∧ ∀ s : State, s.warmActive = true → Completes .warmResetEnd s fun u =>
         let forced := s.rf Off.RDG_THERM 0 0 = 1 ∨ s.rf Off.RDG_SAG 2 0 = 3
         u.warmActive = false ∧ u.selfRefresh = false ∧ u.rf Off.RDG_CLK 4 4 = (if forced then 1 else 0) ∧ u.eff = (if forced then 2 else s.rf Off.RDG_CLK 1 0)
           ∧ u.rf Off.RDG_BOOT 31 16 = satPlus 16 (s.rf Off.RDG_BOOT 31 16) 1 ∧ sameMemory s u)

/-- Context reset (rests on R402), started by RDG_CTX_RESET: launches, tables, results and transfers of the context go without a completion,
but for writes that have left their tiles (rests on R401); its descriptor and binding stay, its registers take their reset values but the accounting counters and the three it keeps. It ends with
CTX_STATE IDLE. -/
def Obligations.ContextResetKeepsTheDescriptor : Prop :=
  let done (c : Nat) (s u : State) : Prop :=
    (u.ctx c).phase = .resetting ∧ (u.ctx c).cfg = (s.ctx c).cfg ∧ (u.ctx c).boundB = (s.ctx c).boundB ∧ (u.ctx c).running = none
      ∧ (u.ctx c).queue = [] ∧ (u.ctx c).plan = none ∧ (∀ e ∈ (u.ctx c).xfers, e.2.orphan = true) ∧ (u.ctx c).tiles = [] ∧ (u.ctx c).links = [] ∧ (u.ctx c).rings = []
      ∧ (u.ctx c).held = [] ∧ (u.ctx c).mailbox = [] ∧ (∀ e ∈ u.groups, e.2.ctx ≠ c)
      ∧ ∀ off, off < 2 ^ 16 → ctxKeeps off = false → off ≠ Off.CTX_PROMISE → u.reg (ctxA c off) = regReset (ctxA c off)
  (∀ (s : State) (src : HostSrc) (c : Nat), c < 1024 → WriteReaches s src Off.RDG_CTX_RESET → (s.ctx c).phase ≠ .resetting →
      Completes (.ctxReset src c) s (done c s))
  ∧ ∀ (s : State) (c : Nat), (s.ctx c).phase = .resetting → Completes (.contextResetDone c) s fun u =>
      u.ctx c = { s.ctx c with phase := .normal } ∧ onlyCtx c s u

/-- Function Level Resets (rests on R372): that of a virtual function performs the reset of its context, as RDG_CTX_RESET does, where it is
bound to that port, and nothing elsewhere; that of a physical function resets its command ring and completion state and nothing else. -/
def Obligations.FunctionLevelResets : Prop :=
  ∀ (s : State) (b : Bool), s.portUsable b = true →
    (∀ c, c < 1024 →
      ((s.ctx c).boundB = b → Completes (.flrVf b c) s fun u => u = s.ctxReset c)
      ∧ ((s.ctx c).boundB ≠ b → Completes (.flrVf b c) s fun u => u = s)
      ∧ (WriteReaches s (.pf b) Off.RDG_CTX_RESET → Completes (.ctxReset (.pf b) c) s fun u => u = s.ctxReset c))
    ∧ Completes (.flrPf b) s fun u =>
        u.heldOf (.pf b) = [] ∧ u.mailOf (.pf b) = [] ∧ (∀ off, 0x700 ≤ off → off ≤ 0x768 →
            u.reg (bar0 (ridgeOf b) 0 off) = regReset (bar0 (ridgeOf b) 0 off))
          ∧ (∀ a, (∀ off, 0x700 ≤ off → off ≤ 0x768 → homeAddr a ≠ bar0 (ridgeOf b) 0 off) → u.reg a = s.reg a)
          ∧ u = if b then { s with regs := u.regs, pfHeldB := [], pfMailB := [], pfAckB := u.pfAckB, pfPhaseB := u.pfPhaseB }
            else { s with regs := u.regs, pfHeldA := [], pfMailA := [], pfAckA := u.pfAckA, pfPhaseA := u.pfPhaseA }

/-- Bring-up (rests on R228, R420 to R422): a Ridge boots its primary image, else its secondary, else recovery; then a Thatch die, an Eave die
with the port configuration, a Rafter die with its spares, the same at every bring-up (rests on R21), and its replacements become ready. Ports, edges, discovery and the die table (rests
on R287, R323, R324, R447): the wave that leaves a die which stands at its position gives each neighbour its own. -/
def Obligations.BringUp : Prop :=
  ((∀ (s : State) (b : Bool), s.alive (ridgeOf b) = true → (s.die (ridgeOf b)).ready = false → Completes (.ridgeBootDone b) s fun u =>
         (u.die (ridgeOf b)).ready = true
           ∧ u.rf (bar0 (ridgeOf b) 0 Off.RDG_BOOT) 0 0 = b2n ((s.flash b).primary || (s.flash b).secondary)
           ∧ u.rf (bar0 (ridgeOf b) 0 Off.RDG_BOOT) 1 1 = b2n (!(s.flash b).primary && (s.flash b).secondary)
           ∧ (∀ d, d ≠ ridgeOf b → u.die d = s.die d) ∧ sameRegsBut [bar0 (ridgeOf b) 0 Off.RDG_BOOT] s u)
     ∧ (∀ (s : State) (t : Nat), t < 16 → s.mayReady (thatchDie t) = true → Completes (.thatchReady t) s fun u =>
         (u.die (thatchDie t)).ready = true ∧ (∀ d, d ≠ thatchDie t → u.die d = s.die d) ∧ u = { s with dies := u.dies })
     ∧ (∀ (s : State) (e : Nat), e < 8 → s.mayReady (eaveDie e) = true → Completes (.eaveReady e) s fun u =>
         (u.die (eaveDie e)).ready = true
           ∧ u.rf Off.RDG_BOOT 2 2 = (match (s.flash s.roleB).portCfg with
               | none => 0
               | some (signed, b) => b2n (portCfgOk signed b))
           ∧ ∀ b, (s.flash s.roleB).portCfg = some (true, b) → portCfgOk true b = true → ∀ i, i < 8 →
               u.rf (portReg (8 * e + i) Off.EAV_PCTL) 17 0 = fld (portImages b (8 * e + i)).1 17 0
                 ∧ u.rf (portReg (8 * e + i) Off.EAV_LANE_INV) 15 0 = fld (portImages b (8 * e + i)).2 15 0)
     ∧ ∀ (s : State) (r : Nat) (spares failed : List Nat), r < 36 → s.mayReady (rafterDie r) = true →
         let sp := (Table.get? s.fusedSpares r).getD (tileIds spares)
         let only (u : State) : Prop := sameRegsBut [bar0 (rafterDie r) 0 Off.RFT_RETIRE, bar0 (rafterDie r) 0 Off.RFT_BOOT] s u
         ((s.rafter r).spares = [] → sp.length = 64 → Completes (.rafterReady r spares failed) s fun u =>
           (u.die (rafterDie r)).ready = true ∧ u.rafter r = selfTest sp (tileIds failed) ∧ Table.get? u.fusedSpares r = some sp ∧ only u)
         ∧ ((s.rafter r).spares ≠ [] → Completes (.rafterReady r spares failed) s fun u =>
           (u.die (rafterDie r)).ready = true ∧ u.rafter r = s.rafter r ∧ only u))
  ∧ ((∀ (s : State) (p : Nat), p < 64 → s.alive (portDie p) = true → (s.die (portDie p)).ready = true → s.rf (portReg p Off.EAV_PCTL) 1 0 ≠ 0 →
         s.rf (portReg p Off.EAV_PSTS) 1 0 = 0 → Completes (.portUp p) s fun u => u.portUpNow p = true ∧ u.portFailed p = false ∧ sameMemory s u)
     ∧ (∀ (s : State) (d dir n : Nat), d < 64 → dir < 4 → neighbour d dir = some n → s.alive d = true → s.alive n = true →
         s.rf (btnReg d dir Off.BTN_EDGE_STS) 1 0 = 0 → Completes (.edgeTrained d dir) s fun u =>
           u.rf (btnReg d dir Off.BTN_EDGE_STS) 1 0 = 1 ∧ u.rf (btnReg n (opposite dir) Off.BTN_EDGE_STS) 1 0 = 1 ∧ onlyRegs s u
             ∧ sameRegsBut [btnReg d dir Off.BTN_EDGE_STS, btnReg n (opposite dir) Off.BTN_EDGE_STS] s u)
     ∧ (∀ (s : State) (d dir k : Nat) (p : Nat × Nat), d < 64 → s.waveOn d dir = some p → p.1 < 8 → p.2 < 8 →
         ((s.die d).coord = none → Completes (.discoveryWave d dir k) s fun u =>
           (u.die d).coord = some p ∧ (u.die d).prlReady = true ∧ (u.die d).conflict = (s.die d).conflict
             ∧ (u.die d).wrongKind = ((s.die d).wrongKind || decide (k ≠ dieKindCode d)) ∧ u.rf (bar0 d 1 Off.PRL_COORD) 2 0 = p.1
             ∧ u.rf (bar0 d 1 Off.PRL_COORD) 5 3 = p.2 ∧ sameRegsBut [bar0 d 1 Off.PRL_COORD] s u)
         ∧ (∀ q, (s.die d).coord = some q → Completes (.discoveryWave d dir k) s fun u =>
           (u.die d).coord = some q ∧ (u.die d).conflict = ((s.die d).conflict || decide (q ≠ p)) ∧ u = { s with dies := u.dies }))
     ∧ (∀ d dir n, d < 64 → dir < 4 → neighbour d dir = some n → hopCoord (n % 8, n / 8) (opposite dir) = (d % 8, d / 8))
     ∧ ∀ s : State, s.alive s.mgr = true → s.shutdown = false → s.cycle.issued = false → Completes .dieTableBuild s fun u =>
         (u.die s.mgr).coord.isSome = true ∧ (u.die s.mgr).fenced = false
           ∧ ∀ d, d < 64 → d ≠ s.mgr → dieKind d ≠ .dormer → (s.die d).reported = false → (u.die d).fenced = true)

/-- Firmware (rests on R32, R403, R420, R422): activation over an addressed management bus sets FWACT, FWACT over the PF ring completes, its end raises FWACT_DONE in every
context; a PLDM update writes one part of one Ridge's flash. Host links with their negotiated width (rests on R36), configuration requests, the management bus and the test access
port (rests on R31, R32). -/
def Obligations.FirmwareAndHostPorts : Prop :=
  ((∀ s : State, s.released = true → s.i3cUp s.roleB = true → Completes .firmwareActivation s fun u => u.rf Off.RDG_FWACT 0 0 = 1 ∧ sameMemory s u)
     ∧ (∀ s : State, s.rf Off.RDG_FWACT 0 0 = 1 → s.rf Off.RDG_PKG_RESET 18 18 = 0 → Completes .firmwareActivationEnd s fun u =>
         u.rf Off.RDG_FWACT 0 0 = 0 ∧ (∀ c, c < 1024 → u.cf c Off.CTX_IRQ_RAW 6 6 = 1) ∧ Msix.mk s.roleB none 8 ∈ u.msix ∧ sameMemory s u)
     ∧ (∀ (s : State) (b : Bool) (p : FlashPart), s.i3cUp b = true → Completes (.pldmFirmwareUpdate b p) s fun u =>
         u = if b then { s with flashB := s.flashB.put p } else { s with flashA := s.flashA.put p }))
  ∧ (∀ s : State,
       (∀ b w r inv, s.alive (ridgeOf b) = true → s.perst b = false → w ∈ [16, 8, 4, 2, 1] → Completes (.hostLinkUp b w r inv) s fun u =>
           u.hostLink b = true ∧ u.hostLink (!b) = s.hostLink (!b) ∧ u = s.setHostLink b (some ⟨w, r, inv.filter (· < 16)⟩))
       ∧ (∀ b, s.hostLink b = true → s.alive (ridgeOf b) = true → Completes (.configurationRequest b) s fun u =>
           u = { s with rrs := s.rrs ++ [(b, !(s.die (ridgeOf b)).ready)] })
       ∧ (∀ b addr, s.ridgeReady b = true → Completes (.dynamicAddressAssignment b addr) s fun u =>
           u = if b then { s with i3cB := some addr } else { s with i3cA := some addr })
       ∧ (∀ ir, Completes (.testAccessPort (.boundaryScan ir)) s fun u => u = s)
       ∧ (Completes (.testAccessPort (.unlock true)) s fun u => u = { s with tapUnlocked := true })
       ∧ (Completes (.testAccessPort (.unlock false)) s fun u => u = s)
       ∧ (s.tapUnlocked = false → Completes (.testAccessPort .internalChain) s fun u => u = s)
       ∧ (s.tapUnlocked = true → exec (.testAccessPort .internalChain) s = .refused .internalTestChain))

/-- LAUNCH_READY (rests on R384, R408, R410, R448): in another power state the head launch only notes that its cycle has passed; with a launch
running it completes with START_PASSED (3), with a plan for another divider with PSTATE_MISMATCH (4); else it runs, every tile at the
start of its plan with its counters at 0, and its tables that do not translate for writing fault it (20). LAUNCH_T0 (rests on R189, R237, R243, R244, R253, R258): the launch has started with the
registers as they stand, every verdict slot of its plans open with the next value of its group's sequence, every tile's verdict flags and
sums 0. -/
def Obligations.LaunchesStart : Prop :=
  (∀ (s : State) (c : Nat) (l : Launch) (rest : List Launch), (s.ctx c).queue = l :: rest → (s.ctx c).phase = .normal → l.t0 ≤ s.now + 4000 →
       let refused (status : Nat) (u : State) : Prop :=
         ∃ z, onlyCtx c s z ∧ z.ctx c = { s.ctx c with queue := rest } ∧ u = z.complete (.ctx c) (s.cpl l.seq 2 status l.t0 0)
       (s.pstate ≠ 0 ∨ s.psTarget.isSome = true → Completes (.launchReady c) s fun u =>
         u.ctx c = { s.ctx c with queue := { l with missed := true } :: rest } ∧ onlyCtx c s u)
       ∧ (s.pstate = 0 → s.psTarget = none →
         ((s.ctx c).running.isSome = true → Completes (.launchReady c) s (refused 3))
         ∧ ((s.ctx c).running = none → (s.ctx c).plan.map (·.divider) ≠ some s.eff → Completes (.launchReady c) s (refused 4))
         ∧ ((s.ctx c).running = none → (s.ctx c).plan.map (·.divider) = some s.eff → s.tablesOk c = true → Completes (.launchReady c) s fun u =>
             (u.ctx c).running = some l.run ∧ (u.ctx c).queue = rest ∧ onlyCtx c s u
               ∧ ∀ v, 0 < (s.tile c v).length →
                 let y := u.tile c v
                 y = { (s.tile c v).arm l.t0 with frames := y.frames, ptrSeg := y.ptrSeg } ∧ y.running = true ∧ y.pos = 0 ∧ y.tokens = [])
         ∧ ((s.ctx c).running = none → (s.ctx c).plan.map (·.divider) = some s.eff → s.tablesOk c = false → Completes (.launchReady c) s fun u =>
             (u.ctx c).running = some l.run ∧ (⟨c, 20, none⟩ : PendFault) ∈ u.cycle.faults)))
  ∧ (∀ (s : State) (c : Nat) (r : Running), (s.ctx c).running = some r → r.started = false → r.t0 ≤ s.now → c < 1024 →
       Completes (.launchT0 c) s fun u => ∃ r', (u.ctx c).running = some r'
         ∧ r'.seq = r.seq ∧ r'.t0 = r.t0 ∧ r'.started = true ∧ r'.step0.toNat = s.cf c Off.CTX_STEP 47 0 ∧ r'.seed = s.reg (ctxA c Off.CTX_SEED)
         ∧ r'.normLimit.toNat = s.cf c Off.CTX_NORM_LIMIT 31 0 ∧ r'.stride = s.reg (ctxA c Off.CTX_DATA_STRIDE)
         ∧ (∀ k, Table.get? r'.newest0 k = (Table.get? (s.ctx c).rings k).map (·.newest))
         ∧ (∀ v, (u.tile c v).flags = 0 ∧ (u.tile c v).nsum = 0 ∧ (u.tile c v).ssum = 0 ∧ (u.tile c v).tokens = (s.tile c v).tokens)
         ∧ (∀ v, v < 4 → u.reg (ctxA c (Off.CTX_VSLOT_STS + 0x10 * v)) = 0)
         ∧ (∀ v d g, (s.ctx c).plan.map (·.slots) = some [(v, d)] → Table.get? s.groups d.group = some g → g.ctx = c →
             (∃ x, Table.get? r'.slots v = some x ∧ x.seq = some g.seq ∧ x.epoch = g.epoch ∧ x.state = 0)
               ∧ Table.get? u.groups d.group = some { g with seq := g.seq + 1 })
         ∧ sameMemory s u ∧ ∀ k, k ≠ c → u.ctx k = s.ctx k)

/-- LAUNCH_END (rests on R384, R389): once no tile runs the launch is over and completes with T₀, the final decision and CTX_STEP. A
completion (rests on R389 to R391) is written at the end of its cycle (rests on R392, R444): the mailbox takes it, or overruns when it holds 32; the ring takes it unless records are held or it is
full, and then it is held; COMPLETION is raised. -/
def Obligations.LaunchesEndAndComplete : Prop :=
  (∀ (s : State) (c : Nat) (r : Running), (s.ctx c).running = some r → r.started = true → (∀ e ∈ (s.ctx c).tiles, e.2.running = false) →
       Completes (.launchEnd c) s fun u => ∃ z, onlyCtx c s z ∧ (z.ctx c).running = none ∧ (z.ctx c).queue = (s.ctx c).queue
         ∧ u = z.complete (.ctx c) (s.cpl r.seq 2 0 r.t0 (r.finalDecision + s.cf c Off.CTX_STEP 47 0 * 4)) ∧ (u.ctx c).running = none)
  ∧ (∀ (s : State) (c : Nat) (x : Completion), c < 1024 →
       let u := s.putRecord (.ctx c) x
       (u.ctx c).mailbox = (if (s.ctx c).mailbox.length < 32 then (s.ctx c).mailbox ++ [x] else (s.ctx c).mailbox)
         ∧ (32 ≤ (s.ctx c).mailbox.length → u.cf c Off.CTX_RES_STS 6 6 = 1)
         ∧ (u.ctx c).held = (if (s.ctx c).held ≠ [] ∨ s.ringBlocked (.ctx c) = true then (s.ctx c).held ++ [x] else (s.ctx c).held)
         ∧ u.cf c Off.CTX_IRQ_RAW 0 0 = 1 ∧ (u.ctx c).queue = (s.ctx c).queue ∧ (u.ctx c).running = (s.ctx c).running
         ∧ (∀ k, k ≠ c → u.ctx k = s.ctx k) ∧ u.mem = s.mem ∧ u.scratch = s.scratch
         ∧ ((s.ctx c).held = [] → s.ringBlocked (.ctx c) = false → s.reg (ctxA c Off.CTX_CPL_BASE) ≠ 0 →
             u.cf c Off.CTX_CPL_STS 15 0 = (s.cf c Off.CTX_CPL_STS 15 0 % 2 ^ s.cf c Off.CTX_CPL_CTL 4 0 + 1) % 2 ^ s.cf c Off.CTX_CPL_CTL 4 0 % 2 ^ 16))
  ∧ (∀ (s : State) (r : RingOf) (x : Completion), (s.complete r x).cycle.done = s.cycle.done ++ [(r, x)]
       ∧ (s.cycle.done = [(r, x)] → s.putRecords = ({ s with cycle := { s.cycle with done := [] } } : State).putRecord r x)
       ∧ (s.complete r x).ctxs = s.ctxs ∧ (s.complete r x).regs = s.regs ∧ sameMemory s (s.complete r x))

/-- The hold watchdog (rests on R65, with R63 and R64): the limit that counts is CTX_HOLD_LIMIT or 2,000, whichever is more, and reset sets it
to 400,000. A hold that has waited longer than that, the time of a sag halt left out, faults its context with code 1 at site 1, with the
effects of ContextFaultStopsTheContext at the end of the cycle; until then
nothing happens. -/
def Obligations.HoldWatchdogFaults : Prop :=
  (∀ (s : State) (c t : Nat) (e : EntryBits), s.planEntry c t = some e → s.seqRuns c t = true → eIsHold e = true → s.dueEntry c t = none →
    let limit := if s.cf c Off.CTX_HOLD_LIMIT 31 0 < 2000 then 2000 else s.cf c Off.CTX_HOLD_LIMIT 31 0
    let start := (s.tile c t).dueAt e
    (start + limit + s.haltedSince start < s.now →
      Completes (.deadlockSuspect c t) s fun u =>
        Detected ⟨c, 1, some (1, t, (s.tile c t).index (s.tile c t).pos)⟩ s u)
    ∧ (s.now ≤ start + limit + s.haltedSince start → Completes (.deadlockSuspect c t) s fun u => u = s))
  ∧ ∀ c, c < 1024 → State.reset.cf c Off.CTX_HOLD_LIMIT 31 0 = 400000

/-- VERDICT (rests on R244, R266): the tile's flags and sums join its slot's contributions and its pending sums are 0; a tile whose
slot is already decided gets its token at once; a slot whose group is
not valid for the context faults BAD_GROUP (14). COMMIT_IF (rests on R83): after a COMMIT the commit sub-plan comes next, else the skip
sub-plan; both end after the skip sub-plan. -/
def Obligations.VerdictsAndCommitIf : Prop :=
  (∀ (s : State) (c t : Nat) (e : EntryBits) (r : Running) (x : Slot), s.dueClass c t 0x48 = some e → (s.ctx c).running = some r →
       Table.get? r.slots (ef e 209 208) = some x →
       let valid := ∃ g, Table.get? s.groups (ef e 207 196) = some g ∧ g.ctx = c
       (valid → x.seq.isSome = true → x.state ≠ 3 → Completes (.verdict c t) s fun u =>
         ∃ r', (u.ctx c).running = some r'
           ∧ Table.get? r'.slots (ef e 209 208) = some { x with
               given := x.given ++ [⟨t, (s.tile c t).flags, (s.tile c t).nsum, (s.tile c t).ssum, ef e 215 210⟩], lastGiven := s.now,
               state := if x.state = 0 then 1 else x.state }
           ∧ (u.tile c t).nsum = 0 ∧ (u.tile c t).ssum = 0 ∧ (u.tile c t).flags = (s.tile c t).flags ∧ (u.tile c t).prevA = s.now
           ∧ ∀ k, k ≠ c → u.ctx k = s.ctx k)
       ∧ (valid → x.seq.isSome = true → x.state = 3 → eIsHold e = false → Completes (.verdict c t) s fun u =>
         u.tokens c t (ef e 215 210) = min 65535 (s.tokens c t (ef e 215 210) + 1) ∧ (u.tile c t).nsum = 0 ∧ (u.tile c t).ssum = 0
           ∧ (u.tile c t).prevA = s.now ∧ ∀ k, k ≠ c → u.ctx k = s.ctx k)
       ∧ (¬valid ∨ x.seq = none → Completes (.verdict c t) s fun u =>
         (⟨c, 14, none⟩ : PendFault) ∈ u.cycle.faults ∧ (u.ctx c).tiles = (s.ctx c).tiles ∧ sameMemory s u ∧ (∀ k, k ≠ c → u.ctx k = s.ctx k)
           ∧ sameRegsBut [ctxA c Off.CTX_COLL_STS] s u
           ∧ (s.cf c Off.CTX_COLL_STS 15 12 = 0 → u.cf c Off.CTX_COLL_STS 15 12 = 1 ∧ u.cf c Off.CTX_COLL_STS 11 0 = ef e 207 196)))
  ∧ (∀ (s : State) (c t : Nat) (e : EntryBits) (r : Running), s.dueClass c t 0x49 = some e → (s.ctx c).running = some r →
       (s.tile c t).reps = [] → (s.tile c t).subEnd = none →
       let p := (s.tile c t).pos
       let clen := ef e 183 172
       let commit := (Table.get? r.slots (ef e 209 208)).map (·.decision) = some 1
       Completes (.commitIf c t) s fun u =>
         (0 < clen → commit → (u.tile c t).pos = p + 1 ∧ (u.tile c t).subEnd = some (p + 1 + clen, p + 1 + clen + ef e 171 160))
           ∧ (¬commit → (u.tile c t).pos = p + 1 + clen ∧ (u.tile c t).subEnd = none)
           ∧ (u.tile c t).prevA = s.now ∧ onlyTile c t (s.logged c t e) u)

/-- The package stage and the vote (rests on R245, R350): with every tile's contribution the package's flags and sums are formed; the vote
then leaves, its wait for the mirror counted, and a member that is not the root sends it to the root. The root's decision (rests on R246):
COMMIT exactly when no flag is set, every member is at the same step, the sum of squares is finite and its root not above the norm limit,
and no earlier verdict of the launch was SKIP; else SKIP. The sums are those of the votes in member order. The effects of a final decision
(rests on R248): COMMIT advances CTX_STEP, CTX_RNG_STEP and the data cursor, SKIP counts and advances the latter two, an aborted launch
changes none of them; CTX_VERDICT names the decision. Decisions of one cycle apply in rising slot
order (rests on R249). -/
def Obligations.VerdictStages : Prop :=
  ((∀ (s : State) (c v : Nat) (r : Running) (x : Slot), (s.ctx c).running = some r → Table.get? r.slots v = some x → (s.ctx c).phase = .normal →
         x.seq.isSome = true → x.pkg = none → x.state = 1 → x.given.length = (s.ctx c).planTiles → Completes (.packageStageEnd c v) s fun u =>
           (∃ r', (u.ctx c).running = some r'
             ∧ Table.get? r'.slots v = some { x with pkg := some (packageSum x.given), stageEnd := s.now }
             ∧ ∀ k, k ≠ v → Table.get? r'.slots k = Table.get? r.slots k)
             ∧ onlyCtx c s u ∧ (u.ctx c).tiles = (s.ctx c).tiles)
     ∧ ∀ (s : State) (c v : Nat) (r : Running) (x : Slot) (p : Contribution) (g : Group) (n : BitVec 32), c < 1024 → v < 4 →
         (s.ctx c).running = some r → Table.get? r.slots v = some x → (s.ctx c).phase = .normal → (s.ctx c).mirrorGen = none →
         x.seq = some n → x.pkg = some p → x.state = 1 → s.slotGroup c x = some g → 1 < g.members.length → g.self ≠ 0 →
         Completes (.voteSend c v) s fun u =>
           (∃ r', (u.ctx c).running = some r' ∧ Table.get? r'.slots v = some { x with state := 2 })
             ∧ u.rf (ctxA c (Off.CTX_VSLOT_STS + 0x10 * v)) 1 0 = 2
             ∧ ∃ z : State, u = z.sendCtl (g.members.getD 0 0) 4 x.group c x.epoch
                 (.vote n v p.flags p.nsum p.ssum (BitVec.ofNat 48 (s.cf c Off.CTX_STEP 47 0))))
  ∧ (∀ (votes : List VoteRec) (limit : F32) (skipped : Bool),
       let n := votes.foldl (fun a v => fadd a v.nsum) f32zero
       let d := tally votes limit skipped
       ((d.code = 1 ↔ (∀ v ∈ votes, v.flags = 0) ∧ (∀ v ∈ votes, ∀ w ∈ votes, v.step = w.step) ∧ (f32val n).nonFinite = false
           ∧ flt (fmul limit limit) n = false ∧ skipped = false)
         ∧ (d.code = 1 ∨ d.code = 2) ∧ d.nsum = n ∧ d.ssum = votes.foldl (fun a v => fadd a v.ssum) f32zero
         ∧ (d.code = 1 → d.flags = 0)))
  ∧ (∀ (s : State) (c v : Nat) (sq : BitVec 32) (d : Decision) (r : Running) (x : Slot), c < 1024 → v < 4 → (s.ctx c).running = some r → r.seq = sq →
       Table.get? r.slots v = some x → x.state ≠ 3 → (d.code = 1 ∨ d.code = 2) →
       let code := if r.aborted then 3 else d.code
       let u := s.applyDecision c sq v d
       (x.final = true →
         u.cf c Off.CTX_STEP 47 0 = (s.cf c Off.CTX_STEP 47 0 + if code = 1 then 1 else 0) % 2 ^ 48
           ∧ u.cf c Off.CTX_RNG_STEP 47 0 = (s.cf c Off.CTX_RNG_STEP 47 0 + if code = 3 then 0 else 1) % 2 ^ 48
           ∧ u.reg (ctxA c Off.CTX_DATA_CURSOR) = s.reg (ctxA c Off.CTX_DATA_CURSOR) + (if code = 3 then 0 else r.stride)
           ∧ u.cf c Off.CTX_SKIP_COUNT 31 0 = satPlus 32 (s.cf c Off.CTX_SKIP_COUNT 31 0) (if code = 2 then 1 else 0)
           ∧ u.cf c Off.CTX_VERDICT 1 0 = code ∧ u.cf c Off.CTX_VERDICT 58 58 = 0)
       ∧ (x.final = false → u.cf c Off.CTX_STEP 47 0 = s.cf c Off.CTX_STEP 47 0 ∧ u.reg (ctxA c Off.CTX_DATA_CURSOR) = s.reg (ctxA c Off.CTX_DATA_CURSOR))
       ∧ u.rf (ctxA c (Off.CTX_VSLOT_STS + 0x10 * v)) 1 0 = 3 ∧ u.rf (ctxA c (Off.CTX_VSLOT_STS + 0x10 * v)) 3 2 = code)
  ∧ (∀ (s : State) (c : Nat) (d : Due),
       ((s.noteDue c d).ctx c).due.Perm (d :: (s.ctx c).due)
         ∧ ((s.ctx c).due.Pairwise (fun a b => a.slot ≤ b.slot) → ((s.noteDue c d).ctx c).due.Pairwise fun a b => a.slot ≤ b.slot)
         ∧ s.applyDue c = forAll (s.ctx c).due (fun d t => t.applyDecision c d.seq d.slot d.decision)
             (s.modCtx c fun x => { x with due := [] }))

/-- Checkpoints (rests on R359 to R361): an enabled trigger outside the minimum gap sets PEND, a die's in the cycle in which the die raises its source; a
checkpoint that completes writes the image sealed at its COMMIT, counts, sets DONE_STEP and raises CKPT. -/
def Obligations.CheckpointsTriggerAndComplete : Prop :=
  (∀ (s : State) (c b d : Nat), (b = 0 ∧ dieKind d = .thatch ∧ thatchIdx d ∈ stacksOf (s.ctx c).set.1 (s.ctx c).set.2) ∨ (b = 1 ∧ dieKind d = .eave)
        ∨ (b = 2 ∧ dieKind d = .rafter ∧ ∃ g, (s.ctx c).cfg = some g ∧ ∃ k ∈ g.courses, rafterDie (k / 32) = d) →
      bitAt (s.cf c Off.CTX_CKPT_CTL 5 0) b = true → (s.ctx c).ckptEnd = none → c < 1024 →
      (s.raisedIn (bar0 d 0 Off.PG_IRQ_RAW)).getLsbD (ckptBit b) = true → Completes (.checkpointTrigger c b d) s fun u =>
        u.cf c Off.CTX_CKPT_STS 4 2 = b + 1 ∧ (s.cf c Off.CTX_CKPT_STS 0 0 = 0 → s.cf c Off.CTX_CKPT_STS 1 1 = 0 → u.cf c Off.CTX_CKPT_STS 0 0 = 1)
          ∧ onlyRegs s u ∧ sameRegsBut [ctxA c Off.CTX_CKPT_STS] s u)
  ∧ (∀ (s : State) (c sec : Nat), c < 1024 → s.cf c Off.CTX_CKPT_PERIOD 31 0 = sec → sec ≠ 0 → (s.ctx c).ckptEnd = none →
      (s.ctx c).ckptTimer + s.cyc (sec * 1000000000) ≤ s.now → bitAt (s.cf c Off.CTX_CKPT_CTL 5 0) 4 = true → s.privileged c = true →
      Completes (.checkpointTimer c) s fun u =>
        (u.ctx c).ckptTimer = s.now ∧ u.cf c Off.CTX_CKPT_STS 4 2 = 5 ∧ sameRegsBut [ctxA c Off.CTX_CKPT_STS] s u ∧ sameMemory s u)
  ∧ ∀ (s : State) (c bytes : Nat) (step : BitVec 48) (img : SealedImage), c < 1024 → s.cf c Off.CTX_CKPT_STS 1 1 = 1 →
      (s.ctx c).sealed_ = some (step, img) → Completes (.checkpointDone c bytes) s fun u =>
      u.cf c Off.CTX_CKPT_STS 1 1 = 0 ∧ u.cf c Off.CTX_CKPT_STS 52 5 = step.toNat
        ∧ u.cf c Off.CTX_CKPT_COUNT 31 0 = satPlus 32 (s.cf c Off.CTX_CKPT_COUNT 31 0) 1
        ∧ u.reg (ctxA c Off.CTX_BYTES_PCIE) = s.reg (ctxA c Off.CTX_BYTES_PCIE) + BitVec.ofNat 64 bytes
        ∧ (∃ i, u.images = s.images ++ [i] ∧ i.ctx = c ∧ i.step = step ∧ i.image = img) ∧ (u.ctx c).sealed_ = none
        ∧ u.cf c Off.CTX_IRQ_RAW 4 4 = 1 ∧ sameMemory s u

/-- The device's reads of memory leave every byte, and of contexts all but the translation cache (rests on R209 to R214, R379). A command that is
taken (rests on R382, R389): HEAD moves on by one entry, and a record with SEQ, OP and status joins the completions of the cycle. Entries
that do not run (rests on R379, R382, R401): a malformed entry completes with BAD_COMMAND (14), a parameter of the other ring with
PARAM_INVALID (6), any entry of a faulted context with FAULTED (10) and the fault code; an entry that cannot be read faults the context
with XLATE_FAULT (20). -/
def Obligations.RingEntriesAreTaken : Prop :=
  (∀ (s : State) (c a n : Nat), c < 1024 → Looked c s (s.liveTouch c a n) ∧ Looked c s (s.devTouch a n) ∧ (s.devTouch a n).ctxs = s.ctxs)
  ∧ (∀ (s : State) (c status w2 : Nat) (e : Bits512), c < 1024 →
       let u := s.popRing (.ctx c)
       let v := s.finish (.ctx c) e status w2
       u.cf c Off.CTX_CMD_PTR 15 0 = (s.cf c Off.CTX_CMD_PTR 15 0 + 1) % 2 ^ s.cf c Off.CTX_CMD_CTL 4 0 % 2 ^ 16
         ∧ u.cf c Off.CTX_CMD_PTR 31 16 = s.cf c Off.CTX_CMD_PTR 31 16
         ∧ (∃ z, Looked c s z ∧ u = { z with regs := u.regs } ∧ sameRegsBut [ctxA c Off.CTX_CMD_PTR] z u)
         ∧ v = { u with cycle := { u.cycle with done := s.cycle.done ++ [(.ctx c, s.cpl (cmdSeq e) (cmdOp e) status w2 0)] } })
  ∧ (∀ (s : State) (c : Nat) (i : Instr) (e : Bits512), s.ringOpen (.ctx c) = true → s.firstInLine c = true →
       i ∈ [Instr.stageLinks c, .versionRings c, .rollback c, .snapshot c, .exportRing c, .flush c, .cancel c, .fence (some c) .mgmt] →
       ((s.ctx c).phase = .faulted → s.ringEntry (.ctx c) = some e → Completes i s fun u => u = s.finish (.ctx c) e 10 (s.cf c Off.CTX_FAULT 7 0))
       ∧ ((s.ctx c).phase = .normal → s.ringEntry (.ctx c) = some e → s.entryWaits c e = false → cmdOk e false = false →
           Completes i s fun u => u = s.finish (.ctx c) e 14 0)
       ∧ ((s.ctx c).phase = .normal → s.ringEntry (.ctx c) = some e → s.entryWaits c e = false → cmdOk e false = true → strayParam e false = true →
           Completes i s fun u => u = s.finish (.ctx c) e 6 0)
       ∧ ((s.ctx c).phase = .normal → s.ringEntry (.ctx c) = none → Completes i s fun u => Detected ⟨c, 20, none⟩ s u))

/-- LOAD_PLAN (rests on R92, R95, R99): a plan set that fails a check leaves none loaded and completes with PLAN_INVALID (5) and its first
failure; one that passes replaces the plan set, and completes once its first segments are in their frames. -/
def Obligations.LoadPlanChecksThenFillsThePlanStore : Prop :=
  (∀ (s : State) (c : Nat) (e : Bits512), CtxTakes s c e → cmdOp e = 1 → s.coursesReady c = true →
    (∀ f, s.checkPlan c (w512 e 1) = .inl f → Completes (.loadPlan c) s fun u =>
      ∃ y z : State, Looked c s y ∧ onlyCtx c y z ∧ (z.ctx c).plan = none ∧ u = z.finish (.ctx c) e 5 f.word)
    ∧ (∀ p, s.checkPlan c (w512 e 1) = .inr p → Completes (.loadPlan c) s fun u =>
      (u.ctx c).openCmd = some (.loadPlan (cmdSeq e)) ∧ ((u.ctx c).plan.map (·.slots)) = some p.slots
        ∧ (u.ctx c).tiles.map (fun t => (t.1, t.2.length)) = p.tiles.zipIdx.map (fun r => (r.2, r.1.dir.length))
        ∧ ∃ y z : State, Looked c s y ∧ onlyCtx c y z ∧ u = z.popRing (.ctx c)))
  ∧ ∀ (s : State) (c : Nat) (seq : BitVec 32), (s.ctx c).openCmd = some (.loadPlan seq) →
    (s.unreadable c = none → Completes (.loadPlanComplete c) s fun u =>
      ∃ z : State, onlyCtx c s z ∧ (z.ctx c).openCmd = none ∧ (z.ctx c).plan = (s.ctx c).plan
        ∧ (∀ e ∈ (s.ctx c).tiles, ∃ y ∈ (z.ctx c).tiles, y = (e.1, s.filled c e.2)) ∧ u = z.complete (.ctx c) (s.cpl seq 1 0 0 0))
    ∧ (∀ f, s.unreadable c = some f → Completes (.loadPlanComplete c) s fun u =>
      ∃ z : State, onlyCtx c s z ∧ (z.ctx c).openCmd = none ∧ (z.ctx c).plan = none ∧ u = z.complete (.ctx c) (s.cpl seq 1 5 f.word 0))

/-- LAUNCH_STEP (rests on R41, R42, R383, R408): a T₀ less than 20,000 cycles ahead is START_PASSED (3), no plan set NO_PLAN (11), another
divider PSTATE_MISMATCH (4); else the launch joins the queue of its context. -/
def Obligations.LaunchStepQueuesTheLaunch : Prop :=
  ∀ (s : State) (c : Nat) (e : Bits512), CtxTakes s c e → cmdOp e = 2 → s.cf c Off.CTX_CKPT_STS 1 1 = 0 →
    let t0 := w512 e 1
    (t0 < s.now + 20000 → Completes (.launchStep c) s fun u =>
      u = s.finish (.ctx c) e 3 t0 ∧ (u.ctx c).queue = (s.ctx c).queue ∧ (u.ctx c).running = (s.ctx c).running)
    ∧ (s.now + 20000 ≤ t0 →
      ((s.ctx c).plan = none → Completes (.launchStep c) s fun u => u = s.finish (.ctx c) e 11 t0)
      ∧ ∀ p, (s.ctx c).plan = some p →
        (p.divider ≠ s.eff → Completes (.launchStep c) s fun u =>
          u = s.finish (.ctx c) e 4 t0 ∧ (u.ctx c).queue = (s.ctx c).queue ∧ (u.ctx c).running = (s.ctx c).running)
        ∧ (p.divider = s.eff → Completes (.launchStep c) s fun u =>
          ∃ z : State, onlyCtx c s z ∧ z.ctx c = { s.ctx c with queue := (s.ctx c).queue ++ [⟨cmdSeq e, t0, false⟩] } ∧ u = z.popRing (.ctx c)
            ∧ (u.ctx c).queue = (z.ctx c).queue))

/-- FENCE, FLUSH and CANCEL (rests on R382, R386): a fence completes; with no launch just ready, FLUSH empties the launch queue, every launch
completing with FLUSHED (1) in rising SEQ; CANCEL takes out the launch it names, which completes with LAUNCH_CANCELLED (2), or ends with
CANCEL_MISS (12). -/
def Obligations.FenceFlushCancel : Prop :=
  ∀ (s : State) (c : Nat) (e : Bits512), CtxTakes s c e →
    (cmdOp e = 6 → ∀ src, Completes (.fence (some c) src) s fun u => u = s.finish (.ctx c) e 0 0)
    ∧ (cmdOp e = 7 → s.justReady c = none → Completes (.flush c) s fun u =>
      ∃ z : State, onlyCtx c s z ∧ z.ctx c = { s.ctx c with queue := [] } ∧ u = (z.completeLaunches c 1 (s.ctx c).queue).finish (.ctx c) e 0 0
        ∧ (u.ctx c).queue = [])
    ∧ (cmdOp e = 8 → s.justReady c = none →
      ((∀ l ∈ (s.ctx c).queue, l.seq.toNat ≠ w512 e 1) → Completes (.cancel c) s fun u => u = s.finish (.ctx c) e 12 0)
      ∧ ∀ l, (s.ctx c).queue.find? (fun l => l.seq.toNat = w512 e 1) = some l → Completes (.cancel c) s fun u =>
        ∃ z : State, onlyCtx c s z ∧ z.ctx c = { s.ctx c with queue := (s.ctx c).queue.erase l }
          ∧ u = (z.completeLaunches c 2 [l]).finish (.ctx c) e 0 0)

/-- STAGE_LINKS and VERSION_RINGS (rests on R170 to R172, R188): a payload that the device's read of it finds unreadable, or that breaks a rule of
its table, is PARAM_INVALID (6), queues that do not fit TABLE_FULL (7); else the tables are those of the payload. -/
def Obligations.LinkAndRingTablesAreReplacedWhole : Prop :=
  ∀ (s : State) (c : Nat) (e : Bits512), CtxTakes s c e →
    (isParam 1 e = true →
      let y := s.liveTouch c (w512 e 2) 32768
      (∀ b t, y.payload c e 32768 = some b → stageTable b (y.tileCount c) = some t → y.queuesFit c t = true → Completes (.stageLinks c) s fun u =>
        ∃ z : State, (z.ctx c).links = t ∧ (∀ k, k ≠ c → z.ctx k = s.ctx k) ∧ u = z.finish (.ctx c) e 0 0 ∧ (u.ctx c).links = t
          ∧ (y.changedLinks c t = [] → z.ctx c = { y.ctx c with links := t }))
      ∧ (∀ b t, y.payload c e 32768 = some b → stageTable b (y.tileCount c) = some t → y.queuesFit c t = false →
          Completes (.stageLinks c) s fun u => u = y.finish (.ctx c) e 7 0)
      ∧ (y.payload c e 32768 = none → Completes (.stageLinks c) s fun u => u = y.finish (.ctx c) e 6 0)
      ∧ ∀ b, y.payload c e 32768 = some b → stageTable b (y.tileCount c) = none → Completes (.stageLinks c) s fun u =>
          u = y.finish (.ctx c) e 6 0)
    ∧ (isParam 2 e = true →
      let y := s.liveTouch c (w512 e 2) 1024
      (y.payload c e 1024 = none → Completes (.versionRings c) s fun u => u = y.finish (.ctx c) e 6 0)
      ∧ ∀ b, y.payload c e 1024 = some b →
        ((entriesOf b).all vringOk = false → Completes (.versionRings c) s fun u => u = y.finish (.ctx c) e 6 0)
        ∧ ((entriesOf b).all vringOk = true → Completes (.versionRings c) s fun u =>
          ∃ z : State, onlyCtx c y z ∧ z.ctx c = { y.ctx c with rings := (entriesOf b).zipIdx.map fun r => (r.2, vringOf r.1) }
            ∧ u = z.finish (.ctx c) e 0 0 ∧ (u.ctx c).rings = (z.ctx c).rings))

/-- ROLLBACK (rests on R346, R354): with no record or mirror of the step it completes with ROLLBACK_GONE (8); else with the state the record
gives: at the record's own step CTX_STEP is that step. SNAPSHOT and EXPORT (rests on R256, R383, R388): taken, they stay open; at their
end the image is in host memory, its bytes are counted, and the command completes. -/
def Obligations.RollbackSnapshotAndExport : Prop :=
  (∀ (s : State) (c : Nat) (e : Bits512), CtxTakes s c e → isParam 7 e = true → c < 1024 →
       let target := bits (w512 e 4) 47 0
       (∀ held, held = bitAt (w512 e 3) 0 → (if held then s.rollbackHeld c target else s.rollbackOwn c target) = none →
         Completes (.rollback c) s fun u => u = s.finish (.ctx c) e 8 0)
       ∧ (∀ z, bitAt (w512 e 3) 0 = true → s.rollbackHeld c target = some z → Completes (.rollback c) s fun u => u = z.finish (.ctx c) e 0 0)
       ∧ (∀ z, bitAt (w512 e 3) 0 = false → s.rollbackOwn c target = some z → Completes (.rollback c) s fun u =>
           u = z.finish (.ctx c) e 0 0 ∧ ∀ b, s.vaRead c (s.reg (ctxA c Off.CTX_SNAP_ADDR)).toNat 256 = some b → recField b 8 8 % 2 ^ 48 = target →
             u.cf c Off.CTX_STEP 47 0 = target))
  ∧ (∀ (s : State) (c : Nat), c < 1024 →
       (∀ e, CtxTakes s c e → cmdOp e = 4 → Completes (.snapshot c) s fun u => ∃ z : State, onlyCtx c s z ∧ u = z.popRing (.ctx c)
         ∧ z.ctx c = { s.ctx c with openCmd := some (.snapshot (cmdSeq e) (w512 e 1) (w512 e 2) (bits (w512 e 3) 31 0)) }
         ∧ (u.ctx c).openCmd = (z.ctx c).openCmd)
       ∧ (∀ e r, CtxTakes s c e → cmdOp e = 5 → Table.get? (s.ctx c).rings (bits (w512 e 2) 4 0) = some r → r.valid = true →
         Completes (.exportRing c) s fun u => ∃ z : State, onlyCtx c s z ∧ u = z.popRing (.ctx c)
           ∧ z.ctx c = { s.ctx c with openCmd := some (.exportRing (cmdSeq e) (w512 e 1) (bits (w512 e 2) 4 0)) }
           ∧ (u.ctx c).openCmd = (z.ctx c).openCmd)
       ∧ (∀ seq host sets rings, (s.ctx c).openCmd = some (.snapshot seq host sets rings) → s.mayClose c = true →
         Completes (.snapshotComplete c) s fun u => ∃ (z : State) (n : Nat) (img : HostImage), u = z.complete (.ctx c) (s.cpl seq 4 0 n 0) ∧ z.images = s.images ++ [img]
           ∧ img.ctx = c ∧ img.step.toNat = s.cf c Off.CTX_STEP 47 0 ∧ (z.ctx c).openCmd = none
           ∧ z.reg (ctxA c Off.CTX_BYTES_PCIE) = s.reg (ctxA c Off.CTX_BYTES_PCIE) + BitVec.ofNat 64 n
           ∧ (Memory.wf s.mem = true → z.mem = s.mem) ∧ z.scratch = s.scratch ∧ z.hostMem = s.hostMem)
       ∧ (∀ seq host n r, (s.ctx c).openCmd = some (.exportRing seq host n) → Table.get? (s.ctx c).rings n = some r → s.mayClose c = true →
         Completes (.exportComplete c) s fun u => ∃ (z : State) (data : List Byte), u = z.complete (.ctx c) (s.cpl seq 5 0 (64 + r.stride) 0) ∧ data = s.ringData c r
           ∧ z.hostMem = (s.hostPut (s.ctx c).boundB host (s.exportHeader c n r data ++ data)).hostMem ∧ (z.ctx c).openCmd = none
           ∧ (Memory.wf s.mem = true → z.mem = s.mem)))

/-- APERTURE_ACCESS (rests on R201, R214, R379, R381, R397): an access that reaches memory passes as the device's own, a write stores its bytes and
a read changes none; an access that does not reach memory only counts in ERR. The payload is counted. -/
def Obligations.ApertureAccessReachesContextMemory : Prop :=
  ∀ (s : State) (portB : Bool) (c off : Nat) (op : AperOp), c < 1024 → (s.ctx c).boundB = portB → s.portUsable portB = true →
    off + aperBytes op ≤ 2 ^ 32 →
    let va := s.aperAddr c off
    let s0 := s.cWrap c Off.CTX_BYTES_PCIE 63 0 (aperBytes op)
    s0.reg (ctxA c Off.CTX_BYTES_PCIE) = s.reg (ctxA c Off.CTX_BYTES_PCIE) + BitVec.ofNat 64 (aperBytes op)
      ∧ (∀ len, op = .read len → s0.aperOk c va len false = true → Completes (.apertureAccess portB c off op) s fun u => Looked c s0 u)
      ∧ (∀ data, op = .write data → s0.aperOk c va data.length true = true → Completes (.apertureAccess portB c off op) s fun u =>
          ∃ z : State, Looked c s0 z ∧ u = z.aperStore c va data ∧ u.ctxs = z.ctxs
            ∧ (∀ o, o < 2 ^ 16 → u.reg (ctxA c o) = s0.reg (ctxA c o))
            ∧ ∀ b a k i bd t l, data = [b] → s.Inv → z.aperXlate c va true = some a → dpaLoc a = .mem k i bd t l → z.memOk k bd t = true →
                (u.dpaByte a).1 = b)
      ∧ (s0.aperOk c va (aperBytes op) (aperWrites op) = false → Completes (.apertureAccess portB c off op) s fun u =>
          u.cf c Off.CTX_APERTURE 47 16 = satPlus 32 (s.cf c Off.CTX_APERTURE 47 16) 1 ∧ onlyRegs s u
            ∧ sameRegsBut [ctxA c Off.CTX_BYTES_PCIE, ctxA c Off.CTX_APERTURE] s u)

/-- GROUP and REFORM (rests on R264, R265, R281, R282): a valid entry with a readable member list is installed, an erasing one frees its
index, one that breaks a rule is PARAM_INVALID (6); REFORM to the next epoch replaces members and position and starts the sequence at 0. -/
def Obligations.GroupsAreInstalledAndReformed : Prop :=
  ∀ (s : State) (src : PfSrc) (e : Bits512), PfTakes s src e →
    let gi := bits (w512 e 3) 11 0
    (isParam 3 e = true →
      let y := s.devTouch (w512 e 2) 64
      ∀ b, y.pfRead (w512 e 2) 64 = some b →
      let d : Bits512 := BitVec.ofNat 512 (leNat b)
      let g := groupOf d
      let w := y.liveTouch g.ctx (w512 d 1) (if bitAt (w512 d 0) 0 then 4 * groupP d else 0)
      (s.ctx g.ctx).running = none →
      (bitAt (w512 d 0) 0 = true → (∀ o, Table.get? s.groups gi = some o → o.ctx = g.ctx) →
        (groupOk d = true → w.poolOk gi g = true → ∀ l, w.memberList g.ctx (w512 d 1) (groupP d) g.self = some l → Completes (.group src) s fun u =>
          ∃ z : State, u = z.pfFinish src e 0 ∧ Table.get? z.groups gi = some { g with members := l }
            ∧ (∀ j, j ≠ gi → Table.get? z.groups j = Table.get? s.groups j) ∧ (∀ k, k ≠ g.ctx → z.ctx k = s.ctx k) ∧ z.regs = w.regs ∧ sameMemory w z)
        ∧ (groupOk d = false ∨ w.poolOk gi g = false → Completes (.group src) s fun u => u = w.pfFinish src e 6))
      ∧ (bitAt (w512 d 0) 0 = false → (∃ o, Table.get? s.groups gi = some o ∧ o.ctx = g.ctx) → Completes (.group src) s fun u =>
          ∃ z : State, u = z.pfFinish src e 0 ∧ Table.get? z.groups gi = none ∧ (∀ j, j ≠ gi → Table.get? z.groups j = Table.get? s.groups j)
            ∧ (∀ k, k ≠ g.ctx → z.ctx k = s.ctx k) ∧ z.regs = w.regs ∧ sameMemory w z))
    ∧ (isParam 4 e = true → ∀ g l, Table.get? s.groups gi = some g →
      let p := bits (w512 e 4) 16 0
      let self := bits (w512 e 4) 32 17
      let y := s.liveTouch g.ctx (w512 e 2) (4 * p)
      (bits (w512 e 3) 27 12 = (g.epoch + 1).toNat → 0 < p → p ≤ 65536 → self < p → (g.alg = 2 → p % g.node = 0) →
        y.memberList g.ctx (w512 e 2) p self = some l → (s.ctx g.ctx).running = none → (s.ctx g.ctx).ended = [] →
        (∀ x ∈ (s.ctx g.ctx).insts, x.2.group ≠ gi) →
        Completes (.reform src) s fun u => ∃ z : State, u = z.pfFinish src e 0
          ∧ Table.get? z.groups gi = some { g with epoch := g.epoch + 1, members := l, self := self, seq := 0, votes := [] }
          ∧ ∀ j, j ≠ gi → Table.get? z.groups j = Table.get? s.groups j)
      ∧ (bits (w512 e 3) 27 12 = (g.epoch + 1).toNat → 0 < p → p ≤ 65536 → self < p → (g.alg = 2 → p % g.node = 0) →
        y.memberList g.ctx (w512 e 2) p self = some l →
        Completes (.reform src) s fun u => u = (y.reformGroup gi g l self (g.epoch + 1)).pfFinish src e 0)
      ∧ (bits (w512 e 3) 27 12 ≠ (g.epoch + 1).toNat → Completes (.reform src) s fun u => u = s.pfFinish src e 6))

/-- ROUTE and PREFIX (rests on R292, R293): a valid entry stands in the table, with fresh links for a new entry or a new PEPOCH, due to move
where the primary port has failed and DOWN where both have (rests on R310, R312); an erasing
one removes it; one that breaks a rule is PARAM_INVALID (6), one too many TABLE_FULL (7). -/
def Obligations.RoutesAndPrefixesAreInstalled : Prop :=
  ∀ (s : State) (src : PfSrc) (e : Bits512), PfTakes s src e → s.eavesReady = true →
    (isParam 5 e = true →
      let y := s.devTouch (w512 e 2) 32
      ∀ b, y.pfRead (w512 e 2) 32 = some b →
      let node := (routeOf (entryOf b)).1
      let r := (routeOf (entryOf b)).2.2
      ((routeOf (entryOf b)).2.1 = true → routeOk (entryOf b) = true → (Table.get? s.routes node).isSome = true ∨ s.routes.length < 16384 →
        Completes (.route src) s fun u => ∃ z : State, u = z.pfFinish src e 0 ∧ Table.get? z.routes node = some r
          ∧ (∀ j, j ≠ node → Table.get? z.routes j = Table.get? s.routes j)
          ∧ ((∀ o, Table.get? s.routes node = some o → o.pepoch ≠ r.pepoch) → ∀ k ∈ r.keys node, ∀ p, z.linkPorts k = some p →
              (s.portFailed p.1 = false → z.link k = { Link.init with since := s.now })
              ∧ (s.portFailed p.1 = true → s.portFailed p.2 = false → (z.link k).moving = true ∧ (z.link k).down = false)
              ∧ (s.portFailed p.1 = true → s.portFailed p.2 = true → (z.link k).down = true)))
      ∧ ((routeOf (entryOf b)).2.1 = true → routeOk (entryOf b) = false → Completes (.route src) s fun u => u = y.pfFinish src e 6)
      ∧ ((routeOf (entryOf b)).2.1 = true → routeOk (entryOf b) = true → Table.get? s.routes node = none → 16384 ≤ s.routes.length →
          Completes (.route src) s fun u => u = y.pfFinish src e 7)
      ∧ ((routeOf (entryOf b)).2.1 = false → Completes (.route src) s fun u => ∃ z : State, u = z.pfFinish src e 0 ∧ Table.get? z.routes node = none
          ∧ (∀ j, j ≠ node → Table.get? z.routes j = Table.get? s.routes j) ∧ ∀ k, keyNode k = node → z.link k = Link.init))
    ∧ (isParam 6 e = true →
      let y := s.devTouch (w512 e 2) 8
      ∀ b, y.pfRead (w512 e 2) 8 = some b →
      let w := leNat b
      let p : PrefixEntry := ⟨bits w 19 0, bits w 24 20, bits w 44 25⟩
      (bitAt w 45 = true → bits w 63 46 = 0 → 0 < p.plen → p.plen ≤ 20 → p.bits % 2 ^ (20 - p.plen) = 0 →
        (∃ q ∈ s.prefixes, q.bits = p.bits ∧ q.plen = p.plen) ∨ s.prefixes.length < 1024 → Completes (.routePrefix src) s fun u =>
          ∃ z : State, u = z.pfFinish src e 0 ∧ p ∈ z.prefixes ∧ (∀ q ∈ s.prefixes, ¬(q.bits = p.bits ∧ q.plen = p.plen) → q ∈ z.prefixes)
            ∧ z = { y with prefixes := z.prefixes })
      ∧ (bitAt w 45 = false → Completes (.routePrefix src) s fun u => ∃ z : State, u = z.pfFinish src e 0
          ∧ (∀ q, q ∈ z.prefixes ↔ q ∈ s.prefixes ∧ ¬(q.bits = p.bits ∧ q.plen = p.plen)) ∧ z = { y with prefixes := z.prefixes })
      ∧ (bitAt w 45 = true → (bits w 63 46 ≠ 0 ∨ p.plen = 0 ∨ 20 < p.plen) → Completes (.routePrefix src) s fun u => u = y.pfFinish src e 6))

/-- CONTEXT, BIND, FENCE of the physical function and FWACT (rests on R371, R374, R375, R382, R403): a valid descriptor of an idle context is
installed, EN = 0 resets the context and takes its descriptor away; BIND moves a context to a port and holds its completions; FWACT
completes and starts firmware activation. -/
def Obligations.PhysicalFunctionCommandsActOnContexts : Prop :=
  ∀ (s : State) (src : PfSrc) (e : Bits512), PfTakes s src e →
    let c := cmdCtx e
    (isParam 8 e = true → s.busy c = false → (s.ctx c).openCmd = none →
      let y := s.devTouch (w512 e 2) 32
      ∀ b, y.pfRead (w512 e 2) 32 = some b →
      let d := entryOf b
      (∀ n l g ids, ctxDesc d = (true, n, l, g) → ctxDescOk d = true →
        let w := y.devTouch l (2 * n)
        (∀ t ∈ g.stacks, (s.die (thatchDie t)).ready = true ∧ s.alive (thatchDie t) = true) → w.courseList l n = some ids → ids.Nodup →
        (∀ i ∈ ids, w.courseOk c i = true) →
        (w.sharesOk c g = true → Completes (.context src) s fun u => ∃ z : State, u = z.pfFinish src e 0 ∧ (z.ctx c).cfg = some { g with courses := ids }
          ∧ onlyCtx c w z ∧ (z.ctx c).phase = (s.ctx c).phase ∧ (z.ctx c).boundB = (s.ctx c).boundB)
        ∧ (w.sharesOk c g = false → Completes (.context src) s fun u => u = w.pfFinish src e 13))
      ∧ ((ctxDesc d).1 = true → ctxDescOk d = false → Completes (.context src) s fun u => u = y.pfFinish src e 6)
      ∧ ((ctxDesc d).1 = false → (s.ctx c).phase ≠ .resetting → Completes (.context src) s fun u => ∃ z : State, u = z.pfFinish src e 0 ∧ (z.ctx c).cfg = none
          ∧ (z.ctx c).phase = .resetting ∧ (z.ctx c).plan = none))
    ∧ (isParam 9 e = true → (s.ctx c).openCmd = none → Completes (.bind src) s fun u => ∃ z : State, u = z.pfFinish src e 0
        ∧ (z.ctx c).boundB = bitAt (w512 e 3) 0
        ∧ (z.ctx c).rebinding = ((s.ctx c).rebinding || decide ((s.ctx c).boundB ≠ bitAt (w512 e 3) 0)) ∧ onlyCtx c s z)
    ∧ (cmdOp e = 6 → Completes (.fence none src) s fun u => u = s.pfFinish src e 0)
    ∧ (isParam 10 e = true → Completes (.fwact src) s fun u => u.rf Off.RDG_FWACT 0 0 = 1 ∧ ∃ z : State, z = s.pfFinish src e 0 ∧ u.mem = z.mem)

/-- The receive checks and the sequence rule (rests on R296 to R298), for a frame of every type that arrives at a port that is up: an error of
FEC or FCS and each failed check only count in their register; a frame out of order is not accepted, a duplicate counts; the frame whose
turn it is is accepted, counted, acknowledged, and its payload takes effect. -/
def Obligations.ReceiveChecksDecideAFrame : Prop :=
  ∀ (s : State) (f : RxFrame), f.port < 64 → f.frame.hdr.ctx < 1024 →
    ∀ r ∈ [(Instr.linkctl f, 0, true), (.stage f, 1, true), (.coll f, 2, true), (.ring f, 3, true), (.vote f, 4, true), (.decide f, 5, true),
        (.mirror f, 6, decide (mirrorSort f = 0)), (.mirrorAck f, 6, decide (mirrorSort f = 1)), (.rebuildFrame f, 6, decide (mirrorSort f = 2)),
        (.ingest f, 7, true), (.guest f, 8, true), (.mgmt f, 9, true), (.relayed f, 10, true)],
    f.frame.hdr.typ = r.2.1 → r.2.2 = true →
    let h := f.frame.hdr
    let d := portDie f.port
    let fec := portReg f.port Off.EAV_FECCNT
    let bad := portReg f.port Off.EAV_RXERR
    (s.portUpNow f.port = false ∨ s.alive d = false → Completes r.1 s fun u => u = s)
    ∧ (s.portUpNow f.port = true → s.alive d = true →
      (f.fcsOk = false ∨ 0 < f.fecUncorr → Completes r.1 s fun u =>
        u.rf bad 31 0 = satPlus 32 (s.rf bad 31 0) 1 ∧ u.rf fec 31 0 = satPlus 32 (s.rf fec 31 0) f.fecCorr ∧ onlyRegs s u ∧ sameRegsBut [fec, bad] s u)
      ∧ (f.fcsOk = true → f.fecUncorr = 0 →
        (∀ off hi lo, s.checks f = some (off, hi, lo) → Completes r.1 s fun u =>
          u.rf (bar0 d 0 off) hi lo = satPlus (hi + 1 - lo) (s.rf (bar0 d 0 off) hi lo) 1 ∧ onlyRegs s u ∧ sameRegsBut [fec, bar0 d 0 off] s u)
        ∧ ∀ k, s.checks f = none → s.frameKey h = some k → h.cls ≠ 1 →
          (h.seq = (s.lc k h.cls).exp → (s.keepAlive = true → h.cls < 2) → Completes r.1 s fun u =>
            ∃ z : State, u = deliverFrame f z ∧ (z.lc k h.cls).exp = (s.lc k h.cls).exp + 1 ∧ (z.lc k h.cls).ackDue = true
              ∧ (z.lc k h.cls).freed = (s.lc k h.cls).freed + BitVec.ofNat 64 (hdrCredit h) ∧ (s.activePort k = some f.port → (z.link k).lastRx = s.now)
              ∧ (∀ c, frameCtx f.frame = some c → z.reg (ctxA c Off.CTX_BYTES_ERX)
                  = BitVec.ofNat 64 ((s.reg (ctxA c Off.CTX_BYTES_ERX)).toNat + wireBytes h.len))
              ∧ sameMemory s z ∧ z.groups = s.groups ∧ z.routes = s.routes)
          ∧ (laterMod 32 h.seq.toNat (s.lc k h.cls).exp.toNat = true → h.seq ≠ (s.lc k h.cls).exp → Completes r.1 s fun u =>
              (u.lc k h.cls).exp = (s.lc k h.cls).exp ∧ (u.lc k h.cls).nakSent = true ∧ sameMemory s u)
          ∧ (laterMod 32 h.seq.toNat (s.lc k h.cls).exp.toNat = false → h.seq ≠ (s.lc k h.cls).exp → Completes r.1 s fun u =>
              (u.lc k h.cls).exp = (s.lc k h.cls).exp ∧ u.rf bad 63 32 = satPlus 32 (s.rf bad 63 32) 1 ∧ sameMemory s u)))

/-- What the payload of an accepted frame does (rests on R173, R176, R246, R248, R283, R295, R302, R336, R350, R353, R357, R387, R400): what
its group, table or switch does not admit is discarded and counted where the manual says so, and the rest reaches its register, table or
queue. -/
def Obligations.FramePayloadsAct : Prop :=
  ∀ (s : State) (f : RxFrame), f.port < 64 → f.frame.hdr.ctx < 1024 →
    let h := f.frame.hdr
    let c := h.ctx
    let u := deliverFrame f s
    let ctlOr (t : Nat) (m : CtlMsg) : Prop := h.typ = t ∧ f.frame.body = .ctl m
    let stale (hi lo : Nat) : Prop := u.cf c Off.CTX_STALE_EPOCH hi lo = satPlus 32 (s.cf c Off.CTX_STALE_EPOCH hi lo) 1 ∧ onlyRegs s u
    (((∃ seq v fl n q step, ctlOr 4 (.vote seq v fl n q step)) ∨ (∃ seq v code fl n q, ctlOr 5 (.decide seq v code fl n q))
        ∨ ∃ m, f.frame.body = .coll m ∧ (h.typ = 2 ∨ h.typ = 3)) →
      (∀ g, Table.get? s.groups h.obj = some g → g.ctx = c → g.epoch ≠ h.oepoch) → stale 31 0)
    ∧ (∀ seq v fl n q step, ctlOr 4 (.vote seq v fl n q step) → ∀ g, Table.get? s.groups h.obj = some g → g.ctx = c → g.epoch = h.oepoch →
      ((s.ctx c).openLaunch h.obj seq v = none → stale 63 32)
      ∧ ∀ r x, (s.ctx c).running = some r → (s.ctx c).phase = .normal → (s.ctx c).openLaunch h.obj seq v = some r → r.slot? v = some x →
          x.epoch = g.epoch → (∀ y ∈ g.votes, ¬(y.1 = seq ∧ y.2.1 = v ∧ y.2.2.node = h.src)) →
          let g' : Group := { g with votes := g.votes ++ [(seq, v, ⟨h.src, fl, n, q, step⟩)] }
          (g'.ballot seq v = none → Table.get? u.groups h.obj = some g' ∧ u.ctxs = s.ctxs)
          ∧ ∀ l, g'.ballot seq v = some l → (u.ctx c).due = insertDue ⟨r.seq, v, tally l r.normLimit r.skipped⟩ (s.ctx c).due)
    ∧ (∀ seq v code fl n q, ctlOr 5 (.decide seq v code fl n q) → ∀ g, Table.get? s.groups h.obj = some g → g.ctx = c → g.epoch = h.oepoch →
      ((s.ctx c).openLaunch h.obj seq v = none → stale 63 32)
      ∧ ∀ r, (s.ctx c).openLaunch h.obj seq v = some r → (s.ctx c).phase = .normal → u = s.noteDue c ⟨r.seq, v, ⟨code, fl, n, q⟩⟩)
    ∧ (∀ e, ctlOr 9 (.mgmt e) →
      u = if s.rf Off.RDG_MGMT 0 0 = 1 ∧ s.rf Off.RDG_MGMT 20 1 = h.src then
            { s with mgmtCmds := s.mgmtCmds ++ [⟨h.src, e, s.ringCount (.pf s.roleB)⟩] }
          else s)
    ∧ (∀ m, f.frame.body = .coll m → h.typ = 2 ∨ h.typ = 3 → ∀ g, Table.get? s.groups h.obj = some g → g.ctx = c → g.epoch = h.oepoch →
      (g.pool ≠ 0 → m.ordinal.toNat % g.npool ≠ g.order → (⟨c, 15, none⟩ : PendFault) ∈ u.cycle.faults)
      ∧ (g.pool = 0 → s.matchInst c h.obj g m.seq m.tile (decide (h.typ = 3)) = none → stale 63 32)
      ∧ ∀ id x y, g.pool = 0 → h.typ = 3 → s.matchInst c h.obj g m.seq m.tile true = some (id, x) → s.inst c id = some x →
          Table.get? x.tiles m.tile = some y →
          (y.size ≠ m.total → (⟨c, 14, none⟩ : PendFault) ∈ u.cycle.faults)
          ∧ (y.size = m.total → ∃ x', u.inst c id = some x' ∧ Table.getD [] x'.areas m.tile
              = Table.getD [] x.areas m.tile ++ withPoison h.poison 64 m.data))
    ∧ (∀ d, f.frame.body = .raw d → h.typ = 1 →
      ((∀ e, Table.get? (s.ctx c).links h.obj = some e → e.rxEn = false) → onlyRegs s u
        ∧ u.rf (bar0 (portDie f.port) 0 Off.EAV_DROP) 63 48
            = satPlus 16 (s.rf (bar0 (portDie f.port) 0 Off.EAV_DROP) 63 48) (if h.last then 1 else 0))
      ∧ ∀ e, Table.get? (s.ctx c).links h.obj = some e → e.rxEn = true → (s.ctx c).phase = .normal → (s.queue c h.obj).tail = false →
          (s.queue c h.obj).skipping = false → (s.queue c h.obj).partialWords = [] → e.maxLen < leNat ((d.drop 4).take 2) % 4096 + 1 →
          (⟨c, 5, none⟩ : PendFault) ∈ u.cycle.faults)
    ∧ (∀ d, f.frame.body = .raw d → h.typ = 7 →
      ((s.ctx c).phase ≠ .normal → u = s)
      ∧ ((s.ctx c).phase = .normal → h.last = true →
          u.cf c Off.CTX_INGEST 31 0 = (s.cf c Off.CTX_INGEST 31 0 + 1) % 2 ^ 32 ∧ u.cf c Off.CTX_IRQ_RAW 5 5 = 1
            ∧ (∀ k, k ≠ c → u.ctx k = s.ctx k) ∧ u.ctx c = { s.ctx c with tlb := (u.ctx c).tlb })
      ∧ ((s.ctx c).phase = .normal → (s.cf c Off.CTX_INGEST_WIN 55 32 + 1) * 65536 < leNat (d.take 8) % 2 ^ 40 + (d.length - 8) → 8 < d.length →
          u.cf c Off.CTX_INGEST 63 32 = satPlus 32 (s.cf c Off.CTX_INGEST 63 32) 1))
    ∧ (∀ d, f.frame.body = .raw d → h.typ = 8 → c < 2 → s.siteOn c = true →
      ((∃ w, w < 16 ∧ (s.window c w).kind = 2 ∧ (s.window c w).rd = true ∧ (s.window c w).dpa % 2 ^ 20 = h.src) →
        u.site c = { s.site c with answers := (s.site c).answers ++ [some d] } ∧ u.regs = s.regs ∧ sameMemory s u)
      ∧ ((∀ w, w < 16 → (s.window c w).kind = 2 → (s.window c w).rd = true → (s.window c w).dpa % 2 ^ 20 ≠ h.src) →
        u.rf (dmrReg c Off.DMR_VIOL) 31 0 = satPlus 32 (s.rf (dmrReg c Off.DMR_VIOL) 31 0) 1 ∧ u.rf (dmrReg c Off.DMR_VLAST) 2 0 = 4
          ∧ u.site c = s.site c))
    ∧ (∀ m, f.frame.body = .mirror m → m.kind = 3 → ∀ g, (s.ctx c).mirrorGen = some g → g.endSent = true → g.gen = m.gen → h.src = s.buddy c →
      u.cf c Off.CTX_MIR_STS 50 50 = b2n m.err
        ∧ (m.err = false → (u.ctx c).mirrorGen = none ∧ (u.ctx c).mirrorDoneAt = s.now ∧ u.cf c Off.CTX_MIR_STS 47 0 = g.gen.toNat
            ∧ u.cf c Off.CTX_MIR_STS 49 49 = 1 ∧ sameMemory s u)
        ∧ (m.err = true → (⟨c, 19, none⟩ : PendFault) ∈ u.cycle.faults))
    ∧ (∀ m, f.frame.body = .mirror m → m.kind ≠ 3 → m.rebuild = false →
      (s.cf c Off.CTX_MIR_IN 0 0 = 0 → u = s)
      ∧ (s.cf c Off.CTX_MIR_IN 0 0 = 1 → (s.ctx c).phase = .normal → s.cf c Off.CTX_MIR_IN 20 1 ≠ h.src → u = s.heldBad c))
    ∧ (∀ m, f.frame.body = .mirror m → m.kind ≠ 3 → m.rebuild = true →
      (h.src ≠ s.buddy c ∨ (s.ctx c).running.isSome = true → u = s)
      ∧ (h.src = s.buddy c → (s.ctx c).running = none → (s.ctx c).phase = .normal → m.kind = 1 → ∀ p, (s.mirrorPages c)[m.page]? = some p →
          s.regionOf c p.va = none → u = s.vaPutP c (p.va + m.off) false (withPoison h.poison 16 m.data)))
    ∧ (∀ final orig t m, f.frame.body = .relayed final orig t m →
      (final = s.node → u = s.takeCtl c h.obj orig t h.oepoch m)
      ∧ (final ≠ s.node → Table.get? s.routes final = none → u.rf (bar0 (portDie f.port) 0 Off.EAV_RELAY) 63 32
          = satPlus 32 (s.rf (bar0 (portDie f.port) 0 Off.EAV_RELAY) 63 32) 1 ∧ u.links = s.links)
      ∧ (final ≠ s.node → (Table.get? s.routes final).isSome = true → u.rf (bar0 (portDie f.port) 0 Off.EAV_RELAY) 31 0
          = satPlus 32 (s.rf (bar0 (portDie f.port) 0 Off.EAV_RELAY) 31 0) 1
          ∧ ∃ fr, (u.lc (linkKey final) h.cls).txq = (s.lc (linkKey final) h.cls).txq ++ [⟨fr, none, none⟩]
            ∧ fr.body = .relayed final orig t m ∧ fr.hdr = { h with dst := final, src := s.node }))
    ∧ ∀ recs flows, f.frame.body = .linkctl recs flows → ∀ k, s.frameKey h = some k →
      (∀ i x, i ≠ 1 → recs[i]? = some x → (u.lc k i).freedHeld
          = if laterMod 64 x.freed.toNat (s.lc k i).freedHeld.toNat then x.freed else (s.lc k i).freedHeld)
        ∧ (s.Inv → k % 17 = 0 → ∀ a l e, Table.get? (s.ctx a).links l = some e → (∀ y ∈ (s.ctx a).links, y.1 = l → y.2 = e) → e.txEn = true → e.remote = true → e.destNode = keyNode k →
            (u.queue a l).seenOff = flows.any fun r => decide (r.ctx = a ∧ r.link = e.destLink) && !r.on)

/-- Frames leave, are held and are sent again (rests on R298 to R302): a class that may start sends the next new frame, in the
Ethernet frame of its port (rests on R290) and for the time of its bytes, and holds it until it is acknowledged, or sends the next frame of its replay; after 4 µs without an acknowledgement a replay starts at UNA; the LINKCTL timer
queues a LINKCTL frame. -/
def Obligations.FramesAreHeldUntilAcknowledged : Prop :=
  (∀ (s : State) (k c p : Nat), s.activePort k = some p → s.mayStart k c = true → s.servedBefore p c = false →
    let l := s.lc k c
    (∀ x r, l.replay = none → l.txq = x :: r → Completes (.frameTransmit k c) s fun u =>
      (∃ w, u.wire = s.wire ++ [.data p (s.ethernet k p w) w] ∧ w.body = x.frame.body ∧ w.hdr.replay = false ∧ w.hdr.kalive = s.keepAlive
          ∧ (x.frame.hdr.cls ≠ 1 → w.hdr.seq = l.next ∧ w.hdr.ackv = true ∧ w.hdr.ack = (s.lc k x.frame.hdr.cls).exp))
        ∧ (u.lc k c).txq = r ∧ (u.lc k c).exp = l.exp
        ∧ (u.port p).busyUntil = s.now + ceilDiv (wireBytes x.frame.hdr.len * 8) (max 1 (s.portRate p * effDiv s.eff))
        ∧ (c ≠ 1 → (u.lc k c).next = l.next + 1 ∧ (u.lc k c).held = l.held ++ [⟨l.next, s.now, x.frame, x.owner, x.stage⟩]
            ∧ (u.lc k c).sent = l.sent + BitVec.ofNat 64 (hdrCredit x.frame.hdr))
        ∧ sameMemory s u)
    ∧ ∀ n z, l.replay = some n → l.held.find? (fun f => !earlierMod 32 f.seq.toNat n.toNat) = some z →
      Completes (.frameTransmit k c) s fun u =>
        (∃ w, u.wire = s.wire ++ [.data p (s.ethernet k p w) w] ∧ w.body = z.frame.body ∧ w.hdr.replay = true ∧ (z.frame.hdr.cls ≠ 1 → w.hdr.seq = z.seq))
          ∧ (u.lc k c).replay = (if z.seq = l.replayEnd ∨ laterMod 32 z.seq.toNat l.replayEnd.toNat = true then none else some (z.seq + 1))
          ∧ (u.lc k c).next = l.next ∧ (u.lc k c).txq = l.txq ∧ sameMemory s u)
  ∧ (∀ (s : State) (k c : Nat) (f : HeldFrame) (r : List HeldFrame), (s.lc k c).held = f :: r → s.kaliveOn k c = false → (s.link k).down = false →
      f.sentAt + s.cyc 4000 ≤ s.now → Completes (.replayTimer k c) s fun u =>
        (u.lc k c).held = (s.lc k c).held ∧ ((s.lc k c).replay = none → (u.lc k c).replay = some (s.lc k c).una)
          ∧ (Elem.link k ∈ u.faultWins ∨ Elem.linkClass k c ∈ u.faultWins) ∧ sameMemory s u)
  ∧ (∀ (s : State) (k p : Nat), s.activePort k = some p → s.linkActive k = true →
      ((∃ e ∈ (s.link k).classes, e.2.ackDue = true) ∨ (s.link k).lastCtl + s.cyc (s.ctlNs p) ≤ s.now) →
      Completes (.linkctlTimer k) s fun u =>
        (∃ x, (u.lc k 1).txq = (s.lc k 1).txq ++ [x] ∧ x.frame.hdr.typ = 0 ∧ x.frame.hdr.dst = keyNode k) ∧ (u.link k).lastCtl = s.now
          ∧ (∀ c, (u.lc k c).ackDue = false) ∧ u = { s with links := u.links })
  ∧ ∀ (s : State) (e : Nat), e < 8 → s.periodOver (.replays e) = true →
      Completes (.replayRateWindow e) s fun u =>
        Table.getD 0 u.replayCount e = 0
          ∧ (s.rf (bar0 (eaveDie e) 0 Off.EAV_REPLAY_WARN) 31 0 < Table.getD 0 s.replayCount e → u.rf (bar0 (eaveDie e) 0 Off.PG_IRQ_RAW) 3 3 = 1)
          ∧ (Table.getD 0 s.replayCount e ≤ s.rf (bar0 (eaveDie e) 0 Off.EAV_REPLAY_WARN) 31 0 → u.regs = s.regs)

/-- Failed ports (rests on R303, R310, R312): silence fails the active port for one link, a loss of signal fails a port for every link on it;
a link whose active port has failed moves to the other one and replays there; with both failed it is DOWN and holds no frame. Pause, IEEE
1588 and foreign frames (rests on R288, R289, R296, R305): a pause of a protected priority lasts its quanta, 0 quanta end it, its expiry
too; a port that is up and pauses its peer repeats its pause after half its time; the clock locks as the frame leaves it; each second is one pulse; other EtherTypes are
counted. -/
def Obligations.LinksMovePauseAndKeepTime : Prop :=
  ((∀ (s : State) (k p : Nat), s.activePort k = some p → p < 64 → s.linkActive k = true → s.sideFailed k (s.link k).onSecondary = false →
       max (s.link k).lastRx (s.link k).since + s.cyc 6000 ≤ s.now →
       Completes (.linkSilenceTimeout k) s fun u =>
         (if (s.link k).onSecondary then (u.link k).failedS = true else (u.link k).failedP = true)
           ∧ u.rf (bar0 (portDie p) 0 Off.EAV_REROUTE) 21 16 = p
           ∧ (s.sideFailed k (!(s.link k).onSecondary) = false → Elem.link k ∈ u.faultWins ∧ (u.link k).moving = true
               ∧ (u.link k).down = false ∧ sameMemory s u)
           ∧ (s.sideFailed k (!(s.link k).onSecondary) = true → (u.link k).down = true))
     ∧ (∀ (s : State) (p : Nat), p < 64 → s.portUpNow p = true → Completes (.portSignalLoss p) s fun u =>
         u.portUpNow p = false ∧ u.portFailed p = true ∧ u.rf (bar0 (portDie p) 0 Off.PG_IRQ_RAW) 0 0 = 1
           ∧ u.rf (bar0 (portDie p) 0 Off.EAV_REROUTE) 21 16 = p)
     ∧ (∀ (s : State) (k p q : Nat), s.activePort k = some p → s.otherPort k = some q → p < 64 → (s.link k).down = false →
         (s.link k).moving = true → s.sideFailed k (!(s.link k).onSecondary) = false →
         s.portUpNow q = true → Completes (.linkMove k) s fun u =>
           u.activePort k = some q ∧ (u.link k).moving = false ∧ u.rf (bar0 (portDie p) 0 Off.EAV_REROUTE) 15 0 = satPlus 16 (s.rf (bar0 (portDie p) 0 Off.EAV_REROUTE) 15 0) 1
             ∧ u.rf (bar0 (portDie p) 0 Off.PG_IRQ_RAW) 1 1 = 1
             ∧ (∀ c, c < 8 → (s.lc k c).held ≠ [] → (u.lc k c).replay.isSome = true ∧ (u.lc k c).held = (s.lc k c).held) ∧ sameMemory s u)
     ∧ ∀ (s : State) (k p c : Nat), c < 8 → p < 64 → (s.link k).down = false → s.sideFailed k false = true → s.sideFailed k true = true →
         s.ctxsOnLink k = [] → ((s.linkLoss k p).link k).down = true ∧ ((s.linkLoss k p).lc k c).held = [] ∧ ((s.linkLoss k p).lc k c).txq = []
           ∧ (s.linkLoss k p).rf (bar0 (portDie p) 0 Off.PG_IRQ_RAW) 2 2 = 1)
  ∧ (∀ (s : State) (p : Nat), p < 64 →
       (∀ prio quanta, s.portUpNow p = true → prio < 6 → bitAt (s.rf (portReg p Off.EAV_PCTL) 10 3) prio = true →
         Completes (.pauseFrame p prio quanta) s fun u =>
           Table.get? (u.port p).pausedUntil prio
               = (if quanta = 0 then none else some (s.now + s.cyc (ceilDiv (quanta * 64) (max 1 (s.portRate p)))))
             ∧ (∀ q, q ≠ prio → Table.get? (u.port p).pausedUntil q = Table.get? (s.port p).pausedUntil q) ∧ u = { s with ports := u.ports })
       ∧ (∀ prio quanta, 6 ≤ prio → Completes (.pauseFrame p prio quanta) s fun u => u = s)
       ∧ (∀ prio t, Table.get? (s.port p).pausedUntil prio = some t → t ≤ s.now → Completes (.pauseExpiry p prio) s fun u =>
           Table.get? (u.port p).pausedUntil prio = none ∧ u = { s with ports := u.ports })
       ∧ (∀ prio, s.portUpNow p = true → s.pfcOn p prio = true → s.pauseDue p prio = true → Completes (.pauseRepeat p prio) s fun u =>
           Table.get? (u.port p).pausedPeer prio = some s.now ∧ u = { s with wire := s.wire ++ [.pause p prio 0xFFFF], ports := u.ports })
       ∧ (∀ prio, s.portUpNow p = false ∨ s.pauseDue p prio = false → Completes (.pauseRepeat p prio) s fun u => u = s)
       ∧ (∀ b, s.rf Off.RDG_PTP 14 14 = 1 → s.rf Off.RDG_PTP 5 0 = p → s.portUpNow p = true → Completes (.ptpFrame p b) s fun u =>
           u = { s with ptpLocked := b })
       ∧ (∀ b, s.rf Off.RDG_PTP 14 14 = 0 → Completes (.ptpFrame p b) s fun u => u = s)
       ∧ (s.pwrgd = true → Completes .ppsSecond s fun u => u = { s with ppsPulses := s.ppsPulses + 1 })
       ∧ (∀ etype : BitVec 16, s.portUpNow p = true → s.alive (portDie p) = true → etype ≠ 0x88F7 →
         etype.toNat ≠ s.rf (bar0 (portDie p) 0 Off.EAV_ETYPE) 15 0 →
         (Completes (.otherEthertypeFrame p true etype) s fun u =>
           u.rf (bar0 (portDie p) 0 Off.EAV_DROP) 47 32 = satPlus 16 (s.rf (bar0 (portDie p) 0 Off.EAV_DROP) 47 32) 1 ∧ onlyRegs s u
             ∧ sameRegsBut [bar0 (portDie p) 0 Off.EAV_DROP] s u)
         ∧ (Completes (.otherEthertypeFrame p false etype) s fun u =>
           u.rf (portReg p Off.EAV_RXERR) 31 0 = satPlus 32 (s.rf (portReg p Off.EAV_RXERR) 31 0) 1 ∧ onlyRegs s u
             ∧ sameRegsBut [portReg p Off.EAV_RXERR] s u)))

/-- UNIT_OPERATION_COMPLETE (rests on R54, R103, R115, R116, R126, R152, R240): when its latency has passed, an operation's output stands in
scratchpad, its counts are counted, its flags and sums are the tile's, the unit is free, its token is added, and the contribution of an
MMA_COLL is read; the finished output tiles of a running product stand in scratchpad before that (rests on R104). -/
def Obligations.UnitOperationEndsAtItsLatency : Prop :=
  ∀ (s : State) (c t : Nat) (k : UnitKind) (o : UnitOp), c < 1024 → (s.tile c t).unit k = some o → o.endAt ≤ s.now →
    Completes (.unitOperationComplete c t k) s fun u =>
      (∃ z : State, (z.tile c t).unit k = none ∧ (z.tile c t).tokens = (s.tile c t).tokens ∧ (z.tile c t).pos = (s.tile c t).pos
        ∧ (z.tile c t).flags = (s.tile c t).flags ||| o.flags
        ∧ (z.tile c t).nsum = (match o.nsum with
            | none => (s.tile c t).nsum
            | some v => fadd (s.tile c t).nsum v)
        ∧ (z.tile c t).ssum = (match o.ssum with
            | none => (s.tile c t).ssum
            | some v => fadd (s.tile c t).ssum v)
        ∧ z.scratch = (s.applyWrites (s.padBase c t) o.writes).scratch
        ∧ z.cf c Off.CTX_MX_SAT 31 0 = satPlus 32 (s.cf c Off.CTX_MX_SAT 31 0) o.sat
        ∧ z.reg (ctxA c Off.CTX_ROWGATE) = s.reg (ctxA c Off.CTX_ROWGATE) + BitVec.ofNat 64 o.gate
        ∧ z.cf c Off.CTX_POISON_OPS 31 0 = satPlus 32 (s.cf c Off.CTX_POISON_OPS 31 0) o.poisonOps
        ∧ z.cf c Off.CTX_SFU_NAN 31 0 = satPlus 32 (s.cf c Off.CTX_SFU_NAN 31 0) o.sfuNan
        ∧ z.cf c Off.CTX_MASKED_ROWS 31 0 = satPlus 32 (s.cf c Off.CTX_MASKED_ROWS 31 0) o.masked
        ∧ z.cf c Off.CTX_SLOT_OVERFLOW 31 0 = satPlus 32 (s.cf c Off.CTX_SLOT_OVERFLOW 31 0) o.overflow
        ∧ (∀ v, v ≠ t → z.tile c v = s.tile c v) ∧ (∀ j, j ≠ c → z.ctx j = s.ctx j) ∧ z.mem = s.mem ∧ z.cache = s.cache ∧ z.hostMem = s.hostMem
        ∧ sameRegsBut ([Off.CTX_MX_SAT, Off.CTX_ROWGATE, Off.CTX_POISON_OPS, Off.CTX_SFU_NAN, Off.CTX_MASKED_ROWS, Off.CTX_SLOT_OVERFLOW].map
            (ctxA c)) s z
        ∧ u = (let y := match o.inst with
            | none => z
            | some i => z.contribute c t i
          match o.ctr with
            | none => y
            | some n => y.addTokens c t n 1))
      ∧ (o.inst = none → ∀ n, o.ctr = some n → s.tokens c t n < 65535 → u.tokens c t n = s.tokens c t n + 1)
      ∧ ∀ p, (s.tile c t).matrix = some p →
          let v := s.writesDue c t
          (v.tile c t).matrix = some { p with writes := p.writes.filter fun w => !w.due.any (· ≤ s.now) }
            ∧ v.scratch = (s.applyWrites (s.padBase c t) (p.writes.filter fun w => w.due.any (· ≤ s.now))).scratch ∧ v.mem = s.mem ∧ v.regs = s.regs

/-- MMA_COLL (rests on R87, R260, R272, R277): an entry whose group serves it starts its product on the array and joins the instance of its
turn, which the first tile to issue it makes with the next sequence value of the group. COLL_CHUNK_COMPLETE (rests on R261, R267, R270,
R277): a chunk whose result this member has is written into the tile's result area and adds its token; the area of a RING_PASS is the one
received. The pieces of a chunk cover it without overlap. -/
def Obligations.CollectivesJoinAndComplete : Prop :=
  (∀ (s : State) (c t : Nat) (e : EntryBits) (g : Group), s.dueClass c t 0x18 = some e → (s.tile c t).matrix = none →
       let k := collOp e
       Table.get? s.groups k.group = some g → g.ctx = c → (s.openInsts c t k.group g).length < 2 → g.hasTile t = true → g.serves k.op = true →
       (k.op = 2 → gatherBad e g.members.length = false) →
       (g.pool = 0 ∨ (Table.getD 0 (s.tile c t).poolOrd g.pool).toNat % g.npool = g.order) →
       let n := Table.getD 0 (s.tile c t).instCount k.group
       let found := (s.ctx c).insts.find? fun e => e.2.group = k.group ∧ e.2.epoch = g.epoch ∧ e.2.ordinal = n
       let id := (found.map (·.1)).getD (s.ctx c).nextInst
       Completes (.mmaColl c t) s fun u =>
         (u.tile c t).matrix = some { (s.mmaUnit c t e).begun e (s.tile c t).pos s.now with inst := if k.op = 3 then none else some id } ∧ (u.tile c t).prevA = s.now
           ∧ Table.getD 0 (u.tile c t).instCount k.group = n + 1
           ∧ (∃ x, u.inst c id = some x ∧ (Table.get? x.tiles t).map (·.resLine) = some k.resLine
               ∧ (found = none → x.group = k.group ∧ x.ordinal = n ∧ x.seq = g.seq ∧ x.epoch = g.epoch ∧ x.op = k.op ∧ x.redFmt = k.redFmt))
           ∧ Table.get? u.groups k.group = some (if found = none then { g with seq := g.seq + 1 } else g)
           ∧ (∀ j, j ≠ k.group → Table.get? u.groups j = Table.get? s.groups j) ∧ (∀ j, j ≠ c → u.ctx j = s.ctx j) ∧ u.scratch = s.scratch)
  ∧ ((∀ (s : State) (c id t : Nat) (x : Inst) (g : Group) (y : InstTile) (k : Nat), c < 1024 → s.inst c id = some x → s.instGroup x = some g →
       Table.get? x.tiles t = some y → (x.chunksOf g t).find? (fun k => k ∉ y.given) = some k → s.tokens c t g.ctr < 65535 →
       let frame (u : State) : Prop :=
         u.tokens c t g.ctr = s.tokens c t g.ctr + 1 ∧ u.reg (ctxA c Off.CTX_COLL_CHUNKS) = s.reg (ctxA c Off.CTX_COLL_CHUNKS) + 1
           ∧ sameRegsBut [ctxA c Off.CTX_COLL_CHUNKS] s u ∧ (∀ v, v ≠ t → u.tile c v = s.tile c v) ∧ (∀ j, j ≠ c → u.ctx j = s.ctx j)
           ∧ (∀ x' y', u.inst c id = some x' → Table.get? x'.tiles t = some y' → y'.given = y.given ++ [k])
           ∧ u.mem = s.mem ∧ u.cache = s.cache ∧ u.hostMem = s.hostMem
       (x.op = 3 → ∀ a, Table.get? x.areas t = some a → a.length = y.size → s.ringRead c t x = true →
         Completes (.collChunkComplete c id t) s fun u => frame u
           ∧ ∀ i, i < a.length → y.resLine * 64 + i < padSize → u.padByte (s.padBase c t) (y.resLine * 64 + i) = (a.getD i (0, false)).1)
       ∧ (x.op ≠ 3 → ∀ r l, (x.reds g)[k]? = some r → r.result = some l → Completes (.collChunkComplete c id t) s fun u => frame u
           ∧ u.scratch = (forAll l (fun part v => v.writeResult c t x y (k * g.chunk) part) s).scratch)
       ∧ (x.op ≠ 3 → ∀ r, (x.reds g)[k]? = some r → r.result = none → Completes (.collChunkComplete c id t) s fun u => u = s))
     ∧ ∀ d L, 0 < d → (pieceAt d L 0).1 = 0 ∧ (pieceAt d L d).1 = L ∧ ∀ k, (pieceAt d L k).1 + (pieceAt d L k).2 = (pieceAt d L (k + 1)).1)

/-- Edges and strands (rests on R320 to R322): a bad flit is counted and is a fault of its edge direction until every strand of it has caught up; a
strand fails at both ends, and with fewer than seven left, or with no training word, the edge is DOWN and marks the die beyond it. The
loss of a die (rests on R325 to R330): a die that lost clock or supply is no longer powered; a fence notice fences it, raises DIE_LOST,
faults its contexts with code 18 and takes its ports down; the other Ridge takes over from a fenced managing one and sends what
that has not (rests on R331); behind the issues of a cycle both wait for the next (rests on R444). -/
def Obligations.EdgesAndDiesAreLost : Prop :=
  ((∀ (s : State) (d dir strand : Nat), d < 64 → dir < 4 → s.edgeUp d dir = true → s.strandUsed d dir strand = true →
       (Completes (.flitCrcFail d dir strand) s fun u =>
         u.rf (btnReg d dir Off.BTN_CRC) 31 0 = satPlus 32 (s.rf (btnReg d dir Off.BTN_CRC) 31 0) 1 ∧ Elem.edge d dir ∈ u.faultWins
           ∧ strandKey d dir strand ∈ u.strandFaults
           ∧ Table.getD 0 u.flitCount (d * 4 + dir) = Table.getD 0 s.flitCount (d * 4 + dir) + 1 ∧ sameMemory s u)
       ∧ ∀ n, neighbour d dir = some n → Completes (.strandFail d dir strand) s fun u =>
         let a := btnReg d dir Off.BTN_EDGE_STS
         let b := btnReg n (opposite dir) Off.BTN_EDGE_STS
         bitAt (u.rf a 9 2) strand = true ∧ bitAt (u.rf b 9 2) strand = true ∧ u.rf (bar0 d 2 Off.PG_IRQ_RAW) 1 1 = 1
           ∧ u.rf (bar0 n 2 Off.PG_IRQ_RAW) 1 1 = 1
           ∧ (s.strands d dir ≤ 7 → u.rf a 1 0 = 2 ∧ u.rf b 1 0 = 2 ∧ n ∈ (u.die d).marked ∧ d ∈ (u.die n).marked)
           ∧ (s.strands d dir = 8 → u.rf a 1 0 = 1 ∧ u.rf b 1 0 = s.rf b 1 0 ∧ u.dies = s.dies) ∧ sameMemory s u)
     ∧ (∀ (s : State) (d dir strand : Nat), strand < 8 → strandKey d dir strand ∈ s.strandFaults → Completes (.flitReplayCaughtUp d dir strand) s fun u =>
         strandKey d dir strand ∉ u.strandFaults
           ∧ (∀ j, j < 8 → j ≠ strand → (strandKey d dir j ∈ u.strandFaults ↔ strandKey d dir j ∈ s.strandFaults))
           ∧ ((∃ j, j < 8 ∧ j ≠ strand ∧ strandKey d dir j ∈ s.strandFaults) → u.faultWins = s.faultWins)
           ∧ ((∀ j, j < 8 → j ≠ strand → strandKey d dir j ∉ s.strandFaults) → Elem.edge d dir ∉ u.faultWins) ∧ sameMemory s u)
     ∧ (∀ (s : State) (d dir n : Nat), d < 64 → dir < 4 → neighbour d dir = some n → s.alive d = true → s.rf (btnReg d dir Off.BTN_EDGE_STS) 1 0 = 1 →
         Completes (.edgeDown d dir) s fun u =>
           u.rf (btnReg d dir Off.BTN_EDGE_STS) 1 0 = 2 ∧ u.rf (bar0 d 2 Off.PG_IRQ_RAW) 2 2 = 1 ∧ n ∈ (u.die d).marked ∧ sameMemory s u)
     ∧ ∀ (s : State) (d dir : Nat), d < 64 → dir < 4 → s.periodOver (.flits d dir) = true → Completes (.strandWarnWindow d dir) s fun u =>
         Table.getD 0 u.flitCount (d * 4 + dir) = 0
           ∧ (s.rf (btnReg d dir Off.BTN_STRAND_WARN) 31 0 < Table.getD 0 s.flitCount (d * 4 + dir) → u.rf (bar0 d 2 Off.PG_IRQ_RAW) 0 0 = 1)
           ∧ (Table.getD 0 s.flitCount (d * 4 + dir) ≤ s.rf (btnReg d dir Off.BTN_STRAND_WARN) 31 0 → u.regs = s.regs))
  ∧ ((∀ (s : State) (d : Nat), s.alive d = true → Completes (.dieClockSupplyLoss d) s fun u =>
         (u.die d).powered = false ∧ (∀ j, j ≠ d → u.die j = s.die j) ∧ (d ≠ s.mgr → u = { s with dies := u.dies })
           ∧ sameMemory s u)
     ∧ (∀ (s : State) (d cause : Nat), s.Inv → d < 64 → s.shutdown = false → s.fenceDue d cause = true → s.cycle.issued = false →
       Completes (.fenceNotice d cause) s fun u =>
         (u.die d).fenced = true ∧ (u.die d).cause = cause ∧ (∀ j, j ≠ d → u.die j = s.die j) ∧ u.rf Off.PG_IRQ_RAW 8 8 = 1
           ∧ (∀ c, (s.ctx c).losesDie d = true → (s.ctx c).phase = .normal →
               (⟨c, 18, none⟩ : PendFault) ∈ u.cycle.faults)
           ∧ (dieKind d = .eave → ∀ i, i < 8 → u.portUpNow (8 * eaveIdx d + i) = false)
           ∧ (d = s.mgr → u.takeoverActive = true))
     ∧ (∀ (s : State) (d cause : Nat), s.shutdown = true ∨ s.fenceDue d cause = false → Completes (.fenceNotice d cause) s fun u => u = s)
     ∧ (∀ (s : State) (d cause : Nat), s.shutdown = false → s.fenceDue d cause = true → s.cycle.issued = true →
         Completes (.fenceNotice d cause) s fun u => u = s.post (.fenceNotice d cause))
     ∧ (∀ s : State, s.takeoverActive = true → (s.die s.mgr).fenced = true → (s.die (63 - s.mgr)).fenced = false →
       (s.cycle.issued = true → Completes .takeover s fun u => u = s.post .takeover)
       ∧ (s.cycle.issued = false → Completes .takeover s fun u =>
         u.roleB = !s.roleB ∧ u.hostLink s.roleB = false ∧ u.hostLink (!s.roleB) = s.hostLink (!s.roleB) ∧ u.rf Off.PG_IRQ_RAW 9 9 = 1
           ∧ u.unsent = [] ∧ u.ctxs = s.ctxs ∧ sameMemory s u))
     ∧ ∀ s : State, s.takeoverActive = true → (s.die s.mgr).fenced = false → Completes .takeoverComplete s fun u =>
         u.takeoverActive = false ∧ sameMemory s u)

/-- Dormer sites (rests on R333 to R337): a request that no window permits is a violation, counted with its kind and address, a read is
answered with poison; a request inside a window takes its tokens and is served, or waits for them; a draw above 75 W powers the site off. -/
def Obligations.FlashingGuardsTheSites : Prop :=
  ∀ (s : State) (i : Nat), i < 2 → s.siteOn i = true → s.pwrgd = true →
    (∀ r k a, s.flashing i r = .bad k a → Completes (.guestRequest i r) s fun u =>
      u.rf (dmrReg i Off.DMR_VIOL) 31 0 = satPlus 32 (s.rf (dmrReg i Off.DMR_VIOL) 31 0) 1 ∧ u.rf (dmrReg i Off.DMR_VLAST) 2 0 = k
        ∧ u.rf (dmrReg i Off.DMR_VLAST) 50 3 = a % 2 ^ 48 ∧ u.rf (bar0 (siteDie i) 0x30 Off.PG_IRQ_RAW) 0 0 = 1
        ∧ (∀ at_ n, r = .read at_ n → (u.site i).answers = (s.site i).answers ++ [none])
        ∧ (∀ at_ d, r = .write at_ d → u.site i = s.site i) ∧ u.ctxs = s.ctxs)
    ∧ (∀ r dpa, s.flashing i r = .memory dpa →
      ((s.site i).waiting ≠ [] ∨ s.guestOk i r = false → Completes (.guestRequest i r) s fun u =>
        u.site i = { s.site i with waiting := (s.site i).waiting ++ [r] } ∧ u = { s with sites := u.sites })
      ∧ ((s.site i).waiting = [] → s.guestOk i r = true → s.Inv →
        (∀ at_ n, r = .read at_ n → dpa % 256 + n ≤ 256 → 0 < n →
          let answered (a : Option (List Byte)) : Site :=
            { s.site i with bucket := s.guestTokens i - n, bucketAt := s.now, answers := (s.site i).answers ++ [a] }
          ((∃ t l, s.reach s.mgr dpa = .ok t l) → Completes (.guestRequest i r) s fun u => ∃ z : State, Looked 0 s z ∧ z.ctxs = s.ctxs
            ∧ u = { z with sites := u.sites } ∧ u.site i = answered (if (z.devRead dpa n).2 then none else some (z.devRead dpa n).1))
          ∧ ((∀ t l, s.reach s.mgr dpa ≠ .ok t l) → Completes (.guestRequest i r) s fun u => u.site i = answered none ∧ sameMemory s u))
        ∧ (∀ at_ d, r = .write at_ d → dpa % 256 + d.length ≤ 256 → 0 < d.length → (∃ t l, s.reach s.mgr dpa = .ok t l) →
          Completes (.guestRequest i r) s fun u =>
            u.site i = { s.site i with bucket := s.guestTokens i - d.length, bucketAt := s.now }
              ∧ (∀ j, j < d.length → (u.dpaByte (dpa + j)).1 = d.getD j 0)
              ∧ (∀ b, (∀ j, j < d.length → dpaLoc b ≠ dpaLoc (dpa + j)) → (u.dpaByte b).1 = (s.dpaByte b).1) ∧ u.ctxs = s.ctxs)))
    ∧ (∀ node d, s.flashing i (.frame node d) = .network node → (s.site i).waiting = [] → s.guestOk i (.frame node d) = true →
      (Table.get? s.routes node).isSome = true → Completes (.guestRequest i (.frame node d)) s fun u =>
        ∃ f, (u.lc (linkKey node) 7).txq = (s.lc (linkKey node) 7).txq ++ [⟨f, none, none⟩] ∧ f.body = .raw d ∧ f.hdr.typ = 8 ∧ f.hdr.dst = node
          ∧ f.hdr.ctx = i ∧ sameMemory s u)
    ∧ (∀ r rest, (s.site i).waiting = r :: rest →
      (s.guestOk i r = true → Completes (.guestAdmit i) s fun u => ∃ z : State, u = z.admitGuest i r
        ∧ z.site i = { s.site i with waiting := rest } ∧ z = { s with sites := z.sites })
      ∧ (s.guestOk i r = false → Completes (.guestAdmit i) s fun u => u = s))
    ∧ Completes (.overpower i) s fun u =>
        u.siteOn i = false ∧ u.rf (dmrReg i Off.DMR_CTL) 0 0 = 0 ∧ (u.site i).waiting = [] ∧ u.rf (dmrReg i Off.DMR_VLAST) 2 0 = 5
          ∧ u.rf (dmrReg i Off.DMR_VIOL) 31 0 = satPlus 32 (s.rf (dmrReg i Off.DMR_VIOL) 31 0) 1

/-- The Ligger engines (rests on R210 to R214, R224 to R227, R356, R358): a command takes the next blocks of the engine's range and leaves
all other memory; behind the last of them its action is done; it fails where its range, format, image or record does not allow it; its
end shows DONE or FAILED with its interrupt; RESUME and ABORT act on it. -/
def Obligations.LiggerEnginesActOnTheirSectors : Prop :=
  (∀ (s : State) (t n k : Nat) (j : LigJob), s.Inv → t < 16 → n < 4 →
    let l := j.next t k
    let went (crc total : Nat) (u : State) : Prop :=
      Table.get? u.ligger (ligKey t n) = some { j with crc := crc, at_ := j.at_ + k, done := decide (total ≤ j.at_ + k) } ∧ u.ligState t n = 1
    let ended (failed : Bool) (u : State) : Prop :=
      Table.get? u.ligger (ligKey t n) = some { j with done := true, failed := failed } ∧ u.ligState t n = 1 ∧ u.ctxs = s.ctxs ∧ sameMemory s u
    let total := (j.blocks t).length
    let bytes (u : State) : Prop := ∀ a, (u.dpaByte a).1 = (s.dpaByte a).1
    let outside (u : State) : Prop := ∀ a, (∀ b ∈ l, ∀ i, i < b.2.2 → dpaLoc a ≠ dpaLoc (b.1 + i)) → (u.dpaByte a).1 = (s.dpaByte a).1
    let single (f : Nat → Nat → Byte) (u : State) : Prop :=
      ∀ b kd q w g o, l = [b] → dpaLoc b.1 = .mem kd q w g o → s.memOk kd w g = true → ∀ i, i < b.2.2 → (u.dpaByte (b.1 + i)).1 = f b.1 i
    let errs (u : State) (m : Nat) : Prop := u.rf (ligReg t n Off.THC_LIG_STS) 35 4 = satPlus 32 (s.rf (ligReg t n Off.THC_LIG_STS) 35 4) m
    (s.padRangeBusy t j = true →
      (∀ data, s.ligJob t n 0 = some j → Completes (.copyIn t n k data) s (ended true))
      ∧ (s.ligJob t n 1 = some j → Completes (.copyOut t n k) s (ended true)))
    ∧ (s.padRangeBusy t j = false →
      (∀ data, s.ligJob t n 0 = some j → Completes (.copyIn t n k data) s fun u =>
        went j.crc total u ∧ outside u ∧ single (fun _ i => data.getD i 0) u ∧ u.hostMem = s.hostMem ∧ u.ctxs = s.ctxs)
      ∧ (s.ligJob t n 1 = some j → Completes (.copyOut t n k) s fun u =>
        went j.crc total u ∧ bytes u ∧ errs u ((s.ligTouch l).poisonedSectors l) ∧ u.ctxs = s.ctxs
          ∧ u.hostMem = (forAll l (fun p v => v.hostPut j.portB (j.aux + p.2.1) (s.dpaRead p.1 p.2.2).1) s).hostMem))
    ∧ (j.pads = true → ∀ op i, s.ligJob t n op = some j →
        (op, i) ∈ [(2, Instr.fillConst t n k), (4, .test t n k []), (5, .verify t n k), (6, .scrub t n k), (9, .repair t n true)] →
        Completes i s (ended true))
    ∧ (j.pads = false →
      (s.ligJob t n 2 = some j → Completes (.fillConst t n k) s fun u =>
        went j.crc total u ∧ outside u ∧ single (fun b i => (leBytes 8 j.aux).getD ((b + i) % 8) 0) u ∧ u.ctxs = s.ctxs)
      ∧ (s.ligJob t n 3 = some j →
        let w := elemBytes j.fmt
        (j.fmt = 0 ∨ j.fmt = 1 ∨ j.fmt = 2 ∨ j.fmt = 8 → Completes (.fillRng t n k) s fun u =>
          went j.crc total u ∧ outside u ∧ single (fun b i => (j.fillElem ((b + i - j.base) / w)).getD ((b + i - j.base) % w) 0) u ∧ u.ctxs = s.ctxs)
        ∧ (j.fmt ≠ 0 → j.fmt ≠ 1 → j.fmt ≠ 2 → j.fmt ≠ 8 → Completes (.fillRng t n k) s (ended true)))
      ∧ (∀ fails, s.ligJob t n 4 = some j → Completes (.test t n k fails) s fun u =>
        went j.crc total u ∧ outside u ∧ errs u fails.length ∧ u.ctxs = s.ctxs
          ∧ ∀ i r a, s.rf (ligReg t n Off.THC_LIG_STS) 35 4 = 0 → fails = i :: r → (sectorsOf l)[i]? = some a →
              u.reg (ligReg t n Off.THC_LIG_RES) = BitVec.ofNat 64 a)
      ∧ (s.ligJob t n 5 = some j → Completes (.verify t n k) s fun u =>
        let crc := crc64From j.crc (l.flatMap fun p => (s.dpaRead p.1 p.2.2).1)
        went crc total u ∧ bytes u ∧ errs u ((s.ligTouch l).poisonedSectors l) ∧ u.ctxs = s.ctxs
          ∧ (total ≤ j.at_ + k → u.reg (ligReg t n Off.THC_LIG_RES) = BitVec.ofNat 64 crc))
      ∧ (s.ligJob t n 6 = some j → Completes (.scrub t n k) s fun u =>
        went j.crc total u ∧ bytes u ∧ errs u (((s.ligTouch l).rewrite (sectorsOf l)).poisonedSectors l) ∧ u.ctxs = s.ctxs)
      ∧ (∀ img : SealedImage, s.ligJob t n 7 = some j →
        let c := bits j.aux2 9 0
        (img.ok = false → Completes (.restore t n k img) s (ended true))
        ∧ (img.ok = true → Completes (.restore t n k img) s fun u =>
            went j.crc img.pages.length u ∧ (∀ m, m ≠ c → u.ctx m = s.ctx m)
              ∧ (img.pages.length ≤ j.at_ + k → s.reg (ctxA c Off.CTX_SNAP_ADDR) ≠ 0 → (u.ctx c).snapFresh = false)))
      ∧ (s.ligJob t n 8 = some j →
        let w := leNat (s.devRead j.aux2 8).1
        ((bitAt w 49 = true ∧ bitAt w 48 = false) ∨ bitAt w 51 = true → Completes (.rebuild t n k) s (ended true))
        ∧ ((bitAt w 49 = true → bitAt w 48 = true) → bitAt w 51 = false → Completes (.rebuild t n k) s fun u =>
            went j.crc (s.heldPages (bits j.aux 29 20)) u ∧ bytes u ∧ u.ctxs = s.ctxs))
      ∧ ∀ ok, s.ligJob t n 9 = some j → Completes (.repair t n ok) s (ended (!ok))))
  ∧ (∀ (s : State) (t n : Nat) (j : LigJob), t < 16 → n < 4 → Table.get? s.ligger (ligKey t n) = some j → j.done = true →
      s.alive (thatchDie t) = true → s.ligState t n = 1 → Completes (.liggerCommandDone t n) s fun u =>
        u.ligState t n = (if j.failed then 3 else 2) ∧ Table.get? u.ligger (ligKey t n) = none
          ∧ u.rf (bar0 (thatchDie t) 0 Off.PG_IRQ_RAW) (4 + n) (4 + n) = 1 ∧ sameMemory s u)
  ∧ ∀ (s : State) (src : HostSrc) (t n : Nat), t < 16 → n < 4 → WriteReaches s src (ligReg t n Off.THC_LIG_CTL) →
      (s.ligState t n = 4 → Completes (.liggerResume src t n) s fun u => u.ligState t n = 1 ∧ wroteRegs src [ligReg t n Off.THC_LIG_STS] s u)
      ∧ (s.ligState t n ≠ 4 → Completes (.liggerResume src t n) s fun u => wroteRegs src [] s u)
      ∧ (s.ligState t n = 1 ∨ s.ligState t n = 4 → Completes (.liggerAbort src t n) s fun u =>
          u.ligState t n = 5 ∧ Table.get? u.ligger (ligKey t n) = none ∧ sameRegsBut (ligReg t n Off.THC_LIG_STS :: pcieOf src) s u
            ∧ sameMemory s u)

/-- Energy (rests on R398): a die's reading is counted whole; each context is charged its whole µJ share of it, and nothing of it is lost:
what is left goes to the next interval, or to RDG_ENERGY_IDLE where no tile ran. Ageing of the Rafter dies (rests on R365 to R368): a
sample sets the least slack and its monitor; an ageing epoch ends with the least offset at which every monitor is
predicted to have the target (the prediction is the model's choice, log 102) and the tiles that would miss it at 12 steps; VOFF moves one step toward its target; a retired
tile's scratchpad stands in its spare. -/
def Obligations.EnergyAndAgeing : Prop :=
  (∀ (s : State) (d uj : Nat), s.Inv → d < 64 → s.periodOver .energy = true → (∀ e ∈ s.ctxs, e.1 < 1024 ∧ e.2.running = none) →
       let e := uj + Table.getD 0 s.energyRem d
       let l := s.shares d
       let total := (l.map (·.2)).sum
       Completes (.energyInterval [⟨d, uj⟩]) s fun u =>
         u.reg (bar0 d 1 Off.PRL_ENERGY) = s.reg (bar0 d 1 Off.PRL_ENERGY) + BitVec.ofNat 64 uj ∧ u.tileCycles = []
           ∧ (total = 0 → u.reg Off.RDG_ENERGY_IDLE = s.reg Off.RDG_ENERGY_IDLE + BitVec.ofNat 64 e ∧ Table.getD 0 u.energyRem d = 0)
           ∧ (total ≠ 0 → u.reg Off.RDG_ENERGY_IDLE = s.reg Off.RDG_ENERGY_IDLE
             ∧ (∀ x ∈ l, u.reg (ctxA x.1 Off.CTX_ENERGY_UJ) = s.reg (ctxA x.1 Off.CTX_ENERGY_UJ) + BitVec.ofNat 64 (e * x.2 / total))
             ∧ (l.map fun x => e * x.2 / total).sum + Table.getD 0 u.energyRem d = e ∧ Table.getD 0 u.energyRem d < l.length)
           ∧ u.ctxs = s.ctxs ∧ sameMemory s u)
  ∧ (∀ (s : State) (r : Nat), r < 36 → s.alive (rafterDie r) = true →
       let d := rafterDie r
       (∀ slack m, (slack.take 96).min? = some m → s.periodOver (.margin r) = true → Completes (.marginSample r slack) s fun u =>
         u.rf (bar0 d 0 Off.RFT_MARGIN) 15 0 = toField16 m ∧ u.rf (bar0 d 0 Off.RFT_MARGIN) 22 16 = slack.idxOf m
           ∧ (m < ofField16 (s.rf (bar0 d 0 Off.RFT_AGE_CFG) 31 16) → u.rf (bar0 d 0 Off.PG_IRQ_RAW) 0 0 = 1) ∧ sameMemory s u)
       ∧ (∀ monitors tiles, s.rf (bar0 d 0 Off.RFT_AGE_STS) 1 0 = 1 → s.periodOver (.epoch r) = true → Completes (.marginEpochEnd r monitors tiles) s fun u =>
         let cur := s.rf (bar0 d 0 Off.RFT_VOFF) 7 4
         let target := ofField16 (s.rf (bar0 d 0 Off.RFT_AGE_CFG) 15 0) * 1000
         let n := u.rf (bar0 d 0 Off.RFT_AGE_STS) 5 2
         u.rf (bar0 d 0 Off.RFT_AGE_STS) 1 0 = 2 ∧ n ≤ 12 ∧ (∀ m, m < n → ∃ x ∈ monitors, predicted x.slack x.slope cur m < target)
           ∧ ((∃ m, m ≤ 12 ∧ ∀ x ∈ monitors, target ≤ predicted x.slack x.slope cur m) → ∀ x ∈ monitors, target ≤ predicted x.slack x.slope cur n)
           ∧ u.rf (bar0 d 0 Off.RFT_AGE_STS) 31 16 = satPlus 16 (s.rf (bar0 d 0 Off.RFT_AGE_STS) 31 16) 1
           ∧ (∀ p ∈ (u.rafter r).proposals, (s.rafter r).enabled p = true ∧ ∃ x ∈ tiles, x.1 = p ∧ ∃ m ∈ monitors[monitorOf p]?,
               predicted x.2 m.slope cur 12 < target) ∧ (u.rafter r).proposals.Pairwise (· < ·) ∧ u.rf (bar0 d 0 Off.PG_IRQ_RAW) 1 1 = 1 ∧ sameMemory s u)
       ∧ (s.periodOver (.voff r) = true → Completes (.voffMove r) s fun u =>
         let a := bar0 d 0 Off.RFT_VOFF
         let want := min 12 (s.rf a 3 0)
         let cur := s.rf a 7 4
         u.rf a 7 4 = (if cur < want then cur + 1 else if want < cur then cur - 1 else cur) ∧ u.rf a 3 0 = s.rf a 3 0
           ∧ u = { s with regs := u.regs, periodAt := u.periodAt } ∧ sameRegsBut [a] s u)
       ∧ ∀ x, s.Inv → (s.rafter r).retired.find? (·.copying) = some x → x.tile < 2304 → x.spare < 2304 → Completes (.tileRetireDone r) s fun u =>
         (∀ i, i < 2 ^ 18 → u.padByte (padKey d x.spare 0) i = s.padByte (padKey d x.tile 0) i)
           ∧ (∀ p i, p < 2304 → p ≠ x.spare → i < 2 ^ 18 → u.padByte (padKey d p 0) i = s.padByte (padKey d p 0) i)
           ∧ u.rf (bar0 d 0 Off.RFT_RETIRE) 20 14 = s.rf (bar0 d 0 Off.RFT_RETIRE) 20 14 - 1
           ∧ (∀ y ∈ (u.rafter r).retired, y.tile = x.tile → y.copying = false) ∧ u.mem = s.mem)

/-- Token counters (rests on R47): a counter is 16 bits wide; what would take it above 65,535 leaves it there and faults the context with code
4 (TOKEN_OVERFLOW) at the end of the cycle, and less is added as it is. So it is for a SIGNAL that arrives, too. -/
def Obligations.TokenCountersSaturate : Prop :=
  let rule (s : State) (c t k n : Nat) (u : State) : Prop :=
    u.tokens c t k = min (s.tokens c t k + n) 65535
      ∧ (65535 < s.tokens c t k + n → (⟨c, 4, some (4, t, (s.tile c t).index (s.tile c t).pos)⟩ : PendFault) ∈ u.cycle.faults
          ∧ (s.cycle.faults = [] → (u.takeFaults.ctx c).phase = .faulted
            ∧ u.takeFaults.cf c Off.CTX_FAULT 7 0 = if s.cf c Off.CTX_FAULT 7 0 = 0 then 4 else s.cf c Off.CTX_FAULT 7 0))
      ∧ (s.tokens c t k + n ≤ 65535 → u.cycle.faults = s.cycle.faults)
  (∀ (s : State) (c t k n : Nat), rule s c t k n (s.addTokens c t k n))
    ∧ ∀ (s : State) (c id t k n : Nat) (x : Xfer), s.xfer c id = some x → x.kind = .signal t k n → s.canArrive c id x = true → x.orphan = false →
      Completes (.transferArrival c id) s fun u => rule s c t k n u

/-- EAV_WRR (rests on R285): a write whose six weights sum to more than 256 is ignored and sets BAD, one that is taken clears BAD; package
cold and warm reset set 0x0000_0810_1830_6040. -/
def Obligations.PortWeightsSumToAtMost256 : Prop :=
  ∀ (s : State) (p : Nat), p < 64 →
    let a := bar0 (portDie p) 0 (Off.EAV_WRR + 8 * (p % 8))
    (∀ (src : HostSrc) (v : Word), WriteReaches s src a →
      let sum := ((List.range 6).map fun i => fld v (8 * i + 7) (8 * i)).sum
      (256 < sum → Completes (.eavWrrWrite src p v) s fun u => u.rf a 47 0 = s.rf a 47 0 ∧ u.rf a 48 48 = 1 ∧ wroteRegs src [a] s u)
      ∧ (sum ≤ 256 → Completes (.eavWrrWrite src p v) s fun u => u.rf a 47 0 = fld v 47 0 ∧ u.rf a 48 48 = 0 ∧ wroteRegs src [a] s u))
    ∧ (s.pwrEn = true → s.pwrgd = false → Completes .pkgPwrgd s fun u => u.reg a = 0x0000081018306040)
    ∧ ∀ src, WriteReaches s src Off.RDG_PKG_RESET → s.rf Off.RDG_SAG 2 0 < 4 → s.rf Off.RDG_FWACT 0 0 = 0 →
        Completes (.pkgResetWrite src 0x5741 true) s fun u => u.reg a = 0x0000081018306040

/-- The map of device physical addresses (rests on R199 to R204, R215): no two addresses stand at one place, so that a write to one byte
changes no other address, whatever the kinds of the bands. -/
def Obligations.DpaMapIsInjective : Prop :=
  ∀ a b : Nat, dpaLoc a ≠ .hole → dpaLoc a = dpaLoc b → a = b
end

