-- ==== Sys2Proof/Laws/Exec.lean ====
section
/-! SUPPORT. Each command's meaning: what exec runs for it. -/

namespace Sys2Proof.Machine

@[simp] theorem exec_pwrEnRise (s : State) : exec .pwrEnRise s = execPwrEnRise s := rfl
@[simp] theorem exec_pwrEnFall (s : State) : exec .pwrEnFall s = execPwrEnFall s := rfl
@[simp] theorem exec_pkgPwrgd (s : State) : exec .pkgPwrgd s = execPkgPwrgd s := rfl
@[simp] theorem exec_perstMgmtAssert (s : State) : exec .perstMgmtAssert s = execPerstMgmtAssert s := rfl
@[simp] theorem exec_perstOtherAssert (s : State) : exec .perstOtherAssert s = execPerstOtherAssert s := rfl
@[simp] theorem exec_perstDeassert (portB : Bool) (s : State) : exec (.perstDeassert portB) s = execPerstDeassert portB s := rfl
@[simp] theorem exec_flrVf (portB : Bool) (n : Nat) (s : State) : exec (.flrVf portB n) s = execFlrVf portB n s := rfl
@[simp] theorem exec_flrPf (portB : Bool) (s : State) : exec (.flrPf portB) s = execFlrPf portB s := rfl
@[simp] theorem exec_supplySample (tabs : List Nat) (s : State) : exec (.supplySample tabs) s = execSupplySample tabs s := rfl
@[simp] theorem exec_sagLevelEnter (level : Nat) (s : State) : exec (.sagLevelEnter level) s = execSagLevelEnter level s := rfl
@[simp] theorem exec_sagLevelLeave (level : Nat) (s : State) : exec (.sagLevelLeave level) s = execSagLevelLeave level s := rfl
@[simp] theorem exec_selfRefreshEnter (s : State) : exec .selfRefreshEnter s = execSelfRefreshEnter s := rfl
@[simp] theorem exec_thermalTrip (die temp : Nat) (s : State) : exec (.thermalTrip die temp) s = execThermalTrip die temp s := rfl
@[simp] theorem exec_thermalCrit (die : Nat) (s : State) : exec (.thermalCrit die) s = execThermalCrit die s := rfl
@[simp] theorem exec_thermClear (src : HostSrc) (s : State) : exec (.thermClear src) s = execThermClear src s := rfl
@[simp] theorem exec_clkDivWrite (src : HostSrc) (div : Nat) (s : State) : exec (.clkDivWrite src div) s = execClkDivWrite src div s := rfl
@[simp] theorem exec_clkRestore (src : HostSrc) (s : State) : exec (.clkRestore src) s = execClkRestore src s := rfl
@[simp] theorem exec_dividerChange (s : State) : exec .dividerChange s = execDividerChange s := rfl
@[simp] theorem exec_sagRPrefetch (src : HostSrc) (s : State) : exec (.sagRPrefetch src) s = execSagRPrefetch src s := rfl
@[simp] theorem exec_sagRResume (src : HostSrc) (s : State) : exec (.sagRResume src) s = execSagRResume src s := rfl
@[simp] theorem exec_sagClrMax (src : HostSrc) (s : State) : exec (.sagClrMax src) s = execSagClrMax src s := rfl
@[simp] theorem exec_pstateActive (src : HostSrc) (s : State) : exec (.pstateActive src) s = execPstateActive src s := rfl
@[simp] theorem exec_pstateHold (src : HostSrc) (s : State) : exec (.pstateHold src) s = execPstateHold src s := rfl
@[simp] theorem exec_pstateNap (src : HostSrc) (s : State) : exec (.pstateNap src) s = execPstateNap src s := rfl
@[simp] theorem exec_pstateDormant (src : HostSrc) (s : State) : exec (.pstateDormant src) s = execPstateDormant src s := rfl
@[simp] theorem exec_pstateDone (s : State) : exec .pstateDone s = execPstateDone s := rfl
@[simp] theorem exec_pkgResetWrite (src : HostSrc) (code : Nat) (go : Bool) (s : State) : exec (.pkgResetWrite src code go) s = execPkgResetWrite src code go s := rfl
@[simp] theorem exec_warmResetEnd (s : State) : exec .warmResetEnd s = execWarmResetEnd s := rfl
@[simp] theorem exec_ridgeBootDone (ridgeB : Bool) (s : State) : exec (.ridgeBootDone ridgeB) s = execRidgeBootDone ridgeB s := rfl
@[simp] theorem exec_thatchReady (t : Nat) (s : State) : exec (.thatchReady t) s = execThatchReady t s := rfl
@[simp] theorem exec_eaveReady (e : Nat) (s : State) : exec (.eaveReady e) s = execEaveReady e s := rfl
@[simp] theorem exec_rafterReady (r : Nat) (spares failed : List Nat) (s : State) : exec (.rafterReady r spares failed) s = execRafterReady r spares failed s := rfl
@[simp] theorem exec_portUp (port : Nat) (s : State) : exec (.portUp port) s = execPortUp port s := rfl
@[simp] theorem exec_edgeTrained (die dir : Nat) (s : State) : exec (.edgeTrained die dir) s = execEdgeTrained die dir s := rfl
@[simp] theorem exec_discoveryWave (die dir kind : Nat) (s : State) : exec (.discoveryWave die dir kind) s = execDiscoveryWave die dir kind s := rfl
@[simp] theorem exec_dieTableBuild (s : State) : exec .dieTableBuild s = execDieTableBuild s := rfl
@[simp] theorem exec_firmwareActivation (s : State) : exec .firmwareActivation s = execFirmwareActivation s := rfl
@[simp] theorem exec_fwact (src : PfSrc) (s : State) : exec (.fwact src) s = execFwact src s := rfl
@[simp] theorem exec_firmwareActivationEnd (s : State) : exec .firmwareActivationEnd s = execFirmwareActivationEnd s := rfl
@[simp] theorem exec_pldmFirmwareUpdate (ridgeB : Bool) (part : FlashPart) (s : State) : exec (.pldmFirmwareUpdate ridgeB part) s = execPldmFirmwareUpdate ridgeB part s := rfl
@[simp] theorem exec_launchReady (c : Nat) (s : State) : exec (.launchReady c) s = execLaunchReady c s := rfl
@[simp] theorem exec_launchEnd (c : Nat) (s : State) : exec (.launchEnd c) s = execLaunchEnd c s := rfl
@[simp] theorem exec_nop (c t : Nat) (s : State) : exec (.nop c t) s = execNop c t s := rfl
@[simp] theorem exec_hold (c t : Nat) (s : State) : exec (.hold c t) s = execHold c t s := rfl
@[simp] theorem exec_signal (c t : Nat) (s : State) : exec (.signal c t) s = execSignal c t s := rfl
@[simp] theorem exec_repeatEntry (c t : Nat) (s : State) : exec (.repeatEntry c t) s = execRepeatEntry c t s := rfl
@[simp] theorem exec_endEntry (c t : Nat) (s : State) : exec (.endEntry c t) s = execEndEntry c t s := rfl
@[simp] theorem exec_mark (c t : Nat) (s : State) : exec (.mark c t) s = execMark c t s := rfl
@[simp] theorem exec_planRefillArrive (c t id : Nat) (s : State) : exec (.planRefillArrive c t id) s = execPlanRefillArrive c t id s := rfl
@[simp] theorem exec_deadlockSuspect (c t : Nat) (s : State) : exec (.deadlockSuspect c t) s = execDeadlockSuspect c t s := rfl
@[simp] theorem exec_mma (c t : Nat) (s : State) : exec (.mma c t) s = execMma c t s := rfl
@[simp] theorem exec_mmaSparse (c t : Nat) (s : State) : exec (.mmaSparse c t) s = execMmaSparse c t s := rfl
@[simp] theorem exec_conv (c t : Nat) (s : State) : exec (.conv c t) s = execConv c t s := rfl
@[simp] theorem exec_mmaColl (c t : Nat) (s : State) : exec (.mmaColl c t) s = execMmaColl c t s := rfl
@[simp] theorem exec_vec (c t : Nat) (s : State) : exec (.vec c t) s = execVec c t s := rfl
@[simp] theorem exec_sfu (c t : Nat) (s : State) : exec (.sfu c t) s = execSfu c t s := rfl
@[simp] theorem exec_normStat (c t : Nat) (s : State) : exec (.normStat c t) s = execNormStat c t s := rfl
@[simp] theorem exec_softmax (c t : Nat) (s : State) : exec (.softmax c t) s = execSoftmax c t s := rfl
@[simp] theorem exec_upd (c t : Nat) (s : State) : exec (.upd c t) s = execUpd c t s := rfl
@[simp] theorem exec_rngFill (c t : Nat) (s : State) : exec (.rngFill c t) s = execRngFill c t s := rfl
@[simp] theorem exec_gnsStat (c t : Nat) (s : State) : exec (.gnsStat c t) s = execGnsStat c t s := rfl
@[simp] theorem exec_streamIn (c t : Nat) (s : State) : exec (.streamIn c t) s = execStreamIn c t s := rfl
@[simp] theorem exec_streamOut (c t : Nat) (s : State) : exec (.streamOut c t) s = execStreamOut c t s := rfl
@[simp] theorem exec_assign (c t : Nat) (s : State) : exec (.assign c t) s = execAssign c t s := rfl
@[simp] theorem exec_slotGather (c t : Nat) (s : State) : exec (.slotGather c t) s = execSlotGather c t s := rfl
@[simp] theorem exec_slotScatter (c t : Nat) (s : State) : exec (.slotScatter c t) s = execSlotScatter c t s := rfl
@[simp] theorem exec_clear (c t : Nat) (s : State) : exec (.clear c t) s = execClear c t s := rfl
@[simp] theorem exec_send (c t : Nat) (s : State) : exec (.send c t) s = execSend c t s := rfl
@[simp] theorem exec_sendRetry (c t ep : Nat) (s : State) : exec (.sendRetry c t ep) s = execSendRetry c t ep s := rfl
@[simp] theorem exec_recv (c t : Nat) (s : State) : exec (.recv c t) s = execRecv c t s := rfl
@[simp] theorem exec_combine (c t : Nat) (s : State) : exec (.combine c t) s = execCombine c t s := rfl
@[simp] theorem exec_messageArrival (c id : Nat) (s : State) : exec (.messageArrival c id) s = execMessageArrival c id s := rfl
@[simp] theorem exec_ackArrival (c id : Nat) (s : State) : exec (.ackArrival c id) s = execAckArrival c id s := rfl
@[simp] theorem exec_combineSum (c t ep : Nat) (s : State) : exec (.combineSum c t ep) s = execCombineSum c t ep s := rfl
@[simp] theorem exec_qpush (c t : Nat) (s : State) : exec (.qpush c t) s = execQpush c t s := rfl
@[simp] theorem exec_qpop (c t : Nat) (s : State) : exec (.qpop c t) s = execQpop c t s := rfl
@[simp] theorem exec_verdict (c t : Nat) (s : State) : exec (.verdict c t) s = execVerdict c t s := rfl
@[simp] theorem exec_commitIf (c t : Nat) (s : State) : exec (.commitIf c t) s = execCommitIf c t s := rfl
@[simp] theorem exec_transferAccept (c id : Nat) (s : State) : exec (.transferAccept c id) s = execTransferAccept c id s := rfl
@[simp] theorem exec_transferArrival (c id : Nat) (s : State) : exec (.transferArrival c id) s = execTransferArrival c id s := rfl
@[simp] theorem exec_unitOperationComplete (c t : Nat) (u : UnitKind) (s : State) : exec (.unitOperationComplete c t u) s = execUnitOperationComplete c t u s := rfl
@[simp] theorem exec_queueWordWrite (c link id : Nat) (s : State) : exec (.queueWordWrite c link id) s = execQueueWordWrite c link id s := rfl
@[simp] theorem exec_packetArrival (c link : Nat) (s : State) : exec (.packetArrival c link) s = execPacketArrival c link s := rfl
@[simp] theorem exec_queueFlush (src : HostSrc) (c link : Nat) (s : State) : exec (.queueFlush src c link) s = execQueueFlush src c link s := rfl
@[simp] theorem exec_collChunkComplete (c inst t : Nat) (s : State) : exec (.collChunkComplete c inst t) s = execCollChunkComplete c inst t s := rfl
@[simp] theorem exec_packageStageEnd (c slot : Nat) (s : State) : exec (.packageStageEnd c slot) s = execPackageStageEnd c slot s := rfl
@[simp] theorem exec_voteSend (c slot : Nat) (s : State) : exec (.voteSend c slot) s = execVoteSend c slot s := rfl
@[simp] theorem exec_vote (f : RxFrame) (s : State) : exec (.vote f) s = execVote f s := rfl
@[simp] theorem exec_decide (f : RxFrame) (s : State) : exec (.decide f) s = execDecide f s := rfl
@[simp] theorem exec_checkpointDone (c bytes : Nat) (s : State) : exec (.checkpointDone c bytes) s = execCheckpointDone c bytes s := rfl
@[simp] theorem exec_checkpointTrigger (c cause die : Nat) (s : State) : exec (.checkpointTrigger c cause die) s = execCheckpointTrigger c cause die s := rfl
@[simp] theorem exec_checkpointTimer (c : Nat) (s : State) : exec (.checkpointTimer c) s = execCheckpointTimer c s := rfl
@[simp] theorem exec_mirror (f : RxFrame) (s : State) : exec (.mirror f) s = execMirror f s := rfl
@[simp] theorem exec_mirrorAck (f : RxFrame) (s : State) : exec (.mirrorAck f) s = execMirrorAck f s := rfl
@[simp] theorem exec_rebuildFrame (f : RxFrame) (s : State) : exec (.rebuildFrame f) s = execRebuildFrame f s := rfl
@[simp] theorem exec_stage (f : RxFrame) (s : State) : exec (.stage f) s = execStage f s := rfl
@[simp] theorem exec_coll (f : RxFrame) (s : State) : exec (.coll f) s = execColl f s := rfl
@[simp] theorem exec_ring (f : RxFrame) (s : State) : exec (.ring f) s = execRing f s := rfl
@[simp] theorem exec_ingest (f : RxFrame) (s : State) : exec (.ingest f) s = execIngest f s := rfl
@[simp] theorem exec_guest (f : RxFrame) (s : State) : exec (.guest f) s = execGuest f s := rfl
@[simp] theorem exec_mgmt (f : RxFrame) (s : State) : exec (.mgmt f) s = execMgmt f s := rfl
@[simp] theorem exec_relayed (f : RxFrame) (s : State) : exec (.relayed f) s = execRelayed f s := rfl
@[simp] theorem exec_linkctl (f : RxFrame) (s : State) : exec (.linkctl f) s = execLinkctl f s := rfl
@[simp] theorem exec_ptpFrame (port : Nat) (synchronised : Bool) (s : State) : exec (.ptpFrame port synchronised) s = execPtpFrame port synchronised s := rfl
@[simp] theorem exec_pauseFrame (port prio quanta : Nat) (s : State) : exec (.pauseFrame port prio quanta) s = execPauseFrame port prio quanta s := rfl
@[simp] theorem exec_pauseRepeat (port prio : Nat) (s : State) : exec (.pauseRepeat port prio) s = execPauseRepeat port prio s := rfl
@[simp] theorem exec_frameTransmit (link cls : Nat) (s : State) : exec (.frameTransmit link cls) s = execFrameTransmit link cls s := rfl
@[simp] theorem exec_replayTimer (link cls : Nat) (s : State) : exec (.replayTimer link cls) s = execReplayTimer link cls s := rfl
@[simp] theorem exec_linkctlTimer (link : Nat) (s : State) : exec (.linkctlTimer link) s = execLinkctlTimer link s := rfl
@[simp] theorem exec_linkSilenceTimeout (link : Nat) (s : State) : exec (.linkSilenceTimeout link) s = execLinkSilenceTimeout link s := rfl
@[simp] theorem exec_portSignalLoss (port : Nat) (s : State) : exec (.portSignalLoss port) s = execPortSignalLoss port s := rfl
@[simp] theorem exec_linkMove (link : Nat) (s : State) : exec (.linkMove link) s = execLinkMove link s := rfl
@[simp] theorem exec_replayRateWindow (e : Nat) (s : State) : exec (.replayRateWindow e) s = execReplayRateWindow e s := rfl
@[simp] theorem exec_ppsSecond (s : State) : exec .ppsSecond s = execPpsSecond s := rfl
@[simp] theorem exec_ptpSelect (src : HostSrc) (value : Word) (s : State) : exec (.ptpSelect src value) s = execPtpSelect src value s := rfl
@[simp] theorem exec_eavPctlWrite (src : HostSrc) (port : Nat) (value : Word) (s : State) : exec (.eavPctlWrite src port value) s = execEavPctlWrite src port value s := rfl
@[simp] theorem exec_eavWrrWrite (src : HostSrc) (port : Nat) (value : Word) (s : State) : exec (.eavWrrWrite src port value) s = execEavWrrWrite src port value s := rfl
@[simp] theorem exec_nodeWrite (src : HostSrc) (node : Nat) (s : State) : exec (.nodeWrite src node) s = execNodeWrite src node s := rfl
@[simp] theorem exec_flitCrcFail (die dir strand : Nat) (s : State) : exec (.flitCrcFail die dir strand) s = execFlitCrcFail die dir strand s := rfl
@[simp] theorem exec_strandFail (die dir strand : Nat) (s : State) : exec (.strandFail die dir strand) s = execStrandFail die dir strand s := rfl
@[simp] theorem exec_edgeDown (die dir : Nat) (s : State) : exec (.edgeDown die dir) s = execEdgeDown die dir s := rfl
@[simp] theorem exec_strandRetire (src : HostSrc) (die dir mask : Nat) (s : State) : exec (.strandRetire src die dir mask) s = execStrandRetire src die dir mask s := rfl
@[simp] theorem exec_strandWarnWindow (die dir : Nat) (s : State) : exec (.strandWarnWindow die dir) s = execStrandWarnWindow die dir s := rfl
@[simp] theorem exec_dieClockSupplyLoss (die : Nat) (s : State) : exec (.dieClockSupplyLoss die) s = execDieClockSupplyLoss die s := rfl
@[simp] theorem exec_fenceNotice (die cause : Nat) (s : State) : exec (.fenceNotice die cause) s = execFenceNotice die cause s := rfl
@[simp] theorem exec_takeover (s : State) : exec .takeover s = execTakeover s := rfl
@[simp] theorem exec_takeoverComplete (s : State) : exec .takeoverComplete s = execTakeoverComplete s := rfl
@[simp] theorem exec_guestRequest (site : Nat) (req : GuestReq) (s : State) : exec (.guestRequest site req) s = execGuestRequest site req s := rfl
@[simp] theorem exec_guestAdmit (site : Nat) (s : State) : exec (.guestAdmit site) s = execGuestAdmit site s := rfl
@[simp] theorem exec_overpower (site : Nat) (s : State) : exec (.overpower site) s = execOverpower site s := rfl
@[simp] theorem exec_sitePowerOn (src : HostSrc) (site : Nat) (s : State) : exec (.sitePowerOn src site) s = execSitePowerOn src site s := rfl
@[simp] theorem exec_memoryRead (c id k : Nat) (s : State) : exec (.memoryRead c id k) s = execMemoryRead c id k s := rfl
@[simp] theorem exec_memoryWrite (c id k : Nat) (s : State) : exec (.memoryWrite c id k) s = execMemoryWrite c id k s := rfl
@[simp] theorem exec_eccReread (stack sector : Nat) (s : State) : exec (.eccReread stack sector) s = execEccReread stack sector s := rfl
@[simp] theorem exec_ceRateWindow (t : Nat) (s : State) : exec (.ceRateWindow t) s = execCeRateWindow t s := rfl
@[simp] theorem exec_atomicApply (c id k : Nat) (s : State) : exec (.atomicApply c id k) s = execAtomicApply c id k s := rfl
@[simp] theorem exec_refreshRateChange (t temp : Nat) (s : State) : exec (.refreshRateChange t temp) s = execRefreshRateChange t temp s := rfl
@[simp] theorem exec_refreshTick (t : Nat) (errors : List (Nat × Upset)) (s : State) : exec (.refreshTick t errors) s = execRefreshTick t errors s := rfl
@[simp] theorem exec_bandWrite (src : HostSrc) (kinds : Nat) (s : State) : exec (.bandWrite src kinds) s = execBandWrite src kinds s := rfl
@[simp] theorem exec_copyIn (t eng n : Nat) (data : List Byte) (s : State) : exec (.copyIn t eng n data) s = execCopyIn t eng n data s := rfl
@[simp] theorem exec_copyOut (t eng n : Nat) (s : State) : exec (.copyOut t eng n) s = execCopyOut t eng n s := rfl
@[simp] theorem exec_fillConst (t eng n : Nat) (s : State) : exec (.fillConst t eng n) s = execFillConst t eng n s := rfl
@[simp] theorem exec_fillRng (t eng n : Nat) (s : State) : exec (.fillRng t eng n) s = execFillRng t eng n s := rfl
@[simp] theorem exec_test (t eng n : Nat) (failing : List Nat) (s : State) : exec (.test t eng n failing) s = execTest t eng n failing s := rfl
@[simp] theorem exec_verify (t eng n : Nat) (s : State) : exec (.verify t eng n) s = execVerify t eng n s := rfl
@[simp] theorem exec_scrub (t eng n : Nat) (s : State) : exec (.scrub t eng n) s = execScrub t eng n s := rfl
@[simp] theorem exec_restore (t eng n : Nat) (image : SealedImage) (s : State) : exec (.restore t eng n image) s = execRestore t eng n image s := rfl
@[simp] theorem exec_rebuild (t eng n : Nat) (s : State) : exec (.rebuild t eng n) s = execRebuild t eng n s := rfl
@[simp] theorem exec_repair (t eng : Nat) (ok : Bool) (s : State) : exec (.repair t eng ok) s = execRepair t eng ok s := rfl
@[simp] theorem exec_liggerCommandDone (t eng : Nat) (s : State) : exec (.liggerCommandDone t eng) s = execLiggerCommandDone t eng s := rfl
@[simp] theorem exec_liggerResume (src : HostSrc) (t eng : Nat) (s : State) : exec (.liggerResume src t eng) s = execLiggerResume src t eng s := rfl
@[simp] theorem exec_liggerAbort (src : HostSrc) (t eng : Nat) (s : State) : exec (.liggerAbort src t eng) s = execLiggerAbort src t eng s := rfl
@[simp] theorem exec_doorbell (src : HostSrc) (ring : Option Nat) (tail : Nat) (s : State) : exec (.doorbell src ring tail) s = execDoorbell src ring tail s := rfl
@[simp] theorem exec_loadPlan (c : Nat) (s : State) : exec (.loadPlan c) s = execLoadPlan c s := rfl
@[simp] theorem exec_loadPlanComplete (c : Nat) (s : State) : exec (.loadPlanComplete c) s = execLoadPlanComplete c s := rfl
@[simp] theorem exec_launchStep (c : Nat) (s : State) : exec (.launchStep c) s = execLaunchStep c s := rfl
@[simp] theorem exec_stageLinks (c : Nat) (s : State) : exec (.stageLinks c) s = execStageLinks c s := rfl
@[simp] theorem exec_versionRings (c : Nat) (s : State) : exec (.versionRings c) s = execVersionRings c s := rfl
@[simp] theorem exec_group (src : PfSrc) (s : State) : exec (.group src) s = execGroup src s := rfl
@[simp] theorem exec_reform (src : PfSrc) (s : State) : exec (.reform src) s = execReform src s := rfl
@[simp] theorem exec_route (src : PfSrc) (s : State) : exec (.route src) s = execRoute src s := rfl
@[simp] theorem exec_routePrefix (src : PfSrc) (s : State) : exec (.routePrefix src) s = execRoutePrefix src s := rfl
@[simp] theorem exec_rollback (c : Nat) (s : State) : exec (.rollback c) s = execRollback c s := rfl
@[simp] theorem exec_context (src : PfSrc) (s : State) : exec (.context src) s = execContext src s := rfl
@[simp] theorem exec_bind (src : PfSrc) (s : State) : exec (.bind src) s = execBind src s := rfl
@[simp] theorem exec_snapshot (c : Nat) (s : State) : exec (.snapshot c) s = execSnapshot c s := rfl
@[simp] theorem exec_snapshotComplete (c : Nat) (s : State) : exec (.snapshotComplete c) s = execSnapshotComplete c s := rfl
@[simp] theorem exec_exportRing (c : Nat) (s : State) : exec (.exportRing c) s = execExportRing c s := rfl
@[simp] theorem exec_exportComplete (c : Nat) (s : State) : exec (.exportComplete c) s = execExportComplete c s := rfl
@[simp] theorem exec_fence (ring : Option Nat) (src : PfSrc) (s : State) : exec (.fence ring src) s = execFence ring src s := rfl
@[simp] theorem exec_flush (c : Nat) (s : State) : exec (.flush c) s = execFlush c s := rfl
@[simp] theorem exec_cancel (c : Nat) (s : State) : exec (.cancel c) s = execCancel c s := rfl
@[simp] theorem exec_cplHeadWrite (src : HostSrc) (c head : Nat) (s : State) : exec (.cplHeadWrite src c head) s = execCplHeadWrite src c head s := rfl
@[simp] theorem exec_cplBaseWrite (src : HostSrc) (c : Nat) (base : Word) (s : State) : exec (.cplBaseWrite src c base) s = execCplBaseWrite src c base s := rfl
@[simp] theorem exec_resAck (src : HostSrc) (c : Nat) (seq : BitVec 32) (s : State) : exec (.resAck src c seq) s = execResAck src c seq s := rfl
@[simp] theorem exec_cmdRingConfigWrite (src : HostSrc) (c : Nat) (isCtl : Bool) (value : Word) (s : State) : exec (.cmdRingConfigWrite src c isCtl value) s = execCmdRingConfigWrite src c isCtl value s := rfl
@[simp] theorem exec_evlogConfigWrite (src : HostSrc) (c : Nat) (isCtl : Bool) (value : Word) (s : State) : exec (.evlogConfigWrite src c isCtl value) s = execEvlogConfigWrite src c isCtl value s := rfl
@[simp] theorem exec_evlogReadWrite (src : HostSrc) (c : Nat) (read : BitVec 32) (s : State) : exec (.evlogReadWrite src c read) s = execEvlogReadWrite src c read s := rfl
@[simp] theorem exec_evlogClrLost (src : HostSrc) (c : Nat) (s : State) : exec (.evlogClrLost src c) s = execEvlogClrLost src c s := rfl
@[simp] theorem exec_trainingRegisterWrite (src : HostSrc) (c which : Nat) (value : Word) (s : State) : exec (.trainingRegisterWrite src c which value) s = execTrainingRegisterWrite src c which value s := rfl
@[simp] theorem exec_xlateInv (src : HostSrc) (c : Nat) (s : State) : exec (.xlateInv src c) s = execXlateInv src c s := rfl
@[simp] theorem exec_ctxReset (src : HostSrc) (c : Nat) (s : State) : exec (.ctxReset src c) s = execCtxReset src c s := rfl
@[simp] theorem exec_contextResetDone (c : Nat) (s : State) : exec (.contextResetDone c) s = execContextResetDone c s := rfl
@[simp] theorem exec_acctClr (src : HostSrc) (c : Nat) (s : State) : exec (.acctClr src c) s = execAcctClr src c s := rfl
@[simp] theorem exec_apertureAccess (portB : Bool) (n off : Nat) (op : AperOp) (s : State) : exec (.apertureAccess portB n off op) s = execApertureAccess portB n off op s := rfl
@[simp] theorem exec_energyInterval (readings : List MeterReading) (s : State) : exec (.energyInterval readings) s = execEnergyInterval readings s := rfl
@[simp] theorem exec_marginSample (r : Nat) (slack : List Int) (s : State) : exec (.marginSample r slack) s = execMarginSample r slack s := rfl
@[simp] theorem exec_epoch (src : HostSrc) (r : Nat) (s : State) : exec (.epoch src r) s = execEpoch src r s := rfl
@[simp] theorem exec_marginEpochEnd (r : Nat) (monitors : List MonitorReading) (tiles : List (Nat × Int)) (s : State) : exec (.marginEpochEnd r monitors tiles) s = execMarginEpochEnd r monitors tiles s := rfl
@[simp] theorem exec_voffWrite (src : HostSrc) (r steps : Nat) (s : State) : exec (.voffWrite src r steps) s = execVoffWrite src r steps s := rfl
@[simp] theorem exec_tileRetire (src : HostSrc) (r tile : Nat) (s : State) : exec (.tileRetire src r tile) s = execTileRetire src r tile s := rfl
@[simp] theorem exec_schedClrMiss (src : HostSrc) (c : Nat) (s : State) : exec (.schedClrMiss src c) s = execSchedClrMiss src c s := rfl
@[simp] theorem exec_schedClrSlip (src : HostSrc) (c : Nat) (s : State) : exec (.schedClrSlip src c) s = execSchedClrSlip src c s := rfl
@[simp] theorem exec_schedClrWait (src : HostSrc) (c : Nat) (s : State) : exec (.schedClrWait src c) s = execSchedClrWait src c s := rfl
@[simp] theorem exec_schedClrSusp (src : HostSrc) (c : Nat) (s : State) : exec (.schedClrSusp src c) s = execSchedClrSusp src c s := rfl
@[simp] theorem exec_arithClrSat (src : HostSrc) (c : Nat) (s : State) : exec (.arithClrSat src c) s = execArithClrSat src c s := rfl
@[simp] theorem exec_arithClrGate (src : HostSrc) (c : Nat) (s : State) : exec (.arithClrGate src c) s = execArithClrGate src c s := rfl
@[simp] theorem exec_arithClrPoison (src : HostSrc) (c : Nat) (s : State) : exec (.arithClrPoison src c) s = execArithClrPoison src c s := rfl
@[simp] theorem exec_sfuClrMasked (src : HostSrc) (c : Nat) (s : State) : exec (.sfuClrMasked src c) s = execSfuClrMasked src c s := rfl
@[simp] theorem exec_sfuClrNan (src : HostSrc) (c : Nat) (s : State) : exec (.sfuClrNan src c) s = execSfuClrNan src c s := rfl
@[simp] theorem exec_slotClrOverflow (src : HostSrc) (c : Nat) (s : State) : exec (.slotClrOverflow src c) s = execSlotClrOverflow src c s := rfl
@[simp] theorem exec_slotClrEmpty (src : HostSrc) (c : Nat) (s : State) : exec (.slotClrEmpty src c) s = execSlotClrEmpty src c s := rfl
@[simp] theorem exec_pipeClrQcount (src : HostSrc) (c : Nat) (s : State) : exec (.pipeClrQcount src c) s = execPipeClrQcount src c s := rfl
@[simp] theorem exec_pipeClrChan (src : HostSrc) (c : Nat) (s : State) : exec (.pipeClrChan src c) s = execPipeClrChan src c s := rfl
@[simp] theorem exec_memClrEcc (src : HostSrc) (t : Nat) (s : State) : exec (.memClrEcc src t) s = execMemClrEcc src t s := rfl
@[simp] theorem exec_memClrWin (src : HostSrc) (t : Nat) (s : State) : exec (.memClrWin src t) s = execMemClrWin src t s := rfl
@[simp] theorem exec_ctxMemClrPoison (src : HostSrc) (c : Nat) (s : State) : exec (.ctxMemClrPoison src c) s = execCtxMemClrPoison src c s := rfl
@[simp] theorem exec_trainClrSkip (src : HostSrc) (c : Nat) (s : State) : exec (.trainClrSkip src c) s = execTrainClrSkip src c s := rfl
@[simp] theorem exec_collClrSts (src : HostSrc) (c : Nat) (s : State) : exec (.collClrSts src c) s = execCollClrSts src c s := rfl
@[simp] theorem exec_collClrChunks (src : HostSrc) (c : Nat) (s : State) : exec (.collClrChunks src c) s = execCollClrChunks src c s := rfl
@[simp] theorem exec_collClrStale (src : HostSrc) (c : Nat) (s : State) : exec (.collClrStale src c) s = execCollClrStale src c s := rfl
@[simp] theorem exec_eavClrPorts (src : HostSrc) (e : Nat) (s : State) : exec (.eavClrPorts src e) s = execEavClrPorts src e s := rfl
@[simp] theorem exec_eavClrDrop (src : HostSrc) (e : Nat) (s : State) : exec (.eavClrDrop src e) s = execEavClrDrop src e s := rfl
@[simp] theorem exec_eavClrRelay (src : HostSrc) (e : Nat) (s : State) : exec (.eavClrRelay src e) s = execEavClrRelay src e s := rfl
@[simp] theorem exec_eavClrReroute (src : HostSrc) (e : Nat) (s : State) : exec (.eavClrReroute src e) s = execEavClrReroute src e s := rfl
@[simp] theorem exec_resClrMirwait (src : HostSrc) (c : Nat) (s : State) : exec (.resClrMirwait src c) s = execResClrMirwait src c s := rfl
@[simp] theorem exec_resClrCkpt (src : HostSrc) (c : Nat) (s : State) : exec (.resClrCkpt src c) s = execResClrCkpt src c s := rfl
@[simp] theorem exec_clrErr (src : HostSrc) (addr : Nat) (s : State) : exec (.clrErr src addr) s = execClrErr src addr s := rfl
@[simp] theorem exec_registerWrite (src : HostSrc) (addr : Nat) (size : AccSize) (value : Word) (s : State) : exec (.registerWrite src addr size value) s = execRegisterWrite src addr size value s := rfl
@[simp] theorem exec_launchT0 (c : Nat) (s : State) : exec (.launchT0 c) s = execLaunchT0 c s := rfl
@[simp] theorem exec_queueSpaceFreed (c link : Nat) (s : State) : exec (.queueSpaceFreed c link) s = execQueueSpaceFreed c link s := rfl
@[simp] theorem exec_flitReplayCaughtUp (die dir strand : Nat) (s : State) : exec (.flitReplayCaughtUp die dir strand) s = execFlitReplayCaughtUp die dir strand s := rfl
@[simp] theorem exec_pauseExpiry (port prio : Nat) (s : State) : exec (.pauseExpiry port prio) s = execPauseExpiry port prio s := rfl
@[simp] theorem exec_voffMove (r : Nat) (s : State) : exec (.voffMove r) s = execVoffMove r s := rfl
@[simp] theorem exec_tileRetireDone (r : Nat) (s : State) : exec (.tileRetireDone r) s = execTileRetireDone r s := rfl
@[simp] theorem exec_hostLinkUp (portB : Bool) (width : Nat) (reversed : Bool) (inverted : List Nat) (s : State) : exec (.hostLinkUp portB width reversed inverted) s = execHostLinkUp portB width reversed inverted s := rfl
@[simp] theorem exec_configurationRequest (portB : Bool) (s : State) : exec (.configurationRequest portB) s = execConfigurationRequest portB s := rfl
@[simp] theorem exec_testAccessPort (op : TapOp) (s : State) : exec (.testAccessPort op) s = execTestAccessPort op s := rfl
@[simp] theorem exec_dynamicAddressAssignment (ridgeB : Bool) (addr : Nat) (s : State) : exec (.dynamicAddressAssignment ridgeB addr) s = execDynamicAddressAssignment ridgeB addr s := rfl
@[simp] theorem exec_otherEthertypeFrame (port : Nat) (fcsOk : Bool) (etype : BitVec 16) (s : State) : exec (.otherEthertypeFrame port fcsOk etype) s = execOtherEthertypeFrame port fcsOk etype s := rfl
@[simp] theorem exec_temperatureSample (die temp : Nat) (s : State) : exec (.temperatureSample die temp) s = execTemperatureSample die temp s := rfl

end Sys2Proof.Machine
end

