-- ==== Sys2Proof/Laws/Tables.lean ====
section
/-! SUPPORT. Sparse tables and memories: what a key holds after an update, and that every update keeps the canonical form. -/

namespace Sys2Proof.Machine

variable {α : Type}

/-! ## Reading after an update -/

@[simp] theorem Table.get?_nil (k : Nat) : Table.get? ([] : Table α) k = none := rfl

theorem Table.get?_set (t : Table α) (k j : Nat) (v : α) :
    Table.get? (Table.set t k v) j = if j = k then some v else Table.get? t j := by
  induction t with
  | nil => simp [Table.set, Table.get?]
  | cons e r ih =>
    obtain ⟨i, w⟩ := e
    simp only [Table.set]
    split
    · simp only [Table.get?]
    · split
      · next h => subst h; simp only [Table.get?]; split <;> rfl
      · next h =>
        simp only [Table.get?, ih]
        split
        · next h1 => subst h1; simp [Ne.symm h]
        · rfl

theorem Table.get?_filter (t : Table α) (p : Nat → Bool) (j : Nat) :
    Table.get? (t.filter fun e => p e.1) j = if p j then Table.get? t j else none := by
  induction t with
  | nil => simp [Table.get?]
  | cons e r ih =>
    obtain ⟨i, w⟩ := e
    by_cases hp : p i = true
    · simp only [List.filter_cons, hp, if_true, Table.get?, ih]
      by_cases hj : j = i
      · subst hj; simp [hp]
      · simp [hj]
    · simp only [List.filter_cons, hp, Bool.false_eq_true, if_false, Table.get?, ih]
      by_cases hj : j = i
      · subst hj; simp [hp]
      · simp [hj]

theorem Table.get?_erase (t : Table α) (k j : Nat) :
    Table.get? (Table.erase t k) j = if j = k then none else Table.get? t j := by
  have h := Table.get?_filter t (fun i => decide (i ≠ k)) j
  simp only [Table.erase, h]
  by_cases hj : j = k <;> simp [hj]

/-- A key holds what was put there last. -/
theorem Table.getD_put [DecidableEq α] (d : α) (t : Table α) (k j : Nat) (v : α) :
    Table.getD d (Table.put d t k v) j = if j = k then v else Table.getD d t j := by
  unfold Table.getD Table.put
  split
  · next h => subst h; rw [Table.get?_erase]; split <;> simp
  · rw [Table.get?_set]; split <;> simp

@[simp] theorem Table.getD_put_self [DecidableEq α] (d : α) (t : Table α) (k : Nat) (v : α) :
    Table.getD d (Table.put d t k v) k = v := by simp [Table.getD_put]

@[simp] theorem Table.getD_nil (d : α) (k : Nat) : Table.getD d [] k = d := rfl

/-! ## The canonical form -/

/-- The keys of a table rise strictly. -/
def Table.rises (t : Table α) : Prop := t.Pairwise fun a b => a.1 < b.1

theorem Table.mem_of_get? {t : Table α} {k : Nat} {v : α} (h : Table.get? t k = some v) : (k, v) ∈ t := by
  induction t with
  | nil => simp [Table.get?] at h
  | cons a r ih =>
    obtain ⟨j, w⟩ := a
    simp only [Table.get?] at h
    split at h
    · next hk => simp_all
    · exact List.mem_cons_of_mem _ (ih h)

theorem Table.mem_set {t : Table α} {k : Nat} {v : α} {e : Nat × α} (h : e ∈ Table.set t k v) : e = (k, v) ∨ e ∈ t := by
  induction t with
  | nil => simp [Table.set] at h; exact .inl h
  | cons a r ih =>
    obtain ⟨i, w⟩ := a
    simp only [Table.set] at h
    split at h
    · simpa using h
    · split at h
      · simp only [List.mem_cons] at h ⊢; tauto
      · simp only [List.mem_cons] at h ⊢
        rcases h with h | h
        · exact .inr (.inl h)
        · rcases ih h with h | h <;> tauto

theorem Table.rises_set {t : Table α} (h : Table.rises t) (k : Nat) (v : α) : Table.rises (Table.set t k v) := by
  unfold Table.rises at *
  induction t with
  | nil => simp [Table.set]
  | cons a r ih =>
    obtain ⟨i, w⟩ := a
    rw [List.pairwise_cons] at h
    simp only [Table.set]
    split
    · next hk =>
      refine List.pairwise_cons.2 ⟨fun b hb => ?_, List.pairwise_cons.2 h⟩
      rcases List.mem_cons.1 hb with rfl | hb
      · exact hk
      · exact Nat.lt_trans hk (h.1 b hb)
    · split
      · next hk => subst hk; exact List.pairwise_cons.2 h
      · next h1 h2 =>
        refine List.pairwise_cons.2 ⟨fun b hb => ?_, ih h.2⟩
        rcases Table.mem_set hb with rfl | hb
        · show i < k; omega
        · exact h.1 b hb

theorem Table.rises_filter {t : Table α} (h : Table.rises t) (p : Nat × α → Bool) : Table.rises (t.filter p) :=
  List.Pairwise.filter p h

theorem Table.rises_mapVals {t : Table α} (h : Table.rises t) (f : Nat → α → α) : Table.rises (Table.mapVals f t) :=
  List.pairwise_map.2 h

theorem Table.wf_iff [DecidableEq α] (d : α) (t : Table α) : Table.wf d t = true ↔ Table.rises t ∧ ∀ e ∈ t, e.2 ≠ d := by
  simp [Table.wf, Table.rises]

@[simp] theorem Table.wf_nil [DecidableEq α] (d : α) : Table.wf d [] = true := by simp [Table.wf]

theorem Table.wf_filter [DecidableEq α] {d : α} {t : Table α} (h : Table.wf d t = true) (p : Nat × α → Bool) :
    Table.wf d (t.filter p) = true := by
  rw [Table.wf_iff] at *
  exact ⟨Table.rises_filter h.1 p, fun e he => h.2 e (List.mem_filter.1 he).1⟩

/-- Putting a value keeps the canonical form. -/
theorem Table.wf_put [DecidableEq α] {d : α} {t : Table α} (h : Table.wf d t = true) (k : Nat) (v : α) :
    Table.wf d (Table.put d t k v) = true := by
  unfold Table.put
  split
  · exact Table.wf_filter h _
  · next hv =>
    rw [Table.wf_iff] at *
    refine ⟨Table.rises_set h.1 k v, fun e he => ?_⟩
    rcases Table.mem_set he with rfl | he
    · exact hv
    · exact h.2 e he

/-- Changing every value and dropping the defaults keeps the canonical form. -/
theorem Table.wf_mapVals_filter [DecidableEq α] {d : α} {t : Table α} (h : Table.wf d t = true) (f : Nat → α → α) :
    Table.wf d ((Table.mapVals f t).filter fun e => decide (e.2 ≠ d)) = true := by
  rw [Table.wf_iff] at *
  exact ⟨Table.rises_filter (Table.rises_mapVals h.1 f) _, fun e he => by simpa using (List.mem_filter.1 he).2⟩

/-! ## Memories -/

@[simp] theorem Memory.wf_nil : Memory.wf [] = true := by simp [Memory.wf]

theorem Memory.wf_put {m : List Host.Cell} (h : Memory.wf m = true) (k : Nat) (v : Byte) :
    Memory.wf (Table.put 0 m k v) = true := Table.wf_put h k v

theorem Memory.wf_filter {m : List Host.Cell} (h : Memory.wf m = true) (p : Host.Cell → Bool) : Memory.wf (m.filter p) = true :=
  Table.wf_filter h p

/-- Putting many bytes keeps the canonical form. -/
theorem Memory.wf_foldl {β : Type} {m : List Host.Cell} (h : Memory.wf m = true) (l : List β) (k : β → Nat) (v : β → Byte) :
    Memory.wf (l.foldl (fun m e => Table.put 0 m (k e) (v e)) m) = true := by
  induction l generalizing m with
  | nil => exact h
  | cons a r ih => exact ih (Memory.wf_put h _ _)

/-- Writing bytes keeps the canonical form. -/
theorem Memory.wf_putBytes {m : List Host.Cell} (h : Memory.wf m = true) (k : Nat) (bs : List Byte) :
    Memory.wf (putBytes m k bs) = true := by
  induction bs generalizing m k with
  | nil => exact h
  | cons b r ih => exact ih (Memory.wf_put h _ _) _

/-- A byte read after bytes are written: the byte written there, else what was there before. -/
theorem getD_putBytes (m : List Host.Cell) (k a : Nat) (bs : List Byte) :
    Table.getD 0 (putBytes m k bs) a = if k ≤ a ∧ a < k + bs.length then bs.getD (a - k) 0 else Table.getD 0 m a := by
  induction bs generalizing m k with
  | nil => simp only [putBytes, List.length_nil]; rw [if_neg (by omega)]
  | cons b r ih =>
    simp only [putBytes, ih, Table.getD_put, List.length_cons]
    by_cases h1 : a = k
    · subst h1
      rw [if_neg (by omega), if_pos rfl, if_pos (by omega)]
      simp
    · by_cases h2 : k + 1 ≤ a ∧ a < k + 1 + r.length
      · rw [if_pos h2, if_pos (by omega)]
        obtain ⟨n, rfl⟩ : ∃ n, a = k + 1 + n := ⟨a - k - 1, by omega⟩
        simp [show k + 1 + n - k = n + 1 by omega]
      · rw [if_neg h2, if_neg h1, if_neg (by omega)]

end Sys2Proof.Machine
end

