-- ==== Sys2Proof/Laws/Keep.lean ====
section
/-! SUPPORT. What every operation keeps, said once: the invariant of Safety.lean and the queue of commands. -/

namespace Sys2Proof.Machine

/-! ## The relation that every operation keeps -/

/-- The parts of the state that the invariant is about, and the queue. -/
structure GoodCore (q pending : List Instr) (regs : Table Word) (mem scratch hostMem : List Host.Cell)
    (cache : Table (List Way)) (ctxs : Table Ctx) (dies : Table Die)
    (pstate : Nat) (psTarget : Option Nat) : Prop where
  queue : pending = q
  regs : Registers.wf regs = true
  mem : Memory.wf mem = true
  scratch : Memory.wf scratch = true
  hostMem : Memory.wf hostMem = true
  cache : Cache.wf cache
  ctxs : Table.wf Ctx.init ctxs = true
  dies : Table.wf Die.init dies = true
  pstate : pstate ≤ 3
  psTarget : ∀ t, psTarget = some t → t ≤ 3

/-- A state with the invariant whose queue of commands is `q`. -/
def State.Good (q : List Instr) (s : State) : Prop :=
  GoodCore q s.pending s.regs s.mem s.scratch s.hostMem s.cache s.ctxs s.dies s.pstate s.psTarget

/-- What a meaning answers is such a state, where it is a state. -/
def Out.Good (q : List Instr) (o : Out) : Prop :=
  match o with
  | .next t => t.Good q
  | .fault _ => True
  | .refused _ => True

theorem State.good_iff (q : List Instr) (s : State) : s.Good q ↔ s.Inv ∧ s.pending = q :=
  ⟨fun h => ⟨⟨h.mem, h.scratch, h.hostMem, h.cache, h.regs, h.ctxs, h.dies, h.pstate, h.psTarget⟩, h.queue⟩,
   fun h => ⟨h.2, h.1.regs, h.1.mem, h.1.scratch, h.1.hostMem, h.1.cache, h.1.ctxs, h.1.dies, h.1.pstate, h.1.psTarget⟩⟩

variable {q : List Instr} {s : State}

@[simp] theorem Out.good_next : Out.Good q (.next s) ↔ s.Good q := Iff.rfl

@[simp] theorem Out.good_refused (r : Refusal) : Out.Good q (.refused r) := trivial

/-- A record update is good when its parts are. -/
@[simp] theorem State.good_mk (pending_ : List Instr) (tb_ : BitVec 64) (cycle_ : Cycle) (late_ : List Instr) (regs_ : Table Word) (pwrEn_ : Bool) (pwrgd_ : Bool) (perstA_ : Bool) (perstB_ : Bool) (linkA_ : Bool) (linkB_ : Bool) (hostLanesA_ : Option HostLanes) (hostLanesB_ : Option HostLanes) (rrs_ : List (Bool × Bool)) (ppsPulses_ : Nat) (tapUnlocked_ : Bool) (i3cA_ : Option Nat) (i3cB_ : Option Nat) (thermtrip_ : Bool) (below_ : Table Nat) (above_ : Table Nat) (entered_ : List Nat) (bufLimited_ : Bool) (halted_ : Bool) (haltSpans_ : List (Nat × Nat)) (haltSince_ : Option Nat) (keepAlive_ : Bool) (selfRefresh_ : Bool) (shutdown_ : Bool) (divPend_ : Option DivChange) (psTarget_ : Option Nat) (pstate_ : Nat) (takeoverActive_ : Bool) (faultWins_ : List Elem) (flashA_ : Flash) (flashB_ : Flash) (warmActive_ : Bool) (roleB_ : Bool) (ptpLocked_ : Bool) (assetWritten_ : Bool) (mgmtCmds_ : List MgmtCmd) (pfHeldA_ : List Completion) (pfHeldB_ : List Completion) (pfMailA_ : List Completion) (pfMailB_ : List Completion) (pfAckA_ : BitVec 32) (pfAckB_ : BitVec 32) (pfPhaseA_ : Bool) (pfPhaseB_ : Bool) (dies_ : Table Die) (rafters_ : Table Rafter) (fusedSpares_ : Table (List Nat)) (routers_ : Table (List PurlinPacket)) (turns_ : Table Nat) (strandFaults_ : List Nat) (unsent_ : List Unsent) (ceCount_ : Table Nat) (replayCount_ : Table Nat) (flitCount_ : Table Nat) (memTemp_ : Table Nat) (refreshes_ : Table Nat) (refreshAt_ : Table Nat) (periodAt_ : Table Nat) (bands_ : Table (BitVec 32)) (mem_ : List Host.Cell) (poison_ : List Nat) (cache_ : Table (List Way)) (rereads_ : List Reread) (upsets_ : Table Upset) (scratch_ : List Host.Cell) (scratchPoison_ : List Nat) (hostMem_ : List Host.Cell) (images_ : List HostImage) (ligger_ : Table LigJob) (ctxs_ : Table Ctx) (groups_ : Table Group) (routes_ : Table Route) (prefixes_ : List PrefixEntry) (links_ : Table Link) (ports_ : Table Port) (sites_ : Table Site) (energyRem_ : Table Nat) (tileCycles_ : Table Nat) (wire_ : List WireFrame) (msix_ : List Msix) :
    State.Good q (State.mk pending_ tb_ cycle_ late_ regs_ pwrEn_ pwrgd_ perstA_ perstB_ linkA_ linkB_ hostLanesA_ hostLanesB_ rrs_ ppsPulses_ tapUnlocked_ i3cA_ i3cB_ thermtrip_ below_ above_ entered_ bufLimited_ halted_ haltSpans_ haltSince_ keepAlive_ selfRefresh_ shutdown_ divPend_ psTarget_ pstate_ takeoverActive_ faultWins_ flashA_ flashB_ warmActive_ roleB_ ptpLocked_ assetWritten_ mgmtCmds_ pfHeldA_ pfHeldB_ pfMailA_ pfMailB_ pfAckA_ pfAckB_ pfPhaseA_ pfPhaseB_ dies_ rafters_ fusedSpares_ routers_ turns_ strandFaults_ unsent_ ceCount_ replayCount_ flitCount_ memTemp_ refreshes_ refreshAt_ periodAt_ bands_ mem_ poison_ cache_ rereads_ upsets_ scratch_ scratchPoison_ hostMem_ images_ ligger_ ctxs_ groups_ routes_ prefixes_ links_ ports_ sites_ energyRem_ tileCycles_ wire_ msix_) ↔
      GoodCore q pending_ regs_ mem_ scratch_ hostMem_ cache_ ctxs_ dies_ pstate_ psTarget_ := Iff.rfl

@[simp] theorem State.Good.core (h : s.Good q) :
    GoodCore q s.pending s.regs s.mem s.scratch s.hostMem s.cache s.ctxs s.dies s.pstate s.psTarget := h

theorem State.Good.same {t : State} (h : s.Good q) (hp : t.pending = s.pending) (hr : t.regs = s.regs) (hm : t.mem = s.mem)
    (hs : t.scratch = s.scratch) (hh : t.hostMem = s.hostMem) (hk : t.cache = s.cache) (hc : t.ctxs = s.ctxs) (hd : t.dies = s.dies)
    (hps : t.pstate = s.pstate) (hpt : t.psTarget = s.psTarget) : t.Good q := by
  unfold State.Good
  rw [hp, hr, hm, hs, hh, hk, hc, hd, hps, hpt]
  exact h

/-- A state that is named and used. -/
theorem State.good_let {e : State} {f : State → State} (he : e.Good q) (hf : ∀ x, x.Good q → (f x).Good q) :
    State.Good q (have x := e; f x) := hf e he

/-- Anything else that is named and used. -/
theorem State.good_name {α : Type} {e : α} {f : α → State} (hf : ∀ x, (f x).Good q) : State.Good q (have x := e; f x) := hf e

theorem Out.good_let {e : State} {f : State → Out} (he : e.Good q) (hf : ∀ x, x.Good q → Out.Good q (f x)) :
    Out.Good q (have x := e; f x) := hf e he

theorem Out.good_name {α : Type} {e : α} {f : α → Out} (hf : ∀ x, Out.Good q (f x)) : Out.Good q (have x := e; f x) := hf e

/-! ## Repetition -/

@[simp] theorem State.good_forAll {α : Type} (l : List α) (f : α → State → State) (hf : ∀ a s, s.Good q → (f a s).Good q) (h : s.Good q) :
    (forAll l f s).Good q := by
  unfold forAll
  induction l generalizing s with
  | nil => exact h
  | cons a r ih => exact ih (hf a s h)

theorem State.good_foldl {α β : Type} (l : List α) (f : State × β → α → State × β)
    (hf : ∀ a x, a.1.Good q → (f a x).1.Good q) {a : State × β} (h : a.1.Good q) : (l.foldl f a).1.Good q := by
  induction l generalizing a with
  | nil => exact h
  | cons x r ih => exact ih (hf a x h)

@[simp] theorem State.good_iter (n : Nat) (f : Nat → State → State) (hf : ∀ a s, s.Good q → (f a s).Good q) (h : s.Good q) :
    (iter f n s).Good q := by
  induction n with
  | zero => exact h
  | succ n ih => exact hf n _ ih

@[simp] theorem State.good_ite (c : Prop) [Decidable c] (a b : State) (ha : c → a.Good q) (hb : ¬ c → b.Good q) :
    (if c then a else b).Good q := by
  split
  · next h => exact ha h
  · next h => exact hb h

/-! ## The primitive updates -/

theorem Registers.wf_iff (t : Table Word) : Registers.wf t = true ↔ Table.rises t ∧ ∀ e ∈ t, e.2 ≠ regReset e.1 := by
  simp [Registers.wf, Table.rises]

theorem Registers.wf_filter {t : Table Word} (h : Registers.wf t = true) (p : Nat × Word → Bool) : Registers.wf (t.filter p) = true := by
  rw [Registers.wf_iff] at *
  exact ⟨Table.rises_filter h.1 p, fun e he => h.2 e (List.mem_filter.1 he).1⟩

theorem Registers.wf_put {t : Table Word} (h : Registers.wf t = true) (a : Nat) (w : Word) :
    Registers.wf (Table.put (regReset a) t a w) = true := by
  unfold Table.put
  split
  · exact Registers.wf_filter h _
  · next hv =>
    rw [Registers.wf_iff] at *
    refine ⟨Table.rises_set h.1 a w, fun e he => ?_⟩
    rcases Table.mem_set he with rfl | he
    · exact hv
    · exact h.2 e he

/-! ## The shared cache -/

theorem Cache.wf_nil : Cache.wf [] := ⟨by simp, by simp⟩

theorem setOk_nil (k : Nat) : setOk k [] := ⟨by simp, by simp, by simp⟩

theorem Cache.wf_set {t : Table (List Way)} (h : Cache.wf t) (k : Nat) : setOk k (Table.getD [] t k) := by
  cases hg : Table.get? t k with
  | none => simpa [Table.getD, hg] using setOk_nil k
  | some v => simpa [Table.getD, hg] using h.2 _ (Table.mem_of_get? hg)

theorem Cache.wf_put {t : Table (List Way)} (h : Cache.wf t) {k : Nat} {ws : List Way} (hs : setOk k ws) : Cache.wf (Table.put [] t k ws) := by
  refine ⟨Table.wf_put h.1 k ws, fun e he => ?_⟩
  unfold Table.put at he
  split at he
  · exact h.2 _ (List.mem_filter.1 he).1
  · rcases Table.mem_set he with rfl | he
    · exact hs
    · exact h.2 _ he

theorem Cache.wf_filter {t : Table (List Way)} (h : Cache.wf t) (p : Nat × List Way → Bool) : Cache.wf (t.filter p) :=
  ⟨Table.wf_filter h.1 p, fun e he => h.2 e (List.mem_filter.1 he).1⟩

theorem sectorBytes_length (l : List Byte) : (sectorBytes l).length = 64 := by simp [sectorBytes]

end Sys2Proof.Machine
end

