-- ==== Sys2Proof/Laws/KeepOps.lean ====
section
/-! SUPPORT. What operations and meanings keep: the named operations: registers, contexts, memory, interrupts, completions, packets, frames sent. -/

namespace Sys2Proof.Machine

/-! ## Machine/Ops.lean -/

@[simp] theorem Out.stateOr_good {pend : List Instr} (s : State) (o : Out) (hg : s.Good pend) (ho : o.Good pend) :
    (Out.stateOr s o).Good pend := by
  unfold Out.stateOr
  split
  · exact ho
  · exact hg
  · exact hg

@[simp] theorem State.setReg_good {pend : List Instr} (s : State) (a : Nat) (w : Word) (hg : s.Good pend) : (State.setReg s a w).Good pend := by
  have h := hg
  exact ⟨h.queue, Registers.wf_put h.regs _ _, h.mem, h.scratch, h.hostMem, h.cache, h.ctxs, h.dies, h.pstate, h.psTarget⟩

@[simp] theorem State.wf_good {pend : List Instr} (s : State) (a hi lo v : Nat) (hg : s.Good pend) : (State.wf s a hi lo v).Good pend := by
  unfold State.wf
  simp [hg]

@[simp] theorem State.noteCount_good {pend : List Instr} (s : State) (a lo n : Nat) (hg : s.Good pend) :
    (State.noteCount s a lo n).Good pend := by
  unfold State.noteCount
  repeat' (first | assumption | (extract_lets +onlyGivenNames v; refine (fun (hv : State.Good pend v) => ?_) ?_; (on_goal 2 => subst v); (on_goal 1 => clear_value v)) | (extract_lets +onlyGivenNames v; refine (fun (hv : State.Good pend v.1) => ?_) ?_; (on_goal 2 => subst v); (on_goal 1 => clear_value v)) | (extract_lets +onlyGivenNames v; clear_value v) | (simp (maxDischargeDepth := 99) +contextual [*]; done) | (refine State.good_forAll _ _ (fun _ _ _ => ?_) ?_) | (refine State.good_iter _ _ (fun _ _ _ => ?_) ?_) | split)

@[simp] theorem State.sat_good {pend : List Instr} (s : State) (a hi lo n : Nat) (hg : s.Good pend) : (State.sat s a hi lo n).Good pend := by
  unfold State.sat
  simp [hg]

@[simp] theorem State.wrap_good {pend : List Instr} (s : State) (a hi lo n : Nat) (hg : s.Good pend) : (State.wrap s a hi lo n).Good pend := by
  unfold State.wrap
  simp [hg]

@[simp] theorem State.maxF_good {pend : List Instr} (s : State) (a hi lo v : Nat) (hg : s.Good pend) : (State.maxF s a hi lo v).Good pend := by
  unfold State.maxF
  simp [hg]

@[simp] theorem State.clearReg_good {pend : List Instr} (s : State) (a : Nat) (hg : s.Good pend) :
    (State.clearReg s a).Good pend := by
  unfold State.clearReg
  repeat' (first | assumption | (extract_lets +onlyGivenNames v; refine (fun (hv : State.Good pend v) => ?_) ?_; (on_goal 2 => subst v); (on_goal 1 => clear_value v)) | (extract_lets +onlyGivenNames v; refine (fun (hv : State.Good pend v.1) => ?_) ?_; (on_goal 2 => subst v); (on_goal 1 => clear_value v)) | (extract_lets +onlyGivenNames v; clear_value v) | (simp (maxDischargeDepth := 99) +contextual [*]; done) | (refine State.good_forAll _ _ (fun _ _ _ => ?_) ?_) | (refine State.good_iter _ _ (fun _ _ _ => ?_) ?_) | split)

@[simp] theorem State.clearField_good {pend : List Instr} (s : State) (a hi lo : Nat) (hg : s.Good pend) :
    (State.clearField s a hi lo).Good pend := by
  unfold State.clearField
  repeat' (first | assumption | (extract_lets +onlyGivenNames v; refine (fun (hv : State.Good pend v) => ?_) ?_; (on_goal 2 => subst v); (on_goal 1 => clear_value v)) | (extract_lets +onlyGivenNames v; refine (fun (hv : State.Good pend v.1) => ?_) ?_; (on_goal 2 => subst v); (on_goal 1 => clear_value v)) | (extract_lets +onlyGivenNames v; clear_value v) | (simp (maxDischargeDepth := 99) +contextual [*]; done) | (refine State.good_forAll _ _ (fun _ _ _ => ?_) ?_) | (refine State.good_iter _ _ (fun _ _ _ => ?_) ?_) | split)

@[simp] theorem State.noteRaised_good {pend : List Instr} (s : State) (a : Nat) (w : Word) (hg : s.Good pend) :
    (State.noteRaised s a w).Good pend := by
  unfold State.noteRaised
  repeat' (first | assumption | (extract_lets +onlyGivenNames v; refine (fun (hv : State.Good pend v) => ?_) ?_; (on_goal 2 => subst v); (on_goal 1 => clear_value v)) | (extract_lets +onlyGivenNames v; refine (fun (hv : State.Good pend v.1) => ?_) ?_; (on_goal 2 => subst v); (on_goal 1 => clear_value v)) | (extract_lets +onlyGivenNames v; clear_value v) | (simp (maxDischargeDepth := 99) +contextual [*]; done) | (refine State.good_forAll _ _ (fun _ _ _ => ?_) ?_) | (refine State.good_iter _ _ (fun _ _ _ => ?_) ?_) | split)

@[simp] theorem State.cw_good {pend : List Instr} (s : State) (c off hi lo v : Nat) (hg : s.Good pend) : (State.cw s c off hi lo v).Good pend := by
  unfold State.cw
  simp [hg]

@[simp] theorem State.cSat_good {pend : List Instr} (s : State) (c off hi lo n : Nat)
    (hg : s.Good pend) : (State.cSat s c off hi lo n).Good pend := by
  unfold State.cSat
  simp [hg]

@[simp] theorem State.cWrap_good {pend : List Instr} (s : State) (c off hi lo n : Nat)
    (hg : s.Good pend) : (State.cWrap s c off hi lo n).Good pend := by
  unfold State.cWrap
  simp [hg]

@[simp] theorem State.resetRegs_good {pend : List Instr} (s : State) (p : Nat → Bool) (hg : s.Good pend) : (State.resetRegs s p).Good pend := by
  have h := hg
  exact ⟨h.queue, Registers.wf_filter h.regs _, h.mem, h.scratch, h.hostMem, h.cache, h.ctxs, h.dies, h.pstate, h.psTarget⟩

@[simp] theorem State.post_good {pend : List Instr} (s : State) (i : Instr) (hg : s.Good pend) :
    (State.post s i).Good pend := by
  unfold State.post
  repeat' (first | assumption | (extract_lets +onlyGivenNames v; refine (fun (hv : State.Good pend v) => ?_) ?_; (on_goal 2 => subst v); (on_goal 1 => clear_value v)) | (extract_lets +onlyGivenNames v; refine (fun (hv : State.Good pend v.1) => ?_) ?_; (on_goal 2 => subst v); (on_goal 1 => clear_value v)) | (extract_lets +onlyGivenNames v; clear_value v) | (simp (maxDischargeDepth := 99) +contextual [*]; done) | (refine State.good_forAll _ _ (fun _ _ _ => ?_) ?_) | (refine State.good_iter _ _ (fun _ _ _ => ?_) ?_) | split)

@[simp] theorem State.noteIssue_good {pend : List Instr} (s : State) (hg : s.Good pend) :
    (State.noteIssue s).Good pend := by
  unfold State.noteIssue
  repeat' (first | assumption | (extract_lets +onlyGivenNames v; refine (fun (hv : State.Good pend v) => ?_) ?_; (on_goal 2 => subst v); (on_goal 1 => clear_value v)) | (extract_lets +onlyGivenNames v; refine (fun (hv : State.Good pend v.1) => ?_) ?_; (on_goal 2 => subst v); (on_goal 1 => clear_value v)) | (extract_lets +onlyGivenNames v; clear_value v) | (simp (maxDischargeDepth := 99) +contextual [*]; done) | (refine State.good_forAll _ _ (fun _ _ _ => ?_) ?_) | (refine State.good_iter _ _ (fun _ _ _ => ?_) ?_) | split)

@[simp] theorem State.noteOrder_good {pend : List Instr} (s : State) (k : OrderKey) (n : Nat) (hg : s.Good pend) :
    (State.noteOrder s k n).Good pend := by
  unfold State.noteOrder
  repeat' (first | assumption | (extract_lets +onlyGivenNames v; refine (fun (hv : State.Good pend v) => ?_) ?_; (on_goal 2 => subst v); (on_goal 1 => clear_value v)) | (extract_lets +onlyGivenNames v; refine (fun (hv : State.Good pend v.1) => ?_) ?_; (on_goal 2 => subst v); (on_goal 1 => clear_value v)) | (extract_lets +onlyGivenNames v; clear_value v) | (simp (maxDischargeDepth := 99) +contextual [*]; done) | (refine State.good_forAll _ _ (fun _ _ _ => ?_) ?_) | (refine State.good_iter _ _ (fun _ _ _ => ?_) ?_) | split)

@[simp] theorem State.setCtx_good {pend : List Instr} (s : State) (c : Nat) (x : Ctx) (hg : s.Good pend) : (State.setCtx s c x).Good pend := by
  have h := hg
  exact ⟨h.queue, h.regs, h.mem, h.scratch, h.hostMem, h.cache, Table.wf_put h.ctxs _ _, h.dies, h.pstate, h.psTarget⟩

@[simp] theorem State.modCtx_good {pend : List Instr} (s : State) (c : Nat) (f : Ctx → Ctx) (hg : s.Good pend) : (State.modCtx s c f).Good pend := by
  unfold State.modCtx
  simp [hg]

@[simp] theorem State.mapCtxs_good {pend : List Instr} (s : State) (f : Ctx → Ctx) (hg : s.Good pend) : (State.mapCtxs s f).Good pend := by
  have h := hg
  exact ⟨h.queue, h.regs, h.mem, h.scratch, h.hostMem, h.cache, Table.wf_mapVals_filter h.ctxs _, h.dies, h.pstate, h.psTarget⟩

@[simp] theorem State.modTile_good {pend : List Instr} (s : State) (c t : Nat) (f : Tile → Tile)
    (hg : s.Good pend) : (State.modTile s c t f).Good pend := by
  unfold State.modTile
  simp [hg]

@[simp] theorem State.modRun_good {pend : List Instr} (s : State) (c : Nat) (f : Running → Running)
    (hg : s.Good pend) : (State.modRun s c f).Good pend := by
  unfold State.modRun
  simp [hg]

@[simp] theorem State.modXfer_good {pend : List Instr} (s : State) (c id : Nat) (f : Xfer → Xfer)
    (hg : s.Good pend) : (State.modXfer s c id f).Good pend := by
  unfold State.modXfer
  split <;> simp [hg]

@[simp] theorem State.dropXfer_good {pend : List Instr} (s : State) (c id : Nat) (hg : s.Good pend) : (State.dropXfer s c id).Good pend := by
  unfold State.dropXfer
  simp [hg]

@[simp] theorem State.newXfer_good {pend : List Instr} (s : State) (c : Nat) (x : Xfer) (hg : s.Good pend) : (State.newXfer s c x).Good pend := by
  unfold State.newXfer
  simp [hg]

@[simp] theorem State.modQueue_good {pend : List Instr} (s : State) (c l : Nat) (f : Queue → Queue)
    (hg : s.Good pend) : (State.modQueue s c l f).Good pend := by
  unfold State.modQueue
  simp [hg]

@[simp] theorem State.modDie_good {pend : List Instr} (s : State) (d : Nat) (f : Die → Die) (hg : s.Good pend) : (State.modDie s d f).Good pend := by
  have h := hg
  exact ⟨h.queue, h.regs, h.mem, h.scratch, h.hostMem, h.cache, h.ctxs, Table.wf_put h.dies _ _, h.pstate, h.psTarget⟩

@[simp] theorem State.modRafter_good {pend : List Instr} (s : State) (r : Nat) (f : Rafter → Rafter)
    (hg : s.Good pend) : (State.modRafter s r f).Good pend := by
  unfold State.modRafter
  simp [hg]

@[simp] theorem State.modPort_good {pend : List Instr} (s : State) (p : Nat) (f : Port → Port)
    (hg : s.Good pend) : (State.modPort s p f).Good pend := by
  unfold State.modPort
  simp [hg]

@[simp] theorem State.modLink_good {pend : List Instr} (s : State) (k : Nat) (f : Link → Link)
    (hg : s.Good pend) : (State.modLink s k f).Good pend := by
  unfold State.modLink
  simp [hg]

@[simp] theorem State.modLc_good {pend : List Instr} (s : State) (k n : Nat) (f : LinkClass → LinkClass)
    (hg : s.Good pend) : (State.modLc s k n f).Good pend := by
  unfold State.modLc
  simp [hg]

@[simp] theorem State.modSite_good {pend : List Instr} (s : State) (i : Nat) (f : Site → Site)
    (hg : s.Good pend) : (State.modSite s i f).Good pend := by
  unfold State.modSite
  simp [hg]

@[simp] theorem State.newPeriod_good {pend : List Instr} (s : State) (w : PeriodOf) (hg : s.Good pend) :
    (State.newPeriod s w).Good pend := by
  unfold State.newPeriod
  repeat' (first | assumption | (extract_lets +onlyGivenNames v; refine (fun (hv : State.Good pend v) => ?_) ?_; (on_goal 2 => subst v); (on_goal 1 => clear_value v)) | (extract_lets +onlyGivenNames v; refine (fun (hv : State.Good pend v.1) => ?_) ?_; (on_goal 2 => subst v); (on_goal 1 => clear_value v)) | (extract_lets +onlyGivenNames v; clear_value v) | (simp (maxDischargeDepth := 99) +contextual [*]; done) | (refine State.good_forAll _ _ (fun _ _ _ => ?_) ?_) | (refine State.good_iter _ _ (fun _ _ _ => ?_) ?_) | split)

@[simp] theorem State.sendMsix_good {pend : List Instr} (s : State) (m : Msix) (hg : s.Good pend) : (State.sendMsix s m).Good pend := by
  unfold State.sendMsix
  simp [hg]

@[simp] theorem State.setPgIrq_good {pend : List Instr} (s : State) (die block : Nat) (raw en : Word)
    (hg : s.Good pend) : (State.setPgIrq s die block raw en).Good pend := by
  unfold State.setPgIrq
  repeat' split
  all_goals simp (maxDischargeDepth := 99) [hg]

@[simp] theorem State.raisePg_good {pend : List Instr} (s : State) (die block b : Nat)
    (hg : s.Good pend) : (State.raisePg s die block b).Good pend := by
  unfold State.raisePg
  simp [hg]

@[simp] theorem State.raiseRdg_good {pend : List Instr} (s : State) (b : Nat) (hg : s.Good pend) : (State.raiseRdg s b).Good pend := by
  unfold State.raiseRdg
  simp [hg]

@[simp] theorem State.setCtxIrq_good {pend : List Instr} (s : State) (c : Nat) (raw en : Word)
    (hg : s.Good pend) : (State.setCtxIrq s c raw en).Good pend := by
  unfold State.setCtxIrq
  simp (maxDischargeDepth := 99) +contextual [hg]

@[simp] theorem State.raiseCtx_good {pend : List Instr} (s : State) (c b : Nat) (hg : s.Good pend) : (State.raiseCtx s c b).Good pend := by
  unfold State.raiseCtx
  simp [hg]

/-! ## Machine/Mem.lean -/

@[simp] theorem State.stackPut_good {pend : List Instr} (s : State) (stack sec : Nat) (data : List Byte) (poison : Bool)
    (hg : s.Good pend) : (State.stackPut s stack sec data poison).Good pend := by
  have h := hg
  exact ⟨h.queue, h.regs, Memory.wf_putBytes h.mem _ _, h.scratch, h.hostMem, h.cache, h.ctxs, h.dies, h.pstate, h.psTarget⟩

@[simp] theorem State.putSector_good {pend : List Instr} (s : State) (stack sec : Nat) (data : List Byte) (poison : Bool)
    (hg : s.Good pend) : (State.putSector s stack sec data poison).Good pend := by
  have h := hg
  unfold State.putSector
  split
  · exact State.stackPut_good _ _ _ _ _ hg
  · next w _ =>
    have hk := Cache.wf_set h.cache (cacheKey stack (sec / 4))
    refine ⟨h.queue, h.regs, h.mem, h.scratch, h.hostMem, Cache.wf_put h.cache ?_, h.ctxs, h.dies, h.pstate, h.psTarget⟩
    refine ⟨by simpa using hk.1, ?_, ?_⟩
    · have e : ∀ l : List Way, (l.map fun v =>
          if v.line = w.line then { v with dirty := (sec % 4, sectorBytes data, poison) :: v.dirty.filter fun d => d.1 ≠ sec % 4 } else v).map
          (·.line) = l.map (·.line) := by
        intro l
        rw [List.map_map]
        refine List.map_congr_left fun v _ => ?_
        simp only [Function.comp]
        split <;> rfl
      rw [e]
      exact hk.2.1
    · intro v hv
      obtain ⟨x, hx, rfl⟩ := List.mem_map.1 hv
      have hx' := hk.2.2 x hx
      split
      · refine ⟨hx'.1, ?_, ?_⟩
        · simp only [List.map_cons, List.nodup_cons]
          refine ⟨by simp, ?_⟩
          exact (hx'.2.1.sublist (List.Sublist.map _ List.filter_sublist))
        · intro d hd
          rcases List.mem_cons.1 hd with rfl | hd
          · exact ⟨Nat.mod_lt _ (by decide), sectorBytes_length _⟩
          · exact hx'.2.2 d (List.mem_filter.1 hd).1
      · exact hx'

@[simp] theorem State.writeBack_good {pend : List Instr} (s : State) (stack : Nat) (w : Way)
    (hg : s.Good pend) : (State.writeBack s stack w).Good pend := by
  unfold State.writeBack
  simp +contextual [hg]

@[simp] theorem State.cacheTouch_good {pend : List Instr} (s : State) (stack line : Nat) (allocate : Bool)
    (hg : s.Good pend) : (State.cacheTouch s stack line allocate).1.Good pend := by
  have h := hg
  unfold State.cacheTouch
  extract_lets +onlyGivenNames k ws d
  have hk : setOk k ws := Cache.wf_set h.cache k
  split
  · next w hw =>
    have hm := List.mem_of_find?_eq_some hw
    have hl : w.line = line := by simpa using List.find?_some hw
    have hs : setOk k (w :: ws.filter fun v => v.line ≠ line) := by
     refine ⟨?_, ?_, ?_⟩
     · have : (ws.filter fun v => v.line ≠ line).length < ws.length :=
         List.length_filter_lt_length_iff_exists.2 ⟨w, hm, by simp [hl]⟩
       have := hk.1
       simp only [List.length_cons]
       omega
     · simp only [List.map_cons, List.nodup_cons]
       exact ⟨by simp [hl], hk.2.1.sublist (List.Sublist.map _ List.filter_sublist)⟩
     · intro v hv
       rcases List.mem_cons.1 hv with rfl | hv
       · exact hk.2.2 _ hm
       · exact hk.2.2 _ (List.mem_filter.1 hv).1
    exact State.wrap_good _ _ _ _ _ ⟨h.queue, h.regs, h.mem, h.scratch, h.hostMem, Cache.wf_put h.cache hs, h.ctxs, h.dies, h.pstate,
      h.psTarget⟩
  · next hn =>
    have h1 : (s.wrap (bar0 d 0 Off.THC_CACHE_MISS) 63 0 1).Good pend := State.wrap_good _ _ _ _ _ hg
    split
    · exact h1
    · have h2 := State.good_forAll (ws.drop 15) (fun w t => t.writeBack stack w) (fun w t ht => State.writeBack_good _ _ _ ht) h1
      have hs : setOk k (⟨line, []⟩ :: ws.take 15) := by
        refine ⟨by simp only [List.length_cons, List.length_take]; omega, ?_, ?_⟩
        · simp only [List.map_cons, List.nodup_cons]
          refine ⟨fun hm => ?_, hk.2.1.sublist (List.Sublist.map _ (List.take_sublist _ _))⟩
          obtain ⟨v, hv, hl⟩ := List.mem_map.1 hm
          have := List.find?_eq_none.1 hn v (List.mem_of_mem_take hv)
          simp [hl] at this
        · intro v hv
          rcases List.mem_cons.1 hv with rfl | hv
          · exact ⟨by simp only [k, cacheKey]; omega, by simp, by simp⟩
          · exact hk.2.2 v (List.mem_of_mem_take hv)
      exact ⟨h2.queue, h2.regs, h2.mem, h2.scratch, h2.hostMem, Cache.wf_put h2.cache hs, h2.ctxs, h2.dies, h2.pstate, h2.psTarget⟩

@[simp] theorem State.corrected_good {pend : List Instr} (s : State) (t n : Nat) (hg : s.Good pend) : (State.corrected s t n).Good pend := by
  unfold State.corrected
  simp (maxDischargeDepth := 99) +contextual [hg]

@[simp] theorem State.reread_good {pend : List Instr} (s : State) (t sec : Nat) (hg : s.Good pend) :
    (State.reread s t sec).Good pend := by
  unfold State.reread
  repeat' (first | assumption | (extract_lets +onlyGivenNames v; refine (fun (hv : State.Good pend v) => ?_) ?_; (on_goal 2 => subst v); (on_goal 1 => clear_value v)) | (extract_lets +onlyGivenNames v; refine (fun (hv : State.Good pend v.1) => ?_) ?_; (on_goal 2 => subst v); (on_goal 1 => clear_value v)) | (extract_lets +onlyGivenNames v; clear_value v) | (simp (maxDischargeDepth := 99) +contextual [*]; done) | (refine State.good_forAll _ _ (fun _ _ _ => ?_) ?_) | (refine State.good_iter _ _ (fun _ _ _ => ?_) ?_) | split)

@[simp] theorem State.meetSector_good {pend : List Instr} (s : State) (t sec : Nat) (hg : s.Good pend) :
    (State.meetSector s t sec).Good pend := by
  unfold State.meetSector
  repeat' (first | assumption | (extract_lets +onlyGivenNames v; refine (fun (hv : State.Good pend v) => ?_) ?_; (on_goal 2 => subst v); (on_goal 1 => clear_value v)) | (extract_lets +onlyGivenNames v; refine (fun (hv : State.Good pend v.1) => ?_) ?_; (on_goal 2 => subst v); (on_goal 1 => clear_value v)) | (extract_lets +onlyGivenNames v; clear_value v) | (simp (maxDischargeDepth := 99) +contextual [*]; done) | (refine State.good_forAll _ _ (fun _ _ _ => ?_) ?_) | (refine State.good_iter _ _ (fun _ _ _ => ?_) ?_) | split)

@[simp] theorem State.slice_good {pend : List Instr} (s : State) (t l n : Nat) (write alloc : Bool) (hg : s.Good pend) :
    (State.slice s t l n write alloc).Good pend := by
  unfold State.slice
  repeat' (first | assumption | (extract_lets +onlyGivenNames v; refine (fun (hv : State.Good pend v) => ?_) ?_; (on_goal 2 => subst v); (on_goal 1 => clear_value v)) | (extract_lets +onlyGivenNames v; refine (fun (hv : State.Good pend v.1) => ?_) ?_; (on_goal 2 => subst v); (on_goal 1 => clear_value v)) | (extract_lets +onlyGivenNames v; clear_value v) | (simp (maxDischargeDepth := 99) +contextual [*]; done) | (refine State.good_forAll _ _ (fun _ _ _ => ?_) ?_) | (refine State.good_iter _ _ (fun _ _ _ => ?_) ?_) | split)

@[simp] theorem State.flushCache_good {pend : List Instr} (s : State) (hg : s.Good pend) : (State.flushCache s).Good pend := by
  have h := State.good_forAll s.cache (fun e t => forAll e.2 (fun w u => u.writeBack (e.1 / 65536) w) t)
    (fun e t ht => State.good_forAll _ _ (fun w u hu => State.writeBack_good _ _ _ hu) ht) hg
  exact ⟨h.queue, h.regs, h.mem, h.scratch, h.hostMem, Cache.wf_nil, h.ctxs, h.dies, h.pstate, h.psTarget⟩

@[simp] theorem State.padWrite_good {pend : List Instr} (s : State) (base off : Nat) (data : List Byte) (poison : Bool)
    (hg : s.Good pend) : (State.padWrite s base off data poison).Good pend := by
  have h := hg
  unfold State.padWrite
  dsimp only
  split
  · exact h
  · exact ⟨h.queue, h.regs, h.mem, Memory.wf_putBytes h.scratch _ _, h.hostMem, h.cache, h.ctxs, h.dies, h.pstate, h.psTarget⟩

@[simp] theorem State.windowErr_good {pend : List Instr} (s : State) (t : Nat) (hg : s.Good pend) : (State.windowErr s t).Good pend := by
  unfold State.windowErr
  simp (maxDischargeDepth := 99) +contextual [hg]

@[simp] theorem State.touch_good {pend : List Instr} (s : State) (a n : Nat) (write alloc : Bool) (hg : s.Good pend) :
    (State.touch s a n write alloc).Good pend := by
  unfold State.touch
  repeat' (first | assumption | (extract_lets +onlyGivenNames v; refine (fun (hv : State.Good pend v) => ?_) ?_; (on_goal 2 => subst v); (on_goal 1 => clear_value v)) | (extract_lets +onlyGivenNames v; refine (fun (hv : State.Good pend v.1) => ?_) ?_; (on_goal 2 => subst v); (on_goal 1 => clear_value v)) | (extract_lets +onlyGivenNames v; clear_value v) | (simp (maxDischargeDepth := 99) +contextual [*]; done) | (refine State.good_forAll _ _ (fun _ _ _ => ?_) ?_) | (refine State.good_iter _ _ (fun _ _ _ => ?_) ?_) | split)

@[simp] theorem State.devTouch_good {pend : List Instr} (s : State) (a n : Nat) (hg : s.Good pend) :
    (State.devTouch s a n).Good pend := by
  unfold State.devTouch
  repeat' (first | assumption | (extract_lets +onlyGivenNames v; refine (fun (hv : State.Good pend v) => ?_) ?_; (on_goal 2 => subst v); (on_goal 1 => clear_value v)) | (extract_lets +onlyGivenNames v; refine (fun (hv : State.Good pend v.1) => ?_) ?_; (on_goal 2 => subst v); (on_goal 1 => clear_value v)) | (extract_lets +onlyGivenNames v; clear_value v) | (simp (maxDischargeDepth := 99) +contextual [*]; done) | (refine State.good_forAll _ _ (fun _ _ _ => ?_) ?_) | (refine State.good_iter _ _ (fun _ _ _ => ?_) ?_) | split)

@[simp] theorem State.dpaPutIn_good {pend : List Instr} (s : State) (a : Nat) (data : List Byte) (poison : Bool)
    (hg : s.Good pend) : (State.dpaPutIn s a data poison).Good pend := by
  unfold State.dpaPutIn
  split <;> simp [hg]

@[simp] theorem dpaPutLoop_good {pend : List Instr} (p : Bool) (n a : Nat) (data : List Byte) (s : State) (h : s.Good pend) :
    (dpaPutLoop p n a data s).Good pend := by
  induction n generalizing a data s with
  | zero => exact h
  | succ n ih =>
    cases data with
    | nil => exact h
    | cons b r => exact ih _ _ _ (State.dpaPutIn_good _ _ _ _ h)

@[simp] theorem State.dpaWrite_good {pend : List Instr} (s : State) (a : Nat) (data : List Byte) (poison : Bool)
    (hg : s.Good pend) : (State.dpaWrite s a data poison).Good pend := by
  unfold State.dpaWrite
  simp [hg]

@[simp] theorem State.devWrite_good {pend : List Instr} (s : State) (a : Nat) (data : List Byte) (poison : Bool) (hg : s.Good pend) :
    (State.devWrite s a data poison).Good pend := by
  refine State.good_forAll _ _ (fun p t ht => ?_) hg
  split
  · exact ht
  · exact State.good_forAll _ _ (fun q u hu => State.dpaPutIn_good _ _ _ _ hu) (State.touch_good _ _ _ _ _ ht)

@[simp] theorem State.walkTouch_good {pend : List Instr} (s : State) (c va : Nat) (hg : s.Good pend) :
    (State.walkTouch s c va).Good pend := by
  unfold State.walkTouch
  split
  · have h1 := fun a => State.devTouch_good (pend := pend) s a 8 hg
    dsimp only
    split
    · exact h1 _
    · split
      · split
        · exact State.devTouch_good _ _ _ (h1 _)
        · exact State.devTouch_good _ _ _ (State.devTouch_good _ _ _ (h1 _))
      · exact h1 _
  · exact hg

@[simp] theorem State.fillTlb_good {pend : List Instr} (s : State) (c va : Nat) (hg : s.Good pend) : (State.fillTlb s c va).Good pend := by
  unfold State.fillTlb
  split <;> simp [hg]

@[simp] theorem State.vaTouch_good {pend : List Instr} (s : State) (c va n : Nat) (hg : s.Good pend) :
    (State.vaTouch s c va n).Good pend := by
  unfold State.vaTouch
  repeat' (first | assumption | (extract_lets +onlyGivenNames v; refine (fun (hv : State.Good pend v) => ?_) ?_; (on_goal 2 => subst v); (on_goal 1 => clear_value v)) | (extract_lets +onlyGivenNames v; refine (fun (hv : State.Good pend v.1) => ?_) ?_; (on_goal 2 => subst v); (on_goal 1 => clear_value v)) | (extract_lets +onlyGivenNames v; clear_value v) | (simp (maxDischargeDepth := 99) +contextual [*]; done) | (refine State.good_forAll _ _ (fun _ _ _ => ?_) ?_) | (refine State.good_iter _ _ (fun _ _ _ => ?_) ?_) | split)

@[simp] theorem State.vaWrite_good {pend : List Instr} (s : State) (c va : Nat) (data : List Byte)
    (hg : s.Good pend) : (State.vaWrite s c va data).Good pend := by
  refine State.good_iter _ _ (fun a t ht => ?_) hg
  dsimp only
  split
  · split
    · exact State.fillTlb_good _ _ _ ht
    · exact State.devWrite_good _ _ _ _ (State.fillTlb_good _ _ _ ht)
  · exact ht

@[simp] theorem State.setNibble_good {pend : List Instr} (s : State) (c table k v : Nat)
    (hg : s.Good pend) : (State.setNibble s c table k v).Good pend := by
  unfold State.setNibble
  simp [hg]

@[simp] theorem State.hostPut_good {pend : List Instr} (s : State) (portB : Bool) (a : Nat) (data : List Byte)
    (hg : s.Good pend) : (State.hostPut s portB a data).Good pend := by
  have h := hg
  exact ⟨h.queue, h.regs, h.mem, h.scratch, Memory.wf_putBytes h.hostMem _ _, h.cache, h.ctxs, h.dies, h.pstate, h.psTarget⟩

/-! ## Machine/Flags.lean -/

@[simp] theorem State.evlogPut_good {pend : List Instr} (s : State) (l : LogOf) (rec : List Nat)
    (hg : s.Good pend) : (State.evlogPut s l rec).Good pend := by
  unfold State.evlogPut
  dsimp only
  repeat' (first | (simp_all (maxDischargeDepth := 99); done) | split)

@[simp] theorem State.setHeld_good {pend : List Instr} (s : State) (r : RingOf) (l : List Completion)
    (hg : s.Good pend) : (State.setHeld s r l).Good pend := by
  unfold State.setHeld
  repeat' split
  all_goals simp [hg]

@[simp] theorem State.setPhase_good {pend : List Instr} (s : State) (r : RingOf) (p : Bool)
    (hg : s.Good pend) : (State.setPhase s r p).Good pend := by
  unfold State.setPhase
  split <;> simp [hg]

@[simp] theorem State.mgmtBehind_good {pend : List Instr} (s : State) (b : Bool) (f : Nat → Nat)
    (hg : s.Good pend) : (State.mgmtBehind s b f).Good pend := by
  unfold State.mgmtBehind
  split
  all_goals simp [hg]

@[simp] theorem State.mgmtBehind_regs (s : State) (b : Bool) (f : Nat → Nat) : (s.mgmtBehind b f).regs = s.regs := by
  unfold State.mgmtBehind; split <;> rfl

@[simp] theorem State.mgmtBehind_ctxs (s : State) (b : Bool) (f : Nat → Nat) : (s.mgmtBehind b f).ctxs = s.ctxs := by
  unfold State.mgmtBehind; split <;> rfl

@[simp] theorem State.mgmtBehind_mem (s : State) (b : Bool) (f : Nat → Nat) : (s.mgmtBehind b f).mem = s.mem := by
  unfold State.mgmtBehind; split <;> rfl

@[simp] theorem State.setMail_good {pend : List Instr} (s : State) (r : RingOf) (l : List Completion)
    (hg : s.Good pend) : (State.setMail s r l).Good pend := by
  unfold State.setMail
  repeat' split
  all_goals simp [hg]

@[simp] theorem State.pcieBytes_good {pend : List Instr} (s : State) (r : RingOf) (n : Nat)
    (hg : s.Good pend) : (State.pcieBytes s r n).Good pend := by
  unfold State.pcieBytes
  split <;> simp [hg]

@[simp] theorem State.ringPut_good {pend : List Instr} (s : State) (r : RingOf) (x : Completion)
    (hg : s.Good pend) : (State.ringPut s r x).Good pend := by
  unfold State.ringPut
  simp (maxDischargeDepth := 99) [hg]

@[simp] theorem State.drainHeld_good {pend : List Instr} (s : State) (r : RingOf) (n : Nat) (h : s.Good pend) :
    (s.drainHeld r n).Good pend := by
  induction n generalizing s with
  | zero => exact h
  | succ n ih =>
    unfold State.drainHeld
    split
    · exact h
    · split
      · exact h
      · exact ih _ (State.setHeld_good _ _ _ (State.ringPut_good _ _ _ h))

@[simp] theorem State.putRecord_good {pend : List Instr} (s : State) (r : RingOf) (x : Completion) (hg : s.Good pend) :
    (State.putRecord s r x).Good pend := by
  unfold State.putRecord
  repeat' (first | assumption | (extract_lets +onlyGivenNames v; refine (fun (hv : State.Good pend v) => ?_) ?_; (on_goal 2 => subst v); (on_goal 1 => clear_value v)) | (extract_lets +onlyGivenNames v; refine (fun (hv : State.Good pend v.1) => ?_) ?_; (on_goal 2 => subst v); (on_goal 1 => clear_value v)) | (extract_lets +onlyGivenNames v; clear_value v) | (simp (maxDischargeDepth := 99) +contextual [*]; done) | (refine State.good_forAll _ _ (fun _ _ _ => ?_) ?_) | (refine State.good_iter _ _ (fun _ _ _ => ?_) ?_) | split)

@[simp] theorem State.complete_good {pend : List Instr} (s : State) (r : RingOf) (x : Completion)
    (hg : s.Good pend) : (State.complete s r x).Good pend := by
  unfold State.complete
  repeat' split
  all_goals simp (maxDischargeDepth := 99) [hg]

@[simp] theorem State.putRecords_good {pend : List Instr} (s : State) (hg : s.Good pend) :
    (State.putRecords s).Good pend := by
  unfold State.putRecords
  repeat' (first | assumption | (extract_lets +onlyGivenNames v; refine (fun (hv : State.Good pend v) => ?_) ?_; (on_goal 2 => subst v); (on_goal 1 => clear_value v)) | (extract_lets +onlyGivenNames v; refine (fun (hv : State.Good pend v.1) => ?_) ?_; (on_goal 2 => subst v); (on_goal 1 => clear_value v)) | (extract_lets +onlyGivenNames v; clear_value v) | (simp (maxDischargeDepth := 99) +contextual [*]; done) | (refine State.good_forAll _ _ (fun _ _ _ => ?_) ?_) | (refine State.good_iter _ _ (fun _ _ _ => ?_) ?_) | split)

@[simp] theorem State.refreshPromise_good {pend : List Instr} (s : State) (c : Nat) (hg : s.Good pend) : (State.refreshPromise s c).Good pend := by
  unfold State.refreshPromise
  simp (maxDischargeDepth := 99) [hg]

@[simp] theorem State.refreshAll_good {pend : List Instr} (s : State) (hg : s.Good pend) : (State.refreshAll s).Good pend := by
  unfold State.refreshAll
  simp +contextual [hg]

@[simp] theorem State.openWindow_good {pend : List Instr} (s : State) (w : Elem) (hg : s.Good pend) : (State.openWindow s w).Good pend := by
  unfold State.openWindow
  simp (maxDischargeDepth := 99) +contextual [hg]

@[simp] theorem State.closeWindow_good {pend : List Instr} (s : State) (w : Elem) (hg : s.Good pend) : (State.closeWindow s w).Good pend := by
  unfold State.closeWindow
  simp +contextual [hg]

@[simp] theorem State.unreach_good {pend : List Instr} (s : State) (d b : Nat) (hg : s.Good pend) :
    (State.unreach s d b).Good pend := by
  unfold State.unreach
  repeat' (first | assumption | (extract_lets +onlyGivenNames v; refine (fun (hv : State.Good pend v) => ?_) ?_; (on_goal 2 => subst v); (on_goal 1 => clear_value v)) | (extract_lets +onlyGivenNames v; refine (fun (hv : State.Good pend v.1) => ?_) ?_; (on_goal 2 => subst v); (on_goal 1 => clear_value v)) | (extract_lets +onlyGivenNames v; clear_value v) | (simp (maxDischargeDepth := 99) +contextual [*]; done) | (refine State.good_forAll _ _ (fun _ _ _ => ?_) ?_) | (refine State.good_iter _ _ (fun _ _ _ => ?_) ?_) | split)

/-! ## Machine/Purlin.lean -/

@[simp] theorem State.modRouter_good {pend : List Instr} (s : State) (die port : Nat) (f : List PurlinPacket → List PurlinPacket) (hg : s.Good pend) :
    (State.modRouter s die port f).Good pend := by
  unfold State.modRouter
  repeat' (first | assumption | (extract_lets +onlyGivenNames v; refine (fun (hv : State.Good pend v) => ?_) ?_; (on_goal 2 => subst v); (on_goal 1 => clear_value v)) | (extract_lets +onlyGivenNames v; refine (fun (hv : State.Good pend v.1) => ?_) ?_; (on_goal 2 => subst v); (on_goal 1 => clear_value v)) | (extract_lets +onlyGivenNames v; clear_value v) | (simp (maxDischargeDepth := 99) +contextual [*]; done) | (refine State.good_forAll _ _ (fun _ _ _ => ?_) ?_) | (refine State.good_iter _ _ (fun _ _ _ => ?_) ?_) | split)

@[simp] theorem State.inject_good {pend : List Instr} (s : State) (a b cls : Nat) (owner : Nat × Nat) (part n : Nat) (reply : Option (Nat × Nat)) (hg : s.Good pend) :
    (State.inject s a b cls owner part n reply).Good pend := by
  unfold State.inject
  repeat' (first | assumption | (extract_lets +onlyGivenNames v; refine (fun (hv : State.Good pend v) => ?_) ?_; (on_goal 2 => subst v); (on_goal 1 => clear_value v)) | (extract_lets +onlyGivenNames v; refine (fun (hv : State.Good pend v.1) => ?_) ?_; (on_goal 2 => subst v); (on_goal 1 => clear_value v)) | (extract_lets +onlyGivenNames v; clear_value v) | (simp (maxDischargeDepth := 99) +contextual [*]; done) | (refine State.good_forAll _ _ (fun _ _ _ => ?_) ?_) | (refine State.good_iter _ _ (fun _ _ _ => ?_) ?_) | split)

@[simp] theorem State.sendFlit_good {pend : List Instr} (s : State) (die dir : Nat) (hg : s.Good pend) :
    (State.sendFlit s die dir).Good pend := by
  unfold State.sendFlit
  repeat' (first | assumption | (extract_lets +onlyGivenNames v; refine (fun (hv : State.Good pend v) => ?_) ?_; (on_goal 2 => subst v); (on_goal 1 => clear_value v)) | (extract_lets +onlyGivenNames v; refine (fun (hv : State.Good pend v.1) => ?_) ?_; (on_goal 2 => subst v); (on_goal 1 => clear_value v)) | (extract_lets +onlyGivenNames v; clear_value v) | (simp (maxDischargeDepth := 99) +contextual [*]; done) | (refine State.good_forAll _ _ (fun _ _ _ => ?_) ?_) | (refine State.good_iter _ _ (fun _ _ _ => ?_) ?_) | split)

@[simp] theorem State.outputCycle_good {pend : List Instr} (s : State) (die dir : Nat) (hg : s.Good pend) :
    (State.outputCycle s die dir).Good pend := by
  unfold State.outputCycle
  split
  · exact State.good_iter _ _ (fun _ t ht => State.sendFlit_good _ _ _ ht) hg
  · exact hg

@[simp] theorem State.drainSink_good {pend : List Instr} (s : State) (die : Nat) (hg : s.Good pend) :
    (State.drainSink s die).Good pend := by
  exact State.good_iter _ _ (fun _ t ht => State.modRouter_good _ _ _ _ ht) hg

@[simp] theorem State.dropFrames_good {pend : List Instr} (s : State) (l : List (Nat × Nat)) (hg : s.Good pend) :
    (State.dropFrames s l).Good pend := by
  unfold State.dropFrames
  repeat' (first | assumption | (extract_lets +onlyGivenNames v; refine (fun (hv : State.Good pend v) => ?_) ?_; (on_goal 2 => subst v); (on_goal 1 => clear_value v)) | (extract_lets +onlyGivenNames v; refine (fun (hv : State.Good pend v.1) => ?_) ?_; (on_goal 2 => subst v); (on_goal 1 => clear_value v)) | (extract_lets +onlyGivenNames v; clear_value v) | (simp (maxDischargeDepth := 99) +contextual [*]; done) | (refine State.good_forAll _ _ (fun _ _ _ => ?_) ?_) | (refine State.good_iter _ _ (fun _ _ _ => ?_) ?_) | split)

@[simp] theorem State.unqueuePush_good {pend : List Instr} (s : State) (c id : Nat) (hg : s.Good pend) :
    (State.unqueuePush s c id).Good pend := by
  unfold State.unqueuePush
  repeat' (first | assumption | (extract_lets +onlyGivenNames v; refine (fun (hv : State.Good pend v) => ?_) ?_; (on_goal 2 => subst v); (on_goal 1 => clear_value v)) | (extract_lets +onlyGivenNames v; refine (fun (hv : State.Good pend v.1) => ?_) ?_; (on_goal 2 => subst v); (on_goal 1 => clear_value v)) | (extract_lets +onlyGivenNames v; clear_value v) | (simp (maxDischargeDepth := 99) +contextual [*]; done) | (refine State.good_forAll _ _ (fun _ _ _ => ?_) ?_) | (refine State.good_iter _ _ (fun _ _ _ => ?_) ?_) | split)

@[simp] theorem State.discarded_good {pend : List Instr} (s : State) (d : Nat) (f : PurlinPacket) (hg : s.Good pend) :
    (State.discarded s d f).Good pend := by
  unfold State.discarded
  repeat' (first | assumption | (extract_lets +onlyGivenNames v; refine (fun (hv : State.Good pend v) => ?_) ?_; (on_goal 2 => subst v); (on_goal 1 => clear_value v)) | (extract_lets +onlyGivenNames v; refine (fun (hv : State.Good pend v.1) => ?_) ?_; (on_goal 2 => subst v); (on_goal 1 => clear_value v)) | (extract_lets +onlyGivenNames v; clear_value v) | (simp (maxDischargeDepth := 99) +contextual [*]; done) | (refine State.good_forAll _ _ (fun _ _ _ => ?_) ?_) | (refine State.good_iter _ _ (fun _ _ _ => ?_) ?_) | split)

@[simp] theorem State.cutPackets_good {pend : List Instr} (s : State) (d : Nat) (hg : s.Good pend) :
    (State.cutPackets s d).Good pend := by
  unfold State.cutPackets
  repeat' (first | assumption | (extract_lets +onlyGivenNames v; refine (fun (hv : State.Good pend v) => ?_) ?_; (on_goal 2 => subst v); (on_goal 1 => clear_value v)) | (extract_lets +onlyGivenNames v; refine (fun (hv : State.Good pend v.1) => ?_) ?_; (on_goal 2 => subst v); (on_goal 1 => clear_value v)) | (extract_lets +onlyGivenNames v; clear_value v) | (simp (maxDischargeDepth := 99) +contextual [*]; done) | (refine State.good_forAll _ _ (fun _ _ _ => ?_) ?_) | (refine State.good_iter _ _ (fun _ _ _ => ?_) ?_) | split)

@[simp] theorem State.dropPackets_good {pend : List Instr} (s : State) (c : Nat) (hg : s.Good pend) :
    (State.dropPackets s c).Good pend := by
  unfold State.dropPackets
  repeat' (first | assumption | (extract_lets +onlyGivenNames v; refine (fun (hv : State.Good pend v) => ?_) ?_; (on_goal 2 => subst v); (on_goal 1 => clear_value v)) | (extract_lets +onlyGivenNames v; refine (fun (hv : State.Good pend v.1) => ?_) ?_; (on_goal 2 => subst v); (on_goal 1 => clear_value v)) | (extract_lets +onlyGivenNames v; clear_value v) | (simp (maxDischargeDepth := 99) +contextual [*]; done) | (refine State.good_forAll _ _ (fun _ _ _ => ?_) ?_) | (refine State.good_iter _ _ (fun _ _ _ => ?_) ?_) | split)

/-! ## Machine/Links.lean -/

@[simp] theorem State.portDown_good {pend : List Instr} (s : State) (p : Nat) (hg : s.Good pend) :
    (State.portDown s p).Good pend := by
  unfold State.portDown
  repeat' (first | assumption | (extract_lets +onlyGivenNames v; refine (fun (hv : State.Good pend v) => ?_) ?_; (on_goal 2 => subst v); (on_goal 1 => clear_value v)) | (extract_lets +onlyGivenNames v; refine (fun (hv : State.Good pend v.1) => ?_) ?_; (on_goal 2 => subst v); (on_goal 1 => clear_value v)) | (extract_lets +onlyGivenNames v; clear_value v) | (simp (maxDischargeDepth := 99) +contextual [*]; done) | (refine State.good_forAll _ _ (fun _ _ _ => ?_) ?_) | (refine State.good_iter _ _ (fun _ _ _ => ?_) ?_) | split)

@[simp] theorem State.enqueue_good {pend : List Instr} (s : State) (k : Nat) (f : Frame) (owner : Option (Nat × Nat)) (stage : Option (Nat × Nat)) (hg : s.Good pend) :
    (State.enqueue s k f owner stage).Good pend := by
  unfold State.enqueue
  repeat' (first | assumption | (extract_lets +onlyGivenNames v; refine (fun (hv : State.Good pend v) => ?_) ?_; (on_goal 2 => subst v); (on_goal 1 => clear_value v)) | (extract_lets +onlyGivenNames v; refine (fun (hv : State.Good pend v.1) => ?_) ?_; (on_goal 2 => subst v); (on_goal 1 => clear_value v)) | (extract_lets +onlyGivenNames v; clear_value v) | (simp (maxDischargeDepth := 99) +contextual [*]; done) | (refine State.good_forAll _ _ (fun _ _ _ => ?_) ?_) | (refine State.good_iter _ _ (fun _ _ _ => ?_) ?_) | split)

@[simp] theorem State.dropNoRoute_good {pend : List Instr} (s : State) (e : Nat) (hg : s.Good pend) : (State.dropNoRoute s e).Good pend := by
  unfold State.dropNoRoute
  simp [hg]

@[simp] theorem State.countMiss_good {pend : List Instr} (s : State) (c by_ : Nat) (hg : s.Good pend) :
    (State.countMiss s c by_).Good pend := by
  unfold State.countMiss
  repeat' (first | assumption | (extract_lets +onlyGivenNames v; refine (fun (hv : State.Good pend v) => ?_) ?_; (on_goal 2 => subst v); (on_goal 1 => clear_value v)) | (extract_lets +onlyGivenNames v; refine (fun (hv : State.Good pend v.1) => ?_) ?_; (on_goal 2 => subst v); (on_goal 1 => clear_value v)) | (extract_lets +onlyGivenNames v; clear_value v) | (simp (maxDischargeDepth := 99) +contextual [*]; done) | (refine State.good_forAll _ _ (fun _ _ _ => ?_) ?_) | (refine State.good_iter _ _ (fun _ _ _ => ?_) ?_) | split)

@[simp] theorem State.stageOver_good {pend : List Instr} (s : State) (c by_ : Nat) (hg : s.Good pend) :
    (State.stageOver s c by_).Good pend := by
  unfold State.stageOver
  repeat' (first | assumption | (extract_lets +onlyGivenNames v; refine (fun (hv : State.Good pend v) => ?_) ?_; (on_goal 2 => subst v); (on_goal 1 => clear_value v)) | (extract_lets +onlyGivenNames v; refine (fun (hv : State.Good pend v.1) => ?_) ?_; (on_goal 2 => subst v); (on_goal 1 => clear_value v)) | (extract_lets +onlyGivenNames v; clear_value v) | (simp (maxDischargeDepth := 99) +contextual [*]; done) | (refine State.good_forAll _ _ (fun _ _ _ => ?_) ?_) | (refine State.good_iter _ _ (fun _ _ _ => ?_) ?_) | split)

@[simp] theorem State.postCtl_good {pend : List Instr} (s : State) (node typ obj c : Nat) (oepoch : BitVec 16) (m : CtlMsg) (hg : s.Good pend) :
    (State.postCtl s node typ obj c oepoch m).Good pend := by
  unfold State.postCtl
  repeat' (first | assumption | (extract_lets +onlyGivenNames v; refine (fun (hv : State.Good pend v) => ?_) ?_; (on_goal 2 => subst v); (on_goal 1 => clear_value v)) | (extract_lets +onlyGivenNames v; refine (fun (hv : State.Good pend v.1) => ?_) ?_; (on_goal 2 => subst v); (on_goal 1 => clear_value v)) | (extract_lets +onlyGivenNames v; clear_value v) | (simp (maxDischargeDepth := 99) +contextual [*]; done) | (refine State.good_forAll _ _ (fun _ _ _ => ?_) ?_) | (refine State.good_iter _ _ (fun _ _ _ => ?_) ?_) | split)

@[simp] theorem State.sendCtl_good {pend : List Instr} (s : State) (node typ obj c : Nat) (oepoch : BitVec 16) (m : CtlMsg)
    (hg : s.Good pend) : (State.sendCtl s node typ obj c oepoch m).Good pend := by
  unfold State.sendCtl
  repeat' split
  all_goals simp [hg]

@[simp] theorem State.sendUnsent_good {pend : List Instr} (s : State) (hg : s.Good pend) :
    (State.sendUnsent s).Good pend := by
  unfold State.sendUnsent
  repeat' (first | assumption | (extract_lets +onlyGivenNames v; refine (fun (hv : State.Good pend v) => ?_) ?_; (on_goal 2 => subst v); (on_goal 1 => clear_value v)) | (extract_lets +onlyGivenNames v; refine (fun (hv : State.Good pend v.1) => ?_) ?_; (on_goal 2 => subst v); (on_goal 1 => clear_value v)) | (extract_lets +onlyGivenNames v; clear_value v) | (simp (maxDischargeDepth := 99) +contextual [*]; done) | (refine State.good_forAll _ _ (fun _ _ _ => ?_) ?_) | (refine State.good_iter _ _ (fun _ _ _ => ?_) ?_) | split)

@[simp] theorem State.sendLinkctl_good {pend : List Instr} (s : State) (k : Nat) (nak : Option Nat)
    (hg : s.Good pend) : (State.sendLinkctl s k nak).Good pend := by
  unfold State.sendLinkctl
  dsimp only
  split
  · simp [hg]
  · exact State.modLc_good _ _ _ _ (by simp [hg])

/-! ## Machine/QueueOps.lean -/

@[simp] theorem State.flowUpdate_good {pend : List Instr} (s : State) (c l : Nat) (hg : s.Good pend) : (State.flowUpdate s c l).Good pend := by
  unfold State.flowUpdate
  dsimp only
  repeat' (first | (simp_all; done) | split)

@[simp] theorem State.flushQueue_good {pend : List Instr} (s : State) (c l : Nat) (hg : s.Good pend) : (State.flushQueue s c l).Good pend := by
  unfold State.flushQueue
  simp (maxDischargeDepth := 99) +contextual [hg]

@[simp] theorem State.flushQueues_good {pend : List Instr} (s : State) (c : Nat) (hg : s.Good pend) : (State.flushQueues s c).Good pend := by
  unfold State.flushQueues
  simp +contextual [hg]

end Sys2Proof.Machine
end

