-- ==== Sys2Proof/Laws/KeepEntries.lean ====
section
/-! SUPPORT. What operations and meanings keep: faults, launches and plan entries. -/

namespace Sys2Proof.Machine

/-! ## Machine/Fault.lean -/

@[simp] theorem State.addCycles_good {pend : List Instr} (s : State) (c t n : Nat) (hg : s.Good pend) : (State.addCycles s c t n).Good pend := by
  unfold State.addCycles
  simp [hg]

@[simp] theorem State.chargeTile_good {pend : List Instr} (s : State) (c t upTo : Nat)
    (hg : s.Good pend) : (State.chargeTile s c t upTo).Good pend := by
  unfold State.chargeTile
  split <;> simp [hg]

@[simp] theorem State.chargeAll_good {pend : List Instr} (s : State) (c upTo : Nat) (hg : s.Good pend) : (State.chargeAll s c upTo).Good pend := by
  unfold State.chargeAll
  simp (maxDischargeDepth := 99) +contextual [hg]

@[simp] theorem State.sendDecides_good {pend : List Instr} (s : State) (c v : Nat) (sl : Slot) (g : Group) (seq : BitVec 32) (d : Decision)
    (hg : s.Good pend) : (State.sendDecides s c v sl g seq d).Good pend := by
  unfold State.sendDecides
  simp +contextual [hg]

@[simp] theorem State.holdVote_good {pend : List Instr} (s : State) (gi : Nat) (seq : BitVec 32) (v : Nat) (x : VoteRec)
    (hg : s.Good pend) : (State.holdVote s gi seq v x).Good pend := by
  unfold State.holdVote
  split <;> simp [hg]

@[simp] theorem State.modLaunch_good {pend : List Instr} (s : State) (c : Nat) (q : BitVec 32) (f : Running → Running)
    (hg : s.Good pend) : (State.modLaunch s c q f).Good pend := by
  unfold State.modLaunch
  simp (maxDischargeDepth := 99) +contextual [hg]

@[simp] theorem State.clearVotes_good {pend : List Instr} (s : State) (gi : Nat) (seq : BitVec 32) (v : Nat)
    (hg : s.Good pend) : (State.clearVotes s gi seq v).Good pend := by
  unfold State.clearVotes
  repeat' (first | assumption | (extract_lets +onlyGivenNames v; refine (fun (hv : State.Good pend v) => ?_) ?_; (on_goal 2 => subst v); (on_goal 1 => clear_value v)) | (extract_lets +onlyGivenNames v; refine (fun (hv : State.Good pend v.1) => ?_) ?_; (on_goal 2 => subst v); (on_goal 1 => clear_value v)) | (extract_lets +onlyGivenNames v; clear_value v) | (simp (maxDischargeDepth := 99) +contextual [*]; done) | (refine State.good_forAll _ _ (fun _ _ _ => ?_) ?_) | (refine State.good_iter _ _ (fun _ _ _ => ?_) ?_) | split)

@[simp] theorem State.deadDecide_good {pend : List Instr} (s : State) (c v : Nat) (r : Running) (sl : Slot)
    (hg : s.Good pend) : (State.deadDecide s c v r sl).Good pend := by
  unfold State.deadDecide
  repeat' (first | assumption | (extract_lets +onlyGivenNames v; refine (fun (hv : State.Good pend v) => ?_) ?_; (on_goal 2 => subst v); (on_goal 1 => clear_value v)) | (extract_lets +onlyGivenNames v; refine (fun (hv : State.Good pend v.1) => ?_) ?_; (on_goal 2 => subst v); (on_goal 1 => clear_value v)) | (extract_lets +onlyGivenNames v; clear_value v) | (simp (maxDischargeDepth := 99) +contextual [*]; done) | (refine State.good_forAll _ _ (fun _ _ _ => ?_) ?_) | (refine State.good_iter _ _ (fun _ _ _ => ?_) ?_) | split)

@[simp] theorem State.faultVote_good {pend : List Instr} (s : State) (c v : Nat) (r : Running) (sl : Slot)
    (hg : s.Good pend) : (State.faultVote s c v r sl).Good pend := by
  unfold State.faultVote
  repeat' split
  all_goals simp [hg]

@[simp] theorem State.faultVotes_good {pend : List Instr} (s : State) (c : Nat) (hg : s.Good pend) : (State.faultVotes s c).Good pend := by
  unfold State.faultVotes
  repeat' (first | assumption | (extract_lets +onlyGivenNames v; refine (fun (hv : State.Good pend v) => ?_) ?_; (on_goal 2 => subst v); (on_goal 1 => clear_value v)) | (extract_lets +onlyGivenNames v; refine (fun (hv : State.Good pend v.1) => ?_) ?_; (on_goal 2 => subst v); (on_goal 1 => clear_value v)) | (extract_lets +onlyGivenNames v; clear_value v) | (simp (maxDischargeDepth := 99) +contextual [*]; done) | (refine State.good_forAll _ _ (fun _ _ _ => ?_) ?_) | (refine State.good_iter _ _ (fun _ _ _ => ?_) ?_) | split)

@[simp] theorem State.faultLaunches_good {pend : List Instr} (s : State) (c code : Nat) (l : List (BitVec 32))
    (hg : s.Good pend) : (State.faultLaunches s c code l).Good pend := by
  unfold State.faultLaunches
  simp +contextual [hg]

@[simp] theorem State.stopCtx_good {pend : List Instr} (s : State) (c : Nat) (hg : s.Good pend) : (State.stopCtx s c).Good pend := by
  unfold State.stopCtx
  simp (maxDischargeDepth := 99) [hg]

@[simp] theorem State.wdSite_good {pend : List Instr} (s : State) (c : Nat) (w : Nat × Nat × Nat) (hg : s.Good pend) :
    (State.wdSite s c w).Good pend := by
  unfold State.wdSite
  exact State.good_ite _ _ _ (fun _ => State.wf_good _ _ _ _ _ (State.wf_good _ _ _ _ _ (State.wf_good _ _ _ _ _ hg))) fun _ => hg

@[simp] theorem State.takeFault_good {pend : List Instr} (s0 : State) (f : PendFault) (hg : s0.Good pend) :
    (State.takeFault s0 f).Good pend := by
  unfold State.takeFault
  extract_lets c code s a seq s1 s2 l s3
  have h0 : s.Good pend := by
    simp only [s]
    split
    · exact hg
    · exact State.wdSite_good _ _ _ hg
  have h1 : s1.Good pend := State.good_ite _ _ _ (fun _ => State.setReg_good _ _ _ (State.wf_good _ _ _ _ _ (State.wf_good _ _ _ _ _ h0)))
    fun _ => h0
  exact State.modCtx_good _ _ _ (State.faultLaunches_good _ _ _ _ (State.stopCtx_good _ _ (State.sendMsix_good _ _
    (State.raiseCtx_good _ _ _ h1))))

@[simp] theorem State.detect_good {pend : List Instr} (s : State) (f : PendFault) (hg : s.Good pend) :
    (State.detect s f).Good pend := by
  unfold State.detect
  repeat' (first | assumption | (extract_lets +onlyGivenNames v; refine (fun (hv : State.Good pend v) => ?_) ?_; (on_goal 2 => subst v); (on_goal 1 => clear_value v)) | (extract_lets +onlyGivenNames v; refine (fun (hv : State.Good pend v.1) => ?_) ?_; (on_goal 2 => subst v); (on_goal 1 => clear_value v)) | (extract_lets +onlyGivenNames v; clear_value v) | (simp (maxDischargeDepth := 99) +contextual [*]; done) | (refine State.good_forAll _ _ (fun _ _ _ => ?_) ?_) | (refine State.good_iter _ _ (fun _ _ _ => ?_) ?_) | split)

@[simp] theorem State.ctxFault_good {pend : List Instr} (s : State) (c code : Nat) (hg : s.Good pend) : (State.ctxFault s c code).Good pend := by
  unfold State.ctxFault
  simp (maxDischargeDepth := 99) [hg]

@[simp] theorem State.schedFault_good {pend : List Instr} (s : State) (c t p site code : Nat)
    (hg : s.Good pend) : (State.schedFault s c t p site code).Good pend := by
  unfold State.schedFault
  simp [hg]

@[simp] theorem State.takeFaults_good {pend : List Instr} (s : State) (hg : s.Good pend) :
    (State.takeFaults s).Good pend := by
  unfold State.takeFaults
  repeat' (first | assumption | (extract_lets +onlyGivenNames v; refine (fun (hv : State.Good pend v) => ?_) ?_; (on_goal 2 => subst v); (on_goal 1 => clear_value v)) | (extract_lets +onlyGivenNames v; refine (fun (hv : State.Good pend v.1) => ?_) ?_; (on_goal 2 => subst v); (on_goal 1 => clear_value v)) | (extract_lets +onlyGivenNames v; clear_value v) | (simp (maxDischargeDepth := 99) +contextual [*]; done) | (refine State.good_forAll _ _ (fun _ _ _ => ?_) ?_) | (refine State.good_iter _ _ (fun _ _ _ => ?_) ?_) | split)

@[simp] theorem State.addTokens_good {pend : List Instr} (s : State) (c t k n : Nat) (hg : s.Good pend) : (State.addTokens s c t k n).Good pend := by
  unfold State.addTokens
  simp (maxDischargeDepth := 99) [hg]

/-! ## Machine/Sequencer.lean -/

@[simp] theorem State.startXfer_good {pend : List Instr} (s : State) (c t p : Nat) (engine ctr : Option Nat) (kind : XKind) (size rate : Nat) (segs : List Seg) (cache : Bool)
    (hg : s.Good pend) : (State.startXfer s c t p engine ctr kind size rate segs cache).Good pend := by
  unfold State.startXfer
  simp (maxDischargeDepth := 99) +contextual [hg]

@[simp] theorem State.pointerMove_good {pend : List Instr} (s : State) (c t : Nat) (hg : s.Good pend) : (State.pointerMove s c t).Good pend := by
  unfold State.pointerMove
  dsimp only
  repeat' (first | (simp_all (maxDischargeDepth := 99) +contextual; done) | split)

@[simp] theorem State.pointerTo_good {pend : List Instr} (s : State) (c t p : Nat) (hg : s.Good pend) : (State.pointerTo s c t p).Good pend := by
  unfold State.pointerTo
  simp (maxDischargeDepth := 99) +contextual [hg]

@[simp] theorem State.goto_good {pend : List Instr} (s : State) (c t p : Nat) (hg : s.Good pend) : (State.goto s c t p).Good pend := by
  unfold State.goto
  simp (maxDischargeDepth := 99) +contextual [hg]

@[simp] theorem State.recordSlip_good {pend : List Instr} (s : State) (c slip : Nat) (hg : s.Good pend) : (State.recordSlip s c slip).Good pend := by
  unfold State.recordSlip
  simp (maxDischargeDepth := 99) +contextual [hg]

@[simp] theorem State.issueAt_good {pend : List Instr} (s : State) (c t : Nat) (e : EntryBits)
    (hg : s.Good pend) : (State.issueAt s c t e).Good pend := by
  unfold State.issueAt
  simp (maxDischargeDepth := 99) +contextual [hg]

@[simp] theorem State.issue_good {pend : List Instr} (s : State) (c t : Nat) (e : EntryBits)
    (hg : s.Good pend) : (State.issue s c t e).Good pend := by
  unfold State.issue
  simp (maxDischargeDepth := 99) +contextual [hg]

@[simp] theorem State.ckptTrigger_good {pend : List Instr} (s : State) (c b : Nat) (hg : s.Good pend) : (State.ckptTrigger s c b).Good pend := by
  unfold State.ckptTrigger
  simp (maxDischargeDepth := 99) +contextual [hg]

@[simp] theorem State.triggerCkpts_good {pend : List Instr} (s : State) (b die : Nat) (hg : s.Good pend) :
    (State.triggerCkpts s b die).Good pend := by
  unfold State.triggerCkpts
  repeat' (first | assumption | (extract_lets +onlyGivenNames v; refine (fun (hv : State.Good pend v) => ?_) ?_; (on_goal 2 => subst v); (on_goal 1 => clear_value v)) | (extract_lets +onlyGivenNames v; refine (fun (hv : State.Good pend v.1) => ?_) ?_; (on_goal 2 => subst v); (on_goal 1 => clear_value v)) | (extract_lets +onlyGivenNames v; clear_value v) | (simp (maxDischargeDepth := 99) +contextual [*]; done) | (refine State.good_forAll _ _ (fun _ _ _ => ?_) ?_) | (refine State.good_iter _ _ (fun _ _ _ => ?_) ?_) | split)

theorem execNop_good {pend : List Instr} (c t : Nat) (s : State) (hg : s.Good pend) : Out.Good pend (execNop c t s) := by
  unfold execNop
  split <;> simp_all (maxDischargeDepth := 99) +contextual

theorem execHold_good {pend : List Instr} (c t : Nat) (s : State) (hg : s.Good pend) : Out.Good pend (execHold c t s) := by
  unfold execHold
  split <;> simp_all (maxDischargeDepth := 99) +contextual

theorem execSignal_good {pend : List Instr} (c t : Nat) (s : State) (hg : s.Good pend) : Out.Good pend (execSignal c t s) := by
  unfold execSignal
  split <;> simp_all (maxDischargeDepth := 99) +contextual

theorem execRepeatEntry_good {pend : List Instr} (c t : Nat) (s : State) (hg : s.Good pend) : Out.Good pend (execRepeatEntry c t s) := by
  unfold execRepeatEntry
  split <;> simp_all (maxDischargeDepth := 99) +contextual

theorem execEndEntry_good {pend : List Instr} (c t : Nat) (s : State) (hg : s.Good pend) : Out.Good pend (execEndEntry c t s) := by
  unfold execEndEntry
  split <;> simp_all (maxDischargeDepth := 99) +contextual

theorem execMark_good {pend : List Instr} (c t : Nat) (s : State) (hg : s.Good pend) : Out.Good pend (execMark c t s) := by
  unfold execMark
  split <;> simp_all (maxDischargeDepth := 99) +contextual

@[simp] theorem State.arrayBusy_good {pend : List Instr} (s : State) (c t : Nat) (hg : s.Good pend) :
    (State.arrayBusy s c t).Good pend := by
  unfold State.arrayBusy
  repeat' (first | assumption | (extract_lets +onlyGivenNames v; refine (fun (hv : State.Good pend v) => ?_) ?_; (on_goal 2 => subst v); (on_goal 1 => clear_value v)) | (extract_lets +onlyGivenNames v; refine (fun (hv : State.Good pend v.1) => ?_) ?_; (on_goal 2 => subst v); (on_goal 1 => clear_value v)) | (extract_lets +onlyGivenNames v; clear_value v) | (simp (maxDischargeDepth := 99) +contextual [*]; done) | (refine State.good_forAll _ _ (fun _ _ _ => ?_) ?_) | (refine State.good_iter _ _ (fun _ _ _ => ?_) ?_) | split)

@[simp] theorem State.issueUnit_good {pend : List Instr} (s : State) (c t : Nat) (e : EntryBits) (u : UnitKind) (op : UnitOp) (hg : s.Good pend) :
    (State.issueUnit s c t e u op).Good pend := by
  unfold State.issueUnit
  repeat' (first | assumption | (extract_lets +onlyGivenNames v; refine (fun (hv : State.Good pend v) => ?_) ?_; (on_goal 2 => subst v); (on_goal 1 => clear_value v)) | (extract_lets +onlyGivenNames v; refine (fun (hv : State.Good pend v.1) => ?_) ?_; (on_goal 2 => subst v); (on_goal 1 => clear_value v)) | (extract_lets +onlyGivenNames v; clear_value v) | (simp (maxDischargeDepth := 99) +contextual [*]; done) | (refine State.good_forAll _ _ (fun _ _ _ => ?_) ?_) | (refine State.good_iter _ _ (fun _ _ _ => ?_) ?_) | split)

@[simp] theorem State.clashFault_good {pend : List Instr} (s : State) (c t : Nat) (hg : s.Good pend) :
    (State.clashFault s c t).Good pend := by
  unfold State.clashFault
  repeat' (first | assumption | (extract_lets +onlyGivenNames v; refine (fun (hv : State.Good pend v) => ?_) ?_; (on_goal 2 => subst v); (on_goal 1 => clear_value v)) | (extract_lets +onlyGivenNames v; refine (fun (hv : State.Good pend v.1) => ?_) ?_; (on_goal 2 => subst v); (on_goal 1 => clear_value v)) | (extract_lets +onlyGivenNames v; clear_value v) | (simp (maxDischargeDepth := 99) +contextual [*]; done) | (refine State.good_forAll _ _ (fun _ _ _ => ?_) ?_) | (refine State.good_iter _ _ (fun _ _ _ => ?_) ?_) | split)

/-! ## Machine/Launch.lean -/

@[simp] theorem State.refuseLaunch_good {pend : List Instr} (s : State) (c : Nat) (l : Launch) (status : Nat)
    (hg : s.Good pend) : (State.refuseLaunch s c l status).Good pend := by
  unfold State.refuseLaunch
  simp (maxDischargeDepth := 99) +contextual [hg]

@[simp] theorem State.armLaunch_good {pend : List Instr} (s : State) (c : Nat) (l : Launch)
    (hg : s.Good pend) : (State.armLaunch s c l).Good pend := by
  unfold State.armLaunch
  simp (maxDischargeDepth := 99) +contextual [hg]

theorem execLaunchReady_good {pend : List Instr} (c : Nat) (s : State) (hg : s.Good pend) : Out.Good pend (execLaunchReady c s) := by
  unfold execLaunchReady
  repeat' (first | assumption | (extract_lets +onlyGivenNames v; refine (fun (hv : State.Good pend v) => ?_) ?_; (on_goal 2 => subst v); (on_goal 1 => clear_value v)) | (extract_lets +onlyGivenNames v; refine (fun (hv : State.Good pend v.1) => ?_) ?_; (on_goal 2 => subst v); (on_goal 1 => clear_value v)) | (extract_lets +onlyGivenNames v; clear_value v) | (simp (maxDischargeDepth := 99) +contextual [*]; done) | (refine State.good_forAll _ _ (fun _ _ _ => ?_) ?_) | (refine State.good_iter _ _ (fun _ _ _ => ?_) ?_) | split)

@[simp] theorem State.openSlot_good {pend : List Instr} (s : State) (c : Nat) (d : SlotDef)
    (hg : s.Good pend) : (State.openSlot s c d).1.Good pend := by
  unfold State.openSlot
  dsimp only
  repeat' (first | (simp_all (maxDischargeDepth := 99) +contextual; done) | split)

@[simp] theorem State.openSlots_good {pend : List Instr} (s : State) (c : Nat) (l : Table SlotDef)
    (hg : s.Good pend) : (State.openSlots s c l).1.Good pend := by
  have h := hg
  unfold State.openSlots
  suffices ∀ a : State × Table Slot, a.1.Good pend →
      (l.foldl (fun a (e : Nat × SlotDef) => let r := a.1.openSlot c e.2; (r.1, Table.set a.2 e.1 r.2)) a).1.Good pend from this _ h
  induction l with
  | nil => exact fun a ha => ha
  | cons e r ih => exact fun a ha => ih _ (State.openSlot_good _ _ _ ha)

@[simp] theorem State.showRate_good {pend : List Instr} (s : State) (c p k : Nat) (hg : s.Good pend) : (State.showRate s c p k).Good pend := by
  unfold State.showRate
  simp (maxDischargeDepth := 99) +contextual [hg]

@[simp] theorem State.startLaunch_good {pend : List Instr} (s : State) (c : Nat) (r : Running)
    (hg : s.Good pend) : (State.startLaunch s c r).Good pend := by
  unfold State.startLaunch
  simp (maxDischargeDepth := 99) +contextual [hg]

theorem execLaunchT0_good {pend : List Instr} (c : Nat) (s : State) (hg : s.Good pend) : Out.Good pend (execLaunchT0 c s) := by
  unfold execLaunchT0
  repeat' (first | assumption | (extract_lets +onlyGivenNames v; refine (fun (hv : State.Good pend v) => ?_) ?_; (on_goal 2 => subst v); (on_goal 1 => clear_value v)) | (extract_lets +onlyGivenNames v; refine (fun (hv : State.Good pend v.1) => ?_) ?_; (on_goal 2 => subst v); (on_goal 1 => clear_value v)) | (extract_lets +onlyGivenNames v; clear_value v) | (simp (maxDischargeDepth := 99) +contextual [*]; done) | (refine State.good_forAll _ _ (fun _ _ _ => ?_) ?_) | (refine State.good_iter _ _ (fun _ _ _ => ?_) ?_) | split)

theorem execLaunchEnd_good {pend : List Instr} (c : Nat) (s : State) (hg : s.Good pend) : Out.Good pend (execLaunchEnd c s) := by
  unfold execLaunchEnd
  dsimp only
  repeat' (first | (simp_all (maxDischargeDepth := 99) +contextual; done) | split)

theorem execDeadlockSuspect_good {pend : List Instr} (c t : Nat) (s : State) (hg : s.Good pend) : Out.Good pend (execDeadlockSuspect c t s) := by
  unfold execDeadlockSuspect
  dsimp only
  repeat' (first | (simp_all (maxDischargeDepth := 99) +contextual; done) | split)

/-! ## Machine/Units.lean -/

@[simp] theorem State.applyWrites_good {pend : List Instr} (s : State) (base : Nat) (l : List ScratchWrite)
    (hg : s.Good pend) : (State.applyWrites s base l).Good pend := by
  unfold State.applyWrites
  simp (maxDischargeDepth := 99) +contextual [hg]

@[simp] theorem State.writesDue_good {pend : List Instr} (s : State) (c t : Nat) (hg : s.Good pend) :
    (State.writesDue s c t).Good pend := by
  unfold State.writesDue
  repeat' (first | assumption | (extract_lets +onlyGivenNames v; refine (fun (hv : State.Good pend v) => ?_) ?_; (on_goal 2 => subst v); (on_goal 1 => clear_value v)) | (extract_lets +onlyGivenNames v; refine (fun (hv : State.Good pend v.1) => ?_) ?_; (on_goal 2 => subst v); (on_goal 1 => clear_value v)) | (extract_lets +onlyGivenNames v; clear_value v) | (simp (maxDischargeDepth := 99) +contextual [*]; done) | (refine State.good_forAll _ _ (fun _ _ _ => ?_) ?_) | (refine State.good_iter _ _ (fun _ _ _ => ?_) ?_) | split)

@[simp] theorem State.lastCycleToken_good {pend : List Instr} (s : State) (c t k : Nat) (hg : s.Good pend) :
    (State.lastCycleToken s c t k).Good pend := by
  unfold State.lastCycleToken
  repeat' (first | assumption | (extract_lets +onlyGivenNames v; refine (fun (hv : State.Good pend v) => ?_) ?_; (on_goal 2 => subst v); (on_goal 1 => clear_value v)) | (extract_lets +onlyGivenNames v; refine (fun (hv : State.Good pend v.1) => ?_) ?_; (on_goal 2 => subst v); (on_goal 1 => clear_value v)) | (extract_lets +onlyGivenNames v; clear_value v) | (simp (maxDischargeDepth := 99) +contextual [*]; done) | (refine State.good_forAll _ _ (fun _ _ _ => ?_) ?_) | (refine State.good_iter _ _ (fun _ _ _ => ?_) ?_) | split)

@[simp] theorem State.opCounts_good {pend : List Instr} (s : State) (c t : Nat) (o : UnitOp)
    (hg : s.Good pend) : (State.opCounts s c t o).Good pend := by
  unfold State.opCounts
  simp (maxDischargeDepth := 99) +contextual [hg]

/-! ## Machine/Vector.lean -/

theorem execVec_good {pend : List Instr} (c t : Nat) (s : State) (hg : s.Good pend) :
    Out.Good pend (execVec c t s) := by
  unfold execVec
  repeat' (first | assumption | (extract_lets +onlyGivenNames v; refine (fun (hv : State.Good pend v) => ?_) ?_; (on_goal 2 => subst v); (on_goal 1 => clear_value v)) | (extract_lets +onlyGivenNames v; refine (fun (hv : State.Good pend v.1) => ?_) ?_; (on_goal 2 => subst v); (on_goal 1 => clear_value v)) | (extract_lets +onlyGivenNames v; clear_value v) | (simp (maxDischargeDepth := 99) +contextual [*]; done) | (refine State.good_forAll _ _ (fun _ _ _ => ?_) ?_) | (refine State.good_iter _ _ (fun _ _ _ => ?_) ?_) | (refine State.ctxCommand_good _ _ _ _ (fun _ => ?_) ?_) | (refine State.pfCommand_good _ _ _ _ (fun _ => ?_) ?_) | split)

theorem execUpd_good {pend : List Instr} (c t : Nat) (s : State) (hg : s.Good pend) :
    Out.Good pend (execUpd c t s) := by
  unfold execUpd
  repeat' (first | assumption | (extract_lets +onlyGivenNames v; refine (fun (hv : State.Good pend v) => ?_) ?_; (on_goal 2 => subst v); (on_goal 1 => clear_value v)) | (extract_lets +onlyGivenNames v; refine (fun (hv : State.Good pend v.1) => ?_) ?_; (on_goal 2 => subst v); (on_goal 1 => clear_value v)) | (extract_lets +onlyGivenNames v; clear_value v) | (simp (maxDischargeDepth := 99) +contextual [*]; done) | (refine State.good_forAll _ _ (fun _ _ _ => ?_) ?_) | (refine State.good_iter _ _ (fun _ _ _ => ?_) ?_) | (refine State.ctxCommand_good _ _ _ _ (fun _ => ?_) ?_) | (refine State.pfCommand_good _ _ _ _ (fun _ => ?_) ?_) | split)

theorem execRngFill_good {pend : List Instr} (c t : Nat) (s : State) (hg : s.Good pend) :
    Out.Good pend (execRngFill c t s) := by
  unfold execRngFill
  repeat' (first | assumption | (extract_lets +onlyGivenNames v; refine (fun (hv : State.Good pend v) => ?_) ?_; (on_goal 2 => subst v); (on_goal 1 => clear_value v)) | (extract_lets +onlyGivenNames v; refine (fun (hv : State.Good pend v.1) => ?_) ?_; (on_goal 2 => subst v); (on_goal 1 => clear_value v)) | (extract_lets +onlyGivenNames v; clear_value v) | (simp (maxDischargeDepth := 99) +contextual [*]; done) | (refine State.good_forAll _ _ (fun _ _ _ => ?_) ?_) | (refine State.good_iter _ _ (fun _ _ _ => ?_) ?_) | (refine State.ctxCommand_good _ _ _ _ (fun _ => ?_) ?_) | (refine State.pfCommand_good _ _ _ _ (fun _ => ?_) ?_) | split)

theorem execGnsStat_good {pend : List Instr} (c t : Nat) (s : State) (hg : s.Good pend) :
    Out.Good pend (execGnsStat c t s) := by
  unfold execGnsStat
  repeat' (first | assumption | (extract_lets +onlyGivenNames v; refine (fun (hv : State.Good pend v) => ?_) ?_; (on_goal 2 => subst v); (on_goal 1 => clear_value v)) | (extract_lets +onlyGivenNames v; refine (fun (hv : State.Good pend v.1) => ?_) ?_; (on_goal 2 => subst v); (on_goal 1 => clear_value v)) | (extract_lets +onlyGivenNames v; clear_value v) | (simp (maxDischargeDepth := 99) +contextual [*]; done) | (refine State.good_forAll _ _ (fun _ _ _ => ?_) ?_) | (refine State.good_iter _ _ (fun _ _ _ => ?_) ?_) | (refine State.ctxCommand_good _ _ _ _ (fun _ => ?_) ?_) | (refine State.pfCommand_good _ _ _ _ (fun _ => ?_) ?_) | split)

/-! ## Machine/Special.lean -/

theorem execSfu_good {pend : List Instr} (c t : Nat) (s : State) (hg : s.Good pend) :
    Out.Good pend (execSfu c t s) := by
  unfold execSfu
  repeat' (first | assumption | (extract_lets +onlyGivenNames v; refine (fun (hv : State.Good pend v) => ?_) ?_; (on_goal 2 => subst v); (on_goal 1 => clear_value v)) | (extract_lets +onlyGivenNames v; refine (fun (hv : State.Good pend v.1) => ?_) ?_; (on_goal 2 => subst v); (on_goal 1 => clear_value v)) | (extract_lets +onlyGivenNames v; clear_value v) | (simp (maxDischargeDepth := 99) +contextual [*]; done) | (refine State.good_forAll _ _ (fun _ _ _ => ?_) ?_) | (refine State.good_iter _ _ (fun _ _ _ => ?_) ?_) | (refine State.ctxCommand_good _ _ _ _ (fun _ => ?_) ?_) | (refine State.pfCommand_good _ _ _ _ (fun _ => ?_) ?_) | split)

theorem execSoftmax_good {pend : List Instr} (c t : Nat) (s : State) (hg : s.Good pend) :
    Out.Good pend (execSoftmax c t s) := by
  unfold execSoftmax
  repeat' (first | assumption | (extract_lets +onlyGivenNames v; refine (fun (hv : State.Good pend v) => ?_) ?_; (on_goal 2 => subst v); (on_goal 1 => clear_value v)) | (extract_lets +onlyGivenNames v; refine (fun (hv : State.Good pend v.1) => ?_) ?_; (on_goal 2 => subst v); (on_goal 1 => clear_value v)) | (extract_lets +onlyGivenNames v; clear_value v) | (simp (maxDischargeDepth := 99) +contextual [*]; done) | (refine State.good_forAll _ _ (fun _ _ _ => ?_) ?_) | (refine State.good_iter _ _ (fun _ _ _ => ?_) ?_) | (refine State.ctxCommand_good _ _ _ _ (fun _ => ?_) ?_) | (refine State.pfCommand_good _ _ _ _ (fun _ => ?_) ?_) | split)

theorem execNormStat_good {pend : List Instr} (c t : Nat) (s : State) (hg : s.Good pend) :
    Out.Good pend (execNormStat c t s) := by
  unfold execNormStat
  repeat' (first | assumption | (extract_lets +onlyGivenNames v; refine (fun (hv : State.Good pend v) => ?_) ?_; (on_goal 2 => subst v); (on_goal 1 => clear_value v)) | (extract_lets +onlyGivenNames v; refine (fun (hv : State.Good pend v.1) => ?_) ?_; (on_goal 2 => subst v); (on_goal 1 => clear_value v)) | (extract_lets +onlyGivenNames v; clear_value v) | (simp (maxDischargeDepth := 99) +contextual [*]; done) | (refine State.good_forAll _ _ (fun _ _ _ => ?_) ?_) | (refine State.good_iter _ _ (fun _ _ _ => ?_) ?_) | (refine State.ctxCommand_good _ _ _ _ (fun _ => ?_) ?_) | (refine State.pfCommand_good _ _ _ _ (fun _ => ?_) ?_) | split)

/-! ## Machine/Matrix.lean -/

theorem execMma_good {pend : List Instr} (c t : Nat) (s : State) (hg : s.Good pend) :
    Out.Good pend (execMma c t s) := by
  unfold execMma
  repeat' (first | assumption | (extract_lets +onlyGivenNames v; refine (fun (hv : State.Good pend v) => ?_) ?_; (on_goal 2 => subst v); (on_goal 1 => clear_value v)) | (extract_lets +onlyGivenNames v; refine (fun (hv : State.Good pend v.1) => ?_) ?_; (on_goal 2 => subst v); (on_goal 1 => clear_value v)) | (extract_lets +onlyGivenNames v; clear_value v) | (simp (maxDischargeDepth := 99) +contextual [*]; done) | (refine State.good_forAll _ _ (fun _ _ _ => ?_) ?_) | (refine State.good_iter _ _ (fun _ _ _ => ?_) ?_) | (refine State.ctxCommand_good _ _ _ _ (fun _ => ?_) ?_) | (refine State.pfCommand_good _ _ _ _ (fun _ => ?_) ?_) | split)

theorem execMmaSparse_good {pend : List Instr} (c t : Nat) (s : State) (hg : s.Good pend) :
    Out.Good pend (execMmaSparse c t s) := by
  unfold execMmaSparse
  repeat' (first | assumption | (extract_lets +onlyGivenNames v; refine (fun (hv : State.Good pend v) => ?_) ?_; (on_goal 2 => subst v); (on_goal 1 => clear_value v)) | (extract_lets +onlyGivenNames v; refine (fun (hv : State.Good pend v.1) => ?_) ?_; (on_goal 2 => subst v); (on_goal 1 => clear_value v)) | (extract_lets +onlyGivenNames v; clear_value v) | (simp (maxDischargeDepth := 99) +contextual [*]; done) | (refine State.good_forAll _ _ (fun _ _ _ => ?_) ?_) | (refine State.good_iter _ _ (fun _ _ _ => ?_) ?_) | (refine State.ctxCommand_good _ _ _ _ (fun _ => ?_) ?_) | (refine State.pfCommand_good _ _ _ _ (fun _ => ?_) ?_) | split)

theorem execConv_good {pend : List Instr} (c t : Nat) (s : State) (hg : s.Good pend) :
    Out.Good pend (execConv c t s) := by
  unfold execConv
  repeat' (first | assumption | (extract_lets +onlyGivenNames v; refine (fun (hv : State.Good pend v) => ?_) ?_; (on_goal 2 => subst v); (on_goal 1 => clear_value v)) | (extract_lets +onlyGivenNames v; refine (fun (hv : State.Good pend v.1) => ?_) ?_; (on_goal 2 => subst v); (on_goal 1 => clear_value v)) | (extract_lets +onlyGivenNames v; clear_value v) | (simp (maxDischargeDepth := 99) +contextual [*]; done) | (refine State.good_forAll _ _ (fun _ _ _ => ?_) ?_) | (refine State.good_iter _ _ (fun _ _ _ => ?_) ?_) | (refine State.ctxCommand_good _ _ _ _ (fun _ => ?_) ?_) | (refine State.pfCommand_good _ _ _ _ (fun _ => ?_) ?_) | split)

/-! ## Machine/Layout.lean -/

@[simp] theorem State.writeMap_good {pend : List Instr} (s : State) (base : Nat) (t : ByteMap)
    (hg : s.Good pend) : (State.writeMap s base t).Good pend := by
  have h := hg
  unfold State.writeMap
  exact ⟨h.queue, h.regs, h.mem, Memory.wf_foldl h.scratch _ _ _, h.hostMem, h.cache, h.ctxs, h.dies, h.pstate, h.psTarget⟩

@[simp] theorem State.putLinear_good {pend : List Instr} (s : State) (base at_ : Nat) (buf : List Byte) (poison : List (Nat × Nat))
    (hg : s.Good pend) : (State.putLinear s base at_ buf poison).Good pend := by
  unfold State.putLinear
  simp (maxDischargeDepth := 99) +contextual [hg]

@[simp] theorem State.putDiag_good {pend : List Instr} (s : State) (base line code row : Nat) (recs : List (Nat × Nat)) (buf : List Byte) (poison : List (Nat × Nat))
    (hg : s.Good pend) : (State.putDiag s base line code row recs buf poison).Good pend := by
  unfold State.putDiag
  simp (maxDischargeDepth := 99) +contextual [hg]

/-! ## Machine/Slots.lean -/

theorem execAssign_good {pend : List Instr} (c t : Nat) (s : State) (hg : s.Good pend) : Out.Good pend (execAssign c t s) := by
  unfold execAssign
  dsimp only
  repeat' (first | (simp_all (maxDischargeDepth := 99) +contextual; done) | split)

@[simp] theorem State.issueSlot_good {pend : List Instr} (s : State) (c t : Nat) (e : EntryBits) (kind : XKind) (d : Bits512)
    (hg : s.Good pend) : (State.issueSlot s c t e kind d).Good pend := by
  unfold State.issueSlot
  simp (maxDischargeDepth := 99) +contextual [hg]

theorem execSlotGather_good {pend : List Instr} (c t : Nat) (s : State) (hg : s.Good pend) : Out.Good pend (execSlotGather c t s) := by
  unfold execSlotGather
  split <;> simp_all (maxDischargeDepth := 99) +contextual

theorem execSlotScatter_good {pend : List Instr} (c t : Nat) (s : State) (hg : s.Good pend) : Out.Good pend (execSlotScatter c t s) := by
  unfold execSlotScatter
  split <;> simp_all (maxDischargeDepth := 99) +contextual

theorem execClear_good {pend : List Instr} (c t : Nat) (s : State) (hg : s.Good pend) : Out.Good pend (execClear c t s) := by
  unfold execClear
  split <;> simp_all (maxDischargeDepth := 99) +contextual

/-! ## Machine/Streams.lean -/

@[simp] theorem State.issueXfer_good {pend : List Instr} (s : State) (c t : Nat) (e : EntryBits) (k : Nat) (ctr : Option Nat) (kind : XKind) (size rate : Nat) (segs : List Seg) (cache : Bool)
    (hg : s.Good pend) : (State.issueXfer s c t e k ctr kind size rate segs cache).Good pend := by
  unfold State.issueXfer
  simp (maxDischargeDepth := 99) +contextual [hg]

@[simp] theorem State.issueStream_good {pend : List Instr} (s : State) (c t : Nat) (e : EntryBits) (kind : StreamDesc → XKind)
    (hg : s.Good pend) : (State.issueStream s c t e kind).Good pend := by
  unfold State.issueStream
  dsimp only
  repeat' (first | (simp_all (maxDischargeDepth := 99) +contextual; done) | split)

theorem execStreamIn_good {pend : List Instr} (c t : Nat) (s : State) (hg : s.Good pend) : Out.Good pend (execStreamIn c t s) := by
  unfold execStreamIn
  split <;> simp_all (maxDischargeDepth := 99) +contextual

theorem execStreamOut_good {pend : List Instr} (c t : Nat) (s : State) (hg : s.Good pend) : Out.Good pend (execStreamOut c t s) := by
  unfold execStreamOut
  split <;> simp_all (maxDischargeDepth := 99) +contextual

@[simp] theorem State.modTx_good {pend : List Instr} (s : State) (c t k : Nat) (f : TxEp → TxEp)
    (hg : s.Good pend) : (State.modTx s c t k f).Good pend := by
  unfold State.modTx
  simp (maxDischargeDepth := 99) +contextual [hg]

@[simp] theorem State.modRx_good {pend : List Instr} (s : State) (c t k : Nat) (f : RxEp → RxEp)
    (hg : s.Good pend) : (State.modRx s c t k f).Good pend := by
  unfold State.modRx
  simp (maxDischargeDepth := 99) +contextual [hg]

@[simp] theorem State.attempt_good {pend : List Instr} (s : State) (c t k : Nat) (hg : s.Good pend) : (State.attempt s c t k).Good pend := by
  unfold State.attempt
  simp (maxDischargeDepth := 99) +contextual [hg]

theorem execSend_good {pend : List Instr} (c t : Nat) (s : State) (hg : s.Good pend) : Out.Good pend (execSend c t s) := by
  unfold execSend
  dsimp only
  repeat' (first | (simp_all (maxDischargeDepth := 99) +contextual; done) | split)

theorem execSendRetry_good {pend : List Instr} (c t ep : Nat) (s : State) (hg : s.Good pend) : Out.Good pend (execSendRetry c t ep s) := by
  unfold execSendRetry
  dsimp only
  repeat' (first | (simp_all (maxDischargeDepth := 99) +contextual; done) | split)

theorem execRecv_good {pend : List Instr} (c t : Nat) (s : State) (hg : s.Good pend) : Out.Good pend (execRecv c t s) := by
  unfold execRecv
  dsimp only
  repeat' (first | (simp_all (maxDischargeDepth := 99) +contextual; done) | split)

theorem execCombine_good {pend : List Instr} (c t : Nat) (s : State) (hg : s.Good pend) : Out.Good pend (execCombine c t s) := by
  unfold execCombine
  dsimp only
  repeat' (first | (simp_all (maxDischargeDepth := 99) +contextual; done) | split)

theorem execQpush_good {pend : List Instr} (c t : Nat) (s : State) (hg : s.Good pend) : Out.Good pend (execQpush c t s) := by
  unfold execQpush
  dsimp only
  repeat' (first | (simp_all (maxDischargeDepth := 99) +contextual; done) | split)

theorem execQpop_good {pend : List Instr} (c t : Nat) (s : State) (hg : s.Good pend) : Out.Good pend (execQpop c t s) := by
  unfold execQpop
  dsimp only
  repeat' (first | (simp_all (maxDischargeDepth := 99) +contextual; done) | split)

end Sys2Proof.Machine
end

