-- ==== Sys2Proof/Laws/KeepTransfers.lean ====
section
/-! SUPPORT. What operations and meanings keep: transfers, memory requests, verdicts, collectives. -/

namespace Sys2Proof.Machine

/-! ## Machine/Accept.lean -/

@[simp] theorem State.markShadow_good {pend : List Instr} (s : State) (c : Nat) (l : List Seg) (h : s.Good pend) :
    (s.markShadow c l).Good pend := by
  unfold State.markShadow
  refine State.good_forAll _ _ (fun g t ht => ?_) ?_
  · split
    · exact ht
    · exact State.setNibble_good _ _ _ _ _ ht
  · split
    · split
      · exact h
      · split
        · exact State.vaWrite_good _ _ _ _ h
        · exact h
    · exact h

/-- What an attempt to accept answers is good. -/
def Prep.Good (pend : List Instr) (p : Prep) : Prop :=
  match p with
  | .wait => True
  | .drop t => t.Good pend
  | .fault t _ => t.Good pend
  | .go t _ => t.Good pend

theorem Prep.Good.of_eq {pend : List Instr} {p r : Prep} (h : p.Good pend) (e : p = r) : r.Good pend := e ▸ h

@[simp] theorem Prep.good_wait {pend : List Instr} : Prep.Good pend .wait := trivial

@[simp] theorem Prep.good_drop {pend : List Instr} {t : State} : Prep.Good pend (.drop t) ↔ t.Good pend := Iff.rfl

@[simp] theorem Prep.good_fault {pend : List Instr} {t : State} {k : Nat} : Prep.Good pend (.fault t k) ↔ t.Good pend := Iff.rfl

@[simp] theorem Prep.good_go {pend : List Instr} {t : State} {a : Accept} : Prep.Good pend (.go t a) ↔ t.Good pend := Iff.rfl

@[simp] theorem State.prepMem_good {pend : List Instr} (s : State) (c : Nat) (x : Xfer) (segs : List Seg) (write shadow : Bool) (buf : List Byte) (poison : List (Nat × Nat))
    (hg : s.Good pend) : Prep.Good pend (State.prepMem s c x segs write shadow buf poison) := by
  unfold State.prepMem
  repeat' (first | assumption | (extract_lets +onlyGivenNames v; refine (fun (hv : State.Good pend v) => ?_) ?_; (on_goal 2 => subst v); (on_goal 1 => clear_value v)) | (extract_lets +onlyGivenNames v; refine (fun (hv : State.Good pend v.1) => ?_) ?_; (on_goal 2 => subst v); (on_goal 1 => clear_value v)) | (extract_lets +onlyGivenNames v; clear_value v) | (simp (maxDischargeDepth := 99) +contextual [*]; done) | (refine State.good_forAll _ _ (fun _ _ _ => ?_) ?_) | (refine State.good_iter _ _ (fun _ _ _ => ?_) ?_) | split)

@[simp] theorem State.prepTile_good {pend : List Instr} (s : State) (c : Nat) (x : Xfer) (target : Nat) (buf : List Byte) (poison : List (Nat × Nat))
    (hg : s.Good pend) : Prep.Good pend (State.prepTile s c x target buf poison) := by
  unfold State.prepTile
  repeat' (first | assumption | (extract_lets +onlyGivenNames v; refine (fun (hv : State.Good pend v) => ?_) ?_; (on_goal 2 => subst v); (on_goal 1 => clear_value v)) | (extract_lets +onlyGivenNames v; refine (fun (hv : State.Good pend v.1) => ?_) ?_; (on_goal 2 => subst v); (on_goal 1 => clear_value v)) | (extract_lets +onlyGivenNames v; clear_value v) | (simp (maxDischargeDepth := 99) +contextual [*]; done) | (refine State.good_forAll _ _ (fun _ _ _ => ?_) ?_) | (refine State.good_iter _ _ (fun _ _ _ => ?_) ?_) | split)

@[simp] theorem State.prepLink_good {pend : List Instr} (s : State) (c : Nat) (x : Xfer) (node key cls : Nat) (segs : List Seg) (buf : List Byte) (poison : List (Nat × Nat)) (more : List Elem)
    (hg : s.Good pend) : Prep.Good pend (State.prepLink s c x node key cls segs buf poison more) := by
  unfold State.prepLink
  repeat' (first | assumption | (extract_lets +onlyGivenNames v; refine (fun (hv : State.Good pend v) => ?_) ?_; (on_goal 2 => subst v); (on_goal 1 => clear_value v)) | (extract_lets +onlyGivenNames v; refine (fun (hv : State.Good pend v.1) => ?_) ?_; (on_goal 2 => subst v); (on_goal 1 => clear_value v)) | (extract_lets +onlyGivenNames v; clear_value v) | (simp (maxDischargeDepth := 99) +contextual [*]; done) | (refine State.good_forAll _ _ (fun _ _ _ => ?_) ?_) | (refine State.good_iter _ _ (fun _ _ _ => ?_) ?_) | split)

@[simp] theorem State.prepPop_good {pend : List Instr} (s : State) (c link maxLen expMb : Nat) (check trunc : Bool) (x : Xfer)
    (hg : s.Good pend) : Prep.Good pend (State.prepPop s c link maxLen expMb check trunc x) := by
  unfold State.prepPop
  repeat' (first | assumption | (extract_lets +onlyGivenNames v; refine (fun (hv : State.Good pend v) => ?_) ?_; (on_goal 2 => subst v); (on_goal 1 => clear_value v)) | (extract_lets +onlyGivenNames v; refine (fun (hv : State.Good pend v.1) => ?_) ?_; (on_goal 2 => subst v); (on_goal 1 => clear_value v)) | (extract_lets +onlyGivenNames v; clear_value v) | (simp (maxDischargeDepth := 99) +contextual [*]; done) | (refine State.good_forAll _ _ (fun _ _ _ => ?_) ?_) | (refine State.good_iter _ _ (fun _ _ _ => ?_) ?_) | split)

@[simp] theorem State.prepare_good {pend : List Instr} (s : State) (c : Nat) (x : Xfer)
    (hg : s.Good pend) : Prep.Good pend (State.prepare s c x) := by
  have h := hg
  unfold State.prepare
  split
  · simp [h]
  · simp [h]
  · extract_lets
    split
    · next t a ht =>
      exact State.cWrap_good _ _ _ _ _ _ (Prep.Good.of_eq (State.prepMem_good _ _ _ _ _ _ _ _ h) ht)
    · exact State.prepMem_good _ _ _ _ _ _ _ _ h
  · extract_lets
    split
    · next t a ht =>
      exact State.cWrap_good _ _ _ _ _ _ (Prep.Good.of_eq (State.prepMem_good _ _ _ _ _ _ _ _ h) ht)
    · exact State.prepMem_good _ _ _ _ _ _ _ _ h
  · simp [h]
  · simp [h]
  · simp [h]
  · simp [h]
  · simp [h]
  · split
    · simp [h]
    · split
      · split <;> simp [h]
      · split
        · simp [h]
        · split <;> simp [h]
  · simp [h]
  · split
    · simp [h]
    · split <;> simp [h]
  · split
    · simp [h]
    · split <;> simp [h]
  · extract_lets
    split
    · simp [h]
    · split
      · next t a ht =>
        exact Prep.Good.of_eq (r := .go t a) (State.prepLink_good _ _ _ _ _ _ _ _ _ _ h) ht
      · exact State.prepLink_good _ _ _ _ _ _ _ _ _ _ h

@[simp] theorem State.sendAccepted_good {pend : List Instr} (s : State) (c id : Nat) (x : Xfer) (a : Accept)
    (hg : s.Good pend) : (State.sendAccepted s c id x a).Good pend := by
  unfold State.sendAccepted
  repeat' (first | assumption | (extract_lets +onlyGivenNames v; refine (fun (hv : State.Good pend v) => ?_) ?_; (on_goal 2 => subst v); (on_goal 1 => clear_value v)) | (extract_lets +onlyGivenNames v; refine (fun (hv : State.Good pend v.1) => ?_) ?_; (on_goal 2 => subst v); (on_goal 1 => clear_value v)) | (extract_lets +onlyGivenNames v; clear_value v) | (simp (maxDischargeDepth := 99) +contextual [*]; done) | (refine State.good_forAll _ _ (fun _ _ _ => ?_) ?_) | (refine State.good_iter _ _ (fun _ _ _ => ?_) ?_) | split)

@[simp] theorem State.departRequests_good {pend : List Instr} (s : State) (c id : Nat) (x : Xfer) (segs : List Seg) (write : Bool) (hg : s.Good pend) :
    (State.departRequests s c id x segs write).Good pend := by
  unfold State.departRequests
  repeat' (first | assumption | (extract_lets +onlyGivenNames v; refine (fun (hv : State.Good pend v) => ?_) ?_; (on_goal 2 => subst v); (on_goal 1 => clear_value v)) | (extract_lets +onlyGivenNames v; refine (fun (hv : State.Good pend v.1) => ?_) ?_; (on_goal 2 => subst v); (on_goal 1 => clear_value v)) | (extract_lets +onlyGivenNames v; clear_value v) | (simp (maxDischargeDepth := 99) +contextual [*]; done) | (refine State.good_forAll _ _ (fun _ _ _ => ?_) ?_) | (refine State.good_iter _ _ (fun _ _ _ => ?_) ?_) | split)

@[simp] theorem State.departEave_good {pend : List Instr} (s : State) (c id : Nat) (x : Xfer) (key cls n : Nat) (hg : s.Good pend) :
    (State.departEave s c id x key cls n).Good pend := by
  unfold State.departEave
  repeat' (first | assumption | (extract_lets +onlyGivenNames v; refine (fun (hv : State.Good pend v) => ?_) ?_; (on_goal 2 => subst v); (on_goal 1 => clear_value v)) | (extract_lets +onlyGivenNames v; refine (fun (hv : State.Good pend v.1) => ?_) ?_; (on_goal 2 => subst v); (on_goal 1 => clear_value v)) | (extract_lets +onlyGivenNames v; clear_value v) | (simp (maxDischargeDepth := 99) +contextual [*]; done) | (refine State.good_forAll _ _ (fun _ _ _ => ?_) ?_) | (refine State.good_iter _ _ (fun _ _ _ => ?_) ?_) | split)

@[simp] theorem State.depart_good {pend : List Instr} (s : State) (c id : Nat) (x : Xfer) (a : Accept) (hg : s.Good pend) :
    (State.depart s c id x a).Good pend := by
  unfold State.depart
  repeat' (first | assumption | (extract_lets +onlyGivenNames v; refine (fun (hv : State.Good pend v) => ?_) ?_; (on_goal 2 => subst v); (on_goal 1 => clear_value v)) | (extract_lets +onlyGivenNames v; refine (fun (hv : State.Good pend v.1) => ?_) ?_; (on_goal 2 => subst v); (on_goal 1 => clear_value v)) | (extract_lets +onlyGivenNames v; clear_value v) | (simp (maxDischargeDepth := 99) +contextual [*]; done) | (refine State.good_forAll _ _ (fun _ _ _ => ?_) ?_) | (refine State.good_iter _ _ (fun _ _ _ => ?_) ?_) | split)

@[simp] theorem State.take_good {pend : List Instr} (s : State) (c id : Nat) (x : Xfer) (a : Accept)
    (hg : s.Good pend) : (State.take s c id x a).Good pend := by
  unfold State.take
  split <;> simp_all (maxDischargeDepth := 99) +contextual

@[simp] theorem State.notePush_good {pend : List Instr} (s : State) (c : Nat) (x : Xfer) (hg : s.Good pend) :
    (State.notePush s c x).Good pend := by
  unfold State.notePush
  repeat' (first | assumption | (extract_lets +onlyGivenNames v; refine (fun (hv : State.Good pend v) => ?_) ?_; (on_goal 2 => subst v); (on_goal 1 => clear_value v)) | (extract_lets +onlyGivenNames v; refine (fun (hv : State.Good pend v.1) => ?_) ?_; (on_goal 2 => subst v); (on_goal 1 => clear_value v)) | (extract_lets +onlyGivenNames v; clear_value v) | (simp (maxDischargeDepth := 99) +contextual [*]; done) | (refine State.good_forAll _ _ (fun _ _ _ => ?_) ?_) | (refine State.good_iter _ _ (fun _ _ _ => ?_) ?_) | split)

theorem execTransferAccept_good {pend : List Instr} (c id : Nat) (s : State) (hg : s.Good pend) : Out.Good pend (execTransferAccept c id s) := by
  have h := hg
  unfold execTransferAccept
  split
  · exact h
  · next x hx =>
    split
    · exact h
    · split
      · exact h
      · split
        · exact h
        · next t ht =>
          have := State.prepare_good (pend := pend) s c x h
          rw [ht] at this
          exact State.dropXfer_good _ _ _ this
        · next t k ht =>
          have := State.prepare_good (pend := pend) s c x h
          rw [ht] at this
          exact State.ctxFault_good _ _ _ this
        · next t a ht =>
          have := State.prepare_good (pend := pend) s c x h
          rw [ht] at this
          exact State.notePush_good _ _ _ (State.take_good _ _ _ _ _ this)

/-! ## Machine/MirrorOps.lean -/

@[simp] theorem State.writeRecord_good {pend : List Instr} (s old : State) (c : Nat) (commit : Bool)
    (hg : s.Good pend) : (State.writeRecord s old c commit).Good pend := by
  have h := hg
  unfold State.writeRecord
  extract_lets +onlyGivenNames a
  split
  · exact h
  · have h1 : State.Good pend (if (s.ctx c).snapFresh then
        (s.vaWrite c a (leBytes 4 0x55565352 ++ List.replicate 252 0)).modCtx c
          fun x => { x with snapFresh := false } else s) := by
      split
      · exact State.modCtx_good _ _ _ (State.vaWrite_good _ _ _ _ h)
      · exact h
    refine State.vaWrite_good _ _ _ _ (State.vaWrite_good _ _ _ _ ?_)
    split
    · exact State.vaWrite_good _ _ _ _ (State.vaWrite_good _ _ _ _ h1)
    · exact h1

@[simp] theorem State.endMirror_good {pend : List Instr} (s : State) (c : Nat) (hg : s.Good pend) : (State.endMirror s c).Good pend := by
  unfold State.endMirror
  split <;> simp_all (maxDischargeDepth := 99) +contextual

@[simp] theorem State.pageSent_good {pend : List Instr} (s : State) (c page : Nat) (hg : s.Good pend) : (State.pageSent s c page).Good pend := by
  unfold State.pageSent
  simp (maxDischargeDepth := 99) +contextual [hg]

@[simp] theorem State.startMirror_good {pend : List Instr} (s : State) (c : Nat) (hg : s.Good pend) : (State.startMirror s c).Good pend := by
  unfold State.startMirror
  simp (maxDischargeDepth := 99) +contextual [hg]

@[simp] theorem State.sendPage_good {pend : List Instr} (s : State) (c id : Nat) (hg : s.Good pend) : (State.sendPage s c id).Good pend := by
  unfold State.sendPage
  repeat' (first | assumption | (extract_lets +onlyGivenNames v; refine (fun (hv : State.Good pend v) => ?_) ?_; (on_goal 2 => subst v); (on_goal 1 => clear_value v)) | (extract_lets +onlyGivenNames v; refine (fun (hv : State.Good pend v.1) => ?_) ?_; (on_goal 2 => subst v); (on_goal 1 => clear_value v)) | (extract_lets +onlyGivenNames v; clear_value v) | (simp (maxDischargeDepth := 99) +contextual [*]; done) | (refine State.good_forAll _ _ (fun _ _ _ => ?_) ?_) | (refine State.good_iter _ _ (fun _ _ _ => ?_) ?_) | split)

/-! ## Machine/Arrive.lean -/

@[simp] theorem State.countLate_good {pend : List Instr} (s : State) (c : Nat) (x : Xfer) (hg : s.Good pend) : (State.countLate s c x).Good pend := by
  unfold State.countLate
  repeat' (first | assumption | (extract_lets +onlyGivenNames v; refine (fun (hv : State.Good pend v) => ?_) ?_; (on_goal 2 => subst v); (on_goal 1 => clear_value v)) | (extract_lets +onlyGivenNames v; refine (fun (hv : State.Good pend v.1) => ?_) ?_; (on_goal 2 => subst v); (on_goal 1 => clear_value v)) | (extract_lets +onlyGivenNames v; clear_value v) | (simp (maxDischargeDepth := 99) +contextual [*]; done) | (refine State.good_forAll _ _ (fun _ _ _ => ?_) ?_) | (refine State.good_iter _ _ (fun _ _ _ => ?_) ?_) | split)

@[simp] theorem State.slotPoison_good {pend : List Instr} (s : State) (c : Nat) (x : Xfer)
    (hg : s.Good pend) : (State.slotPoison s c x).Good pend := by
  unfold State.slotPoison
  simp (maxDischargeDepth := 99) +contextual [hg]

@[simp] theorem State.popDeliver_good {pend : List Instr} (s : State) (c : Nat) (x : Xfer) (dstLine vload hdrLine : Nat)
    (hg : s.Good pend) : (State.popDeliver s c x dstLine vload hdrLine).Good pend := by
  unfold State.popDeliver
  simp (maxDischargeDepth := 99) +contextual [hg]

@[simp] theorem State.deliver_good {pend : List Instr} (s : State) (c : Nat) (x : Xfer) (hg : s.Good pend) : (State.deliver s c x).Good pend := by
  unfold State.deliver
  split <;> simp_all (maxDischargeDepth := 99) +contextual

@[simp] theorem State.giveTokens_good {pend : List Instr} (s : State) (c : Nat) (x : Xfer)
    (hg : s.Good pend) : (State.giveTokens s c x).Good pend := by
  unfold State.giveTokens
  repeat' (first | assumption | (extract_lets +onlyGivenNames v; refine (fun (hv : State.Good pend v) => ?_) ?_; (on_goal 2 => subst v); (on_goal 1 => clear_value v)) | (extract_lets +onlyGivenNames v; refine (fun (hv : State.Good pend v.1) => ?_) ?_; (on_goal 2 => subst v); (on_goal 1 => clear_value v)) | (extract_lets +onlyGivenNames v; clear_value v) | (simp (maxDischargeDepth := 99) +contextual [*]; done) | (refine State.good_forAll _ _ (fun _ _ _ => ?_) ?_) | (refine State.good_iter _ _ (fun _ _ _ => ?_) ?_) | split)

@[simp] theorem State.dropPush_good {pend : List Instr} (s : State) (c id : Nat) (x : Xfer) (hg : s.Good pend) :
    (State.dropPush s c id x).Good pend := by
  unfold State.dropPush
  repeat' (first | assumption | (extract_lets +onlyGivenNames v; refine (fun (hv : State.Good pend v) => ?_) ?_; (on_goal 2 => subst v); (on_goal 1 => clear_value v)) | (extract_lets +onlyGivenNames v; refine (fun (hv : State.Good pend v.1) => ?_) ?_; (on_goal 2 => subst v); (on_goal 1 => clear_value v)) | (extract_lets +onlyGivenNames v; clear_value v) | (simp (maxDischargeDepth := 99) +contextual [*]; done) | (refine State.good_forAll _ _ (fun _ _ _ => ?_) ?_) | (refine State.good_iter _ _ (fun _ _ _ => ?_) ?_) | split)

theorem execTransferArrival_good {pend : List Instr} (c id : Nat) (s : State) (hg : s.Good pend) : Out.Good pend (execTransferArrival c id s) := by
  unfold execTransferArrival
  repeat' (first | assumption | (extract_lets +onlyGivenNames v; refine (fun (hv : State.Good pend v) => ?_) ?_; (on_goal 2 => subst v); (on_goal 1 => clear_value v)) | (extract_lets +onlyGivenNames v; refine (fun (hv : State.Good pend v.1) => ?_) ?_; (on_goal 2 => subst v); (on_goal 1 => clear_value v)) | (extract_lets +onlyGivenNames v; clear_value v) | (simp (maxDischargeDepth := 99) +contextual [*]; done) | (refine State.good_forAll _ _ (fun _ _ _ => ?_) ?_) | (refine State.good_iter _ _ (fun _ _ _ => ?_) ?_) | split)

theorem execPlanRefillArrive_good {pend : List Instr} (c t id : Nat) (s : State)
    (hg : s.Good pend) : Out.Good pend (execPlanRefillArrive c t id s) := by
  unfold execPlanRefillArrive
  dsimp only
  repeat' (first | (simp_all (maxDischargeDepth := 99) +contextual; done) | split)

@[simp] theorem State.acceptMessage_good {pend : List Instr} (s : State) (c u k : Nat) (x : Xfer)
    (hg : s.Good pend) : (State.acceptMessage s c u k x).Good pend := by
  unfold State.acceptMessage
  simp (maxDischargeDepth := 99) +contextual [hg]

@[simp] theorem State.noteChan_good {pend : List Instr} (s : State) (c t ep : Nat) (rx : Bool) (lo n : Nat) (hg : s.Good pend) :
    (State.noteChan s c t ep rx lo n).Good pend := by
  unfold State.noteChan
  repeat' (first | assumption | (extract_lets +onlyGivenNames v; refine (fun (hv : State.Good pend v) => ?_) ?_; (on_goal 2 => subst v); (on_goal 1 => clear_value v)) | (extract_lets +onlyGivenNames v; refine (fun (hv : State.Good pend v.1) => ?_) ?_; (on_goal 2 => subst v); (on_goal 1 => clear_value v)) | (extract_lets +onlyGivenNames v; clear_value v) | (simp (maxDischargeDepth := 99) +contextual [*]; done) | (refine State.good_forAll _ _ (fun _ _ _ => ?_) ?_) | (refine State.good_iter _ _ (fun _ _ _ => ?_) ?_) | split)

@[simp] theorem State.departAck_good {pend : List Instr} (s : State) (c id : Nat) (x : Xfer) (u : Nat) (hg : s.Good pend) :
    (State.departAck s c id x u).Good pend := by
  unfold State.departAck
  repeat' (first | assumption | (extract_lets +onlyGivenNames v; refine (fun (hv : State.Good pend v) => ?_) ?_; (on_goal 2 => subst v); (on_goal 1 => clear_value v)) | (extract_lets +onlyGivenNames v; refine (fun (hv : State.Good pend v.1) => ?_) ?_; (on_goal 2 => subst v); (on_goal 1 => clear_value v)) | (extract_lets +onlyGivenNames v; clear_value v) | (simp (maxDischargeDepth := 99) +contextual [*]; done) | (refine State.good_forAll _ _ (fun _ _ _ => ?_) ?_) | (refine State.good_iter _ _ (fun _ _ _ => ?_) ?_) | split)

theorem execMessageArrival_good {pend : List Instr} (c id : Nat) (s : State) (hg : s.Good pend) : Out.Good pend (execMessageArrival c id s) := by
  unfold execMessageArrival
  repeat' (first | assumption | (extract_lets +onlyGivenNames v; refine (fun (hv : State.Good pend v) => ?_) ?_; (on_goal 2 => subst v); (on_goal 1 => clear_value v)) | (extract_lets +onlyGivenNames v; refine (fun (hv : State.Good pend v.1) => ?_) ?_; (on_goal 2 => subst v); (on_goal 1 => clear_value v)) | (extract_lets +onlyGivenNames v; clear_value v) | (simp (maxDischargeDepth := 99) +contextual [*]; done) | (refine State.good_forAll _ _ (fun _ _ _ => ?_) ?_) | (refine State.good_iter _ _ (fun _ _ _ => ?_) ?_) | split)

@[simp] theorem State.messageOutcome_good {pend : List Instr} (s : State) (c t ep : Nat) (ok : Bool) (why : Nat)
    (hg : s.Good pend) : (State.messageOutcome s c t ep ok why).Good pend := by
  unfold State.messageOutcome
  simp (maxDischargeDepth := 99) +contextual [hg]

theorem execAckArrival_good {pend : List Instr} (c id : Nat) (s : State) (hg : s.Good pend) : Out.Good pend (execAckArrival c id s) := by
  unfold execAckArrival
  repeat' (first | assumption | (extract_lets +onlyGivenNames v; refine (fun (hv : State.Good pend v) => ?_) ?_; (on_goal 2 => subst v); (on_goal 1 => clear_value v)) | (extract_lets +onlyGivenNames v; refine (fun (hv : State.Good pend v.1) => ?_) ?_; (on_goal 2 => subst v); (on_goal 1 => clear_value v)) | (extract_lets +onlyGivenNames v; clear_value v) | (simp (maxDischargeDepth := 99) +contextual [*]; done) | (refine State.good_forAll _ _ (fun _ _ _ => ?_) ?_) | (refine State.good_iter _ _ (fun _ _ _ => ?_) ?_) | (refine State.ctxCommand_good _ _ _ _ (fun _ => ?_) ?_) | (refine State.pfCommand_good _ _ _ _ (fun _ => ?_) ?_) | split)

theorem execCombineSum_good {pend : List Instr} (c t ep : Nat) (s : State) (hg : s.Good pend) : Out.Good pend (execCombineSum c t ep s) := by
  unfold execCombineSum
  dsimp only
  repeat' (first | (simp_all (maxDischargeDepth := 99) +contextual; done) | split)

@[simp] theorem State.tailWord_good {pend : List Instr} (s : State) (c l : Nat) (last : Bool)
    (hg : s.Good pend) : (State.tailWord s c l last).Good pend := by
  unfold State.tailWord
  simp (maxDischargeDepth := 99) +contextual [hg]

@[simp] theorem State.writeWord_good {pend : List Instr} (s : State) (c l : Nat) (e : StageLink) (w : QWord) (mb ver : BitVec 16)
    (hg : s.Good pend) : (State.writeWord s c l e w mb ver).Good pend := by
  unfold State.writeWord
  simp (maxDischargeDepth := 99) +contextual [hg]

theorem execQueueWordWrite_good {pend : List Instr} (c link id : Nat) (s : State)
    (hg : s.Good pend) : Out.Good pend (execQueueWordWrite c link id s) := by
  unfold execQueueWordWrite
  dsimp only
  repeat' (first | (simp_all (maxDischargeDepth := 99) +contextual; done) | split)

@[simp] theorem State.countPush_good {pend : List Instr} (s : State) (c l : Nat) (hg : s.Good pend) : (State.countPush s c l).Good pend := by
  unfold State.countPush
  split <;> simp_all (maxDischargeDepth := 99) +contextual

theorem execPacketArrival_good {pend : List Instr} (c link : Nat) (s : State) (hg : s.Good pend) : Out.Good pend (execPacketArrival c link s) := by
  unfold execPacketArrival
  dsimp only
  repeat' (first | (simp_all (maxDischargeDepth := 99) +contextual; done) | split)

theorem execQueueSpaceFreed_good {pend : List Instr} (c link : Nat) (s : State)
    (hg : s.Good pend) : Out.Good pend (execQueueSpaceFreed c link s) := by
  unfold execQueueSpaceFreed
  simp (maxDischargeDepth := 99) +contextual [hg]

/-! ## Machine/MemEvents.lean -/

@[simp] theorem State.landDiag_good {pend : List Instr} (s : State) (base line code row : Nat) (recs : List (Nat × Nat)) (off n : Nat) (buf : List Byte)
    (poison : List (Nat × Nat)) (hg : s.Good pend) :
    (State.landDiag s base line code row recs off n buf poison).Good pend := by
  unfold State.landDiag
  repeat' (first | assumption | (extract_lets +onlyGivenNames v; refine (fun (hv : State.Good pend v) => ?_) ?_; (on_goal 2 => subst v); (on_goal 1 => clear_value v)) | (extract_lets +onlyGivenNames v; refine (fun (hv : State.Good pend v.1) => ?_) ?_; (on_goal 2 => subst v); (on_goal 1 => clear_value v)) | (extract_lets +onlyGivenNames v; clear_value v) | (simp (maxDischargeDepth := 99) +contextual [*]; done) | (refine State.good_forAll _ _ (fun _ _ _ => ?_) ?_) | (refine State.good_iter _ _ (fun _ _ _ => ?_) ?_) | split)

@[simp] theorem State.land_good {pend : List Instr} (s : State) (c : Nat) (x : Xfer) (g : Seg) (hg : s.Good pend) :
    (State.land s c x g).Good pend := by
  unfold State.land
  repeat' (first | assumption | (extract_lets +onlyGivenNames v; refine (fun (hv : State.Good pend v) => ?_) ?_; (on_goal 2 => subst v); (on_goal 1 => clear_value v)) | (extract_lets +onlyGivenNames v; refine (fun (hv : State.Good pend v.1) => ?_) ?_; (on_goal 2 => subst v); (on_goal 1 => clear_value v)) | (extract_lets +onlyGivenNames v; clear_value v) | (simp (maxDischargeDepth := 99) +contextual [*]; done) | (refine State.good_forAll _ _ (fun _ _ _ => ?_) ?_) | (refine State.good_iter _ _ (fun _ _ _ => ?_) ?_) | split)

@[simp] theorem State.landOf_good {pend : List Instr} (s : State) (c id k : Nat) (hg : s.Good pend) :
    (State.landOf s c id k).Good pend := by
  unfold State.landOf
  repeat' (first | assumption | (extract_lets +onlyGivenNames v; refine (fun (hv : State.Good pend v) => ?_) ?_; (on_goal 2 => subst v); (on_goal 1 => clear_value v)) | (extract_lets +onlyGivenNames v; refine (fun (hv : State.Good pend v.1) => ?_) ?_; (on_goal 2 => subst v); (on_goal 1 => clear_value v)) | (extract_lets +onlyGivenNames v; clear_value v) | (simp (maxDischargeDepth := 99) +contextual [*]; done) | (refine State.good_forAll _ _ (fun _ _ _ => ?_) ?_) | (refine State.good_iter _ _ (fun _ _ _ => ?_) ?_) | split)

@[simp] theorem State.respond_good {pend : List Instr} (s : State) (c id k : Nat) (x : Xfer) (g : Seg) (hg : s.Good pend) :
    (State.respond s c id k x g).Good pend := by
  unfold State.respond
  repeat' (first | assumption | (extract_lets +onlyGivenNames v; refine (fun (hv : State.Good pend v) => ?_) ?_; (on_goal 2 => subst v); (on_goal 1 => clear_value v)) | (extract_lets +onlyGivenNames v; refine (fun (hv : State.Good pend v.1) => ?_) ?_; (on_goal 2 => subst v); (on_goal 1 => clear_value v)) | (extract_lets +onlyGivenNames v; clear_value v) | (simp (maxDischargeDepth := 99) +contextual [*]; done) | (refine State.good_forAll _ _ (fun _ _ _ => ?_) ?_) | (refine State.good_iter _ _ (fun _ _ _ => ?_) ?_) | split)

@[simp] theorem State.serveRead_good {pend : List Instr} (s : State) (c id k : Nat) (x : Xfer) (g : Seg)
    (hg : s.Good pend) : (State.serveRead s c id k x g).Good pend := by
  unfold State.serveRead
  dsimp only
  repeat' (first | (simp_all (maxDischargeDepth := 99) +contextual; done) | split)

@[simp] theorem State.serveWrite_good {pend : List Instr} (s : State) (c id k : Nat) (x : Xfer) (g : Seg)
    (hg : s.Good pend) : (State.serveWrite s c id k x g).Good pend := by
  unfold State.serveWrite
  dsimp only
  repeat' (first | (simp_all (maxDischargeDepth := 99) +contextual; done) | split)

@[simp] theorem State.atomOne_good {pend : List Instr} (s : State) (op a : Nat) (src cmp : Nat) (srcBad : Bool)
    (hg : s.Good pend) : (State.atomOne s op a src cmp srcBad).1.Good pend := by
  unfold State.atomOne
  dsimp only
  repeat' (first | (simp_all (maxDischargeDepth := 99) +contextual; done) | split)

@[simp] theorem State.serveAtomic_good {pend : List Instr} (s : State) (c id k : Nat) (x : Xfer) (g : Seg)
    (hg : s.Good pend) : (State.serveAtomic s c id k x g).Good pend := by
  unfold State.serveAtomic
  extract_lets op w n d part r bads
  have hr : r.1.Good pend := by
    simp only [r]
    split
    · refine State.good_foldl _ _ (fun a i ha => ?_) ?_
      · exact State.atomOne_good _ _ _ _ _ _ ha
      · exact State.wrap_good _ _ _ _ _ (State.slice_good _ _ _ _ _ _ hg)
    · exact State.windowErr_good _ _ hg
    · exact State.unreach_good _ _ _ hg
    · exact hg
  exact State.respond_good _ _ _ _ _ _ (State.modXfer_good _ _ _ _ (State.cSat_good _ _ _ _ _ _ (State.cWrap_good _ _ _ _ _ _ hr)))

@[simp] theorem State.waitReread_good {pend : List Instr} (s : State) (c id k t : Nat) (secs : List Nat) (hg : s.Good pend) :
    (State.waitReread s c id k t secs).Good pend := by
  unfold State.waitReread
  repeat' (first | assumption | (extract_lets +onlyGivenNames v; refine (fun (hv : State.Good pend v) => ?_) ?_; (on_goal 2 => subst v); (on_goal 1 => clear_value v)) | (extract_lets +onlyGivenNames v; refine (fun (hv : State.Good pend v.1) => ?_) ?_; (on_goal 2 => subst v); (on_goal 1 => clear_value v)) | (extract_lets +onlyGivenNames v; clear_value v) | (simp (maxDischargeDepth := 99) +contextual [*]; done) | (refine State.good_forAll _ _ (fun _ _ _ => ?_) ?_) | (refine State.good_iter _ _ (fun _ _ _ => ?_) ?_) | split)

@[simp] theorem State.meetEcc_good {pend : List Instr} (s : State) (c id k : Nat) (x : Xfer) (g : Seg) (go : State → State) (hgo : ∀ t : State, t.Good pend → (go t).Good pend) (hg : s.Good pend) :
    (State.meetEcc s c id k x g go).Good pend := by
  unfold State.meetEcc
  repeat' (first | assumption | (extract_lets +onlyGivenNames v; refine (fun (hv : State.Good pend v) => ?_) ?_; (on_goal 2 => subst v); (on_goal 1 => clear_value v)) | (extract_lets +onlyGivenNames v; refine (fun (hv : State.Good pend v.1) => ?_) ?_; (on_goal 2 => subst v); (on_goal 1 => clear_value v)) | (extract_lets +onlyGivenNames v; clear_value v) | (simp (maxDischargeDepth := 99) +contextual [*]; done) | (refine State.good_forAll _ _ (fun _ _ _ => ?_) ?_) | (refine State.good_iter _ _ (fun _ _ _ => ?_) ?_) | split)

theorem execMemoryRead_good {pend : List Instr} (c id k : Nat) (s : State) (hg : s.Good pend) :
    Out.Good pend (execMemoryRead c id k s) := by
  unfold execMemoryRead
  repeat' (first | assumption | (extract_lets +onlyGivenNames v; refine (fun (hv : State.Good pend v) => ?_) ?_; (on_goal 2 => subst v); (on_goal 1 => clear_value v)) | (extract_lets +onlyGivenNames v; refine (fun (hv : State.Good pend v.1) => ?_) ?_; (on_goal 2 => subst v); (on_goal 1 => clear_value v)) | (extract_lets +onlyGivenNames v; clear_value v) | (simp (maxDischargeDepth := 99) +contextual [*]; done) | (refine State.good_forAll _ _ (fun _ _ _ => ?_) ?_) | (refine State.good_iter _ _ (fun _ _ _ => ?_) ?_) | (refine State.ctxCommand_good _ _ _ _ (fun _ => ?_) ?_) | (refine State.pfCommand_good _ _ _ _ (fun _ => ?_) ?_) | split)

theorem execMemoryWrite_good {pend : List Instr} (c id k : Nat) (s : State) (hg : s.Good pend) :
    Out.Good pend (execMemoryWrite c id k s) := by
  unfold execMemoryWrite
  repeat' (first | assumption | (extract_lets +onlyGivenNames v; refine (fun (hv : State.Good pend v) => ?_) ?_; (on_goal 2 => subst v); (on_goal 1 => clear_value v)) | (extract_lets +onlyGivenNames v; refine (fun (hv : State.Good pend v.1) => ?_) ?_; (on_goal 2 => subst v); (on_goal 1 => clear_value v)) | (extract_lets +onlyGivenNames v; clear_value v) | (simp (maxDischargeDepth := 99) +contextual [*]; done) | (refine State.good_forAll _ _ (fun _ _ _ => ?_) ?_) | (refine State.good_iter _ _ (fun _ _ _ => ?_) ?_) | (refine State.ctxCommand_good _ _ _ _ (fun _ => ?_) ?_) | (refine State.pfCommand_good _ _ _ _ (fun _ => ?_) ?_) | split)

@[simp] theorem State.noteAtom_good {pend : List Instr} (s : State) (c : Nat) (x : Xfer) (g : Seg) (hg : s.Good pend) :
    (State.noteAtom s c x g).Good pend := by
  unfold State.noteAtom
  repeat' (first | assumption | (extract_lets +onlyGivenNames v; refine (fun (hv : State.Good pend v) => ?_) ?_; (on_goal 2 => subst v); (on_goal 1 => clear_value v)) | (extract_lets +onlyGivenNames v; refine (fun (hv : State.Good pend v.1) => ?_) ?_; (on_goal 2 => subst v); (on_goal 1 => clear_value v)) | (extract_lets +onlyGivenNames v; clear_value v) | (simp (maxDischargeDepth := 99) +contextual [*]; done) | (refine State.good_forAll _ _ (fun _ _ _ => ?_) ?_) | (refine State.good_iter _ _ (fun _ _ _ => ?_) ?_) | split)

theorem execAtomicApply_good {pend : List Instr} (c id k : Nat) (s : State) (hg : s.Good pend) : Out.Good pend (execAtomicApply c id k s) := by
  unfold execAtomicApply
  repeat' (first | assumption | (extract_lets +onlyGivenNames v; refine (fun (hv : State.Good pend v) => ?_) ?_; (on_goal 2 => subst v); (on_goal 1 => clear_value v)) | (extract_lets +onlyGivenNames v; refine (fun (hv : State.Good pend v.1) => ?_) ?_; (on_goal 2 => subst v); (on_goal 1 => clear_value v)) | (extract_lets +onlyGivenNames v; clear_value v) | (simp (maxDischargeDepth := 99) +contextual [*]; done) | (refine State.good_forAll _ _ (fun _ _ _ => ?_) ?_) | (refine State.good_iter _ _ (fun _ _ _ => ?_) ?_) | split)

@[simp] theorem State.resume_good {pend : List Instr} (s : State) (r : Reread) (hg : s.Good pend) : (State.resume s r).Good pend := by
  unfold State.resume
  repeat' (first | assumption | (extract_lets +onlyGivenNames v; refine (fun (hv : State.Good pend v) => ?_) ?_; (on_goal 2 => subst v); (on_goal 1 => clear_value v)) | (extract_lets +onlyGivenNames v; refine (fun (hv : State.Good pend v.1) => ?_) ?_; (on_goal 2 => subst v); (on_goal 1 => clear_value v)) | (extract_lets +onlyGivenNames v; clear_value v) | (simp (maxDischargeDepth := 99) +contextual [*]; done) | (refine State.good_forAll _ _ (fun _ _ _ => ?_) ?_) | (refine State.good_iter _ _ (fun _ _ _ => ?_) ?_) | split)

theorem execEccReread_good {pend : List Instr} (stack sector : Nat) (s : State) (hg : s.Good pend) :
    Out.Good pend (execEccReread stack sector s) := by
  unfold execEccReread
  repeat' (first | assumption | (extract_lets +onlyGivenNames v; refine (fun (hv : State.Good pend v) => ?_) ?_; (on_goal 2 => subst v); (on_goal 1 => clear_value v)) | (extract_lets +onlyGivenNames v; refine (fun (hv : State.Good pend v.1) => ?_) ?_; (on_goal 2 => subst v); (on_goal 1 => clear_value v)) | (extract_lets +onlyGivenNames v; clear_value v) | (simp (maxDischargeDepth := 99) +contextual [*]; done) | (refine State.good_forAll _ _ (fun _ _ _ => ?_) ?_) | (refine State.good_iter _ _ (fun _ _ _ => ?_) ?_) | (refine State.ctxCommand_good _ _ _ _ (fun _ => ?_) ?_) | (refine State.pfCommand_good _ _ _ _ (fun _ => ?_) ?_) | split)

theorem execCeRateWindow_good {pend : List Instr} (t : Nat) (s : State) (hg : s.Good pend) : Out.Good pend (execCeRateWindow t s) := by
  unfold execCeRateWindow
  dsimp only
  repeat' (first | (simp_all (maxDischargeDepth := 99) +contextual; done) | split)

theorem execRefreshRateChange_good {pend : List Instr} (t temp : Nat) (s : State)
    (hg : s.Good pend) : Out.Good pend (execRefreshRateChange t temp s) := by
  unfold execRefreshRateChange
  simp (maxDischargeDepth := 99) +contextual [hg]

@[simp] theorem State.strike_good {pend : List Instr} (s : State) (t : Nat) (errors : List (Nat × Upset)) (hg : s.Good pend) :
    (State.strike s t errors).Good pend := by
  unfold State.strike
  repeat' (first | assumption | (extract_lets +onlyGivenNames v; refine (fun (hv : State.Good pend v) => ?_) ?_; (on_goal 2 => subst v); (on_goal 1 => clear_value v)) | (extract_lets +onlyGivenNames v; refine (fun (hv : State.Good pend v.1) => ?_) ?_; (on_goal 2 => subst v); (on_goal 1 => clear_value v)) | (extract_lets +onlyGivenNames v; clear_value v) | (simp (maxDischargeDepth := 99) +contextual [*]; done) | (refine State.good_forAll _ _ (fun _ _ _ => ?_) ?_) | (refine State.good_iter _ _ (fun _ _ _ => ?_) ?_) | split)

theorem execRefreshTick_good {pend : List Instr} (t : Nat) (errors : List (Nat × Upset)) (s : State) (hg : s.Good pend) :
    Out.Good pend (execRefreshTick t errors s) := by
  unfold execRefreshTick
  repeat' (first | assumption | (extract_lets +onlyGivenNames v; refine (fun (hv : State.Good pend v) => ?_) ?_; (on_goal 2 => subst v); (on_goal 1 => clear_value v)) | (extract_lets +onlyGivenNames v; refine (fun (hv : State.Good pend v.1) => ?_) ?_; (on_goal 2 => subst v); (on_goal 1 => clear_value v)) | (extract_lets +onlyGivenNames v; clear_value v) | (simp (maxDischargeDepth := 99) +contextual [*]; done) | (refine State.good_forAll _ _ (fun _ _ _ => ?_) ?_) | (refine State.good_iter _ _ (fun _ _ _ => ?_) ?_) | (refine State.ctxCommand_good _ _ _ _ (fun _ => ?_) ?_) | (refine State.pfCommand_good _ _ _ _ (fun _ => ?_) ?_) | split)

/-! ## Machine/Verdict.lean -/

@[simp] theorem State.collSts_good {pend : List Instr} (s : State) (c group code : Nat)
    (hg : s.Good pend) : (State.collSts s c group code).Good pend := by
  unfold State.collSts
  simp (maxDischargeDepth := 99) +contextual [hg]

@[simp] theorem State.issueVerdict_good {pend : List Instr} (s : State) (c t : Nat) (e : EntryBits) (x : Slot)
    (hg : s.Good pend) : (State.issueVerdict s c t e x).Good pend := by
  unfold State.issueVerdict
  simp (maxDischargeDepth := 99) +contextual [hg]

theorem execVerdict_good {pend : List Instr} (c t : Nat) (s : State) (hg : s.Good pend) : Out.Good pend (execVerdict c t s) := by
  unfold execVerdict
  repeat' (first | assumption | (extract_lets +onlyGivenNames v; refine (fun (hv : State.Good pend v) => ?_) ?_; (on_goal 2 => subst v); (on_goal 1 => clear_value v)) | (extract_lets +onlyGivenNames v; refine (fun (hv : State.Good pend v.1) => ?_) ?_; (on_goal 2 => subst v); (on_goal 1 => clear_value v)) | (extract_lets +onlyGivenNames v; clear_value v) | (simp (maxDischargeDepth := 99) +contextual [*]; done) | (refine State.good_forAll _ _ (fun _ _ _ => ?_) ?_) | (refine State.good_iter _ _ (fun _ _ _ => ?_) ?_) | split)

theorem execCommitIf_good {pend : List Instr} (c t : Nat) (s : State) (hg : s.Good pend) : Out.Good pend (execCommitIf c t s) := by
  unfold execCommitIf
  repeat' (first | assumption | (extract_lets +onlyGivenNames v; refine (fun (hv : State.Good pend v) => ?_) ?_; (on_goal 2 => subst v); (on_goal 1 => clear_value v)) | (extract_lets +onlyGivenNames v; refine (fun (hv : State.Good pend v.1) => ?_) ?_; (on_goal 2 => subst v); (on_goal 1 => clear_value v)) | (extract_lets +onlyGivenNames v; clear_value v) | (simp (maxDischargeDepth := 99) +contextual [*]; done) | (refine State.good_forAll _ _ (fun _ _ _ => ?_) ?_) | (refine State.good_iter _ _ (fun _ _ _ => ?_) ?_) | split)

@[simp] theorem State.decidePages_good {pend : List Instr} (s : State) (c code : Nat)
    (hg : s.Good pend) : (State.decidePages s c code).Good pend := by
  unfold State.decidePages
  simp (maxDischargeDepth := 99) +contextual [hg]

@[simp] theorem State.decideRegs_good {pend : List Instr} (s : State) (c code : Nat) (flags : BitVec 8) (stride : Word) (ncontrib : Nat) (g : Option (F32 × F32))
    (hg : s.Good pend) : (State.decideRegs s c code flags stride ncontrib g).Good pend := by
  unfold State.decideRegs
  repeat' (first | assumption | (extract_lets +onlyGivenNames v; refine (fun (hv : State.Good pend v) => ?_) ?_; (on_goal 2 => subst v); (on_goal 1 => clear_value v)) | (extract_lets +onlyGivenNames v; refine (fun (hv : State.Good pend v.1) => ?_) ?_; (on_goal 2 => subst v); (on_goal 1 => clear_value v)) | (extract_lets +onlyGivenNames v; clear_value v) | (simp (maxDischargeDepth := 99) +contextual [*]; done) | (refine State.good_forAll _ _ (fun _ _ _ => ?_) ?_) | (refine State.good_iter _ _ (fun _ _ _ => ?_) ?_) | split)

@[simp] theorem State.commitCkpt_good {pend : List Instr} (s : State) (c : Nat) (hg : s.Good pend) : (State.commitCkpt s c).Good pend := by
  unfold State.commitCkpt
  simp (maxDischargeDepth := 99) +contextual [hg]

@[simp] theorem State.finalEffects_good {pend : List Instr} (s : State) (c code : Nat) (flags : BitVec 8) (r : Running) (x : Slot)
    (hg : s.Good pend) : (State.finalEffects s c code flags r x).Good pend := by
  unfold State.finalEffects
  simp (maxDischargeDepth := 99) +contextual [hg]

@[simp] theorem State.applyDecision_good {pend : List Instr} (s : State) (c : Nat) (q : BitVec 32) (v : Nat) (d : Decision)
    (hg : s.Good pend) : (State.applyDecision s c q v d).Good pend := by
  unfold State.applyDecision
  split
  · exact hg
  · split
    · exact hg
    · split
      · exact hg
      · extract_lets code a b y src r1 s1 s2
        have h1 : s1.Good pend := by
          refine State.wf_good _ _ _ _ _ (State.wf_good _ _ _ _ _ (State.wf_good _ _ _ _ _ (State.wf_good _ _ _ _ _
            (State.wf_good _ _ _ _ _ ?_))))
          exact State.modLaunch_good _ _ _ _ hg
        have h2 : s2.Good pend := State.good_ite _ _ _ (fun _ => State.finalEffects_good _ _ _ _ _ _ h1) fun _ => h1
        exact State.modCtx_good _ _ _ (State.good_forAll _ _ (fun k t ht => State.addTokens_good _ _ _ _ _ ht) h2)

@[simp] theorem State.noteDue_good {pend : List Instr} (s : State) (c : Nat) (d : Due) (hg : s.Good pend) :
    (State.noteDue s c d).Good pend := by
  unfold State.noteDue
  repeat' (first | assumption | (extract_lets +onlyGivenNames v; refine (fun (hv : State.Good pend v) => ?_) ?_; (on_goal 2 => subst v); (on_goal 1 => clear_value v)) | (extract_lets +onlyGivenNames v; refine (fun (hv : State.Good pend v.1) => ?_) ?_; (on_goal 2 => subst v); (on_goal 1 => clear_value v)) | (extract_lets +onlyGivenNames v; clear_value v) | (simp (maxDischargeDepth := 99) +contextual [*]; done) | (refine State.good_forAll _ _ (fun _ _ _ => ?_) ?_) | (refine State.good_iter _ _ (fun _ _ _ => ?_) ?_) | split)

@[simp] theorem State.applyDue_good {pend : List Instr} (s : State) (c : Nat) (hg : s.Good pend) :
    (State.applyDue s c).Good pend := by
  unfold State.applyDue
  repeat' (first | assumption | (extract_lets +onlyGivenNames v; refine (fun (hv : State.Good pend v) => ?_) ?_; (on_goal 2 => subst v); (on_goal 1 => clear_value v)) | (extract_lets +onlyGivenNames v; refine (fun (hv : State.Good pend v.1) => ?_) ?_; (on_goal 2 => subst v); (on_goal 1 => clear_value v)) | (extract_lets +onlyGivenNames v; clear_value v) | (simp (maxDischargeDepth := 99) +contextual [*]; done) | (refine State.good_forAll _ _ (fun _ _ _ => ?_) ?_) | (refine State.good_iter _ _ (fun _ _ _ => ?_) ?_) | split)

@[simp] theorem State.rootDecide_good {pend : List Instr} (s : State) (c : Nat) (q : BitVec 32) (v : Nat)
    (hg : s.Good pend) : (State.rootDecide s c q v).Good pend := by
  unfold State.rootDecide
  repeat' (first | assumption | (extract_lets +onlyGivenNames v; refine (fun (hv : State.Good pend v) => ?_) ?_; (on_goal 2 => subst v); (on_goal 1 => clear_value v)) | (extract_lets +onlyGivenNames v; refine (fun (hv : State.Good pend v.1) => ?_) ?_; (on_goal 2 => subst v); (on_goal 1 => clear_value v)) | (extract_lets +onlyGivenNames v; clear_value v) | (simp (maxDischargeDepth := 99) +contextual [*]; done) | (refine State.good_forAll _ _ (fun _ _ _ => ?_) ?_) | (refine State.good_iter _ _ (fun _ _ _ => ?_) ?_) | split)

@[simp] theorem State.stageMiss_good {pend : List Instr} (s : State) (c start bound : Nat)
    (hg : s.Good pend) : (State.stageMiss s c start bound).Good pend := by
  unfold State.stageMiss
  simp (maxDischargeDepth := 99) +contextual [hg]

theorem execPackageStageEnd_good {pend : List Instr} (c slot : Nat) (s : State)
    (hg : s.Good pend) : Out.Good pend (execPackageStageEnd c slot s) := by
  unfold execPackageStageEnd
  repeat' (first | assumption | (extract_lets +onlyGivenNames v; refine (fun (hv : State.Good pend v) => ?_) ?_; (on_goal 2 => subst v); (on_goal 1 => clear_value v)) | (extract_lets +onlyGivenNames v; refine (fun (hv : State.Good pend v.1) => ?_) ?_; (on_goal 2 => subst v); (on_goal 1 => clear_value v)) | (extract_lets +onlyGivenNames v; clear_value v) | (simp (maxDischargeDepth := 99) +contextual [*]; done) | (refine State.good_forAll _ _ (fun _ _ _ => ?_) ?_) | (refine State.good_iter _ _ (fun _ _ _ => ?_) ?_) | split)

@[simp] theorem State.castVote_good {pend : List Instr} (s : State) (c v : Nat) (r : Running) (x : Slot) (p : Contribution)
    (hg : s.Good pend) : (State.castVote s c v r x p).Good pend := by
  unfold State.castVote
  repeat' (first | assumption | (extract_lets +onlyGivenNames v; refine (fun (hv : State.Good pend v) => ?_) ?_; (on_goal 2 => subst v); (on_goal 1 => clear_value v)) | (extract_lets +onlyGivenNames v; refine (fun (hv : State.Good pend v.1) => ?_) ?_; (on_goal 2 => subst v); (on_goal 1 => clear_value v)) | (extract_lets +onlyGivenNames v; clear_value v) | (simp (maxDischargeDepth := 99) +contextual [*]; done) | (refine State.good_forAll _ _ (fun _ _ _ => ?_) ?_) | (refine State.good_iter _ _ (fun _ _ _ => ?_) ?_) | split)

theorem execVoteSend_good {pend : List Instr} (c slot : Nat) (s : State) (hg : s.Good pend) : Out.Good pend (execVoteSend c slot s) := by
  unfold execVoteSend
  repeat' (first | assumption | (extract_lets +onlyGivenNames v; refine (fun (hv : State.Good pend v) => ?_) ?_; (on_goal 2 => subst v); (on_goal 1 => clear_value v)) | (extract_lets +onlyGivenNames v; refine (fun (hv : State.Good pend v.1) => ?_) ?_; (on_goal 2 => subst v); (on_goal 1 => clear_value v)) | (extract_lets +onlyGivenNames v; clear_value v) | (simp (maxDischargeDepth := 99) +contextual [*]; done) | (refine State.good_forAll _ _ (fun _ _ _ => ?_) ?_) | (refine State.good_iter _ _ (fun _ _ _ => ?_) ?_) | split)

@[simp] theorem State.takeVote_good {pend : List Instr} (s : State) (c gi : Nat) (seq : BitVec 32) (v : Nat) (x : VoteRec)
    (hg : s.Good pend) : (State.takeVote s c gi seq v x).Good pend := by
  unfold State.takeVote
  repeat' (first | assumption | (extract_lets +onlyGivenNames v; refine (fun (hv : State.Good pend v) => ?_) ?_; (on_goal 2 => subst v); (on_goal 1 => clear_value v)) | (extract_lets +onlyGivenNames v; refine (fun (hv : State.Good pend v.1) => ?_) ?_; (on_goal 2 => subst v); (on_goal 1 => clear_value v)) | (extract_lets +onlyGivenNames v; clear_value v) | (simp (maxDischargeDepth := 99) +contextual [*]; done) | (refine State.good_forAll _ _ (fun _ _ _ => ?_) ?_) | (refine State.good_iter _ _ (fun _ _ _ => ?_) ?_) | split)

@[simp] theorem State.takeDecide_good {pend : List Instr} (s : State) (c gi : Nat) (seq : BitVec 32) (v : Nat) (d : Decision)
    (hg : s.Good pend) : (State.takeDecide s c gi seq v d).Good pend := by
  unfold State.takeDecide
  repeat' (first | assumption | (extract_lets +onlyGivenNames v; refine (fun (hv : State.Good pend v) => ?_) ?_; (on_goal 2 => subst v); (on_goal 1 => clear_value v)) | (extract_lets +onlyGivenNames v; refine (fun (hv : State.Good pend v.1) => ?_) ?_; (on_goal 2 => subst v); (on_goal 1 => clear_value v)) | (extract_lets +onlyGivenNames v; clear_value v) | (simp (maxDischargeDepth := 99) +contextual [*]; done) | (refine State.good_forAll _ _ (fun _ _ _ => ?_) ?_) | (refine State.good_iter _ _ (fun _ _ _ => ?_) ?_) | split)

theorem execCheckpointTrigger_good {pend : List Instr} (c cause die : Nat) (s : State)
    (hg : s.Good pend) : Out.Good pend (execCheckpointTrigger c cause die s) := by
  unfold execCheckpointTrigger
  repeat' (first | assumption | (extract_lets +onlyGivenNames v; refine (fun (hv : State.Good pend v) => ?_) ?_; (on_goal 2 => subst v); (on_goal 1 => clear_value v)) | (extract_lets +onlyGivenNames v; refine (fun (hv : State.Good pend v.1) => ?_) ?_; (on_goal 2 => subst v); (on_goal 1 => clear_value v)) | (extract_lets +onlyGivenNames v; clear_value v) | (simp (maxDischargeDepth := 99) +contextual [*]; done) | (refine State.good_forAll _ _ (fun _ _ _ => ?_) ?_) | (refine State.good_iter _ _ (fun _ _ _ => ?_) ?_) | split)

theorem execCheckpointTimer_good {pend : List Instr} (c : Nat) (s : State) (hg : s.Good pend) : Out.Good pend (execCheckpointTimer c s) := by
  unfold execCheckpointTimer
  repeat' (first | assumption | (extract_lets +onlyGivenNames v; refine (fun (hv : State.Good pend v) => ?_) ?_; (on_goal 2 => subst v); (on_goal 1 => clear_value v)) | (extract_lets +onlyGivenNames v; refine (fun (hv : State.Good pend v.1) => ?_) ?_; (on_goal 2 => subst v); (on_goal 1 => clear_value v)) | (extract_lets +onlyGivenNames v; clear_value v) | (simp (maxDischargeDepth := 99) +contextual [*]; done) | (refine State.good_forAll _ _ (fun _ _ _ => ?_) ?_) | (refine State.good_iter _ _ (fun _ _ _ => ?_) ?_) | split)

theorem execCheckpointDone_good {pend : List Instr} (c bytes : Nat) (s : State)
    (hg : s.Good pend) : Out.Good pend (execCheckpointDone c bytes s) := by
  unfold execCheckpointDone
  repeat' (first | assumption | (extract_lets +onlyGivenNames v; refine (fun (hv : State.Good pend v) => ?_) ?_; (on_goal 2 => subst v); (on_goal 1 => clear_value v)) | (extract_lets +onlyGivenNames v; refine (fun (hv : State.Good pend v.1) => ?_) ?_; (on_goal 2 => subst v); (on_goal 1 => clear_value v)) | (extract_lets +onlyGivenNames v; clear_value v) | (simp (maxDischargeDepth := 99) +contextual [*]; done) | (refine State.good_forAll _ _ (fun _ _ _ => ?_) ?_) | (refine State.good_iter _ _ (fun _ _ _ => ?_) ?_) | split)

/-! ## Machine/Coll.lean -/

@[simp] theorem State.sendLeg_good {pend : List Instr} (s : State) (c : Nat) (x : Inst) (g : Group) (l : Leg) (data : List PByte)
    (hg : s.Good pend) : (State.sendLeg s c x g l data).Good pend := by
  unfold State.sendLeg
  simp (maxDischargeDepth := 99) +contextual [hg]

@[simp] theorem State.modInst_good {pend : List Instr} (s : State) (c id : Nat) (f : Inst → Inst)
    (hg : s.Good pend) : (State.modInst s c id f).Good pend := by
  unfold State.modInst
  repeat' (first | assumption | (extract_lets +onlyGivenNames v; refine (fun (hv : State.Good pend v) => ?_) ?_; (on_goal 2 => subst v); (on_goal 1 => clear_value v)) | (extract_lets +onlyGivenNames v; refine (fun (hv : State.Good pend v.1) => ?_) ?_; (on_goal 2 => subst v); (on_goal 1 => clear_value v)) | (extract_lets +onlyGivenNames v; clear_value v) | (simp (maxDischargeDepth := 99) +contextual [*]; done) | (refine State.good_forAll _ _ (fun _ _ _ => ?_) ?_) | (refine State.good_iter _ _ (fun _ _ _ => ?_) ?_) | split)

@[simp] theorem State.retireInst_good {pend : List Instr} (s : State) (c id : Nat) (hg : s.Good pend) : (State.retireInst s c id).Good pend := by
  unfold State.retireInst
  repeat' (first | assumption | (extract_lets +onlyGivenNames v; refine (fun (hv : State.Good pend v) => ?_) ?_; (on_goal 2 => subst v); (on_goal 1 => clear_value v)) | (extract_lets +onlyGivenNames v; refine (fun (hv : State.Good pend v.1) => ?_) ?_; (on_goal 2 => subst v); (on_goal 1 => clear_value v)) | (extract_lets +onlyGivenNames v; clear_value v) | (simp (maxDischargeDepth := 99) +contextual [*]; done) | (refine State.good_forAll _ _ (fun _ _ _ => ?_) ?_) | (refine State.good_iter _ _ (fun _ _ _ => ?_) ?_) | split)

@[simp] theorem State.progress_good {pend : List Instr} (s : State) (c id : Nat) (hg : s.Good pend) : (State.progress s c id).Good pend := by
  unfold State.progress
  repeat' (first | assumption | (extract_lets +onlyGivenNames v; refine (fun (hv : State.Good pend v) => ?_) ?_; (on_goal 2 => subst v); (on_goal 1 => clear_value v)) | (extract_lets +onlyGivenNames v; refine (fun (hv : State.Good pend v.1) => ?_) ?_; (on_goal 2 => subst v); (on_goal 1 => clear_value v)) | (extract_lets +onlyGivenNames v; clear_value v) | (simp (maxDischargeDepth := 99) +contextual [*]; done) | (refine State.good_forAll _ _ (fun _ _ _ => ?_) ?_) | (refine State.good_iter _ _ (fun _ _ _ => ?_) ?_) | split)

@[simp] theorem State.putPBytes_good {pend : List Instr} (s : State) (base at_ : Nat) (l : List PByte)
    (hg : s.Good pend) : (State.putPBytes s base at_ l).Good pend := by
  unfold State.putPBytes
  simp (maxDischargeDepth := 99) +contextual [hg]

@[simp] theorem State.stagePart_good {pend : List Instr} (s : State) (c id : Nat) (g : Group) (m : CollMsg) (data : List PByte) (hg : s.Good pend) :
    (State.stagePart s c id g m data).Good pend := by
  unfold State.stagePart
  repeat' (first | assumption | (extract_lets +onlyGivenNames v; refine (fun (hv : State.Good pend v) => ?_) ?_; (on_goal 2 => subst v); (on_goal 1 => clear_value v)) | (extract_lets +onlyGivenNames v; refine (fun (hv : State.Good pend v.1) => ?_) ?_; (on_goal 2 => subst v); (on_goal 1 => clear_value v)) | (extract_lets +onlyGivenNames v; clear_value v) | (simp (maxDischargeDepth := 99) +contextual [*]; done) | (refine State.good_forAll _ _ (fun _ _ _ => ?_) ?_) | (refine State.good_iter _ _ (fun _ _ _ => ?_) ?_) | split)

@[simp] theorem State.contribute_good {pend : List Instr} (s : State) (c t id : Nat) (hg : s.Good pend) : (State.contribute s c t id).Good pend := by
  unfold State.contribute
  repeat' (first | assumption | (extract_lets +onlyGivenNames v; refine (fun (hv : State.Good pend v) => ?_) ?_; (on_goal 2 => subst v); (on_goal 1 => clear_value v)) | (extract_lets +onlyGivenNames v; refine (fun (hv : State.Good pend v.1) => ?_) ?_; (on_goal 2 => subst v); (on_goal 1 => clear_value v)) | (extract_lets +onlyGivenNames v; clear_value v) | (simp (maxDischargeDepth := 99) +contextual [*]; done) | (refine State.good_forAll _ _ (fun _ _ _ => ?_) ?_) | (refine State.good_iter _ _ (fun _ _ _ => ?_) ?_) | split)

theorem execUnitOperationComplete_good {pend : List Instr} (c t : Nat) (u : UnitKind) (s : State)
    (hg : s.Good pend) : Out.Good pend (execUnitOperationComplete c t u s) := by
  unfold execUnitOperationComplete
  repeat' (first | assumption | (extract_lets +onlyGivenNames v; refine (fun (hv : State.Good pend v) => ?_) ?_; (on_goal 2 => subst v); (on_goal 1 => clear_value v)) | (extract_lets +onlyGivenNames v; refine (fun (hv : State.Good pend v.1) => ?_) ?_; (on_goal 2 => subst v); (on_goal 1 => clear_value v)) | (extract_lets +onlyGivenNames v; clear_value v) | (simp (maxDischargeDepth := 99) +contextual [*]; done) | (refine State.good_forAll _ _ (fun _ _ _ => ?_) ?_) | (refine State.good_iter _ _ (fun _ _ _ => ?_) ?_) | split)

@[simp] theorem State.joinInst_good {pend : List Instr} (s : State) (c t : Nat) (g : Group) (k : CollOp) (y : InstTile)
    (hg : s.Good pend) : (State.joinInst s c t g k y).1.Good pend := by
  unfold State.joinInst
  repeat' (first | assumption | (extract_lets +onlyGivenNames v; refine (fun (hv : State.Good pend v) => ?_) ?_; (on_goal 2 => subst v); (on_goal 1 => clear_value v)) | (extract_lets +onlyGivenNames v; refine (fun (hv : State.Good pend v.1) => ?_) ?_; (on_goal 2 => subst v); (on_goal 1 => clear_value v)) | (extract_lets +onlyGivenNames v; clear_value v) | (simp (maxDischargeDepth := 99) +contextual [*]; done) | (refine State.good_forAll _ _ (fun _ _ _ => ?_) ?_) | (refine State.good_iter _ _ (fun _ _ _ => ?_) ?_) | split)

@[simp] theorem State.startRing_good {pend : List Instr} (s : State) (c t id : Nat) (g : Group) (data : List PByte)
    (hg : s.Good pend) : (State.startRing s c t id g data).Good pend := by
  unfold State.startRing
  repeat' (first | assumption | (extract_lets +onlyGivenNames v; refine (fun (hv : State.Good pend v) => ?_) ?_; (on_goal 2 => subst v); (on_goal 1 => clear_value v)) | (extract_lets +onlyGivenNames v; refine (fun (hv : State.Good pend v.1) => ?_) ?_; (on_goal 2 => subst v); (on_goal 1 => clear_value v)) | (extract_lets +onlyGivenNames v; clear_value v) | (simp (maxDischargeDepth := 99) +contextual [*]; done) | (refine State.good_forAll _ _ (fun _ _ _ => ?_) ?_) | (refine State.good_iter _ _ (fun _ _ _ => ?_) ?_) | split)

@[simp] theorem State.issueColl_good {pend : List Instr} (s : State) (c t : Nat) (e : EntryBits) (g : Group)
    (hg : s.Good pend) : (State.issueColl s c t e g).Good pend := by
  unfold State.issueColl
  simp (maxDischargeDepth := 99) +contextual [hg]

theorem execMmaColl_good {pend : List Instr} (c t : Nat) (s : State) (hg : s.Good pend) :
    Out.Good pend (execMmaColl c t s) := by
  unfold execMmaColl
  repeat' (first | assumption | (extract_lets +onlyGivenNames v; refine (fun (hv : State.Good pend v) => ?_) ?_; (on_goal 2 => subst v); (on_goal 1 => clear_value v)) | (extract_lets +onlyGivenNames v; refine (fun (hv : State.Good pend v.1) => ?_) ?_; (on_goal 2 => subst v); (on_goal 1 => clear_value v)) | (extract_lets +onlyGivenNames v; clear_value v) | (simp (maxDischargeDepth := 99) +contextual [*]; done) | (refine State.good_forAll _ _ (fun _ _ _ => ?_) ?_) | (refine State.good_iter _ _ (fun _ _ _ => ?_) ?_) | (refine State.ctxCommand_good _ _ _ _ (fun _ => ?_) ?_) | (refine State.pfCommand_good _ _ _ _ (fun _ => ?_) ?_) | split)

@[simp] theorem State.writeResult_good {pend : List Instr} (s : State) (c t : Nat) (x : Inst) (y : InstTile) (chunkAt : Nat) (part : Nat × Nat × List PByte)
    (hg : s.Good pend) : (State.writeResult s c t x y chunkAt part).Good pend := by
  unfold State.writeResult
  repeat' (first | assumption | (extract_lets +onlyGivenNames v; refine (fun (hv : State.Good pend v) => ?_) ?_; (on_goal 2 => subst v); (on_goal 1 => clear_value v)) | (extract_lets +onlyGivenNames v; refine (fun (hv : State.Good pend v.1) => ?_) ?_; (on_goal 2 => subst v); (on_goal 1 => clear_value v)) | (extract_lets +onlyGivenNames v; clear_value v) | (simp (maxDischargeDepth := 99) +contextual [*]; done) | (refine State.good_forAll _ _ (fun _ _ _ => ?_) ?_) | (refine State.good_iter _ _ (fun _ _ _ => ?_) ?_) | split)

@[simp] theorem State.chunkToken_good {pend : List Instr} (s : State) (c id t k : Nat) (g : Group)
    (hg : s.Good pend) : (State.chunkToken s c id t k g).Good pend := by
  unfold State.chunkToken
  simp (maxDischargeDepth := 99) +contextual [hg]

theorem execCollChunkComplete_good {pend : List Instr} (c inst t : Nat) (s : State)
    (hg : s.Good pend) : Out.Good pend (execCollChunkComplete c inst t s) := by
  have h := hg
  unfold execCollChunkComplete
  split
  · exact h
  · split
    · split
      · exact h
      · split
        · split
          · exact h
          · split
            · exact State.chunkToken_good _ _ _ _ _ _ (State.putPBytes_good _ _ _ _ h)
            · exact h
        · split
          · exact h
          · exact State.chunkToken_good _ _ _ _ _ _ (State.good_forAll _ _ (fun p u hu => State.writeResult_good _ _ _ _ _ _ _ hu) h)
    · exact h

@[simp] theorem State.takePiece_good {pend : List Instr} (s : State) (c id : Nat) (g : Group) (m : CollMsg) (data : List PByte) (hg : s.Good pend) :
    (State.takePiece s c id g m data).Good pend := by
  unfold State.takePiece
  repeat' (first | assumption | (extract_lets +onlyGivenNames v; refine (fun (hv : State.Good pend v) => ?_) ?_; (on_goal 2 => subst v); (on_goal 1 => clear_value v)) | (extract_lets +onlyGivenNames v; refine (fun (hv : State.Good pend v.1) => ?_) ?_; (on_goal 2 => subst v); (on_goal 1 => clear_value v)) | (extract_lets +onlyGivenNames v; clear_value v) | (simp (maxDischargeDepth := 99) +contextual [*]; done) | (refine State.good_forAll _ _ (fun _ _ _ => ?_) ?_) | (refine State.good_iter _ _ (fun _ _ _ => ?_) ?_) | split)

@[simp] theorem State.takeArea_good {pend : List Instr} (s : State) (c id : Nat) (gi : Nat) (m : CollMsg) (data : List PByte)
    (hg : s.Good pend) : (State.takeArea s c id gi m data).Good pend := by
  unfold State.takeArea
  simp (maxDischargeDepth := 99) +contextual [hg]

@[simp] theorem State.takeColl_good {pend : List Instr} (s : State) (c gi : Nat) (epoch : BitVec 16) (ring : Bool) (m : CollMsg) (poison : Word)
    (hg : s.Good pend) : (State.takeColl s c gi epoch ring m poison).Good pend := by
  unfold State.takeColl
  repeat' (first | assumption | (extract_lets +onlyGivenNames v; refine (fun (hv : State.Good pend v) => ?_) ?_; (on_goal 2 => subst v); (on_goal 1 => clear_value v)) | (extract_lets +onlyGivenNames v; refine (fun (hv : State.Good pend v.1) => ?_) ?_; (on_goal 2 => subst v); (on_goal 1 => clear_value v)) | (extract_lets +onlyGivenNames v; clear_value v) | (simp (maxDischargeDepth := 99) +contextual [*]; done) | (refine State.good_forAll _ _ (fun _ _ _ => ?_) ?_) | (refine State.good_iter _ _ (fun _ _ _ => ?_) ?_) | split)

@[simp] theorem State.poisonRange_good {pend : List Instr} (s : State) (base at_ n : Nat)
    (hg : s.Good pend) : (State.poisonRange s base at_ n).Good pend := by
  unfold State.poisonRange
  simp (maxDischargeDepth := 99) +contextual [hg]

@[simp] theorem State.abortInst_good {pend : List Instr} (s : State) (c id : Nat) (g : Group)
    (hg : s.Good pend) : (State.abortInst s c id g).Good pend := by
  unfold State.abortInst
  repeat' (first | assumption | (extract_lets +onlyGivenNames v; refine (fun (hv : State.Good pend v) => ?_) ?_; (on_goal 2 => subst v); (on_goal 1 => clear_value v)) | (extract_lets +onlyGivenNames v; refine (fun (hv : State.Good pend v.1) => ?_) ?_; (on_goal 2 => subst v); (on_goal 1 => clear_value v)) | (extract_lets +onlyGivenNames v; clear_value v) | (simp (maxDischargeDepth := 99) +contextual [*]; done) | (refine State.good_forAll _ _ (fun _ _ _ => ?_) ?_) | (refine State.good_iter _ _ (fun _ _ _ => ?_) ?_) | split)

end Sys2Proof.Machine
end

