-- ==== Sys2Proof/Laws/KeepFrames.lean ====
section
/-! SUPPORT. What operations and meanings keep: the link layer, guests and frames received. -/

namespace Sys2Proof.Machine

/-! ## Machine/LinkLayer.lean -/

@[simp] theorem State.openReplay_good {pend : List Instr} (s : State) (k c : Nat) (hg : s.Good pend) : (State.openReplay s k c).Good pend := by
  unfold State.openReplay
  simp (maxDischargeDepth := 99) +contextual [hg]

@[simp] theorem State.replayAbsorbed_good {pend : List Instr} (s : State) (k c : Nat)
    (hg : s.Good pend) : (State.replayAbsorbed s k c).Good pend := by
  unfold State.replayAbsorbed
  simp (maxDischargeDepth := 99) +contextual [hg]

@[simp] theorem State.ackClass_good {pend : List Instr} (s : State) (k c : Nat) (a : BitVec 32)
    (hg : s.Good pend) : (State.ackClass s k c a).Good pend := by
  unfold State.ackClass
  simp (maxDischargeDepth := 99) +contextual [hg]

@[simp] theorem State.startReplay_good {pend : List Instr} (s : State) (k c : Nat) (n : BitVec 32)
    (hg : s.Good pend) : (State.startReplay s k c n).Good pend := by
  unfold State.startReplay
  repeat' (first | assumption | (extract_lets +onlyGivenNames v; refine (fun (hv : State.Good pend v) => ?_) ?_; (on_goal 2 => subst v); (on_goal 1 => clear_value v)) | (extract_lets +onlyGivenNames v; refine (fun (hv : State.Good pend v.1) => ?_) ?_; (on_goal 2 => subst v); (on_goal 1 => clear_value v)) | (extract_lets +onlyGivenNames v; clear_value v) | (simp (maxDischargeDepth := 99) +contextual [*]; done) | (refine State.good_forAll _ _ (fun _ _ _ => ?_) ?_) | (refine State.good_iter _ _ (fun _ _ _ => ?_) ?_) | split)

@[simp] theorem State.nakClass_good {pend : List Instr} (s : State) (k c p : Nat) (n : BitVec 32)
    (hg : s.Good pend) : (State.nakClass s k c p n).Good pend := by
  unfold State.nakClass
  simp (maxDischargeDepth := 99) +contextual [hg]

@[simp] theorem State.wakeLink_good {pend : List Instr} (s : State) (k : Nat) (hg : s.Good pend) : (State.wakeLink s k).Good pend := by
  unfold State.wakeLink
  simp (maxDischargeDepth := 99) +contextual [hg]

@[simp] theorem State.eavSat_good {pend : List Instr} (s : State) (p off hi lo : Nat)
    (hg : s.Good pend) : (State.eavSat s p off hi lo).Good pend := by
  unfold State.eavSat
  simp (maxDischargeDepth := 99) +contextual [hg]

@[simp] theorem State.sawFrame_good {pend : List Instr} (s : State) (k p : Nat) (f : Frame) (hg : s.Good pend) :
    (State.sawFrame s k p f).Good pend := by
  unfold State.sawFrame
  repeat' (first | assumption | (extract_lets +onlyGivenNames v; refine (fun (hv : State.Good pend v) => ?_) ?_; (on_goal 2 => subst v); (on_goal 1 => clear_value v)) | (extract_lets +onlyGivenNames v; refine (fun (hv : State.Good pend v.1) => ?_) ?_; (on_goal 2 => subst v); (on_goal 1 => clear_value v)) | (extract_lets +onlyGivenNames v; clear_value v) | (simp (maxDischargeDepth := 99) +contextual [*]; done) | (refine State.good_forAll _ _ (fun _ _ _ => ?_) ?_) | (refine State.good_iter _ _ (fun _ _ _ => ?_) ?_) | split)

@[simp] theorem State.sendPause_good {pend : List Instr} (s : State) (p prio quanta : Nat)
    (hg : s.Good pend) : (State.sendPause s p prio quanta).Good pend := by
  unfold State.sendPause
  simp (maxDischargeDepth := 99) +contextual [hg]

@[simp] theorem State.setFill_good {pend : List Instr} (s : State) (p prio n : Nat) (hg : s.Good pend) : (State.setFill s p prio n).Good pend := by
  unfold State.setFill
  simp (maxDischargeDepth := 99) +contextual [hg]

theorem State.acceptFrame_good {pend : List Instr} (s : State) (k : Nat) (f : RxFrame) (deliver : State → State)
    (hdel : ∀ t : State, t.Good pend → (deliver t).Good pend) (h : s.Good pend) : (s.acceptFrame k f deliver).Good pend := by
  unfold State.acceptFrame
  extract_lets +onlyGivenNames hd s1 s2
  have h1 : s1.Good pend := by
    show State.Good pend (if _ then _ else _)
    split
    · exact State.ackClass_good _ _ _ _ h
    · exact h
  have h2 : s2.Good pend := State.modLc_good _ _ _ _ h1
  split
  · exact State.modPort_good _ _ _ h2
  · refine hdel _ ?_
    split
    · exact State.modLc_good _ _ _ _ h2
    · exact State.cWrap_good _ _ _ _ _ _ (State.modLc_good _ _ _ _ h2)

theorem State.sequence_good {pend : List Instr} (s : State) (k : Nat) (f : RxFrame) (deliver : State → State)
    (hdel : ∀ t : State, t.Good pend → (deliver t).Good pend) (h : s.Good pend) : (s.sequence k f deliver).Good pend := by
  unfold State.sequence
  extract_lets +onlyGivenNames hd l
  split
  · exact hdel _ h
  · split
    · split
      · exact State.setFill_good _ _ _ _ (State.modPort_good _ _ _ h)
      · exact State.acceptFrame_good _ _ _ _ hdel h
    · split
      · split
        · exact h
        · exact State.sendLinkctl_good _ _ _ h
      · exact State.modLc_good _ _ _ _ (State.sat_good _ _ _ _ _ h)

theorem State.receive_good {pend : List Instr} (s : State) (f : RxFrame) (deliver : State → State)
    (hdel : ∀ t : State, t.Good pend → (deliver t).Good pend) (h : s.Good pend) : (s.receive f deliver).Good pend := by
  unfold State.receive
  split
  · exact h
  · extract_lets +onlyGivenNames a s1
    have h1 : s1.Good pend := State.sat_good _ _ _ _ _ (State.sat_good _ _ _ _ _ h)
    split
    · exact State.sat_good _ _ _ _ _ h1
    · split
      · exact State.eavSat_good _ _ _ _ _ h1
      · split
        · exact h1
        · exact State.sequence_good _ _ _ _ hdel (State.sawFrame_good _ _ _ _ h1)

@[simp] theorem State.settlePort_good {pend : List Instr} (s : State) (p : Nat) (hg : s.Good pend) :
    (State.settlePort s p).Good pend := by
  unfold State.settlePort
  repeat' (first | assumption | (extract_lets +onlyGivenNames v; refine (fun (hv : State.Good pend v) => ?_) ?_; (on_goal 2 => subst v); (on_goal 1 => clear_value v)) | (extract_lets +onlyGivenNames v; refine (fun (hv : State.Good pend v.1) => ?_) ?_; (on_goal 2 => subst v); (on_goal 1 => clear_value v)) | (extract_lets +onlyGivenNames v; clear_value v) | (simp (maxDischargeDepth := 99) +contextual [*]; done) | (refine State.good_forAll _ _ (fun _ _ _ => ?_) ?_) | (refine State.good_iter _ _ (fun _ _ _ => ?_) ?_) | split)

@[simp] theorem State.takeShare_good {pend : List Instr} (s : State) (p c n : Nat) (hg : s.Good pend) :
    (State.takeShare s p c n).Good pend := by
  unfold State.takeShare
  repeat' (first | assumption | (extract_lets +onlyGivenNames v; refine (fun (hv : State.Good pend v) => ?_) ?_; (on_goal 2 => subst v); (on_goal 1 => clear_value v)) | (extract_lets +onlyGivenNames v; refine (fun (hv : State.Good pend v.1) => ?_) ?_; (on_goal 2 => subst v); (on_goal 1 => clear_value v)) | (extract_lets +onlyGivenNames v; clear_value v) | (simp (maxDischargeDepth := 99) +contextual [*]; done) | (refine State.good_forAll _ _ (fun _ _ _ => ?_) ?_) | (refine State.good_iter _ _ (fun _ _ _ => ?_) ?_) | split)

@[simp] theorem State.onWire_good {pend : List Instr} (s : State) (k p : Nat) (f : Frame) (again : Bool) (seq : BitVec 32)
    (hg : s.Good pend) : (State.onWire s k p f again seq).Good pend := by
  unfold State.onWire
  repeat' (first | assumption | (extract_lets +onlyGivenNames v; refine (fun (hv : State.Good pend v) => ?_) ?_; (on_goal 2 => subst v); (on_goal 1 => clear_value v)) | (extract_lets +onlyGivenNames v; refine (fun (hv : State.Good pend v.1) => ?_) ?_; (on_goal 2 => subst v); (on_goal 1 => clear_value v)) | (extract_lets +onlyGivenNames v; clear_value v) | (simp (maxDischargeDepth := 99) +contextual [*]; done) | (refine State.good_forAll _ _ (fun _ _ _ => ?_) ?_) | (refine State.good_iter _ _ (fun _ _ _ => ?_) ?_) | split)

@[simp] theorem State.sendAgain_good {pend : List Instr} (s : State) (k c p : Nat) (n : BitVec 32)
    (hg : s.Good pend) : (State.sendAgain s k c p n).Good pend := by
  unfold State.sendAgain
  repeat' (first | assumption | (extract_lets +onlyGivenNames v; refine (fun (hv : State.Good pend v) => ?_) ?_; (on_goal 2 => subst v); (on_goal 1 => clear_value v)) | (extract_lets +onlyGivenNames v; refine (fun (hv : State.Good pend v.1) => ?_) ?_; (on_goal 2 => subst v); (on_goal 1 => clear_value v)) | (extract_lets +onlyGivenNames v; clear_value v) | (simp (maxDischargeDepth := 99) +contextual [*]; done) | (refine State.good_forAll _ _ (fun _ _ _ => ?_) ?_) | (refine State.good_iter _ _ (fun _ _ _ => ?_) ?_) | split)

@[simp] theorem State.sendNew_good {pend : List Instr} (s : State) (k c p : Nat) (hg : s.Good pend) : (State.sendNew s k c p).Good pend := by
  unfold State.sendNew
  repeat' (first | assumption | (extract_lets +onlyGivenNames v; refine (fun (hv : State.Good pend v) => ?_) ?_; (on_goal 2 => subst v); (on_goal 1 => clear_value v)) | (extract_lets +onlyGivenNames v; refine (fun (hv : State.Good pend v.1) => ?_) ?_; (on_goal 2 => subst v); (on_goal 1 => clear_value v)) | (extract_lets +onlyGivenNames v; clear_value v) | (simp (maxDischargeDepth := 99) +contextual [*]; done) | (refine State.good_forAll _ _ (fun _ _ _ => ?_) ?_) | (refine State.good_iter _ _ (fun _ _ _ => ?_) ?_) | split)

theorem execFrameTransmit_good {pend : List Instr} (link cls : Nat) (s : State)
    (hg : s.Good pend) : Out.Good pend (execFrameTransmit link cls s) := by
  unfold execFrameTransmit
  repeat' (first | assumption | (extract_lets +onlyGivenNames v; refine (fun (hv : State.Good pend v) => ?_) ?_; (on_goal 2 => subst v); (on_goal 1 => clear_value v)) | (extract_lets +onlyGivenNames v; refine (fun (hv : State.Good pend v.1) => ?_) ?_; (on_goal 2 => subst v); (on_goal 1 => clear_value v)) | (extract_lets +onlyGivenNames v; clear_value v) | (simp (maxDischargeDepth := 99) +contextual [*]; done) | (refine State.good_forAll _ _ (fun _ _ _ => ?_) ?_) | (refine State.good_iter _ _ (fun _ _ _ => ?_) ?_) | split)

theorem execReplayTimer_good {pend : List Instr} (link cls : Nat) (s : State) (hg : s.Good pend) : Out.Good pend (execReplayTimer link cls s) := by
  unfold execReplayTimer
  repeat' (first | assumption | (extract_lets +onlyGivenNames v; refine (fun (hv : State.Good pend v) => ?_) ?_; (on_goal 2 => subst v); (on_goal 1 => clear_value v)) | (extract_lets +onlyGivenNames v; refine (fun (hv : State.Good pend v.1) => ?_) ?_; (on_goal 2 => subst v); (on_goal 1 => clear_value v)) | (extract_lets +onlyGivenNames v; clear_value v) | (simp (maxDischargeDepth := 99) +contextual [*]; done) | (refine State.good_forAll _ _ (fun _ _ _ => ?_) ?_) | (refine State.good_iter _ _ (fun _ _ _ => ?_) ?_) | split)

theorem execLinkctlTimer_good {pend : List Instr} (link : Nat) (s : State) (hg : s.Good pend) : Out.Good pend (execLinkctlTimer link s) := by
  unfold execLinkctlTimer
  repeat' (first | assumption | (extract_lets +onlyGivenNames v; refine (fun (hv : State.Good pend v) => ?_) ?_; (on_goal 2 => subst v); (on_goal 1 => clear_value v)) | (extract_lets +onlyGivenNames v; refine (fun (hv : State.Good pend v.1) => ?_) ?_; (on_goal 2 => subst v); (on_goal 1 => clear_value v)) | (extract_lets +onlyGivenNames v; clear_value v) | (simp (maxDischargeDepth := 99) +contextual [*]; done) | (refine State.good_forAll _ _ (fun _ _ _ => ?_) ?_) | (refine State.good_iter _ _ (fun _ _ _ => ?_) ?_) | split)

@[simp] theorem State.closeLink_good {pend : List Instr} (s : State) (k : Nat) (hg : s.Good pend) : (State.closeLink s k).Good pend := by
  unfold State.closeLink
  repeat' (first | assumption | (extract_lets +onlyGivenNames v; refine (fun (hv : State.Good pend v) => ?_) ?_; (on_goal 2 => subst v); (on_goal 1 => clear_value v)) | (extract_lets +onlyGivenNames v; refine (fun (hv : State.Good pend v.1) => ?_) ?_; (on_goal 2 => subst v); (on_goal 1 => clear_value v)) | (extract_lets +onlyGivenNames v; clear_value v) | (simp (maxDischargeDepth := 99) +contextual [*]; done) | (refine State.good_forAll _ _ (fun _ _ _ => ?_) ?_) | (refine State.good_iter _ _ (fun _ _ _ => ?_) ?_) | split)

@[simp] theorem State.linkDown_good {pend : List Instr} (s : State) (k p : Nat) (hg : s.Good pend) : (State.linkDown s k p).Good pend := by
  unfold State.linkDown
  simp (maxDischargeDepth := 99) +contextual [hg]

@[simp] theorem State.linkLoss_good {pend : List Instr} (s : State) (k p : Nat) (hg : s.Good pend) : (State.linkLoss s k p).Good pend := by
  unfold State.linkLoss
  simp (maxDischargeDepth := 99) +contextual [hg]

theorem execLinkSilenceTimeout_good {pend : List Instr} (link : Nat) (s : State)
    (hg : s.Good pend) : Out.Good pend (execLinkSilenceTimeout link s) := by
  unfold execLinkSilenceTimeout
  repeat' (first | assumption | (extract_lets +onlyGivenNames v; refine (fun (hv : State.Good pend v) => ?_) ?_; (on_goal 2 => subst v); (on_goal 1 => clear_value v)) | (extract_lets +onlyGivenNames v; refine (fun (hv : State.Good pend v.1) => ?_) ?_; (on_goal 2 => subst v); (on_goal 1 => clear_value v)) | (extract_lets +onlyGivenNames v; clear_value v) | (simp (maxDischargeDepth := 99) +contextual [*]; done) | (refine State.good_forAll _ _ (fun _ _ _ => ?_) ?_) | (refine State.good_iter _ _ (fun _ _ _ => ?_) ?_) | split)

@[simp] theorem State.portFails_good {pend : List Instr} (s : State) (p : Nat) (hg : s.Good pend) : (State.portFails s p).Good pend := by
  unfold State.portFails
  simp (maxDischargeDepth := 99) +contextual [hg]

theorem execPortSignalLoss_good {pend : List Instr} (port : Nat) (s : State) (hg : s.Good pend) : Out.Good pend (execPortSignalLoss port s) := by
  unfold execPortSignalLoss
  repeat' (first | assumption | (extract_lets +onlyGivenNames v; refine (fun (hv : State.Good pend v) => ?_) ?_; (on_goal 2 => subst v); (on_goal 1 => clear_value v)) | (extract_lets +onlyGivenNames v; refine (fun (hv : State.Good pend v.1) => ?_) ?_; (on_goal 2 => subst v); (on_goal 1 => clear_value v)) | (extract_lets +onlyGivenNames v; clear_value v) | (simp (maxDischargeDepth := 99) +contextual [*]; done) | (refine State.good_forAll _ _ (fun _ _ _ => ?_) ?_) | (refine State.good_iter _ _ (fun _ _ _ => ?_) ?_) | split)

@[simp] theorem State.replayAll_good {pend : List Instr} (s : State) (k : Nat) (hg : s.Good pend) :
    (State.replayAll s k).Good pend := by
  unfold State.replayAll
  extract_lets s1 s2
  have h2 : s2.Good pend := State.good_forAll _ _ (fun c t ht => State.startReplay_good _ _ _ _ ht) (State.modLink_good _ _ _ hg)
  exact State.good_ite _ _ _ (fun _ => State.closeWindow_good _ _ (State.modLink_good _ _ _ h2)) fun _ => h2

@[simp] theorem State.moveLink_good {pend : List Instr} (s : State) (k p : Nat) (hg : s.Good pend) : (State.moveLink s k p).Good pend := by
  unfold State.moveLink
  simp (maxDischargeDepth := 99) +contextual [hg]

theorem execLinkMove_good {pend : List Instr} (link : Nat) (s : State) (hg : s.Good pend) : Out.Good pend (execLinkMove link s) := by
  unfold execLinkMove
  dsimp only
  repeat' (first | (simp_all (maxDischargeDepth := 99) +contextual; done) | split)

theorem execReplayRateWindow_good {pend : List Instr} (e : Nat) (s : State) (hg : s.Good pend) : Out.Good pend (execReplayRateWindow e s) := by
  unfold execReplayRateWindow
  repeat' (first | assumption | (extract_lets +onlyGivenNames v; refine (fun (hv : State.Good pend v) => ?_) ?_; (on_goal 2 => subst v); (on_goal 1 => clear_value v)) | (extract_lets +onlyGivenNames v; refine (fun (hv : State.Good pend v.1) => ?_) ?_; (on_goal 2 => subst v); (on_goal 1 => clear_value v)) | (extract_lets +onlyGivenNames v; clear_value v) | (simp (maxDischargeDepth := 99) +contextual [*]; done) | (refine State.good_forAll _ _ (fun _ _ _ => ?_) ?_) | (refine State.good_iter _ _ (fun _ _ _ => ?_) ?_) | split)

theorem execPauseFrame_good {pend : List Instr} (port prio quanta : Nat) (s : State)
    (hg : s.Good pend) : Out.Good pend (execPauseFrame port prio quanta s) := by
  unfold execPauseFrame
  repeat' (first | assumption | (extract_lets +onlyGivenNames v; refine (fun (hv : State.Good pend v) => ?_) ?_; (on_goal 2 => subst v); (on_goal 1 => clear_value v)) | (extract_lets +onlyGivenNames v; refine (fun (hv : State.Good pend v.1) => ?_) ?_; (on_goal 2 => subst v); (on_goal 1 => clear_value v)) | (extract_lets +onlyGivenNames v; clear_value v) | (simp (maxDischargeDepth := 99) +contextual [*]; done) | (refine State.good_forAll _ _ (fun _ _ _ => ?_) ?_) | (refine State.good_iter _ _ (fun _ _ _ => ?_) ?_) | split)

theorem execPauseExpiry_good {pend : List Instr} (port prio : Nat) (s : State) (hg : s.Good pend) : Out.Good pend (execPauseExpiry port prio s) := by
  unfold execPauseExpiry
  repeat' (first | assumption | (extract_lets +onlyGivenNames v; refine (fun (hv : State.Good pend v) => ?_) ?_; (on_goal 2 => subst v); (on_goal 1 => clear_value v)) | (extract_lets +onlyGivenNames v; refine (fun (hv : State.Good pend v.1) => ?_) ?_; (on_goal 2 => subst v); (on_goal 1 => clear_value v)) | (extract_lets +onlyGivenNames v; clear_value v) | (simp (maxDischargeDepth := 99) +contextual [*]; done) | (refine State.good_forAll _ _ (fun _ _ _ => ?_) ?_) | (refine State.good_iter _ _ (fun _ _ _ => ?_) ?_) | split)

theorem execPauseRepeat_good {pend : List Instr} (port prio : Nat) (s : State) (hg : s.Good pend) : Out.Good pend (execPauseRepeat port prio s) := by
  unfold execPauseRepeat
  repeat' (first | assumption | (extract_lets +onlyGivenNames v; refine (fun (hv : State.Good pend v) => ?_) ?_; (on_goal 2 => subst v); (on_goal 1 => clear_value v)) | (extract_lets +onlyGivenNames v; refine (fun (hv : State.Good pend v.1) => ?_) ?_; (on_goal 2 => subst v); (on_goal 1 => clear_value v)) | (extract_lets +onlyGivenNames v; clear_value v) | (simp (maxDischargeDepth := 99) +contextual [*]; done) | (refine State.good_forAll _ _ (fun _ _ _ => ?_) ?_) | (refine State.good_iter _ _ (fun _ _ _ => ?_) ?_) | split)

theorem execPtpFrame_good {pend : List Instr} (port : Nat) (synchronised : Bool) (s : State)
    (hg : s.Good pend) : Out.Good pend (execPtpFrame port synchronised s) := by
  unfold execPtpFrame
  repeat' (first | assumption | (extract_lets +onlyGivenNames v; refine (fun (hv : State.Good pend v) => ?_) ?_; (on_goal 2 => subst v); (on_goal 1 => clear_value v)) | (extract_lets +onlyGivenNames v; refine (fun (hv : State.Good pend v.1) => ?_) ?_; (on_goal 2 => subst v); (on_goal 1 => clear_value v)) | (extract_lets +onlyGivenNames v; clear_value v) | (simp (maxDischargeDepth := 99) +contextual [*]; done) | (refine State.good_forAll _ _ (fun _ _ _ => ?_) ?_) | (refine State.good_iter _ _ (fun _ _ _ => ?_) ?_) | split)

theorem execPpsSecond_good {pend : List Instr} (s : State) (hg : s.Good pend) : Out.Good pend (execPpsSecond s) := by
  unfold execPpsSecond
  repeat' (first | assumption | (extract_lets +onlyGivenNames v; refine (fun (hv : State.Good pend v) => ?_) ?_; (on_goal 2 => subst v); (on_goal 1 => clear_value v)) | (extract_lets +onlyGivenNames v; refine (fun (hv : State.Good pend v.1) => ?_) ?_; (on_goal 2 => subst v); (on_goal 1 => clear_value v)) | (extract_lets +onlyGivenNames v; clear_value v) | (simp (maxDischargeDepth := 99) +contextual [*]; done) | (refine State.good_forAll _ _ (fun _ _ _ => ?_) ?_) | (refine State.good_iter _ _ (fun _ _ _ => ?_) ?_) | split)

theorem execOtherEthertypeFrame_good {pend : List Instr} (port : Nat) (fcsOk : Bool) (etype : BitVec 16) (s : State) (hg : s.Good pend) :
    Out.Good pend (execOtherEthertypeFrame port fcsOk etype s) := by
  unfold execOtherEthertypeFrame
  repeat' (first | assumption | (extract_lets +onlyGivenNames v; refine (fun (hv : State.Good pend v) => ?_) ?_; (on_goal 2 => subst v); (on_goal 1 => clear_value v)) | (extract_lets +onlyGivenNames v; refine (fun (hv : State.Good pend v.1) => ?_) ?_; (on_goal 2 => subst v); (on_goal 1 => clear_value v)) | (extract_lets +onlyGivenNames v; clear_value v) | (simp (maxDischargeDepth := 99) +contextual [*]; done) | (refine State.good_forAll _ _ (fun _ _ _ => ?_) ?_) | (refine State.good_iter _ _ (fun _ _ _ => ?_) ?_) | (refine State.ctxCommand_good _ _ _ _ (fun _ => ?_) ?_) | (refine State.pfCommand_good _ _ _ _ (fun _ => ?_) ?_) | split)

/-! ## Machine/Guest.lean -/

@[simp] theorem State.violation_good {pend : List Instr} (s : State) (site kind addr : Nat)
    (hg : s.Good pend) : (State.violation s site kind addr).Good pend := by
  unfold State.violation
  simp (maxDischargeDepth := 99) +contextual [hg]

@[simp] theorem State.answer_good {pend : List Instr} (s : State) (site : Nat) (a : Option (List Byte))
    (hg : s.Good pend) : (State.answer s site a).Good pend := by
  unfold State.answer
  simp (maxDischargeDepth := 99) +contextual [hg]

@[simp] theorem State.guestTouch_good {pend : List Instr} (s : State) (a n : Nat) (write alloc : Bool) (hg : s.Good pend) :
    (State.guestTouch s a n write alloc).1.Good pend := by
  unfold State.guestTouch
  repeat' (first | assumption | (extract_lets +onlyGivenNames v; refine (fun (hv : State.Good pend v) => ?_) ?_; (on_goal 2 => subst v); (on_goal 1 => clear_value v)) | (extract_lets +onlyGivenNames v; refine (fun (hv : State.Good pend v.1) => ?_) ?_; (on_goal 2 => subst v); (on_goal 1 => clear_value v)) | (extract_lets +onlyGivenNames v; clear_value v) | (simp (maxDischargeDepth := 99) +contextual [*]; done) | (refine State.good_forAll _ _ (fun _ _ _ => ?_) ?_) | (refine State.good_iter _ _ (fun _ _ _ => ?_) ?_) | split)

@[simp] theorem State.guestRead_good {pend : List Instr} (s : State) (site a n : Nat)
    (hg : s.Good pend) : (State.guestRead s site a n).Good pend := by
  unfold State.guestRead
  simp (maxDischargeDepth := 99) +contextual [hg]

@[simp] theorem State.guestWrite_good {pend : List Instr} (s : State) (a : Nat) (data : List Byte)
    (hg : s.Good pend) : (State.guestWrite s a data).Good pend := by
  unfold State.guestWrite
  simp (maxDischargeDepth := 99) +contextual [hg]

@[simp] theorem State.guestAtomic_good {pend : List Instr} (s : State) (site a op : Nat) (src cmp : Word)
    (hg : s.Good pend) : (State.guestAtomic s site a op src cmp).Good pend := by
  unfold State.guestAtomic
  repeat' (first | assumption | (extract_lets +onlyGivenNames v; refine (fun (hv : State.Good pend v) => ?_) ?_; (on_goal 2 => subst v); (on_goal 1 => clear_value v)) | (extract_lets +onlyGivenNames v; refine (fun (hv : State.Good pend v.1) => ?_) ?_; (on_goal 2 => subst v); (on_goal 1 => clear_value v)) | (extract_lets +onlyGivenNames v; clear_value v) | (simp (maxDischargeDepth := 99) +contextual [*]; done) | (refine State.good_forAll _ _ (fun _ _ _ => ?_) ?_) | (refine State.good_iter _ _ (fun _ _ _ => ?_) ?_) | split)

@[simp] theorem State.block_good {pend : List Instr} (s : State) (site : Nat) (r : GuestReq) (kind addr : Nat) (hg : s.Good pend) :
    (State.block s site r kind addr).Good pend := by
  have h1 := State.violation_good s site kind addr hg
  unfold State.block
  extract_lets s1
  split
  · exact State.answer_good _ _ _ h1
  · exact State.answer_good _ _ _ h1
  · exact State.good_ite _ _ _ (fun _ => h1) fun _ => State.answer_good _ _ _ h1
  · exact h1

@[simp] theorem State.serveGuest_good {pend : List Instr} (s : State) (site : Nat) (r : GuestReq)
    (hg : s.Good pend) : (State.serveGuest s site r).Good pend := by
  unfold State.serveGuest
  repeat' (first | assumption | (extract_lets +onlyGivenNames v; refine (fun (hv : State.Good pend v) => ?_) ?_; (on_goal 2 => subst v); (on_goal 1 => clear_value v)) | (extract_lets +onlyGivenNames v; refine (fun (hv : State.Good pend v.1) => ?_) ?_; (on_goal 2 => subst v); (on_goal 1 => clear_value v)) | (extract_lets +onlyGivenNames v; clear_value v) | (simp (maxDischargeDepth := 99) +contextual [*]; done) | (refine State.good_forAll _ _ (fun _ _ _ => ?_) ?_) | (refine State.good_iter _ _ (fun _ _ _ => ?_) ?_) | split)

@[simp] theorem State.settleSite_good {pend : List Instr} (s : State) (site : Nat) (hg : s.Good pend) :
    (State.settleSite s site).Good pend := by
  unfold State.settleSite
  repeat' (first | assumption | (extract_lets +onlyGivenNames v; refine (fun (hv : State.Good pend v) => ?_) ?_; (on_goal 2 => subst v); (on_goal 1 => clear_value v)) | (extract_lets +onlyGivenNames v; refine (fun (hv : State.Good pend v.1) => ?_) ?_; (on_goal 2 => subst v); (on_goal 1 => clear_value v)) | (extract_lets +onlyGivenNames v; clear_value v) | (simp (maxDischargeDepth := 99) +contextual [*]; done) | (refine State.good_forAll _ _ (fun _ _ _ => ?_) ?_) | (refine State.good_iter _ _ (fun _ _ _ => ?_) ?_) | split)

@[simp] theorem State.admitGuest_good {pend : List Instr} (s : State) (site : Nat) (r : GuestReq)
    (hg : s.Good pend) : (State.admitGuest s site r).Good pend := by
  unfold State.admitGuest
  simp (maxDischargeDepth := 99) +contextual [hg]

theorem execGuestRequest_good {pend : List Instr} (site : Nat) (req : GuestReq) (s : State)
    (hg : s.Good pend) : Out.Good pend (execGuestRequest site req s) := by
  unfold execGuestRequest
  repeat' (first | assumption | (extract_lets +onlyGivenNames v; refine (fun (hv : State.Good pend v) => ?_) ?_; (on_goal 2 => subst v); (on_goal 1 => clear_value v)) | (extract_lets +onlyGivenNames v; refine (fun (hv : State.Good pend v.1) => ?_) ?_; (on_goal 2 => subst v); (on_goal 1 => clear_value v)) | (extract_lets +onlyGivenNames v; clear_value v) | (simp (maxDischargeDepth := 99) +contextual [*]; done) | (refine State.good_forAll _ _ (fun _ _ _ => ?_) ?_) | (refine State.good_iter _ _ (fun _ _ _ => ?_) ?_) | (refine State.ctxCommand_good _ _ _ _ (fun _ => ?_) ?_) | (refine State.pfCommand_good _ _ _ _ (fun _ => ?_) ?_) | split)

theorem execGuestAdmit_good {pend : List Instr} (site : Nat) (s : State) (hg : s.Good pend) : Out.Good pend (execGuestAdmit site s) := by
  unfold execGuestAdmit
  repeat' (first | assumption | (extract_lets +onlyGivenNames v; refine (fun (hv : State.Good pend v) => ?_) ?_; (on_goal 2 => subst v); (on_goal 1 => clear_value v)) | (extract_lets +onlyGivenNames v; refine (fun (hv : State.Good pend v.1) => ?_) ?_; (on_goal 2 => subst v); (on_goal 1 => clear_value v)) | (extract_lets +onlyGivenNames v; clear_value v) | (simp (maxDischargeDepth := 99) +contextual [*]; done) | (refine State.good_forAll _ _ (fun _ _ _ => ?_) ?_) | (refine State.good_iter _ _ (fun _ _ _ => ?_) ?_) | split)

@[simp] theorem State.siteOff_good {pend : List Instr} (s : State) (site : Nat) (hg : s.Good pend) : (State.siteOff s site).Good pend := by
  unfold State.siteOff
  simp (maxDischargeDepth := 99) +contextual [hg]

theorem execOverpower_good {pend : List Instr} (site : Nat) (s : State) (hg : s.Good pend) : Out.Good pend (execOverpower site s) := by
  unfold execOverpower
  repeat' (first | assumption | (extract_lets +onlyGivenNames v; refine (fun (hv : State.Good pend v) => ?_) ?_; (on_goal 2 => subst v); (on_goal 1 => clear_value v)) | (extract_lets +onlyGivenNames v; refine (fun (hv : State.Good pend v.1) => ?_) ?_; (on_goal 2 => subst v); (on_goal 1 => clear_value v)) | (extract_lets +onlyGivenNames v; clear_value v) | (simp (maxDischargeDepth := 99) +contextual [*]; done) | (refine State.good_forAll _ _ (fun _ _ _ => ?_) ?_) | (refine State.good_iter _ _ (fun _ _ _ => ?_) ?_) | split)

@[simp] theorem State.takeGuest_good {pend : List Instr} (s : State) (site src : Nat) (data : List Byte)
    (hg : s.Good pend) : (State.takeGuest s site src data).Good pend := by
  unfold State.takeGuest
  simp (maxDischargeDepth := 99) +contextual [hg]

/-! ## Machine/Receive.lean -/

@[simp] theorem State.usePlace_good {pend : List Instr} (s : State) (c va : Nat) (plain : Bool) (hg : s.Good pend) :
    (State.usePlace s c va plain).Good pend := by
  unfold State.usePlace
  repeat' (first | assumption | (extract_lets +onlyGivenNames v; refine (fun (hv : State.Good pend v) => ?_) ?_; (on_goal 2 => subst v); (on_goal 1 => clear_value v)) | (extract_lets +onlyGivenNames v; refine (fun (hv : State.Good pend v.1) => ?_) ?_; (on_goal 2 => subst v); (on_goal 1 => clear_value v)) | (extract_lets +onlyGivenNames v; clear_value v) | (simp (maxDischargeDepth := 99) +contextual [*]; done) | (refine State.good_forAll _ _ (fun _ _ _ => ?_) ?_) | (refine State.good_iter _ _ (fun _ _ _ => ?_) ?_) | split)

@[simp] theorem State.vaPutP_good {pend : List Instr} (s : State) (c va : Nat) (plain : Bool) (l : List PByte)
    (hg : s.Good pend) : (State.vaPutP s c va plain l).Good pend := by
  unfold State.vaPutP
  repeat' (first | assumption | (extract_lets +onlyGivenNames v; refine (fun (hv : State.Good pend v) => ?_) ?_; (on_goal 2 => subst v); (on_goal 1 => clear_value v)) | (extract_lets +onlyGivenNames v; refine (fun (hv : State.Good pend v.1) => ?_) ?_; (on_goal 2 => subst v); (on_goal 1 => clear_value v)) | (extract_lets +onlyGivenNames v; clear_value v) | (simp (maxDischargeDepth := 99) +contextual [*]; done) | (refine State.good_forAll _ _ (fun _ _ _ => ?_) ?_) | (refine State.good_iter _ _ (fun _ _ _ => ?_) ?_) | split)

@[simp] theorem State.writeWords_good {pend : List Instr} (s : State) (c l : Nat) (e : StageLink) (ws : List QWord) (mb ver : BitVec 16)
    (hg : s.Good pend) : (State.writeWords s c l e ws mb ver).Good pend := by
  unfold State.writeWords
  simp (maxDischargeDepth := 99) +contextual [hg]

@[simp] theorem State.takeStage_good {pend : List Instr} (s : State) (c l src port : Nat) (data : List PByte) (last : Bool)
    (hg : s.Good pend) : (State.takeStage s c l src port data last).Good pend := by
  unfold State.takeStage
  repeat' (first | assumption | (extract_lets +onlyGivenNames v; refine (fun (hv : State.Good pend v) => ?_) ?_; (on_goal 2 => subst v); (on_goal 1 => clear_value v)) | (extract_lets +onlyGivenNames v; refine (fun (hv : State.Good pend v.1) => ?_) ?_; (on_goal 2 => subst v); (on_goal 1 => clear_value v)) | (extract_lets +onlyGivenNames v; clear_value v) | (simp (maxDischargeDepth := 99) +contextual [*]; done) | (refine State.good_forAll _ _ (fun _ _ _ => ?_) ?_) | (refine State.good_iter _ _ (fun _ _ _ => ?_) ?_) | split)

@[simp] theorem State.takeRecs_good {pend : List Instr} (s : State) (k port : Nat) (recs : List ClassRec)
    (hg : s.Good pend) : (State.takeRecs s k port recs).Good pend := by
  unfold State.takeRecs
  simp (maxDischargeDepth := 99) +contextual [hg]

@[simp] theorem State.takeFlows_good {pend : List Instr} (s : State) (src : Nat) (flows : List FlowRec)
    (hg : s.Good pend) : (State.takeFlows s src flows).Good pend := by
  unfold State.takeFlows
  simp (maxDischargeDepth := 99) +contextual [hg]

@[simp] theorem State.takeLinkctl_good {pend : List Instr} (s : State) (k port : Nat) (recs : List ClassRec) (flows : List FlowRec)
    (hg : s.Good pend) : (State.takeLinkctl s k port recs flows).Good pend := by
  unfold State.takeLinkctl
  simp (maxDischargeDepth := 99) +contextual [hg]

@[simp] theorem State.setHeldWord_good {pend : List Instr} (s : State) (c w : Nat) (hg : s.Good pend) : (State.setHeldWord s c w).Good pend := by
  unfold State.setHeldWord
  simp (maxDischargeDepth := 99) +contextual [hg]

@[simp] theorem State.heldBad_good {pend : List Instr} (s : State) (c : Nat) (hg : s.Good pend) : (State.heldBad s c).Good pend := by
  unfold State.heldBad
  simp (maxDischargeDepth := 99) +contextual [hg]

@[simp] theorem State.heldNibbles_good {pend : List Instr} (s : State) (c : Nat) (f : Nat → Nat)
    (hg : s.Good pend) : (State.heldNibbles s c f).Good pend := by
  unfold State.heldNibbles
  simp (maxDischargeDepth := 99) +contextual [hg]

@[simp] theorem State.mirrorReply_good {pend : List Instr} (s : State) (c src : Nat) (gen : BitVec 48) (err : Bool)
    (hg : s.Good pend) : (State.mirrorReply s c src gen err).Good pend := by
  unfold State.mirrorReply
  simp (maxDischargeDepth := 99) +contextual [hg]

@[simp] theorem State.heldStart_good {pend : List Instr} (s : State) (c : Nat) (full : Bool)
    (hg : s.Good pend) : (State.heldStart s c full).Good pend := by
  unfold State.heldStart
  simp (maxDischargeDepth := 99) +contextual [hg]

@[simp] theorem State.heldData_good {pend : List Instr} (s : State) (c : Nat) (m : MirrorMsg) (data : List PByte)
    (hg : s.Good pend) : (State.heldData s c m data).Good pend := by
  unfold State.heldData
  simp (maxDischargeDepth := 99) +contextual [hg]

@[simp] theorem State.heldEnd_good {pend : List Instr} (s : State) (c src : Nat) (m : MirrorMsg)
    (hg : s.Good pend) : (State.heldEnd s c src m).Good pend := by
  unfold State.heldEnd
  simp (maxDischargeDepth := 99) +contextual [hg]

@[simp] theorem State.takeMirror_good {pend : List Instr} (s : State) (c src : Nat) (m : MirrorMsg) (data : List PByte)
    (hg : s.Good pend) : (State.takeMirror s c src m data).Good pend := by
  unfold State.takeMirror
  repeat' (first | assumption | (extract_lets +onlyGivenNames v; refine (fun (hv : State.Good pend v) => ?_) ?_; (on_goal 2 => subst v); (on_goal 1 => clear_value v)) | (extract_lets +onlyGivenNames v; refine (fun (hv : State.Good pend v.1) => ?_) ?_; (on_goal 2 => subst v); (on_goal 1 => clear_value v)) | (extract_lets +onlyGivenNames v; clear_value v) | (simp (maxDischargeDepth := 99) +contextual [*]; done) | (refine State.good_forAll _ _ (fun _ _ _ => ?_) ?_) | (refine State.good_iter _ _ (fun _ _ _ => ?_) ?_) | split)

@[simp] theorem State.takeMirrorAck_good {pend : List Instr} (s : State) (c src : Nat) (m : MirrorMsg)
    (hg : s.Good pend) : (State.takeMirrorAck s c src m).Good pend := by
  unfold State.takeMirrorAck
  repeat' (first | assumption | (extract_lets +onlyGivenNames v; refine (fun (hv : State.Good pend v) => ?_) ?_; (on_goal 2 => subst v); (on_goal 1 => clear_value v)) | (extract_lets +onlyGivenNames v; refine (fun (hv : State.Good pend v.1) => ?_) ?_; (on_goal 2 => subst v); (on_goal 1 => clear_value v)) | (extract_lets +onlyGivenNames v; clear_value v) | (simp (maxDischargeDepth := 99) +contextual [*]; done) | (refine State.good_forAll _ _ (fun _ _ _ => ?_) ?_) | (refine State.good_iter _ _ (fun _ _ _ => ?_) ?_) | split)

@[simp] theorem State.takeRebuild_good {pend : List Instr} (s : State) (c src : Nat) (m : MirrorMsg) (data : List PByte)
    (hg : s.Good pend) : (State.takeRebuild s c src m data).Good pend := by
  unfold State.takeRebuild
  repeat' (first | assumption | (extract_lets +onlyGivenNames v; refine (fun (hv : State.Good pend v) => ?_) ?_; (on_goal 2 => subst v); (on_goal 1 => clear_value v)) | (extract_lets +onlyGivenNames v; refine (fun (hv : State.Good pend v.1) => ?_) ?_; (on_goal 2 => subst v); (on_goal 1 => clear_value v)) | (extract_lets +onlyGivenNames v; clear_value v) | (simp (maxDischargeDepth := 99) +contextual [*]; done) | (refine State.good_forAll _ _ (fun _ _ _ => ?_) ?_) | (refine State.good_iter _ _ (fun _ _ _ => ?_) ?_) | split)

@[simp] theorem State.takeIngest_good {pend : List Instr} (s : State) (c : Nat) (data : List PByte) (last : Bool)
    (hg : s.Good pend) : (State.takeIngest s c data last).Good pend := by
  unfold State.takeIngest
  simp (maxDischargeDepth := 99) +contextual [hg]

@[simp] theorem State.takeCtl_good {pend : List Instr} (s : State) (c gi src typ : Nat) (epoch : BitVec 16) (m : CtlMsg)
    (hg : s.Good pend) : (State.takeCtl s c gi src typ epoch m).Good pend := by
  unfold State.takeCtl
  repeat' (first | assumption | (extract_lets +onlyGivenNames v; refine (fun (hv : State.Good pend v) => ?_) ?_; (on_goal 2 => subst v); (on_goal 1 => clear_value v)) | (extract_lets +onlyGivenNames v; refine (fun (hv : State.Good pend v.1) => ?_) ?_; (on_goal 2 => subst v); (on_goal 1 => clear_value v)) | (extract_lets +onlyGivenNames v; clear_value v) | (simp (maxDischargeDepth := 99) +contextual [*]; done) | (refine State.good_forAll _ _ (fun _ _ _ => ?_) ?_) | (refine State.good_iter _ _ (fun _ _ _ => ?_) ?_) | split)

@[simp] theorem State.takeRelayed_good {pend : List Instr} (s : State) (port : Nat) (h : FrameHdr) (final orig typ : Nat) (m : CtlMsg) (hg : s.Good pend) :
    (State.takeRelayed s port h final orig typ m).Good pend := by
  unfold State.takeRelayed
  repeat' (first | assumption | (extract_lets +onlyGivenNames v; refine (fun (hv : State.Good pend v) => ?_) ?_; (on_goal 2 => subst v); (on_goal 1 => clear_value v)) | (extract_lets +onlyGivenNames v; refine (fun (hv : State.Good pend v.1) => ?_) ?_; (on_goal 2 => subst v); (on_goal 1 => clear_value v)) | (extract_lets +onlyGivenNames v; clear_value v) | (simp (maxDischargeDepth := 99) +contextual [*]; done) | (refine State.good_forAll _ _ (fun _ _ _ => ?_) ?_) | (refine State.good_iter _ _ (fun _ _ _ => ?_) ?_) | split)

@[simp] theorem deliverFrame_good {pend : List Instr} (f : RxFrame) (s : State) (hg : s.Good pend) : (deliverFrame f s).Good pend := by
  unfold deliverFrame
  repeat' (first | assumption | (extract_lets +onlyGivenNames v; refine (fun (hv : State.Good pend v) => ?_) ?_; (on_goal 2 => subst v); (on_goal 1 => clear_value v)) | (extract_lets +onlyGivenNames v; refine (fun (hv : State.Good pend v.1) => ?_) ?_; (on_goal 2 => subst v); (on_goal 1 => clear_value v)) | (extract_lets +onlyGivenNames v; clear_value v) | (simp (maxDischargeDepth := 99) +contextual [*]; done) | (refine State.good_forAll _ _ (fun _ _ _ => ?_) ?_) | (refine State.good_iter _ _ (fun _ _ _ => ?_) ?_) | split)

@[simp] theorem State.arrive_good {pend : List Instr} (s : State) (typ : Nat) (f : RxFrame)
    (hg : s.Good pend) : (State.arrive s typ f).Good pend := by
  have h := hg
  unfold State.arrive
  split
  · exact State.receive_good _ _ _ (fun t ht => deliverFrame_good _ _ ht) h
  · exact h

@[simp] theorem State.arriveMirror_good {pend : List Instr} (s : State) (sort : Nat) (f : RxFrame)
    (hg : s.Good pend) : (State.arriveMirror s sort f).Good pend := by
  unfold State.arriveMirror
  simp (maxDischargeDepth := 99) +contextual [hg]

theorem execVote_good {pend : List Instr} (f : RxFrame) (s : State) (hg : s.Good pend) : Out.Good pend (execVote f s) := by
  unfold execVote
  simp (maxDischargeDepth := 99) +contextual [hg]

theorem execDecide_good {pend : List Instr} (f : RxFrame) (s : State) (hg : s.Good pend) : Out.Good pend (execDecide f s) := by
  unfold execDecide
  simp (maxDischargeDepth := 99) +contextual [hg]

theorem execMirror_good {pend : List Instr} (f : RxFrame) (s : State) (hg : s.Good pend) : Out.Good pend (execMirror f s) := by
  unfold execMirror
  simp (maxDischargeDepth := 99) +contextual [hg]

theorem execMirrorAck_good {pend : List Instr} (f : RxFrame) (s : State) (hg : s.Good pend) : Out.Good pend (execMirrorAck f s) := by
  unfold execMirrorAck
  simp (maxDischargeDepth := 99) +contextual [hg]

theorem execRebuildFrame_good {pend : List Instr} (f : RxFrame) (s : State) (hg : s.Good pend) : Out.Good pend (execRebuildFrame f s) := by
  unfold execRebuildFrame
  simp (maxDischargeDepth := 99) +contextual [hg]

theorem execStage_good {pend : List Instr} (f : RxFrame) (s : State) (hg : s.Good pend) : Out.Good pend (execStage f s) := by
  unfold execStage
  simp (maxDischargeDepth := 99) +contextual [hg]

theorem execColl_good {pend : List Instr} (f : RxFrame) (s : State) (hg : s.Good pend) : Out.Good pend (execColl f s) := by
  unfold execColl
  simp (maxDischargeDepth := 99) +contextual [hg]

theorem execRing_good {pend : List Instr} (f : RxFrame) (s : State) (hg : s.Good pend) : Out.Good pend (execRing f s) := by
  unfold execRing
  simp (maxDischargeDepth := 99) +contextual [hg]

theorem execIngest_good {pend : List Instr} (f : RxFrame) (s : State) (hg : s.Good pend) : Out.Good pend (execIngest f s) := by
  unfold execIngest
  simp (maxDischargeDepth := 99) +contextual [hg]

theorem execGuest_good {pend : List Instr} (f : RxFrame) (s : State) (hg : s.Good pend) : Out.Good pend (execGuest f s) := by
  unfold execGuest
  simp (maxDischargeDepth := 99) +contextual [hg]

theorem execMgmt_good {pend : List Instr} (f : RxFrame) (s : State) (hg : s.Good pend) : Out.Good pend (execMgmt f s) := by
  unfold execMgmt
  simp (maxDischargeDepth := 99) +contextual [hg]

theorem execRelayed_good {pend : List Instr} (f : RxFrame) (s : State) (hg : s.Good pend) : Out.Good pend (execRelayed f s) := by
  unfold execRelayed
  simp (maxDischargeDepth := 99) +contextual [hg]

theorem execLinkctl_good {pend : List Instr} (f : RxFrame) (s : State) (hg : s.Good pend) : Out.Good pend (execLinkctl f s) := by
  unfold execLinkctl
  simp (maxDischargeDepth := 99) +contextual [hg]

@[simp] theorem State.drainPort_good {pend : List Instr} (s : State) (p : Nat) (hg : s.Good pend) : (State.drainPort s p).Good pend := by
  unfold State.drainPort
  repeat' (first | assumption | (extract_lets +onlyGivenNames v; refine (fun (hv : State.Good pend v) => ?_) ?_; (on_goal 2 => subst v); (on_goal 1 => clear_value v)) | (extract_lets +onlyGivenNames v; refine (fun (hv : State.Good pend v.1) => ?_) ?_; (on_goal 2 => subst v); (on_goal 1 => clear_value v)) | (extract_lets +onlyGivenNames v; clear_value v) | (simp (maxDischargeDepth := 99) +contextual [*]; done) | (refine State.good_forAll _ _ (fun _ _ _ => ?_) ?_) | (refine State.good_iter _ _ (fun _ _ _ => ?_) ?_) | split)
  all_goals exact State.sequence_good _ _ _ _ (fun t ht => deliverFrame_good _ _ ht) (by assumption)

end Sys2Proof.Machine
end

