-- ==== Sys2Proof/Laws/KeepPackage.lean ====
section
/-! SUPPORT. What operations and meanings keep: the fabric, the copy engines, resets, writes of the host, power and bring-up. -/

namespace Sys2Proof.Machine

/-! ## Machine/Fabric.lean -/

@[simp] theorem State.sink_good {pend : List Instr} (s : State) (f : PurlinPacket) (hg : s.Good pend) :
    (State.sink s f).Good pend := by
  unfold State.sink
  repeat' (first | assumption | (extract_lets +onlyGivenNames v; refine (fun (hv : State.Good pend v) => ?_) ?_; (on_goal 2 => subst v); (on_goal 1 => clear_value v)) | (extract_lets +onlyGivenNames v; refine (fun (hv : State.Good pend v.1) => ?_) ?_; (on_goal 2 => subst v); (on_goal 1 => clear_value v)) | (extract_lets +onlyGivenNames v; clear_value v) | (simp (maxDischargeDepth := 99) +contextual [*]; done) | (refine State.good_forAll _ _ (fun _ _ _ => ?_) ?_) | (refine State.good_iter _ _ (fun _ _ _ => ?_) ?_) | split)

@[simp] theorem State.sinks_good {pend : List Instr} (s : State) (d : Nat) (hg : s.Good pend) :
    (State.sinks s d).Good pend := by
  unfold State.sinks
  repeat' (first | assumption | (extract_lets +onlyGivenNames v; refine (fun (hv : State.Good pend v) => ?_) ?_; (on_goal 2 => subst v); (on_goal 1 => clear_value v)) | (extract_lets +onlyGivenNames v; refine (fun (hv : State.Good pend v.1) => ?_) ?_; (on_goal 2 => subst v); (on_goal 1 => clear_value v)) | (extract_lets +onlyGivenNames v; clear_value v) | (simp (maxDischargeDepth := 99) +contextual [*]; done) | (refine State.good_forAll _ _ (fun _ _ _ => ?_) ?_) | (refine State.good_iter _ _ (fun _ _ _ => ?_) ?_) | split)

@[simp] theorem State.purlinCycle_good {pend : List Instr} (s : State) (hg : s.Good pend) :
    (State.purlinCycle s).Good pend := by
  unfold State.purlinCycle
  repeat' (first | assumption | (extract_lets +onlyGivenNames v; refine (fun (hv : State.Good pend v) => ?_) ?_; (on_goal 2 => subst v); (on_goal 1 => clear_value v)) | (extract_lets +onlyGivenNames v; refine (fun (hv : State.Good pend v.1) => ?_) ?_; (on_goal 2 => subst v); (on_goal 1 => clear_value v)) | (extract_lets +onlyGivenNames v; clear_value v) | (simp (maxDischargeDepth := 99) +contextual [*]; done) | (refine State.good_forAll _ _ (fun _ _ _ => ?_) ?_) | (refine State.good_iter _ _ (fun _ _ _ => ?_) ?_) | split)

@[simp] theorem State.countPorts_good {pend : List Instr} (s : State) (hg : s.Good pend) :
    (State.countPorts s).Good pend := by
  unfold State.countPorts
  repeat' (first | assumption | (extract_lets +onlyGivenNames v; refine (fun (hv : State.Good pend v) => ?_) ?_; (on_goal 2 => subst v); (on_goal 1 => clear_value v)) | (extract_lets +onlyGivenNames v; refine (fun (hv : State.Good pend v.1) => ?_) ?_; (on_goal 2 => subst v); (on_goal 1 => clear_value v)) | (extract_lets +onlyGivenNames v; clear_value v) | (simp (maxDischargeDepth := 99) +contextual [*]; done) | (refine State.good_forAll _ _ (fun _ _ _ => ?_) ?_) | (refine State.good_iter _ _ (fun _ _ _ => ?_) ?_) | split)

@[simp] theorem State.strandFault_good {pend : List Instr} (s : State) (die dir strand : Nat) (hg : s.Good pend) :
    (State.strandFault s die dir strand).Good pend := by
  unfold State.strandFault
  repeat' (first | assumption | (extract_lets +onlyGivenNames v; refine (fun (hv : State.Good pend v) => ?_) ?_; (on_goal 2 => subst v); (on_goal 1 => clear_value v)) | (extract_lets +onlyGivenNames v; refine (fun (hv : State.Good pend v.1) => ?_) ?_; (on_goal 2 => subst v); (on_goal 1 => clear_value v)) | (extract_lets +onlyGivenNames v; clear_value v) | (simp (maxDischargeDepth := 99) +contextual [*]; done) | (refine State.good_forAll _ _ (fun _ _ _ => ?_) ?_) | (refine State.good_iter _ _ (fun _ _ _ => ?_) ?_) | split)

@[simp] theorem State.strandsOver_good {pend : List Instr} (s : State) (die dir : Nat) (ended : Nat → Bool) (hg : s.Good pend) :
    (State.strandsOver s die dir ended).Good pend := by
  unfold State.strandsOver
  repeat' (first | assumption | (extract_lets +onlyGivenNames v; refine (fun (hv : State.Good pend v) => ?_) ?_; (on_goal 2 => subst v); (on_goal 1 => clear_value v)) | (extract_lets +onlyGivenNames v; refine (fun (hv : State.Good pend v.1) => ?_) ?_; (on_goal 2 => subst v); (on_goal 1 => clear_value v)) | (extract_lets +onlyGivenNames v; clear_value v) | (simp (maxDischargeDepth := 99) +contextual [*]; done) | (refine State.good_forAll _ _ (fun _ _ _ => ?_) ?_) | (refine State.good_iter _ _ (fun _ _ _ => ?_) ?_) | split)

theorem execFlitCrcFail_good {pend : List Instr} (die dir strand : Nat) (s : State)
    (hg : s.Good pend) : Out.Good pend (execFlitCrcFail die dir strand s) := by
  unfold execFlitCrcFail
  repeat' (first | assumption | (extract_lets +onlyGivenNames v; refine (fun (hv : State.Good pend v) => ?_) ?_; (on_goal 2 => subst v); (on_goal 1 => clear_value v)) | (extract_lets +onlyGivenNames v; refine (fun (hv : State.Good pend v.1) => ?_) ?_; (on_goal 2 => subst v); (on_goal 1 => clear_value v)) | (extract_lets +onlyGivenNames v; clear_value v) | (simp (maxDischargeDepth := 99) +contextual [*]; done) | (refine State.good_forAll _ _ (fun _ _ _ => ?_) ?_) | (refine State.good_iter _ _ (fun _ _ _ => ?_) ?_) | split)

theorem execFlitReplayCaughtUp_good {pend : List Instr} (die dir strand : Nat) (s : State) (hg : s.Good pend) :
    Out.Good pend (execFlitReplayCaughtUp die dir strand s) := by
  unfold execFlitReplayCaughtUp
  repeat' (first | assumption | (extract_lets +onlyGivenNames v; refine (fun (hv : State.Good pend v) => ?_) ?_; (on_goal 2 => subst v); (on_goal 1 => clear_value v)) | (extract_lets +onlyGivenNames v; refine (fun (hv : State.Good pend v.1) => ?_) ?_; (on_goal 2 => subst v); (on_goal 1 => clear_value v)) | (extract_lets +onlyGivenNames v; clear_value v) | (simp (maxDischargeDepth := 99) +contextual [*]; done) | (refine State.good_forAll _ _ (fun _ _ _ => ?_) ?_) | (refine State.good_iter _ _ (fun _ _ _ => ?_) ?_) | (refine State.ctxCommand_good _ _ _ _ (fun _ => ?_) ?_) | (refine State.pfCommand_good _ _ _ _ (fun _ => ?_) ?_) | split)

@[simp] theorem State.markedPair_good {pend : List Instr} (s : State) (a b : Nat) (hg : s.Good pend) :
    (State.markedPair s a b).Good pend := by
  unfold State.markedPair
  repeat' (first | assumption | (extract_lets +onlyGivenNames v; refine (fun (hv : State.Good pend v) => ?_) ?_; (on_goal 2 => subst v); (on_goal 1 => clear_value v)) | (extract_lets +onlyGivenNames v; refine (fun (hv : State.Good pend v.1) => ?_) ?_; (on_goal 2 => subst v); (on_goal 1 => clear_value v)) | (extract_lets +onlyGivenNames v; clear_value v) | (simp (maxDischargeDepth := 99) +contextual [*]; done) | (refine State.good_forAll _ _ (fun _ _ _ => ?_) ?_) | (refine State.good_iter _ _ (fun _ _ _ => ?_) ?_) | split)

@[simp] theorem State.edgeFalls_good {pend : List Instr} (s : State) (die dir : Nat) (hg : s.Good pend) : (State.edgeFalls s die dir).Good pend := by
  unfold State.edgeFalls
  repeat' (first | assumption | (extract_lets +onlyGivenNames v; refine (fun (hv : State.Good pend v) => ?_) ?_; (on_goal 2 => subst v); (on_goal 1 => clear_value v)) | (extract_lets +onlyGivenNames v; refine (fun (hv : State.Good pend v.1) => ?_) ?_; (on_goal 2 => subst v); (on_goal 1 => clear_value v)) | (extract_lets +onlyGivenNames v; clear_value v) | (simp (maxDischargeDepth := 99) +contextual [*]; done) | (refine State.good_forAll _ _ (fun _ _ _ => ?_) ?_) | (refine State.good_iter _ _ (fun _ _ _ => ?_) ?_) | split)

theorem execStrandFail_good {pend : List Instr} (die dir strand : Nat) (s : State)
    (hg : s.Good pend) : Out.Good pend (execStrandFail die dir strand s) := by
  unfold execStrandFail
  dsimp only
  repeat' (first | (simp_all (maxDischargeDepth := 99) +contextual; done) | split)

theorem execEdgeDown_good {pend : List Instr} (die dir : Nat) (s : State) (hg : s.Good pend) : Out.Good pend (execEdgeDown die dir s) := by
  unfold execEdgeDown
  repeat' (first | assumption | (extract_lets +onlyGivenNames v; refine (fun (hv : State.Good pend v) => ?_) ?_; (on_goal 2 => subst v); (on_goal 1 => clear_value v)) | (extract_lets +onlyGivenNames v; refine (fun (hv : State.Good pend v.1) => ?_) ?_; (on_goal 2 => subst v); (on_goal 1 => clear_value v)) | (extract_lets +onlyGivenNames v; clear_value v) | (simp (maxDischargeDepth := 99) +contextual [*]; done) | (refine State.good_forAll _ _ (fun _ _ _ => ?_) ?_) | (refine State.good_iter _ _ (fun _ _ _ => ?_) ?_) | split)

theorem execStrandWarnWindow_good {pend : List Instr} (die dir : Nat) (s : State)
    (hg : s.Good pend) : Out.Good pend (execStrandWarnWindow die dir s) := by
  unfold execStrandWarnWindow
  repeat' (first | assumption | (extract_lets +onlyGivenNames v; refine (fun (hv : State.Good pend v) => ?_) ?_; (on_goal 2 => subst v); (on_goal 1 => clear_value v)) | (extract_lets +onlyGivenNames v; refine (fun (hv : State.Good pend v.1) => ?_) ?_; (on_goal 2 => subst v); (on_goal 1 => clear_value v)) | (extract_lets +onlyGivenNames v; clear_value v) | (simp (maxDischargeDepth := 99) +contextual [*]; done) | (refine State.good_forAll _ _ (fun _ _ _ => ?_) ?_) | (refine State.good_iter _ _ (fun _ _ _ => ?_) ?_) | split)

@[simp] theorem State.setHostLink_good {pend : List Instr} (s : State) (portB : Bool) (lanes : Option HostLanes) (hg : s.Good pend) :
    (State.setHostLink s portB lanes).Good pend := by
  unfold State.setHostLink
  repeat' (first | assumption | (extract_lets +onlyGivenNames v; refine (fun (hv : State.Good pend v) => ?_) ?_; (on_goal 2 => subst v); (on_goal 1 => clear_value v)) | (extract_lets +onlyGivenNames v; refine (fun (hv : State.Good pend v.1) => ?_) ?_; (on_goal 2 => subst v); (on_goal 1 => clear_value v)) | (extract_lets +onlyGivenNames v; clear_value v) | (simp (maxDischargeDepth := 99) +contextual [*]; done) | (refine State.good_forAll _ _ (fun _ _ _ => ?_) ?_) | (refine State.good_iter _ _ (fun _ _ _ => ?_) ?_) | split)

@[simp] theorem State.setI3c_good {pend : List Instr} (s : State) (ridgeB : Bool) (addr : Option Nat) (hg : s.Good pend) :
    (State.setI3c s ridgeB addr).Good pend := by
  unfold State.setI3c
  repeat' (first | assumption | (extract_lets +onlyGivenNames v; refine (fun (hv : State.Good pend v) => ?_) ?_; (on_goal 2 => subst v); (on_goal 1 => clear_value v)) | (extract_lets +onlyGivenNames v; refine (fun (hv : State.Good pend v.1) => ?_) ?_; (on_goal 2 => subst v); (on_goal 1 => clear_value v)) | (extract_lets +onlyGivenNames v; clear_value v) | (simp (maxDischargeDepth := 99) +contextual [*]; done) | (refine State.good_forAll _ _ (fun _ _ _ => ?_) ?_) | (refine State.good_iter _ _ (fun _ _ _ => ?_) ?_) | split)

theorem execDieClockSupplyLoss_good {pend : List Instr} (die : Nat) (s : State)
    (hg : s.Good pend) : Out.Good pend (execDieClockSupplyLoss die s) := by
  unfold execDieClockSupplyLoss
  repeat' (first | assumption | (extract_lets +onlyGivenNames v; refine (fun (hv : State.Good pend v) => ?_) ?_; (on_goal 2 => subst v); (on_goal 1 => clear_value v)) | (extract_lets +onlyGivenNames v; refine (fun (hv : State.Good pend v.1) => ?_) ?_; (on_goal 2 => subst v); (on_goal 1 => clear_value v)) | (extract_lets +onlyGivenNames v; clear_value v) | (simp (maxDischargeDepth := 99) +contextual [*]; done) | (refine State.good_forAll _ _ (fun _ _ _ => ?_) ?_) | (refine State.good_iter _ _ (fun _ _ _ => ?_) ?_) | split)

@[simp] theorem State.dropThatch_good {pend : List Instr} (s : State) (t : Nat) (hg : s.Good pend) :
    (State.dropThatch s t).Good pend := by
  have h := hg
  exact State.closeWindow_good _ _ ⟨h.queue, h.regs, h.mem, h.scratch, h.hostMem, Cache.wf_filter h.cache _, h.ctxs, h.dies, h.pstate, h.psTarget⟩

@[simp] theorem State.dropEdges_good {pend : List Instr} (s : State) (d : Nat) (hg : s.Good pend) :
    (State.dropEdges s d).Good pend := by
  unfold State.dropEdges
  repeat' (first | assumption | (extract_lets +onlyGivenNames v; refine (fun (hv : State.Good pend v) => ?_) ?_; (on_goal 2 => subst v); (on_goal 1 => clear_value v)) | (extract_lets +onlyGivenNames v; refine (fun (hv : State.Good pend v.1) => ?_) ?_; (on_goal 2 => subst v); (on_goal 1 => clear_value v)) | (extract_lets +onlyGivenNames v; clear_value v) | (simp (maxDischargeDepth := 99) +contextual [*]; done) | (refine State.good_forAll _ _ (fun _ _ _ => ?_) ?_) | (refine State.good_iter _ _ (fun _ _ _ => ?_) ?_) | split)

@[simp] theorem State.fenceDie_good {pend : List Instr} (s : State) (d cause : Nat) (hg : s.Good pend) : (State.fenceDie s d cause).Good pend := by
  unfold State.fenceDie
  repeat' (first | assumption | (extract_lets +onlyGivenNames v; refine (fun (hv : State.Good pend v) => ?_) ?_; (on_goal 2 => subst v); (on_goal 1 => clear_value v)) | (extract_lets +onlyGivenNames v; refine (fun (hv : State.Good pend v.1) => ?_) ?_; (on_goal 2 => subst v); (on_goal 1 => clear_value v)) | (extract_lets +onlyGivenNames v; clear_value v) | (simp (maxDischargeDepth := 99) +contextual [*]; done) | (refine State.good_forAll _ _ (fun _ _ _ => ?_) ?_) | (refine State.good_iter _ _ (fun _ _ _ => ?_) ?_) | split)

theorem execFenceNotice_good {pend : List Instr} (die cause : Nat) (s : State) (hg : s.Good pend) : Out.Good pend (execFenceNotice die cause s) := by
  unfold execFenceNotice
  repeat' (first | assumption | (extract_lets +onlyGivenNames v; refine (fun (hv : State.Good pend v) => ?_) ?_; (on_goal 2 => subst v); (on_goal 1 => clear_value v)) | (extract_lets +onlyGivenNames v; refine (fun (hv : State.Good pend v.1) => ?_) ?_; (on_goal 2 => subst v); (on_goal 1 => clear_value v)) | (extract_lets +onlyGivenNames v; clear_value v) | (simp (maxDischargeDepth := 99) +contextual [*]; done) | (refine State.good_forAll _ _ (fun _ _ _ => ?_) ?_) | (refine State.good_iter _ _ (fun _ _ _ => ?_) ?_) | split)

theorem execTakeover_good {pend : List Instr} (s : State) (hg : s.Good pend) : Out.Good pend (execTakeover s) := by
  unfold execTakeover
  repeat' (first | assumption | (extract_lets +onlyGivenNames v; refine (fun (hv : State.Good pend v) => ?_) ?_; (on_goal 2 => subst v); (on_goal 1 => clear_value v)) | (extract_lets +onlyGivenNames v; refine (fun (hv : State.Good pend v.1) => ?_) ?_; (on_goal 2 => subst v); (on_goal 1 => clear_value v)) | (extract_lets +onlyGivenNames v; clear_value v) | (simp (maxDischargeDepth := 99) +contextual [*]; done) | (refine State.good_forAll _ _ (fun _ _ _ => ?_) ?_) | (refine State.good_iter _ _ (fun _ _ _ => ?_) ?_) | split)

theorem execTakeoverComplete_good {pend : List Instr} (s : State) (hg : s.Good pend) : Out.Good pend (execTakeoverComplete s) := by
  unfold execTakeoverComplete
  split <;> simp_all (maxDischargeDepth := 99) +contextual

/-! ## Machine/Ligger.lean -/

@[simp] theorem State.setLig_good {pend : List Instr} (s : State) (t n v : Nat) (hg : s.Good pend) : (State.setLig s t n v).Good pend := by
  unfold State.setLig
  simp (maxDischargeDepth := 99) +contextual [hg]

@[simp] theorem State.ligGo_good {pend : List Instr} (s : State) (t n : Nat) (portB : Bool)
    (hg : s.Good pend) : (State.ligGo s t n portB).Good pend := by
  unfold State.ligGo
  simp (maxDischargeDepth := 99) +contextual [hg]

@[simp] theorem State.modLig_good {pend : List Instr} (s : State) (t n : Nat) (f : LigJob → LigJob) (hg : s.Good pend) :
    (State.modLig s t n f).Good pend := by
  unfold State.modLig
  repeat' (first | assumption | (extract_lets +onlyGivenNames v; refine (fun (hv : State.Good pend v) => ?_) ?_; (on_goal 2 => subst v); (on_goal 1 => clear_value v)) | (extract_lets +onlyGivenNames v; refine (fun (hv : State.Good pend v.1) => ?_) ?_; (on_goal 2 => subst v); (on_goal 1 => clear_value v)) | (extract_lets +onlyGivenNames v; clear_value v) | (simp (maxDischargeDepth := 99) +contextual [*]; done) | (refine State.good_forAll _ _ (fun _ _ _ => ?_) ?_) | (refine State.good_iter _ _ (fun _ _ _ => ?_) ?_) | split)

@[simp] theorem State.ligDone_good {pend : List Instr} (s : State) (t n : Nat) (failed : Bool)
    (hg : s.Good pend) : (State.ligDone s t n failed).Good pend := by
  unfold State.ligDone
  simp (maxDischargeDepth := 99) +contextual [hg]

@[simp] theorem State.ligStep_good {pend : List Instr} (s : State) (t n k total : Nat) (hg : s.Good pend) :
    (State.ligStep s t n k total).Good pend := by
  unfold State.ligStep
  repeat' (first | assumption | (extract_lets +onlyGivenNames v; refine (fun (hv : State.Good pend v) => ?_) ?_; (on_goal 2 => subst v); (on_goal 1 => clear_value v)) | (extract_lets +onlyGivenNames v; refine (fun (hv : State.Good pend v.1) => ?_) ?_; (on_goal 2 => subst v); (on_goal 1 => clear_value v)) | (extract_lets +onlyGivenNames v; clear_value v) | (simp (maxDischargeDepth := 99) +contextual [*]; done) | (refine State.good_forAll _ _ (fun _ _ _ => ?_) ?_) | (refine State.good_iter _ _ (fun _ _ _ => ?_) ?_) | split)

@[simp] theorem State.ligErr_good {pend : List Instr} (s : State) (t n k : Nat) (hg : s.Good pend) : (State.ligErr s t n k).Good pend := by
  unfold State.ligErr
  simp (maxDischargeDepth := 99) +contextual [hg]

@[simp] theorem State.ligTouch_good {pend : List Instr} (s : State) (l : List (Nat × Nat × Nat)) (hg : s.Good pend) :
    (State.ligTouch s l).Good pend := by
  unfold State.ligTouch
  repeat' (first | assumption | (extract_lets +onlyGivenNames v; refine (fun (hv : State.Good pend v) => ?_) ?_; (on_goal 2 => subst v); (on_goal 1 => clear_value v)) | (extract_lets +onlyGivenNames v; refine (fun (hv : State.Good pend v.1) => ?_) ?_; (on_goal 2 => subst v); (on_goal 1 => clear_value v)) | (extract_lets +onlyGivenNames v; clear_value v) | (simp (maxDischargeDepth := 99) +contextual [*]; done) | (refine State.good_forAll _ _ (fun _ _ _ => ?_) ?_) | (refine State.good_iter _ _ (fun _ _ _ => ?_) ?_) | split)

@[simp] theorem State.ligPut_good {pend : List Instr} (s : State) (a : Nat) (data : List Byte) (hg : s.Good pend) :
    (State.ligPut s a data).Good pend := by
  unfold State.ligPut
  repeat' (first | assumption | (extract_lets +onlyGivenNames v; refine (fun (hv : State.Good pend v) => ?_) ?_; (on_goal 2 => subst v); (on_goal 1 => clear_value v)) | (extract_lets +onlyGivenNames v; refine (fun (hv : State.Good pend v.1) => ?_) ?_; (on_goal 2 => subst v); (on_goal 1 => clear_value v)) | (extract_lets +onlyGivenNames v; clear_value v) | (simp (maxDischargeDepth := 99) +contextual [*]; done) | (refine State.good_forAll _ _ (fun _ _ _ => ?_) ?_) | (refine State.good_iter _ _ (fun _ _ _ => ?_) ?_) | split)

@[simp] theorem State.ligFill_good {pend : List Instr} (s : State) (l : List (Nat × Nat × Nat)) (f : Nat → Byte) (hg : s.Good pend) :
    (State.ligFill s l f).Good pend := by
  unfold State.ligFill
  repeat' (first | assumption | (extract_lets +onlyGivenNames v; refine (fun (hv : State.Good pend v) => ?_) ?_; (on_goal 2 => subst v); (on_goal 1 => clear_value v)) | (extract_lets +onlyGivenNames v; refine (fun (hv : State.Good pend v.1) => ?_) ?_; (on_goal 2 => subst v); (on_goal 1 => clear_value v)) | (extract_lets +onlyGivenNames v; clear_value v) | (simp (maxDischargeDepth := 99) +contextual [*]; done) | (refine State.good_forAll _ _ (fun _ _ _ => ?_) ?_) | (refine State.good_iter _ _ (fun _ _ _ => ?_) ?_) | split)

@[simp] theorem copyBlocks_good {pend : List Instr} (l : List (Nat × Nat × Nat)) (data : List Byte) (s : State) (hg : s.Good pend) :
    (copyBlocks l data s).Good pend := by
  induction l generalizing data s with
  | nil => exact hg
  | cons p r ih => exact ih _ _ (State.ligPut_good _ _ _ hg)

theorem execCopyIn_good {pend : List Instr} (t eng n : Nat) (data : List Byte) (s : State) (hg : s.Good pend) :
    Out.Good pend (execCopyIn t eng n data s) := by
  unfold execCopyIn
  repeat' (first | assumption | (extract_lets +onlyGivenNames v; refine (fun (hv : State.Good pend v) => ?_) ?_; (on_goal 2 => subst v); (on_goal 1 => clear_value v)) | (extract_lets +onlyGivenNames v; refine (fun (hv : State.Good pend v.1) => ?_) ?_; (on_goal 2 => subst v); (on_goal 1 => clear_value v)) | (extract_lets +onlyGivenNames v; clear_value v) | (simp (maxDischargeDepth := 99) +contextual [*]; done) | (refine State.good_forAll _ _ (fun _ _ _ => ?_) ?_) | (refine State.good_iter _ _ (fun _ _ _ => ?_) ?_) | (refine State.ctxCommand_good _ _ _ _ (fun _ => ?_) ?_) | (refine State.pfCommand_good _ _ _ _ (fun _ => ?_) ?_) | split)

theorem execCopyOut_good {pend : List Instr} (t eng n : Nat) (s : State) (hg : s.Good pend) :
    Out.Good pend (execCopyOut t eng n s) := by
  unfold execCopyOut
  repeat' (first | assumption | (extract_lets +onlyGivenNames v; refine (fun (hv : State.Good pend v) => ?_) ?_; (on_goal 2 => subst v); (on_goal 1 => clear_value v)) | (extract_lets +onlyGivenNames v; refine (fun (hv : State.Good pend v.1) => ?_) ?_; (on_goal 2 => subst v); (on_goal 1 => clear_value v)) | (extract_lets +onlyGivenNames v; clear_value v) | (simp (maxDischargeDepth := 99) +contextual [*]; done) | (refine State.good_forAll _ _ (fun _ _ _ => ?_) ?_) | (refine State.good_iter _ _ (fun _ _ _ => ?_) ?_) | (refine State.ctxCommand_good _ _ _ _ (fun _ => ?_) ?_) | (refine State.pfCommand_good _ _ _ _ (fun _ => ?_) ?_) | split)

@[simp] theorem State.ligMem_good {pend : List Instr} (s : State) (t n : Nat) (j : LigJob) (act : State) (hg : s.Good pend) (ha : act.Good pend) :
    (State.ligMem s t n j act).Good pend := by
  unfold State.ligMem
  repeat' (first | assumption | (extract_lets +onlyGivenNames v; refine (fun (hv : State.Good pend v) => ?_) ?_; (on_goal 2 => subst v); (on_goal 1 => clear_value v)) | (extract_lets +onlyGivenNames v; refine (fun (hv : State.Good pend v.1) => ?_) ?_; (on_goal 2 => subst v); (on_goal 1 => clear_value v)) | (extract_lets +onlyGivenNames v; clear_value v) | (simp (maxDischargeDepth := 99) +contextual [*]; done) | (refine State.good_forAll _ _ (fun _ _ _ => ?_) ?_) | (refine State.good_iter _ _ (fun _ _ _ => ?_) ?_) | split)

theorem execFillConst_good {pend : List Instr} (t eng n : Nat) (s : State) (hg : s.Good pend) :
    Out.Good pend (execFillConst t eng n s) := by
  unfold execFillConst
  repeat' (first | assumption | (extract_lets +onlyGivenNames v; refine (fun (hv : State.Good pend v) => ?_) ?_; (on_goal 2 => subst v); (on_goal 1 => clear_value v)) | (extract_lets +onlyGivenNames v; refine (fun (hv : State.Good pend v.1) => ?_) ?_; (on_goal 2 => subst v); (on_goal 1 => clear_value v)) | (extract_lets +onlyGivenNames v; clear_value v) | (simp (maxDischargeDepth := 99) +contextual [*]; done) | (refine State.good_forAll _ _ (fun _ _ _ => ?_) ?_) | (refine State.good_iter _ _ (fun _ _ _ => ?_) ?_) | (refine State.ctxCommand_good _ _ _ _ (fun _ => ?_) ?_) | (refine State.pfCommand_good _ _ _ _ (fun _ => ?_) ?_) | split)

theorem execFillRng_good {pend : List Instr} (t eng n : Nat) (s : State) (hg : s.Good pend) :
    Out.Good pend (execFillRng t eng n s) := by
  unfold execFillRng
  repeat' (first | assumption | (extract_lets +onlyGivenNames v; refine (fun (hv : State.Good pend v) => ?_) ?_; (on_goal 2 => subst v); (on_goal 1 => clear_value v)) | (extract_lets +onlyGivenNames v; refine (fun (hv : State.Good pend v.1) => ?_) ?_; (on_goal 2 => subst v); (on_goal 1 => clear_value v)) | (extract_lets +onlyGivenNames v; clear_value v) | (simp (maxDischargeDepth := 99) +contextual [*]; done) | (refine State.good_forAll _ _ (fun _ _ _ => ?_) ?_) | (refine State.good_iter _ _ (fun _ _ _ => ?_) ?_) | (refine State.ctxCommand_good _ _ _ _ (fun _ => ?_) ?_) | (refine State.pfCommand_good _ _ _ _ (fun _ => ?_) ?_) | split)

theorem execTest_good {pend : List Instr} (t eng n : Nat) (failing : List Nat) (s : State) (hg : s.Good pend) :
    Out.Good pend (execTest t eng n failing s) := by
  unfold execTest
  repeat' (first | assumption | (extract_lets +onlyGivenNames v; refine (fun (hv : State.Good pend v) => ?_) ?_; (on_goal 2 => subst v); (on_goal 1 => clear_value v)) | (extract_lets +onlyGivenNames v; refine (fun (hv : State.Good pend v.1) => ?_) ?_; (on_goal 2 => subst v); (on_goal 1 => clear_value v)) | (extract_lets +onlyGivenNames v; clear_value v) | (simp (maxDischargeDepth := 99) +contextual [*]; done) | (refine State.good_forAll _ _ (fun _ _ _ => ?_) ?_) | (refine State.good_iter _ _ (fun _ _ _ => ?_) ?_) | (refine State.ctxCommand_good _ _ _ _ (fun _ => ?_) ?_) | (refine State.pfCommand_good _ _ _ _ (fun _ => ?_) ?_) | split)

theorem execVerify_good {pend : List Instr} (t eng n : Nat) (s : State) (hg : s.Good pend) :
    Out.Good pend (execVerify t eng n s) := by
  unfold execVerify
  repeat' (first | assumption | (extract_lets +onlyGivenNames v; refine (fun (hv : State.Good pend v) => ?_) ?_; (on_goal 2 => subst v); (on_goal 1 => clear_value v)) | (extract_lets +onlyGivenNames v; refine (fun (hv : State.Good pend v.1) => ?_) ?_; (on_goal 2 => subst v); (on_goal 1 => clear_value v)) | (extract_lets +onlyGivenNames v; clear_value v) | (simp (maxDischargeDepth := 99) +contextual [*]; done) | (refine State.good_forAll _ _ (fun _ _ _ => ?_) ?_) | (refine State.good_iter _ _ (fun _ _ _ => ?_) ?_) | (refine State.ctxCommand_good _ _ _ _ (fun _ => ?_) ?_) | (refine State.pfCommand_good _ _ _ _ (fun _ => ?_) ?_) | split)

@[simp] theorem State.rewrite_good {pend : List Instr} (s : State) (l : List Nat) (hg : s.Good pend) :
    (State.rewrite s l).Good pend := by
  unfold State.rewrite
  repeat' (first | assumption | (extract_lets +onlyGivenNames v; refine (fun (hv : State.Good pend v) => ?_) ?_; (on_goal 2 => subst v); (on_goal 1 => clear_value v)) | (extract_lets +onlyGivenNames v; refine (fun (hv : State.Good pend v.1) => ?_) ?_; (on_goal 2 => subst v); (on_goal 1 => clear_value v)) | (extract_lets +onlyGivenNames v; clear_value v) | (simp (maxDischargeDepth := 99) +contextual [*]; done) | (refine State.good_forAll _ _ (fun _ _ _ => ?_) ?_) | (refine State.good_iter _ _ (fun _ _ _ => ?_) ?_) | split)

theorem execScrub_good {pend : List Instr} (t eng n : Nat) (s : State) (hg : s.Good pend) :
    Out.Good pend (execScrub t eng n s) := by
  unfold execScrub
  repeat' (first | assumption | (extract_lets +onlyGivenNames v; refine (fun (hv : State.Good pend v) => ?_) ?_; (on_goal 2 => subst v); (on_goal 1 => clear_value v)) | (extract_lets +onlyGivenNames v; refine (fun (hv : State.Good pend v.1) => ?_) ?_; (on_goal 2 => subst v); (on_goal 1 => clear_value v)) | (extract_lets +onlyGivenNames v; clear_value v) | (simp (maxDischargeDepth := 99) +contextual [*]; done) | (refine State.good_forAll _ _ (fun _ _ _ => ?_) ?_) | (refine State.good_iter _ _ (fun _ _ _ => ?_) ?_) | (refine State.ctxCommand_good _ _ _ _ (fun _ => ?_) ?_) | (refine State.pfCommand_good _ _ _ _ (fun _ => ?_) ?_) | split)

@[simp] theorem State.restoreBytes_good {pend : List Instr} (s : State) (t c va : Nat) (j : LigJob) (data : List Byte) (hg : s.Good pend) :
    (State.restoreBytes s t c va j data).Good pend := by
  unfold State.restoreBytes
  repeat' (first | assumption | (extract_lets +onlyGivenNames v; refine (fun (hv : State.Good pend v) => ?_) ?_; (on_goal 2 => subst v); (on_goal 1 => clear_value v)) | (extract_lets +onlyGivenNames v; refine (fun (hv : State.Good pend v.1) => ?_) ?_; (on_goal 2 => subst v); (on_goal 1 => clear_value v)) | (extract_lets +onlyGivenNames v; clear_value v) | (simp (maxDischargeDepth := 99) +contextual [*]; done) | (refine State.good_forAll _ _ (fun _ _ _ => ?_) ?_) | (refine State.good_iter _ _ (fun _ _ _ => ?_) ?_) | split)

@[simp] theorem State.restorePage_good {pend : List Instr} (s : State) (t c : Nat) (j : LigJob) (p : Nat × List Byte) (hg : s.Good pend) :
    (State.restorePage s t c j p).Good pend := by
  unfold State.restorePage
  repeat' (first | assumption | (extract_lets +onlyGivenNames v; refine (fun (hv : State.Good pend v) => ?_) ?_; (on_goal 2 => subst v); (on_goal 1 => clear_value v)) | (extract_lets +onlyGivenNames v; refine (fun (hv : State.Good pend v.1) => ?_) ?_; (on_goal 2 => subst v); (on_goal 1 => clear_value v)) | (extract_lets +onlyGivenNames v; clear_value v) | (simp (maxDischargeDepth := 99) +contextual [*]; done) | (refine State.good_forAll _ _ (fun _ _ _ => ?_) ?_) | (refine State.good_iter _ _ (fun _ _ _ => ?_) ?_) | split)

@[simp] theorem State.restoreRecord_good {pend : List Instr} (s : State) (t c : Nat) (j : LigJob) (record : List Byte) (hg : s.Good pend) :
    (State.restoreRecord s t c j record).Good pend := by
  unfold State.restoreRecord
  repeat' (first | assumption | (extract_lets +onlyGivenNames v; refine (fun (hv : State.Good pend v) => ?_) ?_; (on_goal 2 => subst v); (on_goal 1 => clear_value v)) | (extract_lets +onlyGivenNames v; refine (fun (hv : State.Good pend v.1) => ?_) ?_; (on_goal 2 => subst v); (on_goal 1 => clear_value v)) | (extract_lets +onlyGivenNames v; clear_value v) | (simp (maxDischargeDepth := 99) +contextual [*]; done) | (refine State.good_forAll _ _ (fun _ _ _ => ?_) ?_) | (refine State.good_iter _ _ (fun _ _ _ => ?_) ?_) | split)

theorem execRestore_good {pend : List Instr} (t eng n : Nat) (image : SealedImage) (s : State) (hg : s.Good pend) :
    Out.Good pend (execRestore t eng n image s) := by
  unfold execRestore
  repeat' (first | assumption | (extract_lets +onlyGivenNames v; refine (fun (hv : State.Good pend v) => ?_) ?_; (on_goal 2 => subst v); (on_goal 1 => clear_value v)) | (extract_lets +onlyGivenNames v; refine (fun (hv : State.Good pend v.1) => ?_) ?_; (on_goal 2 => subst v); (on_goal 1 => clear_value v)) | (extract_lets +onlyGivenNames v; clear_value v) | (simp (maxDischargeDepth := 99) +contextual [*]; done) | (refine State.good_forAll _ _ (fun _ _ _ => ?_) ?_) | (refine State.good_iter _ _ (fun _ _ _ => ?_) ?_) | (refine State.ctxCommand_good _ _ _ _ (fun _ => ?_) ?_) | (refine State.pfCommand_good _ _ _ _ (fun _ => ?_) ?_) | split)

@[simp] theorem State.rebuildPage_good {pend : List Instr} (s : State) (t c k node : Nat) (gen : BitVec 48) (j : LigJob) (hg : s.Good pend) :
    (State.rebuildPage s t c k node gen j).Good pend := by
  unfold State.rebuildPage
  repeat' (first | assumption | (extract_lets +onlyGivenNames v; refine (fun (hv : State.Good pend v) => ?_) ?_; (on_goal 2 => subst v); (on_goal 1 => clear_value v)) | (extract_lets +onlyGivenNames v; refine (fun (hv : State.Good pend v.1) => ?_) ?_; (on_goal 2 => subst v); (on_goal 1 => clear_value v)) | (extract_lets +onlyGivenNames v; clear_value v) | (simp (maxDischargeDepth := 99) +contextual [*]; done) | (refine State.good_forAll _ _ (fun _ _ _ => ?_) ?_) | (refine State.good_iter _ _ (fun _ _ _ => ?_) ?_) | split)

theorem execRebuild_good {pend : List Instr} (t eng n : Nat) (s : State) (hg : s.Good pend) :
    Out.Good pend (execRebuild t eng n s) := by
  unfold execRebuild
  repeat' (first | assumption | (extract_lets +onlyGivenNames v; refine (fun (hv : State.Good pend v) => ?_) ?_; (on_goal 2 => subst v); (on_goal 1 => clear_value v)) | (extract_lets +onlyGivenNames v; refine (fun (hv : State.Good pend v.1) => ?_) ?_; (on_goal 2 => subst v); (on_goal 1 => clear_value v)) | (extract_lets +onlyGivenNames v; clear_value v) | (simp (maxDischargeDepth := 99) +contextual [*]; done) | (refine State.good_forAll _ _ (fun _ _ _ => ?_) ?_) | (refine State.good_iter _ _ (fun _ _ _ => ?_) ?_) | (refine State.ctxCommand_good _ _ _ _ (fun _ => ?_) ?_) | (refine State.pfCommand_good _ _ _ _ (fun _ => ?_) ?_) | split)

theorem execRepair_good {pend : List Instr} (t eng : Nat) (ok : Bool) (s : State) (hg : s.Good pend) : Out.Good pend (execRepair t eng ok s) := by
  unfold execRepair
  repeat' (first | assumption | (extract_lets +onlyGivenNames v; refine (fun (hv : State.Good pend v) => ?_) ?_; (on_goal 2 => subst v); (on_goal 1 => clear_value v)) | (extract_lets +onlyGivenNames v; refine (fun (hv : State.Good pend v.1) => ?_) ?_; (on_goal 2 => subst v); (on_goal 1 => clear_value v)) | (extract_lets +onlyGivenNames v; clear_value v) | (simp (maxDischargeDepth := 99) +contextual [*]; done) | (refine State.good_forAll _ _ (fun _ _ _ => ?_) ?_) | (refine State.good_iter _ _ (fun _ _ _ => ?_) ?_) | split)

theorem execLiggerCommandDone_good {pend : List Instr} (t eng : Nat) (s : State)
    (hg : s.Good pend) : Out.Good pend (execLiggerCommandDone t eng s) := by
  unfold execLiggerCommandDone
  repeat' (first | assumption | (extract_lets +onlyGivenNames v; refine (fun (hv : State.Good pend v) => ?_) ?_; (on_goal 2 => subst v); (on_goal 1 => clear_value v)) | (extract_lets +onlyGivenNames v; refine (fun (hv : State.Good pend v.1) => ?_) ?_; (on_goal 2 => subst v); (on_goal 1 => clear_value v)) | (extract_lets +onlyGivenNames v; clear_value v) | (simp (maxDischargeDepth := 99) +contextual [*]; done) | (refine State.good_forAll _ _ (fun _ _ _ => ?_) ?_) | (refine State.good_iter _ _ (fun _ _ _ => ?_) ?_) | split)

@[simp] theorem State.ligResume_good {pend : List Instr} (s : State) (t n : Nat) (hg : s.Good pend) : (State.ligResume s t n).Good pend := by
  unfold State.ligResume
  simp (maxDischargeDepth := 99) +contextual [hg]

@[simp] theorem State.ligAbort_good {pend : List Instr} (s : State) (t n : Nat) (hg : s.Good pend) : (State.ligAbort s t n).Good pend := by
  unfold State.ligAbort
  simp (maxDischargeDepth := 99) +contextual [hg]

theorem State.allEngines_good {pend : List Instr} (s : State) (f : Nat → Nat → State → State)
    (hf : ∀ t n (u : State), u.Good pend → (f t n u).Good pend) (h : s.Good pend) : (s.allEngines f).Good pend :=
  State.good_forAll _ _ (fun t _ hu => State.good_forAll _ _ (fun n _ hv => hf t n _ hv) hu) h

/-! ## Machine/Resets.lean -/

@[simp] theorem State.resetWindow_good {pend : List Instr} (s : State) (c : Nat) (hg : s.Good pend) : (State.resetWindow s c).Good pend := by
  unfold State.resetWindow
  simp (maxDischargeDepth := 99) +contextual [hg]

@[simp] theorem State.ctxReset_good {pend : List Instr} (s : State) (c : Nat) (hg : s.Good pend) : (State.ctxReset s c).Good pend := by
  unfold State.ctxReset
  simp (maxDischargeDepth := 99) +contextual [hg]

theorem execContextResetDone_good {pend : List Instr} (c : Nat) (s : State) (hg : s.Good pend) : Out.Good pend (execContextResetDone c s) := by
  unfold execContextResetDone
  repeat' (first | assumption | (extract_lets +onlyGivenNames v; refine (fun (hv : State.Good pend v) => ?_) ?_; (on_goal 2 => subst v); (on_goal 1 => clear_value v)) | (extract_lets +onlyGivenNames v; refine (fun (hv : State.Good pend v.1) => ?_) ?_; (on_goal 2 => subst v); (on_goal 1 => clear_value v)) | (extract_lets +onlyGivenNames v; clear_value v) | (simp (maxDischargeDepth := 99) +contextual [*]; done) | (refine State.good_forAll _ _ (fun _ _ _ => ?_) ?_) | (refine State.good_iter _ _ (fun _ _ _ => ?_) ?_) | split)

theorem execFlrVf_good {pend : List Instr} (portB : Bool) (n : Nat) (s : State) (hg : s.Good pend) : Out.Good pend (execFlrVf portB n s) := by
  unfold execFlrVf
  repeat' (first | assumption | (extract_lets +onlyGivenNames v; refine (fun (hv : State.Good pend v) => ?_) ?_; (on_goal 2 => subst v); (on_goal 1 => clear_value v)) | (extract_lets +onlyGivenNames v; refine (fun (hv : State.Good pend v.1) => ?_) ?_; (on_goal 2 => subst v); (on_goal 1 => clear_value v)) | (extract_lets +onlyGivenNames v; clear_value v) | (simp (maxDischargeDepth := 99) +contextual [*]; done) | (refine State.good_forAll _ _ (fun _ _ _ => ?_) ?_) | (refine State.good_iter _ _ (fun _ _ _ => ?_) ?_) | split)

@[simp] theorem State.resetPf_good {pend : List Instr} (s : State) (ridgeB : Bool) (hg : s.Good pend) : (State.resetPf s ridgeB).Good pend := by
  unfold State.resetPf
  simp (maxDischargeDepth := 99) +contextual [hg]

theorem execFlrPf_good {pend : List Instr} (portB : Bool) (s : State) (hg : s.Good pend) : Out.Good pend (execFlrPf portB s) := by
  unfold execFlrPf
  repeat' (first | assumption | (extract_lets +onlyGivenNames v; refine (fun (hv : State.Good pend v) => ?_) ?_; (on_goal 2 => subst v); (on_goal 1 => clear_value v)) | (extract_lets +onlyGivenNames v; refine (fun (hv : State.Good pend v.1) => ?_) ?_; (on_goal 2 => subst v); (on_goal 1 => clear_value v)) | (extract_lets +onlyGivenNames v; clear_value v) | (simp (maxDischargeDepth := 99) +contextual [*]; done) | (refine State.good_forAll _ _ (fun _ _ _ => ?_) ?_) | (refine State.good_iter _ _ (fun _ _ _ => ?_) ?_) | split)

@[simp] theorem State.coldReset_good {pend : List Instr} (s : State) (hg : s.Good pend) : (State.coldReset s).Good pend := by
  have h := hg
  exact ⟨h.queue, by simp [State.coldReset, State.reset, Registers.wf], by simp [State.coldReset, State.reset],
    by simp [State.coldReset, State.reset], h.hostMem, Cache.wf_nil, by simp [State.coldReset, State.reset], by simp [State.coldReset, State.reset],
    by simp [State.coldReset, State.reset], by simp [State.coldReset, State.reset]⟩

@[simp] theorem State.off_good {pend : List Instr} (s : State) (hg : s.Good pend) : (State.off s).Good pend := by
  unfold State.off
  simp (maxDischargeDepth := 99) +contextual [hg]

theorem execPwrEnRise_good {pend : List Instr} (s : State) (hg : s.Good pend) : Out.Good pend (execPwrEnRise s) := by
  unfold execPwrEnRise
  simp (maxDischargeDepth := 99) +contextual [hg]

theorem execPwrEnFall_good {pend : List Instr} (s : State) (hg : s.Good pend) : Out.Good pend (execPwrEnFall s) := by
  unfold execPwrEnFall
  simp (maxDischargeDepth := 99) +contextual [hg]

theorem execPkgPwrgd_good {pend : List Instr} (s : State) (hg : s.Good pend) : Out.Good pend (execPkgPwrgd s) := by
  unfold execPkgPwrgd
  repeat' (first | assumption | (extract_lets +onlyGivenNames v; refine (fun (hv : State.Good pend v) => ?_) ?_; (on_goal 2 => subst v); (on_goal 1 => clear_value v)) | (extract_lets +onlyGivenNames v; refine (fun (hv : State.Good pend v.1) => ?_) ?_; (on_goal 2 => subst v); (on_goal 1 => clear_value v)) | (extract_lets +onlyGivenNames v; clear_value v) | (simp (maxDischargeDepth := 99) +contextual [*]; done) | (refine State.good_forAll _ _ (fun _ _ _ => ?_) ?_) | (refine State.good_iter _ _ (fun _ _ _ => ?_) ?_) | split)

@[simp] theorem State.setPerst_good {pend : List Instr} (s : State) (portB low : Bool)
    (hg : s.Good pend) : (State.setPerst s portB low).Good pend := by
  unfold State.setPerst
  simp (maxDischargeDepth := 99) +contextual [hg]

theorem execPerstMgmtAssert_good {pend : List Instr} (s : State) (hg : s.Good pend) : Out.Good pend (execPerstMgmtAssert s) := by
  unfold execPerstMgmtAssert
  repeat' (first | assumption | (extract_lets +onlyGivenNames v; refine (fun (hv : State.Good pend v) => ?_) ?_; (on_goal 2 => subst v); (on_goal 1 => clear_value v)) | (extract_lets +onlyGivenNames v; refine (fun (hv : State.Good pend v.1) => ?_) ?_; (on_goal 2 => subst v); (on_goal 1 => clear_value v)) | (extract_lets +onlyGivenNames v; clear_value v) | (simp (maxDischargeDepth := 99) +contextual [*]; done) | (refine State.good_forAll _ _ (fun _ _ _ => ?_) ?_) | (refine State.good_iter _ _ (fun _ _ _ => ?_) ?_) | split)

@[simp] theorem State.resetVfs_good {pend : List Instr} (s : State) (portB : Bool) (hg : s.Good pend) :
    (State.resetVfs s portB).Good pend := by
  unfold State.resetVfs
  repeat' (first | assumption | (extract_lets +onlyGivenNames v; refine (fun (hv : State.Good pend v) => ?_) ?_; (on_goal 2 => subst v); (on_goal 1 => clear_value v)) | (extract_lets +onlyGivenNames v; refine (fun (hv : State.Good pend v.1) => ?_) ?_; (on_goal 2 => subst v); (on_goal 1 => clear_value v)) | (extract_lets +onlyGivenNames v; clear_value v) | (simp (maxDischargeDepth := 99) +contextual [*]; done) | (refine State.good_forAll _ _ (fun _ _ _ => ?_) ?_) | (refine State.good_iter _ _ (fun _ _ _ => ?_) ?_) | split)

theorem execPerstOtherAssert_good {pend : List Instr} (s : State) (hg : s.Good pend) : Out.Good pend (execPerstOtherAssert s) := by
  unfold execPerstOtherAssert
  repeat' (first | assumption | (extract_lets +onlyGivenNames v; refine (fun (hv : State.Good pend v) => ?_) ?_; (on_goal 2 => subst v); (on_goal 1 => clear_value v)) | (extract_lets +onlyGivenNames v; refine (fun (hv : State.Good pend v.1) => ?_) ?_; (on_goal 2 => subst v); (on_goal 1 => clear_value v)) | (extract_lets +onlyGivenNames v; clear_value v) | (simp (maxDischargeDepth := 99) +contextual [*]; done) | (refine State.good_forAll _ _ (fun _ _ _ => ?_) ?_) | (refine State.good_iter _ _ (fun _ _ _ => ?_) ?_) | split)

theorem execPerstDeassert_good {pend : List Instr} (portB : Bool) (s : State) (hg : s.Good pend) : Out.Good pend (execPerstDeassert portB s) := by
  unfold execPerstDeassert
  simp (maxDischargeDepth := 99) +contextual [hg]

@[simp] theorem State.shutDown_good {pend : List Instr} (s : State) (hg : s.Good pend) : (State.shutDown s).Good pend := by
  have h := hg
  unfold State.shutDown
  extract_lets +onlyGivenNames keep s1
  have h1 : s1.Good pend := State.good_forAll _ _ (fun d t ht => State.modDie_good _ _ _ ht) h
  have h2 := State.mapCtxs_good _ Ctx.lost h1
  exact State.refreshAll_good _ (State.setI3c_good _ _ _ (State.setHostLink_good _ _ _
    ⟨h2.queue, h2.regs, h2.mem, Memory.wf_nil, h2.hostMem, Cache.wf_nil, h2.ctxs, h2.dies, h2.pstate, h2.psTarget⟩))

@[simp] theorem State.warmFields_good {pend : List Instr} (s : State) (hg : s.Good pend) : (State.warmFields s).Good pend := by
  unfold State.warmFields
  simp (maxDischargeDepth := 99) +contextual [hg]

@[simp] theorem State.relock_good {pend : List Instr} (s : State) (hg : s.Good pend) :
    (State.relock s).Good pend := by
  unfold State.relock
  repeat' (first | assumption | (extract_lets +onlyGivenNames v; refine (fun (hv : State.Good pend v) => ?_) ?_; (on_goal 2 => subst v); (on_goal 1 => clear_value v)) | (extract_lets +onlyGivenNames v; refine (fun (hv : State.Good pend v.1) => ?_) ?_; (on_goal 2 => subst v); (on_goal 1 => clear_value v)) | (extract_lets +onlyGivenNames v; clear_value v) | (simp (maxDischargeDepth := 99) +contextual [*]; done) | (refine State.good_forAll _ _ (fun _ _ _ => ?_) ?_) | (refine State.good_iter _ _ (fun _ _ _ => ?_) ?_) | split)

@[simp] theorem State.warmReset_good {pend : List Instr} (s : State) (hg : s.Good pend) : (State.warmReset s).Good pend := by
  have h := hg
  unfold State.warmReset
  extract_lets +onlyGivenNames s1 s2
  have h1 : s1.Good pend := State.flushCache_good _ h
  have h2 := State.mapCtxs_good _ Ctx.warm (State.resetRegs_good _ warmResets h1)
  refine State.refreshAll_good _ (State.relock_good _ (State.warmFields_good _ ?_))
  exact ⟨h2.queue, h2.regs, h2.mem, Memory.wf_nil, h2.hostMem, h2.cache, h2.ctxs, Table.wf_mapVals_filter h1.dies warmDie, Nat.zero_le _,
    fun t ht => by simp [s2] at ht⟩

@[simp] theorem State.pkgReset_good {pend : List Instr} (s : State) (code : Nat) (go : Bool)
    (hg : s.Good pend) : (State.pkgReset s code go).Good pend := by
  unfold State.pkgReset
  simp (maxDischargeDepth := 99) +contextual [hg]

theorem execWarmResetEnd_good {pend : List Instr} (s : State) (hg : s.Good pend) : Out.Good pend (execWarmResetEnd s) := by
  unfold execWarmResetEnd
  split <;> simp_all (maxDischargeDepth := 99) +contextual

/-! ## Machine/HostWrite.lean -/

@[simp] theorem State.forceDiv_good {pend : List Instr} (s : State) (hg : s.Good pend) : (State.forceDiv s).Good pend := by
  unfold State.forceDiv
  simp (maxDischargeDepth := 99) +contextual [hg]

@[simp] theorem State.writeClk_good {pend : List Instr} (s : State) (v : Word) (hg : s.Good pend) : (State.writeClk s v).Good pend := by
  unfold State.writeClk
  simp (maxDischargeDepth := 99) +contextual [hg]

theorem State.writePstate_good {pend : List Instr} (s : State) (cmd : Nat) (hc : cmd ≤ 3) (h : s.Good pend) :
    (s.writePstate cmd).Good pend := by
  unfold State.writePstate
  split
  · exact State.wf_good _ _ _ _ _ h
  · have h1 := State.wf_good _ Off.RDG_PSTATE 4 2 4 (State.wf_good _ Off.RDG_PSTATE 5 5 0 h)
    refine State.noteCount_good _ _ _ _ ⟨h1.queue, h1.regs, h1.mem, h1.scratch, h1.hostMem, h1.cache, h1.ctxs, h1.dies, h1.pstate, ?_⟩
    intro t ht
    obtain rfl : cmd = t := by simpa using ht
    exact hc

theorem fld_le (w : Word) (hi lo n : Nat) (h : 2 ^ (hi + 1 - lo) ≤ n + 1) : fld w hi lo ≤ n :=
  Nat.le_of_lt_succ (Nat.lt_of_lt_of_le (Nat.mod_lt _ (Nat.two_pow_pos _)) h)

@[simp] theorem State.unhalt_good {pend : List Instr} (s : State) (hg : s.Good pend) : (State.unhalt s).Good pend := by
  unfold State.unhalt
  repeat' (first | assumption | (extract_lets +onlyGivenNames v; refine (fun (hv : State.Good pend v) => ?_) ?_; (on_goal 2 => subst v); (on_goal 1 => clear_value v)) | (extract_lets +onlyGivenNames v; refine (fun (hv : State.Good pend v.1) => ?_) ?_; (on_goal 2 => subst v); (on_goal 1 => clear_value v)) | (extract_lets +onlyGivenNames v; clear_value v) | (simp (maxDischargeDepth := 99) +contextual [*]; done) | (refine State.good_forAll _ _ (fun _ _ _ => ?_) ?_) | (refine State.good_iter _ _ (fun _ _ _ => ?_) ?_) | split)

@[simp] theorem State.writeSag_good {pend : List Instr} (s : State) (v : Word) (hg : s.Good pend) : (State.writeSag s v).Good pend := by
  unfold State.writeSag
  simp (maxDischargeDepth := 99) +contextual [hg]

@[simp] theorem State.writeTherm_good {pend : List Instr} (s : State) (v : Word) (hg : s.Good pend) : (State.writeTherm s v).Good pend := by
  unfold State.writeTherm
  simp (maxDischargeDepth := 99) +contextual [hg]

@[simp] theorem State.writeBand_good {pend : List Instr} (s : State) (kinds : Nat) (hg : s.Good pend) : (State.writeBand s kinds).Good pend := by
  unfold State.writeBand
  simp (maxDischargeDepth := 99) +contextual [hg]

@[simp] theorem State.writeNode_good {pend : List Instr} (s : State) (node : Nat) (hg : s.Good pend) : (State.writeNode s node).Good pend := by
  unfold State.writeNode
  simp (maxDischargeDepth := 99) +contextual [hg]

@[simp] theorem State.writePtp_good {pend : List Instr} (s : State) (v : Word) (hg : s.Good pend) : (State.writePtp s v).Good pend := by
  unfold State.writePtp
  simp (maxDischargeDepth := 99) +contextual [hg]

@[simp] theorem State.writeXlate_good {pend : List Instr} (s : State) (v : Word) (hg : s.Good pend) : (State.writeXlate s v).Good pend := by
  unfold State.writeXlate
  simp (maxDischargeDepth := 99) +contextual [hg]

@[simp] theorem State.clearAcct_good {pend : List Instr} (s : State) (c : Nat) (hg : s.Good pend) : (State.clearAcct s c).Good pend := by
  unfold State.clearAcct
  simp (maxDischargeDepth := 99) +contextual [hg]

@[simp] theorem State.writeCmdRing_good {pend : List Instr} (s : State) (r : RingOf) (isCtl : Bool) (v : Word)
    (hg : s.Good pend) : (State.writeCmdRing s r isCtl v).Good pend := by
  unfold State.writeCmdRing
  simp (maxDischargeDepth := 99) +contextual [hg]

@[simp] theorem State.ringDoorbell_good {pend : List Instr} (s : State) (r : RingOf) (tail : Nat)
    (hg : s.Good pend) : (State.ringDoorbell s r tail).Good pend := by
  unfold State.ringDoorbell
  dsimp only
  repeat' split
  all_goals simp (maxDischargeDepth := 99) +contextual [hg]

@[simp] theorem State.writeCplBase_good {pend : List Instr} (s : State) (r : RingOf) (portB : Bool) (v : Word)
    (hg : s.Good pend) : (State.writeCplBase s r portB v).Good pend := by
  unfold State.writeCplBase
  repeat' (first | assumption | (extract_lets +onlyGivenNames v; refine (fun (hv : State.Good pend v) => ?_) ?_; (on_goal 2 => subst v); (on_goal 1 => clear_value v)) | (extract_lets +onlyGivenNames v; refine (fun (hv : State.Good pend v.1) => ?_) ?_; (on_goal 2 => subst v); (on_goal 1 => clear_value v)) | (extract_lets +onlyGivenNames v; clear_value v) | (simp (maxDischargeDepth := 99) +contextual [*]; done) | (refine State.good_forAll _ _ (fun _ _ _ => ?_) ?_) | (refine State.good_iter _ _ (fun _ _ _ => ?_) ?_) | split)

@[simp] theorem State.writeCplCtl_good {pend : List Instr} (s : State) (r : RingOf) (v : Word)
    (hg : s.Good pend) : (State.writeCplCtl s r v).Good pend := by
  unfold State.writeCplCtl
  simp (maxDischargeDepth := 99) +contextual [hg]

@[simp] theorem State.setAck_good {pend : List Instr} (s : State) (r : RingOf) (q : BitVec 32)
    (hg : s.Good pend) : (State.setAck s r q).Good pend := by
  unfold State.setAck
  repeat' (first | assumption | (extract_lets +onlyGivenNames v; refine (fun (hv : State.Good pend v) => ?_) ?_; (on_goal 2 => subst v); (on_goal 1 => clear_value v)) | (extract_lets +onlyGivenNames v; refine (fun (hv : State.Good pend v.1) => ?_) ?_; (on_goal 2 => subst v); (on_goal 1 => clear_value v)) | (extract_lets +onlyGivenNames v; clear_value v) | (simp (maxDischargeDepth := 99) +contextual [*]; done) | (refine State.good_forAll _ _ (fun _ _ _ => ?_) ?_) | (refine State.good_iter _ _ (fun _ _ _ => ?_) ?_) | split)

@[simp] theorem State.ackRecord_good {pend : List Instr} (s : State) (r : RingOf) (q : BitVec 32)
    (hg : s.Good pend) : (State.ackRecord s r q).Good pend := by
  unfold State.ackRecord
  repeat' (first | assumption | (extract_lets +onlyGivenNames v; refine (fun (hv : State.Good pend v) => ?_) ?_; (on_goal 2 => subst v); (on_goal 1 => clear_value v)) | (extract_lets +onlyGivenNames v; refine (fun (hv : State.Good pend v.1) => ?_) ?_; (on_goal 2 => subst v); (on_goal 1 => clear_value v)) | (extract_lets +onlyGivenNames v; clear_value v) | (simp (maxDischargeDepth := 99) +contextual [*]; done) | (refine State.good_forAll _ _ (fun _ _ _ => ?_) ?_) | (refine State.good_iter _ _ (fun _ _ _ => ?_) ?_) | split)

@[simp] theorem State.writeEvlog_good {pend : List Instr} (s : State) (l : LogOf) (isCtl : Bool) (v : Word)
    (hg : s.Good pend) : (State.writeEvlog s l isCtl v).Good pend := by
  unfold State.writeEvlog
  simp (maxDischargeDepth := 99) +contextual [hg]

@[simp] theorem State.writeEvread_good {pend : List Instr} (s : State) (l : LogOf) (read : Nat)
    (hg : s.Good pend) : (State.writeEvread s l read).Good pend := by
  unfold State.writeEvread
  simp (maxDischargeDepth := 99) +contextual [hg]

@[simp] theorem State.writeTraining_good {pend : List Instr} (s : State) (c off : Nat) (w : Word)
    (hg : s.Good pend) : (State.writeTraining s c off w).Good pend := by
  unfold State.writeTraining
  simp (maxDischargeDepth := 99) +contextual [hg]

@[simp] theorem State.keepTaken_good {pend : List Instr} (s : State) (c off : Nat) (hg : s.Good pend) :
    (State.keepTaken s c off).Good pend := by
  unfold State.keepTaken
  repeat' (first | assumption | (extract_lets +onlyGivenNames v; refine (fun (hv : State.Good pend v) => ?_) ?_; (on_goal 2 => subst v); (on_goal 1 => clear_value v)) | (extract_lets +onlyGivenNames v; refine (fun (hv : State.Good pend v.1) => ?_) ?_; (on_goal 2 => subst v); (on_goal 1 => clear_value v)) | (extract_lets +onlyGivenNames v; clear_value v) | (simp (maxDischargeDepth := 99) +contextual [*]; done) | (refine State.good_forAll _ _ (fun _ _ _ => ?_) ?_) | (refine State.good_iter _ _ (fun _ _ _ => ?_) ?_) | split)

@[simp] theorem State.writeFlush_good {pend : List Instr} (s : State) (c link : Nat) (hg : s.Good pend) : (State.writeFlush s c link).Good pend := by
  unfold State.writeFlush
  simp (maxDischargeDepth := 99) +contextual [hg]

@[simp] theorem State.clearPipe_good {pend : List Instr} (s : State) (c : Nat) (v : Word) (hg : s.Good pend) : (State.clearPipe s c v).Good pend := by
  unfold State.clearPipe
  simp (maxDischargeDepth := 99) +contextual [hg]

@[simp] theorem State.clearIf_good {pend : List Instr} (s : State) (v : Word) (l : List (Nat × Nat))
    (hg : s.Good pend) : (State.clearIf s v l).Good pend := by
  unfold State.clearIf
  simp (maxDischargeDepth := 99) +contextual [hg]

@[simp] theorem State.clearCtx_good {pend : List Instr} (s : State) (c off : Nat) (v : Word)
    (hg : s.Good pend) : (State.clearCtx s c off v).Good pend := by
  unfold State.clearCtx
  simp (maxDischargeDepth := 99) +contextual [hg]

@[simp] theorem State.writeRetire_good {pend : List Instr} (s : State) (die dir mask : Nat)
    (hg : s.Good pend) : (State.writeRetire s die dir mask).Good pend := by
  unfold State.writeRetire
  simp (maxDischargeDepth := 99) +contextual [hg]

@[simp] theorem State.restartPort_good {pend : List Instr} (s : State) (p : Nat) (hg : s.Good pend) : (State.restartPort s p).Good pend := by
  unfold State.restartPort
  simp (maxDischargeDepth := 99) +contextual [hg]

@[simp] theorem State.writePctl_good {pend : List Instr} (s : State) (p : Nat) (low : Bool) (v : Word) (hg : s.Good pend) :
    (State.writePctl s p low v).Good pend := by
  unfold State.writePctl
  repeat' (first | assumption | (extract_lets +onlyGivenNames v; refine (fun (hv : State.Good pend v) => ?_) ?_; (on_goal 2 => subst v); (on_goal 1 => clear_value v)) | (extract_lets +onlyGivenNames v; refine (fun (hv : State.Good pend v.1) => ?_) ?_; (on_goal 2 => subst v); (on_goal 1 => clear_value v)) | (extract_lets +onlyGivenNames v; clear_value v) | (simp (maxDischargeDepth := 99) +contextual [*]; done) | (refine State.good_forAll _ _ (fun _ _ _ => ?_) ?_) | (refine State.good_iter _ _ (fun _ _ _ => ?_) ?_) | split)

@[simp] theorem State.writeWrr_good {pend : List Instr} (s : State) (a : Nat) (v : Word) (hg : s.Good pend) : (State.writeWrr s a v).Good pend := by
  unfold State.writeWrr
  simp (maxDischargeDepth := 99) +contextual [hg]

@[simp] theorem State.clearEav_good {pend : List Instr} (s : State) (e : Nat) (v : Word) (hg : s.Good pend) : (State.clearEav s e v).Good pend := by
  unfold State.clearEav
  simp (maxDischargeDepth := 99) +contextual [hg]

@[simp] theorem State.sitePower_good {pend : List Instr} (s : State) (site : Nat) (on : Bool)
    (hg : s.Good pend) : (State.sitePower s site on).Good pend := by
  unfold State.sitePower
  simp (maxDischargeDepth := 99) +contextual [hg]

@[simp] theorem State.retireTile_good {pend : List Instr} (s : State) (r tile : Nat) (hg : s.Good pend) : (State.retireTile s r tile).Good pend := by
  unfold State.retireTile
  dsimp only
  repeat' (first | (simp_all (maxDischargeDepth := 99) +contextual; done) | split)

@[simp] theorem State.startEpoch_good {pend : List Instr} (s : State) (r : Nat) (hg : s.Good pend) : (State.startEpoch s r).Good pend := by
  unfold State.startEpoch
  simp (maxDischargeDepth := 99) +contextual [hg]

@[simp] theorem State.writeGo_good {pend : List Instr} (s : State) (t n : Nat) (portB : Bool)
    (hg : s.Good pend) : (State.writeGo s t n portB).Good pend := by
  unfold State.writeGo
  simp (maxDischargeDepth := 99) +contextual [hg]

@[simp] theorem State.plainWrite_good {pend : List Instr} (s : State) (a : Nat) (r : RegDef) (v : Word)
    (hg : s.Good pend) : (State.plainWrite s a r v).Good pend := by
  unfold State.plainWrite
  simp (maxDischargeDepth := 99) +contextual [hg]

@[simp] theorem State.writeHdr_good {pend : List Instr} (s : State) (k : PageKind) (a : Nat) (r : RegDef) (v : Word)
    (hg : s.Good pend) : (State.writeHdr s k a r v).Good pend := by
  unfold State.writeHdr
  simp (maxDischargeDepth := 99) +contextual [hg]

@[simp] theorem State.writeRing_good {pend : List Instr} (s : State) (r : RingOf) (off : Nat) (portB low : Bool) (v : Word)
    (hg : s.Good pend) : (State.writeRing s r off portB low v).Good pend := by
  unfold State.writeRing
  simp (maxDischargeDepth := 99) +contextual [hg]

@[simp] theorem State.writeLog_good {pend : List Instr} (s : State) (l : LogOf) (k : Nat) (v : Word)
    (hg : s.Good pend) : (State.writeLog s l k v).Good pend := by
  unfold State.writeLog
  repeat' (first | assumption | (extract_lets +onlyGivenNames v; refine (fun (hv : State.Good pend v) => ?_) ?_; (on_goal 2 => subst v); (on_goal 1 => clear_value v)) | (extract_lets +onlyGivenNames v; refine (fun (hv : State.Good pend v.1) => ?_) ?_; (on_goal 2 => subst v); (on_goal 1 => clear_value v)) | (extract_lets +onlyGivenNames v; clear_value v) | (simp (maxDischargeDepth := 99) +contextual [*]; done) | (refine State.good_forAll _ _ (fun _ _ _ => ?_) ?_) | (refine State.good_iter _ _ (fun _ _ _ => ?_) ?_) | split)

@[simp] theorem State.writeRdg_good {pend : List Instr} (s : State) (src : HostSrc) (low : Bool) (a : Nat) (r : RegDef) (v : Word)
    (hg : s.Good pend) : (State.writeRdg s src low a r v).Good pend := by
  have h := hg
  unfold State.writeRdg
  extract_lets +onlyGivenNames off
  by_cases h1 : off = Off.RDG_CLK
  · rw [if_pos h1]; exact State.writeClk_good _ _ h
  rw [if_neg h1]
  by_cases h2 : off = Off.RDG_PSTATE
  · rw [if_pos h2]
    split
    · exact State.writePstate_good _ _ (fld_le _ _ _ _ (by decide)) h
    · exact h
  rw [if_neg h2]
  by_cases h3 : off = Off.RDG_SAG
  · rw [if_pos h3]; exact State.writeSag_good _ _ h
  rw [if_neg h3]
  by_cases h4 : off = Off.RDG_THERM
  · rw [if_pos h4]; exact State.writeTherm_good _ _ h
  rw [if_neg h4]
  by_cases h5 : off = Off.RDG_PKG_RESET
  · rw [if_pos h5]
    split
    · exact State.pkgReset_good _ _ _ h
    · exact h
  rw [if_neg h5]
  by_cases h6 : off = Off.RDG_ASSET
  · rw [if_pos h6]; exact State.Good.same (State.plainWrite_good _ _ _ _ h) rfl rfl rfl rfl rfl rfl rfl rfl rfl rfl
  rw [if_neg h6]
  by_cases h7 : off = Off.RDG_PTP
  · rw [if_pos h7]; exact State.writePtp_good _ _ h
  rw [if_neg h7]
  by_cases h8 : off = Off.RDG_BAND
  · rw [if_pos h8]; exact State.writeBand_good _ _ h
  rw [if_neg h8]
  by_cases h9 : off = Off.RDG_NODE
  · rw [if_pos h9]; exact State.writeNode_good _ _ h
  rw [if_neg h9]
  by_cases h10 : off = Off.RDG_XLATE_INV
  · rw [if_pos h10]; exact State.writeXlate_good _ _ h
  rw [if_neg h10]
  by_cases h11 : off = Off.RDG_CTX_RESET
  · rw [if_pos h11]
    split
    · exact State.ctxReset_good _ _ h
    · exact h
  rw [if_neg h11]
  by_cases h12 : off = Off.RDG_ACCT_CLR
  · rw [if_pos h12]
    split
    · exact State.clearAcct_good _ _ h
    · exact h
  rw [if_neg h12]
  by_cases h13 : 0x700 ≤ off ∧ off ≤ 0x768
  · rw [if_pos h13]; exact State.writeRing_good _ _ _ _ _ _ h
  rw [if_neg h13]
  by_cases h14 : 0x800 ≤ off ∧ off ≤ 0x818
  · rw [if_pos h14]; exact State.writeLog_good _ _ _ _ h
  rw [if_neg h14]
  exact State.plainWrite_good _ _ _ _ h

@[simp] theorem State.writeRft_good {pend : List Instr} (s : State) (a : Nat) (r : RegDef) (v : Word)
    (hg : s.Good pend) : (State.writeRft s a r v).Good pend := by
  unfold State.writeRft
  simp (maxDischargeDepth := 99) +contextual [hg]

@[simp] theorem State.writeThc_good {pend : List Instr} (s : State) (src : HostSrc) (a : Nat) (r : RegDef) (v : Word)
    (hg : s.Good pend) : (State.writeThc s src a r v).Good pend := by
  have h := hg
  unfold State.writeThc
  extract_lets +onlyGivenNames off d t n
  split
  · exact State.clearIf_good _ _ _ h
  · split
    · exact State.plainWrite_good _ _ _ _ h
    · split
      · exact State.plainWrite_good _ _ _ _ h
      · exact State.plainWrite_good _ _ _ _ h
      · extract_lets +onlyGivenNames s1
        have h1 : s1.Good pend := State.plainWrite_good _ _ _ _ h
        split
        · exact State.writeGo_good _ _ _ _ h1
        · exact h1
      · extract_lets +onlyGivenNames s1
        have h1 : s1.Good pend := by
          show State.Good pend (if _ then _ else _)
          split
          · exact State.ligResume_good _ _ _ h
          · exact h
        split
        · exact State.ligAbort_good _ _ _ h1
        · exact h1
      · exact State.plainWrite_good _ _ _ _ h

@[simp] theorem State.writeEav_good {pend : List Instr} (s : State) (low : Bool) (a : Nat) (r : RegDef) (v : Word) (hg : s.Good pend) :
    (State.writeEav s low a r v).Good pend := by
  unfold State.writeEav
  repeat' (first | assumption | (extract_lets +onlyGivenNames v; refine (fun (hv : State.Good pend v) => ?_) ?_; (on_goal 2 => subst v); (on_goal 1 => clear_value v)) | (extract_lets +onlyGivenNames v; refine (fun (hv : State.Good pend v.1) => ?_) ?_; (on_goal 2 => subst v); (on_goal 1 => clear_value v)) | (extract_lets +onlyGivenNames v; clear_value v) | (simp (maxDischargeDepth := 99) +contextual [*]; done) | (refine State.good_forAll _ _ (fun _ _ _ => ?_) ?_) | (refine State.good_iter _ _ (fun _ _ _ => ?_) ?_) | split)

@[simp] theorem State.writeBtn_good {pend : List Instr} (s : State) (a : Nat) (r : RegDef) (v : Word)
    (hg : s.Good pend) : (State.writeBtn s a r v).Good pend := by
  unfold State.writeBtn
  simp (maxDischargeDepth := 99) +contextual [hg]

@[simp] theorem State.writeDmr_good {pend : List Instr} (s : State) (a : Nat) (r : RegDef) (v : Word)
    (hg : s.Good pend) : (State.writeDmr s a r v).Good pend := by
  unfold State.writeDmr
  simp (maxDischargeDepth := 99) +contextual [hg]

@[simp] theorem State.writeCtx_good {pend : List Instr} (s : State) (src : HostSrc) (low : Bool) (a : Nat) (r : RegDef) (v : Word)
    (hg : s.Good pend) : (State.writeCtx s src low a r v).Good pend := by
  have h := hg
  unfold State.writeCtx
  extract_lets +onlyGivenNames off c w
  by_cases h1 : 0x100 ≤ off ∧ off ≤ 0x168
  · rw [if_pos h1]; exact State.writeRing_good _ _ _ _ _ _ h
  rw [if_neg h1]
  by_cases h2 : off = Off.CTX_IRQ_RAW
  · rw [if_pos h2]; exact State.setCtxIrq_good _ _ _ _ h
  rw [if_neg h2]
  by_cases h3 : off = Off.CTX_IRQ_EN
  · rw [if_pos h3]; exact State.setCtxIrq_good _ _ _ _ h
  rw [if_neg h3]
  by_cases h4 : off = Off.CTX_QFLUSH
  · rw [if_pos h4]
    split
    · exact State.writeFlush_good _ _ _ h
    · exact h
  rw [if_neg h4]
  by_cases h5 : off = Off.CTX_PIPE_CLR
  · rw [if_pos h5]; exact State.clearPipe_good _ _ _ h
  rw [if_neg h5]
  by_cases h6 : clearsOf off ≠ []
  · rw [if_pos h6]; exact State.clearCtx_good _ _ _ _ h
  rw [if_neg h6]
  by_cases h7 : off = Off.CTX_STEP ∨ off = Off.CTX_RNG_STEP ∨ off = Off.CTX_DATA_CURSOR
  · rw [if_pos h7]; exact State.writeTraining_good _ _ _ _ h
  rw [if_neg h7]
  by_cases h8 : off = Off.CTX_MIR_OUT
  · rw [if_pos h8]; exact State.modCtx_good _ _ _ (State.setReg_good _ _ _ h)
  rw [if_neg h8]
  by_cases h9 : off = Off.CTX_SNAP_ADDR
  · rw [if_pos h9]
    extract_lets +onlyGivenNames n s1
    have h1 : s1.Good pend := State.setReg_good _ _ _ h
    split
    · exact State.modCtx_good _ _ _ h1
    · exact h1
  rw [if_neg h9]
  by_cases h10 : off = Off.CTX_CKPT_CTL
  · rw [if_pos h10]; exact State.setReg_good _ _ _ h
  rw [if_neg h10]
  by_cases h11 : 0xB00 ≤ off ∧ off ≤ 0xB18
  · rw [if_pos h11]; exact State.writeLog_good _ _ _ _ h
  rw [if_neg h11]
  exact State.setReg_good _ _ _ (State.keepTaken_good _ _ _ h)

@[simp] theorem State.writeReg_good {pend : List Instr} (s : State) (src : HostSrc) (low : Bool) (a : Nat) (v : Word)
    (hg : s.Good pend) : (State.writeReg s src low a v).Good pend := by
  have h := hg
  unfold State.writeReg
  split
  · split
    · exact State.writeHdr_good _ _ _ _ _ h
    · split
      · exact State.writeRdg_good _ _ _ _ _ _ h
      · exact State.writeRft_good _ _ _ _ h
      · exact State.writeThc_good _ _ _ _ _ h
      · exact State.writeEav_good _ _ _ _ _ h
      · exact State.writeBtn_good _ _ _ _ h
      · exact State.writeDmr_good _ _ _ _ h
      · exact State.writeCtx_good _ _ _ _ _ _ h
      · exact State.plainWrite_good _ _ _ _ h
      · exact State.plainWrite_good _ _ _ _ h
      · exact State.plainWrite_good _ _ _ _ h
  · exact h

@[simp] theorem State.lockViolation_good {pend : List Instr} (s : State) (src : HostSrc) (a : Nat)
    (hg : s.Good pend) : (State.lockViolation s src a).Good pend := by
  unfold State.lockViolation
  simp (maxDischargeDepth := 99) +contextual [hg]

@[simp] theorem State.pageWrite_good {pend : List Instr} (s : State) (src : HostSrc) (a : Nat) (size : AccSize) (value : Word)
    (hg : s.Good pend) : (State.pageWrite s src a size value).Good pend := by
  unfold State.pageWrite
  repeat' (first | assumption | (extract_lets +onlyGivenNames v; refine (fun (hv : State.Good pend v) => ?_) ?_; (on_goal 2 => subst v); (on_goal 1 => clear_value v)) | (extract_lets +onlyGivenNames v; refine (fun (hv : State.Good pend v.1) => ?_) ?_; (on_goal 2 => subst v); (on_goal 1 => clear_value v)) | (extract_lets +onlyGivenNames v; clear_value v) | (simp (maxDischargeDepth := 99) +contextual [*]; done) | (refine State.good_forAll _ _ (fun _ _ _ => ?_) ?_) | (refine State.good_iter _ _ (fun _ _ _ => ?_) ?_) | split)

@[simp] theorem State.countVf_good {pend : List Instr} (s : State) (src : HostSrc) (size : AccSize)
    (hg : s.Good pend) : (State.countVf s src size).Good pend := by
  unfold State.countVf
  repeat' (first | assumption | (extract_lets +onlyGivenNames v; refine (fun (hv : State.Good pend v) => ?_) ?_; (on_goal 2 => subst v); (on_goal 1 => clear_value v)) | (extract_lets +onlyGivenNames v; refine (fun (hv : State.Good pend v.1) => ?_) ?_; (on_goal 2 => subst v); (on_goal 1 => clear_value v)) | (extract_lets +onlyGivenNames v; clear_value v) | (simp (maxDischargeDepth := 99) +contextual [*]; done) | (refine State.good_forAll _ _ (fun _ _ _ => ?_) ?_) | (refine State.good_iter _ _ (fun _ _ _ => ?_) ?_) | split)

@[simp] theorem State.hostWriteNow_good {pend : List Instr} (s : State) (src : HostSrc) (a : Nat) (size : AccSize) (value : Word) (hg : s.Good pend) :
    (State.hostWriteNow s src a size value).Good pend := by
  unfold State.hostWriteNow
  repeat' (first | assumption | (extract_lets +onlyGivenNames v; refine (fun (hv : State.Good pend v) => ?_) ?_; (on_goal 2 => subst v); (on_goal 1 => clear_value v)) | (extract_lets +onlyGivenNames v; refine (fun (hv : State.Good pend v.1) => ?_) ?_; (on_goal 2 => subst v); (on_goal 1 => clear_value v)) | (extract_lets +onlyGivenNames v; clear_value v) | (simp (maxDischargeDepth := 99) +contextual [*]; done) | (refine State.good_forAll _ _ (fun _ _ _ => ?_) ?_) | (refine State.good_iter _ _ (fun _ _ _ => ?_) ?_) | split)

@[simp] theorem State.hostWrite_good {pend : List Instr} (s : State) (src : HostSrc) (a : Nat) (size : AccSize) (value : Word)
    (hg : s.Good pend) : (State.hostWrite s src a size value).Good pend := by
  unfold State.hostWrite
  repeat' (first | assumption | (extract_lets +onlyGivenNames v; refine (fun (hv : State.Good pend v) => ?_) ?_; (on_goal 2 => subst v); (on_goal 1 => clear_value v)) | (extract_lets +onlyGivenNames v; refine (fun (hv : State.Good pend v.1) => ?_) ?_; (on_goal 2 => subst v); (on_goal 1 => clear_value v)) | (extract_lets +onlyGivenNames v; clear_value v) | (simp (maxDischargeDepth := 99) +contextual [*]; done) | (refine State.good_forAll _ _ (fun _ _ _ => ?_) ?_) | (refine State.good_iter _ _ (fun _ _ _ => ?_) ?_) | split)

@[simp] theorem State.countRead_good {pend : List Instr} (s : State) (src : HostSrc) (a : Nat) (size : AccSize) (hg : s.Good pend) :
    (State.countRead s src a size).Good pend := by
  unfold State.countRead
  repeat' (first | assumption | (extract_lets +onlyGivenNames v; refine (fun (hv : State.Good pend v) => ?_) ?_; (on_goal 2 => subst v); (on_goal 1 => clear_value v)) | (extract_lets +onlyGivenNames v; refine (fun (hv : State.Good pend v.1) => ?_) ?_; (on_goal 2 => subst v); (on_goal 1 => clear_value v)) | (extract_lets +onlyGivenNames v; clear_value v) | (simp (maxDischargeDepth := 99) +contextual [*]; done) | (refine State.good_forAll _ _ (fun _ _ _ => ?_) ?_) | (refine State.good_iter _ _ (fun _ _ _ => ?_) ?_) | split)

@[simp] theorem State.write8_good {pend : List Instr} (s : State) (src : HostSrc) (a : Nat) (value : Word)
    (hg : s.Good pend) : (State.write8 s src a value).Good pend := by
  unfold State.write8
  simp (maxDischargeDepth := 99) +contextual [hg]

theorem execRegisterWrite_good {pend : List Instr} (src : HostSrc) (addr : Nat) (size : AccSize) (value : Word) (s : State)
    (hg : s.Good pend) : Out.Good pend (execRegisterWrite src addr size value s) := by
  unfold execRegisterWrite
  simp (maxDischargeDepth := 99) +contextual [hg]

theorem execThermClear_good {pend : List Instr} (src : HostSrc) (s : State) (hg : s.Good pend) : Out.Good pend (execThermClear src s) := by
  unfold execThermClear
  simp (maxDischargeDepth := 99) +contextual [hg]

theorem execClkDivWrite_good {pend : List Instr} (src : HostSrc) (div : Nat) (s : State)
    (hg : s.Good pend) : Out.Good pend (execClkDivWrite src div s) := by
  unfold execClkDivWrite
  simp (maxDischargeDepth := 99) +contextual [hg]

theorem execClkRestore_good {pend : List Instr} (src : HostSrc) (s : State) (hg : s.Good pend) : Out.Good pend (execClkRestore src s) := by
  unfold execClkRestore
  simp (maxDischargeDepth := 99) +contextual [hg]

theorem execSagRPrefetch_good {pend : List Instr} (src : HostSrc) (s : State) (hg : s.Good pend) : Out.Good pend (execSagRPrefetch src s) := by
  unfold execSagRPrefetch
  simp (maxDischargeDepth := 99) +contextual [hg]

theorem execSagRResume_good {pend : List Instr} (src : HostSrc) (s : State) (hg : s.Good pend) : Out.Good pend (execSagRResume src s) := by
  unfold execSagRResume
  simp (maxDischargeDepth := 99) +contextual [hg]

theorem execSagClrMax_good {pend : List Instr} (src : HostSrc) (s : State) (hg : s.Good pend) : Out.Good pend (execSagClrMax src s) := by
  unfold execSagClrMax
  simp (maxDischargeDepth := 99) +contextual [hg]

theorem execPstateActive_good {pend : List Instr} (src : HostSrc) (s : State) (hg : s.Good pend) : Out.Good pend (execPstateActive src s) := by
  unfold execPstateActive
  simp (maxDischargeDepth := 99) +contextual [hg]

theorem execPstateHold_good {pend : List Instr} (src : HostSrc) (s : State) (hg : s.Good pend) : Out.Good pend (execPstateHold src s) := by
  unfold execPstateHold
  simp (maxDischargeDepth := 99) +contextual [hg]

theorem execPstateNap_good {pend : List Instr} (src : HostSrc) (s : State) (hg : s.Good pend) : Out.Good pend (execPstateNap src s) := by
  unfold execPstateNap
  simp (maxDischargeDepth := 99) +contextual [hg]

theorem execPstateDormant_good {pend : List Instr} (src : HostSrc) (s : State) (hg : s.Good pend) : Out.Good pend (execPstateDormant src s) := by
  unfold execPstateDormant
  simp (maxDischargeDepth := 99) +contextual [hg]

theorem execPkgResetWrite_good {pend : List Instr} (src : HostSrc) (code : Nat) (go : Bool) (s : State)
    (hg : s.Good pend) : Out.Good pend (execPkgResetWrite src code go s) := by
  unfold execPkgResetWrite
  simp (maxDischargeDepth := 99) +contextual [hg]

theorem execQueueFlush_good {pend : List Instr} (src : HostSrc) (c link : Nat) (s : State)
    (hg : s.Good pend) : Out.Good pend (execQueueFlush src c link s) := by
  unfold execQueueFlush
  simp (maxDischargeDepth := 99) +contextual [hg]

theorem execPtpSelect_good {pend : List Instr} (src : HostSrc) (value : Word) (s : State)
    (hg : s.Good pend) : Out.Good pend (execPtpSelect src value s) := by
  unfold execPtpSelect
  simp (maxDischargeDepth := 99) +contextual [hg]

theorem execEavPctlWrite_good {pend : List Instr} (src : HostSrc) (port : Nat) (value : Word) (s : State)
    (hg : s.Good pend) : Out.Good pend (execEavPctlWrite src port value s) := by
  unfold execEavPctlWrite
  simp (maxDischargeDepth := 99) +contextual [hg]

theorem execEavWrrWrite_good {pend : List Instr} (src : HostSrc) (port : Nat) (value : Word) (s : State)
    (hg : s.Good pend) : Out.Good pend (execEavWrrWrite src port value s) := by
  unfold execEavWrrWrite
  simp (maxDischargeDepth := 99) +contextual [hg]

theorem execNodeWrite_good {pend : List Instr} (src : HostSrc) (node : Nat) (s : State)
    (hg : s.Good pend) : Out.Good pend (execNodeWrite src node s) := by
  unfold execNodeWrite
  simp (maxDischargeDepth := 99) +contextual [hg]

theorem execStrandRetire_good {pend : List Instr} (src : HostSrc) (die dir mask : Nat) (s : State)
    (hg : s.Good pend) : Out.Good pend (execStrandRetire src die dir mask s) := by
  unfold execStrandRetire
  simp (maxDischargeDepth := 99) +contextual [hg]

theorem execSitePowerOn_good {pend : List Instr} (src : HostSrc) (site : Nat) (s : State)
    (hg : s.Good pend) : Out.Good pend (execSitePowerOn src site s) := by
  unfold execSitePowerOn
  simp (maxDischargeDepth := 99) +contextual [hg]

theorem execBandWrite_good {pend : List Instr} (src : HostSrc) (kinds : Nat) (s : State)
    (hg : s.Good pend) : Out.Good pend (execBandWrite src kinds s) := by
  unfold execBandWrite
  simp (maxDischargeDepth := 99) +contextual [hg]

theorem execLiggerResume_good {pend : List Instr} (src : HostSrc) (t eng : Nat) (s : State)
    (hg : s.Good pend) : Out.Good pend (execLiggerResume src t eng s) := by
  unfold execLiggerResume
  simp (maxDischargeDepth := 99) +contextual [hg]

theorem execLiggerAbort_good {pend : List Instr} (src : HostSrc) (t eng : Nat) (s : State)
    (hg : s.Good pend) : Out.Good pend (execLiggerAbort src t eng s) := by
  unfold execLiggerAbort
  simp (maxDischargeDepth := 99) +contextual [hg]

theorem execDoorbell_good {pend : List Instr} (src : HostSrc) (ring : Option Nat) (tail : Nat) (s : State)
    (hg : s.Good pend) : Out.Good pend (execDoorbell src ring tail s) := by
  unfold execDoorbell
  repeat' (first | assumption | (extract_lets +onlyGivenNames v; refine (fun (hv : State.Good pend v) => ?_) ?_; (on_goal 2 => subst v); (on_goal 1 => clear_value v)) | (extract_lets +onlyGivenNames v; refine (fun (hv : State.Good pend v.1) => ?_) ?_; (on_goal 2 => subst v); (on_goal 1 => clear_value v)) | (extract_lets +onlyGivenNames v; clear_value v) | (simp (maxDischargeDepth := 99) +contextual [*]; done) | (refine State.good_forAll _ _ (fun _ _ _ => ?_) ?_) | (refine State.good_iter _ _ (fun _ _ _ => ?_) ?_) | split)

theorem execCplHeadWrite_good {pend : List Instr} (src : HostSrc) (c head : Nat) (s : State)
    (hg : s.Good pend) : Out.Good pend (execCplHeadWrite src c head s) := by
  unfold execCplHeadWrite
  simp (maxDischargeDepth := 99) +contextual [hg]

theorem execCplBaseWrite_good {pend : List Instr} (src : HostSrc) (c : Nat) (base : Word) (s : State)
    (hg : s.Good pend) : Out.Good pend (execCplBaseWrite src c base s) := by
  unfold execCplBaseWrite
  simp (maxDischargeDepth := 99) +contextual [hg]

theorem execResAck_good {pend : List Instr} (src : HostSrc) (c : Nat) (seq : BitVec 32) (s : State)
    (hg : s.Good pend) : Out.Good pend (execResAck src c seq s) := by
  unfold execResAck
  simp (maxDischargeDepth := 99) +contextual [hg]

theorem execCmdRingConfigWrite_good {pend : List Instr} (src : HostSrc) (c : Nat) (isCtl : Bool) (value : Word) (s : State)
    (hg : s.Good pend) : Out.Good pend (execCmdRingConfigWrite src c isCtl value s) := by
  unfold execCmdRingConfigWrite
  simp (maxDischargeDepth := 99) +contextual [hg]

theorem execEvlogConfigWrite_good {pend : List Instr} (src : HostSrc) (c : Nat) (isCtl : Bool) (value : Word) (s : State)
    (hg : s.Good pend) : Out.Good pend (execEvlogConfigWrite src c isCtl value s) := by
  unfold execEvlogConfigWrite
  simp (maxDischargeDepth := 99) +contextual [hg]

theorem execEvlogReadWrite_good {pend : List Instr} (src : HostSrc) (c : Nat) (read : BitVec 32) (s : State)
    (hg : s.Good pend) : Out.Good pend (execEvlogReadWrite src c read s) := by
  unfold execEvlogReadWrite
  simp (maxDischargeDepth := 99) +contextual [hg]

theorem execEvlogClrLost_good {pend : List Instr} (src : HostSrc) (c : Nat) (s : State)
    (hg : s.Good pend) : Out.Good pend (execEvlogClrLost src c s) := by
  unfold execEvlogClrLost
  simp (maxDischargeDepth := 99) +contextual [hg]

theorem execTrainingRegisterWrite_good {pend : List Instr} (src : HostSrc) (c which : Nat) (value : Word) (s : State)
    (hg : s.Good pend) : Out.Good pend (execTrainingRegisterWrite src c which value s) := by
  unfold execTrainingRegisterWrite
  simp (maxDischargeDepth := 99) +contextual [hg]

theorem execXlateInv_good {pend : List Instr} (src : HostSrc) (c : Nat) (s : State) (hg : s.Good pend) : Out.Good pend (execXlateInv src c s) := by
  unfold execXlateInv
  simp (maxDischargeDepth := 99) +contextual [hg]

theorem execCtxReset_good {pend : List Instr} (src : HostSrc) (c : Nat) (s : State) (hg : s.Good pend) : Out.Good pend (execCtxReset src c s) := by
  unfold execCtxReset
  simp (maxDischargeDepth := 99) +contextual [hg]

theorem execAcctClr_good {pend : List Instr} (src : HostSrc) (c : Nat) (s : State) (hg : s.Good pend) : Out.Good pend (execAcctClr src c s) := by
  unfold execAcctClr
  simp (maxDischargeDepth := 99) +contextual [hg]

theorem execEpoch_good {pend : List Instr} (src : HostSrc) (r : Nat) (s : State) (hg : s.Good pend) : Out.Good pend (execEpoch src r s) := by
  unfold execEpoch
  simp (maxDischargeDepth := 99) +contextual [hg]

theorem execVoffWrite_good {pend : List Instr} (src : HostSrc) (r steps : Nat) (s : State)
    (hg : s.Good pend) : Out.Good pend (execVoffWrite src r steps s) := by
  unfold execVoffWrite
  simp (maxDischargeDepth := 99) +contextual [hg]

theorem execTileRetire_good {pend : List Instr} (src : HostSrc) (r tile : Nat) (s : State)
    (hg : s.Good pend) : Out.Good pend (execTileRetire src r tile s) := by
  unfold execTileRetire
  simp (maxDischargeDepth := 99) +contextual [hg]

theorem execSchedClrMiss_good {pend : List Instr} (src : HostSrc) (c : Nat) (s : State)
    (hg : s.Good pend) : Out.Good pend (execSchedClrMiss src c s) := by
  unfold execSchedClrMiss
  simp (maxDischargeDepth := 99) +contextual [hg]

theorem execSchedClrSlip_good {pend : List Instr} (src : HostSrc) (c : Nat) (s : State)
    (hg : s.Good pend) : Out.Good pend (execSchedClrSlip src c s) := by
  unfold execSchedClrSlip
  simp (maxDischargeDepth := 99) +contextual [hg]

theorem execSchedClrWait_good {pend : List Instr} (src : HostSrc) (c : Nat) (s : State)
    (hg : s.Good pend) : Out.Good pend (execSchedClrWait src c s) := by
  unfold execSchedClrWait
  simp (maxDischargeDepth := 99) +contextual [hg]

theorem execSchedClrSusp_good {pend : List Instr} (src : HostSrc) (c : Nat) (s : State)
    (hg : s.Good pend) : Out.Good pend (execSchedClrSusp src c s) := by
  unfold execSchedClrSusp
  simp (maxDischargeDepth := 99) +contextual [hg]

theorem execArithClrSat_good {pend : List Instr} (src : HostSrc) (c : Nat) (s : State)
    (hg : s.Good pend) : Out.Good pend (execArithClrSat src c s) := by
  unfold execArithClrSat
  simp (maxDischargeDepth := 99) +contextual [hg]

theorem execArithClrGate_good {pend : List Instr} (src : HostSrc) (c : Nat) (s : State)
    (hg : s.Good pend) : Out.Good pend (execArithClrGate src c s) := by
  unfold execArithClrGate
  simp (maxDischargeDepth := 99) +contextual [hg]

theorem execArithClrPoison_good {pend : List Instr} (src : HostSrc) (c : Nat) (s : State)
    (hg : s.Good pend) : Out.Good pend (execArithClrPoison src c s) := by
  unfold execArithClrPoison
  simp (maxDischargeDepth := 99) +contextual [hg]

theorem execSfuClrMasked_good {pend : List Instr} (src : HostSrc) (c : Nat) (s : State)
    (hg : s.Good pend) : Out.Good pend (execSfuClrMasked src c s) := by
  unfold execSfuClrMasked
  simp (maxDischargeDepth := 99) +contextual [hg]

theorem execSfuClrNan_good {pend : List Instr} (src : HostSrc) (c : Nat) (s : State) (hg : s.Good pend) : Out.Good pend (execSfuClrNan src c s) := by
  unfold execSfuClrNan
  simp (maxDischargeDepth := 99) +contextual [hg]

theorem execSlotClrOverflow_good {pend : List Instr} (src : HostSrc) (c : Nat) (s : State)
    (hg : s.Good pend) : Out.Good pend (execSlotClrOverflow src c s) := by
  unfold execSlotClrOverflow
  simp (maxDischargeDepth := 99) +contextual [hg]

theorem execSlotClrEmpty_good {pend : List Instr} (src : HostSrc) (c : Nat) (s : State)
    (hg : s.Good pend) : Out.Good pend (execSlotClrEmpty src c s) := by
  unfold execSlotClrEmpty
  simp (maxDischargeDepth := 99) +contextual [hg]

theorem execPipeClrQcount_good {pend : List Instr} (src : HostSrc) (c : Nat) (s : State)
    (hg : s.Good pend) : Out.Good pend (execPipeClrQcount src c s) := by
  unfold execPipeClrQcount
  simp (maxDischargeDepth := 99) +contextual [hg]

theorem execPipeClrChan_good {pend : List Instr} (src : HostSrc) (c : Nat) (s : State)
    (hg : s.Good pend) : Out.Good pend (execPipeClrChan src c s) := by
  unfold execPipeClrChan
  simp (maxDischargeDepth := 99) +contextual [hg]

theorem execMemClrEcc_good {pend : List Instr} (src : HostSrc) (t : Nat) (s : State) (hg : s.Good pend) : Out.Good pend (execMemClrEcc src t s) := by
  unfold execMemClrEcc
  simp (maxDischargeDepth := 99) +contextual [hg]

theorem execMemClrWin_good {pend : List Instr} (src : HostSrc) (t : Nat) (s : State) (hg : s.Good pend) : Out.Good pend (execMemClrWin src t s) := by
  unfold execMemClrWin
  simp (maxDischargeDepth := 99) +contextual [hg]

theorem execCtxMemClrPoison_good {pend : List Instr} (src : HostSrc) (c : Nat) (s : State)
    (hg : s.Good pend) : Out.Good pend (execCtxMemClrPoison src c s) := by
  unfold execCtxMemClrPoison
  simp (maxDischargeDepth := 99) +contextual [hg]

theorem execTrainClrSkip_good {pend : List Instr} (src : HostSrc) (c : Nat) (s : State)
    (hg : s.Good pend) : Out.Good pend (execTrainClrSkip src c s) := by
  unfold execTrainClrSkip
  simp (maxDischargeDepth := 99) +contextual [hg]

theorem execCollClrSts_good {pend : List Instr} (src : HostSrc) (c : Nat) (s : State)
    (hg : s.Good pend) : Out.Good pend (execCollClrSts src c s) := by
  unfold execCollClrSts
  simp (maxDischargeDepth := 99) +contextual [hg]

theorem execCollClrChunks_good {pend : List Instr} (src : HostSrc) (c : Nat) (s : State)
    (hg : s.Good pend) : Out.Good pend (execCollClrChunks src c s) := by
  unfold execCollClrChunks
  simp (maxDischargeDepth := 99) +contextual [hg]

theorem execCollClrStale_good {pend : List Instr} (src : HostSrc) (c : Nat) (s : State)
    (hg : s.Good pend) : Out.Good pend (execCollClrStale src c s) := by
  unfold execCollClrStale
  simp (maxDischargeDepth := 99) +contextual [hg]

theorem execEavClrPorts_good {pend : List Instr} (src : HostSrc) (e : Nat) (s : State)
    (hg : s.Good pend) : Out.Good pend (execEavClrPorts src e s) := by
  unfold execEavClrPorts
  simp (maxDischargeDepth := 99) +contextual [hg]

theorem execEavClrDrop_good {pend : List Instr} (src : HostSrc) (e : Nat) (s : State)
    (hg : s.Good pend) : Out.Good pend (execEavClrDrop src e s) := by
  unfold execEavClrDrop
  simp (maxDischargeDepth := 99) +contextual [hg]

theorem execEavClrRelay_good {pend : List Instr} (src : HostSrc) (e : Nat) (s : State)
    (hg : s.Good pend) : Out.Good pend (execEavClrRelay src e s) := by
  unfold execEavClrRelay
  simp (maxDischargeDepth := 99) +contextual [hg]

theorem execEavClrReroute_good {pend : List Instr} (src : HostSrc) (e : Nat) (s : State)
    (hg : s.Good pend) : Out.Good pend (execEavClrReroute src e s) := by
  unfold execEavClrReroute
  simp (maxDischargeDepth := 99) +contextual [hg]

theorem execResClrMirwait_good {pend : List Instr} (src : HostSrc) (c : Nat) (s : State)
    (hg : s.Good pend) : Out.Good pend (execResClrMirwait src c s) := by
  unfold execResClrMirwait
  simp (maxDischargeDepth := 99) +contextual [hg]

theorem execResClrCkpt_good {pend : List Instr} (src : HostSrc) (c : Nat) (s : State)
    (hg : s.Good pend) : Out.Good pend (execResClrCkpt src c s) := by
  unfold execResClrCkpt
  simp (maxDischargeDepth := 99) +contextual [hg]

theorem execClrErr_good {pend : List Instr} (src : HostSrc) (addr : Nat) (s : State) (hg : s.Good pend) : Out.Good pend (execClrErr src addr s) := by
  unfold execClrErr
  simp (maxDischargeDepth := 99) +contextual [hg]

/-! ## Machine/Power.lean -/

theorem execSupplySample_good {pend : List Instr} (tabs : List Nat) (s : State) (hg : s.Good pend) : Out.Good pend (execSupplySample tabs s) := by
  unfold execSupplySample
  dsimp only
  repeat' (first | (simp_all (maxDischargeDepth := 99) +contextual; done) | split)

@[simp] theorem State.setLevel_good {pend : List Instr} (s : State) (level : Nat) (hg : s.Good pend) : (State.setLevel s level).Good pend := by
  unfold State.setLevel
  simp (maxDischargeDepth := 99) +contextual [hg]

@[simp] theorem State.pauseEngine_good {pend : List Instr} (s : State) (t n : Nat) (hg : s.Good pend) : (State.pauseEngine s t n).Good pend := by
  unfold State.pauseEngine
  simp (maxDischargeDepth := 99) +contextual [hg]

@[simp] theorem State.sagAction_good {pend : List Instr} (s : State) (level : Nat) (hg : s.Good pend) : (State.sagAction s level).Good pend := by
  have h := hg
  unfold State.sagAction
  extract_lets +onlyGivenNames s1
  have h1 : s1.Good pend := State.Good.same h rfl rfl rfl rfl rfl rfl rfl rfl rfl rfl
  clear_value s1
  split
  · have h2 : State.Good pend (((s1.siteOff 0).siteOff 1).allEngines fun t n u => u.pauseEngine t n) :=
      State.allEngines_good _ _ (fun t n u hu => State.pauseEngine_good _ _ _ hu) (State.siteOff_good _ _ (State.siteOff_good _ _ h1))
    exact State.Good.same h2 rfl rfl rfl rfl rfl rfl rfl rfl rfl rfl
  · exact State.forceDiv_good _ h1
  · exact State.Good.same h1 rfl rfl rfl rfl rfl rfl rfl rfl rfl rfl
  · exact State.shutDown_good _ h1
  · exact h1

@[simp] theorem State.enterLevel_good {pend : List Instr} (s : State) (level : Nat) (hg : s.Good pend) : (State.enterLevel s level).Good pend := by
  unfold State.enterLevel
  simp (maxDischargeDepth := 99) +contextual [hg]

@[simp] theorem State.undoPstate_good {pend : List Instr} (s : State) (hg : s.Good pend) :
    (State.undoPstate s).Good pend := by
  unfold State.undoPstate
  split
  · have h := State.wf_good _ Off.RDG_PSTATE 4 2 s.pstate (State.wf_good _ Off.RDG_PSTATE 5 5 1 hg)
    exact ⟨h.queue, h.regs, h.mem, h.scratch, h.hostMem, h.cache, h.ctxs, h.dies, h.pstate, fun t ht => by simp at ht⟩
  · exact hg

theorem execSagLevelEnter_good {pend : List Instr} (level : Nat) (s : State) (hg : s.Good pend) : Out.Good pend (execSagLevelEnter level s) := by
  unfold execSagLevelEnter
  repeat' (first | assumption | (extract_lets +onlyGivenNames v; refine (fun (hv : State.Good pend v) => ?_) ?_; (on_goal 2 => subst v); (on_goal 1 => clear_value v)) | (extract_lets +onlyGivenNames v; refine (fun (hv : State.Good pend v.1) => ?_) ?_; (on_goal 2 => subst v); (on_goal 1 => clear_value v)) | (extract_lets +onlyGivenNames v; clear_value v) | (simp (maxDischargeDepth := 99) +contextual [*]; done) | (refine State.good_forAll _ _ (fun _ _ _ => ?_) ?_) | (refine State.good_iter _ _ (fun _ _ _ => ?_) ?_) | split)

theorem execSagLevelLeave_good {pend : List Instr} (level : Nat) (s : State) (hg : s.Good pend) : Out.Good pend (execSagLevelLeave level s) := by
  unfold execSagLevelLeave
  repeat' (first | assumption | (extract_lets +onlyGivenNames v; refine (fun (hv : State.Good pend v) => ?_) ?_; (on_goal 2 => subst v); (on_goal 1 => clear_value v)) | (extract_lets +onlyGivenNames v; refine (fun (hv : State.Good pend v.1) => ?_) ?_; (on_goal 2 => subst v); (on_goal 1 => clear_value v)) | (extract_lets +onlyGivenNames v; clear_value v) | (simp (maxDischargeDepth := 99) +contextual [*]; done) | (refine State.good_forAll _ _ (fun _ _ _ => ?_) ?_) | (refine State.good_iter _ _ (fun _ _ _ => ?_) ?_) | split)

theorem execSelfRefreshEnter_good {pend : List Instr} (s : State) (hg : s.Good pend) : Out.Good pend (execSelfRefreshEnter s) := by
  unfold execSelfRefreshEnter
  repeat' (first | assumption | (extract_lets +onlyGivenNames v; refine (fun (hv : State.Good pend v) => ?_) ?_; (on_goal 2 => subst v); (on_goal 1 => clear_value v)) | (extract_lets +onlyGivenNames v; refine (fun (hv : State.Good pend v.1) => ?_) ?_; (on_goal 2 => subst v); (on_goal 1 => clear_value v)) | (extract_lets +onlyGivenNames v; clear_value v) | (simp (maxDischargeDepth := 99) +contextual [*]; done) | (refine State.good_forAll _ _ (fun _ _ _ => ?_) ?_) | (refine State.good_iter _ _ (fun _ _ _ => ?_) ?_) | split)

theorem execThermalTrip_good {pend : List Instr} (die temp : Nat) (s : State) (hg : s.Good pend) : Out.Good pend (execThermalTrip die temp s) := by
  unfold execThermalTrip
  repeat' (first | assumption | (extract_lets +onlyGivenNames v; refine (fun (hv : State.Good pend v) => ?_) ?_; (on_goal 2 => subst v); (on_goal 1 => clear_value v)) | (extract_lets +onlyGivenNames v; refine (fun (hv : State.Good pend v.1) => ?_) ?_; (on_goal 2 => subst v); (on_goal 1 => clear_value v)) | (extract_lets +onlyGivenNames v; clear_value v) | (simp (maxDischargeDepth := 99) +contextual [*]; done) | (refine State.good_forAll _ _ (fun _ _ _ => ?_) ?_) | (refine State.good_iter _ _ (fun _ _ _ => ?_) ?_) | split)

theorem execThermalCrit_good {pend : List Instr} (die : Nat) (s : State) (hg : s.Good pend) : Out.Good pend (execThermalCrit die s) := by
  unfold execThermalCrit
  split <;> simp_all (maxDischargeDepth := 99) +contextual

theorem execTemperatureSample_good {pend : List Instr} (die temp : Nat) (s : State)
    (hg : s.Good pend) : Out.Good pend (execTemperatureSample die temp s) := by
  unfold execTemperatureSample
  repeat' (first | assumption | (extract_lets +onlyGivenNames v; refine (fun (hv : State.Good pend v) => ?_) ?_; (on_goal 2 => subst v); (on_goal 1 => clear_value v)) | (extract_lets +onlyGivenNames v; refine (fun (hv : State.Good pend v.1) => ?_) ?_; (on_goal 2 => subst v); (on_goal 1 => clear_value v)) | (extract_lets +onlyGivenNames v; clear_value v) | (simp (maxDischargeDepth := 99) +contextual [*]; done) | (refine State.good_forAll _ _ (fun _ _ _ => ?_) ?_) | (refine State.good_iter _ _ (fun _ _ _ => ?_) ?_) | split)

@[simp] theorem State.settleBuckets_good {pend : List Instr} (s : State) (hg : s.Good pend) :
    (State.settleBuckets s).Good pend := by
  unfold State.settleBuckets
  repeat' (first | assumption | (extract_lets +onlyGivenNames v; refine (fun (hv : State.Good pend v) => ?_) ?_; (on_goal 2 => subst v); (on_goal 1 => clear_value v)) | (extract_lets +onlyGivenNames v; refine (fun (hv : State.Good pend v.1) => ?_) ?_; (on_goal 2 => subst v); (on_goal 1 => clear_value v)) | (extract_lets +onlyGivenNames v; clear_value v) | (simp (maxDischargeDepth := 99) +contextual [*]; done) | (refine State.good_forAll _ _ (fun _ _ _ => ?_) ?_) | (refine State.good_iter _ _ (fun _ _ _ => ?_) ?_) | split)

theorem execDividerChange_good {pend : List Instr} (s : State) (hg : s.Good pend) : Out.Good pend (execDividerChange s) := by
  unfold execDividerChange
  split
  · exact hg
  · split
    · exact State.post_good _ _ hg
    · extract_lets s1 s2
      have h1 : s1.Good pend := State.setReg_good _ _ _ (State.wf_good _ _ _ _ _ (State.settleBuckets_good _ hg))
      have h2 : s2.Good pend := State.good_ite _ _ _ (fun _ => State.wf_good _ _ _ _ _ h1) fun _ => h1
      exact State.refreshAll_good _ h2

@[simp] theorem State.enterDormant_good {pend : List Instr} (s : State) (hg : s.Good pend) : (State.enterDormant s).Good pend := by
  have h := hg
  unfold State.enterDormant
  have h2 := State.mapCtxs_good _ Ctx.unplanned (State.flushCache_good _ h)
  exact ⟨h2.queue, h2.regs, h2.mem, Memory.wf_nil, h2.hostMem, h2.cache, h2.ctxs, h2.dies, h2.pstate, h2.psTarget⟩

@[simp] theorem State.passLaunches_good {pend : List Instr} (s : State) (c : Nat) (l : List Launch) (h : s.Good pend) :
    (s.passLaunches c l).Good pend := by
  induction l generalizing s with
  | nil => exact h
  | cons a r ih =>
    unfold State.passLaunches
    split
    · exact ih _ (State.refuseLaunch_good _ _ _ _ h)
    · exact h

@[simp] theorem State.enterActive_good {pend : List Instr} (s : State) (hg : s.Good pend) : (State.enterActive s).Good pend := by
  have h := hg
  unfold State.enterActive
  extract_lets +onlyGivenNames s1
  have h1 : s1.Good pend := State.good_forAll _ _ (fun e t ht => State.passLaunches_good _ _ _ ht) h
  split
  · exact h1
  · refine State.good_forAll _ _ (fun p t ht => ?_) (State.Good.same h1 rfl rfl rfl rfl rfl rfl rfl rfl rfl rfl)
    split
    · exact ht
    · exact State.drainPort_good _ _ ht

theorem execPstateDone_good {pend : List Instr} (s : State) (hg : s.Good pend) : Out.Good pend (execPstateDone s) := by
  have h := hg
  unfold execPstateDone
  split
  · exact h
  · next t ht =>
    have h0 := State.wf_good _ Off.RDG_PSTATE 4 2 t h
    have h1 : State.Good pend { s.wf Off.RDG_PSTATE 4 2 t with pstate := t, psTarget := none } :=
      ⟨h0.queue, h0.regs, h0.mem, h0.scratch, h0.hostMem, h0.cache, h0.ctxs, h0.dies, h.psTarget t ht, fun x hx => by simp at hx⟩
    refine State.raiseRdg_good _ _ ?_
    split
    · exact State.enterDormant_good _ h1
    · split
      · exact State.enterActive_good _ h1
      · exact h1

@[simp] theorem State.divideEnergy_good {pend : List Instr} (s : State) (d uj : Nat) (hg : s.Good pend) : (State.divideEnergy s d uj).Good pend := by
  unfold State.divideEnergy
  simp (maxDischargeDepth := 99) +contextual [hg]

theorem execEnergyInterval_good {pend : List Instr} (readings : List MeterReading) (s : State)
    (hg : s.Good pend) : Out.Good pend (execEnergyInterval readings s) := by
  unfold execEnergyInterval
  repeat' (first | assumption | (extract_lets +onlyGivenNames v; refine (fun (hv : State.Good pend v) => ?_) ?_; (on_goal 2 => subst v); (on_goal 1 => clear_value v)) | (extract_lets +onlyGivenNames v; refine (fun (hv : State.Good pend v.1) => ?_) ?_; (on_goal 2 => subst v); (on_goal 1 => clear_value v)) | (extract_lets +onlyGivenNames v; clear_value v) | (simp (maxDischargeDepth := 99) +contextual [*]; done) | (refine State.good_forAll _ _ (fun _ _ _ => ?_) ?_) | (refine State.good_iter _ _ (fun _ _ _ => ?_) ?_) | split)

theorem execMarginSample_good {pend : List Instr} (r : Nat) (slack : List Int) (s : State)
    (hg : s.Good pend) : Out.Good pend (execMarginSample r slack s) := by
  unfold execMarginSample
  repeat' (first | assumption | (extract_lets +onlyGivenNames v; refine (fun (hv : State.Good pend v) => ?_) ?_; (on_goal 2 => subst v); (on_goal 1 => clear_value v)) | (extract_lets +onlyGivenNames v; refine (fun (hv : State.Good pend v.1) => ?_) ?_; (on_goal 2 => subst v); (on_goal 1 => clear_value v)) | (extract_lets +onlyGivenNames v; clear_value v) | (simp (maxDischargeDepth := 99) +contextual [*]; done) | (refine State.good_forAll _ _ (fun _ _ _ => ?_) ?_) | (refine State.good_iter _ _ (fun _ _ _ => ?_) ?_) | split)

theorem execMarginEpochEnd_good {pend : List Instr} (r : Nat) (monitors : List MonitorReading) (tiles : List (Nat × Int)) (s : State) (hg : s.Good pend) :
    Out.Good pend (execMarginEpochEnd r monitors tiles s) := by
  unfold execMarginEpochEnd
  extract_lets d a cur target l s1
  split
  · exact hg
  · have h1 : s1.Good pend := State.sat_good _ _ _ _ _ (State.wf_good _ _ _ _ _ (State.wf_good _ _ _ _ _ (State.wf_good _ _ _ _ _
      (State.wf_good _ _ _ _ _ hg))))
    exact State.raisePg_good _ _ _ _ (State.modRafter_good _ _ _ h1)

theorem execVoffMove_good {pend : List Instr} (r : Nat) (s : State) (hg : s.Good pend) : Out.Good pend (execVoffMove r s) := by
  unfold execVoffMove
  repeat' (first | assumption | (extract_lets +onlyGivenNames v; refine (fun (hv : State.Good pend v) => ?_) ?_; (on_goal 2 => subst v); (on_goal 1 => clear_value v)) | (extract_lets +onlyGivenNames v; refine (fun (hv : State.Good pend v.1) => ?_) ?_; (on_goal 2 => subst v); (on_goal 1 => clear_value v)) | (extract_lets +onlyGivenNames v; clear_value v) | (simp (maxDischargeDepth := 99) +contextual [*]; done) | (refine State.good_forAll _ _ (fun _ _ _ => ?_) ?_) | (refine State.good_iter _ _ (fun _ _ _ => ?_) ?_) | split)

@[simp] theorem State.copyPad_good {pend : List Instr} (s : State) (d src dst : Nat) (hg : s.Good pend) : (State.copyPad s d src dst).Good pend := by
  have h := hg
  unfold State.copyPad
  exact ⟨h.queue, h.regs, h.mem, Memory.wf_foldl (Memory.wf_filter h.scratch _) _ _ _, h.hostMem, h.cache, h.ctxs, h.dies, h.pstate, h.psTarget⟩

theorem execTileRetireDone_good {pend : List Instr} (r : Nat) (s : State) (hg : s.Good pend) : Out.Good pend (execTileRetireDone r s) := by
  unfold execTileRetireDone
  repeat' (first | assumption | (extract_lets +onlyGivenNames v; refine (fun (hv : State.Good pend v) => ?_) ?_; (on_goal 2 => subst v); (on_goal 1 => clear_value v)) | (extract_lets +onlyGivenNames v; refine (fun (hv : State.Good pend v.1) => ?_) ?_; (on_goal 2 => subst v); (on_goal 1 => clear_value v)) | (extract_lets +onlyGivenNames v; clear_value v) | (simp (maxDischargeDepth := 99) +contextual [*]; done) | (refine State.good_forAll _ _ (fun _ _ _ => ?_) ?_) | (refine State.good_iter _ _ (fun _ _ _ => ?_) ?_) | split)

/-! ## Machine/Boot.lean -/

theorem execEdgeTrained_good {pend : List Instr} (die dir : Nat) (s : State) (hg : s.Good pend) : Out.Good pend (execEdgeTrained die dir s) := by
  unfold execEdgeTrained
  repeat' (first | assumption | (extract_lets +onlyGivenNames v; refine (fun (hv : State.Good pend v) => ?_) ?_; (on_goal 2 => subst v); (on_goal 1 => clear_value v)) | (extract_lets +onlyGivenNames v; refine (fun (hv : State.Good pend v.1) => ?_) ?_; (on_goal 2 => subst v); (on_goal 1 => clear_value v)) | (extract_lets +onlyGivenNames v; clear_value v) | (simp (maxDischargeDepth := 99) +contextual [*]; done) | (refine State.good_forAll _ _ (fun _ _ _ => ?_) ?_) | (refine State.good_iter _ _ (fun _ _ _ => ?_) ?_) | split)

@[simp] theorem State.learn_good {pend : List Instr} (s : State) (d x y : Nat) (hg : s.Good pend) : (State.learn s d x y).Good pend := by
  unfold State.learn
  simp (maxDischargeDepth := 99) +contextual [hg]

theorem execDiscoveryWave_good {pend : List Instr} (die dir kind : Nat) (s : State) (hg : s.Good pend) :
    Out.Good pend (execDiscoveryWave die dir kind s) := by
  unfold execDiscoveryWave
  repeat' (first | assumption | (extract_lets +onlyGivenNames v; refine (fun (hv : State.Good pend v) => ?_) ?_; (on_goal 2 => subst v); (on_goal 1 => clear_value v)) | (extract_lets +onlyGivenNames v; refine (fun (hv : State.Good pend v.1) => ?_) ?_; (on_goal 2 => subst v); (on_goal 1 => clear_value v)) | (extract_lets +onlyGivenNames v; clear_value v) | (simp (maxDischargeDepth := 99) +contextual [*]; done) | (refine State.good_forAll _ _ (fun _ _ _ => ?_) ?_) | (refine State.good_iter _ _ (fun _ _ _ => ?_) ?_) | (refine State.ctxCommand_good _ _ _ _ (fun _ => ?_) ?_) | (refine State.pfCommand_good _ _ _ _ (fun _ => ?_) ?_) | split)

theorem execDieTableBuild_good {pend : List Instr} (s : State) (hg : s.Good pend) : Out.Good pend (execDieTableBuild s) := by
  have h := hg
  unfold execDieTableBuild
  split
  · exact h
  split
  · exact State.post_good _ _ h
  · extract_lets +onlyGivenNames m s1
    have h1 : s1.Good pend := by
      show State.Good pend (if _ then _ else _)
      split
      · exact State.learn_good _ _ _ _ h
      · exact h
    refine State.good_forAll _ _ (fun d t ht => ?_) h1
    split
    · exact ht
    · exact State.fenceDie_good _ _ _ ht

theorem execRidgeBootDone_good {pend : List Instr} (ridgeB : Bool) (s : State) (hg : s.Good pend) : Out.Good pend (execRidgeBootDone ridgeB s) := by
  unfold execRidgeBootDone
  repeat' (first | assumption | (extract_lets +onlyGivenNames v; refine (fun (hv : State.Good pend v) => ?_) ?_; (on_goal 2 => subst v); (on_goal 1 => clear_value v)) | (extract_lets +onlyGivenNames v; refine (fun (hv : State.Good pend v.1) => ?_) ?_; (on_goal 2 => subst v); (on_goal 1 => clear_value v)) | (extract_lets +onlyGivenNames v; clear_value v) | (simp (maxDischargeDepth := 99) +contextual [*]; done) | (refine State.good_forAll _ _ (fun _ _ _ => ?_) ?_) | (refine State.good_iter _ _ (fun _ _ _ => ?_) ?_) | split)

@[simp] theorem State.setReady_good {pend : List Instr} (s : State) (d : Nat) (hg : s.Good pend) : (State.setReady s d).Good pend := by
  unfold State.setReady
  simp (maxDischargeDepth := 99) +contextual [hg]

theorem execThatchReady_good {pend : List Instr} (t : Nat) (s : State) (hg : s.Good pend) : Out.Good pend (execThatchReady t s) := by
  unfold execThatchReady
  repeat' (first | assumption | (extract_lets +onlyGivenNames v; refine (fun (hv : State.Good pend v) => ?_) ?_; (on_goal 2 => subst v); (on_goal 1 => clear_value v)) | (extract_lets +onlyGivenNames v; refine (fun (hv : State.Good pend v.1) => ?_) ?_; (on_goal 2 => subst v); (on_goal 1 => clear_value v)) | (extract_lets +onlyGivenNames v; clear_value v) | (simp (maxDischargeDepth := 99) +contextual [*]; done) | (refine State.good_forAll _ _ (fun _ _ _ => ?_) ?_) | (refine State.good_iter _ _ (fun _ _ _ => ?_) ?_) | split)

@[simp] theorem State.portConfig_good {pend : List Instr} (s : State) (e : Nat) (hg : s.Good pend) : (State.portConfig s e).Good pend := by
  unfold State.portConfig
  repeat' (first | assumption | (extract_lets +onlyGivenNames v; refine (fun (hv : State.Good pend v) => ?_) ?_; (on_goal 2 => subst v); (on_goal 1 => clear_value v)) | (extract_lets +onlyGivenNames v; refine (fun (hv : State.Good pend v.1) => ?_) ?_; (on_goal 2 => subst v); (on_goal 1 => clear_value v)) | (extract_lets +onlyGivenNames v; clear_value v) | (simp (maxDischargeDepth := 99) +contextual [*]; done) | (refine State.good_forAll _ _ (fun _ _ _ => ?_) ?_) | (refine State.good_iter _ _ (fun _ _ _ => ?_) ?_) | split)

theorem execEaveReady_good {pend : List Instr} (e : Nat) (s : State) (hg : s.Good pend) : Out.Good pend (execEaveReady e s) := by
  unfold execEaveReady
  repeat' (first | assumption | (extract_lets +onlyGivenNames v; refine (fun (hv : State.Good pend v) => ?_) ?_; (on_goal 2 => subst v); (on_goal 1 => clear_value v)) | (extract_lets +onlyGivenNames v; refine (fun (hv : State.Good pend v.1) => ?_) ?_; (on_goal 2 => subst v); (on_goal 1 => clear_value v)) | (extract_lets +onlyGivenNames v; clear_value v) | (simp (maxDischargeDepth := 99) +contextual [*]; done) | (refine State.good_forAll _ _ (fun _ _ _ => ?_) ?_) | (refine State.good_iter _ _ (fun _ _ _ => ?_) ?_) | split)

@[simp] theorem State.writeRftBoot_good {pend : List Instr} (s : State) (r : Nat) (hg : s.Good pend) : (State.writeRftBoot s r).Good pend := by
  unfold State.writeRftBoot
  simp (maxDischargeDepth := 99) +contextual [hg]

theorem execRafterReady_good {pend : List Instr} (r : Nat) (spares failed : List Nat) (s : State)
    (hg : s.Good pend) : Out.Good pend (execRafterReady r spares failed s) := by
  unfold execRafterReady
  repeat' (first | assumption | (extract_lets +onlyGivenNames v; refine (fun (hv : State.Good pend v) => ?_) ?_; (on_goal 2 => subst v); (on_goal 1 => clear_value v)) | (extract_lets +onlyGivenNames v; refine (fun (hv : State.Good pend v.1) => ?_) ?_; (on_goal 2 => subst v); (on_goal 1 => clear_value v)) | (extract_lets +onlyGivenNames v; clear_value v) | (simp (maxDischargeDepth := 99) +contextual [*]; done) | (refine State.good_forAll _ _ (fun _ _ _ => ?_) ?_) | (refine State.good_iter _ _ (fun _ _ _ => ?_) ?_) | split)

theorem execPortUp_good {pend : List Instr} (port : Nat) (s : State) (hg : s.Good pend) : Out.Good pend (execPortUp port s) := by
  unfold execPortUp
  repeat' (first | assumption | (extract_lets +onlyGivenNames v; refine (fun (hv : State.Good pend v) => ?_) ?_; (on_goal 2 => subst v); (on_goal 1 => clear_value v)) | (extract_lets +onlyGivenNames v; refine (fun (hv : State.Good pend v.1) => ?_) ?_; (on_goal 2 => subst v); (on_goal 1 => clear_value v)) | (extract_lets +onlyGivenNames v; clear_value v) | (simp (maxDischargeDepth := 99) +contextual [*]; done) | (refine State.good_forAll _ _ (fun _ _ _ => ?_) ?_) | (refine State.good_iter _ _ (fun _ _ _ => ?_) ?_) | split)

@[simp] theorem State.activate_good {pend : List Instr} (s : State) (hg : s.Good pend) : (State.activate s).Good pend := by
  unfold State.activate
  simp (maxDischargeDepth := 99) +contextual [hg]

theorem execFirmwareActivation_good {pend : List Instr} (s : State) (hg : s.Good pend) : Out.Good pend (execFirmwareActivation s) := by
  unfold execFirmwareActivation
  repeat' (first | assumption | (extract_lets +onlyGivenNames v; refine (fun (hv : State.Good pend v) => ?_) ?_; (on_goal 2 => subst v); (on_goal 1 => clear_value v)) | (extract_lets +onlyGivenNames v; refine (fun (hv : State.Good pend v.1) => ?_) ?_; (on_goal 2 => subst v); (on_goal 1 => clear_value v)) | (extract_lets +onlyGivenNames v; clear_value v) | (simp (maxDischargeDepth := 99) +contextual [*]; done) | (refine State.good_forAll _ _ (fun _ _ _ => ?_) ?_) | (refine State.good_iter _ _ (fun _ _ _ => ?_) ?_) | split)

theorem execFirmwareActivationEnd_good {pend : List Instr} (s : State) (hg : s.Good pend) : Out.Good pend (execFirmwareActivationEnd s) := by
  unfold execFirmwareActivationEnd
  split <;> simp_all (maxDischargeDepth := 99) +contextual

theorem execPldmFirmwareUpdate_good {pend : List Instr} (ridgeB : Bool) (part : FlashPart) (s : State)
    (hg : s.Good pend) : Out.Good pend (execPldmFirmwareUpdate ridgeB part s) := by
  unfold execPldmFirmwareUpdate
  repeat' (first | assumption | (extract_lets +onlyGivenNames v; refine (fun (hv : State.Good pend v) => ?_) ?_; (on_goal 2 => subst v); (on_goal 1 => clear_value v)) | (extract_lets +onlyGivenNames v; refine (fun (hv : State.Good pend v.1) => ?_) ?_; (on_goal 2 => subst v); (on_goal 1 => clear_value v)) | (extract_lets +onlyGivenNames v; clear_value v) | (simp (maxDischargeDepth := 99) +contextual [*]; done) | (refine State.good_forAll _ _ (fun _ _ _ => ?_) ?_) | (refine State.good_iter _ _ (fun _ _ _ => ?_) ?_) | split)

theorem execHostLinkUp_good {pend : List Instr} (portB : Bool) (width : Nat) (reversed : Bool) (inverted : List Nat) (s : State) (hg : s.Good pend) :
    Out.Good pend (execHostLinkUp portB width reversed inverted s) := by
  unfold execHostLinkUp
  repeat' (first | assumption | (extract_lets +onlyGivenNames v; refine (fun (hv : State.Good pend v) => ?_) ?_; (on_goal 2 => subst v); (on_goal 1 => clear_value v)) | (extract_lets +onlyGivenNames v; refine (fun (hv : State.Good pend v.1) => ?_) ?_; (on_goal 2 => subst v); (on_goal 1 => clear_value v)) | (extract_lets +onlyGivenNames v; clear_value v) | (simp (maxDischargeDepth := 99) +contextual [*]; done) | (refine State.good_forAll _ _ (fun _ _ _ => ?_) ?_) | (refine State.good_iter _ _ (fun _ _ _ => ?_) ?_) | (refine State.ctxCommand_good _ _ _ _ (fun _ => ?_) ?_) | (refine State.pfCommand_good _ _ _ _ (fun _ => ?_) ?_) | split)

theorem execConfigurationRequest_good {pend : List Instr} (portB : Bool) (s : State)
    (hg : s.Good pend) : Out.Good pend (execConfigurationRequest portB s) := by
  unfold execConfigurationRequest
  repeat' (first | assumption | (extract_lets +onlyGivenNames v; refine (fun (hv : State.Good pend v) => ?_) ?_; (on_goal 2 => subst v); (on_goal 1 => clear_value v)) | (extract_lets +onlyGivenNames v; refine (fun (hv : State.Good pend v.1) => ?_) ?_; (on_goal 2 => subst v); (on_goal 1 => clear_value v)) | (extract_lets +onlyGivenNames v; clear_value v) | (simp (maxDischargeDepth := 99) +contextual [*]; done) | (refine State.good_forAll _ _ (fun _ _ _ => ?_) ?_) | (refine State.good_iter _ _ (fun _ _ _ => ?_) ?_) | split)

theorem execTestAccessPort_good {pend : List Instr} (op : TapOp) (s : State) (hg : s.Good pend) : Out.Good pend (execTestAccessPort op s) := by
  unfold execTestAccessPort
  repeat' (first | assumption | (extract_lets +onlyGivenNames v; refine (fun (hv : State.Good pend v) => ?_) ?_; (on_goal 2 => subst v); (on_goal 1 => clear_value v)) | (extract_lets +onlyGivenNames v; refine (fun (hv : State.Good pend v.1) => ?_) ?_; (on_goal 2 => subst v); (on_goal 1 => clear_value v)) | (extract_lets +onlyGivenNames v; clear_value v) | (simp (maxDischargeDepth := 99) +contextual [*]; done) | (refine State.good_forAll _ _ (fun _ _ _ => ?_) ?_) | (refine State.good_iter _ _ (fun _ _ _ => ?_) ?_) | split)

theorem execDynamicAddressAssignment_good {pend : List Instr} (ridgeB : Bool) (addr : Nat) (s : State)
    (hg : s.Good pend) : Out.Good pend (execDynamicAddressAssignment ridgeB addr s) := by
  unfold execDynamicAddressAssignment
  repeat' (first | assumption | (extract_lets +onlyGivenNames v; refine (fun (hv : State.Good pend v) => ?_) ?_; (on_goal 2 => subst v); (on_goal 1 => clear_value v)) | (extract_lets +onlyGivenNames v; refine (fun (hv : State.Good pend v.1) => ?_) ?_; (on_goal 2 => subst v); (on_goal 1 => clear_value v)) | (extract_lets +onlyGivenNames v; clear_value v) | (simp (maxDischargeDepth := 99) +contextual [*]; done) | (refine State.good_forAll _ _ (fun _ _ _ => ?_) ?_) | (refine State.good_iter _ _ (fun _ _ _ => ?_) ?_) | split)

end Sys2Proof.Machine
end

