-- ==== Sys2Proof/Laws/KeepCommands.lean ====
section
/-! SUPPORT. What operations and meanings keep: commands of the rings and the images of a context. -/

namespace Sys2Proof.Machine

/-! ## Machine/PlanCheck.lean -/

@[simp] theorem State.liveTouch_good {pend : List Instr} (s : State) (c va n : Nat) (hg : s.Good pend) :
    (State.liveTouch s c va n).Good pend := by
  unfold State.liveTouch
  repeat' (first | assumption | (extract_lets +onlyGivenNames v; refine (fun (hv : State.Good pend v) => ?_) ?_; (on_goal 2 => subst v); (on_goal 1 => clear_value v)) | (extract_lets +onlyGivenNames v; refine (fun (hv : State.Good pend v.1) => ?_) ?_; (on_goal 2 => subst v); (on_goal 1 => clear_value v)) | (extract_lets +onlyGivenNames v; clear_value v) | (simp (maxDischargeDepth := 99) +contextual [*]; done) | (refine State.good_forAll _ _ (fun _ _ _ => ?_) ?_) | (refine State.good_iter _ _ (fun _ _ _ => ?_) ?_) | split)

/-! ## Machine/Take.lean -/

@[simp] theorem State.entryTouch_good {pend : List Instr} (s : State) (r : RingOf) (hg : s.Good pend) :
    (State.entryTouch s r).Good pend := by
  unfold State.entryTouch
  repeat' (first | assumption | (extract_lets +onlyGivenNames v; refine (fun (hv : State.Good pend v) => ?_) ?_; (on_goal 2 => subst v); (on_goal 1 => clear_value v)) | (extract_lets +onlyGivenNames v; refine (fun (hv : State.Good pend v.1) => ?_) ?_; (on_goal 2 => subst v); (on_goal 1 => clear_value v)) | (extract_lets +onlyGivenNames v; clear_value v) | (simp (maxDischargeDepth := 99) +contextual [*]; done) | (refine State.good_forAll _ _ (fun _ _ _ => ?_) ?_) | (refine State.good_iter _ _ (fun _ _ _ => ?_) ?_) | split)

@[simp] theorem State.popRing_good {pend : List Instr} (s : State) (r : RingOf) (hg : s.Good pend) : (State.popRing s r).Good pend := by
  unfold State.popRing
  simp (maxDischargeDepth := 99) +contextual [hg]

@[simp] theorem State.finish_good {pend : List Instr} (s : State) (r : RingOf) (e : Bits512) (status w2 : Nat)
    (hg : s.Good pend) : (State.finish s r e status w2).Good pend := by
  unfold State.finish
  simp (maxDischargeDepth := 99) +contextual [hg]

theorem State.ctxHead_good {pend : List Instr} (s : State) (c : Nat) (mine : Bits512 → Bool)
    (hg : s.Good pend) : ∀ t, (State.ctxHead s c mine) = .inr t → t.Good pend := by
  have h := hg
  unfold State.ctxHead
  intro t ht
  split at ht
  · obtain rfl : s = t := by simpa using ht
    exact h
  · split at ht
    · obtain rfl : (if (s.ctx c).phase = CtxPhase.faulted then s else s.ctxFault c 20) = t := by simpa using ht
      split
      · exact h
      · exact State.ctxFault_good _ _ _ h
    · split at ht
      · obtain rfl := by simpa using ht
        exact State.finish_good _ _ _ _ _ h
      · split at ht
        · obtain rfl : s = t := by simpa using ht
          exact h
        · split at ht
          · obtain rfl := by simpa using ht
            exact State.finish_good _ _ _ _ _ h
          · split at ht
            · obtain rfl := by simpa using ht
              exact State.finish_good _ _ _ _ _ h
            · split at ht
              · simp at ht
              · obtain rfl : s = t := by simpa using ht
                exact h

theorem State.ctxCommand_good {pend : List Instr} (s : State) (c : Nat) (mine : Bits512 → Bool) (act : Bits512 → State)
    (hact : ∀ e, (act e).Good pend) (h : s.Good pend) : Out.Good pend (s.ctxCommand c mine act) := by
  unfold State.ctxCommand
  split
  · exact hact _
  · next t ht => exact State.ctxHead_good s c mine h t ht

@[simp] theorem State.pfFinish_good {pend : List Instr} (s : State) (src : PfSrc) (e : Bits512) (status : Nat)
    (hg : s.Good pend) : (State.pfFinish s src e status).Good pend := by
  unfold State.pfFinish
  repeat' (first | assumption | (extract_lets +onlyGivenNames v; refine (fun (hv : State.Good pend v) => ?_) ?_; (on_goal 2 => subst v); (on_goal 1 => clear_value v)) | (extract_lets +onlyGivenNames v; refine (fun (hv : State.Good pend v.1) => ?_) ?_; (on_goal 2 => subst v); (on_goal 1 => clear_value v)) | (extract_lets +onlyGivenNames v; clear_value v) | (simp (maxDischargeDepth := 99) +contextual [*]; done) | (refine State.good_forAll _ _ (fun _ _ _ => ?_) ?_) | (refine State.good_iter _ _ (fun _ _ _ => ?_) ?_) | split)

theorem State.pfHead_good {pend : List Instr} (s : State) (src : PfSrc) (mine : Bits512 → Bool)
    (hg : s.Good pend) : ∀ t, (State.pfHead s src mine) = .inr t → t.Good pend := by
  have h := hg
  unfold State.pfHead
  intro t ht
  split at ht
  · obtain rfl : s = t := by simpa using ht
    exact h
  · split at ht
    · obtain rfl := by simpa using ht
      exact State.pfFinish_good _ _ _ _ h
    · split at ht
      · obtain rfl := by simpa using ht
        exact State.pfFinish_good _ _ _ _ h
      · split at ht
        · simp at ht
        · obtain rfl : s = t := by simpa using ht
          exact h

theorem State.pfCommand_good {pend : List Instr} (s : State) (src : PfSrc) (mine : Bits512 → Bool) (act : Bits512 → State)
    (hact : ∀ e, (act e).Good pend) (h : s.Good pend) : Out.Good pend (s.pfCommand src mine act) := by
  unfold State.pfCommand
  split
  · exact hact _
  · next t ht => exact State.pfHead_good s src mine h t ht

@[simp] theorem State.planTouch_good {pend : List Instr} (s : State) (c at_ : Nat) (p : PlanImage) (hg : s.Good pend) :
    (State.planTouch s c at_ p).Good pend := by
  unfold State.planTouch
  repeat' (first | assumption | (extract_lets +onlyGivenNames v; refine (fun (hv : State.Good pend v) => ?_) ?_; (on_goal 2 => subst v); (on_goal 1 => clear_value v)) | (extract_lets +onlyGivenNames v; refine (fun (hv : State.Good pend v.1) => ?_) ?_; (on_goal 2 => subst v); (on_goal 1 => clear_value v)) | (extract_lets +onlyGivenNames v; clear_value v) | (simp (maxDischargeDepth := 99) +contextual [*]; done) | (refine State.good_forAll _ _ (fun _ _ _ => ?_) ?_) | (refine State.good_iter _ _ (fun _ _ _ => ?_) ?_) | split)

theorem execLoadPlan_good {pend : List Instr} (c : Nat) (s : State) (hg : s.Good pend) : Out.Good pend (execLoadPlan c s) := by
  unfold execLoadPlan
  repeat' (first | assumption | (extract_lets +onlyGivenNames v; refine (fun (hv : State.Good pend v) => ?_) ?_; (on_goal 2 => subst v); (on_goal 1 => clear_value v)) | (extract_lets +onlyGivenNames v; refine (fun (hv : State.Good pend v.1) => ?_) ?_; (on_goal 2 => subst v); (on_goal 1 => clear_value v)) | (extract_lets +onlyGivenNames v; clear_value v) | (simp (maxDischargeDepth := 99) +contextual [*]; done) | (refine State.good_forAll _ _ (fun _ _ _ => ?_) ?_) | (refine State.good_iter _ _ (fun _ _ _ => ?_) ?_) | (refine State.ctxCommand_good _ _ _ _ (fun _ => ?_) ?_) | (refine State.pfCommand_good _ _ _ _ (fun _ => ?_) ?_) | split)

@[simp] theorem State.closeCmd_good {pend : List Instr} (s : State) (c : Nat) (seq : BitVec 32) (op status w2 : Nat)
    (hg : s.Good pend) : (State.closeCmd s c seq op status w2).Good pend := by
  unfold State.closeCmd
  simp (maxDischargeDepth := 99) +contextual [hg]

theorem execLoadPlanComplete_good {pend : List Instr} (c : Nat) (s : State) (hg : s.Good pend) : Out.Good pend (execLoadPlanComplete c s) := by
  unfold execLoadPlanComplete
  repeat' (first | assumption | (extract_lets +onlyGivenNames v; refine (fun (hv : State.Good pend v) => ?_) ?_; (on_goal 2 => subst v); (on_goal 1 => clear_value v)) | (extract_lets +onlyGivenNames v; refine (fun (hv : State.Good pend v.1) => ?_) ?_; (on_goal 2 => subst v); (on_goal 1 => clear_value v)) | (extract_lets +onlyGivenNames v; clear_value v) | (simp (maxDischargeDepth := 99) +contextual [*]; done) | (refine State.good_forAll _ _ (fun _ _ _ => ?_) ?_) | (refine State.good_iter _ _ (fun _ _ _ => ?_) ?_) | split)

theorem execLaunchStep_good {pend : List Instr} (c : Nat) (s : State) (hg : s.Good pend) : Out.Good pend (execLaunchStep c s) := by
  unfold execLaunchStep
  repeat' (first | assumption | (extract_lets +onlyGivenNames v; refine (fun (hv : State.Good pend v) => ?_) ?_; (on_goal 2 => subst v); (on_goal 1 => clear_value v)) | (extract_lets +onlyGivenNames v; refine (fun (hv : State.Good pend v.1) => ?_) ?_; (on_goal 2 => subst v); (on_goal 1 => clear_value v)) | (extract_lets +onlyGivenNames v; clear_value v) | (simp (maxDischargeDepth := 99) +contextual [*]; done) | (refine State.good_forAll _ _ (fun _ _ _ => ?_) ?_) | (refine State.good_iter _ _ (fun _ _ _ => ?_) ?_) | (refine State.ctxCommand_good _ _ _ _ (fun _ => ?_) ?_) | (refine State.pfCommand_good _ _ _ _ (fun _ => ?_) ?_) | split)

theorem execFence_good {pend : List Instr} (ring : Option Nat) (src : PfSrc) (s : State)
    (hg : s.Good pend) : Out.Good pend (execFence ring src s) := by
  unfold execFence
  repeat' (first | assumption | (extract_lets +onlyGivenNames v; refine (fun (hv : State.Good pend v) => ?_) ?_; (on_goal 2 => subst v); (on_goal 1 => clear_value v)) | (extract_lets +onlyGivenNames v; refine (fun (hv : State.Good pend v.1) => ?_) ?_; (on_goal 2 => subst v); (on_goal 1 => clear_value v)) | (extract_lets +onlyGivenNames v; clear_value v) | (simp (maxDischargeDepth := 99) +contextual [*]; done) | (refine State.good_forAll _ _ (fun _ _ _ => ?_) ?_) | (refine State.good_iter _ _ (fun _ _ _ => ?_) ?_) | (refine State.ctxCommand_good _ _ _ _ (fun _ => ?_) ?_) | (refine State.pfCommand_good _ _ _ _ (fun _ => ?_) ?_) | split)

@[simp] theorem State.unqueue_good {pend : List Instr} (s : State) (c : Nat) (l : List Launch)
    (hg : s.Good pend) : (State.unqueue s c l).Good pend := by
  unfold State.unqueue
  repeat' (first | assumption | (extract_lets +onlyGivenNames v; refine (fun (hv : State.Good pend v) => ?_) ?_; (on_goal 2 => subst v); (on_goal 1 => clear_value v)) | (extract_lets +onlyGivenNames v; refine (fun (hv : State.Good pend v.1) => ?_) ?_; (on_goal 2 => subst v); (on_goal 1 => clear_value v)) | (extract_lets +onlyGivenNames v; clear_value v) | (simp (maxDischargeDepth := 99) +contextual [*]; done) | (refine State.good_forAll _ _ (fun _ _ _ => ?_) ?_) | (refine State.good_iter _ _ (fun _ _ _ => ?_) ?_) | split)

@[simp] theorem State.completeLaunches_good {pend : List Instr} (s : State) (c status : Nat) (l : List Launch)
    (hg : s.Good pend) : (State.completeLaunches s c status l).Good pend := by
  unfold State.completeLaunches
  simp (maxDischargeDepth := 99) +contextual [hg]

theorem execFlush_good {pend : List Instr} (c : Nat) (s : State) (hg : s.Good pend) : Out.Good pend (execFlush c s) := by
  unfold execFlush
  repeat' (first | assumption | (extract_lets +onlyGivenNames v; refine (fun (hv : State.Good pend v) => ?_) ?_; (on_goal 2 => subst v); (on_goal 1 => clear_value v)) | (extract_lets +onlyGivenNames v; refine (fun (hv : State.Good pend v.1) => ?_) ?_; (on_goal 2 => subst v); (on_goal 1 => clear_value v)) | (extract_lets +onlyGivenNames v; clear_value v) | (simp (maxDischargeDepth := 99) +contextual [*]; done) | (refine State.good_forAll _ _ (fun _ _ _ => ?_) ?_) | (refine State.good_iter _ _ (fun _ _ _ => ?_) ?_) | (refine State.ctxCommand_good _ _ _ _ (fun _ => ?_) ?_) | (refine State.pfCommand_good _ _ _ _ (fun _ => ?_) ?_) | split)

theorem execCancel_good {pend : List Instr} (c : Nat) (s : State) (hg : s.Good pend) : Out.Good pend (execCancel c s) := by
  unfold execCancel
  repeat' (first | assumption | (extract_lets +onlyGivenNames v; refine (fun (hv : State.Good pend v) => ?_) ?_; (on_goal 2 => subst v); (on_goal 1 => clear_value v)) | (extract_lets +onlyGivenNames v; refine (fun (hv : State.Good pend v.1) => ?_) ?_; (on_goal 2 => subst v); (on_goal 1 => clear_value v)) | (extract_lets +onlyGivenNames v; clear_value v) | (simp (maxDischargeDepth := 99) +contextual [*]; done) | (refine State.good_forAll _ _ (fun _ _ _ => ?_) ?_) | (refine State.good_iter _ _ (fun _ _ _ => ?_) ?_) | (refine State.ctxCommand_good _ _ _ _ (fun _ => ?_) ?_) | (refine State.pfCommand_good _ _ _ _ (fun _ => ?_) ?_) | split)

/-! ## Machine/Params.lean -/

theorem execStageLinks_good {pend : List Instr} (c : Nat) (s : State) (hg : s.Good pend) : Out.Good pend (execStageLinks c s) := by
  unfold execStageLinks
  repeat' (first | assumption | (extract_lets +onlyGivenNames v; refine (fun (hv : State.Good pend v) => ?_) ?_; (on_goal 2 => subst v); (on_goal 1 => clear_value v)) | (extract_lets +onlyGivenNames v; refine (fun (hv : State.Good pend v.1) => ?_) ?_; (on_goal 2 => subst v); (on_goal 1 => clear_value v)) | (extract_lets +onlyGivenNames v; clear_value v) | (simp (maxDischargeDepth := 99) +contextual [*]; done) | (refine State.good_forAll _ _ (fun _ _ _ => ?_) ?_) | (refine State.good_iter _ _ (fun _ _ _ => ?_) ?_) | (refine State.ctxCommand_good _ _ _ _ (fun _ => ?_) ?_) | (refine State.pfCommand_good _ _ _ _ (fun _ => ?_) ?_) | split)

theorem execVersionRings_good {pend : List Instr} (c : Nat) (s : State) (hg : s.Good pend) : Out.Good pend (execVersionRings c s) := by
  unfold execVersionRings
  repeat' (first | assumption | (extract_lets +onlyGivenNames v; refine (fun (hv : State.Good pend v) => ?_) ?_; (on_goal 2 => subst v); (on_goal 1 => clear_value v)) | (extract_lets +onlyGivenNames v; refine (fun (hv : State.Good pend v.1) => ?_) ?_; (on_goal 2 => subst v); (on_goal 1 => clear_value v)) | (extract_lets +onlyGivenNames v; clear_value v) | (simp (maxDischargeDepth := 99) +contextual [*]; done) | (refine State.good_forAll _ _ (fun _ _ _ => ?_) ?_) | (refine State.good_iter _ _ (fun _ _ _ => ?_) ?_) | (refine State.ctxCommand_good _ _ _ _ (fun _ => ?_) ?_) | (refine State.pfCommand_good _ _ _ _ (fun _ => ?_) ?_) | split)

@[simp] theorem State.installGroup_good {pend : List Instr} (s : State) (gi : Nat) (g : Group)
    (hg : s.Good pend) : (State.installGroup s gi g).Good pend := by
  unfold State.installGroup
  simp (maxDischargeDepth := 99) +contextual [hg]

@[simp] theorem State.groupCommand_good {pend : List Instr} (s : State) (gi : Nat) (d : Bits512)
    (hg : s.Good pend) : (State.groupCommand s gi d).1.Good pend := by
  unfold State.groupCommand
  repeat' (first | assumption | (extract_lets +onlyGivenNames v; refine (fun (hv : State.Good pend v) => ?_) ?_; (on_goal 2 => subst v); (on_goal 1 => clear_value v)) | (extract_lets +onlyGivenNames v; refine (fun (hv : State.Good pend v.1) => ?_) ?_; (on_goal 2 => subst v); (on_goal 1 => clear_value v)) | (extract_lets +onlyGivenNames v; clear_value v) | (simp (maxDischargeDepth := 99) +contextual [*]; done) | (refine State.good_forAll _ _ (fun _ _ _ => ?_) ?_) | (refine State.good_iter _ _ (fun _ _ _ => ?_) ?_) | split)

theorem execGroup_good {pend : List Instr} (src : PfSrc) (s : State) (hg : s.Good pend) : Out.Good pend (execGroup src s) := by
  unfold execGroup
  repeat' (first | assumption | (extract_lets +onlyGivenNames v; refine (fun (hv : State.Good pend v) => ?_) ?_; (on_goal 2 => subst v); (on_goal 1 => clear_value v)) | (extract_lets +onlyGivenNames v; refine (fun (hv : State.Good pend v.1) => ?_) ?_; (on_goal 2 => subst v); (on_goal 1 => clear_value v)) | (extract_lets +onlyGivenNames v; clear_value v) | (simp (maxDischargeDepth := 99) +contextual [*]; done) | (refine State.good_forAll _ _ (fun _ _ _ => ?_) ?_) | (refine State.good_iter _ _ (fun _ _ _ => ?_) ?_) | (refine State.ctxCommand_good _ _ _ _ (fun _ => ?_) ?_) | (refine State.pfCommand_good _ _ _ _ (fun _ => ?_) ?_) | split)

@[simp] theorem State.abortVerdicts_good {pend : List Instr} (s : State) (c gi : Nat) (epoch : BitVec 16)
    (hg : s.Good pend) : (State.abortVerdicts s c gi epoch).Good pend := by
  unfold State.abortVerdicts
  simp (maxDischargeDepth := 99) +contextual [hg]

@[simp] theorem State.reformGroup_good {pend : List Instr} (s : State) (gi : Nat) (g : Group) (l : List Nat) (self : Nat) (epoch : BitVec 16)
    (hg : s.Good pend) : (State.reformGroup s gi g l self epoch).Good pend := by
  unfold State.reformGroup
  simp (maxDischargeDepth := 99) +contextual [hg]

theorem execReform_good {pend : List Instr} (src : PfSrc) (s : State) (hg : s.Good pend) : Out.Good pend (execReform src s) := by
  unfold execReform
  repeat' (first | assumption | (extract_lets +onlyGivenNames v; refine (fun (hv : State.Good pend v) => ?_) ?_; (on_goal 2 => subst v); (on_goal 1 => clear_value v)) | (extract_lets +onlyGivenNames v; refine (fun (hv : State.Good pend v.1) => ?_) ?_; (on_goal 2 => subst v); (on_goal 1 => clear_value v)) | (extract_lets +onlyGivenNames v; clear_value v) | (simp (maxDischargeDepth := 99) +contextual [*]; done) | (refine State.good_forAll _ _ (fun _ _ _ => ?_) ?_) | (refine State.good_iter _ _ (fun _ _ _ => ?_) ?_) | (refine State.ctxCommand_good _ _ _ _ (fun _ => ?_) ?_) | (refine State.pfCommand_good _ _ _ _ (fun _ => ?_) ?_) | split)

@[simp] theorem State.loseFrames_good {pend : List Instr} (s : State) (node : Nat) (hg : s.Good pend) : (State.loseFrames s node).Good pend := by
  unfold State.loseFrames
  simp (maxDischargeDepth := 99) +contextual [hg]

@[simp] theorem State.dropLinks_good {pend : List Instr} (s : State) (node : Nat) (hg : s.Good pend) : (State.dropLinks s node).Good pend := by
  unfold State.dropLinks
  simp (maxDischargeDepth := 99) +contextual [hg]

@[simp] theorem State.settleLink_good {pend : List Instr} (s : State) (k : Nat) (hg : s.Good pend) :
    (State.settleLink s k).Good pend := by
  unfold State.settleLink
  repeat' (first | assumption | (extract_lets +onlyGivenNames v; refine (fun (hv : State.Good pend v) => ?_) ?_; (on_goal 2 => subst v); (on_goal 1 => clear_value v)) | (extract_lets +onlyGivenNames v; refine (fun (hv : State.Good pend v.1) => ?_) ?_; (on_goal 2 => subst v); (on_goal 1 => clear_value v)) | (extract_lets +onlyGivenNames v; clear_value v) | (simp (maxDischargeDepth := 99) +contextual [*]; done) | (refine State.good_forAll _ _ (fun _ _ _ => ?_) ?_) | (refine State.good_iter _ _ (fun _ _ _ => ?_) ?_) | split)

@[simp] theorem State.freshLinks_good {pend : List Instr} (s : State) (node : Nat) (r : Route)
    (hg : s.Good pend) : (State.freshLinks s node r).Good pend := by
  unfold State.freshLinks
  simp (maxDischargeDepth := 99) +contextual [hg]

@[simp] theorem State.rewriteLinks_good {pend : List Instr} (s : State) (node : Nat) (r : Route)
    (hg : s.Good pend) : (State.rewriteLinks s node r).Good pend := by
  unfold State.rewriteLinks
  repeat' (first | assumption | (extract_lets +onlyGivenNames v; refine (fun (hv : State.Good pend v) => ?_) ?_; (on_goal 2 => subst v); (on_goal 1 => clear_value v)) | (extract_lets +onlyGivenNames v; refine (fun (hv : State.Good pend v.1) => ?_) ?_; (on_goal 2 => subst v); (on_goal 1 => clear_value v)) | (extract_lets +onlyGivenNames v; clear_value v) | (simp (maxDischargeDepth := 99) +contextual [*]; done) | (refine State.good_forAll _ _ (fun _ _ _ => ?_) ?_) | (refine State.good_iter _ _ (fun _ _ _ => ?_) ?_) | split)

@[simp] theorem State.routeCommand_good {pend : List Instr} (s : State) (e : EntryBits)
    (hg : s.Good pend) : (State.routeCommand s e).1.Good pend := by
  unfold State.routeCommand
  repeat' (first | assumption | (extract_lets +onlyGivenNames v; refine (fun (hv : State.Good pend v) => ?_) ?_; (on_goal 2 => subst v); (on_goal 1 => clear_value v)) | (extract_lets +onlyGivenNames v; refine (fun (hv : State.Good pend v.1) => ?_) ?_; (on_goal 2 => subst v); (on_goal 1 => clear_value v)) | (extract_lets +onlyGivenNames v; clear_value v) | (simp (maxDischargeDepth := 99) +contextual [*]; done) | (refine State.good_forAll _ _ (fun _ _ _ => ?_) ?_) | (refine State.good_iter _ _ (fun _ _ _ => ?_) ?_) | split)

theorem execRoute_good {pend : List Instr} (src : PfSrc) (s : State) (hg : s.Good pend) : Out.Good pend (execRoute src s) := by
  unfold execRoute
  repeat' (first | assumption | (extract_lets +onlyGivenNames v; refine (fun (hv : State.Good pend v) => ?_) ?_; (on_goal 2 => subst v); (on_goal 1 => clear_value v)) | (extract_lets +onlyGivenNames v; refine (fun (hv : State.Good pend v.1) => ?_) ?_; (on_goal 2 => subst v); (on_goal 1 => clear_value v)) | (extract_lets +onlyGivenNames v; clear_value v) | (simp (maxDischargeDepth := 99) +contextual [*]; done) | (refine State.good_forAll _ _ (fun _ _ _ => ?_) ?_) | (refine State.good_iter _ _ (fun _ _ _ => ?_) ?_) | (refine State.ctxCommand_good _ _ _ _ (fun _ => ?_) ?_) | (refine State.pfCommand_good _ _ _ _ (fun _ => ?_) ?_) | split)

@[simp] theorem State.prefixCommand_good {pend : List Instr} (s : State) (w : Nat) (hg : s.Good pend) : (State.prefixCommand s w).1.Good pend := by
  unfold State.prefixCommand
  repeat' (first | assumption | (extract_lets +onlyGivenNames v; refine (fun (hv : State.Good pend v) => ?_) ?_; (on_goal 2 => subst v); (on_goal 1 => clear_value v)) | (extract_lets +onlyGivenNames v; refine (fun (hv : State.Good pend v.1) => ?_) ?_; (on_goal 2 => subst v); (on_goal 1 => clear_value v)) | (extract_lets +onlyGivenNames v; clear_value v) | (simp (maxDischargeDepth := 99) +contextual [*]; done) | (refine State.good_forAll _ _ (fun _ _ _ => ?_) ?_) | (refine State.good_iter _ _ (fun _ _ _ => ?_) ?_) | split)

theorem execRoutePrefix_good {pend : List Instr} (src : PfSrc) (s : State) (hg : s.Good pend) : Out.Good pend (execRoutePrefix src s) := by
  unfold execRoutePrefix
  repeat' (first | assumption | (extract_lets +onlyGivenNames v; refine (fun (hv : State.Good pend v) => ?_) ?_; (on_goal 2 => subst v); (on_goal 1 => clear_value v)) | (extract_lets +onlyGivenNames v; refine (fun (hv : State.Good pend v.1) => ?_) ?_; (on_goal 2 => subst v); (on_goal 1 => clear_value v)) | (extract_lets +onlyGivenNames v; clear_value v) | (simp (maxDischargeDepth := 99) +contextual [*]; done) | (refine State.good_forAll _ _ (fun _ _ _ => ?_) ?_) | (refine State.good_iter _ _ (fun _ _ _ => ?_) ?_) | (refine State.ctxCommand_good _ _ _ _ (fun _ => ?_) ?_) | (refine State.pfCommand_good _ _ _ _ (fun _ => ?_) ?_) | split)

@[simp] theorem State.allPages_good {pend : List Instr} (s : State) (c : Nat) (f : Nat → Nat)
    (hg : s.Good pend) : (State.allPages s c f).Good pend := by
  unfold State.allPages
  simp (maxDischargeDepth := 99) +contextual [hg]

@[simp] theorem State.loadRecord_good {pend : List Instr} (s : State) (c : Nat) (rec_ : List Byte) (prev : Bool)
    (hg : s.Good pend) : (State.loadRecord s c rec_ prev).Good pend := by
  unfold State.loadRecord
  simp (maxDischargeDepth := 99) +contextual [hg]

theorem State.rollbackOwn_good {pend : List Instr} (s : State) (c target : Nat)
    (hg : s.Good pend) : ∀ t, (State.rollbackOwn s c target) = some t → t.Good pend := by
  have h := hg
  unfold State.rollbackOwn
  intro t ht
  dsimp only at ht
  split at ht
  · simp at ht
  · obtain ⟨r, -, hr⟩ := Option.bind_eq_some_iff.1 ht
    split at hr
    · simp at hr
    · split at hr
      · cases hr
        exact State.allPages_good _ _ _ (State.loadRecord_good _ _ _ _ (State.vaTouch_good _ _ _ _ h))
      · split at hr
        · cases hr
          exact State.vaWrite_good _ _ _ _ (State.vaWrite_good _ _ _ _ (State.allPages_good _ _ _ (State.loadRecord_good _ _ _ _ (State.vaTouch_good _ _ _ _ h))))
        · simp at hr

theorem State.rollbackHeld_good {pend : List Instr} (s : State) (c target : Nat)
    (hg : s.Good pend) : ∀ t, (State.rollbackHeld s c target) = some t → t.Good pend := by
  have h := hg
  unfold State.rollbackHeld
  intro t ht
  dsimp only at ht
  split at ht
  · simp at ht
  · split at ht
    · cases ht
      exact State.setHeldWord_good _ _ _ (State.heldNibbles_good _ _ _ h)
    · split at ht
      · cases ht
        exact State.setHeldWord_good _ _ _ (State.heldNibbles_good _ _ _ h)
      · simp at ht

theorem execRollback_good {pend : List Instr} (c : Nat) (s : State) (hg : s.Good pend) : Out.Good pend (execRollback c s) := by
  have h := hg
  refine State.ctxCommand_good _ _ _ _ (fun e => ?_) h
  dsimp only
  split
  · exact State.finish_good _ _ _ _ _ h
  · next t ht =>
    refine State.finish_good _ _ _ _ _ ?_
    split at ht
    · exact State.rollbackHeld_good s c _ h t ht
    · exact State.rollbackOwn_good s c _ h t ht

@[simp] theorem State.contextCommand_good {pend : List Instr} (s : State) (c : Nat) (d : EntryBits)
    (hg : s.Good pend) : (State.contextCommand s c d).1.Good pend := by
  unfold State.contextCommand
  repeat' (first | assumption | (extract_lets +onlyGivenNames v; refine (fun (hv : State.Good pend v) => ?_) ?_; (on_goal 2 => subst v); (on_goal 1 => clear_value v)) | (extract_lets +onlyGivenNames v; refine (fun (hv : State.Good pend v.1) => ?_) ?_; (on_goal 2 => subst v); (on_goal 1 => clear_value v)) | (extract_lets +onlyGivenNames v; clear_value v) | (simp (maxDischargeDepth := 99) +contextual [*]; done) | (refine State.good_forAll _ _ (fun _ _ _ => ?_) ?_) | (refine State.good_iter _ _ (fun _ _ _ => ?_) ?_) | split)

theorem execContext_good {pend : List Instr} (src : PfSrc) (s : State) (hg : s.Good pend) : Out.Good pend (execContext src s) := by
  unfold execContext
  repeat' (first | assumption | (extract_lets +onlyGivenNames v; refine (fun (hv : State.Good pend v) => ?_) ?_; (on_goal 2 => subst v); (on_goal 1 => clear_value v)) | (extract_lets +onlyGivenNames v; refine (fun (hv : State.Good pend v.1) => ?_) ?_; (on_goal 2 => subst v); (on_goal 1 => clear_value v)) | (extract_lets +onlyGivenNames v; clear_value v) | (simp (maxDischargeDepth := 99) +contextual [*]; done) | (refine State.good_forAll _ _ (fun _ _ _ => ?_) ?_) | (refine State.good_iter _ _ (fun _ _ _ => ?_) ?_) | (refine State.ctxCommand_good _ _ _ _ (fun _ => ?_) ?_) | (refine State.pfCommand_good _ _ _ _ (fun _ => ?_) ?_) | split)

theorem execBind_good {pend : List Instr} (src : PfSrc) (s : State) (hg : s.Good pend) : Out.Good pend (execBind src s) := by
  unfold execBind
  repeat' (first | assumption | (extract_lets +onlyGivenNames v; refine (fun (hv : State.Good pend v) => ?_) ?_; (on_goal 2 => subst v); (on_goal 1 => clear_value v)) | (extract_lets +onlyGivenNames v; refine (fun (hv : State.Good pend v.1) => ?_) ?_; (on_goal 2 => subst v); (on_goal 1 => clear_value v)) | (extract_lets +onlyGivenNames v; clear_value v) | (simp (maxDischargeDepth := 99) +contextual [*]; done) | (refine State.good_forAll _ _ (fun _ _ _ => ?_) ?_) | (refine State.good_iter _ _ (fun _ _ _ => ?_) ?_) | (refine State.ctxCommand_good _ _ _ _ (fun _ => ?_) ?_) | (refine State.pfCommand_good _ _ _ _ (fun _ => ?_) ?_) | split)

theorem execFwact_good {pend : List Instr} (src : PfSrc) (s : State) (hg : s.Good pend) : Out.Good pend (execFwact src s) := by
  unfold execFwact
  repeat' (first | assumption | (extract_lets +onlyGivenNames v; refine (fun (hv : State.Good pend v) => ?_) ?_; (on_goal 2 => subst v); (on_goal 1 => clear_value v)) | (extract_lets +onlyGivenNames v; refine (fun (hv : State.Good pend v.1) => ?_) ?_; (on_goal 2 => subst v); (on_goal 1 => clear_value v)) | (extract_lets +onlyGivenNames v; clear_value v) | (simp (maxDischargeDepth := 99) +contextual [*]; done) | (refine State.good_forAll _ _ (fun _ _ _ => ?_) ?_) | (refine State.good_iter _ _ (fun _ _ _ => ?_) ?_) | (refine State.ctxCommand_good _ _ _ _ (fun _ => ?_) ?_) | (refine State.pfCommand_good _ _ _ _ (fun _ => ?_) ?_) | split)

/-! ## Machine/Images.lean -/

theorem execSnapshot_good {pend : List Instr} (c : Nat) (s : State) (hg : s.Good pend) : Out.Good pend (execSnapshot c s) := by
  unfold execSnapshot
  repeat' (first | assumption | (extract_lets +onlyGivenNames v; refine (fun (hv : State.Good pend v) => ?_) ?_; (on_goal 2 => subst v); (on_goal 1 => clear_value v)) | (extract_lets +onlyGivenNames v; refine (fun (hv : State.Good pend v.1) => ?_) ?_; (on_goal 2 => subst v); (on_goal 1 => clear_value v)) | (extract_lets +onlyGivenNames v; clear_value v) | (simp (maxDischargeDepth := 99) +contextual [*]; done) | (refine State.good_forAll _ _ (fun _ _ _ => ?_) ?_) | (refine State.good_iter _ _ (fun _ _ _ => ?_) ?_) | (refine State.ctxCommand_good _ _ _ _ (fun _ => ?_) ?_) | (refine State.pfCommand_good _ _ _ _ (fun _ => ?_) ?_) | split)

@[simp] theorem State.imageTouch_good {pend : List Instr} (s : State) (c : Nat) (pages : List MPage) (hg : s.Good pend) :
    (State.imageTouch s c pages).Good pend := by
  unfold State.imageTouch
  repeat' (first | assumption | (extract_lets +onlyGivenNames v; refine (fun (hv : State.Good pend v) => ?_) ?_; (on_goal 2 => subst v); (on_goal 1 => clear_value v)) | (extract_lets +onlyGivenNames v; refine (fun (hv : State.Good pend v.1) => ?_) ?_; (on_goal 2 => subst v); (on_goal 1 => clear_value v)) | (extract_lets +onlyGivenNames v; clear_value v) | (simp (maxDischargeDepth := 99) +contextual [*]; done) | (refine State.good_forAll _ _ (fun _ _ _ => ?_) ?_) | (refine State.good_iter _ _ (fun _ _ _ => ?_) ?_) | split)

theorem execSnapshotComplete_good {pend : List Instr} (c : Nat) (s : State) (hg : s.Good pend) : Out.Good pend (execSnapshotComplete c s) := by
  unfold execSnapshotComplete
  repeat' (first | assumption | (extract_lets +onlyGivenNames v; refine (fun (hv : State.Good pend v) => ?_) ?_; (on_goal 2 => subst v); (on_goal 1 => clear_value v)) | (extract_lets +onlyGivenNames v; refine (fun (hv : State.Good pend v.1) => ?_) ?_; (on_goal 2 => subst v); (on_goal 1 => clear_value v)) | (extract_lets +onlyGivenNames v; clear_value v) | (simp (maxDischargeDepth := 99) +contextual [*]; done) | (refine State.good_forAll _ _ (fun _ _ _ => ?_) ?_) | (refine State.good_iter _ _ (fun _ _ _ => ?_) ?_) | split)

theorem execExportRing_good {pend : List Instr} (c : Nat) (s : State) (hg : s.Good pend) : Out.Good pend (execExportRing c s) := by
  unfold execExportRing
  repeat' (first | assumption | (extract_lets +onlyGivenNames v; refine (fun (hv : State.Good pend v) => ?_) ?_; (on_goal 2 => subst v); (on_goal 1 => clear_value v)) | (extract_lets +onlyGivenNames v; refine (fun (hv : State.Good pend v.1) => ?_) ?_; (on_goal 2 => subst v); (on_goal 1 => clear_value v)) | (extract_lets +onlyGivenNames v; clear_value v) | (simp (maxDischargeDepth := 99) +contextual [*]; done) | (refine State.good_forAll _ _ (fun _ _ _ => ?_) ?_) | (refine State.good_iter _ _ (fun _ _ _ => ?_) ?_) | (refine State.ctxCommand_good _ _ _ _ (fun _ => ?_) ?_) | (refine State.pfCommand_good _ _ _ _ (fun _ => ?_) ?_) | split)

theorem execExportComplete_good {pend : List Instr} (c : Nat) (s : State) (hg : s.Good pend) : Out.Good pend (execExportComplete c s) := by
  unfold execExportComplete
  split
  · split
    · exact hg
    · split
      · exact hg
      · exact State.closeCmd_good _ _ _ _ _ _ (State.cWrap_good _ _ _ _ _ _ (State.hostPut_good _ _ _ _ (State.liveTouch_good _ _ _ _ hg)))
  · exact hg

@[simp] theorem State.aperStore_good {pend : List Instr} (s : State) (c va : Nat) (data : List Byte)
    (hg : s.Good pend) : (State.aperStore s c va data).Good pend := by
  unfold State.aperStore
  repeat' (first | assumption | (extract_lets +onlyGivenNames v; refine (fun (hv : State.Good pend v) => ?_) ?_; (on_goal 2 => subst v); (on_goal 1 => clear_value v)) | (extract_lets +onlyGivenNames v; refine (fun (hv : State.Good pend v.1) => ?_) ?_; (on_goal 2 => subst v); (on_goal 1 => clear_value v)) | (extract_lets +onlyGivenNames v; clear_value v) | (simp (maxDischargeDepth := 99) +contextual [*]; done) | (refine State.good_forAll _ _ (fun _ _ _ => ?_) ?_) | (refine State.good_iter _ _ (fun _ _ _ => ?_) ?_) | split)

@[simp] theorem State.aperFill_good {pend : List Instr} (s : State) (c va n : Nat) (hg : s.Good pend) : (State.aperFill s c va n).Good pend := by
  unfold State.aperFill
  simp (maxDischargeDepth := 99) +contextual [hg]

@[simp] theorem State.aperTouch_good {pend : List Instr} (s : State) (c va n : Nat) (hg : s.Good pend) :
    (State.aperTouch s c va n).Good pend := by
  unfold State.aperTouch
  repeat' (first | assumption | (extract_lets +onlyGivenNames v; refine (fun (hv : State.Good pend v) => ?_) ?_; (on_goal 2 => subst v); (on_goal 1 => clear_value v)) | (extract_lets +onlyGivenNames v; refine (fun (hv : State.Good pend v.1) => ?_) ?_; (on_goal 2 => subst v); (on_goal 1 => clear_value v)) | (extract_lets +onlyGivenNames v; clear_value v) | (simp (maxDischargeDepth := 99) +contextual [*]; done) | (refine State.good_forAll _ _ (fun _ _ _ => ?_) ?_) | (refine State.good_iter _ _ (fun _ _ _ => ?_) ?_) | split)

theorem execApertureAccess_good {pend : List Instr} (portB : Bool) (n off : Nat) (op : AperOp) (s : State)
    (hg : s.Good pend) : Out.Good pend (execApertureAccess portB n off op s) := by
  unfold execApertureAccess
  repeat' (first | assumption | (extract_lets +onlyGivenNames v; refine (fun (hv : State.Good pend v) => ?_) ?_; (on_goal 2 => subst v); (on_goal 1 => clear_value v)) | (extract_lets +onlyGivenNames v; refine (fun (hv : State.Good pend v.1) => ?_) ?_; (on_goal 2 => subst v); (on_goal 1 => clear_value v)) | (extract_lets +onlyGivenNames v; clear_value v) | (simp (maxDischargeDepth := 99) +contextual [*]; done) | (refine State.good_forAll _ _ (fun _ _ _ => ?_) ?_) | (refine State.good_iter _ _ (fun _ _ _ => ?_) ?_) | split)

end Sys2Proof.Machine
end

