-- ==== Sys2Proof/Laws/State.lean ====
section
/-! SUPPORT. The plain updates of State, field by field; what an accessor reads after one; bit fields of a register after a write of one. -/

namespace Sys2Proof.Machine

/-! ## setReg -/

@[simp] theorem State.setReg_pending (s : State) (a : Nat) (w : Word) : (s.setReg a w).pending = s.pending := rfl
@[simp] theorem State.setReg_tb (s : State) (a : Nat) (w : Word) : (s.setReg a w).tb = s.tb := rfl
@[simp] theorem State.setReg_pwrEn (s : State) (a : Nat) (w : Word) : (s.setReg a w).pwrEn = s.pwrEn := rfl
@[simp] theorem State.setReg_pwrgd (s : State) (a : Nat) (w : Word) : (s.setReg a w).pwrgd = s.pwrgd := rfl
@[simp] theorem State.setReg_perstA (s : State) (a : Nat) (w : Word) : (s.setReg a w).perstA = s.perstA := rfl
@[simp] theorem State.setReg_perstB (s : State) (a : Nat) (w : Word) : (s.setReg a w).perstB = s.perstB := rfl
@[simp] theorem State.setReg_linkA (s : State) (a : Nat) (w : Word) : (s.setReg a w).linkA = s.linkA := rfl
@[simp] theorem State.setReg_linkB (s : State) (a : Nat) (w : Word) : (s.setReg a w).linkB = s.linkB := rfl
@[simp] theorem State.setReg_rrs (s : State) (a : Nat) (w : Word) : (s.setReg a w).rrs = s.rrs := rfl
@[simp] theorem State.setReg_ppsPulses (s : State) (a : Nat) (w : Word) : (s.setReg a w).ppsPulses = s.ppsPulses := rfl
@[simp] theorem State.setReg_cycle (s : State) (a : Nat) (w : Word) : (s.setReg a w).cycle = s.cycle := rfl
@[simp] theorem State.setReg_late (s : State) (a : Nat) (w : Word) : (s.setReg a w).late = s.late := rfl
@[simp] theorem State.setReg_hostLanesA (s : State) (a : Nat) (w : Word) : (s.setReg a w).hostLanesA = s.hostLanesA := rfl
@[simp] theorem State.setReg_hostLanesB (s : State) (a : Nat) (w : Word) : (s.setReg a w).hostLanesB = s.hostLanesB := rfl
@[simp] theorem State.setReg_fusedSpares (s : State) (a : Nat) (w : Word) : (s.setReg a w).fusedSpares = s.fusedSpares := rfl
@[simp] theorem State.setReg_routers (s : State) (a : Nat) (w : Word) : (s.setReg a w).routers = s.routers := rfl
@[simp] theorem State.setReg_turns (s : State) (a : Nat) (w : Word) : (s.setReg a w).turns = s.turns := rfl
@[simp] theorem State.setReg_strandFaults (s : State) (a : Nat) (w : Word) : (s.setReg a w).strandFaults = s.strandFaults := rfl
@[simp] theorem State.setReg_unsent (s : State) (a : Nat) (w : Word) : (s.setReg a w).unsent = s.unsent := rfl
@[simp] theorem State.setReg_refreshAt (s : State) (a : Nat) (w : Word) : (s.setReg a w).refreshAt = s.refreshAt := rfl
@[simp] theorem State.setReg_periodAt (s : State) (a : Nat) (w : Word) : (s.setReg a w).periodAt = s.periodAt := rfl
@[simp] theorem State.setReg_upsets (s : State) (a : Nat) (w : Word) : (s.setReg a w).upsets = s.upsets := rfl
@[simp] theorem State.setReg_tapUnlocked (s : State) (a : Nat) (w : Word) : (s.setReg a w).tapUnlocked = s.tapUnlocked := rfl
@[simp] theorem State.setReg_i3cA (s : State) (a : Nat) (w : Word) : (s.setReg a w).i3cA = s.i3cA := rfl
@[simp] theorem State.setReg_i3cB (s : State) (a : Nat) (w : Word) : (s.setReg a w).i3cB = s.i3cB := rfl
@[simp] theorem State.setReg_thermtrip (s : State) (a : Nat) (w : Word) : (s.setReg a w).thermtrip = s.thermtrip := rfl
@[simp] theorem State.setReg_below (s : State) (a : Nat) (w : Word) : (s.setReg a w).below = s.below := rfl
@[simp] theorem State.setReg_above (s : State) (a : Nat) (w : Word) : (s.setReg a w).above = s.above := rfl
@[simp] theorem State.setReg_entered (s : State) (a : Nat) (w : Word) : (s.setReg a w).entered = s.entered := rfl
@[simp] theorem State.setReg_bufLimited (s : State) (a : Nat) (w : Word) : (s.setReg a w).bufLimited = s.bufLimited := rfl
@[simp] theorem State.setReg_halted (s : State) (a : Nat) (w : Word) : (s.setReg a w).halted = s.halted := rfl
@[simp] theorem State.setReg_haltSpans (s : State) (a : Nat) (w : Word) : (s.setReg a w).haltSpans = s.haltSpans := rfl
@[simp] theorem State.setReg_haltSince (s : State) (a : Nat) (w : Word) : (s.setReg a w).haltSince = s.haltSince := rfl
@[simp] theorem State.setReg_keepAlive (s : State) (a : Nat) (w : Word) : (s.setReg a w).keepAlive = s.keepAlive := rfl
@[simp] theorem State.setReg_selfRefresh (s : State) (a : Nat) (w : Word) : (s.setReg a w).selfRefresh = s.selfRefresh := rfl
@[simp] theorem State.setReg_shutdown (s : State) (a : Nat) (w : Word) : (s.setReg a w).shutdown = s.shutdown := rfl
@[simp] theorem State.setReg_divPend (s : State) (a : Nat) (w : Word) : (s.setReg a w).divPend = s.divPend := rfl
@[simp] theorem State.setReg_psTarget (s : State) (a : Nat) (w : Word) : (s.setReg a w).psTarget = s.psTarget := rfl
@[simp] theorem State.setReg_pstate (s : State) (a : Nat) (w : Word) : (s.setReg a w).pstate = s.pstate := rfl
@[simp] theorem State.setReg_takeoverActive (s : State) (a : Nat) (w : Word) : (s.setReg a w).takeoverActive = s.takeoverActive := rfl
@[simp] theorem State.setReg_faultWins (s : State) (a : Nat) (w : Word) : (s.setReg a w).faultWins = s.faultWins := rfl
@[simp] theorem State.setReg_flashA (s : State) (a : Nat) (w : Word) : (s.setReg a w).flashA = s.flashA := rfl
@[simp] theorem State.setReg_flashB (s : State) (a : Nat) (w : Word) : (s.setReg a w).flashB = s.flashB := rfl
@[simp] theorem State.setReg_warmActive (s : State) (a : Nat) (w : Word) : (s.setReg a w).warmActive = s.warmActive := rfl
@[simp] theorem State.setReg_roleB (s : State) (a : Nat) (w : Word) : (s.setReg a w).roleB = s.roleB := rfl
@[simp] theorem State.setReg_ptpLocked (s : State) (a : Nat) (w : Word) : (s.setReg a w).ptpLocked = s.ptpLocked := rfl
@[simp] theorem State.setReg_assetWritten (s : State) (a : Nat) (w : Word) : (s.setReg a w).assetWritten = s.assetWritten := rfl
@[simp] theorem State.setReg_mgmtCmds (s : State) (a : Nat) (w : Word) : (s.setReg a w).mgmtCmds = s.mgmtCmds := rfl
@[simp] theorem State.setReg_pfHeldA (s : State) (a : Nat) (w : Word) : (s.setReg a w).pfHeldA = s.pfHeldA := rfl
@[simp] theorem State.setReg_pfHeldB (s : State) (a : Nat) (w : Word) : (s.setReg a w).pfHeldB = s.pfHeldB := rfl
@[simp] theorem State.setReg_pfMailA (s : State) (a : Nat) (w : Word) : (s.setReg a w).pfMailA = s.pfMailA := rfl
@[simp] theorem State.setReg_pfMailB (s : State) (a : Nat) (w : Word) : (s.setReg a w).pfMailB = s.pfMailB := rfl
@[simp] theorem State.setReg_pfAckA (s : State) (a : Nat) (w : Word) : (s.setReg a w).pfAckA = s.pfAckA := rfl
@[simp] theorem State.setReg_pfAckB (s : State) (a : Nat) (w : Word) : (s.setReg a w).pfAckB = s.pfAckB := rfl
@[simp] theorem State.setReg_pfPhaseA (s : State) (a : Nat) (w : Word) : (s.setReg a w).pfPhaseA = s.pfPhaseA := rfl
@[simp] theorem State.setReg_pfPhaseB (s : State) (a : Nat) (w : Word) : (s.setReg a w).pfPhaseB = s.pfPhaseB := rfl
@[simp] theorem State.setReg_dies (s : State) (a : Nat) (w : Word) : (s.setReg a w).dies = s.dies := rfl
@[simp] theorem State.setReg_rafters (s : State) (a : Nat) (w : Word) : (s.setReg a w).rafters = s.rafters := rfl
@[simp] theorem State.setReg_ceCount (s : State) (a : Nat) (w : Word) : (s.setReg a w).ceCount = s.ceCount := rfl
@[simp] theorem State.setReg_replayCount (s : State) (a : Nat) (w : Word) : (s.setReg a w).replayCount = s.replayCount := rfl
@[simp] theorem State.setReg_flitCount (s : State) (a : Nat) (w : Word) : (s.setReg a w).flitCount = s.flitCount := rfl
@[simp] theorem State.setReg_memTemp (s : State) (a : Nat) (w : Word) : (s.setReg a w).memTemp = s.memTemp := rfl
@[simp] theorem State.setReg_refreshes (s : State) (a : Nat) (w : Word) : (s.setReg a w).refreshes = s.refreshes := rfl
@[simp] theorem State.setReg_bands (s : State) (a : Nat) (w : Word) : (s.setReg a w).bands = s.bands := rfl
@[simp] theorem State.setReg_mem (s : State) (a : Nat) (w : Word) : (s.setReg a w).mem = s.mem := rfl
@[simp] theorem State.setReg_poison (s : State) (a : Nat) (w : Word) : (s.setReg a w).poison = s.poison := rfl
@[simp] theorem State.setReg_cache (s : State) (a : Nat) (w : Word) : (s.setReg a w).cache = s.cache := rfl
@[simp] theorem State.setReg_rereads (s : State) (a : Nat) (w : Word) : (s.setReg a w).rereads = s.rereads := rfl
@[simp] theorem State.setReg_scratch (s : State) (a : Nat) (w : Word) : (s.setReg a w).scratch = s.scratch := rfl
@[simp] theorem State.setReg_scratchPoison (s : State) (a : Nat) (w : Word) : (s.setReg a w).scratchPoison = s.scratchPoison := rfl
@[simp] theorem State.setReg_hostMem (s : State) (a : Nat) (w : Word) : (s.setReg a w).hostMem = s.hostMem := rfl
@[simp] theorem State.setReg_images (s : State) (a : Nat) (w : Word) : (s.setReg a w).images = s.images := rfl
@[simp] theorem State.setReg_ligger (s : State) (a : Nat) (w : Word) : (s.setReg a w).ligger = s.ligger := rfl
@[simp] theorem State.setReg_ctxs (s : State) (a : Nat) (w : Word) : (s.setReg a w).ctxs = s.ctxs := rfl
@[simp] theorem State.setReg_groups (s : State) (a : Nat) (w : Word) : (s.setReg a w).groups = s.groups := rfl
@[simp] theorem State.setReg_routes (s : State) (a : Nat) (w : Word) : (s.setReg a w).routes = s.routes := rfl
@[simp] theorem State.setReg_prefixes (s : State) (a : Nat) (w : Word) : (s.setReg a w).prefixes = s.prefixes := rfl
@[simp] theorem State.setReg_links (s : State) (a : Nat) (w : Word) : (s.setReg a w).links = s.links := rfl
@[simp] theorem State.setReg_ports (s : State) (a : Nat) (w : Word) : (s.setReg a w).ports = s.ports := rfl
@[simp] theorem State.setReg_sites (s : State) (a : Nat) (w : Word) : (s.setReg a w).sites = s.sites := rfl
@[simp] theorem State.setReg_energyRem (s : State) (a : Nat) (w : Word) : (s.setReg a w).energyRem = s.energyRem := rfl
@[simp] theorem State.setReg_tileCycles (s : State) (a : Nat) (w : Word) : (s.setReg a w).tileCycles = s.tileCycles := rfl
@[simp] theorem State.setReg_wire (s : State) (a : Nat) (w : Word) : (s.setReg a w).wire = s.wire := rfl
@[simp] theorem State.setReg_msix (s : State) (a : Nat) (w : Word) : (s.setReg a w).msix = s.msix := rfl
@[simp] theorem State.ctx_of_setReg (s : State) (a : Nat) (w : Word) (b : Nat) : (s.setReg a w).ctx b = s.ctx b := rfl
@[simp] theorem State.die_of_setReg (s : State) (a : Nat) (w : Word) (b : Nat) : (s.setReg a w).die b = s.die b := rfl
@[simp] theorem State.rafter_of_setReg (s : State) (a : Nat) (w : Word) (b : Nat) : (s.setReg a w).rafter b = s.rafter b := rfl
@[simp] theorem State.port_of_setReg (s : State) (a : Nat) (w : Word) (b : Nat) : (s.setReg a w).port b = s.port b := rfl
@[simp] theorem State.link_of_setReg (s : State) (a : Nat) (w : Word) (b : Nat) : (s.setReg a w).link b = s.link b := rfl
@[simp] theorem State.site_of_setReg (s : State) (a : Nat) (w : Word) (b : Nat) : (s.setReg a w).site b = s.site b := rfl
@[simp] theorem State.now_of_setReg (s : State) (a : Nat) (w : Word) : (s.setReg a w).now = s.now := rfl

/-! ## resetRegs -/

@[simp] theorem State.resetRegs_pending (s : State) (p : Nat → Bool) : (s.resetRegs p).pending = s.pending := rfl
@[simp] theorem State.resetRegs_tb (s : State) (p : Nat → Bool) : (s.resetRegs p).tb = s.tb := rfl
@[simp] theorem State.resetRegs_pwrEn (s : State) (p : Nat → Bool) : (s.resetRegs p).pwrEn = s.pwrEn := rfl
@[simp] theorem State.resetRegs_pwrgd (s : State) (p : Nat → Bool) : (s.resetRegs p).pwrgd = s.pwrgd := rfl
@[simp] theorem State.resetRegs_perstA (s : State) (p : Nat → Bool) : (s.resetRegs p).perstA = s.perstA := rfl
@[simp] theorem State.resetRegs_perstB (s : State) (p : Nat → Bool) : (s.resetRegs p).perstB = s.perstB := rfl
@[simp] theorem State.resetRegs_linkA (s : State) (p : Nat → Bool) : (s.resetRegs p).linkA = s.linkA := rfl
@[simp] theorem State.resetRegs_linkB (s : State) (p : Nat → Bool) : (s.resetRegs p).linkB = s.linkB := rfl
@[simp] theorem State.resetRegs_rrs (s : State) (p : Nat → Bool) : (s.resetRegs p).rrs = s.rrs := rfl
@[simp] theorem State.resetRegs_ppsPulses (s : State) (p : Nat → Bool) : (s.resetRegs p).ppsPulses = s.ppsPulses := rfl
@[simp] theorem State.resetRegs_cycle (s : State) (p : Nat → Bool) : (s.resetRegs p).cycle = s.cycle := rfl
@[simp] theorem State.resetRegs_late (s : State) (p : Nat → Bool) : (s.resetRegs p).late = s.late := rfl
@[simp] theorem State.resetRegs_hostLanesA (s : State) (p : Nat → Bool) : (s.resetRegs p).hostLanesA = s.hostLanesA := rfl
@[simp] theorem State.resetRegs_hostLanesB (s : State) (p : Nat → Bool) : (s.resetRegs p).hostLanesB = s.hostLanesB := rfl
@[simp] theorem State.resetRegs_fusedSpares (s : State) (p : Nat → Bool) : (s.resetRegs p).fusedSpares = s.fusedSpares := rfl
@[simp] theorem State.resetRegs_routers (s : State) (p : Nat → Bool) : (s.resetRegs p).routers = s.routers := rfl
@[simp] theorem State.resetRegs_turns (s : State) (p : Nat → Bool) : (s.resetRegs p).turns = s.turns := rfl
@[simp] theorem State.resetRegs_strandFaults (s : State) (p : Nat → Bool) : (s.resetRegs p).strandFaults = s.strandFaults := rfl
@[simp] theorem State.resetRegs_unsent (s : State) (p : Nat → Bool) : (s.resetRegs p).unsent = s.unsent := rfl
@[simp] theorem State.resetRegs_refreshAt (s : State) (p : Nat → Bool) : (s.resetRegs p).refreshAt = s.refreshAt := rfl
@[simp] theorem State.resetRegs_periodAt (s : State) (p : Nat → Bool) : (s.resetRegs p).periodAt = s.periodAt := rfl
@[simp] theorem State.resetRegs_upsets (s : State) (p : Nat → Bool) : (s.resetRegs p).upsets = s.upsets := rfl
@[simp] theorem State.resetRegs_tapUnlocked (s : State) (p : Nat → Bool) : (s.resetRegs p).tapUnlocked = s.tapUnlocked := rfl
@[simp] theorem State.resetRegs_i3cA (s : State) (p : Nat → Bool) : (s.resetRegs p).i3cA = s.i3cA := rfl
@[simp] theorem State.resetRegs_i3cB (s : State) (p : Nat → Bool) : (s.resetRegs p).i3cB = s.i3cB := rfl
@[simp] theorem State.resetRegs_thermtrip (s : State) (p : Nat → Bool) : (s.resetRegs p).thermtrip = s.thermtrip := rfl
@[simp] theorem State.resetRegs_below (s : State) (p : Nat → Bool) : (s.resetRegs p).below = s.below := rfl
@[simp] theorem State.resetRegs_above (s : State) (p : Nat → Bool) : (s.resetRegs p).above = s.above := rfl
@[simp] theorem State.resetRegs_entered (s : State) (p : Nat → Bool) : (s.resetRegs p).entered = s.entered := rfl
@[simp] theorem State.resetRegs_bufLimited (s : State) (p : Nat → Bool) : (s.resetRegs p).bufLimited = s.bufLimited := rfl
@[simp] theorem State.resetRegs_halted (s : State) (p : Nat → Bool) : (s.resetRegs p).halted = s.halted := rfl
@[simp] theorem State.resetRegs_haltSpans (s : State) (p : Nat → Bool) : (s.resetRegs p).haltSpans = s.haltSpans := rfl
@[simp] theorem State.resetRegs_haltSince (s : State) (p : Nat → Bool) : (s.resetRegs p).haltSince = s.haltSince := rfl
@[simp] theorem State.resetRegs_keepAlive (s : State) (p : Nat → Bool) : (s.resetRegs p).keepAlive = s.keepAlive := rfl
@[simp] theorem State.resetRegs_selfRefresh (s : State) (p : Nat → Bool) : (s.resetRegs p).selfRefresh = s.selfRefresh := rfl
@[simp] theorem State.resetRegs_shutdown (s : State) (p : Nat → Bool) : (s.resetRegs p).shutdown = s.shutdown := rfl
@[simp] theorem State.resetRegs_divPend (s : State) (p : Nat → Bool) : (s.resetRegs p).divPend = s.divPend := rfl
@[simp] theorem State.resetRegs_psTarget (s : State) (p : Nat → Bool) : (s.resetRegs p).psTarget = s.psTarget := rfl
@[simp] theorem State.resetRegs_pstate (s : State) (p : Nat → Bool) : (s.resetRegs p).pstate = s.pstate := rfl
@[simp] theorem State.resetRegs_takeoverActive (s : State) (p : Nat → Bool) : (s.resetRegs p).takeoverActive = s.takeoverActive := rfl
@[simp] theorem State.resetRegs_faultWins (s : State) (p : Nat → Bool) : (s.resetRegs p).faultWins = s.faultWins := rfl
@[simp] theorem State.resetRegs_flashA (s : State) (p : Nat → Bool) : (s.resetRegs p).flashA = s.flashA := rfl
@[simp] theorem State.resetRegs_flashB (s : State) (p : Nat → Bool) : (s.resetRegs p).flashB = s.flashB := rfl
@[simp] theorem State.resetRegs_warmActive (s : State) (p : Nat → Bool) : (s.resetRegs p).warmActive = s.warmActive := rfl
@[simp] theorem State.resetRegs_roleB (s : State) (p : Nat → Bool) : (s.resetRegs p).roleB = s.roleB := rfl
@[simp] theorem State.resetRegs_ptpLocked (s : State) (p : Nat → Bool) : (s.resetRegs p).ptpLocked = s.ptpLocked := rfl
@[simp] theorem State.resetRegs_assetWritten (s : State) (p : Nat → Bool) : (s.resetRegs p).assetWritten = s.assetWritten := rfl
@[simp] theorem State.resetRegs_mgmtCmds (s : State) (p : Nat → Bool) : (s.resetRegs p).mgmtCmds = s.mgmtCmds := rfl
@[simp] theorem State.resetRegs_pfHeldA (s : State) (p : Nat → Bool) : (s.resetRegs p).pfHeldA = s.pfHeldA := rfl
@[simp] theorem State.resetRegs_pfHeldB (s : State) (p : Nat → Bool) : (s.resetRegs p).pfHeldB = s.pfHeldB := rfl
@[simp] theorem State.resetRegs_pfMailA (s : State) (p : Nat → Bool) : (s.resetRegs p).pfMailA = s.pfMailA := rfl
@[simp] theorem State.resetRegs_pfMailB (s : State) (p : Nat → Bool) : (s.resetRegs p).pfMailB = s.pfMailB := rfl
@[simp] theorem State.resetRegs_pfAckA (s : State) (p : Nat → Bool) : (s.resetRegs p).pfAckA = s.pfAckA := rfl
@[simp] theorem State.resetRegs_pfAckB (s : State) (p : Nat → Bool) : (s.resetRegs p).pfAckB = s.pfAckB := rfl
@[simp] theorem State.resetRegs_pfPhaseA (s : State) (p : Nat → Bool) : (s.resetRegs p).pfPhaseA = s.pfPhaseA := rfl
@[simp] theorem State.resetRegs_pfPhaseB (s : State) (p : Nat → Bool) : (s.resetRegs p).pfPhaseB = s.pfPhaseB := rfl
@[simp] theorem State.resetRegs_dies (s : State) (p : Nat → Bool) : (s.resetRegs p).dies = s.dies := rfl
@[simp] theorem State.resetRegs_rafters (s : State) (p : Nat → Bool) : (s.resetRegs p).rafters = s.rafters := rfl
@[simp] theorem State.resetRegs_ceCount (s : State) (p : Nat → Bool) : (s.resetRegs p).ceCount = s.ceCount := rfl
@[simp] theorem State.resetRegs_replayCount (s : State) (p : Nat → Bool) : (s.resetRegs p).replayCount = s.replayCount := rfl
@[simp] theorem State.resetRegs_flitCount (s : State) (p : Nat → Bool) : (s.resetRegs p).flitCount = s.flitCount := rfl
@[simp] theorem State.resetRegs_memTemp (s : State) (p : Nat → Bool) : (s.resetRegs p).memTemp = s.memTemp := rfl
@[simp] theorem State.resetRegs_refreshes (s : State) (p : Nat → Bool) : (s.resetRegs p).refreshes = s.refreshes := rfl
@[simp] theorem State.resetRegs_bands (s : State) (p : Nat → Bool) : (s.resetRegs p).bands = s.bands := rfl
@[simp] theorem State.resetRegs_mem (s : State) (p : Nat → Bool) : (s.resetRegs p).mem = s.mem := rfl
@[simp] theorem State.resetRegs_poison (s : State) (p : Nat → Bool) : (s.resetRegs p).poison = s.poison := rfl
@[simp] theorem State.resetRegs_cache (s : State) (p : Nat → Bool) : (s.resetRegs p).cache = s.cache := rfl
@[simp] theorem State.resetRegs_rereads (s : State) (p : Nat → Bool) : (s.resetRegs p).rereads = s.rereads := rfl
@[simp] theorem State.resetRegs_scratch (s : State) (p : Nat → Bool) : (s.resetRegs p).scratch = s.scratch := rfl
@[simp] theorem State.resetRegs_scratchPoison (s : State) (p : Nat → Bool) : (s.resetRegs p).scratchPoison = s.scratchPoison := rfl
@[simp] theorem State.resetRegs_hostMem (s : State) (p : Nat → Bool) : (s.resetRegs p).hostMem = s.hostMem := rfl
@[simp] theorem State.resetRegs_images (s : State) (p : Nat → Bool) : (s.resetRegs p).images = s.images := rfl
@[simp] theorem State.resetRegs_ligger (s : State) (p : Nat → Bool) : (s.resetRegs p).ligger = s.ligger := rfl
@[simp] theorem State.resetRegs_ctxs (s : State) (p : Nat → Bool) : (s.resetRegs p).ctxs = s.ctxs := rfl
@[simp] theorem State.resetRegs_groups (s : State) (p : Nat → Bool) : (s.resetRegs p).groups = s.groups := rfl
@[simp] theorem State.resetRegs_routes (s : State) (p : Nat → Bool) : (s.resetRegs p).routes = s.routes := rfl
@[simp] theorem State.resetRegs_prefixes (s : State) (p : Nat → Bool) : (s.resetRegs p).prefixes = s.prefixes := rfl
@[simp] theorem State.resetRegs_links (s : State) (p : Nat → Bool) : (s.resetRegs p).links = s.links := rfl
@[simp] theorem State.resetRegs_ports (s : State) (p : Nat → Bool) : (s.resetRegs p).ports = s.ports := rfl
@[simp] theorem State.resetRegs_sites (s : State) (p : Nat → Bool) : (s.resetRegs p).sites = s.sites := rfl
@[simp] theorem State.resetRegs_energyRem (s : State) (p : Nat → Bool) : (s.resetRegs p).energyRem = s.energyRem := rfl
@[simp] theorem State.resetRegs_tileCycles (s : State) (p : Nat → Bool) : (s.resetRegs p).tileCycles = s.tileCycles := rfl
@[simp] theorem State.resetRegs_wire (s : State) (p : Nat → Bool) : (s.resetRegs p).wire = s.wire := rfl
@[simp] theorem State.resetRegs_msix (s : State) (p : Nat → Bool) : (s.resetRegs p).msix = s.msix := rfl
@[simp] theorem State.ctx_of_resetRegs (s : State) (p : Nat → Bool) (b : Nat) : (s.resetRegs p).ctx b = s.ctx b := rfl
@[simp] theorem State.die_of_resetRegs (s : State) (p : Nat → Bool) (b : Nat) : (s.resetRegs p).die b = s.die b := rfl
@[simp] theorem State.rafter_of_resetRegs (s : State) (p : Nat → Bool) (b : Nat) : (s.resetRegs p).rafter b = s.rafter b := rfl
@[simp] theorem State.port_of_resetRegs (s : State) (p : Nat → Bool) (b : Nat) : (s.resetRegs p).port b = s.port b := rfl
@[simp] theorem State.link_of_resetRegs (s : State) (p : Nat → Bool) (b : Nat) : (s.resetRegs p).link b = s.link b := rfl
@[simp] theorem State.site_of_resetRegs (s : State) (p : Nat → Bool) (b : Nat) : (s.resetRegs p).site b = s.site b := rfl
@[simp] theorem State.now_of_resetRegs (s : State) (p : Nat → Bool) : (s.resetRegs p).now = s.now := rfl

/-! ## setCtx -/

@[simp] theorem State.setCtx_pending (s : State) (c : Nat) (x : Ctx) : (s.setCtx c x).pending = s.pending := rfl
@[simp] theorem State.setCtx_tb (s : State) (c : Nat) (x : Ctx) : (s.setCtx c x).tb = s.tb := rfl
@[simp] theorem State.setCtx_regs (s : State) (c : Nat) (x : Ctx) : (s.setCtx c x).regs = s.regs := rfl
@[simp] theorem State.setCtx_pwrEn (s : State) (c : Nat) (x : Ctx) : (s.setCtx c x).pwrEn = s.pwrEn := rfl
@[simp] theorem State.setCtx_pwrgd (s : State) (c : Nat) (x : Ctx) : (s.setCtx c x).pwrgd = s.pwrgd := rfl
@[simp] theorem State.setCtx_perstA (s : State) (c : Nat) (x : Ctx) : (s.setCtx c x).perstA = s.perstA := rfl
@[simp] theorem State.setCtx_perstB (s : State) (c : Nat) (x : Ctx) : (s.setCtx c x).perstB = s.perstB := rfl
@[simp] theorem State.setCtx_linkA (s : State) (c : Nat) (x : Ctx) : (s.setCtx c x).linkA = s.linkA := rfl
@[simp] theorem State.setCtx_linkB (s : State) (c : Nat) (x : Ctx) : (s.setCtx c x).linkB = s.linkB := rfl
@[simp] theorem State.setCtx_rrs (s : State) (c : Nat) (x : Ctx) : (s.setCtx c x).rrs = s.rrs := rfl
@[simp] theorem State.setCtx_ppsPulses (s : State) (c : Nat) (x : Ctx) : (s.setCtx c x).ppsPulses = s.ppsPulses := rfl
@[simp] theorem State.setCtx_cycle (s : State) (c : Nat) (x : Ctx) : (s.setCtx c x).cycle = s.cycle := rfl
@[simp] theorem State.setCtx_late (s : State) (c : Nat) (x : Ctx) : (s.setCtx c x).late = s.late := rfl
@[simp] theorem State.setCtx_hostLanesA (s : State) (c : Nat) (x : Ctx) : (s.setCtx c x).hostLanesA = s.hostLanesA := rfl
@[simp] theorem State.setCtx_hostLanesB (s : State) (c : Nat) (x : Ctx) : (s.setCtx c x).hostLanesB = s.hostLanesB := rfl
@[simp] theorem State.setCtx_fusedSpares (s : State) (c : Nat) (x : Ctx) : (s.setCtx c x).fusedSpares = s.fusedSpares := rfl
@[simp] theorem State.setCtx_routers (s : State) (c : Nat) (x : Ctx) : (s.setCtx c x).routers = s.routers := rfl
@[simp] theorem State.setCtx_turns (s : State) (c : Nat) (x : Ctx) : (s.setCtx c x).turns = s.turns := rfl
@[simp] theorem State.setCtx_strandFaults (s : State) (c : Nat) (x : Ctx) : (s.setCtx c x).strandFaults = s.strandFaults := rfl
@[simp] theorem State.setCtx_unsent (s : State) (c : Nat) (x : Ctx) : (s.setCtx c x).unsent = s.unsent := rfl
@[simp] theorem State.setCtx_refreshAt (s : State) (c : Nat) (x : Ctx) : (s.setCtx c x).refreshAt = s.refreshAt := rfl
@[simp] theorem State.setCtx_periodAt (s : State) (c : Nat) (x : Ctx) : (s.setCtx c x).periodAt = s.periodAt := rfl
@[simp] theorem State.setCtx_upsets (s : State) (c : Nat) (x : Ctx) : (s.setCtx c x).upsets = s.upsets := rfl
@[simp] theorem State.setCtx_tapUnlocked (s : State) (c : Nat) (x : Ctx) : (s.setCtx c x).tapUnlocked = s.tapUnlocked := rfl
@[simp] theorem State.setCtx_i3cA (s : State) (c : Nat) (x : Ctx) : (s.setCtx c x).i3cA = s.i3cA := rfl
@[simp] theorem State.setCtx_i3cB (s : State) (c : Nat) (x : Ctx) : (s.setCtx c x).i3cB = s.i3cB := rfl
@[simp] theorem State.setCtx_thermtrip (s : State) (c : Nat) (x : Ctx) : (s.setCtx c x).thermtrip = s.thermtrip := rfl
@[simp] theorem State.setCtx_below (s : State) (c : Nat) (x : Ctx) : (s.setCtx c x).below = s.below := rfl
@[simp] theorem State.setCtx_above (s : State) (c : Nat) (x : Ctx) : (s.setCtx c x).above = s.above := rfl
@[simp] theorem State.setCtx_entered (s : State) (c : Nat) (x : Ctx) : (s.setCtx c x).entered = s.entered := rfl
@[simp] theorem State.setCtx_bufLimited (s : State) (c : Nat) (x : Ctx) : (s.setCtx c x).bufLimited = s.bufLimited := rfl
@[simp] theorem State.setCtx_halted (s : State) (c : Nat) (x : Ctx) : (s.setCtx c x).halted = s.halted := rfl
@[simp] theorem State.setCtx_haltSpans (s : State) (c : Nat) (x : Ctx) : (s.setCtx c x).haltSpans = s.haltSpans := rfl
@[simp] theorem State.setCtx_haltSince (s : State) (c : Nat) (x : Ctx) : (s.setCtx c x).haltSince = s.haltSince := rfl
@[simp] theorem State.setCtx_keepAlive (s : State) (c : Nat) (x : Ctx) : (s.setCtx c x).keepAlive = s.keepAlive := rfl
@[simp] theorem State.setCtx_selfRefresh (s : State) (c : Nat) (x : Ctx) : (s.setCtx c x).selfRefresh = s.selfRefresh := rfl
@[simp] theorem State.setCtx_shutdown (s : State) (c : Nat) (x : Ctx) : (s.setCtx c x).shutdown = s.shutdown := rfl
@[simp] theorem State.setCtx_divPend (s : State) (c : Nat) (x : Ctx) : (s.setCtx c x).divPend = s.divPend := rfl
@[simp] theorem State.setCtx_psTarget (s : State) (c : Nat) (x : Ctx) : (s.setCtx c x).psTarget = s.psTarget := rfl
@[simp] theorem State.setCtx_pstate (s : State) (c : Nat) (x : Ctx) : (s.setCtx c x).pstate = s.pstate := rfl
@[simp] theorem State.setCtx_takeoverActive (s : State) (c : Nat) (x : Ctx) : (s.setCtx c x).takeoverActive = s.takeoverActive := rfl
@[simp] theorem State.setCtx_faultWins (s : State) (c : Nat) (x : Ctx) : (s.setCtx c x).faultWins = s.faultWins := rfl
@[simp] theorem State.setCtx_flashA (s : State) (c : Nat) (x : Ctx) : (s.setCtx c x).flashA = s.flashA := rfl
@[simp] theorem State.setCtx_flashB (s : State) (c : Nat) (x : Ctx) : (s.setCtx c x).flashB = s.flashB := rfl
@[simp] theorem State.setCtx_warmActive (s : State) (c : Nat) (x : Ctx) : (s.setCtx c x).warmActive = s.warmActive := rfl
@[simp] theorem State.setCtx_roleB (s : State) (c : Nat) (x : Ctx) : (s.setCtx c x).roleB = s.roleB := rfl
@[simp] theorem State.setCtx_ptpLocked (s : State) (c : Nat) (x : Ctx) : (s.setCtx c x).ptpLocked = s.ptpLocked := rfl
@[simp] theorem State.setCtx_assetWritten (s : State) (c : Nat) (x : Ctx) : (s.setCtx c x).assetWritten = s.assetWritten := rfl
@[simp] theorem State.setCtx_mgmtCmds (s : State) (c : Nat) (x : Ctx) : (s.setCtx c x).mgmtCmds = s.mgmtCmds := rfl
@[simp] theorem State.setCtx_pfHeldA (s : State) (c : Nat) (x : Ctx) : (s.setCtx c x).pfHeldA = s.pfHeldA := rfl
@[simp] theorem State.setCtx_pfHeldB (s : State) (c : Nat) (x : Ctx) : (s.setCtx c x).pfHeldB = s.pfHeldB := rfl
@[simp] theorem State.setCtx_pfMailA (s : State) (c : Nat) (x : Ctx) : (s.setCtx c x).pfMailA = s.pfMailA := rfl
@[simp] theorem State.setCtx_pfMailB (s : State) (c : Nat) (x : Ctx) : (s.setCtx c x).pfMailB = s.pfMailB := rfl
@[simp] theorem State.setCtx_pfAckA (s : State) (c : Nat) (x : Ctx) : (s.setCtx c x).pfAckA = s.pfAckA := rfl
@[simp] theorem State.setCtx_pfAckB (s : State) (c : Nat) (x : Ctx) : (s.setCtx c x).pfAckB = s.pfAckB := rfl
@[simp] theorem State.setCtx_pfPhaseA (s : State) (c : Nat) (x : Ctx) : (s.setCtx c x).pfPhaseA = s.pfPhaseA := rfl
@[simp] theorem State.setCtx_pfPhaseB (s : State) (c : Nat) (x : Ctx) : (s.setCtx c x).pfPhaseB = s.pfPhaseB := rfl
@[simp] theorem State.setCtx_dies (s : State) (c : Nat) (x : Ctx) : (s.setCtx c x).dies = s.dies := rfl
@[simp] theorem State.setCtx_rafters (s : State) (c : Nat) (x : Ctx) : (s.setCtx c x).rafters = s.rafters := rfl
@[simp] theorem State.setCtx_ceCount (s : State) (c : Nat) (x : Ctx) : (s.setCtx c x).ceCount = s.ceCount := rfl
@[simp] theorem State.setCtx_replayCount (s : State) (c : Nat) (x : Ctx) : (s.setCtx c x).replayCount = s.replayCount := rfl
@[simp] theorem State.setCtx_flitCount (s : State) (c : Nat) (x : Ctx) : (s.setCtx c x).flitCount = s.flitCount := rfl
@[simp] theorem State.setCtx_memTemp (s : State) (c : Nat) (x : Ctx) : (s.setCtx c x).memTemp = s.memTemp := rfl
@[simp] theorem State.setCtx_refreshes (s : State) (c : Nat) (x : Ctx) : (s.setCtx c x).refreshes = s.refreshes := rfl
@[simp] theorem State.setCtx_bands (s : State) (c : Nat) (x : Ctx) : (s.setCtx c x).bands = s.bands := rfl
@[simp] theorem State.setCtx_mem (s : State) (c : Nat) (x : Ctx) : (s.setCtx c x).mem = s.mem := rfl
@[simp] theorem State.setCtx_poison (s : State) (c : Nat) (x : Ctx) : (s.setCtx c x).poison = s.poison := rfl
@[simp] theorem State.setCtx_cache (s : State) (c : Nat) (x : Ctx) : (s.setCtx c x).cache = s.cache := rfl
@[simp] theorem State.setCtx_rereads (s : State) (c : Nat) (x : Ctx) : (s.setCtx c x).rereads = s.rereads := rfl
@[simp] theorem State.setCtx_scratch (s : State) (c : Nat) (x : Ctx) : (s.setCtx c x).scratch = s.scratch := rfl
@[simp] theorem State.setCtx_scratchPoison (s : State) (c : Nat) (x : Ctx) : (s.setCtx c x).scratchPoison = s.scratchPoison := rfl
@[simp] theorem State.setCtx_hostMem (s : State) (c : Nat) (x : Ctx) : (s.setCtx c x).hostMem = s.hostMem := rfl
@[simp] theorem State.setCtx_images (s : State) (c : Nat) (x : Ctx) : (s.setCtx c x).images = s.images := rfl
@[simp] theorem State.setCtx_ligger (s : State) (c : Nat) (x : Ctx) : (s.setCtx c x).ligger = s.ligger := rfl
@[simp] theorem State.setCtx_groups (s : State) (c : Nat) (x : Ctx) : (s.setCtx c x).groups = s.groups := rfl
@[simp] theorem State.setCtx_routes (s : State) (c : Nat) (x : Ctx) : (s.setCtx c x).routes = s.routes := rfl
@[simp] theorem State.setCtx_prefixes (s : State) (c : Nat) (x : Ctx) : (s.setCtx c x).prefixes = s.prefixes := rfl
@[simp] theorem State.setCtx_links (s : State) (c : Nat) (x : Ctx) : (s.setCtx c x).links = s.links := rfl
@[simp] theorem State.setCtx_ports (s : State) (c : Nat) (x : Ctx) : (s.setCtx c x).ports = s.ports := rfl
@[simp] theorem State.setCtx_sites (s : State) (c : Nat) (x : Ctx) : (s.setCtx c x).sites = s.sites := rfl
@[simp] theorem State.setCtx_energyRem (s : State) (c : Nat) (x : Ctx) : (s.setCtx c x).energyRem = s.energyRem := rfl
@[simp] theorem State.setCtx_tileCycles (s : State) (c : Nat) (x : Ctx) : (s.setCtx c x).tileCycles = s.tileCycles := rfl
@[simp] theorem State.setCtx_wire (s : State) (c : Nat) (x : Ctx) : (s.setCtx c x).wire = s.wire := rfl
@[simp] theorem State.setCtx_msix (s : State) (c : Nat) (x : Ctx) : (s.setCtx c x).msix = s.msix := rfl
@[simp] theorem State.reg_of_setCtx (s : State) (c : Nat) (x : Ctx) (b : Nat) : (s.setCtx c x).reg b = s.reg b := rfl
@[simp] theorem State.die_of_setCtx (s : State) (c : Nat) (x : Ctx) (b : Nat) : (s.setCtx c x).die b = s.die b := rfl
@[simp] theorem State.rafter_of_setCtx (s : State) (c : Nat) (x : Ctx) (b : Nat) : (s.setCtx c x).rafter b = s.rafter b := rfl
@[simp] theorem State.port_of_setCtx (s : State) (c : Nat) (x : Ctx) (b : Nat) : (s.setCtx c x).port b = s.port b := rfl
@[simp] theorem State.link_of_setCtx (s : State) (c : Nat) (x : Ctx) (b : Nat) : (s.setCtx c x).link b = s.link b := rfl
@[simp] theorem State.site_of_setCtx (s : State) (c : Nat) (x : Ctx) (b : Nat) : (s.setCtx c x).site b = s.site b := rfl
@[simp] theorem State.now_of_setCtx (s : State) (c : Nat) (x : Ctx) : (s.setCtx c x).now = s.now := rfl

/-! ## mapCtxs -/

@[simp] theorem State.mapCtxs_pending (s : State) (f : Ctx → Ctx) : (s.mapCtxs f).pending = s.pending := rfl
@[simp] theorem State.mapCtxs_tb (s : State) (f : Ctx → Ctx) : (s.mapCtxs f).tb = s.tb := rfl
@[simp] theorem State.mapCtxs_regs (s : State) (f : Ctx → Ctx) : (s.mapCtxs f).regs = s.regs := rfl
@[simp] theorem State.mapCtxs_pwrEn (s : State) (f : Ctx → Ctx) : (s.mapCtxs f).pwrEn = s.pwrEn := rfl
@[simp] theorem State.mapCtxs_pwrgd (s : State) (f : Ctx → Ctx) : (s.mapCtxs f).pwrgd = s.pwrgd := rfl
@[simp] theorem State.mapCtxs_perstA (s : State) (f : Ctx → Ctx) : (s.mapCtxs f).perstA = s.perstA := rfl
@[simp] theorem State.mapCtxs_perstB (s : State) (f : Ctx → Ctx) : (s.mapCtxs f).perstB = s.perstB := rfl
@[simp] theorem State.mapCtxs_linkA (s : State) (f : Ctx → Ctx) : (s.mapCtxs f).linkA = s.linkA := rfl
@[simp] theorem State.mapCtxs_linkB (s : State) (f : Ctx → Ctx) : (s.mapCtxs f).linkB = s.linkB := rfl
@[simp] theorem State.mapCtxs_rrs (s : State) (f : Ctx → Ctx) : (s.mapCtxs f).rrs = s.rrs := rfl
@[simp] theorem State.mapCtxs_ppsPulses (s : State) (f : Ctx → Ctx) : (s.mapCtxs f).ppsPulses = s.ppsPulses := rfl
@[simp] theorem State.mapCtxs_cycle (s : State) (f : Ctx → Ctx) : (s.mapCtxs f).cycle = s.cycle := rfl
@[simp] theorem State.mapCtxs_late (s : State) (f : Ctx → Ctx) : (s.mapCtxs f).late = s.late := rfl
@[simp] theorem State.mapCtxs_hostLanesA (s : State) (f : Ctx → Ctx) : (s.mapCtxs f).hostLanesA = s.hostLanesA := rfl
@[simp] theorem State.mapCtxs_hostLanesB (s : State) (f : Ctx → Ctx) : (s.mapCtxs f).hostLanesB = s.hostLanesB := rfl
@[simp] theorem State.mapCtxs_fusedSpares (s : State) (f : Ctx → Ctx) : (s.mapCtxs f).fusedSpares = s.fusedSpares := rfl
@[simp] theorem State.mapCtxs_routers (s : State) (f : Ctx → Ctx) : (s.mapCtxs f).routers = s.routers := rfl
@[simp] theorem State.mapCtxs_turns (s : State) (f : Ctx → Ctx) : (s.mapCtxs f).turns = s.turns := rfl
@[simp] theorem State.mapCtxs_strandFaults (s : State) (f : Ctx → Ctx) : (s.mapCtxs f).strandFaults = s.strandFaults := rfl
@[simp] theorem State.mapCtxs_unsent (s : State) (f : Ctx → Ctx) : (s.mapCtxs f).unsent = s.unsent := rfl
@[simp] theorem State.mapCtxs_refreshAt (s : State) (f : Ctx → Ctx) : (s.mapCtxs f).refreshAt = s.refreshAt := rfl
@[simp] theorem State.mapCtxs_periodAt (s : State) (f : Ctx → Ctx) : (s.mapCtxs f).periodAt = s.periodAt := rfl
@[simp] theorem State.mapCtxs_upsets (s : State) (f : Ctx → Ctx) : (s.mapCtxs f).upsets = s.upsets := rfl
@[simp] theorem State.mapCtxs_tapUnlocked (s : State) (f : Ctx → Ctx) : (s.mapCtxs f).tapUnlocked = s.tapUnlocked := rfl
@[simp] theorem State.mapCtxs_i3cA (s : State) (f : Ctx → Ctx) : (s.mapCtxs f).i3cA = s.i3cA := rfl
@[simp] theorem State.mapCtxs_i3cB (s : State) (f : Ctx → Ctx) : (s.mapCtxs f).i3cB = s.i3cB := rfl
@[simp] theorem State.mapCtxs_thermtrip (s : State) (f : Ctx → Ctx) : (s.mapCtxs f).thermtrip = s.thermtrip := rfl
@[simp] theorem State.mapCtxs_below (s : State) (f : Ctx → Ctx) : (s.mapCtxs f).below = s.below := rfl
@[simp] theorem State.mapCtxs_above (s : State) (f : Ctx → Ctx) : (s.mapCtxs f).above = s.above := rfl
@[simp] theorem State.mapCtxs_entered (s : State) (f : Ctx → Ctx) : (s.mapCtxs f).entered = s.entered := rfl
@[simp] theorem State.mapCtxs_bufLimited (s : State) (f : Ctx → Ctx) : (s.mapCtxs f).bufLimited = s.bufLimited := rfl
@[simp] theorem State.mapCtxs_halted (s : State) (f : Ctx → Ctx) : (s.mapCtxs f).halted = s.halted := rfl
@[simp] theorem State.mapCtxs_haltSpans (s : State) (f : Ctx → Ctx) : (s.mapCtxs f).haltSpans = s.haltSpans := rfl
@[simp] theorem State.mapCtxs_haltSince (s : State) (f : Ctx → Ctx) : (s.mapCtxs f).haltSince = s.haltSince := rfl
@[simp] theorem State.mapCtxs_keepAlive (s : State) (f : Ctx → Ctx) : (s.mapCtxs f).keepAlive = s.keepAlive := rfl
@[simp] theorem State.mapCtxs_selfRefresh (s : State) (f : Ctx → Ctx) : (s.mapCtxs f).selfRefresh = s.selfRefresh := rfl
@[simp] theorem State.mapCtxs_shutdown (s : State) (f : Ctx → Ctx) : (s.mapCtxs f).shutdown = s.shutdown := rfl
@[simp] theorem State.mapCtxs_divPend (s : State) (f : Ctx → Ctx) : (s.mapCtxs f).divPend = s.divPend := rfl
@[simp] theorem State.mapCtxs_psTarget (s : State) (f : Ctx → Ctx) : (s.mapCtxs f).psTarget = s.psTarget := rfl
@[simp] theorem State.mapCtxs_pstate (s : State) (f : Ctx → Ctx) : (s.mapCtxs f).pstate = s.pstate := rfl
@[simp] theorem State.mapCtxs_takeoverActive (s : State) (f : Ctx → Ctx) : (s.mapCtxs f).takeoverActive = s.takeoverActive := rfl
@[simp] theorem State.mapCtxs_faultWins (s : State) (f : Ctx → Ctx) : (s.mapCtxs f).faultWins = s.faultWins := rfl
@[simp] theorem State.mapCtxs_flashA (s : State) (f : Ctx → Ctx) : (s.mapCtxs f).flashA = s.flashA := rfl
@[simp] theorem State.mapCtxs_flashB (s : State) (f : Ctx → Ctx) : (s.mapCtxs f).flashB = s.flashB := rfl
@[simp] theorem State.mapCtxs_warmActive (s : State) (f : Ctx → Ctx) : (s.mapCtxs f).warmActive = s.warmActive := rfl
@[simp] theorem State.mapCtxs_roleB (s : State) (f : Ctx → Ctx) : (s.mapCtxs f).roleB = s.roleB := rfl
@[simp] theorem State.mapCtxs_ptpLocked (s : State) (f : Ctx → Ctx) : (s.mapCtxs f).ptpLocked = s.ptpLocked := rfl
@[simp] theorem State.mapCtxs_assetWritten (s : State) (f : Ctx → Ctx) : (s.mapCtxs f).assetWritten = s.assetWritten := rfl
@[simp] theorem State.mapCtxs_mgmtCmds (s : State) (f : Ctx → Ctx) : (s.mapCtxs f).mgmtCmds = s.mgmtCmds := rfl
@[simp] theorem State.mapCtxs_pfHeldA (s : State) (f : Ctx → Ctx) : (s.mapCtxs f).pfHeldA = s.pfHeldA := rfl
@[simp] theorem State.mapCtxs_pfHeldB (s : State) (f : Ctx → Ctx) : (s.mapCtxs f).pfHeldB = s.pfHeldB := rfl
@[simp] theorem State.mapCtxs_pfMailA (s : State) (f : Ctx → Ctx) : (s.mapCtxs f).pfMailA = s.pfMailA := rfl
@[simp] theorem State.mapCtxs_pfMailB (s : State) (f : Ctx → Ctx) : (s.mapCtxs f).pfMailB = s.pfMailB := rfl
@[simp] theorem State.mapCtxs_pfAckA (s : State) (f : Ctx → Ctx) : (s.mapCtxs f).pfAckA = s.pfAckA := rfl
@[simp] theorem State.mapCtxs_pfAckB (s : State) (f : Ctx → Ctx) : (s.mapCtxs f).pfAckB = s.pfAckB := rfl
@[simp] theorem State.mapCtxs_pfPhaseA (s : State) (f : Ctx → Ctx) : (s.mapCtxs f).pfPhaseA = s.pfPhaseA := rfl
@[simp] theorem State.mapCtxs_pfPhaseB (s : State) (f : Ctx → Ctx) : (s.mapCtxs f).pfPhaseB = s.pfPhaseB := rfl
@[simp] theorem State.mapCtxs_dies (s : State) (f : Ctx → Ctx) : (s.mapCtxs f).dies = s.dies := rfl
@[simp] theorem State.mapCtxs_rafters (s : State) (f : Ctx → Ctx) : (s.mapCtxs f).rafters = s.rafters := rfl
@[simp] theorem State.mapCtxs_ceCount (s : State) (f : Ctx → Ctx) : (s.mapCtxs f).ceCount = s.ceCount := rfl
@[simp] theorem State.mapCtxs_replayCount (s : State) (f : Ctx → Ctx) : (s.mapCtxs f).replayCount = s.replayCount := rfl
@[simp] theorem State.mapCtxs_flitCount (s : State) (f : Ctx → Ctx) : (s.mapCtxs f).flitCount = s.flitCount := rfl
@[simp] theorem State.mapCtxs_memTemp (s : State) (f : Ctx → Ctx) : (s.mapCtxs f).memTemp = s.memTemp := rfl
@[simp] theorem State.mapCtxs_refreshes (s : State) (f : Ctx → Ctx) : (s.mapCtxs f).refreshes = s.refreshes := rfl
@[simp] theorem State.mapCtxs_bands (s : State) (f : Ctx → Ctx) : (s.mapCtxs f).bands = s.bands := rfl
@[simp] theorem State.mapCtxs_mem (s : State) (f : Ctx → Ctx) : (s.mapCtxs f).mem = s.mem := rfl
@[simp] theorem State.mapCtxs_poison (s : State) (f : Ctx → Ctx) : (s.mapCtxs f).poison = s.poison := rfl
@[simp] theorem State.mapCtxs_cache (s : State) (f : Ctx → Ctx) : (s.mapCtxs f).cache = s.cache := rfl
@[simp] theorem State.mapCtxs_rereads (s : State) (f : Ctx → Ctx) : (s.mapCtxs f).rereads = s.rereads := rfl
@[simp] theorem State.mapCtxs_scratch (s : State) (f : Ctx → Ctx) : (s.mapCtxs f).scratch = s.scratch := rfl
@[simp] theorem State.mapCtxs_scratchPoison (s : State) (f : Ctx → Ctx) : (s.mapCtxs f).scratchPoison = s.scratchPoison := rfl
@[simp] theorem State.mapCtxs_hostMem (s : State) (f : Ctx → Ctx) : (s.mapCtxs f).hostMem = s.hostMem := rfl
@[simp] theorem State.mapCtxs_images (s : State) (f : Ctx → Ctx) : (s.mapCtxs f).images = s.images := rfl
@[simp] theorem State.mapCtxs_ligger (s : State) (f : Ctx → Ctx) : (s.mapCtxs f).ligger = s.ligger := rfl
@[simp] theorem State.mapCtxs_groups (s : State) (f : Ctx → Ctx) : (s.mapCtxs f).groups = s.groups := rfl
@[simp] theorem State.mapCtxs_routes (s : State) (f : Ctx → Ctx) : (s.mapCtxs f).routes = s.routes := rfl
@[simp] theorem State.mapCtxs_prefixes (s : State) (f : Ctx → Ctx) : (s.mapCtxs f).prefixes = s.prefixes := rfl
@[simp] theorem State.mapCtxs_links (s : State) (f : Ctx → Ctx) : (s.mapCtxs f).links = s.links := rfl
@[simp] theorem State.mapCtxs_ports (s : State) (f : Ctx → Ctx) : (s.mapCtxs f).ports = s.ports := rfl
@[simp] theorem State.mapCtxs_sites (s : State) (f : Ctx → Ctx) : (s.mapCtxs f).sites = s.sites := rfl
@[simp] theorem State.mapCtxs_energyRem (s : State) (f : Ctx → Ctx) : (s.mapCtxs f).energyRem = s.energyRem := rfl
@[simp] theorem State.mapCtxs_tileCycles (s : State) (f : Ctx → Ctx) : (s.mapCtxs f).tileCycles = s.tileCycles := rfl
@[simp] theorem State.mapCtxs_wire (s : State) (f : Ctx → Ctx) : (s.mapCtxs f).wire = s.wire := rfl
@[simp] theorem State.mapCtxs_msix (s : State) (f : Ctx → Ctx) : (s.mapCtxs f).msix = s.msix := rfl
@[simp] theorem State.reg_of_mapCtxs (s : State) (f : Ctx → Ctx) (b : Nat) : (s.mapCtxs f).reg b = s.reg b := rfl
@[simp] theorem State.die_of_mapCtxs (s : State) (f : Ctx → Ctx) (b : Nat) : (s.mapCtxs f).die b = s.die b := rfl
@[simp] theorem State.rafter_of_mapCtxs (s : State) (f : Ctx → Ctx) (b : Nat) : (s.mapCtxs f).rafter b = s.rafter b := rfl
@[simp] theorem State.port_of_mapCtxs (s : State) (f : Ctx → Ctx) (b : Nat) : (s.mapCtxs f).port b = s.port b := rfl
@[simp] theorem State.link_of_mapCtxs (s : State) (f : Ctx → Ctx) (b : Nat) : (s.mapCtxs f).link b = s.link b := rfl
@[simp] theorem State.site_of_mapCtxs (s : State) (f : Ctx → Ctx) (b : Nat) : (s.mapCtxs f).site b = s.site b := rfl
@[simp] theorem State.now_of_mapCtxs (s : State) (f : Ctx → Ctx) : (s.mapCtxs f).now = s.now := rfl

/-! ## modDie -/

@[simp] theorem State.modDie_pending (s : State) (d : Nat) (f : Die → Die) : (s.modDie d f).pending = s.pending := rfl
@[simp] theorem State.modDie_tb (s : State) (d : Nat) (f : Die → Die) : (s.modDie d f).tb = s.tb := rfl
@[simp] theorem State.modDie_regs (s : State) (d : Nat) (f : Die → Die) : (s.modDie d f).regs = s.regs := rfl
@[simp] theorem State.modDie_pwrEn (s : State) (d : Nat) (f : Die → Die) : (s.modDie d f).pwrEn = s.pwrEn := rfl
@[simp] theorem State.modDie_pwrgd (s : State) (d : Nat) (f : Die → Die) : (s.modDie d f).pwrgd = s.pwrgd := rfl
@[simp] theorem State.modDie_perstA (s : State) (d : Nat) (f : Die → Die) : (s.modDie d f).perstA = s.perstA := rfl
@[simp] theorem State.modDie_perstB (s : State) (d : Nat) (f : Die → Die) : (s.modDie d f).perstB = s.perstB := rfl
@[simp] theorem State.modDie_linkA (s : State) (d : Nat) (f : Die → Die) : (s.modDie d f).linkA = s.linkA := rfl
@[simp] theorem State.modDie_linkB (s : State) (d : Nat) (f : Die → Die) : (s.modDie d f).linkB = s.linkB := rfl
@[simp] theorem State.modDie_rrs (s : State) (d : Nat) (f : Die → Die) : (s.modDie d f).rrs = s.rrs := rfl
@[simp] theorem State.modDie_ppsPulses (s : State) (d : Nat) (f : Die → Die) : (s.modDie d f).ppsPulses = s.ppsPulses := rfl
@[simp] theorem State.modDie_cycle (s : State) (d : Nat) (f : Die → Die) : (s.modDie d f).cycle = s.cycle := rfl
@[simp] theorem State.modDie_late (s : State) (d : Nat) (f : Die → Die) : (s.modDie d f).late = s.late := rfl
@[simp] theorem State.modDie_hostLanesA (s : State) (d : Nat) (f : Die → Die) : (s.modDie d f).hostLanesA = s.hostLanesA := rfl
@[simp] theorem State.modDie_hostLanesB (s : State) (d : Nat) (f : Die → Die) : (s.modDie d f).hostLanesB = s.hostLanesB := rfl
@[simp] theorem State.modDie_fusedSpares (s : State) (d : Nat) (f : Die → Die) : (s.modDie d f).fusedSpares = s.fusedSpares := rfl
@[simp] theorem State.modDie_routers (s : State) (d : Nat) (f : Die → Die) : (s.modDie d f).routers = s.routers := rfl
@[simp] theorem State.modDie_turns (s : State) (d : Nat) (f : Die → Die) : (s.modDie d f).turns = s.turns := rfl
@[simp] theorem State.modDie_strandFaults (s : State) (d : Nat) (f : Die → Die) : (s.modDie d f).strandFaults = s.strandFaults := rfl
@[simp] theorem State.modDie_unsent (s : State) (d : Nat) (f : Die → Die) : (s.modDie d f).unsent = s.unsent := rfl
@[simp] theorem State.modDie_refreshAt (s : State) (d : Nat) (f : Die → Die) : (s.modDie d f).refreshAt = s.refreshAt := rfl
@[simp] theorem State.modDie_periodAt (s : State) (d : Nat) (f : Die → Die) : (s.modDie d f).periodAt = s.periodAt := rfl
@[simp] theorem State.modDie_upsets (s : State) (d : Nat) (f : Die → Die) : (s.modDie d f).upsets = s.upsets := rfl
@[simp] theorem State.modDie_tapUnlocked (s : State) (d : Nat) (f : Die → Die) : (s.modDie d f).tapUnlocked = s.tapUnlocked := rfl
@[simp] theorem State.modDie_i3cA (s : State) (d : Nat) (f : Die → Die) : (s.modDie d f).i3cA = s.i3cA := rfl
@[simp] theorem State.modDie_i3cB (s : State) (d : Nat) (f : Die → Die) : (s.modDie d f).i3cB = s.i3cB := rfl
@[simp] theorem State.modDie_thermtrip (s : State) (d : Nat) (f : Die → Die) : (s.modDie d f).thermtrip = s.thermtrip := rfl
@[simp] theorem State.modDie_below (s : State) (d : Nat) (f : Die → Die) : (s.modDie d f).below = s.below := rfl
@[simp] theorem State.modDie_above (s : State) (d : Nat) (f : Die → Die) : (s.modDie d f).above = s.above := rfl
@[simp] theorem State.modDie_entered (s : State) (d : Nat) (f : Die → Die) : (s.modDie d f).entered = s.entered := rfl
@[simp] theorem State.modDie_bufLimited (s : State) (d : Nat) (f : Die → Die) : (s.modDie d f).bufLimited = s.bufLimited := rfl
@[simp] theorem State.modDie_halted (s : State) (d : Nat) (f : Die → Die) : (s.modDie d f).halted = s.halted := rfl
@[simp] theorem State.modDie_haltSpans (s : State) (d : Nat) (f : Die → Die) : (s.modDie d f).haltSpans = s.haltSpans := rfl
@[simp] theorem State.modDie_haltSince (s : State) (d : Nat) (f : Die → Die) : (s.modDie d f).haltSince = s.haltSince := rfl
@[simp] theorem State.modDie_keepAlive (s : State) (d : Nat) (f : Die → Die) : (s.modDie d f).keepAlive = s.keepAlive := rfl
@[simp] theorem State.modDie_selfRefresh (s : State) (d : Nat) (f : Die → Die) : (s.modDie d f).selfRefresh = s.selfRefresh := rfl
@[simp] theorem State.modDie_shutdown (s : State) (d : Nat) (f : Die → Die) : (s.modDie d f).shutdown = s.shutdown := rfl
@[simp] theorem State.modDie_divPend (s : State) (d : Nat) (f : Die → Die) : (s.modDie d f).divPend = s.divPend := rfl
@[simp] theorem State.modDie_psTarget (s : State) (d : Nat) (f : Die → Die) : (s.modDie d f).psTarget = s.psTarget := rfl
@[simp] theorem State.modDie_pstate (s : State) (d : Nat) (f : Die → Die) : (s.modDie d f).pstate = s.pstate := rfl
@[simp] theorem State.modDie_takeoverActive (s : State) (d : Nat) (f : Die → Die) : (s.modDie d f).takeoverActive = s.takeoverActive := rfl
@[simp] theorem State.modDie_faultWins (s : State) (d : Nat) (f : Die → Die) : (s.modDie d f).faultWins = s.faultWins := rfl
@[simp] theorem State.modDie_flashA (s : State) (d : Nat) (f : Die → Die) : (s.modDie d f).flashA = s.flashA := rfl
@[simp] theorem State.modDie_flashB (s : State) (d : Nat) (f : Die → Die) : (s.modDie d f).flashB = s.flashB := rfl
@[simp] theorem State.modDie_warmActive (s : State) (d : Nat) (f : Die → Die) : (s.modDie d f).warmActive = s.warmActive := rfl
@[simp] theorem State.modDie_roleB (s : State) (d : Nat) (f : Die → Die) : (s.modDie d f).roleB = s.roleB := rfl
@[simp] theorem State.modDie_ptpLocked (s : State) (d : Nat) (f : Die → Die) : (s.modDie d f).ptpLocked = s.ptpLocked := rfl
@[simp] theorem State.modDie_assetWritten (s : State) (d : Nat) (f : Die → Die) : (s.modDie d f).assetWritten = s.assetWritten := rfl
@[simp] theorem State.modDie_mgmtCmds (s : State) (d : Nat) (f : Die → Die) : (s.modDie d f).mgmtCmds = s.mgmtCmds := rfl
@[simp] theorem State.modDie_pfHeldA (s : State) (d : Nat) (f : Die → Die) : (s.modDie d f).pfHeldA = s.pfHeldA := rfl
@[simp] theorem State.modDie_pfHeldB (s : State) (d : Nat) (f : Die → Die) : (s.modDie d f).pfHeldB = s.pfHeldB := rfl
@[simp] theorem State.modDie_pfMailA (s : State) (d : Nat) (f : Die → Die) : (s.modDie d f).pfMailA = s.pfMailA := rfl
@[simp] theorem State.modDie_pfMailB (s : State) (d : Nat) (f : Die → Die) : (s.modDie d f).pfMailB = s.pfMailB := rfl
@[simp] theorem State.modDie_pfAckA (s : State) (d : Nat) (f : Die → Die) : (s.modDie d f).pfAckA = s.pfAckA := rfl
@[simp] theorem State.modDie_pfAckB (s : State) (d : Nat) (f : Die → Die) : (s.modDie d f).pfAckB = s.pfAckB := rfl
@[simp] theorem State.modDie_pfPhaseA (s : State) (d : Nat) (f : Die → Die) : (s.modDie d f).pfPhaseA = s.pfPhaseA := rfl
@[simp] theorem State.modDie_pfPhaseB (s : State) (d : Nat) (f : Die → Die) : (s.modDie d f).pfPhaseB = s.pfPhaseB := rfl
@[simp] theorem State.modDie_rafters (s : State) (d : Nat) (f : Die → Die) : (s.modDie d f).rafters = s.rafters := rfl
@[simp] theorem State.modDie_ceCount (s : State) (d : Nat) (f : Die → Die) : (s.modDie d f).ceCount = s.ceCount := rfl
@[simp] theorem State.modDie_replayCount (s : State) (d : Nat) (f : Die → Die) : (s.modDie d f).replayCount = s.replayCount := rfl
@[simp] theorem State.modDie_flitCount (s : State) (d : Nat) (f : Die → Die) : (s.modDie d f).flitCount = s.flitCount := rfl
@[simp] theorem State.modDie_memTemp (s : State) (d : Nat) (f : Die → Die) : (s.modDie d f).memTemp = s.memTemp := rfl
@[simp] theorem State.modDie_refreshes (s : State) (d : Nat) (f : Die → Die) : (s.modDie d f).refreshes = s.refreshes := rfl
@[simp] theorem State.modDie_bands (s : State) (d : Nat) (f : Die → Die) : (s.modDie d f).bands = s.bands := rfl
@[simp] theorem State.modDie_mem (s : State) (d : Nat) (f : Die → Die) : (s.modDie d f).mem = s.mem := rfl
@[simp] theorem State.modDie_poison (s : State) (d : Nat) (f : Die → Die) : (s.modDie d f).poison = s.poison := rfl
@[simp] theorem State.modDie_cache (s : State) (d : Nat) (f : Die → Die) : (s.modDie d f).cache = s.cache := rfl
@[simp] theorem State.modDie_rereads (s : State) (d : Nat) (f : Die → Die) : (s.modDie d f).rereads = s.rereads := rfl
@[simp] theorem State.modDie_scratch (s : State) (d : Nat) (f : Die → Die) : (s.modDie d f).scratch = s.scratch := rfl
@[simp] theorem State.modDie_scratchPoison (s : State) (d : Nat) (f : Die → Die) : (s.modDie d f).scratchPoison = s.scratchPoison := rfl
@[simp] theorem State.modDie_hostMem (s : State) (d : Nat) (f : Die → Die) : (s.modDie d f).hostMem = s.hostMem := rfl
@[simp] theorem State.modDie_images (s : State) (d : Nat) (f : Die → Die) : (s.modDie d f).images = s.images := rfl
@[simp] theorem State.modDie_ligger (s : State) (d : Nat) (f : Die → Die) : (s.modDie d f).ligger = s.ligger := rfl
@[simp] theorem State.modDie_ctxs (s : State) (d : Nat) (f : Die → Die) : (s.modDie d f).ctxs = s.ctxs := rfl
@[simp] theorem State.modDie_groups (s : State) (d : Nat) (f : Die → Die) : (s.modDie d f).groups = s.groups := rfl
@[simp] theorem State.modDie_routes (s : State) (d : Nat) (f : Die → Die) : (s.modDie d f).routes = s.routes := rfl
@[simp] theorem State.modDie_prefixes (s : State) (d : Nat) (f : Die → Die) : (s.modDie d f).prefixes = s.prefixes := rfl
@[simp] theorem State.modDie_links (s : State) (d : Nat) (f : Die → Die) : (s.modDie d f).links = s.links := rfl
@[simp] theorem State.modDie_ports (s : State) (d : Nat) (f : Die → Die) : (s.modDie d f).ports = s.ports := rfl
@[simp] theorem State.modDie_sites (s : State) (d : Nat) (f : Die → Die) : (s.modDie d f).sites = s.sites := rfl
@[simp] theorem State.modDie_energyRem (s : State) (d : Nat) (f : Die → Die) : (s.modDie d f).energyRem = s.energyRem := rfl
@[simp] theorem State.modDie_tileCycles (s : State) (d : Nat) (f : Die → Die) : (s.modDie d f).tileCycles = s.tileCycles := rfl
@[simp] theorem State.modDie_wire (s : State) (d : Nat) (f : Die → Die) : (s.modDie d f).wire = s.wire := rfl
@[simp] theorem State.modDie_msix (s : State) (d : Nat) (f : Die → Die) : (s.modDie d f).msix = s.msix := rfl
@[simp] theorem State.reg_of_modDie (s : State) (d : Nat) (f : Die → Die) (b : Nat) : (s.modDie d f).reg b = s.reg b := rfl
@[simp] theorem State.ctx_of_modDie (s : State) (d : Nat) (f : Die → Die) (b : Nat) : (s.modDie d f).ctx b = s.ctx b := rfl
@[simp] theorem State.rafter_of_modDie (s : State) (d : Nat) (f : Die → Die) (b : Nat) : (s.modDie d f).rafter b = s.rafter b := rfl
@[simp] theorem State.port_of_modDie (s : State) (d : Nat) (f : Die → Die) (b : Nat) : (s.modDie d f).port b = s.port b := rfl
@[simp] theorem State.link_of_modDie (s : State) (d : Nat) (f : Die → Die) (b : Nat) : (s.modDie d f).link b = s.link b := rfl
@[simp] theorem State.site_of_modDie (s : State) (d : Nat) (f : Die → Die) (b : Nat) : (s.modDie d f).site b = s.site b := rfl
@[simp] theorem State.now_of_modDie (s : State) (d : Nat) (f : Die → Die) : (s.modDie d f).now = s.now := rfl

/-! ## modRafter -/

@[simp] theorem State.modRafter_pending (s : State) (r : Nat) (f : Rafter → Rafter) : (s.modRafter r f).pending = s.pending := rfl
@[simp] theorem State.modRafter_tb (s : State) (r : Nat) (f : Rafter → Rafter) : (s.modRafter r f).tb = s.tb := rfl
@[simp] theorem State.modRafter_regs (s : State) (r : Nat) (f : Rafter → Rafter) : (s.modRafter r f).regs = s.regs := rfl
@[simp] theorem State.modRafter_pwrEn (s : State) (r : Nat) (f : Rafter → Rafter) : (s.modRafter r f).pwrEn = s.pwrEn := rfl
@[simp] theorem State.modRafter_pwrgd (s : State) (r : Nat) (f : Rafter → Rafter) : (s.modRafter r f).pwrgd = s.pwrgd := rfl
@[simp] theorem State.modRafter_perstA (s : State) (r : Nat) (f : Rafter → Rafter) : (s.modRafter r f).perstA = s.perstA := rfl
@[simp] theorem State.modRafter_perstB (s : State) (r : Nat) (f : Rafter → Rafter) : (s.modRafter r f).perstB = s.perstB := rfl
@[simp] theorem State.modRafter_linkA (s : State) (r : Nat) (f : Rafter → Rafter) : (s.modRafter r f).linkA = s.linkA := rfl
@[simp] theorem State.modRafter_linkB (s : State) (r : Nat) (f : Rafter → Rafter) : (s.modRafter r f).linkB = s.linkB := rfl
@[simp] theorem State.modRafter_rrs (s : State) (r : Nat) (f : Rafter → Rafter) : (s.modRafter r f).rrs = s.rrs := rfl
@[simp] theorem State.modRafter_ppsPulses (s : State) (r : Nat) (f : Rafter → Rafter) : (s.modRafter r f).ppsPulses = s.ppsPulses := rfl
@[simp] theorem State.modRafter_cycle (s : State) (r : Nat) (f : Rafter → Rafter) : (s.modRafter r f).cycle = s.cycle := rfl
@[simp] theorem State.modRafter_late (s : State) (r : Nat) (f : Rafter → Rafter) : (s.modRafter r f).late = s.late := rfl
@[simp] theorem State.modRafter_hostLanesA (s : State) (r : Nat) (f : Rafter → Rafter) : (s.modRafter r f).hostLanesA = s.hostLanesA := rfl
@[simp] theorem State.modRafter_hostLanesB (s : State) (r : Nat) (f : Rafter → Rafter) : (s.modRafter r f).hostLanesB = s.hostLanesB := rfl
@[simp] theorem State.modRafter_fusedSpares (s : State) (r : Nat) (f : Rafter → Rafter) : (s.modRafter r f).fusedSpares = s.fusedSpares := rfl
@[simp] theorem State.modRafter_routers (s : State) (r : Nat) (f : Rafter → Rafter) : (s.modRafter r f).routers = s.routers := rfl
@[simp] theorem State.modRafter_turns (s : State) (r : Nat) (f : Rafter → Rafter) : (s.modRafter r f).turns = s.turns := rfl
@[simp] theorem State.modRafter_strandFaults (s : State) (r : Nat) (f : Rafter → Rafter) : (s.modRafter r f).strandFaults = s.strandFaults := rfl
@[simp] theorem State.modRafter_unsent (s : State) (r : Nat) (f : Rafter → Rafter) : (s.modRafter r f).unsent = s.unsent := rfl
@[simp] theorem State.modRafter_refreshAt (s : State) (r : Nat) (f : Rafter → Rafter) : (s.modRafter r f).refreshAt = s.refreshAt := rfl
@[simp] theorem State.modRafter_periodAt (s : State) (r : Nat) (f : Rafter → Rafter) : (s.modRafter r f).periodAt = s.periodAt := rfl
@[simp] theorem State.modRafter_upsets (s : State) (r : Nat) (f : Rafter → Rafter) : (s.modRafter r f).upsets = s.upsets := rfl
@[simp] theorem State.modRafter_tapUnlocked (s : State) (r : Nat) (f : Rafter → Rafter) : (s.modRafter r f).tapUnlocked = s.tapUnlocked := rfl
@[simp] theorem State.modRafter_i3cA (s : State) (r : Nat) (f : Rafter → Rafter) : (s.modRafter r f).i3cA = s.i3cA := rfl
@[simp] theorem State.modRafter_i3cB (s : State) (r : Nat) (f : Rafter → Rafter) : (s.modRafter r f).i3cB = s.i3cB := rfl
@[simp] theorem State.modRafter_thermtrip (s : State) (r : Nat) (f : Rafter → Rafter) : (s.modRafter r f).thermtrip = s.thermtrip := rfl
@[simp] theorem State.modRafter_below (s : State) (r : Nat) (f : Rafter → Rafter) : (s.modRafter r f).below = s.below := rfl
@[simp] theorem State.modRafter_above (s : State) (r : Nat) (f : Rafter → Rafter) : (s.modRafter r f).above = s.above := rfl
@[simp] theorem State.modRafter_entered (s : State) (r : Nat) (f : Rafter → Rafter) : (s.modRafter r f).entered = s.entered := rfl
@[simp] theorem State.modRafter_bufLimited (s : State) (r : Nat) (f : Rafter → Rafter) : (s.modRafter r f).bufLimited = s.bufLimited := rfl
@[simp] theorem State.modRafter_halted (s : State) (r : Nat) (f : Rafter → Rafter) : (s.modRafter r f).halted = s.halted := rfl
@[simp] theorem State.modRafter_haltSpans (s : State) (r : Nat) (f : Rafter → Rafter) : (s.modRafter r f).haltSpans = s.haltSpans := rfl
@[simp] theorem State.modRafter_haltSince (s : State) (r : Nat) (f : Rafter → Rafter) : (s.modRafter r f).haltSince = s.haltSince := rfl
@[simp] theorem State.modRafter_keepAlive (s : State) (r : Nat) (f : Rafter → Rafter) : (s.modRafter r f).keepAlive = s.keepAlive := rfl
@[simp] theorem State.modRafter_selfRefresh (s : State) (r : Nat) (f : Rafter → Rafter) : (s.modRafter r f).selfRefresh = s.selfRefresh := rfl
@[simp] theorem State.modRafter_shutdown (s : State) (r : Nat) (f : Rafter → Rafter) : (s.modRafter r f).shutdown = s.shutdown := rfl
@[simp] theorem State.modRafter_divPend (s : State) (r : Nat) (f : Rafter → Rafter) : (s.modRafter r f).divPend = s.divPend := rfl
@[simp] theorem State.modRafter_psTarget (s : State) (r : Nat) (f : Rafter → Rafter) : (s.modRafter r f).psTarget = s.psTarget := rfl
@[simp] theorem State.modRafter_pstate (s : State) (r : Nat) (f : Rafter → Rafter) : (s.modRafter r f).pstate = s.pstate := rfl
@[simp] theorem State.modRafter_takeoverActive (s : State) (r : Nat) (f : Rafter → Rafter) : (s.modRafter r f).takeoverActive = s.takeoverActive := rfl
@[simp] theorem State.modRafter_faultWins (s : State) (r : Nat) (f : Rafter → Rafter) : (s.modRafter r f).faultWins = s.faultWins := rfl
@[simp] theorem State.modRafter_flashA (s : State) (r : Nat) (f : Rafter → Rafter) : (s.modRafter r f).flashA = s.flashA := rfl
@[simp] theorem State.modRafter_flashB (s : State) (r : Nat) (f : Rafter → Rafter) : (s.modRafter r f).flashB = s.flashB := rfl
@[simp] theorem State.modRafter_warmActive (s : State) (r : Nat) (f : Rafter → Rafter) : (s.modRafter r f).warmActive = s.warmActive := rfl
@[simp] theorem State.modRafter_roleB (s : State) (r : Nat) (f : Rafter → Rafter) : (s.modRafter r f).roleB = s.roleB := rfl
@[simp] theorem State.modRafter_ptpLocked (s : State) (r : Nat) (f : Rafter → Rafter) : (s.modRafter r f).ptpLocked = s.ptpLocked := rfl
@[simp] theorem State.modRafter_assetWritten (s : State) (r : Nat) (f : Rafter → Rafter) : (s.modRafter r f).assetWritten = s.assetWritten := rfl
@[simp] theorem State.modRafter_mgmtCmds (s : State) (r : Nat) (f : Rafter → Rafter) : (s.modRafter r f).mgmtCmds = s.mgmtCmds := rfl
@[simp] theorem State.modRafter_pfHeldA (s : State) (r : Nat) (f : Rafter → Rafter) : (s.modRafter r f).pfHeldA = s.pfHeldA := rfl
@[simp] theorem State.modRafter_pfHeldB (s : State) (r : Nat) (f : Rafter → Rafter) : (s.modRafter r f).pfHeldB = s.pfHeldB := rfl
@[simp] theorem State.modRafter_pfMailA (s : State) (r : Nat) (f : Rafter → Rafter) : (s.modRafter r f).pfMailA = s.pfMailA := rfl
@[simp] theorem State.modRafter_pfMailB (s : State) (r : Nat) (f : Rafter → Rafter) : (s.modRafter r f).pfMailB = s.pfMailB := rfl
@[simp] theorem State.modRafter_pfAckA (s : State) (r : Nat) (f : Rafter → Rafter) : (s.modRafter r f).pfAckA = s.pfAckA := rfl
@[simp] theorem State.modRafter_pfAckB (s : State) (r : Nat) (f : Rafter → Rafter) : (s.modRafter r f).pfAckB = s.pfAckB := rfl
@[simp] theorem State.modRafter_pfPhaseA (s : State) (r : Nat) (f : Rafter → Rafter) : (s.modRafter r f).pfPhaseA = s.pfPhaseA := rfl
@[simp] theorem State.modRafter_pfPhaseB (s : State) (r : Nat) (f : Rafter → Rafter) : (s.modRafter r f).pfPhaseB = s.pfPhaseB := rfl
@[simp] theorem State.modRafter_dies (s : State) (r : Nat) (f : Rafter → Rafter) : (s.modRafter r f).dies = s.dies := rfl
@[simp] theorem State.modRafter_ceCount (s : State) (r : Nat) (f : Rafter → Rafter) : (s.modRafter r f).ceCount = s.ceCount := rfl
@[simp] theorem State.modRafter_replayCount (s : State) (r : Nat) (f : Rafter → Rafter) : (s.modRafter r f).replayCount = s.replayCount := rfl
@[simp] theorem State.modRafter_flitCount (s : State) (r : Nat) (f : Rafter → Rafter) : (s.modRafter r f).flitCount = s.flitCount := rfl
@[simp] theorem State.modRafter_memTemp (s : State) (r : Nat) (f : Rafter → Rafter) : (s.modRafter r f).memTemp = s.memTemp := rfl
@[simp] theorem State.modRafter_refreshes (s : State) (r : Nat) (f : Rafter → Rafter) : (s.modRafter r f).refreshes = s.refreshes := rfl
@[simp] theorem State.modRafter_bands (s : State) (r : Nat) (f : Rafter → Rafter) : (s.modRafter r f).bands = s.bands := rfl
@[simp] theorem State.modRafter_mem (s : State) (r : Nat) (f : Rafter → Rafter) : (s.modRafter r f).mem = s.mem := rfl
@[simp] theorem State.modRafter_poison (s : State) (r : Nat) (f : Rafter → Rafter) : (s.modRafter r f).poison = s.poison := rfl
@[simp] theorem State.modRafter_cache (s : State) (r : Nat) (f : Rafter → Rafter) : (s.modRafter r f).cache = s.cache := rfl
@[simp] theorem State.modRafter_rereads (s : State) (r : Nat) (f : Rafter → Rafter) : (s.modRafter r f).rereads = s.rereads := rfl
@[simp] theorem State.modRafter_scratch (s : State) (r : Nat) (f : Rafter → Rafter) : (s.modRafter r f).scratch = s.scratch := rfl
@[simp] theorem State.modRafter_scratchPoison (s : State) (r : Nat) (f : Rafter → Rafter) : (s.modRafter r f).scratchPoison = s.scratchPoison := rfl
@[simp] theorem State.modRafter_hostMem (s : State) (r : Nat) (f : Rafter → Rafter) : (s.modRafter r f).hostMem = s.hostMem := rfl
@[simp] theorem State.modRafter_images (s : State) (r : Nat) (f : Rafter → Rafter) : (s.modRafter r f).images = s.images := rfl
@[simp] theorem State.modRafter_ligger (s : State) (r : Nat) (f : Rafter → Rafter) : (s.modRafter r f).ligger = s.ligger := rfl
@[simp] theorem State.modRafter_ctxs (s : State) (r : Nat) (f : Rafter → Rafter) : (s.modRafter r f).ctxs = s.ctxs := rfl
@[simp] theorem State.modRafter_groups (s : State) (r : Nat) (f : Rafter → Rafter) : (s.modRafter r f).groups = s.groups := rfl
@[simp] theorem State.modRafter_routes (s : State) (r : Nat) (f : Rafter → Rafter) : (s.modRafter r f).routes = s.routes := rfl
@[simp] theorem State.modRafter_prefixes (s : State) (r : Nat) (f : Rafter → Rafter) : (s.modRafter r f).prefixes = s.prefixes := rfl
@[simp] theorem State.modRafter_links (s : State) (r : Nat) (f : Rafter → Rafter) : (s.modRafter r f).links = s.links := rfl
@[simp] theorem State.modRafter_ports (s : State) (r : Nat) (f : Rafter → Rafter) : (s.modRafter r f).ports = s.ports := rfl
@[simp] theorem State.modRafter_sites (s : State) (r : Nat) (f : Rafter → Rafter) : (s.modRafter r f).sites = s.sites := rfl
@[simp] theorem State.modRafter_energyRem (s : State) (r : Nat) (f : Rafter → Rafter) : (s.modRafter r f).energyRem = s.energyRem := rfl
@[simp] theorem State.modRafter_tileCycles (s : State) (r : Nat) (f : Rafter → Rafter) : (s.modRafter r f).tileCycles = s.tileCycles := rfl
@[simp] theorem State.modRafter_wire (s : State) (r : Nat) (f : Rafter → Rafter) : (s.modRafter r f).wire = s.wire := rfl
@[simp] theorem State.modRafter_msix (s : State) (r : Nat) (f : Rafter → Rafter) : (s.modRafter r f).msix = s.msix := rfl
@[simp] theorem State.reg_of_modRafter (s : State) (r : Nat) (f : Rafter → Rafter) (b : Nat) : (s.modRafter r f).reg b = s.reg b := rfl
@[simp] theorem State.ctx_of_modRafter (s : State) (r : Nat) (f : Rafter → Rafter) (b : Nat) : (s.modRafter r f).ctx b = s.ctx b := rfl
@[simp] theorem State.die_of_modRafter (s : State) (r : Nat) (f : Rafter → Rafter) (b : Nat) : (s.modRafter r f).die b = s.die b := rfl
@[simp] theorem State.port_of_modRafter (s : State) (r : Nat) (f : Rafter → Rafter) (b : Nat) : (s.modRafter r f).port b = s.port b := rfl
@[simp] theorem State.link_of_modRafter (s : State) (r : Nat) (f : Rafter → Rafter) (b : Nat) : (s.modRafter r f).link b = s.link b := rfl
@[simp] theorem State.site_of_modRafter (s : State) (r : Nat) (f : Rafter → Rafter) (b : Nat) : (s.modRafter r f).site b = s.site b := rfl
@[simp] theorem State.now_of_modRafter (s : State) (r : Nat) (f : Rafter → Rafter) : (s.modRafter r f).now = s.now := rfl

/-! ## modPort -/

@[simp] theorem State.modPort_pending (s : State) (p : Nat) (f : Port → Port) : (s.modPort p f).pending = s.pending := rfl
@[simp] theorem State.modPort_tb (s : State) (p : Nat) (f : Port → Port) : (s.modPort p f).tb = s.tb := rfl
@[simp] theorem State.modPort_regs (s : State) (p : Nat) (f : Port → Port) : (s.modPort p f).regs = s.regs := rfl
@[simp] theorem State.modPort_pwrEn (s : State) (p : Nat) (f : Port → Port) : (s.modPort p f).pwrEn = s.pwrEn := rfl
@[simp] theorem State.modPort_pwrgd (s : State) (p : Nat) (f : Port → Port) : (s.modPort p f).pwrgd = s.pwrgd := rfl
@[simp] theorem State.modPort_perstA (s : State) (p : Nat) (f : Port → Port) : (s.modPort p f).perstA = s.perstA := rfl
@[simp] theorem State.modPort_perstB (s : State) (p : Nat) (f : Port → Port) : (s.modPort p f).perstB = s.perstB := rfl
@[simp] theorem State.modPort_linkA (s : State) (p : Nat) (f : Port → Port) : (s.modPort p f).linkA = s.linkA := rfl
@[simp] theorem State.modPort_linkB (s : State) (p : Nat) (f : Port → Port) : (s.modPort p f).linkB = s.linkB := rfl
@[simp] theorem State.modPort_rrs (s : State) (p : Nat) (f : Port → Port) : (s.modPort p f).rrs = s.rrs := rfl
@[simp] theorem State.modPort_ppsPulses (s : State) (p : Nat) (f : Port → Port) : (s.modPort p f).ppsPulses = s.ppsPulses := rfl
@[simp] theorem State.modPort_cycle (s : State) (p : Nat) (f : Port → Port) : (s.modPort p f).cycle = s.cycle := rfl
@[simp] theorem State.modPort_late (s : State) (p : Nat) (f : Port → Port) : (s.modPort p f).late = s.late := rfl
@[simp] theorem State.modPort_hostLanesA (s : State) (p : Nat) (f : Port → Port) : (s.modPort p f).hostLanesA = s.hostLanesA := rfl
@[simp] theorem State.modPort_hostLanesB (s : State) (p : Nat) (f : Port → Port) : (s.modPort p f).hostLanesB = s.hostLanesB := rfl
@[simp] theorem State.modPort_fusedSpares (s : State) (p : Nat) (f : Port → Port) : (s.modPort p f).fusedSpares = s.fusedSpares := rfl
@[simp] theorem State.modPort_routers (s : State) (p : Nat) (f : Port → Port) : (s.modPort p f).routers = s.routers := rfl
@[simp] theorem State.modPort_turns (s : State) (p : Nat) (f : Port → Port) : (s.modPort p f).turns = s.turns := rfl
@[simp] theorem State.modPort_strandFaults (s : State) (p : Nat) (f : Port → Port) : (s.modPort p f).strandFaults = s.strandFaults := rfl
@[simp] theorem State.modPort_unsent (s : State) (p : Nat) (f : Port → Port) : (s.modPort p f).unsent = s.unsent := rfl
@[simp] theorem State.modPort_refreshAt (s : State) (p : Nat) (f : Port → Port) : (s.modPort p f).refreshAt = s.refreshAt := rfl
@[simp] theorem State.modPort_periodAt (s : State) (p : Nat) (f : Port → Port) : (s.modPort p f).periodAt = s.periodAt := rfl
@[simp] theorem State.modPort_upsets (s : State) (p : Nat) (f : Port → Port) : (s.modPort p f).upsets = s.upsets := rfl
@[simp] theorem State.modPort_tapUnlocked (s : State) (p : Nat) (f : Port → Port) : (s.modPort p f).tapUnlocked = s.tapUnlocked := rfl
@[simp] theorem State.modPort_i3cA (s : State) (p : Nat) (f : Port → Port) : (s.modPort p f).i3cA = s.i3cA := rfl
@[simp] theorem State.modPort_i3cB (s : State) (p : Nat) (f : Port → Port) : (s.modPort p f).i3cB = s.i3cB := rfl
@[simp] theorem State.modPort_thermtrip (s : State) (p : Nat) (f : Port → Port) : (s.modPort p f).thermtrip = s.thermtrip := rfl
@[simp] theorem State.modPort_below (s : State) (p : Nat) (f : Port → Port) : (s.modPort p f).below = s.below := rfl
@[simp] theorem State.modPort_above (s : State) (p : Nat) (f : Port → Port) : (s.modPort p f).above = s.above := rfl
@[simp] theorem State.modPort_entered (s : State) (p : Nat) (f : Port → Port) : (s.modPort p f).entered = s.entered := rfl
@[simp] theorem State.modPort_bufLimited (s : State) (p : Nat) (f : Port → Port) : (s.modPort p f).bufLimited = s.bufLimited := rfl
@[simp] theorem State.modPort_halted (s : State) (p : Nat) (f : Port → Port) : (s.modPort p f).halted = s.halted := rfl
@[simp] theorem State.modPort_haltSpans (s : State) (p : Nat) (f : Port → Port) : (s.modPort p f).haltSpans = s.haltSpans := rfl
@[simp] theorem State.modPort_haltSince (s : State) (p : Nat) (f : Port → Port) : (s.modPort p f).haltSince = s.haltSince := rfl
@[simp] theorem State.modPort_keepAlive (s : State) (p : Nat) (f : Port → Port) : (s.modPort p f).keepAlive = s.keepAlive := rfl
@[simp] theorem State.modPort_selfRefresh (s : State) (p : Nat) (f : Port → Port) : (s.modPort p f).selfRefresh = s.selfRefresh := rfl
@[simp] theorem State.modPort_shutdown (s : State) (p : Nat) (f : Port → Port) : (s.modPort p f).shutdown = s.shutdown := rfl
@[simp] theorem State.modPort_divPend (s : State) (p : Nat) (f : Port → Port) : (s.modPort p f).divPend = s.divPend := rfl
@[simp] theorem State.modPort_psTarget (s : State) (p : Nat) (f : Port → Port) : (s.modPort p f).psTarget = s.psTarget := rfl
@[simp] theorem State.modPort_pstate (s : State) (p : Nat) (f : Port → Port) : (s.modPort p f).pstate = s.pstate := rfl
@[simp] theorem State.modPort_takeoverActive (s : State) (p : Nat) (f : Port → Port) : (s.modPort p f).takeoverActive = s.takeoverActive := rfl
@[simp] theorem State.modPort_faultWins (s : State) (p : Nat) (f : Port → Port) : (s.modPort p f).faultWins = s.faultWins := rfl
@[simp] theorem State.modPort_flashA (s : State) (p : Nat) (f : Port → Port) : (s.modPort p f).flashA = s.flashA := rfl
@[simp] theorem State.modPort_flashB (s : State) (p : Nat) (f : Port → Port) : (s.modPort p f).flashB = s.flashB := rfl
@[simp] theorem State.modPort_warmActive (s : State) (p : Nat) (f : Port → Port) : (s.modPort p f).warmActive = s.warmActive := rfl
@[simp] theorem State.modPort_roleB (s : State) (p : Nat) (f : Port → Port) : (s.modPort p f).roleB = s.roleB := rfl
@[simp] theorem State.modPort_ptpLocked (s : State) (p : Nat) (f : Port → Port) : (s.modPort p f).ptpLocked = s.ptpLocked := rfl
@[simp] theorem State.modPort_assetWritten (s : State) (p : Nat) (f : Port → Port) : (s.modPort p f).assetWritten = s.assetWritten := rfl
@[simp] theorem State.modPort_mgmtCmds (s : State) (p : Nat) (f : Port → Port) : (s.modPort p f).mgmtCmds = s.mgmtCmds := rfl
@[simp] theorem State.modPort_pfHeldA (s : State) (p : Nat) (f : Port → Port) : (s.modPort p f).pfHeldA = s.pfHeldA := rfl
@[simp] theorem State.modPort_pfHeldB (s : State) (p : Nat) (f : Port → Port) : (s.modPort p f).pfHeldB = s.pfHeldB := rfl
@[simp] theorem State.modPort_pfMailA (s : State) (p : Nat) (f : Port → Port) : (s.modPort p f).pfMailA = s.pfMailA := rfl
@[simp] theorem State.modPort_pfMailB (s : State) (p : Nat) (f : Port → Port) : (s.modPort p f).pfMailB = s.pfMailB := rfl
@[simp] theorem State.modPort_pfAckA (s : State) (p : Nat) (f : Port → Port) : (s.modPort p f).pfAckA = s.pfAckA := rfl
@[simp] theorem State.modPort_pfAckB (s : State) (p : Nat) (f : Port → Port) : (s.modPort p f).pfAckB = s.pfAckB := rfl
@[simp] theorem State.modPort_pfPhaseA (s : State) (p : Nat) (f : Port → Port) : (s.modPort p f).pfPhaseA = s.pfPhaseA := rfl
@[simp] theorem State.modPort_pfPhaseB (s : State) (p : Nat) (f : Port → Port) : (s.modPort p f).pfPhaseB = s.pfPhaseB := rfl
@[simp] theorem State.modPort_dies (s : State) (p : Nat) (f : Port → Port) : (s.modPort p f).dies = s.dies := rfl
@[simp] theorem State.modPort_rafters (s : State) (p : Nat) (f : Port → Port) : (s.modPort p f).rafters = s.rafters := rfl
@[simp] theorem State.modPort_ceCount (s : State) (p : Nat) (f : Port → Port) : (s.modPort p f).ceCount = s.ceCount := rfl
@[simp] theorem State.modPort_replayCount (s : State) (p : Nat) (f : Port → Port) : (s.modPort p f).replayCount = s.replayCount := rfl
@[simp] theorem State.modPort_flitCount (s : State) (p : Nat) (f : Port → Port) : (s.modPort p f).flitCount = s.flitCount := rfl
@[simp] theorem State.modPort_memTemp (s : State) (p : Nat) (f : Port → Port) : (s.modPort p f).memTemp = s.memTemp := rfl
@[simp] theorem State.modPort_refreshes (s : State) (p : Nat) (f : Port → Port) : (s.modPort p f).refreshes = s.refreshes := rfl
@[simp] theorem State.modPort_bands (s : State) (p : Nat) (f : Port → Port) : (s.modPort p f).bands = s.bands := rfl
@[simp] theorem State.modPort_mem (s : State) (p : Nat) (f : Port → Port) : (s.modPort p f).mem = s.mem := rfl
@[simp] theorem State.modPort_poison (s : State) (p : Nat) (f : Port → Port) : (s.modPort p f).poison = s.poison := rfl
@[simp] theorem State.modPort_cache (s : State) (p : Nat) (f : Port → Port) : (s.modPort p f).cache = s.cache := rfl
@[simp] theorem State.modPort_rereads (s : State) (p : Nat) (f : Port → Port) : (s.modPort p f).rereads = s.rereads := rfl
@[simp] theorem State.modPort_scratch (s : State) (p : Nat) (f : Port → Port) : (s.modPort p f).scratch = s.scratch := rfl
@[simp] theorem State.modPort_scratchPoison (s : State) (p : Nat) (f : Port → Port) : (s.modPort p f).scratchPoison = s.scratchPoison := rfl
@[simp] theorem State.modPort_hostMem (s : State) (p : Nat) (f : Port → Port) : (s.modPort p f).hostMem = s.hostMem := rfl
@[simp] theorem State.modPort_images (s : State) (p : Nat) (f : Port → Port) : (s.modPort p f).images = s.images := rfl
@[simp] theorem State.modPort_ligger (s : State) (p : Nat) (f : Port → Port) : (s.modPort p f).ligger = s.ligger := rfl
@[simp] theorem State.modPort_ctxs (s : State) (p : Nat) (f : Port → Port) : (s.modPort p f).ctxs = s.ctxs := rfl
@[simp] theorem State.modPort_groups (s : State) (p : Nat) (f : Port → Port) : (s.modPort p f).groups = s.groups := rfl
@[simp] theorem State.modPort_routes (s : State) (p : Nat) (f : Port → Port) : (s.modPort p f).routes = s.routes := rfl
@[simp] theorem State.modPort_prefixes (s : State) (p : Nat) (f : Port → Port) : (s.modPort p f).prefixes = s.prefixes := rfl
@[simp] theorem State.modPort_links (s : State) (p : Nat) (f : Port → Port) : (s.modPort p f).links = s.links := rfl
@[simp] theorem State.modPort_sites (s : State) (p : Nat) (f : Port → Port) : (s.modPort p f).sites = s.sites := rfl
@[simp] theorem State.modPort_energyRem (s : State) (p : Nat) (f : Port → Port) : (s.modPort p f).energyRem = s.energyRem := rfl
@[simp] theorem State.modPort_tileCycles (s : State) (p : Nat) (f : Port → Port) : (s.modPort p f).tileCycles = s.tileCycles := rfl
@[simp] theorem State.modPort_wire (s : State) (p : Nat) (f : Port → Port) : (s.modPort p f).wire = s.wire := rfl
@[simp] theorem State.modPort_msix (s : State) (p : Nat) (f : Port → Port) : (s.modPort p f).msix = s.msix := rfl
@[simp] theorem State.reg_of_modPort (s : State) (p : Nat) (f : Port → Port) (b : Nat) : (s.modPort p f).reg b = s.reg b := rfl
@[simp] theorem State.ctx_of_modPort (s : State) (p : Nat) (f : Port → Port) (b : Nat) : (s.modPort p f).ctx b = s.ctx b := rfl
@[simp] theorem State.die_of_modPort (s : State) (p : Nat) (f : Port → Port) (b : Nat) : (s.modPort p f).die b = s.die b := rfl
@[simp] theorem State.rafter_of_modPort (s : State) (p : Nat) (f : Port → Port) (b : Nat) : (s.modPort p f).rafter b = s.rafter b := rfl
@[simp] theorem State.link_of_modPort (s : State) (p : Nat) (f : Port → Port) (b : Nat) : (s.modPort p f).link b = s.link b := rfl
@[simp] theorem State.site_of_modPort (s : State) (p : Nat) (f : Port → Port) (b : Nat) : (s.modPort p f).site b = s.site b := rfl
@[simp] theorem State.now_of_modPort (s : State) (p : Nat) (f : Port → Port) : (s.modPort p f).now = s.now := rfl

/-! ## modLink -/

@[simp] theorem State.modLink_pending (s : State) (k : Nat) (f : Link → Link) : (s.modLink k f).pending = s.pending := rfl
@[simp] theorem State.modLink_tb (s : State) (k : Nat) (f : Link → Link) : (s.modLink k f).tb = s.tb := rfl
@[simp] theorem State.modLink_regs (s : State) (k : Nat) (f : Link → Link) : (s.modLink k f).regs = s.regs := rfl
@[simp] theorem State.modLink_pwrEn (s : State) (k : Nat) (f : Link → Link) : (s.modLink k f).pwrEn = s.pwrEn := rfl
@[simp] theorem State.modLink_pwrgd (s : State) (k : Nat) (f : Link → Link) : (s.modLink k f).pwrgd = s.pwrgd := rfl
@[simp] theorem State.modLink_perstA (s : State) (k : Nat) (f : Link → Link) : (s.modLink k f).perstA = s.perstA := rfl
@[simp] theorem State.modLink_perstB (s : State) (k : Nat) (f : Link → Link) : (s.modLink k f).perstB = s.perstB := rfl
@[simp] theorem State.modLink_linkA (s : State) (k : Nat) (f : Link → Link) : (s.modLink k f).linkA = s.linkA := rfl
@[simp] theorem State.modLink_linkB (s : State) (k : Nat) (f : Link → Link) : (s.modLink k f).linkB = s.linkB := rfl
@[simp] theorem State.modLink_rrs (s : State) (k : Nat) (f : Link → Link) : (s.modLink k f).rrs = s.rrs := rfl
@[simp] theorem State.modLink_ppsPulses (s : State) (k : Nat) (f : Link → Link) : (s.modLink k f).ppsPulses = s.ppsPulses := rfl
@[simp] theorem State.modLink_cycle (s : State) (k : Nat) (f : Link → Link) : (s.modLink k f).cycle = s.cycle := rfl
@[simp] theorem State.modLink_late (s : State) (k : Nat) (f : Link → Link) : (s.modLink k f).late = s.late := rfl
@[simp] theorem State.modLink_hostLanesA (s : State) (k : Nat) (f : Link → Link) : (s.modLink k f).hostLanesA = s.hostLanesA := rfl
@[simp] theorem State.modLink_hostLanesB (s : State) (k : Nat) (f : Link → Link) : (s.modLink k f).hostLanesB = s.hostLanesB := rfl
@[simp] theorem State.modLink_fusedSpares (s : State) (k : Nat) (f : Link → Link) : (s.modLink k f).fusedSpares = s.fusedSpares := rfl
@[simp] theorem State.modLink_routers (s : State) (k : Nat) (f : Link → Link) : (s.modLink k f).routers = s.routers := rfl
@[simp] theorem State.modLink_turns (s : State) (k : Nat) (f : Link → Link) : (s.modLink k f).turns = s.turns := rfl
@[simp] theorem State.modLink_strandFaults (s : State) (k : Nat) (f : Link → Link) : (s.modLink k f).strandFaults = s.strandFaults := rfl
@[simp] theorem State.modLink_unsent (s : State) (k : Nat) (f : Link → Link) : (s.modLink k f).unsent = s.unsent := rfl
@[simp] theorem State.modLink_refreshAt (s : State) (k : Nat) (f : Link → Link) : (s.modLink k f).refreshAt = s.refreshAt := rfl
@[simp] theorem State.modLink_periodAt (s : State) (k : Nat) (f : Link → Link) : (s.modLink k f).periodAt = s.periodAt := rfl
@[simp] theorem State.modLink_upsets (s : State) (k : Nat) (f : Link → Link) : (s.modLink k f).upsets = s.upsets := rfl
@[simp] theorem State.modLink_tapUnlocked (s : State) (k : Nat) (f : Link → Link) : (s.modLink k f).tapUnlocked = s.tapUnlocked := rfl
@[simp] theorem State.modLink_i3cA (s : State) (k : Nat) (f : Link → Link) : (s.modLink k f).i3cA = s.i3cA := rfl
@[simp] theorem State.modLink_i3cB (s : State) (k : Nat) (f : Link → Link) : (s.modLink k f).i3cB = s.i3cB := rfl
@[simp] theorem State.modLink_thermtrip (s : State) (k : Nat) (f : Link → Link) : (s.modLink k f).thermtrip = s.thermtrip := rfl
@[simp] theorem State.modLink_below (s : State) (k : Nat) (f : Link → Link) : (s.modLink k f).below = s.below := rfl
@[simp] theorem State.modLink_above (s : State) (k : Nat) (f : Link → Link) : (s.modLink k f).above = s.above := rfl
@[simp] theorem State.modLink_entered (s : State) (k : Nat) (f : Link → Link) : (s.modLink k f).entered = s.entered := rfl
@[simp] theorem State.modLink_bufLimited (s : State) (k : Nat) (f : Link → Link) : (s.modLink k f).bufLimited = s.bufLimited := rfl
@[simp] theorem State.modLink_halted (s : State) (k : Nat) (f : Link → Link) : (s.modLink k f).halted = s.halted := rfl
@[simp] theorem State.modLink_haltSpans (s : State) (k : Nat) (f : Link → Link) : (s.modLink k f).haltSpans = s.haltSpans := rfl
@[simp] theorem State.modLink_haltSince (s : State) (k : Nat) (f : Link → Link) : (s.modLink k f).haltSince = s.haltSince := rfl
@[simp] theorem State.modLink_keepAlive (s : State) (k : Nat) (f : Link → Link) : (s.modLink k f).keepAlive = s.keepAlive := rfl
@[simp] theorem State.modLink_selfRefresh (s : State) (k : Nat) (f : Link → Link) : (s.modLink k f).selfRefresh = s.selfRefresh := rfl
@[simp] theorem State.modLink_shutdown (s : State) (k : Nat) (f : Link → Link) : (s.modLink k f).shutdown = s.shutdown := rfl
@[simp] theorem State.modLink_divPend (s : State) (k : Nat) (f : Link → Link) : (s.modLink k f).divPend = s.divPend := rfl
@[simp] theorem State.modLink_psTarget (s : State) (k : Nat) (f : Link → Link) : (s.modLink k f).psTarget = s.psTarget := rfl
@[simp] theorem State.modLink_pstate (s : State) (k : Nat) (f : Link → Link) : (s.modLink k f).pstate = s.pstate := rfl
@[simp] theorem State.modLink_takeoverActive (s : State) (k : Nat) (f : Link → Link) : (s.modLink k f).takeoverActive = s.takeoverActive := rfl
@[simp] theorem State.modLink_faultWins (s : State) (k : Nat) (f : Link → Link) : (s.modLink k f).faultWins = s.faultWins := rfl
@[simp] theorem State.modLink_flashA (s : State) (k : Nat) (f : Link → Link) : (s.modLink k f).flashA = s.flashA := rfl
@[simp] theorem State.modLink_flashB (s : State) (k : Nat) (f : Link → Link) : (s.modLink k f).flashB = s.flashB := rfl
@[simp] theorem State.modLink_warmActive (s : State) (k : Nat) (f : Link → Link) : (s.modLink k f).warmActive = s.warmActive := rfl
@[simp] theorem State.modLink_roleB (s : State) (k : Nat) (f : Link → Link) : (s.modLink k f).roleB = s.roleB := rfl
@[simp] theorem State.modLink_ptpLocked (s : State) (k : Nat) (f : Link → Link) : (s.modLink k f).ptpLocked = s.ptpLocked := rfl
@[simp] theorem State.modLink_assetWritten (s : State) (k : Nat) (f : Link → Link) : (s.modLink k f).assetWritten = s.assetWritten := rfl
@[simp] theorem State.modLink_mgmtCmds (s : State) (k : Nat) (f : Link → Link) : (s.modLink k f).mgmtCmds = s.mgmtCmds := rfl
@[simp] theorem State.modLink_pfHeldA (s : State) (k : Nat) (f : Link → Link) : (s.modLink k f).pfHeldA = s.pfHeldA := rfl
@[simp] theorem State.modLink_pfHeldB (s : State) (k : Nat) (f : Link → Link) : (s.modLink k f).pfHeldB = s.pfHeldB := rfl
@[simp] theorem State.modLink_pfMailA (s : State) (k : Nat) (f : Link → Link) : (s.modLink k f).pfMailA = s.pfMailA := rfl
@[simp] theorem State.modLink_pfMailB (s : State) (k : Nat) (f : Link → Link) : (s.modLink k f).pfMailB = s.pfMailB := rfl
@[simp] theorem State.modLink_pfAckA (s : State) (k : Nat) (f : Link → Link) : (s.modLink k f).pfAckA = s.pfAckA := rfl
@[simp] theorem State.modLink_pfAckB (s : State) (k : Nat) (f : Link → Link) : (s.modLink k f).pfAckB = s.pfAckB := rfl
@[simp] theorem State.modLink_pfPhaseA (s : State) (k : Nat) (f : Link → Link) : (s.modLink k f).pfPhaseA = s.pfPhaseA := rfl
@[simp] theorem State.modLink_pfPhaseB (s : State) (k : Nat) (f : Link → Link) : (s.modLink k f).pfPhaseB = s.pfPhaseB := rfl
@[simp] theorem State.modLink_dies (s : State) (k : Nat) (f : Link → Link) : (s.modLink k f).dies = s.dies := rfl
@[simp] theorem State.modLink_rafters (s : State) (k : Nat) (f : Link → Link) : (s.modLink k f).rafters = s.rafters := rfl
@[simp] theorem State.modLink_ceCount (s : State) (k : Nat) (f : Link → Link) : (s.modLink k f).ceCount = s.ceCount := rfl
@[simp] theorem State.modLink_replayCount (s : State) (k : Nat) (f : Link → Link) : (s.modLink k f).replayCount = s.replayCount := rfl
@[simp] theorem State.modLink_flitCount (s : State) (k : Nat) (f : Link → Link) : (s.modLink k f).flitCount = s.flitCount := rfl
@[simp] theorem State.modLink_memTemp (s : State) (k : Nat) (f : Link → Link) : (s.modLink k f).memTemp = s.memTemp := rfl
@[simp] theorem State.modLink_refreshes (s : State) (k : Nat) (f : Link → Link) : (s.modLink k f).refreshes = s.refreshes := rfl
@[simp] theorem State.modLink_bands (s : State) (k : Nat) (f : Link → Link) : (s.modLink k f).bands = s.bands := rfl
@[simp] theorem State.modLink_mem (s : State) (k : Nat) (f : Link → Link) : (s.modLink k f).mem = s.mem := rfl
@[simp] theorem State.modLink_poison (s : State) (k : Nat) (f : Link → Link) : (s.modLink k f).poison = s.poison := rfl
@[simp] theorem State.modLink_cache (s : State) (k : Nat) (f : Link → Link) : (s.modLink k f).cache = s.cache := rfl
@[simp] theorem State.modLink_rereads (s : State) (k : Nat) (f : Link → Link) : (s.modLink k f).rereads = s.rereads := rfl
@[simp] theorem State.modLink_scratch (s : State) (k : Nat) (f : Link → Link) : (s.modLink k f).scratch = s.scratch := rfl
@[simp] theorem State.modLink_scratchPoison (s : State) (k : Nat) (f : Link → Link) : (s.modLink k f).scratchPoison = s.scratchPoison := rfl
@[simp] theorem State.modLink_hostMem (s : State) (k : Nat) (f : Link → Link) : (s.modLink k f).hostMem = s.hostMem := rfl
@[simp] theorem State.modLink_images (s : State) (k : Nat) (f : Link → Link) : (s.modLink k f).images = s.images := rfl
@[simp] theorem State.modLink_ligger (s : State) (k : Nat) (f : Link → Link) : (s.modLink k f).ligger = s.ligger := rfl
@[simp] theorem State.modLink_ctxs (s : State) (k : Nat) (f : Link → Link) : (s.modLink k f).ctxs = s.ctxs := rfl
@[simp] theorem State.modLink_groups (s : State) (k : Nat) (f : Link → Link) : (s.modLink k f).groups = s.groups := rfl
@[simp] theorem State.modLink_routes (s : State) (k : Nat) (f : Link → Link) : (s.modLink k f).routes = s.routes := rfl
@[simp] theorem State.modLink_prefixes (s : State) (k : Nat) (f : Link → Link) : (s.modLink k f).prefixes = s.prefixes := rfl
@[simp] theorem State.modLink_ports (s : State) (k : Nat) (f : Link → Link) : (s.modLink k f).ports = s.ports := rfl
@[simp] theorem State.modLink_sites (s : State) (k : Nat) (f : Link → Link) : (s.modLink k f).sites = s.sites := rfl
@[simp] theorem State.modLink_energyRem (s : State) (k : Nat) (f : Link → Link) : (s.modLink k f).energyRem = s.energyRem := rfl
@[simp] theorem State.modLink_tileCycles (s : State) (k : Nat) (f : Link → Link) : (s.modLink k f).tileCycles = s.tileCycles := rfl
@[simp] theorem State.modLink_wire (s : State) (k : Nat) (f : Link → Link) : (s.modLink k f).wire = s.wire := rfl
@[simp] theorem State.modLink_msix (s : State) (k : Nat) (f : Link → Link) : (s.modLink k f).msix = s.msix := rfl
@[simp] theorem State.reg_of_modLink (s : State) (k : Nat) (f : Link → Link) (b : Nat) : (s.modLink k f).reg b = s.reg b := rfl
@[simp] theorem State.ctx_of_modLink (s : State) (k : Nat) (f : Link → Link) (b : Nat) : (s.modLink k f).ctx b = s.ctx b := rfl
@[simp] theorem State.die_of_modLink (s : State) (k : Nat) (f : Link → Link) (b : Nat) : (s.modLink k f).die b = s.die b := rfl
@[simp] theorem State.rafter_of_modLink (s : State) (k : Nat) (f : Link → Link) (b : Nat) : (s.modLink k f).rafter b = s.rafter b := rfl
@[simp] theorem State.port_of_modLink (s : State) (k : Nat) (f : Link → Link) (b : Nat) : (s.modLink k f).port b = s.port b := rfl
@[simp] theorem State.site_of_modLink (s : State) (k : Nat) (f : Link → Link) (b : Nat) : (s.modLink k f).site b = s.site b := rfl
@[simp] theorem State.now_of_modLink (s : State) (k : Nat) (f : Link → Link) : (s.modLink k f).now = s.now := rfl

/-! ## modSite -/

@[simp] theorem State.modSite_pending (s : State) (i : Nat) (f : Site → Site) : (s.modSite i f).pending = s.pending := rfl
@[simp] theorem State.modSite_tb (s : State) (i : Nat) (f : Site → Site) : (s.modSite i f).tb = s.tb := rfl
@[simp] theorem State.modSite_regs (s : State) (i : Nat) (f : Site → Site) : (s.modSite i f).regs = s.regs := rfl
@[simp] theorem State.modSite_pwrEn (s : State) (i : Nat) (f : Site → Site) : (s.modSite i f).pwrEn = s.pwrEn := rfl
@[simp] theorem State.modSite_pwrgd (s : State) (i : Nat) (f : Site → Site) : (s.modSite i f).pwrgd = s.pwrgd := rfl
@[simp] theorem State.modSite_perstA (s : State) (i : Nat) (f : Site → Site) : (s.modSite i f).perstA = s.perstA := rfl
@[simp] theorem State.modSite_perstB (s : State) (i : Nat) (f : Site → Site) : (s.modSite i f).perstB = s.perstB := rfl
@[simp] theorem State.modSite_linkA (s : State) (i : Nat) (f : Site → Site) : (s.modSite i f).linkA = s.linkA := rfl
@[simp] theorem State.modSite_linkB (s : State) (i : Nat) (f : Site → Site) : (s.modSite i f).linkB = s.linkB := rfl
@[simp] theorem State.modSite_rrs (s : State) (i : Nat) (f : Site → Site) : (s.modSite i f).rrs = s.rrs := rfl
@[simp] theorem State.modSite_ppsPulses (s : State) (i : Nat) (f : Site → Site) : (s.modSite i f).ppsPulses = s.ppsPulses := rfl
@[simp] theorem State.modSite_cycle (s : State) (i : Nat) (f : Site → Site) : (s.modSite i f).cycle = s.cycle := rfl
@[simp] theorem State.modSite_late (s : State) (i : Nat) (f : Site → Site) : (s.modSite i f).late = s.late := rfl
@[simp] theorem State.modSite_hostLanesA (s : State) (i : Nat) (f : Site → Site) : (s.modSite i f).hostLanesA = s.hostLanesA := rfl
@[simp] theorem State.modSite_hostLanesB (s : State) (i : Nat) (f : Site → Site) : (s.modSite i f).hostLanesB = s.hostLanesB := rfl
@[simp] theorem State.modSite_fusedSpares (s : State) (i : Nat) (f : Site → Site) : (s.modSite i f).fusedSpares = s.fusedSpares := rfl
@[simp] theorem State.modSite_routers (s : State) (i : Nat) (f : Site → Site) : (s.modSite i f).routers = s.routers := rfl
@[simp] theorem State.modSite_turns (s : State) (i : Nat) (f : Site → Site) : (s.modSite i f).turns = s.turns := rfl
@[simp] theorem State.modSite_strandFaults (s : State) (i : Nat) (f : Site → Site) : (s.modSite i f).strandFaults = s.strandFaults := rfl
@[simp] theorem State.modSite_unsent (s : State) (i : Nat) (f : Site → Site) : (s.modSite i f).unsent = s.unsent := rfl
@[simp] theorem State.modSite_refreshAt (s : State) (i : Nat) (f : Site → Site) : (s.modSite i f).refreshAt = s.refreshAt := rfl
@[simp] theorem State.modSite_periodAt (s : State) (i : Nat) (f : Site → Site) : (s.modSite i f).periodAt = s.periodAt := rfl
@[simp] theorem State.modSite_upsets (s : State) (i : Nat) (f : Site → Site) : (s.modSite i f).upsets = s.upsets := rfl
@[simp] theorem State.modSite_tapUnlocked (s : State) (i : Nat) (f : Site → Site) : (s.modSite i f).tapUnlocked = s.tapUnlocked := rfl
@[simp] theorem State.modSite_i3cA (s : State) (i : Nat) (f : Site → Site) : (s.modSite i f).i3cA = s.i3cA := rfl
@[simp] theorem State.modSite_i3cB (s : State) (i : Nat) (f : Site → Site) : (s.modSite i f).i3cB = s.i3cB := rfl
@[simp] theorem State.modSite_thermtrip (s : State) (i : Nat) (f : Site → Site) : (s.modSite i f).thermtrip = s.thermtrip := rfl
@[simp] theorem State.modSite_below (s : State) (i : Nat) (f : Site → Site) : (s.modSite i f).below = s.below := rfl
@[simp] theorem State.modSite_above (s : State) (i : Nat) (f : Site → Site) : (s.modSite i f).above = s.above := rfl
@[simp] theorem State.modSite_entered (s : State) (i : Nat) (f : Site → Site) : (s.modSite i f).entered = s.entered := rfl
@[simp] theorem State.modSite_bufLimited (s : State) (i : Nat) (f : Site → Site) : (s.modSite i f).bufLimited = s.bufLimited := rfl
@[simp] theorem State.modSite_halted (s : State) (i : Nat) (f : Site → Site) : (s.modSite i f).halted = s.halted := rfl
@[simp] theorem State.modSite_haltSpans (s : State) (i : Nat) (f : Site → Site) : (s.modSite i f).haltSpans = s.haltSpans := rfl
@[simp] theorem State.modSite_haltSince (s : State) (i : Nat) (f : Site → Site) : (s.modSite i f).haltSince = s.haltSince := rfl
@[simp] theorem State.modSite_keepAlive (s : State) (i : Nat) (f : Site → Site) : (s.modSite i f).keepAlive = s.keepAlive := rfl
@[simp] theorem State.modSite_selfRefresh (s : State) (i : Nat) (f : Site → Site) : (s.modSite i f).selfRefresh = s.selfRefresh := rfl
@[simp] theorem State.modSite_shutdown (s : State) (i : Nat) (f : Site → Site) : (s.modSite i f).shutdown = s.shutdown := rfl
@[simp] theorem State.modSite_divPend (s : State) (i : Nat) (f : Site → Site) : (s.modSite i f).divPend = s.divPend := rfl
@[simp] theorem State.modSite_psTarget (s : State) (i : Nat) (f : Site → Site) : (s.modSite i f).psTarget = s.psTarget := rfl
@[simp] theorem State.modSite_pstate (s : State) (i : Nat) (f : Site → Site) : (s.modSite i f).pstate = s.pstate := rfl
@[simp] theorem State.modSite_takeoverActive (s : State) (i : Nat) (f : Site → Site) : (s.modSite i f).takeoverActive = s.takeoverActive := rfl
@[simp] theorem State.modSite_faultWins (s : State) (i : Nat) (f : Site → Site) : (s.modSite i f).faultWins = s.faultWins := rfl
@[simp] theorem State.modSite_flashA (s : State) (i : Nat) (f : Site → Site) : (s.modSite i f).flashA = s.flashA := rfl
@[simp] theorem State.modSite_flashB (s : State) (i : Nat) (f : Site → Site) : (s.modSite i f).flashB = s.flashB := rfl
@[simp] theorem State.modSite_warmActive (s : State) (i : Nat) (f : Site → Site) : (s.modSite i f).warmActive = s.warmActive := rfl
@[simp] theorem State.modSite_roleB (s : State) (i : Nat) (f : Site → Site) : (s.modSite i f).roleB = s.roleB := rfl
@[simp] theorem State.modSite_ptpLocked (s : State) (i : Nat) (f : Site → Site) : (s.modSite i f).ptpLocked = s.ptpLocked := rfl
@[simp] theorem State.modSite_assetWritten (s : State) (i : Nat) (f : Site → Site) : (s.modSite i f).assetWritten = s.assetWritten := rfl
@[simp] theorem State.modSite_mgmtCmds (s : State) (i : Nat) (f : Site → Site) : (s.modSite i f).mgmtCmds = s.mgmtCmds := rfl
@[simp] theorem State.modSite_pfHeldA (s : State) (i : Nat) (f : Site → Site) : (s.modSite i f).pfHeldA = s.pfHeldA := rfl
@[simp] theorem State.modSite_pfHeldB (s : State) (i : Nat) (f : Site → Site) : (s.modSite i f).pfHeldB = s.pfHeldB := rfl
@[simp] theorem State.modSite_pfMailA (s : State) (i : Nat) (f : Site → Site) : (s.modSite i f).pfMailA = s.pfMailA := rfl
@[simp] theorem State.modSite_pfMailB (s : State) (i : Nat) (f : Site → Site) : (s.modSite i f).pfMailB = s.pfMailB := rfl
@[simp] theorem State.modSite_pfAckA (s : State) (i : Nat) (f : Site → Site) : (s.modSite i f).pfAckA = s.pfAckA := rfl
@[simp] theorem State.modSite_pfAckB (s : State) (i : Nat) (f : Site → Site) : (s.modSite i f).pfAckB = s.pfAckB := rfl
@[simp] theorem State.modSite_pfPhaseA (s : State) (i : Nat) (f : Site → Site) : (s.modSite i f).pfPhaseA = s.pfPhaseA := rfl
@[simp] theorem State.modSite_pfPhaseB (s : State) (i : Nat) (f : Site → Site) : (s.modSite i f).pfPhaseB = s.pfPhaseB := rfl
@[simp] theorem State.modSite_dies (s : State) (i : Nat) (f : Site → Site) : (s.modSite i f).dies = s.dies := rfl
@[simp] theorem State.modSite_rafters (s : State) (i : Nat) (f : Site → Site) : (s.modSite i f).rafters = s.rafters := rfl
@[simp] theorem State.modSite_ceCount (s : State) (i : Nat) (f : Site → Site) : (s.modSite i f).ceCount = s.ceCount := rfl
@[simp] theorem State.modSite_replayCount (s : State) (i : Nat) (f : Site → Site) : (s.modSite i f).replayCount = s.replayCount := rfl
@[simp] theorem State.modSite_flitCount (s : State) (i : Nat) (f : Site → Site) : (s.modSite i f).flitCount = s.flitCount := rfl
@[simp] theorem State.modSite_memTemp (s : State) (i : Nat) (f : Site → Site) : (s.modSite i f).memTemp = s.memTemp := rfl
@[simp] theorem State.modSite_refreshes (s : State) (i : Nat) (f : Site → Site) : (s.modSite i f).refreshes = s.refreshes := rfl
@[simp] theorem State.modSite_bands (s : State) (i : Nat) (f : Site → Site) : (s.modSite i f).bands = s.bands := rfl
@[simp] theorem State.modSite_mem (s : State) (i : Nat) (f : Site → Site) : (s.modSite i f).mem = s.mem := rfl
@[simp] theorem State.modSite_poison (s : State) (i : Nat) (f : Site → Site) : (s.modSite i f).poison = s.poison := rfl
@[simp] theorem State.modSite_cache (s : State) (i : Nat) (f : Site → Site) : (s.modSite i f).cache = s.cache := rfl
@[simp] theorem State.modSite_rereads (s : State) (i : Nat) (f : Site → Site) : (s.modSite i f).rereads = s.rereads := rfl
@[simp] theorem State.modSite_scratch (s : State) (i : Nat) (f : Site → Site) : (s.modSite i f).scratch = s.scratch := rfl
@[simp] theorem State.modSite_scratchPoison (s : State) (i : Nat) (f : Site → Site) : (s.modSite i f).scratchPoison = s.scratchPoison := rfl
@[simp] theorem State.modSite_hostMem (s : State) (i : Nat) (f : Site → Site) : (s.modSite i f).hostMem = s.hostMem := rfl
@[simp] theorem State.modSite_images (s : State) (i : Nat) (f : Site → Site) : (s.modSite i f).images = s.images := rfl
@[simp] theorem State.modSite_ligger (s : State) (i : Nat) (f : Site → Site) : (s.modSite i f).ligger = s.ligger := rfl
@[simp] theorem State.modSite_ctxs (s : State) (i : Nat) (f : Site → Site) : (s.modSite i f).ctxs = s.ctxs := rfl
@[simp] theorem State.modSite_groups (s : State) (i : Nat) (f : Site → Site) : (s.modSite i f).groups = s.groups := rfl
@[simp] theorem State.modSite_routes (s : State) (i : Nat) (f : Site → Site) : (s.modSite i f).routes = s.routes := rfl
@[simp] theorem State.modSite_prefixes (s : State) (i : Nat) (f : Site → Site) : (s.modSite i f).prefixes = s.prefixes := rfl
@[simp] theorem State.modSite_links (s : State) (i : Nat) (f : Site → Site) : (s.modSite i f).links = s.links := rfl
@[simp] theorem State.modSite_ports (s : State) (i : Nat) (f : Site → Site) : (s.modSite i f).ports = s.ports := rfl
@[simp] theorem State.modSite_energyRem (s : State) (i : Nat) (f : Site → Site) : (s.modSite i f).energyRem = s.energyRem := rfl
@[simp] theorem State.modSite_tileCycles (s : State) (i : Nat) (f : Site → Site) : (s.modSite i f).tileCycles = s.tileCycles := rfl
@[simp] theorem State.modSite_wire (s : State) (i : Nat) (f : Site → Site) : (s.modSite i f).wire = s.wire := rfl
@[simp] theorem State.modSite_msix (s : State) (i : Nat) (f : Site → Site) : (s.modSite i f).msix = s.msix := rfl
@[simp] theorem State.reg_of_modSite (s : State) (i : Nat) (f : Site → Site) (b : Nat) : (s.modSite i f).reg b = s.reg b := rfl
@[simp] theorem State.ctx_of_modSite (s : State) (i : Nat) (f : Site → Site) (b : Nat) : (s.modSite i f).ctx b = s.ctx b := rfl
@[simp] theorem State.die_of_modSite (s : State) (i : Nat) (f : Site → Site) (b : Nat) : (s.modSite i f).die b = s.die b := rfl
@[simp] theorem State.rafter_of_modSite (s : State) (i : Nat) (f : Site → Site) (b : Nat) : (s.modSite i f).rafter b = s.rafter b := rfl
@[simp] theorem State.port_of_modSite (s : State) (i : Nat) (f : Site → Site) (b : Nat) : (s.modSite i f).port b = s.port b := rfl
@[simp] theorem State.link_of_modSite (s : State) (i : Nat) (f : Site → Site) (b : Nat) : (s.modSite i f).link b = s.link b := rfl
@[simp] theorem State.now_of_modSite (s : State) (i : Nat) (f : Site → Site) : (s.modSite i f).now = s.now := rfl

/-! ## sendMsix -/

@[simp] theorem State.sendMsix_pending (s : State) (m : Msix) : (s.sendMsix m).pending = s.pending := rfl
@[simp] theorem State.sendMsix_tb (s : State) (m : Msix) : (s.sendMsix m).tb = s.tb := rfl
@[simp] theorem State.sendMsix_regs (s : State) (m : Msix) : (s.sendMsix m).regs = s.regs := rfl
@[simp] theorem State.sendMsix_pwrEn (s : State) (m : Msix) : (s.sendMsix m).pwrEn = s.pwrEn := rfl
@[simp] theorem State.sendMsix_pwrgd (s : State) (m : Msix) : (s.sendMsix m).pwrgd = s.pwrgd := rfl
@[simp] theorem State.sendMsix_perstA (s : State) (m : Msix) : (s.sendMsix m).perstA = s.perstA := rfl
@[simp] theorem State.sendMsix_perstB (s : State) (m : Msix) : (s.sendMsix m).perstB = s.perstB := rfl
@[simp] theorem State.sendMsix_linkA (s : State) (m : Msix) : (s.sendMsix m).linkA = s.linkA := rfl
@[simp] theorem State.sendMsix_linkB (s : State) (m : Msix) : (s.sendMsix m).linkB = s.linkB := rfl
@[simp] theorem State.sendMsix_rrs (s : State) (m : Msix) : (s.sendMsix m).rrs = s.rrs := rfl
@[simp] theorem State.sendMsix_ppsPulses (s : State) (m : Msix) : (s.sendMsix m).ppsPulses = s.ppsPulses := rfl
@[simp] theorem State.sendMsix_cycle (s : State) (m : Msix) : (s.sendMsix m).cycle = s.cycle := rfl
@[simp] theorem State.sendMsix_late (s : State) (m : Msix) : (s.sendMsix m).late = s.late := rfl
@[simp] theorem State.sendMsix_hostLanesA (s : State) (m : Msix) : (s.sendMsix m).hostLanesA = s.hostLanesA := rfl
@[simp] theorem State.sendMsix_hostLanesB (s : State) (m : Msix) : (s.sendMsix m).hostLanesB = s.hostLanesB := rfl
@[simp] theorem State.sendMsix_fusedSpares (s : State) (m : Msix) : (s.sendMsix m).fusedSpares = s.fusedSpares := rfl
@[simp] theorem State.sendMsix_routers (s : State) (m : Msix) : (s.sendMsix m).routers = s.routers := rfl
@[simp] theorem State.sendMsix_turns (s : State) (m : Msix) : (s.sendMsix m).turns = s.turns := rfl
@[simp] theorem State.sendMsix_strandFaults (s : State) (m : Msix) : (s.sendMsix m).strandFaults = s.strandFaults := rfl
@[simp] theorem State.sendMsix_unsent (s : State) (m : Msix) : (s.sendMsix m).unsent = s.unsent := rfl
@[simp] theorem State.sendMsix_refreshAt (s : State) (m : Msix) : (s.sendMsix m).refreshAt = s.refreshAt := rfl
@[simp] theorem State.sendMsix_periodAt (s : State) (m : Msix) : (s.sendMsix m).periodAt = s.periodAt := rfl
@[simp] theorem State.sendMsix_upsets (s : State) (m : Msix) : (s.sendMsix m).upsets = s.upsets := rfl
@[simp] theorem State.sendMsix_tapUnlocked (s : State) (m : Msix) : (s.sendMsix m).tapUnlocked = s.tapUnlocked := rfl
@[simp] theorem State.sendMsix_i3cA (s : State) (m : Msix) : (s.sendMsix m).i3cA = s.i3cA := rfl
@[simp] theorem State.sendMsix_i3cB (s : State) (m : Msix) : (s.sendMsix m).i3cB = s.i3cB := rfl
@[simp] theorem State.sendMsix_thermtrip (s : State) (m : Msix) : (s.sendMsix m).thermtrip = s.thermtrip := rfl
@[simp] theorem State.sendMsix_below (s : State) (m : Msix) : (s.sendMsix m).below = s.below := rfl
@[simp] theorem State.sendMsix_above (s : State) (m : Msix) : (s.sendMsix m).above = s.above := rfl
@[simp] theorem State.sendMsix_entered (s : State) (m : Msix) : (s.sendMsix m).entered = s.entered := rfl
@[simp] theorem State.sendMsix_bufLimited (s : State) (m : Msix) : (s.sendMsix m).bufLimited = s.bufLimited := rfl
@[simp] theorem State.sendMsix_halted (s : State) (m : Msix) : (s.sendMsix m).halted = s.halted := rfl
@[simp] theorem State.sendMsix_haltSpans (s : State) (m : Msix) : (s.sendMsix m).haltSpans = s.haltSpans := rfl
@[simp] theorem State.sendMsix_haltSince (s : State) (m : Msix) : (s.sendMsix m).haltSince = s.haltSince := rfl
@[simp] theorem State.sendMsix_keepAlive (s : State) (m : Msix) : (s.sendMsix m).keepAlive = s.keepAlive := rfl
@[simp] theorem State.sendMsix_selfRefresh (s : State) (m : Msix) : (s.sendMsix m).selfRefresh = s.selfRefresh := rfl
@[simp] theorem State.sendMsix_shutdown (s : State) (m : Msix) : (s.sendMsix m).shutdown = s.shutdown := rfl
@[simp] theorem State.sendMsix_divPend (s : State) (m : Msix) : (s.sendMsix m).divPend = s.divPend := rfl
@[simp] theorem State.sendMsix_psTarget (s : State) (m : Msix) : (s.sendMsix m).psTarget = s.psTarget := rfl
@[simp] theorem State.sendMsix_pstate (s : State) (m : Msix) : (s.sendMsix m).pstate = s.pstate := rfl
@[simp] theorem State.sendMsix_takeoverActive (s : State) (m : Msix) : (s.sendMsix m).takeoverActive = s.takeoverActive := rfl
@[simp] theorem State.sendMsix_faultWins (s : State) (m : Msix) : (s.sendMsix m).faultWins = s.faultWins := rfl
@[simp] theorem State.sendMsix_flashA (s : State) (m : Msix) : (s.sendMsix m).flashA = s.flashA := rfl
@[simp] theorem State.sendMsix_flashB (s : State) (m : Msix) : (s.sendMsix m).flashB = s.flashB := rfl
@[simp] theorem State.sendMsix_warmActive (s : State) (m : Msix) : (s.sendMsix m).warmActive = s.warmActive := rfl
@[simp] theorem State.sendMsix_roleB (s : State) (m : Msix) : (s.sendMsix m).roleB = s.roleB := rfl
@[simp] theorem State.sendMsix_ptpLocked (s : State) (m : Msix) : (s.sendMsix m).ptpLocked = s.ptpLocked := rfl
@[simp] theorem State.sendMsix_assetWritten (s : State) (m : Msix) : (s.sendMsix m).assetWritten = s.assetWritten := rfl
@[simp] theorem State.sendMsix_mgmtCmds (s : State) (m : Msix) : (s.sendMsix m).mgmtCmds = s.mgmtCmds := rfl
@[simp] theorem State.sendMsix_pfHeldA (s : State) (m : Msix) : (s.sendMsix m).pfHeldA = s.pfHeldA := rfl
@[simp] theorem State.sendMsix_pfHeldB (s : State) (m : Msix) : (s.sendMsix m).pfHeldB = s.pfHeldB := rfl
@[simp] theorem State.sendMsix_pfMailA (s : State) (m : Msix) : (s.sendMsix m).pfMailA = s.pfMailA := rfl
@[simp] theorem State.sendMsix_pfMailB (s : State) (m : Msix) : (s.sendMsix m).pfMailB = s.pfMailB := rfl
@[simp] theorem State.sendMsix_pfAckA (s : State) (m : Msix) : (s.sendMsix m).pfAckA = s.pfAckA := rfl
@[simp] theorem State.sendMsix_pfAckB (s : State) (m : Msix) : (s.sendMsix m).pfAckB = s.pfAckB := rfl
@[simp] theorem State.sendMsix_pfPhaseA (s : State) (m : Msix) : (s.sendMsix m).pfPhaseA = s.pfPhaseA := rfl
@[simp] theorem State.sendMsix_pfPhaseB (s : State) (m : Msix) : (s.sendMsix m).pfPhaseB = s.pfPhaseB := rfl
@[simp] theorem State.sendMsix_dies (s : State) (m : Msix) : (s.sendMsix m).dies = s.dies := rfl
@[simp] theorem State.sendMsix_rafters (s : State) (m : Msix) : (s.sendMsix m).rafters = s.rafters := rfl
@[simp] theorem State.sendMsix_ceCount (s : State) (m : Msix) : (s.sendMsix m).ceCount = s.ceCount := rfl
@[simp] theorem State.sendMsix_replayCount (s : State) (m : Msix) : (s.sendMsix m).replayCount = s.replayCount := rfl
@[simp] theorem State.sendMsix_flitCount (s : State) (m : Msix) : (s.sendMsix m).flitCount = s.flitCount := rfl
@[simp] theorem State.sendMsix_memTemp (s : State) (m : Msix) : (s.sendMsix m).memTemp = s.memTemp := rfl
@[simp] theorem State.sendMsix_refreshes (s : State) (m : Msix) : (s.sendMsix m).refreshes = s.refreshes := rfl
@[simp] theorem State.sendMsix_bands (s : State) (m : Msix) : (s.sendMsix m).bands = s.bands := rfl
@[simp] theorem State.sendMsix_mem (s : State) (m : Msix) : (s.sendMsix m).mem = s.mem := rfl
@[simp] theorem State.sendMsix_poison (s : State) (m : Msix) : (s.sendMsix m).poison = s.poison := rfl
@[simp] theorem State.sendMsix_cache (s : State) (m : Msix) : (s.sendMsix m).cache = s.cache := rfl
@[simp] theorem State.sendMsix_rereads (s : State) (m : Msix) : (s.sendMsix m).rereads = s.rereads := rfl
@[simp] theorem State.sendMsix_scratch (s : State) (m : Msix) : (s.sendMsix m).scratch = s.scratch := rfl
@[simp] theorem State.sendMsix_scratchPoison (s : State) (m : Msix) : (s.sendMsix m).scratchPoison = s.scratchPoison := rfl
@[simp] theorem State.sendMsix_hostMem (s : State) (m : Msix) : (s.sendMsix m).hostMem = s.hostMem := rfl
@[simp] theorem State.sendMsix_images (s : State) (m : Msix) : (s.sendMsix m).images = s.images := rfl
@[simp] theorem State.sendMsix_ligger (s : State) (m : Msix) : (s.sendMsix m).ligger = s.ligger := rfl
@[simp] theorem State.sendMsix_ctxs (s : State) (m : Msix) : (s.sendMsix m).ctxs = s.ctxs := rfl
@[simp] theorem State.sendMsix_groups (s : State) (m : Msix) : (s.sendMsix m).groups = s.groups := rfl
@[simp] theorem State.sendMsix_routes (s : State) (m : Msix) : (s.sendMsix m).routes = s.routes := rfl
@[simp] theorem State.sendMsix_prefixes (s : State) (m : Msix) : (s.sendMsix m).prefixes = s.prefixes := rfl
@[simp] theorem State.sendMsix_links (s : State) (m : Msix) : (s.sendMsix m).links = s.links := rfl
@[simp] theorem State.sendMsix_ports (s : State) (m : Msix) : (s.sendMsix m).ports = s.ports := rfl
@[simp] theorem State.sendMsix_sites (s : State) (m : Msix) : (s.sendMsix m).sites = s.sites := rfl
@[simp] theorem State.sendMsix_energyRem (s : State) (m : Msix) : (s.sendMsix m).energyRem = s.energyRem := rfl
@[simp] theorem State.sendMsix_tileCycles (s : State) (m : Msix) : (s.sendMsix m).tileCycles = s.tileCycles := rfl
@[simp] theorem State.sendMsix_wire (s : State) (m : Msix) : (s.sendMsix m).wire = s.wire := rfl
@[simp] theorem State.reg_of_sendMsix (s : State) (m : Msix) (b : Nat) : (s.sendMsix m).reg b = s.reg b := rfl
@[simp] theorem State.ctx_of_sendMsix (s : State) (m : Msix) (b : Nat) : (s.sendMsix m).ctx b = s.ctx b := rfl
@[simp] theorem State.die_of_sendMsix (s : State) (m : Msix) (b : Nat) : (s.sendMsix m).die b = s.die b := rfl
@[simp] theorem State.rafter_of_sendMsix (s : State) (m : Msix) (b : Nat) : (s.sendMsix m).rafter b = s.rafter b := rfl
@[simp] theorem State.port_of_sendMsix (s : State) (m : Msix) (b : Nat) : (s.sendMsix m).port b = s.port b := rfl
@[simp] theorem State.link_of_sendMsix (s : State) (m : Msix) (b : Nat) : (s.sendMsix m).link b = s.link b := rfl
@[simp] theorem State.site_of_sendMsix (s : State) (m : Msix) (b : Nat) : (s.sendMsix m).site b = s.site b := rfl
@[simp] theorem State.now_of_sendMsix (s : State) (m : Msix) : (s.sendMsix m).now = s.now := rfl

/-! ## noteCount -/

@[simp] theorem State.noteCount_pending (s : State) (a lo n : Nat) : (s.noteCount a lo n).pending = s.pending := rfl
@[simp] theorem State.noteCount_tb (s : State) (a lo n : Nat) : (s.noteCount a lo n).tb = s.tb := rfl
@[simp] theorem State.noteCount_regs (s : State) (a lo n : Nat) : (s.noteCount a lo n).regs = s.regs := rfl
@[simp] theorem State.noteCount_pwrEn (s : State) (a lo n : Nat) : (s.noteCount a lo n).pwrEn = s.pwrEn := rfl
@[simp] theorem State.noteCount_pwrgd (s : State) (a lo n : Nat) : (s.noteCount a lo n).pwrgd = s.pwrgd := rfl
@[simp] theorem State.noteCount_perstA (s : State) (a lo n : Nat) : (s.noteCount a lo n).perstA = s.perstA := rfl
@[simp] theorem State.noteCount_perstB (s : State) (a lo n : Nat) : (s.noteCount a lo n).perstB = s.perstB := rfl
@[simp] theorem State.noteCount_linkA (s : State) (a lo n : Nat) : (s.noteCount a lo n).linkA = s.linkA := rfl
@[simp] theorem State.noteCount_linkB (s : State) (a lo n : Nat) : (s.noteCount a lo n).linkB = s.linkB := rfl
@[simp] theorem State.noteCount_rrs (s : State) (a lo n : Nat) : (s.noteCount a lo n).rrs = s.rrs := rfl
@[simp] theorem State.noteCount_ppsPulses (s : State) (a lo n : Nat) : (s.noteCount a lo n).ppsPulses = s.ppsPulses := rfl
@[simp] theorem State.noteCount_late (s : State) (a lo n : Nat) : (s.noteCount a lo n).late = s.late := rfl
@[simp] theorem State.noteCount_hostLanesA (s : State) (a lo n : Nat) : (s.noteCount a lo n).hostLanesA = s.hostLanesA := rfl
@[simp] theorem State.noteCount_hostLanesB (s : State) (a lo n : Nat) : (s.noteCount a lo n).hostLanesB = s.hostLanesB := rfl
@[simp] theorem State.noteCount_fusedSpares (s : State) (a lo n : Nat) : (s.noteCount a lo n).fusedSpares = s.fusedSpares := rfl
@[simp] theorem State.noteCount_routers (s : State) (a lo n : Nat) : (s.noteCount a lo n).routers = s.routers := rfl
@[simp] theorem State.noteCount_turns (s : State) (a lo n : Nat) : (s.noteCount a lo n).turns = s.turns := rfl
@[simp] theorem State.noteCount_strandFaults (s : State) (a lo n : Nat) : (s.noteCount a lo n).strandFaults = s.strandFaults := rfl
@[simp] theorem State.noteCount_unsent (s : State) (a lo n : Nat) : (s.noteCount a lo n).unsent = s.unsent := rfl
@[simp] theorem State.noteCount_refreshAt (s : State) (a lo n : Nat) : (s.noteCount a lo n).refreshAt = s.refreshAt := rfl
@[simp] theorem State.noteCount_periodAt (s : State) (a lo n : Nat) : (s.noteCount a lo n).periodAt = s.periodAt := rfl
@[simp] theorem State.noteCount_upsets (s : State) (a lo n : Nat) : (s.noteCount a lo n).upsets = s.upsets := rfl
@[simp] theorem State.noteCount_tapUnlocked (s : State) (a lo n : Nat) : (s.noteCount a lo n).tapUnlocked = s.tapUnlocked := rfl
@[simp] theorem State.noteCount_i3cA (s : State) (a lo n : Nat) : (s.noteCount a lo n).i3cA = s.i3cA := rfl
@[simp] theorem State.noteCount_i3cB (s : State) (a lo n : Nat) : (s.noteCount a lo n).i3cB = s.i3cB := rfl
@[simp] theorem State.noteCount_thermtrip (s : State) (a lo n : Nat) : (s.noteCount a lo n).thermtrip = s.thermtrip := rfl
@[simp] theorem State.noteCount_below (s : State) (a lo n : Nat) : (s.noteCount a lo n).below = s.below := rfl
@[simp] theorem State.noteCount_above (s : State) (a lo n : Nat) : (s.noteCount a lo n).above = s.above := rfl
@[simp] theorem State.noteCount_entered (s : State) (a lo n : Nat) : (s.noteCount a lo n).entered = s.entered := rfl
@[simp] theorem State.noteCount_bufLimited (s : State) (a lo n : Nat) : (s.noteCount a lo n).bufLimited = s.bufLimited := rfl
@[simp] theorem State.noteCount_halted (s : State) (a lo n : Nat) : (s.noteCount a lo n).halted = s.halted := rfl
@[simp] theorem State.noteCount_haltSpans (s : State) (a lo n : Nat) : (s.noteCount a lo n).haltSpans = s.haltSpans := rfl
@[simp] theorem State.noteCount_haltSince (s : State) (a lo n : Nat) : (s.noteCount a lo n).haltSince = s.haltSince := rfl
@[simp] theorem State.noteCount_keepAlive (s : State) (a lo n : Nat) : (s.noteCount a lo n).keepAlive = s.keepAlive := rfl
@[simp] theorem State.noteCount_selfRefresh (s : State) (a lo n : Nat) : (s.noteCount a lo n).selfRefresh = s.selfRefresh := rfl
@[simp] theorem State.noteCount_shutdown (s : State) (a lo n : Nat) : (s.noteCount a lo n).shutdown = s.shutdown := rfl
@[simp] theorem State.noteCount_divPend (s : State) (a lo n : Nat) : (s.noteCount a lo n).divPend = s.divPend := rfl
@[simp] theorem State.noteCount_psTarget (s : State) (a lo n : Nat) : (s.noteCount a lo n).psTarget = s.psTarget := rfl
@[simp] theorem State.noteCount_pstate (s : State) (a lo n : Nat) : (s.noteCount a lo n).pstate = s.pstate := rfl
@[simp] theorem State.noteCount_takeoverActive (s : State) (a lo n : Nat) : (s.noteCount a lo n).takeoverActive = s.takeoverActive := rfl
@[simp] theorem State.noteCount_faultWins (s : State) (a lo n : Nat) : (s.noteCount a lo n).faultWins = s.faultWins := rfl
@[simp] theorem State.noteCount_flashA (s : State) (a lo n : Nat) : (s.noteCount a lo n).flashA = s.flashA := rfl
@[simp] theorem State.noteCount_flashB (s : State) (a lo n : Nat) : (s.noteCount a lo n).flashB = s.flashB := rfl
@[simp] theorem State.noteCount_warmActive (s : State) (a lo n : Nat) : (s.noteCount a lo n).warmActive = s.warmActive := rfl
@[simp] theorem State.noteCount_roleB (s : State) (a lo n : Nat) : (s.noteCount a lo n).roleB = s.roleB := rfl
@[simp] theorem State.noteCount_ptpLocked (s : State) (a lo n : Nat) : (s.noteCount a lo n).ptpLocked = s.ptpLocked := rfl
@[simp] theorem State.noteCount_assetWritten (s : State) (a lo n : Nat) : (s.noteCount a lo n).assetWritten = s.assetWritten := rfl
@[simp] theorem State.noteCount_mgmtCmds (s : State) (a lo n : Nat) : (s.noteCount a lo n).mgmtCmds = s.mgmtCmds := rfl
@[simp] theorem State.noteCount_pfHeldA (s : State) (a lo n : Nat) : (s.noteCount a lo n).pfHeldA = s.pfHeldA := rfl
@[simp] theorem State.noteCount_pfHeldB (s : State) (a lo n : Nat) : (s.noteCount a lo n).pfHeldB = s.pfHeldB := rfl
@[simp] theorem State.noteCount_pfMailA (s : State) (a lo n : Nat) : (s.noteCount a lo n).pfMailA = s.pfMailA := rfl
@[simp] theorem State.noteCount_pfMailB (s : State) (a lo n : Nat) : (s.noteCount a lo n).pfMailB = s.pfMailB := rfl
@[simp] theorem State.noteCount_pfAckA (s : State) (a lo n : Nat) : (s.noteCount a lo n).pfAckA = s.pfAckA := rfl
@[simp] theorem State.noteCount_pfAckB (s : State) (a lo n : Nat) : (s.noteCount a lo n).pfAckB = s.pfAckB := rfl
@[simp] theorem State.noteCount_pfPhaseA (s : State) (a lo n : Nat) : (s.noteCount a lo n).pfPhaseA = s.pfPhaseA := rfl
@[simp] theorem State.noteCount_pfPhaseB (s : State) (a lo n : Nat) : (s.noteCount a lo n).pfPhaseB = s.pfPhaseB := rfl
@[simp] theorem State.noteCount_dies (s : State) (a lo n : Nat) : (s.noteCount a lo n).dies = s.dies := rfl
@[simp] theorem State.noteCount_rafters (s : State) (a lo n : Nat) : (s.noteCount a lo n).rafters = s.rafters := rfl
@[simp] theorem State.noteCount_ceCount (s : State) (a lo n : Nat) : (s.noteCount a lo n).ceCount = s.ceCount := rfl
@[simp] theorem State.noteCount_replayCount (s : State) (a lo n : Nat) : (s.noteCount a lo n).replayCount = s.replayCount := rfl
@[simp] theorem State.noteCount_flitCount (s : State) (a lo n : Nat) : (s.noteCount a lo n).flitCount = s.flitCount := rfl
@[simp] theorem State.noteCount_memTemp (s : State) (a lo n : Nat) : (s.noteCount a lo n).memTemp = s.memTemp := rfl
@[simp] theorem State.noteCount_refreshes (s : State) (a lo n : Nat) : (s.noteCount a lo n).refreshes = s.refreshes := rfl
@[simp] theorem State.noteCount_bands (s : State) (a lo n : Nat) : (s.noteCount a lo n).bands = s.bands := rfl
@[simp] theorem State.noteCount_mem (s : State) (a lo n : Nat) : (s.noteCount a lo n).mem = s.mem := rfl
@[simp] theorem State.noteCount_poison (s : State) (a lo n : Nat) : (s.noteCount a lo n).poison = s.poison := rfl
@[simp] theorem State.noteCount_cache (s : State) (a lo n : Nat) : (s.noteCount a lo n).cache = s.cache := rfl
@[simp] theorem State.noteCount_rereads (s : State) (a lo n : Nat) : (s.noteCount a lo n).rereads = s.rereads := rfl
@[simp] theorem State.noteCount_scratch (s : State) (a lo n : Nat) : (s.noteCount a lo n).scratch = s.scratch := rfl
@[simp] theorem State.noteCount_scratchPoison (s : State) (a lo n : Nat) : (s.noteCount a lo n).scratchPoison = s.scratchPoison := rfl
@[simp] theorem State.noteCount_hostMem (s : State) (a lo n : Nat) : (s.noteCount a lo n).hostMem = s.hostMem := rfl
@[simp] theorem State.noteCount_images (s : State) (a lo n : Nat) : (s.noteCount a lo n).images = s.images := rfl
@[simp] theorem State.noteCount_ligger (s : State) (a lo n : Nat) : (s.noteCount a lo n).ligger = s.ligger := rfl
@[simp] theorem State.noteCount_ctxs (s : State) (a lo n : Nat) : (s.noteCount a lo n).ctxs = s.ctxs := rfl
@[simp] theorem State.noteCount_groups (s : State) (a lo n : Nat) : (s.noteCount a lo n).groups = s.groups := rfl
@[simp] theorem State.noteCount_routes (s : State) (a lo n : Nat) : (s.noteCount a lo n).routes = s.routes := rfl
@[simp] theorem State.noteCount_prefixes (s : State) (a lo n : Nat) : (s.noteCount a lo n).prefixes = s.prefixes := rfl
@[simp] theorem State.noteCount_links (s : State) (a lo n : Nat) : (s.noteCount a lo n).links = s.links := rfl
@[simp] theorem State.noteCount_ports (s : State) (a lo n : Nat) : (s.noteCount a lo n).ports = s.ports := rfl
@[simp] theorem State.noteCount_sites (s : State) (a lo n : Nat) : (s.noteCount a lo n).sites = s.sites := rfl
@[simp] theorem State.noteCount_energyRem (s : State) (a lo n : Nat) : (s.noteCount a lo n).energyRem = s.energyRem := rfl
@[simp] theorem State.noteCount_tileCycles (s : State) (a lo n : Nat) : (s.noteCount a lo n).tileCycles = s.tileCycles := rfl
@[simp] theorem State.noteCount_wire (s : State) (a lo n : Nat) : (s.noteCount a lo n).wire = s.wire := rfl
@[simp] theorem State.noteCount_msix (s : State) (a lo n : Nat) : (s.noteCount a lo n).msix = s.msix := rfl
@[simp] theorem State.reg_of_noteCount (s : State) (a lo n : Nat) (b : Nat) : (s.noteCount a lo n).reg b = s.reg b := rfl
@[simp] theorem State.ctx_of_noteCount (s : State) (a lo n : Nat) (b : Nat) : (s.noteCount a lo n).ctx b = s.ctx b := rfl
@[simp] theorem State.die_of_noteCount (s : State) (a lo n : Nat) (b : Nat) : (s.noteCount a lo n).die b = s.die b := rfl
@[simp] theorem State.rafter_of_noteCount (s : State) (a lo n : Nat) (b : Nat) : (s.noteCount a lo n).rafter b = s.rafter b := rfl
@[simp] theorem State.port_of_noteCount (s : State) (a lo n : Nat) (b : Nat) : (s.noteCount a lo n).port b = s.port b := rfl
@[simp] theorem State.link_of_noteCount (s : State) (a lo n : Nat) (b : Nat) : (s.noteCount a lo n).link b = s.link b := rfl
@[simp] theorem State.site_of_noteCount (s : State) (a lo n : Nat) (b : Nat) : (s.noteCount a lo n).site b = s.site b := rfl
@[simp] theorem State.now_of_noteCount (s : State) (a lo n : Nat) : (s.noteCount a lo n).now = s.now := rfl

/-! ## noteRaised -/

@[simp] theorem State.noteRaised_pending (s : State) (a : Nat) (w : Word) : (s.noteRaised a w).pending = s.pending := rfl
@[simp] theorem State.noteRaised_tb (s : State) (a : Nat) (w : Word) : (s.noteRaised a w).tb = s.tb := rfl
@[simp] theorem State.noteRaised_regs (s : State) (a : Nat) (w : Word) : (s.noteRaised a w).regs = s.regs := rfl
@[simp] theorem State.noteRaised_pwrEn (s : State) (a : Nat) (w : Word) : (s.noteRaised a w).pwrEn = s.pwrEn := rfl
@[simp] theorem State.noteRaised_pwrgd (s : State) (a : Nat) (w : Word) : (s.noteRaised a w).pwrgd = s.pwrgd := rfl
@[simp] theorem State.noteRaised_perstA (s : State) (a : Nat) (w : Word) : (s.noteRaised a w).perstA = s.perstA := rfl
@[simp] theorem State.noteRaised_perstB (s : State) (a : Nat) (w : Word) : (s.noteRaised a w).perstB = s.perstB := rfl
@[simp] theorem State.noteRaised_linkA (s : State) (a : Nat) (w : Word) : (s.noteRaised a w).linkA = s.linkA := rfl
@[simp] theorem State.noteRaised_linkB (s : State) (a : Nat) (w : Word) : (s.noteRaised a w).linkB = s.linkB := rfl
@[simp] theorem State.noteRaised_rrs (s : State) (a : Nat) (w : Word) : (s.noteRaised a w).rrs = s.rrs := rfl
@[simp] theorem State.noteRaised_ppsPulses (s : State) (a : Nat) (w : Word) : (s.noteRaised a w).ppsPulses = s.ppsPulses := rfl
@[simp] theorem State.noteRaised_late (s : State) (a : Nat) (w : Word) : (s.noteRaised a w).late = s.late := rfl
@[simp] theorem State.noteRaised_hostLanesA (s : State) (a : Nat) (w : Word) : (s.noteRaised a w).hostLanesA = s.hostLanesA := rfl
@[simp] theorem State.noteRaised_hostLanesB (s : State) (a : Nat) (w : Word) : (s.noteRaised a w).hostLanesB = s.hostLanesB := rfl
@[simp] theorem State.noteRaised_fusedSpares (s : State) (a : Nat) (w : Word) : (s.noteRaised a w).fusedSpares = s.fusedSpares := rfl
@[simp] theorem State.noteRaised_routers (s : State) (a : Nat) (w : Word) : (s.noteRaised a w).routers = s.routers := rfl
@[simp] theorem State.noteRaised_turns (s : State) (a : Nat) (w : Word) : (s.noteRaised a w).turns = s.turns := rfl
@[simp] theorem State.noteRaised_strandFaults (s : State) (a : Nat) (w : Word) : (s.noteRaised a w).strandFaults = s.strandFaults := rfl
@[simp] theorem State.noteRaised_unsent (s : State) (a : Nat) (w : Word) : (s.noteRaised a w).unsent = s.unsent := rfl
@[simp] theorem State.noteRaised_refreshAt (s : State) (a : Nat) (w : Word) : (s.noteRaised a w).refreshAt = s.refreshAt := rfl
@[simp] theorem State.noteRaised_periodAt (s : State) (a : Nat) (w : Word) : (s.noteRaised a w).periodAt = s.periodAt := rfl
@[simp] theorem State.noteRaised_upsets (s : State) (a : Nat) (w : Word) : (s.noteRaised a w).upsets = s.upsets := rfl
@[simp] theorem State.noteRaised_tapUnlocked (s : State) (a : Nat) (w : Word) : (s.noteRaised a w).tapUnlocked = s.tapUnlocked := rfl
@[simp] theorem State.noteRaised_i3cA (s : State) (a : Nat) (w : Word) : (s.noteRaised a w).i3cA = s.i3cA := rfl
@[simp] theorem State.noteRaised_i3cB (s : State) (a : Nat) (w : Word) : (s.noteRaised a w).i3cB = s.i3cB := rfl
@[simp] theorem State.noteRaised_thermtrip (s : State) (a : Nat) (w : Word) : (s.noteRaised a w).thermtrip = s.thermtrip := rfl
@[simp] theorem State.noteRaised_below (s : State) (a : Nat) (w : Word) : (s.noteRaised a w).below = s.below := rfl
@[simp] theorem State.noteRaised_above (s : State) (a : Nat) (w : Word) : (s.noteRaised a w).above = s.above := rfl
@[simp] theorem State.noteRaised_entered (s : State) (a : Nat) (w : Word) : (s.noteRaised a w).entered = s.entered := rfl
@[simp] theorem State.noteRaised_bufLimited (s : State) (a : Nat) (w : Word) : (s.noteRaised a w).bufLimited = s.bufLimited := rfl
@[simp] theorem State.noteRaised_halted (s : State) (a : Nat) (w : Word) : (s.noteRaised a w).halted = s.halted := rfl
@[simp] theorem State.noteRaised_haltSpans (s : State) (a : Nat) (w : Word) : (s.noteRaised a w).haltSpans = s.haltSpans := rfl
@[simp] theorem State.noteRaised_haltSince (s : State) (a : Nat) (w : Word) : (s.noteRaised a w).haltSince = s.haltSince := rfl
@[simp] theorem State.noteRaised_keepAlive (s : State) (a : Nat) (w : Word) : (s.noteRaised a w).keepAlive = s.keepAlive := rfl
@[simp] theorem State.noteRaised_selfRefresh (s : State) (a : Nat) (w : Word) : (s.noteRaised a w).selfRefresh = s.selfRefresh := rfl
@[simp] theorem State.noteRaised_shutdown (s : State) (a : Nat) (w : Word) : (s.noteRaised a w).shutdown = s.shutdown := rfl
@[simp] theorem State.noteRaised_divPend (s : State) (a : Nat) (w : Word) : (s.noteRaised a w).divPend = s.divPend := rfl
@[simp] theorem State.noteRaised_psTarget (s : State) (a : Nat) (w : Word) : (s.noteRaised a w).psTarget = s.psTarget := rfl
@[simp] theorem State.noteRaised_pstate (s : State) (a : Nat) (w : Word) : (s.noteRaised a w).pstate = s.pstate := rfl
@[simp] theorem State.noteRaised_takeoverActive (s : State) (a : Nat) (w : Word) : (s.noteRaised a w).takeoverActive = s.takeoverActive := rfl
@[simp] theorem State.noteRaised_faultWins (s : State) (a : Nat) (w : Word) : (s.noteRaised a w).faultWins = s.faultWins := rfl
@[simp] theorem State.noteRaised_flashA (s : State) (a : Nat) (w : Word) : (s.noteRaised a w).flashA = s.flashA := rfl
@[simp] theorem State.noteRaised_flashB (s : State) (a : Nat) (w : Word) : (s.noteRaised a w).flashB = s.flashB := rfl
@[simp] theorem State.noteRaised_warmActive (s : State) (a : Nat) (w : Word) : (s.noteRaised a w).warmActive = s.warmActive := rfl
@[simp] theorem State.noteRaised_roleB (s : State) (a : Nat) (w : Word) : (s.noteRaised a w).roleB = s.roleB := rfl
@[simp] theorem State.noteRaised_ptpLocked (s : State) (a : Nat) (w : Word) : (s.noteRaised a w).ptpLocked = s.ptpLocked := rfl
@[simp] theorem State.noteRaised_assetWritten (s : State) (a : Nat) (w : Word) : (s.noteRaised a w).assetWritten = s.assetWritten := rfl
@[simp] theorem State.noteRaised_mgmtCmds (s : State) (a : Nat) (w : Word) : (s.noteRaised a w).mgmtCmds = s.mgmtCmds := rfl
@[simp] theorem State.noteRaised_pfHeldA (s : State) (a : Nat) (w : Word) : (s.noteRaised a w).pfHeldA = s.pfHeldA := rfl
@[simp] theorem State.noteRaised_pfHeldB (s : State) (a : Nat) (w : Word) : (s.noteRaised a w).pfHeldB = s.pfHeldB := rfl
@[simp] theorem State.noteRaised_pfMailA (s : State) (a : Nat) (w : Word) : (s.noteRaised a w).pfMailA = s.pfMailA := rfl
@[simp] theorem State.noteRaised_pfMailB (s : State) (a : Nat) (w : Word) : (s.noteRaised a w).pfMailB = s.pfMailB := rfl
@[simp] theorem State.noteRaised_pfAckA (s : State) (a : Nat) (w : Word) : (s.noteRaised a w).pfAckA = s.pfAckA := rfl
@[simp] theorem State.noteRaised_pfAckB (s : State) (a : Nat) (w : Word) : (s.noteRaised a w).pfAckB = s.pfAckB := rfl
@[simp] theorem State.noteRaised_pfPhaseA (s : State) (a : Nat) (w : Word) : (s.noteRaised a w).pfPhaseA = s.pfPhaseA := rfl
@[simp] theorem State.noteRaised_pfPhaseB (s : State) (a : Nat) (w : Word) : (s.noteRaised a w).pfPhaseB = s.pfPhaseB := rfl
@[simp] theorem State.noteRaised_dies (s : State) (a : Nat) (w : Word) : (s.noteRaised a w).dies = s.dies := rfl
@[simp] theorem State.noteRaised_rafters (s : State) (a : Nat) (w : Word) : (s.noteRaised a w).rafters = s.rafters := rfl
@[simp] theorem State.noteRaised_ceCount (s : State) (a : Nat) (w : Word) : (s.noteRaised a w).ceCount = s.ceCount := rfl
@[simp] theorem State.noteRaised_replayCount (s : State) (a : Nat) (w : Word) : (s.noteRaised a w).replayCount = s.replayCount := rfl
@[simp] theorem State.noteRaised_flitCount (s : State) (a : Nat) (w : Word) : (s.noteRaised a w).flitCount = s.flitCount := rfl
@[simp] theorem State.noteRaised_memTemp (s : State) (a : Nat) (w : Word) : (s.noteRaised a w).memTemp = s.memTemp := rfl
@[simp] theorem State.noteRaised_refreshes (s : State) (a : Nat) (w : Word) : (s.noteRaised a w).refreshes = s.refreshes := rfl
@[simp] theorem State.noteRaised_bands (s : State) (a : Nat) (w : Word) : (s.noteRaised a w).bands = s.bands := rfl
@[simp] theorem State.noteRaised_mem (s : State) (a : Nat) (w : Word) : (s.noteRaised a w).mem = s.mem := rfl
@[simp] theorem State.noteRaised_poison (s : State) (a : Nat) (w : Word) : (s.noteRaised a w).poison = s.poison := rfl
@[simp] theorem State.noteRaised_cache (s : State) (a : Nat) (w : Word) : (s.noteRaised a w).cache = s.cache := rfl
@[simp] theorem State.noteRaised_rereads (s : State) (a : Nat) (w : Word) : (s.noteRaised a w).rereads = s.rereads := rfl
@[simp] theorem State.noteRaised_scratch (s : State) (a : Nat) (w : Word) : (s.noteRaised a w).scratch = s.scratch := rfl
@[simp] theorem State.noteRaised_scratchPoison (s : State) (a : Nat) (w : Word) : (s.noteRaised a w).scratchPoison = s.scratchPoison := rfl
@[simp] theorem State.noteRaised_hostMem (s : State) (a : Nat) (w : Word) : (s.noteRaised a w).hostMem = s.hostMem := rfl
@[simp] theorem State.noteRaised_images (s : State) (a : Nat) (w : Word) : (s.noteRaised a w).images = s.images := rfl
@[simp] theorem State.noteRaised_ligger (s : State) (a : Nat) (w : Word) : (s.noteRaised a w).ligger = s.ligger := rfl
@[simp] theorem State.noteRaised_ctxs (s : State) (a : Nat) (w : Word) : (s.noteRaised a w).ctxs = s.ctxs := rfl
@[simp] theorem State.noteRaised_groups (s : State) (a : Nat) (w : Word) : (s.noteRaised a w).groups = s.groups := rfl
@[simp] theorem State.noteRaised_routes (s : State) (a : Nat) (w : Word) : (s.noteRaised a w).routes = s.routes := rfl
@[simp] theorem State.noteRaised_prefixes (s : State) (a : Nat) (w : Word) : (s.noteRaised a w).prefixes = s.prefixes := rfl
@[simp] theorem State.noteRaised_links (s : State) (a : Nat) (w : Word) : (s.noteRaised a w).links = s.links := rfl
@[simp] theorem State.noteRaised_ports (s : State) (a : Nat) (w : Word) : (s.noteRaised a w).ports = s.ports := rfl
@[simp] theorem State.noteRaised_sites (s : State) (a : Nat) (w : Word) : (s.noteRaised a w).sites = s.sites := rfl
@[simp] theorem State.noteRaised_energyRem (s : State) (a : Nat) (w : Word) : (s.noteRaised a w).energyRem = s.energyRem := rfl
@[simp] theorem State.noteRaised_tileCycles (s : State) (a : Nat) (w : Word) : (s.noteRaised a w).tileCycles = s.tileCycles := rfl
@[simp] theorem State.noteRaised_wire (s : State) (a : Nat) (w : Word) : (s.noteRaised a w).wire = s.wire := rfl
@[simp] theorem State.noteRaised_msix (s : State) (a : Nat) (w : Word) : (s.noteRaised a w).msix = s.msix := rfl
@[simp] theorem State.reg_of_noteRaised (s : State) (a : Nat) (w : Word) (b : Nat) : (s.noteRaised a w).reg b = s.reg b := rfl
@[simp] theorem State.ctx_of_noteRaised (s : State) (a : Nat) (w : Word) (b : Nat) : (s.noteRaised a w).ctx b = s.ctx b := rfl
@[simp] theorem State.die_of_noteRaised (s : State) (a : Nat) (w : Word) (b : Nat) : (s.noteRaised a w).die b = s.die b := rfl
@[simp] theorem State.rafter_of_noteRaised (s : State) (a : Nat) (w : Word) (b : Nat) : (s.noteRaised a w).rafter b = s.rafter b := rfl
@[simp] theorem State.port_of_noteRaised (s : State) (a : Nat) (w : Word) (b : Nat) : (s.noteRaised a w).port b = s.port b := rfl
@[simp] theorem State.link_of_noteRaised (s : State) (a : Nat) (w : Word) (b : Nat) : (s.noteRaised a w).link b = s.link b := rfl
@[simp] theorem State.site_of_noteRaised (s : State) (a : Nat) (w : Word) (b : Nat) : (s.noteRaised a w).site b = s.site b := rfl
@[simp] theorem State.now_of_noteRaised (s : State) (a : Nat) (w : Word) : (s.noteRaised a w).now = s.now := rfl

/-! ## noteIssue -/

@[simp] theorem State.noteIssue_pending (s : State) : (s.noteIssue).pending = s.pending := rfl
@[simp] theorem State.noteIssue_tb (s : State) : (s.noteIssue).tb = s.tb := rfl
@[simp] theorem State.noteIssue_regs (s : State) : (s.noteIssue).regs = s.regs := rfl
@[simp] theorem State.noteIssue_pwrEn (s : State) : (s.noteIssue).pwrEn = s.pwrEn := rfl
@[simp] theorem State.noteIssue_pwrgd (s : State) : (s.noteIssue).pwrgd = s.pwrgd := rfl
@[simp] theorem State.noteIssue_perstA (s : State) : (s.noteIssue).perstA = s.perstA := rfl
@[simp] theorem State.noteIssue_perstB (s : State) : (s.noteIssue).perstB = s.perstB := rfl
@[simp] theorem State.noteIssue_linkA (s : State) : (s.noteIssue).linkA = s.linkA := rfl
@[simp] theorem State.noteIssue_linkB (s : State) : (s.noteIssue).linkB = s.linkB := rfl
@[simp] theorem State.noteIssue_rrs (s : State) : (s.noteIssue).rrs = s.rrs := rfl
@[simp] theorem State.noteIssue_ppsPulses (s : State) : (s.noteIssue).ppsPulses = s.ppsPulses := rfl
@[simp] theorem State.noteIssue_late (s : State) : (s.noteIssue).late = s.late := rfl
@[simp] theorem State.noteIssue_hostLanesA (s : State) : (s.noteIssue).hostLanesA = s.hostLanesA := rfl
@[simp] theorem State.noteIssue_hostLanesB (s : State) : (s.noteIssue).hostLanesB = s.hostLanesB := rfl
@[simp] theorem State.noteIssue_fusedSpares (s : State) : (s.noteIssue).fusedSpares = s.fusedSpares := rfl
@[simp] theorem State.noteIssue_routers (s : State) : (s.noteIssue).routers = s.routers := rfl
@[simp] theorem State.noteIssue_turns (s : State) : (s.noteIssue).turns = s.turns := rfl
@[simp] theorem State.noteIssue_strandFaults (s : State) : (s.noteIssue).strandFaults = s.strandFaults := rfl
@[simp] theorem State.noteIssue_unsent (s : State) : (s.noteIssue).unsent = s.unsent := rfl
@[simp] theorem State.noteIssue_refreshAt (s : State) : (s.noteIssue).refreshAt = s.refreshAt := rfl
@[simp] theorem State.noteIssue_periodAt (s : State) : (s.noteIssue).periodAt = s.periodAt := rfl
@[simp] theorem State.noteIssue_upsets (s : State) : (s.noteIssue).upsets = s.upsets := rfl
@[simp] theorem State.noteIssue_tapUnlocked (s : State) : (s.noteIssue).tapUnlocked = s.tapUnlocked := rfl
@[simp] theorem State.noteIssue_i3cA (s : State) : (s.noteIssue).i3cA = s.i3cA := rfl
@[simp] theorem State.noteIssue_i3cB (s : State) : (s.noteIssue).i3cB = s.i3cB := rfl
@[simp] theorem State.noteIssue_thermtrip (s : State) : (s.noteIssue).thermtrip = s.thermtrip := rfl
@[simp] theorem State.noteIssue_below (s : State) : (s.noteIssue).below = s.below := rfl
@[simp] theorem State.noteIssue_above (s : State) : (s.noteIssue).above = s.above := rfl
@[simp] theorem State.noteIssue_entered (s : State) : (s.noteIssue).entered = s.entered := rfl
@[simp] theorem State.noteIssue_bufLimited (s : State) : (s.noteIssue).bufLimited = s.bufLimited := rfl
@[simp] theorem State.noteIssue_halted (s : State) : (s.noteIssue).halted = s.halted := rfl
@[simp] theorem State.noteIssue_haltSpans (s : State) : (s.noteIssue).haltSpans = s.haltSpans := rfl
@[simp] theorem State.noteIssue_haltSince (s : State) : (s.noteIssue).haltSince = s.haltSince := rfl
@[simp] theorem State.noteIssue_keepAlive (s : State) : (s.noteIssue).keepAlive = s.keepAlive := rfl
@[simp] theorem State.noteIssue_selfRefresh (s : State) : (s.noteIssue).selfRefresh = s.selfRefresh := rfl
@[simp] theorem State.noteIssue_shutdown (s : State) : (s.noteIssue).shutdown = s.shutdown := rfl
@[simp] theorem State.noteIssue_divPend (s : State) : (s.noteIssue).divPend = s.divPend := rfl
@[simp] theorem State.noteIssue_psTarget (s : State) : (s.noteIssue).psTarget = s.psTarget := rfl
@[simp] theorem State.noteIssue_pstate (s : State) : (s.noteIssue).pstate = s.pstate := rfl
@[simp] theorem State.noteIssue_takeoverActive (s : State) : (s.noteIssue).takeoverActive = s.takeoverActive := rfl
@[simp] theorem State.noteIssue_faultWins (s : State) : (s.noteIssue).faultWins = s.faultWins := rfl
@[simp] theorem State.noteIssue_flashA (s : State) : (s.noteIssue).flashA = s.flashA := rfl
@[simp] theorem State.noteIssue_flashB (s : State) : (s.noteIssue).flashB = s.flashB := rfl
@[simp] theorem State.noteIssue_warmActive (s : State) : (s.noteIssue).warmActive = s.warmActive := rfl
@[simp] theorem State.noteIssue_roleB (s : State) : (s.noteIssue).roleB = s.roleB := rfl
@[simp] theorem State.noteIssue_ptpLocked (s : State) : (s.noteIssue).ptpLocked = s.ptpLocked := rfl
@[simp] theorem State.noteIssue_assetWritten (s : State) : (s.noteIssue).assetWritten = s.assetWritten := rfl
@[simp] theorem State.noteIssue_mgmtCmds (s : State) : (s.noteIssue).mgmtCmds = s.mgmtCmds := rfl
@[simp] theorem State.noteIssue_pfHeldA (s : State) : (s.noteIssue).pfHeldA = s.pfHeldA := rfl
@[simp] theorem State.noteIssue_pfHeldB (s : State) : (s.noteIssue).pfHeldB = s.pfHeldB := rfl
@[simp] theorem State.noteIssue_pfMailA (s : State) : (s.noteIssue).pfMailA = s.pfMailA := rfl
@[simp] theorem State.noteIssue_pfMailB (s : State) : (s.noteIssue).pfMailB = s.pfMailB := rfl
@[simp] theorem State.noteIssue_pfAckA (s : State) : (s.noteIssue).pfAckA = s.pfAckA := rfl
@[simp] theorem State.noteIssue_pfAckB (s : State) : (s.noteIssue).pfAckB = s.pfAckB := rfl
@[simp] theorem State.noteIssue_pfPhaseA (s : State) : (s.noteIssue).pfPhaseA = s.pfPhaseA := rfl
@[simp] theorem State.noteIssue_pfPhaseB (s : State) : (s.noteIssue).pfPhaseB = s.pfPhaseB := rfl
@[simp] theorem State.noteIssue_dies (s : State) : (s.noteIssue).dies = s.dies := rfl
@[simp] theorem State.noteIssue_rafters (s : State) : (s.noteIssue).rafters = s.rafters := rfl
@[simp] theorem State.noteIssue_ceCount (s : State) : (s.noteIssue).ceCount = s.ceCount := rfl
@[simp] theorem State.noteIssue_replayCount (s : State) : (s.noteIssue).replayCount = s.replayCount := rfl
@[simp] theorem State.noteIssue_flitCount (s : State) : (s.noteIssue).flitCount = s.flitCount := rfl
@[simp] theorem State.noteIssue_memTemp (s : State) : (s.noteIssue).memTemp = s.memTemp := rfl
@[simp] theorem State.noteIssue_refreshes (s : State) : (s.noteIssue).refreshes = s.refreshes := rfl
@[simp] theorem State.noteIssue_bands (s : State) : (s.noteIssue).bands = s.bands := rfl
@[simp] theorem State.noteIssue_mem (s : State) : (s.noteIssue).mem = s.mem := rfl
@[simp] theorem State.noteIssue_poison (s : State) : (s.noteIssue).poison = s.poison := rfl
@[simp] theorem State.noteIssue_cache (s : State) : (s.noteIssue).cache = s.cache := rfl
@[simp] theorem State.noteIssue_rereads (s : State) : (s.noteIssue).rereads = s.rereads := rfl
@[simp] theorem State.noteIssue_scratch (s : State) : (s.noteIssue).scratch = s.scratch := rfl
@[simp] theorem State.noteIssue_scratchPoison (s : State) : (s.noteIssue).scratchPoison = s.scratchPoison := rfl
@[simp] theorem State.noteIssue_hostMem (s : State) : (s.noteIssue).hostMem = s.hostMem := rfl
@[simp] theorem State.noteIssue_images (s : State) : (s.noteIssue).images = s.images := rfl
@[simp] theorem State.noteIssue_ligger (s : State) : (s.noteIssue).ligger = s.ligger := rfl
@[simp] theorem State.noteIssue_ctxs (s : State) : (s.noteIssue).ctxs = s.ctxs := rfl
@[simp] theorem State.noteIssue_groups (s : State) : (s.noteIssue).groups = s.groups := rfl
@[simp] theorem State.noteIssue_routes (s : State) : (s.noteIssue).routes = s.routes := rfl
@[simp] theorem State.noteIssue_prefixes (s : State) : (s.noteIssue).prefixes = s.prefixes := rfl
@[simp] theorem State.noteIssue_links (s : State) : (s.noteIssue).links = s.links := rfl
@[simp] theorem State.noteIssue_ports (s : State) : (s.noteIssue).ports = s.ports := rfl
@[simp] theorem State.noteIssue_sites (s : State) : (s.noteIssue).sites = s.sites := rfl
@[simp] theorem State.noteIssue_energyRem (s : State) : (s.noteIssue).energyRem = s.energyRem := rfl
@[simp] theorem State.noteIssue_tileCycles (s : State) : (s.noteIssue).tileCycles = s.tileCycles := rfl
@[simp] theorem State.noteIssue_wire (s : State) : (s.noteIssue).wire = s.wire := rfl
@[simp] theorem State.noteIssue_msix (s : State) : (s.noteIssue).msix = s.msix := rfl
@[simp] theorem State.reg_of_noteIssue (s : State) (b : Nat) : (s.noteIssue).reg b = s.reg b := rfl
@[simp] theorem State.ctx_of_noteIssue (s : State) (b : Nat) : (s.noteIssue).ctx b = s.ctx b := rfl
@[simp] theorem State.die_of_noteIssue (s : State) (b : Nat) : (s.noteIssue).die b = s.die b := rfl
@[simp] theorem State.rafter_of_noteIssue (s : State) (b : Nat) : (s.noteIssue).rafter b = s.rafter b := rfl
@[simp] theorem State.port_of_noteIssue (s : State) (b : Nat) : (s.noteIssue).port b = s.port b := rfl
@[simp] theorem State.link_of_noteIssue (s : State) (b : Nat) : (s.noteIssue).link b = s.link b := rfl
@[simp] theorem State.site_of_noteIssue (s : State) (b : Nat) : (s.noteIssue).site b = s.site b := rfl
@[simp] theorem State.now_of_noteIssue (s : State) : (s.noteIssue).now = s.now := rfl

/-! ## noteOrder -/

@[simp] theorem State.noteOrder_pending (s : State) (k : OrderKey) (n : Nat) : (s.noteOrder k n).pending = s.pending := rfl
@[simp] theorem State.noteOrder_tb (s : State) (k : OrderKey) (n : Nat) : (s.noteOrder k n).tb = s.tb := rfl
@[simp] theorem State.noteOrder_regs (s : State) (k : OrderKey) (n : Nat) : (s.noteOrder k n).regs = s.regs := rfl
@[simp] theorem State.noteOrder_pwrEn (s : State) (k : OrderKey) (n : Nat) : (s.noteOrder k n).pwrEn = s.pwrEn := rfl
@[simp] theorem State.noteOrder_pwrgd (s : State) (k : OrderKey) (n : Nat) : (s.noteOrder k n).pwrgd = s.pwrgd := rfl
@[simp] theorem State.noteOrder_perstA (s : State) (k : OrderKey) (n : Nat) : (s.noteOrder k n).perstA = s.perstA := rfl
@[simp] theorem State.noteOrder_perstB (s : State) (k : OrderKey) (n : Nat) : (s.noteOrder k n).perstB = s.perstB := rfl
@[simp] theorem State.noteOrder_linkA (s : State) (k : OrderKey) (n : Nat) : (s.noteOrder k n).linkA = s.linkA := rfl
@[simp] theorem State.noteOrder_linkB (s : State) (k : OrderKey) (n : Nat) : (s.noteOrder k n).linkB = s.linkB := rfl
@[simp] theorem State.noteOrder_rrs (s : State) (k : OrderKey) (n : Nat) : (s.noteOrder k n).rrs = s.rrs := rfl
@[simp] theorem State.noteOrder_ppsPulses (s : State) (k : OrderKey) (n : Nat) : (s.noteOrder k n).ppsPulses = s.ppsPulses := rfl
@[simp] theorem State.noteOrder_late (s : State) (k : OrderKey) (n : Nat) : (s.noteOrder k n).late = s.late := rfl
@[simp] theorem State.noteOrder_hostLanesA (s : State) (k : OrderKey) (n : Nat) : (s.noteOrder k n).hostLanesA = s.hostLanesA := rfl
@[simp] theorem State.noteOrder_hostLanesB (s : State) (k : OrderKey) (n : Nat) : (s.noteOrder k n).hostLanesB = s.hostLanesB := rfl
@[simp] theorem State.noteOrder_fusedSpares (s : State) (k : OrderKey) (n : Nat) : (s.noteOrder k n).fusedSpares = s.fusedSpares := rfl
@[simp] theorem State.noteOrder_routers (s : State) (k : OrderKey) (n : Nat) : (s.noteOrder k n).routers = s.routers := rfl
@[simp] theorem State.noteOrder_turns (s : State) (k : OrderKey) (n : Nat) : (s.noteOrder k n).turns = s.turns := rfl
@[simp] theorem State.noteOrder_strandFaults (s : State) (k : OrderKey) (n : Nat) : (s.noteOrder k n).strandFaults = s.strandFaults := rfl
@[simp] theorem State.noteOrder_unsent (s : State) (k : OrderKey) (n : Nat) : (s.noteOrder k n).unsent = s.unsent := rfl
@[simp] theorem State.noteOrder_refreshAt (s : State) (k : OrderKey) (n : Nat) : (s.noteOrder k n).refreshAt = s.refreshAt := rfl
@[simp] theorem State.noteOrder_periodAt (s : State) (k : OrderKey) (n : Nat) : (s.noteOrder k n).periodAt = s.periodAt := rfl
@[simp] theorem State.noteOrder_upsets (s : State) (k : OrderKey) (n : Nat) : (s.noteOrder k n).upsets = s.upsets := rfl
@[simp] theorem State.noteOrder_tapUnlocked (s : State) (k : OrderKey) (n : Nat) : (s.noteOrder k n).tapUnlocked = s.tapUnlocked := rfl
@[simp] theorem State.noteOrder_i3cA (s : State) (k : OrderKey) (n : Nat) : (s.noteOrder k n).i3cA = s.i3cA := rfl
@[simp] theorem State.noteOrder_i3cB (s : State) (k : OrderKey) (n : Nat) : (s.noteOrder k n).i3cB = s.i3cB := rfl
@[simp] theorem State.noteOrder_thermtrip (s : State) (k : OrderKey) (n : Nat) : (s.noteOrder k n).thermtrip = s.thermtrip := rfl
@[simp] theorem State.noteOrder_below (s : State) (k : OrderKey) (n : Nat) : (s.noteOrder k n).below = s.below := rfl
@[simp] theorem State.noteOrder_above (s : State) (k : OrderKey) (n : Nat) : (s.noteOrder k n).above = s.above := rfl
@[simp] theorem State.noteOrder_entered (s : State) (k : OrderKey) (n : Nat) : (s.noteOrder k n).entered = s.entered := rfl
@[simp] theorem State.noteOrder_bufLimited (s : State) (k : OrderKey) (n : Nat) : (s.noteOrder k n).bufLimited = s.bufLimited := rfl
@[simp] theorem State.noteOrder_halted (s : State) (k : OrderKey) (n : Nat) : (s.noteOrder k n).halted = s.halted := rfl
@[simp] theorem State.noteOrder_haltSpans (s : State) (k : OrderKey) (n : Nat) : (s.noteOrder k n).haltSpans = s.haltSpans := rfl
@[simp] theorem State.noteOrder_haltSince (s : State) (k : OrderKey) (n : Nat) : (s.noteOrder k n).haltSince = s.haltSince := rfl
@[simp] theorem State.noteOrder_keepAlive (s : State) (k : OrderKey) (n : Nat) : (s.noteOrder k n).keepAlive = s.keepAlive := rfl
@[simp] theorem State.noteOrder_selfRefresh (s : State) (k : OrderKey) (n : Nat) : (s.noteOrder k n).selfRefresh = s.selfRefresh := rfl
@[simp] theorem State.noteOrder_shutdown (s : State) (k : OrderKey) (n : Nat) : (s.noteOrder k n).shutdown = s.shutdown := rfl
@[simp] theorem State.noteOrder_divPend (s : State) (k : OrderKey) (n : Nat) : (s.noteOrder k n).divPend = s.divPend := rfl
@[simp] theorem State.noteOrder_psTarget (s : State) (k : OrderKey) (n : Nat) : (s.noteOrder k n).psTarget = s.psTarget := rfl
@[simp] theorem State.noteOrder_pstate (s : State) (k : OrderKey) (n : Nat) : (s.noteOrder k n).pstate = s.pstate := rfl
@[simp] theorem State.noteOrder_takeoverActive (s : State) (k : OrderKey) (n : Nat) : (s.noteOrder k n).takeoverActive = s.takeoverActive := rfl
@[simp] theorem State.noteOrder_faultWins (s : State) (k : OrderKey) (n : Nat) : (s.noteOrder k n).faultWins = s.faultWins := rfl
@[simp] theorem State.noteOrder_flashA (s : State) (k : OrderKey) (n : Nat) : (s.noteOrder k n).flashA = s.flashA := rfl
@[simp] theorem State.noteOrder_flashB (s : State) (k : OrderKey) (n : Nat) : (s.noteOrder k n).flashB = s.flashB := rfl
@[simp] theorem State.noteOrder_warmActive (s : State) (k : OrderKey) (n : Nat) : (s.noteOrder k n).warmActive = s.warmActive := rfl
@[simp] theorem State.noteOrder_roleB (s : State) (k : OrderKey) (n : Nat) : (s.noteOrder k n).roleB = s.roleB := rfl
@[simp] theorem State.noteOrder_ptpLocked (s : State) (k : OrderKey) (n : Nat) : (s.noteOrder k n).ptpLocked = s.ptpLocked := rfl
@[simp] theorem State.noteOrder_assetWritten (s : State) (k : OrderKey) (n : Nat) : (s.noteOrder k n).assetWritten = s.assetWritten := rfl
@[simp] theorem State.noteOrder_mgmtCmds (s : State) (k : OrderKey) (n : Nat) : (s.noteOrder k n).mgmtCmds = s.mgmtCmds := rfl
@[simp] theorem State.noteOrder_pfHeldA (s : State) (k : OrderKey) (n : Nat) : (s.noteOrder k n).pfHeldA = s.pfHeldA := rfl
@[simp] theorem State.noteOrder_pfHeldB (s : State) (k : OrderKey) (n : Nat) : (s.noteOrder k n).pfHeldB = s.pfHeldB := rfl
@[simp] theorem State.noteOrder_pfMailA (s : State) (k : OrderKey) (n : Nat) : (s.noteOrder k n).pfMailA = s.pfMailA := rfl
@[simp] theorem State.noteOrder_pfMailB (s : State) (k : OrderKey) (n : Nat) : (s.noteOrder k n).pfMailB = s.pfMailB := rfl
@[simp] theorem State.noteOrder_pfAckA (s : State) (k : OrderKey) (n : Nat) : (s.noteOrder k n).pfAckA = s.pfAckA := rfl
@[simp] theorem State.noteOrder_pfAckB (s : State) (k : OrderKey) (n : Nat) : (s.noteOrder k n).pfAckB = s.pfAckB := rfl
@[simp] theorem State.noteOrder_pfPhaseA (s : State) (k : OrderKey) (n : Nat) : (s.noteOrder k n).pfPhaseA = s.pfPhaseA := rfl
@[simp] theorem State.noteOrder_pfPhaseB (s : State) (k : OrderKey) (n : Nat) : (s.noteOrder k n).pfPhaseB = s.pfPhaseB := rfl
@[simp] theorem State.noteOrder_dies (s : State) (k : OrderKey) (n : Nat) : (s.noteOrder k n).dies = s.dies := rfl
@[simp] theorem State.noteOrder_rafters (s : State) (k : OrderKey) (n : Nat) : (s.noteOrder k n).rafters = s.rafters := rfl
@[simp] theorem State.noteOrder_ceCount (s : State) (k : OrderKey) (n : Nat) : (s.noteOrder k n).ceCount = s.ceCount := rfl
@[simp] theorem State.noteOrder_replayCount (s : State) (k : OrderKey) (n : Nat) : (s.noteOrder k n).replayCount = s.replayCount := rfl
@[simp] theorem State.noteOrder_flitCount (s : State) (k : OrderKey) (n : Nat) : (s.noteOrder k n).flitCount = s.flitCount := rfl
@[simp] theorem State.noteOrder_memTemp (s : State) (k : OrderKey) (n : Nat) : (s.noteOrder k n).memTemp = s.memTemp := rfl
@[simp] theorem State.noteOrder_refreshes (s : State) (k : OrderKey) (n : Nat) : (s.noteOrder k n).refreshes = s.refreshes := rfl
@[simp] theorem State.noteOrder_bands (s : State) (k : OrderKey) (n : Nat) : (s.noteOrder k n).bands = s.bands := rfl
@[simp] theorem State.noteOrder_mem (s : State) (k : OrderKey) (n : Nat) : (s.noteOrder k n).mem = s.mem := rfl
@[simp] theorem State.noteOrder_poison (s : State) (k : OrderKey) (n : Nat) : (s.noteOrder k n).poison = s.poison := rfl
@[simp] theorem State.noteOrder_cache (s : State) (k : OrderKey) (n : Nat) : (s.noteOrder k n).cache = s.cache := rfl
@[simp] theorem State.noteOrder_rereads (s : State) (k : OrderKey) (n : Nat) : (s.noteOrder k n).rereads = s.rereads := rfl
@[simp] theorem State.noteOrder_scratch (s : State) (k : OrderKey) (n : Nat) : (s.noteOrder k n).scratch = s.scratch := rfl
@[simp] theorem State.noteOrder_scratchPoison (s : State) (k : OrderKey) (n : Nat) : (s.noteOrder k n).scratchPoison = s.scratchPoison := rfl
@[simp] theorem State.noteOrder_hostMem (s : State) (k : OrderKey) (n : Nat) : (s.noteOrder k n).hostMem = s.hostMem := rfl
@[simp] theorem State.noteOrder_images (s : State) (k : OrderKey) (n : Nat) : (s.noteOrder k n).images = s.images := rfl
@[simp] theorem State.noteOrder_ligger (s : State) (k : OrderKey) (n : Nat) : (s.noteOrder k n).ligger = s.ligger := rfl
@[simp] theorem State.noteOrder_ctxs (s : State) (k : OrderKey) (n : Nat) : (s.noteOrder k n).ctxs = s.ctxs := rfl
@[simp] theorem State.noteOrder_groups (s : State) (k : OrderKey) (n : Nat) : (s.noteOrder k n).groups = s.groups := rfl
@[simp] theorem State.noteOrder_routes (s : State) (k : OrderKey) (n : Nat) : (s.noteOrder k n).routes = s.routes := rfl
@[simp] theorem State.noteOrder_prefixes (s : State) (k : OrderKey) (n : Nat) : (s.noteOrder k n).prefixes = s.prefixes := rfl
@[simp] theorem State.noteOrder_links (s : State) (k : OrderKey) (n : Nat) : (s.noteOrder k n).links = s.links := rfl
@[simp] theorem State.noteOrder_ports (s : State) (k : OrderKey) (n : Nat) : (s.noteOrder k n).ports = s.ports := rfl
@[simp] theorem State.noteOrder_sites (s : State) (k : OrderKey) (n : Nat) : (s.noteOrder k n).sites = s.sites := rfl
@[simp] theorem State.noteOrder_energyRem (s : State) (k : OrderKey) (n : Nat) : (s.noteOrder k n).energyRem = s.energyRem := rfl
@[simp] theorem State.noteOrder_tileCycles (s : State) (k : OrderKey) (n : Nat) : (s.noteOrder k n).tileCycles = s.tileCycles := rfl
@[simp] theorem State.noteOrder_wire (s : State) (k : OrderKey) (n : Nat) : (s.noteOrder k n).wire = s.wire := rfl
@[simp] theorem State.noteOrder_msix (s : State) (k : OrderKey) (n : Nat) : (s.noteOrder k n).msix = s.msix := rfl
@[simp] theorem State.reg_of_noteOrder (s : State) (k : OrderKey) (n : Nat) (b : Nat) : (s.noteOrder k n).reg b = s.reg b := rfl
@[simp] theorem State.ctx_of_noteOrder (s : State) (k : OrderKey) (n : Nat) (b : Nat) : (s.noteOrder k n).ctx b = s.ctx b := rfl
@[simp] theorem State.die_of_noteOrder (s : State) (k : OrderKey) (n : Nat) (b : Nat) : (s.noteOrder k n).die b = s.die b := rfl
@[simp] theorem State.rafter_of_noteOrder (s : State) (k : OrderKey) (n : Nat) (b : Nat) : (s.noteOrder k n).rafter b = s.rafter b := rfl
@[simp] theorem State.port_of_noteOrder (s : State) (k : OrderKey) (n : Nat) (b : Nat) : (s.noteOrder k n).port b = s.port b := rfl
@[simp] theorem State.link_of_noteOrder (s : State) (k : OrderKey) (n : Nat) (b : Nat) : (s.noteOrder k n).link b = s.link b := rfl
@[simp] theorem State.site_of_noteOrder (s : State) (k : OrderKey) (n : Nat) (b : Nat) : (s.noteOrder k n).site b = s.site b := rfl
@[simp] theorem State.now_of_noteOrder (s : State) (k : OrderKey) (n : Nat) : (s.noteOrder k n).now = s.now := rfl

/-! ## post -/

@[simp] theorem State.post_pending (s : State) (i : Instr) : (s.post i).pending = s.pending := rfl
@[simp] theorem State.post_tb (s : State) (i : Instr) : (s.post i).tb = s.tb := rfl
@[simp] theorem State.post_regs (s : State) (i : Instr) : (s.post i).regs = s.regs := rfl
@[simp] theorem State.post_pwrEn (s : State) (i : Instr) : (s.post i).pwrEn = s.pwrEn := rfl
@[simp] theorem State.post_pwrgd (s : State) (i : Instr) : (s.post i).pwrgd = s.pwrgd := rfl
@[simp] theorem State.post_perstA (s : State) (i : Instr) : (s.post i).perstA = s.perstA := rfl
@[simp] theorem State.post_perstB (s : State) (i : Instr) : (s.post i).perstB = s.perstB := rfl
@[simp] theorem State.post_linkA (s : State) (i : Instr) : (s.post i).linkA = s.linkA := rfl
@[simp] theorem State.post_linkB (s : State) (i : Instr) : (s.post i).linkB = s.linkB := rfl
@[simp] theorem State.post_rrs (s : State) (i : Instr) : (s.post i).rrs = s.rrs := rfl
@[simp] theorem State.post_ppsPulses (s : State) (i : Instr) : (s.post i).ppsPulses = s.ppsPulses := rfl
@[simp] theorem State.post_cycle (s : State) (i : Instr) : (s.post i).cycle = s.cycle := rfl
@[simp] theorem State.post_hostLanesA (s : State) (i : Instr) : (s.post i).hostLanesA = s.hostLanesA := rfl
@[simp] theorem State.post_hostLanesB (s : State) (i : Instr) : (s.post i).hostLanesB = s.hostLanesB := rfl
@[simp] theorem State.post_fusedSpares (s : State) (i : Instr) : (s.post i).fusedSpares = s.fusedSpares := rfl
@[simp] theorem State.post_routers (s : State) (i : Instr) : (s.post i).routers = s.routers := rfl
@[simp] theorem State.post_turns (s : State) (i : Instr) : (s.post i).turns = s.turns := rfl
@[simp] theorem State.post_strandFaults (s : State) (i : Instr) : (s.post i).strandFaults = s.strandFaults := rfl
@[simp] theorem State.post_unsent (s : State) (i : Instr) : (s.post i).unsent = s.unsent := rfl
@[simp] theorem State.post_refreshAt (s : State) (i : Instr) : (s.post i).refreshAt = s.refreshAt := rfl
@[simp] theorem State.post_periodAt (s : State) (i : Instr) : (s.post i).periodAt = s.periodAt := rfl
@[simp] theorem State.post_upsets (s : State) (i : Instr) : (s.post i).upsets = s.upsets := rfl
@[simp] theorem State.post_tapUnlocked (s : State) (i : Instr) : (s.post i).tapUnlocked = s.tapUnlocked := rfl
@[simp] theorem State.post_i3cA (s : State) (i : Instr) : (s.post i).i3cA = s.i3cA := rfl
@[simp] theorem State.post_i3cB (s : State) (i : Instr) : (s.post i).i3cB = s.i3cB := rfl
@[simp] theorem State.post_thermtrip (s : State) (i : Instr) : (s.post i).thermtrip = s.thermtrip := rfl
@[simp] theorem State.post_below (s : State) (i : Instr) : (s.post i).below = s.below := rfl
@[simp] theorem State.post_above (s : State) (i : Instr) : (s.post i).above = s.above := rfl
@[simp] theorem State.post_entered (s : State) (i : Instr) : (s.post i).entered = s.entered := rfl
@[simp] theorem State.post_bufLimited (s : State) (i : Instr) : (s.post i).bufLimited = s.bufLimited := rfl
@[simp] theorem State.post_halted (s : State) (i : Instr) : (s.post i).halted = s.halted := rfl
@[simp] theorem State.post_haltSpans (s : State) (i : Instr) : (s.post i).haltSpans = s.haltSpans := rfl
@[simp] theorem State.post_haltSince (s : State) (i : Instr) : (s.post i).haltSince = s.haltSince := rfl
@[simp] theorem State.post_keepAlive (s : State) (i : Instr) : (s.post i).keepAlive = s.keepAlive := rfl
@[simp] theorem State.post_selfRefresh (s : State) (i : Instr) : (s.post i).selfRefresh = s.selfRefresh := rfl
@[simp] theorem State.post_shutdown (s : State) (i : Instr) : (s.post i).shutdown = s.shutdown := rfl
@[simp] theorem State.post_divPend (s : State) (i : Instr) : (s.post i).divPend = s.divPend := rfl
@[simp] theorem State.post_psTarget (s : State) (i : Instr) : (s.post i).psTarget = s.psTarget := rfl
@[simp] theorem State.post_pstate (s : State) (i : Instr) : (s.post i).pstate = s.pstate := rfl
@[simp] theorem State.post_takeoverActive (s : State) (i : Instr) : (s.post i).takeoverActive = s.takeoverActive := rfl
@[simp] theorem State.post_faultWins (s : State) (i : Instr) : (s.post i).faultWins = s.faultWins := rfl
@[simp] theorem State.post_flashA (s : State) (i : Instr) : (s.post i).flashA = s.flashA := rfl
@[simp] theorem State.post_flashB (s : State) (i : Instr) : (s.post i).flashB = s.flashB := rfl
@[simp] theorem State.post_warmActive (s : State) (i : Instr) : (s.post i).warmActive = s.warmActive := rfl
@[simp] theorem State.post_roleB (s : State) (i : Instr) : (s.post i).roleB = s.roleB := rfl
@[simp] theorem State.post_ptpLocked (s : State) (i : Instr) : (s.post i).ptpLocked = s.ptpLocked := rfl
@[simp] theorem State.post_assetWritten (s : State) (i : Instr) : (s.post i).assetWritten = s.assetWritten := rfl
@[simp] theorem State.post_mgmtCmds (s : State) (i : Instr) : (s.post i).mgmtCmds = s.mgmtCmds := rfl
@[simp] theorem State.post_pfHeldA (s : State) (i : Instr) : (s.post i).pfHeldA = s.pfHeldA := rfl
@[simp] theorem State.post_pfHeldB (s : State) (i : Instr) : (s.post i).pfHeldB = s.pfHeldB := rfl
@[simp] theorem State.post_pfMailA (s : State) (i : Instr) : (s.post i).pfMailA = s.pfMailA := rfl
@[simp] theorem State.post_pfMailB (s : State) (i : Instr) : (s.post i).pfMailB = s.pfMailB := rfl
@[simp] theorem State.post_pfAckA (s : State) (i : Instr) : (s.post i).pfAckA = s.pfAckA := rfl
@[simp] theorem State.post_pfAckB (s : State) (i : Instr) : (s.post i).pfAckB = s.pfAckB := rfl
@[simp] theorem State.post_pfPhaseA (s : State) (i : Instr) : (s.post i).pfPhaseA = s.pfPhaseA := rfl
@[simp] theorem State.post_pfPhaseB (s : State) (i : Instr) : (s.post i).pfPhaseB = s.pfPhaseB := rfl
@[simp] theorem State.post_dies (s : State) (i : Instr) : (s.post i).dies = s.dies := rfl
@[simp] theorem State.post_rafters (s : State) (i : Instr) : (s.post i).rafters = s.rafters := rfl
@[simp] theorem State.post_ceCount (s : State) (i : Instr) : (s.post i).ceCount = s.ceCount := rfl
@[simp] theorem State.post_replayCount (s : State) (i : Instr) : (s.post i).replayCount = s.replayCount := rfl
@[simp] theorem State.post_flitCount (s : State) (i : Instr) : (s.post i).flitCount = s.flitCount := rfl
@[simp] theorem State.post_memTemp (s : State) (i : Instr) : (s.post i).memTemp = s.memTemp := rfl
@[simp] theorem State.post_refreshes (s : State) (i : Instr) : (s.post i).refreshes = s.refreshes := rfl
@[simp] theorem State.post_bands (s : State) (i : Instr) : (s.post i).bands = s.bands := rfl
@[simp] theorem State.post_mem (s : State) (i : Instr) : (s.post i).mem = s.mem := rfl
@[simp] theorem State.post_poison (s : State) (i : Instr) : (s.post i).poison = s.poison := rfl
@[simp] theorem State.post_cache (s : State) (i : Instr) : (s.post i).cache = s.cache := rfl
@[simp] theorem State.post_rereads (s : State) (i : Instr) : (s.post i).rereads = s.rereads := rfl
@[simp] theorem State.post_scratch (s : State) (i : Instr) : (s.post i).scratch = s.scratch := rfl
@[simp] theorem State.post_scratchPoison (s : State) (i : Instr) : (s.post i).scratchPoison = s.scratchPoison := rfl
@[simp] theorem State.post_hostMem (s : State) (i : Instr) : (s.post i).hostMem = s.hostMem := rfl
@[simp] theorem State.post_images (s : State) (i : Instr) : (s.post i).images = s.images := rfl
@[simp] theorem State.post_ligger (s : State) (i : Instr) : (s.post i).ligger = s.ligger := rfl
@[simp] theorem State.post_ctxs (s : State) (i : Instr) : (s.post i).ctxs = s.ctxs := rfl
@[simp] theorem State.post_groups (s : State) (i : Instr) : (s.post i).groups = s.groups := rfl
@[simp] theorem State.post_routes (s : State) (i : Instr) : (s.post i).routes = s.routes := rfl
@[simp] theorem State.post_prefixes (s : State) (i : Instr) : (s.post i).prefixes = s.prefixes := rfl
@[simp] theorem State.post_links (s : State) (i : Instr) : (s.post i).links = s.links := rfl
@[simp] theorem State.post_ports (s : State) (i : Instr) : (s.post i).ports = s.ports := rfl
@[simp] theorem State.post_sites (s : State) (i : Instr) : (s.post i).sites = s.sites := rfl
@[simp] theorem State.post_energyRem (s : State) (i : Instr) : (s.post i).energyRem = s.energyRem := rfl
@[simp] theorem State.post_tileCycles (s : State) (i : Instr) : (s.post i).tileCycles = s.tileCycles := rfl
@[simp] theorem State.post_wire (s : State) (i : Instr) : (s.post i).wire = s.wire := rfl
@[simp] theorem State.post_msix (s : State) (i : Instr) : (s.post i).msix = s.msix := rfl
@[simp] theorem State.reg_of_post (s : State) (i : Instr) (b : Nat) : (s.post i).reg b = s.reg b := rfl
@[simp] theorem State.ctx_of_post (s : State) (i : Instr) (b : Nat) : (s.post i).ctx b = s.ctx b := rfl
@[simp] theorem State.die_of_post (s : State) (i : Instr) (b : Nat) : (s.post i).die b = s.die b := rfl
@[simp] theorem State.rafter_of_post (s : State) (i : Instr) (b : Nat) : (s.post i).rafter b = s.rafter b := rfl
@[simp] theorem State.port_of_post (s : State) (i : Instr) (b : Nat) : (s.post i).port b = s.port b := rfl
@[simp] theorem State.link_of_post (s : State) (i : Instr) (b : Nat) : (s.post i).link b = s.link b := rfl
@[simp] theorem State.site_of_post (s : State) (i : Instr) (b : Nat) : (s.post i).site b = s.site b := rfl
@[simp] theorem State.now_of_post (s : State) (i : Instr) : (s.post i).now = s.now := rfl

/-! ## Derived updates in their plain form -/

@[simp] theorem State.modCtx_eq (s : State) (c : Nat) (f : Ctx → Ctx) : s.modCtx c f = s.setCtx c (f (s.ctx c)) := rfl
@[simp] theorem State.modTile_eq (s : State) (c t : Nat) (f : Tile → Tile) : s.modTile c t f = s.setCtx c ((s.ctx c).modTile t f) := rfl
@[simp] theorem State.wf_eq (s : State) (a hi lo v : Nat) : s.wf a hi lo v = s.setReg a (ins (s.reg a) hi lo v) := rfl
@[simp] theorem State.cw_eq (s : State) (c off hi lo v : Nat) : s.cw c off hi lo v = s.wf (ctxA c off) hi lo v := rfl
@[simp] theorem State.sat_eq (s : State) (a hi lo n : Nat) :
    s.sat a hi lo n = (s.wf a hi lo (satPlus (hi + 1 - lo) (s.rf a hi lo) n)).noteCount a lo (s.countedIn a lo + n) := rfl
@[simp] theorem State.cSat_eq (s : State) (c off hi lo n : Nat) : s.cSat c off hi lo n = s.sat (ctxA c off) hi lo n := rfl
@[simp] theorem State.wrap_eq (s : State) (a hi lo n : Nat) : s.wrap a hi lo n =
    (s.wf a hi lo (s.rf a hi lo + n)).noteCount a lo (s.countedIn a lo + n) := rfl
@[simp] theorem State.cWrap_eq (s : State) (c off hi lo n : Nat) : s.cWrap c off hi lo n = s.wrap (ctxA c off) hi lo n := rfl
@[simp] theorem State.maxF_eq (s : State) (a hi lo v : Nat) : s.maxF a hi lo v =
    (s.wf a hi lo (max (s.rf a hi lo) v)).noteCount a lo (max (s.countedIn a lo) v) := rfl
@[simp] theorem State.cf_eq (s : State) (c off hi lo : Nat) : s.cf c off hi lo = s.rf (ctxA c off) hi lo := rfl
@[simp] theorem State.rf_eq (s : State) (a hi lo : Nat) : s.rf a hi lo = fld (s.reg a) hi lo := rfl

/-! ## Reading after an update -/

/-- A register after a write: the value at its home address, every other register as before. -/
theorem State.reg_setReg (s : State) (a b : Nat) (w : Word) :
    (s.setReg a w).reg b = if homeAddr b = homeAddr a then w else s.reg b := by
  unfold State.reg State.setReg
  by_cases h : homeAddr b = homeAddr a
  · simp [h]
  · simp only [h, if_false, Table.getD, Table.put]
    split <;> simp [Table.get?_erase, Table.get?_set, h]

@[simp] theorem State.reg_setReg_self (s : State) (a : Nat) (w : Word) : (s.setReg a w).reg a = w := by simp [State.reg_setReg]

theorem State.reg_setReg_ne (s : State) {a b : Nat} (w : Word) (h : homeAddr b ≠ homeAddr a) : (s.setReg a w).reg b = s.reg b := by
  simp [State.reg_setReg, h]

/-- A context after a write of one. -/
theorem State.ctx_setCtx (s : State) (c d : Nat) (x : Ctx) : (s.setCtx c x).ctx d = if d = c then x else s.ctx d := by
  unfold State.ctx State.setCtx
  simp only [Table.getD_put]

@[simp] theorem State.ctx_setCtx_self (s : State) (c : Nat) (x : Ctx) : (s.setCtx c x).ctx c = x := by simp [State.ctx_setCtx]

theorem State.die_modDie (s : State) (d e : Nat) (f : Die → Die) : (s.modDie d f).die e = if e = d then f (s.die d) else s.die e := by
  unfold State.modDie State.die
  simp only [Table.getD_put]

@[simp] theorem State.die_modDie_self (s : State) (d : Nat) (f : Die → Die) : (s.modDie d f).die d = f (s.die d) := by simp [State.die_modDie]

theorem State.rafter_modRafter (s : State) (r q : Nat) (f : Rafter → Rafter) :
    (s.modRafter r f).rafter q = if q = r then f (s.rafter r) else s.rafter q := by
  unfold State.modRafter State.rafter
  simp only [Table.getD_put]

@[simp] theorem State.rafter_modRafter_self (s : State) (r : Nat) (f : Rafter → Rafter) : (s.modRafter r f).rafter r = f (s.rafter r) := by
  simp [State.rafter_modRafter]

theorem State.port_modPort (s : State) (p q : Nat) (f : Port → Port) :
    (s.modPort p f).port q = if q = p then f (s.port p) else s.port q := by
  unfold State.modPort State.port
  simp only [Table.getD_put]

@[simp] theorem State.port_modPort_self (s : State) (p : Nat) (f : Port → Port) : (s.modPort p f).port p = f (s.port p) := by
  simp [State.port_modPort]

theorem State.link_modLink (s : State) (k j : Nat) (f : Link → Link) :
    (s.modLink k f).link j = if j = k then f (s.link k) else s.link j := by
  unfold State.modLink State.link
  simp only [Table.getD_put]

@[simp] theorem State.link_modLink_self (s : State) (k : Nat) (f : Link → Link) : (s.modLink k f).link k = f (s.link k) := by
  simp [State.link_modLink]

theorem State.site_modSite (s : State) (i j : Nat) (f : Site → Site) :
    (s.modSite i f).site j = if j = i then f (s.site i) else s.site j := by
  unfold State.modSite State.site
  simp only [Table.getD_put]

@[simp] theorem State.site_modSite_self (s : State) (i : Nat) (f : Site → Site) : (s.modSite i f).site i = f (s.site i) := by
  simp [State.site_modSite]

/-- A tile of a context after a change of one. -/
theorem Ctx.tile_modTile (x : Ctx) (t u : Nat) (f : Tile → Tile) :
    Table.getD Tile.init (x.modTile t f).tiles u =
      if u = t then f (Table.getD Tile.init x.tiles t) else Table.getD Tile.init x.tiles u := by
  unfold Ctx.modTile
  simp only [Table.getD_put]

@[simp] theorem State.tile_modTile_self (s : State) (c t : Nat) (f : Tile → Tile) : (s.modTile c t f).tile c t = f (s.tile c t) := by
  simp [State.tile, Ctx.tile_modTile]

theorem State.tile_modTile (s : State) (c t d u : Nat) (f : Tile → Tile) :
    (s.modTile c t f).tile d u = if d = c ∧ u = t then f (s.tile c t) else s.tile d u := by
  unfold State.tile State.modTile
  by_cases hc : d = c
  · subst hc
    simp [Ctx.tile_modTile]
  · simp [hc, State.ctx_setCtx]

/-! ## Bit fields -/

theorem bits_lt (n hi lo : Nat) : bits n hi lo < 2 ^ (hi + 1 - lo) := Nat.mod_lt _ (by positivity)

/-- The part of a number that a field stands on. -/
theorem bits_split (n hi lo : Nat) (h : lo ≤ hi) :
    n = n / 2 ^ (hi + 1) * 2 ^ (hi + 1) + bits n hi lo * 2 ^ lo + n % 2 ^ lo := by
  unfold bits
  have e : (2 : Nat) ^ (hi + 1) = 2 ^ lo * 2 ^ (hi + 1 - lo) := by rw [← pow_add]; congr 1; omega
  have h1 := Nat.div_add_mod n (2 ^ lo)
  have h2 := Nat.div_add_mod (n / 2 ^ lo) (2 ^ (hi + 1 - lo))
  have h3 : n / 2 ^ (hi + 1) = n / 2 ^ lo / 2 ^ (hi + 1 - lo) := by rw [e, Nat.div_div_eq_div_mul]
  rw [h3]
  calc n = 2 ^ lo * (2 ^ (hi + 1 - lo) * (n / 2 ^ lo / 2 ^ (hi + 1 - lo)) + n / 2 ^ lo % 2 ^ (hi + 1 - lo)) + n % 2 ^ lo := by
        rw [h2, h1]
    _ = _ := by rw [e]; ring

/-- A register after a field of it is replaced, as a number. -/
theorem ins_toNat (w : Word) (hi lo v : Nat) (h : lo ≤ hi) (h64 : hi < 64) :
    (ins w hi lo v).toNat = w.toNat / 2 ^ (hi + 1) * 2 ^ (hi + 1) + v % 2 ^ (hi + 1 - lo) * 2 ^ lo + w.toNat % 2 ^ lo := by
  have hs := bits_split w.toNat hi lo h
  have hv : v % 2 ^ (hi + 1 - lo) < 2 ^ (hi + 1 - lo) := Nat.mod_lt _ (by positivity)
  have hl : w.toNat % 2 ^ lo < 2 ^ lo := Nat.mod_lt _ (by positivity)
  have e : (2 : Nat) ^ (hi + 1) = 2 ^ (hi + 1 - lo) * 2 ^ lo := by rw [← pow_add]; congr 1; omega
  have e64 : (2 : Nat) ^ 64 = 2 ^ (63 - hi) * 2 ^ (hi + 1) := by rw [← pow_add]; congr 1; omega
  have hw := w.isLt
  have hq : w.toNat / 2 ^ (hi + 1) < 2 ^ (63 - hi) := by
    rw [Nat.div_lt_iff_lt_mul (by positivity), ← e64]; exact hw
  have hlow : v % 2 ^ (hi + 1 - lo) * 2 ^ lo + w.toNat % 2 ^ lo < 2 ^ (hi + 1) := by
    rw [e]
    calc v % 2 ^ (hi + 1 - lo) * 2 ^ lo + w.toNat % 2 ^ lo
        < v % 2 ^ (hi + 1 - lo) * 2 ^ lo + 2 ^ lo := by omega
      _ = (v % 2 ^ (hi + 1 - lo) + 1) * 2 ^ lo := by ring
      _ ≤ _ := Nat.mul_le_mul_right _ hv
  unfold ins fld
  rw [BitVec.toNat_ofNat]
  have hsub : w.toNat - bits w.toNat hi lo * 2 ^ lo = w.toNat / 2 ^ (hi + 1) * 2 ^ (hi + 1) + w.toNat % 2 ^ lo := by omega
  rw [hsub, Nat.mod_eq_of_lt]
  · omega
  · rw [e64]
    calc w.toNat / 2 ^ (hi + 1) * 2 ^ (hi + 1) + w.toNat % 2 ^ lo + v % 2 ^ (hi + 1 - lo) * 2 ^ lo
        < w.toNat / 2 ^ (hi + 1) * 2 ^ (hi + 1) + 2 ^ (hi + 1) := by omega
      _ = (w.toNat / 2 ^ (hi + 1) + 1) * 2 ^ (hi + 1) := by ring
      _ ≤ _ := Nat.mul_le_mul_right _ hq

/-- A field reads as it was written. -/
theorem fld_ins_self (w : Word) (hi lo v : Nat) (h : lo ≤ hi) (h64 : hi < 64) :
    fld (ins w hi lo v) hi lo = v % 2 ^ (hi + 1 - lo) := by
  unfold fld bits
  rw [ins_toNat w hi lo v h h64]
  have e : (2 : Nat) ^ (hi + 1) = 2 ^ (hi + 1 - lo) * 2 ^ lo := by rw [← pow_add]; congr 1; omega
  have hl : w.toNat % 2 ^ lo < 2 ^ lo := Nat.mod_lt _ (by positivity)
  have : (w.toNat / 2 ^ (hi + 1) * 2 ^ (hi + 1) + v % 2 ^ (hi + 1 - lo) * 2 ^ lo + w.toNat % 2 ^ lo) / 2 ^ lo
      = w.toNat / 2 ^ (hi + 1) * 2 ^ (hi + 1 - lo) + v % 2 ^ (hi + 1 - lo) := by
    rw [e]
    rw [show w.toNat / (2 ^ (hi + 1 - lo) * 2 ^ lo) * (2 ^ (hi + 1 - lo) * 2 ^ lo) + v % 2 ^ (hi + 1 - lo) * 2 ^ lo + w.toNat % 2 ^ lo
      = w.toNat % 2 ^ lo + (w.toNat / (2 ^ (hi + 1 - lo) * 2 ^ lo) * 2 ^ (hi + 1 - lo) + v % 2 ^ (hi + 1 - lo)) * 2 ^ lo by ring]
    rw [Nat.add_mul_div_right _ _ (by positivity), Nat.div_eq_of_lt hl]
    ring
  rw [this, Nat.add_comm, Nat.add_mul_mod_self_right, Nat.mod_mod]

/-- A field above a written one reads as before. -/
theorem fld_ins_above (w : Word) (hi lo v a b : Nat) (h : lo ≤ hi) (h64 : hi < 64) (hb : hi < b) :
    fld (ins w hi lo v) a b = fld w a b := by
  unfold fld bits
  have hlow : v % 2 ^ (hi + 1 - lo) * 2 ^ lo + w.toNat % 2 ^ lo < 2 ^ (hi + 1) := by
    have hv : v % 2 ^ (hi + 1 - lo) < 2 ^ (hi + 1 - lo) := Nat.mod_lt _ (by positivity)
    have hl : w.toNat % 2 ^ lo < 2 ^ lo := Nat.mod_lt _ (by positivity)
    have e : (2 : Nat) ^ (hi + 1) = 2 ^ (hi + 1 - lo) * 2 ^ lo := by rw [← pow_add]; congr 1; omega
    rw [e]
    calc v % 2 ^ (hi + 1 - lo) * 2 ^ lo + w.toNat % 2 ^ lo
        < v % 2 ^ (hi + 1 - lo) * 2 ^ lo + 2 ^ lo := by omega
      _ = (v % 2 ^ (hi + 1 - lo) + 1) * 2 ^ lo := by ring
      _ ≤ _ := Nat.mul_le_mul_right _ hv
  have key : (ins w hi lo v).toNat / 2 ^ (hi + 1) = w.toNat / 2 ^ (hi + 1) := by
    rw [ins_toNat w hi lo v h h64, show w.toNat / 2 ^ (hi + 1) * 2 ^ (hi + 1) + v % 2 ^ (hi + 1 - lo) * 2 ^ lo + w.toNat % 2 ^ lo
      = (v % 2 ^ (hi + 1 - lo) * 2 ^ lo + w.toNat % 2 ^ lo) + w.toNat / 2 ^ (hi + 1) * 2 ^ (hi + 1) by ring,
      Nat.add_mul_div_right _ _ (by positivity), Nat.div_eq_of_lt hlow, Nat.zero_add]
  have e2 : (2 : Nat) ^ b = 2 ^ (hi + 1) * 2 ^ (b - (hi + 1)) := by rw [← pow_add]; congr 1; omega
  rw [e2, ← Nat.div_div_eq_div_mul, key, Nat.div_div_eq_div_mul]

/-- A field below a written one reads as before. -/
theorem fld_ins_below (w : Word) (hi lo v a b : Nat) (h : lo ≤ hi) (h64 : hi < 64) (hba : b ≤ a) (ha : a < lo) :
    fld (ins w hi lo v) a b = fld w a b := by
  have key : (ins w hi lo v).toNat % 2 ^ lo = w.toNat % 2 ^ lo := by
    have e : (2 : Nat) ^ (hi + 1) = 2 ^ (hi + 1 - lo) * 2 ^ lo := by rw [← pow_add]; congr 1; omega
    rw [ins_toNat w hi lo v h h64, e,
      show w.toNat / (2 ^ (hi + 1 - lo) * 2 ^ lo) * (2 ^ (hi + 1 - lo) * 2 ^ lo) + v % 2 ^ (hi + 1 - lo) * 2 ^ lo + w.toNat % 2 ^ lo
      = w.toNat % 2 ^ lo + (w.toNat / (2 ^ (hi + 1 - lo) * 2 ^ lo) * 2 ^ (hi + 1 - lo) + v % 2 ^ (hi + 1 - lo)) * 2 ^ lo by ring,
      Nat.add_mul_mod_self_right, Nat.mod_mod]
  have low (n : Nat) : bits n a b = bits (n % 2 ^ lo) a b := by
    unfold bits
    have e1 : (2 : Nat) ^ lo = 2 ^ (a + 1) * 2 ^ (lo - (a + 1)) := by rw [← pow_add]; congr 1; omega
    have e2 : (2 : Nat) ^ (a + 1) = 2 ^ b * 2 ^ (a + 1 - b) := by rw [← pow_add]; congr 1; omega
    rw [← Nat.mod_mul_right_div_self, ← Nat.mod_mul_right_div_self, ← e2, e1, Nat.mod_mul_right_mod]
  unfold fld
  rw [low, key, ← low]

/-- A part of a written field reads as that part of what was written. -/
theorem fld_ins_inside (w : Word) (hi lo v a b : Nat) (h64 : hi < 64) (hb : lo ≤ b) (hba : b ≤ a) (ha : a ≤ hi) :
    fld (ins w hi lo v) a b = bits v (a - lo) (b - lo) := by
  have h : lo ≤ hi := by omega
  have hs := fld_ins_self w hi lo v h h64
  unfold fld at hs ⊢
  have part (n : Nat) : bits n a b = bits (bits n hi lo) (a - lo) (b - lo) := by
    unfold bits
    have e1 : (2 : Nat) ^ b = 2 ^ lo * 2 ^ (b - lo) := by rw [← pow_add]; congr 1; omega
    have e2 : (2 : Nat) ^ (hi + 1 - lo) = 2 ^ (b - lo) * (2 ^ (a + 1 - b) * 2 ^ (hi - a)) := by
      rw [← pow_add, ← pow_add]; congr 1; omega
    have e3 : a - lo + 1 - (b - lo) = a + 1 - b := by omega
    rw [e1, ← Nat.div_div_eq_div_mul, e2, e3, Nat.mod_mul_right_div_self, Nat.mod_mul_right_mod]
  have low : bits (v % 2 ^ (hi + 1 - lo)) (a - lo) (b - lo) = bits v (a - lo) (b - lo) := by
    unfold bits
    have e2 : (2 : Nat) ^ (hi + 1 - lo) = 2 ^ (b - lo) * (2 ^ (a + 1 - b) * 2 ^ (hi - a)) := by
      rw [← pow_add, ← pow_add]; congr 1; omega
    have e3 : a - lo + 1 - (b - lo) = a + 1 - b := by omega
    rw [e2, e3, Nat.mod_mul_right_div_self, Nat.mod_mul_right_mod]
  rw [part, hs, low]

@[simp] theorem bits_zero (hi lo : Nat) : bits 0 hi lo = 0 := by simp [bits]

end Sys2Proof.Machine
end

