-- ==== Sys2Proof/Laws/HostPath.lean ====
section
/-! SUPPORT. The path of a host write: addresses of registers, their page and definition, and the write that reaches its register. -/

namespace Sys2Proof.Machine

/-! ## Addresses -/

theorem ctxA_ge (c off : Nat) : 2 ^ 24 ≤ ctxA c off := by unfold ctxA; omega

@[simp] theorem pageOf_ctxA {c off : Nat} (hc : c < 1024) (ho : off < 65536) : pageOf (ctxA c off) = some .ctx := by
  unfold pageOf ctxA
  rw [if_neg (by omega), if_pos (by omega)]

@[simp] theorem offOf_ctxA {c off : Nat} (ho : off < 65536) : offOf (ctxA c off) = off := by
  unfold offOf ctxA
  rw [if_neg (by omega)]
  omega

@[simp] theorem homeAddr_ctxA (c off : Nat) : homeAddr (ctxA c off) = ctxA c off := by
  unfold homeAddr
  have h : ctxA c off / 2 ^ 12 ≠ 63 * 64 := by unfold ctxA; omega
  exact if_neg fun g => h g.1

theorem ctxOf_ctxA {c off : Nat} (ho : off < 65536) : (ctxA c off - 2 ^ 24) / 2 ^ 16 = c := by unfold ctxA; omega

@[simp] theorem ctxA_inj {c d off o : Nat} (h1 : off < 65536) (h2 : o < 65536) : ctxA c off = ctxA d o ↔ c = d ∧ off = o := by
  unfold ctxA; omega

theorem bar0_lt {d b off : Nat} (hd : d < 64) (hb : b < 64) (ho : off < 4096) : bar0 d b off < 2 ^ 24 := by unfold bar0; omega

theorem bar0_die {d b off : Nat} (hb : b < 64) (ho : off < 4096) : bar0 d b off / 2 ^ 18 = d := by unfold bar0; omega

theorem bar0_block {d b off : Nat} (hb : b < 64) (ho : off < 4096) : bar0 d b off / 2 ^ 12 % 64 = b := by unfold bar0; omega

theorem bar0_page {d b off : Nat} (ho : off < 4096) : bar0 d b off / 2 ^ 12 = d * 64 + b := by unfold bar0; omega

@[simp] theorem pageOf_bar0 {d b off : Nat} (hd : d < 64) (hb : b < 64) (ho : off < 4096) : pageOf (bar0 d b off) = pageAt d b := by
  unfold pageOf
  rw [if_pos (bar0_lt hd hb ho), bar0_die hb ho, bar0_block hb ho]

@[simp] theorem offOf_bar0 {d b off : Nat} (hd : d < 64) (hb : b < 64) (ho : off < 4096) : offOf (bar0 d b off) = off := by
  unfold offOf
  rw [if_pos (bar0_lt hd hb ho)]
  unfold bar0; omega

theorem bar0_inj {d b off d' b' o : Nat} (hb : b < 64) (hb' : b' < 64) (h1 : off < 4096) (h2 : o < 4096) :
    bar0 d b off = bar0 d' b' o ↔ d = d' ∧ b = b' ∧ off = o := by
  unfold bar0; omega

/-- A register that is no package register seen through the second Ridge stands at its own address. -/
theorem homeAddr_bar0 {d b off : Nat} (ho : off < 4096) (h : d * 64 + b ≠ 63 * 64) : homeAddr (bar0 d b off) = bar0 d b off := by
  unfold homeAddr
  rw [bar0_page ho]
  exact if_neg fun g => h g.1

theorem bar0_zero (off : Nat) : bar0 0 0 off = off := by simp [bar0]

/-- Registers of page block 0 of die 0 stand at their own address. -/
theorem homeAddr_low {off : Nat} (ho : off < 4096) : homeAddr off = off := by
  have := homeAddr_bar0 (d := 0) (b := 0) ho (by omega)
  simpa [bar0_zero] using this

theorem regAt_ctxA {c off : Nat} (hc : c < 1024) (ho : off < 65536) : regAt (ctxA c off) = findReg (pageRegs .ctx) off := by
  simp [regAt, hc, ho]

theorem regAt_bar0 {d b off : Nat} (hd : d < 64) (hb : b < 64) (ho : off < 4096) :
    regAt (bar0 d b off) = (pageAt d b).bind fun k => findReg (pageRegs k) off := by
  simp [regAt, hd, hb, ho]

/-! ## A write that reaches its register -/

/-- No field of a register is locked: it has none of access RWL or WOS. -/
def RegDef.free (r : RegDef) : Bool := r.fields.all fun f => decide (f.acc ≠ .rwl) && decide (f.acc ≠ .wos)

theorem State.violates_free (s : State) (a : Nat) {r : RegDef} (h : r.free = true) (v : Word) : s.violates a r .eight v = false := by
  unfold State.violates
  rw [List.any_eq_false]
  intro f hf
  unfold RegDef.free at h
  rw [List.all_eq_true] at h
  have := h f hf
  unfold State.lockedField
  cases hacc : f.acc <;> simp_all

/-- An 8-byte write that reaches a register without locked fields acts on it, after the access is counted. -/
theorem State.write8_eq {s : State} {src : HostSrc} {a : Nat} {k : PageKind} {r : RegDef} (v : Word) (hw : WriteReaches s src a)
    (hk : pageOf a = some k) (hg : k ≠ .guest) (hr : regAt a = some r) (hf : r.free = true) :
    s.write8 src a v = (s.countVf src .eight).writeReg src true a v := by
  obtain ⟨h0, h1, h2, h3, h4⟩ := hw
  unfold State.write8 State.hostWrite
  rw [h0, if_neg (by decide)]
  unfold State.hostWriteNow
  simp only [h1, h2, hk]
  cases k <;> simp_all [State.pageWrite, mergeWord, State.violates_free _ a hf]

/-- What counting an access changes. -/
theorem State.countVf_frame (s : State) (src : HostSrc) : onlyRegs s (s.countVf src .eight) ∧ sameRegsBut (pcieOf src) s (s.countVf src .eight) := by
  cases src with
  | pf b => exact ⟨rfl, fun _ _ => rfl⟩
  | mgmt => exact ⟨rfl, fun _ _ => rfl⟩
  | vf b n =>
    refine ⟨rfl, fun a ha => ?_⟩
    simp only [State.countVf, State.cWrap_eq, State.wrap_eq, State.wf_eq]
    apply State.reg_setReg_ne
    simpa [pcieOf] using ha

theorem onlyRegs.trans {s t u : State} (h : onlyRegs s t) (g : onlyRegs t u) : onlyRegs s u := by
  unfold onlyRegs at *
  rw [g, h]

theorem onlyRegs.setReg (s : State) (a : Nat) (w : Word) : onlyRegs s (s.setReg a w) := rfl

theorem sameRegsBut.trans {l m : List Nat} {s t u : State} (h : sameRegsBut l s t) (g : sameRegsBut m t u) : sameRegsBut (m ++ l) s u := by
  intro a ha
  simp only [List.map_append, List.mem_append, not_or] at ha
  rw [g a ha.1, h a ha.2]

theorem sameRegsBut.setReg (s : State) (a : Nat) (w : Word) : sameRegsBut [a] s (s.setReg a w) := by
  intro b hb
  apply State.reg_setReg_ne
  simpa using hb

theorem sameRegsBut.mono {l m : List Nat} {s t : State} (h : sameRegsBut l s t) (hs : ∀ a ∈ l, a ∈ m) : sameRegsBut m s t := by
  intro b hb
  apply h
  intro hc
  apply hb
  simp only [List.mem_map] at hc ⊢
  obtain ⟨x, hx, e⟩ := hc
  exact ⟨x, hs x hx, e⟩

/-- Two register changes one after the other, as one frame. -/
theorem wroteRegs.step {src : HostSrc} {l : List Nat} {s t : State} (h1 : onlyRegs (s.countVf src .eight) t)
    (h2 : sameRegsBut l (s.countVf src .eight) t) : wroteRegs src l s t := by
  obtain ⟨c1, c2⟩ := s.countVf_frame src
  exact ⟨c1.trans h1, c2.trans h2⟩

/-! ## Clear registers -/

theorem field_bit {i j : Nat} (hi : i < 64) (hj : j < 64) : fld (field i 1) j j = if j = i then 1 else 0 := by
  have key : ∀ i < 64, ∀ j < 64, fld (field i 1) j j = if j = i then 1 else 0 := by decide +kernel
  exact key i hi j hj

@[simp] theorem State.cleared_setReg (s : State) (a b : Nat) (w : Word) : (s.setReg b w).cleared a = s.cleared a := rfl

/-- What a clear does to the registers: those of the entries whose bit is written 1 read what the present cycle has put into their fields, the
others as before. -/
theorem State.clearIf_reg (v : Word) (l : List (Nat × Nat)) (s : State) (a : Nat) (hl : ∀ e ∈ l, homeAddr e.2 = e.2) :
    (s.clearIf v l).reg a =
      if homeAddr a ∈ (l.filter fun e => fld v e.1 e.1 = 1).map (·.2) then s.cleared (homeAddr a) else s.reg a := by
  unfold State.clearIf forAll
  induction l generalizing s with
  | nil => simp
  | cons e r ih =>
    have he := hl e (by simp)
    simp only [List.foldl_cons, ih _ fun x hx => hl x (by simp [hx])]
    by_cases hb : fld v e.1 e.1 = 1
    · by_cases hm : homeAddr a ∈ (r.filter fun e => fld v e.1 e.1 = 1).map (·.2)
      · simp only [hm, if_true, hb, List.filter_cons, decide_true, List.map_cons, List.mem_cons, or_true]
        rfl
      · simp only [hm, if_false, hb, if_true, State.clearReg, State.reg_setReg, List.filter_cons, decide_true, List.map_cons, List.mem_cons,
          or_false, he]
        split
        · next h => rw [h]
        · rfl
    · simp only [hb, if_false, List.filter_cons, decide_false, Bool.false_eq_true]

theorem State.clearIf_onlyRegs (v : Word) (l : List (Nat × Nat)) (s : State) : onlyRegs s (s.clearIf v l) := by
  unfold State.clearIf forAll
  induction l generalizing s with
  | nil => rfl
  | cons e r ih =>
    simp only [List.foldl_cons]
    split
    · exact (onlyRegs.setReg s _ _).trans (ih _)
    · exact ih _

/-- One bit of a clear register written: the registers of the entries of that bit read what the present cycle has put into their fields, no
other changes. -/
theorem State.clearIf_wrote {src : HostSrc} {s : State} {i : Nat} (hi : i < 64) (l : List (Nat × Nat)) (hl : ∀ e ∈ l, e.1 < 64)
    (hh : ∀ e ∈ l, homeAddr e.2 = e.2) :
    let t := (s.countVf src .eight).clearIf (field i 1) l
    let m := (l.filter fun e => e.1 = i).map (·.2)
    (∀ a ∈ m, t.reg a = (s.countVf src .eight).cleared a) ∧ wroteRegs src m s t := by
  intro t m
  have hm : (l.filter fun e => fld (field i 1) e.1 e.1 = 1) = l.filter fun e => e.1 = i := by
    apply List.filter_congr
    intro e he
    rw [field_bit hi (hl e he)]
    split <;> simp_all
  refine ⟨fun a ha => ?_, wroteRegs.step (State.clearIf_onlyRegs _ _ _) fun a ha => ?_⟩
  · simp only [m, List.mem_map] at ha
    obtain ⟨e, he, rfl⟩ := ha
    have h := hh e (List.mem_filter.1 he).1
    rw [State.clearIf_reg _ _ _ _ hh, hm, if_pos (by rw [h]; exact List.mem_map_of_mem he), h]
  · rw [State.clearIf_reg _ _ _ _ hh, hm, if_neg]
    have e : m.map homeAddr = m := by
      simp only [m, List.map_map]
      refine List.map_congr_left fun e he => ?_
      exact hh e (List.mem_filter.1 he).1
    rwa [e] at ha

end Sys2Proof.Machine
end

