-- ==== Sys2Proof/Laws/Issue.lean ====
section
/-! SUPPORT. What issuing a plan entry can do, said once: the frame of a record in the event log, of a move of the issue pointer, and of an
issue. -/

namespace Sys2Proof.Machine

/-! ## What a record of the device leaves alone -/

/-- Contexts and time stand as they did. -/
def keepsCtxs (s t : State) : Prop := t.ctxs = s.ctxs ∧ t.tb = s.tb

theorem keepsCtxs.refl (s : State) : keepsCtxs s s := ⟨rfl, rfl⟩

theorem keepsCtxs.trans {s t u : State} (h : keepsCtxs s t) (k : keepsCtxs t u) : keepsCtxs s u :=
  ⟨k.1.trans h.1, k.2.trans h.2⟩

theorem keepsCtxs.forAll {α : Type} (l : List α) (f : α → State → State) (hf : ∀ a s, keepsCtxs s (f a s)) (s : State) :
    keepsCtxs s (forAll l f s) := by
  unfold Machine.forAll
  induction l generalizing s with
  | nil => exact keepsCtxs.refl s
  | cons a r ih => exact (hf a s).trans (ih _)

theorem keepsCtxs.ite (c : Prop) [Decidable c] {s a b : State} (ha : keepsCtxs s a) (hb : keepsCtxs s b) :
    keepsCtxs s (if c then a else b) := by split <;> assumption

theorem State.counts_keep (s : State) (a hi lo n : Nat) : keepsCtxs s (s.sat a hi lo n) ∧ keepsCtxs s (s.wrap a hi lo n) :=
  ⟨⟨rfl, rfl⟩, rfl, rfl⟩

theorem State.raisePg_keeps (s : State) (die block b : Nat) : keepsCtxs s (s.raisePg die block b) := by
  unfold State.raisePg State.setPgIrq
  dsimp only
  split
  · exact ⟨rfl, rfl⟩
  · split <;> exact ⟨rfl, rfl⟩

theorem State.wf_keeps (s : State) (a hi lo v : Nat) : keepsCtxs s (s.wf a hi lo v) := ⟨rfl, rfl⟩

theorem State.stackPut_keeps (s : State) (t sec : Nat) (data : List Byte) (p : Bool) : keepsCtxs s (s.stackPut t sec data p) := ⟨rfl, rfl⟩

theorem State.windowErr_keeps (s : State) (t : Nat) : keepsCtxs s (s.windowErr t) :=
  (s.counts_keep _ _ _ _).1.trans (State.raisePg_keeps _ _ _ _)

theorem State.ceCount_keeps (s : State) (l : Table Nat) : keepsCtxs s { s with ceCount := l } := ⟨rfl, rfl⟩

theorem State.corrected_keeps (s : State) (t n : Nat) : keepsCtxs s (s.corrected t n) :=
  (s.counts_keep _ _ _ _).1.trans (State.ceCount_keeps _ _)

theorem State.upsets_keeps (s : State) (l : Table Upset) : keepsCtxs s { s with upsets := l } := ⟨rfl, rfl⟩

theorem State.cache_keeps (s : State) (l : Table (List Way)) : keepsCtxs s { s with cache := l } := ⟨rfl, rfl⟩

theorem State.putSector_keeps (s : State) (t sec : Nat) (data : List Byte) (p : Bool) : keepsCtxs s (s.putSector t sec data p) := by
  unfold State.putSector
  split
  · exact s.stackPut_keeps _ _ _ _
  · exact s.cache_keeps _

theorem State.dpaPutIn_keeps (s : State) (a : Nat) (data : List Byte) (p : Bool) : keepsCtxs s (s.dpaPutIn a data p) := by
  unfold State.dpaPutIn
  split
  · exact keepsCtxs.ite _ (s.putSector_keeps _ _ _ _) (keepsCtxs.refl s)
  · simp only [State.padWrite]; split <;> exact ⟨rfl, rfl⟩
  · exact keepsCtxs.refl s

theorem State.reread_keeps (s : State) (t sec : Nat) : keepsCtxs s (s.reread t sec) := by
  unfold State.reread
  extract_lets d s1 s2
  have h1 : keepsCtxs s s1 := (s.counts_keep _ _ _ _).1
  have h : keepsCtxs s s2 := h1.trans (State.ceCount_keeps s1 _)
  clear_value s2
  refine h.trans ?_
  split
  · exact (((State.stackPut_keeps _ _ _ _ _).trans (State.counts_keep _ _ _ _ _).1).trans (State.wf_keeps _ _ _ _ _)).trans
      (State.raisePg_keeps _ _ _ _)
  · exact (State.corrected_keeps _ _ _).trans (State.upsets_keeps _ _)
  · exact keepsCtxs.refl _

theorem State.meetSector_keeps (s : State) (t sec : Nat) : keepsCtxs s (s.meetSector t sec) := by
  unfold State.meetSector
  split
  · exact keepsCtxs.refl s
  · exact s.corrected_keeps _ _
  · exact s.reread_keeps t sec

theorem State.cacheTouch_keeps (s : State) (t line : Nat) (alloc : Bool) : keepsCtxs s (s.cacheTouch t line alloc).1 := by
  unfold State.cacheTouch
  dsimp only
  split
  · exact (s.cache_keeps _).trans (State.counts_keep _ _ _ _ _).2
  · split
    · exact (s.counts_keep _ _ _ _).2
    · have h : ∀ (l : List Way) (u : State), keepsCtxs u (Machine.forAll l (fun w v => v.writeBack t w) u) :=
        fun l => keepsCtxs.forAll l _ fun w v => keepsCtxs.forAll _ _ (fun _ u => u.stackPut_keeps _ _ _ _) v
      exact ((s.counts_keep _ _ _ _).2.trans (h _ _)).trans (State.cache_keeps _ _)

/-- A request at a slice changes no context. -/
theorem State.slice_keeps (s : State) (t l n : Nat) (write alloc : Bool) : keepsCtxs s (s.slice t l n write alloc) :=
  (keepsCtxs.ite _ (keepsCtxs.refl s) (keepsCtxs.forAll _ _ (fun sec u => u.meetSector_keeps t sec) s)).trans (State.cacheTouch_keeps _ _ _ _)

theorem State.touch_keeps (s : State) (a n : Nat) (write alloc : Bool) : keepsCtxs s (s.touch a n write alloc) := by
  unfold State.touch
  split
  · split
    · exact s.windowErr_keeps _
    · exact keepsCtxs.ite _ (s.slice_keeps _ _ _ _ _) (keepsCtxs.refl s)
  · exact keepsCtxs.refl s
  · exact keepsCtxs.refl s

/-- A write of the device by DPA changes no context. -/
theorem State.devWrite_keeps (s : State) (a : Nat) (data : List Byte) (p : Bool) : keepsCtxs s (s.devWrite a data p) :=
  keepsCtxs.forAll _ _ (fun _ u => keepsCtxs.ite _ (keepsCtxs.refl u)
    ((u.touch_keeps _ _ _ _).trans (keepsCtxs.forAll _ _ (fun _ v => v.dpaPutIn_keeps _ _ _) _))) s

/-- A record put into an event log changes no context. -/
theorem State.evlogPut_keeps (s : State) (l : LogOf) (r : List Nat) : keepsCtxs s (s.evlogPut l r) := by
  unfold State.evlogPut
  dsimp only
  split
  · exact (s.counts_keep _ _ _ _).1
  · split
    · exact (s.counts_keep _ _ _ _).1
    · refine (keepsCtxs.trans ?_ (State.devWrite_keeps _ _ _ _)).trans (State.counts_keep _ _ _ _ _).2
      exact keepsCtxs.ite _ ((s.counts_keep _ _ _ _).2.trans (State.counts_keep _ _ _ _ _).1) (keepsCtxs.refl s)

@[simp] theorem State.evlogPut_ctxs (s : State) (l : LogOf) (r : List Nat) : (s.evlogPut l r).ctxs = s.ctxs := (s.evlogPut_keeps l r).1

@[simp] theorem State.evlogPut_tb (s : State) (l : LogOf) (r : List Nat) : (s.evlogPut l r).tb = s.tb := (s.evlogPut_keeps l r).2

@[simp] theorem State.recordSlip_ctxs (s : State) (c n : Nat) : (s.recordSlip c n).ctxs = s.ctxs := by simp [State.recordSlip]

@[simp] theorem State.recordSlip_tb (s : State) (c n : Nat) : (s.recordSlip c n).tb = s.tb := by simp [State.recordSlip]

/-- What the issue of an entry records changes no context. -/
@[simp] theorem State.logged_ctxs (s : State) (c t : Nat) (e : EntryBits) : (s.logged c t e).ctxs = s.ctxs := by
  simp only [State.logged]
  split <;> split <;> simp

@[simp] theorem State.logged_tb (s : State) (c t : Nat) (e : EntryBits) : (s.logged c t e).tb = s.tb := by
  simp only [State.logged]
  split <;> split <;> simp

@[simp] theorem State.ctx_logged (s : State) (c t : Nat) (e : EntryBits) (k : Nat) : (s.logged c t e).ctx k = s.ctx k := by
  simp [State.ctx]

@[simp] theorem State.tile_logged (s : State) (c t : Nat) (e : EntryBits) (k u : Nat) : (s.logged c t e).tile k u = s.tile k u := by
  simp [State.tile]

/-! ## The frame of a tile -/

theorem onlyTile.refl (c u : Nat) (s : State) : onlyTile c u s s := ⟨⟨rfl, fun _ _ => rfl⟩, rfl, fun _ _ => rfl, le_refl _, fun _ _ => rfl⟩

theorem onlyTile.trans {c u : Nat} {s t w : State} (h : onlyTile c u s t) (k : onlyTile c u t w) : onlyTile c u s w := by
  obtain ⟨⟨a1, a2⟩, a3, a4, a5, a6⟩ := h
  obtain ⟨⟨b1, b2⟩, b3, b4, b5, b6⟩ := k
  refine ⟨⟨?_, fun i hi => (b2 i hi).trans (a2 i hi)⟩, ?_, fun v hv => (b4 v hv).trans (a4 v hv), a5.trans b5, fun i hi => (b6 i (by omega)).trans (a6 i hi)⟩
  · unfold onlyCtxs at *; rw [b1, a1]
  · rw [b3, a3]

/-- A change of one tile is in the frame of the tile. -/
theorem State.modTile_onlyTile (s : State) (c u : Nat) (f : Tile → Tile) : onlyTile c u s (s.modTile c u f) := by
  refine ⟨⟨rfl, fun k hk => by simp [State.ctx_setCtx, hk]⟩, ?_, fun v hv => ?_, ?_, fun i _ => ?_⟩
  · simp [Ctx.modTile]
  · rw [State.tile_modTile]; simp [hv]
  · simp [Ctx.modTile]
  · simp [State.xfer, Ctx.modTile]

/-- A new transfer is in the frame of its tile. -/
theorem State.newXfer_onlyTile (s : State) (c u : Nat) (x : Xfer) : onlyTile c u s (s.newXfer c x) := by
  refine ⟨⟨rfl, fun k hk => by simp [State.newXfer, State.ctx_setCtx, hk]⟩, ?_, fun v _ => ?_, ?_, fun i hi => ?_⟩
  · simp [State.newXfer]
  · simp [State.newXfer, State.tile]
  · simp [State.newXfer]
  · simp only [State.newXfer, State.xfer, State.modCtx_eq, State.ctx_setCtx_self, Table.get?_set]
    rw [if_neg (by omega)]

/-- The new transfer stands under the number that was next. -/
theorem State.newXfer_xfer (s : State) (c : Nat) (x : Xfer) : (s.newXfer c x).xfer c (s.ctx c).nextXfer = some x := by
  simp [State.newXfer, State.xfer, Table.get?_set]

@[simp] theorem State.newXfer_tile (s : State) (c : Nat) (x : Xfer) (k u : Nat) : (s.newXfer c x).tile k u = s.tile k u := by
  by_cases h : k = c
  · subst h; simp [State.newXfer, State.tile]
  · simp [State.newXfer, State.tile, State.ctx_setCtx, h]

/-! ## The issue pointer -/

/-- A move of the issue pointer changes the tile's pointer and frames and may start a refill. -/
theorem State.pointerMove_spec (s : State) (c t : Nat) :
    onlyTile c t s (s.pointerMove c t) ∧ ∃ p f, (s.pointerMove c t).tile c t = { s.tile c t with ptrSeg := p, frames := f } := by
  unfold State.pointerMove
  dsimp only
  split
  · exact ⟨s.modTile_onlyTile c t _, _, _, State.tile_modTile_self _ _ _ _⟩
  · split
    · exact ⟨s.modTile_onlyTile c t _, _, _, State.tile_modTile_self _ _ _ _⟩
    · refine ⟨((s.modTile_onlyTile c t _).trans (State.modTile_onlyTile _ c t _)).trans (State.newXfer_onlyTile _ c t _), ?_⟩
      simp only [State.startXfer, State.newXfer_tile, State.tile_modTile_self]
      exact ⟨_, _, rfl⟩

theorem State.pointerIter (n : Nat) (s : State) (c t : Nat) :
    onlyTile c t s (iter (fun _ u => u.pointerMove c t) n s)
      ∧ ∃ p f, (iter (fun _ u => u.pointerMove c t) n s).tile c t = { s.tile c t with ptrSeg := p, frames := f } := by
  induction n with
  | zero => exact ⟨onlyTile.refl _ _ _, _, _, rfl⟩
  | succ n ih =>
    obtain ⟨h, p, f, hf⟩ := ih
    refine ⟨h.trans (State.pointerMove_spec _ c t).1, ?_⟩
    obtain ⟨p', f', h'⟩ := (State.pointerMove_spec (iter (fun _ u => u.pointerMove c t) n s) c t).2
    exact ⟨p', f', by show (State.pointerMove _ c t).tile c t = _; rw [h', hf]⟩

/-! ## Issue -/

/-- After `goto` the tile stands where the pass loops and the sub-plan say; the rest is in the frame of the tile. -/
theorem State.goto_spec (s : State) (c t p : Nat) :
    onlyTile c t s (s.goto c t p)
      ∧ ∃ g f, (s.goto c t p).tile c t =
        { s.tile c t with
          pos := ((s.tile c t).upNext p).1, reps := ((s.tile c t).upNext p).2.1, subEnd := ((s.tile c t).upNext p).2.2, ptrSeg := g, frames := f } := by
  have key : ∀ (q : Nat × Option (Nat × Nat)) (n : Nat × List Rep × Bool) (f : Tile → Tile),
      (f = fun y => { y with pos := n.1, reps := n.2.1, subEnd := q.2 }) →
      ∀ u : State, u = (if n.2.2 then (s.modTile c t f).modTile c t fun y => { y with ptrSeg := n.1 / 256 } else (s.modTile c t f).pointerTo c t n.1) →
      onlyTile c t s u ∧ ∃ g w, u.tile c t = { s.tile c t with pos := n.1, reps := n.2.1, subEnd := q.2, ptrSeg := g, frames := w } := by
    intro q n f hf u hu
    cases hn : n.2.2
    · rw [hn, if_neg (by decide)] at hu
      obtain ⟨h1, g, w, h2⟩ := State.pointerIter
        ((n.1 / 256 + ((s.modTile c t f).tile c t).segs - ((s.modTile c t f).tile c t).ptrSeg) % ((s.modTile c t f).tile c t).segs) (s.modTile c t f) c t
      rw [hu]
      exact ⟨(s.modTile_onlyTile c t f).trans h1, g, w, by rw [State.pointerTo, h2, State.tile_modTile_self, hf]⟩
    · rw [hn, if_pos rfl] at hu
      rw [hu]
      exact ⟨(s.modTile_onlyTile c t f).trans (State.modTile_onlyTile _ c t _), n.1 / 256, (s.tile c t).frames,
        by rw [State.tile_modTile_self, State.tile_modTile_self, hf]⟩
  exact key _ _ _ rfl _ rfl

/-- What every issue does but for the position. -/
theorem State.issueAt_spec (s : State) (c t : Nat) (e : EntryBits) :
    let x := s.tile c t
    onlyTile c t (s.logged c t e) (s.issueAt c t e)
      ∧ (s.issueAt c t e).tile c t = { (if eIsHold e then x.consume e else x) with prevA := s.now, planned := x.planned + eOffset e } := by
  have h : s.issueAt c t e = (s.logged c t e).modTile c t fun y =>
      { (if eIsHold e then y.consume e else y) with prevA := s.now, planned := (s.tile c t).planned + eOffset e } := rfl
  dsimp only
  rw [h]
  exact ⟨State.modTile_onlyTile _ c t _, by rw [State.tile_modTile_self]; simp only [State.tile_logged]⟩

theorem Tile.upNext_congr {x y : Tile} (h : x.reps = y.reps) (k : x.subEnd = y.subEnd) (p : Nat) : x.upNext p = y.upNext p := by
  simp only [Tile.upNext, h, k]

/-- An entry that issues and is followed by position `p`. -/
theorem State.issued_goto (s : State) (c t : Nat) (e : EntryBits) (p : Nat) : Issued c t e p s ((s.issueAt c t e).goto c t p) := by
  obtain ⟨h1, h2⟩ := s.issueAt_spec c t e
  obtain ⟨g1, g, f, g2⟩ := (s.issueAt c t e).goto_spec c t p
  have h3 : ((s.issueAt c t e).tile c t).upNext p = (s.tile c t).upNext p := by
    rw [h2]; apply Tile.upNext_congr <;> split <;> rfl
  rw [h3, h2] at g2
  refine ⟨h1.trans g1, ?_, ?_⟩ <;> simp only [g2]

/-- An entry that only goes on to the next one. -/
theorem State.issued_issue (s : State) (c t : Nat) (e : EntryBits) : Issued c t e ((s.tile c t).pos + 1) s (s.issue c t e) :=
  s.issued_goto c t e _

end Sys2Proof.Machine
end

