-- ==== Sys2Proof/Laws/KeepTick.lean ====
section
/-! SUPPORT. What every meaning and one cycle of the time base keep. -/

namespace Sys2Proof.Machine

theorem exec_good {pend : List Instr} (i : Instr) (s : State) (hg : s.Good pend) : Out.Good pend (exec i s) := by
  cases i with
  | pwrEnRise => exact execPwrEnRise_good s hg
  | pwrEnFall => exact execPwrEnFall_good s hg
  | pkgPwrgd => exact execPkgPwrgd_good s hg
  | perstMgmtAssert => exact execPerstMgmtAssert_good s hg
  | perstOtherAssert => exact execPerstOtherAssert_good s hg
  | perstDeassert portB => exact execPerstDeassert_good portB s hg
  | flrVf portB n => exact execFlrVf_good portB n s hg
  | flrPf portB => exact execFlrPf_good portB s hg
  | supplySample tabs => exact execSupplySample_good tabs s hg
  | sagLevelEnter level => exact execSagLevelEnter_good level s hg
  | sagLevelLeave level => exact execSagLevelLeave_good level s hg
  | selfRefreshEnter => exact execSelfRefreshEnter_good s hg
  | thermalTrip die temp => exact execThermalTrip_good die temp s hg
  | thermalCrit die => exact execThermalCrit_good die s hg
  | thermClear src => exact execThermClear_good src s hg
  | clkDivWrite src div => exact execClkDivWrite_good src div s hg
  | clkRestore src => exact execClkRestore_good src s hg
  | dividerChange => exact execDividerChange_good s hg
  | sagRPrefetch src => exact execSagRPrefetch_good src s hg
  | sagRResume src => exact execSagRResume_good src s hg
  | sagClrMax src => exact execSagClrMax_good src s hg
  | pstateActive src => exact execPstateActive_good src s hg
  | pstateHold src => exact execPstateHold_good src s hg
  | pstateNap src => exact execPstateNap_good src s hg
  | pstateDormant src => exact execPstateDormant_good src s hg
  | pstateDone => exact execPstateDone_good s hg
  | pkgResetWrite src code go => exact execPkgResetWrite_good src code go s hg
  | warmResetEnd => exact execWarmResetEnd_good s hg
  | ridgeBootDone ridgeB => exact execRidgeBootDone_good ridgeB s hg
  | thatchReady t => exact execThatchReady_good t s hg
  | eaveReady e => exact execEaveReady_good e s hg
  | rafterReady r spares failed => exact execRafterReady_good r spares failed s hg
  | portUp port => exact execPortUp_good port s hg
  | edgeTrained die dir => exact execEdgeTrained_good die dir s hg
  | discoveryWave die dir kind => exact execDiscoveryWave_good die dir kind s hg
  | dieTableBuild => exact execDieTableBuild_good s hg
  | firmwareActivation => exact execFirmwareActivation_good s hg
  | fwact src => exact execFwact_good src s hg
  | firmwareActivationEnd => exact execFirmwareActivationEnd_good s hg
  | pldmFirmwareUpdate ridgeB part => exact execPldmFirmwareUpdate_good ridgeB part s hg
  | launchReady c => exact execLaunchReady_good c s hg
  | launchEnd c => exact execLaunchEnd_good c s hg
  | nop c t => exact execNop_good c t s hg
  | hold c t => exact execHold_good c t s hg
  | signal c t => exact execSignal_good c t s hg
  | repeatEntry c t => exact execRepeatEntry_good c t s hg
  | endEntry c t => exact execEndEntry_good c t s hg
  | mark c t => exact execMark_good c t s hg
  | planRefillArrive c t id => exact execPlanRefillArrive_good c t id s hg
  | deadlockSuspect c t => exact execDeadlockSuspect_good c t s hg
  | mma c t => exact execMma_good c t s hg
  | mmaSparse c t => exact execMmaSparse_good c t s hg
  | conv c t => exact execConv_good c t s hg
  | mmaColl c t => exact execMmaColl_good c t s hg
  | vec c t => exact execVec_good c t s hg
  | sfu c t => exact execSfu_good c t s hg
  | normStat c t => exact execNormStat_good c t s hg
  | softmax c t => exact execSoftmax_good c t s hg
  | upd c t => exact execUpd_good c t s hg
  | rngFill c t => exact execRngFill_good c t s hg
  | gnsStat c t => exact execGnsStat_good c t s hg
  | streamIn c t => exact execStreamIn_good c t s hg
  | streamOut c t => exact execStreamOut_good c t s hg
  | assign c t => exact execAssign_good c t s hg
  | slotGather c t => exact execSlotGather_good c t s hg
  | slotScatter c t => exact execSlotScatter_good c t s hg
  | clear c t => exact execClear_good c t s hg
  | send c t => exact execSend_good c t s hg
  | sendRetry c t ep => exact execSendRetry_good c t ep s hg
  | recv c t => exact execRecv_good c t s hg
  | combine c t => exact execCombine_good c t s hg
  | messageArrival c id => exact execMessageArrival_good c id s hg
  | ackArrival c id => exact execAckArrival_good c id s hg
  | combineSum c t ep => exact execCombineSum_good c t ep s hg
  | qpush c t => exact execQpush_good c t s hg
  | qpop c t => exact execQpop_good c t s hg
  | verdict c t => exact execVerdict_good c t s hg
  | commitIf c t => exact execCommitIf_good c t s hg
  | transferAccept c id => exact execTransferAccept_good c id s hg
  | transferArrival c id => exact execTransferArrival_good c id s hg
  | unitOperationComplete c t u => exact execUnitOperationComplete_good c t u s hg
  | queueWordWrite c link id => exact execQueueWordWrite_good c link id s hg
  | packetArrival c link => exact execPacketArrival_good c link s hg
  | queueFlush src c link => exact execQueueFlush_good src c link s hg
  | collChunkComplete c inst t => exact execCollChunkComplete_good c inst t s hg
  | packageStageEnd c slot => exact execPackageStageEnd_good c slot s hg
  | voteSend c slot => exact execVoteSend_good c slot s hg
  | vote f => exact execVote_good f s hg
  | decide f => exact execDecide_good f s hg
  | checkpointDone c bytes => exact execCheckpointDone_good c bytes s hg
  | checkpointTrigger c cause die => exact execCheckpointTrigger_good c cause die s hg
  | checkpointTimer c => exact execCheckpointTimer_good c s hg
  | mirror f => exact execMirror_good f s hg
  | mirrorAck f => exact execMirrorAck_good f s hg
  | rebuildFrame f => exact execRebuildFrame_good f s hg
  | stage f => exact execStage_good f s hg
  | coll f => exact execColl_good f s hg
  | ring f => exact execRing_good f s hg
  | ingest f => exact execIngest_good f s hg
  | guest f => exact execGuest_good f s hg
  | mgmt f => exact execMgmt_good f s hg
  | relayed f => exact execRelayed_good f s hg
  | linkctl f => exact execLinkctl_good f s hg
  | ptpFrame port synchronised => exact execPtpFrame_good port synchronised s hg
  | pauseFrame port prio quanta => exact execPauseFrame_good port prio quanta s hg
  | pauseRepeat port prio => exact execPauseRepeat_good port prio s hg
  | frameTransmit link cls => exact execFrameTransmit_good link cls s hg
  | replayTimer link cls => exact execReplayTimer_good link cls s hg
  | linkctlTimer link => exact execLinkctlTimer_good link s hg
  | linkSilenceTimeout link => exact execLinkSilenceTimeout_good link s hg
  | portSignalLoss port => exact execPortSignalLoss_good port s hg
  | linkMove link => exact execLinkMove_good link s hg
  | replayRateWindow e => exact execReplayRateWindow_good e s hg
  | ppsSecond => exact execPpsSecond_good s hg
  | ptpSelect src value => exact execPtpSelect_good src value s hg
  | eavPctlWrite src port value => exact execEavPctlWrite_good src port value s hg
  | eavWrrWrite src port value => exact execEavWrrWrite_good src port value s hg
  | nodeWrite src node => exact execNodeWrite_good src node s hg
  | flitCrcFail die dir strand => exact execFlitCrcFail_good die dir strand s hg
  | strandFail die dir strand => exact execStrandFail_good die dir strand s hg
  | edgeDown die dir => exact execEdgeDown_good die dir s hg
  | strandRetire src die dir mask => exact execStrandRetire_good src die dir mask s hg
  | strandWarnWindow die dir => exact execStrandWarnWindow_good die dir s hg
  | dieClockSupplyLoss die => exact execDieClockSupplyLoss_good die s hg
  | fenceNotice die cause => exact execFenceNotice_good die cause s hg
  | takeover => exact execTakeover_good s hg
  | takeoverComplete => exact execTakeoverComplete_good s hg
  | guestRequest site req => exact execGuestRequest_good site req s hg
  | guestAdmit site => exact execGuestAdmit_good site s hg
  | overpower site => exact execOverpower_good site s hg
  | sitePowerOn src site => exact execSitePowerOn_good src site s hg
  | memoryRead c id k => exact execMemoryRead_good c id k s hg
  | memoryWrite c id k => exact execMemoryWrite_good c id k s hg
  | eccReread stack sector => exact execEccReread_good stack sector s hg
  | ceRateWindow t => exact execCeRateWindow_good t s hg
  | atomicApply c id k => exact execAtomicApply_good c id k s hg
  | refreshRateChange t temp => exact execRefreshRateChange_good t temp s hg
  | refreshTick t errors => exact execRefreshTick_good t errors s hg
  | bandWrite src kinds => exact execBandWrite_good src kinds s hg
  | copyIn t eng n data => exact execCopyIn_good t eng n data s hg
  | copyOut t eng n => exact execCopyOut_good t eng n s hg
  | fillConst t eng n => exact execFillConst_good t eng n s hg
  | fillRng t eng n => exact execFillRng_good t eng n s hg
  | test t eng n failing => exact execTest_good t eng n failing s hg
  | verify t eng n => exact execVerify_good t eng n s hg
  | scrub t eng n => exact execScrub_good t eng n s hg
  | restore t eng n image => exact execRestore_good t eng n image s hg
  | rebuild t eng n => exact execRebuild_good t eng n s hg
  | repair t eng ok => exact execRepair_good t eng ok s hg
  | liggerCommandDone t eng => exact execLiggerCommandDone_good t eng s hg
  | liggerResume src t eng => exact execLiggerResume_good src t eng s hg
  | liggerAbort src t eng => exact execLiggerAbort_good src t eng s hg
  | doorbell src ring tail => exact execDoorbell_good src ring tail s hg
  | loadPlan c => exact execLoadPlan_good c s hg
  | loadPlanComplete c => exact execLoadPlanComplete_good c s hg
  | launchStep c => exact execLaunchStep_good c s hg
  | stageLinks c => exact execStageLinks_good c s hg
  | versionRings c => exact execVersionRings_good c s hg
  | group src => exact execGroup_good src s hg
  | reform src => exact execReform_good src s hg
  | route src => exact execRoute_good src s hg
  | routePrefix src => exact execRoutePrefix_good src s hg
  | rollback c => exact execRollback_good c s hg
  | context src => exact execContext_good src s hg
  | bind src => exact execBind_good src s hg
  | snapshot c => exact execSnapshot_good c s hg
  | snapshotComplete c => exact execSnapshotComplete_good c s hg
  | exportRing c => exact execExportRing_good c s hg
  | exportComplete c => exact execExportComplete_good c s hg
  | fence ring src => exact execFence_good ring src s hg
  | flush c => exact execFlush_good c s hg
  | cancel c => exact execCancel_good c s hg
  | cplHeadWrite src c head => exact execCplHeadWrite_good src c head s hg
  | cplBaseWrite src c base => exact execCplBaseWrite_good src c base s hg
  | resAck src c seq => exact execResAck_good src c seq s hg
  | cmdRingConfigWrite src c isCtl value => exact execCmdRingConfigWrite_good src c isCtl value s hg
  | evlogConfigWrite src c isCtl value => exact execEvlogConfigWrite_good src c isCtl value s hg
  | evlogReadWrite src c read => exact execEvlogReadWrite_good src c read s hg
  | evlogClrLost src c => exact execEvlogClrLost_good src c s hg
  | trainingRegisterWrite src c which value => exact execTrainingRegisterWrite_good src c which value s hg
  | xlateInv src c => exact execXlateInv_good src c s hg
  | ctxReset src c => exact execCtxReset_good src c s hg
  | contextResetDone c => exact execContextResetDone_good c s hg
  | acctClr src c => exact execAcctClr_good src c s hg
  | apertureAccess portB n off op => exact execApertureAccess_good portB n off op s hg
  | energyInterval readings => exact execEnergyInterval_good readings s hg
  | marginSample r slack => exact execMarginSample_good r slack s hg
  | epoch src r => exact execEpoch_good src r s hg
  | marginEpochEnd r monitors tiles => exact execMarginEpochEnd_good r monitors tiles s hg
  | voffWrite src r steps => exact execVoffWrite_good src r steps s hg
  | tileRetire src r tile => exact execTileRetire_good src r tile s hg
  | schedClrMiss src c => exact execSchedClrMiss_good src c s hg
  | schedClrSlip src c => exact execSchedClrSlip_good src c s hg
  | schedClrWait src c => exact execSchedClrWait_good src c s hg
  | schedClrSusp src c => exact execSchedClrSusp_good src c s hg
  | arithClrSat src c => exact execArithClrSat_good src c s hg
  | arithClrGate src c => exact execArithClrGate_good src c s hg
  | arithClrPoison src c => exact execArithClrPoison_good src c s hg
  | sfuClrMasked src c => exact execSfuClrMasked_good src c s hg
  | sfuClrNan src c => exact execSfuClrNan_good src c s hg
  | slotClrOverflow src c => exact execSlotClrOverflow_good src c s hg
  | slotClrEmpty src c => exact execSlotClrEmpty_good src c s hg
  | pipeClrQcount src c => exact execPipeClrQcount_good src c s hg
  | pipeClrChan src c => exact execPipeClrChan_good src c s hg
  | memClrEcc src t => exact execMemClrEcc_good src t s hg
  | memClrWin src t => exact execMemClrWin_good src t s hg
  | ctxMemClrPoison src c => exact execCtxMemClrPoison_good src c s hg
  | trainClrSkip src c => exact execTrainClrSkip_good src c s hg
  | collClrSts src c => exact execCollClrSts_good src c s hg
  | collClrChunks src c => exact execCollClrChunks_good src c s hg
  | collClrStale src c => exact execCollClrStale_good src c s hg
  | eavClrPorts src e => exact execEavClrPorts_good src e s hg
  | eavClrDrop src e => exact execEavClrDrop_good src e s hg
  | eavClrRelay src e => exact execEavClrRelay_good src e s hg
  | eavClrReroute src e => exact execEavClrReroute_good src e s hg
  | resClrMirwait src c => exact execResClrMirwait_good src c s hg
  | resClrCkpt src c => exact execResClrCkpt_good src c s hg
  | clrErr src addr => exact execClrErr_good src addr s hg
  | registerWrite src addr size value => exact execRegisterWrite_good src addr size value s hg
  | launchT0 c => exact execLaunchT0_good c s hg
  | queueSpaceFreed c link => exact execQueueSpaceFreed_good c link s hg
  | flitReplayCaughtUp die dir strand => exact execFlitReplayCaughtUp_good die dir strand s hg
  | pauseExpiry port prio => exact execPauseExpiry_good port prio s hg
  | voffMove r => exact execVoffMove_good r s hg
  | tileRetireDone r => exact execTileRetireDone_good r s hg
  | hostLinkUp portB width reversed inverted => exact execHostLinkUp_good portB width reversed inverted s hg
  | configurationRequest portB => exact execConfigurationRequest_good portB s hg
  | testAccessPort op => exact execTestAccessPort_good op s hg
  | dynamicAddressAssignment ridgeB addr => exact execDynamicAddressAssignment_good ridgeB addr s hg
  | otherEthertypeFrame port fcsOk etype => exact execOtherEthertypeFrame_good port fcsOk etype s hg
  | temperatureSample die temp => exact execTemperatureSample_good die temp s hg

/-! ## Machine/Tick.lean -/

@[simp] theorem State.run_good {pend : List Instr} (s : State) (i : Instr) (hg : s.Good pend) : (s.run i).Good pend :=
  Out.stateOr_good s _ hg (exec_good i s hg)

theorem State.good_tiles {pend : List Instr} (s : State) (f : State → Nat → Nat → State)
    (hf : ∀ t c k, State.Good pend t → (f t c k).Good pend) (hg : s.Good pend) : (s.allTiles f).Good pend :=
  State.good_forAll _ _ (fun x u hu => State.good_forAll _ _ (fun y z hz => hf z x.1 y.1 hz) hu) hg

@[simp] theorem State.endUnits_good {pend : List Instr} (s : State) (c t : Nat) (hg : s.Good pend) : (s.endUnits c t).Good pend := by
  unfold State.endUnits
  refine State.good_forAll _ _ (fun k z hz => State.lastCycleToken_good _ _ _ _ hz) (State.writesDue_good _ _ _ ?_)
  exact State.good_forAll _ _ (fun u z hz => State.run_good _ _ hz) hg

@[simp] theorem State.endpointsDue_good {pend : List Instr} (s : State) (c t : Nat) (hg : s.Good pend) : (s.endpointsDue c t).Good pend := by
  unfold State.endpointsDue
  refine State.good_forAll _ _ (fun e z hz => State.run_good _ _ hz) ?_
  exact State.good_forAll _ _ (fun e z hz => State.run_good _ _ hz) hg

@[simp] theorem State.issueTile_good {pend : List Instr} (s : State) (c t : Nat) (hg : s.Good pend) : (s.issueTile c t).Good pend := by
  unfold State.issueTile
  refine State.clashFault_good _ _ _ (State.run_good _ _ ?_)
  split
  · exact hg
  · exact State.run_good _ _ hg

@[simp] theorem State.launchesDue_good {pend : List Instr} (s : State) (hg : s.Good pend) : s.launchesDue.Good pend :=
  State.good_forAll _ _ (fun _ _ hu => State.run_good _ _ (State.run_good _ _ hu)) hg

@[simp] theorem State.crossingsDue_good {pend : List Instr} (s : State) (hg : s.Good pend) : s.crossingsDue.Good pend := by
  unfold State.crossingsDue
  refine State.good_forAll _ _ (fun x u hu => State.good_forAll _ _ (fun q z hz => ?_) hu) hg
  dsimp only
  have h1 := fun p : Prop => fun [Decidable p] =>
    State.good_ite p _ _ (fun _ => State.run_good (pend := pend) z (.packetArrival x.1 q.1) hz) fun _ => hz
  exact State.good_ite _ _ _ (fun _ => State.run_good _ _ (h1 _)) fun _ => h1 _

@[simp] theorem State.timersDue_good {pend : List Instr} (s : State) (hg : s.Good pend) : s.timersDue.Good pend := by
  unfold State.timersDue
  refine State.good_forAll _ _ (fun p u hu => State.good_forAll _ _ (fun x z hz => State.run_good _ _ hz) hu) ?_
  refine State.good_forAll _ _ (fun d u hu => State.good_forAll _ _ (fun x z hz => State.run_good _ _ hz) hu) ?_
  refine State.good_forAll _ _ (fun e u hu => State.run_good _ _ hu) ?_
  exact State.good_forAll _ _ (fun t u hu => State.run_good _ _ (State.run_good _ _ hu)) hg

@[simp] theorem State.decisionsDue_good {pend : List Instr} (s : State) (hg : s.Good pend) : s.decisionsDue.Good pend := by
  unfold State.decisionsDue
  split
  · exact hg
  · exact State.good_forAll _ _ (fun x u hu => State.good_ite _ _ _ (fun _ => hu) fun _ => State.applyDue_good _ _ hu) hg

@[simp] theorem State.countArrays_good {pend : List Instr} (s : State) (hg : s.Good pend) : s.countArrays.Good pend :=
  State.good_tiles _ _ (fun u c t hu => State.good_ite _ _ _ (fun _ => State.arrayBusy_good _ _ _ hu) fun _ => hu) hg

@[simp] theorem State.endCycle_good {pend : List Instr} (s : State) (hg : s.Good pend) : s.endCycle.Good pend := by
  unfold State.endCycle
  refine State.putRecords_good _ (State.takeFaults_good _ (State.countArrays_good _ ?_))
  refine State.good_tiles _ _ (fun u c t hu => State.issueTile_good _ _ _ hu) (State.decisionsDue_good _ ?_)
  refine State.good_tiles _ _ (fun u c t hu => State.endpointsDue_good _ _ _ (State.endUnits_good _ _ _ hu)) ?_
  exact State.launchesDue_good _ (State.crossingsDue_good _ (State.timersDue_good _ hg))

@[simp] theorem State.nextCycle_good {pend : List Instr} (s : State) (hg : s.Good pend) : s.nextCycle.Good pend := by
  unfold State.nextCycle
  extract_lets same start s1
  have h1 : s1.Good pend := hg
  exact State.good_ite _ _ _ (fun _ => h1) fun _ => State.purlinCycle_good _ (State.countPorts_good _ h1)

@[simp] theorem State.runLate_good {pend : List Instr} (s : State) (hg : s.Good pend) : s.runLate.Good pend :=
  State.good_forAll _ _ (fun _ _ hu => State.run_good _ _ hu) hg

theorem State.tick_good {pend : List Instr} (s : State) (hg : s.Good pend) : s.tick.Good pend :=
  State.good_ite _ _ _ (fun _ => State.runLate_good _ (State.nextCycle_good _ (State.endCycle_good _ hg))) fun _ => hg

end Sys2Proof.Machine
end

