-- ==== Sys2Proof/WellFormed.lean ====
section
/-! DEFINITION. Well-formed commands: each operand within the range its numbering has (00_scope.md and the tables of the
chapter that numbers it). -/

namespace Sys2Proof

/-- A context number: 1,024 contexts (R371). -/
def wfCtx (c : Nat) : Bool := c < 1024

/-- A logical tile ID: 17 bits, 70 tiles for each of at most 1,152 courses (R96, R373). -/
def wfTile (t : Nat) : Bool := t < 80640

/-- A die number (R17). -/
def wfDie (d : Nat) : Bool := d < 64

/-- An edge direction: 0 up, 1 right, 2 down, 3 left. -/
def wfDir (d : Nat) : Bool := d < 4

/-- A Batten strand of an edge (R319). -/
def wfStrand (k : Nat) : Bool := k < 8

/-- A Rafter index (R18). -/
def wfRafter (r : Nat) : Bool := r < 36

/-- A Thatch index or stack. -/
def wfThatch (t : Nat) : Bool := t < 16

/-- An Eave index. -/
def wfEave (e : Nat) : Bool := e < 8

/-- A package port (R33). -/
def wfPort (p : Nat) : Bool := p < 64

/-- A Ligger engine of a Thatch die (R222). -/
def wfEng (k : Nat) : Bool := k < 4

/-- A Dormer site. -/
def wfSite (i : Nat) : Bool := i < 2

/-- A stage-link number (R170). -/
def wfLink (l : Nat) : Bool := l < 1024

/-- A node number: 20 bits (R292). -/
def wfNode (n : Nat) : Bool := n < 1048576

/-- A virtual function number. -/
def HostSrc.wf (x : HostSrc) : Bool :=
  match x with
  | .pf _ => true
  | .vf _ n => wfCtx n
  | .mgmt => true

/-- The fields of a transport header lie within their widths (R290). -/
def FrameHdr.wf (h : FrameHdr) : Bool :=
  wfNode h.dst && wfNode h.src && decide (h.cls < 8) && decide (h.typ < 32) && decide (h.obj < 4096)
    && decide (h.len ≤ 4096) && wfCtx h.ctx && decide (h.lane < 16)

/-- A frame as it arrives. -/
def RxFrame.wf (f : RxFrame) : Bool := wfPort f.port && f.frame.hdr.wf

/-- A unit of a tile: eight stream engines (R61). -/
def UnitKind.wf (u : UnitKind) : Bool :=
  match u with
  | .matrix => true
  | .vector => true
  | .special => true
  | .stream e => decide (e < 8)

/-- The data of a guest's frame fits a frame (R294). -/
def wfGuest (q : GuestReq) : Bool :=
  match q with
  | .read _ _ => true
  | .write _ _ => true
  | .atomic _ _ _ _ => true
  | .register _ _ _ _ _ => true
  | .frame node data => wfNode node && decide (data.length ≤ 4096)

/-- `a` is less than `b`. -/
def below (a b : Nat) : Bool := decide (a < b)

/-- A command is well formed: every operand is within its range. -/
def Instr.wf (i : Instr) : Bool :=
  match i with
  | .pwrEnRise => true
  | .pwrEnFall => true
  | .pkgPwrgd => true
  | .perstMgmtAssert => true
  | .perstOtherAssert => true
  | .perstDeassert _ => true
  | .flrVf _ n => wfCtx n
  | .flrPf _ => true
  | .supplySample _ => true
  | .sagLevelEnter level => below level 7
  | .sagLevelLeave level => below level 7
  | .selfRefreshEnter => true
  | .thermalTrip die _ => wfDie die
  | .thermalCrit die => wfDie die
  | .thermClear src => src.wf
  | .clkDivWrite src div => src.wf && below div 4
  | .clkRestore src => src.wf
  | .dividerChange => true
  | .sagRPrefetch src => src.wf
  | .sagRResume src => src.wf
  | .sagClrMax src => src.wf
  | .pstateActive src => src.wf
  | .pstateHold src => src.wf
  | .pstateNap src => src.wf
  | .pstateDormant src => src.wf
  | .pstateDone => true
  | .pkgResetWrite src code _ => src.wf && below code 65536
  | .warmResetEnd => true
  | .ridgeBootDone _ => true
  | .thatchReady t => wfThatch t
  | .eaveReady e => wfEave e
  | .rafterReady r _ _ => wfRafter r
  | .portUp port => wfPort port
  | .edgeTrained die dir => wfDie die && wfDir dir
  | .discoveryWave die dir _ => wfDie die && wfDir dir
  | .dieTableBuild => true
  | .firmwareActivation => true
  | .fwact _ => true
  | .firmwareActivationEnd => true
  | .pldmFirmwareUpdate _ _ => true
  | .launchReady c => wfCtx c
  | .launchEnd c => wfCtx c
  | .nop c t => wfCtx c && wfTile t
  | .hold c t => wfCtx c && wfTile t
  | .signal c t => wfCtx c && wfTile t
  | .repeatEntry c t => wfCtx c && wfTile t
  | .endEntry c t => wfCtx c && wfTile t
  | .mark c t => wfCtx c && wfTile t
  | .planRefillArrive c t _ => wfCtx c && wfTile t
  | .deadlockSuspect c t => wfCtx c && wfTile t
  | .mma c t => wfCtx c && wfTile t
  | .mmaSparse c t => wfCtx c && wfTile t
  | .conv c t => wfCtx c && wfTile t
  | .mmaColl c t => wfCtx c && wfTile t
  | .vec c t => wfCtx c && wfTile t
  | .sfu c t => wfCtx c && wfTile t
  | .normStat c t => wfCtx c && wfTile t
  | .softmax c t => wfCtx c && wfTile t
  | .upd c t => wfCtx c && wfTile t
  | .rngFill c t => wfCtx c && wfTile t
  | .gnsStat c t => wfCtx c && wfTile t
  | .streamIn c t => wfCtx c && wfTile t
  | .streamOut c t => wfCtx c && wfTile t
  | .assign c t => wfCtx c && wfTile t
  | .slotGather c t => wfCtx c && wfTile t
  | .slotScatter c t => wfCtx c && wfTile t
  | .clear c t => wfCtx c && wfTile t
  | .send c t => wfCtx c && wfTile t
  | .sendRetry c t _ => wfCtx c && wfTile t
  | .recv c t => wfCtx c && wfTile t
  | .combine c t => wfCtx c && wfTile t
  | .messageArrival c _ => wfCtx c
  | .ackArrival c _ => wfCtx c
  | .combineSum c t _ => wfCtx c && wfTile t
  | .qpush c t => wfCtx c && wfTile t
  | .qpop c t => wfCtx c && wfTile t
  | .verdict c t => wfCtx c && wfTile t
  | .commitIf c t => wfCtx c && wfTile t
  | .transferAccept c _ => wfCtx c
  | .transferArrival c _ => wfCtx c
  | .unitOperationComplete c t u => wfCtx c && wfTile t && u.wf
  | .queueWordWrite c link _ => wfCtx c && wfLink link
  | .packetArrival c link => wfCtx c && wfLink link
  | .queueFlush src c link => src.wf && wfCtx c && wfLink link
  | .collChunkComplete c _ t => wfCtx c && wfTile t
  | .packageStageEnd c slot => wfCtx c && below slot 4
  | .voteSend c slot => wfCtx c && below slot 4
  | .vote f => f.wf
  | .decide f => f.wf
  | .checkpointDone c _ => wfCtx c
  | .checkpointTrigger c _ die => wfCtx c && wfDie die
  | .checkpointTimer c => wfCtx c
  | .mirror f => f.wf
  | .mirrorAck f => f.wf
  | .rebuildFrame f => f.wf
  | .stage f => f.wf
  | .coll f => f.wf
  | .ring f => f.wf
  | .ingest f => f.wf
  | .guest f => f.wf
  | .mgmt f => f.wf
  | .relayed f => f.wf
  | .linkctl f => f.wf
  | .ptpFrame port _ => wfPort port
  | .pauseFrame port prio _ => wfPort port && below prio 8
  | .pauseRepeat port prio => wfPort port && below prio 8
  | .frameTransmit _ cls => below cls 8
  | .replayTimer _ cls => below cls 8
  | .linkctlTimer _ => true
  | .linkSilenceTimeout _ => true
  | .portSignalLoss port => wfPort port
  | .linkMove _ => true
  | .replayRateWindow e => wfEave e
  | .ppsSecond => true
  | .ptpSelect src _ => src.wf
  | .eavPctlWrite src port _ => src.wf && wfPort port
  | .eavWrrWrite src port _ => src.wf && wfPort port
  | .nodeWrite src node => src.wf && wfNode node
  | .flitCrcFail die dir strand => wfDie die && wfDir dir && wfStrand strand
  | .strandFail die dir strand => wfDie die && wfDir dir && wfStrand strand
  | .edgeDown die dir => wfDie die && wfDir dir
  | .strandRetire src die dir mask => src.wf && wfDie die && wfDir dir && below mask 256
  | .strandWarnWindow die dir => wfDie die && wfDir dir
  | .dieClockSupplyLoss die => wfDie die
  | .fenceNotice die _ => wfDie die
  | .takeover => true
  | .takeoverComplete => true
  | .guestRequest site req => wfSite site && wfGuest req
  | .guestAdmit site => wfSite site
  | .overpower site => wfSite site
  | .sitePowerOn src site => src.wf && wfSite site
  | .memoryRead c _ _ => wfCtx c
  | .memoryWrite c _ _ => wfCtx c
  | .eccReread stack _ => wfThatch stack
  | .ceRateWindow t => wfThatch t
  | .atomicApply c _ _ => wfCtx c
  | .refreshRateChange t _ => wfThatch t
  | .refreshTick t errors => wfThatch t && errors.all fun e => below e.1 (2 ^ 30)
  | .bandWrite src kinds => src.wf && below kinds (2 ^ 32)
  | .copyIn t eng _ _ => wfThatch t && wfEng eng
  | .copyOut t eng _ => wfThatch t && wfEng eng
  | .fillConst t eng _ => wfThatch t && wfEng eng
  | .fillRng t eng _ => wfThatch t && wfEng eng
  | .test t eng _ _ => wfThatch t && wfEng eng
  | .verify t eng _ => wfThatch t && wfEng eng
  | .scrub t eng _ => wfThatch t && wfEng eng
  | .restore t eng _ _ => wfThatch t && wfEng eng
  | .rebuild t eng _ => wfThatch t && wfEng eng
  | .repair t eng _ => wfThatch t && wfEng eng
  | .liggerCommandDone t eng => wfThatch t && wfEng eng
  | .liggerResume src t eng => src.wf && wfThatch t && wfEng eng
  | .liggerAbort src t eng => src.wf && wfThatch t && wfEng eng
  | .doorbell src _ tail => src.wf && below tail 65536
  | .loadPlan c => wfCtx c
  | .loadPlanComplete c => wfCtx c
  | .launchStep c => wfCtx c
  | .stageLinks c => wfCtx c
  | .versionRings c => wfCtx c
  | .group _ => true
  | .reform _ => true
  | .route _ => true
  | .routePrefix _ => true
  | .rollback c => wfCtx c
  | .context _ => true
  | .bind _ => true
  | .snapshot c => wfCtx c
  | .snapshotComplete c => wfCtx c
  | .exportRing c => wfCtx c
  | .exportComplete c => wfCtx c
  | .fence _ _ => true
  | .flush c => wfCtx c
  | .cancel c => wfCtx c
  | .cplHeadWrite src c head => src.wf && wfCtx c && below head 65536
  | .cplBaseWrite src c _ => src.wf && wfCtx c
  | .resAck src c _ => src.wf && wfCtx c
  | .cmdRingConfigWrite src c _ _ => src.wf && wfCtx c
  | .evlogConfigWrite src c _ _ => src.wf && wfCtx c
  | .evlogReadWrite src c _ => src.wf && wfCtx c
  | .evlogClrLost src c => src.wf && wfCtx c
  | .trainingRegisterWrite src c _ _ => src.wf && wfCtx c
  | .xlateInv src c => src.wf && wfCtx c
  | .ctxReset src c => src.wf && wfCtx c
  | .contextResetDone c => wfCtx c
  | .acctClr src c => src.wf && wfCtx c
  | .apertureAccess _ n off _ => wfCtx n && below off (2 ^ 32)
  | .energyInterval _ => true
  | .marginSample r _ => wfRafter r
  | .epoch src r => src.wf && wfRafter r
  | .marginEpochEnd r _ _ => wfRafter r
  | .voffWrite src r steps => src.wf && wfRafter r && below steps 16
  | .tileRetire src r tile => src.wf && wfRafter r && below tile 2304
  | .schedClrMiss src c => src.wf && wfCtx c
  | .schedClrSlip src c => src.wf && wfCtx c
  | .schedClrWait src c => src.wf && wfCtx c
  | .schedClrSusp src c => src.wf && wfCtx c
  | .arithClrSat src c => src.wf && wfCtx c
  | .arithClrGate src c => src.wf && wfCtx c
  | .arithClrPoison src c => src.wf && wfCtx c
  | .sfuClrMasked src c => src.wf && wfCtx c
  | .sfuClrNan src c => src.wf && wfCtx c
  | .slotClrOverflow src c => src.wf && wfCtx c
  | .slotClrEmpty src c => src.wf && wfCtx c
  | .pipeClrQcount src c => src.wf && wfCtx c
  | .pipeClrChan src c => src.wf && wfCtx c
  | .memClrEcc src t => src.wf && wfThatch t
  | .memClrWin src t => src.wf && wfThatch t
  | .ctxMemClrPoison src c => src.wf && wfCtx c
  | .trainClrSkip src c => src.wf && wfCtx c
  | .collClrSts src c => src.wf && wfCtx c
  | .collClrChunks src c => src.wf && wfCtx c
  | .collClrStale src c => src.wf && wfCtx c
  | .eavClrPorts src e => src.wf && wfEave e
  | .eavClrDrop src e => src.wf && wfEave e
  | .eavClrRelay src e => src.wf && wfEave e
  | .eavClrReroute src e => src.wf && wfEave e
  | .resClrMirwait src c => src.wf && wfCtx c
  | .resClrCkpt src c => src.wf && wfCtx c
  | .clrErr src addr => src.wf && below addr (2 ^ 24)
  | .registerWrite src addr _ _ => src.wf && below addr (2 ^ 24 + 2 ^ 26)
  | .launchT0 c => wfCtx c
  | .queueSpaceFreed c link => wfCtx c && wfLink link
  | .flitReplayCaughtUp die dir strand => wfDie die && wfDir dir && wfStrand strand
  | .pauseExpiry port prio => wfPort port && below prio 8
  | .voffMove r => wfRafter r
  | .tileRetireDone r => wfRafter r
  | .hostLinkUp _ width _ inverted => [1, 2, 4, 8, 16].contains width && inverted.all fun l => below l width
  | .configurationRequest _ => true
  | .testAccessPort _ => true
  | .dynamicAddressAssignment _ addr => below addr 128
  | .otherEthertypeFrame port _ _ => wfPort port
  | .temperatureSample die _ => wfDie die

end Sys2Proof
end

