-- ==== Sys2Proof/Tests/Slice0.lean ====
section
/-! SUPPORT. The model's own tests: ill-formed commands that WellFormed refuses, worked examples of the manual, single commands on
small states, and for every statement with hypotheses a concrete state and operands that meet them. -/

set_option Elab.async false

namespace Sys2Proof.Tests

open Sys2Proof Sys2Proof.Machine

/-! ## WellFormed: an ill-formed command for each check -/

theorem test_wf_ctx : (Instr.launchReady 1024).wf = false ∧ (Instr.launchReady 1023).wf = true := by decide
theorem test_wf_tile : (Instr.nop 0 80640).wf = false ∧ (Instr.nop 0 80639).wf = true := by decide
theorem test_wf_die : (Instr.dieClockSupplyLoss 64).wf = false ∧ (Instr.dieClockSupplyLoss 63).wf = true := by decide
theorem test_wf_dir : (Instr.edgeDown 0 4).wf = false ∧ (Instr.edgeDown 0 3).wf = true := by decide
theorem test_wf_strand : (Instr.strandFail 0 0 8).wf = false ∧ (Instr.strandFail 0 0 7).wf = true := by decide
theorem test_wf_rafter : (Instr.voffMove 36).wf = false ∧ (Instr.voffMove 35).wf = true := by decide
theorem test_wf_thatch : (Instr.refreshTick 16 []).wf = false ∧ (Instr.refreshTick 15 []).wf = true := by decide
theorem test_wf_eave : (Instr.eaveReady 8).wf = false ∧ (Instr.eaveReady 7).wf = true := by decide
theorem test_wf_port : (Instr.portUp 64).wf = false ∧ (Instr.portUp 63).wf = true := by decide
theorem test_wf_eng : (Instr.copyOut 0 4 1).wf = false ∧ (Instr.copyOut 0 3 1).wf = true := by decide
theorem test_wf_site : (Instr.overpower 2).wf = false ∧ (Instr.overpower 1).wf = true := by decide
theorem test_wf_link : (Instr.packetArrival 0 1024).wf = false ∧ (Instr.packetArrival 0 1023).wf = true := by decide
theorem test_wf_node : (Instr.nodeWrite .mgmt 1048576).wf = false ∧ (Instr.nodeWrite .mgmt 1048575).wf = true := by decide
theorem test_wf_src : (Instr.clkRestore (.vf false 1024)).wf = false ∧ (Instr.clkRestore (.vf false 1023)).wf = true := by decide
theorem test_wf_unit : (Instr.unitOperationComplete 0 0 (.stream 8)).wf = false
    ∧ (Instr.unitOperationComplete 0 0 (.stream 7)).wf = true := by decide
theorem test_wf_guest : (Instr.guestRequest 0 (.frame 1048576 [])).wf = false ∧ (Instr.guestRequest 0 (.frame 5 [])).wf = true := by decide
theorem test_wf_level : (Instr.sagLevelEnter 7).wf = false ∧ (Instr.sagLevelEnter 6).wf = true := by decide
theorem test_wf_div : (Instr.clkDivWrite .mgmt 4).wf = false ∧ (Instr.clkDivWrite .mgmt 3).wf = true := by decide
theorem test_wf_code : (Instr.pkgResetWrite .mgmt 65536 true).wf = false := by decide
theorem test_wf_tail : (Instr.doorbell .mgmt none 65536).wf = false := by decide
theorem test_wf_mask : (Instr.strandRetire .mgmt 0 0 256).wf = false := by decide
theorem test_wf_prio : (Instr.pauseExpiry 0 8).wf = false := by decide
theorem test_wf_slot : (Instr.voteSend 0 4).wf = false := by decide
theorem test_wf_cls : (Instr.replayTimer 0 8).wf = false := by decide
theorem test_wf_epoch : (Instr.marginEpochEnd 36 [] []).wf = false := by decide
theorem test_wf_retired_tile : (Instr.tileRetire .mgmt 0 2304).wf = false := by decide
theorem test_wf_address : (Instr.registerWrite .mgmt (2 ^ 24 + 2 ^ 26) .eight 0).wf = false := by decide
theorem test_wf_aperture : (Instr.apertureAccess false 0 (2 ^ 32) (.read 1)).wf = false := by decide
theorem test_wf_bus_address : (Instr.dynamicAddressAssignment false 128).wf = false := by decide
theorem test_wf_kinds : (Instr.bandWrite .mgmt (2 ^ 32)).wf = false := by decide

/-! ## Small states -/

/-- A die that is ready. -/
def dieUp : Die := { Die.init with ready := true, prlReady := true }

/-- The package with every die ready, port A linked, and RDG-A released. -/
def up : State :=
  { State.reset with linkA := true, tb := 100000, dies := (List.range 64).map fun d => (d, dieUp), regs := [(Off.RDG_BOOT, 1)] }

/-- A state with registers set. -/
def withRegs (s : State) (l : List (Nat × Word)) : State := l.foldl (fun t r => t.setReg r.1 r.2) s

/-- An entry: its class, and fields by lowest bit. -/
def ent (cls : Nat) (l : List (Nat × Nat)) : EntryBits := BitVec.ofNat 256 (cls * 2 ^ 248 + (l.map fun p => p.2 * 2 ^ p.1).sum)

/-- A descriptor of a context on course 0 with the full set of memory. -/
def cfg0 : CtxCfg := ⟨0, 0, 0, 1, 1, [0], 0, []⟩

/-- A launch that runs. -/
def run0 : Running := ⟨5, 1000, true, 0, 0, 0x7F800000, 0, [], [], false, false, 0, 1000⟩

/-- A tile whose plan holds one entry four times. -/
def tile0 (e : EntryBits) : Tile :=
  { Tile.init with length := 4, frames := [⟨some 0, [e, e, e, e]⟩], running := true, prevA := 10, planned := 10 }

/-- Context 0 with one tile. -/
def ctx0 (x : Tile) : Ctx := { Ctx.init with cfg := some cfg0, running := some run0, tiles := [(0, x)] }

/-- The package with a context. -/
def withCtx (x : Ctx) : State := { up with ctxs := [(0, x)] }

/-- The package with one tile whose next entry is `e`. -/
def atTile (e : EntryBits) : State := withCtx (ctx0 (tile0 e))

/-- What stands in a next state. -/
def nextWhere (o : Out) (p : State → Bool) : Bool :=
  match o with
  | .next t => p t
  | .fault _ => false
  | .refused _ => false

/-! ## Worked examples of the manual -/

/-- 00_scope.md: 0x0003 is later than 0xFFF0; 0x8000 is earlier than 0x0000. -/
theorem test_modular_order : laterMod 16 0x0003 0xFFF0 = true ∧ earlierMod 16 0x8000 0x0000 = true := by decide

/-- 16_register_pages.md: EAV_PCTL of port 5 on EAV4, CTX_HOLD_LIMIT of context 12, DMR page of site 0. -/
theorem test_worked_addresses : portReg 37 Off.EAV_PCTL = 0x00E40540 ∧ ctxA 12 Off.CTX_HOLD_LIMIT = 2 ^ 24 + 0x000C0400
    ∧ bar0 (siteDie 0) 0x30 0 = 0x001F0000 := by decide

/-- 01_package.md: SerDes lane 301 lies on package port 37, on EAV4, die 57. -/
theorem test_port_37 : portDie 37 = 57 := by decide

/-- 08_memory.md: DPA 0x0000_1234_5600 lies on THC7 at stack-local address 0x0123_4500. -/
theorem test_interleave_hash : dpaLoc 0x12345600 = .mem 1 0 0 7 0x01234500 := by decide +kernel

/-- 04_matrix_array.md: an MMA of 64 × 128 × 512 in E4M3 takes 16,404 cycles; 10_collectives.md: 128 × 128 × 256 steps too. -/
theorem test_mma_cycles : mmaCycles 64 128 512 = 16404 ∧ mmaCycles 128 128 256 = 16404 := by decide

/-- 12_package_fabric.md: RDG-B to RDG-A takes 14 hops by way of die 1, RDG-A to RDG-B 14 by way of die 8; the route of die 25 to die 30 takes 5
hops, and 7 once die 27 is lost, so that its signal is bound by 140 and then 172 ns. -/
theorem test_routes : up.hops 63 0 = 14 ∧ up.hops 0 63 = 14 ∧ up.hops 25 30 = 5
    ∧ ({ up with dies := Table.set up.dies 27 { dieUp with fenced := true } } : State).hops 25 30 = 7 := by decide +kernel

/-- 02_schedule_contract.md: at ÷4 a bound of 1,500 ns is 3,000 cycles; 00_scope.md: 200 µs is 400,000 cycles. -/
theorem test_cycles : up.cyc 1500 = 3000 ∧ up.cyc 200000 = 400000 := by decide +kernel

/-- 14_contexts_host.md, 07_pipeline_machinery.md: ring 2 with 4 slots, tag 0x0103: slot 3. -/
theorem test_version_slot : 0x0103 % 4 = 3 := by decide

/-! ## Single commands -/

theorem test_nop_goes_on : nextWhere (exec (.nop 0 0) (atTile (ent 0 []))) (fun t => (t.tile 0 0).pos = 1 ∧ (t.tile 0 0).prevA = 100000)
    = true := by decide +kernel

/-- A NOP whose offset has not passed does not issue. -/
theorem test_nop_waits : nextWhere (exec (.nop 0 0) (atTile (ent 0 [(216, 99991)]))) (fun t => t = atTile (ent 0 [(216, 99991)])) = true := by
  decide +kernel

/-- HOLD on one token of counter 3: it takes it. -/
theorem test_hold_consumes :
    nextWhere (exec (.hold 0 0) (withCtx (ctx0 { tile0 (ent 1 [(188, 1), (16, 3), (0, 1)]) with tokens := [(3, 2)] }))) (fun t => (t.tile 0 0).pos = 1 ∧
      (t.tile 0 0).tokens = [(3, 1)]) = true := by decide +kernel

theorem test_end_stops : nextWhere (exec (.endEntry 0 0) (atTile (ent 4 []))) (fun t => (t.tile 0 0).running = false) = true := by decide +kernel

/-- A unit that is busy. -/
def busyOp : UnitOp := ⟨ent 0x10 [], 0, 90000, 200000, [], 0, 0, 0, 0, 0, 0, 0, none, none, none, none⟩

/-- A busy array is ISSUE_CONFLICT (2) of tile 0, entry 0, detected in this cycle. -/
theorem test_busy_array :
    nextWhere (exec (.mma 0 0) (withCtx (ctx0 { tile0 (ent 0x10 []) with matrix := some busyOp })))
      (fun t => t.cycle.faults = [⟨0, 2, some (2, 0, 0)⟩]) = true := by decide +kernel

/-- A write to CTX_HOLD_LIMIT of context 12 reaches it. -/
theorem test_register_write :
    nextWhere (exec (.registerWrite (.pf false) (ctxA 12 Off.CTX_HOLD_LIMIT) .eight 5000) up) (fun t => t.cf 12 Off.CTX_HOLD_LIMIT 31 0 = 5000)
      = true := by decide +kernel

/-- A read-only register keeps its value. -/
theorem test_read_only :
    nextWhere (exec (.registerWrite (.pf false) (ctxA 12 Off.CTX_SLIP_CYCLES) .eight 5000) up) (fun t => t.reg (ctxA 12 Off.CTX_SLIP_CYCLES) = 0)
      = true := by decide +kernel

/-- 15_power_clocks_bringup.md: the ninth sample at 39.5 V is below the thresholds of levels 1 to 3 (44, 42 and 40 V), not of level 4. -/
theorem test_sag_thresholds : 3950 < sagEnter 1 ∧ 3950 < sagEnter 2 ∧ 3950 < sagEnter 3 ∧ ¬3950 < sagEnter 4 := by decide

theorem test_test_chain : exec (.testAccessPort .internalChain) { up with tapUnlocked := true } = .refused .internalTestChain := rfl

/-- An empty queue counts a cycle. -/
theorem test_tick : nextWhere (step up) (fun t => t.tb = 100001) = true := by decide +kernel

theorem test_decode_nothing : decodeTableWord 32 0xFFFFFFFF = none := by decide

/-! ## Witnesses: states and operands that meet the hypotheses of the statements -/

theorem witness_StepRunsTheFrontCommand :
    ({ up with pending := [.ppsSecond, .pwrEnRise] } : State).pending = .ppsSecond :: [.pwrEnRise] ∧ up.pending = [] ∧ up.pwrgd = true
      ∧ ({ up with pwrgd := false } : State).pending = [] ∧ ({ up with pwrgd := false } : State).pwrgd = false := by decide +kernel

theorem witness_CommandsKeepTheQueueAndAnswer : up.Inv ∧ (∃ t, exec .ppsSecond up = .next t)
    ∧ ({ up with tapUnlocked := true } : State).tapUnlocked = true ∧ up.tapUnlocked = false :=
  ⟨⟨by decide +kernel, by decide +kernel, by decide +kernel, ⟨by decide +kernel, by intro e h; cases h⟩, by decide +kernel, by decide +kernel,
    by decide +kernel, by decide +kernel, by intro t h; exact absurd h (by simp [up, State.reset])⟩, ⟨_, rfl⟩, rfl, rfl⟩

theorem witness_StepKeepsInvariant : up.Inv ∧ ∃ t, step up = .next t := ⟨witness_CommandsKeepTheQueueAndAnswer.1, ⟨_, rfl⟩⟩

/-- A host write by source `src` reaches the register at `a`, as a Bool. -/
def reaches (s : State) (src : HostSrc) (a : Nat) : Bool :=
  !s.cycle.issued && s.srcOk src a && s.recoveryOk src a && !s.pageFenced a && s.pageReady a (s.srcPort src)

theorem reaches_of {s : State} {src : HostSrc} {a : Nat} (h : reaches s src a = true) : WriteReaches s src a := by
  simpa [reaches, WriteReaches, and_assoc] using h

/-- The physical function of port A. -/
abbrev pfA : HostSrc := .pf false

theorem witness_ContextClearRows : ∀ a ∈ [ctxA 1023 Off.CTX_SCHED_CLR, ctxA 1023 Off.CTX_ARITH_CLR, ctxA 1023 Off.CTX_SFU_CLR,
    ctxA 1023 Off.CTX_SLOT_CLR, ctxA 1023 Off.CTX_MEM_CLR, ctxA 1023 Off.CTX_TRAIN_CLR, ctxA 1023 Off.CTX_COLL_CLR,
    ctxA 1023 Off.CTX_RES_CLR], WriteReaches up pfA a ∧ WriteReaches up (.vf false 1023) a := fun a h =>
  have k : ∀ a ∈ [ctxA 1023 Off.CTX_SCHED_CLR, ctxA 1023 Off.CTX_ARITH_CLR, ctxA 1023 Off.CTX_SFU_CLR, ctxA 1023 Off.CTX_SLOT_CLR,
    ctxA 1023 Off.CTX_MEM_CLR, ctxA 1023 Off.CTX_TRAIN_CLR, ctxA 1023 Off.CTX_COLL_CLR, ctxA 1023 Off.CTX_RES_CLR],
    reaches up pfA a && reaches (withCtx Ctx.init) (.vf false 1023) a && reaches up (.vf false 1023) a := by decide +kernel
  ⟨reaches_of (by have := k a h; simp_all), reaches_of (by have := k a h; simp_all)⟩

theorem witness_PageAndPipeClearRows :
    WriteReaches up pfA (bar0 (thatchDie (15 % 16)) 0 Off.THC_MEM_CLR) ∧ WriteReaches up pfA (bar0 (eaveDie (7 % 8)) 0 Off.EAV_CLR)
      ∧ pageAt 63 2 = some .btn ∧ WriteReaches up pfA (bar0 63 2 Off.PG_CTL) ∧ WriteReaches up pfA Off.RDG_ACCT_CLR
      ∧ WriteReaches up pfA (ctxA 1023 Off.CTX_PIPE_CLR) :=
  ⟨reaches_of (by decide +kernel), reaches_of (by decide +kernel), by decide +kernel, reaches_of (by decide +kernel),
    reaches_of (by decide +kernel), reaches_of (by decide +kernel)⟩

theorem witness_PlainEntriesAndSignalsIssue :
    (atTile (ent 0 [])).dueClass 0 0 0x00 = some (ent 0 []) ∧ (atTile (ent 1 [])).dueClass 0 0 0x01 = some (ent 1 [])
      ∧ (atTile (ent 0x60 [(244, 1)])).dueClass 0 0 0x60 = some (ent 0x60 [(244, 1)])
      ∧ (atTile (ent 2 [])).dueClass 0 0 0x02 = some (ent 2 []) := by decide +kernel

theorem witness_LoopsAndEnd :
    (atTile (ent 3 [(205, 1), (185, 2)])).dueClass 0 0 0x03 = some (ent 3 [(205, 1), (185, 2)]) ∧ 0 < ef (ent 3 [(205, 1), (185, 2)]) 215 205
      ∧ ef (ent 3 [(185, 2)]) 215 205 = 0 ∧ ((atTile (ent 3 [(205, 1), (185, 2)])).tile 0 0).subEnd = none
      ∧ (⟨1, 1, 2, 0⟩ : Rep).index + 1 < (⟨1, 1, 2, 0⟩ : Rep).passes ∧ (⟨1, 1, 2, 1⟩ : Rep).passes ≤ (⟨1, 1, 2, 1⟩ : Rep).index + 1
      ∧ (atTile (ent 4 [])).dueClass 0 0 0x04 = some (ent 4 []) ∧ ((atTile (ent 4 [])).ctx 0).running = some run0 ∧ run0.started = true
      ∧ ((atTile (ent 4 [])).tile 0 0).running = true := by decide +kernel

/-- A verdict slot that is decided. -/
def decided0 : Slot := ⟨0, true, 0, 1, some 1, 4, [], 0, none, 0, 3, 1, 0, 0, 0⟩

theorem witness_ComputeEntriesIssue :
    (∀ cls ∈ [0x10, 0x11, 0x12, 0x20, 0x58, 0x21, 0x22, 0x23, 0x28, 0x50], (atTile (ent cls [])).dueClass 0 0 cls = some (ent cls []))
      ∧ (tile0 0).matrix = none ∧ (tile0 0).vector = none ∧ (tile0 0).special = none ∧ eb (ent 0x28 []) 69 = false
      ∧ (let e := ent 0x28 [(69, 1)]
         let s := withCtx { ctx0 (tile0 e) with running := some { run0 with slots := [(0, decided0)] } }
         s.dueClass 0 0 0x28 = some e ∧ (s.tile 0 0).vector = none ∧ eb e 69 = true ∧ s.slotApplied 0 (ef e 71 70) = true) := by decide +kernel

/-- Slot entries by mode. -/
def slotEnt (m : Nat) : EntryBits := ent 0x32 [(214, m)]

theorem witness_TransferEntriesAndAssignIssue :
    (∀ cls ∈ [0x30, 0x31], (atTile (ent cls [])).dueClass 0 0 cls = some (ent cls []))
      ∧ (atTile (ent 0x30 [])).streamBase 0 0 (ent 0x30 []) (streamDesc ((atTile (ent 0x30 [])).descOf 0 0 0)) = some 0
      ∧ (atTile (ent 0x30 [])).engineLoad 0 0 0 = 0
      ∧ (∀ m ∈ [0, 1, 2, 3], (atTile (slotEnt m)).dueSlot 0 0 m = some (slotEnt m)) := by decide +kernel

/-- A stage link. -/
def link0 : StageLink := ⟨true, true, false, 4096, 0, 0, false, 3, 8192, 4000, 100, 60, 10, 0, 1⟩

theorem witness_QueueEntriesIssue :
    let s (cls : Nat) : State := withCtx { ctx0 (tile0 (ent cls [])) with links := [(0, link0)] }
    Table.get? ((s 0x40).ctx 0).links 0 = some link0 ∧ (s 0x40).dueClass 0 0 0x40 = some (ent 0x40 []) ∧ link0.txEn = true
      ∧ ef (ent 0x40 []) 191 180 + 1 ≤ link0.maxLen ∧ (s 0x40).engineLoad 0 0 0 < 4 ∧ (s 0x41).dueClass 0 0 0x41 = some (ent 0x41 [])
      ∧ link0.rxEn = true ∧ ef (ent 0x41 []) 184 173 + 1 ≤ link0.maxLen := by decide +kernel

/-- A send endpoint that a negative acknowledgement has reached. -/
def nackedEp : TxEp := { TxEp.init with busy := true, retries := 1, nackAt := some 90000, lastTry := 80000, rgap := 20 }

theorem witness_ChannelEntriesIssue :
    (atTile (ent 0x38 [])).dueClass 0 0 0x38 = some (ent 0x38 []) ∧ ((atTile (ent 0x38 [])).txEp 0 0 0).busy = false
      ∧ (let s := withCtx (ctx0 { tile0 0 with tx := [(15, nackedEp)] })
         (s.txEp 0 0 15).nackAt = some 90000 ∧ (s.txEp 0 0 15).busy = true ∧ (s.txEp 0 0 15).lastTry + (s.txEp 0 0 15).rgap ≤ s.now
          ∧ 90000 ≤ s.now)
      ∧ (∀ cls ∈ [0x39, 0x3A], (atTile (ent cls [])).dueClass 0 0 cls = some (ent cls [])) ∧ ((atTile (ent 0x39 [])).rxEp 0 0 0).armed = false := by
  decide +kernel

/-- A stream entry through a version ring that no entry installs. -/
def ringEnt (cls : Nat) : EntryBits := ent cls [(183, 1)]

/-- A group of context 0 with its member list, of which this package is member 0. -/
def group0 : Group := ⟨0, 2, 3, 4, [0, 7], 0, 4096, 1, 0, 0, 0, 4096, 0, 64, 9, 0, 1, 0, []⟩

/-- Context 0 at a collective entry, with a group and a tile. -/
def atColl (g : Group) (x : Tile) : State := { withCtx (ctx0 x) with groups := [(0, g)] }

theorem witness_EntriesThatCannotIssueFault :
    (∀ cls ∈ [0x10, 0x11, 0x12], (withCtx (ctx0 { tile0 (ent cls []) with matrix := some busyOp })).dueClass 0 0 cls = some (ent cls [])
        ∧ (atTile (ent cls [])).dueClass 0 0 cls = some (ent cls []))
      ∧ (∀ cls ∈ [0x20, 0x28, 0x50, 0x58], (withCtx (ctx0 { tile0 (ent cls []) with vector := some busyOp })).dueClass 0 0 cls = some (ent cls []))
      ∧ (∀ cls ∈ [0x21, 0x22, 0x23], (withCtx (ctx0 { tile0 (ent cls []) with special := some busyOp })).dueClass 0 0 cls = some (ent cls []))
      ∧ (let s := withCtx (ctx0 { tile0 (ent 0x38 []) with tx := [(0, nackedEp)] })
         s.dueClass 0 0 0x38 = some (ent 0x38 []) ∧ (s.txEp 0 0 0).busy = true)
      ∧ (∀ cls ∈ [0x39, 0x3A], let s := withCtx (ctx0 { tile0 (ent cls []) with rx := [(0, { RxEp.init with armed := true })] })
         s.dueClass 0 0 cls = some (ent cls []) ∧ (s.rxEp 0 0 0).armed = true)
      ∧ (∀ cls ∈ [0x30, 0x31], (atTile (ringEnt cls)).dueClass 0 0 cls = some (ringEnt cls)
        ∧ (atTile (ringEnt cls)).streamBase 0 0 (ringEnt cls) (streamDesc ((atTile (ringEnt cls)).descOf 0 0 0)) = none)
      ∧ (let x : Xfer := ⟨0, 0, some 0, none, .streamIn 0 0 1 64, 64, 1024, 0, 0, none, none, 0, false, [], [], [], [], [], false, [], 0, [], [], [], false⟩
         let s := withCtx { ctx0 (tile0 (ent 0x30 [])) with xfers := [(0, x), (1, x), (2, x), (3, x)] }
         s.dueClass 0 0 0x30 = some (ent 0x30 []) ∧ 4 ≤ s.engineLoad 0 0 0
          ∧ (s.streamBase 0 0 (ent 0x30 []) (streamDesc (s.descOf 0 0 0))).isSome = true
          ∧ (∀ m ∈ [1, 2, 3], let u := withCtx { ctx0 (tile0 (slotEnt m)) with xfers := [(0, x), (1, x), (2, x), (3, x)] }
             u.dueSlot 0 0 m = some (slotEnt m) ∧ 4 ≤ u.engineLoad 0 0 0)
          ∧ (let u := withCtx { ctx0 (tile0 (slotEnt 0)) with xfers := [(0, x)] }
             u.dueSlot 0 0 0 = some (slotEnt 0) ∧ u.engineLoad 0 0 0 ≠ 0))
      ∧ (let e := ent 0x28 [(69, 1)]
         (atTile e).dueClass 0 0 0x28 = some e ∧ ((atTile e).tile 0 0).vector = none ∧ eb e 69 = true
          ∧ (atTile e).slotApplied 0 (ef e 71 70) = false)
      ∧ (withCtx (ctx0 { tile0 (ent 0x18 []) with matrix := some busyOp })).dueClass 0 0 0x18 = some (ent 0x18 [])
      ∧ (∀ cls ∈ [0x40, 0x41], (atTile (ent cls [])).dueClass 0 0 cls = some (ent cls []) ∧ Table.get? ((atTile (ent cls [])).ctx 0).links 0 = none)
      ∧ (atTile (ent 0x18 [])).dueClass 0 0 0x18 = some (ent 0x18 [])
      ∧ (Table.get? (atTile (ent 0x18 [])).groups (collOp (ent 0x18 [])).group).filter (fun g => g.ctx = 0) = none
      ∧ (let s := atColl { group0 with ltFirst := 1 } (tile0 (ent 0x18 []))
         s.dueClass 0 0 0x18 = some (ent 0x18 []) ∧ (s.tile 0 0).matrix = none
          ∧ (Table.get? s.groups (collOp (ent 0x18 [])).group).filter (fun g => g.ctx = 0) = some { group0 with ltFirst := 1 }
          ∧ (s.openInsts 0 0 0 { group0 with ltFirst := 1 }).length < 2 ∧ ({ group0 with ltFirst := 1 } : Group).hasTile 0 = false)
      ∧ (let g : Group := { group0 with pool := 1, order := 1, npool := 2 }
         let s := atColl g (tile0 (ent 0x18 []))
         s.dueClass 0 0 0x18 = some (ent 0x18 []) ∧ (s.openInsts 0 0 0 g).length < 2 ∧ g.hasTile 0 = true
          ∧ g.serves (collOp (ent 0x18 [])).op = true ∧ g.pool ≠ 0 ∧ (Table.getD 0 (s.tile 0 0).poolOrd g.pool).toNat % g.npool ≠ g.order) := by
  decide +kernel

/-- Two units of a tile that name bank 0 in one slot clash, at the later entry, wherever Config's free value names that bank for both (log 11). -/
theorem witness_BankClash (h : 0 ∈ Config.unitBanks 0 0 false) :
    let o : UnitOp := { busyOp with entry := 0, startAt := 100000 }
    let s := withCtx (ctx0 { tile0 0 with matrix := some o, vector := some { o with pos := 1 } })
    (s.tile 0 0).clashAt s.now = some 1 := by
  have n : ∀ p, UnitOp.names { busyOp with entry := 0, startAt := 100000, pos := p } .computeRead 100000 0 = true := fun p => by
    simpa [UnitOp.names, slotAt, SlotOwner.slot] using h
  have c : ∀ p q, UnitOp.clash { busyOp with entry := 0, startAt := 100000, pos := p } { busyOp with entry := 0, startAt := 100000, pos := q } 100000 = true :=
    fun p q => List.any_eq_true.2 ⟨0, by simp, List.any_eq_true.2 ⟨.computeRead, by simp, by rw [n p, n q]; rfl⟩⟩
  have w : (withCtx (ctx0 { tile0 0 with
      matrix := some { busyOp with entry := 0, startAt := 100000 }, vector := some { busyOp with entry := 0, startAt := 100000, pos := 1 } })).now = 100000 := by
    decide +kernel
  show Tile.clashAt { tile0 0 with
      matrix := some { busyOp with entry := 0, startAt := 100000 }, vector := some { busyOp with entry := 0, startAt := 100000, pos := 1 } } _ = _
  rw [w]
  have k := c 0 1
  simp only [Tile.clashAt, Tile.computing, tile0, Tile.init, List.filterMap_cons, List.filterMap_nil, Option.filter]
  simp [busyOp] at k ⊢
  simp [k]

theorem witness_ContextFaultStopsTheContext : (20 : Nat) < 256 ∧ (255 : Nat) < 256
    ∧ up.cf 0 Off.CTX_WD_SITE 51 48 = 0 ∧ (withRegs up [(ctxA 0 Off.CTX_FAULT, 20)]).cf 0 Off.CTX_FAULT 7 0 ≠ 0 ∧ (⟨0, 2, some (2, 0, 0)⟩ : PendFault).site = some (2, 0, 0)
    ∧ (15 : Nat) < 16 ∧ 2 ^ 17 - 1 < 2 ^ 17 ∧ 2 ^ 11 - 1 < 2 ^ 11 := by decide +kernel

/-- A transfer of tile 0 under way, with no request left. -/
def xfer0 (k : XKind) : Xfer := ⟨0, 0, none, some 3, k, 64, 1024, 0, 90000, some 95000, none, 0, false, [], [], [], [], [], false, [], 0, [], [], [], false⟩

/-- Context 0 with one transfer, number 0. -/
def withXfer (x : Xfer) : State := withCtx { ctx0 (tile0 0) with xfers := [(0, x)], nextXfer := 1 }

theorem witness_TransferAcceptanceFixesTheDeadline :
    (let x := { xfer0 (.signal 0 3 1) with acceptedAt := none }
     let s := withXfer x
     s.xfer 0 0 = some x ∧ x.acceptedAt = none ∧ s.halted = false ∧ (s.ctx 0).phase = .normal ∧ s.pushInOrder 0 x = true ∧ x.kind.isStream = false
      ∧ x.kind.pushLink = none ∧ s.suspended = false
      ∧ (match s.prepare 0 x with
          | .go z a => a.contracted && !z.suspended
          | _ => false) = true
      ∧ (match ({ s with takeoverActive := true } : State).prepare 0 x with
          | .go z _ => z.suspended
          | _ => false) = true)
    ∧ (let x := { xfer0 (.ack 0 true 0) with acceptedAt := none }
       (withXfer x).prepare 0 x = .wait)
    ∧ (let x := { xfer0 (.piece 0 4 1 ⟨0, 0, ⟨0, 0, 0, 0, 0⟩, 0, 0, 0, (0, 0), []⟩ []) with acceptedAt := none }
       (match (withXfer x).prepare 0 x with
          | .drop _ => true
          | _ => false) = true)
    ∧ (let x := { xfer0 (.streamIn 0 0 1 64) with acceptedAt := none, engine := some 0, segs := [⟨0, 64, 0⟩] }
       (withXfer x).bufferOk 0 0 x = true
        ∧ (match (withXfer x).prepare 0 x with
            | .fault _ code => decide (code = 20)
            | _ => false) = true) := by decide +kernel

/-- A memory transfer of one request of 64 bytes at DPA 64. -/
def memX (k : XKind) : Xfer := { xfer0 k with segs := [⟨64, 64, 0⟩], buf := List.replicate 64 1 }

theorem inv_withCtx_memX : ∀ k ∈ [XKind.streamIn 0 0 8 64, .streamOut 0 0 8 64 0 false, .streamOut 0 0 32 64 9 false],
    (withXfer (memX k)).Inv := by
  intro k h
  have b : ∀ k ∈ [XKind.streamIn 0 0 8 64, .streamOut 0 0 8 64 0 false, .streamOut 0 0 32 64 9 false],
      (Table.wf Ctx.init (withXfer (memX k)).ctxs) = true := by decide +kernel
  exact ⟨rfl, rfl, rfl, ⟨rfl, by intro e h; cases h⟩, (by decide +kernel : Registers.wf up.regs = true), b k h,
    (by decide +kernel : Table.wf Die.init up.dies = true), Nat.zero_le _, by intro t h; cases h⟩

theorem witness_MemoryRequestsAct :
    (let x := memX (.streamIn 0 0 8 64)
     let s := withXfer x
     s.request 0 0 0 = some (x, ⟨64, 64, 0⟩) ∧ x.kind.reads = true ∧ s.selfRefresh = false ∧ s.reach (s.homeDie 0 x) 64 = .ok 0 64
      ∧ s.mustReread 0 64 64 false x.allocates = [] ∧ x.segs[0]? = some ⟨64, 64, 0⟩ ∧ x.kind = .streamIn 0 0 8 64 ∧ 0 + 63 < x.buf.length)
    ∧ (let x := memX (.streamOut 0 0 8 64 0 false)
       let s := withXfer x
       s.request 0 0 0 = some (x, ⟨64, 64, 0⟩) ∧ x.kind.writes = true ∧ s.reach (s.homeDie 0 x) 64 = .ok 0 64
        ∧ s.mustReread 0 64 64 true x.allocates = [] ∧ 64 % 256 + 64 ≤ 256 ∧ 0 + 64 ≤ x.buf.length)
    ∧ (let x := { memX (.streamOut 0 0 32 64 9 false) with segs := [⟨64, 8, 0⟩] }
       let s := withXfer x
       s.request 0 0 0 = some (x, ⟨64, 8, 0⟩) ∧ x.kind.atop ≠ 0 ∧ x.kind.atop ≤ 9 ∧ s.reach (s.homeDie 0 x) 64 = .ok 0 64
        ∧ s.mustReread 0 64 8 true x.allocates = [] ∧ s.atomTurn 0 x ⟨64, 8, 0⟩ = true ∧ atomWidth 9 = 8 ∧ x.bufPoison = []
        ∧ (s.dpaRead 64 8).2 = false)
    ∧ (∀ k ∈ [XKind.streamIn 0 0 8 64, .streamOut 0 0 8 64 0 false], ∀ p ∈ [Upset.again 1, .dead], let x := { memX k with segs := [⟨64, 32, 0⟩] }
       let s := { withXfer x with upsets := [(1, p)] }
       s.request 0 0 0 = some (x, ⟨64, 32, 0⟩) ∧ s.selfRefresh = false ∧ s.reach (s.homeDie 0 x) 64 = .ok 0 64
        ∧ s.mustReread 0 64 32 x.kind.writes x.allocates ≠ []) := by decide +kernel

theorem witness_MemoryUpkeep :
    (let s := { up with rereads := [⟨15, 2 ^ 30 - 1, 0, 0⟩] }
     ∃ r ∈ s.rereads, r.stack = 15 ∧ r.sector = 2 ^ 30 - 1) ∧ up.selfRefresh = false
    ∧ (∀ p ∈ [Upset.again 1, .dead], ({ up with upsets := [(sectorKey 15 5, p)] } : State).upset 15 5 = some p)
    ∧ (∀ n ∈ [0, 1], let s := withRegs { up with tb := 2000000000, ceCount := [(15, n)] } [(bar0 (thatchDie 15) 0 Off.THC_CE_WARN, 0)]
      s.periodOver (.corrections 15) = true ∧ s.rf (bar0 (thatchDie 15) 0 Off.THC_CE_WARN) 31 0 = 0 ∧ Table.getD 0 s.ceCount 15 = n)
    ∧ up.alive (thatchDie 15) = true ∧ Table.getD 0 up.refreshAt 15 + up.refreshInterval 15 ≤ up.now
    ∧ (let s := { up with halted := true, selfRefresh := true }
       s.halted = true ∧ s.anyInFlight = false ∧ s.selfRefresh = true) := by decide +kernel

theorem witness_ArrivalsGiveTheirTokens :
    (let x := xfer0 (.streamIn 0 0 8 64)
     let s := withXfer x
     s.xfer 0 0 = some x ∧ s.canArrive 0 0 x = true ∧ x.orphan = false ∧ x.ctr = some 3 ∧ s.tokens 0 0 3 < 65535)
    ∧ (let x := xfer0 (.signal 0 3 255)
       let s := withXfer x
       s.xfer 0 0 = some x ∧ s.canArrive 0 0 x = true ∧ x.orphan = false ∧ s.tokens 0 0 3 + 255 ≤ 65535)
    ∧ (let x := { xfer0 (.streamOut 0 0 8 64 0 false) with orphan := true }
       let s := withXfer x
       s.xfer 0 0 = some x ∧ s.canArrive 0 0 x = true ∧ x.orphan = true)
    ∧ (let x := xfer0 (.refill 8 0)
       let s := withXfer x
       s.refillOf 0 0 0 = some (x, 8, 0) ∧ x.acceptedAt = some 95000 ∧ 95000 < s.now ∧ x.served = true ∧ s.allHere 0 0 x = true) := by decide +kernel

/-- Context 0 with a message on its way to an endpoint of its own tile. -/
def withMessage (r : RxEp) : State :=
  withCtx { ctx0 { tile0 0 with tx := [(1, { nackedEp with target := 0, rxEp := 2, nackAt := none })], rx := [(2, r)] } with
    xfers := [(0, { xfer0 (.message 1) with buf := List.replicate 64 1, ctr := none })], nextXfer := 1 }

/-- An endpoint that is armed for 64 bytes. -/
def armedEp : RxEp := { RxEp.init with armed := true, ctr := 4, maxLen := 64 }

/-- An endpoint that combines two contributions of 64 bytes. -/
def combineEp : RxEp := { armedEp with combine := true, nsend := 2 }

/-- The message of `withMessage`. -/
def message0 : Xfer := { xfer0 (.message 1) with buf := List.replicate 64 1, ctr := none }

/-- An acknowledgement on its way. -/
def acked (ok : Bool) : State := withXfer (xfer0 (.ack 1 ok 2))

/-- A combine whose sum is due. -/
def summed : State := withCtx (ctx0 { tile0 0 with rx := [(2, { armedEp with sumAt := some 90000 })] })

theorem witness_MessagesAndCombines :
    (withMessage RxEp.init).messageOf 0 0 = some (message0, 1, 0, 2) ∧ (withMessage armedEp).messageOf 0 0 = some (message0, 1, 0, 2)
      ∧ (withMessage combineEp).messageOf 0 0 = some (message0, 1, 0, 2) ∧ RxEp.init.judge 100000 0 64 = some 1
      ∧ armedEp.judge 100000 0 64 = none ∧ armedEp.judge 100000 0 65 = some 2 ∧ (withMessage armedEp).tokens 0 0 4 < 65535
      ∧ message0.acceptedAt = some 95000 ∧ 95000 < (withMessage armedEp).now ∧ (withMessage armedEp).allHere 0 0 message0 = true
      ∧ (withMessage armedEp).inOrder (.endpoint 0 0 2) 0 = true ∧ (up.purlin (up.tileDie 0 0) (up.tileDie 0 0)).isSome = true
      ∧ (acked true).allHere 0 0 (xfer0 (.ack 1 true 2)) = true ∧ (acked false).allHere 0 0 (xfer0 (.ack 1 false 2)) = true
      ∧ ((acked false).txEp 0 0 1).retries = 0
      ∧ (let s := withCtx { ctx0 { tile0 0 with tx := [(1, nackedEp)] } with xfers := [(0, xfer0 (.ack 1 false 2))], nextXfer := 1 }
         s.ackOf 0 0 = some (xfer0 (.ack 1 false 2), 1, false, 2) ∧ (s.txEp 0 0 1).retries ≠ 0)
      ∧ combineEp.judge 100000 0 64 = none ∧ (acked true).ackOf 0 0 = some (xfer0 (.ack 1 true 2), 1, true, 2)
      ∧ (acked false).ackOf 0 0 = some (xfer0 (.ack 1 false 2), 1, false, 2)
      ∧ (acked false).tokens 0 0 ((acked false).txEp 0 0 1).ackCtr < 65535 ∧ (summed.rxEp 0 0 2).sumAt = some 90000 ∧ 90000 ≤ summed.now
      ∧ summed.tokens 0 0 (summed.rxEp 0 0 2).ctr < 65535 := by
  constructorm* _ ∧ _ <;> decide +kernel

/-- Context 0 with a link whose producer has a packet of two words on its way. -/
def withPush (q : Queue) : State :=
  withCtx { ctx0 (tile0 0) with
    links := [(0, link0)], queues := [(0, { q with order := [0] })], xfers := [(0, xfer0 (.qpush 0 0 2 9 1 false))], nextXfer := 1 }

theorem witness_QueueBlockKeepsPacketsInOrder :
    (∀ n ∈ [8191, 8192], let s := withPush { Queue.init with packets := [⟨List.replicate n ⟨[], 0, false, false, 0⟩, 0, 0⟩] }
      s.pusher 0 0 = some (0, xfer0 (.qpush 0 0 2 9 1 false), 2, 9, 1) ∧ Table.get? (s.ctx 0).links 0 = some link0
        ∧ (s.queue 0 0).tail = false ∧ s.mayEnter 0 0 (xfer0 (.qpush 0 0 2 9 1 false)) = true ∧ s.onWay 0 0 0 = false
        ∧ (s.queue 0 0).full link0 = decide (n = 8192))
    ∧ (let s := withCtx { ctx0 (tile0 0) with links := [(0, link0)], queues := [(0, { Queue.init with written := [⟨[], 0, 0⟩] })] }
       s.crossedFrom (Packet.enteredAt ⟨[], 0, 0⟩) ≤ s.now ∧ (s.queue 0 0).written = [⟨[], 0, 0⟩] ∧ s.tokens 0 link0.arrTile link0.arrCtr < 65535)
    ∧ reaches up pfA (ctxA 1023 Off.CTX_QFLUSH) = true ∧ (up.ctx 1023).running = none ∧ ((atTile 0).ctx 0).running.isSome = true
    ∧ reaches (atTile 0) pfA (ctxA 0 Off.CTX_QFLUSH) = true := by decide +kernel

theorem witness_RegisterWritesAndRefusals :
    (pageAt 63 0 = some .rdg ∧ reaches up pfA (bar0 57 0 Off.PG_SCRATCH) = true ∧ reaches up (.vf false 1023) (ctxA 1023 Off.PG_SCRATCH) = true)
    ∧ (reaches up pfA (portReg 63 Off.EAV_MAC) = true ∧ up.rf (bar0 (portDie 63) 0 Off.PG_LOCK) 0 0 = 0)
    ∧ (let s := { up with regs := [(Off.RDG_BOOT, 1), (bar0 (portDie 63) 0 Off.PG_LOCK, 1), (portReg 63 Off.EAV_MAC, 5)] }
       s.rf (bar0 (portDie 63) 0 Off.PG_LOCK) 0 0 = 1 ∧ s.rf (portReg 63 Off.EAV_MAC) 47 0 ≠ fld 6 47 0
        ∧ reaches s pfA (portReg 63 Off.EAV_MAC) = true)
    ∧ (reaches up pfA Off.RDG_ASSET = true ∧ up.assetWritten = false)
    ∧ (let s := { withRegs up [(Off.RDG_ASSET, 5)] with assetWritten := true }
       s.assetWritten = true ∧ s.reg Off.RDG_ASSET ≠ 6 ∧ reaches s pfA Off.RDG_ASSET = true)
    ∧ (∀ a ∈ [bar0 57 0 0xFF8, bar0 57 0 0xFFC], pageOf a = some .eav ∧ up.srcOk pfA a = true ∧ up.recoveryOk pfA a = true
        ∧ up.pageFenced a = false ∧ up.pageReady a (up.srcPort pfA) = true ∧ regAt a = none)
    ∧ (let s := { up with dies := Table.set up.dies 57 Die.init }
       s.pageReady (bar0 57 0 0x80) (s.srcPort pfA) = false ∧ s.srcOk pfA (bar0 57 0 0x80) = true)
    ∧ up.cycle.issued = false ∧ ({ up with cycle := { Cycle.start with issued := true } } : State).cycle.issued = true := by
  constructorm* _ ∧ _ <;> decide +kernel

theorem witness_DividerAndPowerStates :
    reaches up pfA Off.RDG_CLK = true ∧ up.anyBusy = false ∧ up.rf Off.RDG_CLK 4 4 = 0 ∧ 2 % 4 ≠ 3 ∧ ¬(3 % 4 ≠ 3) ∧ up.rf Off.RDG_SAG 2 0 < 3
      ∧ up.rf Off.RDG_THERM 0 0 = 0 ∧ (withRegs up [(Off.RDG_SAG, 3)]).rf Off.RDG_SAG 2 0 = 3
      ∧ ({ up with divPend := some ⟨2, true, 5⟩ } : State).divPend = some ⟨2, true, 5⟩ ∧ up.cycle.issued = false
      ∧ ({ up with divPend := some ⟨2, true, 5⟩, cycle := { Cycle.start with issued := true } } : State).cycle.issued = true
      ∧ up.countedIn Off.RDG_SAG 0 ≠ 1 ∧ ({ up with cycle := { Cycle.start with counted := [(countKey Off.RDG_SAG 0, 1)] } } : State).countedIn Off.RDG_SAG 0 = 1
      ∧ reaches up pfA Off.RDG_PSTATE = true
      ∧ up.psTarget = none ∧ pstateFrom up.pstate 3 = true ∧ pstateFrom up.pstate 0 = false ∧ (∀ e ∈ up.ctxs, e.2.running = none)
      ∧ ({ up with psTarget := some 3 } : State).psTarget = some 3 := by decide +kernel

theorem witness_SagLevelsAndTheirUndoing :
    [4799, 8192].min? = some 4799 ∧ up.pwrgd = true ∧ up.periodOver .supply = true
    ∧ (∀ l ∈ [1, 5, 6], let s := { up with below := [(l, 9)] }
      s.rf Off.RDG_SAG 2 0 < l ∧ Table.getD 0 s.below l = 9 ∧ s.cycle.issued = false
        ∧ ({ s with cycle := { Cycle.start with issued := true } } : State).cycle.issued = true)
    ∧ (let s := { withRegs up [(Off.RDG_SAG, 5)] with above := [(5, 9)] }
       s.rf Off.RDG_SAG 2 0 = 5 ∧ Table.getD 0 s.above 5 = 9)
    ∧ reaches up pfA Off.RDG_SAG = true ∧ 4 ≤ (withRegs up [(Off.RDG_SAG, 4)]).rf Off.RDG_SAG 2 0
    ∧ (let s := { withRegs up [(Off.RDG_SAG, 3)] with entered := [1, 2, 3, 4] }
       s.rf Off.RDG_SAG 2 0 < 4 ∧ 4 ∈ s.entered ∧ reaches s pfA Off.RDG_SAG = true) := by decide +kernel

theorem witness_ThermalProtection :
    up.pwrgd = true ∧ up.rf Off.RDG_THERM 0 0 = 0 ∧ up.rf Off.RDG_THERM 2 2 = 0 ∧ dieKind 63 ≠ .dormer ∧ up.alive 63 = true
      ∧ (let s := withRegs { up with tb := 80000000 } [(bar0 63 1 Off.PRL_TEMP, 120)]
         s.pwrgd = true ∧ s.alive 63 = true ∧ s.rf Off.RDG_THERM 2 2 = 0 ∧ s.rf (bar0 63 1 Off.PRL_TEMP) 7 0 = 120 ∧ s.periodOver (.hot 63) = true
          ∧ s.periodOver (.temperature 63) = true)
      ∧ reaches up pfA Off.RDG_THERM = true ∧ (withRegs up [(bar0 63 1 Off.PRL_TEMP, 104)]).hottest.1 < 105
      ∧ 105 ≤ (withRegs up [(bar0 63 1 Off.PRL_TEMP, 105)]).hottest.1 := by decide +kernel

/-- A route to node 7 over ports 0 and 56. -/
def route7 : Route := ⟨0, 56, 0, 0, 5, 6, 0⟩

/-- The package with a route to node 7 whose ports are up. -/
def routed : State :=
  withRegs { up with routes := [(7, route7)] } [(portReg 0 Off.EAV_PSTS, 1), (portReg 56 Off.EAV_PSTS, 1), (portReg 0 Off.EAV_PCTL, 0x3F8 + 2),
    (portReg 56 Off.EAV_PCTL, 0x3F8 + 2)]

theorem witness_PackageAndDieRegisterWrites :
    reaches up pfA Off.RDG_NODE = true ∧ up.routes = [] ∧ routed.routes ≠ [] ∧ reaches routed pfA Off.RDG_NODE = true
      ∧ reaches up pfA Off.RDG_BAND = true ∧ bandOk 0xFFFFFFFF = true ∧ bandOk 1 = false ∧ reaches up pfA Off.RDG_PTP = true
      ∧ reaches up pfA Off.RDG_XLATE_INV = true ∧ up.busy 1023 = false ∧ (atTile 0).busy 0 = true
      ∧ reaches (atTile 0) pfA Off.RDG_XLATE_INV = true ∧ reaches up pfA (portReg 63 Off.EAV_PCTL) = true
      ∧ dieKind 63 ≠ .dormer ∧ reaches up pfA (btnReg 63 3 Off.BTN_RETIRE) = true ∧ reaches up pfA (dmrReg 1 Off.DMR_CTL) = true
      ∧ up.siteOn 1 = false ∧ reaches up pfA (bar0 (rafterDie 35) 0 Off.RFT_AGE_CMD) = true
      ∧ reaches up pfA (bar0 (rafterDie 35) 0 Off.RFT_VOFF) = true ∧ reaches up pfA (bar0 (rafterDie 35) 0 Off.RFT_RETIRE) = true
      ∧ (let s := { up with rafters := [(35, { Rafter.init with spares := [2303] })] }
         (List.range 2304).find? (s.rafter 35).freeSpare = some 2303 ∧ s.tileRuns 35 0 = false ∧ (s.rafter 35).enabled 0 = true
          ∧ ∀ x ∈ (s.rafter 35).retired, x.tile ≠ 0) := by decide +kernel

theorem witness_RingLogAndTrainingWrites :
    (∀ o ∈ [Off.CTX_DOORBELL, Off.CTX_CPL_CTL, Off.CTX_CPL_BASE, Off.CTX_RES_ACK, Off.CTX_CMD_BASE, Off.CTX_CMD_CTL, Off.CTX_EVLOG_BASE,
        Off.CTX_EVLOG_CTL, Off.CTX_EVLOG_PTR, trainingOff 0, trainingOff 1, trainingOff 2], reaches up pfA (ctxA 1023 o) = true)
      ∧ up.alive (ridgeOf (up.ctx 1023).boundB) = true
      ∧ (let s := { up with dies := Table.set up.dies 63 { dieUp with powered := false }, ctxs := [(0, { Ctx.init with boundB := true })] }
         reaches s pfA (ctxA 0 Off.CTX_DOORBELL) = true ∧ s.alive (ridgeOf (s.ctx 0).boundB) = false)
      ∧ (up.ctx 1023).phase ≠ .resetting ∧ up.rf Off.RDG_FWACT 0 0 = 0 ∧ up.ringWaits (.ctx 1023) = false ∧ up.busy 1023 = false
      ∧ ((withCtx { Ctx.init with phase := .resetting }).ctx 0).phase = .resetting
      ∧ ((withCtx { Ctx.init with mailbox := [⟨5, 2, 0, 0, 0, 0⟩] }).ctx 0).mailbox = [⟨5, 2, 0, 0, 0, 0⟩] ∧ (atTile 0).busy 0 = true
      ∧ 10 ≤ up.cf 1023 Off.CTX_EVLOG_CTL 4 0 ∧ up.cf 1023 Off.CTX_EVLOG_CTL 4 0 ≤ 24 ∧ (up.ctx 1023).running = none
      ∧ ((atTile 0).ctx 0).running.isSome = true
      ∧ (let s := up.cWrap 1023 Off.CTX_EVLOG_PTR 63 32 1
         s.countedIn (ctxA 1023 Off.CTX_EVLOG_PTR) 32 = 1
          ∧ laterMod 32 (s.cf 1023 Off.CTX_EVLOG_PTR 63 32) (s.cf 1023 Off.CTX_EVLOG_PTR 31 0) = true) := by decide +kernel

/-! ### Launches and commands of the rings -/

/-- A descriptor of a context on course 0 with stack 0 as its set. -/
def cfgS : CtxCfg := { cfg0 with setKind := 2 }

/-- A context whose first 2 MiB lie at the start of stack 0, writable. -/
def mapped : Ctx := { Ctx.init with cfg := some cfgS, tlb := [⟨0, true, 2 ^ 41 + 7⟩] }

/-- A command entry by its words. -/
def cmd (ws : List Nat) : Bits512 := BitVec.ofNat 512 (ws.zipIdx.map fun w => w.1 * 2 ^ (64 * w.2)).sum

/-- The cells of bytes from an address of stack 0 on. -/
def cells (at_ : Nat) (bs : List Byte) : List Host.Cell := (bs.zipIdx.map fun b => (at_ + b.2, b.1)).filter fun x => x.2 ≠ 0

/-- Context 0 with memory below 0x10000 and entry `e` at HEAD of its ring at 0x10000; band 0 of stack 0 belongs to the stack. -/
def ringedWith (x : Ctx) (m : List Host.Cell) (e : Bits512) : State :=
  withRegs { withCtx x with bands := [(0, 0x55555557)], mem := m ++ cells 0x10000 (leBytes 64 e.toNat) }
    [(ctxA 0 Off.CTX_CMD_BASE, 0x10000), (ctxA 0 Off.CTX_CMD_PTR, BitVec.ofNat 64 (2 ^ 16))]

/-- The same with no other memory. -/
def ringed (x : Ctx) (e : Bits512) : State := ringedWith x [] e

/-- `CtxTakes` as a Bool. -/
def takes (s : State) (e : Bits512) : Bool :=
  s.ringOpen (.ctx 0) && s.firstInLine 0 && decide (s.ringEntry (.ctx 0) = some e) && decide ((s.ctx 0).phase = .normal) && !s.entryWaits 0 e && cmdOk e false
    && !strayParam e false

theorem takes_of {s : State} {e : Bits512} (h : takes s e = true) : CtxTakes s 0 e := by
  simpa [takes, CtxTakes, and_assoc] using h

/-- A plan set for divider 0. -/
def plan0 : PlanSet := ⟨0, 1, 1024, []⟩

/-- A context with a plan and a launch queued for cycle 104000. -/
def queued : Ctx := { Ctx.init with cfg := some cfg0, plan := some plan0, queue := [⟨9, 104000, false⟩], tiles := [(0, { tile0 0 with running := false })] }

theorem witness_LaunchesStart :
    (let s := withCtx queued
     (s.ctx 0).queue = [⟨9, 104000, false⟩] ∧ (s.ctx 0).phase = .normal ∧ 104000 ≤ s.now + 4000 ∧ s.pstate = 0 ∧ s.psTarget = none
      ∧ (s.ctx 0).running = none ∧ (s.ctx 0).plan.map (·.divider) = some s.eff ∧ s.tablesOk 0 = true ∧ 0 < (s.tile 0 0).length)
    ∧ (let s := withRegs (withCtx { queued with cfg := some { cfg0 with ttRoot := 2 ^ 41 } }) [(ctxA 0 Off.CTX_PS_CTL, 7)]
       (s.ctx 0).queue = [⟨9, 104000, false⟩] ∧ (s.ctx 0).running = none ∧ (s.ctx 0).plan.map (·.divider) = some s.eff ∧ s.tablesOk 0 = false)
    ∧ ({ withCtx queued with pstate := 1 } : State).pstate ≠ 0
    ∧ ((withCtx { queued with running := some run0 }).ctx 0).running.isSome = true
    ∧ ((withCtx { queued with plan := some { plan0 with divider := 2 } }).ctx 0).plan.map (·.divider) ≠ some (withCtx queued).eff
    ∧ (let r : Running := { run0 with started := false }
       let s := { withCtx { queued with running := some r, plan := some { plan0 with slots := [(0, ⟨0, true, 0, 1⟩)] } } with groups := [(0, group0)] }
       (s.ctx 0).running = some r ∧ r.started = false ∧ r.t0 ≤ s.now ∧ (s.ctx 0).plan.map (·.slots) = some [(0, ⟨0, true, 0, 1⟩)]
        ∧ Table.get? s.groups 0 = some group0 ∧ group0.ctx = 0) := by
  constructorm* _ ∧ _ <;> decide +kernel

theorem witness_LaunchesEndAndComplete :
    (let s := withCtx { queued with running := some run0 }
     (s.ctx 0).running = some run0 ∧ run0.started = true ∧ ∀ e ∈ (s.ctx 0).tiles, e.2.running = false)
    ∧ (∀ n ∈ [31, 32], ((withCtx { Ctx.init with mailbox := List.replicate n ⟨5, 2, 0, 0, 0, 0⟩ }).ctx 0).mailbox.length = n)
    ∧ (let s := withRegs up [(ctxA 0 Off.CTX_CPL_BASE, 0x1000)]
       (s.ctx 0).held = [] ∧ s.ringBlocked (.ctx 0) = false ∧ s.reg (ctxA 0 Off.CTX_CPL_BASE) ≠ 0)
    ∧ (let x : Completion := ⟨5, 2, 0, 0, 0, 0⟩
       ({ up with cycle := { Cycle.start with done := [(.pf true, x)] } } : State).cycle.done = [(.pf true, x)]) := by decide +kernel

/-- A hold that waits since cycle 10 for a token that does not come. -/
def stuck (now : Nat) : State := { atTile (ent 1 [(188, 1), (16, 3), (0, 1)]) with tb := BitVec.ofNat 64 now }

theorem witness_HoldWatchdogFaults :
    (∀ now ∈ [400010, 400011], let s := stuck now
      s.planEntry 0 0 = some (ent 1 [(188, 1), (16, 3), (0, 1)]) ∧ s.seqRuns 0 0 = true ∧ eIsHold (ent 1 [(188, 1), (16, 3), (0, 1)]) = true
        ∧ s.dueEntry 0 0 = none)
      ∧ (stuck 400011).cf 0 Off.CTX_WD_SITE 51 48 = 0
      ∧ 10 + 400000 + (stuck 400011).haltedSince 10 < (stuck 400011).now ∧ (stuck 400010).now ≤ 10 + 400000 + (stuck 400010).haltedSince 10 := by
  constructorm* _ ∧ _ <;> decide +kernel

/-- A verdict slot that gathers. -/
def slot0 : Slot := ⟨0, true, 0, 1, some 1, 4, [], 0, none, 0, 0, 0, 0, 0, 0⟩

/-- Context 0 at an entry with a slot of its launch, and its group. -/
def atSlot (e : EntryBits) (x : Slot) : State :=
  { withCtx { ctx0 (tile0 e) with running := some { run0 with slots := [(0, x)] } } with groups := [(0, group0)] }

theorem witness_VerdictsAndCommitIf :
    (let s := atSlot (ent 0x48 [(210, 9)]) slot0
     s.dueClass 0 0 0x48 = some (ent 0x48 [(210, 9)]) ∧ Table.get? ({ run0 with slots := [(0, slot0)] } : Running).slots 0 = some slot0
      ∧ Table.get? s.groups 0 = some group0 ∧ group0.ctx = 0 ∧ slot0.seq.isSome = true ∧ slot0.state ≠ 3)
    ∧ ({ slot0 with seq := none } : Slot).seq = none
    ∧ (let s := atSlot (ent 0x48 [(210, 9)]) { slot0 with state := 3 }
       s.dueClass 0 0 0x48 = some (ent 0x48 [(210, 9)]) ∧ Table.get? ({ run0 with slots := [(0, { slot0 with state := 3 })] } : Running).slots 0
        = some { slot0 with state := 3 } ∧ eIsHold (ent 0x48 [(210, 9)]) = false)
    ∧ (let s := { atSlot (ent 0x48 [(210, 9)]) slot0 with groups := [] }
       s.dueClass 0 0 0x48 = some (ent 0x48 [(210, 9)]) ∧ Table.get? s.groups 0 = none ∧ s.cf 0 Off.CTX_COLL_STS 15 12 = 0)
    ∧ (∀ d ∈ [1, 2], let e := ent 0x49 [(172, 1), (160, 1)]
      let s := { atSlot e { slot0 with state := 3, decision := d } with
        ctxs := [(0, { ctx0 { tile0 e with tokens := [(0, 1)] } with running := some { run0 with slots := [(0, { slot0 with state := 3, decision := d })] } })] }
      s.dueClass 0 0 0x49 = some e ∧ (s.tile 0 0).reps = [] ∧ (s.tile 0 0).subEnd = none ∧ 0 < ef e 183 172) := by
  constructorm* _ ∧ _ <;> decide +kernel

/-- A contribution of tile 0. -/
def give0 : Contribution := ⟨0, 0, 0, 0, 9⟩

theorem witness_VerdictStages :
    (let x := { slot0 with state := 1, given := [give0] }
     let s := withCtx { ctx0 (tile0 0) with running := some { run0 with slots := [(0, x)] } }
     Table.get? ({ run0 with slots := [(0, x)] } : Running).slots 0 = some x ∧ (s.ctx 0).phase = .normal ∧ x.seq.isSome = true ∧ x.pkg = none
      ∧ x.given.length = (s.ctx 0).planTiles)
    ∧ (let x := { slot0 with state := 1, pkg := some give0 }
       let s := { atSlot 0 x with groups := [(0, { group0 with members := [7, 0], self := 1 })] }
       (s.ctx 0).phase = .normal ∧ (s.ctx 0).mirrorGen = none ∧ x.seq = some 1
        ∧ s.slotGroup 0 x = some { group0 with members := [7, 0], self := 1 } ∧ 1 < ({ group0 with members := [7, 0] } : Group).members.length)
    ∧ (let s := atSlot 0 slot0
       (s.ctx 0).running = some { run0 with slots := [(0, slot0)] } ∧ run0.seq = 5 ∧ slot0.final = true ∧ slot0.state ≠ 3
        ∧ ({ slot0 with final := false } : Slot).final = false
        ∧ ([] : List Due).Pairwise (fun a b => a.slot ≤ b.slot)) := by
  constructorm* _ ∧ _ <;> decide +kernel

theorem witness_CheckpointsTriggerAndComplete :
    (let s := withRegs (withCtx queued) [(ctxA 0 Off.CTX_CKPT_CTL, 0x3F), (ctxA 0 Off.CTX_CKPT_PERIOD, 1), (Off.RDG_PRIV, 2 ^ 10)]
     let t := { s with tb := 2000000000 }
     dieKind (thatchDie 15) = .thatch ∧ thatchIdx (thatchDie 15) ∈ stacksOf (s.ctx 0).set.1 (s.ctx 0).set.2 ∧ dieKind 62 = .eave
      ∧ dieKind (rafterDie 0) = .rafter ∧ (∃ k ∈ cfg0.courses, rafterDie (k / 32) = rafterDie 0) ∧ bitAt (s.cf 0 Off.CTX_CKPT_CTL 5 0) 2 = true
      ∧ (∀ b ∈ [(0, thatchDie 15), (1, 62), (2, rafterDie 0)],
          (({ s with cycle := { Cycle.start with raised := [(bar0 b.2 0 Off.PG_IRQ_RAW, 15)] } } : State).raisedIn (bar0 b.2 0 Off.PG_IRQ_RAW)).getLsbD
            (ckptBit b.1) = true)
      ∧ (s.ctx 0).ckptEnd = none ∧ t.cf 0 Off.CTX_CKPT_PERIOD 31 0 = 1 ∧ (t.ctx 0).ckptTimer + t.cyc (1 * 1000000000) ≤ t.now
      ∧ bitAt (t.cf 0 Off.CTX_CKPT_CTL 5 0) 4 = true ∧ t.privileged 0 = true)
    ∧ (let s := withRegs (withCtx { queued with sealed_ := some (5, ⟨true, [], []⟩) }) [(ctxA 0 Off.CTX_CKPT_STS, 2)]
       s.cf 0 Off.CTX_CKPT_STS 1 1 = 1 ∧ (s.ctx 0).sealed_ = some (5, ⟨true, [], []⟩)) := by
  constructorm* _ ∧ _ <;> decide +kernel

theorem witness_RingEntriesAreTaken :
    (up.ctx 0).mailbox.length < 32
    ∧ (let s := ringed { mapped with phase := .faulted } (cmd [6])
       s.ringOpen (.ctx 0) = true ∧ s.firstInLine 0 = true ∧ (s.ctx 0).phase = .faulted ∧ s.ringEntry (.ctx 0) = some (cmd [6]))
    ∧ (let s := ringed mapped (cmd [9])
       s.ringOpen (.ctx 0) = true ∧ s.firstInLine 0 = true ∧ (s.ctx 0).phase = .normal ∧ s.ringEntry (.ctx 0) = some (cmd [9]) ∧ s.entryWaits 0 (cmd [9]) = false
        ∧ cmdOk (cmd [9]) false = false)
    ∧ (let s := ringed mapped (cmd [3, 9])
       s.ringEntry (.ctx 0) = some (cmd [3, 9]) ∧ s.entryWaits 0 (cmd [3, 9]) = false ∧ cmdOk (cmd [3, 9]) false = true
        ∧ strayParam (cmd [3, 9]) false = true)
    ∧ (let s := ringed { mapped with tlb := [⟨0, true, 0⟩, ⟨1, true, 0⟩] } (cmd [6])
       s.ringOpen (.ctx 0) = true ∧ s.firstInLine 0 = true ∧ (ringed { mapped with cfg := none, tlb := [] } (cmd [6])).ringEntry (.ctx 0) = none) := by
  constructorm* _ ∧ _ <;> decide +kernel

/-- The directory record of tile `t`: a plan of one entry at 0x2000. -/
def dirCells (t : Nat) : List Host.Cell := [(32 * t + 1, 0x20), (32 * t + 8, 1)]

/-- One END at 0x2000, and the header at 0x4000. -/
def planTail : List Host.Cell :=
  [(0x201F, 4), (0x4000, 0x34), (0x4001, 0x36), (0x4002, 0x56), (0x4003, 0x55), (0x4005, 0x02), (0x4008, 1), (0x400B, 4), (0x4019, 0x80)]

/-- A plan set of one course: a directory of 70 one-entry plans at 0, which are one END; the region table at 0x8000 is 0. -/
def planBytes : List Host.Cell := (List.range 70).flatMap dirCells ++ planTail

/-- Context 0 with LOAD_PLAN of that plan set in its ring. -/
def loadable : State := ringedWith mapped planBytes (cmd [1, 0x4000])

/-- Context 0 sees the first 128 KiB of stack 0 at its address, with no shadow region. -/
def Plain (s : State) : Prop :=
  s.cache = [] ∧ s.poison = [] ∧ s.regions 0 = [] ∧ s.memOk 3 0 0 = true ∧ (s.ctx 0).tlb = [⟨0, true, 2 ^ 41 + 7⟩] ∧ (s.ctx 0).set = (2, 0)
    ∧ s.upsets = []

theorem plain_loc (a : Nat) (h : a < 2 ^ 17) : dpaLoc (2 ^ 41 + a) = .mem 3 0 0 0 a := by
  have h1 : (2 ^ 41 + a) % 2 ^ 40 = a := by omega
  simp only [dpaLoc, h1]
  rw [if_neg (by omega), if_neg (by omega), if_pos (by omega)]
  congr 1 <;> omega

theorem plain_xlate {s : State} (q : Plain s) (a : Nat) (h : a < 2 ^ 17) : s.xlate 0 a false = some (2 ^ 41 + a) := by
  obtain ⟨-, -, -, -, x, y, -⟩ := q
  have w : s.walk 0 a = some ⟨0, true, 2 ^ 41 + 7⟩ := by
    have d : 0 = a / 2 ^ 21 := by omega
    rw [State.walk, x, List.find?_cons_of_pos (by simpa using d)]
  have f : fld (2 ^ 41 + 7 : Word) 47 21 = 2 ^ 20 := by decide +kernel
  have e : 2 ^ 20 * 2 ^ 21 + a % 2 ^ 21 = 2 ^ 41 + a := by omega
  have i : dpaInSet 2 0 (2 ^ 41 + a) = true := by rw [dpaInSet, plain_loc a h]; rfl
  rw [State.xlate, if_neg (by omega), w]
  simp only [Option.bind_some, if_true, f, e, y, i]
  rfl

theorem plain_byte {s : State} (q : Plain s) (a : Nat) (h : a < 2 ^ 17) : s.vaByte 0 a = some (Table.getD 0 s.mem a) := by
  have y := plain_xlate q a h
  have l := plain_loc a h
  obtain ⟨c, p, -, m, -, -, u⟩ := q
  have w : s.wayOf 0 (a / 64 / 4) = none := by rw [State.wayOf, c]; rfl
  have q : 0 * 2 ^ 36 + a / 64 * 64 + a % 64 = a := by omega
  have z : (s.memBytes (0 * 2 ^ 36 + a / 64 * 64) 64).getD (a % 64) 0 = Table.getD 0 s.mem a := by
    rw [State.memBytes, List.getD_eq_getElem?_getD, List.getElem?_map, List.getElem?_range (by omega), Option.map_some, q]; rfl
  have g : inPadWindow (2 ^ 41 + a) = false := by
    rw [inPadWindow, Bool.and_eq_false_iff]
    exact .inl (decide_eq_false (by omega))
  rw [State.vaByte, y, Option.bind_some, State.devByte, g, if_neg Bool.false_ne_true, State.dpaByte, l]
  simp only [m, if_true, State.sector, w, Option.bind_none, z, p, State.upset, u]
  rfl

theorem plain_bytes {s : State} (q : Plain s) : ∀ n a, a + n ≤ 2 ^ 17 → s.vaRead 0 a n = some ((List.range' a n).map fun i => Table.getD 0 s.mem i)
  | 0, _, _ => rfl
  | n + 1, a, h => by
    rw [State.vaRead, plain_byte q a (by omega), Option.bind_some, plain_bytes q n (a + 1) (by omega)]
    rfl

theorem plain_read {s : State} (q : Plain s) (n a : Nat) (hn : 0 < n) (h : a % 65536 + n < 65536) (ha : a < 65536) :
    s.liveRead 0 a n = some ((List.range' a n).map fun i => Table.getD 0 s.mem i) := by
  have b := plain_bytes q n a (by omega)
  obtain ⟨-, -, r, -, -, -, -⟩ := q
  have d : s.redirect 0 a false = some a := by rw [State.redirect, State.regionOf, r]; rfl
  have e0 : max a ((a / 65536 + 0) * 65536) = a := by omega
  have e1 : min (a + n) ((a / 65536 + 0 + 1) * 65536) = a + n := by omega
  have e2 : ¬max a ((a / 65536 + 1) * 65536) < min (a + n) ((a / 65536 + 1 + 1) * 65536) := by omega
  rw [State.liveRead, show n / 65536 + 2 = 2 by omega]
  simp only [show List.range 2 = [0, 1] from rfl, List.foldl_cons, List.foldl_nil, Option.bind_some, e0, e1, e2, d, b,
    show a + n - a = n by omega, if_false, show a < a + n by omega, if_true, Option.map_some, List.nil_append]

theorem loadable_plain : Plain loadable := by
  unfold Plain
  decide +kernel

/-- The directory record of every tile of that plan set, and its header. -/
def recE : EntryBits := BitVec.ofNat 256 (0x2000 + 2 ^ 64)
def headE : Bits512 := BitVec.ofNat 512 (0x55563634 + 0x0200 * 2 ^ 32 + (1 + 1024 * 2 ^ 16) * 2 ^ 64 + 0x8000 * 2 ^ 192)

/-- The memory after the directory. -/
def tailBytes : List Host.Cell := planTail ++ cells 0x10000 (leBytes 64 (cmd [1, 0x4000]).toNat)

theorem dir_cell (m : List Host.Cell) (i : Nat) : ∀ n s, Table.getD 0 ((List.range' s n).flatMap dirCells ++ m) i
    = if s ≤ i / 32 ∧ i / 32 < s + n ∧ i % 32 = 1 then 0x20 else if s ≤ i / 32 ∧ i / 32 < s + n ∧ i % 32 = 8 then 1 else Table.getD 0 m i
  | 0, s => by
    rw [if_neg (by omega), if_neg (by omega)]; rfl
  | n + 1, s => by
    have r := dir_cell m i n (s + 1)
    simp only [Table.getD, List.range'_succ, List.flatMap_cons, dirCells, List.cons_append, List.nil_append, Table.get?] at r ⊢
    by_cases h1 : i = 32 * s + 1
    · rw [if_pos h1, if_pos (by omega)]; rfl
    · by_cases h8 : i = 32 * s + 8
      · rw [if_neg h1, if_pos h8, if_neg (by omega), if_pos (by omega)]; rfl
      · rw [if_neg h1, if_neg h8, r]
        congr 1
        · apply propext; omega
        · congr 1
          apply propext; omega

theorem far_cell (i : Nat) : ∀ m : List Host.Cell, (∀ x ∈ m, i < x.1) → Table.getD 0 m i = 0
  | [], _ => rfl
  | (j, v) :: m, h => by
    have a : i < j := h (j, v) (List.mem_cons_self ..)
    rw [Table.getD, Table.get?, if_neg (by omega)]
    exact far_cell i m fun x y => h x (List.mem_cons_of_mem _ y)

theorem tail_cell (i : Nat) (h : i < 2240) : Table.getD 0 tailBytes i = 0 := by
  have a : ∀ x ∈ tailBytes, 2240 ≤ x.1 := by decide +kernel
  exact far_cell i _ fun x y => by have := a x y; omega

theorem loadable_dir (t : Nat) (h : t < 70) : loadable.read256 0 (32 * t) = some recE := by
  have m : loadable.mem = (List.range' 0 70).flatMap dirCells ++ tailBytes := by
    rw [show loadable.mem = planBytes ++ cells 0x10000 (leBytes 64 (cmd [1, 0x4000]).toNat) from rfl, planBytes, tailBytes, List.append_assoc, List.range_eq_range']
  have e : (List.range' (32 * t) 32).map (fun i => Table.getD 0 loadable.mem i)
      = (List.range' 0 32).map fun j => if j = 1 then (0x20 : Byte) else if j = 8 then 1 else 0 := by
    rw [show List.range' (32 * t) 32 = (List.range' 0 32).map (32 * t + ·) from by rw [List.map_add_range']; rfl, List.map_map]
    refine List.map_congr_left fun j hj => ?_
    have hj' : j < 32 := by simpa using hj
    rw [Function.comp, m, dir_cell, tail_cell _ (by omega)]
    congr 1
    · apply propext; omega
    · congr 1
      apply propext; omega
  rw [State.read256, plain_read loadable_plain 32 (32 * t) (by omega) (by omega) (by omega), e]
  decide +kernel

theorem loadable_header : loadable.read256 0 0x2000 = some (ent 4 []) ∧ loadable.read512 0 0x4000 = some headE
    ∧ loadable.checkRegions 0 0x8000 0 [0] = none := by
  rw [State.read256, State.read512, State.checkRegions, plain_read loadable_plain 32 _ (by omega) (by omega) (by omega), plain_read loadable_plain 64 _ (by omega) (by omega)
    (by omega), plain_read loadable_plain 1 _ (by omega) (by omega) (by omega)]
  decide +kernel

theorem loadable_rec : dirFails recE = none ∧ dirRec recE = ⟨0x2000, 1, 0, 0⟩ ∧ headerFails headE 1 = none ∧ slotsUsed [some (ent 4 [])] = [] := by
  decide +kernel

theorem loadable_end : ∀ t < 70, ∀ first ∈ [none, some []],
    (LoadEnv.mk 70 t [] [] 0 false [] []).entries [] first 0 [some (ent 4 [])] ⟨[], [], []⟩ = .inr ⟨[], [], []⟩ := by decide +kernel

/-- The environment of tile `t` of that plan set. -/
def envE (t : Nat) : LoadEnv := ⟨70, t, [], [], 0, false, [], []⟩

theorem tile_passes (s : State) (t : Nat) (first : Option (Table SlotDef)) (a : s.read256 0 (32 * t) = some recE) (b : s.read256 0 0x2000 = some (ent 4 []))
    (e : (envE t).entries [] first 0 [some (ent 4 [])] ⟨[], [], []⟩ = .inr ⟨[], [], []⟩) :
    s.checkTile (envE t) (32 * t) first = .inr (⟨⟨0x2000, 1, 0, 0⟩, [some (ent 4 [])], []⟩, []) := by
  have r : s.readTile 0 ⟨0x2000, 1, 0, 0⟩ = ⟨⟨0x2000, 1, 0, 0⟩, [some (ent 4 [])], []⟩ := by
    rw [State.readTile]; exact congrArg (fun x => ReadTile.mk _ [x] []) b
  simp only [State.checkTile, envE, a, loadable_rec.1, loadable_rec.2.1, r, loadable_rec.2.2.2, show convsNamed [some (ent 4 [])] = [] from by decide +kernel] at e ⊢
  simp only [e]
  rfl

theorem tiles_pass (s : State) (q : ∀ t < 70, ∀ first ∈ [none, some []],
    s.checkTile (envE t) (32 * t) first = .inr (⟨⟨0x2000, 1, 0, 0⟩, [some (ent 4 [])], []⟩, [])) :
    ∀ n t first l, n + t ≤ 70 → first ∈ [none, some []] → ∃ p, s.checkTiles (envE 0) 0 headE n t first l = .inr p
  | 0, _, _, _, _, _ => ⟨_, rfl⟩
  | n + 1, t, first, l, h, f => by
    have a := q t (by omega) first f
    have g : some (first.getD []) ∈ [none, some ([] : Table SlotDef)] := by
      rcases f with _ | ⟨_, _ | ⟨_, ⟨⟩⟩⟩ <;> simp
    obtain ⟨p, r⟩ := tiles_pass s q n (t + 1) (some (first.getD [])) (l ++ [⟨⟨0x2000, 1, 0, 0⟩, [some (ent 4 [])], []⟩]) (by omega) g
    refine ⟨p, ?_⟩
    rw [State.checkTiles, Nat.zero_add, show { envE 0 with tile := t } = envE t from rfl, a]
    exact r

theorem plan_passes (s : State) (h : s.read512 0 0x4000 = some headE) (c : ((s.ctx 0).cfg.map (·.courses)).getD [] = [0])
    (r : s.checkRegions 0 0x8000 0 [0] = none) (g : (s.ctx 0).links = [] ∧ s.groups = [] ∧ s.privileged 0 = false)
    (t : ∃ p, s.checkTiles (envE 0) 0 headE 70 0 none [] = .inr p) : ∃ p, s.checkPlan 0 0x4000 = .inr p := by
  obtain ⟨p, q⟩ := t
  have w : w512 headE 3 = 0x8000 ∧ w512 headE 2 = 0 := by decide +kernel
  refine ⟨p, ?_⟩
  simp only [State.checkPlan, h, c, show [0].length = 1 from rfl, loadable_rec.2.2.1, w, r, g]
  rw [if_neg (by omega)]
  exact q

theorem loadable_passes : ∃ p, loadable.checkPlan 0 0x4000 = .inr p := by
  obtain ⟨b, h, r⟩ := loadable_header
  refine plan_passes loadable h (by decide +kernel) r (by decide +kernel) (tiles_pass loadable ?_ 70 0 none [] (by omega) (List.mem_cons_self ..))
  exact fun t i first f => tile_passes loadable t first (loadable_dir t i) b (loadable_end t i first f)

theorem witness_LoadPlanChecksThenFillsThePlanStore :
    CtxTakes loadable 0 (cmd [1, 0x4000]) ∧ cmdOp (cmd [1, 0x4000]) = 1 ∧ w512 (cmd [1, 0x4000]) 1 = 0x4000 ∧ loadable.coursesReady 0 = true
      ∧ (∃ p, loadable.checkPlan 0 0x4000 = .inr p)
      ∧ CtxTakes (ringed mapped (cmd [1, 0])) 0 (cmd [1, 0]) ∧ (ringed mapped (cmd [1, 0])).checkPlan 0 0 = .inl ⟨1, 0, 0⟩
      ∧ (∀ a ∈ [(0, none), (2 ^ 48, some ⟨13, 0, 0⟩)],
        let s := ringed { mapped with openCmd := some (.loadPlan 5), tiles := [(0, { Tile.init with length := 1, planAddr := a.1 })] } 0
        (s.ctx 0).openCmd = some (.loadPlan 5) ∧ s.unreadable 0 = a.2) :=
  ⟨takes_of (by decide +kernel), by decide +kernel, by decide +kernel, by decide +kernel, loadable_passes, takes_of (by decide +kernel),
    by decide +kernel, by decide +kernel⟩

theorem witness_LaunchStepQueuesTheLaunch :
    (∀ t0 ∈ [119999, 120000], CtxTakes (ringed { mapped with plan := some plan0 } (cmd [2, t0])) 0 (cmd [2, t0]) ∧ cmdOp (cmd [2, t0]) = 2
        ∧ (ringed { mapped with plan := some plan0 } (cmd [2, t0])).cf 0 Off.CTX_CKPT_STS 1 1 = 0)
      ∧ w512 (cmd [2, 119999]) 1 < up.now + 20000 ∧ up.now + 20000 ≤ w512 (cmd [2, 120000]) 1 ∧ plan0.divider = up.eff
      ∧ CtxTakes (ringed mapped (cmd [2, 120000])) 0 (cmd [2, 120000]) ∧ ((ringed mapped (cmd [2, 120000])).ctx 0).plan = none
      ∧ ({ plan0 with divider := 1 } : PlanSet).divider ≠ up.eff := by
  refine ⟨fun t0 h => ⟨takes_of ?_, ?_, ?_⟩, by decide +kernel, by decide +kernel, by decide +kernel, takes_of (by decide +kernel),
    by decide +kernel, by decide +kernel⟩ <;> revert t0 <;> decide +kernel

theorem witness_FenceFlushCancel :
    (CtxTakes (ringed mapped (cmd [6])) 0 (cmd [6]) ∧ CtxTakes (ringed mapped (cmd [7])) 0 (cmd [7])
      ∧ (ringed mapped (cmd [7])).justReady 0 = none)
    ∧ (let s := ringed { mapped with queue := [⟨9, 200000, false⟩] } (cmd [8, 9])
       CtxTakes s 0 (cmd [8, 9]) ∧ s.justReady 0 = none
        ∧ (s.ctx 0).queue.find? (fun l => l.seq.toNat = w512 (cmd [8, 9]) 1) = some ⟨9, 200000, false⟩)
    ∧ CtxTakes (ringed mapped (cmd [8, 9])) 0 (cmd [8, 9]) ∧ (ringed mapped (cmd [8, 9])).justReady 0 = none
      ∧ ((ringed mapped (cmd [8, 9])).ctx 0).queue = [] :=
  ⟨⟨takes_of (by decide +kernel), takes_of (by decide +kernel), by decide +kernel⟩,
    ⟨takes_of (by decide +kernel), by decide +kernel, by decide +kernel⟩, takes_of (by decide +kernel), by decide +kernel, by decide +kernel⟩

/-! ### Resets, bring-up, firmware -/

/-- The invariant of a state with an empty cache and no power-state change pending, as a Bool. -/
def invB (s : State) : Bool :=
  Memory.wf s.mem && Memory.wf s.scratch && Memory.wf s.hostMem && Registers.wf s.regs && Table.wf Ctx.init s.ctxs && Table.wf Die.init s.dies
    && decide (s.pstate ≤ 3) && s.psTarget.isNone && s.cache.isEmpty

theorem inv_of {s : State} (h : invB s = true) : s.Inv := by
  simp only [invB, Bool.and_eq_true, decide_eq_true_eq, Option.isNone_iff_eq_none, List.isEmpty_iff] at h
  obtain ⟨⟨⟨⟨⟨⟨⟨⟨a, b⟩, c⟩, d⟩, e⟩, f⟩, g⟩, t⟩, k⟩ := h
  exact ⟨a, b, c, ⟨by rw [k]; rfl, by rw [k]; intro e h; cases h⟩, d, e, f, g, by rw [t]; intro t h; cases h⟩

/-- The reset register is reached. -/
abbrev resetReg : Nat := Off.RDG_PKG_RESET

theorem witness_PackageResets :
    up.pwrEn = true ∧ up.pwrgd = true ∧ ({ up with pwrgd := false } : State).pwrEn = true ∧ ({ up with pwrgd := false } : State).pwrgd = false
      ∧ (up.Inv ∧ WriteReaches up pfA resetReg ∧ up.rf Off.RDG_SAG 2 0 < 4 ∧ up.rf Off.RDG_FWACT 0 0 = 0)
      ∧ (let s := withRegs up [(Off.RDG_FWACT, 1)]
         s.Inv ∧ WriteReaches s pfA resetReg ∧ s.rf Off.RDG_SAG 2 0 < 4 ∧ s.rf Off.RDG_FWACT 0 0 = 1)
      ∧ 0x5740 % 2 ^ 16 ≠ 0x5741
      ∧ (let s := withRegs up [(Off.RDG_SAG, 4)]
         WriteReaches s pfA resetReg ∧ 4 ≤ s.rf Off.RDG_SAG 2 0)
      ∧ ({ up with warmActive := true } : State).warmActive = true :=
  ⟨rfl, rfl, rfl, rfl, ⟨inv_of (by decide +kernel), reaches_of (by decide +kernel), by decide +kernel, by decide +kernel⟩,
    ⟨inv_of (by decide +kernel), reaches_of (by decide +kernel), by decide +kernel, by decide +kernel⟩, by decide,
    ⟨reaches_of (by decide +kernel), by decide +kernel⟩, rfl⟩

theorem witness_ContextResetKeepsTheDescriptor :
    WriteReaches up pfA Off.RDG_CTX_RESET ∧ (up.ctx 1023).phase ≠ .resetting
      ∧ ((withCtx { Ctx.init with phase := .resetting }).ctx 0).phase = .resetting :=
  ⟨reaches_of (by decide +kernel), by decide +kernel, by decide +kernel⟩

theorem witness_FunctionLevelResets :
    up.portUsable false = true ∧ (up.ctx 1023).boundB = false ∧ ((withCtx { Ctx.init with boundB := true }).ctx 0).boundB ≠ false
      ∧ WriteReaches up (.pf false) Off.RDG_CTX_RESET :=
  ⟨by decide +kernel, by decide +kernel, by decide +kernel, reaches_of (by decide +kernel)⟩

/-- The package with die `d` as given. -/
def withDie (d : Nat) (k : Die) : State := { up with dies := Table.set up.dies d k }

/-- A die that is not ready yet. -/
def dieBooting : Die := { dieUp with ready := false }

theorem crc32_lt (bs : List Byte) : crc32 bs < 2 ^ 32 := by
  have bit : ∀ c, c < 2 ^ 32 → crc32Bit c < 2 ^ 32 := fun c h => by
    unfold crc32Bit
    split
    · exact Nat.xor_lt_two_pow (by omega) (by decide)
    · omega
  have fold : ∀ (l : List Byte) (c : Nat), c < 2 ^ 32 →
      l.foldl (fun c b => iter (fun _ x => crc32Bit x) 8 (Nat.xor c b.toNat)) c < 2 ^ 32 := by
    intro l
    induction l with
    | nil => exact fun c h => h
    | cons x l ih =>
      refine fun c h => ih _ ?_
      have k : Nat.xor c x.toNat < 2 ^ 32 := Nat.xor_lt_two_pow h (by have := x.isLt; omega)
      exact bit _ (bit _ (bit _ (bit _ (bit _ (bit _ (bit _ (bit _ k)))))))
  exact Nat.xor_lt_two_pow (by decide) (fold bs _ (by decide))

/-- A port configuration of 64 zero images, with its CRC-32. -/
def zeroConfig : List Byte := leBytes 12 (0x55565043 + 2 ^ 32) ++ (leBytes 4 (crc32 (List.replicate 1024 0)) ++ List.replicate 1024 0)

theorem leNat_four (x : Nat) (h : x < 2 ^ 32) : leNat (leBytes 4 x) = x := by
  simp [leBytes, leNat]
  omega

theorem config_crc (h z : List Byte) (l : h.length = 12) : (h ++ (leBytes 4 (crc32 z) ++ z)).drop 16 = z
    ∧ leNat (((h ++ (leBytes 4 (crc32 z) ++ z)).drop 12).take 4) = crc32 z := by
  have k : (leBytes 4 (crc32 z)).length = 4 := rfl
  constructor
  · rw [show 16 = h.length + (leBytes 4 (crc32 z)).length by omega, ← List.drop_drop, List.drop_left, List.drop_left]
  · rw [← l, List.drop_left, List.take_left' k, leNat_four _ (crc32_lt z)]

theorem zeroConfig_ok : portCfgOk true zeroConfig = true := by
  have l : zeroConfig.length = 1040 := by decide +kernel
  have h : leNat (zeroConfig.take 4) = 0x55565043 ∧ leNat ((zeroConfig.drop 4).take 2) = 1 ∧ leNat ((zeroConfig.drop 6).take 6) = 0 := by decide +kernel
  have i : ((List.range 64).all fun p => imageOk (portImages zeroConfig p)) = true := by decide +kernel
  have c : leNat ((zeroConfig.drop 12).take 4) = crc32 (zeroConfig.drop 16) := by
    have x := config_crc (leBytes 12 (0x55565043 + 2 ^ 32)) (List.replicate 1024 0) rfl
    rw [zeroConfig, x.1, x.2]
  simp only [portCfgOk, l, h, c, i, decide_true, Bool.and_true]

theorem witness_BringUp :
    (let s := withDie 0 dieBooting
     s.alive (ridgeOf false) = true ∧ (s.die (ridgeOf false)).ready = false)
    ∧ (withDie (thatchDie 15) dieBooting).mayReady (thatchDie 15) = true ∧ (withDie (eaveDie 7) dieBooting).mayReady (eaveDie 7) = true
    ∧ (({ up with flashA := ⟨true, true, some (true, zeroConfig)⟩ } : State).flash false).portCfg = some (true, zeroConfig)
    ∧ portCfgOk true zeroConfig = true
    ∧ (let s := withDie (rafterDie 35) dieBooting
       s.mayReady (rafterDie 35) = true ∧ (s.rafter 35).spares = [] ∧ Table.get? s.fusedSpares 35 = none ∧ (tileIds (List.range 64)).length = 64)
    ∧ (let s := withRegs up [(portReg 63 Off.EAV_PCTL, 2)]
       s.alive (portDie 63) = true ∧ (s.die (portDie 63)).ready = true ∧ s.rf (portReg 63 Off.EAV_PCTL) 1 0 ≠ 0
        ∧ s.rf (portReg 63 Off.EAV_PSTS) 1 0 = 0)
    ∧ (neighbour 63 3 = some 62 ∧ up.alive 63 = true ∧ up.alive 62 = true ∧ up.rf (btnReg 63 3 Off.BTN_EDGE_STS) 1 0 = 0)
    ∧ (let s := withRegs (withDie 1 { dieUp with coord := some (1, 0), waveFrom := some 3 }) [(btnReg 1 2 Off.BTN_EDGE_STS, 1), (btnReg 9 0 Off.BTN_EDGE_STS, 1)]
       s.waveOn 9 0 = some (1, 1) ∧ (s.die 9).coord = none
        ∧ (let t := { s with dies := Table.set s.dies 9 { dieUp with coord := some (2, 2) } }
           t.waveOn 9 0 = some (1, 1) ∧ (t.die 9).coord = some (2, 2)))
    ∧ up.cycle.issued = false ∧ up.alive up.mgr = true ∧ up.shutdown = false ∧ (up.die 62).reported = false ∧ dieKind 62 ≠ .dormer := by
  refine ⟨?_, ?_, ?_, rfl, zeroConfig_ok, ?_, ?_, ?_, ?_, ?_, ?_, ?_, ?_, ?_⟩ <;> decide +kernel

theorem witness_FirmwareAndHostPorts :
    up.released = true
      ∧ (let s := withRegs up [(Off.RDG_FWACT, 1)]
         s.rf Off.RDG_FWACT 0 0 = 1 ∧ s.rf Off.RDG_PKG_RESET 18 18 = 0)
      ∧ ({ up with i3cA := some 8 } : State).i3cUp false = true ∧ ({ up with i3cA := some 8 } : State).released = true
      ∧ ({ up with i3cA := some 8 } : State).roleB = false ∧ up.alive (ridgeOf false) = true ∧ up.perst false = false
      ∧ up.hostLink false = true ∧ up.ridgeReady false = true ∧ up.tapUnlocked = false
      ∧ ({ up with tapUnlocked := true } : State).tapUnlocked = true := by decide +kernel

/-! ### Parameters of a context -/

theorem leNat_zeros : ∀ n, leNat (List.replicate n (0 : Byte)) = 0
  | 0 => rfl
  | n + 1 => by rw [List.replicate_succ, leNat, leNat_zeros n]; rfl

theorem entryOf_zeros (n : Nat) : entryOf (List.replicate n 0) = 0 := by
  rw [entryOf, List.take_replicate, leNat_zeros]
  rfl

/-- A payload whose first entry is `h` and whose others are 0. -/
theorem entries_pad (h : List Byte) (l : h.length = 32) (n : Nat) :
    entriesOf (h ++ List.replicate (32 * n) 0) = entryOf h :: List.replicate n 0 := by
  have e : (h ++ List.replicate (32 * n) (0 : Byte)).length / 32 = n + 1 := by simp; omega
  have p : ∀ i, i < n → entryOf ((h ++ List.replicate (32 * n) (0 : Byte)).drop (32 * (i + 1))) = 0 := fun i hi => by
    rw [show 32 * (i + 1) = h.length + 32 * i by omega, ← List.drop_drop, List.drop_left, List.drop_replicate, entryOf_zeros]
  rw [entriesOf, e, List.range_succ_eq_map, List.map_cons, List.map_map]
  congr 1
  · rw [show 32 * 0 = 0 from rfl, List.drop_zero, entryOf, entryOf, List.take_append_of_le_length (by omega)]
  · refine List.ext_getElem (by simp) fun i a b => ?_
    simpa using p i (by simpa using a)

/-- What a payload below 0x10000 reads as where the memory holds `m` from its start on and nothing behind its first 32 bytes. -/
theorem payload_pad {s : State} (q : Plain s) (n : Nat) (hn : n < 1024) (h : List Byte) (l : h.length = 32)
    (a : ∀ i, i < 32 → Table.getD 0 s.mem i = h.getD i 0) (z : ∀ x ∈ s.mem, x.1 < 32 ∨ 0x10000 ≤ x.1) :
    s.liveRead 0 0 (32 * (n + 1)) = some (h ++ List.replicate (32 * n) 0) := by
  have far : ∀ m : List Host.Cell, (∀ x ∈ m, x.1 < 32 ∨ 0x10000 ≤ x.1) → ∀ i, 32 ≤ i → i < 0x10000 → Table.getD 0 m i = 0 := by
    intro m
    induction m with
    | nil => intros; rfl
    | cons x m ih =>
      intro z i b c
      have y := z x (List.mem_cons_self ..)
      rw [Table.getD, Table.get?, if_neg (by omega)]
      exact ih (fun w k => z w (List.mem_cons_of_mem _ k)) i b c
  rw [plain_read q _ 0 (by omega) (by omega) (by omega)]
  congr 1
  refine List.ext_getElem (by simp; omega) fun i u v => ?_
  have ui : i < 32 * (n + 1) := by simpa using u
  by_cases k : i < 32
  · rw [List.getElem_append_left (by omega)]
    have g := a i k
    rw [List.getD_eq_getElem?_getD, List.getElem?_eq_getElem (by omega)] at g
    simpa using g
  · rw [List.getElem_append_right (by omega)]
    simpa using far s.mem z i (by omega) (by omega)

theorem stage_zero : stageLinkReserved 0 = true ∧ stageLinkOk (stageLinkOf 0) 70 = true ∧ (stageLinkOf 0).txEn = false ∧ (stageLinkOf 0).rxEn = false := by
  decide +kernel

/-- The table of a payload with one entry at its start. -/
theorem stage_pad (h : List Byte) (l : h.length = 32) :
    stageTable (h ++ List.replicate (32 * 1023) 0) 70
      = if stageLinkReserved (entryOf h) && stageLinkOk (stageLinkOf (entryOf h)) 70 then
          some (if (stageLinkOf (entryOf h)).txEn || (stageLinkOf (entryOf h)).rxEn then [(0, stageLinkOf (entryOf h))] else [])
        else none := by
  have r : ((List.replicate 1023 (0 : EntryBits)).all fun e => stageLinkReserved e && stageLinkOk (stageLinkOf e) 70) = true := by
    refine List.all_eq_true.2 fun x hx => ?_
    rw [List.eq_of_mem_replicate hx, stage_zero.1, stage_zero.2.1]
    rfl
  have t : ∀ k, (((List.replicate 1023 (0 : EntryBits)).zipIdx k).map fun e => (e.2, stageLinkOf e.1)).filter (fun e => e.2.txEn || e.2.rxEn) = [] := by
    intro k
    refine List.filter_eq_nil_iff.2 fun x hx => ?_
    obtain ⟨y, hy, rfl⟩ := List.mem_map.1 hx
    have z : y.1 = 0 := List.eq_of_mem_replicate (List.fst_mem_of_mem_zipIdx hy)
    simp only [z, stage_zero]
    decide
  rw [stageTable, entries_pad h l]
  simp only [List.all_cons, r, Bool.and_true, List.zipIdx_cons, List.map_cons, List.filter_cons, t]

/-- A stage-link entry: a receive half of a remote producer with 16 words on EAV0. -/
def linkE : List Byte := leBytes 32 (2 + 2 ^ 64 + 15 * 2 ^ 69 + 2 * 2 ^ 85 + 2 ^ 101 + 2 * 2 ^ 117 + 2 ^ 128)

/-- Context 0 with a SET_PARAM of parameter `p` whose payload at 0 has `h` as its first entry, in memory beside context 1 with links `t`. -/
def param (p : Nat) (h : List Byte) (t : Table StageLink) : State :=
  let s := ringedWith mapped (cells 0 h) (cmd [3, p])
  { s with ctxs := s.ctxs ++ [(1, { Ctx.init with links := t })] }

/-- Links of another context that fill the queue memory of EAV0. -/
def fullLinks : Table StageLink := [(0, { stageLinkOf (entryOf linkE) with depth := 131072 })]

/-- The state after the device's read of the payload of `param`. -/
def paramRead (p : Nat) (h : List Byte) (t : Table StageLink) : State :=
  (param p h t).liveTouch 0 (w512 (cmd [3, p]) 2) (if p = 1 then 32768 else 1024)

/-- The payloads of the witness: parameter, first entry, links of another context. -/
def params : List (Nat × List Byte × Table StageLink) :=
  [(1, linkE, []), (1, linkE, fullLinks), (1, leBytes 32 1, []), (2, leBytes 32 0, []), (2, leBytes 32 1, [])]

theorem param_plain : ∀ x ∈ params, takes (param x.1 x.2.1 x.2.2) (cmd [3, x.1]) = true ∧ Plain (paramRead x.1 x.2.1 x.2.2)
    ∧ (paramRead x.1 x.2.1 x.2.2).tileCount 0 = 70 ∧ x.2.1.length = 32 ∧ w512 (cmd [3, x.1]) 2 = 0
    ∧ (∀ i < 32, Table.getD 0 (paramRead x.1 x.2.1 x.2.2).mem i = x.2.1.getD i 0)
    ∧ ∀ y ∈ (paramRead x.1 x.2.1 x.2.2).mem, y.1 < 32 ∨ 0x10000 ≤ y.1 := by
  unfold Plain
  decide +kernel

theorem param_payload (x : Nat × List Byte × Table StageLink) (hx : x ∈ params) (n : Nat) (hn : n < 1024) :
    (paramRead x.1 x.2.1 x.2.2).payload 0 (cmd [3, x.1]) (32 * (n + 1)) = some (x.2.1 ++ List.replicate (32 * n) 0) := by
  obtain ⟨-, a, -, l, w, b, c⟩ := param_plain x hx
  rw [State.payload, w]
  exact payload_pad a n hn x.2.1 l b c

theorem link_entries : stageLinkReserved (entryOf linkE) = true ∧ stageLinkOk (stageLinkOf (entryOf linkE)) 70 = true
    ∧ (stageLinkOf (entryOf linkE)).rxEn = true ∧ stageLinkOk (stageLinkOf (entryOf (leBytes 32 1))) 70 = false := by decide +kernel

/-- SET_PARAM with a payload that no page maps. -/
def unmapped (p : Nat) : State := ringed mapped (cmd [3, p, 2 ^ 48])

theorem witness_LinkAndRingTablesAreReplacedWhole :
    (∀ x ∈ [(([] : Table StageLink), true), (fullLinks, false)], let s := param 1 linkE x.1
      let y := s.liveTouch 0 (w512 (cmd [3, 1]) 2) 32768
      CtxTakes s 0 (cmd [3, 1]) ∧ isParam 1 (cmd [3, 1]) = true ∧ ∃ b t, y.payload 0 (cmd [3, 1]) 32768 = some b
        ∧ stageTable b (y.tileCount 0) = some t ∧ y.queuesFit 0 t = x.2)
    ∧ (let s := param 1 (leBytes 32 1) []
       let y := s.liveTouch 0 (w512 (cmd [3, 1]) 2) 32768
       CtxTakes s 0 (cmd [3, 1]) ∧ ∃ b, y.payload 0 (cmd [3, 1]) 32768 = some b ∧ stageTable b (y.tileCount 0) = none)
    ∧ (∀ p ∈ [1, 2], CtxTakes (unmapped p) 0 (cmd [3, p, 2 ^ 48]) ∧ isParam p (cmd [3, p, 2 ^ 48]) = true
        ∧ ∀ n ∈ [1024, 32768], ((unmapped p).liveTouch 0 (w512 (cmd [3, p, 2 ^ 48]) 2) n).payload 0 (cmd [3, p, 2 ^ 48]) n = none)
    ∧ ∀ x ∈ [(leBytes 32 0, true), (leBytes 32 1, false)], let s := param 2 x.1 []
      CtxTakes s 0 (cmd [3, 2]) ∧ isParam 2 (cmd [3, 2]) = true
        ∧ ∃ b, (s.liveTouch 0 (w512 (cmd [3, 2]) 2) 1024).payload 0 (cmd [3, 2]) 1024 = some b ∧ (entriesOf b).all vringOk = x.2 := by
  refine ⟨?_, ?_, fun p h => ⟨takes_of ?_, ?_, ?_⟩, ?_⟩
  · intro x hx
    have t : (1, linkE, x.1) ∈ params := (by decide +kernel : ∀ x ∈ [(([] : Table StageLink), true), (fullLinks, false)], (1, linkE, x.1) ∈ params) x hx
    have a := param_plain _ t
    have b := param_payload _ t 1023 (by omega)
    have q := stage_pad linkE rfl
    rw [link_entries.1, link_entries.2.1, link_entries.2.2.1, Bool.or_true] at q
    refine ⟨takes_of a.1, by decide +kernel, _, [(0, stageLinkOf (entryOf linkE))], b, ?_, ?_⟩
    · rw [show (State.liveTouch (param 1 linkE x.1) 0 (w512 (cmd [3, 1]) 2) 32768).tileCount 0 = 70 from a.2.2.1]
      exact q
    · exact (by decide +kernel : ∀ x ∈ [(([] : Table StageLink), true), (fullLinks, false)],
        ((param 1 linkE x.1).liveTouch 0 (w512 (cmd [3, 1]) 2) 32768).queuesFit 0 [(0, stageLinkOf (entryOf linkE))] = x.2) x hx
  · have t : (1, leBytes 32 1, []) ∈ params := by decide +kernel
    have a := param_plain _ t
    have b := param_payload _ t 1023 (by omega)
    have q := stage_pad (leBytes 32 1) rfl
    rw [link_entries.2.2.2, Bool.and_false] at q
    refine ⟨takes_of a.1, _, b, ?_⟩
    rw [show (State.liveTouch (param 1 (leBytes 32 1) []) 0 (w512 (cmd [3, 1]) 2) 32768).tileCount 0 = 70 from a.2.2.1]
    exact q
  · revert p; decide +kernel
  · revert p; decide +kernel
  · revert p; decide +kernel
  · intro x hx
    have y : (2, x.1, []) ∈ params ∧ x.1.length = 32 ∧ vringOk (entryOf x.1) = x.2 :=
      (by decide +kernel : ∀ x ∈ [(leBytes 32 0, true), (leBytes 32 1, false)],
        (2, x.1, []) ∈ params ∧ x.1.length = 32 ∧ vringOk (entryOf x.1) = x.2) x hx
    have a := param_plain _ y.1
    have b := param_payload _ y.1 31 (by omega)
    refine ⟨takes_of a.1, by decide +kernel, _, b, ?_⟩
    rw [entries_pad x.1 y.2.1, List.all_cons, y.2.2, List.all_eq_true.2 fun e h => ?_, Bool.and_true]
    rw [List.eq_of_mem_replicate h]
    decide +kernel

/-! ### Rollback, images, the aperture, commands of the physical function -/

/-- Registers of context 0 added to a state. -/
def withCtxRegs (s : State) (l : List (Nat × Word)) : State := withRegs s (l.map fun r => (ctxA 0 r.1, r.2))

/-- Context 0 with a ROLLBACK to step 0, of its own record at 0x4000 or of the mirror that it holds at 0. -/
def rolling (held : Nat) (m : List Host.Cell) : State :=
  withCtxRegs (ringedWith mapped m (cmd [3, 7, 0, held])) [(Off.CTX_SNAP_ADDR, 0x4000), (Off.CTX_MIR_IN, 1)]

/-- The magic number of a record at 0x4000. -/
def magic : List Host.Cell := cells 0x4000 (leBytes 4 0x55565352)

theorem witness_RollbackSnapshotAndExport :
    (let s := rolling 0 []
     CtxTakes s 0 (cmd [3, 7]) ∧ isParam 7 (cmd [3, 7]) = true ∧ s.rollbackOwn 0 0 = none)
    ∧ (let s := ringed mapped (cmd [3, 7, 0, 1])
       CtxTakes s 0 (cmd [3, 7, 0, 1]) ∧ bitAt (w512 (cmd [3, 7, 0, 1]) 3) 0 = true ∧ s.rollbackHeld 0 0 = none)
    ∧ (let s := rolling 1 []
       CtxTakes s 0 (cmd [3, 7, 0, 1]) ∧ (s.rollbackHeld 0 0).isSome = true)
    ∧ (let s := rolling 0 magic
       CtxTakes s 0 (cmd [3, 7]) ∧ (s.rollbackOwn 0 0).isSome = true)
    ∧ (CtxTakes (ringed mapped (cmd [4, 0x1000])) 0 (cmd [4, 0x1000]) ∧ cmdOp (cmd [4, 0x1000]) = 4)
    ∧ (let s := ringed { mapped with rings := [(0, ⟨0, 65536, 2, 0, false, true⟩)] } (cmd [5, 0x1000])
       CtxTakes s 0 (cmd [5, 0x1000]) ∧ cmdOp (cmd [5, 0x1000]) = 5 ∧ Table.get? (s.ctx 0).rings 0 = some ⟨0, 65536, 2, 0, false, true⟩)
    ∧ (∀ o ∈ [Open.snapshot 5 0x1000 0 0, .exportRing 5 0x1000 0],
        let s := ringed { mapped with openCmd := some o, rings := [(0, ⟨0, 65536, 2, 0, false, true⟩)] } 0
        (s.ctx 0).openCmd = some o ∧ s.mayClose 0 = true) := by
  refine ⟨⟨takes_of ?_, ?_, ?_⟩, ⟨takes_of ?_, ?_, ?_⟩, ⟨takes_of ?_, ?_⟩, ⟨takes_of ?_, ?_⟩, ⟨takes_of ?_, ?_⟩, ⟨takes_of ?_, ?_, ?_⟩, ?_⟩ <;>
    decide +kernel

theorem witness_ApertureAccessReachesContextMemory :
    (let s := ringed mapped 0
     (s.ctx 0).boundB = false ∧ s.portUsable false = true ∧ s.aperAddr 0 0x1FFFFF = 0x1FFFFF
      ∧ (s.cWrap 0 Off.CTX_BYTES_PCIE 63 0 1).aperOk 0 0x1FFFFF 1 false = true
      ∧ (s.cWrap 0 Off.CTX_BYTES_PCIE 63 0 1).aperOk 0 0x1FFFFF 1 true = true
      ∧ (s.cWrap 0 Off.CTX_BYTES_PCIE 63 0 1).aperOk 0 0x200000 1 true = false ∧ s.aperXlate 0 0x1FFFFF true = some (2 ^ 41 + 0x1FFFFF)
      ∧ dpaLoc (2 ^ 41 + 0x1FFFFF) = .mem 3 0 0 0 0x1FFFFF ∧ s.memOk 3 0 0 = true) ∧ 0x1FFFFF + 1 ≤ 2 ^ 32 := by
  decide +kernel

/-- `PfTakes` as a Bool. -/
def takesPf (s : State) (src : PfSrc) (e : Bits512) : Bool := decide (s.pfEntry src = some e) && cmdOk e true && !strayParam e true

theorem takesPf_of {s : State} {src : PfSrc} {e : Bits512} (h : takesPf s src e = true) : PfTakes s src e := by
  simpa [takesPf, PfTakes, and_assoc] using h

/-- The package with command `e` of the physical function from node 7, and the bytes of `w` at DPA 2⁴¹ + 0x2000. -/
def managed (w : List Byte) (m : List Host.Cell) (e : Bits512) : State :=
  { withCtx mapped with bands := [(0, 0x55555557)], mem := m ++ cells 0x2000 w, mgmtCmds := [⟨7, e, 0⟩] }

/-- A GROUP or another command of parameter `p` for context `c` with that payload. -/
def pfCmd (p c : Nat) : Bits512 := cmd [3, p + 256 * c, 2 ^ 41 + 0x2000]

/-- R387: an MGMT command behind one command of the managing Ridge's ring waits for it; a command of the ring behind an MGMT command waits. -/
theorem test_management_order :
    (let s := withRegs (managed [] [] (pfCmd 3 0)) [((RingOf.pf false).addr Off.CTX_CMD_PTR, field 16 1)]
     let t := { s with mgmtCmds := [⟨7, pfCmd 3 0, 1⟩] }
     s.mgmtFirst = true ∧ s.pfEntry .mgmt = some (pfCmd 3 0) ∧ s.pfEntry (.ring false) = none ∧ t.mgmtFirst = false ∧ t.pfEntry .mgmt = none) := by
  decide +kernel

/-- Entry of a group of two members and one tile for context 0, with VALID and class as given; its member list is at 0x1000. -/
def groupD (valid cls : Nat) : Bits512 := cmd [valid + cls * 2 ^ 13 + 2 ^ 32, 0x1000, 2 ^ 19, 2 ^ 12]

/-- The member list of this node and node 7 at 0x1000. -/
def memberCells : List Host.Cell := [(0x1004, 7)]

/-- A REFORM of group 0 to epoch `n`. -/
def reformCmd (n : Nat) : Bits512 := cmd [3, 4, 0x1000, n * 2 ^ 12, 2]

theorem witness_GroupsAreInstalledAndReformed :
    (∀ x ∈ [(3, true), (0, false)], let d := groupD 1 x.1
      let s := managed (leBytes 64 d.toNat) memberCells (pfCmd 3 0)
      takesPf s .mgmt (pfCmd 3 0) = true ∧ isParam 3 (pfCmd 3 0) = true ∧ (s.devTouch (w512 (pfCmd 3 0) 2) 64).pfRead (w512 (pfCmd 3 0) 2) 64 = some (leBytes 64 d.toNat)
        ∧ BitVec.ofNat 512 (leNat (leBytes 64 d.toNat)) = d ∧ (s.ctx (groupOf d).ctx).running = none ∧ bitAt (w512 d 0) 0 = true
        ∧ s.groups = [] ∧ groupOk d = x.2
        ∧ (let w := (s.devTouch (w512 (pfCmd 3 0) 2) 64).liveTouch (groupOf d).ctx (w512 d 1) (4 * groupP d)
           w.poolOk 0 (groupOf d) = true ∧ w.memberList (groupOf d).ctx (w512 d 1) (groupP d) (groupOf d).self = some [0, 7]))
    ∧ (let s := { managed (leBytes 64 (groupD 0 3).toNat) [] (pfCmd 3 0) with groups := [(0, group0)] }
       takesPf s .mgmt (pfCmd 3 0) = true ∧ (s.devTouch (w512 (pfCmd 3 0) 2) 64).pfRead (w512 (pfCmd 3 0) 2) 64 = some (leBytes 64 (groupD 0 3).toNat) ∧ bitAt (w512 (groupD 0 3) 0) 0 = false
        ∧ Table.get? s.groups 0 = some group0 ∧ group0.ctx = (groupOf (groupD 0 3)).ctx)
    ∧ (let e := reformCmd 5
       let s := { managed [] memberCells e with groups := [(0, group0)] }
       takesPf s .mgmt e = true ∧ isParam 4 e = true ∧ Table.get? s.groups 0 = some group0 ∧ bits (w512 e 3) 27 12 = (group0.epoch + 1).toNat
        ∧ bits (w512 e 4) 16 0 = 2 ∧ bits (w512 e 4) 32 17 = 0 ∧ 2 % group0.node = 0 ∧ (s.liveTouch group0.ctx (w512 e 2) 8).memberList group0.ctx (w512 e 2) 2 0 = some [0, 7]
        ∧ (s.ctx group0.ctx).running = none ∧ (s.ctx group0.ctx).ended = [] ∧ (s.ctx group0.ctx).insts = [])
    ∧ (let s := { managed [] memberCells (reformCmd 4) with groups := [(0, group0)] }
       takesPf s .mgmt (reformCmd 4) = true ∧ bits (w512 (reformCmd 4) 3) 27 12 ≠ (group0.epoch + 1).toNat) := by
  refine ⟨?_, ?_, ?_, ?_⟩
  · decide +kernel
  all_goals constructorm* _ ∧ _ <;> decide +kernel

/-- A direct route entry of node 7 on ports 0 and `p`, with VALID as given. -/
def routeE (p valid : Nat) : List Byte := leBytes 32 (7 + p * 2 ^ 26 + valid * 2 ^ 52 + 5 * 2 ^ 64 + 6 * 2 ^ 128)

/-- A prefix entry of length `n`, with VALID as given. -/
def prefixE (n valid : Nat) : List Byte := leBytes 8 (n * 2 ^ 20 + valid * 2 ^ 45)

/-- A full route table without node 7. -/
@[irreducible] def fullRoutes : Table Route := (List.range 16384).map fun i => (i + 8, route7)

theorem fullRoutes_ok : fullRoutes.length = 16384 ∧ Table.get? fullRoutes 7 = none := by
  have g : ∀ m : Table Route, (∀ x ∈ m, 7 < x.1) → Table.get? m 7 = none := by
    intro m
    induction m with
    | nil => intro; rfl
    | cons x m ih =>
      intro z
      have y := z x (List.mem_cons_self ..)
      rw [Table.get?, if_neg (by omega)]
      exact ih fun w k => z w (List.mem_cons_of_mem _ k)
  unfold fullRoutes
  refine ⟨by rw [List.length_map, List.length_range], g _ fun x h => ?_⟩
  obtain ⟨i, -, rfl⟩ := List.mem_map.1 h
  show 7 < i + 8
  omega

theorem witness_RoutesAndPrefixesAreInstalled :
    (∀ x ∈ [(routeE 56 1, true, true), (routeE 7 1, true, false), (routeE 56 0, false, true)], let s := managed x.1 [] (pfCmd 5 0)
      takesPf s .mgmt (pfCmd 5 0) = true ∧ s.eavesReady = true ∧ isParam 5 (pfCmd 5 0) = true ∧ (s.devTouch (w512 (pfCmd 5 0) 2) 32).pfRead (w512 (pfCmd 5 0) 2) 32 = some x.1
        ∧ (routeOf (entryOf x.1)).1 = 7 ∧ (routeOf (entryOf x.1)).2.1 = x.2.1 ∧ routeOk (entryOf x.1) = x.2.2 ∧ s.routes.length < 16384)
    ∧ (∀ f ∈ [(1, 1), (2, 1), (2, 2)], let s := withRegs (managed (routeE 56 1) [] (pfCmd 5 0)) [(portReg 0 Off.EAV_PSTS, BitVec.ofNat 64 f.1),
        (portReg 56 Off.EAV_PSTS, BitVec.ofNat 64 f.2)]
      takesPf s .mgmt (pfCmd 5 0) = true ∧ s.portFailed 0 = decide (f.1 = 2) ∧ s.portFailed 56 = decide (f.2 = 2) ∧ Table.get? s.routes 7 = none
        ∧ linkKey 7 ∈ (routeOf (entryOf (routeE 56 1))).2.2.keys 7)
    ∧ (let s := { managed (routeE 56 1) [] (pfCmd 5 0) with routes := fullRoutes }
       PfTakes s .mgmt (pfCmd 5 0) ∧ s.eavesReady = true ∧ (s.devTouch (w512 (pfCmd 5 0) 2) 32).pfRead (w512 (pfCmd 5 0) 2) 32 = some (routeE 56 1)
        ∧ Table.get? s.routes 7 = none ∧ 16384 ≤ s.routes.length)
    ∧ ∀ x ∈ [(prefixE 20 1, true, 20), (prefixE 20 0, false, 20), (prefixE 21 1, true, 21)], let s := managed x.1 [] (pfCmd 6 0)
      takesPf s .mgmt (pfCmd 6 0) = true ∧ s.eavesReady = true ∧ isParam 6 (pfCmd 6 0) = true ∧ (s.devTouch (w512 (pfCmd 6 0) 2) 8).pfRead (w512 (pfCmd 6 0) 2) 8 = some x.1
        ∧ bitAt (leNat x.1) 45 = x.2.1 ∧ bits (leNat x.1) 24 20 = x.2.2 ∧ bits (leNat x.1) 63 46 = 0 ∧ bits (leNat x.1) 19 0 = 0
        ∧ s.prefixes.length < 1024 := by
  refine ⟨by decide +kernel, by decide +kernel, ⟨takesPf_of (by decide +kernel), by decide +kernel, by decide +kernel, by exact fullRoutes_ok.2, by exact fullRoutes_ok.1.ge⟩,
    by decide +kernel⟩

/-- A context descriptor with EN, set kind and memory share as given, for stack 0 and one course, whose ID stands at DPA 2⁴¹ + 0x3000. -/
def ctxE (en kind share : Nat) : List Byte :=
  leBytes 32 (en + kind * 16 + share * 2 ^ 10 + 2 ^ 21 + 2 ^ 32 + (2 ^ 41 + 0x3000) * 2 ^ 64)

theorem witness_PhysicalFunctionCommandsActOnContexts :
    (∀ x ∈ [(ctxE 1 2 1, true, true), (ctxE 1 2 1024, true, false), (ctxE 1 3 1, false, true)],
      let s := { managed x.1 [] (pfCmd 8 5) with mem := cells 0x2000 x.1 ++ [(0x3000, 1)] }
      takesPf s .mgmt (pfCmd 8 5) = true ∧ isParam 8 (pfCmd 8 5) = true ∧ cmdCtx (pfCmd 8 5) = 5 ∧ s.busy 5 = false ∧ (s.ctx 5).openCmd = none
        ∧ (s.devTouch (w512 (pfCmd 8 5) 2) 32).pfRead (w512 (pfCmd 8 5) 2) 32 = some x.1 ∧ (ctxDesc (entryOf x.1)).1 = true ∧ ctxDescOk (entryOf x.1) = x.2.1
        ∧ (ctxDesc (entryOf x.1)).2.1 = 1 ∧ (s.die (thatchDie 0)).ready = true ∧ s.alive (thatchDie 0) = true
        ∧ (x.2.1 = true → (ctxDesc (entryOf x.1)).2.2.2.stacks = [0])
        ∧ (let w := (s.devTouch (w512 (pfCmd 8 5) 2) 32).devTouch (ctxDesc (entryOf x.1)).2.2.1 2
           w.courseList (ctxDesc (entryOf x.1)).2.2.1 1 = some [1] ∧ w.courseOk 5 1 = true ∧ w.sharesOk 5 (ctxDesc (entryOf x.1)).2.2.2 = x.2.2))
    ∧ (let s := managed (ctxE 0 0 0) [] (pfCmd 8 5)
       takesPf s .mgmt (pfCmd 8 5) = true ∧ (s.devTouch (w512 (pfCmd 8 5) 2) 32).pfRead (w512 (pfCmd 8 5) 2) 32 = some (ctxE 0 0 0) ∧ (ctxDesc (entryOf (ctxE 0 0 0))).1 = false
        ∧ (s.ctx 5).phase ≠ .resetting)
    ∧ (∀ l ∈ [[3, 9 + 5 * 256, 0, 1], [6], [3, 10]], takesPf (managed [] [] (cmd l)) .mgmt (cmd l) = true)
    ∧ isParam 9 (cmd [3, 9 + 5 * 256, 0, 1]) = true ∧ ((managed [] [] 0).ctx 5).openCmd = none ∧ cmdOp (cmd [6]) = 6
    ∧ isParam 10 (cmd [3, 10]) = true := by
  refine ⟨by decide +kernel, ?_, by decide +kernel, ?_⟩ <;> constructorm* _ ∧ _ <;> decide +kernel

/-! ### Frames -/

/-- The header of a frame of type `t` from node 7 to this one. -/
def hdrOf (t : Nat) (seq : BitVec 32) : FrameHdr :=
  ⟨0, 7, (typeClass t).getD 0, t, 0, true, false, true, false, seq, 0, 0, 4, 64, 0, false, 0, 0⟩

/-- A frame that arrives whole at port 0, for MAC address 2 with VID 0 and the reset EtherType. -/
def rxF (h : FrameHdr) (b : Payload) : RxFrame :=
  ⟨0, true, ⟨2, 0x8100, BitVec.ofNat 16 (up.rf (bar0 (portDie 0) 0 Off.EAV_ETYPE) 27 16), BitVec.ofNat 16 (up.rf (bar0 (portDie 0) 0 Off.EAV_ETYPE) 15 0)⟩, 0, 0,
    ⟨h, b⟩⟩

/-- The routed package with MAC address 2 at port 0. -/
def addressed : State := { routed with regs := (portReg 0 Off.EAV_MAC, 2) :: routed.regs }

/-- A MIRROR record. -/
def mirror0 (kind : Nat) (rebuild : Bool) : MirrorMsg := ⟨1, kind, false, rebuild, false, 0, 0, []⟩

theorem witness_ReceiveChecksDecideAFrame :
    ((0 : Nat) < 64 ∧ mirrorSort (rxF (hdrOf 6 0) (.mirror (mirror0 0 false))) = 0 ∧ mirrorSort (rxF (hdrOf 6 0) (.mirror (mirror0 3 false))) = 1
      ∧ mirrorSort (rxF (hdrOf 6 0) (.mirror (mirror0 0 true))) = 2)
    ∧ up.portUpNow 63 = false ∧ addressed.portUpNow 0 = true ∧ addressed.alive (portDie 0) = true
    ∧ ({ rxF (hdrOf 4 0) (.raw []) with fcsOk := false } : RxFrame).fcsOk = false
    ∧ (addressed.checks { rxF (hdrOf 4 0) (.raw []) with eth := ⟨3, 0x8100, 0, 0⟩ } = some (Off.EAV_DROP, 47, 32)
      ∧ addressed.checks (rxF { hdrOf 4 0 with dst := 1 } (.raw [])) = some (Off.EAV_DROP, 15, 0)
      ∧ addressed.checks (rxF { hdrOf 4 0 with src := 8 } (.raw [])) = some (Off.EAV_DROP, 15, 0)
      ∧ addressed.checks (rxF { hdrOf 4 0 with len := 4097 } (.raw [])) = some (Off.EAV_DROP, 47, 32)
      ∧ addressed.checks (rxF { hdrOf 4 0 with pepoch := 1 } (.raw [])) = some (Off.EAV_DROP, 31, 16))
    ∧ (∀ t ∈ [1, 2, 3, 4, 5, 6, 7, 8, 9, 10], (hdrOf t 0).typ = t ∧ addressed.checks (rxF (hdrOf t 0) (.raw [])) = none
      ∧ addressed.frameKey (hdrOf t 0) = some 119 ∧ (hdrOf t 0).cls ≠ 1 ∧ (addressed.lc 119 (hdrOf t 0).cls).exp = 0 ∧ addressed.keepAlive = false)
    ∧ laterMod 32 (hdrOf 4 1).seq.toNat 0 = true ∧ (hdrOf 4 1).seq ≠ 0 ∧ laterMod 32 (hdrOf 4 0xFFFFFFFF).seq.toNat 0 = false
    ∧ (hdrOf 4 0xFFFFFFFF).seq ≠ 0 := by
  constructorm* _ ∧ _ <;> decide +kernel

/-- Context 0 with its group and a route to node 7. -/
def grouped (x : Ctx) : State := { routed with ctxs := [(0, x)], groups := [(0, group0)] }

/-- A running launch with one slot in a group. -/
def votingRun : Running := { run0 with slots := [(0, slot0)] }

/-- Site 0 on, with window 15 to node 7 and window 0 to 64 KiB of DPA 0. -/
def siteUp (x : Site) : State :=
  withRegs { routed with sites := [(0, x)] } [(dmrReg 0 Off.DMR_STS, 0), (dmrReg 0 Off.DMR_CTL, 2 * 64 + 1),
    (dmrReg 0 (Off.DMR_WCTL + 0x20 * 15), 14), (dmrReg 0 (Off.DMR_WDPA + 0x20 * 15), 7), (dmrReg 0 Off.DMR_WCTL, 13)]

/-- Context 0 with node 7 as its buddy and one mirrored slot of a version ring at 0. -/
def mirrored (x : Ctx) : State :=
  withCtxRegs { routed with ctxs := [(0, { x with rings := [(0, ⟨0, 65536, 2, 0, false, true⟩)] })] } [(Off.CTX_MIR_OUT, 1 + 14 + 2 ^ 21)]

theorem witness_FramePayloadsAct :
    (let s := grouped (ctx0 (tile0 0))
     Table.get? s.groups 0 = some group0 ∧ group0.ctx < 1024 ∧ group0.epoch ≠ 5 ∧ group0.epoch = (hdrOf 4 0).oepoch ∧ group0.pool = 0
      ∧ (s.ctx 0).openLaunch 0 0 0 = none ∧ earlierMod 32 (0 : BitVec 32).toNat group0.seq.toNat = false ∧ group0.votes = [] ∧ (s.ctx 0).insts = [])
    ∧ (let s := grouped { ctx0 (tile0 0) with running := some votingRun }
       ((s.ctx 0).openLaunch 0 1 0) = some votingRun ∧ (s.ctx 0).phase = .normal ∧ (s.ctx 0).running = some votingRun
        ∧ votingRun.slot? 0 = some slot0 ∧ slot0.epoch = group0.epoch)
    ∧ (({ group0 with votes := [(1, 0, ⟨7, 0, 0, 0, 0⟩)] } : Group).ballot 1 0 = none
      ∧ (({ group0 with votes := [(1, 0, ⟨0, 0, 0, 0, 0⟩), (1, 0, ⟨7, 0, 0, 0, 0⟩)] } : Group).ballot 1 0).isSome = true)
    ∧ (Table.get? (routed.ctx 0).links 0 = none
      ∧ (let s := grouped { ctx0 (tile0 0) with links := [(0, { link0 with maxLen := 4095 })] }
         Table.get? (s.ctx 0).links 0 = some { link0 with maxLen := 4095 } ∧ link0.rxEn = true ∧ (s.ctx 0).phase = .normal
          ∧ (s.queue 0 0).tail = false ∧ (s.queue 0 0).skipping = false ∧ (s.queue 0 0).partialWords = []
          ∧ 4095 < leNat ((([0, 0, 0, 0, 0xFF, 0x0F] : List Byte).drop 4).take 2) % 4096 + 1))
    ∧ (((grouped { Ctx.init with phase := .faulted }).ctx 0).phase ≠ .normal ∧ (routed.ctx 0).phase = .normal ∧ (hdrOf 7 0).last = true
      ∧ (routed.cf 0 Off.CTX_INGEST_WIN 55 32 + 1) * 65536 < leNat ((leBytes 8 65536 ++ [0]).take 8) % 2 ^ 40 + ((leBytes 8 65536 ++ [0]).length - 8)
      ∧ 8 < (leBytes 8 65536 ++ [(0 : Byte)]).length)
    ∧ (let s := siteUp Site.init
       s.siteOn 0 = true ∧ (s.window 0 15).kind = 2 ∧ (s.window 0 15).rd = true ∧ (s.window 0 15).dpa % 2 ^ 20 = 7
        ∧ ∀ w, w < 16 → (s.window 0 w).kind = 2 → (s.window 0 w).rd = true → (s.window 0 w).dpa % 2 ^ 20 ≠ 8)
    ∧ (let s := mirrored { Ctx.init with mirrorGen := some ⟨1, true, [], true⟩ }
       (s.ctx 0).mirrorGen = some ⟨1, true, [], true⟩ ∧ (mirror0 3 false).gen = 1 ∧ s.buddy 0 = 7)
    ∧ (routed.cf 0 Off.CTX_MIR_IN 0 0 = 0
      ∧ (let s := withCtxRegs routed [(Off.CTX_MIR_IN, 1)]
         s.cf 0 Off.CTX_MIR_IN 0 0 = 1 ∧ (s.ctx 0).phase = .normal ∧ s.cf 0 Off.CTX_MIR_IN 20 1 ≠ 7))
    ∧ (routed.buddy 0 ≠ 7
      ∧ (let s := mirrored Ctx.init
         s.buddy 0 = 7 ∧ (s.ctx 0).running = none ∧ (s.ctx 0).phase = .normal ∧ (s.mirrorPages 0)[0]?.isSome = true
          ∧ ∀ p ∈ (s.mirrorPages 0)[0]?, s.regionOf 0 p.va = none))
    ∧ (routed.node = 0 ∧ Table.get? routed.routes 8 = none ∧ (Table.get? routed.routes 7).isSome = true)
    ∧ (routed.frameKey (hdrOf 0 0) = some 119 ∧ laterMod 64 (5 : Word).toNat (routed.lc 119 2).freedHeld.toNat = true
      ∧ laterMod 64 (0 : Word).toNat (routed.lc 119 2).freedHeld.toNat = false ∧ 119 % 17 = 0 ∧ keyNode 119 = 7
      ∧ (let s := grouped { ctx0 (tile0 0) with links := [(0, { link0 with remote := true, rxEn := false, destNode := 7 })] }
         invB s = true ∧ Table.get? (s.ctx 0).links 0 = some { link0 with remote := true, rxEn := false, destNode := 7 })) := by
  constructorm* _ ∧ _ <;> decide +kernel

/-- The link to node 7 with its class `c` as given. -/
def linked (c : Nat) (l : LinkClass) : State := { routed with links := [(119, { Link.init with classes := [(c, l)], lastTx := 90000 })] }

/-- A frame for node 7 of the class of its type. -/
def txF (t : Nat) : TxFrame := ⟨⟨{ hdrOf t 0 with dst := 7, src := 0 }, .raw []⟩, none, none⟩

/-- A frame held since cycle `a`. -/
def heldF (a : Nat) : HeldFrame := ⟨0, a, ⟨{ hdrOf 1 0 with dst := 7, src := 0 }, .raw []⟩, none, none⟩

theorem witness_FramesAreHeldUntilAcknowledged :
    (∀ t ∈ [0, 1, 4], let c := (hdrOf t 0).cls
      let s := linked c { LinkClass.init with txq := [txF t], freedHeld := 0 }
      s.activePort 119 = some 0 ∧ s.mayStart 119 c = true ∧ s.servedBefore 0 c = false ∧ (s.lc 119 c).replay = none ∧ (s.lc 119 c).txq = [txF t])
    ∧ (let s := linked 2 { LinkClass.init with next := 1, held := [heldF 5], replay := some 0 }
       s.activePort 119 = some 0 ∧ s.mayStart 119 2 = true ∧ s.servedBefore 0 2 = false ∧ (s.lc 119 2).replay = some 0
        ∧ (s.lc 119 2).held.find? (fun f => !earlierMod 32 f.seq.toNat (0 : BitVec 32).toNat) = some (heldF 5))
    ∧ (let s := linked 2 { LinkClass.init with next := 1, held := [heldF 92000] }
       (s.lc 119 2).held = [heldF 92000] ∧ s.kaliveOn 119 2 = false ∧ (s.link 119).down = false ∧ 92000 + s.cyc 4000 ≤ s.now)
    ∧ (let s := linked 2 { LinkClass.init with ackDue := true }
       s.activePort 119 = some 0 ∧ s.linkActive 119 = true ∧ ∃ e ∈ (s.link 119).classes, e.2.ackDue = true)
    ∧ (let s := linked 2 LinkClass.init
       s.linkActive 119 = true ∧ (s.link 119).lastCtl + s.cyc (s.ctlNs 0) ≤ s.now)
    ∧ (∀ n ∈ [0, 1], let s := withRegs { up with tb := 2000000000, replayCount := [(7, n)] } [(bar0 (eaveDie 7) 0 Off.EAV_REPLAY_WARN, 0)]
      s.periodOver (.replays 7) = true ∧ s.rf (bar0 (eaveDie 7) 0 Off.EAV_REPLAY_WARN) 31 0 = 0 ∧ Table.getD 0 s.replayCount 7 = n) := by
  constructorm* _ ∧ _ <;> decide +kernel

theorem witness_LinksMovePauseAndKeepTime :
    (∀ b ∈ [false, true], let s := { routed with links := [(119, { Link.init with lastTx := 90000, since := 88000, failedS := b })] }
      s.activePort 119 = some 0 ∧ s.linkActive 119 = true ∧ s.sideFailed 119 (s.link 119).onSecondary = false
        ∧ max (s.link 119).lastRx (s.link 119).since + s.cyc 6000 ≤ s.now ∧ s.sideFailed 119 (!(s.link 119).onSecondary) = b)
    ∧ routed.portUpNow 56 = true
    ∧ (let s := { routed with links := [(119, { Link.init with failedP := true, moving := true, classes := [(2, { LinkClass.init with held := [heldF 5] })] })] }
       s.activePort 119 = some 0 ∧ s.otherPort 119 = some 56 ∧ (s.link 119).down = false ∧ (s.link 119).moving = true
        ∧ s.sideFailed 119 (!(s.link 119).onSecondary) = false ∧ s.portUpNow 56 = true ∧ (s.lc 119 2).held ≠ [])
    ∧ (let s := { routed with links := [(119, { Link.init with failedP := true, failedS := true })] }
       (s.link 119).down = false ∧ s.sideFailed 119 false = true ∧ s.sideFailed 119 true = true ∧ s.ctxsOnLink 119 = [])
    ∧ (∀ prio < 6, bitAt (routed.rf (portReg 0 Off.EAV_PCTL) 10 3) prio = true)
    ∧ (let s := { routed with ports := [(0, { Port.init with pausedUntil := [(5, 90000)], pausedPeer := [(5, 5)] })] }
       Table.get? (s.port 0).pausedUntil 5 = some 90000 ∧ 90000 ≤ s.now ∧ s.pfcOn 0 5 = true ∧ s.pauseDue 0 5 = true)
    ∧ routed.pauseDue 0 5 = false ∧ up.portUpNow 0 = false ∧ (0x0800 : BitVec 16) ≠ 0x88F7
    ∧ (0x0800 : BitVec 16).toNat ≠ routed.rf (bar0 (portDie 0) 0 Off.EAV_ETYPE) 15 0
    ∧ (let s := withRegs routed [(Off.RDG_PTP, 2 ^ 14)]
       s.rf Off.RDG_PTP 14 14 = 1 ∧ s.rf Off.RDG_PTP 5 0 = 0 ∧ s.portUpNow 0 = true)
    ∧ routed.rf Off.RDG_PTP 14 14 = 0 ∧ routed.pwrgd = true ∧ routed.alive (portDie 0) = true := by
  constructorm* _ ∧ _ <;> decide +kernel

/-! ### Units, collectives, edges, sites, Ligger engines, energy -/

theorem witness_UnitOperationEndsAtItsLatency :
    ∀ k ∈ [UnitKind.matrix, .vector, .special, .stream 3],
      let o := { busyOp with endAt := 100000, ctr := some 4 }
      let s := withCtx (ctx0 { tile0 0 with matrix := some o, vector := some o, special := some o, streams := [(3, o)] })
      (s.tile 0 0).unit k = some o ∧ o.endAt ≤ s.now ∧ o.inst = none ∧ s.tokens 0 0 4 < 65535 := by decide +kernel

/-- A collective instance of context 0 with tile 0 in it: a contribution of 64 bytes, and the area of a RING_PASS received. -/
def inst0 (op : Nat) (given : Option (List PByte)) : Inst :=
  ⟨0, 0, 0, 4, 0, op, 0, [(0, ⟨64, 0, 8, given, [], []⟩)], [], [], [(0, List.replicate 64 (1, false))], []⟩

/-- Context 0 with group `g` and that instance. -/
def withInst (g : Group) (x : Inst) : State := { withCtx { ctx0 (tile0 0) with insts := [(0, x)], nextInst := 1 } with groups := [(0, g)] }

/-- The group of one member. -/
def alone : Group := { group0 with alg := 1, members := [0] }

theorem witness_CollectivesJoinAndComplete :
    (let s := atColl group0 (tile0 (ent 0x18 []))
     s.dueClass 0 0 0x18 = some (ent 0x18 []) ∧ (s.tile 0 0).matrix = none ∧ (collOp (ent 0x18 [])).group = 0 ∧ (collOp (ent 0x18 [])).op = 0
      ∧ Table.get? s.groups 0 = some group0 ∧ group0.ctx = 0 ∧ (s.openInsts 0 0 0 group0).length < 2 ∧ group0.hasTile 0 = true
      ∧ group0.serves 0 = true ∧ group0.pool = 0 ∧ ((s.ctx 0).insts.find? fun e => e.2.group = 0 ∧ e.2.epoch = group0.epoch ∧ e.2.ordinal = 0) = none)
    ∧ (let s := { atColl group0 (tile0 (ent 0x18 [])) with ctxs := [(0, { ctx0 (tile0 (ent 0x18 [])) with insts := [(0, inst0 0 none)] })] }
       s.dueClass 0 0 0x18 = some (ent 0x18 []) ∧ (s.openInsts 0 0 0 group0).length < 2
        ∧ ((s.ctx 0).insts.find? fun e => e.2.group = 0 ∧ e.2.epoch = group0.epoch ∧ e.2.ordinal = 0) = some (0, inst0 0 none))
    ∧ (let x := inst0 3 none
       let s := withInst group0 x
       s.inst 0 0 = some x ∧ s.instGroup x = some group0 ∧ Table.get? x.tiles 0 = some ⟨64, 0, 8, none, [], []⟩
        ∧ (x.chunksOf group0 0).find? (fun k => k ∉ ([] : List Nat)) = some 0 ∧ s.tokens 0 0 group0.ctr < 65535
        ∧ Table.get? x.areas 0 = some (List.replicate 64 (1, false)) ∧ s.ringRead 0 0 x = true)
    ∧ (∀ v ∈ [none, some (List.replicate 64 ((1, false) : PByte))], let x := inst0 0 v
       let s := withInst alone x
       s.inst 0 0 = some x ∧ s.instGroup x = some alone ∧ (x.chunksOf alone 0).find? (fun k => k ∉ ([] : List Nat)) = some 0 ∧ x.op ≠ 3)
    ∧ (((inst0 0 (some (List.replicate 64 (1, false)))).reds alone)[0]?.bind Red.result).isSome = true
    ∧ (let x := inst0 0 (some (List.replicate 64 (1, false)))
       (x.reds { alone with members := [0, 7] })[0]?.isSome = true ∧ ((x.reds { alone with members := [0, 7] })[0]?.bind Red.result) = none) := by
  constructorm* _ ∧ _ <;> decide +kernel

/-- The collective frames of FramePayloadsAct: a pool out of turn, a piece of no instance, the area of a RING_PASS of the right and of a wrong length. -/
theorem witness_CollectiveFrames :
    (let g : Group := { group0 with pool := 1, order := 1, npool := 2 }
     g.pool ≠ 0 ∧ (0 : BitVec 32).toNat % g.npool ≠ g.order)
    ∧ (atColl group0 (tile0 0)).matchInst 0 0 group0 0 0 true = none
    ∧ (∀ n ∈ [63, 64], let x := inst0 3 none
       let s := withInst group0 x
       let m : CollMsg := ⟨0, 0, ⟨0, 0, 0, 0, 0⟩, 0, 0, n, (0, n), []⟩
       s.matchInst 0 0 group0 m.seq m.tile true = some (0, x) ∧ s.inst 0 0 = some x ∧ (Table.get? x.tiles m.tile).map (·.size) = some 64
        ∧ m.total = n) := by
  constructorm* _ ∧ _ <;> decide +kernel

/-- Die 63 with its edge to die 62 UP, `n` of whose strands have failed. -/
def edged (n : Nat) : State :=
  withRegs up [(btnReg 63 3 Off.BTN_EDGE_STS, BitVec.ofNat 64 (1 + 4 * (2 ^ n - 1))), (btnReg 62 1 Off.BTN_EDGE_STS, 1)]

theorem witness_EdgesAndDiesAreLost :
    (∀ n ∈ [0, 1], (edged n).edgeUp 63 3 = true ∧ (edged n).strandUsed 63 3 7 = true ∧ (edged n).strands 63 3 = 8 - n)
    ∧ neighbour 63 3 = some 62 ∧ up.alive 63 = true ∧ (edged 0).rf (btnReg 63 3 Off.BTN_EDGE_STS) 1 0 = 1
    ∧ strandKey 63 3 7 ∈ ({ up with strandFaults := [strandKey 63 3 6, strandKey 63 3 7] } : State).strandFaults
    ∧ strandKey 63 3 6 ∈ ({ up with strandFaults := [strandKey 63 3 6, strandKey 63 3 7] } : State).strandFaults
    ∧ (∀ j < 8, j ≠ 7 → strandKey 63 3 j ∉ ({ up with strandFaults := [strandKey 63 3 7] } : State).strandFaults)
    ∧ (∀ n ∈ [0, 1], let s := withRegs { up with tb := 2000000000, flitCount := [(255, n)] } [(btnReg 63 3 Off.BTN_STRAND_WARN, 0)]
      s.periodOver (.flits 63 3) = true ∧ s.rf (btnReg 63 3 Off.BTN_STRAND_WARN) 31 0 = 0 ∧ Table.getD 0 s.flitCount (63 * 4 + 3) = n)
    ∧ (let s := { withDie (eaveDie 7) { dieUp with powered := false } with ctxs := [(0, { Ctx.init with cfg := some cfg0 })] }
       invB s = true ∧ s.shutdown = false ∧ s.fenceDue (eaveDie 7) 5 = true ∧ s.cycle.issued = false
        ∧ ({ s with cycle := { Cycle.start with issued := true } } : State).fenceDue (eaveDie 7) 5 = true)
    ∧ (let s := { withDie (rafterDie 0) { dieUp with powered := false } with ctxs := [(0, { Ctx.init with cfg := some cfg0 })] }
       invB s = true ∧ s.fenceDue (rafterDie 0) 5 = true ∧ (s.ctx 0).losesDie (rafterDie 0) = true ∧ (s.ctx 0).phase = .normal)
    ∧ (let s := withDie 0 { dieUp with powered := false }
       invB s = true ∧ s.fenceDue 0 5 = true ∧ 0 = s.mgr)
    ∧ up.fenceDue 63 5 = false ∧ ({ up with shutdown := true } : State).shutdown = true
    ∧ (let s := { withDie 0 { dieUp with fenced := true } with takeoverActive := true }
       s.takeoverActive = true ∧ (s.die s.mgr).fenced = true ∧ (s.die (63 - s.mgr)).fenced = false ∧ s.cycle.issued = false
        ∧ ({ s with cycle := { Cycle.start with issued := true } } : State).cycle.issued = true)
    ∧ (let s := { up with takeoverActive := true }
       s.takeoverActive = true ∧ (s.die s.mgr).fenced = false) := by
  constructorm* _ ∧ _ <;> decide +kernel

theorem witness_FlashingGuardsTheSites :
    (let s := siteUp { Site.init with bucket := 128 }
     s.siteOn 0 = true ∧ s.pwrgd = true ∧ invB s = true
      ∧ (s.flashing 0 (.read 65536 64) = .bad 1 65536 ∧ s.flashing 0 (.write 65536 [0]) = .bad 1 65536
        ∧ s.flashing 0 (.write 65535 [0, 0]) = .memory 65535
        ∧ s.flashing 0 (.register 0 0 0 false 0) = .bad 3 0 ∧ s.flashing 0 (.frame 8 []) = .bad 4 8)
      ∧ s.flashing 0 (.read 65472 64) = .memory 65472 ∧ s.flashing 0 (.write 65472 [1]) = .memory 65472 ∧ (s.site 0).waiting = []
      ∧ s.guestOk 0 (.read 65472 64) = true ∧ s.guestOk 0 (.write 65472 [1]) = true ∧ 65472 % 256 + 1 ≤ 256
      ∧ s.reach s.mgr 65472 = .ok (xorGroups 4 255 7) (15 * 256 + 192)
      ∧ (let t := { s with dies := Table.set s.dies (thatchDie (xorGroups 4 255 7)) { dieUp with fenced := true } }
         t.flashing 0 (.read 65472 64) = .memory 65472
          ∧ (match t.reach t.mgr 65472 with
              | .ok _ _ => false
              | _ => true) = true)
      ∧ s.flashing 0 (.frame 7 [1]) = .network 7 ∧ s.guestOk 0 (.frame 7 [1]) = true ∧ (Table.get? s.routes 7).isSome = true)
    ∧ (∀ b ∈ [false, true], let s := siteUp { Site.init with waiting := [.read 0 64], bucket := if b then 64 else 0, bucketAt := 100000 }
      (s.site 0).waiting = [.read 0 64] ∧ s.guestOk 0 (.read 0 64) = b) := by
  constructorm* _ ∧ _ <;> decide +kernel

/-- A command of a Ligger engine over sector 0 of THC15, or over the scratchpad of tile 0 of context 0. -/
def job (op : Nat) : LigJob := ⟨op, 2 ^ 41 + 15 * 2 ^ 36, 64, 0, 2 ^ 41, 0, 0, 0, 0, false, false, false⟩
def padJob (op : Nat) : LigJob := { job op with base := 3 * 2 ^ 40 + (atTile 0).padBase 0 0 }

/-- Engine 3 of THC15 with a command running, in state `st`. -/
def ligging (j : LigJob) (st : Nat) : State :=
  withRegs { up with ligger := [(63, j)], bands := [(0, 0xD5555557)] } [(ligReg 15 3 Off.THC_LIG_STS, BitVec.ofNat 64 st)]

/-- An image that passes its seal. -/
def image0 : SealedImage := ⟨true, [], []⟩

theorem witness_LiggerEnginesActOnTheirSectors :
    (∀ op < 10, invB (ligging (job op) 1) = true ∧ (ligging (job op) 1).ligJob 15 3 op = some (job op))
    ∧ ((ligging (job 0) 1).padRangeBusy 15 (job 0) = false ∧ (job 0).pads = false ∧ (job 0).next 15 1 = [(2 ^ 41 + 15 * 2 ^ 36, 0, 64)]
        ∧ dpaLoc (2 ^ 41 + 15 * 2 ^ 36) = .mem 3 15 0 15 0 ∧ (ligging (job 0) 1).memOk 3 0 15 = true)
    ∧ (∀ op < 10, let s := { ligging (padJob op) 1 with ctxs := (atTile 0).ctxs }
      s.ligJob 15 3 op = some (padJob op) ∧ s.padRangeBusy 15 (padJob op) = true ∧ (padJob op).pads = true)
    ∧ (∀ f ∈ [0, 1, 2, 8, 9], (ligging { job 3 with fmt := f } 1).ligJob 15 3 3 = some { job 3 with fmt := f })
    ∧ ((ligging (job 4) 1).rf (ligReg 15 3 Off.THC_LIG_STS) 35 4 = 0 ∧ (sectorsOf ((job 4).next 15 1))[0]? = some (2 ^ 41 + 15 * 2 ^ 36))
    ∧ (∀ n ∈ [0, 1], decide (((job 5).blocks 15).length ≤ (job 5).at_ + n) = decide (n = 1))
    ∧ (image0.ok = true ∧ ({ image0 with ok := false } : SealedImage).ok = false ∧ image0.pages.length ≤ (job 7).at_
      ∧ bits (job 7).aux2 9 0 = 0 ∧ (withCtxRegs (ligging (job 7) 1) [(Off.CTX_SNAP_ADDR, 0x4000)]).reg (ctxA 0 Off.CTX_SNAP_ADDR) ≠ 0)
    ∧ (∀ x ∈ [0, 6, 1, 2, 3, 10], let s := { ligging (job 8) 1 with mem := if x = 0 then [] else [(6, BitVec.ofNat 8 x)] }
      s.ligJob 15 3 8 = some (job 8) ∧ leNat (s.devRead (job 8).aux2 8).1 = x * 2 ^ 48)
    ∧ (∀ b ∈ [false, true], let s := ligging { job 0 with done := true, failed := b } 1
      Table.get? s.ligger (ligKey 15 3) = some { job 0 with done := true, failed := b } ∧ s.alive (thatchDie 15) = true ∧ s.ligState 15 3 = 1)
    ∧ (∀ st ∈ [0, 1, 4], (ligging (job 0) st).ligState 15 3 = st ∧ reaches (ligging (job 0) st) pfA (ligReg 15 3 Off.THC_LIG_CTL) = true) := by
  constructorm* _ ∧ _ <;> decide +kernel

theorem witness_EnergyAndAgeing :
    (let s := { withCtx { Ctx.init with cfg := some cfg0 } with tileCycles := [(rafterDie 0, 3)] }
     invB s = true ∧ (∀ e ∈ s.ctxs, e.1 < 1024 ∧ e.2.running = none) ∧ s.shares (rafterDie 0) = [(0, 3)])
    ∧ (up.Inv ∧ up.shares 63 = [] ∧ up.ctxs = [])
    ∧ (let s : State := { up with tb := 512000000 }
       s.periodOver .energy = true ∧ s.periodOver (.margin 35) = true ∧ s.periodOver (.epoch 35) = true ∧ s.periodOver (.voff 35) = true
        ∧ s.Inv ∧ s.shares 63 = [] ∧ s.ctxs = [] ∧ s.alive (rafterDie 35) = true)
    ∧ up.alive (rafterDie 35) = true ∧ (([-3, 5] : List Int).take 96).min? = some (-3)
    ∧ (-3 : Int) < ofField16 (up.rf (bar0 (rafterDie 35) 0 Off.RFT_AGE_CFG) 31 16)
    ∧ ((withRegs up [(bar0 (rafterDie 35) 0 Off.RFT_AGE_STS, 1)]).rf (bar0 (rafterDie 35) 0 Off.RFT_AGE_STS) 1 0 = 1
      ∧ ∀ x ∈ [MonitorReading.mk 20 0, ⟨-10, 1000⟩], (0 : Int) ≤ predicted x.slack x.slope 0 12)
    ∧ (let s := { up with rafters := [(35, { Rafter.init with spares := [2303], retired := [⟨0, 2303, true⟩] })] }
       s.Inv ∧ (s.rafter 35).retired.find? (·.copying) = some ⟨0, 2303, true⟩) :=
  ⟨by decide +kernel, ⟨inv_of (by decide +kernel), by decide +kernel, rfl⟩,
    ⟨by decide +kernel, by decide +kernel, by decide +kernel, by decide +kernel, inv_of (by decide +kernel), by decide +kernel, rfl, by decide +kernel⟩,
    by decide +kernel, by decide, by decide +kernel, by decide +kernel, inv_of (by decide +kernel), by decide +kernel⟩

theorem witness_TokenCountersSaturate :
    (∀ n ∈ [1, 2], (withCtx (ctx0 { tile0 0 with tokens := [(3, 65534)] })).tokens 0 0 3 + n = 65534 + n)
    ∧ (∀ n ∈ [1, 2], let x := xfer0 (.signal 0 3 n)
      let s := withCtx { ctx0 { tile0 0 with tokens := [(3, 65534)] } with xfers := [(0, x)], nextXfer := 1 }
      s.xfer 0 0 = some x ∧ s.canArrive 0 0 x = true ∧ x.orphan = false ∧ s.cycle.faults = []) := by decide +kernel

theorem witness_PortWeightsSumToAtMost256 :
    reaches up pfA (bar0 (portDie 63) 0 (Off.EAV_WRR + 8 * (63 % 8))) = true
      ∧ ((List.range 6).map fun i => fld (0x000080808000 : Word) (8 * i + 7) (8 * i)).sum = 384
      ∧ ((List.range 6).map fun i => fld (0x000000808000 : Word) (8 * i + 7) (8 * i)).sum = 256
      ∧ ({ up with pwrgd := false } : State).pwrEn = true ∧ reaches up pfA Off.RDG_PKG_RESET = true ∧ up.rf Off.RDG_SAG 2 0 < 4
      ∧ up.rf Off.RDG_FWACT 0 0 = 0 := by decide +kernel

theorem witness_DpaMapIsInjective : dpaLoc 0 ≠ .hole ∧ dpaLoc (2 ^ 40 - 1) ≠ .hole ∧ dpaLoc (2 ^ 41) ≠ .hole := by decide +kernel

/-- The third open instance of a group (EntriesThatCannotIssueFault). -/
theorem witness_ThirdOpenInstance :
    (let s := { atColl group0 (tile0 (ent 0x18 [])) with
      ctxs := [(0, { ctx0 (tile0 (ent 0x18 [])) with insts := [(0, inst0 0 none), (1, { inst0 0 none with ordinal := 1 })] })] }
     s.dueClass 0 0 0x18 = some (ent 0x18 []) ∧ 2 ≤ (s.openInsts 0 0 0 group0).length) := by decide +kernel

end Sys2Proof.Tests
end

section
/-! SUPPORT. Taking the entry at HEAD of a ring: what it leaves alone in the contexts, and the row that a command at HEAD runs. -/

namespace Sys2Proof.Machine

/-! ## Reads of context memory -/

/-- Of every context, at most the translation cache differs between two states (R379). -/
def keepsButTlb (s t : State) : Prop := ∀ k, ∃ l, t.ctx k = { s.ctx k with tlb := l }

theorem keepsButTlb.refl (s : State) : keepsButTlb s s := fun _ => ⟨_, rfl⟩

theorem keepsButTlb.trans {s t u : State} (h : keepsButTlb s t) (g : keepsButTlb t u) : keepsButTlb s u := by
  intro k
  obtain ⟨l, hl⟩ := h k
  obtain ⟨m, hm⟩ := g k
  exact ⟨m, by rw [hm, hl]⟩

theorem keepsButTlb.forAll {α : Type} (l : List α) (f : α → State → State) (hf : ∀ a s, keepsButTlb s (f a s)) (s : State) :
    keepsButTlb s (forAll l f s) := by
  unfold Machine.forAll
  induction l generalizing s with
  | nil => exact keepsButTlb.refl s
  | cons a r ih => exact (hf a s).trans (ih _)

theorem keepsCtxs.butTlb {s t : State} (h : keepsCtxs s t) : keepsButTlb s t := fun k => ⟨_, by rw [State.ctx, h.1]; rfl⟩

theorem State.devTouch_keeps (s : State) (a n : Nat) : keepsCtxs s (s.devTouch a n) :=
  keepsCtxs.forAll _ _ (fun _ t => t.touch_keeps _ _ _ _) s

theorem State.walkTouch_keeps (s : State) (c va : Nat) : keepsCtxs s (s.walkTouch c va) := by
  unfold State.walkTouch
  split
  · next g _ _ =>
    have h1 := s.devTouch_keeps (g.ttRoot + va / 2 ^ 32 * 8) 8
    dsimp only
    split
    · exact h1
    · exact keepsCtxs.ite _ (keepsCtxs.ite _ (h1.trans (State.devTouch_keeps _ _ _))
        ((h1.trans (State.devTouch_keeps _ _ _)).trans (State.devTouch_keeps _ _ _))) h1
  · exact keepsCtxs.refl s

/-- A change of a context's translation cache alone. -/
theorem State.modCtx_butTlb (s : State) (c : Nat) (f : Ctx → Ctx) (hf : ∀ x, ∃ l, f x = { x with tlb := l }) : keepsButTlb s (s.modCtx c f) := by
  intro k
  simp only [State.modCtx, State.ctx_setCtx]
  split
  · next h => exact h ▸ hf _
  · exact ⟨_, rfl⟩

theorem State.fillTlb_butTlb (s : State) (c va : Nat) : keepsButTlb s (s.fillTlb c va) := by
  unfold State.fillTlb
  have h := (s.walkTouch_keeps c va).butTlb
  dsimp only
  split
  · exact h
  · refine h.trans (State.modCtx_butTlb _ c _ fun x => ?_)
    split
    · exact ⟨_, rfl⟩
    · exact ⟨_, rfl⟩

theorem State.vaTouch_butTlb (s : State) (c va n : Nat) : keepsButTlb s (s.vaTouch c va n) := by
  refine keepsButTlb.forAll _ _ (fun p t => ?_) s
  have h := t.fillTlb_butTlb c p.1
  dsimp only
  split
  · exact h
  · exact h.trans (State.devTouch_keeps _ _ _).butTlb

theorem State.liveTouch_butTlb (s : State) (c va n : Nat) : keepsButTlb s (s.liveTouch c va n) := by
  refine keepsButTlb.forAll _ _ (fun p t => ?_) s
  split
  · exact keepsButTlb.refl t
  · exact t.vaTouch_butTlb c _ _

/-! ## The head of a ring -/

theorem State.entryTouch_butTlb (s : State) (r : RingOf) : keepsButTlb s (s.entryTouch r) := by
  cases r with
  | ctx c => exact s.liveTouch_butTlb c _ 64
  | pf b => exact (s.devTouch_keeps _ 64).butTlb

theorem State.popRing_butTlb (s : State) (r : RingOf) : keepsButTlb s (s.popRing r) :=
  (s.entryTouch_butTlb r).trans (State.wf_keeps _ _ _ _ _).butTlb

theorem State.finish_butTlb (s : State) (r : RingOf) (e : Bits512) (status w2 : Nat) : keepsButTlb s (s.finish r e status w2) :=
  s.popRing_butTlb r

/-- A command taken from a ring leaves the launches of every context as they are. -/
theorem keepsButTlb.launches {s t : State} (h : keepsButTlb s t) (c : Nat) :
    (t.ctx c).queue = (s.ctx c).queue ∧ (t.ctx c).running = (s.ctx c).running := by
  obtain ⟨l, hl⟩ := h c
  rw [hl]
  exact ⟨rfl, rfl⟩

/-- A row that serves the entry which runs now acts on it (R382, R383, R385). -/
theorem CtxTakes.ctxCommand {s : State} {c : Nat} {e : Bits512} (h : CtxTakes s c e) {mine : Bits512 → Bool} (hm : mine e = true)
    (act : Bits512 → State) : s.ctxCommand c mine act = .next (act e) := by
  obtain ⟨hopen, hfirst, hentry, hphase, hwaits, hok, hstray⟩ := h
  have hhead : s.ctxHead c mine = .inl e := by
    simp only [State.ctxHead, hopen, hfirst, hentry, hphase, hwaits, hok, hstray, hm, reduceCtorEq, Bool.not_true, Bool.false_eq_true, or_self,
      if_false, if_true]
  unfold State.ctxCommand
  rw [hhead]

/-! ## LAUNCH_STEP -/

/-- What LAUNCH_STEP does with the entry it takes, while no checkpoint image is being written (R41, R42, R360, R408). -/
theorem CtxTakes.launchStep {s : State} {c : Nat} {e : Bits512} (h : CtxTakes s c e) (hop : cmdOp e = 2)
    (hck : s.cf c Off.CTX_CKPT_STS 1 1 = 0) :
    (w512 e 1 < s.now + 20000 → exec (.launchStep c) s = .next (s.finish (.ctx c) e 3 (w512 e 1)))
    ∧ (s.now + 20000 ≤ w512 e 1 →
      ((s.ctx c).plan = none → exec (.launchStep c) s = .next (s.finish (.ctx c) e 11 (w512 e 1)))
      ∧ ∀ p, (s.ctx c).plan = some p →
        (p.divider ≠ s.eff → exec (.launchStep c) s = .next (s.finish (.ctx c) e 4 (w512 e 1)))
        ∧ (p.divider = s.eff → exec (.launchStep c) s = .next
            ((s.modCtx c fun x => { x with queue := x.queue ++ [⟨cmdSeq e, w512 e 1, false⟩] }).popRing (.ctx c)))) := by
  have taken := h.ctxCommand (mine := fun e => cmdOp e = 2) (by simp [hop])
  rw [exec_launchStep, execLaunchStep, if_neg (by rw [hck]; simp), taken]
  dsimp only
  refine ⟨fun hlt => by rw [if_pos hlt], fun hge => ?_⟩
  rw [if_neg (by omega)]
  refine ⟨fun hp => by rw [hp], fun p hp => ?_⟩
  simp only [hp]
  exact ⟨fun hd => by rw [if_pos hd], fun hd => by rw [if_neg (by simp [hd])]⟩

/-- Settles O40: a launch that is refused leaves the queue of its context alone, and one that is taken stands at its end. -/
theorem launchStepQueuesTheLaunch : Obligations.LaunchStepQueuesTheLaunch := by
  unfold Obligations.LaunchStepQueuesTheLaunch
  intro s c e h hop hck t0
  obtain ⟨passed, ahead⟩ := h.launchStep hop hck
  have kept := fun status => (s.finish_butTlb (.ctx c) e status t0).launches c
  refine ⟨fun hlt => ⟨_, passed hlt, rfl, kept 3⟩, fun hge => ?_⟩
  obtain ⟨noPlan, planned⟩ := ahead hge
  refine ⟨fun hp => ⟨_, noPlan hp, rfl⟩, fun p hp => ?_⟩
  obtain ⟨mismatch, queued⟩ := planned p hp
  refine ⟨fun hd => ⟨_, mismatch hd, rfl, kept 4⟩, fun hd => ⟨_, queued hd, s.modCtx c _, ⟨rfl, fun k hk => ?_⟩, ?_, rfl, ?_⟩⟩
  · simp [State.ctx_setCtx, hk]
  · simp [t0]
  · exact ((State.popRing_butTlb _ (.ctx c)).launches c).1

end Sys2Proof.Machine
end

section
/-! SUPPORT. The hold watchdog (R63 to R65) and its limit after reset. -/

namespace Sys2Proof.Machine

/-! ## Registers of a context window after reset -/

/-- After reset a register reads its reset value (R9). -/
theorem State.reset_reg (a : Nat) : State.reset.reg a = regReset (homeAddr a) := rfl

/-- Outside the Eave pages the reset value of a register is that of its definition. -/
theorem regReset_of_regAt {a : Nat} {r : RegDef} (hpage : pageOf a ≠ some .eav) (hr : regAt a = some r) : regReset a = r.resetWord := by
  simp [regReset, hr, hpage]

/-- CTX_HOLD_LIMIT is 400,000 after reset (R65). -/
theorem State.reset_holdLimit {c : Nat} (hc : c < 1024) : State.reset.cf c Off.CTX_HOLD_LIMIT 31 0 = 400000 := by
  obtain ⟨r, hr, hw⟩ : ∃ r, findReg (pageRegs .ctx) Off.CTX_HOLD_LIMIT = some r ∧ fld r.resetWord 31 0 = 400000 := by
    refine ⟨_, rfl, ?_⟩
    decide +kernel
  have hpage : pageOf (ctxA c Off.CTX_HOLD_LIMIT) ≠ some .eav := by
    rw [pageOf_ctxA hc (by decide)]
    decide
  have hreg : regAt (ctxA c Off.CTX_HOLD_LIMIT) = some r := by rw [regAt_ctxA hc (by decide), hr]
  rw [State.cf_eq, State.rf_eq, State.reset_reg, homeAddr_ctxA, regReset_of_regAt hpage hreg, hw]

/-! ## Detection of a fault -/

theorem State.mem_detect (s : State) (f : PendFault) : f ∈ (s.detect f).cycle.faults := by
  unfold State.detect
  split
  · assumption
  · simp

/-- A fault that is detected stands among the faults of the cycle, and nothing else changes (R62). -/
theorem State.detected_detect (s : State) (f : PendFault) : Detected f s (s.detect f) := by
  refine ⟨s.mem_detect f, ?_⟩
  unfold State.detect
  split <;> rfl

/-! ## The watchdog -/

/-- The last cycle in which a hold may release, by the limit that counts: CTX_HOLD_LIMIT, or 2,000 where it is less (R65). -/
theorem State.holdEnd_eq (s : State) (c : Nat) (x : Tile) (e : EntryBits) :
    s.holdEnd c x e = x.dueAt e + (if s.cf c Off.CTX_HOLD_LIMIT 31 0 < 2000 then 2000 else s.cf c Off.CTX_HOLD_LIMIT 31 0)
      + s.haltedSince (x.dueAt e) := by
  unfold State.holdEnd
  split <;> congr 2 <;> omega

/-- DEADLOCK_SUSPECT at a hold of a running sequencer: the schedule fault past the hold's end, nothing before (R63). -/
theorem exec_deadlockSuspect_hold {s : State} {c t : Nat} {e : EntryBits} (he : s.planEntry c t = some e) (hr : s.seqRuns c t = true)
    (hh : eIsHold e = true) :
    exec (.deadlockSuspect c t) s =
      .next (if s.holdEnd c (s.tile c t) e < s.now then s.schedFault c t (s.tile c t).pos 1 1 else s) := by
  simp only [exec_deadlockSuspect, execDeadlockSuspect, he, hr, hh, Bool.true_and, decide_eq_true_eq]
  split <;> rfl

/-- Settles O34: the hold faults exactly past its end, which counts 2,000 cycles at least. -/
theorem holdWatchdogFaults : Obligations.HoldWatchdogFaults := by
  unfold Obligations.HoldWatchdogFaults
  refine ⟨?_, fun c => State.reset_holdLimit⟩
  intro s c t e he hr hh _ limit start
  have hrun := exec_deadlockSuspect_hold he hr hh
  rw [s.holdEnd_eq] at hrun
  refine ⟨fun hlate => ?_, fun hearly => ?_⟩
  · rw [if_pos hlate] at hrun
    exact ⟨_, hrun, s.detected_detect _⟩
  · rw [if_neg (Nat.not_lt.2 hearly)] at hrun
    exact ⟨_, hrun, rfl⟩

end Sys2Proof.Machine
end

section
/-! SUPPORT. What operations on a context leave of the record of its faults: CTX_FAULT and the faults that await the end of the cycle. -/

namespace Sys2Proof.Machine

/-! ## The record of a context's faults -/

/-- CTX_FAULT of context `c`, and the faults detected in the present cycle, stand as they did. -/
def keepsFaults (c : Nat) (s t : State) : Prop :=
  t.reg (ctxA c Off.CTX_FAULT) = s.reg (ctxA c Off.CTX_FAULT) ∧ t.cycle.faults = s.cycle.faults

variable {c : Nat}

theorem keepsFaults.refl (s : State) : keepsFaults c s s := ⟨rfl, rfl⟩

theorem keepsFaults.trans {s t u : State} (h : keepsFaults c s t) (g : keepsFaults c t u) : keepsFaults c s u :=
  ⟨g.1.trans h.1, g.2.trans h.2⟩

/-- A change of neither the registers nor the faults of the cycle. -/
theorem keepsFaults.of_eq {s t : State} (hr : t.regs = s.regs) (hf : t.cycle.faults = s.cycle.faults) : keepsFaults c s t :=
  ⟨by rw [State.reg, State.reg, hr], hf⟩

theorem keepsFaults.forAll {α : Type} (l : List α) (f : α → State → State) (hf : ∀ a s, keepsFaults c s (f a s)) (s : State) :
    keepsFaults c s (forAll l f s) := by
  unfold Machine.forAll
  induction l generalizing s with
  | nil => exact keepsFaults.refl s
  | cons a r ih => exact (hf a s).trans (ih _)

theorem keepsFaults.ite (p : Prop) [Decidable p] {s a b : State} (ha : keepsFaults c s a) (hb : keepsFaults c s b) :
    keepsFaults c s (if p then a else b) := by split <;> assumption

/-! ## Registers other than CTX_FAULT -/

/-- The address of a register other than CTX_FAULT of context `c`. -/
def notFault (c a : Nat) : Prop := ctxA c Off.CTX_FAULT ≠ homeAddr a

/-- Another register of a context window. -/
theorem notFault_ctxA {off : Nat} (d : Nat) (ho : off < 65536) (h : off ≠ Off.CTX_FAULT) : notFault c (ctxA d off) := by
  unfold notFault
  rw [homeAddr_ctxA, Ne, ctxA_inj (by decide) ho]
  exact fun g => h g.2.symm

/-- A register of BAR0. -/
theorem notFault_low {a : Nat} (ha : a < 2 ^ 24) : notFault c a := by
  have hle : homeAddr a ≤ a := by
    unfold homeAddr
    split
    · exact Nat.mod_le _ _
    · exact le_refl _
  have := ctxA_ge c Off.CTX_FAULT
  unfold notFault
  omega

theorem State.setReg_keepsFaults (s : State) {a : Nat} (w : Word) (h : notFault c a) : keepsFaults c s (s.setReg a w) :=
  ⟨State.reg_setReg_ne s w (by rwa [homeAddr_ctxA]), rfl⟩

theorem State.wf_keepsFaults (s : State) {a : Nat} (hi lo v : Nat) (h : notFault c a) : keepsFaults c s (s.wf a hi lo v) :=
  s.setReg_keepsFaults _ h

theorem State.sat_keepsFaults (s : State) {a : Nat} (hi lo n : Nat) (h : notFault c a) : keepsFaults c s (s.sat a hi lo n) :=
  (s.wf_keepsFaults hi lo _ h).trans ⟨rfl, rfl⟩

theorem State.wrap_keepsFaults (s : State) {a : Nat} (hi lo n : Nat) (h : notFault c a) : keepsFaults c s (s.wrap a hi lo n) :=
  (s.wf_keepsFaults hi lo _ h).trans ⟨rfl, rfl⟩

theorem State.maxF_keepsFaults (s : State) {a : Nat} (hi lo v : Nat) (h : notFault c a) : keepsFaults c s (s.maxF a hi lo v) :=
  (s.wf_keepsFaults hi lo _ h).trans ⟨rfl, rfl⟩

theorem State.setCtx_keepsFaults (s : State) (d : Nat) (x : Ctx) : keepsFaults c s (s.setCtx d x) := .of_eq rfl rfl

theorem State.modCtx_keepsFaults (s : State) (d : Nat) (f : Ctx → Ctx) : keepsFaults c s (s.modCtx d f) := s.setCtx_keepsFaults d _

theorem State.modLink_keepsFaults (s : State) (k : Nat) (f : Link → Link) : keepsFaults c s (s.modLink k f) := .of_eq rfl rfl

theorem State.sendMsix_keepsFaults (s : State) (m : Msix) : keepsFaults c s (s.sendMsix m) := .of_eq rfl rfl

theorem State.complete_keepsFaults (s : State) (r : RingOf) (x : Completion) : keepsFaults c s (s.complete r x) := .of_eq rfl rfl

theorem State.raiseCtx_keepsFaults (s : State) (d b : Nat) : keepsFaults c s (s.raiseCtx d b) := by
  have hraw : notFault c (ctxA d Off.CTX_IRQ_RAW) := notFault_ctxA d (by decide) (by decide)
  have hen : notFault c (ctxA d Off.CTX_IRQ_EN) := notFault_ctxA d (by decide) (by decide)
  have hirq : ∀ raw en, keepsFaults c s (s.setCtxIrq d raw en) := by
    intro raw en
    unfold State.setCtxIrq
    refine ((s.setReg_keepsFaults raw hraw).trans (State.setReg_keepsFaults _ en hen)).trans (keepsFaults.forAll _ _ (fun b t => ?_) _)
    exact keepsFaults.ite _ (t.sendMsix_keepsFaults _) (keepsFaults.refl t)
  exact (hirq _ _).trans (.of_eq rfl rfl)

/-! ## Promise and late transfers (R59, R60) -/

theorem State.refreshPromise_keepsFaults (s : State) (d : Nat) : keepsFaults c s (s.refreshPromise d) := by
  have hp : notFault c (ctxA d Off.CTX_PROMISE) := notFault_ctxA d (by decide) (by decide)
  unfold State.refreshPromise
  extract_lets a old new s1
  have h1 : keepsFaults c s s1 := s.wf_keepsFaults 1 0 _ hp
  refine keepsFaults.ite _ (keepsFaults.refl s) (keepsFaults.ite _ ?_ (keepsFaults.ite _ ?_ h1))
  · exact (h1.trans (s1.sat_keepsFaults 15 8 1 hp)).trans (.of_eq rfl rfl)
  · exact h1.trans (s1.sat_keepsFaults 31 16 1 hp)

theorem State.countMiss_keepsFaults (s : State) (d n : Nat) : keepsFaults c s (s.countMiss d n) := by
  have hm : notFault c (ctxA d Off.CTX_CONTRACT_MISS) := notFault_ctxA d (by decide) (by decide)
  exact keepsFaults.ite _ (((s.sat_keepsFaults 31 0 1 hm).trans (State.maxF_keepsFaults _ 63 32 _ hm)).trans
    (State.raiseCtx_keepsFaults _ d 2)) (keepsFaults.refl s)

theorem State.countLate_keepsFaults (s : State) (d : Nat) (x : Xfer) : keepsFaults c s (s.countLate d x) := by
  have hs : keepsFaults c s (s.cSat d Off.CTX_SUSP_LATE 31 0 1) :=
    s.sat_keepsFaults 31 0 1 (notFault_ctxA d (by decide) (by decide))
  unfold State.countLate
  split
  · exact s.countMiss_keepsFaults d _
  · split <;> exact keepsFaults.ite _ hs (keepsFaults.refl s)

/-! ## Stopping a context (R401) -/

theorem State.chargeAll_keepsFaults (s : State) (d n : Nat) : keepsFaults c s (s.chargeAll d n) := by
  refine (keepsFaults.forAll _ _ (fun e t => ?_) s).trans (.of_eq rfl rfl)
  unfold State.chargeTile
  split
  · exact keepsFaults.refl t
  · refine keepsFaults.ite _ ?_ (keepsFaults.refl t)
    exact (t.wrap_keepsFaults 63 0 _ (notFault_ctxA d (by decide) (by decide))).trans (.of_eq rfl rfl)

theorem eaveDie_lt (e : Nat) : eaveDie e < 64 := by
  unfold eaveDie
  split <;> decide

theorem State.sendCtl_keepsFaults (s : State) (node typ obj d : Nat) (ep : BitVec 16) (m : CtlMsg) :
    keepsFaults c s (s.sendCtl node typ obj d ep m) := by
  refine keepsFaults.ite _ (.of_eq rfl rfl) ?_
  unfold State.postCtl
  split
  · exact .of_eq rfl rfl
  · split
    · exact s.sat_keepsFaults 15 0 1 (notFault_low (bar0_lt (eaveDie_lt _) (by decide) (by decide)))
    · exact .of_eq rfl rfl

theorem State.holdVote_keepsFaults (s : State) (g : Nat) (q : BitVec 32) (v : Nat) (x : VoteRec) : keepsFaults c s (s.holdVote g q v x) := by
  unfold State.holdVote
  split
  · exact keepsFaults.refl s
  · exact keepsFaults.ite _ (keepsFaults.refl s) (.of_eq rfl rfl)

theorem State.clearVotes_keepsFaults (s : State) (g : Nat) (q : BitVec 32) (v : Nat) : keepsFaults c s (s.clearVotes g q v) := by
  unfold State.clearVotes
  split
  · exact keepsFaults.refl s
  · exact .of_eq rfl rfl

theorem State.deadDecide_keepsFaults (s : State) (d v : Nat) (r : Running) (x : Slot) : keepsFaults c s (s.deadDecide d v r x) := by
  unfold State.deadDecide
  split
  · split
    · exact keepsFaults.refl s
    · refine (keepsFaults.trans ?_ (State.clearVotes_keepsFaults _ _ _ _)).trans
        (keepsFaults.forAll _ _ (fun _ t => t.sendCtl_keepsFaults _ _ _ _ _ _) _)
      exact .of_eq rfl rfl
  · exact keepsFaults.refl s

theorem State.faultVote_keepsFaults (s : State) (d v : Nat) (r : Running) (x : Slot) : keepsFaults c s (s.faultVote d v r x) := by
  unfold State.faultVote
  split
  · refine keepsFaults.ite _ (keepsFaults.refl s) (keepsFaults.ite _ ?_ (s.sendCtl_keepsFaults _ _ _ _ _ _))
    exact (s.holdVote_keepsFaults _ _ _ _).trans (State.deadDecide_keepsFaults _ d v r x)
  · exact keepsFaults.refl s

theorem State.sendLinkctl_keepsFaults (s : State) (k : Nat) (nak : Option Nat) : keepsFaults c s (s.sendLinkctl k nak) := by
  unfold State.sendLinkctl
  extract_lets node flows h f s1
  have h1 : keepsFaults c s s1 := (s.modLink_keepsFaults k _).trans (State.modLink_keepsFaults _ k _)
  cases nak with
  | none => exact h1
  | some n => exact h1.trans (s1.modLink_keepsFaults k _)

theorem State.flowUpdate_keepsFaults (s : State) (d l : Nat) : keepsFaults c s (s.flowUpdate d l) := by
  unfold State.flowUpdate
  split
  · exact keepsFaults.refl s
  · extract_lets q new s1
    have h1 : keepsFaults c s s1 := s.modCtx_keepsFaults d _
    refine keepsFaults.ite _ (keepsFaults.refl s) ?_
    split
    · exact h1
    · exact h1.trans (s1.sendLinkctl_keepsFaults _ none)

theorem State.flushQueue_keepsFaults (s : State) (d l : Nat) : keepsFaults c s (s.flushQueue d l) := by
  have hq : notFault c (ctxA d Off.CTX_QFLUSH_STS) := notFault_ctxA d (by decide) (by decide)
  unfold State.flushQueue
  extract_lets q a gone s1 s2
  have h1 : keepsFaults c s s1 :=
    (s.modCtx_keepsFaults d _).trans (keepsFaults.forAll gone (fun id t => t.dropXfer d id) (fun _ t => t.modCtx_keepsFaults d _) _)
  have h2 : keepsFaults c s1 s2 :=
    ((s1.wf_keepsFaults 31 0 _ hq).trans (State.wf_keepsFaults _ 41 32 _ hq)).trans (State.wf_keepsFaults _ 42 42 _ hq)
  exact (h1.trans h2).trans (s2.flowUpdate_keepsFaults d l)

/-- A context that is stopped keeps the record of its faults. -/
theorem State.stopCtx_keepsFaults (s : State) (d : Nat) : keepsFaults c s (s.stopCtx d) := by
  have votes : keepsFaults c (s.chargeAll d (s.now + 1)) ((s.chargeAll d (s.now + 1)).faultVotes d) :=
    keepsFaults.forAll _ _ (fun r t => keepsFaults.forAll _ _ (fun e u => u.faultVote_keepsFaults d _ _ _) t) _
  have flushed : ∀ u : State, keepsFaults c u (u.flushQueues d) := fun u =>
    keepsFaults.forAll _ _ (fun e t => t.flushQueue_keepsFaults d _) u
  have dropped : ∀ u : State, keepsFaults c u ((u.modCtx d (Ctx.stopped (s.orphans d))).dropPackets d) := fun u => (.of_eq rfl rfl)
  exact ((((s.chargeAll_keepsFaults d _).trans votes).trans (dropped _)).trans (flushed _)).trans (State.refreshPromise_keepsFaults _ d)

/-! ## A fault that takes effect -/

/-- The site of a schedule fault recorded (R62). -/
def State.noteSite (s : State) (f : PendFault) : State := f.site.elim s (s.wdSite f.ctx)

/-- CTX_FAULT takes the first fault of its context. -/
def State.noteFault (s : State) (f : PendFault) : State :=
  if s.cf f.ctx Off.CTX_FAULT 7 0 = 0 then
    ((s.wf (ctxA f.ctx Off.CTX_FAULT) 7 0 f.code).wf (ctxA f.ctx Off.CTX_FAULT) 39 8
      (((s.ctx f.ctx).running.map fun r => r.seq.toNat).getD 0)).setReg (ctxA f.ctx Off.CTX_FAULT_TIME) s.tb
  else s

/-- What follows the record of a fault: its interrupts, the context stopped, its launches `l` completed. -/
def State.afterFault (s : State) (d : Nat) (l : List (BitVec 32)) : State :=
  let t := ((s.raiseCtx d 1).sendMsix ⟨s.roleB, none, 7⟩).stopCtx d
  (t.faultLaunches d (t.rf (ctxA d Off.CTX_FAULT) 7 0) l).modCtx d fun x => { x with phase := .faulted }

/-- A fault takes effect in three parts: its site, CTX_FAULT, and what follows. -/
theorem State.takeFault_eq (s : State) (f : PendFault) :
    s.takeFault f = ((s.noteSite f).noteFault f).afterFault f.ctx ((s.noteSite f).ctx f.ctx).launchSeqs := by
  obtain ⟨d, code, site⟩ := f
  cases site <;> rfl

theorem State.noteSite_keepsFaults (s : State) (f : PendFault) : keepsFaults c s (s.noteSite f) := by
  have hw : notFault c (ctxA f.ctx Off.CTX_WD_SITE) := notFault_ctxA _ (by decide) (by decide)
  unfold State.noteSite
  cases f.site with
  | none => exact keepsFaults.refl s
  | some w =>
    exact keepsFaults.ite _ (((s.wf_keepsFaults 16 0 _ hw).trans (State.wf_keepsFaults _ 42 32 _ hw)).trans
      (State.wf_keepsFaults _ 51 48 _ hw)) (keepsFaults.refl s)

theorem State.afterFault_keepsFaults (s : State) (d : Nat) (l : List (BitVec 32)) : keepsFaults c s (s.afterFault d l) := by
  have stopped : keepsFaults c s (((s.raiseCtx d 1).sendMsix ⟨s.roleB, none, 7⟩).stopCtx d) :=
    ((s.raiseCtx_keepsFaults d 1).trans (State.sendMsix_keepsFaults _ _)).trans (State.stopCtx_keepsFaults _ d)
  have launches : ∀ (u : State) (code : Nat), keepsFaults c u (u.faultLaunches d code l) := by
    intro u code
    unfold State.faultLaunches
    exact keepsFaults.forAll _ _ (fun _ t => t.complete_keepsFaults _ _) u
  exact (stopped.trans (launches _ _)).trans (State.modCtx_keepsFaults _ d _)

/-- The code that CTX_FAULT holds once a fault is recorded: the first one's (R401). -/
theorem State.noteFault_code (s : State) (f : PendFault) (hf : f.code < 256) :
    (s.noteFault f).cf f.ctx Off.CTX_FAULT 7 0 = if s.cf f.ctx Off.CTX_FAULT 7 0 = 0 then f.code else s.cf f.ctx Off.CTX_FAULT 7 0 := by
  unfold State.noteFault
  split
  · rw [State.cf_eq, State.rf_eq, ((State.setReg_keepsFaults _ _ (notFault_ctxA f.ctx (by decide) (by decide)) : keepsFaults f.ctx _ _)).1]
    simp only [State.wf_eq, State.reg_setReg_self]
    rw [fld_ins_below _ 39 8 _ 7 0 (by decide) (by decide) (by decide) (by decide), fld_ins_self _ 7 0 _ (by decide) (by decide)]
    omega
  · rfl

/-- A fault that takes effect leaves its context faulted, with the code of its first fault in CTX_FAULT (R401). -/
theorem State.takeFault_record (s : State) (f : PendFault) (hf : f.code < 256) :
    ((s.takeFault f).ctx f.ctx).phase = .faulted
      ∧ (s.takeFault f).cf f.ctx Off.CTX_FAULT 7 0
        = if s.cf f.ctx Off.CTX_FAULT 7 0 = 0 then f.code else s.cf f.ctx Off.CTX_FAULT 7 0 := by
  have hsite := (s.noteSite_keepsFaults f : keepsFaults f.ctx _ _).1
  have hafter := (((s.noteSite f).noteFault f).afterFault_keepsFaults f.ctx ((s.noteSite f).ctx f.ctx).launchSeqs : keepsFaults f.ctx _ _).1
  have hcode := (s.noteSite f).noteFault_code f hf
  rw [State.takeFault_eq]
  refine ⟨by simp [State.afterFault], ?_⟩
  simp only [State.cf_eq, State.rf_eq, hsite] at hcode ⊢
  rw [hafter]
  exact hcode

/-! ## Token counters (R47) -/

/-- The fault of a token counter of tile `t` that would pass 65,535, at the tile's next entry (R47, R62). -/
def State.overflowFault (s : State) (c t : Nat) : PendFault := ⟨c, 4, some (4, t, (s.tile c t).index (s.tile c t).pos)⟩

/-- `n` tokens have been added to counter `k` of tile `t` between two states: the counter saturates, a token past its end is a fault detected in
this cycle, and CTX_FAULT stands as it did. -/
structure TokensAdded (s : State) (c t k n : Nat) (u : State) : Prop where
  tokens : u.tokens c t k = min (s.tokens c t k + n) 65535
  faults : u.cycle.faults = if 65535 < s.tokens c t k + n then (s.detect (s.overflowFault c t)).cycle.faults else s.cycle.faults
  faultReg : u.reg (ctxA c Off.CTX_FAULT) = s.reg (ctxA c Off.CTX_FAULT)

theorem State.detect_faults_congr {r s : State} (h : r.cycle.faults = s.cycle.faults) (f : PendFault) :
    (r.detect f).cycle.faults = (s.detect f).cycle.faults := by
  unfold State.detect
  rw [h]
  split <;> simp [h]

theorem State.addTokens_added (s : State) (c t k n : Nat) : TokensAdded s c t k n (s.addTokens c t k n) := by
  unfold State.addTokens
  extract_lets x v f s1
  have ht : s1.tile c t = { x with
      tokens := Table.put 0 x.tokens k (BitVec.ofNat 16 (min v 65535))
      fresh := Table.put (0, 0) x.fresh k (s.now, (if f.1 = s.now then f.2 else 0) + n) } := State.tile_modTile_self _ _ _ _
  have htok : s1.tokens c t k = min v 65535 := by
    rw [State.tokens, ht, Table.getD_put_self, BitVec.toNat_ofNat]
    omega
  have hfault : s1.schedFault c t x.pos 4 4 = s1.detect (s.overflowFault c t) := by
    rw [State.schedFault, ht]
    rfl
  have hv : s.tokens c t k + n = v := rfl
  rw [← hv] at htok
  rw [hfault, ← hv]
  obtain ⟨_, hdet⟩ := s1.detected_detect (s.overflowFault c t)
  by_cases h : 65535 < s.tokens c t k + n
  · rw [if_pos h]
    refine ⟨?_, ?_, ?_⟩
    · rw [hdet]
      exact htok
    · rw [if_pos h]
      exact State.detect_faults_congr (s.modCtx_keepsFaults (c := c) c _).2 _
    · rw [hdet]
      rfl
  · rw [if_neg h]
    exact ⟨htok, (if_neg h).symm, rfl⟩

/-- Tokens added after a step that keeps the tile and the record of faults. -/
theorem TokensAdded.of_before {s r u : State} {t k n : Nat} (ha : TokensAdded r c t k n u) (h : keepsFaults c s r)
    (ht : r.tile c t = s.tile c t) : TokensAdded s c t k n u := by
  have htok : r.tokens c t k = s.tokens c t k := by rw [State.tokens, State.tokens, ht]
  have hdet := State.detect_faults_congr h.2 (s.overflowFault c t)
  have hof : r.overflowFault c t = s.overflowFault c t := by rw [State.overflowFault, State.overflowFault, ht]
  obtain ⟨h1, h2, h3⟩ := ha
  rw [htok] at h1
  rw [htok, hof, hdet, h.2] at h2
  exact ⟨h1, h2, h3.trans h.1⟩

/-- Tokens added before a step that keeps the tile and the record of faults. -/
theorem TokensAdded.of_after {s u w : State} {t k n : Nat} (ha : TokensAdded s c t k n u) (h : keepsFaults c u w)
    (ht : w.tile c t = u.tile c t) : TokensAdded s c t k n w :=
  ⟨by rw [← ha.tokens, State.tokens, State.tokens, ht], h.2.trans ha.faults, h.1.trans ha.faultReg⟩

/-- A single fault of the cycle takes effect. -/
theorem State.takeFaults_single {u : State} {f : PendFault} (hu : u.cycle.faults = [f]) (hf : f.code < 256) :
    (u.takeFaults.ctx f.ctx).phase = .faulted
      ∧ u.takeFaults.cf f.ctx Off.CTX_FAULT 7 0 = if u.cf f.ctx Off.CTX_FAULT 7 0 = 0 then f.code else u.cf f.ctx Off.CTX_FAULT 7 0 := by
  unfold State.takeFaults forAll
  rw [hu]
  exact State.takeFault_record _ f hf

/-- Tokens past the end of their counter are a fault of the cycle, which as its only one leaves the context faulted (R47, R401). -/
theorem TokensAdded.overflow {s u : State} {t k n : Nat} (ha : TokensAdded s c t k n u) (hover : 65535 < s.tokens c t k + n) :
    s.overflowFault c t ∈ u.cycle.faults
      ∧ (s.cycle.faults = [] → (u.takeFaults.ctx c).phase = .faulted
        ∧ u.takeFaults.cf c Off.CTX_FAULT 7 0 = if s.cf c Off.CTX_FAULT 7 0 = 0 then 4 else s.cf c Off.CTX_FAULT 7 0) := by
  have hfaults : u.cycle.faults = (s.detect (s.overflowFault c t)).cycle.faults := by rw [ha.faults, if_pos hover]
  refine ⟨hfaults ▸ s.mem_detect _, fun hnone => ?_⟩
  have hsingle : u.cycle.faults = [s.overflowFault c t] := by rw [hfaults]; simp [State.detect, hnone]
  have hcf : s.cf c Off.CTX_FAULT 7 0 = u.cf c Off.CTX_FAULT 7 0 := by rw [State.cf, State.cf, State.rf, State.rf, ha.faultReg]
  rw [hcf]
  exact State.takeFaults_single hsingle (by decide : 4 < 256)

/-- Tokens that fit their counter are no fault. -/
theorem TokensAdded.fits {s u : State} {t k n : Nat} (ha : TokensAdded s c t k n u) (hfit : s.tokens c t k + n ≤ 65535) :
    u.cycle.faults = s.cycle.faults := by
  rw [ha.faults, if_neg (Nat.not_lt.2 hfit)]

/-! ## The tile of a transfer that arrives (R57, R59) -/

theorem State.setReg_keeps (s : State) (a : Nat) (w : Word) : keepsCtxs s (s.setReg a w) := ⟨rfl, rfl⟩

theorem State.raiseCtx_keeps (s : State) (d b : Nat) : keepsCtxs s (s.raiseCtx d b) := by
  have hirq : ∀ raw en, keepsCtxs s (s.setCtxIrq d raw en) := by
    intro raw en
    unfold State.setCtxIrq
    refine ((s.setReg_keeps _ raw).trans (State.setReg_keeps _ _ en)).trans (keepsCtxs.forAll _ _ (fun b t => ?_) _)
    exact keepsCtxs.ite _ ⟨rfl, rfl⟩ (keepsCtxs.refl t)
  exact (hirq _ _).trans ⟨rfl, rfl⟩

theorem State.noteCount_keeps (s : State) (a lo n : Nat) : keepsCtxs s (s.noteCount a lo n) := ⟨rfl, rfl⟩

theorem State.maxF_keeps (s : State) (a hi lo v : Nat) : keepsCtxs s (s.maxF a hi lo v) :=
  (s.wf_keeps a hi lo _).trans (State.noteCount_keeps _ a lo _)

theorem State.countMiss_keeps (s : State) (d n : Nat) : keepsCtxs s (s.countMiss d n) :=
  keepsCtxs.ite _ (((s.counts_keep _ 31 0 1).1.trans (State.maxF_keeps _ _ 63 32 _)).trans (State.raiseCtx_keeps _ d 2)) (keepsCtxs.refl s)

theorem State.countLate_keeps (s : State) (d : Nat) (x : Xfer) : keepsCtxs s (s.countLate d x) := by
  unfold State.countLate
  split
  · exact s.countMiss_keeps d _
  · split <;> exact keepsCtxs.ite _ (s.counts_keep _ 31 0 1).1 (keepsCtxs.refl s)

theorem keepsCtxs.tile {s u : State} (h : keepsCtxs s u) (d t : Nat) : u.tile d t = s.tile d t := by
  rw [State.tile, State.tile, State.ctx, State.ctx, h.1]

/-- A change of a context that spares its tiles. -/
theorem State.tile_modCtx (s : State) (c : Nat) {f : Ctx → Ctx} (hf : ∀ x, (f x).tiles = x.tiles) (d t : Nat) :
    (s.modCtx c f).tile d t = s.tile d t := by
  rw [State.tile, State.tile, State.modCtx, State.ctx_setCtx]
  split
  · next h => rw [hf, h]
  · rfl

theorem State.tile_dropXfer (s : State) (c id d t : Nat) : (s.dropXfer c id).tile d t = s.tile d t :=
  s.tile_modCtx c (f := fun k => { k with xfers := Table.erase k.xfers id }) (fun _ => rfl) d t

/-- Deadlines put in order leave the tiles alone (R173). -/
theorem Ctx.linkOrder_tiles (x : Ctx) : x.linkOrder.tiles = x.tiles := by
  unfold Ctx.linkOrder
  refine List.foldlRecOn x.queues _ (motive := fun y : Ctx => y.tiles = x.tiles) rfl fun y hy e _ => ?_
  split <;> exact hy

theorem State.tile_refreshPromise (s : State) (c d t : Nat) : (s.refreshPromise c).tile d t = s.tile d t := by
  unfold State.refreshPromise
  extract_lets a old new s1
  have h1 : keepsCtxs s s1 := s.wf_keeps a 1 0 new
  split
  · rfl
  · split
    · refine (State.tile_modCtx _ c ?_ d t).trans ((h1.trans (s1.counts_keep a 15 8 1).1).tile d t)
      exact fun x => Ctx.linkOrder_tiles _
    · exact (keepsCtxs.ite _ (h1.trans (s1.counts_keep a 31 16 1).1) h1).tile d t

/-- The arrival of a SIGNAL that a running context sent: its tokens are added (R47, R57). -/
theorem exec_transferArrival_signal {s : State} {c id t k n : Nat} {x : Xfer} (hx : s.xfer c id = some x) (hk : x.kind = .signal t k n)
    (ha : s.canArrive c id x = true) (ho : x.orphan = false) :
    exec (.transferArrival c id) s = .next ((((s.countLate c x).dropXfer c id).addTokens c t k n).refreshPromise c) := by
  simp only [exec_transferArrival, execTransferArrival, hx, ha, ho, State.deliver, State.dropPush, XKind.pushLink, State.giveTokens, hk]
  rfl

/-- A SIGNAL that arrives adds its tokens; what else its arrival does spares the tile and the record of faults (R47, R59). -/
theorem State.signalArrival_added (s : State) (c id t k n : Nat) (x : Xfer) :
    TokensAdded s c t k n ((((s.countLate c x).dropXfer c id).addTokens c t k n).refreshPromise c) := by
  have before : keepsFaults c s ((s.countLate c x).dropXfer c id) := (s.countLate_keepsFaults c x).trans (State.modCtx_keepsFaults _ c _)
  have tile : ((s.countLate c x).dropXfer c id).tile c t = s.tile c t := (State.tile_dropXfer _ c id c t).trans ((s.countLate_keeps c x).tile c t)
  exact ((State.addTokens_added _ c t k n).of_before before tile).of_after (State.refreshPromise_keepsFaults _ c)
    (State.tile_refreshPromise _ c c t)

/-- Settles O58: tokens saturate with a fault past 65,535, when they are added and when a SIGNAL arrives. -/
theorem tokenCountersSaturate : Obligations.TokenCountersSaturate := by
  unfold Obligations.TokenCountersSaturate
  intro rule
  have hrule : ∀ {s : State} {c t k n : Nat} {u : State}, TokensAdded s c t k n u → rule s c t k n u :=
    fun ha => ⟨ha.tokens, ha.overflow, ha.fits⟩
  refine ⟨fun s c t k n => hrule (s.addTokens_added c t k n), fun s c id t k n x hx hk ha ho => ?_⟩
  exact ⟨_, exec_transferArrival_signal hx hk ha ho, hrule (s.signalArrival_added c id t k n x)⟩

end Sys2Proof.Machine
end

section
/-! SUPPORT. Registers told apart by their offset within 4 KiB, and what a register reads after the package resets. -/

namespace Sys2Proof.Machine

/-! ## Registers at other offsets -/

/-- A home address keeps the offset within 4 KiB (R435). -/
theorem homeAddr_mod (a : Nat) : homeAddr a % 2 ^ 12 = a % 2 ^ 12 := by
  unfold homeAddr
  split
  · exact Nat.mod_mod _ _
  · rfl

theorem homeAddr_ne_of_mod {a b : Nat} (h : a % 2 ^ 12 ≠ b % 2 ^ 12) : homeAddr a ≠ homeAddr b := by
  intro e
  rw [← homeAddr_mod a, ← homeAddr_mod b, e] at h
  exact h rfl

theorem bar0_mod (d b : Nat) {off : Nat} (ho : off < 2 ^ 12) : bar0 d b off % 2 ^ 12 = off := by unfold bar0; omega

theorem ctxA_mod (c : Nat) {off : Nat} (ho : off < 2 ^ 12) : ctxA c off % 2 ^ 12 = off := by unfold ctxA; omega

theorem State.reg_wf_of_mod (s : State) {a b : Nat} (hi lo v : Nat) (h : a % 2 ^ 12 ≠ b % 2 ^ 12) : (s.wf b hi lo v).reg a = s.reg a :=
  s.reg_setReg_ne _ (homeAddr_ne_of_mod h)

theorem State.reg_sat_of_mod (s : State) {a b : Nat} (hi lo n : Nat) (h : a % 2 ^ 12 ≠ b % 2 ^ 12) : (s.sat b hi lo n).reg a = s.reg a :=
  s.reg_wf_of_mod hi lo _ h

/-- Steps of which none changes a register do not change it together. -/
theorem State.reg_forAll {α : Type} {a : Nat} (l : List α) (f : α → State → State) (hf : ∀ x t, (f x t).reg a = t.reg a) (s : State) :
    (forAll l f s).reg a = s.reg a := by
  unfold forAll
  induction l generalizing s with
  | nil => rfl
  | cons x r ih => exact (ih _).trans (hf x s)

/-- Of the registers, the promise of a context touches CTX_PROMISE alone (R60). -/
theorem State.reg_refreshPromise (s : State) (c : Nat) {a : Nat} (h : a % 2 ^ 12 ≠ Off.CTX_PROMISE) : (s.refreshPromise c).reg a = s.reg a := by
  have hp : a % 2 ^ 12 ≠ ctxA c Off.CTX_PROMISE % 2 ^ 12 := by rwa [ctxA_mod c (by decide)]
  unfold State.refreshPromise
  extract_lets p old new s1
  have h1 : s1.reg a = s.reg a := s.reg_wf_of_mod 1 0 new hp
  split
  · rfl
  · split
    · rw [State.modCtx_eq, State.reg_of_setCtx]
      exact (s1.reg_sat_of_mod 15 8 1 hp).trans h1
    · split
      · exact (s1.reg_sat_of_mod 31 16 1 hp).trans h1
      · exact h1

theorem State.reg_refreshAll (s : State) {a : Nat} (h : a % 2 ^ 12 ≠ Off.CTX_PROMISE) : s.refreshAll.reg a = s.reg a :=
  State.reg_forAll _ _ (fun c t => t.reg_refreshPromise c h) s

/-- Counting an access changes CTX_BYTES_PCIE of a context alone (R397). -/
theorem State.reg_countVf (s : State) (src : HostSrc) {a : Nat} (h : a % 2 ^ 12 ≠ Off.CTX_BYTES_PCIE) : (s.countVf src .eight).reg a = s.reg a := by
  refine (s.countVf_frame src).2 a ?_
  cases src with
  | pf b => exact List.not_mem_nil
  | mgmt => exact List.not_mem_nil
  | vf b n =>
    have hne : homeAddr a ≠ homeAddr (ctxA n Off.CTX_BYTES_PCIE) := homeAddr_ne_of_mod (by rwa [ctxA_mod n (by decide)])
    simpa [pcieOf] using hne

/-! ## Package resets -/

/-- The reset value of a register other than EAV_MAC is that of its definition. -/
theorem regReset_of_off {a : Nat} {r : RegDef} (hr : regAt a = some r) (hoff : r.off ≠ Off.EAV_MAC) : regReset a = r.resetWord := by
  simp [regReset, hr, hoff]

/-- A register put back reads its reset value, another as before. -/
theorem State.reg_resetRegs (s : State) (p : Nat → Bool) (a : Nat) :
    (s.resetRegs p).reg a = if p (homeAddr a) = true then regReset (homeAddr a) else s.reg a := by
  simp only [State.reg, State.resetRegs, Table.getD, Table.get?_filter s.regs (fun k => !p k)]
  cases p (homeAddr a) <;> rfl

/-- After a package cold reset a register reads its reset value (R37). -/
theorem State.reg_coldReset (s : State) (a : Nat) : s.coldReset.reg a = regReset (homeAddr a) := rfl

/-- Package warm reset puts back every register of an EAV page (R314). -/
theorem warmResets_eav {a : Nat} (h : pageOf a = some .eav) : warmResets a = true := by
  unfold warmResets
  rw [h]

/-- The offsets of the registers that package warm reset writes beside those it puts back (R12, R60, R417). -/
def warmWrites : List Nat :=
  [Off.RDG_CLK, Off.RDG_SAG, Off.RDG_THERM, Off.RDG_BOOT, Off.PRL_TEMP, Off.RFT_RETIRE, Off.PG_LOCK, Off.CTX_PROMISE]

variable {a : Nat}

theorem State.reg_warmFields (s : State) (h : a % 2 ^ 12 ∉ warmWrites) : s.warmFields.reg a = s.reg a := by
  simp only [warmWrites, List.mem_cons, not_or] at h
  obtain ⟨hclk, hsag, htherm, hboot, htemp, hretire, -⟩ := h
  unfold State.warmFields
  extract_lets s1 s2
  have h1 : s1.reg a = s.reg a := by
    simp only [s1]
    rw [State.reg_wf_of_mod _ _ _ _ hboot, State.reg_wf_of_mod _ _ _ _ htherm, State.reg_wf_of_mod _ _ _ _ hsag, State.reg_wf_of_mod _ _ _ _ hclk]
  have h2 : s2.reg a = s1.reg a :=
    State.reg_forAll _ _ (fun d t => t.reg_wf_of_mod _ _ _ (by rwa [bar0_mod d 1 (by decide)])) s1
  have h3 := State.reg_forAll (a := a) (List.range 36) (fun r t => t.wf (bar0 (rafterDie r) 0 Off.RFT_RETIRE) 13 13 0)
    (fun r t => t.reg_wf_of_mod _ _ _ (by rwa [bar0_mod (rafterDie r) 0 (by decide)])) s2
  exact h3.trans (h2.trans h1)

/-- Of the registers, locks alone are set again (R12). -/
theorem State.reg_relock (s : State) (h : a % 2 ^ 12 ≠ Off.PG_LOCK) : s.relock.reg a = s.reg a := by
  refine State.reg_forAll _ _ (fun e t => ?_) s
  split
  · next he => exact t.reg_setReg_ne _ (homeAddr_ne_of_mod (he.2 ▸ h))
  · rfl

/-- After a package warm reset a register that it puts back, and does not write besides, reads its reset value (R417). -/
theorem State.reg_warmReset (s : State) (hr : warmResets (homeAddr a) = true) (h : a % 2 ^ 12 ∉ warmWrites) :
    s.warmReset.reg a = regReset (homeAddr a) := by
  have hlock : a % 2 ^ 12 ≠ Off.PG_LOCK := fun e => h (by rw [e]; decide)
  have hpromise : a % 2 ^ 12 ≠ Off.CTX_PROMISE := fun e => h (by rw [e]; decide)
  unfold State.warmReset
  rw [State.reg_refreshAll _ hpromise, State.reg_relock _ hlock, State.reg_warmFields _ h]
  exact (s.flushCache.reg_resetRegs warmResets a).trans (if_pos hr)

/-- A write that reaches RDG_PKG_RESET asks for a reset, with CODE and GO as written (R417). -/
theorem State.writeReg_pkgReset (s : State) (src : HostSrc) (v : Word) :
    s.writeReg src true Off.RDG_PKG_RESET v = s.pkgReset (fld v 15 0) (fld v 16 16 = 1) := by
  have hpage : pageOf Off.RDG_PKG_RESET = some .rdg := by decide
  have hoff : offOf Off.RDG_PKG_RESET = Off.RDG_PKG_RESET := by decide
  obtain ⟨r, hr⟩ : ∃ r, regAt Off.RDG_PKG_RESET = some r := Option.isSome_iff_exists.1 (by decide)
  unfold State.writeReg
  simp only [hpage, hr, hoff]
  rw [if_neg (by decide)]
  unfold State.writeRdg
  simp only [hoff]
  rw [if_neg (by decide), if_neg (by decide), if_neg (by decide), if_neg (by decide), if_pos trivial, if_pos trivial]

/-- The write of RDG_PKG_RESET that asks for a warm reset acts on the package (R417). -/
theorem exec_pkgResetWrite_go {s : State} {src : HostSrc} (hw : WriteReaches s src Off.RDG_PKG_RESET) :
    exec (.pkgResetWrite src 0x5741 true) s = .next ((s.countVf src .eight).pkgReset 0x5741 true) := by
  obtain ⟨r, hr, hf⟩ : ∃ r, regAt Off.RDG_PKG_RESET = some r ∧ r.free = true :=
    ⟨(regAt Off.RDG_PKG_RESET).get (by decide), Option.eq_some_of_isSome _, by decide⟩
  have hpage : pageOf Off.RDG_PKG_RESET = some .rdg := by decide
  have hcode : fld (field 0 (0x5741 % 2 ^ 16) ||| field 16 (b2n true)) 15 0 = 0x5741 := by decide
  have hgo : fld (field 0 (0x5741 % 2 ^ 16) ||| field 16 (b2n true)) 16 16 = 1 := by decide
  rw [exec_pkgResetWrite, execPkgResetWrite, State.write8_eq _ hw hpage (by decide) hr hf, State.writeReg_pkgReset, hcode, hgo]
  rfl

/-- Such a write is taken below sag level 4, and outside of firmware activation the reset happens with it (R417; log 55). -/
theorem State.pkgReset_go {s : State} (hsag : s.rf Off.RDG_SAG 2 0 < 4) (hact : s.rf Off.RDG_FWACT 0 0 = 0) :
    s.pkgReset 0x5741 true = (s.wf Off.RDG_PKG_RESET 17 17 0).warmReset := by
  unfold State.pkgReset
  rw [if_neg (by omega), hact]
  rfl

end Sys2Proof.Machine
end

section
/-! SUPPORT. EAV_WRR, the weights of the classes of a package port (R285). -/

namespace Sys2Proof.Machine

/-! ## The register -/

/-- The address of EAV_WRR of package port `p`. -/
def wrrAddr (p : Nat) : Nat := bar0 (portDie p) 0 (Off.EAV_WRR + 8 * (p % 8))

section
variable (p : Nat)

theorem wrrOff_lt : Off.EAV_WRR + 8 * (p % 8) < 2 ^ 12 := by unfold Off.EAV_WRR; omega

/-- An Eave die holds an EAV page at block 0. -/
theorem pageAt_eaveDie (e : Nat) : pageAt (eaveDie e) 0 = some .eav := by
  unfold eaveDie
  split <;> rfl

theorem pageOf_wrrAddr : pageOf (wrrAddr p) = some .eav :=
  (pageOf_bar0 (eaveDie_lt _) (by decide) (wrrOff_lt p)).trans (pageAt_eaveDie _)

theorem offOf_wrrAddr : offOf (wrrAddr p) = Off.EAV_WRR + 8 * (p % 8) := offOf_bar0 (eaveDie_lt _) (by decide) (wrrOff_lt p)

theorem wrrAddr_mod : wrrAddr p % 2 ^ 12 = Off.EAV_WRR + 8 * (p % 8) := bar0_mod _ _ (wrrOff_lt p)

/-- EAV_WRR and the count of a function's payload stand at other offsets. -/
theorem wrrAddr_mod_ne : wrrAddr p % 2 ^ 12 ≠ Off.CTX_BYTES_PCIE := by
  rw [wrrAddr_mod]
  unfold Off.EAV_WRR Off.CTX_BYTES_PCIE
  omega

theorem homeAddr_wrrAddr : homeAddr (wrrAddr p) = wrrAddr p := by
  have hridge : ∀ e, eaveDie e ≠ 63 := by
    intro e
    unfold eaveDie
    split <;> decide
  refine homeAddr_bar0 (wrrOff_lt p) ?_
  have := hridge (p / 8)
  unfold portDie
  omega

/-- The eight weight registers of an EAV page have one definition, without locked fields. -/
theorem findReg_wrr : ∃ r : RegDef, (∀ i < 8, findReg (pageRegs .eav) (Off.EAV_WRR + 8 * i) = some r)
    ∧ r.free = true ∧ r.off = Off.EAV_WRR ∧ r.resetWord = 0x0000081018306040 :=
  ⟨(findReg (pageRegs .eav) Off.EAV_WRR).get (by decide), by decide, by decide, by decide, by decide⟩

theorem regAt_wrrAddr : ∃ r, regAt (wrrAddr p) = some r ∧ r.free = true ∧ r.off = Off.EAV_WRR ∧ r.resetWord = 0x0000081018306040 := by
  obtain ⟨r, hrow, hr⟩ := findReg_wrr
  refine ⟨r, ?_, hr⟩
  unfold regAt
  rw [pageOf_wrrAddr, offOf_wrrAddr]
  exact hrow _ (Nat.mod_lt _ (by decide))

/-- The reset value of EAV_WRR (R285). -/
theorem regReset_wrrAddr : regReset (wrrAddr p) = 0x0000081018306040 := by
  obtain ⟨r, hr, -, hoff, hword⟩ := regAt_wrrAddr p
  rw [regReset_of_off hr (by rw [hoff]; decide), hword]

/-! ## Package resets -/

theorem State.wrr_coldReset (s : State) : s.coldReset.reg (wrrAddr p) = 0x0000081018306040 := by
  rw [State.reg_coldReset, homeAddr_wrrAddr, regReset_wrrAddr]

theorem State.wrr_warmReset (s : State) : s.warmReset.reg (wrrAddr p) = 0x0000081018306040 := by
  have hr : warmResets (homeAddr (wrrAddr p)) = true := by rw [homeAddr_wrrAddr, warmResets_eav (pageOf_wrrAddr p)]
  have hoff : wrrAddr p % 2 ^ 12 ∉ warmWrites := by
    have key : ∀ i < 8, Off.EAV_WRR + 8 * i ∉ warmWrites := by decide
    rw [wrrAddr_mod]
    exact key _ (Nat.mod_lt _ (by decide))
  rw [s.reg_warmReset hr hoff, homeAddr_wrrAddr, regReset_wrrAddr]

/-! ## A write -/

/-- The sum of the six weights of a value of EAV_WRR. -/
def weightSum (v : Word) : Nat := ((List.range 6).map fun i => fld v (8 * i + 7) (8 * i)).sum

theorem State.writeWrr_refused (s : State) (a : Nat) {v : Word} (h : 256 < weightSum v) : s.writeWrr a v = s.wf a 48 48 1 := if_pos h

theorem State.writeWrr_taken (s : State) (a : Nat) {v : Word} (h : weightSum v ≤ 256) :
    s.writeWrr a v = (s.wf a 47 0 (fld v 47 0)).wf a 48 48 0 := if_neg (Nat.not_lt.2 h)

/-- A write of EAV_WRR changes no other register, and nothing but registers. -/
theorem State.writeWrr_frame (s : State) (a : Nat) (v : Word) : onlyRegs s (s.writeWrr a v) ∧ sameRegsBut [a] s (s.writeWrr a v) := by
  have one : ∀ (t : State) (hi lo n : Nat), onlyRegs t (t.wf a hi lo n) ∧ sameRegsBut [a] t (t.wf a hi lo n) :=
    fun t _ _ _ => ⟨onlyRegs.setReg t a _, sameRegsBut.setReg t a _⟩
  rcases Nat.lt_or_ge 256 (weightSum v) with h | h
  · rw [s.writeWrr_refused a h]
    exact one s 48 48 1
  · rw [s.writeWrr_taken a h]
    obtain ⟨o1, r1⟩ := one s 47 0 (fld v 47 0)
    obtain ⟨o2, r2⟩ := one (s.wf a 47 0 (fld v 47 0)) 48 48 0
    exact ⟨o1.trans o2, (r1.trans r2).mono (by simp)⟩

/-- A write that is refused keeps the weights and sets BAD (R285). -/
theorem State.writeWrr_refused_fields (s : State) (a : Nat) {v : Word} (h : 256 < weightSum v) :
    (s.writeWrr a v).rf a 47 0 = s.rf a 47 0 ∧ (s.writeWrr a v).rf a 48 48 = 1 := by
  rw [s.writeWrr_refused a h]
  simp only [State.wf_eq, State.rf_eq, State.reg_setReg_self]
  exact ⟨fld_ins_below _ 48 48 1 47 0 (by decide) (by decide) (by decide) (by decide), fld_ins_self _ 48 48 1 (by decide) (by decide)⟩

/-- A write that is taken stores the weights and clears BAD (R285). -/
theorem State.writeWrr_taken_fields (s : State) (a : Nat) {v : Word} (h : weightSum v ≤ 256) :
    (s.writeWrr a v).rf a 47 0 = fld v 47 0 ∧ (s.writeWrr a v).rf a 48 48 = 0 := by
  rw [s.writeWrr_taken a h]
  simp only [State.wf_eq, State.rf_eq, State.reg_setReg_self]
  refine ⟨?_, fld_ins_self _ 48 48 0 (by decide) (by decide)⟩
  rw [fld_ins_below _ 48 48 0 47 0 (by decide) (by decide) (by decide) (by decide), fld_ins_self _ 47 0 _ (by decide) (by decide)]
  exact Nat.mod_eq_of_lt (bits_lt v.toNat 47 0)

/-- A write that reaches a weight register of an EAV page is a write of its weights (R285). -/
theorem State.writeReg_wrr (s : State) (src : HostSrc) (low : Bool) {a : Nat} {r : RegDef} (v : Word) (hpage : pageOf a = some .eav)
    (hr : regAt a = some r) (hfrom : 0x180 ≤ offOf a) (hto : offOf a < 0x1C0) : s.writeReg src low a v = s.writeWrr a v := by
  have hclr : offOf a ≠ Off.EAV_CLR := Nat.ne_of_gt (Nat.lt_of_lt_of_le (by decide) hfrom)
  unfold State.writeReg
  simp only [hpage, hr]
  rw [if_neg (by omega)]
  unfold State.writeEav
  simp only [hclr, hfrom, hto, and_self, if_false, if_true]

variable {p}

/-- EAV_WRR_WRITE of a write that reaches its register, after the access is counted (R285). -/
theorem exec_eavWrrWrite_reaches {s : State} {src : HostSrc} (v : Word) (hp : p < 64) (hw : WriteReaches s src (wrrAddr p)) :
    exec (.eavWrrWrite src p v) s = .next ((s.countVf src .eight).writeWrr (wrrAddr p) v) := by
  obtain ⟨r, hr, hf, -⟩ := regAt_wrrAddr p
  have hrun : exec (.eavWrrWrite src p v) s = .next (s.write8 src (wrrAddr p) v) := by
    rw [exec_eavWrrWrite, execEavWrrWrite, Nat.mod_eq_of_lt hp, wrrAddr]
  have hoff : offOf (wrrAddr p) = 0x180 + 8 * (p % 8) := offOf_wrrAddr p
  rw [hrun, State.write8_eq v hw (pageOf_wrrAddr p) (by decide) hr hf,
    State.writeReg_wrr _ src true v (pageOf_wrrAddr p) hr (by omega) (by omega)]

end

/-- Settles O59: weights of more than 256 in sum are refused with BAD, others taken, and both package resets give the reset value. -/
theorem portWeightsSumToAtMost256 : Obligations.PortWeightsSumToAtMost256 := by
  unfold Obligations.PortWeightsSumToAtMost256
  intro s p hp a
  have ha : a = wrrAddr p := rfl
  rw [ha]
  refine ⟨fun src v hw => ?_, fun hen hgd => ?_, fun src hw hsag hact => ?_⟩
  · have hrun := exec_eavWrrWrite_reaches v hp hw
    obtain ⟨only, others⟩ := (s.countVf src .eight).writeWrr_frame (wrrAddr p) v
    have frame := wroteRegs.step only others
    refine ⟨fun hover => ⟨_, hrun, ?_⟩, fun hfit => ⟨_, hrun, ?_⟩⟩
    · obtain ⟨weights, bad⟩ := (s.countVf src .eight).writeWrr_refused_fields (wrrAddr p) hover
      have counted : (s.countVf src .eight).reg (wrrAddr p) = s.reg (wrrAddr p) := s.reg_countVf src (wrrAddr_mod_ne p)
      exact ⟨by rw [weights, State.rf, State.rf, counted], bad, frame⟩
    · obtain ⟨weights, bad⟩ := (s.countVf src .eight).writeWrr_taken_fields (wrrAddr p) hfit
      exact ⟨weights, bad, frame⟩
  · have hrun : exec .pkgPwrgd s = .next { s.coldReset with pwrgd := true } := by
      rw [exec_pkgPwrgd, execPkgPwrgd, if_pos (by simp [hen, hgd])]
    exact ⟨_, hrun, s.wrr_coldReset p⟩
  · have counted : ∀ off, off % 2 ^ 12 ≠ Off.CTX_BYTES_PCIE → (s.countVf src .eight).reg off = s.reg off := fun _ h => s.reg_countVf src h
    refine ⟨_, exec_pkgResetWrite_go hw, ?_⟩
    rw [State.pkgReset_go (by rwa [State.rf, counted _ (by decide)]) (by rwa [State.rf, counted _ (by decide)])]
    exact State.wrr_warmReset p _

end Sys2Proof.Machine
end

section
/-! SUPPORT. The reset of a context asked for by a host write, and Function Level Resets (R372, R402). -/

namespace Sys2Proof.Machine

/-! ## RDG_CTX_RESET -/

/-- The word of the registers that act on a context: its number in bits [9:0] and GO in bit 10. -/
theorem toNat_selectWord (c : Nat) : (field 0 (c % 1024) ||| field 10 1).toNat = 2 ^ 10 + c % 1024 := by
  have hc : c % 1024 < 2 ^ 10 := Nat.mod_lt _ (by decide)
  have hsel : (field 0 (c % 1024)).toNat = c % 1024 := by
    rw [field, BitVec.toNat_ofNat]
    omega
  have hgo : (field 10 1).toNat = 2 ^ 10 * 1 := by decide
  rw [BitVec.toNat_or, hsel, hgo, Nat.or_comm, ← Nat.two_pow_add_eq_or_of_lt hc 1, Nat.mul_one]

theorem fld_selectWord (c : Nat) :
    fld (field 0 (c % 1024) ||| field 10 1) 10 10 = 1 ∧ fld (field 0 (c % 1024) ||| field 10 1) 9 0 = c % 1024 := by
  unfold fld bits
  rw [toNat_selectWord]
  omega

/-- A write that reaches RDG_CTX_RESET with GO set resets the context that it names (R402). -/
theorem State.writeReg_ctxReset (s : State) (src : HostSrc) (low : Bool) {v : Word} (hgo : fld v 10 10 = 1) :
    s.writeReg src low Off.RDG_CTX_RESET v = s.ctxReset (fld v 9 0) := by
  have hpage : pageOf Off.RDG_CTX_RESET = some .rdg := by decide
  have hoff : offOf Off.RDG_CTX_RESET = Off.RDG_CTX_RESET := by decide
  obtain ⟨r, hr⟩ : ∃ r, regAt Off.RDG_CTX_RESET = some r := Option.isSome_iff_exists.1 (by decide)
  unfold State.writeReg
  simp only [hpage, hr, hoff]
  rw [if_neg (by decide)]
  unfold State.writeRdg
  simp [hoff, hgo, Off.RDG_CTX_RESET, Off.RDG_CLK, Off.RDG_PSTATE, Off.RDG_SAG, Off.RDG_THERM, Off.RDG_PKG_RESET, Off.RDG_ASSET, Off.RDG_PTP,
    Off.RDG_BAND, Off.RDG_NODE, Off.RDG_XLATE_INV]

/-- CTX_RESET of a write that reaches its register, after the access is counted (R402). -/
theorem exec_ctxReset_reaches {s : State} {src : HostSrc} {c : Nat} (hc : c < 1024) (hw : WriteReaches s src Off.RDG_CTX_RESET) :
    exec (.ctxReset src c) s = .next ((s.countVf src .eight).ctxReset c) := by
  obtain ⟨r, hr, hf⟩ : ∃ r, regAt Off.RDG_CTX_RESET = some r ∧ r.free = true :=
    ⟨(regAt Off.RDG_CTX_RESET).get (by decide), Option.eq_some_of_isSome _, by decide⟩
  have hpage : pageOf Off.RDG_CTX_RESET = some .rdg := by decide
  obtain ⟨hgo, hsel⟩ := fld_selectWord c
  rw [exec_ctxReset, execCtxReset, State.write8_eq _ hw hpage (by decide) hr hf, State.writeReg_ctxReset _ _ _ hgo, hsel, Nat.mod_eq_of_lt hc]

/-! ## The registers of the PF ring -/

/-- Each Ridge keeps the registers of its PF ring for itself (R435). -/
theorem homeAddr_pfRing (b : Bool) {off : Nat} (hfrom : 0x700 ≤ off) (hto : off ≤ 0x768) :
    homeAddr (bar0 (ridgeOf b) 0 off) = bar0 (ridgeOf b) 0 off := by
  have hown : ridgeOwn (bar0 (ridgeOf b) 0 off % 2 ^ 12) = true := by
    rw [bar0_mod _ _ (by omega)]
    simp [ridgeOwn, hfrom, hto]
  unfold homeAddr
  rw [hown]
  exact if_neg fun h => Bool.false_ne_true h.2

/-- A register lies among those of the PF ring of a Ridge. -/
def inPfRing (b : Bool) (a : Nat) : Bool := bar0 (ridgeOf b) 0 0x700 ≤ a && a ≤ bar0 (ridgeOf b) 0 0x768

theorem inPfRing_iff (b : Bool) (a : Nat) : inPfRing b a = true ↔ ∃ off, 0x700 ≤ off ∧ off ≤ 0x768 ∧ a = bar0 (ridgeOf b) 0 off := by
  simp only [inPfRing, Bool.and_eq_true, decide_eq_true_eq]
  unfold bar0
  constructor
  · rintro ⟨hfrom, hto⟩
    exact ⟨a - (ridgeOf b * 2 ^ 18 + 0 * 2 ^ 12), by omega⟩
  · rintro ⟨off, hfrom, hto, rfl⟩
    omega

/-! ## FLR_PF -/

/-- The registers after the reset of a physical function are those with its ring's put back. -/
theorem State.reg_resetPf (s : State) (b : Bool) (a : Nat) : (s.resetPf b).reg a = (s.resetRegs (inPfRing b)).reg a := by
  cases b <;> rfl

theorem State.reg_resetPf_ring (s : State) (b : Bool) {off : Nat} (hfrom : 0x700 ≤ off) (hto : off ≤ 0x768) :
    (s.resetPf b).reg (bar0 (ridgeOf b) 0 off) = regReset (bar0 (ridgeOf b) 0 off) := by
  rw [s.reg_resetPf, s.reg_resetRegs, homeAddr_pfRing b hfrom hto, if_pos ((inPfRing_iff b _).2 ⟨off, hfrom, hto, rfl⟩)]

theorem State.reg_resetPf_other (s : State) (b : Bool) {a : Nat}
    (h : ∀ off, 0x700 ≤ off → off ≤ 0x768 → homeAddr a ≠ bar0 (ridgeOf b) 0 off) : (s.resetPf b).reg a = s.reg a := by
  have hout : ¬ inPfRing b (homeAddr a) = true := by
    rw [inPfRing_iff]
    rintro ⟨off, hfrom, hto, e⟩
    exact h off hfrom hto e
  rw [s.reg_resetPf, s.reg_resetRegs, if_neg hout]

/-- The reset of a physical function changes its ring's registers and completion state, and nothing else of the device (R372). -/
theorem State.resetPf_frame (s : State) (b : Bool) :
    let u := s.resetPf b
    u = if b then { s with regs := u.regs, pfHeldB := [], pfMailB := [], pfAckB := u.pfAckB, pfPhaseB := u.pfPhaseB }
      else { s with regs := u.regs, pfHeldA := [], pfMailA := [], pfAckA := u.pfAckA, pfPhaseA := u.pfPhaseA } := by
  cases b <;> rfl

theorem State.records_resetPf (s : State) (b : Bool) : (s.resetPf b).heldOf (.pf b) = [] ∧ (s.resetPf b).mailOf (.pf b) = [] := by
  cases b <;> exact ⟨rfl, rfl⟩

theorem exec_flrPf_usable {s : State} {b : Bool} (hu : s.portUsable b = true) : exec (.flrPf b) s = .next (s.resetPf b) := by
  rw [exec_flrPf, execFlrPf, if_pos hu]

/-! ## FLR_VF -/

theorem exec_flrVf_bound {s : State} {b : Bool} {c : Nat} (hu : s.portUsable b = true) (hb : (s.ctx c).boundB = b) :
    exec (.flrVf b c) s = .next (s.ctxReset c) := by
  rw [exec_flrVf, execFlrVf, if_pos ⟨hu, hb⟩]

theorem exec_flrVf_unbound {s : State} {b : Bool} {c : Nat} (hb : (s.ctx c).boundB ≠ b) : exec (.flrVf b c) s = .next s := by
  rw [exec_flrVf, execFlrVf, if_neg fun h => hb h.2]

/-- Settles O29: an FLR of a virtual function is the context reset where the context is bound to the port, and that of a physical
function puts back its ring's registers and completion state alone. -/
theorem functionLevelResets : Obligations.FunctionLevelResets := by
  unfold Obligations.FunctionLevelResets
  intro s b hu
  refine ⟨fun c hc => ⟨fun hb => ?_, fun hb => ?_, fun hw => ?_⟩, ?_⟩
  · exact ⟨_, exec_flrVf_bound hu hb, rfl⟩
  · exact ⟨_, exec_flrVf_unbound hb, rfl⟩
  · exact ⟨_, exec_ctxReset_reaches hc hw, rfl⟩
  · obtain ⟨held, mail⟩ := s.records_resetPf b
    exact ⟨_, exec_flrPf_usable hu, held, mail, fun _ => s.reg_resetPf_ring b, fun _ => s.reg_resetPf_other b, s.resetPf_frame b⟩

end Sys2Proof.Machine
end

section
/-! SUPPORT. One step of the machine: the invariant that it keeps, and what a command answers. -/

namespace Sys2Proof.Machine

/-! ## One step -/

/-- The front command of the queue runs on the rest of it. -/
theorem step_cons {s : State} {i : Instr} {r : List Instr} (h : s.pending = i :: r) : step s = exec i { s with pending := r } := by
  unfold step
  rw [h]

/-- On an empty queue one cycle passes. -/
theorem step_nil {s : State} (h : s.pending = []) : step s = .next s.tick := by
  unfold step
  rw [h]

/-- Settles O1: a step runs the front command, or on an empty queue one cycle where the package is powered. -/
theorem stepRunsTheFrontCommand : Obligations.StepRunsTheFrontCommand := by
  unfold Obligations.StepRunsTheFrontCommand
  refine ⟨fun s c r => step_cons, fun s hq => ⟨fun hoff => ?_, fun hon => ?_⟩⟩
  · rw [step_nil hq, State.tick, if_neg (by simp [hoff])]
  · rw [step_nil hq, State.tick, if_pos hon]

/-- The state after reset meets the invariant: it lists nothing. -/
theorem State.reset_inv : State.reset.Inv :=
  ⟨Memory.wf_nil, Memory.wf_nil, Memory.wf_nil, Cache.wf_nil, rfl, Table.wf_nil _, Table.wf_nil _, Nat.zero_le 3, fun _ h => nomatch h⟩

/-- Settles O4: nothing is listed after reset, so every register reads its reset value and every context and die is as at the start. -/
theorem resetMeetsInvariantAndValues : Obligations.ResetMeetsInvariantAndValues :=
  ⟨State.reset_inv, rfl, State.reset_reg, rfl, fun _ => rfl, fun _ => ⟨rfl, rfl⟩, rfl, rfl, rfl, rfl, rfl⟩

/-- A command keeps the invariant and the queue of commands. -/
theorem exec_keeps {i : Instr} {s t : State} (hs : s.Inv) (h : exec i s = .next t) : t.Inv ∧ t.pending = s.pending := by
  have hgood := exec_good i s ((State.good_iff s.pending s).2 ⟨hs, rfl⟩)
  rw [h] at hgood
  exact (State.good_iff _ t).1 hgood

/-- A change of the queue alone keeps the invariant. -/
theorem State.Inv.withPending {s : State} (h : s.Inv) (q : List Instr) : State.Inv { s with pending := q } :=
  ⟨h.mem, h.scratch, h.hostMem, h.cache, h.regs, h.ctxs, h.dies, h.pstate, h.psTarget⟩

/-- A cycle of the time base keeps the invariant. -/
theorem State.tick_inv {s : State} (h : s.Inv) : s.tick.Inv :=
  ((State.good_iff s.pending _).1 (s.tick_good ((State.good_iff _ s).2 ⟨h, rfl⟩))).1

/-- Settles O3: a step is a command or a cycle, and both keep the invariant. -/
theorem stepKeepsInvariant : Obligations.StepKeepsInvariant := by
  intro s t hs h
  cases hq : s.pending with
  | nil =>
    rw [step_nil hq] at h
    cases h
    exact State.tick_inv hs
  | cons i r =>
    rw [step_cons hq] at h
    exact (exec_keeps (hs.withPending r) h).1

/-! ## Commands answer -/

/-- What a command answers is a state. -/
def Out.Answers (o : Out) : Prop := ∃ t, o = .next t

theorem Out.answers_next (t : State) : Out.Answers (.next t) := ⟨t, rfl⟩

/-- A row of a context's ring answers a state: the entry's effect, or what stands in its way. -/
theorem State.ctxCommand_answers (s : State) (c : Nat) (mine : Bits512 → Bool) (act : Bits512 → State) :
    Out.Answers (s.ctxCommand c mine act) := by
  unfold State.ctxCommand
  split <;> exact Out.answers_next _

/-- So does a row of the physical function. -/
theorem State.pfCommand_answers (s : State) (src : PfSrc) (mine : Bits512 → Bool) (act : Bits512 → State) :
    Out.Answers (s.pfCommand src mine act) := by
  unfold State.pfCommand
  split <;> exact Out.answers_next _

/-- Every command answers a state but the access to internal test chains after an authenticated unlock (R31): a row without a test, a row of a
ring and a row that decides by tests alike. -/
theorem exec_answers (i : Instr) (s : State) (h : ¬ (i = .testAccessPort .internalChain ∧ s.tapUnlocked = true)) :
    Out.Answers (exec i s) := by
  cases i with
  | pwrEnRise | pwrEnFall | perstDeassert | thermClear | clkDivWrite | clkRestore | sagRPrefetch | sagRResume | sagClrMax | pstateActive
  | pstateHold | pstateNap | pstateDormant | pkgResetWrite | queueFlush | vote | decide | mirror | mirrorAck | rebuildFrame | stage | coll | ring
  | ingest | guest | mgmt | relayed | linkctl | ptpSelect | eavPctlWrite | eavWrrWrite | nodeWrite | strandRetire | sitePowerOn
  | refreshRateChange | bandWrite | liggerResume | liggerAbort | cplHeadWrite | cplBaseWrite | resAck | cmdRingConfigWrite | evlogConfigWrite
  | evlogReadWrite | evlogClrLost | trainingRegisterWrite | xlateInv | ctxReset | acctClr | epoch | voffWrite | tileRetire | schedClrMiss
  | schedClrSlip | schedClrWait | schedClrSusp | arithClrSat | arithClrGate | arithClrPoison | sfuClrMasked | sfuClrNan | slotClrOverflow
  | slotClrEmpty | pipeClrQcount | pipeClrChan | memClrEcc | memClrWin | ctxMemClrPoison | trainClrSkip | collClrSts | collClrChunks
  | collClrStale | eavClrPorts | eavClrDrop | eavClrRelay | eavClrReroute | resClrMirwait | resClrCkpt | clrErr | registerWrite | queueSpaceFreed => exact Out.answers_next _
  | stageLinks | versionRings | rollback | snapshot | exportRing | flush | cancel => exact State.ctxCommand_answers _ _ _ _
  | fwact | group | reform | context | bind => exact State.pfCommand_answers _ _ _ _
  | loadPlan c =>
    rw [exec_loadPlan, execLoadPlan]
    split
    · exact Out.answers_next _
    · exact State.ctxCommand_answers _ _ _ _
  | launchStep c =>
    rw [exec_launchStep, execLaunchStep]
    split
    · exact Out.answers_next _
    · exact State.ctxCommand_answers _ _ _ _
  | route src =>
    rw [exec_route, execRoute]
    split
    · exact Out.answers_next _
    · exact State.pfCommand_answers _ _ _ _
  | routePrefix src =>
    rw [exec_routePrefix, execRoutePrefix]
    split
    · exact Out.answers_next _
    · exact State.pfCommand_answers _ _ _ _
  | fence ring src =>
    cases ring with
    | none => exact State.pfCommand_answers _ _ _ _
    | some c => exact State.ctxCommand_answers _ _ _ _
  | testAccessPort op =>
    cases op with
    | boundaryScan _ | unlock _ => exact Out.answers_next _
    | internalChain =>
      rw [exec_testAccessPort, execTestAccessPort, if_neg fun hu => h ⟨rfl, hu⟩]
      exact Out.answers_next _
  | pkgPwrgd | perstMgmtAssert | perstOtherAssert | flrVf | flrPf | supplySample | sagLevelEnter | sagLevelLeave | selfRefreshEnter | thermalTrip
  | thermalCrit | dividerChange | pstateDone | warmResetEnd | ridgeBootDone | thatchReady | eaveReady | rafterReady | portUp | edgeTrained
  | discoveryWave | dieTableBuild | firmwareActivation | firmwareActivationEnd | pldmFirmwareUpdate | launchReady | launchEnd | nop | hold
  | signal | repeatEntry | endEntry | mark | planRefillArrive | deadlockSuspect | mma | mmaSparse | conv | mmaColl | vec | sfu | normStat
  | softmax | upd | rngFill | gnsStat | streamIn | streamOut | assign | slotGather | slotScatter | clear | send | sendRetry | recv | combine
  | messageArrival | ackArrival | combineSum | qpush | qpop | verdict | commitIf | transferAccept | transferArrival | unitOperationComplete
  | queueWordWrite | packetArrival | collChunkComplete | packageStageEnd | voteSend | checkpointDone | checkpointTrigger | checkpointTimer
  | ptpFrame | pauseFrame | pauseRepeat | frameTransmit | replayTimer | linkctlTimer | linkSilenceTimeout | portSignalLoss | linkMove
  | replayRateWindow | ppsSecond | flitCrcFail | strandFail | edgeDown | strandWarnWindow | dieClockSupplyLoss | fenceNotice | takeover
  | takeoverComplete | guestRequest | guestAdmit | overpower | memoryRead | memoryWrite | eccReread | ceRateWindow | atomicApply | refreshTick
  | copyIn | copyOut | fillConst | fillRng | test | verify | scrub | restore | rebuild | repair | liggerCommandDone | doorbell | loadPlanComplete
  | snapshotComplete | exportComplete | contextResetDone | apertureAccess | energyInterval | marginSample | marginEpochEnd | launchT0
  | flitReplayCaughtUp | pauseExpiry | voffMove | tileRetireDone | hostLinkUp | configurationRequest | dynamicAddressAssignment
  | otherEthertypeFrame | temperatureSample =>
    simp only [exec,
      execPkgPwrgd, execPerstMgmtAssert, execPerstOtherAssert, execFlrVf, execFlrPf, execSupplySample, execSagLevelEnter, execSagLevelLeave,
      execSelfRefreshEnter, execThermalTrip, execThermalCrit, execDividerChange, execPstateDone, execWarmResetEnd, execRidgeBootDone,
      execThatchReady, execEaveReady, execRafterReady, execPortUp, execEdgeTrained, execDiscoveryWave, execDieTableBuild,
      execFirmwareActivation, execFirmwareActivationEnd, execPldmFirmwareUpdate, execLaunchReady, execLaunchEnd, execNop, execHold,
      execSignal, execRepeatEntry, execEndEntry, execMark, execPlanRefillArrive, execDeadlockSuspect, execMma, execMmaSparse, execConv,
      execMmaColl, execVec, execSfu, execNormStat, execSoftmax, execUpd, execRngFill, execGnsStat, execStreamIn, execStreamOut, execAssign,
      execSlotGather, execSlotScatter, execClear, execSend, execSendRetry, execRecv, execCombine, execMessageArrival, execAckArrival,
      execCombineSum, execQpush, execQpop, execVerdict, execCommitIf, execTransferAccept, execTransferArrival, execUnitOperationComplete,
      execQueueWordWrite, execPacketArrival, execCollChunkComplete, execPackageStageEnd, execVoteSend, execCheckpointDone,
      execCheckpointTrigger, execCheckpointTimer, execPtpFrame, execPauseFrame, execPauseRepeat, execFrameTransmit, execReplayTimer,
      execLinkctlTimer, execLinkSilenceTimeout, execPortSignalLoss, execLinkMove, execReplayRateWindow, execPpsSecond, execFlitCrcFail,
      execStrandFail, execEdgeDown, execStrandWarnWindow, execDieClockSupplyLoss, execFenceNotice, execTakeover, execTakeoverComplete,
      execGuestRequest, execGuestAdmit, execOverpower, execMemoryRead, execMemoryWrite, execEccReread, execCeRateWindow, execAtomicApply,
      execRefreshTick, execCopyIn, execCopyOut, execFillConst, execFillRng, execTest, execVerify, execScrub, execRestore, execRebuild,
      execRepair, execLiggerCommandDone, execDoorbell, execLoadPlanComplete, execSnapshotComplete, execExportComplete, execContextResetDone,
      execApertureAccess, execEnergyInterval, execMarginSample, execMarginEpochEnd, execLaunchT0, execFlitReplayCaughtUp, execPauseExpiry,
      execVoffMove, execTileRetireDone, execHostLinkUp, execConfigurationRequest, execDynamicAddressAssignment, execOtherEthertypeFrame,
      execTemperatureSample]
    repeat' split
    all_goals exact Out.answers_next _

/-- Settles O2: commands keep the queue with the invariant, and all but the access to internal test chains answer a state. -/
theorem commandsKeepTheQueueAndAnswer : Obligations.CommandsKeepTheQueueAndAnswer := by
  unfold Obligations.CommandsKeepTheQueueAndAnswer
  refine ⟨fun c s t hs h => (exec_keeps hs h).2, fun c s => ⟨?_, exec_answers c s⟩⟩
  rintro ⟨rfl, hu⟩
  rw [exec_testAccessPort, execTestAccessPort, if_pos hu]

end Sys2Proof.Machine
end

section
/-! SUPPORT. The clear registers of a context window (R68, R130, R152, R169, R231, R257, R286, R369). -/

namespace Sys2Proof.Machine

/-! ## What a clear leaves -/

theorem fieldDefs_lt : ∀ k : PageKind, ∀ r ∈ pageRegs k, ∀ f ∈ r.fields, f.lo ≤ f.hi ∧ f.hi < 64 := by
  intro k
  cases k <;> decide +kernel

/-- The fields of a register lie within its 64 bits. -/
theorem regAt_fields_lt {a : Nat} {f : FieldDef} (h : f ∈ ((regAt a).map (·.fields)).getD []) : f.lo ≤ f.hi ∧ f.hi < 64 := by
  unfold regAt at h
  cases hk : pageOf a with
  | none => simp [hk] at h
  | some k =>
    cases hr : findReg (pageRegs k) (offOf a) with
    | none => simp [hk, hr] at h
    | some r =>
      simp only [hk, Option.bind_some, hr, Option.map_some, Option.getD_some] at h
      exact fieldDefs_lt k r (List.mem_of_find?_eq_some hr) f h

/-- Two states in which the present cycle has put the same into the fields of a register clear it to the same word. -/
theorem State.cleared_congr {s t : State} {a : Nat} (h : ∀ lo, lo < 64 → t.countedIn a lo = s.countedIn a lo) : t.cleared a = s.cleared a := by
  unfold State.cleared
  refine List.foldl_ext _ _ _ fun w f hf => ?_
  obtain ⟨hle, hlt⟩ := regAt_fields_lt hf
  rw [h f.lo (by omega)]

/-- Counting an access records nothing in the cycle but for CTX_BYTES_PCIE (R397). -/
theorem State.countedIn_countVf (s : State) (src : HostSrc) {a lo : Nat} (hlo : lo < 64) (h : a % 2 ^ 12 ≠ Off.CTX_BYTES_PCIE) :
    (s.countVf src .eight).countedIn a lo = s.countedIn a lo := by
  cases src with
  | pf b => rfl
  | mgmt => rfl
  | vf b n =>
    have hne : homeAddr a ≠ homeAddr (ctxA n Off.CTX_BYTES_PCIE) := homeAddr_ne_of_mod (by rwa [ctxA_mod n (by decide)])
    have hkey : countKey a lo ≠ countKey (ctxA n Off.CTX_BYTES_PCIE) 0 := by
      unfold countKey
      omega
    simp only [State.countVf, State.countedIn, State.cWrap_eq, State.wrap_eq, State.noteCount, Table.getD_put, if_neg hkey]
    rfl

theorem State.cleared_countVf (s : State) (src : HostSrc) {a : Nat} (h : a % 2 ^ 12 ≠ Off.CTX_BYTES_PCIE) :
    (s.countVf src .eight).cleared a = s.cleared a :=
  State.cleared_congr fun _ hlo => s.countedIn_countVf src hlo h

theorem ins_zero (hi lo : Nat) : ins 0 hi lo 0 = 0 := by simp [ins, fld]

/-- A register into which the present cycle has put nothing is cleared to 0. -/
theorem State.cleared_of_uncounted {s : State} {a : Nat} (h : ∀ lo, s.countedIn a lo = 0) : s.cleared a = 0 := by
  unfold State.cleared
  refine List.foldlRecOn _ _ (motive := fun w => w = 0) rfl fun w hw f _ => ?_
  rw [hw, h]
  exact ins_zero _ _

/-! ## A write of a clear register -/

/-- The offsets of the clear registers of a context window. -/
def clearOffs : List Nat :=
  [Off.CTX_SCHED_CLR, Off.CTX_ARITH_CLR, Off.CTX_SFU_CLR, Off.CTX_SLOT_CLR, Off.CTX_MEM_CLR, Off.CTX_TRAIN_CLR, Off.CTX_COLL_CLR, Off.CTX_RES_CLR]

theorem clearOffs_free : ∀ off ∈ clearOffs, off < 65536 ∧ ¬ off < 0x80 ∧ clearsOf off ≠ []
    ∧ (∃ r ∈ findReg (pageRegs .ctx) off, r.free = true) ∧ ¬ (0x100 ≤ off ∧ off ≤ 0x168)
    ∧ off ∉ [Off.CTX_IRQ_RAW, Off.CTX_IRQ_EN, Off.CTX_QFLUSH, Off.CTX_PIPE_CLR] := by decide +kernel

/-- A write that reaches a clear register of a context window clears, after the access is counted. -/
theorem State.write8_clear {s : State} {src : HostSrc} {c off : Nat} (v : Word) (hc : c < 1024) (ho : off ∈ clearOffs)
    (hw : WriteReaches s src (ctxA c off)) : s.write8 src (ctxA c off) v = (s.countVf src .eight).clearCtx c off v := by
  obtain ⟨hlt, hhdr, hclr, ⟨r, hr, hf⟩, hring, hothers⟩ := clearOffs_free off ho
  simp only [List.mem_cons, List.not_mem_nil, or_false, not_or] at hothers
  obtain ⟨hraw, hen, hflush, hpipe⟩ := hothers
  have hat : regAt (ctxA c off) = some r := by rw [regAt_ctxA hc hlt, hr]
  rw [State.write8_eq v hw (pageOf_ctxA hc hlt) (by decide) hat hf]
  unfold State.writeReg
  simp only [pageOf_ctxA hc hlt, hat, offOf_ctxA hlt]
  rw [if_neg hhdr]
  unfold State.writeCtx
  simp only [offOf_ctxA hlt, ctxOf_ctxA hlt]
  rw [if_neg hring, if_neg hraw, if_neg hen, if_neg hflush, if_neg hpipe, if_pos hclr]

/-- The registers that bit `i` of the clear register at `off` names. -/
def clearedBy (off i : Nat) : List Nat := ((clearsOf off).filter fun e => e.1 = i).map (·.2)

theorem clearsOf_mod : ∀ off ∈ clearOffs, ∀ e ∈ clearsOf off, e.1 < 64 ∧ e.2 < 2 ^ 12 ∧ e.2 ≠ Off.CTX_BYTES_PCIE ∧ e.2 ≠ Off.CTX_PROMISE := by
  decide +kernel

theorem State.clearIf_cycle (v : Word) (l : List (Nat × Nat)) (s : State) : (s.clearIf v l).cycle = s.cycle := by
  unfold State.clearIf forAll
  refine List.foldlRecOn l _ (motive := fun t : State => t.cycle = s.cycle) rfl fun t ht e _ => ?_
  dsimp only
  split <;> exact ht

/-- Bit `i` of a clear register: the registers that it names read what the present cycle has put into them, no other changes. -/
theorem State.clearIf_ctx {src : HostSrc} {s : State} {c off i : Nat} (ho : off ∈ clearOffs) (hi : i < 64) :
    let t := (s.countVf src .eight).clearIf (field i 1) ((clearsOf off).map fun e => (e.1, ctxA c e.2))
    (∀ o ∈ clearedBy off i, t.reg (ctxA c o) = s.cleared (ctxA c o)) ∧ wroteRegs src ((clearedBy off i).map (ctxA c)) s t := by
  intro t
  have hfacts := clearsOf_mod off ho
  obtain ⟨hclr, hframe⟩ := State.clearIf_wrote (src := src) (s := s) hi ((clearsOf off).map fun e => (e.1, ctxA c e.2))
    (List.forall_mem_map.2 fun e he => (hfacts e he).1) (List.forall_mem_map.2 fun e _ => homeAddr_ctxA c e.2)
  have hm : (((clearsOf off).map fun e => (e.1, ctxA c e.2)).filter fun e => e.1 = i).map (·.2) = (clearedBy off i).map (ctxA c) := by
    simp [clearedBy, List.filter_map, Function.comp_def]
  rw [hm] at hclr hframe
  refine ⟨fun o hmem => ?_, hframe⟩
  obtain ⟨e, he, rfl⟩ := List.mem_map.1 hmem
  obtain ⟨-, hlt, hne, -⟩ := hfacts e (List.mem_filter.1 he).1
  rw [hclr _ (List.mem_map_of_mem hmem), s.cleared_countVf src (by rwa [ctxA_mod c hlt])]

/-- A write of bit `i` of a clear register, where it is not CTX_SCHED_CLR.SUSP. -/
theorem State.clearCtx_plain (s : State) {c off i : Nat} (hi : i < 64) (h : ¬ (off = Off.CTX_SCHED_CLR ∧ i = 3)) :
    s.clearCtx c off (field i 1) = s.clearIf (field i 1) ((clearsOf off).map fun e => (e.1, ctxA c e.2)) := by
  unfold State.clearCtx
  dsimp only
  rw [if_neg]
  rintro ⟨rfl, hbit⟩
  rw [field_bit hi (by decide)] at hbit
  by_cases h3 : i = 3
  · exact h ⟨rfl, h3⟩
  · rw [if_neg (Ne.symm h3)] at hbit
    exact absurd hbit (by decide)

/-- A row that clears one bit of a clear register. -/
theorem State.write8_clearBit {s : State} {src : HostSrc} {c off i : Nat} (hc : c < 1024) (ho : off ∈ clearOffs) (hi : i < 64)
    (h : ¬ (off = Off.CTX_SCHED_CLR ∧ i = 3)) (hw : WriteReaches s src (ctxA c off)) :
    let t := s.write8 src (ctxA c off) (field i 1)
    (∀ o ∈ clearedBy off i, t.reg (ctxA c o) = s.cleared (ctxA c o)) ∧ wroteRegs src ((clearedBy off i).map (ctxA c)) s t := by
  rw [State.write8_clear _ hc ho hw, State.clearCtx_plain _ hi h]
  exact State.clearIf_ctx ho hi

/-- A row that writes one bit of a clear register clears the registers `l` that the bit names. -/
theorem clearRow (bit : Nat) {s : State} {src : HostSrc} {c off : Nat} {i : Instr} {l : List Nat} (hc : c < 1024)
    (hbit : off ∈ clearOffs ∧ bit < 64 ∧ ¬ (off = Off.CTX_SCHED_CLR ∧ bit = 3) ∧ clearedBy off bit = l)
    (hrun : exec i s = .next (s.write8 src (ctxA c off) (field bit 1))) (hw : WriteReaches s src (ctxA c off)) :
    Completes i s fun t => (∀ o ∈ l, t.reg (ctxA c o) = s.cleared (ctxA c o)) ∧ wroteRegs src (l.map (ctxA c)) s t := by
  obtain ⟨ho, hi, hsusp, rfl⟩ := hbit
  exact ⟨_, hrun, State.write8_clearBit hc ho hi hsusp hw⟩

/-! ## CTX_SCHED_CLR.SUSP -/

/-- The counts of CTX_PROMISE cleared: both end at what the present cycle has put into them, the state stays, no other register changes. -/
theorem State.clearPromise (s : State) (c : Nat) :
    let a := ctxA c Off.CTX_PROMISE
    let t := (s.clearField a 15 8).clearField a 31 16
    t.rf a 15 8 = satPlus 8 0 (s.countedIn a 8) ∧ t.rf a 31 16 = satPlus 16 0 (s.countedIn a 16) ∧ t.rf a 1 0 = s.rf a 1 0
      ∧ onlyRegs s t ∧ sameRegsBut [a] s t := by
  intro a t
  have hreg : t.reg a = ins (ins (s.reg a) 15 8 (satPlus 8 0 (s.countedIn a 8))) 31 16 (satPlus 16 0 (s.countedIn a 16)) := by
    simp only [t, State.clearField, State.wf_eq, State.reg_setReg_self]
    rfl
  have h8 : satPlus 8 0 (s.countedIn a 8) % 2 ^ 8 = satPlus 8 0 (s.countedIn a 8) := Nat.mod_eq_of_lt (by unfold satPlus; omega)
  have h16 : satPlus 16 0 (s.countedIn a 16) % 2 ^ 16 = satPlus 16 0 (s.countedIn a 16) := Nat.mod_eq_of_lt (by unfold satPlus; omega)
  simp only [State.rf_eq, hreg]
  refine ⟨?_, ?_, ?_, rfl, ?_⟩
  · rw [fld_ins_below _ _ _ _ _ _ (by decide) (by decide) (by decide) (by decide), fld_ins_self _ _ _ _ (by decide) (by decide)]
    exact h8
  · rw [fld_ins_self _ _ _ _ (by decide) (by decide)]
    exact h16
  · rw [fld_ins_below _ _ _ _ _ _ (by decide) (by decide) (by decide) (by decide),
      fld_ins_below _ _ _ _ _ _ (by decide) (by decide) (by decide) (by decide)]
  · exact ((sameRegsBut.setReg s a _).trans (sameRegsBut.setReg (s.clearField a 15 8) a _)).mono (by simp)

theorem ctxA_ne (c : Nat) {off o : Nat} (h : off ≠ o) : ctxA c off ≠ ctxA c o := by
  unfold ctxA
  omega

theorem promise_ne : Off.CTX_PROMISE ≠ Off.CTX_SUSP_LATE := by decide

/-- SCHED_CLR_SUSP clears CTX_SUSP_LATE and the counts of CTX_PROMISE, whose state stays (R68). -/
theorem State.write8_clearSusp {s : State} {src : HostSrc} {c : Nat} (hc : c < 1024) (hw : WriteReaches s src (ctxA c Off.CTX_SCHED_CLR)) :
    let p := ctxA c Off.CTX_PROMISE
    let t := s.write8 src (ctxA c Off.CTX_SCHED_CLR) (field 3 1)
    t.reg (ctxA c Off.CTX_SUSP_LATE) = s.cleared (ctxA c Off.CTX_SUSP_LATE) ∧ t.rf p 15 8 = satPlus 8 0 (s.countedIn p 8)
      ∧ t.rf p 31 16 = satPlus 16 0 (s.countedIn p 16) ∧ t.rf p 1 0 = s.rf p 1 0
      ∧ wroteRegs src [ctxA c Off.CTX_SUSP_LATE, p] s t := by
  intro p t
  obtain ⟨hlate, hframe⟩ := State.clearIf_ctx (src := src) (s := s) (c := c) (off := Off.CTX_SCHED_CLR) (i := 3) (by decide) (by decide)
  obtain ⟨hchanged, hothers⟩ := hframe
  generalize hs1 : (s.countVf src .eight).clearIf (field 3 1) ((clearsOf Off.CTX_SCHED_CLR).map fun e => (e.1, ctxA c e.2)) = s1
    at hlate hchanged hothers
  have ht : t = (s1.clearField p 15 8).clearField p 31 16 := by
    rw [← hs1]
    exact State.write8_clear _ hc (by decide) hw
  obtain ⟨lates, entered, state, only, regs⟩ := s1.clearPromise c
  rw [← ht] at lates entered state only regs
  have hmod : p % 2 ^ 12 ≠ Off.CTX_BYTES_PCIE := by rw [ctxA_mod c (by decide)]; decide
  have hpcie : homeAddr p ∉ (pcieOf src).map homeAddr := by
    cases src with
    | pf b => simp [pcieOf]
    | mgmt => simp [pcieOf]
    | vf b n => simpa [pcieOf] using homeAddr_ne_of_mod (b := ctxA n Off.CTX_BYTES_PCIE) (by rwa [ctxA_mod n (by decide)])
  have hp : s1.reg p = s.reg p := hothers p (by
    rw [List.map_append, List.mem_append, not_or]
    refine ⟨?_, hpcie⟩
    have : clearedBy Off.CTX_SCHED_CLR 3 = [Off.CTX_SUSP_LATE] := by decide
    simp [this, p, ctxA_ne c promise_ne])
  have hcounted : ∀ lo, lo < 64 → s1.countedIn p lo = s.countedIn p lo := by
    intro lo hlo
    rw [← s.countedIn_countVf src hlo hmod, ← hs1]
    unfold State.countedIn
    rw [State.clearIf_cycle]
  have hsusp : clearedBy Off.CTX_SCHED_CLR 3 = [Off.CTX_SUSP_LATE] := by decide
  rw [hsusp] at hlate hothers
  refine ⟨?_, ?_, ?_, ?_, hchanged.trans only, ?_⟩
  · rw [regs _ (by simp [ctxA_ne c promise_ne.symm]), hlate _ (by simp)]
  · rw [lates, hcounted _ (by decide)]
  · rw [entered, hcounted _ (by decide)]
  · rw [state, State.rf, State.rf, hp]
  · refine (hothers.trans regs).mono fun a ha => ?_
    rcases List.mem_append.1 ha with ha | ha
    · exact List.mem_append_left _ (List.mem_cons_of_mem _ ha)
    · rcases List.mem_append.1 ha with ha | ha
      · exact List.mem_append_left _ (List.mem_append_left [p] ha)
      · exact List.mem_append_right _ ha

/-- Settles O5: each row writes one bit of a clear register, which clears the registers that the bit names. -/
theorem contextClearRows : Obligations.ContextClearRows := by
  unfold Obligations.ContextClearRows
  refine ⟨fun s src c hc r hr hw => ?_, fun s src c hc hw => ?_, fun s a => State.cleared_of_uncounted⟩
  · simp only [List.mem_cons, List.not_mem_nil, or_false] at hr
    rcases hr with rfl | rfl | rfl | rfl | rfl | rfl | rfl | rfl | rfl | rfl | rfl | rfl | rfl | rfl | rfl | rfl | rfl
    exacts [clearRow 0 hc (by decide) rfl hw, clearRow 1 hc (by decide) rfl hw, clearRow 2 hc (by decide) rfl hw,
      clearRow 0 hc (by decide) rfl hw, clearRow 1 hc (by decide) rfl hw, clearRow 2 hc (by decide) rfl hw,
      clearRow 0 hc (by decide) rfl hw, clearRow 1 hc (by decide) rfl hw, clearRow 0 hc (by decide) rfl hw,
      clearRow 1 hc (by decide) rfl hw, clearRow 0 hc (by decide) rfl hw, clearRow 0 hc (by decide) rfl hw,
      clearRow 0 hc (by decide) rfl hw, clearRow 1 hc (by decide) rfl hw, clearRow 2 hc (by decide) rfl hw,
      clearRow 0 hc (by decide) rfl hw, clearRow 1 hc (by decide) rfl hw]
  · exact ⟨_, rfl, State.write8_clearSusp hc hw⟩

end Sys2Proof.Machine
end

section
/-! SUPPORT. A small state of the package for counterexamples, and the clear of the accounting counters on it (R399). -/

namespace Sys2Proof.Machine

/-- The package with every die ready, port A linked, the Ridge's image released, and the words `l` stored besides. -/
def State.ready (l : Table Word) : State :=
  { State.reset with
    linkA := true, tb := 100000, dies := (List.range 64).map fun d => (d, { Die.init with ready := true, prlReady := true })
    regs := (Off.RDG_BOOT, 1) :: l }

/-- An address within the accounting counters of context 0 at which no register stands. -/
def acctGap : Nat := ctxA 0 0x204

/-- Refutes O6: the clear of the accounting counters puts back every address from the first counter to the last, and so also a word stored
at an address between two of them, where no register stands. -/
theorem not_pageAndPipeClearRows : ¬ Obligations.PageAndPipeClearRows := by
  unfold Obligations.PageAndPipeClearRows
  intro h
  have hreach : WriteReaches (State.ready [(acctGap, 5)]) (.pf false) Off.RDG_ACCT_CLR := by
    refine ⟨rfl, ?_, ?_, ?_, ?_⟩ <;> decide +kernel
  obtain ⟨t, hrun, -, -, kept⟩ := h.1.2.2 _ _ 0 (by decide) hreach
  have hgap := kept acctGap (by decide)
  cases hrun
  revert hgap
  decide +kernel

end Sys2Proof.Machine
end

section
/-! SUPPORT. The rows that issue a due entry: what the issue leaves of the tile and its transfers, and what each row does beside it. -/

namespace Sys2Proof.Machine

/-! ## A due entry -/

theorem State.dueClass_class {s : State} {c t cls : Nat} {e : EntryBits} (h : s.dueClass c t cls = some e) : eClass e = cls := by
  simpa using (Option.filter_eq_some_iff.1 h).2

/-- An entry of another class than HOLD and COMMIT_IF is no hold. -/
theorem eIsHold_of_class {e : EntryBits} {cls : Nat} (h : eClass e = cls) (h1 : cls ≠ 0x01) (h2 : cls ≠ 0x49) : eIsHold e = false := by
  simp [eIsHold, h, h1, h2]

/-! ## What an issue leaves -/

section
variable {c t p : Nat} {e : EntryBits} {s u : State}

/-- An issue keeps the time. -/
theorem Issued.now (h : Issued c t e p s u) : u.now = s.now := by
  obtain ⟨⟨⟨hctxs, -⟩, -⟩, -⟩ := h
  rw [State.now, hctxs]
  exact congrArg BitVec.toNat (s.logged_tb c t e)

/-- An issue keeps the transfers under way. -/
theorem Issued.xfer (h : Issued c t e p s u) {id : Nat} (hid : id < (s.ctx c).nextXfer) : u.xfer c id = s.xfer c id := by
  obtain ⟨⟨-, -, -, -, hx⟩, -⟩ := h
  rw [hx id (by rwa [State.ctx_logged]), State.xfer, State.ctx_logged]
  rfl

/-- An issue keeps what the tile's units execute and its endpoints hold. -/
theorem Issued.tile_keeps (h : Issued c t e p s u) :
    (∀ k, (u.tile c t).unit k = (s.tile c t).unit k) ∧ (u.tile c t).tx = (s.tile c t).tx ∧ (u.tile c t).rx = (s.tile c t).rx
      ∧ (u.tile c t).prevA = s.now ∧ (u.tile c t).planned = (s.tile c t).planned + eOffset e := by
  obtain ⟨-, htile, -⟩ := h
  have fields : ∀ x : Tile, (∀ k, (x.consume e).unit k = x.unit k) ∧ (x.consume e).tx = x.tx ∧ (x.consume e).rx = x.rx := fun x =>
    ⟨fun k => by cases k <;> rfl, rfl, rfl⟩
  rw [htile]
  obtain ⟨hunit, htx, hrx⟩ := fields (s.tile c t)
  refine ⟨fun k => ?_, ?_, ?_, rfl, rfl⟩
  · rw [← hunit k]
    cases k <;> split <;> rfl
  · split <;> rfl
  · split <;> rfl

/-- A transfer that starts with the issue stands under the number that was next. -/
theorem Issued.started {engine ctr : Option Nat} {kind : XKind} {size rate pos : Nat} {segs : List Seg} {cache : Bool}
    (h : Issued c t e p (s.startXfer c t pos engine ctr kind size rate segs cache) u) :
    Started c t engine ctr kind size rate segs cache s u := by
  have hx := (h.xfer (by simp [State.startXfer, State.newXfer])).trans (s.newXfer_xfer c _)
  exact ⟨_, hx, rfl, rfl, rfl, rfl, rfl, rfl, rfl, rfl, rfl, rfl, rfl⟩

end

theorem State.issued_pos (s : State) (c t : Nat) (e : EntryBits) {p : Nat} (h : (s.tile c t).pos = p) : Issued c t e (p + 1) s (s.issue c t e) :=
  h ▸ s.issued_issue c t e

/-! ## NOP, HOLD, MARK and SIGNAL -/

/-- Transfers started one after another, for each element of a list: each stands under its own number. -/
theorem State.startEach_spec (c t p : Nat) (kind : Nat → XKind) (l : List Nat) (z : State) :
    let u := forAll l (fun v w => w.startXfer c t p none none (kind v) 0 1 [] false) z
    onlyTile c t z u ∧ u.now = z.now
      ∧ ∀ v ∈ l, ∃ id, (z.ctx c).nextXfer ≤ id ∧ id < (u.ctx c).nextXfer ∧ ∃ x, u.xfer c id = some x
          ∧ x.kind = kind v ∧ x.size = 0 ∧ x.issuedAt = z.now ∧ x.acceptedAt = none := by
  induction l generalizing z with
  | nil => exact ⟨onlyTile.refl c t z, rfl, fun _ h => nomatch h⟩
  | cons v r ih =>
    intro u
    have hnext : ((z.startXfer c t p none none (kind v) 0 1 [] false).ctx c).nextXfer = (z.ctx c).nextXfer + 1 := by
      simp [State.startXfer, State.newXfer]
    obtain ⟨hframe, hnow, hrest⟩ := ih (z.startXfer c t p none none (kind v) 0 1 [] false)
    have hgrow := hframe.2.2.2.1
    have hkept := hframe.2.2.2.2
    rw [hnext] at hgrow hkept
    refine ⟨(z.newXfer_onlyTile c t _).trans hframe, hnow, fun w hw => ?_⟩
    rcases List.mem_cons.1 hw with rfl | hw
    · have hx := (hkept _ (Nat.lt_succ_self _)).trans (z.newXfer_xfer c _)
      exact ⟨(z.ctx c).nextXfer, Nat.le_refl _, hgrow, _, hx, rfl, rfl, rfl, rfl⟩
    · obtain ⟨id, hge, hlt, x, hx⟩ := hrest w hw
      rw [hnext] at hge
      exact ⟨id, by omega, hlt, x, hx⟩

/-- Settles O7: NOP, HOLD and MARK issue and go on; a SIGNAL starts its transfers on the state that its issue leaves. -/
theorem plainEntriesAndSignalsIssue : Obligations.PlainEntriesAndSignalsIssue := by
  unfold Obligations.PlainEntriesAndSignalsIssue
  refine ⟨fun s c t e => ⟨fun h => ?_, fun h => ?_, fun h => ?_⟩, fun s c t e h => ?_⟩
  · exact ⟨_, by rw [exec_nop, execNop, h], s.issued_issue c t e⟩
  · exact ⟨_, by rw [exec_hold, execHold, h], s.issued_issue c t e⟩
  · exact ⟨_, by rw [exec_mark, execMark, h], _, s.issued_issue c t e, rfl⟩
  · have hissued := s.issued_issue c t e
    obtain ⟨hframe, -, hstarted⟩ :=
      State.startEach_spec c t (s.tile c t).pos (fun v => .signal v (ef e 198 193) (ef e 192 185)) (signalTargets e) (s.issue c t e)
    refine ⟨_, by rw [exec_signal, execSignal, h], _, hissued, hframe, fun v hv => ?_⟩
    obtain ⟨id, hge, -, x, hx, hkind, hsize, hat, hacc⟩ := hstarted v hv
    exact ⟨id, hge, x, hx, hkind, hsize, hat.trans hissued.now, hacc⟩

/-! ## REPEAT and END -/

theorem nextPos_again {r : Rep} (rest : List Rep) (h : r.index + 1 < r.passes) :
    nextPos (r.first + r.len) (r :: rest) = (r.first, { r with index := r.index + 1 } :: rest, true) := by
  rw [nextPos, if_pos rfl, if_pos h]

theorem nextPos_over {r : Rep} (rest : List Rep) (h : r.passes ≤ r.index + 1) :
    nextPos (r.first + r.len) (r :: rest) = nextPos (r.first + r.len) rest := by
  rw [nextPos, if_pos rfl, if_neg (Nat.not_lt.2 h)]

theorem nextPos_within {r : Rep} (rest : List Rep) {p : Nat} (h : p ≠ r.first + r.len) : nextPos p (r :: rest) = (p, r :: rest, false) := by
  rw [nextPos, if_neg h]

/-- The entry that follows a REPEAT of a body that is not empty, outside of sub-plans, is the first of its body. -/
theorem Tile.upNext_body {x : Tile} {r : Rep} {rest : List Rep} {p : Nat} (hr : x.reps = r :: rest) (hs : x.subEnd = none)
    (h : p ≠ r.first + r.len) : x.upNext p = (p, r :: rest, none) := by
  simp only [Tile.upNext, hs, hr, nextPos_within rest h]

/-- Cycles of a tile counted: CTX_TILE_CYCLES of its context alone, of the registers (R397). -/
theorem State.addCycles_spec (s : State) (c t n : Nat) :
    let a := ctxA c Off.CTX_TILE_CYCLES
    let u := s.addCycles c t n
    u.reg a = BitVec.ofNat 64 ((s.reg a).toNat + n) ∧ sameRegsBut [a] s u ∧ sameMemory s u ∧ u.ctxs = s.ctxs := by
  intro a u
  refine ⟨?_, fun b hb => ?_, ⟨rfl, rfl, rfl, rfl, rfl, rfl⟩, rfl⟩
  · have h : u.reg a = ins (s.reg a) 63 0 (s.rf a 63 0 + n) := s.reg_setReg_self a _
    have hf : s.rf a 63 0 = (s.reg a).toNat := by
      rw [State.rf_eq, fld, bits, pow_zero, Nat.div_one]
      exact Nat.mod_eq_of_lt (s.reg a).isLt
    rw [h, hf, ins, fld, bits, pow_zero, Nat.div_one, Nat.mul_one, Nat.mul_one, Nat.mod_eq_of_lt (s.reg a).isLt, Nat.sub_self, Nat.zero_add]
    exact BitVec.eq_of_toNat_eq (by simp)
  · exact sameRegsBut.setReg s a _ b hb

/-- Settles O8: a REPEAT puts its loop before those around it and goes on, the passes end as `nextPos` says, and END counts the tile's cycles. -/
theorem loopsAndEnd : Obligations.LoopsAndEnd := by
  unfold Obligations.LoopsAndEnd
  refine ⟨fun s c t e h => ?_, fun r rest => ⟨nextPos_again rest, nextPos_over rest, fun p => nextPos_within rest⟩,
    fun s c t e r h hr hstarted htile => ?_⟩
  · have hold := eIsHold_of_class (State.dueClass_class h) (by decide) (by decide)
    refine ⟨_, by rw [exec_repeatEntry, execRepeatEntry, h], ?_⟩
    obtain ⟨hframe, htile⟩ := s.issueAt_spec c t e
    rw [hold, if_neg Bool.false_ne_true] at htile
    dsimp only
    generalize hs1 : (s.issueAt c t e).modTile c t _ = s1
    have hx : s1.tile c t = { s.tile c t with
        prevA := s.now, planned := (s.tile c t).planned + eOffset e
        reps := ⟨(s.tile c t).pos + 1, ef e 215 205, ef e 204 185, 0⟩ :: (s.tile c t).reps } := by
      rw [← hs1, State.tile_modTile_self, htile]
    obtain ⟨hgoto, g, f, hy⟩ := s1.goto_spec c t ((s.tile c t).pos + 1)
    have hframe1 : onlyTile c t (s.logged c t e) s1 := hs1 ▸ hframe.trans (State.modTile_onlyTile _ c t _)
    refine ⟨hframe1.trans hgoto, ?_, ?_, ?_, fun hlen hsub => ?_⟩
    · rw [hy, hx]
    · rw [hy, hx]
    · rw [hy, hx]
    · have hnext := Tile.upNext_body (x := s1.tile c t) (p := (s.tile c t).pos + 1) (by rw [hx]) (by rw [hx]; exact hsub)
        (by dsimp only; omega)
      rw [hy, hnext]
      exact ⟨rfl, rfl, rfl⟩
  · have hold := eIsHold_of_class (State.dueClass_class h) (by decide) (by decide)
    obtain ⟨⟨⟨hctxs, hothers⟩, hctx, htiles, -⟩, hissue⟩ := s.issueAt_spec c t e
    rw [hold, if_neg Bool.false_ne_true] at hissue
    have hrun : ((s.issueAt c t e).ctx c).running = some r := by rw [hctx, State.ctx_logged]; exact hr
    have hcharge : (s.issueAt c t e).chargeTile c t (s.now + 1) = (s.issueAt c t e).addCycles c t (s.now + 1 - r.chargedFrom) := by
      unfold State.chargeTile
      rw [hrun]
      simp [hstarted, hissue, htile]
    refine ⟨_, by rw [exec_endEntry, execEndEntry, h], ?_⟩
    dsimp only
    rw [hcharge]
    obtain ⟨hreg, hregs, hmem, hkeep⟩ := (s.issueAt c t e).addCycles_spec c t (s.now + 1 - r.chargedFrom)
    have hlogged : (s.issueAt c t e).regs = (s.logged c t e).regs := by rw [hctxs]
    generalize (s.issueAt c t e).addCycles c t (s.now + 1 - r.chargedFrom) = z at hreg hregs hmem hkeep
    have hctxz : ∀ k, z.ctx k = (s.issueAt c t e).ctx k := fun k => by rw [State.ctx, State.ctx, hkeep]
    have htilez : ∀ v, z.tile c v = (s.issueAt c t e).tile c v := fun v => by rw [State.tile, State.tile, hctxz]
    have hregz : ∀ a, (s.issueAt c t e).reg a = (s.logged c t e).reg a := fun a => by rw [State.reg, State.reg, hlogged]
    refine ⟨?_, ?_, ?_, fun v hv => ?_, fun k hk => ?_, ?_, ?_, fun a ha => ?_, ?_⟩
    · rw [State.tile_modTile_self]
    · rw [State.tile_modTile_self, htilez, hissue]
    · rw [State.tile_modTile_self, htilez, hissue]
    · rw [State.tile_modTile, if_neg fun g => hv g.2, htilez, htiles v hv, State.tile_logged]
    · rw [State.modTile_eq, State.ctx_setCtx, if_neg hk, hctxz, hothers k hk, State.ctx_logged]
    · rw [State.modTile_eq, State.ctx_setCtx_self, hctxz]
      exact hrun
    · rw [State.modTile_eq, State.reg_of_setCtx, hreg, hregz]
    · rw [State.modTile_eq, State.reg_of_setCtx, hregs a ha, hregz]
    · rw [hctxs] at hmem
      exact hmem

/-! ## Compute entries -/

/-- An entry issues to its idle unit, which executes its operation. -/
theorem State.issueUnit_idle {s : State} {c t : Nat} {e : EntryBits} {k : UnitKind} (op : UnitOp) (h : (s.tile c t).unit k = none) :
    let o := op.begun e (s.tile c t).pos s.now
    let u := s.issueUnit c t e k op
    Issued c t e ((s.tile c t).pos + 1) (s.modTile c t fun y => y.setUnit k (some o)) u ∧ (u.tile c t).unit k = some o := by
  intro o u
  have hu : u = (s.modTile c t fun y => y.setUnit k (some o)).issue c t e := by
    simp only [u, o, State.issueUnit, h, Option.isSome_none, Bool.false_eq_true, if_false]
  have hpos : ((s.modTile c t fun y => y.setUnit k (some o)).tile c t).pos = (s.tile c t).pos := by
    rw [State.tile_modTile_self]
    cases k <;> rfl
  have hissued := State.issued_pos _ c t e hpos
  rw [← hu] at hissued
  refine ⟨hissued, ?_⟩
  rw [hissued.tile_keeps.1 k, State.tile_modTile_self]
  cases k with
  | matrix | vector | special => rfl
  | stream n => simp [Tile.unit, Tile.setUnit, Table.get?_set]

/-- Settles O9: every compute entry issues to the idle unit that its class names. -/
theorem computeEntriesIssue : Obligations.ComputeEntriesIssue := by
  unfold Obligations.ComputeEntriesIssue
  refine ⟨fun s c t e r hr => ?_, fun s c t e hidle => ⟨fun hdue hclip => ?_, fun hdue => ?_⟩⟩
  · intro op hdue hidle
    have row := fun (o : Out) (h : o = .next (s.issueUnit c t e r.2.2.1 r.2.2.2)) => (⟨_, h, State.issueUnit_idle _ hidle⟩ :
      ∃ u, o = .next u ∧ Issued c t e ((s.tile c t).pos + 1) (s.modTile c t fun y => y.setUnit r.2.2.1 (some op)) u
        ∧ (u.tile c t).unit r.2.2.1 = some op)
    refine row _ ?_
    simp only [List.mem_cons, List.not_mem_nil, or_false] at hr
    rcases hr with rfl | rfl | rfl | rfl | rfl | rfl | rfl | rfl
    · rw [exec_mma, execMma, hdue]
    · rw [exec_mmaSparse, execMmaSparse, hdue]
    · rw [exec_conv, execConv, hdue]
    · rw [exec_vec, execVec, hdue]
    · rw [exec_gnsStat, execGnsStat, hdue]
    · rw [exec_sfu, execSfu, hdue]
    · rw [exec_normStat, execNormStat, hdue]
    · rw [exec_softmax, execSoftmax, hdue]
  · have hok : ¬ ((((s.tile c t).vector).isNone && eb e 69 && !s.slotApplied c (ef e 71 70)) = true) := by
      cases hb : eb e 69 with
      | false => simp
      | true => simp [hclip hb]
    refine ⟨s.issueUnit c t e .vector (s.updUnit c t e), ?_, State.issueUnit_idle (k := .vector) _ hidle⟩
    rw [exec_upd, execUpd, hdue]
    exact if_neg hok
  · obtain ⟨hissued, hunit⟩ := State.issueUnit_idle (s := s) (c := c) (t := t) (e := e) (k := .vector) (s.rngUnit c t e) hidle
    refine ⟨_, ?_, _, hissued, State.modTile_onlyTile _ c t fun x => { x with uv1600 := (s.rngWords c t e).2 }, State.tile_modTile_self _ _ _ _, ?_⟩
    · rw [exec_rngFill, execRngFill, hdue]
      exact if_neg (by simp [hidle])
    · rw [State.tile_modTile_self]
      exact hunit

/-! ## Entries that issue a transfer -/

/-- An entry issues its transfer where its engine's queue has a place. -/
theorem State.issuesXfer (s : State) (c t : Nat) (e : EntryBits) (k : Nat) (ctr : Option Nat) (kind : XKind) (size rate : Nat) (segs : List Seg)
    (cache : Bool) :
    IssuesXfer c t e k ctr kind size rate segs cache s
      ((s.startXfer c t (s.tile c t).pos (some k) ctr kind size rate segs cache).issue c t e) := by
  have hissued := State.issued_pos (s.startXfer c t (s.tile c t).pos (some k) ctr kind size rate segs cache) c t e
    (congrArg Tile.pos (s.newXfer_tile c _ c t))
  exact ⟨hissued.started, hissued⟩

theorem State.issueXfer_place {s : State} {c t k : Nat} (e : EntryBits) (ctr : Option Nat) (kind : XKind) (size rate : Nat) (segs : List Seg)
    (cache : Bool) (h : s.engineLoad c t k < 4) :
    IssuesXfer c t e k ctr kind size rate segs cache s (s.issueXfer c t e k ctr kind size rate segs cache) := by
  unfold State.issueXfer
  rw [if_neg (Nat.not_le.2 h)]
  exact s.issuesXfer c t e k ctr kind size rate segs cache

theorem State.issueSlot_place {s : State} {c t : Nat} {e : EntryBits} (kind : XKind) (d : Bits512) (h : s.engineLoad c t (ef e 213 211) < 4) :
    IssuesXfer c t e (ef e 213 211) (some (ef e 210 205)) kind (slotSize e d) (streamDesc d).rate [] (streamDesc d).cache s
      (s.issueSlot c t e kind d) := by
  unfold State.issueSlot
  dsimp only
  rw [if_neg (Nat.not_le.2 h)]
  exact s.issuesXfer c t e _ _ _ _ _ _ _

/-- Settles O10: streams and slot moves start their transfer, and an ASSIGN its operation on an engine without transfers. -/
theorem transferEntriesAndAssignIssue : Obligations.TransferEntriesAndAssignIssue := by
  unfold Obligations.TransferEntriesAndAssignIssue
  refine ⟨fun s c t e => ⟨fun a ha hload => ⟨fun hdue => ?_, fun hdue => ?_⟩, fun hload r hr hdue => ?_⟩, fun s c t e hdue hload => ?_⟩
  · refine ⟨_, by rw [exec_streamIn, execStreamIn, hdue], ?_⟩
    dsimp only [State.issueStream]
    rw [ha]
    exact State.issueXfer_place e _ _ _ _ _ _ hload
  · refine ⟨_, by rw [exec_streamOut, execStreamOut, hdue], ?_⟩
    dsimp only [State.issueStream]
    rw [ha]
    exact State.issueXfer_place e _ _ _ _ _ _ hload
  · refine ⟨s.issueSlot c t e r.2.2 (s.slotDesc c t e), ?_, State.issueSlot_place _ _ hload⟩
    simp only [List.mem_cons, List.not_mem_nil, or_false] at hr
    rcases hr with rfl | rfl | rfl
    · rw [exec_slotGather, execSlotGather, hdue]
    · rw [exec_slotScatter, execSlotScatter, hdue]
    · rw [exec_clear, execClear, hdue]
  · have hfree : (s.tile c t).unit (.stream (ef e 213 211)) = none := by
      have hnone : ¬ (Table.get? (s.tile c t).streams (ef e 213 211)).isSome = true := by
        intro hsome
        rw [State.engineLoad, if_pos hsome] at hload
        omega
      simpa [Tile.unit] using hnone
    refine ⟨s.issueUnit c t e (.stream (ef e 213 211)) (s.assignUnit c t e), ?_, State.issueUnit_idle _ hfree⟩
    rw [exec_assign, execAssign, hdue, State.issueUnit]
    simp only [hload, hfree]
    rfl

/-- Settles O11: with the link entry that the plan was checked against, a packet's transfer starts. -/
theorem queueEntriesIssue : Obligations.QueueEntriesIssue := by
  unfold Obligations.QueueEntriesIssue
  refine fun s c t e k hlink => ⟨fun hdue hen hlen hload => ?_, fun hdue hen hlen hload => ?_⟩
  · refine ⟨_, ?_, State.issueXfer_place e _ _ _ _ _ _ hload⟩
    rw [exec_qpush, execQpush, hdue]
    simp only [hlink]
    rw [if_neg (by simpa [hen] using hlen)]
  · refine ⟨_, ?_, State.issueXfer_place e _ _ _ _ _ _ hload⟩
    rw [exec_qpop, execQpop, hdue]
    simp only [hlink]
    rw [if_neg (by simpa [hen] using hlen)]

/-! ## Endpoints -/

theorem State.txEp_modTx (s : State) (c t k j : Nat) (f : TxEp → TxEp) :
    (s.modTx c t k f).txEp c t j = if j = k then f (s.txEp c t k) else s.txEp c t j := by
  unfold State.txEp State.modTx
  rw [State.tile_modTile_self, Table.getD_put]

theorem State.rxEp_modRx (s : State) (c t k j : Nat) (f : RxEp → RxEp) :
    (s.modRx c t k f).rxEp c t j = if j = k then f (s.rxEp c t k) else s.rxEp c t j := by
  unfold State.rxEp State.modRx
  rw [State.tile_modTile_self, Table.getD_put]

theorem Issued.txEp {c t p : Nat} {e : EntryBits} {s u : State} (h : Issued c t e p s u) (j : Nat) : u.txEp c t j = s.txEp c t j := by
  obtain ⟨-, htx, -⟩ := h.tile_keeps
  rw [State.txEp, State.txEp, htx]

theorem Issued.rxEp {c t p : Nat} {e : EntryBits} {s u : State} (h : Issued c t e p s u) (j : Nat) : u.rxEp c t j = s.rxEp c t j := by
  obtain ⟨-, -, hrx, -⟩ := h.tile_keeps
  rw [State.rxEp, State.rxEp, hrx]

/-- An endpoint that takes the operands of an entry, which then issues: it holds them, the others stay. -/
theorem State.armed_spec (s : State) (c t k : Nat) (e : EntryBits) (f : RxEp → RxEp) :
    let u := (s.modRx c t k f).issue c t e
    u.rxEp c t k = f (s.rxEp c t k) ∧ (∀ j, j ≠ k → u.rxEp c t j = s.rxEp c t j) ∧ (u.tile c t).prevA = s.now := by
  intro u
  have hissued := (s.modRx c t k f).issued_issue c t e
  refine ⟨?_, fun j hj => ?_, hissued.tile_keeps.2.2.2.1⟩
  · rw [hissued.rxEp, State.rxEp_modRx, if_pos rfl]
  · rw [hissued.rxEp, State.rxEp_modRx, if_neg hj]

/-- The endpoint of a SEND that issues at position `p` (R90). -/
def TxEp.taken (x : TxEp) (e : EntryBits) (p now : Nat) : TxEp :=
  { x with
    busy := true, target := ef e 215 199, rxEp := ef e 198 195, len := ef e 190 183 + 1, srcLine := ef e 182 171, ackCtr := ef e 170 165
    retries := ef e 164 161, rgap := ef e 160 149, rate := ef e 148 133, position := p, lastTry := now, nackAt := none }

/-- The endpoint of a message that is tried again after a wait of `n` cycles (R90). -/
def TxEp.again (x : TxEp) (now n : Nat) : TxEp :=
  { x with nackAt := none, lastTry := now, retries := x.retries - 1, stall := BitVec.ofNat 32 (satPlus 32 x.stall.toNat n) }

/-- An endpoint that changes and starts an attempt: the attempt takes its operands, the other endpoints stay. -/
theorem State.attempt_spec (s : State) (c t k : Nat) (f : TxEp → TxEp) :
    let u := (s.modTx c t k f).attempt c t k
    (∀ j, u.txEp c t j = if j = k then f (s.txEp c t k) else s.txEp c t j)
      ∧ Started c t none none (.message k) (f (s.txEp c t k)).len (f (s.txEp c t k)).rate [] false s u ∧ onlyTile c t s u
      ∧ (s.ctx c).nextXfer < (u.ctx c).nextXfer := by
  intro u
  have hep := s.txEp_modTx c t k k f
  rw [if_pos rfl] at hep
  have hnext : ((s.modTx c t k f).ctx c).nextXfer = (s.ctx c).nextXfer := by simp [State.modTx, Ctx.modTile]
  have hx := (s.modTx c t k f).newXfer_xfer c
  rw [hnext] at hx
  have hgrow : (u.ctx c).nextXfer = ((s.modTx c t k f).ctx c).nextXfer + 1 := by
    simp only [u, State.attempt, State.startXfer, State.newXfer, State.modCtx_eq, State.ctx_setCtx_self]
  refine ⟨fun j => ?_, ⟨_, hx _, rfl, rfl, rfl, rfl, ?_, ?_, rfl, rfl, rfl, rfl, rfl⟩, ?_, ?_⟩
  · rw [← s.txEp_modTx c t k j f, State.txEp, State.txEp]
    simp only [u, State.attempt, State.startXfer, State.newXfer_tile]
  · rw [hep]
  · rw [hep]
  · exact (s.modTile_onlyTile c t _).trans (State.newXfer_onlyTile _ c t _)
  · omega

/-- A transfer that has started stays over an issue. -/
theorem Started.issued {c t p : Nat} {e : EntryBits} {engine ctr : Option Nat} {kind : XKind} {size rate : Nat} {segs : List Seg} {cache : Bool}
    {s z u : State} (h : Started c t engine ctr kind size rate segs cache s z) (hlt : (s.ctx c).nextXfer < (z.ctx c).nextXfer)
    (hi : Issued c t e p z u) : Started c t engine ctr kind size rate segs cache s u := by
  obtain ⟨x, hx, rest⟩ := h
  exact ⟨x, (hi.xfer hlt).trans hx, rest⟩

theorem exec_send_idle {s : State} {c t : Nat} {e : EntryBits} (hdue : s.dueClass c t 0x38 = some e)
    (hidle : (s.txEp c t (ef e 194 191)).busy = false) :
    exec (.send c t) s = .next (((s.modTx c t (ef e 194 191) fun x => x.taken e (s.tile c t).pos s.now).attempt c t (ef e 194 191)).issue c t e) := by
  rw [exec_send, execSend, hdue]
  exact if_neg (by simp [hidle])

/-- What a retry leaves of the record of the cycle: the wait, counted for CTX_CHSTALL (R90). -/
def State.countStall (s : State) (c t ep n : Nat) : State :=
  s.noteCount (chanKey c t ep false) 53 (s.countedIn (chanKey c t ep false) 53 + n)

theorem exec_sendRetry_due {s : State} {c t ep n : Nat} (hnack : (s.txEp c t ep).nackAt = some n) (hbusy : (s.txEp c t ep).busy = true)
    (hgap : (s.txEp c t ep).lastTry + (s.txEp c t ep).rgap ≤ s.now) (hn : n ≤ s.now) :
    exec (.sendRetry c t ep) s =
      .next (((s.countStall c t ep (s.now - n)).modTx c t ep fun x => x.again s.now (s.now - n)).attempt c t ep) := by
  rw [exec_sendRetry, execSendRetry, hnack]
  exact if_neg (by simp only [hbusy]; simp; omega)

/-- Settles O12: an endpoint takes the operands of its entry; a SEND and a retry start an attempt with those of its endpoint. -/
theorem channelEntriesIssue : Obligations.ChannelEntriesIssue := by
  unfold Obligations.ChannelEntriesIssue
  refine ⟨⟨fun s c t e hdue hidle => ?_, fun s c t ep n hnack hbusy hgap hn => ?_⟩, fun s c t e hfree => ⟨fun hdue => ?_, fun hdue => ?_⟩⟩
  · refine ⟨_, exec_send_idle hdue hidle, ?_⟩
    obtain ⟨heps, hstarted, -, hlt⟩ := s.attempt_spec c t (ef e 194 191) fun x => x.taken e (s.tile c t).pos s.now
    have hissued := State.issued_issue ((s.modTx c t (ef e 194 191) fun x => x.taken e (s.tile c t).pos s.now).attempt c t (ef e 194 191)) c t e
    refine ⟨?_, fun j hj => ?_, hstarted.issued hlt hissued⟩
    · rw [hissued.txEp, heps, if_pos rfl]
      rfl
    · rw [hissued.txEp, heps, if_neg hj]
  · refine ⟨_, exec_sendRetry_due hnack hbusy hgap hn, ?_⟩
    obtain ⟨heps, hstarted, hframe, -⟩ := (s.countStall c t ep (s.now - n)).attempt_spec c t ep fun x => x.again s.now (s.now - n)
    exact ⟨(heps ep).trans (if_pos rfl), hstarted, hframe⟩
  · refine ⟨_, by rw [exec_recv, execRecv, hdue]; exact if_neg (by simp [hfree]), ?_⟩
    exact s.armed_spec c t _ e _
  · refine ⟨_, by rw [exec_combine, execCombine, hdue]; exact if_neg (by simp [hfree]), ?_⟩
    exact s.armed_spec c t _ e _

end Sys2Proof.Machine
end

section
/-! SUPPORT. A context fault that takes effect (R401): what is left of the context, the completions of its launches, the site of its
first schedule fault. -/

namespace Sys2Proof.Machine

/-! ## What is left of a stopped context -/

/-- Nothing of a context runs, is queued or is in flight but writes that have left their tiles (R401). -/
structure Ctx.Torn (x : Ctx) : Prop where
  running : x.running = none
  queue : x.queue = []
  insts : x.insts = []
  due : x.due = []
  xfers : ∀ e ∈ x.xfers, e.2.orphan = true
  tiles : ∀ e ∈ x.tiles, e.2.running = false ∧ e.2.matrix = none ∧ e.2.vector = none ∧ e.2.special = none ∧ e.2.streams = []

theorem State.orphans_orphan (s : State) (c : Nat) : ∀ e ∈ s.orphans c, e.2.orphan = true := by
  intro e he
  obtain ⟨x, _, rfl⟩ := List.mem_map.mp he
  rfl

theorem Ctx.stopped_torn {left : Table Xfer} (h : ∀ e ∈ left, e.2.orphan = true) (x : Ctx) : (x.stopped left).Torn := by
  refine ⟨rfl, rfl, rfl, rfl, h, fun e he => ?_⟩
  obtain ⟨t, _, rfl⟩ := List.mem_map.mp he
  exact ⟨rfl, rfl, rfl, rfl, rfl⟩

/-- A table of links or queues may change in a context that is torn down. -/
theorem Ctx.Torn.congr {x y : Ctx} (h : x.Torn) (hrun : y.running = x.running) (hq : y.queue = x.queue) (hi : y.insts = x.insts)
    (hd : y.due = x.due) (hx : y.xfers = x.xfers) (ht : y.tiles = x.tiles) : y.Torn := by
  obtain ⟨h1, h2, h3, h4, h5, h6⟩ := h
  exact ⟨hrun.trans h1, hq.trans h2, hi.trans h3, hd.trans h4, hx ▸ h5, ht ▸ h6⟩

/-- Deadlines put in order change nothing of a transfer but its deadline (R173). -/
theorem raiseDeadlines_orphan (l : List Nat) {xs : Table Xfer} {n : Nat} (h : ∀ e ∈ xs, e.2.orphan = true) :
    ∀ e ∈ (raiseDeadlines xs n l).1, e.2.orphan = true := by
  induction l generalizing xs n with
  | nil => exact h
  | cons id r ih =>
    unfold raiseDeadlines
    split
    · exact ih h
    · next x hx =>
      refine ih fun e he => ?_
      rcases Table.mem_set he with rfl | he
      · exact h (id, x) (Table.mem_of_get? hx)
      · exact h e he

theorem Ctx.linkOrder_torn {x : Ctx} (h : x.Torn) : x.linkOrder.Torn := by
  unfold Ctx.linkOrder
  refine List.foldlRecOn x.queues _ (motive := fun y : Ctx => y.Torn) h fun y hy e _ => ?_
  split
  · exact hy
  · obtain ⟨h1, h2, h3, h4, h5, h6⟩ := hy
    exact ⟨h1, h2, h3, h4, raiseDeadlines_orphan _ h5, h6⟩

variable {c : Nat}

theorem State.dropXfer_torn {s : State} (h : (s.ctx c).Torn) (id : Nat) : ((s.dropXfer c id).ctx c).Torn := by
  obtain ⟨h1, h2, h3, h4, h5, h6⟩ := h
  rw [State.dropXfer, State.modCtx_eq, State.ctx_setCtx_self]
  exact ⟨h1, h2, h3, h4, fun e he => h5 e (List.mem_of_mem_filter he), h6⟩

theorem State.modQueue_torn {s : State} (h : (s.ctx c).Torn) (l : Nat) (f : Queue → Queue) : ((s.modQueue c l f).ctx c).Torn := by
  rw [State.modQueue, State.modCtx_eq, State.ctx_setCtx_self]
  exact h.congr rfl rfl rfl rfl rfl rfl

/-- Steps of which each keeps a property keep it together. -/
theorem forAll_induct {α : Type} {P : State → Prop} {f : α → State → State} (hf : ∀ a s, P s → P (f a s)) (l : List α) {s : State}
    (h : P s) : P (forAll l f s) := by
  unfold forAll
  induction l generalizing s with
  | nil => exact h
  | cons a r ih => exact ih (hf a s h)

theorem State.sendLinkctl_none_ctxs (s : State) (k : Nat) : (s.sendLinkctl k none).ctxs = s.ctxs := rfl

theorem State.sendLinkctl_none_regs (s : State) (k : Nat) : (s.sendLinkctl k none).regs = s.regs := rfl

/-- What bringing a queue's flow state up to date can do: nothing, change the queue, or tell the peer beside (R182). -/
theorem State.flowUpdate_cases (s : State) (c l : Nat) :
    s.flowUpdate c l = s ∨ ∃ f, s.flowUpdate c l = s.modQueue c l f ∨ ∃ k, s.flowUpdate c l = (s.modQueue c l f).sendLinkctl k none := by
  unfold State.flowUpdate
  split
  · exact .inl rfl
  · next e _ =>
    by_cases h : (s.queue c l).flow e = (s.queue c l).off
    · exact .inl (if_pos h)
    · refine .inr ⟨fun q => if (s.queue c l).flow e then { q with off := true, offAt := s.now }
        else { q with off := false, turnedOnAt := some s.now }, ?_⟩
      dsimp only
      rw [if_neg h]
      cases (s.queue c l).peer with
      | none => exact .inl rfl
      | some n => exact .inr ⟨linkKey n, rfl⟩

theorem State.flowUpdate_torn {s : State} (h : (s.ctx c).Torn) (l : Nat) : ((s.flowUpdate c l).ctx c).Torn := by
  obtain he | ⟨f, he | ⟨k, he⟩⟩ := s.flowUpdate_cases c l
  · rwa [he]
  · rw [he]
    exact State.modQueue_torn h l f
  · rw [he, State.ctx, State.sendLinkctl_none_ctxs]
    exact State.modQueue_torn h l f

theorem State.flushQueue_torn {s : State} (h : (s.ctx c).Torn) (l : Nat) : ((s.flushQueue c l).ctx c).Torn := by
  unfold State.flushQueue
  extract_lets q a gone s1 s2
  have h1 : (s1.ctx c).Torn :=
    forAll_induct (P := fun t => (t.ctx c).Torn) (fun id t ht => State.dropXfer_torn ht id) gone (State.modQueue_torn h l _)
  have h2 : keepsCtxs s1 s2 := ((s1.wf_keeps a 31 0 _).trans (State.wf_keeps _ a 41 32 l)).trans (State.wf_keeps _ a 42 42 _)
  have h3 : (s2.ctx c).Torn := by
    rw [State.ctx, h2.1]
    exact h1
  exact State.flowUpdate_torn h3 l

theorem State.refreshPromise_torn {s : State} (h : (s.ctx c).Torn) : ((s.refreshPromise c).ctx c).Torn := by
  unfold State.refreshPromise
  extract_lets a old new s1
  have h1 : (s1.ctx c).Torn := h
  split
  · exact h
  · split
    · obtain ⟨h1, h2, h3, h4, h5, h6⟩ := h1
      rw [State.modCtx_eq, State.ctx_setCtx_self]
      refine Ctx.linkOrder_torn ⟨h1, h2, h3, h4, fun e he => ?_, h6⟩
      obtain ⟨x, hx, rfl⟩ := List.mem_map.mp he
      have := h5 x hx
      dsimp only
      split <;> exact this
    · split <;> exact h1

/-- A context that is stopped is torn down. -/
theorem State.stopCtx_torn (s : State) (c : Nat) : ((s.stopCtx c).ctx c).Torn := by
  have hstop : (((((s.chargeAll c (s.now + 1)).faultVotes c).modCtx c (Ctx.stopped (s.orphans c))).dropPackets c).ctx c).Torn := by
    change ((((s.chargeAll c (s.now + 1)).faultVotes c).modCtx c (Ctx.stopped (s.orphans c))).ctx c).Torn
    rw [State.modCtx_eq, State.ctx_setCtx_self]
    exact Ctx.stopped_torn (s.orphans_orphan c) _
  exact State.refreshPromise_torn
    (forAll_induct (P := fun t => (t.ctx c).Torn) (fun e t ht => State.flushQueue_torn ht e.1) _ hstop)

/-! ## The completions of its launches -/

theorem mem_insertSeq {p q : BitVec 32} (l : List (BitVec 32)) : p ∈ insertSeq q l ↔ p = q ∨ p ∈ l := by
  induction l with
  | nil => simp [insertSeq]
  | cons x r ih =>
    rw [insertSeq]
    split
    · simp
    · simp only [List.mem_cons, ih]
      tauto

theorem mem_sortSeqs {p : BitVec 32} (l : List (BitVec 32)) : p ∈ l.foldr insertSeq [] ↔ p ∈ l := by
  induction l with
  | nil => simp
  | cons x r ih => rw [List.foldr_cons, mem_insertSeq, ih, List.mem_cons]

/-- A completion with FAULTED of the launch of SEQ `q` awaits the end of the cycle. -/
def State.faulted (s : State) (c : Nat) (q : BitVec 32) : Prop :=
  ∃ x, (RingOf.ctx c, x) ∈ s.cycle.done ∧ x.seq = q ∧ x.op = 2 ∧ x.status = 10

theorem State.faultLaunches_ctxs (s : State) (c code : Nat) (l : List (BitVec 32)) : (s.faultLaunches c code l).ctxs = s.ctxs := by
  unfold State.faultLaunches
  exact forAll_induct (P := fun t => t.ctxs = s.ctxs) (f := fun q t => t.complete (.ctx c) (t.cpl q 2 10 code 0)) (fun q t ht => ht) _ rfl

theorem State.faultLaunches_faulted (s : State) (c code : Nat) (l : List (BitVec 32)) : ∀ q ∈ l, (s.faultLaunches c code l).faulted c q := by
  intro q hq
  unfold State.faultLaunches forAll
  replace hq := (mem_sortSeqs l).mpr hq
  generalize l.foldr insertSeq [] = k at hq
  have keep : ∀ (k : List (BitVec 32)) (t : State), t.faulted c q →
      (k.foldl (fun t q => t.complete (.ctx c) (t.cpl q 2 10 code 0)) t).faulted c q := fun k t h =>
    forAll_induct (P := fun t => t.faulted c q)
      (fun p t ⟨x, hx, h⟩ => ⟨x, List.mem_append_left _ hx, h⟩) k h
  induction k generalizing s with
  | nil => cases hq
  | cons p r ih =>
    rw [List.foldl_cons]
    rcases List.mem_cons.mp hq with rfl | hr
    · exact keep r _ ⟨_, List.mem_append_right _ (List.mem_singleton.mpr rfl), rfl, rfl, rfl⟩
    · exact ih _ hr

/-! ## The site of the first schedule fault -/

/-- The registers that the teardown of a context writes, by their offset in a page. -/
def stopWrites : List Nat :=
  [Off.CTX_TILE_CYCLES, Off.CTX_PROMISE, Off.CTX_QFLUSH_STS, Off.EAV_DROP, Off.CTX_IRQ_RAW, Off.CTX_IRQ_EN]

variable {a : Nat}

theorem State.reg_raiseCtx (s : State) (c b : Nat) (h : a % 2 ^ 12 ∉ stopWrites) : (s.raiseCtx c b).reg a = s.reg a := by
  have hraw : a % 2 ^ 12 ≠ ctxA c Off.CTX_IRQ_RAW % 2 ^ 12 := fun e => h (by rw [e, ctxA_mod c (by decide)]; decide)
  have hen : a % 2 ^ 12 ≠ ctxA c Off.CTX_IRQ_EN % 2 ^ 12 := fun e => h (by rw [e, ctxA_mod c (by decide)]; decide)
  have hset : ∀ raw en, (s.setCtxIrq c raw en).reg a = s.reg a := fun raw en => by
    unfold State.setCtxIrq
    refine (State.reg_forAll _ _ (fun b t => ?_) _).trans
      ((State.reg_setReg_ne _ _ (homeAddr_ne_of_mod hen)).trans (s.reg_setReg_ne _ (homeAddr_ne_of_mod hraw)))
    split <;> rfl
  exact hset _ _

theorem State.reg_sendCtl (s : State) (node typ obj d : Nat) (ep : BitVec 16) (m : CtlMsg) (h : a % 2 ^ 12 ∉ stopWrites) :
    (s.sendCtl node typ obj d ep m).reg a = s.reg a := by
  unfold State.sendCtl State.postCtl
  split
  · rfl
  · split
    · rfl
    · split
      · exact s.reg_sat_of_mod 15 0 1 fun e => h (by rw [e, bar0_mod _ _ (by decide)]; decide)
      · rfl

theorem State.reg_faultVote (s : State) (c v : Nat) (r : Running) (x : Slot) (h : a % 2 ^ 12 ∉ stopWrites) :
    (s.faultVote c v r x).reg a = s.reg a := by
  have held : ∀ (t : State) g q v x, (t.holdVote g q v x).reg a = t.reg a := fun t g q v x => by
    unfold State.holdVote
    split
    · rfl
    · split <;> rfl
  have cleared : ∀ (t : State) g q v, (t.clearVotes g q v).reg a = t.reg a := fun t g q v => by
    unfold State.clearVotes
    split <;> rfl
  have decided : ∀ t : State, (t.deadDecide c v r x).reg a = t.reg a := fun t => by
    unfold State.deadDecide
    split
    · split
      · rfl
      · exact (State.reg_forAll _ _ (fun m u => u.reg_sendCtl _ _ _ _ _ _ h) _).trans (cleared _ _ _ _)
    · rfl
  unfold State.faultVote
  split
  · split
    · rfl
    · split
      · exact (decided _).trans (held _ _ _ _ _)
      · exact s.reg_sendCtl _ _ _ _ _ _ h
  · rfl

theorem State.reg_flushQueue (s : State) (c l : Nat) (h : a % 2 ^ 12 ∉ stopWrites) : (s.flushQueue c l).reg a = s.reg a := by
  have hq : a % 2 ^ 12 ≠ ctxA c Off.CTX_QFLUSH_STS % 2 ^ 12 := fun e => h (by rw [e, ctxA_mod c (by decide)]; decide)
  have flow : ∀ t : State, (t.flowUpdate c l).reg a = t.reg a := fun t => by
    obtain he | ⟨f, he | ⟨k, he⟩⟩ := t.flowUpdate_cases c l
    · rw [he]
    · rw [he]
      rfl
    · rw [he, State.reg, State.sendLinkctl_none_regs]
      rfl
  unfold State.flushQueue
  extract_lets q b gone s1 s2
  have h1 : s1.reg a = s.reg a := State.reg_forAll gone (fun id t => t.dropXfer c id) (fun id t => rfl) _
  have h2 : s2.reg a = s1.reg a :=
    (State.reg_wf_of_mod _ _ _ _ hq).trans ((State.reg_wf_of_mod _ _ _ _ hq).trans (s1.reg_wf_of_mod _ _ _ hq))
  rw [flow, h2, h1]

theorem State.reg_chargeAll (s : State) (c n : Nat) (h : a % 2 ^ 12 ∉ stopWrites) : (s.chargeAll c n).reg a = s.reg a := by
  have hc : a % 2 ^ 12 ≠ ctxA c Off.CTX_TILE_CYCLES % 2 ^ 12 := fun e => h (by rw [e, ctxA_mod c (by decide)]; decide)
  have cycles : ∀ (t : State) (u n : Nat), (t.addCycles c u n).reg a = t.reg a := fun t u n => by
    unfold State.addCycles
    exact t.reg_wf_of_mod 63 0 _ hc
  have tile : ∀ (t : State) (u n : Nat), (t.chargeTile c u n).reg a = t.reg a := fun t u n => by
    unfold State.chargeTile
    split
    · rfl
    · rw [apply_ite (fun z : State => z.reg a), cycles, ite_self]
  exact State.reg_forAll (s.ctx c).tiles (fun e t => t.chargeTile c e.1 n) (fun e t => tile t _ _) s

theorem State.reg_faultVotes (s : State) (c : Nat) (h : a % 2 ^ 12 ∉ stopWrites) : (s.faultVotes c).reg a = s.reg a := by
  unfold State.faultVotes
  refine State.reg_forAll _ _ (fun r u => ?_) s
  exact State.reg_forAll (r.slots.filter (·.2.isOpen)) _ (fun e w => w.reg_faultVote c _ _ _ h) u

theorem State.reg_flushQueues (s : State) (c : Nat) (h : a % 2 ^ 12 ∉ stopWrites) : (s.flushQueues c).reg a = s.reg a := by
  unfold State.flushQueues
  exact State.reg_forAll _ _ (fun e u => u.reg_flushQueue c _ h) s

/-- The teardown of a context leaves every register but those that it writes. -/
theorem State.reg_stopCtx (s : State) (c : Nat) (h : a % 2 ^ 12 ∉ stopWrites) : (s.stopCtx c).reg a = s.reg a := by
  have dropped : ∀ (u : State) (f : Ctx → Ctx), ((u.modCtx c f).dropPackets c).reg a = u.reg a := fun u f => rfl
  unfold State.stopCtx
  rw [State.reg_refreshPromise _ c (fun e => h (by rw [e]; decide)), State.reg_flushQueues _ c h, dropped, State.reg_faultVotes _ c h,
    State.reg_chargeAll _ c _ h]

theorem State.reg_afterFault (s : State) (c : Nat) (l : List (BitVec 32)) (h : a % 2 ^ 12 ∉ stopWrites) :
    (s.afterFault c l).reg a = s.reg a := by
  have launches : ∀ (t : State) (code : Nat), (t.faultLaunches c code l).reg a = t.reg a := fun t code =>
    State.reg_forAll _ (fun q u => u.complete (.ctx c) (u.cpl q 2 10 code 0)) (fun q u => rfl) t
  unfold State.afterFault
  exact (launches _ _).trans ((State.reg_stopCtx _ c h).trans (s.reg_raiseCtx c 1 h))

theorem State.reg_noteFault (s : State) (f : PendFault) (h : a % 2 ^ 12 ∉ [Off.CTX_FAULT, Off.CTX_FAULT_TIME]) :
    (s.noteFault f).reg a = s.reg a := by
  have hf : a % 2 ^ 12 ≠ ctxA f.ctx Off.CTX_FAULT % 2 ^ 12 := fun e => h (by rw [e, ctxA_mod _ (by decide)]; decide)
  have ht : a % 2 ^ 12 ≠ ctxA f.ctx Off.CTX_FAULT_TIME % 2 ^ 12 := fun e => h (by rw [e, ctxA_mod _ (by decide)]; decide)
  unfold State.noteFault
  split
  · exact (State.reg_setReg_ne _ _ (homeAddr_ne_of_mod ht)).trans ((State.reg_wf_of_mod _ _ _ _ hf).trans (s.reg_wf_of_mod _ _ _ hf))
  · rfl

/-- CTX_WD_SITE holds the first schedule fault of a context (R62). -/
theorem State.noteSite_fields (s : State) (f : PendFault) {w : Nat × Nat × Nat} (hsite : f.site = some w)
    (h0 : s.cf f.ctx Off.CTX_WD_SITE 51 48 = 0) (h1 : w.1 < 16) (h2 : w.2.1 < 2 ^ 17) (h3 : w.2.2 < 2 ^ 11) :
    (s.noteSite f).cf f.ctx Off.CTX_WD_SITE 51 48 = w.1 ∧ (s.noteSite f).cf f.ctx Off.CTX_WD_SITE 16 0 = w.2.1
      ∧ (s.noteSite f).cf f.ctx Off.CTX_WD_SITE 42 32 = w.2.2 := by
  have hnote : s.noteSite f = ((s.wf (ctxA f.ctx Off.CTX_WD_SITE) 16 0 w.2.1).wf (ctxA f.ctx Off.CTX_WD_SITE) 42 32 w.2.2).wf
      (ctxA f.ctx Off.CTX_WD_SITE) 51 48 w.1 := by
    rw [State.noteSite, hsite]
    exact if_pos h0
  rw [hnote]
  simp only [State.cf_eq, State.rf_eq, State.wf_eq, State.reg_setReg_self]
  refine ⟨?_, ?_, ?_⟩
  · rw [fld_ins_self _ 51 48 _ (by decide) (by decide)]
    exact Nat.mod_eq_of_lt h1
  · rw [fld_ins_below _ 51 48 _ 16 0 (by decide) (by decide) (by decide) (by decide),
      fld_ins_below _ 42 32 _ 16 0 (by decide) (by decide) (by decide) (by decide), fld_ins_self _ 16 0 _ (by decide) (by decide)]
    exact Nat.mod_eq_of_lt h2
  · rw [fld_ins_below _ 51 48 _ 42 32 (by decide) (by decide) (by decide) (by decide), fld_ins_self _ 42 32 _ (by decide) (by decide)]
    exact Nat.mod_eq_of_lt h3

theorem State.noteSite_keeps (s : State) (f : PendFault) : keepsCtxs s (s.noteSite f) := by
  unfold State.noteSite
  cases f.site with
  | none => exact keepsCtxs.refl s
  | some w =>
    exact keepsCtxs.ite _ (((s.wf_keeps _ 16 0 _).trans (State.wf_keeps _ _ 42 32 _)).trans (State.wf_keeps _ _ 51 48 _))
      (keepsCtxs.refl s)

/-- Settles O14: a fault notes its site and code, and what follows tears its context down. -/
theorem contextFaultStopsTheContext : Obligations.ContextFaultStopsTheContext := by
  unfold Obligations.ContextFaultStopsTheContext
  refine ⟨fun s f hf => ?_, fun s f l h => ?_⟩
  · intro c u
    obtain ⟨hphase, hcode⟩ := s.takeFault_record f hf
    have hu : u = ((s.noteSite f).noteFault f).afterFault c ((s.noteSite f).ctx c).launchSeqs := s.takeFault_eq f
    have hseqs : (s.noteSite f).ctx c = s.ctx c := by rw [State.ctx, (s.noteSite_keeps f).1, State.ctx]
    rw [hseqs] at hu
    generalize hr : (s.noteSite f).noteFault f = r at hu
    have htorn : (u.ctx c).Torn := by
      rw [hu, State.afterFault, State.modCtx_eq, State.ctx_setCtx_self]
      refine Ctx.Torn.congr (x := State.ctx _ c) ?_ rfl rfl rfl rfl rfl rfl
      rw [State.ctx, State.faultLaunches_ctxs]
      exact State.stopCtx_torn _ c
    obtain ⟨h1, h2, h3, h4, h5, h6⟩ := htorn
    refine ⟨hphase, h1, h2, h3, h4, h5, h6, fun q hq => ?_, hcode, fun w hsite h0 ha hb hd => ?_⟩
    · rw [hu]
      exact State.faultLaunches_faulted _ c _ _ q hq
    · have hmod : ctxA c Off.CTX_WD_SITE % 2 ^ 12 = Off.CTX_WD_SITE := ctxA_mod c (by decide)
      have hreg : u.reg (ctxA c Off.CTX_WD_SITE) = (s.noteSite f).reg (ctxA c Off.CTX_WD_SITE) := by
        rw [hu, State.reg_afterFault _ c _ (by rw [hmod]; decide), ← hr, State.reg_noteFault _ f (by rw [hmod]; decide)]
      have hnote := s.noteSite_fields f hsite h0 ha hb hd
      simp only [State.cf_eq, State.rf_eq] at hnote ⊢
      rw [hreg]
      exact hnote
  · rw [State.takeFaults, h]
    rfl

end Sys2Proof.Machine
end

section
/-! SUPPORT. The acceptance of a transfer (R57, R60): what its preparation leaves of the transfers, and what follows its acceptance. -/

namespace Sys2Proof.Machine

/-! ## Preparation leaves the transfers -/

/-- The transfers of every context and the time stand as they did. -/
def keepsXfers (s t : State) : Prop := (∀ k, (t.ctx k).xfers = (s.ctx k).xfers) ∧ t.tb = s.tb

theorem keepsXfers.refl (s : State) : keepsXfers s s := ⟨fun _ => rfl, rfl⟩

theorem keepsXfers.trans {s t u : State} (h : keepsXfers s t) (g : keepsXfers t u) : keepsXfers s u :=
  ⟨fun k => (g.1 k).trans (h.1 k), g.2.trans h.2⟩

theorem keepsXfers.ite (p : Prop) [Decidable p] {s a b : State} (ha : keepsXfers s a) (hb : keepsXfers s b) :
    keepsXfers s (if p then a else b) := by split <;> assumption

theorem keepsXfers.forAll {α : Type} (l : List α) (f : α → State → State) (hf : ∀ a s, keepsXfers s (f a s)) (s : State) :
    keepsXfers s (forAll l f s) :=
  forAll_induct (P := keepsXfers s) (fun a t h => h.trans (hf a t)) l (keepsXfers.refl s)

theorem keepsXfers.iter (f : Nat → State → State) (hf : ∀ i s, keepsXfers s (f i s)) (n : Nat) (s : State) :
    keepsXfers s (iter f n s) := by
  induction n generalizing s with
  | zero => exact keepsXfers.refl s
  | succ n ih => exact (ih s).trans (hf _ _)

theorem keepsCtxs.xfers {s t : State} (h : keepsCtxs s t) : keepsXfers s t := ⟨fun k => by rw [State.ctx, State.ctx, h.1], h.2⟩

theorem State.modCtx_keepsXfers (s : State) (c : Nat) {f : Ctx → Ctx} (hf : ∀ x, (f x).xfers = x.xfers) : keepsXfers s (s.modCtx c f) := by
  refine ⟨fun k => ?_, rfl⟩
  rw [State.modCtx_eq, State.ctx_setCtx]
  split
  · next h => rw [hf, h]
  · rfl

theorem State.modQueue_keepsXfers (s : State) (c l : Nat) (f : Queue → Queue) : keepsXfers s (s.modQueue c l f) :=
  s.modCtx_keepsXfers c fun _ => rfl

theorem State.fillTlb_keepsXfers (s : State) (c va : Nat) : keepsXfers s (s.fillTlb c va) := by
  have h1 : keepsXfers s (s.walkTouch c va) := (s.walkTouch_keeps c va).xfers
  unfold State.fillTlb
  dsimp only
  split
  · exact h1
  · refine h1.trans (State.modCtx_keepsXfers _ c fun x => ?_)
    split <;> rfl

theorem State.vaWrite_keepsXfers (s : State) (c va : Nat) (data : List Byte) : keepsXfers s (s.vaWrite c va data) := by
  refine keepsXfers.iter _ (fun i t => ?_) _ s
  dsimp only
  refine keepsXfers.ite _ ?_ (keepsXfers.refl t)
  split
  · exact t.fillTlb_keepsXfers c _
  · exact (t.fillTlb_keepsXfers c _).trans (State.devWrite_keeps _ _ _ _).xfers

theorem State.markShadow_keepsXfers (s : State) (c : Nat) (l : List Seg) : keepsXfers s (s.markShadow c l) := by
  have mark : ∀ (t : State) (g : Seg), keepsXfers t (match t.regionOf c g.addr with
      | none => t
      | some (r, k) => t.setNibble c r.state k (nibBit (t.nibble c r.state k) 1 true)) := fun t g => by
    split
    · exact keepsXfers.refl t
    · exact t.vaWrite_keepsXfers c _ _
  unfold State.markShadow
  dsimp only
  refine keepsXfers.trans ?_ (keepsXfers.forAll _ _ (fun g t => mark t g) _)
  refine keepsXfers.ite _ ?_ (keepsXfers.refl s)
  split
  · exact keepsXfers.refl s
  · exact keepsXfers.ite _ (s.vaWrite_keepsXfers c _ _) (keepsXfers.refl s)

theorem State.unreach_keepsXfers (s : State) (a b : Nat) : keepsXfers s (s.unreach a b) :=
  keepsXfers.ite _ (s.counts_keep _ 63 32 1).1.xfers (keepsXfers.refl s)

/-- The state in which a preparation accepts keeps the transfers. -/
def Prep.KeepsXfers (s : State) : Prep → Prop
  | .go z _ => keepsXfers s z
  | .wait | .drop _ | .fault _ _ => True

theorem State.prepMem_keepsXfers (s : State) (c : Nat) (x : Xfer) (segs : List Seg) (write shadow : Bool) (buf : List Byte)
    (poison : List (Nat × Nat)) : (s.prepMem c x segs write shadow buf poison).KeepsXfers s := by
  unfold State.prepMem
  split
  · trivial
  · have h1 := keepsXfers.forAll segs (fun g t => t.fillTlb c ((s.redirect c g.addr shadow).getD 0)) (fun g t => t.fillTlb_keepsXfers c _) s
    exact keepsXfers.ite _ (h1.trans (State.markShadow_keepsXfers _ c _)) h1

theorem State.prepTile_keepsXfers (s : State) (c : Nat) (x : Xfer) (target : Nat) (buf : List Byte) (poison : List (Nat × Nat)) :
    (s.prepTile c x target buf poison).KeepsXfers s := by
  unfold State.prepTile
  dsimp only
  split
  · trivial
  · exact keepsXfers.refl s

theorem State.prepLink_keepsXfers (s : State) (c : Nat) (x : Xfer) (node key cls : Nat) (segs : List Seg) (buf : List Byte)
    (poison : List (Nat × Nat)) (more : List Elem) : (s.prepLink c x node key cls segs buf poison more).KeepsXfers s := by
  unfold State.prepLink
  dsimp only
  split
  · trivial
  · split
    · trivial
    · split
      · trivial
      · exact keepsXfers.refl s

theorem State.prepPop_keepsXfers (s : State) (c link maxLen expMb : Nat) (check trunc : Bool) (x : Xfer) :
    (s.prepPop c link maxLen expMb check trunc x).KeepsXfers s := by
  unfold State.prepPop
  dsimp only
  split
  · exact s.unreach_keepsXfers _ _
  · split
    · trivial
    · split
      · trivial
      · split
        · trivial
        · exact State.modQueue_keepsXfers _ c link _

/-- What a transfer finds does not change the transfers. -/
theorem State.prepare_keepsXfers (s : State) (c : Nat) (x : Xfer) : (s.prepare c x).KeepsXfers s := by
  have counted : ∀ (p : Prep) (n : Nat), p.KeepsXfers s → Prep.KeepsXfers s (match p with
      | .go t a => .go (t.cWrap c Off.CTX_SLOT_EMPTY 63 0 n) a
      | p => p) := fun p n h => by
    cases p with
    | go t a => exact keepsXfers.trans h (t.counts_keep _ 63 0 n).2.xfers
    | _ => trivial
  unfold State.prepare
  dsimp only
  split
  · exact s.prepMem_keepsXfers c x _ _ _ _ _
  · exact s.prepMem_keepsXfers c x _ _ _ _ _
  · exact counted _ _ (s.prepMem_keepsXfers c x _ _ _ _ _)
  · exact counted _ _ (s.prepMem_keepsXfers c x _ _ _ _ _)
  · exact s.prepMem_keepsXfers c x _ _ _ _ _
  · exact s.prepMem_keepsXfers c x _ _ _ _ _
  · exact s.prepTile_keepsXfers c x _ _ _
  · exact s.prepTile_keepsXfers c x _ _ _
  · trivial
  · split
    · trivial
    · split
      · split
        · trivial
        · exact s.prepLink_keepsXfers c x _ _ _ _ _ _ _
      · split
        · trivial
        · split
          · trivial
          · exact keepsXfers.refl s
  · exact s.prepPop_keepsXfers c _ _ _ _ _ x
  · split
    · trivial
    · split
      · exact s.prepLink_keepsXfers c x _ _ _ _ _ _ _
      · trivial
  · split
    · trivial
    · split
      · exact s.prepLink_keepsXfers c x _ _ _ _ _ _ _
      · trivial
  · split
    · trivial
    · next page _ _ l _ =>
      have h := s.prepLink_keepsXfers c x (s.cf c Off.CTX_MIR_OUT 20 1) (s.mirrorKey (s.cf c Off.CTX_MIR_OUT 20 1) page) 5 l
        (List.replicate 65536 0) [] []
      split
      · next heq =>
        rw [heq] at h
        exact h
      · next p _ => exact h

/-! ## The promise brought up to date -/

/-- At most the deadline of a transfer differs, and one without a deadline has none again. -/
def sameButDue (o p : Option Xfer) : Prop := ∃ d : Option Nat → Option Nat, d none = none ∧ p = o.map fun x => { x with deadline := d x.deadline }

theorem sameButDue.refl (o : Option Xfer) : sameButDue o o := ⟨id, rfl, by cases o <;> rfl⟩

theorem sameButDue.trans {o p q : Option Xfer} (h : sameButDue o p) (k : sameButDue p q) : sameButDue o q := by
  obtain ⟨d, hd, rfl⟩ := h
  obtain ⟨e, he, rfl⟩ := k
  refine ⟨e ∘ d, by simp [hd, he], ?_⟩
  cases o <;> rfl

theorem Table.get?_mapVals {α : Type} (f : Nat → α → α) (t : Table α) (k : Nat) : Table.get? (Table.mapVals f t) k = (Table.get? t k).map (f k) := by
  unfold Table.mapVals
  induction t with
  | nil => rfl
  | cons e r ih =>
    rw [List.map_cons, Table.get?, Table.get?, ih]
    split
    · next h => rw [h]; rfl
    · rfl

theorem raiseDeadlines_due (l : List Nat) (xs : Table Xfer) (n k : Nat) :
    sameButDue (Table.get? xs k) (Table.get? (raiseDeadlines xs n l).1 k) := by
  induction l generalizing xs n with
  | nil => exact sameButDue.refl _
  | cons id r ih =>
    unfold raiseDeadlines
    split
    · exact ih _ _
    · next x hx =>
      refine sameButDue.trans ?_ (ih _ _)
      rw [Table.get?_set]
      split
      · next h =>
        rw [h, hx]
        exact ⟨Option.map (max n), rfl, rfl⟩
      · exact sameButDue.refl _

theorem Ctx.linkOrder_due (x : Ctx) (k : Nat) : sameButDue (Table.get? x.xfers k) (Table.get? x.linkOrder.xfers k) := by
  unfold Ctx.linkOrder
  refine List.foldlRecOn x.queues _ (motive := fun y : Ctx => sameButDue (Table.get? x.xfers k) (Table.get? y.xfers k))
    (sameButDue.refl _) fun y hy e _ => ?_
  split
  · exact hy
  · exact hy.trans (raiseDeadlines_due _ _ _ _)

/-- Bringing the promise up to date changes deadlines at most, and none while promises are not suspended (R60). -/
theorem State.refreshPromise_due (s : State) (c id : Nat) :
    sameButDue (s.xfer c id) ((s.refreshPromise c).xfer c id)
      ∧ (s.suspended = false → (s.refreshPromise c).xfer c id = s.xfer c id) := by
  unfold State.refreshPromise
  extract_lets a old new s1
  have h1 : s1.xfer c id = s.xfer c id := rfl
  have hsat : ∀ hi lo, (s1.sat a hi lo 1).xfer c id = s.xfer c id := fun hi lo => rfl
  split
  · exact ⟨sameButDue.refl _, fun _ => rfl⟩
  · split
    · next h2 =>
      refine ⟨?_, fun hs => ?_⟩
      · rw [← hsat 15 8, State.modCtx_eq, State.xfer, State.xfer, State.ctx_setCtx_self]
        refine sameButDue.trans ?_ (Ctx.linkOrder_due _ id)
        rw [Table.get?_mapVals]
        refine ⟨fun d => if d.any (s.now ≤ ·) then none else d, rfl, ?_⟩
        congr 1
        funext y
        split <;> simp [*]
      · simp only [new, hs, Bool.false_eq_true, if_false] at h2
        split at h2 <;> simp at h2
    · split
      · rw [hsat]
        exact ⟨sameButDue.refl _, fun _ => rfl⟩
      · rw [h1]
        exact ⟨sameButDue.refl _, fun _ => rfl⟩

/-! ## What leaves when a transfer is accepted -/

/-- Only frames that wait at links and packets in routers differ between two states. -/
def onlyTraffic (s t : State) : Prop := t = { s with links := t.links, routers := t.routers }

theorem onlyTraffic.refl (s : State) : onlyTraffic s s := rfl

theorem onlyTraffic.trans {s t u : State} (h : onlyTraffic s t) (g : onlyTraffic t u) : onlyTraffic s u := by
  unfold onlyTraffic at *
  rw [g, h]

theorem onlyTraffic.forAll {α : Type} (l : List α) (f : α → State → State) (hf : ∀ a s, onlyTraffic s (f a s)) (s : State) :
    onlyTraffic s (forAll l f s) :=
  forAll_induct (P := onlyTraffic s) (fun a t h => h.trans (hf a t)) l (onlyTraffic.refl s)

theorem State.inject_traffic (s : State) (a b cls : Nat) (owner : Nat × Nat) (part n : Nat) (reply : Option (Nat × Nat)) :
    onlyTraffic s (s.inject a b cls owner part n reply) := by
  unfold State.inject
  split <;> rfl

theorem State.departRequests_traffic (s : State) (c id : Nat) (x : Xfer) (segs : List Seg) (write : Bool) :
    onlyTraffic s (s.departRequests c id x segs write) := by
  refine onlyTraffic.forAll _ _ (fun g t => ?_) s
  split
  · exact onlyTraffic.refl t
  · exact t.inject_traffic _ _ _ _ _ _ _

theorem State.departEave_traffic (s : State) (c id : Nat) (x : Xfer) (key cls n : Nat) : onlyTraffic s (s.departEave c id x key cls n) := by
  unfold State.departEave
  split
  · exact onlyTraffic.refl s
  · exact s.inject_traffic _ _ _ _ _ _ _

theorem State.enqueue_traffic (s : State) (k : Nat) (f : Frame) (owner : Option (Nat × Nat)) : onlyTraffic s (s.enqueue k f owner) := rfl

theorem State.depart_traffic (s : State) (c id : Nat) (x : Xfer) (a : Accept) : onlyTraffic s (s.depart c id x a) := by
  unfold State.depart
  dsimp only
  split
  case h_11 =>
    split
    · exact onlyTraffic.refl s
    · split
      · exact s.departEave_traffic _ _ _ _ _ _
      · exact s.inject_traffic _ _ _ _ _ _ _
  case h_13 | h_14 =>
    split
    · exact onlyTraffic.refl s
    · exact s.departEave_traffic _ _ _ _ _ _
  case h_10 => exact onlyTraffic.refl s
  case h_8 | h_9 | h_12 => exact s.inject_traffic _ _ _ _ _ _ _
  all_goals exact s.departRequests_traffic _ _ _ _ _

theorem State.sendAccepted_traffic (s : State) (c id : Nat) (x : Xfer) (a : Accept) : onlyTraffic s (s.sendAccepted c id x a) := by
  unfold State.sendAccepted
  split
  case h_4 => exact onlyTraffic.refl s
  all_goals
    split
    · exact onlyTraffic.refl s
    · exact onlyTraffic.forAll _ _ (fun f t => t.enqueue_traffic _ f _) s

/-! ## Acceptance -/

theorem State.xfer_modXfer_self {s : State} {c id : Nat} {x : Xfer} (h : s.xfer c id = some x) (f : Xfer → Xfer) :
    (s.modXfer c id f).xfer c id = some (f x) := by
  unfold State.modXfer
  rw [h]
  dsimp only
  rw [State.modCtx_eq, State.xfer, State.ctx_setCtx_self, Table.get?_set, if_pos rfl]

theorem State.modXfer_rest (s : State) (c id : Nat) (f : Xfer → Xfer) :
    (s.modXfer c id f).regs = s.regs ∧ (s.modXfer c id f).takeoverActive = s.takeoverActive ∧ (s.modXfer c id f).mgrLost = s.mgrLost := by
  unfold State.modXfer
  split <;> exact ⟨rfl, rfl, rfl⟩

/-- The deadline of a transfer taken now (R57, R60, R173). -/
def State.dueOf (s : State) (c : Nat) (x : Xfer) (a : Accept) : Option Nat :=
  if s.suspended || !a.contracted then none
  else some (((match x.kind.pushLink with
    | none => s.dueBy c x a.boundNs
    | some l => max (s.dueBy c x a.boundNs) (s.queue c l).lastDeadline))
      + if s.faultWins.any (fun w => a.crosses.any fun e => w.hits e) then 100000 else 0)

/-- A whole register counted up wraps at its end (R14). -/
theorem State.reg_wrap64 (s : State) (a n : Nat) : (s.wrap a 63 0 n).reg a = BitVec.ofNat 64 ((s.reg a).toNat + n) := by
  have hf : s.rf a 63 0 = (s.reg a).toNat := by
    rw [State.rf_eq, fld, bits, pow_zero, Nat.div_one]
    exact Nat.mod_eq_of_lt (s.reg a).isLt
  have h : (s.wrap a 63 0 n).reg a = ins (s.reg a) 63 0 (s.rf a 63 0 + n) := s.reg_setReg_self a _
  rw [h, hf, ins, fld, bits, pow_zero, Nat.div_one, Nat.mul_one, Nat.mul_one, Nat.mod_eq_of_lt (s.reg a).isLt, Nat.sub_self, Nat.zero_add]
  exact BitVec.eq_of_toNat_eq (by simp)

/-- A transfer that is taken: accepted now with its requests and data; its deadline is the one of R57, which suspended promises take away; its
wait is counted (R60). -/
theorem State.take_spec {s : State} {c id : Nat} {x : Xfer} (hx : s.xfer c id = some x) (a : Accept) :
    (∃ y, (s.take c id x a).xfer c id = some y ∧ y.acceptedAt = some s.now ∧ y.segs = a.segs ∧ y.buf = a.buf ∧ y.bufPoison = a.poison
        ∧ y.kind = x.kind ∧ y.tile = x.tile ∧ (s.suspended = false → y.deadline = s.dueOf c x a) ∧ (s.dueOf c x a = none → y.deadline = none))
      ∧ (s.take c id x a).reg (ctxA c Off.CTX_ACCEPT_WAIT)
          = BitVec.ofNat 64 ((s.reg (ctxA c Off.CTX_ACCEPT_WAIT)).toNat + (s.now - x.issuedAt)) := by
  unfold State.take
  extract_lets own base ext free dl s1 s2 s3
  have hdl : dl = s.dueOf c x a := rfl
  have hx2 : s2.xfer c id = some _ := State.xfer_modXfer_self (s := s1) hx _
  have h3 : keepsXfers s2 s3 ∧ s3.regs = s1.regs ∧ s3.takeoverActive = s.takeoverActive ∧ s3.mgrLost = s.mgrLost := by
    have h2 : s2.regs = s1.regs ∧ s2.takeoverActive = s.takeoverActive ∧ s2.mgrLost = s.mgrLost := State.modXfer_rest s1 c id _
    unfold s3
    split
    · exact ⟨keepsXfers.refl s2, h2⟩
    · exact ⟨s2.modQueue_keepsXfers c _ _, h2⟩
  obtain ⟨hx3, hregs, hover, hlost⟩ := h3
  generalize hT : (s3.sendAccepted c id x a).depart c id x a = T
  have traffic : onlyTraffic s3 T := hT ▸ (s3.sendAccepted_traffic c id x a).trans (State.depart_traffic _ c id x a)
  have hxT : T.xfer c id = s2.xfer c id := by
    rw [State.xfer, State.ctx, congrArg State.ctxs traffic]
    exact congrArg (Table.get? · id) (hx3.1 c)
  have hrT : T.regs = s1.regs := (congrArg State.regs traffic).trans hregs
  have hsT : T.suspended = s.suspended := by
    have hrf : ∀ b hi lo, b % 2 ^ 12 ≠ ctxA c Off.CTX_ACCEPT_WAIT % 2 ^ 12 → T.rf b hi lo = s.rf b hi lo := fun b hi lo hb => by
      rw [State.rf_eq, State.rf_eq, State.reg, hrT]
      exact congrArg (fun w => fld w hi lo) (s.reg_wf_of_mod 63 0 _ hb)
    have hoverT : T.takeoverActive = s.takeoverActive := (congrArg State.takeoverActive traffic).trans hover
    have hlostT : T.mgrLost = s.mgrLost := (congrArg State.mgrLost traffic).trans hlost
    unfold State.suspended
    rw [hrf _ _ _ (by rw [ctxA_mod c (by decide)]; decide), hrf _ _ _ (by rw [ctxA_mod c (by decide)]; decide), hoverT, hlostT]
  obtain ⟨⟨d, hd, hxu⟩, hsame⟩ := T.refreshPromise_due c id
  refine ⟨?_, ?_⟩
  · rw [hxT, hx2] at hxu
    refine ⟨_, hxu, rfl, rfl, rfl, rfl, rfl, rfl, fun hs => ?_, fun hn => ?_⟩
    · rw [hsame (hsT.trans hs), hxT, hx2] at hxu
      exact (congrArg (Option.map (·.deadline)) hxu.symm |> Option.some.inj).trans hdl
    · change d dl = none
      rw [hdl, hn, hd]
  · rw [State.reg_refreshPromise _ c (by rw [ctxA_mod c (by decide)]; decide), State.reg, hrT]
    exact s.reg_wrap64 _ _

/-- Settles O15: acceptance follows the outcome of the preparation. -/
theorem transferAcceptanceFixesTheDeadline : Obligations.TransferAcceptanceFixesTheDeadline := by
  unfold Obligations.TransferAcceptanceFixesTheDeadline
  intro s c id x hx hacc hhalt hphase hpush hbuf
  have hrun : exec (.transferAccept c id) s = match s.prepare c x with
      | .wait => .next s
      | .drop t => .next (t.dropXfer c id)
      | .fault t code => .next (t.ctxFault c code)
      | .go t a => .next ((t.take c id x a).notePush c x) := by
    rw [exec_transferAccept, execTransferAccept, hx]
    dsimp only
    rw [if_neg (by simp [Xfer.inFlight, hacc, hhalt, hphase, hpush]), if_neg (by simpa using hbuf)] <;> rfl
  refine ⟨fun z a h => ?_, fun h => ?_, fun z h => ?_, fun z code h => ?_⟩
  · rw [h] at hrun
    have keeps : keepsXfers s z := by
      have hk := s.prepare_keepsXfers c x
      rwa [h] at hk
    have hz : z.xfer c id = some x := (congrArg (Table.get? · id) (keeps.1 c)).trans hx
    have hnow : z.now = s.now := congrArg BitVec.toNat keeps.2
    obtain ⟨⟨y, hy, h1, h2, h3, h4, h5, h6, h7, h8⟩, hreg⟩ := State.take_spec hz a
    have noted : ((z.take c id x a).notePush c x).ctxs = (z.take c id x a).ctxs ∧ ((z.take c id x a).notePush c x).regs = (z.take c id x a).regs := by
      unfold State.notePush
      split <;> exact ⟨rfl, rfl⟩
    refine ⟨_, hrun, y, ?_, h1.trans (by rw [hnow]), h2, h3, h4, h5, h6, fun hk hs hc => ?_, fun hfree => h8 ?_, ?_⟩
    · rw [State.xfer, State.ctx, noted.1]
      exact hy
    · rw [h7 hs, State.dueOf, hk]
      simp [hs, hc]
    · unfold State.dueOf
      rw [if_pos (by simpa using hfree)]
    · rw [State.reg, noted.2, ← hnow]
      exact hreg
  · rw [h] at hrun
    exact ⟨_, hrun, rfl⟩
  · rw [h] at hrun
    exact ⟨_, hrun, rfl⟩
  · rw [h] at hrun
    exact ⟨_, hrun, State.detected_detect z _⟩

end Sys2Proof.Machine
end

section
/-! SUPPORT. What an access of stacked memory leaves alone (R201, R209 to R214), and that reads of the device leave every byte. -/

namespace Sys2Proof.Machine

/-! ## Stacked memory, its counters and its interrupts -/

/-- Only stacked memory, its slices, the counters of Thatch dies and their interrupts differ between two states. -/
def onlyStacks (s t : State) : Prop :=
  t = { s with
    mem := t.mem, poison := t.poison, upsets := t.upsets, cache := t.cache, ceCount := t.ceCount, regs := t.regs, msix := t.msix
    cycle := { s.cycle with counted := t.cycle.counted, raised := t.cycle.raised } }

theorem onlyStacks.refl (s : State) : onlyStacks s s := rfl

theorem onlyStacks.trans {s t u : State} (h : onlyStacks s t) (g : onlyStacks t u) : onlyStacks s u := by
  unfold onlyStacks at *
  rw [g, h]

theorem onlyStacks.ite (p : Prop) [Decidable p] {s a b : State} (ha : onlyStacks s a) (hb : onlyStacks s b) :
    onlyStacks s (if p then a else b) := by split <;> assumption

theorem onlyStacks.forAll {α : Type} (l : List α) (f : α → State → State) (hf : ∀ a s, onlyStacks s (f a s)) (s : State) :
    onlyStacks s (forAll l f s) :=
  forAll_induct (P := onlyStacks s) (fun a t h => h.trans (hf a t)) l (onlyStacks.refl s)

theorem State.wf_stacks (s : State) (a hi lo v : Nat) : onlyStacks s (s.wf a hi lo v) := rfl

theorem State.sat_stacks (s : State) (a hi lo n : Nat) : onlyStacks s (s.sat a hi lo n) := rfl

theorem State.wrap_stacks (s : State) (a hi lo n : Nat) : onlyStacks s (s.wrap a hi lo n) := rfl

theorem State.raisePg_stacks (s : State) (die block b : Nat) : onlyStacks s (s.raisePg die block b) := by
  unfold State.raisePg State.setPgIrq
  dsimp only
  split
  · rfl
  · split <;> rfl

theorem State.stackPut_stacks (s : State) (t sec : Nat) (data : List Byte) (p : Bool) : onlyStacks s (s.stackPut t sec data p) := rfl

theorem State.putSector_stacks (s : State) (t sec : Nat) (data : List Byte) (p : Bool) : onlyStacks s (s.putSector t sec data p) := by
  unfold State.putSector
  split <;> rfl

theorem State.windowErr_stacks (s : State) (t : Nat) : onlyStacks s (s.windowErr t) := (s.sat_stacks _ 31 0 1).trans (State.raisePg_stacks _ _ _ _)

theorem State.corrected_stacks (s : State) (t n : Nat) : onlyStacks s (s.corrected t n) := rfl

theorem State.ceCount_stacks (s : State) (l : Table Nat) : onlyStacks s { s with ceCount := l } := rfl

theorem State.upsets_stacks (s : State) (l : Table Upset) : onlyStacks s { s with upsets := l } := rfl

theorem State.cache_stacks (s : State) (l : Table (List Way)) : onlyStacks s { s with cache := l } := rfl

theorem State.reread_stacks (s : State) (t sec : Nat) : onlyStacks s (s.reread t sec) := by
  unfold State.reread
  extract_lets d s1 s2
  have h : onlyStacks s s2 := (s.sat_stacks _ 63 32 1).trans (State.ceCount_stacks s1 _)
  clear_value s2
  refine h.trans ?_
  split
  · exact (((s2.stackPut_stacks t sec _ true).trans (State.sat_stacks _ _ 31 0 1)).trans (State.wf_stacks _ _ 35 0 sec)).trans
      (State.raisePg_stacks _ _ _ _)
  · exact (s2.corrected_stacks _ _).trans (State.upsets_stacks _ _)
  · exact onlyStacks.refl _

theorem State.meetSector_stacks (s : State) (t sec : Nat) : onlyStacks s (s.meetSector t sec) := by
  unfold State.meetSector
  split
  · exact onlyStacks.refl s
  · exact s.corrected_stacks _ _
  · exact s.reread_stacks t sec

theorem State.cacheTouch_stacks (s : State) (t line : Nat) (alloc : Bool) : onlyStacks s (s.cacheTouch t line alloc).1 := by
  have back : ∀ (l : List Way) (u : State), onlyStacks u (Machine.forAll l (fun w v => v.writeBack t w) u) :=
    fun l => onlyStacks.forAll l _ fun w v => onlyStacks.forAll _ _ (fun _ u => u.stackPut_stacks _ _ _ _) v
  unfold State.cacheTouch
  dsimp only
  split
  · exact (s.cache_stacks _).trans (State.wrap_stacks _ _ 63 0 1)
  · split
    · exact s.wrap_stacks _ 63 0 1
    · exact ((s.wrap_stacks _ 63 0 1).trans (back _ _)).trans (State.cache_stacks _ _)

/-- A request at a slice. -/
theorem State.slice_stacks (s : State) (t l n : Nat) (write alloc : Bool) : onlyStacks s (s.slice t l n write alloc) :=
  (onlyStacks.ite _ (onlyStacks.refl s) (onlyStacks.forAll _ _ (fun sec u => u.meetSector_stacks t sec) s)).trans
    (State.cacheTouch_stacks _ _ _ _)

theorem State.touch_stacks (s : State) (a n : Nat) (write alloc : Bool) : onlyStacks s (s.touch a n write alloc) := by
  unfold State.touch
  split
  · exact onlyStacks.ite _ (s.windowErr_stacks _) (onlyStacks.ite _ (s.slice_stacks _ _ _ _ _) (onlyStacks.refl s))
  · exact onlyStacks.refl s
  · exact onlyStacks.refl s

theorem State.devTouch_stacks (s : State) (a n : Nat) : onlyStacks s (s.devTouch a n) :=
  onlyStacks.forAll _ _ (fun _ t => t.touch_stacks _ _ _ _) s

/-! ## Registers that accesses of the stacks write -/

/-- The registers of a Thatch page that accesses of its stack write, by offset. -/
def stackOffs : List Nat :=
  [Off.PG_IRQ_RAW, Off.PG_IRQ_EN, Off.THC_CACHE_HIT, Off.THC_CACHE_MISS, Off.THC_ECC_CE, Off.THC_ECC_UE, Off.THC_ECC_LAST, Off.THC_WINDOW_ERR]

/-- A register that an access of a stack writes. -/
def stackReg (b : Nat) : Prop := ∃ t < 16, ∃ o ∈ stackOffs, b = bar0 (thatchDie t) 0 o

/-- A register that no access of a stack writes. -/
def offStacks (a : Nat) : Prop := ∀ b, stackReg b → homeAddr a ≠ homeAddr b

/-- Every register that no access of a stack writes reads as before. -/
def keepsOthers (s t : State) : Prop := ∀ a, offStacks a → t.reg a = s.reg a

theorem keepsOthers.refl (s : State) : keepsOthers s s := fun _ _ => rfl

theorem keepsOthers.trans {s t u : State} (h : keepsOthers s t) (g : keepsOthers t u) : keepsOthers s u :=
  fun a ha => (g a ha).trans (h a ha)

theorem keepsOthers.ite (p : Prop) [Decidable p] {s a b : State} (ha : keepsOthers s a) (hb : keepsOthers s b) :
    keepsOthers s (if p then a else b) := by split <;> assumption

theorem keepsOthers.forAll {α : Type} (l : List α) (f : α → State → State) (hf : ∀ a s, keepsOthers s (f a s)) (s : State) :
    keepsOthers s (forAll l f s) :=
  forAll_induct (P := keepsOthers s) (fun a t h => h.trans (hf a t)) l (keepsOthers.refl s)

theorem keepsOthers.of_regs {s t : State} (h : t.regs = s.regs) : keepsOthers s t := fun _ _ => by rw [State.reg, State.reg, h]

theorem State.setReg_others (s : State) {b : Nat} (hb : stackReg b) (w : Word) : keepsOthers s (s.setReg b w) :=
  fun _ ha => s.reg_setReg_ne w (ha b hb)

theorem State.wf_others (s : State) {a : Nat} (ha : stackReg a) (hi lo v : Nat) : keepsOthers s (s.wf a hi lo v) := s.setReg_others ha _

theorem State.sat_others (s : State) {a : Nat} (ha : stackReg a) (hi lo n : Nat) : keepsOthers s (s.sat a hi lo n) := s.setReg_others ha _

theorem State.wrap_others (s : State) {a : Nat} (ha : stackReg a) (hi lo n : Nat) : keepsOthers s (s.wrap a hi lo n) := s.setReg_others ha _

theorem stackReg_of {t : Nat} (ht : t < 16) {o : Nat} (ho : o ∈ stackOffs) : stackReg (bar0 (thatchDie t) 0 o) := ⟨t, ht, o, ho, rfl⟩

theorem State.raisePg_others (s : State) {t : Nat} (ht : t < 16) (n : Nat) : keepsOthers s (s.raisePg (thatchDie t) 0 n) := by
  have set : ∀ raw en, keepsOthers s (s.setPgIrq (thatchDie t) 0 raw en) := fun raw en => by
    have h := (s.setReg_others (stackReg_of ht (o := Off.PG_IRQ_RAW) (by decide)) raw).trans
      (State.setReg_others _ (stackReg_of ht (o := Off.PG_IRQ_EN) (by decide)) en)
    unfold State.setPgIrq
    dsimp only
    refine keepsOthers.ite _ h ?_
    split
    · exact h
    · exact h.trans (.of_regs rfl)
  exact (set _ _).trans (.of_regs rfl)

theorem thatchDie_lt {t : Nat} (h : t < 16) : thatchDie t < 64 := by
  unfold thatchDie
  split
  · omega
  · split <;> omega

theorem xorGroups_lt (w n k : Nat) : xorGroups w n k < 2 ^ w := by
  induction k generalizing n with
  | zero => exact Nat.two_pow_pos w
  | succ k ih => exact Nat.xor_lt_two_pow (Nat.mod_lt _ (Nat.two_pow_pos w)) (ih _)

/-- An address names one of the 16 stacks. -/
theorem dpaLoc_stack_lt {a k i b t l : Nat} (h : dpaLoc a = .mem k i b t l) : t < 16 := by
  have hquad : ∀ q < 4, ∀ j < 4, (stacksOf 1 q).getD j 0 < 16 := by decide
  unfold dpaLoc at h
  split at h
  · cases h
    exact xorGroups_lt 4 _ 7
  · split at h
    · cases h
      exact hquad _ (by omega) _ (xorGroups_lt 2 _ 12)
    · split at h
      · cases h
        omega
      · split at h
        · dsimp only at h
          split at h <;> cases h
        · cases h

theorem State.windowErr_others (s : State) {t : Nat} (h : t < 16) : keepsOthers s (s.windowErr t) :=
  (s.sat_others (stackReg_of h (by decide)) 31 0 1).trans (State.raisePg_others _ h 2)

theorem State.corrected_regs (s : State) (t n : Nat) :
    (s.corrected t n).regs = (s.sat (bar0 (thatchDie t) 0 Off.THC_ECC_CE) 31 0 n).regs := rfl

theorem State.corrected_others (s : State) {t : Nat} (h : t < 16) (n : Nat) : keepsOthers s (s.corrected t n) :=
  (s.sat_others (stackReg_of h (by decide)) 31 0 n).trans (.of_regs (s.corrected_regs t n))

theorem State.ceCount_others (s : State) (l : Table Nat) : keepsOthers s { s with ceCount := l } := fun _ _ => rfl

theorem State.upsets_others (s : State) (l : Table Upset) : keepsOthers s { s with upsets := l } := fun _ _ => rfl

theorem State.reread_others (s : State) {t : Nat} (ht : t < 16) (sec : Nat) : keepsOthers s (s.reread t sec) := by
  have low : ∀ off, off ∈ stackOffs → stackReg (bar0 (thatchDie t) 0 off) := fun off ho => stackReg_of ht ho
  unfold State.reread
  extract_lets d s1 s2
  have h : keepsOthers s s2 := (s.sat_others (low _ (by decide)) 63 32 1).trans (State.ceCount_others s1 _)
  clear_value s2
  refine h.trans ?_
  split
  · have put : keepsOthers s2 (s2.stackPut t sec (s2.memBytes (t * 2 ^ 36 + sec * 64) 64) true) := .of_regs rfl
    exact ((put.trans (State.sat_others _ (low _ (by decide)) 31 0 1)).trans (State.wf_others _ (low _ (by decide)) 35 0 sec)).trans
      (State.raisePg_others _ ht 0)
  · exact (s2.corrected_others ht _).trans (State.upsets_others _ _)
  · exact keepsOthers.refl _

theorem State.meetSector_others (s : State) {t : Nat} (ht : t < 16) (sec : Nat) : keepsOthers s (s.meetSector t sec) := by
  unfold State.meetSector
  split
  · exact keepsOthers.refl s
  · exact s.corrected_others ht _
  · exact s.reread_others ht sec

theorem State.cacheTouch_others (s : State) {t : Nat} (ht : t < 16) (line : Nat) (alloc : Bool) : keepsOthers s (s.cacheTouch t line alloc).1 := by
  have low : ∀ off, off ∈ stackOffs → stackReg (bar0 (thatchDie t) 0 off) := fun off ho => stackReg_of ht ho
  have back : ∀ (l : List Way) (u : State), keepsOthers u (Machine.forAll l (fun w v => v.writeBack t w) u) :=
    fun l => keepsOthers.forAll l _ fun w v =>
      keepsOthers.forAll w.dirty (fun d u => u.stackPut t (w.line * 4 + d.1) d.2.1 d.2.2) (fun _ u => .of_regs rfl) v
  unfold State.cacheTouch
  dsimp only
  split
  · exact keepsOthers.trans (.of_regs rfl) (State.wrap_others { s with cache := _ } (low _ (by decide)) 63 0 1)
  · split
    · exact s.wrap_others (low _ (by decide)) 63 0 1
    · exact ((s.wrap_others (low _ (by decide)) 63 0 1).trans (back _ _)).trans (.of_regs rfl)

theorem State.slice_others (s : State) {t : Nat} (ht : t < 16) (l n : Nat) (write alloc : Bool) : keepsOthers s (s.slice t l n write alloc) :=
  (keepsOthers.ite _ (keepsOthers.refl s) (keepsOthers.forAll _ _ (fun sec u => u.meetSector_others ht sec) s)).trans
    (State.cacheTouch_others _ ht _ _)

theorem State.touch_others (s : State) (a n : Nat) (write alloc : Bool) : keepsOthers s (s.touch a n write alloc) := by
  unfold State.touch
  split
  · next h =>
    have ht := dpaLoc_stack_lt h
    exact keepsOthers.ite _ (s.windowErr_others ht) (keepsOthers.ite _ (s.slice_others ht _ _ _ _) (keepsOthers.refl s))
  · exact keepsOthers.refl s
  · exact keepsOthers.refl s

theorem State.devTouch_others (s : State) (a n : Nat) : keepsOthers s (s.devTouch a n) :=
  keepsOthers.forAll _ _ (fun _ t => t.touch_others _ _ _ _) s

/-! ## Reads leave the bytes of the stacks -/

theorem Table.erase_of_get?_none {α : Type} {t : Table α} {k : Nat} (h : Table.get? t k = none) : Table.erase t k = t := by
  refine List.filter_eq_self.mpr fun e he => ?_
  induction t with
  | nil => cases he
  | cons x r ih =>
    rw [Table.get?] at h
    split at h
    · cases h
    · next hne =>
      rcases List.mem_cons.mp he with rfl | hr
      · simpa using Ne.symm hne
      · exact ih h hr

theorem Table.set_of_get? {α : Type} {t : Table α} {k : Nat} {v : α} (hrise : Table.rises t) (h : Table.get? t k = some v) :
    Table.set t k v = t := by
  induction t with
  | nil => cases h
  | cons x r ih =>
    obtain ⟨j, w⟩ := x
    obtain ⟨hlow, hr⟩ := List.pairwise_cons.mp hrise
    rw [Table.get?] at h
    rw [Table.set]
    split at h
    · next hkj =>
      cases h
      rw [if_neg (by omega), if_pos hkj, hkj]
    · next hkj =>
      have hlt : j < k := hlow _ (Table.mem_of_get? h)
      rw [if_neg (by omega), if_neg hkj, ih hr h]

/-- An entry put back with the value it has. -/
theorem Table.put_getD {α : Type} [DecidableEq α] {d : α} {t : Table α} (h : Table.wf d t = true) (k : Nat) :
    Table.put d t k (Table.getD d t k) = t := by
  obtain ⟨hrise, hne⟩ := (Table.wf_iff d t).mp h
  have hkey : ∀ v, Table.get? t k = some v → v ≠ d := fun v hv => hne (k, v) (Table.mem_of_get? hv)
  unfold Table.put Table.getD
  cases hk : Table.get? t k with
  | none =>
    rw [Option.getD_none, if_pos rfl]
    exact Table.erase_of_get?_none hk
  | some v =>
    rw [Option.getD_some, if_neg (hkey v hk)]
    exact Table.set_of_get? hrise hk

/-- Bytes put back where they stand. -/
theorem putBytes_self {m : List Host.Cell} (h : Memory.wf m = true) (bs : List Byte) (k : Nat)
    (hb : ∀ i, i < bs.length → bs.getD i 0 = Table.getD 0 m (k + i)) : putBytes m k bs = m := by
  induction bs generalizing k with
  | nil => rfl
  | cons b r ih =>
    have h0 : b = Table.getD 0 m k := hb 0 (by simp)
    rw [putBytes, h0, Table.put_getD h]
    refine ih (k + 1) fun i hi => ?_
    rw [Nat.add_right_comm, Nat.add_assoc]
    exact hb (i + 1) (by simpa using hi)

theorem putBytes_memBytes (s : State) (h : Memory.wf s.mem = true) (k n : Nat) : putBytes s.mem k (s.memBytes k n) = s.mem := by
  refine putBytes_self h _ k fun i hi => ?_
  rw [State.memBytes, List.length_map, List.length_range] at hi
  simp [State.memBytes, hi]

/-- Memory in canonical form stands as it did. -/
def keepsMem (s t : State) : Prop := Memory.wf s.mem = true → t.mem = s.mem

theorem keepsMem.refl (s : State) : keepsMem s s := fun _ => rfl

theorem keepsMem.trans {s t u : State} (h : keepsMem s t) (g : keepsMem t u) : keepsMem s u := fun hw => by
  have ht := h hw
  rw [g (ht ▸ hw), ht]

theorem keepsMem.ite (p : Prop) [Decidable p] {s a b : State} (ha : keepsMem s a) (hb : keepsMem s b) : keepsMem s (if p then a else b) := by
  split <;> assumption

theorem keepsMem.forAll {α : Type} (l : List α) (f : α → State → State) (hf : ∀ a s, keepsMem s (f a s)) (s : State) :
    keepsMem s (forAll l f s) :=
  forAll_induct (P := keepsMem s) (fun a t h => h.trans (hf a t)) l (keepsMem.refl s)

theorem keepsMem.of_mem {s t : State} (h : t.mem = s.mem) : keepsMem s t := fun _ => h

theorem State.raisePg_mem (s : State) (d b n : Nat) : (s.raisePg d b n).mem = s.mem := by
  unfold State.raisePg State.setPgIrq
  dsimp only
  split
  · rfl
  · split <;> rfl

theorem State.sat_mem (s : State) (a hi lo n : Nat) : (s.sat a hi lo n).mem = s.mem := rfl

theorem State.ceCount_mem (s : State) (l : Table Nat) : ({ s with ceCount := l } : State).mem = s.mem := rfl

theorem State.upsets_mem (s : State) (l : Table Upset) : ({ s with upsets := l } : State).mem = s.mem := rfl

theorem State.corrected_mem (s : State) (t n : Nat) : (s.corrected t n).mem = s.mem := by
  have h : (s.corrected t n).mem = (s.sat (bar0 (thatchDie t) 0 Off.THC_ECC_CE) 31 0 n).mem := rfl
  rw [h, State.sat_mem]

theorem State.reread_keepsMem (s : State) (t sec : Nat) : keepsMem s (s.reread t sec) := by
  unfold State.reread
  extract_lets d s1 s2
  have h : keepsMem s s2 := (keepsMem.of_mem (s.sat_mem _ 63 32 1)).trans (.of_mem (s1.ceCount_mem _))
  clear_value s2
  refine h.trans ?_
  split
  · have put : keepsMem s2 (s2.stackPut t sec (s2.memBytes (t * 2 ^ 36 + sec * 64) 64) true) := fun hw => by
      change putBytes s2.mem _ (List.take 64 (s2.memBytes _ 64)) = s2.mem
      rw [List.take_of_length_le (by simp [State.memBytes]), putBytes_memBytes s2 hw]
    refine put.trans (.of_mem ?_)
    rw [State.raisePg_mem]
    rfl
  · exact (keepsMem.of_mem (s2.corrected_mem _ _)).trans (.of_mem (State.upsets_mem _ _))
  · exact keepsMem.refl _

theorem State.meetSector_keepsMem (s : State) (t sec : Nat) : keepsMem s (s.meetSector t sec) := by
  unfold State.meetSector
  split
  · exact keepsMem.refl s
  · exact .of_mem (s.corrected_mem t _)
  · exact s.reread_keepsMem t sec

theorem State.cacheTouch_mem (s : State) (t line : Nat) : (s.cacheTouch t line false).1.mem = s.mem := by
  unfold State.cacheTouch
  dsimp only
  split <;> rfl

/-- A request that allocates no line leaves the bytes of its stack. -/
theorem State.slice_keepsMem (s : State) (t l n : Nat) (write : Bool) : keepsMem s (s.slice t l n write false) :=
  (keepsMem.ite _ (keepsMem.refl s) (keepsMem.forAll _ _ (fun sec u => u.meetSector_keepsMem t sec) s)).trans
    (.of_mem (State.cacheTouch_mem _ _ _))

theorem State.touch_keepsMem (s : State) (a n : Nat) (write : Bool) : keepsMem s (s.touch a n write false) := by
  unfold State.touch
  split
  · exact keepsMem.ite _ (.of_mem (State.raisePg_mem _ _ _ _)) (keepsMem.ite _ (s.slice_keepsMem _ _ _ _) (keepsMem.refl s))
  · exact keepsMem.refl s
  · exact keepsMem.refl s

theorem State.devTouch_keepsMem (s : State) (a n : Nat) : keepsMem s (s.devTouch a n) :=
  keepsMem.forAll _ _ (fun _ t => t.touch_keepsMem _ _ _) s

/-! ## The device looks at memory -/

/-- Registers of context windows are written by no access of a stack. -/
theorem offStacks_ctxA (c off : Nat) : offStacks (ctxA c off) := by
  rintro _ ⟨t, ht, o, ho, rfl⟩
  have hlow : bar0 (thatchDie t) 0 o < 2 ^ 24 := bar0_lt (thatchDie_lt ht) (by decide) ((by decide : ∀ o ∈ stackOffs, o < 4096) o ho)
  have hle : homeAddr (bar0 (thatchDie t) 0 o) ≤ bar0 (thatchDie t) 0 o := by
    unfold homeAddr
    split
    · exact Nat.mod_le _ _
    · exact le_refl _
  have := ctxA_ge c off
  rw [homeAddr_ctxA]
  omega

/-- So are registers at other offsets in their pages. -/
theorem offStacks_of_mod {a : Nat} (h : a % 2 ^ 12 ∉ stackOffs) : offStacks a := by
  rintro _ ⟨t, _, o, ho, rfl⟩
  have hlt : o < 2 ^ 12 := (by decide : ∀ o ∈ stackOffs, o < 2 ^ 12) o ho
  refine homeAddr_ne_of_mod fun e => h ?_
  rw [e, bar0_mod _ _ hlt]
  exact ho

theorem onlyStacks.looked {s t : State} (h : onlyStacks s t) (hw : keepsOthers s t) (hm : keepsMem s t) (c : Nat) : Looked c s t := by
  have hc : t.ctxs = s.ctxs := (congrArg State.ctxs h :)
  have hctx : ∀ k, t.ctx k = s.ctx k := fun k => by rw [State.ctx, State.ctx, hc]
  refine ⟨?_, hm, fun k _ => hctx k, by rw [hctx], fun k off _ _ => hw _ (offStacks_ctxA k off)⟩
  rw [hc]
  exact h

theorem Looked.refl (c : Nat) (s : State) : Looked c s s := ⟨rfl, fun _ => rfl, fun _ _ => rfl, rfl, fun _ _ _ _ => rfl⟩

theorem Looked.trans {c : Nat} {s t u : State} (h : Looked c s t) (g : Looked c t u) : Looked c s u := by
  obtain ⟨hframe, hmem, hother, hctx, hreg⟩ := h
  obtain ⟨gframe, gmem, gother, gctx, greg⟩ := g
  refine ⟨?_, keepsMem.trans hmem gmem, fun k hk => (gother k hk).trans (hother k hk), ?_, fun k off hk ho =>
    (greg k off hk ho).trans (hreg k off hk ho)⟩
  · rw [gframe, hframe]
  · rw [gctx, hctx]

theorem Looked.forAll {c : Nat} {α : Type} (l : List α) (f : α → State → State) (hf : ∀ a s, Looked c s (f a s)) (s : State) :
    Looked c s (forAll l f s) :=
  forAll_induct (P := Looked c s) (fun a t h => h.trans (hf a t)) l (Looked.refl c s)

theorem Looked.ite {c : Nat} (p : Prop) [Decidable p] {s a b : State} (ha : Looked c s a) (hb : Looked c s b) :
    Looked c s (if p then a else b) := by split <;> assumption

theorem State.devTouch_looked (s : State) (c a n : Nat) : Looked c s (s.devTouch a n) :=
  (s.devTouch_stacks a n).looked (s.devTouch_others a n) (s.devTouch_keepsMem a n) c

theorem State.walkTouch_looked (s : State) (c va : Nat) : Looked c s (s.walkTouch c va) := by
  unfold State.walkTouch
  split
  · next g _ _ =>
    have h1 := s.devTouch_looked c (g.ttRoot + va / 2 ^ 32 * 8) 8
    dsimp only
    split
    · exact h1
    · exact Looked.ite _ (Looked.ite _ (h1.trans (State.devTouch_looked _ _ _ _))
        ((h1.trans (State.devTouch_looked _ _ _ _)).trans (State.devTouch_looked _ _ _ _))) h1
  · exact Looked.refl c s

/-- A change of a context's translation cache alone. -/
theorem State.modCtx_looked (s : State) (c : Nat) (f : Ctx → Ctx) (hf : ∀ x, ∃ l, f x = { x with tlb := l }) : Looked c s (s.modCtx c f) := by
  obtain ⟨l, hl⟩ := hf (s.ctx c)
  refine ⟨rfl, fun _ => rfl, fun k hk => ?_, ?_, fun _ _ _ _ => rfl⟩
  · rw [State.modCtx_eq, State.ctx_setCtx, if_neg hk]
  · rw [State.modCtx_eq, State.ctx_setCtx_self, hl]

theorem State.fillTlb_looked (s : State) (c va : Nat) : Looked c s (s.fillTlb c va) := by
  have h := s.walkTouch_looked c va
  unfold State.fillTlb
  dsimp only
  split
  · exact h
  · refine h.trans (State.modCtx_looked _ c _ fun x => ?_)
    split <;> exact ⟨_, rfl⟩

theorem State.vaTouch_looked (s : State) (c va n : Nat) : Looked c s (s.vaTouch c va n) := by
  refine Looked.forAll _ _ (fun p t => ?_) s
  have h := t.fillTlb_looked c p.1
  dsimp only
  split
  · exact h
  · exact h.trans (State.devTouch_looked _ _ _ _)

theorem State.liveTouch_looked (s : State) (c va n : Nat) : Looked c s (s.liveTouch c va n) := by
  refine Looked.forAll _ _ (fun p t => ?_) s
  split
  · exact Looked.refl c t
  · exact t.vaTouch_looked c _ _

end Sys2Proof.Machine
end

section
/-! SUPPORT. Entries taken from the ring of a context (R382), FENCE, FLUSH and CANCEL (R386), the tables of STAGE_LINKS and VERSION_RINGS
(R170 to R172, R188). -/

namespace Sys2Proof.Machine

/-! ## Taking an entry -/

theorem State.popRing_ctx_spec {s : State} {c : Nat} (hc : c < 1024) :
    (s.popRing (.ctx c)).cf c Off.CTX_CMD_PTR 15 0 = (s.cf c Off.CTX_CMD_PTR 15 0 + 1) % 2 ^ s.cf c Off.CTX_CMD_CTL 4 0 % 2 ^ 16
      ∧ (s.popRing (.ctx c)).cf c Off.CTX_CMD_PTR 31 16 = s.cf c Off.CTX_CMD_PTR 31 16
      ∧ ∃ z, Looked c s z ∧ s.popRing (.ctx c) = { z with regs := (s.popRing (.ctx c)).regs }
        ∧ sameRegsBut [ctxA c Off.CTX_CMD_PTR] z (s.popRing (.ctx c)) := by
  have looked : Looked c s (s.entryTouch (.ctx c)) := s.liveTouch_looked c _ 64
  have hreg := looked.2.2.2.2 c Off.CTX_CMD_PTR hc (by decide)
  refine ⟨?_, ?_, s.entryTouch (.ctx c), looked, rfl, fun a ha => ?_⟩
  · simp only [State.popRing, State.cf_eq, State.rf_eq, State.wf_eq, RingOf.addr, State.reg_setReg_self]
    rw [fld_ins_self _ 15 0 _ (by decide) (by decide)]
  · simp only [State.popRing, State.cf_eq, State.rf_eq, State.wf_eq, RingOf.addr, State.reg_setReg_self]
    rw [fld_ins_above _ 15 0 _ 31 16 (by decide) (by decide) (by decide), hreg]
  · exact sameRegsBut.setReg _ _ _ a ha

theorem State.popRing_done (s : State) (c : Nat) : (s.popRing (.ctx c)).cycle.done = s.cycle.done := by
  have looked : Looked c s (s.entryTouch (.ctx c)) := s.liveTouch_looked c _ 64
  change (s.entryTouch (.ctx c)).cycle.done = _
  rw [looked.1]

/-- A row that serves entries of a context's ring. -/
def ServesRing (c : Nat) (i : Instr) : Prop :=
  ∃ (mine : Bits512 → Bool) (act : State → Bits512 → State), ∀ s, exec i s = s.ctxCommand c mine (act s)

theorem ServesRing.of_mem {c : Nat} {i : Instr}
    (h : i ∈ [Instr.stageLinks c, .versionRings c, .rollback c, .snapshot c, .exportRing c, .flush c, .cancel c, .fence (some c) .mgmt]) :
    ServesRing c i := by
  simp only [List.mem_cons, List.not_mem_nil, or_false] at h
  rcases h with rfl | rfl | rfl | rfl | rfl | rfl | rfl | rfl
  all_goals exact ⟨_, _, fun s => rfl⟩

/-- What a row does with an entry at HEAD that it does not take. -/
theorem ServesRing.exec {c : Nat} {i : Instr} (h : ServesRing c i) {s t : State} (hhead : ∀ mine, s.ctxHead c mine = .inr t) :
    Machine.exec i s = .next t := by
  obtain ⟨mine, act, hi⟩ := h
  rw [hi, State.ctxCommand, hhead]

/-- Settles O38: a read keeps bytes, HEAD moves on, and entries that do not run are decided at the head of the ring. -/
theorem ringEntriesAreTaken : Obligations.RingEntriesAreTaken := by
  unfold Obligations.RingEntriesAreTaken
  refine ⟨fun s c a n _ => ⟨s.liveTouch_looked c a n, s.devTouch_looked c a n, (s.devTouch_keeps a n).1⟩, fun s c status w2 e hc => ?_,
    fun s c i e hopen hfirst hi => ?_⟩
  · intro u v
    obtain ⟨h1, h2, h3⟩ := State.popRing_ctx_spec (s := s) hc
    refine ⟨h1, h2, h3, ?_⟩
    rw [← s.popRing_done c]
    rfl
  · have serves := ServesRing.of_mem hi
    refine ⟨fun hphase he => ?_, fun hphase he hw hok => ?_, fun hphase he hw hok hstray => ?_, fun hphase he => ?_⟩
    · refine ⟨_, serves.exec fun mine => ?_, rfl⟩
      simp [State.ctxHead, hopen, hfirst, hphase, he]
    · refine ⟨_, serves.exec fun mine => ?_, rfl⟩
      simp [State.ctxHead, hopen, hfirst, hphase, he, hw, hok]
    · refine ⟨_, serves.exec fun mine => ?_, rfl⟩
      simp [State.ctxHead, hopen, hfirst, hphase, he, hw, hok, hstray]
    · refine ⟨_, serves.exec (t := s.ctxFault c 20) fun mine => ?_, s.detected_detect _⟩
      simp [State.ctxHead, hopen, hfirst, hphase, he]

/-! ## FENCE, FLUSH and CANCEL -/

theorem State.modCtx_onlyCtx (s : State) (c : Nat) (f : Ctx → Ctx) : onlyCtx c s (s.modCtx c f) :=
  ⟨rfl, fun k hk => by rw [State.modCtx_eq, State.ctx_setCtx, if_neg hk]⟩

theorem State.modCtx_self (s : State) (c : Nat) (f : Ctx → Ctx) : (s.modCtx c f).ctx c = f (s.ctx c) := by
  rw [State.modCtx_eq, State.ctx_setCtx_self]

theorem State.completeLaunches_ctxs (s : State) (c status : Nat) (l : List Launch) : (s.completeLaunches c status l).ctxs = s.ctxs := by
  unfold State.completeLaunches
  exact forAll_induct (α := Launch) (P := fun t => t.ctxs = s.ctxs) (f := fun x t => t.complete (.ctx c) (t.cpl x.seq 2 status x.t0 0))
    (fun x t h => h) _ rfl

theorem State.cancellable_eq {s : State} {c : Nat} (h : s.justReady c = none) : s.cancellable c = (s.ctx c).queue := by
  rw [State.cancellable, h]
  rfl

theorem State.unqueue_eq {s : State} {c : Nat} (h : s.justReady c = none) (l : List Launch) :
    s.unqueue c l = s.modCtx c fun x => { x with queue := x.queue.diff l } := by
  rw [State.unqueue, h]
  rfl

theorem List.diff_self_eq_nil {α : Type} [DecidableEq α] (l : List α) : l.diff l = [] := by
  induction l with
  | nil => rfl
  | cons a r ih => rw [List.diff_cons, List.erase_cons_head, ih]

/-- Settles O41: each row acts on the entry it serves, and a launch queue loses exactly the launches completed. -/
theorem fenceFlushCancel : Obligations.FenceFlushCancel := by
  unfold Obligations.FenceFlushCancel
  intro s c e h
  refine ⟨fun hop src => ?_, fun hop hready => ?_, fun hop hready => ?_⟩
  · exact ⟨_, h.ctxCommand (mine := fun e => cmdOp e = 6) (by simp [hop]) fun e => s.finish (.ctx c) e 0 0, rfl⟩
  · have hrun := h.ctxCommand (mine := fun e => cmdOp e = 7) (by simp [hop]) fun e =>
      ((s.unqueue c (s.cancellable c)).completeLaunches c 1 (s.cancellable c)).finish (.ctx c) e 0 0
    rw [State.cancellable_eq hready, State.unqueue_eq hready] at hrun
    have hz := s.modCtx_self c fun x => { x with queue := x.queue.diff (s.ctx c).queue }
    rw [List.diff_self_eq_nil] at hz
    refine ⟨_, (by rw [exec_flush, execFlush, State.cancellable_eq hready, State.unqueue_eq hready]; exact hrun), _, s.modCtx_onlyCtx c _, hz, rfl, ?_⟩
    rw [((State.finish_butTlb _ (.ctx c) e 0 0).launches c).1, State.ctx, State.completeLaunches_ctxs]
    exact congrArg Ctx.queue hz
  · have hrun := h.ctxCommand (mine := fun e => cmdOp e = 8) (by simp [hop]) fun e =>
      match (s.cancellable c).find? fun l => l.seq.toNat = w512 e 1 with
      | none => s.finish (.ctx c) e 12 0
      | some l => ((s.unqueue c [l]).completeLaunches c 2 [l]).finish (.ctx c) e 0 0
    have hexec : exec (.cancel c) s = _ := hrun
    rw [State.cancellable_eq hready] at hexec
    refine ⟨fun hnone => ?_, fun l hl => ?_⟩
    · have hfind : (s.ctx c).queue.find? (fun l => l.seq.toNat = w512 e 1) = none :=
        List.find?_eq_none.mpr fun l hl => by simpa using hnone l hl
      rw [hfind] at hexec
      exact ⟨_, hexec, rfl⟩
    · rw [hl] at hexec
      dsimp only at hexec
      rw [State.unqueue_eq hready] at hexec
      refine ⟨_, hexec, _, s.modCtx_onlyCtx c _, ?_, rfl⟩
      rw [State.modCtx_self, List.diff_cons, List.diff_nil]

/-! ## STAGE_LINKS and VERSION_RINGS -/

theorem State.flushQueue_others (s : State) (c l : Nat) {k : Nat} (hk : k ≠ c) : (s.flushQueue c l).ctx k = s.ctx k := by
  have mod : ∀ (t : State) (f : Ctx → Ctx), (t.modCtx c f).ctx k = t.ctx k := fun t f => (t.modCtx_onlyCtx c f).2 k hk
  have flow : ∀ t : State, (t.flowUpdate c l).ctx k = t.ctx k := fun t => by
    obtain he | ⟨f, he | ⟨m, he⟩⟩ := t.flowUpdate_cases c l
    · rw [he]
    · rw [he]
      exact mod _ _
    · rw [he, State.ctx, State.sendLinkctl_none_ctxs]
      exact mod _ _
  unfold State.flushQueue
  extract_lets q a gone s1 s2
  have h1 : s1.ctx k = s.ctx k :=
    forAll_induct (P := fun t => t.ctx k = s.ctx k) (f := fun id t => t.dropXfer c id) (fun id t h => (mod t _).trans h) gone (mod s _)
  have h2 : keepsCtxs s1 s2 := ((s1.wf_keeps a 31 0 _).trans (State.wf_keeps _ a 41 32 l)).trans (State.wf_keeps _ a 42 42 _)
  rw [flow, State.ctx, h2.1]
  exact h1

/-- Settles O42: the tables of a readable payload stand whole, every other payload leaves them. -/
theorem linkAndRingTablesAreReplacedWhole : Obligations.LinkAndRingTablesAreReplacedWhole := by
  unfold Obligations.LinkAndRingTablesAreReplacedWhole
  intro s c e h
  refine ⟨fun hp => ?_, fun hp => ?_⟩
  · intro y
    have looked : Looked c s y := s.liveTouch_looked c _ _
    refine ⟨fun b t hb ht hfit => ?_, fun b t hb ht hfit => ?_, fun hb => ?_, fun b hb ht => ?_⟩
    · generalize hw : forAll (y.changedLinks c t) (fun l u => u.flushQueue c l) y = w
      have hz := w.modCtx_self c fun x => { x with links := t }
      refine ⟨(w.modCtx c fun x => { x with links := t }).finish (.ctx c) e 0 0, ?_, _, ?_, fun k hk => ?_, rfl, ?_, fun hnil => ?_⟩
      · rw [exec_stageLinks, execStageLinks, h.ctxCommand hp]
        dsimp only
        rw [hb, Option.bind_some, ht]
        exact congrArg _ ((if_pos hfit).trans (by rw [hw]))
      · rw [hz]
      · rw [(w.modCtx_onlyCtx c _).2 k hk, ← looked.2.2.1 k hk, ← hw]
        exact forAll_induct (P := fun u => u.ctx k = y.ctx k) (fun l u hu => (u.flushQueue_others c l hk).trans hu) _ rfl
      · obtain ⟨l, hl⟩ := (w.modCtx c fun x => { x with links := t }).finish_butTlb (.ctx c) e 0 0 c
        rw [hl, hz]
      · rw [hz, ← hw, hnil]
        rfl
    · refine ⟨_, ?_, rfl⟩
      rw [exec_stageLinks, execStageLinks, h.ctxCommand hp]
      dsimp only
      rw [hb, Option.bind_some, ht]
      exact congrArg _ (if_neg (Bool.eq_false_iff.mp hfit))
    · refine ⟨_, ?_, rfl⟩
      rw [exec_stageLinks, execStageLinks, h.ctxCommand hp]
      dsimp only
      rw [hb, Option.bind_none]
    · refine ⟨_, ?_, rfl⟩
      rw [exec_stageLinks, execStageLinks, h.ctxCommand hp]
      dsimp only
      rw [hb, Option.bind_some, ht]
  · intro y
    refine ⟨fun hb => ?_, fun b hb => ⟨fun hbad => ?_, fun hok => ?_⟩⟩
    · refine ⟨_, ?_, rfl⟩
      rw [exec_versionRings, execVersionRings, h.ctxCommand hp]
      dsimp only
      rw [hb]
    · refine ⟨_, ?_, rfl⟩
      rw [exec_versionRings, execVersionRings, h.ctxCommand hp]
      dsimp only
      rw [hb]
      exact congrArg _ (if_neg (by simp [hbad]))
    · have hz := y.modCtx_self c fun x => { x with rings := (entriesOf b).zipIdx.map fun r => (r.2, vringOf r.1) }
      refine ⟨(y.modCtx c fun x => { x with rings := (entriesOf b).zipIdx.map fun r => (r.2, vringOf r.1) }).finish (.ctx c) e 0 0, ?_, _,
        y.modCtx_onlyCtx c _, hz, rfl, ?_⟩
      · rw [exec_versionRings, execVersionRings, h.ctxCommand hp]
        dsimp only
        rw [hb]
        exact congrArg _ (if_pos hok)
      · obtain ⟨l, hl⟩ := (y.modCtx c fun x => { x with rings := (entriesOf b).zipIdx.map fun r => (r.2, vringOf r.1) }).finish_butTlb (.ctx c) e 0 0 c
        rw [hl]

end Sys2Proof.Machine
end

section
/-! SUPPORT. LOAD_PLAN (R92, R95, R99): the plan set that replaces another, and the end of its filling. -/

namespace Sys2Proof.Machine

theorem State.planTouch_looked (s : State) (c a : Nat) (p : PlanImage) : Looked c s (s.planTouch c a p) :=
  (((s.liveTouch_looked c a 64).trans (State.liveTouch_looked _ c _ _)).trans (State.liveTouch_looked _ c _ _)).trans
    (Looked.forAll _ _ (fun _ u => (u.liveTouch_looked c _ _).trans (State.liveTouch_looked _ c _ _)) _)

theorem onlyCtx.trans {c : Nat} {s t u : State} (h : onlyCtx c s t) (g : onlyCtx c t u) : onlyCtx c s u := by
  obtain ⟨hframe, hother⟩ := h
  obtain ⟨gframe, gother⟩ := g
  refine ⟨?_, fun k hk => (gother k hk).trans (hother k hk)⟩
  unfold onlyCtxs at *
  rw [gframe, hframe]

theorem Ctx.withPlan_tiles (x : Ctx) (p : PlanImage) (seq : BitVec 32) :
    (x.withPlan p seq).tiles.map (fun t => (t.1, t.2.length)) = p.tiles.zipIdx.map fun r => (r.2, r.1.dir.length) := by
  rw [Ctx.withPlan, List.map_map]
  rfl

/-- What LOAD_PLAN does with the entry it takes (R99). -/
theorem CtxTakes.loadPlan {s : State} {c : Nat} {e : Bits512} (h : CtxTakes s c e) (hop : cmdOp e = 1) (hready : s.coursesReady c = true) :
    (∀ f, s.checkPlan c (w512 e 1) = .inl f →
      exec (.loadPlan c) s = .next (((s.liveTouch c (w512 e 1) 64).modCtx c Ctx.unplanned).finish (.ctx c) e 5 f.word))
    ∧ ∀ p, s.checkPlan c (w512 e 1) = .inr p →
      exec (.loadPlan c) s = .next (((s.planTouch c (w512 e 1) p).modCtx c fun x => x.withPlan p (cmdSeq e)).popRing (.ctx c)) := by
  have hrun : exec (.loadPlan c) s = _ :=
    (if_neg (by simp [hready])).trans (h.ctxCommand (mine := fun e => cmdOp e = 1) (by simp [hop]) _)
  refine ⟨fun f hf => ?_, fun p hp => ?_⟩
  · rw [hrun, hf]
  · rw [hrun, hp]

/-- Settles O39: a plan set is checked before it replaces another, and its frames are filled before the command completes. -/
theorem loadPlanChecksThenFillsThePlanStore : Obligations.LoadPlanChecksThenFillsThePlanStore := by
  unfold Obligations.LoadPlanChecksThenFillsThePlanStore
  refine ⟨fun s c e h hop hready => ?_, fun s c seq hopen => ?_⟩
  · obtain ⟨hfails, hpasses⟩ := h.loadPlan hop hready
    refine ⟨fun f hf => ?_, fun p hp => ?_⟩
    · refine ⟨_, hfails f hf, _, _, s.liveTouch_looked c _ _, State.modCtx_onlyCtx _ c _, ?_, rfl⟩
      rw [State.modCtx_self]
      rfl
    · have hz := (s.planTouch c (w512 e 1) p).modCtx_self c fun x => x.withPlan p (cmdSeq e)
      obtain ⟨l, hl⟩ := State.popRing_butTlb ((s.planTouch c (w512 e 1) p).modCtx c fun x => x.withPlan p (cmdSeq e)) (.ctx c) c
      refine ⟨_, hpasses p hp, ?_, ?_, ?_, _, _, s.planTouch_looked c _ p, State.modCtx_onlyCtx _ c _, rfl⟩
      · rw [hl, hz]
        rfl
      · rw [hl, hz]
        rfl
      · rw [hl, hz]
        exact Ctx.withPlan_tiles _ p (cmdSeq e)
  · refine ⟨fun hread => ?_, fun f hread => ?_⟩
    · have hrun : exec (.loadPlanComplete c) s =
          .next ((s.modCtx c fun x => { x with tiles := x.tiles.mapVals fun _ t => s.filled c t }).closeCmd c seq 1 0 0) := by
        simp only [exec_loadPlanComplete, execLoadPlanComplete, hopen, hread]
      refine ⟨_, hrun, _, (s.modCtx_onlyCtx c _).trans (State.modCtx_onlyCtx _ c _), ?_, ?_, fun e he => ?_, rfl⟩
      · rw [State.modCtx_self]
      · rw [State.modCtx_self, State.modCtx_self]
      · rw [State.modCtx_self, State.modCtx_self]
        exact ⟨_, List.mem_map_of_mem he, rfl⟩
    · have hrun : exec (.loadPlanComplete c) s = .next ((s.modCtx c Ctx.unplanned).closeCmd c seq 1 5 f.word) := by
        simp only [exec_loadPlanComplete, execLoadPlanComplete, hopen, hread]
      refine ⟨_, hrun, _, (s.modCtx_onlyCtx c _).trans (State.modCtx_onlyCtx _ c _), ?_, ?_, rfl⟩
      · rw [State.modCtx_self]
      · rw [State.modCtx_self, State.modCtx_self]
        rfl

end Sys2Proof.Machine
end

section
/-! SUPPORT. Commands of the physical function (R387): GROUP and REFORM (R264, R265, R281, R282), ROUTE and PREFIX (R292, R293), CONTEXT,
BIND and FWACT (R371, R374, R375, R403). -/

namespace Sys2Proof.Machine

/-- A row that serves the command which runs now acts on it (R382, R387). -/
theorem PfTakes.pfCommand {s : State} {src : PfSrc} {e : Bits512} (h : PfTakes s src e) {mine : Bits512 → Bool} (hm : mine e = true)
    (act : Bits512 → State) : s.pfCommand src mine act = .next (act e) := by
  obtain ⟨hentry, hok, hstray⟩ := h
  have hhead : s.pfHead src mine = .inl e := by
    simp only [State.pfHead, hentry, hok, hstray, hm, Bool.not_true, Bool.false_eq_true, if_false, if_true]
  unfold State.pfCommand
  rw [hhead]

theorem State.devTouch_ctx (s : State) (a n k : Nat) : (s.devTouch a n).ctx k = s.ctx k := by
  rw [State.ctx, (s.devTouch_keeps a n).1, State.ctx]

/-! ## GROUP and REFORM -/

theorem Looked.groups {c : Nat} {s t : State} (h : Looked c s t) : t.groups = s.groups := by rw [h.1]

/-- What GROUP does with the command it takes and an entry that can be read (R264). -/
theorem PfTakes.group {s : State} {src : PfSrc} {e : Bits512} (h : PfTakes s src e) (hp : isParam 3 e = true) {b : List Byte}
    (hb : (s.devTouch (w512 e 2) 64).pfRead (w512 e 2) 64 = some b) {d : Bits512} (hd : d = BitVec.ofNat 512 (leNat b))
    (hrun : (s.ctx (groupOf d).ctx).running = none) {w : State}
    (hw : w = (s.devTouch (w512 e 2) 64).liveTouch (groupOf d).ctx (w512 d 1) (if bitAt (w512 d 0) 0 then 4 * groupP d else 0)) :
    exec (.group src) s
      = .next ((w.groupCommand (bits (w512 e 3) 11 0) d).1.pfFinish src e (w.groupCommand (bits (w512 e 3) 11 0) d).2) := by
  rw [exec_group, execGroup, h.pfCommand hp]
  dsimp only
  rw [hb]
  dsimp only
  rw [← hd, if_neg (by simp [hrun]), ← hw]

theorem State.modCtx_groups (s : State) (c : Nat) (f : Ctx → Ctx) : (s.modCtx c f).groups = s.groups := rfl

section
variable {s : State} {gi : Nat} {d : Bits512}

/-- No other context has an index. -/
def State.indexFree (s : State) (gi c : Nat) : Prop := (Table.get? s.groups gi).any (fun o => decide (o.ctx ≠ c)) = false

theorem State.indexFree_of {c : Nat} (h : ∀ o, Table.get? s.groups gi = some o → o.ctx = c) : s.indexFree gi c := by
  unfold State.indexFree
  cases ho : Table.get? s.groups gi with
  | none => rfl
  | some o => simp [h o ho]

theorem State.groupCommand_install (hv : bitAt (w512 d 0) 0 = true) (hfree : s.indexFree gi (groupOf d).ctx) (hok : groupOk d = true)
    (hpool : s.poolOk gi (groupOf d) = true) {l : List Nat} (hl : s.memberList (groupOf d).ctx (w512 d 1) (groupP d) (groupOf d).self = some l) :
    s.groupCommand gi d = (s.installGroup gi { groupOf d with members := l }, 0) := by
  unfold State.indexFree at hfree
  unfold State.groupCommand
  dsimp only
  rw [hfree, hv]
  simp [hok, hpool, hl]

theorem State.groupCommand_refuse (hv : bitAt (w512 d 0) 0 = true) (hfree : s.indexFree gi (groupOf d).ctx)
    (hbad : groupOk d = false ∨ s.poolOk gi (groupOf d) = false) : s.groupCommand gi d = (s, 6) := by
  unfold State.indexFree at hfree
  unfold State.groupCommand
  dsimp only
  rw [hfree, hv]
  rcases hbad with hbad | hbad <;> simp [hbad]

theorem State.groupCommand_erase (hv : bitAt (w512 d 0) 0 = false) (hfree : s.indexFree gi (groupOf d).ctx)
    (hsome : (Table.get? s.groups gi).isSome = true) :
    s.groupCommand gi d = ({ s with groups := Table.erase s.groups gi }.modCtx (groupOf d).ctx fun x => x.dropGroup gi, 0) := by
  have hnone : (Table.get? s.groups gi).isNone = false := by rw [← Option.not_isSome, hsome]; rfl
  unfold State.indexFree at hfree
  unfold State.groupCommand
  dsimp only
  rw [hfree, hv]
  simp [hnone]

end

/-- A group that is re-formed with no launch and no open collective of it is replaced in the table. -/
theorem State.reformGroup_groups {s : State} {gi : Nat} {g : Group} (l : List Nat) (self : Nat) (epoch : BitVec 16)
    (hrun : (s.ctx g.ctx).running = none) (hend : (s.ctx g.ctx).ended = []) (hinst : ∀ x ∈ (s.ctx g.ctx).insts, x.2.group ≠ gi) :
    (s.reformGroup gi g l self epoch).groups
      = Table.set s.groups gi { g with epoch := epoch, members := l, self := self, seq := 0, votes := [] } := by
  have hopen : ((s.ctx g.ctx).insts.filter fun e => e.2.group = gi && e.2.epoch = g.epoch) = [] :=
    List.filter_eq_nil_iff.mpr fun e he => by simp [hinst e he]
  have hlaunch : ∀ t : State, (t.ctx g.ctx).launches = [] → t.abortVerdicts g.ctx gi g.epoch = t := fun t ht => by
    unfold State.abortVerdicts
    split
    · rfl
    · rw [ht]
      rfl
  unfold State.reformGroup
  extract_lets s1 open_ s2
  have h1 : s1.ctx g.ctx = s.ctx g.ctx := rfl
  have h2 : s2 = s1 := by
    have hnil : open_ = [] := by
      unfold open_
      rw [h1, hopen]
      rfl
    unfold s2
    rw [hnil]
    rfl
  rw [h2, hlaunch]
  · rfl
  · rw [State.modCtx_self, h1]
    simp [Ctx.launches, Ctx.dropGroup, hrun, hend]

/-- Settles O45: the table of groups changes at one index, by the entry that keeps the rules. -/
theorem groupsAreInstalledAndReformed : Obligations.GroupsAreInstalledAndReformed := by
  unfold Obligations.GroupsAreInstalledAndReformed
  intro s src e h gi
  refine ⟨fun hp => ?_, fun hp g l hg => ?_⟩
  · intro y b hb d g w hrun
    have looked : Looked g.ctx y w := y.liveTouch_looked _ _ _
    have hgroups : w.groups = s.groups := looked.groups.trans (s.devTouch_looked 0 _ _).groups
    have hother : ∀ k, k ≠ g.ctx → w.ctx k = s.ctx k := fun k hk => (looked.2.2.1 k hk).trans (s.devTouch_ctx _ _ k)
    have hrun' := h.group hp hb (d := d) rfl hrun (w := w) rfl
    refine ⟨fun hvalid hown => ⟨fun hok hpool l hl => ?_, fun hbad => ?_⟩, fun hvalid hown => ?_⟩
    · rw [State.groupCommand_install hvalid (State.indexFree_of (hgroups ▸ hown)) hok hpool hl] at hrun'
      refine ⟨_, hrun', _, rfl, ?_, fun j hj => ?_, fun k hk => ?_, rfl, rfl, rfl, rfl, rfl, rfl, rfl⟩
      · rw [State.installGroup, State.modCtx_groups, Table.get?_set, if_pos rfl]
      · rw [State.installGroup, State.modCtx_groups, Table.get?_set, if_neg hj, hgroups]
      · exact ((State.modCtx_onlyCtx _ _ _).2 k hk).trans (hother k hk)
    · rw [State.groupCommand_refuse hvalid (State.indexFree_of (hgroups ▸ hown)) hbad] at hrun'
      exact ⟨_, hrun', rfl⟩
    · obtain ⟨o, ho, hctx⟩ := hown
      have hone : ∀ q, Table.get? w.groups gi = some q → q.ctx = g.ctx := fun q hq => by
        rw [hgroups, ho] at hq
        cases hq
        exact hctx
      rw [State.groupCommand_erase hvalid (State.indexFree_of hone) (by rw [hgroups, ho]; rfl)] at hrun'
      refine ⟨_, hrun', _, rfl, ?_, fun j hj => ?_, fun k hk => ?_, rfl, rfl, rfl, rfl, rfl, rfl, rfl⟩
      · rw [State.modCtx_groups, Table.get?_erase, if_pos rfl]
      · rw [State.modCtx_groups, Table.get?_erase, if_neg hj, hgroups]
      · exact ((State.modCtx_onlyCtx _ _ _).2 k hk).trans (hother k hk)
  · intro p self y
    have looked : Looked g.ctx s y := s.liveTouch_looked _ _ _
    have hepoch : bits (w512 e 3) 27 12 = (g.epoch + 1).toNat → BitVec.ofNat 16 (bits (w512 e 3) 27 12) = g.epoch + 1 := fun he => by
      rw [he, BitVec.ofNat_toNat, BitVec.setWidth_eq]
    have taken : bits (w512 e 3) 27 12 = (g.epoch + 1).toNat → 0 < p → p ≤ 65536 → self < p → (g.alg = 2 → p % g.node = 0) →
        y.memberList g.ctx (w512 e 2) p self = some l →
        exec (.reform src) s = .next ((y.reformGroup gi g l self (g.epoch + 1)).pfFinish src e 0) := fun he hp0 hp1 hself halg hl => by
      rw [exec_reform, execReform, h.pfCommand hp]
      dsimp only
      rw [hg, hepoch he]
      dsimp only
      rw [if_neg, hl]
      have halg' : ¬(g.alg = 2 ∧ p % g.node ≠ 0) := fun hc => hc.2 (halg hc.1)
      simp only [ne_eq, not_true_eq_false, decide_false, Bool.false_or, Bool.or_eq_true, decide_eq_true_eq, Bool.and_eq_true] at halg' ⊢
      rintro (((hc | hc) | hc) | hc)
      · exact hp0.ne' hc
      · exact Nat.not_lt.mpr hp1 hc
      · exact Nat.not_lt.mpr hc hself
      · exact halg' hc
    refine ⟨fun he hp0 hp1 hself halg hl hrun hend hinst => ?_, fun he hp0 hp1 hself halg hl => ?_, fun he => ?_⟩
    · have hctx := looked.2.2.2.1
      have hz := State.reformGroup_groups (s := y) l self (g.epoch + 1) (by rw [hctx]; exact hrun) (by rw [hctx]; exact hend)
        (by rw [hctx]; exact hinst)
      refine ⟨_, taken he hp0 hp1 hself halg hl, _, rfl, ?_, fun j hj => ?_⟩
      · rw [hz, Table.get?_set, if_pos rfl]
      · rw [hz, Table.get?_set, if_neg hj, looked.groups]
    · exact ⟨_, taken he hp0 hp1 hself halg hl, rfl⟩
    · refine ⟨_, ?_, rfl⟩
      rw [exec_reform, execReform, h.pfCommand hp]
      dsimp only
      rw [hg]
      dsimp only
      refine congrArg _ (if_pos ?_)
      have hne : BitVec.ofNat 16 (bits (w512 e 3) 27 12) ≠ g.epoch + 1 := fun hc => he (by
        rw [← hc, BitVec.toNat_ofNat]
        exact (Nat.mod_eq_of_lt (Nat.mod_lt _ (by decide))).symm)
      simp only [Bool.or_eq_true, decide_eq_true_eq]
      exact .inl (.inl (.inl (.inl hne)))

end Sys2Proof.Machine
end

section
/-! SUPPORT. CONTEXT, BIND and FWACT of the physical function (R371, R374, R375, R403). -/

namespace Sys2Proof.Machine

/-- Bringing a promise up to date touches transfers and queues of contexts alone (R60, R173). -/
theorem Ctx.linkOrder_rest (x : Ctx) : ∃ xs qs, x.linkOrder = { x with xfers := xs, queues := qs } := by
  unfold Ctx.linkOrder
  refine List.foldlRecOn x.queues _ (motive := fun y : Ctx => ∃ xs qs, y = { x with xfers := xs, queues := qs }) ⟨_, _, rfl⟩ fun y hy e _ => ?_
  obtain ⟨xs, qs, rfl⟩ := hy
  split <;> exact ⟨_, _, rfl⟩

theorem State.refreshPromise_ctx (s : State) (c k : Nat) : ∃ xs qs, (s.refreshPromise c).ctx k = { s.ctx k with xfers := xs, queues := qs } := by
  unfold State.refreshPromise
  extract_lets a old new s1
  have h1 : keepsCtxs s s1 := s.wf_keeps a 1 0 new
  have hsat : ∀ hi lo, keepsCtxs s (s1.sat a hi lo 1) := fun hi lo => h1.trans (s1.counts_keep a hi lo 1).1
  have kept : ∀ t : State, keepsCtxs s t → ∃ xs qs, t.ctx k = { s.ctx k with xfers := xs, queues := qs } := fun t h =>
    ⟨_, _, by rw [State.ctx, h.1]; rfl⟩
  split
  · exact kept s (keepsCtxs.refl s)
  · split
    · rw [State.modCtx_eq, State.ctx_setCtx]
      split
      · next hk =>
        subst hk
        obtain ⟨xs, qs, h⟩ := Ctx.linkOrder_rest { (s1.sat a 15 8 1).ctx k with
          xfers := ((s1.sat a 15 8 1).ctx k).xfers.mapVals fun _ y => if y.deadline.any (s.now ≤ ·) then { y with deadline := none } else y }
        refine ⟨xs, qs, h.trans ?_⟩
        rw [State.ctx, (hsat 15 8).1]
        rfl
      · exact kept _ (hsat 15 8)
    · split
      · exact kept _ (hsat 31 16)
      · exact kept _ h1

theorem State.resetting_ctx (s : State) (c : Nat) :
    (((s.modCtx c fun x => { x with phase := .resetting }).refreshPromise c).ctx c).phase = .resetting
      ∧ (((s.modCtx c fun x => { x with phase := .resetting }).refreshPromise c).ctx c).plan = (s.ctx c).plan := by
  obtain ⟨xs, qs, h⟩ := State.refreshPromise_ctx (s.modCtx c fun x => { x with phase := .resetting }) c c
  rw [h, State.modCtx_self]
  exact ⟨rfl, rfl⟩

/-- A context that is reset is resetting, with no plan set (R402). -/
theorem State.ctxReset_ctx {s : State} {c : Nat} (hc : c < 1024) (hphase : (s.ctx c).phase ≠ .resetting) :
    ((s.ctxReset c).ctx c).phase = .resetting ∧ ((s.ctxReset c).ctx c).plan = none := by
  unfold State.ctxReset
  rw [if_neg (by rintro (h | h); exacts [Nat.not_le.mpr hc h, hphase h])]
  exact ⟨(State.resetting_ctx _ c).1, (State.resetting_ctx _ c).2.trans (congrArg Ctx.plan (State.modCtx_self _ c Ctx.cleared))⟩

theorem onlyStacks.die {s t : State} (h : onlyStacks s t) (d : Nat) : t.die d = s.die d := by rw [h]; rfl

theorem onlyStacks.alive {s t : State} (h : onlyStacks s t) (d : Nat) : t.alive d = s.alive d := by rw [h]; rfl

theorem Ctx.configured_rest (x : Ctx) (g : CtxCfg) :
    (x.configured g).cfg = some g ∧ (x.configured g).phase = x.phase ∧ (x.configured g).boundB = x.boundB := by
  unfold Ctx.configured
  refine ⟨rfl, ?_, ?_⟩ <;> dsimp only <;> split <;> rfl

theorem cmdCtx_lt (e : Bits512) : cmdCtx e < 1024 := by
  unfold cmdCtx bits
  omega

/-- What CONTEXT does with the command it takes and a descriptor that can be read (R374). -/
theorem PfTakes.context {s : State} {src : PfSrc} {e : Bits512} (h : PfTakes s src e) (hp : isParam 8 e = true) {b : List Byte}
    (hb : (s.devTouch (w512 e 2) 32).pfRead (w512 e 2) 32 = some b) (hbusy : s.busy (cmdCtx e) = false)
    (hopen : (s.ctx (cmdCtx e)).openCmd = none) {y : State} (hy : y = s.devTouch (w512 e 2) 32) :
    exec (.context src) s
      = .next ((y.contextCommand (cmdCtx e) (entryOf b)).1.pfFinish src e (y.contextCommand (cmdCtx e) (entryOf b)).2) := by
  rw [exec_context, execContext, h.pfCommand hp]
  dsimp only
  rw [if_neg (by simp [hbusy, hopen]), hb, hy]

theorem State.refreshPromise_mem (s : State) (c : Nat) : (s.refreshPromise c).mem = s.mem := by
  unfold State.refreshPromise
  extract_lets a old new s1
  split
  · rfl
  · split
    · rfl
    · split <;> rfl

theorem State.refreshAll_mem (s : State) : s.refreshAll.mem = s.mem :=
  forAll_induct (P := fun t => t.mem = s.mem) (fun c t h => (t.refreshPromise_mem c).trans h) _ rfl

theorem State.activate_mem (s : State) : s.activate.mem = s.mem := by
  unfold State.activate
  split
  · rfl
  · rw [State.refreshAll_mem]
    rfl

/-- Firmware activation shows in RDG_FWACT (R403). -/
theorem State.activate_fwact (s : State) : s.activate.rf Off.RDG_FWACT 0 0 = 1 := by
  unfold State.activate
  split
  · assumption
  · rw [State.rf_eq, State.reg_refreshAll _ (by decide), State.wf_eq, State.reg_setReg_self, fld_ins_self _ 0 0 _ (by decide) (by decide)]
    decide

/-- Settles O47: a descriptor is installed or taken away, a context bound, and firmware activation started. -/
theorem physicalFunctionCommandsActOnContexts : Obligations.PhysicalFunctionCommandsActOnContexts := by
  unfold Obligations.PhysicalFunctionCommandsActOnContexts
  intro s src e h c
  refine ⟨fun hp hbusy hopen => ?_, fun hp hopen => ?_, fun hop => ?_, fun hp => ?_⟩
  · intro y b hb d
    have hrun := h.context hp hb hbusy hopen (y := y) rfl
    have hctx : ∀ k, y.ctx k = s.ctx k := fun k => s.devTouch_ctx _ _ k
    refine ⟨?_, fun hen hbad => ?_, fun hen hphase => ?_⟩
    · intro n l g ids hd hok w hstacks hlist hnodup hcourse
      have hstack := s.devTouch_stacks (w512 e 2) 32
      have hall : g.stacks.all (fun t => (y.die (thatchDie t)).ready && y.alive (thatchDie t)) = true := by
        rw [List.all_eq_true]
        intro t ht
        obtain ⟨h1, h2⟩ := hstacks t ht
        rw [hstack.die, hstack.alive, h1, h2]
        rfl
      have hids : ¬((!decide ids.Nodup || !ids.all (w.courseOk c)) = true) := by
        rw [List.all_eq_true.mpr hcourse, decide_eq_true hnodup]
        decide
      refine ⟨fun hshares => ?_, fun hshares => ?_⟩
      · have hcmd : y.contextCommand c d = (w.modCtx c fun x => x.configured { g with courses := ids }, 0) := by
          unfold State.contextCommand
          rw [hd]
          dsimp only
          rw [if_neg (by simp), if_neg (by simp [hok, hall]), hlist]
          dsimp only
          exact (if_neg hids).trans (if_neg (by rw [hshares]; decide))
        rw [hcmd] at hrun
        dsimp only at hrun
        obtain ⟨h1, h2, h3⟩ := (w.ctx c).configured_rest { g with courses := ids }
        have hw : w.ctx c = s.ctx c := (y.devTouch_ctx _ _ c).trans (hctx c)
        refine ⟨_, hrun, _, rfl, ?_, w.modCtx_onlyCtx c _, ?_, ?_⟩
        · rw [State.modCtx_self, h1]
        · rw [State.modCtx_self, h2, hw]
        · rw [State.modCtx_self, h3, hw]
      · have hcmd : y.contextCommand c d = (w, 13) := by
          unfold State.contextCommand
          rw [hd]
          dsimp only
          rw [if_neg (by simp), if_neg (by simp [hok, hall]), hlist]
          dsimp only
          exact (if_neg hids).trans (if_pos (by rw [hshares]; decide))
        rw [hcmd] at hrun
        exact ⟨_, hrun, rfl⟩
    · have hcmd : y.contextCommand c d = (y, 6) := by
        unfold State.contextCommand
        dsimp only
        rw [if_neg (by simp [hen]), if_pos (by simp [hbad])]
      rw [hcmd] at hrun
      exact ⟨_, hrun, rfl⟩
    · have hcmd : y.contextCommand c d = ((y.ctxReset c).modCtx c fun x => { x with cfg := none }, 0) := by
        unfold State.contextCommand
        dsimp only
        rw [if_pos (by simp [hen])]
      rw [hcmd] at hrun
      dsimp only at hrun
      obtain ⟨h1, h2⟩ := State.ctxReset_ctx (s := y) (cmdCtx_lt e) (by rwa [hctx])
      refine ⟨_, hrun, _, rfl, ?_, ?_, ?_⟩
      · rw [State.modCtx_self]
      · rw [State.modCtx_self]
        exact h1
      · rw [State.modCtx_self]
        exact h2
  · have hrun : exec (.bind src) s = .next ((if (s.ctx c).boundB = bitAt (w512 e 3) 0 then s
        else s.modCtx c fun x => { x with boundB := bitAt (w512 e 3) 0, rebinding := true }).pfFinish src e 0) := by
      rw [exec_bind, execBind, h.pfCommand hp]
      dsimp only
      rw [if_neg (by simp [c, hopen])]
    by_cases hsame : (s.ctx c).boundB = bitAt (w512 e 3) 0
    · rw [if_pos hsame] at hrun
      exact ⟨_, hrun, _, rfl, hsame, by simp [hsame], rfl, fun _ _ => rfl⟩
    · rw [if_neg hsame] at hrun
      refine ⟨_, hrun, _, rfl, ?_, ?_, s.modCtx_onlyCtx c _⟩
      · rw [State.modCtx_self]
      · rw [State.modCtx_self]
        simp [hsame]
  · exact ⟨_, h.pfCommand (mine := fun e => cmdOp e = 6) (by simp [hop]) fun e => s.pfFinish src e 0, rfl⟩
  · refine ⟨_, h.pfCommand hp fun e => (s.pfFinish src e 0).activate, ?_, _, rfl, ?_⟩
    · exact State.activate_fwact _
    · exact State.activate_mem _

end Sys2Proof.Machine
end

section
/-! SUPPORT. ROUTE and PREFIX (R292, R293): the links of an entry as it is installed (R310, R312). -/

namespace Sys2Proof.Machine

/-! ## What the links of a route stand on -/

theorem State.portFailed_congr {s t : State} {p : Nat} (h : t.reg (portReg p Off.EAV_PSTS) = s.reg (portReg p Off.EAV_PSTS)) :
    t.portFailed p = s.portFailed p := by
  unfold State.portFailed
  rw [State.rf_eq, State.rf_eq, h]

/-- Routes, time and failed ports stand as they did. -/
structure sameRoads (s t : State) : Prop where
  routes : t.routes = s.routes
  tb : t.tb = s.tb
  failed : ∀ p, t.portFailed p = s.portFailed p

theorem sameRoads.refl (s : State) : sameRoads s s := ⟨rfl, rfl, fun _ => rfl⟩

theorem sameRoads.trans {s t u : State} (h : sameRoads s t) (g : sameRoads t u) : sameRoads s u :=
  ⟨g.routes.trans h.routes, g.tb.trans h.tb, fun p => (g.failed p).trans (h.failed p)⟩

theorem sameRoads.of_regs {s t : State} (h1 : t.routes = s.routes) (h2 : t.tb = s.tb) (h3 : t.regs = s.regs) : sameRoads s t :=
  ⟨h1, h2, fun p => State.portFailed_congr (by rw [State.reg, State.reg, h3])⟩

theorem sameRoads.linkPorts {s t : State} (h : sameRoads s t) (k : Nat) : t.linkPorts k = s.linkPorts k := by
  unfold State.linkPorts State.routeOfKey
  rw [h.routes]

theorem portReg_mod {p off : Nat} (ho : off + 0x1c0 < 2 ^ 12) : portReg p off % 2 ^ 12 = off + 0x40 * (p % 8) := by
  unfold portReg
  rw [bar0_mod _ _ (by omega)]

/-- EAV_PSTS of the ports stands at eight bytes into a block of 64. -/
theorem portSts_mod (p : Nat) : portReg p Off.EAV_PSTS % 64 = 8 := by
  have h : portReg p Off.EAV_PSTS % 2 ^ 12 = Off.EAV_PSTS + 0x40 * (p % 8) := portReg_mod (by decide)
  have : p % 8 < 8 := Nat.mod_lt _ (by decide)
  simp only [Off.EAV_PSTS] at h ⊢
  omega

theorem State.setReg_roads (s : State) {b : Nat} (hb : b % 64 ≠ 8) (w : Word) : sameRoads s (s.setReg b w) := by
  refine ⟨rfl, rfl, fun p => State.portFailed_congr (s.reg_setReg_ne w (homeAddr_ne_of_mod fun e => hb ?_))⟩
  have := portSts_mod p
  omega

theorem State.refreshPromise_roads (s : State) (c : Nat) : sameRoads s (s.refreshPromise c) ∧ (s.refreshPromise c).links = s.links := by
  have hp : ctxA c Off.CTX_PROMISE % 64 ≠ 8 := by
    have := ctxA_mod c (off := Off.CTX_PROMISE) (by decide)
    simp only [Off.CTX_PROMISE] at this ⊢
    omega
  unfold State.refreshPromise
  extract_lets a old new s1
  have h1 : sameRoads s s1 := s.setReg_roads hp _
  have hsat : ∀ hi lo, sameRoads s1 (s1.sat a hi lo 1) := fun hi lo => (s1.setReg_roads hp _).trans (.of_regs rfl rfl rfl)
  split
  · exact ⟨.refl s, rfl⟩
  · split
    · exact ⟨(h1.trans (hsat 15 8)).trans (.of_regs rfl rfl rfl), rfl⟩
    · split
      · exact ⟨h1.trans (hsat 31 16), rfl⟩
      · exact ⟨h1, rfl⟩

/-- Routes, time, failed ports and links stand as they did. -/
def sameLinks (s t : State) : Prop := sameRoads s t ∧ t.links = s.links

theorem sameLinks.refl (s : State) : sameLinks s s := ⟨.refl s, rfl⟩

theorem sameLinks.trans {s t u : State} (h : sameLinks s t) (g : sameLinks t u) : sameLinks s u := ⟨h.1.trans g.1, g.2.trans h.2⟩

theorem sameLinks.link {s t : State} (h : sameLinks s t) (k : Nat) : t.link k = s.link k := by rw [State.link, State.link, h.2]

theorem sameLinks.forAll {α : Type} (l : List α) (f : α → State → State) (hf : ∀ a s, sameLinks s (f a s)) (s : State) :
    sameLinks s (forAll l f s) :=
  forAll_induct (P := sameLinks s) (fun a t h => h.trans (hf a t)) l (sameLinks.refl s)

theorem State.modCtx_links (s : State) (c : Nat) (f : Ctx → Ctx) : sameLinks s (s.modCtx c f) := ⟨.of_regs rfl rfl rfl, rfl⟩

theorem State.refreshPromise_links (s : State) (c : Nat) : sameLinks s (s.refreshPromise c) := s.refreshPromise_roads c

theorem State.faultWins_links (s : State) (l : List Elem) : sameLinks s { s with faultWins := l } := ⟨.of_regs rfl rfl rfl, rfl⟩

theorem State.openWindow_links (s : State) (w : Elem) : sameLinks s (s.openWindow w) := by
  unfold State.openWindow
  split
  · exact .refl s
  · refine (s.faultWins_links (w :: s.faultWins)).trans (sameLinks.forAll _ _ (fun e t => ?_) _)
    exact (t.modCtx_links e.1 _).trans (State.refreshPromise_links _ e.1)

theorem State.closeWindow_links (s : State) (w : Elem) : sameLinks s (s.closeWindow w) := by
  unfold State.closeWindow
  refine (s.faultWins_links _).trans (sameLinks.forAll _ _ (fun e t => ?_) _)
  exact t.refreshPromise_links e.1

theorem State.closeLink_links (s : State) (k : Nat) : sameLinks s (s.closeLink k) :=
  (s.closeWindow_links _).trans (sameLinks.forAll (List.range 8) (fun c t => t.closeWindow (.linkClass k c)) (fun _ t => t.closeWindow_links _) _)

theorem State.raisePg_links (s : State) (d n : Nat) : sameLinks s (s.raisePg d 0 n) := by
  have hraw : bar0 d 0 Off.PG_IRQ_RAW % 64 ≠ 8 := by
    have := bar0_mod d 0 (off := Off.PG_IRQ_RAW) (by decide)
    simp only [Off.PG_IRQ_RAW] at this ⊢
    omega
  have hen : bar0 d 0 Off.PG_IRQ_EN % 64 ≠ 8 := by
    have := bar0_mod d 0 (off := Off.PG_IRQ_EN) (by decide)
    simp only [Off.PG_IRQ_EN] at this ⊢
    omega
  have set : ∀ raw en, sameLinks s (s.setPgIrq d 0 raw en) := fun raw en => by
    have h : sameLinks s ((s.setReg (bar0 d 0 Off.PG_IRQ_RAW) raw).setReg (bar0 d 0 Off.PG_IRQ_EN) en) :=
      ⟨(s.setReg_roads hraw raw).trans (State.setReg_roads _ hen en), rfl⟩
    unfold State.setPgIrq
    dsimp only
    split
    · exact h
    · split
      · exact h
      · exact h.trans ⟨.of_regs rfl rfl rfl, rfl⟩
  exact (set _ _).trans ⟨.of_regs rfl rfl rfl, rfl⟩

theorem State.ctxFault_links (s : State) (c code : Nat) : sameLinks s (s.ctxFault c code) := by
  rw [State.ctxFault, (s.detected_detect ⟨c, code, none⟩).2]
  exact ⟨.of_regs rfl rfl rfl, rfl⟩

/-! ## A link as it is installed -/

theorem State.modLink_roads (s : State) (k : Nat) (f : Link → Link) : sameRoads s (s.modLink k f) := .of_regs rfl rfl rfl

/-- A link that goes DOWN holds nothing (R312). -/
theorem State.linkDown_spec (s : State) (k p : Nat) :
    sameRoads s (s.linkDown k p) ∧ (s.linkDown k p).link k = (s.link k).emptied ∧ ∀ j, j ≠ k → (s.linkDown k p).link j = s.link j := by
  unfold State.linkDown
  have h : sameLinks (s.modLink k Link.emptied) (forAll (s.ctxsOnLink k) (fun c t => t.ctxFault c 17)
      (((s.modLink k Link.emptied).closeLink k).raisePg (portDie p) 0 2)) :=
    ((State.closeLink_links _ k).trans (State.raisePg_links _ _ 2)).trans (sameLinks.forAll _ _ (fun c t => t.ctxFault_links c 17) _)
  refine ⟨(s.modLink_roads k _).trans h.1, ?_, fun j hj => ?_⟩
  · exact (h.link k).trans (by rw [State.link_modLink_self])
  · exact (h.link j).trans (by rw [State.link_modLink, if_neg hj])

/-- The loss of a port leaves the other links alone. -/
theorem State.linkLoss_others (s : State) (k p : Nat) :
    sameRoads s (s.linkLoss k p) ∧ ∀ j, j ≠ k → (s.linkLoss k p).link j = s.link j := by
  unfold State.linkLoss
  split
  · exact ⟨.refl s, fun _ _ => rfl⟩
  · split
    · exact ⟨(s.linkDown_spec k p).1, (s.linkDown_spec k p).2.2⟩
    · split
      · have h := State.openWindow_links (s.modLink k fun l => { l with moving := true }) (.link k)
        refine ⟨(s.modLink_roads k _).trans h.1, fun j hj => ?_⟩
        exact (h.link j).trans (by rw [State.link_modLink, if_neg hj])
      · exact ⟨.refl s, fun _ _ => rfl⟩

theorem State.settleLink_others (s : State) (k : Nat) :
    sameRoads s (s.settleLink k) ∧ ∀ j, j ≠ k → (s.settleLink k).link j = s.link j := by
  unfold State.settleLink
  split
  · exact ⟨.refl s, fun _ _ => rfl⟩
  · split
    · exact s.linkLoss_others k _
    · exact ⟨.refl s, fun _ _ => rfl⟩

/-- A link as the installation of its entry leaves it, by the state of its ports (R310, R312). -/
structure Fresh (s : State) (p : Nat × Nat) (l : Link) : Prop where
  plain : s.portFailed p.1 = false → l = { Link.init with since := s.now }
  moving : s.portFailed p.1 = true → s.portFailed p.2 = false → l.moving = true ∧ l.down = false
  down : s.portFailed p.1 = true → s.portFailed p.2 = true → l.down = true

/-- The link of key `k` installed. -/
def State.freshLink (s : State) (k : Nat) : State := (s.modLink k fun _ => { Link.init with since := s.now }).settleLink k

theorem State.freshLink_others (s : State) (k : Nat) : sameRoads s (s.freshLink k) ∧ ∀ j, j ≠ k → (s.freshLink k).link j = s.link j := by
  obtain ⟨h1, h2⟩ := (s.modLink k fun _ => { Link.init with since := s.now }).settleLink_others k
  exact ⟨(s.modLink_roads k _).trans h1, fun j hj => (h2 j hj).trans (by rw [State.link_modLink, if_neg hj])⟩

theorem State.freshLink_fresh {s : State} {k : Nat} {p : Nat × Nat} (hp : s.linkPorts k = some p) : Fresh s p ((s.freshLink k).link k) := by
  unfold State.freshLink
  generalize ht : (s.modLink k fun _ => { Link.init with since := s.now }) = t
  have hroads : sameRoads s t := ht ▸ s.modLink_roads k _
  have hlink : t.link k = { Link.init with since := s.now } := by rw [← ht, State.link_modLink_self]
  have hports : t.linkPorts k = some p := (hroads.linkPorts k).trans hp
  have hfirst : t.sideFailed k false = s.portFailed p.1 := by
    unfold State.sideFailed
    rw [hlink, hports]
    exact (hroads.failed p.1)
  have hsecond : t.sideFailed k true = s.portFailed p.2 := by
    unfold State.sideFailed
    rw [hlink, hports]
    exact (hroads.failed p.2)
  have hactive : t.activePort k = some p.1 := by
    unfold State.activePort
    rw [hports, hlink]
    rfl
  have hsettle : t.settleLink k = if s.portFailed p.1 then t.linkLoss k p.1 else t := by
    unfold State.settleLink
    rw [hports, ← hfirst]
  have hloss : s.portFailed p.1 = true → t.linkLoss k p.1 = if s.portFailed p.2 then t.linkDown k p.1
      else (t.modLink k fun l => { l with moving := true }).openWindow (.link k) := fun h1 => by
    have hup : (t.link k).down = false := by rw [hlink]; rfl
    unfold State.linkLoss
    simp [hup, hfirst, hsecond, h1, hactive]
  refine ⟨fun h1 => ?_, fun h1 h2 => ?_, fun h1 h2 => ?_⟩
  · rw [hsettle, h1]
    exact hlink
  · rw [hsettle, h1, if_pos rfl, hloss h1, h2, if_neg (by decide), (State.openWindow_links _ _).link, State.link_modLink_self, hlink]
    exact ⟨rfl, rfl⟩
  · rw [hsettle, h1, if_pos rfl, hloss h1, h2, if_pos rfl, (t.linkDown_spec k p.1).2.1]
    rfl

theorem Fresh.of_ports {s t : State} (htb : t.tb = s.tb) (hf : ∀ p, t.portFailed p = s.portFailed p) {p : Nat × Nat} {l : Link}
    (hl : Fresh t p l) : Fresh s p l := by
  obtain ⟨h1, h2, h3⟩ := hl
  simp only [State.now, htb, hf] at h1 h2 h3
  exact ⟨h1, h2, h3⟩

/-- Every link of a list installed stands on its ports, every other link as it did. -/
theorem State.freshAll (l : List Nat) (s : State) :
    sameRoads s (forAll l (fun k t => t.freshLink k) s)
      ∧ (∀ k, k ∉ l → (forAll l (fun k t => t.freshLink k) s).link k = s.link k)
      ∧ ∀ k ∈ l, ∀ p, s.linkPorts k = some p → Fresh s p ((forAll l (fun k t => t.freshLink k) s).link k) := by
  unfold forAll
  induction l generalizing s with
  | nil => exact ⟨.refl s, fun _ _ => rfl, fun k hk => absurd hk List.not_mem_nil⟩
  | cons j r ih =>
    obtain ⟨hroads, hothers, hlinks⟩ := ih (s.freshLink j)
    obtain ⟨hone, hrest⟩ := s.freshLink_others j
    rw [List.foldl_cons]
    refine ⟨hone.trans hroads, fun k hk => ?_, fun k hk p hp => ?_⟩
    · rw [List.mem_cons, not_or] at hk
      rw [hothers k hk.2, hrest k hk.1]
    · by_cases hr : k ∈ r
      · exact Fresh.of_ports hone.tb hone.failed (hlinks k hr p ((hone.linkPorts k).trans hp))
      · have hkj : k = j := (List.mem_cons.mp hk).resolve_right hr
        rw [hothers k hr, hkj]
        exact State.freshLink_fresh (hkj ▸ hp)

/-! ## ROUTE and PREFIX -/

theorem State.modXfer_roads (s : State) (c id : Nat) (f : Xfer → Xfer) : sameRoads s (s.modXfer c id f) := by
  unfold State.modXfer
  split
  · exact .refl s
  · exact .of_regs rfl rfl rfl

theorem State.dropLinks_roads (s : State) (node : Nat) : sameRoads s (s.dropLinks node) := by
  have lost : sameRoads s (s.loseFrames node) := by
    unfold State.loseFrames
    exact forAll_induct (P := sameRoads s) (fun o t h => h.trans (t.modXfer_roads _ _ _)) _ (.refl s)
  have closed : ∀ (l : List Nat) (t : State), sameRoads t (forAll l (fun k u => u.closeLink k) t) := fun l t =>
    forAll_induct (P := sameRoads t) (fun k u h => h.trans (u.closeLink_links k).1) l (.refl t)
  unfold State.dropLinks
  exact (lost.trans (closed _ _)).trans (.of_regs rfl rfl rfl)

theorem State.dropLinks_link (s : State) {node k : Nat} (h : keyNode k = node) : (s.dropLinks node).link k = Link.init := by
  unfold State.dropLinks State.link Table.getD
  dsimp only
  rw [Table.get?_filter _ (fun k => decide (keyNode k ≠ node))]
  simp [h]

theorem State.openReplay_roads (s : State) (k c : Nat) : sameRoads s (s.openReplay k c) := by
  unfold State.openReplay
  split
  · exact .refl s
  · exact (s.openWindow_links _).1

theorem State.replayCount_roads (s : State) (l : Table Nat) : sameRoads s { s with replayCount := l } := .of_regs rfl rfl rfl

theorem State.startReplay_roads (s : State) (k c : Nat) (n : BitVec 32) : sameRoads s (s.startReplay k c n) := by
  unfold State.startReplay
  dsimp only
  split
  · exact .refl s
  next z _ =>
    generalize hm : (s.modLc k c fun x => { x with
      replay := match x.replay with
        | none => some n
        | some p => some (if earlierMod 32 n.toNat p.toNat then n else p)
      replayEnd := z.seq }) = m
    have hroads : sameRoads s m := hm ▸ s.modLink_roads k _
    split
    · exact hroads.trans (m.openReplay_roads k c)
    · split
      · exact hroads.trans (m.openReplay_roads k c)
      · exact (hroads.trans (m.replayCount_roads _)).trans (State.openReplay_roads _ k c)

theorem State.replayAll_roads (s : State) (k : Nat) : sameRoads s (s.replayAll k) := by
  unfold State.replayAll
  extract_lets s1 s2
  have h2 : sameRoads s s2 := forAll_induct (P := sameRoads s) (fun c t h => h.trans (t.startReplay_roads k c _)) _ (s.modLink_roads k _)
  split
  · exact (h2.trans (s2.modLink_roads k _)).trans (State.closeWindow_links _ _).1
  · exact h2

theorem State.rewriteLinks_roads (s : State) (node : Nat) (r : Route) : sameRoads s (s.rewriteLinks node r) := by
  unfold State.rewriteLinks
  refine forAll_induct (P := sameRoads s) (fun k t h => ?_) _ (.of_regs rfl rfl rfl)
  dsimp only
  split
  · exact (h.trans (t.modLink_roads k _)).trans (State.replayAll_roads _ k)
  · exact (h.trans (t.modLink_roads k _)).trans (State.settleLink_others _ k).1

theorem State.freshLinks_roads (s : State) (node : Nat) (r : Route) : sameRoads s (s.freshLinks node r) :=
  (s.dropLinks_roads node).trans (State.freshAll (r.keys node) (s.dropLinks node)).1

theorem State.freshLinks_fresh (s : State) (node : Nat) (r : Route) {k : Nat} (hk : k ∈ r.keys node) {p : Nat × Nat} (hp : s.linkPorts k = some p) :
    Fresh s p ((s.freshLinks node r).link k) := by
  have hdrop := s.dropLinks_roads node
  exact Fresh.of_ports hdrop.tb hdrop.failed ((State.freshAll (r.keys node) (s.dropLinks node)).2.2 k hk p ((hdrop.linkPorts k).trans hp))

/-- What an installed entry leaves: the entry at its node, the others as they were, and fresh links for a new entry or a new PEPOCH. -/
structure Installed (s z : State) (node : Nat) (r : Route) : Prop where
  here : Table.get? z.routes node = some r
  others : ∀ j, j ≠ node → Table.get? z.routes j = Table.get? s.routes j
  fresh : (∀ o, Table.get? s.routes node = some o → o.pepoch ≠ r.pepoch) → ∀ k ∈ r.keys node, ∀ p, z.linkPorts k = some p → Fresh s p (z.link k)

theorem State.routeCommand_installs (s : State) {e : EntryBits} {node : Nat} {r : Route} (he : routeOf e = (node, true, r)) (hok : routeOk e = true)
    (hroom : (Table.get? s.routes node).isSome = true ∨ s.routes.length < 16384) :
    ∃ z, s.routeCommand e = (z, 0) ∧ Installed s z node r := by
  generalize hs1 : ({ s with routes := Table.set s.routes node r } : State) = s1
  have hroutes : s1.routes = Table.set s.routes node r := hs1 ▸ rfl
  have hfresh : ∀ p l, Fresh s1 p l → Fresh s p l := fun p l h =>
    h.of_ports (hs1 ▸ rfl) fun p => State.portFailed_congr (hs1 ▸ rfl)
  have hstand : ∀ z, sameRoads s1 z → Table.get? z.routes node = some r ∧ ∀ j, j ≠ node → Table.get? z.routes j = Table.get? s.routes j :=
    fun z hz => by
      rw [hz.routes, hroutes]
      exact ⟨by simp [Table.get?_set], fun j hj => by simp [Table.get?_set, hj]⟩
  have hnew : Installed s (s1.freshLinks node r) node r := by
    have hz := s1.freshLinks_roads node r
    refine ⟨(hstand _ hz).1, (hstand _ hz).2, fun _ k hk p hp => ?_⟩
    exact hfresh p _ (s1.freshLinks_fresh node r hk ((hz.linkPorts k).symm.trans hp))
  unfold State.routeCommand
  rw [he]
  simp only [hs1, hok]
  cases hat : Table.get? s.routes node with
  | none =>
    rw [hat] at hroom
    have hlen : ¬ 16384 ≤ s.routes.length := by simpa using hroom
    exact ⟨_, by simp [hlen], hnew⟩
  | some o =>
    by_cases hp : o.pepoch = r.pepoch
    · have hz := s1.rewriteLinks_roads node r
      exact ⟨s1.rewriteLinks node r, by simp [hp], (hstand _ hz).1, (hstand _ hz).2, fun h => absurd hp (h o hat)⟩
    · exact ⟨s1.freshLinks node r, by simp [hp], hnew⟩

/-- An entry with VALID = 0 takes the route of its node and the links with it. -/
theorem State.routeCommand_erases (s : State) {e : EntryBits} {node : Nat} {r : Route} (he : routeOf e = (node, false, r)) :
    s.routeCommand e = ({ s.dropLinks node with routes := Table.erase s.routes node }, 0) := by
  unfold State.routeCommand
  rw [he]
  rfl

theorem State.routeCommand_refuses (s : State) {e : EntryBits} {node : Nat} {r : Route} (he : routeOf e = (node, true, r))
    (hok : routeOk e = false) : s.routeCommand e = (s, 6) := by
  unfold State.routeCommand
  rw [he]
  simp [hok]

theorem State.routeCommand_full (s : State) {e : EntryBits} {node : Nat} {r : Route} (he : routeOf e = (node, true, r))
    (hok : routeOk e = true) (hnone : Table.get? s.routes node = none) (hfull : 16384 ≤ s.routes.length) : s.routeCommand e = (s, 7) := by
  unfold State.routeCommand
  rw [he]
  simp [hok, hnone, hfull]

/-- The table entry that a word of PREFIX names. -/
def prefixAt (w : Nat) : PrefixEntry := ⟨bits w 19 0, bits w 24 20, bits w 44 25⟩

theorem State.prefixCommand_erases (s : State) {w : Nat} (hv : bitAt w 45 = false) :
    s.prefixCommand w = ({ s with prefixes := s.prefixes.filter fun q => !(q.bits = (prefixAt w).bits && q.plen = (prefixAt w).plen) }, 0) := by
  unfold State.prefixCommand
  simp only [hv, Bool.not_false, if_true]
  rfl

theorem State.prefixCommand_refuses (s : State) {w : Nat} (hv : bitAt w 45 = true)
    (hbad : bits w 63 46 ≠ 0 ∨ (prefixAt w).plen = 0 ∨ 20 < (prefixAt w).plen) : s.prefixCommand w = (s, 6) := by
  have hbad' : (bits w 63 46 ≠ 0 || (prefixAt w).plen = 0 || 20 < (prefixAt w).plen
      || (prefixAt w).bits % 2 ^ (20 - (prefixAt w).plen) ≠ 0) = true := by
    simp only [Bool.or_eq_true, decide_eq_true_eq]
    tauto
  unfold State.prefixCommand
  simp only [hv, Bool.not_true, if_neg Bool.false_ne_true]
  exact if_pos hbad'

theorem State.prefixCommand_installs (s : State) {w : Nat} (hv : bitAt w 45 = true) (hhigh : bits w 63 46 = 0) (hlen : 0 < (prefixAt w).plen)
    (hlen' : (prefixAt w).plen ≤ 20) (halign : (prefixAt w).bits % 2 ^ (20 - (prefixAt w).plen) = 0)
    (hroom : (∃ q ∈ s.prefixes, q.bits = (prefixAt w).bits ∧ q.plen = (prefixAt w).plen) ∨ s.prefixes.length < 1024) :
    ∃ z, s.prefixCommand w = (z, 0) ∧ prefixAt w ∈ z.prefixes
      ∧ (∀ q ∈ s.prefixes, ¬(q.bits = (prefixAt w).bits ∧ q.plen = (prefixAt w).plen) → q ∈ z.prefixes)
      ∧ z = { s with prefixes := z.prefixes } := by
  have hgood : (bits w 63 46 ≠ 0 || (prefixAt w).plen = 0 || 20 < (prefixAt w).plen
      || (prefixAt w).bits % 2 ^ (20 - (prefixAt w).plen) ≠ 0) = false := by
    simp only [Bool.or_eq_false_iff, decide_eq_false_iff_not]
    omega
  have hrun : s.prefixCommand w = if s.prefixes.any (fun q => q.bits = (prefixAt w).bits && q.plen = (prefixAt w).plen) then
      ({ s with prefixes := s.prefixes.map fun q => if q.bits = (prefixAt w).bits && q.plen = (prefixAt w).plen then prefixAt w else q }, 0)
      else if 1024 ≤ s.prefixes.length then (s, 7) else ({ s with prefixes := s.prefixes ++ [prefixAt w] }, 0) := by
    unfold State.prefixCommand
    simp only [hv, Bool.not_true, if_neg Bool.false_ne_true]
    exact if_neg (by rw [Bool.not_eq_true]; exact hgood)
  rw [hrun]
  by_cases hany : ∃ q ∈ s.prefixes, q.bits = (prefixAt w).bits ∧ q.plen = (prefixAt w).plen
  · obtain ⟨q, hq, hsame⟩ := hany
    refine ⟨_, if_pos (List.any_eq_true.mpr ⟨q, hq, by simp [hsame]⟩), ?_, fun o ho hdiff => ?_, rfl⟩
    · exact List.mem_map.mpr ⟨q, hq, if_pos (by simp [hsame])⟩
    · exact List.mem_map.mpr ⟨o, ho, if_neg (by simpa using hdiff)⟩
  · have hshort : ¬ 1024 ≤ s.prefixes.length := Nat.not_le.mpr (hroom.resolve_left hany)
    refine ⟨_, (if_neg fun h => hany ?_).trans (if_neg hshort), by simp, fun o ho _ => by simp [ho], rfl⟩
    obtain ⟨q, hq, hsame⟩ := List.any_eq_true.mp h
    exact ⟨q, hq, by simpa using hsame⟩

theorem onlyStacks.roads {s t : State} (h : onlyStacks s t) (hr : keepsOthers s t) : sameRoads s t := by
  refine ⟨(congrArg State.routes h :), (congrArg State.tb h :), fun p => State.portFailed_congr (hr _ (offStacks_of_mod ?_))⟩
  have hmod : portReg p Off.EAV_PSTS % 2 ^ 12 = Off.EAV_PSTS + 0x40 * (p % 8) := portReg_mod (by decide)
  have hp : ∀ i < 8, Off.EAV_PSTS + 0x40 * i ∉ stackOffs := by decide
  rw [hmod]
  exact hp _ (Nat.mod_lt _ (by decide))

theorem State.devTouch_roads (s : State) (a n : Nat) : sameRoads s (s.devTouch a n) := (s.devTouch_stacks a n).roads (s.devTouch_others a n)

/-- Settles O46: an entry replaces the one at its node or range of nodes, and the links of a new route are installed on its ports. -/
theorem routesAndPrefixesAreInstalled : Obligations.RoutesAndPrefixesAreInstalled := by
  unfold Obligations.RoutesAndPrefixesAreInstalled
  intro s src e h hready
  refine ⟨fun hp => ?_, fun hp => ?_⟩
  · intro y b hb node r
    have hroutes : y.routes = s.routes := (s.devTouch_roads _ _).routes
    have hrun : exec (.route src) s = .next ((y.routeCommand (entryOf b)).1.pfFinish src e (y.routeCommand (entryOf b)).2) := by
      rw [exec_route, execRoute, if_neg (by simp [hready]), h.pfCommand hp]
      dsimp only
      rw [hb]
    have hroads : sameRoads s y := s.devTouch_roads _ _
    have hvalid : ∀ v, (routeOf (entryOf b)).2.1 = v → routeOf (entryOf b) = (node, v, r) := fun v h => by rw [← h]
    have hsame : ∀ p l, Fresh y p l → Fresh s p l := fun p l h => h.of_ports hroads.tb hroads.failed
    refine ⟨fun hv hok hroom => ?_, fun hv hok => ?_, fun hv hok hnone hfull => ?_, fun hv => ?_⟩
    · obtain ⟨z, hz, hhere, hothers, hfresh⟩ := y.routeCommand_installs (hvalid _ hv) hok (by rw [hroutes]; exact hroom)
      rw [hroutes] at hothers hfresh
      refine ⟨_, hrun, z, by rw [hz], hhere, hothers, fun hnew k hk p hports => ?_⟩
      obtain ⟨h1, h2, h3⟩ := hsame p _ (hfresh hnew k hk p hports)
      exact ⟨h1, h2, h3⟩
    · exact ⟨_, hrun, by rw [y.routeCommand_refuses (hvalid _ hv) hok]⟩
    · exact ⟨_, hrun, by rw [y.routeCommand_full (hvalid _ hv) hok (by rw [hroutes]; exact hnone) (by rw [hroutes]; exact hfull)]⟩
    · refine ⟨_, hrun, { y.dropLinks node with routes := Table.erase y.routes node }, by rw [y.routeCommand_erases (hvalid _ hv)], ?_,
        fun j hj => ?_, fun k hk => y.dropLinks_link hk⟩
      · exact (Table.get?_erase ..).trans (if_pos rfl)
      · exact (Table.get?_erase ..).trans ((if_neg hj).trans (by rw [hroutes]))
  · intro y b hb w p
    have hpre : y.prefixes = s.prefixes := (congrArg State.prefixes (s.devTouch_stacks (w512 e 2) 8) :)
    have hrun : exec (.routePrefix src) s = .next ((y.prefixCommand w).1.pfFinish src e (y.prefixCommand w).2) := by
      rw [exec_routePrefix, execRoutePrefix, if_neg (by simp [hready]), h.pfCommand hp]
      dsimp only
      rw [hb]
    refine ⟨fun hv hhigh hlen hlen' halign hroom => ?_, fun hv => ?_, fun hv hbad => ?_⟩
    · obtain ⟨z, hz, h1, h2, h3⟩ := y.prefixCommand_installs hv hhigh hlen hlen' halign (by rw [hpre]; exact hroom)
      rw [hpre] at h2
      exact ⟨_, hrun, z, by rw [hz], h1, h2, h3⟩
    · refine ⟨_, hrun, (y.prefixCommand w).1, by rw [y.prefixCommand_erases hv], fun q => ?_, by rw [y.prefixCommand_erases hv]⟩
      rw [y.prefixCommand_erases hv]
      rw [List.mem_filter, hpre, Bool.not_eq_true', Bool.and_eq_false_iff, decide_eq_false_iff_not, decide_eq_false_iff_not, not_and_or]
      rfl
    · exact ⟨_, hrun, by rw [y.prefixCommand_refuses hv hbad]⟩

end Sys2Proof.Machine
end

section
/-! SUPPORT. The map of device physical addresses (R199 to R204): the hash spreads the low groups over the stacks and keeps the rest. -/

namespace Sys2Proof.Machine

theorem xorGroups_succ (w n k : Nat) : xorGroups w n (k + 1) = (n % 2 ^ w) ^^^ xorGroups w (n / 2 ^ w) k := rfl

/-- The hash of two numbers with the same higher groups tells their lowest groups apart. -/
theorem xorGroups_inj {w m n k : Nat} (hhigh : m / 2 ^ w = n / 2 ^ w) (h : xorGroups w m (k + 1) = xorGroups w n (k + 1)) : m = n := by
  rw [xorGroups_succ, xorGroups_succ, hhigh] at h
  have hlow : m % 2 ^ w = n % 2 ^ w := Nat.xor_left_injective h
  rw [← Nat.div_add_mod m (2 ^ w), hhigh, hlow, Nat.div_add_mod]

theorem stacksOf_inj {q i j : Nat} (hq : q < 4) (hi : i < 4) (hj : j < 4) (h : (stacksOf 1 q).getD i 0 = (stacksOf 1 q).getD j 0) : i = j := by
  have hall : ∀ q < 4, ∀ i < 4, ∀ j < 4, (stacksOf 1 q).getD i 0 = (stacksOf 1 q).getD j 0 → i = j := by decide
  exact hall q hq i hi j hj h

/-- What a DPA names, window by window (table *DPA windows*). -/
theorem dpaLoc_all {a : Nat} (h : a < 2 ^ 40) : dpaLoc a =
    .mem 1 0 (a / 2 ^ 34) (xorGroups 4 (a % 2 ^ 34 / 256 % 2 ^ 26) 7) (a / 2 ^ 34 * 2 ^ 30 + a % 2 ^ 34 / 256 / 16 * 256 + a % 2 ^ 34 % 256) :=
  if_pos h

theorem dpaLoc_quarter {a : Nat} (h1 : ¬ a < 2 ^ 40) (h2 : a < 2 ^ 41) : dpaLoc a =
    .mem 2 (a % 2 ^ 40 / 2 ^ 38) (a % 2 ^ 38 / 2 ^ 32)
      ((stacksOf 1 (a % 2 ^ 40 / 2 ^ 38)).getD (xorGroups 2 (a % 2 ^ 32 / 256 % 2 ^ 24) 12) 0)
      (a % 2 ^ 38 / 2 ^ 32 * 2 ^ 30 + a % 2 ^ 32 / 256 / 4 * 256 + a % 2 ^ 32 % 256) :=
  (if_neg h1).trans (if_pos h2)

theorem dpaLoc_stack {a : Nat} (h1 : ¬ a < 2 ^ 41) (h2 : a < 3 * 2 ^ 40) : dpaLoc a =
    .mem 3 (a % 2 ^ 40 / 2 ^ 36) (a % 2 ^ 36 / 2 ^ 30) (a % 2 ^ 40 / 2 ^ 36) (a % 2 ^ 36) :=
  (if_neg (by omega)).trans ((if_neg h1).trans (if_pos h2))

theorem dpaLoc_pad {a : Nat} (h1 : ¬ a < 3 * 2 ^ 40) (h : dpaLoc a ≠ .hole) : a < 3 * 2 ^ 40 + 2 ^ 36 ∧
    dpaLoc a = .pad ((a - 3 * 2 ^ 40) / 2 ^ 30) (a % 2 ^ 30 / 2 ^ 18) (a % 2 ^ 18) := by
  have hrest : dpaLoc a = if a < 3 * 2 ^ 40 + 2 ^ 36 then
      if dieKind ((a - 3 * 2 ^ 40) / 2 ^ 30) = .rafter ∧ a % 2 ^ 30 / 2 ^ 18 < 2304 then
        .pad ((a - 3 * 2 ^ 40) / 2 ^ 30) (a % 2 ^ 30 / 2 ^ 18) (a % 2 ^ 18) else .hole
      else .hole := (if_neg (by omega)).trans ((if_neg (by omega)).trans (if_neg h1))
  rw [hrest] at h ⊢
  by_cases h2 : a < 3 * 2 ^ 40 + 2 ^ 36
  · rw [if_pos h2] at h ⊢
    split at h
    next h3 => exact ⟨h2, if_pos h3⟩
    next => exact absurd rfl h
  · exact absurd (if_neg h2) h

theorem dpaLoc_all_inj {a b : Nat} (ha : a < 2 ^ 40) (hb : b < 2 ^ 40) (h : dpaLoc a = dpaLoc b) : a = b := by
  rw [dpaLoc_all ha, dpaLoc_all hb] at h
  simp only [Loc.mem.injEq, true_and] at h
  obtain ⟨hband, hstack, hlocal⟩ := h
  have hhigh : a % 2 ^ 34 / 256 % 2 ^ 26 / 2 ^ 4 = b % 2 ^ 34 / 256 % 2 ^ 26 / 2 ^ 4 := by omega
  have hline := xorGroups_inj hhigh hstack
  omega

theorem dpaLoc_quarter_inj {a b : Nat} (ha : ¬ a < 2 ^ 40) (ha' : a < 2 ^ 41) (hb : ¬ b < 2 ^ 40) (hb' : b < 2 ^ 41) (h : dpaLoc a = dpaLoc b) :
    a = b := by
  rw [dpaLoc_quarter ha ha', dpaLoc_quarter hb hb'] at h
  simp only [Loc.mem.injEq, true_and] at h
  obtain ⟨hq, hband, hstack, hlocal⟩ := h
  rw [hq] at hstack
  have hhash := stacksOf_inj (by omega) (xorGroups_lt 2 _ 12) (xorGroups_lt 2 _ 12) hstack
  have hhigh : a % 2 ^ 32 / 256 % 2 ^ 24 / 2 ^ 2 = b % 2 ^ 32 / 256 % 2 ^ 24 / 2 ^ 2 := by omega
  have hline := xorGroups_inj hhigh hhash
  omega

theorem dpaLoc_stack_inj {a b : Nat} (ha : ¬ a < 2 ^ 41) (ha' : a < 3 * 2 ^ 40) (hb : ¬ b < 2 ^ 41) (hb' : b < 3 * 2 ^ 40)
    (h : dpaLoc a = dpaLoc b) : a = b := by
  rw [dpaLoc_stack ha ha', dpaLoc_stack hb hb'] at h
  simp only [Loc.mem.injEq, true_and] at h
  obtain ⟨hstack, -, -, hlocal⟩ := h
  omega

theorem dpaLoc_pad_inj {a b : Nat} (ha : ¬ a < 3 * 2 ^ 40) (hb : ¬ b < 3 * 2 ^ 40) (hhole : dpaLoc a ≠ .hole) (h : dpaLoc a = dpaLoc b) : a = b := by
  have hplace : dpaLoc b ≠ .hole := h ▸ hhole
  obtain ⟨ha', hat⟩ := dpaLoc_pad ha hhole
  obtain ⟨hb', hbt⟩ := dpaLoc_pad hb hplace
  rw [hat, hbt] at h
  simp only [Loc.pad.injEq] at h
  omega

/-- The window of a DPA, as its place tells it: 0 is every address behind the stacks. -/
def Loc.window : Loc → Nat
  | .mem k .. => k
  | _ => 0

theorem dpaLoc_window (a : Nat) : (dpaLoc a).window = if a < 2 ^ 40 then 1 else if a < 2 ^ 41 then 2 else if a < 3 * 2 ^ 40 then 3 else 0 := by
  by_cases h1 : a < 2 ^ 40
  · rw [dpaLoc_all h1, if_pos h1]
    rfl
  · by_cases h2 : a < 2 ^ 41
    · rw [dpaLoc_quarter h1 h2, if_neg h1, if_pos h2]
      rfl
    · by_cases h3 : a < 3 * 2 ^ 40
      · rw [dpaLoc_stack h2 h3, if_neg h1, if_neg h2, if_pos h3]
        rfl
      · rw [if_neg h1, if_neg h2, if_neg h3]
        by_cases hhole : dpaLoc a = .hole
        · rw [hhole]
          rfl
        · rw [(dpaLoc_pad h3 hhole).2]
          rfl

/-- Settles O60: a place tells its window, and each window keeps its addresses apart. -/
theorem dpaMapIsInjective : Obligations.DpaMapIsInjective := by
  unfold Obligations.DpaMapIsInjective
  intro a b hhole h
  have hwin : (dpaLoc a).window = (dpaLoc b).window := by rw [h]
  rw [dpaLoc_window, dpaLoc_window] at hwin
  by_cases a1 : a < 2 ^ 40
  · exact dpaLoc_all_inj a1 (by grind) h
  · by_cases a2 : a < 2 ^ 41
    · exact dpaLoc_quarter_inj a1 a2 (by grind) (by grind) h
    · by_cases a3 : a < 3 * 2 ^ 40
      · exact dpaLoc_stack_inj a2 a3 (by grind) (by grind) h
      · exact dpaLoc_pad_inj a3 (by grind) hhole h

end Sys2Proof.Machine
end

section
/-! SUPPORT. Launches: the ready cycle, T₀ (R189, R237, R243, R258, R384, R408, R448). -/

namespace Sys2Proof.Machine

/-! ## What the translation of the launch's tables stands on -/

theorem State.dpaWord_ctxs (s : State) (l : Table Ctx) (a : Nat) : State.dpaWord { s with ctxs := l } a = s.dpaWord a := rfl

/-- Nothing that translates an address of context `c`, or names its shadow regions, differs between two states. -/
structure sameWalk (c : Nat) (s t : State) : Prop where
  rest : onlyCtxs s t
  tlb : (t.ctx c).tlb = (s.ctx c).tlb
  cfg : (t.ctx c).cfg = (s.ctx c).cfg
  taken : (t.ctx c).taken = (s.ctx c).taken

theorem sameWalk.regs {c : Nat} {s t : State} (h : sameWalk c s t) : t.regs = s.regs := (congrArg State.regs h.rest :)

theorem sameWalk.walk {c : Nat} {s t : State} (h : sameWalk c s t) (va : Nat) : t.walk c va = s.walk c va := by
  have hword : ∀ a, t.dpaWord a = s.dpaWord a := fun a => by
    rw [h.rest]
    exact s.dpaWord_ctxs _ a
  unfold State.walk
  simp only [h.tlb, h.cfg, hword]

theorem sameWalk.xlate {c : Nat} {s t : State} (h : sameWalk c s t) (va : Nat) (w : Bool) : t.xlate c va w = s.xlate c va w := by
  unfold State.xlate Ctx.set
  simp only [h.walk, h.cfg]

theorem sameWalk.vaOk {c : Nat} {s t : State} (h : sameWalk c s t) (va n : Nat) (w : Bool) : t.vaOk c va n w = s.vaOk c va n w := by
  unfold State.vaOk
  simp only [h.xlate]

theorem sameWalk.regions {c : Nat} {s t : State} (h : sameWalk c s t) : t.regions c = s.regions c := by
  unfold State.regions State.region State.trainReg State.reg
  simp only [h.taken, h.regs]

theorem sameWalk.tablesOk {c : Nat} {s t : State} (h : sameWalk c s t) : t.tablesOk c = s.tablesOk c := by
  unfold State.tablesOk State.reg
  simp only [h.regions, h.vaOk, h.regs]

/-! ## The ready cycle -/

/-- The head launch taken off the queue and running, its tiles armed. -/
def State.armed (s : State) (c : Nat) (l : Launch) : State :=
  s.modCtx c fun x => { x with
    queue := x.queue.tail
    running := some l.run
    tiles := x.tiles.mapVals fun _ t => t.arm l.t0 }

/-- The pointers of the tiles go on to segment 0. -/
def State.rewind (s : State) (c : Nat) : State := forAll (s.ctx c).tiles (fun e u => if e.2.segs = 0 then u else u.pointerTo c e.1 0) s

/-- Of context `c` only tiles and transfers differ between two states; of a tile only its pointer and frames. -/
structure onlyPointers (c : Nat) (s t : State) : Prop where
  frame : onlyCtx c s t
  ctx : t.ctx c = { s.ctx c with tiles := (t.ctx c).tiles, xfers := (t.ctx c).xfers, nextXfer := (t.ctx c).nextXfer }
  tile : ∀ v, t.tile c v = { s.tile c v with ptrSeg := (t.tile c v).ptrSeg, frames := (t.tile c v).frames }

theorem onlyPointers.refl (c : Nat) (s : State) : onlyPointers c s s := ⟨⟨rfl, fun _ _ => rfl⟩, rfl, fun _ => rfl⟩

theorem onlyPointers.trans {c : Nat} {s t u : State} (h : onlyPointers c s t) (g : onlyPointers c t u) : onlyPointers c s u :=
  ⟨h.frame.trans g.frame, by rw [g.ctx, h.ctx], fun v => by rw [g.tile, h.tile]⟩

theorem State.pointerTo_pointers (s : State) (c t p : Nat) : onlyPointers c s (s.pointerTo c t p) := by
  unfold State.pointerTo
  dsimp only
  obtain ⟨⟨hframe, hctx, hother, -, -⟩, p', f, htile⟩ :=
    State.pointerIter ((p / 256 + (s.tile c t).segs - (s.tile c t).ptrSeg) % (s.tile c t).segs) s c t
  refine ⟨hframe, hctx, fun v => ?_⟩
  by_cases hv : v = t
  · rw [hv, htile]
  · rw [hother v hv]

theorem State.rewind_pointers (s : State) (c : Nat) : onlyPointers c s (s.rewind c) := by
  refine forAll_induct (P := onlyPointers c s) (fun e t h => ?_) _ (.refl c s)
  split
  · exact h
  · exact h.trans (t.pointerTo_pointers c e.1 0)

theorem onlyPointers.sameWalk {c : Nat} {s t : State} (h : onlyPointers c s t) : sameWalk c s t :=
  ⟨h.frame.1, by rw [h.ctx], by rw [h.ctx], by rw [h.ctx]⟩

theorem State.armed_sameWalk (s : State) (c : Nat) (l : Launch) : sameWalk c s (s.armed c l) := by
  refine ⟨rfl, ?_, ?_, ?_⟩ <;> simp [State.armed]

theorem State.armLaunch_eq (s : State) (c : Nat) (l : Launch) :
    s.armLaunch c l = if s.tablesOk c then (s.armed c l).rewind c else ((s.armed c l).rewind c).ctxFault c 20 := by
  have hok : ((s.armed c l).rewind c).tablesOk c = s.tablesOk c :=
    ((s.armed c l).rewind_pointers c).sameWalk.tablesOk.trans (s.armed_sameWalk c l).tablesOk
  rw [← hok]
  rfl

/-- A tile with a plan is armed. -/
theorem State.tile_armed (s : State) {c v : Nat} (l : Launch) (h : 0 < (s.tile c v).length) : (s.armed c l).tile c v = (s.tile c v).arm l.t0 := by
  unfold State.armed State.tile Table.getD at *
  rw [State.modCtx_eq, State.ctx_setCtx_self]
  dsimp only
  rw [Table.get?_mapVals]
  cases hv : Table.get? (s.ctx c).tiles v with
  | none =>
    rw [hv] at h
    exact absurd h (by decide)
  | some t => rfl

theorem State.armed_onlyCtx (s : State) (c : Nat) (l : Launch) : onlyCtx c s (s.armed c l) :=
  ⟨rfl, fun k hk => by simp [State.armed, State.ctx_setCtx, hk]⟩

/-- The launch runs and its tiles stand at the start of their plans. -/
theorem State.rewind_armed (s : State) {c : Nat} {l : Launch} {rest : List Launch} (hq : (s.ctx c).queue = l :: rest) :
    let u := (s.armed c l).rewind c
    (u.ctx c).running = some l.run ∧ (u.ctx c).queue = rest ∧ onlyCtx c s u
      ∧ ∀ v, 0 < (s.tile c v).length →
        let y := u.tile c v
        y = { (s.tile c v).arm l.t0 with frames := y.frames, ptrSeg := y.ptrSeg } ∧ y.running = true ∧ y.pos = 0 ∧ y.tokens = [] := by
  intro u
  obtain ⟨hframe, hctx, htile⟩ := (s.armed c l).rewind_pointers c
  have harm : (s.armed c l).ctx c = { s.ctx c with
      queue := rest, running := some l.run, tiles := (s.ctx c).tiles.mapVals fun _ t => t.arm l.t0 } := by
    simp [State.armed, hq]
  refine ⟨by rw [hctx, harm], by rw [hctx, harm], (s.armed_onlyCtx c l).trans hframe, fun v hv => ?_⟩
  have hy := htile v
  rw [s.tile_armed l hv] at hy
  intro y
  refine ⟨hy, ?_, ?_, ?_⟩
  · exact (congrArg Tile.running hy).trans (decide_eq_true hv)
  · exact congrArg Tile.pos hy
  · exact congrArg Tile.tokens hy

/-- A launch that is refused leaves the queue and completes. -/
theorem State.refuseLaunch_completes (s : State) {c : Nat} {l : Launch} {rest : List Launch} (hq : (s.ctx c).queue = l :: rest) (status : Nat) :
    ∃ z, onlyCtx c s z ∧ z.ctx c = { s.ctx c with queue := rest } ∧ s.refuseLaunch c l status = z.complete (.ctx c) (s.cpl l.seq 2 status l.t0 0) :=
  ⟨s.modCtx c fun x => { x with queue := x.queue.tail }, ⟨rfl, fun k hk => by simp [State.ctx_setCtx, hk]⟩, by simp [hq], rfl⟩

/-! ## T₀ -/

theorem forAll_induct_mem {α : Type} {P : State → Prop} {f : α → State → State} (l : List α) (hf : ∀ a ∈ l, ∀ s, P s → P (f a s)) {s : State}
    (h : P s) : P (forAll l f s) := by
  unfold forAll
  induction l generalizing s with
  | nil => exact h
  | cons a r ih => exact ih (fun b hb => hf b (List.mem_cons_of_mem a hb)) (hf a List.mem_cons_self s h)

/-- Registers set to 0 one after the other read 0. -/
theorem State.reg_zeroed (g : Nat → Nat) (l : List Nat) (s : State) {v : Nat} (hv : v ∈ l) :
    (forAll l (fun v u => u.setReg (g v) 0) s).reg (g v) = 0 := by
  have stays : ∀ (l : List Nat) (t : State), t.reg (g v) = 0 → (forAll l (fun v u => u.setReg (g v) 0) t).reg (g v) = 0 := fun l t h =>
    forAll_induct (P := fun t => t.reg (g v) = 0) (fun a t h => by rw [State.reg_setReg]; split <;> simp [h]) l h
  obtain ⟨before, after, rfl⟩ := List.append_of_mem hv
  have hsplit : ∀ t : State, forAll (before ++ v :: after) (fun v u => u.setReg (g v) 0) t
      = forAll after (fun v u => u.setReg (g v) 0) ((forAll before (fun v u => u.setReg (g v) 0) t).setReg (g v) 0) := fun t => by
    simp [forAll]
  rw [hsplit]
  exact stays after _ (State.reg_setReg_self _ _ _)

/-- Opening the slots of a launch takes sequence values of groups and leaves the rest. -/
theorem State.openSlots_groups (s : State) (c : Nat) (l : Table SlotDef) :
    (s.openSlots c l).1 = { s with groups := (s.openSlots c l).1.groups } := by
  have one : ∀ (t : State) (d : SlotDef), (t.openSlot c d).1 = { t with groups := (t.openSlot c d).1.groups } := fun t d => by
    unfold State.openSlot
    dsimp only
    split
    · rfl
    · split <;> rfl
  unfold State.openSlots
  suffices h : ∀ (l : Table SlotDef) (a : State × Table Slot), a.1 = { s with groups := a.1.groups } →
      let u := (l.foldl (fun a e => ((a.1.openSlot c e.2).1, Table.set a.2 e.1 (a.1.openSlot c e.2).2)) a).1
      u = { s with groups := u.groups } from h l (s, []) rfl
  intro l
  induction l with
  | nil => exact fun a h => h
  | cons e r ih =>
    intro a h
    refine ih _ ?_
    dsimp only
    rw [one, h]

/-- A single slot whose group is valid for the context takes the next value of its sequence (R243). -/
theorem State.openSlots_single (s : State) {c v : Nat} {d : SlotDef} {g : Group} (hg : Table.get? s.groups d.group = some g) (hc : g.ctx = c) :
    (s.openSlots c [(v, d)]).1.groups = Table.set s.groups d.group { g with seq := g.seq + 1 }
      ∧ ∃ x, Table.get? (s.openSlots c [(v, d)]).2 v = some x ∧ x.seq = some g.seq ∧ x.epoch = g.epoch ∧ x.state = 0 := by
  unfold State.openSlots
  rw [List.foldl_cons, List.foldl_nil]
  unfold State.openSlot
  simp only [hg, hc, if_true, Table.get?_set]
  exact ⟨trivial, _, rfl, rfl, rfl, rfl⟩

/-- The launch record at T₀. -/
def State.launched (s : State) (c : Nat) (r : Running) (slots : Table Slot) : Running :=
  { r with
    started := true
    step0 := BitVec.ofNat 48 (s.cf c Off.CTX_STEP 47 0)
    seed := s.reg (ctxA c Off.CTX_SEED)
    normLimit := BitVec.ofNat 32 (s.cf c Off.CTX_NORM_LIMIT 31 0)
    stride := s.reg (ctxA c Off.CTX_DATA_STRIDE)
    newest0 := (s.ctx c).rings.map fun e => (e.1, e.2.newest)
    slots := slots
    chargedFrom := r.t0 }

/-- The context at T₀. -/
def State.launchCtx (s : State) (c : Nat) (r : Running) : State :=
  s.modCtx c fun x => { x with
    running := some r
    taken := []
    tiles := x.tiles.mapVals fun _ t => { t with flags := 0, nsum := 0, ssum := 0, uv1600 := Config.uv1600Seed (s.reg (ctxA c Off.CTX_SEED)) 0 0 } }

/-- The registers at T₀: decisions of the slots 0, the rates of the parameter sets shown. -/
def State.launchRegs (s : State) (c step : Nat) : State :=
  forAll (List.range 64) (fun p u => u.showRate c p step)
    (forAll (List.range 4) (fun v u => u.setReg (ctxA c (Off.CTX_VSLOT_STS + 0x10 * v)) 0) s)

theorem State.startLaunch_eq (s : State) (c : Nat) (r : Running) :
    s.startLaunch c r =
      let o := s.openSlots c (((s.ctx c).plan.map (·.slots)).getD [])
      ((o.1.launchCtx c (o.1.launched c r o.2)).launchRegs c (o.1.cf c Off.CTX_STEP 47 0)) := rfl

/-- Only registers differ, those of the decisions of the slots reading 0. -/
theorem State.launchRegs_spec (s : State) (c step : Nat) :
    onlyRegs s (s.launchRegs c step) ∧ ∀ v, v < 4 → (s.launchRegs c step).reg (ctxA c (Off.CTX_VSLOT_STS + 0x10 * v)) = 0 := by
  have h1 : onlyRegs s (forAll (List.range 4) (fun v u => u.setReg (ctxA c (Off.CTX_VSLOT_STS + 0x10 * v)) 0) s) :=
    forAll_induct (P := onlyRegs s) (fun v t h => h.trans (onlyRegs.setReg t _ _)) _ rfl
  refine ⟨forAll_induct (P := onlyRegs s) (fun p t h => h.trans (onlyRegs.setReg t _ _)) _ h1, fun v hv => ?_⟩
  unfold State.launchRegs
  refine forAll_induct_mem (P := fun t => t.reg (ctxA c (Off.CTX_VSLOT_STS + 0x10 * v)) = 0) _ (fun p hp t h => ?_)
    (State.reg_zeroed _ _ s (List.mem_range.mpr hv))
  have hp : p < 64 := List.mem_range.mp hp
  rw [← h]
  refine t.reg_setReg_ne _ (homeAddr_ne_of_mod ?_)
  rw [ctxA_mod _ (by simp only [Off.CTX_VSLOT_STS]; omega), ctxA_mod _ (by simp only [Off.CTX_PS_RATE]; omega)]
  simp only [Off.CTX_VSLOT_STS, Off.CTX_PS_RATE]
  omega

theorem State.tile_launchCtx (s : State) (c : Nat) (r : Running) (v : Nat) :
    let y := (s.launchCtx c r).tile c v
    y.flags = 0 ∧ y.nsum = 0 ∧ y.ssum = 0 ∧ y.tokens = (s.tile c v).tokens := by
  unfold State.launchCtx State.tile Table.getD
  rw [State.modCtx_eq, State.ctx_setCtx_self]
  dsimp only
  rw [Table.get?_mapVals]
  cases Table.get? (s.ctx c).tiles v with
  | none => exact ⟨rfl, rfl, rfl, rfl⟩
  | some t => exact ⟨rfl, rfl, rfl, rfl⟩

theorem Table.get?_map_snd {α β : Type} (f : α → β) (t : Table α) (k : Nat) :
    Table.get? (t.map fun e => (e.1, f e.2)) k = (Table.get? t k).map f := by
  induction t with
  | nil => rfl
  | cons e r ih =>
    rw [List.map_cons, Table.get?, Table.get?, ih]
    split <;> rfl

/-- Settles O32: the head launch waits, is refused or runs; at T₀ it takes the registers as they stand. -/
theorem launchesStart : Obligations.LaunchesStart := by
  unfold Obligations.LaunchesStart
  refine ⟨fun s c l rest hq hphase ht0 => ?_, fun s c r hr hstarted ht0 hc => ?_⟩
  · intro refused
    have hearly : ¬ (s.now + 4000 < l.t0 ∨ (s.ctx c).phase ≠ .normal) := by rw [not_or]; exact ⟨by omega, not_not.mpr hphase⟩
    have hrun : exec (.launchReady c) s =
        if s.pstate ≠ 0 ∨ s.psTarget.isSome then .next (s.modCtx c fun x => { x with queue := { l with missed := true } :: rest })
        else if (s.ctx c).running.isSome then .next (s.refuseLaunch c l 3)
        else if ((s.ctx c).plan.map (·.divider)) ≠ some s.eff then .next (s.refuseLaunch c l 4)
        else .next (s.armLaunch c l) := by
      rw [exec_launchReady, execLaunchReady, hq]
      exact if_neg hearly
    refine ⟨fun hps => ?_, fun hps hpt => ?_⟩
    · refine ⟨_, hrun.trans (if_pos hps), by simp, rfl, fun k hk => by simp [State.ctx_setCtx, hk]⟩
    · have hactive : ¬ (s.pstate ≠ 0 ∨ s.psTarget.isSome = true) := by simp [hps, hpt]
      rw [if_neg hactive] at hrun
      refine ⟨fun hbusy => ⟨_, hrun.trans (if_pos hbusy), s.refuseLaunch_completes hq 3⟩, fun hidle hdiv => ?_, fun hidle hdiv hok => ?_,
        fun hidle hdiv hok => ?_⟩
      · rw [if_neg (by simp [hidle])] at hrun
        exact ⟨_, hrun.trans (if_pos hdiv), s.refuseLaunch_completes hq 4⟩
      · rw [if_neg (by simp [hidle]), if_neg (not_not.mpr hdiv), s.armLaunch_eq, if_pos hok] at hrun
        exact ⟨_, hrun, s.rewind_armed hq⟩
      · rw [if_neg (by simp [hidle]), if_neg (not_not.mpr hdiv), s.armLaunch_eq, if_neg (by simp [hok])] at hrun
        have hfault := ((s.armed c l).rewind c).detected_detect ⟨c, 20, none⟩
        refine ⟨_, hrun, ?_, hfault.1⟩
        rw [State.ctxFault, State.ctx, hfault.2]
        exact (s.rewind_armed hq).1
  · have hrun : exec (.launchT0 c) s = .next (s.startLaunch c r) := by
      rw [exec_launchT0, execLaunchT0, hr]
      exact if_neg (by simp [hstarted, ht0])
    rw [State.startLaunch_eq] at hrun
    generalize hslots : ((s.ctx c).plan.map (·.slots)).getD [] = slots at hrun
    have hopen := s.openSlots_groups c slots
    dsimp only at hrun
    generalize ho : s.openSlots c slots = o at hrun hopen
    obtain ⟨hregs, hzero⟩ := State.launchRegs_spec (o.1.launchCtx c (o.1.launched c r o.2)) c (o.1.cf c Off.CTX_STEP 47 0)
    generalize hu : (o.1.launchCtx c (o.1.launched c r o.2)).launchRegs c (o.1.cf c Off.CTX_STEP 47 0) = u at hrun hregs hzero
    have hctxs : ∀ k, u.ctx k = (o.1.launchCtx c (o.1.launched c r o.2)).ctx k := fun k => (congrArg (State.ctx · k) hregs :)
    have htile : ∀ v, u.tile c v = (o.1.launchCtx c (o.1.launched c r o.2)).tile c v := fun v => by rw [State.tile, State.tile, hctxs]
    have hgroups : u.groups = o.1.groups := (congrArg State.groups hregs :)
    have hctx : o.1.ctx = s.ctx := by rw [hopen]; rfl
    have hreg : o.1.reg = s.reg := by rw [hopen]; rfl
    refine ⟨u, hrun, o.1.launched c r o.2, ?_, rfl, rfl, rfl, ?_, ?_, ?_, ?_, fun k => ?_, fun v => ?_, fun v hv => ?_, fun v d g hplan hg hgc => ?_, ?_,
      fun k hk => ?_⟩
    · rw [hctxs, State.launchCtx, State.modCtx_eq, State.ctx_setCtx_self]
    · simp only [State.launched, State.cf_eq, State.rf_eq, hreg, BitVec.toNat_ofNat]
      exact Nat.mod_eq_of_lt (bits_lt _ 47 0)
    · exact congrFun hreg _
    · simp only [State.launched, State.cf_eq, State.rf_eq, hreg, BitVec.toNat_ofNat]
      exact Nat.mod_eq_of_lt (bits_lt _ 31 0)
    · exact congrFun hreg _
    · rw [← hctx]
      exact Table.get?_map_snd VRing.newest _ k
    · rw [htile, show s.tile c v = o.1.tile c v by rw [State.tile, State.tile, hctx]]
      exact o.1.tile_launchCtx c _ v
    · exact hzero v hv
    · have hone : slots = [(v, d)] := by rw [← hslots, hplan]; rfl
      obtain ⟨h1, h2⟩ := s.openSlots_single (v := v) hg hgc
      rw [← hone, ho] at h1 h2
      refine ⟨h2, ?_⟩
      rw [hgroups, h1, Table.get?_set, if_pos rfl]
    · rw [hopen] at hregs
      rw [hregs]
      exact ⟨rfl, rfl, rfl, rfl, rfl, rfl⟩
    · rw [hctxs, State.launchCtx, State.modCtx_eq, State.ctx_setCtx, if_neg hk, hctx]

end Sys2Proof.Machine
end

section
/-! SUPPORT. Completions: the mailbox, the ring and the records held (R389 to R391). -/

namespace Sys2Proof.Machine

/-- Of a context only its results differ between two states; beside them registers, host memory and interrupts. -/
structure onlyResults (c : Nat) (s t : State) : Prop where
  rest : t = { s with ctxs := t.ctxs, regs := t.regs, cycle := t.cycle, msix := t.msix, hostMem := t.hostMem }
  others : ∀ k, k ≠ c → t.ctx k = s.ctx k
  ctx : t.ctx c = { s.ctx c with mailbox := (t.ctx c).mailbox, held := (t.ctx c).held, cplPhase := (t.ctx c).cplPhase }

theorem onlyResults.refl (c : Nat) (s : State) : onlyResults c s s := ⟨rfl, fun _ _ => rfl, rfl⟩

theorem onlyResults.trans {c : Nat} {s t u : State} (h : onlyResults c s t) (g : onlyResults c t u) : onlyResults c s u :=
  ⟨by rw [g.rest, h.rest], fun k hk => (g.others k hk).trans (h.others k hk), by rw [g.ctx, h.ctx]⟩

theorem State.setReg_results (s : State) (c a : Nat) (w : Word) : onlyResults c s (s.setReg a w) := ⟨rfl, fun _ _ => rfl, rfl⟩

theorem State.noteCount_results (s : State) (c a lo n : Nat) : onlyResults c s (s.noteCount a lo n) := ⟨rfl, fun _ _ => rfl, rfl⟩

theorem State.noteRaised_results (s : State) (c a : Nat) (w : Word) : onlyResults c s (s.noteRaised a w) := ⟨rfl, fun _ _ => rfl, rfl⟩

theorem State.sendMsix_results (s : State) (c : Nat) (m : Msix) : onlyResults c s (s.sendMsix m) := ⟨rfl, fun _ _ => rfl, rfl⟩

theorem State.raiseCtx_results (s : State) (c d b : Nat) : onlyResults c s (s.raiseCtx d b) := by
  have hirq : ∀ raw en, onlyResults c s (s.setCtxIrq d raw en) := fun raw en => by
    unfold State.setCtxIrq
    refine forAll_induct (P := onlyResults c s) (fun b t h => ?_) _ ((s.setReg_results c _ raw).trans (State.setReg_results _ c _ en))
    split
    · exact h.trans (t.sendMsix_results c _)
    · exact h
  exact (hirq _ _).trans (State.noteRaised_results _ c _ _)

/-- A raised interrupt of a context stands in its register (R393). -/
theorem State.raiseCtx_raw (s : State) (c b : Nat) :
    (s.raiseCtx c b).reg (ctxA c Off.CTX_IRQ_RAW) = s.reg (ctxA c Off.CTX_IRQ_RAW) ||| BitVec.ofNat 64 (2 ^ b) := by
  have hne : homeAddr (ctxA c Off.CTX_IRQ_RAW) ≠ homeAddr (ctxA c Off.CTX_IRQ_EN) :=
    homeAddr_ne_of_mod (by rw [ctxA_mod c (by decide), ctxA_mod c (by decide)]; decide)
  have hset : ∀ raw en, (s.setCtxIrq c raw en).reg (ctxA c Off.CTX_IRQ_RAW) = raw := fun raw en => by
    unfold State.setCtxIrq
    refine (State.reg_forAll _ _ (fun b t => ?_) _).trans ((State.reg_setReg_ne _ _ hne).trans (s.reg_setReg_self _ _))
    split <;> rfl
  exact hset _ _

theorem fld_or_one (w : Word) : fld (w ||| 1) 0 0 = 1 := by
  have h : (w ||| 1).toNat = w.toNat ||| 1 := BitVec.toNat_or w 1
  have hodd : ∀ n < 2, n ||| 1 = 1 := by decide
  unfold fld bits
  rw [h]
  simpa [Nat.or_mod_two_pow (n := 1)] using hodd _ (Nat.mod_lt _ (by decide))

/-- The record in the mailbox queue, or the overrun (R391). -/
def State.mailed (s : State) (c : Nat) (x : Completion) : State :=
  if (s.ctx c).mailbox.length < 32 then s.setMail (.ctx c) ((s.ctx c).mailbox ++ [x]) else (s.wf (ctxA c Off.CTX_RES_STS) 6 6 1).raiseCtx c 3

/-- The record in the completion ring, or held (R390). -/
def State.banked (s : State) (c : Nat) (x : Completion) : State :=
  if (s.ctx c).held ≠ [] ∨ s.ringBlocked (.ctx c) then s.setHeld (.ctx c) ((s.ctx c).held ++ [x]) else s.ringPut (.ctx c) x

theorem State.putRecord_ctx (s : State) (c : Nat) (x : Completion) :
    s.putRecord (.ctx c) x = ((s.mailed c x).banked c x).raiseCtx c 0 := rfl

/-- The registers of results and interrupts of a context, by their offset in a page. -/
def resultWrites : List Nat := Off.CTX_RES_STS :: stopWrites

theorem State.mailed_results (s : State) (c : Nat) (x : Completion) : onlyResults c s (s.mailed c x) := by
  unfold State.mailed
  split
  · exact ⟨rfl, fun k hk => by simp [State.setMail, State.ctx_setCtx, hk], by simp [State.setMail]⟩
  · exact (s.setReg_results c _ _).trans (State.raiseCtx_results _ c c 3)

theorem State.mailed_mailbox (s : State) (c : Nat) (x : Completion) :
    ((s.mailed c x).ctx c).mailbox = if (s.ctx c).mailbox.length < 32 then (s.ctx c).mailbox ++ [x] else (s.ctx c).mailbox := by
  unfold State.mailed
  split
  · simp [State.setMail]
  · rw [State.ctx, (State.raiseCtx_keeps _ c 3).1]
    rfl

theorem State.mailed_held (s : State) (c : Nat) (x : Completion) :
    ((s.mailed c x).ctx c).held = (s.ctx c).held ∧ ((s.mailed c x).ctx c).rebinding = (s.ctx c).rebinding := by
  unfold State.mailed
  split
  · exact ⟨by simp [State.setMail], by simp [State.setMail]⟩
  · rw [State.ctx, (State.raiseCtx_keeps _ c 3).1]
    exact ⟨rfl, rfl⟩

theorem State.mailed_reg (s : State) (c : Nat) (x : Completion) {a : Nat} (h : a % 2 ^ 12 ∉ resultWrites) : (s.mailed c x).reg a = s.reg a := by
  have hne : homeAddr a ≠ homeAddr (ctxA c Off.CTX_RES_STS) := homeAddr_ne_of_mod fun e => h (by rw [e, ctxA_mod c (by decide)]; decide)
  unfold State.mailed
  split
  · exact State.reg_setReg_ne _ _ hne
  · exact (State.reg_raiseCtx _ c 3 fun e => h (List.mem_cons_of_mem _ e)).trans (s.reg_setReg_ne _ hne)

/-- A record that finds 32 in the mailbox overruns it. -/
theorem State.mailed_overrun (s : State) (c : Nat) (x : Completion) (h : 32 ≤ (s.ctx c).mailbox.length) :
    fld ((s.mailed c x).reg (ctxA c Off.CTX_RES_STS)) 6 6 = 1 := by
  unfold State.mailed
  rw [if_neg (Nat.not_lt.mpr h), State.reg_raiseCtx _ c 3 (by rw [ctxA_mod c (by decide)]; decide), State.wf_eq, State.reg_setReg_self,
    fld_ins_self _ 6 6 _ (by decide) (by decide)]
  rfl

theorem State.ringPut_results (s : State) (c : Nat) (x : Completion) : onlyResults c s (s.ringPut (.ctx c) x) := by
  unfold State.ringPut
  extract_lets base size tail s1 s2
  have hput : onlyResults c s (s.hostPut (s.ringPort (.ctx c)) (base + tail * 32) (x.bytes (s.phaseOf (.ctx c)))) := ⟨rfl, fun _ _ => rfl, rfl⟩
  have h1 : onlyResults c s s1 := hput.trans ((State.setReg_results _ c _ _).trans (State.noteCount_results _ c _ _ _))
  have h2 : onlyResults c s s2 := h1.trans (s1.setReg_results c _ _)
  split
  · exact .refl c s
  · split
    · exact h2.trans ⟨rfl, fun k hk => by simp [State.setPhase, State.ctx_setCtx, hk], by simp [State.setPhase]⟩
    · exact h2

theorem State.setHeld_results (s : State) (c : Nat) (l : List Completion) : onlyResults c s (s.setHeld (.ctx c) l) :=
  ⟨rfl, fun k hk => by simp [State.setHeld, State.ctx_setCtx, hk], by simp [State.setHeld]⟩

theorem State.banked_results (s : State) (c : Nat) (x : Completion) : onlyResults c s (s.banked c x) := by
  unfold State.banked
  split
  · exact s.setHeld_results c _
  · exact s.ringPut_results c x

/-- Records drained into the ring leave what a record leaves, and the registers that software writes. -/
theorem State.drainHeld_results (n : Nat) (s : State) (c : Nat) : onlyResults c s (s.drainHeld (.ctx c) n) := by
  induction n generalizing s with
  | zero => exact .refl c s
  | succ n ih =>
    unfold State.drainHeld
    split
    · exact .refl c s
    · split
      · exact .refl c s
      · exact ((s.ringPut_results c _).trans (State.setHeld_results _ c _)).trans (ih _)

/-- A record goes behind those held, or into a ring that takes it. -/
theorem State.banked_held (s : State) (c : Nat) (x : Completion) :
    ((s.banked c x).ctx c).held = (if (s.ctx c).held ≠ [] ∨ s.ringBlocked (.ctx c) = true then (s.ctx c).held ++ [x] else (s.ctx c).held)
      ∧ ((s.banked c x).ctx c).mailbox = (s.ctx c).mailbox := by
  unfold State.banked
  split
  · exact ⟨by simp [State.setHeld], by simp [State.setHeld]⟩
  · unfold State.ringPut
    extract_lets base size tail s1 s2
    have h2 : s2.ctxs = s.ctxs := rfl
    have hctx : s2.ctx c = s.ctx c := by rw [State.ctx, State.ctx, h2]
    split
    · exact ⟨rfl, rfl⟩
    · split
      · exact ⟨by simp [State.setPhase, hctx], by simp [State.setPhase, hctx]⟩
      · exact ⟨by rw [hctx], by rw [hctx]⟩

/-- The ring writes its status and the bytes of the function. -/
theorem State.ringPut_reg (s : State) (c : Nat) (x : Completion) {a : Nat} (h1 : a % 2 ^ 12 ≠ Off.CTX_CPL_STS) (h2 : a % 2 ^ 12 ≠ Off.CTX_BYTES_PCIE) :
    (s.ringPut (.ctx c) x).reg a = s.reg a := by
  have hsts : homeAddr a ≠ homeAddr (ctxA c Off.CTX_CPL_STS) := homeAddr_ne_of_mod (by rw [ctxA_mod c (by decide)]; exact h1)
  have hbytes : homeAddr a ≠ homeAddr (ctxA c Off.CTX_BYTES_PCIE) := homeAddr_ne_of_mod (by rw [ctxA_mod c (by decide)]; exact h2)
  unfold State.ringPut
  extract_lets base size tail s1 s2
  have hs1 : s1.reg a = s.reg a := State.reg_setReg_ne _ _ hbytes
  have hs2 : s2.reg a = s.reg a := (s1.reg_setReg_ne _ hsts).trans hs1
  split
  · rfl
  · split
    · exact hs2
    · exact hs2

theorem State.setHeld_reg (s : State) (c : Nat) (l : List Completion) {a : Nat} (h1 : a % 2 ^ 12 ≠ Off.CTX_CPL_STS) :
    (s.setHeld (.ctx c) l).reg a = s.reg a :=
  State.reg_setReg_ne _ _ (homeAddr_ne_of_mod (by rw [RingOf.addr, ctxA_mod c (by decide)]; exact h1))

theorem State.banked_reg (s : State) (c : Nat) (x : Completion) {a : Nat} (h1 : a % 2 ^ 12 ≠ Off.CTX_CPL_STS) (h2 : a % 2 ^ 12 ≠ Off.CTX_BYTES_PCIE) :
    (s.banked c x).reg a = s.reg a := by
  unfold State.banked
  split
  · exact s.setHeld_reg c _ h1
  · exact s.ringPut_reg c x h1 h2

/-- The tail of a ring that takes a record goes on by one, modulo the size of the ring. -/
theorem State.banked_tail (s : State) (c : Nat) (x : Completion) (hheld : (s.ctx c).held = []) (hfree : s.ringBlocked (.ctx c) = false)
    (hbase : s.reg (ctxA c Off.CTX_CPL_BASE) ≠ 0) :
    (s.banked c x).cf c Off.CTX_CPL_STS 15 0
      = (s.cf c Off.CTX_CPL_STS 15 0 % 2 ^ s.cf c Off.CTX_CPL_CTL 4 0 + 1) % 2 ^ s.cf c Off.CTX_CPL_CTL 4 0 % 2 ^ 16 := by
  unfold State.banked
  rw [if_neg (by simp [hheld, hfree])]
  unfold State.ringPut
  extract_lets base size tail s1 s2
  have hs2 : fld (s2.reg (ctxA c Off.CTX_CPL_STS)) 15 0 = (tail + 1) % size % 2 ^ 16 := by
    refine (congrArg (fld · 15 0) (s1.reg_setReg_self _ _)).trans ?_
    rw [fld_ins_self _ 15 0 _ (by decide) (by decide)]
  have hb : ¬ base = 0 := fun h => hbase (BitVec.eq_of_toNat_eq h)
  rw [if_neg hb]
  split
  · exact hs2
  · exact hs2

theorem State.drainHeld_reg (n : Nat) (s : State) (c : Nat) {a : Nat} (h1 : a % 2 ^ 12 ≠ Off.CTX_CPL_STS) (h2 : a % 2 ^ 12 ≠ Off.CTX_BYTES_PCIE) :
    (s.drainHeld (.ctx c) n).reg a = s.reg a := by
  induction n generalizing s with
  | zero => rfl
  | succ n ih =>
    unfold State.drainHeld
    split
    · rfl
    · split
      · rfl
      · rw [ih, State.setHeld_reg _ c _ h1, s.ringPut_reg c _ h1 h2]

theorem State.ringBlocked_congr {s t : State} {c : Nat} (h : ∀ off ∈ [Off.CTX_CPL_CTL, Off.CTX_CPL_STS, Off.CTX_CPL_BASE], t.reg (ctxA c off) = s.reg (ctxA c off))
    (hr : (t.ctx c).rebinding = (s.ctx c).rebinding) : t.ringBlocked (.ctx c) = s.ringBlocked (.ctx c) := by
  have hctl : ∀ hi lo, t.rf (ctxA c Off.CTX_CPL_CTL) hi lo = s.rf (ctxA c Off.CTX_CPL_CTL) hi lo := fun hi lo => by
    rw [State.rf_eq, h _ (by decide), State.rf_eq]
  have hsts : t.rf (ctxA c Off.CTX_CPL_STS) 15 0 = s.rf (ctxA c Off.CTX_CPL_STS) 15 0 := by rw [State.rf_eq, h _ (by decide), State.rf_eq]
  unfold State.ringBlocked RingOf.addr
  dsimp only
  rw [hctl, hctl, hsts, h Off.CTX_CPL_BASE (by decide), hr]

/-- A single completion of the cycle is written alone. -/
theorem State.putRecords_single (s : State) {r : RingOf} {x : Completion} (h : s.cycle.done = [(r, x)]) :
    s.putRecords = ({ s with cycle := { s.cycle with done := [] } } : State).putRecord r x := by
  have hseq : inSeq [x] = [x] := by
    unfold inSeq
    simp only [List.filter_cons, List.filter_nil]
    cases (x.op = 7 || x.op = 8)
    · rfl
    · rfl
  unfold State.putRecords
  rw [h]
  simp [forAll, hseq]

/-- Settles O33: a launch ends when no tile runs, and a record goes to the mailbox and to the ring. -/
theorem launchesEndAndComplete : Obligations.LaunchesEndAndComplete := by
  unfold Obligations.LaunchesEndAndComplete
  refine ⟨fun s c r hr hstarted hidle => ?_, fun s c x hc => ?_, fun s r x => ⟨rfl, fun h => State.putRecords_single _ h, rfl, rfl,
    rfl, rfl, rfl, rfl, rfl, rfl⟩⟩
  · have hstop : ¬ (!r.started ∨ (s.ctx c).tiles.any fun e => e.2.running) := by
      simp [hstarted]
      exact fun a b he => hidle (a, b) he
    have hrun : exec (.launchEnd c) s = .next ((s.modCtx c fun x => { x with running := none, ended := if r.hasOpen then r :: x.ended else x.ended }).complete
        (.ctx c) (s.cpl r.seq 2 0 r.t0 (r.finalDecision + s.cf c Off.CTX_STEP 47 0 * 4))) := by
      rw [exec_launchEnd, execLaunchEnd, hr]
      exact if_neg hstop
    refine ⟨_, hrun, _, s.modCtx_onlyCtx c _, by simp, by simp, rfl, ?_⟩
    rw [State.ctx, show ∀ (t : State) r y, (t.complete r y).ctxs = t.ctxs from fun _ _ _ => rfl]
    exact congrArg Ctx.running (s.ctx_setCtx_self c _)
  · intro u
    have hu : u = ((s.mailed c x).banked c x).raiseCtx c 0 := s.putRecord_ctx c x
    have hres : onlyResults c s u := hu ▸ ((s.mailed_results c x).trans (State.banked_results _ c x)).trans (State.raiseCtx_results _ c c 0)
    have hctx : u.ctx c = ((s.mailed c x).banked c x).ctx c := by rw [hu, State.ctx, State.ctx, (State.raiseCtx_keeps _ c 0).1]
    have hmail : ∀ off ∈ [Off.CTX_CPL_CTL, Off.CTX_CPL_STS, Off.CTX_CPL_BASE], (s.mailed c x).reg (ctxA c off) = s.reg (ctxA c off) := fun off ho => by
      have hall : ∀ off ∈ [Off.CTX_CPL_CTL, Off.CTX_CPL_STS, Off.CTX_CPL_BASE], off < 2 ^ 12 ∧ off ∉ resultWrites := by decide
      exact s.mailed_reg c x (by rw [ctxA_mod c (hall off ho).1]; exact (hall off ho).2)
    obtain ⟨hheld, hrebind⟩ := s.mailed_held c x
    have hblocked : (s.mailed c x).ringBlocked (.ctx c) = s.ringBlocked (.ctx c) := State.ringBlocked_congr hmail hrebind
    obtain ⟨hbanked, hbox⟩ := (s.mailed c x).banked_held c x
    rw [hheld, hblocked] at hbanked
    refine ⟨?_, fun hfull => ?_, by rw [hctx, hbanked], ?_, by rw [hres.ctx], by rw [hres.ctx], hres.others, (congrArg State.mem hres.rest :),
      (congrArg State.scratch hres.rest :), fun hnone hfree hbase => ?_⟩
    · rw [hctx, hbox, s.mailed_mailbox c x]
    · rw [hu, State.cf_eq, State.rf_eq, State.reg_raiseCtx _ c 0 (by rw [ctxA_mod c (by decide)]; decide),
        State.banked_reg _ c x (by rw [ctxA_mod c (by decide)]; decide) (by rw [ctxA_mod c (by decide)]; decide)]
      exact s.mailed_overrun c x hfull
    · rw [hu, State.cf_eq, State.rf_eq, State.raiseCtx_raw]
      exact fld_or_one _
    · have htail := (s.mailed c x).banked_tail c x (hheld.trans hnone) (hblocked.trans hfree) (by rw [hmail _ (by decide)]; exact hbase)
      rw [State.cf_eq, State.rf_eq, State.cf_eq, State.rf_eq, State.cf_eq, State.rf_eq, hmail _ (by decide), hmail _ (by decide)] at htail
      rw [hu, State.cf_eq, State.rf_eq, State.reg_raiseCtx _ c 0 (by rw [ctxA_mod c (by decide)]; decide)]
      exact htail

end Sys2Proof.Machine
end

section
/-! SUPPORT. VERDICT and COMMIT_IF (R83, R244, R266). -/

namespace Sys2Proof.Machine

/-! ## VERDICT -/

section
variable {c t p : Nat} {e : EntryBits} {s u : State}

/-- An issue keeps what the launch of its context is at. -/
theorem Issued.running (h : Issued c t e p s u) : (u.ctx c).running = (s.ctx c).running := by
  obtain ⟨⟨-, hctx, -⟩, -⟩ := h
  rw [hctx, State.ctx_logged]

theorem Issued.others (h : Issued c t e p s u) {k : Nat} (hk : k ≠ c) : u.ctx k = s.ctx k := by
  obtain ⟨⟨⟨-, hother⟩, -⟩, -⟩ := h
  rw [hother k hk, State.ctx_logged]

/-- An issue keeps the flags and sums of the tile. -/
theorem Issued.sums (h : Issued c t e p s u) :
    (u.tile c t).nsum = (s.tile c t).nsum ∧ (u.tile c t).ssum = (s.tile c t).ssum ∧ (u.tile c t).flags = (s.tile c t).flags
      ∧ (u.tile c t).prevA = s.now := by
  obtain ⟨-, htile, -⟩ := h
  rw [htile]
  refine ⟨?_, ?_, ?_, rfl⟩
  · split <;> rfl
  · split <;> rfl
  · split <;> rfl

/-- An issue that is no hold keeps the tokens. -/
theorem Issued.tokens (h : Issued c t e p s u) (hhold : eIsHold e = false) (k : Nat) : u.tokens c t k = s.tokens c t k := by
  obtain ⟨-, htile, -⟩ := h
  rw [State.tokens, htile, hhold]
  rfl

end

/-- The contribution of a tile to its slot. -/
def State.given (s : State) (c t : Nat) (e : EntryBits) (x : Slot) : Slot :=
  { x with
    given := x.given ++ [⟨t, (s.tile c t).flags, (s.tile c t).nsum, (s.tile c t).ssum, ef e 215 210⟩]
    lastGiven := s.now
    state := if x.state = 0 then 1 else x.state }

/-- The tile's sums handed over to its slot. -/
def State.handOver (s : State) (c t : Nat) (e : EntryBits) : State :=
  (s.modTile c t fun y => { y with nsum := 0, ssum := 0 }).modRun c fun r => r.modSlot (ef e 209 208) (s.given c t e)

theorem State.handOver_others (s : State) (c t : Nat) (e : EntryBits) {k : Nat} (hk : k ≠ c) : (s.handOver c t e).ctx k = s.ctx k := by
  simp [State.handOver, State.modRun, State.ctx_setCtx, hk]

theorem State.handOver_running (s : State) {c t : Nat} {e : EntryBits} {r : Running} (hr : (s.ctx c).running = some r) :
    ((s.handOver c t e).ctx c).running = some (r.modSlot (ef e 209 208) (s.given c t e)) := by
  simp [State.handOver, State.modRun, Ctx.modTile, hr]

theorem State.handOver_tile (s : State) (c t : Nat) (e : EntryBits) :
    (s.handOver c t e).tile c t = { s.tile c t with nsum := 0, ssum := 0 } :=
  ((s.modTile c t fun y => { y with nsum := 0, ssum := 0 }).tile_modCtx c
    (f := fun x => { x with running := x.running.map fun r => r.modSlot (ef e 209 208) (s.given c t e) }) (fun _ => rfl) c t).trans
    (s.tile_modTile_self c t _)

theorem Running.slot_modSlot (r : Running) {v : Nat} {x : Slot} (f : Slot → Slot) (h : Table.get? r.slots v = some x) :
    Table.get? (r.modSlot v f).slots v = some (f x) := by
  rw [Running.modSlot, Table.get?_mapVals, h]
  simp

/-- The state of the slot shown. -/
def State.showGiven (s : State) (c : Nat) (e : EntryBits) (x : Slot) : State :=
  if x.state = 0 then s.wf (ctxA c (Off.CTX_VSLOT_STS + 0x10 * ef e 209 208)) 1 0 1 else s

theorem State.showGiven_keeps (s : State) (c : Nat) (e : EntryBits) (x : Slot) : keepsCtxs s (s.showGiven c e x) :=
  keepsCtxs.ite _ (s.wf_keeps _ _ _ _) (keepsCtxs.refl s)

theorem State.issueVerdict_eq (s : State) (c t : Nat) (e : EntryBits) (x : Slot) :
    s.issueVerdict c t e x = (if x.state = 3 then ((s.handOver c t e).showGiven c e x).addTokens c t (ef e 215 210) 1
      else (s.handOver c t e).showGiven c e x).issue c t e := rfl

/-- Tokens added to a tile leave its sums, and the other contexts. -/
theorem State.addTokens_rest (s : State) (c t k n : Nat) :
    ((s.addTokens c t k n).tile c t).nsum = (s.tile c t).nsum ∧ ((s.addTokens c t k n).tile c t).ssum = (s.tile c t).ssum
      ∧ (∀ j, j ≠ c → (s.addTokens c t k n).ctx j = s.ctx j) ∧ (s.addTokens c t k n).tb = s.tb := by
  unfold State.addTokens
  extract_lets x v f s1
  have h1 : (s1.tile c t).nsum = x.nsum ∧ (s1.tile c t).ssum = x.ssum ∧ (∀ j, j ≠ c → s1.ctx j = s.ctx j) ∧ s1.tb = s.tb := by
    refine ⟨?_, ?_, fun j hj => by simp [s1, State.ctx_setCtx, hj], rfl⟩
    · rw [State.tile_modTile_self]
    · rw [State.tile_modTile_self]
  have hfault : ∀ d, (s1.schedFault c t d 4 4).ctxs = s1.ctxs ∧ (s1.schedFault c t d 4 4).tb = s1.tb := fun d => by
    rw [State.schedFault, (s1.detected_detect _).2]
    exact ⟨rfl, rfl⟩
  split
  · obtain ⟨hctxs, htb⟩ := hfault x.pos
    rw [State.tile, htb]
    simp only [State.ctx, hctxs]
    exact h1
  · exact h1

/-- An entry whose slot takes its contribution. -/
theorem State.verdict_run {s : State} {c t : Nat} {e : EntryBits} {r : Running} {x : Slot} (hdue : s.dueClass c t 0x48 = some e)
    (hr : (s.ctx c).running = some r) (hx : Table.get? r.slots (ef e 209 208) = some x) :
    exec (.verdict c t) s = if ((Table.get? s.groups (ef e 207 196)).map fun q => decide (q.ctx = c)).getD false = true ∧ x.seq.isSome then
        .next (s.issueVerdict c t e x)
      else .next (((s.modRun c fun r => r.modSlot (ef e 209 208) fun y => { y with seq := none }).collSts c (ef e 207 196) 1).ctxFault c 14) := by
  rw [exec_verdict, execVerdict, hdue, hr]
  dsimp only
  rw [hx]

theorem State.groupValid_iff (s : State) (g c : Nat) :
    ((Table.get? s.groups g).map fun q => decide (q.ctx = c)).getD false = true ↔ ∃ q, Table.get? s.groups g = some q ∧ q.ctx = c := by
  cases Table.get? s.groups g <;> simp

theorem State.collSts_onlyRegs (s : State) (c g k : Nat) : onlyRegs s (s.collSts c g k) := by
  unfold State.collSts
  dsimp only
  split
  · exact rfl
  · exact rfl

theorem State.collSts_others (s : State) (c g k : Nat) : sameRegsBut [ctxA c Off.CTX_COLL_STS] s (s.collSts c g k) := by
  intro a ha
  have hne : homeAddr a ≠ homeAddr (ctxA c Off.CTX_COLL_STS) := by simpa using ha
  unfold State.collSts
  dsimp only
  split
  · rw [State.wf_eq, State.reg_setReg_ne _ _ hne, State.wf_eq, State.reg_setReg_ne _ _ hne]
  · rfl

/-- The first collective fault names its group. -/
theorem State.collSts_first (s : State) (c : Nat) {g k : Nat} (hg : g < 2 ^ 12) (hk : k < 2 ^ 4) (h : s.cf c Off.CTX_COLL_STS 15 12 = 0) :
    (s.collSts c g k).cf c Off.CTX_COLL_STS 15 12 = k ∧ (s.collSts c g k).cf c Off.CTX_COLL_STS 11 0 = g := by
  unfold State.collSts
  dsimp only
  rw [State.cf_eq] at h
  rw [if_pos h]
  simp only [State.cf_eq, State.rf_eq, State.wf_eq, State.reg_setReg_self]
  refine ⟨?_, ?_⟩
  · rw [fld_ins_self _ 15 12 _ (by decide) (by decide)]
    exact Nat.mod_eq_of_lt hk
  · rw [fld_ins_below _ 15 12 _ _ _ (by decide) (by decide) (by decide) (by decide), fld_ins_self _ 11 0 _ (by decide) (by decide)]
    exact Nat.mod_eq_of_lt hg

/-! ## COMMIT_IF -/

theorem State.goto_frame (s : State) (c t p : Nat) :
    onlyTile c t s (s.goto c t p) ∧ ((s.goto c t p).tile c t).prevA = (s.tile c t).prevA := by
  obtain ⟨hframe, g, f, htile⟩ := s.goto_spec c t p
  exact ⟨hframe, by rw [htile]⟩

/-- The entry that comes next outside of loops, where no sub-plan ends, stands at its position in the sub-plan that the tile has. -/
theorem State.goto_plain (s : State) {c t p : Nat} (hr : (s.tile c t).reps = []) {sub : Option (Nat × Nat)} (hs : (s.tile c t).subEnd = sub)
    (hp : ∀ q, sub = some q → p ≠ q.1) : ((s.goto c t p).tile c t).pos = p ∧ ((s.goto c t p).tile c t).subEnd = sub := by
  have hnext : (s.tile c t).upNext p = (p, [], sub) := by
    unfold Tile.upNext
    rw [hr, hs]
    cases hsub : sub with
    | none => rfl
    | some q => simp [hp q hsub, nextPos]
  obtain ⟨-, g, f, htile⟩ := s.goto_spec c t p
  rw [hnext] at htile
  rw [htile]
  exact ⟨rfl, rfl⟩

/-- What every issue leaves, but for position and tokens. -/
theorem State.issueAt_rest (s : State) (c t : Nat) (e : EntryBits) :
    onlyTile c t (s.logged c t e) (s.issueAt c t e) ∧ ((s.issueAt c t e).tile c t).reps = (s.tile c t).reps
      ∧ ((s.issueAt c t e).tile c t).subEnd = (s.tile c t).subEnd ∧ ((s.issueAt c t e).tile c t).prevA = s.now := by
  obtain ⟨hframe, htile⟩ := s.issueAt_spec c t e
  rw [htile]
  refine ⟨hframe, ?_, ?_, rfl⟩
  · dsimp only
    split <;> rfl
  · dsimp only
    split <;> rfl

/-- Settles O35: a VERDICT hands over to a slot of a valid group, and COMMIT_IF goes on by the decision of its slot. -/
theorem verdictsAndCommitIf : Obligations.VerdictsAndCommitIf := by
  unfold Obligations.VerdictsAndCommitIf
  refine ⟨fun s c t e r x hdue hr hx => ?_, fun s c t e r hdue hr hreps hsub => ?_⟩
  · intro valid
    have hrun := State.verdict_run hdue hr hx
    generalize hs2 : (s.handOver c t e).showGiven c e x = s2
    have hkeep : keepsCtxs (s.handOver c t e) s2 := hs2 ▸ State.showGiven_keeps _ c e x
    have hother : ∀ k, k ≠ c → s2.ctx k = s.ctx k := fun k hk => by
      rw [State.ctx, hkeep.1]
      exact s.handOver_others c t e hk
    have htile : s2.tile c t = { s.tile c t with nsum := 0, ssum := 0 } := (hkeep.tile c t).trans (s.handOver_tile c t e)
    have hnow : s2.now = s.now := congrArg BitVec.toNat hkeep.2
    refine ⟨fun hv hseq h3 => ?_, fun hv hseq h3 hhold => ?_, fun hbad => ?_⟩
    · rw [if_pos ⟨(s.groupValid_iff _ c).mpr hv, hseq⟩, State.issueVerdict_eq, if_neg h3, hs2] at hrun
      have hissued := s2.issued_issue c t e
      obtain ⟨h1, h2, h4, h5⟩ := hissued.sums
      rw [htile] at h1 h2 h4
      refine ⟨_, hrun, r.modSlot (ef e 209 208) (s.given c t e), ?_, r.slot_modSlot _ hx, h1, h2, h4, h5.trans hnow, fun k hk => (hissued.others hk).trans (hother k hk)⟩
      rw [hissued.running, State.ctx, hkeep.1]
      exact s.handOver_running hr
    · rw [if_pos ⟨(s.groupValid_iff _ c).mpr hv, hseq⟩, State.issueVerdict_eq, if_pos h3, hs2] at hrun
      obtain ⟨hadded, -, -⟩ := s2.addTokens_added c t (ef e 215 210) 1
      obtain ⟨hnsum, hssum, hctx, htb⟩ := s2.addTokens_rest c t (ef e 215 210) 1
      have hissued := (s2.addTokens c t (ef e 215 210) 1).issued_issue c t e
      obtain ⟨h1, h2, -, h5⟩ := hissued.sums
      have hbefore : s2.tokens c t (ef e 215 210) = s.tokens c t (ef e 215 210) := by rw [State.tokens, htile, State.tokens]
      refine ⟨_, hrun, ?_, ?_, ?_, ?_, fun k hk => ?_⟩
      · rw [hissued.tokens hhold, hadded, hbefore, Nat.min_comm]
      · rw [h1, hnsum, htile]
      · rw [h2, hssum, htile]
      · rw [h5, State.now, htb]
        exact hnow
      · rw [hissued.others hk, hctx k hk, hother k hk]
    · have hno : ¬ (((Table.get? s.groups (ef e 207 196)).map fun q => decide (q.ctx = c)).getD false = true ∧ x.seq.isSome = true) := by
        rw [s.groupValid_iff]
        rintro ⟨hv, hseq⟩
        rcases hbad with h | h
        · exact h hv
        · rw [h] at hseq
          exact absurd hseq (by decide)
      rw [if_neg hno] at hrun
      generalize hz : (s.modRun c fun r => r.modSlot (ef e 209 208) fun y => { y with seq := none }) = z at hrun
      have hregs := z.collSts_onlyRegs c (ef e 207 196) 1
      have hdet := (z.collSts c (ef e 207 196) 1).detected_detect ⟨c, 14, none⟩
      have hfirst : s.cf c Off.CTX_COLL_STS 15 12 = 0 → _ := fun h0 =>
        z.collSts_first c (g := ef e 207 196) (k := 1) (bits_lt _ 207 196) (by decide) (by rw [← h0, ← hz]; rfl)
      have hsame := z.collSts_others c (ef e 207 196) 1
      have hreg : z.reg = s.reg := hz ▸ rfl
      have hmem : sameMemory s z := hz ▸ ⟨rfl, rfl, rfl, rfl, rfl, rfl⟩
      have hctx : (z.ctx c).tiles = (s.ctx c).tiles ∧ ∀ k, k ≠ c → z.ctx k = s.ctx k := by
        rw [← hz]
        exact ⟨by simp [State.modRun], fun k hk => by simp [State.modRun, State.ctx_setCtx, hk]⟩
      generalize z.collSts c (ef e 207 196) 1 = w at hrun hregs hdet hfirst hsame
      have hw : w.ctxs = z.ctxs := (congrArg State.ctxs hregs :)
      refine ⟨_, hrun, hdet.1, ?_, ?_, fun k hk => ?_, fun a ha => ?_, fun h0 => ?_⟩
      · rw [State.ctxFault, hdet.2, ← hctx.1]
        exact congrArg (fun l => (Table.getD Ctx.init l c).tiles) hw
      · rw [State.ctxFault, hdet.2, hregs]
        exact hmem
      · rw [State.ctxFault, hdet.2, ← hctx.2 k hk]
        exact congrArg (Table.getD Ctx.init · k) hw
      · rw [State.ctxFault, hdet.2, ← hreg]
        exact hsame a ha
      · rw [State.ctxFault, hdet.2]
        exact hfirst h0
  · intro p clen commit
    have hrun : exec (.commitIf c t) s =
        if commit then .next (((s.issueAt c t e).modTile c t fun y => { y with subEnd := some (p + 1 + clen, p + 1 + clen + ef e 171 160) }).goto c t (p + 1))
        else .next ((s.issueAt c t e).goto c t (p + 1 + clen)) := by
      rw [exec_commitIf, execCommitIf, hdue, hr]
    obtain ⟨hissue, hreps1, hsub1, hprev⟩ := s.issueAt_rest c t e
    by_cases hc : commit
    · rw [if_pos hc] at hrun
      generalize hz : (s.issueAt c t e).modTile c t (fun y => { y with subEnd := some (p + 1 + clen, p + 1 + clen + ef e 171 160) }) = z at hrun
      have htile : z.tile c t = { (s.issueAt c t e).tile c t with subEnd := some (p + 1 + clen, p + 1 + clen + ef e 171 160) } := by
        rw [← hz, State.tile_modTile_self]
      obtain ⟨hframe, hprev'⟩ := z.goto_frame c t (p + 1)
      refine ⟨_, hrun, fun hlen _ => ?_, fun h => absurd hc h, by rw [hprev', htile]; exact hprev,
        (hissue.trans (hz ▸ State.modTile_onlyTile _ c t _)).trans hframe⟩
      refine z.goto_plain (by rw [htile]; exact hreps1.trans hreps) (by rw [htile]) fun q hq => ?_
      cases hq
      dsimp only
      omega
    · rw [if_neg hc] at hrun
      obtain ⟨hframe, hprev'⟩ := (s.issueAt c t e).goto_frame c t (p + 1 + clen)
      refine ⟨_, hrun, fun _ h => absurd h hc, fun _ => ?_, hprev'.trans hprev, hissue.trans hframe⟩
      exact State.goto_plain _ (hreps1.trans hreps) (hsub1.trans hsub) fun q hq => nomatch hq

end Sys2Proof.Machine
end

section
/-! SUPPORT. Interrupts and promises: what raising a source and bringing the promises up to date leave (R60, R393, R434). -/

namespace Sys2Proof.Machine

/-- Registers, contexts and messages sent apart, nothing differs between two states. -/
def sameCore (s t : State) : Prop := t = { s with regs := t.regs, cycle := t.cycle, msix := t.msix, ctxs := t.ctxs }

theorem sameCore.refl (s : State) : sameCore s s := rfl

theorem sameCore.trans {s t u : State} (h : sameCore s t) (g : sameCore t u) : sameCore s u := by
  unfold sameCore at *
  rw [g, h]

theorem sameCore.forAll {α : Type} (l : List α) (f : α → State → State) (hf : ∀ a s, sameCore s (f a s)) (s : State) : sameCore s (forAll l f s) :=
  forAll_induct (P := sameCore s) (fun a t h => h.trans (hf a t)) l (.refl s)

theorem sameCore.ite {s t u : State} (p : Prop) [Decidable p] (h : sameCore s t) (g : sameCore s u) : sameCore s (if p then t else u) := by
  split
  · exact h
  · exact g

theorem onlyRegs.core {s t : State} (h : onlyRegs s t) : sameCore s t := by
  unfold sameCore
  rw [h]

theorem sameCore.mem {s t : State} (h : sameCore s t) : sameMemory s t := by
  rw [h]
  exact ⟨rfl, rfl, rfl, rfl, rfl, rfl⟩

theorem State.setReg_core (s : State) (a : Nat) (w : Word) : sameCore s (s.setReg a w) := rfl

theorem State.noteRaised_core (s : State) (a : Nat) (w : Word) : sameCore s (s.noteRaised a w) := rfl

theorem State.sendMsix_core (s : State) (m : Msix) : sameCore s (s.sendMsix m) := rfl

theorem State.modCtx_core (s : State) (c : Nat) (f : Ctx → Ctx) : sameCore s (s.modCtx c f) := rfl

theorem State.sat_core (s : State) (a hi lo n : Nat) : sameCore s (s.sat a hi lo n) := rfl

theorem State.wrap_core (s : State) (a hi lo n : Nat) : sameCore s (s.wrap a hi lo n) := rfl

/-! ## Interrupts of a page -/

theorem State.setPgIrq_spec (s : State) (d b : Nat) (raw en : Word) :
    sameCore s (s.setPgIrq d b raw en) ∧ (s.setPgIrq d b raw en).ctxs = s.ctxs
      ∧ (s.setPgIrq d b raw en).regs = ((s.setReg (bar0 d b Off.PG_IRQ_RAW) raw).setReg (bar0 d b Off.PG_IRQ_EN) en).regs := by
  unfold State.setPgIrq
  dsimp only
  split
  · exact ⟨rfl, rfl, rfl⟩
  · split
    · exact ⟨rfl, rfl, rfl⟩
    · exact ⟨rfl, rfl, rfl⟩

theorem State.raisePg_core (s : State) (d b n : Nat) : sameCore s (s.raisePg d b n) :=
  (s.setPgIrq_spec d b _ _).1.trans (State.noteRaised_core _ _ _)

theorem State.raiseRdg_core (s : State) (n : Nat) : sameCore s (s.raiseRdg n) := s.raisePg_core 0 0 n

theorem State.reg_setPgIrq (s : State) (d b : Nat) (raw en : Word) {a : Nat} (h1 : a % 2 ^ 12 ≠ Off.PG_IRQ_RAW) (h2 : a % 2 ^ 12 ≠ Off.PG_IRQ_EN) :
    (s.setPgIrq d b raw en).reg a = s.reg a := by
  rw [State.reg, (s.setPgIrq_spec d b raw en).2.2]
  refine (State.reg_setReg_ne _ _ (homeAddr_ne_of_mod ?_)).trans (s.reg_setReg_ne _ (homeAddr_ne_of_mod ?_))
  · rwa [bar0_mod d b (by decide)]
  · rwa [bar0_mod d b (by decide)]

theorem State.reg_raisePg (s : State) (d b n : Nat) {a : Nat} (h1 : a % 2 ^ 12 ≠ Off.PG_IRQ_RAW) (h2 : a % 2 ^ 12 ≠ Off.PG_IRQ_EN) :
    (s.raisePg d b n).reg a = s.reg a := s.reg_setPgIrq d b _ _ h1 h2

/-- A raised source stands. -/
theorem State.raisePg_raw (s : State) (d b n : Nat) :
    (s.raisePg d b n).reg (bar0 d b Off.PG_IRQ_RAW) = s.reg (bar0 d b Off.PG_IRQ_RAW) ||| BitVec.ofNat 64 (2 ^ n) := by
  have hne : homeAddr (bar0 d b Off.PG_IRQ_RAW) ≠ homeAddr (bar0 d b Off.PG_IRQ_EN) :=
    homeAddr_ne_of_mod (by rw [bar0_mod d b (by decide), bar0_mod d b (by decide)]; decide)
  have hregs := (s.setPgIrq_spec d b (s.reg (bar0 d b Off.PG_IRQ_RAW) ||| BitVec.ofNat 64 (2 ^ n)) (s.reg (bar0 d b Off.PG_IRQ_EN))).2.2
  unfold State.raisePg
  rw [State.reg_of_noteRaised, State.reg, hregs]
  exact (State.reg_setReg_ne _ _ hne).trans (s.reg_setReg_self _ _)

/-- A bit put into a word reads 1. -/
theorem fld_or_bit (w : Word) {n : Nat} (hn : n < 64) : fld (w ||| BitVec.ofNat 64 (2 ^ n)) n n = 1 := by
  have hlt : 2 ^ n < 2 ^ 64 := Nat.pow_lt_pow_right (by decide) hn
  have hbit : (w ||| BitVec.ofNat 64 (2 ^ n)).toNat.testBit n = true := by
    rw [BitVec.toNat_or, Nat.testBit_or, BitVec.toNat_ofNat, Nat.mod_eq_of_lt hlt, Nat.testBit_two_pow_self, Bool.or_true]
  rw [Nat.testBit_eq_decide_div_mod_eq, decide_eq_true_eq] at hbit
  unfold fld bits
  rw [show n + 1 - n = 1 from by omega]
  exact hbit

theorem State.raisePg_bit (s : State) (d b : Nat) {n : Nat} (hn : n < 64) : (s.raisePg d b n).rf (bar0 d b Off.PG_IRQ_RAW) n n = 1 := by
  rw [State.rf_eq, State.raisePg_raw]
  exact fld_or_bit _ hn

theorem State.raiseRdg_bit (s : State) {n : Nat} (hn : n < 64) : (s.raiseRdg n).rf Off.PG_IRQ_RAW n n = 1 := s.raisePg_bit 0 0 hn

theorem State.reg_raiseRdg (s : State) (n : Nat) {a : Nat} (h1 : a % 2 ^ 12 ≠ Off.PG_IRQ_RAW) (h2 : a % 2 ^ 12 ≠ Off.PG_IRQ_EN) :
    (s.raiseRdg n).reg a = s.reg a := s.reg_raisePg 0 0 n h1 h2

/-! ## Promises -/

theorem State.refreshPromise_core (s : State) (c : Nat) : sameCore s (s.refreshPromise c) := by
  unfold State.refreshPromise
  extract_lets a old new s1
  have h1 : sameCore s s1 := s.setReg_core a _
  split
  · exact .refl s
  · split
    · exact (h1.trans (s1.sat_core a 15 8 1)).trans (State.modCtx_core _ c _)
    · split
      · exact h1.trans (s1.sat_core a 31 16 1)
      · exact h1

theorem State.refreshAll_core (s : State) : sameCore s s.refreshAll := sameCore.forAll _ _ (fun c t => t.refreshPromise_core c) s

theorem State.raiseCtx_core (s : State) (c b : Nat) : sameCore s (s.raiseCtx c b) := by
  have hirq : ∀ raw en, sameCore s (s.setCtxIrq c raw en) := fun raw en => by
    unfold State.setCtxIrq
    refine ((s.setReg_core _ raw).trans (State.setReg_core _ _ en)).trans (sameCore.forAll _ _ (fun b t => ?_) _)
    exact sameCore.ite _ (t.sendMsix_core _) (.refl t)
  exact (hirq _ _).trans (State.noteRaised_core _ _ _)

/-! ## Writes of package registers -/

/-- No virtual function reaches a page of BAR0: its access counts nothing (R371). -/
theorem WriteReaches.uncounted {s : State} {src : HostSrc} {a : Nat} (hw : WriteReaches s src a) (ha : a < 2 ^ 24) :
    s.countVf src .eight = s ∧ pcieOf src = [] := by
  obtain ⟨-, hsrc, -⟩ := hw
  cases src with
  | pf b => exact ⟨rfl, rfl⟩
  | mgmt => exact ⟨rfl, rfl⟩
  | vf b n =>
    have := ctxA_ge n 0
    simp [State.srcOk, inWindow] at hsrc
    omega

/-- An 8-byte write that reaches a register of BAR0 acts on it. -/
theorem State.write8_low {s : State} {src : HostSrc} {a : Nat} {k : PageKind} {r : RegDef} (v : Word) (hw : WriteReaches s src a) (ha : a < 2 ^ 24)
    (hk : pageOf a = some k) (hg : k ≠ .guest) (hr : regAt a = some r) (hf : r.free = true) : s.write8 src a v = s.writeReg src true a v := by
  rw [State.write8_eq v hw hk hg hr hf, (hw.uncounted ha).1]

/-- A register of the RDG page that a write acts on. -/
structure RdgReg (a : Nat) : Prop where
  low : a < 2 ^ 24
  page : pageOf a = some .rdg
  off : offOf a = a
  body : ¬ a < 0x80
  defined : ∃ r, regAt a = some r ∧ r.free = true

theorem RdgReg.write {s : State} {src : HostSrc} {a : Nat} (h : RdgReg a) (v : Word) (hw : WriteReaches s src a) :
    ∃ r, s.write8 src a v = s.writeRdg src true a r v := by
  obtain ⟨r, hr, hf⟩ := h.defined
  refine ⟨r, (State.write8_low v hw h.low h.page (by decide) hr hf).trans ?_⟩
  unfold State.writeReg
  rw [h.page, hr, h.off]
  exact if_neg h.body

/-- Only registers of a list differ between two states: the frame of a write that reaches a page of BAR0. -/
theorem WriteReaches.wrote {s u : State} {src : HostSrc} {a : Nat} {l : List Nat} (hw : WriteReaches s src a) (ha : a < 2 ^ 24) (h : onlyRegs s u)
    (hr : sameRegsBut l s u) : wroteRegs src l s u := by
  refine ⟨h, ?_⟩
  rw [(hw.uncounted ha).2, List.append_nil]
  exact hr

theorem WriteReaches.others {s u : State} {src : HostSrc} {a b : Nat} (hw : WriteReaches s src a) (ha : a < 2 ^ 24) (hr : sameRegsBut [b] s u) :
    sameRegsBut (b :: pcieOf src) s u := by
  rw [(hw.uncounted ha).2]
  exact hr

theorem sameRegsBut.refl (l : List Nat) (s : State) : sameRegsBut l s s := fun _ _ => rfl

theorem sameRegsBut.wf {l : List Nat} {s t : State} (h : sameRegsBut l s t) {a : Nat} (ha : a ∈ l) (hi lo v : Nat) : sameRegsBut l s (t.wf a hi lo v) := by
  intro b hb
  have hne : homeAddr b ≠ homeAddr a := fun e => hb (by rw [e]; exact List.mem_map_of_mem ha)
  exact (t.reg_setReg_ne _ hne).trans (h b hb)

theorem sameRegsBut.of_regs {l : List Nat} {s t u : State} (h : sameRegsBut l s t) (hr : u.regs = t.regs) : sameRegsBut l s u := fun b hb => by
  rw [State.reg, hr]
  exact h b hb

end Sys2Proof.Machine
end

section
/-! SUPPORT. Thermal protection (R31, R416, R438) and the actions of the sag levels (table *Sag levels*). -/

namespace Sys2Proof.Machine

/-! ## The actions of the sag levels -/

/-- The registers that a sag action writes, by their offset in a page. -/
def sagWrites : List Nat :=
  [Off.PG_IRQ_RAW, Off.PG_IRQ_EN, Off.CTX_PROMISE, Off.RDG_CLK, Off.DMR_STS, Off.THC_LIG_STS, Off.THC_LIG_STS + 0x40, Off.THC_LIG_STS + 0x80,
    Off.THC_LIG_STS + 0xC0]

/-- Registers off those that the sag actions write read as before. -/
def keepsSag (s t : State) : Prop := ∀ a, a % 2 ^ 12 ∉ sagWrites → t.reg a = s.reg a

theorem keepsSag.refl (s : State) : keepsSag s s := fun _ _ => rfl

theorem keepsSag.trans {s t u : State} (h : keepsSag s t) (g : keepsSag t u) : keepsSag s u := fun a ha => (g a ha).trans (h a ha)

theorem keepsSag.of_regs {s t : State} (h : t.regs = s.regs) : keepsSag s t := fun _ _ => by rw [State.reg, State.reg, h]

theorem State.setReg_sag (s : State) {b : Nat} (hb : b % 2 ^ 12 ∈ sagWrites) (w : Word) : keepsSag s (s.setReg b w) := fun _ ha =>
  s.reg_setReg_ne w (homeAddr_ne_of_mod fun e => ha (e ▸ hb))

theorem State.raisePg_sag (s : State) (d b n : Nat) : keepsSag s (s.raisePg d b n) := fun a ha =>
  s.reg_raisePg d b n (fun e => ha (by rw [e]; decide)) (fun e => ha (by rw [e]; decide))

theorem State.refreshAll_sag (s : State) : keepsSag s s.refreshAll := fun _ ha => s.reg_refreshAll fun e => ha (by rw [e]; decide)

theorem dmrReg_mod (i : Nat) {off : Nat} (ho : off < 2 ^ 12) : dmrReg i off % 2 ^ 12 = off := bar0_mod _ _ ho

/-- What the sag levels leave in force: levels entered, buffer limit, halt, keep-alive, shutdown and the power-state command under way. -/
def State.sagMarks (s : State) : List Nat × Bool × Bool × Bool × Bool × Option Nat :=
  (s.entered, s.bufLimited, s.halted, s.keepAlive, s.shutdown, s.psTarget)

/-- Sag marks stay, and registers off those that the sag actions write. -/
def keepsMarks (s t : State) : Prop := t.sagMarks = s.sagMarks ∧ keepsSag s t

theorem keepsMarks.refl (s : State) : keepsMarks s s := ⟨rfl, .refl s⟩

theorem keepsMarks.trans {s t u : State} (h : keepsMarks s t) (g : keepsMarks t u) : keepsMarks s u := ⟨g.1.trans h.1, h.2.trans g.2⟩

theorem sameCore.sagMarks {s t : State} (h : sameCore s t) : t.sagMarks = s.sagMarks := (congrArg State.sagMarks h :)

theorem sameCore.marks {s t : State} (h : sameCore s t) (hr : keepsSag s t) : keepsMarks s t := ⟨h.sagMarks, hr⟩

theorem State.modSite_marks (s : State) (i : Nat) (f : Site → Site) : keepsMarks s (s.modSite i f) := ⟨rfl, .of_regs rfl⟩

theorem State.siteOff_marks (s : State) (i : Nat) : keepsMarks s (s.siteOff i) := by
  have set : ∀ (t : State) off lo hi v, off ∈ [Off.DMR_CTL, Off.DMR_STS] → keepsMarks t (t.wf (dmrReg i off) hi lo v) := fun t off lo hi v ho => by
    have hall : ∀ off ∈ [Off.DMR_CTL, Off.DMR_STS], off < 2 ^ 12 ∧ off ∈ sagWrites := by decide
    exact ⟨rfl, t.setReg_sag (by rw [dmrReg_mod i (hall off ho).1]; exact (hall off ho).2) _⟩
  unfold State.siteOff
  split
  · exact (((set s _ _ _ _ (by decide)).trans (set _ _ _ _ _ (by decide))).trans (State.modSite_marks _ i _)).trans
      ((State.raisePg_core _ _ _ _).marks (State.raisePg_sag _ _ _ _))
  · exact .refl s

theorem State.pauseEngine_spec (s : State) (t : Nat) {n : Nat} (hn : n < 4) : onlyRegs s (s.pauseEngine t n) ∧ keepsSag s (s.pauseEngine t n) := by
  have hmod : ligReg t n Off.THC_LIG_STS % 2 ^ 12 ∈ sagWrites := by
    have hall : ∀ n < 4, (Off.THC_LIG_STS + 0x40 * n) < 2 ^ 12 ∧ (Off.THC_LIG_STS + 0x40 * n) ∈ sagWrites := by decide
    unfold ligReg
    rw [bar0_mod _ _ (hall n hn).1]
    exact (hall n hn).2
  unfold State.pauseEngine
  split
  · exact ⟨rfl, s.setReg_sag hmod _⟩
  · exact ⟨rfl, .refl s⟩

theorem State.pauseEngines_spec (s : State) :
    onlyRegs s (s.allEngines fun t n u => u.pauseEngine t n) ∧ keepsSag s (s.allEngines fun t n u => u.pauseEngine t n) := by
  unfold State.allEngines
  refine forAll_induct (P := fun u => onlyRegs s u ∧ keepsSag s u) (fun t u h => ?_) _ ⟨rfl, .refl s⟩
  refine forAll_induct_mem (P := fun u => onlyRegs s u ∧ keepsSag s u) _ (fun n hn v h => ?_) h
  obtain ⟨h1, h2⟩ := v.pauseEngine_spec t (List.mem_range.mp hn)
  exact ⟨h.1.trans h1, h.2.trans h2⟩

/-- What forcing the divider leaves (R407). -/
theorem State.forceDiv_spec (s : State) :
    sameCore { s with divPend := if s.eff = 2 then none else some ⟨2, false, s.now⟩ } s.forceDiv ∧ keepsSag s s.forceDiv
      ∧ s.forceDiv.rf Off.RDG_CLK 4 4 = 1 := by
  unfold State.forceDiv
  extract_lets s1
  have h1 : onlyRegs s s1 ∧ keepsSag s s1 := by
    dsimp only [s1]
    split
    · exact ⟨rfl, s.setReg_sag (by decide) _⟩
    · exact ⟨rfl, .refl s⟩
  generalize hz : ({ s1.wf Off.RDG_CLK 4 4 1 with divPend := if s.eff = 2 then none else some ⟨2, false, s.now⟩ } : State) = z
  have hkeep : keepsSag s z := h1.2.trans (hz ▸ s1.setReg_sag (b := Off.RDG_CLK) (by decide) _)
  have hframe : sameCore { s with divPend := if s.eff = 2 then none else some ⟨2, false, s.now⟩ } z := by
    rw [← hz, h1.1]
    rfl
  have hforced : z.rf Off.RDG_CLK 4 4 = 1 := by
    have hr : z.reg Off.RDG_CLK = (s1.wf Off.RDG_CLK 4 4 1).reg Off.RDG_CLK := hz ▸ rfl
    rw [State.rf_eq, hr, State.wf_eq, State.reg_setReg_self, fld_ins_self _ 4 4 _ (by decide) (by decide)]
    rfl
  refine ⟨hframe.trans z.refreshAll_core, hkeep.trans z.refreshAll_sag, ?_⟩
  rw [State.rf_eq, z.reg_refreshAll (by decide)]
  exact hforced

theorem mem_insertNat {i n : Nat} {l : List Nat} : i ∈ insertNat n l ↔ i = n ∨ i ∈ l := by
  induction l with
  | nil => simp [insertNat]
  | cons m r ih =>
    unfold insertNat
    split
    · simp
    · split
      · next h => simp [h]
      · simp [ih, or_left_comm]

theorem State.setHostLink_marks (s : State) (b : Bool) (l : Option HostLanes) : keepsMarks s (s.setHostLink b l) := by
  unfold State.setHostLink
  split
  · exact ⟨rfl, .of_regs rfl⟩
  · exact ⟨rfl, .of_regs rfl⟩

theorem State.setI3c_marks (s : State) (b : Bool) (a : Option Nat) : keepsMarks s (s.setI3c b a) := by
  unfold State.setI3c
  split
  · exact ⟨rfl, .of_regs rfl⟩
  · exact ⟨rfl, .of_regs rfl⟩

theorem State.mapCtxs_marks (s : State) (f : Ctx → Ctx) : keepsMarks s (s.mapCtxs f) := ⟨rfl, .of_regs rfl⟩

theorem State.modDie_marks (s : State) (d : Nat) (f : Die → Die) : keepsMarks s (s.modDie d f) := ⟨rfl, .of_regs rfl⟩

/-- What is lost in the shutdown is none of the marks but its own. -/
theorem State.lost_marks (s : State) :
    keepsMarks { s with shutdown := true } { s with
      cache := [], scratch := [], scratchPoison := [], rereads := [], ligger := [], links := [], ports := [], sites := [], routers := [], turns := [],
      strandFaults := [], unsent := [], faultWins := [], selfRefresh := true, shutdown := true } := ⟨rfl, .of_regs rfl⟩

/-- What the shutdown leaves of the marks, and its registers (R415). -/
theorem State.shutDown_marks (s : State) : keepsMarks { s with shutdown := true } s.shutDown := by
  unfold State.shutDown
  extract_lets keep s1
  have h1 : keepsMarks s s1 := forAll_induct (P := keepsMarks s) (fun d t h => h.trans (t.modDie_marks d _)) _ (.refl s)
  have h2 := h1.trans (s1.mapCtxs_marks Ctx.lost)
  have h3 : ∀ t, keepsMarks s t → keepsMarks { s with shutdown := true } { t with shutdown := true } := fun t h => by
    obtain ⟨hm, hr⟩ := h
    unfold State.sagMarks at hm
    simp only [Prod.mk.injEq] at hm
    obtain ⟨e1, e2, e3, e4, -, e6⟩ := hm
    refine ⟨?_, hr⟩
    unfold State.sagMarks
    rw [e1, e2, e3, e4, e6]
  have h4 := (h3 _ h2).trans (State.lost_marks (s1.mapCtxs Ctx.lost))
  generalize ({ s1.mapCtxs Ctx.lost with
      cache := [], scratch := [], scratchPoison := [], rereads := [], ligger := [], links := [], ports := [], sites := [], routers := [], turns := [],
      strandFaults := [], unsent := [], faultWins := [], selfRefresh := true, shutdown := true } : State) = z at h4
  exact ((h4.trans (z.setHostLink_marks _ _)).trans (State.setI3c_marks _ _ _)).trans ((State.refreshAll_core _).marks (State.refreshAll_sag _))

/-- What the action of one level leaves. -/
structure SagAction (l : Nat) (s t : State) : Prop where
  regs : keepsSag s t
  entered : t.entered = insertNat l s.entered
  bufLimited : t.bufLimited = (s.bufLimited || decide (2 = l))
  halted : t.halted = (s.halted || decide (4 = l))
  keepAlive : t.keepAlive = (s.keepAlive || decide (4 = l))
  shutdown : t.shutdown = (s.shutdown || decide (5 = l))
  psTarget : t.psTarget = s.psTarget

theorem SagAction.of_marks {l : Nat} {s t : State} (hr : keepsSag s t)
    (hm : t.sagMarks = (insertNat l s.entered, s.bufLimited || decide (2 = l), s.halted || decide (4 = l), s.keepAlive || decide (4 = l),
      s.shutdown || decide (5 = l), s.psTarget)) : SagAction l s t := by
  unfold State.sagMarks at hm
  simp only [Prod.mk.injEq] at hm
  obtain ⟨h1, h2, h3, h4, h5, h6⟩ := hm
  exact ⟨hr, h1, h2, h3, h4, h5, h6⟩

theorem State.divPend_marks (s : State) (d : Option DivChange) : keepsMarks s { s with divPend := d } := ⟨rfl, .of_regs rfl⟩

theorem SagAction.limited {s z : State} (hr : keepsSag s z)
    (hm : z.sagMarks = (insertNat 2 s.entered, s.bufLimited, s.halted, s.keepAlive, s.shutdown, s.psTarget)) :
    SagAction 2 s { z with bufLimited := true } := by
  unfold State.sagMarks at hm
  simp only [Prod.mk.injEq] at hm
  obtain ⟨h1, -, h3, h4, h5, h6⟩ := hm
  refine ⟨hr.trans (.of_regs rfl), h1, ?_, ?_, ?_, ?_, h6⟩
  · simp
  · simp [h3]
  · simp [h4]
  · simp [h5]

theorem State.halted_marks (s : State) (h : Option Nat) :
    State.sagMarks { s with halted := true, haltSince := h, keepAlive := true } = (s.entered, s.bufLimited, true, true, s.shutdown, s.psTarget) := rfl

theorem State.down_marks (s : State) :
    State.sagMarks { s with shutdown := true } = (s.entered, s.bufLimited, s.halted, s.keepAlive, true, s.psTarget) := rfl

theorem State.sagAction_spec (s : State) (l : Nat) : SagAction l s (s.sagAction l) := by
  unfold State.sagAction
  extract_lets s1
  have hs1 : keepsSag s s1 := .of_regs rfl
  obtain ⟨h1, h2, h3, h4, h5, h6⟩ : s1.entered = insertNat l s.entered ∧ s1.bufLimited = s.bufLimited ∧ s1.halted = s.halted
      ∧ s1.keepAlive = s.keepAlive ∧ s1.shutdown = s.shutdown ∧ s1.psTarget = s.psTarget := ⟨rfl, rfl, rfl, rfl, rfl, rfl⟩
  have hm1 : s1.sagMarks = (insertNat l s.entered, s.bufLimited, s.halted, s.keepAlive, s.shutdown, s.psTarget) := rfl
  clear_value s1
  split
  · obtain ⟨f2, k2⟩ := ((s1.siteOff 0).siteOff 1).pauseEngines_spec
    have hall := ((s1.siteOff_marks 0).trans ((s1.siteOff 0).siteOff_marks 1)).trans (f2.core.marks k2)
    exact SagAction.limited ((keepsSag.trans hs1 hall.2)) (hall.1.trans hm1)
  · obtain ⟨f, k, -⟩ := s1.forceDiv_spec
    have hf : s1.forceDiv.sagMarks = s1.sagMarks := f.sagMarks.trans (s1.divPend_marks _).1
    refine .of_marks (hs1.trans k) ((hf.trans hm1).trans ?_)
    simp
  · refine .of_marks (hs1.trans (.of_regs rfl)) ((s1.halted_marks _).trans ?_)
    simp [h1, h2, h5, h6]
  · obtain ⟨hm, hr⟩ := s1.shutDown_marks
    refine .of_marks (hs1.trans hr) (hm.trans (s1.down_marks.trans ?_))
    simp [h1, h2, h3, h4, h6]
  · next n2 n3 n4 n5 =>
    refine .of_marks hs1 (hm1.trans ?_)
    simp [Ne.symm n2, Ne.symm n4, Ne.symm n5]

/-- What the entry of a level leaves: its action and those of the lower levels not in force (R412). -/
structure SagEntry (l : Nat) (s t : State) : Prop where
  regs : keepsSag s t
  entered : ∀ j, 1 ≤ j → j ≤ l → j ∈ t.entered
  bufLimited : 2 ≤ l → (2 ∈ s.entered → s.bufLimited = true) → t.bufLimited = true
  halted : 4 ≤ l → (4 ∈ s.entered → s.halted = true ∧ s.keepAlive = true) → t.halted = true ∧ t.keepAlive = true
  shutdown : l = 5 → t.shutdown = true
  psTarget : t.psTarget = s.psTarget

/-- The actions of a list of levels. -/
theorem State.sagActions_spec (l : List Nat) (s : State) :
    let t := forAll l (fun j t => t.sagAction j) s
    keepsSag s t ∧ (∀ j, j ∈ l ∨ j ∈ s.entered → j ∈ t.entered) ∧ t.bufLimited = (s.bufLimited || decide (2 ∈ l))
      ∧ t.halted = (s.halted || decide (4 ∈ l)) ∧ t.keepAlive = (s.keepAlive || decide (4 ∈ l)) ∧ t.psTarget = s.psTarget := by
  unfold forAll
  induction l generalizing s with
  | nil => exact ⟨.refl s, fun j hj => hj.resolve_left List.not_mem_nil, by simp, by simp, by simp, rfl⟩
  | cons a r ih =>
    obtain ⟨k1, e1, b1, h1, q1, -, p1⟩ := s.sagAction_spec a
    obtain ⟨k2, e2, b2, h2, q2, p2⟩ := ih (s.sagAction a)
    rw [List.foldl_cons]
    refine ⟨k1.trans k2, fun j hj => e2 j ?_, ?_, ?_, ?_, p2.trans p1⟩
    · rw [e1, mem_insertNat]
      rcases hj with hj | hj
      · rcases List.mem_cons.mp hj with rfl | hr
        · exact Or.inr (Or.inl rfl)
        · exact Or.inl hr
      · exact Or.inr (Or.inr hj)
    · rw [b2, b1]
      simp [Bool.or_assoc]
    · rw [h2, h1]
      simp [Bool.or_assoc]
    · rw [q2, q1]
      simp [Bool.or_assoc]

theorem State.enterLevel_spec (s : State) (l : Nat) : SagEntry l s (s.enterLevel l) := by
  unfold State.enterLevel
  extract_lets low
  obtain ⟨k1, e1, b1, h1, q1, p1⟩ := s.sagActions_spec low
  obtain ⟨k2, e2, b2, h2, q2, d2, p2⟩ := (forAll low (fun j t => t.sagAction j) s).sagAction_spec l
  have hlow : ∀ j, 1 ≤ j → j < l → j ∉ s.entered → j ∈ low := fun j h0 hl hn => by
    simp only [low, List.mem_filter, List.mem_range]
    exact ⟨hl, by simp [hn]; omega⟩
  refine ⟨k1.trans k2, fun j h0 hl => ?_, fun hl hs => ?_, fun hl hs => ?_, fun hl => ?_, p2.trans p1⟩
  · rw [e2, mem_insertNat]
    rcases Nat.lt_or_eq_of_le hl with hlt | heq
    · by_cases hj : j ∈ s.entered
      · exact Or.inr (e1 j (Or.inr hj))
      · exact Or.inr (e1 j (Or.inl (hlow j h0 hlt hj)))
    · exact Or.inl heq
  · rw [b2, b1]
    rcases Nat.lt_or_eq_of_le hl with hlt | heq
    · by_cases hj : 2 ∈ s.entered
      · simp [hs hj]
      · simp [hlow 2 (by omega) hlt hj]
    · simp [heq]
  · rw [h2, h1, q2, q1]
    rcases Nat.lt_or_eq_of_le hl with hlt | heq
    · by_cases hj : 4 ∈ s.entered
      · simp [hs hj]
      · simp [hlow 4 (by omega) hlt hj]
    · simp [heq]
  · rw [d2]
    simp [hl]

/-! ## Thermal protection -/

theorem State.rf_wf_self (s : State) (a hi lo v : Nat) (h : lo ≤ hi) (h64 : hi < 64) : (s.wf a hi lo v).rf a hi lo = v % 2 ^ (hi + 1 - lo) := by
  rw [State.rf_eq, State.wf_eq, State.reg_setReg_self, fld_ins_self _ hi lo _ h h64]

/-- A reading and its maximum put into the temperature of a die. -/
def State.tempered (s : State) (d m : Nat) : State := (s.wf (bar0 d 1 Off.PRL_TEMP) 7 0 m).maxF (bar0 d 1 Off.PRL_TEMP) 15 8 m

theorem State.rf_maxF_self (s : State) (a hi lo v : Nat) (h : lo ≤ hi) (h64 : hi < 64) (hv : v < 2 ^ (hi + 1 - lo)) :
    (s.maxF a hi lo v).rf a hi lo = max (s.rf a hi lo) v := by
  rw [State.maxF_eq, State.rf_eq, State.reg_of_noteCount, ← State.rf_eq, State.rf_wf_self _ _ _ _ _ h h64]
  exact Nat.mod_eq_of_lt (max_lt (bits_lt _ hi lo) hv)

theorem State.tempered_reading (s : State) (d : Nat) {m : Nat} (hm : m < 2 ^ 8) : (s.tempered d m).rf (bar0 d 1 Off.PRL_TEMP) 7 0 = m := by
  unfold State.tempered
  rw [State.maxF_eq, State.rf_eq, State.reg_of_noteCount, State.wf_eq, State.reg_setReg_self,
    fld_ins_below _ 15 8 _ 7 0 (by decide) (by decide) (by decide) (by decide), ← State.rf_eq, State.rf_wf_self _ _ 7 0 _ (by decide) (by decide)]
  exact Nat.mod_eq_of_lt hm

theorem State.tempered_max (s : State) (d : Nat) {m : Nat} (hm : m < 2 ^ 8) :
    (s.tempered d m).rf (bar0 d 1 Off.PRL_TEMP) 15 8 = max (s.rf (bar0 d 1 Off.PRL_TEMP) 15 8) m := by
  unfold State.tempered
  rw [State.rf_maxF_self _ _ 15 8 _ (by decide) (by decide) hm, State.rf_eq, State.wf_eq, State.reg_setReg_self,
    fld_ins_above _ 7 0 _ 15 8 (by decide) (by decide) (by decide), State.rf_eq]

/-- A temperature as the die's record keeps it (R438). -/
def State.sampled (s : State) (d temp : Nat) : State :=
  let s1 := (s.tempered d (min temp 255)).newPeriod (.temperature d)
  if temp < 120 then s1.newPeriod (.hot d) else s1

theorem State.newPeriod_regs (s : State) (w : PeriodOf) : (s.newPeriod w).regs = s.regs := rfl

theorem State.sampled_regs (s : State) (d temp : Nat) : (s.sampled d temp).regs = (s.tempered d (min temp 255)).regs := by
  unfold State.sampled
  dsimp only
  split
  · rw [State.newPeriod_regs, State.newPeriod_regs]
  · rw [State.newPeriod_regs]

theorem sameRegsBut.maxF {l : List Nat} {s t : State} (h : sameRegsBut l s t) {a : Nat} (ha : a ∈ l) (hi lo v : Nat) :
    sameRegsBut l s (t.maxF a hi lo v) := (h.wf ha hi lo (max (t.rf a hi lo) v)).of_regs rfl

/-- Registers and the beginnings of periods apart, nothing differs between two states. -/
def onlyPeriods (s t : State) : Prop := t = { s with regs := t.regs, cycle := t.cycle, periodAt := t.periodAt }

theorem onlyPeriods.trans {s t u : State} (h : onlyPeriods s t) (g : onlyPeriods t u) : onlyPeriods s u := by
  unfold onlyPeriods at *
  rw [g, h]

theorem onlyRegs.periods {s t : State} (h : onlyRegs s t) : onlyPeriods s t := by
  unfold onlyPeriods
  rw [h]

theorem State.newPeriod_periods (s : State) (w : PeriodOf) : onlyPeriods s (s.newPeriod w) := rfl

theorem State.maxF_onlyRegs (s : State) (a hi lo v : Nat) : onlyRegs s (s.maxF a hi lo v) := rfl

theorem State.sampled_periods (s : State) (d temp : Nat) : onlyPeriods s (s.sampled d temp) := by
  unfold State.sampled
  extract_lets s1
  have h1 : onlyPeriods s s1 := ((onlyRegs.setReg s _ _).trans (State.maxF_onlyRegs _ _ 15 8 _)).periods.trans (State.newPeriod_periods _ _)
  split
  · exact h1.trans (s1.newPeriod_periods _)
  · exact h1

theorem onlyRegs.now {s t : State} (h : onlyRegs s t) : t.now = s.now := (congrArg State.now h :)

theorem onlyRegs.periodAt {s t : State} (h : onlyRegs s t) : t.periodAt = s.periodAt := (congrArg State.periodAt h :)

theorem State.newPeriod_periodAt (s : State) (w : PeriodOf) : (s.newPeriod w).periodAt = Table.put 0 s.periodAt w.key s.now := rfl

theorem State.newPeriod_now (s : State) (w : PeriodOf) : (s.newPeriod w).now = s.now := rfl

/-- The time of a die's last reading below 120 °C (R416). -/
theorem State.sampled_hot (s : State) (d temp : Nat) :
    Table.getD 0 (s.sampled d temp).periodAt (PeriodOf.hot d).key
      = if temp < 120 then (s.tempered d (min temp 255)).now else Table.getD 0 (s.tempered d (min temp 255)).periodAt (PeriodOf.hot d).key := by
  have hkey : (PeriodOf.hot d).key ≠ (PeriodOf.temperature d).key := by
    simp only [PeriodOf.key]
    omega
  unfold State.sampled
  generalize s.tempered d (min temp 255) = w
  dsimp only
  split
  · rw [State.newPeriod_periodAt, Table.getD_put_self, State.newPeriod_now]
  · rw [State.newPeriod_periodAt, Table.getD_put, if_neg hkey]

theorem State.sampled_spec (s : State) (d temp : Nat) :
    let u := s.sampled d temp
    let a := bar0 d 1 Off.PRL_TEMP
    u.rf a 7 0 = min temp 255 ∧ u.rf a 15 8 = max (s.rf a 15 8) (min temp 255)
      ∧ Table.getD 0 u.periodAt (PeriodOf.hot d).key = (if temp < 120 then s.now else Table.getD 0 s.periodAt (PeriodOf.hot d).key)
      ∧ u = { s with regs := u.regs, cycle := u.cycle, periodAt := u.periodAt } ∧ sameRegsBut [a] s u := by
  intro u a
  have hread : ∀ hi lo, u.rf a hi lo = (s.tempered d (min temp 255)).rf a hi lo := fun hi lo => by
    rw [State.rf_eq, State.rf_eq, State.reg, State.reg, s.sampled_regs]
  refine ⟨(hread 7 0).trans (s.tempered_reading d (by omega)), (hread 15 8).trans (s.tempered_max d (by omega)), ?_, s.sampled_periods d temp, ?_⟩
  · have hw : onlyRegs s (s.tempered d (min temp 255)) := (onlyRegs.setReg s _ _).trans (State.maxF_onlyRegs _ _ 15 8 _)
    have hnow : (s.tempered d (min temp 255)).now = s.now := hw.now
    have hperiods : (s.tempered d (min temp 255)).periodAt = s.periodAt := hw.periodAt
    rw [← hnow, ← hperiods]
    exact s.sampled_hot d temp
  · have h1 : sameRegsBut [a] s (s.wf a 7 0 (min temp 255)) := (sameRegsBut.refl [a] s).wf List.mem_cons_self 7 0 _
    exact (h1.maxF List.mem_cons_self 15 8 _).of_regs (s.sampled_regs d temp)

theorem rdgTherm : RdgReg Off.RDG_THERM :=
  ⟨by decide, by decide, by decide, by decide, (regAt Off.RDG_THERM).get (by decide), Option.eq_some_of_isSome _, by decide⟩

theorem State.writeRdg_therm (s : State) (src : HostSrc) (low : Bool) (r : RegDef) (v : Word) :
    s.writeRdg src low Off.RDG_THERM r v = s.writeTherm v := by
  have hoff : offOf Off.RDG_THERM = Off.RDG_THERM := by decide
  unfold State.writeRdg
  simp only [hoff]
  rw [if_neg (by decide), if_neg (by decide), if_neg (by decide), if_pos trivial]

/-- Settles O24: the trip, the shutdown, a sample, and the clear. -/
theorem thermalProtection : Obligations.ThermalProtection := by
  unfold Obligations.ThermalProtection
  refine ⟨⟨fun s d temp hp hd ht hi => ?_, fun s d hp hd ha hi ht ho => ?_, fun s d temp hd hk ha ho => ?_⟩, fun s src hw => ?_⟩
  · have hrun : exec (.thermalTrip d temp) s
        = .next (({ s.wf Off.RDG_THERM 0 0 1 with thermtrip := true, entered := insertNat 3 s.entered } : State).forceDiv.raiseRdg 11) := by
      rw [exec_thermalTrip, execThermalTrip]
      exact if_pos ⟨hp, hd, ht, hi⟩
    generalize hz : ({ s.wf Off.RDG_THERM 0 0 1 with thermtrip := true, entered := insertNat 3 s.entered } : State) = z at hrun
    have hreg : ∀ a, homeAddr a ≠ homeAddr Off.RDG_THERM → z.reg a = s.reg a := fun a ha => hz ▸ s.reg_setReg_ne _ ha
    have htrip : z.rf Off.RDG_THERM 0 0 = 1 := by
      have hr : z.reg Off.RDG_THERM = (s.wf Off.RDG_THERM 0 0 1).reg Off.RDG_THERM := hz ▸ rfl
      rw [State.rf_eq, hr, State.wf_eq, State.reg_setReg_self, fld_ins_self _ 0 0 _ (by decide) (by decide)]
      rfl
    have heff : z.eff = s.eff := by rw [State.eff, State.eff, State.rf_eq, State.rf_eq, hreg _ (by decide)]
    have hnow : z.now = s.now := hz ▸ rfl
    have hmem : sameMemory s z := hz ▸ ⟨rfl, rfl, rfl, rfl, rfl, rfl⟩
    have hlow : z.thermtrip = true := hz ▸ rfl
    obtain ⟨hframe, hkeep, hforced⟩ := z.forceDiv_spec
    have hraise := z.forceDiv.raiseRdg_core 11
    have hall := hframe.trans hraise
    refine ⟨_, hrun, ?_, ?_, ?_, State.raiseRdg_bit _ (by decide), ?_, ?_⟩
    · rw [State.rf_eq, State.reg_raiseRdg _ _ (by decide) (by decide), hkeep _ (by decide)]
      exact htrip
    · exact (congrArg State.thermtrip hall :).trans hlow
    · rw [State.rf_eq, State.reg_raiseRdg _ _ (by decide) (by decide)]
      exact hforced
    · refine (congrArg State.divPend hall :).trans ?_
      rw [← heff, ← hnow]
    · obtain ⟨m1, m2, m3, m4, m5, m6⟩ := hall.mem
      obtain ⟨g1, g2, g3, g4, g5, g6⟩ := hmem
      exact ⟨m1.trans g1, m2.trans g2, m3.trans g3, m4.trans g4, m5.trans g5, m6.trans g6⟩
  · have hrun : exec (.thermalCrit d) s = .next ((s.wf Off.RDG_THERM 2 2 1).enterLevel 5) := by
      rw [exec_thermalCrit, execThermalCrit]
      exact if_pos ⟨hp, hd, ha, hi, ht, ho⟩
    have hentry := (s.wf Off.RDG_THERM 2 2 1).enterLevel_spec 5
    refine ⟨_, hrun, ?_, hentry.shutdown rfl, ?_⟩
    · rw [State.rf_eq, hentry.regs _ (by decide), State.wf_eq, State.reg_setReg_self, fld_ins_self _ 2 2 _ (by decide) (by decide)]
      rfl
    · rw [State.rf_eq, hentry.regs _ (by decide), State.wf_eq, State.reg_setReg_ne _ _ (by decide)]
      rfl
  · have hrun : exec (.temperatureSample d temp) s = .next (s.sampled d temp) := by
      rw [exec_temperatureSample, execTemperatureSample]
      exact if_pos ⟨hd, hk, ha, ho⟩
    refine ⟨_, hrun, s.sampled_spec d temp⟩
  · obtain ⟨r, hr⟩ := RdgReg.write rdgTherm (field 1 1) hw
    have hrun : exec (.thermClear src) s = .next (s.writeTherm (field 1 1)) := by
      rw [exec_thermClear, execThermClear, hr, State.writeRdg_therm]
    have hclear : fld (field 1 1) 1 1 = 1 := by decide
    refine ⟨fun hcool => ⟨_, hrun, ?_⟩, fun hhot => ⟨_, hrun, ?_⟩⟩
    · rw [State.writeTherm, if_pos ⟨hclear, hcool⟩]
      refine ⟨?_, rfl, hw.others (by decide) ((sameRegsBut.wf (.refl [Off.RDG_THERM] s) (by simp) 0 0 0).of_regs rfl)⟩
      exact State.rf_wf_self s Off.RDG_THERM 0 0 0 (by decide) (by decide)
    · rw [State.writeTherm, if_neg (by omega)]
      exact ⟨rfl, hw.wrote (by decide) rfl (.refl _ s)⟩

end Sys2Proof.Machine
end

section
/-! SUPPORT. Rings, event log and training registers of a context (R258, R371, R382, R390, R392, R395). -/

namespace Sys2Proof.Machine

/-! ## The path of a write to a context window -/

/-- The access of a source counted: nothing but the byte count of its function differs. -/
theorem State.countVf_ctx (s : State) (src : HostSrc) (k : Nat) : (s.countVf src .eight).ctx k = s.ctx k :=
  (congrArg (State.ctx · k) (s.countVf_frame src).1 :)

/-- A register of a context window whose write acts by `writeCtx`. -/
structure CtxReg (off : Nat) : Prop where
  low : off < 65536
  body : ¬ off < 0x80
  defined : ∃ r ∈ findReg (pageRegs .ctx) off, r.free = true

theorem CtxReg.write {s : State} {src : HostSrc} {c off : Nat} (h : CtxReg off) (v : Word) (hc : c < 1024) (hw : WriteReaches s src (ctxA c off)) :
    ∃ r, findReg (pageRegs .ctx) off = some r ∧ s.write8 src (ctxA c off) v = (s.countVf src .eight).writeCtx src true (ctxA c off) r v := by
  obtain ⟨r, hr, hf⟩ := h.defined
  have hat : regAt (ctxA c off) = some r := by rw [regAt_ctxA hc h.low, hr]
  refine ⟨r, hr, (State.write8_eq v hw (pageOf_ctxA hc h.low) (by decide) hat hf).trans ?_⟩
  unfold State.writeReg
  rw [pageOf_ctxA hc h.low, hat, offOf_ctxA h.low]
  exact if_neg h.body

/-- The ring registers that software writes. -/
def ringOffs : List Nat := [Off.CTX_CMD_BASE, Off.CTX_CMD_CTL, Off.CTX_DOORBELL, Off.CTX_CPL_BASE, Off.CTX_CPL_CTL, Off.CTX_RES_ACK]

theorem ringOffs_reg : ∀ off ∈ ringOffs, CtxReg off ∧ 0x100 ≤ off ∧ off ≤ 0x168 := by
  have h : ∀ off ∈ ringOffs, off < 65536 ∧ ¬ off < 0x80 ∧ (∃ r ∈ findReg (pageRegs .ctx) off, r.free = true) ∧ 0x100 ≤ off ∧ off ≤ 0x168 := by decide +kernel
  intro off ho
  obtain ⟨h1, h2, h3, h4⟩ := h off ho
  exact ⟨⟨h1, h2, h3⟩, h4⟩

theorem State.write8_ring {s : State} {src : HostSrc} {c off : Nat} (v : Word) (hc : c < 1024) (ho : off ∈ ringOffs)
    (hw : WriteReaches s src (ctxA c off)) :
    s.write8 src (ctxA c off) v = (s.countVf src .eight).writeRing (.ctx c) off ((s.countVf src .eight).srcPort src) true v := by
  obtain ⟨hreg, hring⟩ := ringOffs_reg off ho
  obtain ⟨r, -, hr⟩ := hreg.write v hc hw
  rw [hr]
  unfold State.writeCtx
  simp only [offOf_ctxA hreg.low, ctxOf_ctxA hreg.low]
  exact if_pos hring

/-- The event-log registers that software writes. -/
theorem evlog_reg : ∀ k < 3, CtxReg (Off.CTX_EVLOG_BASE + 8 * k) := by
  have h : ∀ k < 3, Off.CTX_EVLOG_BASE + 8 * k < 65536 ∧ ¬ Off.CTX_EVLOG_BASE + 8 * k < 0x80
      ∧ ∃ r ∈ findReg (pageRegs .ctx) (Off.CTX_EVLOG_BASE + 8 * k), r.free = true := by decide +kernel
  intro k hk
  obtain ⟨h1, h2, h3⟩ := h k hk
  exact ⟨h1, h2, h3⟩

/-- The registers that `writeCtx` treats before the event log. -/
def ctxActs : List Nat :=
  [Off.CTX_IRQ_RAW, Off.CTX_IRQ_EN, Off.CTX_QFLUSH, Off.CTX_PIPE_CLR, Off.CTX_STEP, Off.CTX_RNG_STEP, Off.CTX_DATA_CURSOR, Off.CTX_MIR_OUT,
    Off.CTX_SNAP_ADDR, Off.CTX_CKPT_CTL]

theorem State.write8_log {s : State} {src : HostSrc} {c k : Nat} (v : Word) (hc : c < 1024) (hk : k < 3)
    (hw : WriteReaches s src (ctxA c (Off.CTX_EVLOG_BASE + 8 * k))) :
    s.write8 src (ctxA c (Off.CTX_EVLOG_BASE + 8 * k)) v = (s.countVf src .eight).writeLog (.ctx c) k v := by
  have hreg := evlog_reg k hk
  have hacts : Off.CTX_EVLOG_BASE + 8 * k ∉ ctxActs ∧ clearsOf (Off.CTX_EVLOG_BASE + 8 * k) = [] := by
    have hall : ∀ k < 3, Off.CTX_EVLOG_BASE + 8 * k ∉ ctxActs ∧ clearsOf (Off.CTX_EVLOG_BASE + 8 * k) = [] := by decide
    exact hall k hk
  obtain ⟨hn, hclr⟩ := hacts
  simp only [ctxActs, List.mem_cons, List.not_mem_nil, or_false, not_or] at hn
  obtain ⟨n1, n2, n3, n4, n5, n6, n7, n8, n9, n10⟩ := hn
  obtain ⟨r, -, hr⟩ := hreg.write v hc hw
  rw [hr]
  unfold State.writeCtx
  simp only [offOf_ctxA hreg.low, ctxOf_ctxA hreg.low]
  rw [if_neg (by simp only [Off.CTX_EVLOG_BASE]; omega), if_neg n1, if_neg n2, if_neg n3, if_neg n4, if_neg (not_not.mpr hclr), if_neg (by simp only [not_or]; exact ⟨n5, n6, n7⟩), if_neg n8,
    if_neg n9, if_neg n10, if_pos (by simp only [Off.CTX_EVLOG_BASE]; omega)]
  congr 1
  simp only [Off.CTX_EVLOG_BASE]
  omega

theorem trainingOff_reg (which : Nat) : CtxReg (trainingOff which) ∧ trainingOff which ∈ [Off.CTX_STEP, Off.CTX_RNG_STEP, Off.CTX_DATA_CURSOR] := by
  have hmem : trainingOff which ∈ [Off.CTX_STEP, Off.CTX_RNG_STEP, Off.CTX_DATA_CURSOR] := by
    unfold trainingOff
    split
    · decide
    · decide
    · decide
  have h : ∀ off ∈ [Off.CTX_STEP, Off.CTX_RNG_STEP, Off.CTX_DATA_CURSOR], off < 65536 ∧ ¬ off < 0x80
      ∧ ∃ r ∈ findReg (pageRegs .ctx) off, r.free = true := by decide +kernel
  obtain ⟨h1, h2, h3⟩ := h _ hmem
  exact ⟨⟨h1, h2, h3⟩, hmem⟩

/-- What a write of a training register stores: the value written in its low 48 bits. -/
theorem storeWord_training {off : Nat} (ho : off ∈ [Off.CTX_STEP, Off.CTX_RNG_STEP, Off.CTX_DATA_CURSOR]) {r : RegDef}
    (hr : findReg (pageRegs .ctx) off = some r) (s : State) (a : Nat) (v : Word) : fld (s.stored a r v) 47 0 = fld v 47 0 := by
  have hdef : ∀ off ∈ [Off.CTX_STEP, Off.CTX_RNG_STEP, Off.CTX_DATA_CURSOR], ∀ r, findReg (pageRegs .ctx) off = some r →
      statusBits r = 0 ∧ ((∃ rst, r.fields = [⟨47, 0, .rw, rst⟩]) ∨ ∃ rst, r.fields = [⟨63, 0, .rw, rst⟩]) := by
    intro off ho
    simp only [List.mem_cons, List.not_mem_nil, or_false] at ho
    rcases ho with rfl | rfl | rfl <;> intro r hr <;> cases hr
    · exact ⟨by decide, Or.inl ⟨_, rfl⟩⟩
    · exact ⟨by decide, Or.inl ⟨_, rfl⟩⟩
    · exact ⟨by decide, Or.inr ⟨_, rfl⟩⟩
  obtain ⟨hstatus, hfields⟩ := hdef off ho r hr
  have hor : ∀ w u : Word, w ||| (u &&& 0) = w := fun w u => by simp
  unfold State.stored
  rw [hstatus, hor]
  rcases hfields with ⟨rst, hf⟩ | ⟨rst, hf⟩
  · simp only [storeWord, hf, forAll, List.foldl_cons, List.foldl_nil]
    rw [fld_ins_self _ 47 0 _ (by decide) (by decide)]
    exact Nat.mod_eq_of_lt (bits_lt _ 47 0)
  · simp only [storeWord, hf, forAll, List.foldl_cons, List.foldl_nil]
    rw [fld_ins_inside _ 63 0 _ 47 0 (by decide) (by decide) (by decide) (by decide)]
    unfold fld bits
    have := v.isLt
    omega

theorem State.write8_training {s : State} {src : HostSrc} {c which : Nat} (v : Word) (hc : c < 1024)
    (hw : WriteReaches s src (ctxA c (trainingOff which))) :
    ∃ w, fld w 47 0 = fld v 47 0 ∧ s.write8 src (ctxA c (trainingOff which)) v = (s.countVf src .eight).writeTraining c (trainingOff which) w := by
  obtain ⟨hreg, hmem⟩ := trainingOff_reg which
  obtain ⟨r, hf, hr⟩ := hreg.write v hc hw
  refine ⟨(s.countVf src .eight).stored (ctxA c (trainingOff which)) r v, storeWord_training hmem hf _ _ v, hr.trans ?_⟩
  have hacts : ∀ off ∈ [Off.CTX_STEP, Off.CTX_RNG_STEP, Off.CTX_DATA_CURSOR], ¬ (0x100 ≤ off ∧ off ≤ 0x168)
      ∧ off ∉ [Off.CTX_IRQ_RAW, Off.CTX_IRQ_EN, Off.CTX_QFLUSH, Off.CTX_PIPE_CLR] ∧ clearsOf off = [] := by decide
  obtain ⟨hring, hn, hclr⟩ := hacts _ hmem
  simp only [List.mem_cons, List.not_mem_nil, or_false, not_or] at hn
  obtain ⟨n1, n2, n3, n4⟩ := hn
  unfold State.writeCtx
  simp only [offOf_ctxA hreg.low, ctxOf_ctxA hreg.low]
  rw [if_neg hring, if_neg n1, if_neg n2, if_neg n3, if_neg n4, if_neg (not_not.mpr hclr), if_pos (by simpa using hmem)]

/-! ## Values of several fields -/

theorem field_toNat {lo v : Nat} (h : v * 2 ^ lo < 2 ^ 64) : (field lo v).toNat = v * 2 ^ lo := by
  unfold field
  rw [BitVec.toNat_ofNat, Nat.mod_eq_of_lt h]

/-- Two fields that do not meet. -/
theorem field_or_toNat {k a h : Nat} (ha : a < 2 ^ k) (hh : h * 2 ^ k < 2 ^ 64) (hk : k ≤ 64) : (field k h ||| field 0 a).toNat = h * 2 ^ k + a := by
  have ha' : a * 2 ^ 0 < 2 ^ 64 := by
    rw [Nat.pow_zero, Nat.mul_one]
    exact lt_of_lt_of_le ha (Nat.pow_le_pow_right (by decide) hk)
  rw [BitVec.toNat_or, field_toNat hh, field_toNat ha', Nat.pow_zero, Nat.mul_one, Nat.mul_comm, Nat.two_pow_add_eq_or_of_lt ha]

/-- A field below the one written. -/
theorem State.rf_wf_below (s : State) (a hi lo v hi' lo' : Nat) (h1 : lo ≤ hi) (h2 : hi < 64) (h3 : lo' ≤ hi') (h4 : hi' < lo) :
    (s.wf a hi lo v).rf a hi' lo' = s.rf a hi' lo' := by
  rw [State.rf_eq, State.wf_eq, State.reg_setReg_self, fld_ins_below _ hi lo _ hi' lo' h1 h2 h3 h4, State.rf_eq]

theorem onlyRegs.wf (s : State) (a hi lo v : Nat) : onlyRegs s (s.wf a hi lo v) := onlyRegs.setReg s _ _

/-! ## The access counted -/

section
variable (s : State) (src : HostSrc) (c : Nat)

theorem State.countVf_cf {off : Nat} (ho : off < 2 ^ 12) (h : off ≠ Off.CTX_BYTES_PCIE) (hi lo : Nat) :
    (s.countVf src .eight).cf c off hi lo = s.cf c off hi lo := by
  rw [State.cf_eq, State.rf_eq, s.reg_countVf src (by rwa [ctxA_mod c ho])]
  rfl

theorem State.countVf_alive (d : Nat) : (s.countVf src .eight).alive d = s.alive d := (congrArg (State.alive · d) (s.countVf_frame src).1 :)

theorem State.countVf_srcPort (q : HostSrc) : (s.countVf src .eight).srcPort q = s.srcPort q := by
  cases q with
  | pf b => rfl
  | vf b n => rfl
  | mgmt => exact (congrArg State.roleB (s.countVf_frame src).1 :)

theorem State.countVf_busy : (s.countVf src .eight).busy c = s.busy c := by
  rw [State.busy, State.countVf_ctx, State.busy]

theorem State.countVf_ringWaits : (s.countVf src .eight).ringWaits (.ctx c) = s.ringWaits (.ctx c) := by
  unfold State.ringWaits RingOf.addr
  rw [State.rf_eq, State.rf_eq, s.reg_countVf src (by rw [ctxA_mod c (by decide)]; decide)]
  rfl

theorem State.countVf_countedIn {off : Nat} (ho : off < 2 ^ 12) (h : off ≠ Off.CTX_BYTES_PCIE) {lo : Nat} (hlo : lo < 64) :
    (s.countVf src .eight).countedIn (ctxA c off) lo = s.countedIn (ctxA c off) lo := by
  cases src with
  | pf b => rfl
  | mgmt => rfl
  | vf b n =>
    have hne : countKey (ctxA c off) lo ≠ countKey (ctxA n Off.CTX_BYTES_PCIE) 0 := fun e => by
      have hmod : ctxA c off % 2 ^ 12 ≠ ctxA n Off.CTX_BYTES_PCIE % 2 ^ 12 := by rwa [ctxA_mod c ho, ctxA_mod n (by decide)]
      unfold countKey at e
      rw [homeAddr_ctxA, homeAddr_ctxA] at e
      omega
    have hput : (s.countVf (.vf b n) .eight).cycle.counted
        = Table.put 0 s.cycle.counted (countKey (ctxA n Off.CTX_BYTES_PCIE) 0) (s.countedIn (ctxA n Off.CTX_BYTES_PCIE) 0 + 8) := rfl
    rw [State.countedIn, hput, Table.getD_put, if_neg hne, State.countedIn]

end

/-! ## What the writes do -/

theorem State.ringDoorbell_open (s : State) {c tail : Nat} (hphase : (s.ctx c).phase ≠ .resetting) (hal : s.alive (ridgeOf (s.ctx c).boundB) = true)
    (hfw : s.rf Off.RDG_FWACT 0 0 = 0) :
    s.ringDoorbell (.ctx c) tail = s.wf (ctxA c Off.CTX_CMD_PTR) 31 16 (tail % 2 ^ s.cf c Off.CTX_CMD_CTL 4 0) := by
  have hopen : (decide ((s.ctx c).phase = .resetting) || !s.alive (ridgeOf (s.ctx c).boundB)) = false := by simp [hphase, hal]
  unfold State.ringDoorbell
  dsimp only
  rw [hopen, if_neg Bool.false_ne_true, if_neg (by rw [hfw]; decide)]
  rfl

theorem State.ringDoorbell_closed (s : State) {c : Nat} (tail : Nat)
    (h : (s.ctx c).phase = .resetting ∨ s.alive (ridgeOf (s.ctx c).boundB) = false) : s.ringDoorbell (.ctx c) tail = s := by
  have hclosed : (decide ((s.ctx c).phase = .resetting) || !s.alive (ridgeOf (s.ctx c).boundB)) = true := by
    rcases h with h | h <;> simp [h]
  unfold State.ringDoorbell
  dsimp only
  rw [hclosed, if_pos rfl]

/-- A write of the configuration of an idle command ring takes it and empties the ring. -/
theorem State.writeCmdRing_idle (s : State) {c : Nat} (hw : s.ringWaits (.ctx c) = false) (hb : s.busy c = false) (isCtl : Bool) (v : Word) :
    s.writeCmdRing (.ctx c) isCtl v = (if isCtl then s.setReg (ctxA c Off.CTX_CMD_CTL) (BitVec.ofNat 64 (clampN 4 16 (fld v 4 0)))
      else s.setReg (ctxA c Off.CTX_CMD_BASE) (BitVec.ofNat 64 (fld v 47 12 * 2 ^ 12))).setReg (ctxA c Off.CTX_CMD_PTR) 0 := by
  unfold State.writeCmdRing
  exact if_neg (by simp [hw, hb, State.ringBusy])

theorem State.writeCmdRing_busy (s : State) {c : Nat} (h : s.ringWaits (.ctx c) = true ∨ s.busy c = true) (isCtl : Bool) (v : Word) :
    s.writeCmdRing (.ctx c) isCtl v = s := by
  unfold State.writeCmdRing
  exact if_pos h

/-- A write of the completion ring's head and size, and what the ring then takes of the records held. -/
theorem State.writeCplCtl_head (s : State) (c : Nat) (v : Word) : (s.writeCplCtl (.ctx c) v).cf c Off.CTX_CPL_CTL 31 16 = fld v 31 16 := by
  unfold State.writeCplCtl
  dsimp only
  rw [State.cf_eq, State.rf_eq, State.drainHeld_reg _ _ c (by rw [ctxA_mod c (by decide)]; decide) (by rw [ctxA_mod c (by decide)]; decide)]
  exact (State.rf_wf_self _ (ctxA c Off.CTX_CPL_CTL) 31 16 _ (by decide) (by decide)).trans (Nat.mod_eq_of_lt (bits_lt _ 31 16))

theorem State.writeCplCtl_empty (s : State) {c : Nat} (v : Word) (h : (s.ctx c).held = []) :
    s.writeCplCtl (.ctx c) v
      = (s.wf (ctxA c Off.CTX_CPL_CTL) 4 0 (clampN 4 16 (fld v 4 0))).wf (ctxA c Off.CTX_CPL_CTL) 31 16 (fld v 31 16) := by
  unfold State.writeCplCtl
  generalize hz : (s.wf ((RingOf.ctx c).addr Off.CTX_CPL_CTL) 4 0 (clampN 4 16 (fld v 4 0))).wf ((RingOf.ctx c).addr Off.CTX_CPL_CTL) 31 16
    (fld v 31 16) = z
  have hheld : z.heldOf (.ctx c) = [] := by rw [← h, ← hz]; rfl
  dsimp only
  rw [hz, hheld, ← hz]
  rfl

/-- A write of the completion ring's address ends a rebinding to the port that it comes through (R371, R390). -/
theorem State.writeCplBase_spec (s : State) (c : Nat) (portB : Bool) (v : Word) :
    let u := s.writeCplBase (.ctx c) portB v
    u.reg (ctxA c Off.CTX_CPL_BASE) = BitVec.ofNat 64 (fld v 63 12 * 2 ^ 12)
      ∧ (u.ctx c).rebinding = ((s.ctx c).rebinding && decide ((s.ctx c).boundB ≠ portB)) ∧ ∀ k, k ≠ c → u.ctx k = s.ctx k := by
  intro u
  generalize hs1 : s.setReg (ctxA c Off.CTX_CPL_BASE) (BitVec.ofNat 64 (fld v 63 12 * 2 ^ 12)) = s1
  generalize hs2 : (if (s1.ctx c).boundB = portB then s1.modCtx c fun x => { x with rebinding := false } else s1) = s2
  have hu : u = s2.drainHeld (.ctx c) (s2.heldOf (.ctx c)).length := by rw [← hs2, ← hs1]; rfl
  have hctx1 : ∀ k, s1.ctx k = s.ctx k := fun k => by rw [← hs1]; rfl
  have hreg : s2.reg (ctxA c Off.CTX_CPL_BASE) = BitVec.ofNat 64 (fld v 63 12 * 2 ^ 12) := by
    have h1 : s1.reg (ctxA c Off.CTX_CPL_BASE) = BitVec.ofNat 64 (fld v 63 12 * 2 ^ 12) := by rw [← hs1, State.reg_setReg_self]
    rw [← hs2]
    split
    · exact h1
    · exact h1
  have hbind : (s2.ctx c).rebinding = ((s.ctx c).rebinding && decide ((s.ctx c).boundB ≠ portB)) := by
    rw [← hs2, hctx1]
    split
    · next hb => simp [hb]
    · next hb => simp [hctx1, hb]
  have hother : ∀ k, k ≠ c → s2.ctx k = s.ctx k := fun k hk => by
    rw [← hs2]
    split
    · rw [State.modCtx_eq, State.ctx_setCtx, if_neg hk, hctx1]
    · exact hctx1 k
  have hres := State.drainHeld_results (s2.heldOf (.ctx c)).length s2 c
  rw [← hu] at hres
  refine ⟨?_, by rw [hres.ctx]; exact hbind, fun k hk => (hres.others k hk).trans (hother k hk)⟩
  rw [hu, State.drainHeld_reg _ _ c (by rw [ctxA_mod c (by decide)]; decide) (by rw [ctxA_mod c (by decide)]; decide)]
  exact hreg

/-- The acknowledgement of the front record of the mailbox (R392). -/
theorem State.ackRecord_front (s : State) {c : Nat} {q : BitVec 32} {x : Completion} {rest : List Completion}
    (hm : (s.ctx c).mailbox = x :: rest) (hx : x.seq = q) :
    let u := s.ackRecord (.ctx c) q
    (u.ctx c).mailbox = rest ∧ (u.ctx c).lastAck = q ∧ u.cf c Off.CTX_RES_STS 7 7 = 0 ∧ sameRegsBut [ctxA c Off.CTX_RES_STS] s u := by
  have hrun : s.ackRecord (.ctx c) q = ((s.setMail (.ctx c) rest).setAck (.ctx c) q).wf (ctxA c Off.CTX_RES_STS) 7 7 0 := by
    unfold State.ackRecord State.mailOf
    dsimp only
    rw [hm]
    exact if_pos hx
  intro u
  refine ⟨?_, ?_, ?_, ?_⟩
  · simp [u, hrun, State.setMail, State.setAck]
  · simp [u, hrun, State.setMail, State.setAck]
  · rw [show u = _ from hrun]
    exact State.rf_wf_self _ _ 7 7 _ (by decide) (by decide)
  · rw [show u = _ from hrun]
    have h1 : sameRegsBut [ctxA c Off.CTX_RES_STS] s (s.setMail (.ctx c) rest) :=
      (sameRegsBut.wf (.of_regs (.refl _ s) rfl) List.mem_cons_self 5 0 rest.length)
    exact (h1.of_regs rfl).wf List.mem_cons_self 7 7 0

theorem State.ackRecord_other (s : State) {c : Nat} {q : BitVec 32} (h : ∀ x rest, (s.ctx c).mailbox = x :: rest → x.seq ≠ q) :
    s.ackRecord (.ctx c) q = s.wf (ctxA c Off.CTX_RES_STS) 7 7 1 := by
  unfold State.ackRecord State.mailOf
  dsimp only
  cases hm : (s.ctx c).mailbox with
  | nil => rfl
  | cons x rest => exact if_neg (h x rest hm)

theorem clampN_lt {lo hi n k : Nat} (h1 : lo < k) (h2 : hi < k) : clampN lo hi n < k := by
  unfold clampN
  omega

/-- A write of the size of an event log (R395, R453). -/
theorem State.writeEvlog_ctl (s : State) (c : Nat) (v : Word) :
    let u := s.writeEvlog (.ctx c) true v
    u.cf c Off.CTX_EVLOG_CTL 4 0 = clampN 10 24 (fld v 4 0)
      ∧ (u.cf c Off.CTX_EVLOG_CTL 4 0 ≠ s.cf c Off.CTX_EVLOG_CTL 4 0 → u.reg (ctxA c Off.CTX_EVLOG_PTR) = 0)
      ∧ onlyRegs s u ∧ sameRegsBut [ctxA c Off.CTX_EVLOG_CTL, ctxA c Off.CTX_EVLOG_PTR, ctxA c Off.CTX_EVLOG_LOST] s u := by
  intro u
  generalize hs1 : (if fld v 5 5 = 1 then s.setReg (ctxA c Off.CTX_EVLOG_LOST) 0 else s) = s1
  have hframe1 : onlyRegs s s1 := by
    rw [← hs1]
    split
    · exact onlyRegs.setReg s _ _
    · rfl
  have hregs1 : sameRegsBut [ctxA c Off.CTX_EVLOG_CTL, ctxA c Off.CTX_EVLOG_PTR, ctxA c Off.CTX_EVLOG_LOST] s s1 := by
    rw [← hs1]
    split
    · exact (sameRegsBut.setReg s _ 0).mono (by simp)
    · exact .refl _ s
  have hctl : s1.cf c Off.CTX_EVLOG_CTL 4 0 = s.cf c Off.CTX_EVLOG_CTL 4 0 := by
    rw [State.cf_eq, State.rf_eq, ← hs1]
    split
    · rw [State.reg_setReg_ne _ _ (homeAddr_ne_of_mod (by rw [ctxA_mod c (by decide), ctxA_mod c (by decide)]; decide))]
      rfl
    · rfl
  have hu : u = if clampN 10 24 (fld v 4 0) = s.cf c Off.CTX_EVLOG_CTL 4 0 then s1
      else (s1.wf (ctxA c Off.CTX_EVLOG_CTL) 4 0 (clampN 10 24 (fld v 4 0))).setReg (ctxA c Off.CTX_EVLOG_PTR) 0 := by
    rw [← hs1]
    rfl
  by_cases hsame : clampN 10 24 (fld v 4 0) = s.cf c Off.CTX_EVLOG_CTL 4 0
  · rw [if_pos hsame] at hu
    rw [hu, hctl]
    exact ⟨hsame.symm, fun h => absurd rfl h, hframe1, hregs1⟩
  · rw [if_neg hsame] at hu
    rw [hu]
    refine ⟨?_, fun _ => State.reg_setReg_self _ _ _, hframe1.trans rfl, ?_⟩
    · rw [State.cf_eq, State.rf_eq, State.reg_setReg_ne _ _ (homeAddr_ne_of_mod (by rw [ctxA_mod c (by decide), ctxA_mod c (by decide)]; decide))]
      exact (State.rf_wf_self _ _ 4 0 _ (by decide) (by decide)).trans (Nat.mod_eq_of_lt (clampN_lt (by decide) (by decide)))
    · exact ((hregs1.wf (by simp) 4 0 _).trans (sameRegsBut.setReg _ _ 0)).mono (by simp)

/-- READ of an event log follows the host, but for a later value that an overwrite of the cycle left (R395). -/
theorem State.writeEvread_spec (s : State) (c : Nat) {q : Nat} (hq : q < 2 ^ 32) :
    let u := s.writeEvread (.ctx c) q
    let old := s.cf c Off.CTX_EVLOG_PTR 63 32
    let new := if laterMod 32 q (s.cf c Off.CTX_EVLOG_PTR 31 0) then s.cf c Off.CTX_EVLOG_PTR 31 0 else q
    u.cf c Off.CTX_EVLOG_PTR 63 32 = (if s.countedIn (ctxA c Off.CTX_EVLOG_PTR) 32 ≠ 0 ∧ laterMod 32 old new then old else new)
      ∧ u.cf c Off.CTX_EVLOG_PTR 31 0 = s.cf c Off.CTX_EVLOG_PTR 31 0 ∧ onlyRegs s u ∧ sameRegsBut [ctxA c Off.CTX_EVLOG_PTR] s u := by
  intro u old new
  have hlt : new < 2 ^ 32 := by
    dsimp only [new]
    split
    · exact bits_lt _ 31 0
    · exact hq
  have hu : u = if s.countedIn (ctxA c Off.CTX_EVLOG_PTR) 32 ≠ 0 ∧ laterMod 32 old new then s else s.wf (ctxA c Off.CTX_EVLOG_PTR) 63 32 new := by
    unfold u State.writeEvread
    rfl
  clear_value new u
  split at hu
  next hlater =>
    rw [hu, if_pos hlater]
    exact ⟨rfl, rfl, rfl, .refl _ s⟩
  next hlater =>
    rw [hu, if_neg hlater]
    rw [State.cf_eq, State.cf_eq, State.cf_eq]
    exact ⟨(State.rf_wf_self _ _ 63 32 _ (by decide) (by decide)).trans (Nat.mod_eq_of_lt hlt),
      State.rf_wf_below s _ 63 32 _ 31 0 (by decide) (by decide) (by decide) (by decide), onlyRegs.wf _ _ _ _ _,
      (sameRegsBut.refl _ s).wf List.mem_cons_self _ _ _⟩

/-- Settles O26: each write, by what it does on the state with the access counted. -/
theorem ringLogAndTrainingWrites : Obligations.RingLogAndTrainingWrites := by
  unfold Obligations.RingLogAndTrainingWrites
  refine ⟨fun s src c hc => ?_, fun s src c which v hc hw => ?_⟩
  · have hctx := s.countVf_ctx src
    obtain ⟨hz, hzr⟩ := s.countVf_frame src
    have hcf : ∀ off ∈ [Off.CTX_CMD_CTL, Off.CTX_CMD_PTR, Off.CTX_CPL_CTL, Off.CTX_EVLOG_CTL, Off.CTX_EVLOG_PTR, Off.CTX_RES_STS], ∀ hi lo,
        (s.countVf src .eight).cf c off hi lo = s.cf c off hi lo := fun off ho => by
      have hall : ∀ off ∈ [Off.CTX_CMD_CTL, Off.CTX_CMD_PTR, Off.CTX_CPL_CTL, Off.CTX_EVLOG_CTL, Off.CTX_EVLOG_PTR, Off.CTX_RES_STS],
          off < 2 ^ 12 ∧ off ≠ Off.CTX_BYTES_PCIE := by decide
      exact s.countVf_cf src c (hall off ho).1 (hall off ho).2
    have hfw : (s.countVf src .eight).rf Off.RDG_FWACT 0 0 = s.rf Off.RDG_FWACT 0 0 := by
      rw [State.rf_eq, s.reg_countVf src (by decide)]
      rfl
    have hal := s.countVf_alive src
    have hport := s.countVf_srcPort src src
    have hbusy := s.countVf_busy src c
    have hwaits := s.countVf_ringWaits src c
    have hcount := s.countVf_countedIn src c (off := Off.CTX_EVLOG_PTR) (by decide) (by decide) (lo := 32) (by decide)
    have ring : ∀ off ∈ ringOffs, ∀ v, WriteReaches s src (ctxA c off) → s.write8 src (ctxA c off) v
        = (s.countVf src .eight).writeRing (.ctx c) off (s.srcPort src) true v := fun off ho v hw => by
      rw [State.write8_ring v hc ho hw, hport]
    have log : ∀ k < 3, ∀ v, WriteReaches s src (ctxA c (Off.CTX_EVLOG_BASE + 8 * k)) → s.write8 src (ctxA c (Off.CTX_EVLOG_BASE + 8 * k)) v
        = (s.countVf src .eight).writeLog (.ctx c) k v := fun k hk v hw => State.write8_log v hc hk hw
    have wrote : ∀ {l : List Nat} {u : State}, onlyRegs (s.countVf src .eight) u → sameRegsBut l (s.countVf src .eight) u → wroteRegs src l s u :=
      fun h1 h2 => wroteRegs.step h1 h2
    generalize s.countVf src .eight = z at hz hzr hctx hcf hfw hal hbusy hwaits hcount ring log wrote
    refine ⟨fun tail ht hw hphase ha h0 => ?_, fun tail hw hclosed => ?_, fun head hh hw => ?_, fun base hw => ?_, fun seq hw => ?_, fun v hidle hnb => ?_,
      fun v isCtl hwait hw => ?_, fun v hw => ?_, fun v hw => ?_, fun q hw => ?_, fun hw hlo hhi => ?_⟩
    · have hv : fld (field 0 (tail % 2 ^ 16)) 15 0 = tail := by
        rw [fld, field_toNat (by omega), bits]
        omega
      have hrun : exec (.doorbell src (some c) tail) s = .next (z.wf (ctxA c Off.CTX_CMD_PTR) 31 16 (tail % 2 ^ s.cf c Off.CTX_CMD_CTL 4 0)) := by
        rw [exec_doorbell, execDoorbell, ring _ (by decide) _ hw]
        simp only [State.writeRing]
        rw [if_neg (by decide), if_neg (by decide), if_pos trivial, if_pos trivial, hv,
          z.ringDoorbell_open (by rw [hctx]; exact hphase) (by rw [hctx, hal]; exact ha) (hfw.trans h0), hcf _ (by decide)]
      refine ⟨_, hrun, State.rf_wf_self _ _ 31 16 _ (by decide) (by decide), ?_, wrote (onlyRegs.wf _ _ _ _ _) ((sameRegsBut.refl _ z).wf List.mem_cons_self _ _ _)⟩
      rw [← hcf _ (by decide) 15 0, State.cf_eq, State.rf_wf_below _ _ 31 16 _ 15 0 (by decide) (by decide) (by decide) (by decide), State.cf_eq]
    · have hrun : exec (.doorbell src (some c) tail) s = .next z := by
        rw [exec_doorbell, execDoorbell, ring _ (by decide) _ hw]
        simp only [State.writeRing]
        rw [if_neg (by decide), if_neg (by decide), if_pos trivial, if_pos trivial,
          z.ringDoorbell_closed _ (by rw [hctx, hal]; exact hclosed)]
      exact ⟨_, hrun, wrote rfl (.refl _ z)⟩
    · have hrun : exec (.cplHeadWrite src c head) s
          = .next (z.writeCplCtl (.ctx c) (field 0 (s.cf c Off.CTX_CPL_CTL 4 0) ||| field 16 (head % 2 ^ 16))) := by
        rw [exec_cplHeadWrite, execCplHeadWrite, ring _ (by decide) _ hw]
        simp only [State.writeRing]
        rw [if_neg (by decide), if_neg (by decide), if_neg (by decide), if_neg (by decide), if_pos trivial]
      have hl : s.cf c Off.CTX_CPL_CTL 4 0 < 2 ^ 5 := bits_lt _ 4 0
      have hv : fld (field 0 (s.cf c Off.CTX_CPL_CTL 4 0) ||| field 16 (head % 2 ^ 16)) 31 16 = head := by
        rw [BitVec.or_comm, fld, field_or_toNat (by omega) (by omega) (by decide), bits]
        omega
      refine ⟨_, hrun, (z.writeCplCtl_head c _).trans hv, fun hheld => ?_⟩
      rw [z.writeCplCtl_empty _ (by rw [hctx]; exact hheld)]
      exact wrote ((onlyRegs.wf _ _ _ _ _).trans (onlyRegs.wf _ _ _ _ _)) (((sameRegsBut.refl _ z).wf List.mem_cons_self _ _ _).wf List.mem_cons_self _ _ _)
    · have hrun : exec (.cplBaseWrite src c base) s = .next (z.writeCplBase (.ctx c) (s.srcPort src) base) := by
        rw [exec_cplBaseWrite, execCplBaseWrite, ring _ (by decide) _ hw]
        simp only [State.writeRing]
        rw [if_neg (by decide), if_neg (by decide), if_neg (by decide), if_pos trivial]
      obtain ⟨h1, h2, h3⟩ := z.writeCplBase_spec c (s.srcPort src) base
      refine ⟨_, hrun, h1, ?_, fun k hk => (h3 k hk).trans (hctx k)⟩
      rw [h2, hctx]
    · have hq : BitVec.ofNat 32 (fld (field 0 seq.toNat) 31 0) = seq := by
        have hlt := seq.isLt
        have hf : fld (field 0 seq.toNat) 31 0 = seq.toNat := by
          rw [fld, field_toNat (by omega), bits]
          omega
        rw [hf, BitVec.ofNat_toNat, BitVec.setWidth_eq]
      have hrun : exec (.resAck src c seq) s = .next (z.ackRecord (.ctx c) seq) := by
        rw [exec_resAck, execResAck, ring _ (by decide) _ hw]
        simp only [State.writeRing]
        rw [if_neg (by decide), if_neg (by decide), if_neg (by decide), if_neg (by decide), if_neg (by decide), if_pos trivial, if_pos trivial, hq]
      refine ⟨fun x rest hm hx => ?_, fun hno => ?_⟩
      · obtain ⟨h1, h2, h3, h4⟩ := z.ackRecord_front (by rw [hctx]; exact hm) hx
        exact ⟨_, hrun, h1, h2, h3, hzr.trans h4⟩
      · refine ⟨_, hrun, ?_⟩
        rw [z.ackRecord_other fun x rest hm => hno x rest (by rw [← hctx]; exact hm)]
        exact ⟨State.rf_wf_self _ _ 7 7 _ (by decide) (by decide), wrote (onlyRegs.wf _ _ _ _ _) ((sameRegsBut.refl _ z).wf List.mem_cons_self _ _ _)⟩
    · refine ⟨fun hw => ?_, fun hw => ?_⟩
      · have hrun : exec (.cmdRingConfigWrite src c false v) s = .next (z.writeCmdRing (.ctx c) false v) := by
          rw [exec_cmdRingConfigWrite, execCmdRingConfigWrite, if_neg Bool.false_ne_true, ring _ (by decide) _ hw]
          simp only [State.writeRing]
          rw [if_pos trivial]
        rw [z.writeCmdRing_idle (hwaits.trans hidle) (hbusy.trans hnb), if_neg Bool.false_ne_true] at hrun
        refine ⟨_, hrun, ?_, State.reg_setReg_self _ _ _, wrote ((onlyRegs.setReg z _ _).trans (onlyRegs.setReg _ _ _)) (((sameRegsBut.setReg z _ _).trans (sameRegsBut.setReg _ _ 0)).mono (by simp))⟩
        rw [State.reg_setReg_ne _ _ (homeAddr_ne_of_mod (by rw [ctxA_mod c (by decide), ctxA_mod c (by decide)]; decide)), State.reg_setReg_self]
      · have hrun : exec (.cmdRingConfigWrite src c true v) s = .next (z.writeCmdRing (.ctx c) true v) := by
          rw [exec_cmdRingConfigWrite, execCmdRingConfigWrite, if_pos rfl, ring _ (by decide) _ hw]
          simp only [State.writeRing]
          rw [if_neg (by decide), if_pos trivial]
        rw [z.writeCmdRing_idle (hwaits.trans hidle) (hbusy.trans hnb), if_pos rfl] at hrun
        refine ⟨_, hrun, ?_, State.reg_setReg_self _ _ _, wrote ((onlyRegs.setReg z _ _).trans (onlyRegs.setReg _ _ _)) (((sameRegsBut.setReg z _ _).trans (sameRegsBut.setReg _ _ 0)).mono (by simp))⟩
        rw [State.cf_eq, State.rf_eq, State.reg_setReg_ne _ _ (homeAddr_ne_of_mod (by rw [ctxA_mod c (by decide), ctxA_mod c (by decide)]; decide)),
          State.reg_setReg_self, fld, BitVec.toNat_ofNat, bits]
        unfold clampN
        omega
    · have hrun : exec (.cmdRingConfigWrite src c isCtl v) s = .next (z.writeCmdRing (.ctx c) isCtl v) := by
        cases isCtl
        · rw [if_neg Bool.false_ne_true] at hw
          rw [exec_cmdRingConfigWrite, execCmdRingConfigWrite, if_neg Bool.false_ne_true, ring _ (by decide) _ hw]
          simp only [State.writeRing]
          rw [if_pos trivial]
        · rw [if_pos rfl] at hw
          rw [exec_cmdRingConfigWrite, execCmdRingConfigWrite, if_pos rfl, ring _ (by decide) _ hw]
          simp only [State.writeRing]
          rw [if_neg (by decide), if_pos trivial]
      rw [z.writeCmdRing_busy (by rw [hwaits, hbusy]; exact hwait)] at hrun
      exact ⟨_, hrun, wrote rfl (.refl _ z)⟩
    · have hrun : exec (.evlogConfigWrite src c false v) s = .next (z.writeLog (.ctx c) 0 v) := by
        rw [exec_evlogConfigWrite, execEvlogConfigWrite, if_neg Bool.false_ne_true, ← log 0 (by decide) v hw]
      refine ⟨_, hrun, ?_, State.reg_setReg_self _ _ _, wrote ((onlyRegs.setReg z _ _).trans (onlyRegs.setReg _ _ _)) (((sameRegsBut.setReg z _ _).trans (sameRegsBut.setReg _ _ 0)).mono (by simp [LogOf.addr]))⟩
      exact (State.reg_setReg_ne _ _ (homeAddr_ne_of_mod (by rw [ctxA_mod c (by decide), LogOf.addr, ctxA_mod c (by decide)]; decide))).trans
        (z.reg_setReg_self _ _)
    · have hrun : exec (.evlogConfigWrite src c true v) s = .next (z.writeEvlog (.ctx c) true v) := by
        rw [exec_evlogConfigWrite, execEvlogConfigWrite, if_pos rfl]
        exact congrArg _ (log 1 (by decide) v hw)
      obtain ⟨h1, h2, h3, h4⟩ := z.writeEvlog_ctl c v
      rw [hcf _ (by decide)] at h2
      exact ⟨_, hrun, h1, h2, wrote h3 h4⟩
    · have hq : fld (field 32 q.toNat) 63 32 = q.toNat := by
        have hlt := q.isLt
        rw [fld, field_toNat (by omega), bits]
        omega
      have hrun : exec (.evlogReadWrite src c q) s = .next (z.writeEvread (.ctx c) q.toNat) := by
        rw [exec_evlogReadWrite, execEvlogReadWrite]
        refine congrArg _ ((log 2 (by decide) _ hw).trans ?_)
        rw [State.writeLog, hq]
      obtain ⟨h1, h2, h3, h4⟩ := z.writeEvread_spec c q.isLt
      rw [hcf _ (by decide), hcf _ (by decide), hcount] at h1
      exact ⟨_, hrun, h1, h2.trans (hcf _ (by decide) 31 0), wrote h3 h4⟩
    · have hl : s.cf c Off.CTX_EVLOG_CTL 4 0 < 2 ^ 5 := bits_lt _ 4 0
      have hlow : fld (field 5 1 ||| field 0 (s.cf c Off.CTX_EVLOG_CTL 4 0)) 4 0 = s.cf c Off.CTX_EVLOG_CTL 4 0 := by
        rw [fld, field_or_toNat hl (by decide) (by decide), bits]
        omega
      have hclr : fld (field 5 1 ||| field 0 (s.cf c Off.CTX_EVLOG_CTL 4 0)) 5 5 = 1 := by
        rw [fld, field_or_toNat hl (by decide) (by decide), bits]
        omega
      have hkeep : clampN 10 24 (s.cf c Off.CTX_EVLOG_CTL 4 0) = z.rf (ctxA c Off.CTX_EVLOG_CTL) 4 0 := by
        have h := hcf Off.CTX_EVLOG_CTL (by decide) 4 0
        rw [State.cf_eq] at h
        rw [h]
        unfold clampN
        omega
      have hrun : exec (.evlogClrLost src c) s = .next (z.setReg (ctxA c Off.CTX_EVLOG_LOST) 0) := by
        rw [exec_evlogClrLost, execEvlogClrLost]
        refine congrArg _ ((log 1 (by decide) _ hw).trans ?_)
        unfold State.writeLog State.writeEvlog
        dsimp only
        rw [if_pos rfl, hlow, hclr, if_pos rfl]
        exact if_pos hkeep
      exact ⟨_, hrun, State.reg_setReg_self _ _ _, wrote (onlyRegs.setReg z _ _) (sameRegsBut.setReg z _ 0)⟩
  · obtain ⟨w, hv, hwrite⟩ := State.write8_training v hc hw
    obtain ⟨-, hmem⟩ := trainingOff_reg which
    have hctx := s.countVf_ctx src c
    have hrun : exec (.trainingRegisterWrite src c which v) s = .next ((s.countVf src .eight).writeTraining c (trainingOff which) w) := by
      rw [exec_trainingRegisterWrite, execTrainingRegisterWrite, hwrite]
    have hverdict : ∀ hi lo, (s.countVf src .eight).cf c Off.CTX_VERDICT hi lo = s.cf c Off.CTX_VERDICT hi lo := fun hi lo =>
      s.countVf_cf src c (by decide) (by decide) hi lo
    have wrote : ∀ {l : List Nat} {u : State}, onlyRegs (s.countVf src .eight) u → sameRegsBut l (s.countVf src .eight) u → wroteRegs src l s u :=
      fun h1 h2 => wroteRegs.step h1 h2
    generalize s.countVf src .eight = z at hctx hrun hverdict wrote
    have hne : homeAddr (ctxA c (trainingOff which)) ≠ homeAddr (ctxA c Off.CTX_VERDICT) := by
      have hall : ∀ off ∈ [Off.CTX_STEP, Off.CTX_RNG_STEP, Off.CTX_DATA_CURSOR], off < 2 ^ 12 ∧ off ≠ Off.CTX_VERDICT := by decide
      exact homeAddr_ne_of_mod (by rw [ctxA_mod c (hall _ hmem).1, ctxA_mod c (by decide)]; exact (hall _ hmem).2)
    have hbelow : ∀ (y : State) (b : Nat), (y.wf (ctxA c Off.CTX_VERDICT) 59 59 b).cf c Off.CTX_VERDICT 58 0 = y.cf c Off.CTX_VERDICT 58 0 := fun y b => by
      rw [State.cf_eq, State.cf_eq, State.rf_wf_below _ _ 59 59 _ 58 0 (by decide) (by decide) (by decide) (by decide)]
    refine ⟨fun hidle => ?_, fun hbusy => ?_⟩
    · rw [State.writeTraining, if_neg (by simp [hctx, hidle])] at hrun
      refine ⟨_, hrun, ?_, State.rf_wf_self _ _ 59 59 _ (by decide) (by decide), ?_,
        wrote ((onlyRegs.setReg z _ w).trans (onlyRegs.wf _ _ _ _ _)) (((sameRegsBut.setReg z _ w).trans (sameRegsBut.wf (.refl [ctxA c Off.CTX_VERDICT] _) List.mem_cons_self 59 59 0)).mono (by simp))⟩
      · rw [State.cf_eq, State.rf_eq, State.cw_eq, State.wf_eq, State.reg_setReg_ne _ _ hne, State.reg_setReg_self]
        exact hv
      · rw [State.cw_eq, hbelow, ← hverdict, State.cf_eq, State.rf_eq, State.reg_setReg_ne _ _ hne.symm]
        rfl
    · rw [State.writeTraining, if_pos (by rw [hctx]; exact hbusy)] at hrun
      refine ⟨_, hrun, State.rf_wf_self _ _ 59 59 _ (by decide) (by decide), ?_,
        wrote (onlyRegs.wf _ _ _ _ _) (sameRegsBut.wf (.refl [ctxA c Off.CTX_VERDICT] z) List.mem_cons_self 59 59 1)⟩
      rw [State.cw_eq, hbelow, hverdict]

end Sys2Proof.Machine
end

section
/-! SUPPORT. Scratchpad bytes, tokens and tiles across arrivals (R57, R90, R93, R193 to R196). -/

namespace Sys2Proof.Machine

/-! ## Bytes of a scratchpad -/

/-- Only scratchpads differ. -/
def onlyPads (s t : State) : Prop := t = { s with scratch := t.scratch, scratchPoison := t.scratchPoison }

theorem onlyPads.refl (s : State) : onlyPads s s := rfl

theorem onlyPads.trans {s t u : State} (h : onlyPads s t) (g : onlyPads t u) : onlyPads s u := by
  unfold onlyPads at *
  rw [g, h]

theorem onlyPads.forAll {α : Type} (l : List α) (f : α → State → State) (hf : ∀ a s, onlyPads s (f a s)) (s : State) : onlyPads s (forAll l f s) :=
  forAll_induct (P := onlyPads s) (fun a t ht => onlyPads.trans ht (hf a t)) l (onlyPads.refl s)

theorem State.padWrite_only (s : State) (base off : Nat) (data : List Byte) (p : Bool) : onlyPads s (s.padWrite base off data p) := by
  unfold State.padWrite
  dsimp only
  split <;> rfl

theorem State.applyWrites_only (s : State) (base : Nat) (l : List ScratchWrite) : onlyPads s (s.applyWrites base l) :=
  onlyPads.forAll l _ (fun _ t => t.padWrite_only _ _ _ _) s

theorem State.putLinear_only (s : State) (base at_ : Nat) (buf : List Byte) (poison : List (Nat × Nat)) :
    onlyPads s (s.putLinear base at_ buf poison) := s.applyWrites_only _ _

theorem State.putDiag_only (s : State) (base line code row : Nat) (recs : List (Nat × Nat)) (buf : List Byte) (poison : List (Nat × Nat)) :
    onlyPads s (s.putDiag base line code row recs buf poison) := rfl

/-- A byte of a scratchpad after a write into it: the byte written there, else what was there. -/
theorem State.padByte_padWrite (s : State) (base off : Nat) (data : List Byte) (p : Bool) {o : Nat} (ho : o < padSize) :
    (s.padWrite base off data p).padByte base o = if off ≤ o ∧ o < off + data.length then data.getD (o - off) 0 else s.padByte base o := by
  have hlen : (data.take (padSize - off)).length = min (padSize - off) data.length := List.length_take
  unfold State.padWrite
  dsimp only
  split
  next hnil =>
    rw [hnil, List.length_nil] at hlen
    rw [if_neg (by omega)]
  next =>
    rw [State.padByte, if_pos ho, State.padByte, if_pos ho, getD_putBytes, hlen]
    by_cases hin : off ≤ o ∧ o < off + data.length
    · rw [if_pos hin, if_pos (by omega), List.getD_eq_getElem?_getD, List.getD_eq_getElem?_getD, List.getElem?_take, if_pos (by omega)]
      congr 2
      omega
    · rw [if_neg hin, if_neg (by omega)]

/-- Bytes written line by line stand where they were written, and no other byte changes. -/
theorem State.padByte_lineWrites (base : Nat) {o : Nat} (ho : o < padSize) (f : Nat) : ∀ (at_ : Nat) (l : List (Byte × Bool)) (s : State), l.length < f →
    (s.applyWrites base (lineWrites f at_ (l.map fun x => ([x.1], x.2)))).padByte base o
      = if at_ ≤ o ∧ o < at_ + l.length then (l.map (·.1)).getD (o - at_) 0 else s.padByte base o := by
  induction f with
  | zero => intro at_ l s h; omega
  | succ f ih =>
    intro at_ l s h
    match l with
    | [] => rw [if_neg (by simp)]; rfl
    | x :: r =>
      generalize hl : x :: r = l at h ⊢
      have hne : 0 < l.length := by rw [← hl]; simp
      obtain ⟨n, hn, hrun⟩ : ∃ n, 0 < n ∧ lineWrites (f + 1) at_ (l.map fun x => ([x.1], x.2))
          = ⟨at_, (l.take n).map (·.1), (l.take n).any (·.2), none⟩ :: lineWrites f (at_ + ((l.take n).map (·.1)).length) ((l.drop n).map fun x => ([x.1], x.2)) := by
        refine ⟨max 1 ((64 - at_ % 64) / max 1 1), by omega, ?_⟩
        have hmap : ([x.1], x.2) :: r.map (fun x => ([x.1], x.2)) = l.map fun x => ([x.1], x.2) := by rw [← hl, List.map_cons]
        rw [← hmap, lineWrites]
        dsimp only [List.length_singleton]
        rw [hmap, ← List.map_take, ← List.map_drop, List.flatMap_map, List.any_map, List.map_eq_flatMap (l := l.take _)]
        rfl
      have htake : ((l.take n).map (·.1)).length = min n l.length := by rw [List.length_map, List.length_take]
      have hdrop : (l.drop n).length = l.length - n := List.length_drop
      rw [hrun, State.applyWrites, forAll, List.foldl_cons]
      refine (ih _ _ _ (by omega)).trans ?_
      rw [State.padByte_padWrite _ _ _ _ _ ho, hdrop]
      dsimp only
      rw [htake, List.map_drop, List.map_take]
      simp only [List.getD_eq_getElem?_getD, List.getElem?_drop, List.getElem?_take]
      by_cases hin : at_ ≤ o ∧ o < at_ + l.length
      · rw [if_pos hin]
        by_cases hfirst : o < at_ + min n l.length
        · rw [if_neg (by omega), if_pos (by omega), if_pos (by omega)]
        · rw [if_pos (by omega), show n + (o - (at_ + min n l.length)) = o - at_ by omega]
      · rw [if_neg hin, if_neg (by omega), if_neg (by omega)]

theorem State.padByte_putLinear (s : State) (base at_ : Nat) (buf : List Byte) (poison : List (Nat × Nat)) {i : Nat} (hi : i < buf.length)
    (ho : at_ + i < padSize) : (s.putLinear base at_ buf poison).padByte base (at_ + i) = buf.getD i 0 := by
  have hels : (buf.zipIdx.map fun x => ([x.1], inRanges poison x.2))
      = (buf.zipIdx.map fun x => (x.1, inRanges poison x.2)).map fun x => ([x.1], x.2) := by rw [List.map_map]; rfl
  have hfst : (buf.zipIdx.map fun x => (x.1, inRanges poison x.2)).map (·.1) = buf := by
    rw [List.map_map]
    exact List.zipIdx_map_fst 0 buf
  have hlen : (buf.zipIdx.map fun x => (x.1, inRanges poison x.2)).length = buf.length := by rw [List.length_map, List.length_zipIdx]
  rw [State.putLinear, hels, State.padByte_lineWrites base ho _ _ _ _ (by omega), hlen, if_pos (by omega), hfst, Nat.add_sub_cancel_left]

/-! ## Steps that spare the tiles -/

/-- Of context `c`, its transfers and its queues may differ; every tile stands as it was, and so does memory. -/
structure sparesTiles (c : Nat) (s u : State) : Prop where
  core : sameCore s u
  ctx : ∀ j, j ≠ c → u.ctx j = s.ctx j
  tile : ∀ v, u.tile c v = s.tile c v
  cfg : (u.ctx c).cfg = (s.ctx c).cfg

section
variable {c : Nat}

theorem sparesTiles.refl (s : State) : sparesTiles c s s := ⟨.refl s, fun _ _ => rfl, fun _ => rfl, rfl⟩

theorem sparesTiles.trans {s t u : State} (h : sparesTiles c s t) (g : sparesTiles c t u) : sparesTiles c s u :=
  ⟨h.core.trans g.core, fun j hj => (g.ctx j hj).trans (h.ctx j hj), fun v => (g.tile v).trans (h.tile v), g.cfg.trans h.cfg⟩

theorem sparesTiles.ite {s t u : State} (p : Prop) [Decidable p] (h : sparesTiles c s t) (g : sparesTiles c s u) :
    sparesTiles c s (if p then t else u) := by split <;> assumption

theorem keepsCtxs.ctx {s u : State} (h : keepsCtxs s u) (j : Nat) : u.ctx j = s.ctx j := by rw [State.ctx, h.1, State.ctx]

theorem sparesTiles.of_keeps {s u : State} (h : sameCore s u) (k : keepsCtxs s u) : sparesTiles c s u :=
  ⟨h, fun j _ => k.ctx j, fun v => k.tile c v, by rw [k.ctx]⟩

theorem State.modCtx_spares (s : State) {f : Ctx → Ctx} (ht : ∀ x, (f x).tiles = x.tiles) (hc : ∀ x, (f x).cfg = x.cfg) :
    sparesTiles c s (s.modCtx c f) :=
  ⟨s.modCtx_core c f, fun j hj => by rw [State.modCtx_eq, State.ctx_setCtx, if_neg hj], fun v => s.tile_modCtx c ht c v,
    by rw [State.modCtx_eq, State.ctx_setCtx_self, hc]⟩

variable (s : State)

theorem State.dropXfer_spares (id : Nat) : sparesTiles c s (s.dropXfer c id) :=
  s.modCtx_spares (f := fun k => { k with xfers := Table.erase k.xfers id }) (fun _ => rfl) fun _ => rfl

theorem State.modQueue_spares (l : Nat) (f : Queue → Queue) : sparesTiles c s (s.modQueue c l f) :=
  s.modCtx_spares (f := fun k => { k with queues := Table.put Queue.init k.queues l (f (Table.getD Queue.init k.queues l)) }) (fun _ => rfl) fun _ => rfl

theorem State.modXfer_spares (id : Nat) (f : Xfer → Xfer) : sparesTiles c s (s.modXfer c id f) := by
  unfold State.modXfer
  split
  · exact .refl s
  · next x _ => exact s.modCtx_spares (f := fun k => { k with xfers := Table.set k.xfers id (f x) }) (fun _ => rfl) fun _ => rfl

theorem State.dropPush_spares (id : Nat) (x : Xfer) : sparesTiles c s (s.dropPush c id x) := by
  unfold State.dropPush
  split
  · exact .refl s
  · exact s.modQueue_spares _ _

theorem State.maxF_core (a hi lo v : Nat) : sameCore s (s.maxF a hi lo v) := rfl

theorem State.countMiss_core (d n : Nat) : sameCore s (s.countMiss d n) := by
  unfold State.countMiss
  split
  · exact ((s.sat_core _ 31 0 1).trans (State.maxF_core _ _ _ _ _)).trans (State.raiseCtx_core _ d 2)
  · exact .refl s

theorem State.countLate_spares (d : Nat) (x : Xfer) : sparesTiles c s (s.countLate d x) := by
  refine .of_keeps ?_ (s.countLate_keeps d x)
  unfold State.countLate
  split
  · exact s.countMiss_core d _
  · split <;> exact sameCore.ite _ rfl (.refl s)

theorem State.refreshPromise_ctx_other (k : Nat) {j : Nat} (hj : j ≠ k) : (s.refreshPromise k).ctx j = s.ctx j := by
  unfold State.refreshPromise
  extract_lets a old new s1
  split
  · rfl
  · split
    · rw [State.modCtx_eq, State.ctx_setCtx, if_neg hj]
      rfl
    · split <;> rfl

theorem State.refreshPromise_spares : sparesTiles c s (s.refreshPromise c) := by
  refine ⟨s.refreshPromise_core c, fun j hj => s.refreshPromise_ctx_other c hj, fun v => s.tile_refreshPromise c c v, ?_⟩
  obtain ⟨xs, qs, h⟩ := s.refreshPromise_ctx c c
  rw [h]

/-- A transfer that has been dropped is gone, whatever is done to the promise after. -/
theorem State.xfer_dropXfer (id : Nat) : (s.dropXfer c id).xfer c id = none := by
  rw [State.dropXfer, State.modCtx_eq, State.xfer, State.ctx_setCtx_self, Table.get?_erase, if_pos rfl]

theorem State.xfer_refreshPromise_none {s : State} {id : Nat} (h : s.xfer c id = none) : (s.refreshPromise c).xfer c id = none := by
  obtain ⟨f, -, hf⟩ := (s.refreshPromise_due c id).1
  rw [hf, h]
  rfl

end

theorem sparesTiles.tokens {c : Nat} {s u : State} (h : sparesTiles c s u) (t j : Nat) : u.tokens c t j = s.tokens c t j := by
  rw [State.tokens, h.tile, State.tokens]

theorem sparesTiles.now {c : Nat} {s u : State} (h : sparesTiles c s u) : u.now = s.now := (congrArg State.now h.core :)

theorem sparesTiles.padBase {c : Nat} {s u : State} (h : sparesTiles c s u) (t : Nat) : u.padBase c t = s.padBase c t := by
  have hr : u.rafters = s.rafters := (congrArg State.rafters h.core :)
  unfold State.padBase State.physTile State.courseOf State.rafter
  rw [h.cfg, hr]

theorem sparesTiles.padByte {c : Nat} {s u : State} (h : sparesTiles c s u) (base o : Nat) : u.padByte base o = s.padByte base o := by
  have hs : u.scratch = s.scratch := (congrArg State.scratch h.core :)
  rw [State.padByte, hs, State.padByte]

/-! ## Tokens that fit -/

/-- A tile with tokens added to a counter that has room for them. -/
def State.withTokens (s : State) (c t k n : Nat) : State :=
  s.modTile c t fun y => { y with
    tokens := Table.put 0 y.tokens k (BitVec.ofNat 16 (s.tokens c t k + n))
    fresh := Table.put (0, 0) y.fresh k (s.now, (if (Table.getD (0, 0) y.fresh k).1 = s.now then (Table.getD (0, 0) y.fresh k).2 else 0) + n) }

theorem State.addTokens_fit (s : State) {c t k n : Nat} (h : s.tokens c t k + n ≤ 65535) : s.addTokens c t k n = s.withTokens c t k n := by
  have hv : (Table.getD 0 (s.tile c t).tokens k).toNat = s.tokens c t k := rfl
  unfold State.addTokens State.withTokens
  dsimp only
  rw [hv, if_neg (by omega), Nat.min_eq_left h]
  unfold State.modTile State.modCtx
  congr 1

section
variable (s : State) (c t k n : Nat)

theorem State.withTokens_core : sameCore s (s.withTokens c t k n) := rfl

theorem State.withTokens_ctx {j : Nat} (h : j ≠ c) : (s.withTokens c t k n).ctx j = s.ctx j := by
  rw [State.withTokens, State.modTile, State.modCtx_eq, State.ctx_setCtx, if_neg h]

theorem State.withTokens_tile {v : Nat} (h : v ≠ t) : (s.withTokens c t k n).tile c v = s.tile c v := by
  rw [State.withTokens, State.tile_modTile, if_neg fun e => h e.2]

theorem State.withTokens_xfer (j id : Nat) : (s.withTokens c t k n).xfer j id = s.xfer j id := by
  rw [State.withTokens, State.modTile, State.modCtx_eq, State.xfer, State.ctx_setCtx]
  split
  · next h => rw [h]; rfl
  · rfl

theorem State.withTokens_rx (v j : Nat) : (s.withTokens c t k n).rxEp c v j = s.rxEp c v j := by
  rw [State.rxEp, State.withTokens, State.tile_modTile]
  split
  · next h => rw [h.2, State.rxEp]
  · rfl

theorem State.withTokens_tx (v j : Nat) : (s.withTokens c t k n).txEp c v j = s.txEp c v j := by
  rw [State.txEp, State.withTokens, State.tile_modTile]
  split
  · next h => rw [h.2, State.txEp]
  · rfl

/-- The counter has its tokens, the others of the tile have theirs. -/
theorem State.withTokens_tokens {n : Nat} (h : s.tokens c t k + n ≤ 65535) (j : Nat) :
    (s.withTokens c t k n).tokens c t j = s.tokens c t j + if j = k then n else 0 := by
  rw [State.tokens, State.withTokens, State.tile_modTile_self]
  simp only [Table.getD_put]
  split
  · next hj =>
    rw [hj, BitVec.toNat_ofNat]
    omega
  · rfl

end

/-! ## What an arrival leaves -/

/-- Of the machine, registers, contexts and scratchpads may differ; of the contexts only `c`, and of its tiles only `t`, whose tokens stay. -/
structure Delivered (c t : Nat) (s u : State) : Prop where
  rest : u = { s with regs := u.regs, cycle := u.cycle, msix := u.msix, ctxs := u.ctxs, scratch := u.scratch, scratchPoison := u.scratchPoison }
  ctx : ∀ j, j ≠ c → u.ctx j = s.ctx j
  tile : ∀ v, v ≠ t → u.tile c v = s.tile c v
  tokens : ∀ j, u.tokens c t j = s.tokens c t j

section
variable {c t : Nat} {s u : State}

theorem Delivered.trans {w : State} (h : Delivered c t s u) (g : Delivered c t u w) : Delivered c t s w := by
  refine ⟨?_, fun j hj => (g.ctx j hj).trans (h.ctx j hj), fun v hv => (g.tile v hv).trans (h.tile v hv), fun j => (g.tokens j).trans (h.tokens j)⟩
  rw [g.rest, h.rest]

theorem onlyPads.keeps (h : onlyPads s u) : keepsCtxs s u := ⟨(congrArg State.ctxs h :), (congrArg State.tb h :)⟩

theorem onlyPads.delivered (h : onlyPads s u) : Delivered c t s u := by
  refine ⟨?_, fun j _ => h.keeps.ctx j, fun v _ => h.keeps.tile c v, fun j => ?_⟩
  · unfold onlyPads at h
    rw [h]
  · rw [State.tokens, h.keeps.tile, State.tokens]

theorem sparesTiles.delivered (h : sparesTiles c s u) : Delivered c t s u := by
  refine ⟨?_, h.ctx, fun v _ => h.tile v, fun j => h.tokens t j⟩
  have hc := h.core
  unfold sameCore at hc
  rw [hc]

theorem State.modTile_delivered (s : State) {f : Tile → Tile} (h : ∀ y, (f y).tokens = y.tokens) : Delivered c t s (s.modTile c t f) := by
  refine ⟨rfl, fun j hj => ?_, fun v hv => ?_, fun j => ?_⟩
  · rw [State.modTile, State.modCtx_eq, State.ctx_setCtx, if_neg hj]
  · rw [State.tile_modTile, if_neg fun e => hv e.2]
  · rw [State.tokens, State.tile_modTile_self, h, State.tokens]

theorem State.slotPoison_spares (s : State) (x : Xfer) : sparesTiles c s (s.slotPoison c x) :=
  .ite _ (.refl s) (.of_keeps rfl (s.counts_keep _ 31 0 1).1)

theorem State.popDeliver_delivered (s : State) (x : Xfer) (dst vload hdr : Nat) : Delivered c x.tile s (s.popDeliver c x dst vload hdr) := by
  unfold State.popDeliver
  dsimp only
  refine ((((s.putLinear_only _ _ _ _).trans (State.padWrite_only _ _ _ _ _)).delivered).trans
    (sparesTiles.ite _ (.refl _) (.of_keeps (State.sat_core _ _ 31 0 1) (State.counts_keep _ _ 31 0 1).1)).delivered).trans (State.modTile_delivered _ fun y => ?_)
  repeat' split
  all_goals rfl

/-- What a transfer leaves at its destination stands in the scratchpad and the version registers of its tile. -/
theorem State.deliver_delivered (s : State) (x : Xfer) : Delivered c x.tile s (s.deliver c x) := by
  unfold State.deliver
  dsimp only
  split
  · split
    · exact (s.putDiag_only _ _ _ _ _ _ _).delivered
    · exact (s.putLinear_only _ _ _ _).delivered
  · split
    · exact (s.putLinear_only _ _ _ _).delivered
    · exact (onlyPads.refl s).delivered
  · refine Delivered.trans ?_ (State.slotPoison_spares _ x).delivered
    split
    · exact (s.putDiag_only _ _ _ _ _ _ _).delivered
    · exact (s.putLinear_only _ _ _ _).delivered
  · exact (s.slotPoison_spares x).delivered
  · exact (s.slotPoison_spares x).delivered
  · exact s.popDeliver_delivered x _ _ _
  · exact (onlyPads.refl s).delivered

end

/-- The arrival of a transfer that carries a completion token for a counter with room (R57). -/
theorem exec_transferArrival_token {s : State} {c id k : Nat} {x : Xfer} (hx : s.xfer c id = some x) (ha : s.canArrive c id x = true)
    (ho : x.orphan = false) (hk : x.ctr = some k) (hs : ∀ v i n, x.kind ≠ .signal v i n) (hm : ∀ p, x.kind ≠ .mirrorPage p) :
    exec (.transferArrival c id) s
      = .next ((((((s.deliver c x).countLate c x).dropXfer c id).dropPush c id x).addTokens c x.tile k 1).refreshPromise c) := by
  rw [exec_transferArrival, execTransferArrival, hx]
  dsimp only
  rw [if_neg (by rw [ha]; decide), if_neg (by rw [ho]; decide)]
  have hgive : ∀ y : State, y.giveTokens c x = y.addTokens c x.tile k 1 := fun y => by
    unfold State.giveTokens
    split
    · next h => exact absurd h (hs _ _ _)
    · next h => exact absurd h (hm _)
    · rw [hk]
  rw [hgive]

/-- A transfer that has gone stays gone while its link order is cleared. -/
theorem State.xfer_dropPush (s : State) (c id j : Nat) (x : Xfer) : (s.dropPush c id x).xfer c j = s.xfer c j := by
  unfold State.dropPush
  split
  · rfl
  · rw [State.modQueue, State.modCtx_eq, State.xfer, State.ctx_setCtx_self, State.xfer]

/-- Settles O18: an arrival, step by step: the bytes, the count of a late one, its end, its tokens and the promise after it. -/
theorem arrivalsGiveTheirTokens : Obligations.ArrivalsGiveTheirTokens := by
  unfold Obligations.ArrivalsGiveTheirTokens
  refine ⟨fun s c id k x hx ha ho hk hs hm htok => ?_, fun s c id v k n x hx hk ha ho htok => ?_, fun s c t id seg frame a x hr hacc ha hserved hhere => ?_,
    fun s c id x hx ha ho => ?_⟩
  · have hdel := s.deliver_delivered (c := c) x
    have hbytes : ∀ line elem row, x.kind = .streamIn line 0 elem row → ∀ i, i < x.buf.length → line * 64 + i < padSize →
        (s.deliver c x).padByte (s.padBase c x.tile) (line * 64 + i) = x.buf.getD i 0 := fun line elem row hkind i hi ho => by
      rw [State.deliver, hkind]
      dsimp only
      rw [if_neg (by decide)]
      exact s.padByte_putLinear _ _ _ _ hi ho
    have hrun := exec_transferArrival_token hx ha ho hk hs hm
    generalize s.deliver c x = s1 at hdel hbytes hrun
    have hover : sparesTiles c s1 (((s1.countLate c x).dropXfer c id).dropPush c id x) :=
      ((s1.countLate_spares c x).trans (State.dropXfer_spares _ id)).trans (State.dropPush_spares _ id x)
    have hgone : (((s1.countLate c x).dropXfer c id).dropPush c id x).xfer c id = none := (State.xfer_dropPush _ _ _ _ _).trans (State.xfer_dropXfer _ id)
    generalize ((s1.countLate c x).dropXfer c id).dropPush c id x = s2 at hover hgone hrun
    have htok2 : ∀ j, s2.tokens c x.tile j = s.tokens c x.tile j := fun j => (hover.tokens _ j).trans (hdel.tokens j)
    have hfit : s2.tokens c x.tile k + 1 ≤ 65535 := by rw [htok2]; omega
    rw [s2.addTokens_fit hfit] at hrun
    have hlast := State.refreshPromise_spares (c := c) (s2.withTokens c x.tile k 1)
    have hmem : sameCore s1 ((s2.withTokens c x.tile k 1).refreshPromise c) := (hover.core.trans (s2.withTokens_core c x.tile k 1)).trans hlast.core
    refine ⟨_, hrun, State.xfer_refreshPromise_none ((s2.withTokens_xfer c x.tile k 1 c id).trans hgone), ?_, fun j hj => ?_, ?_, fun v hv => ?_, fun j hj => ?_,
      ?_, ?_, ?_, ?_⟩
    · rw [hlast.tokens, s2.withTokens_tokens c x.tile k hfit, if_pos rfl, htok2]
    · rw [hlast.tokens, s2.withTokens_tokens c x.tile k hfit, if_neg hj, htok2, Nat.add_zero]
    · intro line elem row hkind i hi ho
      have hpad : ((s2.withTokens c x.tile k 1).refreshPromise c).scratch = s1.scratch := (congrArg State.scratch hmem :)
      rw [← hbytes line elem row hkind i hi ho, State.padByte, hpad, State.padByte]
    · rw [hlast.tile, s2.withTokens_tile c x.tile k 1 hv, hover.tile, hdel.tile v hv]
    · rw [hlast.ctx j hj, s2.withTokens_ctx c x.tile k 1 hj, hover.ctx j hj, hdel.ctx j hj]
    · exact (congrArg State.mem hmem :).trans (congrArg State.mem hdel.rest :)
    · exact (congrArg State.poison hmem :).trans (congrArg State.poison hdel.rest :)
    · exact (congrArg State.cache hmem :).trans (congrArg State.cache hdel.rest :)
    · exact (congrArg State.hostMem hmem :).trans (congrArg State.hostMem hdel.rest :)
  · have hrun := exec_transferArrival_signal hx hk ha ho
    have hover : sparesTiles c s ((s.countLate c x).dropXfer c id) := (s.countLate_spares c x).trans (State.dropXfer_spares _ id)
    have hgone : ((s.countLate c x).dropXfer c id).xfer c id = none := State.xfer_dropXfer _ id
    generalize (s.countLate c x).dropXfer c id = s2 at hover hgone hrun
    have hfit : s2.tokens c v k + n ≤ 65535 := by rw [hover.tokens]; exact htok
    rw [s2.addTokens_fit hfit] at hrun
    have hlast := State.refreshPromise_spares (c := c) (s2.withTokens c v k n)
    refine ⟨_, hrun, State.xfer_refreshPromise_none ((s2.withTokens_xfer c v k n c id).trans hgone), ?_, fun w j hwj => ?_, fun j hj => ?_,
      ((hover.core.trans (s2.withTokens_core c v k n)).trans hlast.core).mem⟩
    · rw [hlast.tokens, s2.withTokens_tokens c v k hfit, if_pos rfl, hover.tokens]
    · by_cases hw : w = v
      · subst hw
        rw [hlast.tokens, s2.withTokens_tokens c w k hfit, if_neg (hwj.resolve_left (fun h => h rfl)), hover.tokens, Nat.add_zero]
      · rw [hlast.tokens, State.tokens, s2.withTokens_tile c v k n hw, hover.tile, State.tokens]
    · rw [hlast.ctx j hj, s2.withTokens_ctx c v k n hj, hover.ctx j hj]
  · have hany : (x.acceptedAt.any fun a => decide (a < s.now)) = true := by simp [hacc, ha]
    have hrun : exec (.planRefillArrive c t id) s = .next (((((s.modTile c t fun y =>
        if (y.frames[frame]?.bind (·.seg)) = some seg then { y with frames := y.frames.set frame ⟨some seg, entriesOf x.buf⟩ } else y).countLate c x).dropXfer c id).refreshPromise c)) := by
      rw [exec_planRefillArrive, execPlanRefillArrive, hr]
      dsimp only
      rw [if_pos (by rw [hany, hserved, hhere]; rfl)]
    generalize hs1 : (s.modTile c t fun y =>
        if (y.frames[frame]?.bind (·.seg)) = some seg then { y with frames := y.frames.set frame ⟨some seg, entriesOf x.buf⟩ } else y) = s1 at hrun
    have hcore : sameCore s s1 := hs1 ▸ rfl
    have hover : sparesTiles c s1 ((s1.countLate c x).dropXfer c id) := (s1.countLate_spares c x).trans (State.dropXfer_spares _ id)
    have hgone : ((s1.countLate c x).dropXfer c id).xfer c id = none := State.xfer_dropXfer _ id
    have hall : sparesTiles c s1 (((s1.countLate c x).dropXfer c id).refreshPromise c) := hover.trans (State.refreshPromise_spares _)
    refine ⟨_, hrun, State.xfer_refreshPromise_none hgone, ?_, fun v hv => ?_, fun j hj => ?_, (hcore.trans hall.core).mem⟩
    · rw [hall.tile, ← hs1, State.tile_modTile_self]
      split <;> rfl
    · rw [hall.tile, ← hs1, State.tile_modTile, if_neg fun e => hv e.2]
    · rw [hall.ctx j hj, ← hs1, State.modTile, State.modCtx_eq, State.ctx_setCtx, if_neg hj]
  · refine ⟨_, ?_, rfl⟩
    rw [exec_transferArrival, execTransferArrival, hx]
    dsimp only
    rw [if_neg (by rw [ha]; decide), if_pos ho]

end Sys2Proof.Machine
end

section
/-! SUPPORT. Messages, acknowledgements and combines at their endpoints (R90, R193 to R196). -/

namespace Sys2Proof.Machine

/-! ## Endpoints -/

section
variable (s : State) (c t k : Nat)

theorem State.rxEp_modRx_self (f : RxEp → RxEp) : (s.modRx c t k f).rxEp c t k = f (s.rxEp c t k) := by
  rw [State.rxEp, State.modRx, State.tile_modTile_self]
  simp only [Table.getD_put_self]
  rfl

theorem State.txEp_modTx_self (f : TxEp → TxEp) : (s.modTx c t k f).txEp c t k = f (s.txEp c t k) := by
  rw [State.txEp, State.modTx, State.tile_modTile_self]
  simp only [Table.getD_put_self]
  rfl

theorem State.xfer_modTile (f : Tile → Tile) (j id : Nat) : (s.modTile c t f).xfer j id = s.xfer j id := by
  rw [State.modTile, State.modCtx_eq, State.xfer, State.ctx_setCtx]
  split
  · next h => rw [h]; rfl
  · rfl

theorem State.modRx_tokens (f : RxEp → RxEp) (v j : Nat) : (s.modRx c t k f).tokens c v j = s.tokens c v j := by
  rw [State.tokens, State.modRx, State.tile_modTile]
  split
  · next h => rw [h.2, State.tokens]
  · rfl

theorem State.modTx_tokens (f : TxEp → TxEp) (v j : Nat) : (s.modTx c t k f).tokens c v j = s.tokens c v j := by
  rw [State.tokens, State.modTx, State.tile_modTile]
  split
  · next h => rw [h.2, State.tokens]
  · rfl

end

/-! ## The way to the endpoint -/

/-- Only packets in routers and the records of the cycle differ. -/
def onlyRouted (s u : State) : Prop := u = { s with routers := u.routers, cycle := u.cycle }

section
variable {s u : State}

theorem onlyRouted.keeps (h : onlyRouted s u) : keepsCtxs s u := ⟨(congrArg State.ctxs h :), (congrArg State.tb h :)⟩

theorem onlyRouted.regs (h : onlyRouted s u) : u.regs = s.regs := (congrArg State.regs h :)

theorem onlyRouted.mem (h : onlyRouted s u) : sameMemory s u :=
  ⟨(congrArg State.mem h :), (congrArg State.poison h :), (congrArg State.cache h :), (congrArg State.scratch h :), (congrArg State.scratchPoison h :),
    (congrArg State.hostMem h :)⟩

theorem onlyRouted.rxEp (h : onlyRouted s u) (c t k : Nat) : u.rxEp c t k = s.rxEp c t k := by rw [State.rxEp, h.keeps.tile, State.rxEp]

theorem onlyRouted.xfer (h : onlyRouted s u) (c id : Nat) : u.xfer c id = s.xfer c id := by rw [State.xfer, h.keeps.ctx, State.xfer]

theorem onlyRouted.tokens (h : onlyRouted s u) (c t k : Nat) : u.tokens c t k = s.tokens c t k := by rw [State.tokens, h.keeps.tile, State.tokens]

theorem onlyRouted.now (h : onlyRouted s u) : u.now = s.now := (congrArg State.now h :)

end

theorem State.inject_routed (s : State) (a b cls : Nat) (owner : Nat × Nat) (part n : Nat) (reply : Option (Nat × Nat)) :
    onlyRouted s (s.inject a b cls owner part n reply) := by
  unfold State.inject
  split <;> rfl

/-- An acknowledgement with a route back leaves as packets (R193). -/
theorem State.departAck_routed (s : State) (c id u : Nat) (x : Xfer) (o : OrderKey) (n : Nat)
    (h : (s.purlin (s.tileDie c u) (s.tileDie c x.tile)).isSome = true) : onlyRouted s ((s.noteOrder o n).departAck c id x u) := by
  obtain ⟨p, hp⟩ := Option.isSome_iff_exists.mp h
  have hroute : (s.noteOrder o n).purlin ((s.noteOrder o n).tileDie c u) ((s.noteOrder o n).tileDie c x.tile) = some p := hp
  unfold State.departAck
  dsimp only
  rw [hroute]
  have hin := (s.noteOrder o n).inject_routed ((s.noteOrder o n).tileDie c u) ((s.noteOrder o n).tileDie c x.tile) 5 (c, id) 0 0 none
  dsimp only
  unfold onlyRouted at hin ⊢
  rw [hin]
  rfl

theorem State.messageOf_xfer {s : State} {c id ep u k : Nat} {x : Xfer} (h : s.messageOf c id = some (x, ep, u, k)) : s.xfer c id = some x := by
  unfold State.messageOf at h
  cases hx : s.xfer c id with
  | none => rw [hx] at h; exact absurd h (by simp)
  | some y =>
    rw [hx, Option.bind_some] at h
    split at h
    · simp only [Option.some.injEq, Prod.mk.injEq] at h
      rw [h.1]
    · exact absurd h (by simp)

/-- A message that arrives in its turn: its acknowledgement leaves, and the endpoint judges it. -/
theorem exec_messageArrival_here {s : State} {c id ep u k a : Nat} {x : Xfer} (hm : s.messageOf c id = some (x, ep, u, k)) (hacc : x.acceptedAt = some a)
    (ha : a < s.now) (hhere : s.allHere c id x = true) (hord : s.inOrder (.endpoint c u k) x.tile = true) :
    exec (.messageArrival c id) s = (let z := (s.noteOrder (.endpoint c u k) x.tile).departAck c id x u
      match (z.rxEp c u k).judge z.now x.tile x.buf.length with
      | none => .next (((z.modXfer c id fun y => { y with kind := .ack ep true 0 }).acceptMessage c u k x).noteChan c u k true 0 1)
      | some why =>
        .next (((z.modXfer c id fun y => { y with kind := .ack ep false why }).modRx c u k fun y =>
          { y with nacks := BitVec.ofNat 16 (satPlus 16 y.nacks.toNat 1), reason := BitVec.ofNat 3 why }).noteChan c u k true 32 1)) := by
  have hany : (x.acceptedAt.any fun a => decide (a < s.now)) = true := by simp [hacc, ha]
  rw [exec_messageArrival, execMessageArrival, hm]
  exact if_pos (by rw [hany, hhere, hord]; rfl)

theorem State.modXfer_kind {s : State} {c id : Nat} {x : Xfer} (h : s.xfer c id = some x) (k : XKind) :
    ((s.modXfer c id fun y => { y with kind := k }).xfer c id).map (·.kind) = some k := by
  rw [State.xfer_modXfer_self h]
  rfl

theorem sparesTiles.rxEp {c : Nat} {s u : State} (h : sparesTiles c s u) (t k : Nat) : u.rxEp c t k = s.rxEp c t k := by
  rw [State.rxEp, h.tile, State.rxEp]

theorem sparesTiles.txEp {c : Nat} {s u : State} (h : sparesTiles c s u) (t k : Nat) : u.txEp c t k = s.txEp c t k := by
  rw [State.txEp, h.tile, State.txEp]

theorem sameMemory.trans {s t u : State} (h : sameMemory s t) (g : sameMemory t u) : sameMemory s u := by
  obtain ⟨h1, h2, h3, h4, h5, h6⟩ := h
  obtain ⟨g1, g2, g3, g4, g5, g6⟩ := g
  exact ⟨g1.trans h1, g2.trans h2, g3.trans h3, g4.trans h4, g5.trans h5, g6.trans h6⟩

theorem onlyPads.regs {s u : State} (h : onlyPads s u) : u.regs = s.regs := (congrArg State.regs h :)

theorem onlyPads.rxEp {s u : State} (h : onlyPads s u) (c t k : Nat) : u.rxEp c t k = s.rxEp c t k := by rw [State.rxEp, h.keeps.tile, State.rxEp]

theorem onlyPads.xfer {s u : State} (h : onlyPads s u) (c id : Nat) : u.xfer c id = s.xfer c id := by rw [State.xfer, h.keeps.ctx, State.xfer]

theorem onlyPads.tokens {s u : State} (h : onlyPads s u) (c t k : Nat) : u.tokens c t k = s.tokens c t k := by rw [State.tokens, h.keeps.tile, State.tokens]

/-- A message taken by a RECV: its bytes, its endpoint, its token (R193). -/
theorem State.acceptMessage_recv (s : State) {c u k id : Nat} {x : Xfer} (hc : (s.rxEp c u k).combine = false) (ht : s.tokens c u (s.rxEp c u k).ctr < 65535) :
    let w := s.acceptMessage c u k x
    w.rxEp c u k = { s.rxEp c u k with armed := false, msgs := (s.rxEp c u k).msgs + 1 } ∧ w.xfer c id = s.xfer c id
      ∧ w.tokens c u (s.rxEp c u k).ctr = s.tokens c u (s.rxEp c u k).ctr + 1 ∧ w.regs = s.regs := by
  intro w
  obtain ⟨z, hz, hw⟩ : ∃ z, onlyPads s z
      ∧ w = (z.modRx c u k fun y => { y with armed := false, msgs := y.msgs + 1 }).addTokens c u (s.rxEp c u k).ctr 1 := by
    refine ⟨_, (s.putLinear_only (s.padBase c u) ((s.rxEp c u k).dstLine * 64) x.buf x.bufPoison).trans (State.padWrite_only _ (s.padBase c u)
      ((s.rxEp c u k).hdrLine * 64) (leBytes 8 (messageHeader x.buf.length x.tile)) false), ?_⟩
    exact if_neg (by rw [hc]; decide)
  have hfit : (z.modRx c u k fun y => { y with armed := false, msgs := y.msgs + 1 }).tokens c u (s.rxEp c u k).ctr + 1 ≤ 65535 := by
    rw [State.modRx_tokens, hz.tokens]
    omega
  rw [State.addTokens_fit _ hfit] at hw
  rw [hw]
  refine ⟨?_, ?_, ?_, hz.regs⟩
  · rw [State.withTokens_rx, State.rxEp_modRx_self, hz.rxEp]
  · rw [State.withTokens_xfer, State.modRx, State.xfer_modTile, hz.xfer]
  · rw [State.withTokens_tokens _ _ _ _ hfit, if_pos rfl, State.modRx_tokens, hz.tokens]

theorem State.acceptMessage_combine (s : State) {c u k id : Nat} {x : Xfer} (hc : (s.rxEp c u k).combine = true) :
    let w := s.acceptMessage c u k x
    let r := s.rxEp c u k
    (w.rxEp c u k).got = r.got ++ [(x.tile, x.buf, decide (x.bufPoison ≠ []))] ∧ (w.rxEp c u k).msgs = r.msgs + 1 ∧ (w.rxEp c u k).armed = r.armed
      ∧ w.xfer c id = s.xfer c id ∧ w.regs = s.regs ∧ sameMemory s w := by
  intro w r
  have hw : ∃ f : RxEp → RxEp, w = s.modRx c u k f ∧ (∀ y, (f y).got = y.got ++ [(x.tile, x.buf, decide (x.bufPoison ≠ []))] ∧ (f y).msgs = y.msgs + 1
      ∧ (f y).armed = y.armed) := by
    refine ⟨fun y => { y with
      got := y.got ++ [(x.tile, x.buf, decide (x.bufPoison ≠ []))]
      msgs := y.msgs + 1
      sumAt := if (y.got ++ [(x.tile, x.buf, decide (x.bufPoison ≠ []))]).length = y.nsend then some (s.now + combineCycles y.nsend y.maxLen - 1) else none },
      if_pos hc, fun y => ⟨rfl, rfl, rfl⟩⟩
  obtain ⟨f, hw, hf⟩ := hw
  rw [hw, State.rxEp_modRx_self, State.modRx, State.xfer_modTile]
  obtain ⟨h1, h2, h3⟩ := hf (s.rxEp c u k)
  exact ⟨h1, h2, h3, rfl, rfl, ⟨rfl, rfl, rfl, rfl, rfl, rfl⟩⟩

/-- The outcome of an attempt at its endpoint (R90). -/
theorem State.messageOutcome_spec (s : State) {c t ep why id : Nat} (ok : Bool) (ht : s.tokens c t (s.txEp c t ep).ackCtr < 65535) :
    let u := s.messageOutcome c t ep ok why
    let k := s.txEp c t ep
    let y := u.txEp c t ep
    (ok = true → y = { k with busy := false, msgs := k.msgs + 1, outcome := 1 })
      ∧ (ok = false → y.nacks = BitVec.ofNat 16 (satPlus 16 k.nacks.toNat 1) ∧ y.reason = BitVec.ofNat 3 why)
      ∧ (ok = false → k.retries ≠ 0 → y.busy = k.busy ∧ y.nackAt = some s.now)
      ∧ (ok = false → k.retries = 0 → y.busy = false ∧ y.outcome = 2)
      ∧ u.tokens c t k.ackCtr = s.tokens c t k.ackCtr + (if ok = true ∨ k.retries = 0 then 1 else 0) ∧ u.xfer c id = s.xfer c id ∧ sameMemory s u := by
  intro u k y
  have fits : ∀ (z : State) (f : TxEp → TxEp), (∀ j, z.tokens c t j = s.tokens c t j) → (z.modTx c t ep f).tokens c t k.ackCtr + 1 ≤ 65535 := fun z f hz => by
    rw [State.modTx_tokens, hz]
    exact ht
  have noted : ∀ lo j, (s.noteChan c t ep false lo 1).tokens c t j = s.tokens c t j := fun lo j => rfl
  cases ok with
  | true =>
    have hu : u = ((s.noteChan c t ep false 0 1).modTx c t ep fun y => { y with busy := false, msgs := y.msgs + 1, outcome := 1 }).addTokens c t k.ackCtr 1 := rfl
    have hfit := fits (s.noteChan c t ep false 0 1) (fun y => { y with busy := false, msgs := y.msgs + 1, outcome := 1 }) (noted 0)
    rw [State.addTokens_fit _ hfit] at hu
    refine ⟨fun _ => ?_, fun h => absurd h (by decide), fun h => absurd h (by decide), fun h => absurd h (by decide), ?_, ?_, ?_⟩
    · simp only [y]
      rw [hu, State.withTokens_tx, State.txEp_modTx_self]
      rfl
    · rw [hu, State.withTokens_tokens _ _ _ _ hfit, if_pos rfl, if_pos (Or.inl rfl), State.modTx_tokens, noted]
    · rw [hu, State.withTokens_xfer, State.modTx, State.xfer_modTile]
      rfl
    · rw [hu]
      exact ⟨rfl, rfl, rfl, rfl, rfl, rfl⟩
  | false =>
    have hu : u = if k.retries = 0 then (((s.noteChan c t ep false 32 1).modTx c t ep fun y =>
        { y with nacks := BitVec.ofNat 16 (satPlus 16 y.nacks.toNat 1), reason := BitVec.ofNat 3 why }).modTx c t ep
          fun y => { y with busy := false, outcome := 2 }).addTokens c t k.ackCtr 1
      else ((s.noteChan c t ep false 32 1).modTx c t ep fun y =>
        { y with nacks := BitVec.ofNat 16 (satPlus 16 y.nacks.toNat 1), reason := BitVec.ofNat 3 why }).modTx c t ep fun y => { y with nackAt := some s.now } := rfl
    by_cases hr : k.retries = 0
    · have hfit := fits ((s.noteChan c t ep false 32 1).modTx c t ep fun y =>
        { y with nacks := BitVec.ofNat 16 (satPlus 16 y.nacks.toNat 1), reason := BitVec.ofNat 3 why }) (fun y => { y with busy := false, outcome := 2 })
        fun j => (State.modTx_tokens _ _ _ _ _ _ _).trans (noted 32 j)
      rw [if_pos hr, State.addTokens_fit _ hfit] at hu
      have hy : y = { k with busy := false, outcome := 2, nacks := BitVec.ofNat 16 (satPlus 16 k.nacks.toNat 1), reason := BitVec.ofNat 3 why } := by
        simp only [y]
        rw [hu, State.withTokens_tx, State.txEp_modTx_self, State.txEp_modTx_self]
        rfl
      rw [hy]
      refine ⟨fun h => absurd h (by decide), fun _ => ⟨rfl, rfl⟩, fun _ h => absurd hr h, fun _ _ => ⟨rfl, rfl⟩, ?_, ?_, ?_⟩
      · rw [hu, State.withTokens_tokens _ _ _ _ hfit, if_pos rfl, if_pos (Or.inr hr), State.modTx_tokens, State.modTx_tokens, noted]
      · rw [hu, State.withTokens_xfer, State.modTx, State.xfer_modTile, State.modTx, State.xfer_modTile]
        rfl
      · rw [hu]
        exact ⟨rfl, rfl, rfl, rfl, rfl, rfl⟩
    · rw [if_neg hr] at hu
      have hy : y = { k with nackAt := some s.now, nacks := BitVec.ofNat 16 (satPlus 16 k.nacks.toNat 1), reason := BitVec.ofNat 3 why } := by
        simp only [y]
        rw [hu, State.txEp_modTx_self, State.txEp_modTx_self]
        rfl
      rw [hy]
      refine ⟨fun h => absurd h (by decide), fun _ => ⟨rfl, rfl⟩, fun _ _ => ⟨rfl, rfl⟩, fun _ h => absurd h hr, ?_, ?_, ?_⟩
      · rw [hu, if_neg (by simp [hr]), State.modTx_tokens, State.modTx_tokens, noted, Nat.add_zero]
      · rw [hu, State.modTx, State.xfer_modTile, State.modTx, State.xfer_modTile]
        rfl
      · rw [hu]
        exact ⟨rfl, rfl, rfl, rfl, rfl, rfl⟩

/-- Settles O19: the acknowledgement leaves first, and what the endpoint answers spares the rest. -/
theorem messagesAndCombines : Obligations.MessagesAndCombines := by
  unfold Obligations.MessagesAndCombines
  refine ⟨fun s c id ep u k a x hm hacc ha hhere hord hway => ?_, fun s c id ep why ok x hm hhere ht => ?_, fun s c t ep a hsum ha ht => ?_⟩
  · intro r
    have hrun := exec_messageArrival_here hm hacc ha hhere hord
    have hz := s.departAck_routed c id u x (.endpoint c u k) x.tile hway
    generalize (s.noteOrder (.endpoint c u k) x.tile).departAck c id x u = z at hrun hz
    have hx : z.xfer c id = some x := (hz.xfer c id).trans (State.messageOf_xfer hm)
    dsimp only at hrun
    rw [hz.rxEp, hz.now] at hrun
    have hxfer : ∀ kind, sparesTiles c z (z.modXfer c id fun y => { y with kind := kind }) := fun kind => z.modXfer_spares id _
    have hregs : ∀ kind, (z.modXfer c id fun y => { y with kind := kind }).regs = s.regs := fun kind => (z.modXfer_rest c id _).1.trans hz.regs
    have hkind : ∀ kind, ((z.modXfer c id fun y => { y with kind := kind }).xfer c id).map (·.kind) = some kind := fun kind => State.modXfer_kind hx kind
    have hmem : ∀ kind, sameMemory s (z.modXfer c id fun y => { y with kind := kind }) := fun kind => hz.mem.trans (hxfer kind).core.mem
    have hrx : ∀ kind, (z.modXfer c id fun y => { y with kind := kind }).rxEp c u k = r := fun kind => ((hxfer kind).rxEp u k).trans (hz.rxEp c u k)
    have htok : ∀ kind j, (z.modXfer c id fun y => { y with kind := kind }).tokens c u j = s.tokens c u j := fun kind j =>
      ((hxfer kind).tokens u j).trans (hz.tokens c u j)
    have chan : ∀ (w : State) lo, (w.noteChan c u k true lo 1).rxEp c u k = w.rxEp c u k ∧ (w.noteChan c u k true lo 1).xfer c id = w.xfer c id
        ∧ (∀ j, (w.noteChan c u k true lo 1).tokens c u j = w.tokens c u j) ∧ (w.noteChan c u k true lo 1).regs = w.regs
        ∧ sameMemory w (w.noteChan c u k true lo 1) := fun w lo => ⟨rfl, rfl, fun _ => rfl, rfl, ⟨rfl, rfl, rfl, rfl, rfl, rfl⟩⟩
    refine ⟨fun why hj => ?_, fun hj hc ht => ?_, fun hj hc => ?_⟩
    · rw [hj] at hrun
      dsimp only at hrun
      have hkind := hkind (.ack ep false why)
      have hregs := hregs (.ack ep false why)
      have hmem := hmem (.ack ep false why)
      have hrx := hrx (.ack ep false why)
      generalize (z.modXfer c id fun y => { y with kind := .ack ep false why }) = y at hrun hkind hregs hmem hrx
      obtain ⟨c1, c2, -, c4, c5⟩ := chan (y.modRx c u k fun y =>
          { y with nacks := BitVec.ofNat 16 (satPlus 16 y.nacks.toNat 1), reason := BitVec.ofNat 3 why }) 32
      refine ⟨_, hrun, ?_, ?_, .of_regs (.refl _ s) (c4.trans hregs), (hmem.trans ⟨rfl, rfl, rfl, rfl, rfl, rfl⟩).trans c5⟩
      · rw [c1, State.rxEp_modRx_self, hrx]
      · rw [c2, State.modRx, State.xfer_modTile, hkind]
    · rw [hj] at hrun
      dsimp only at hrun
      have hkind := hkind (.ack ep true 0)
      have hregs := hregs (.ack ep true 0)
      have hrx := hrx (.ack ep true 0)
      have htok := htok (.ack ep true 0)
      generalize (z.modXfer c id fun y => { y with kind := .ack ep true 0 }) = y at hrun hkind hregs hrx htok
      obtain ⟨a1, a2, a3, a4⟩ := y.acceptMessage_recv (id := id) (x := x) (c := c) (u := u) (k := k) (by rw [hrx]; exact hc) (by rw [hrx, htok]; exact ht)
      obtain ⟨c1, c2, c3, c4, -⟩ := chan (y.acceptMessage c u k x) 0
      rw [hrx] at a1 a3
      refine ⟨_, hrun, c1.trans a1, ?_, ?_, .of_regs (.refl _ s) (c4.trans (a4.trans hregs))⟩
      · rw [c2, a2, hkind]
      · rw [c3, a3, htok]
    · rw [hj] at hrun
      dsimp only at hrun
      have hkind := hkind (.ack ep true 0)
      have hregs := hregs (.ack ep true 0)
      have hmem := hmem (.ack ep true 0)
      have hrx := hrx (.ack ep true 0)
      generalize (z.modXfer c id fun y => { y with kind := .ack ep true 0 }) = y at hrun hkind hregs hmem hrx
      obtain ⟨a1, a2, a3, a4, a5, a6⟩ := y.acceptMessage_combine (id := id) (x := x) (c := c) (u := u) (k := k) (by rw [hrx]; exact hc)
      obtain ⟨c1, c2, -, c4, c5⟩ := chan (y.acceptMessage c u k x) 0
      rw [hrx] at a1 a2 a3
      refine ⟨_, hrun, ?_, ?_, ?_, ?_, .of_regs (.refl _ s) (c4.trans (a5.trans hregs)), (hmem.trans a6).trans c5⟩
      · rw [c1, a1]
      · rw [c1, a2]
      · rw [c1, a3]
      · rw [c2, a4, hkind]
  · intro k
    have hrun : exec (.ackArrival c id) s = .next ((((s.countLate c x).dropXfer c id).messageOutcome c x.tile ep ok why).refreshPromise c) := by
      rw [exec_ackArrival, execAckArrival, hm]
      dsimp only
      rw [if_neg (by rw [hhere]; decide)]
    have hover : sparesTiles c s ((s.countLate c x).dropXfer c id) := (s.countLate_spares c x).trans (State.dropXfer_spares _ id)
    have hgone : ((s.countLate c x).dropXfer c id).xfer c id = none := State.xfer_dropXfer _ id
    generalize (s.countLate c x).dropXfer c id = z at hover hgone hrun
    have hk : z.txEp c x.tile ep = k := hover.txEp x.tile ep
    obtain ⟨h1, h2, h3, h4, h5, h6, h7⟩ := z.messageOutcome_spec (id := id) (c := c) (t := x.tile) (ep := ep) (why := why) ok (by rw [hk, hover.tokens]; exact ht)
    rw [hk] at h1 h2 h3 h4 h5
    generalize z.messageOutcome c x.tile ep ok why = w at hrun h1 h2 h3 h4 h5 h6 h7
    have hlast := State.refreshPromise_spares (c := c) w
    refine ⟨_, hrun, ?_⟩
    dsimp only
    rw [hlast.txEp, hlast.tokens, h5, hover.tokens]
    rw [hover.now] at h3
    exact ⟨State.xfer_refreshPromise_none (h6.trans hgone), h1, h2, h3, h4, rfl, (hover.core.mem.trans h7).trans hlast.core.mem⟩
  · generalize hr : s.rxEp c t ep = r at ht hsum
    have hrun : exec (.combineSum c t ep) s = .next (((s.padWrite (s.padBase c t) (r.dstLine * 64) r.sum.1 r.sum.2).modRx c t ep fun y =>
        { y with armed := false, combine := false, got := [], sumAt := none }).addTokens c t r.ctr 1) := by
      rw [exec_combineSum, execCombineSum, hr]
      dsimp only
      rw [hsum]
      dsimp only
      rw [if_neg (by omega)]
    have hpad := s.padWrite_only (s.padBase c t) (r.dstLine * 64) r.sum.1 r.sum.2
    have hbyte : ∀ i, i < r.sum.1.length → r.dstLine * 64 + i < padSize →
        (s.padWrite (s.padBase c t) (r.dstLine * 64) r.sum.1 r.sum.2).padByte (s.padBase c t) (r.dstLine * 64 + i) = r.sum.1.getD i 0 := fun i hi ho => by
      rw [State.padByte_padWrite _ _ _ _ _ ho, if_pos (by omega), Nat.add_sub_cancel_left]
    generalize s.padWrite (s.padBase c t) (r.dstLine * 64) r.sum.1 r.sum.2 = z at hrun hpad hbyte
    generalize hf : (fun y : RxEp => { y with armed := false, combine := false, got := [], sumAt := none }) = f at hrun
    have hfit : (z.modRx c t ep f).tokens c t r.ctr + 1 ≤ 65535 := by
      rw [State.modRx_tokens, hpad.tokens]
      omega
    rw [State.addTokens_fit _ hfit] at hrun
    refine ⟨_, hrun, ?_, ?_, hbyte, fun v hv => ?_, .of_regs (.refl _ s) hpad.regs, (congrArg State.mem hpad :), (congrArg State.cache hpad :)⟩
    · rw [State.withTokens_rx, State.rxEp_modRx_self, hpad.rxEp, hr, ← hf]
    · rw [State.withTokens_tokens _ _ _ _ hfit, if_pos rfl, State.modRx_tokens, hpad.tokens]
    · rw [State.withTokens_tile _ _ _ _ _ hv, State.modRx, State.tile_modTile, if_neg fun e => hv e.2, hpad.keeps.tile]

end Sys2Proof.Machine
end

section
/-! SUPPORT. The queue block: words, packets, freed space and flushes (R175 to R187). -/

namespace Sys2Proof.Machine

/-! ## Queues -/

section
variable (s : State) (c l : Nat)

theorem State.queue_modQueue (f : Queue → Queue) (j : Nat) : (s.modQueue c l f).queue c j = if j = l then f (s.queue c l) else s.queue c j := by
  rw [State.modQueue, State.modCtx_eq, State.queue, State.ctx_setCtx_self]
  simp only [Table.getD_put]
  rfl

theorem State.queue_modQueue_self (f : Queue → Queue) : (s.modQueue c l f).queue c l = f (s.queue c l) := by rw [State.queue_modQueue, if_pos rfl]

theorem State.queue_modQueue_ne (f : Queue → Queue) {j : Nat} (h : j ≠ l) : (s.modQueue c l f).queue c j = s.queue c j := by
  rw [State.queue_modQueue, if_neg h]

theorem State.xfer_modQueue (f : Queue → Queue) (id : Nat) : (s.modQueue c l f).xfer c id = s.xfer c id := by
  rw [State.modQueue, State.modCtx_eq, State.xfer, State.ctx_setCtx_self, State.xfer]

theorem State.queue_dropXfer (id j : Nat) : (s.dropXfer c id).queue c j = s.queue c j := by
  rw [State.dropXfer, State.modCtx_eq, State.queue, State.ctx_setCtx_self, State.queue]

theorem State.queue_wf (a hi lo v j : Nat) : (s.wf a hi lo v).queue c j = s.queue c j := rfl

theorem State.queue_modXfer (id : Nat) (f : Xfer → Xfer) (j : Nat) : (s.modXfer c id f).queue c j = s.queue c j := by
  unfold State.modXfer
  split
  · rfl
  · rw [State.modCtx_eq, State.queue, State.ctx_setCtx_self, State.queue]

end

/-- Of queue `l` of context `c`, only its flow state differs between two states, and no register, transfer or byte. -/
structure FlowOnly (c l : Nat) (s u : State) : Prop where
  queue : ∃ off offAt on, u.queue c l = { s.queue c l with off := off, offAt := offAt, turnedOnAt := on }
  others : ∀ j, j ≠ l → u.queue c j = s.queue c j
  xfer : ∀ id, u.xfer c id = s.xfer c id
  regs : u.regs = s.regs
  mem : sameMemory s u

theorem FlowOnly.refl (c l : Nat) (s : State) : FlowOnly c l s s :=
  ⟨⟨_, _, _, rfl⟩, fun _ _ => rfl, fun _ => rfl, rfl, ⟨rfl, rfl, rfl, rfl, rfl, rfl⟩⟩

/-- A LINKCTL frame is queued at its link, and nothing else changes. -/
theorem State.sendLinkctl_only (s : State) (k : Nat) : s.sendLinkctl k none = { s with links := (s.sendLinkctl k none).links } := rfl

theorem State.flowUpdate_only (s : State) (c l : Nat) : FlowOnly c l s (s.flowUpdate c l) := by
  unfold State.flowUpdate
  split
  · exact .refl c l s
  next e _ =>
    dsimp only
    split
    · exact .refl c l s
    · have hflow : FlowOnly c l s (s.modQueue c l fun q =>
          if (s.queue c l).flow e then { q with off := true, offAt := s.now } else { q with off := false, turnedOnAt := some s.now }) := by
        refine ⟨?_, fun j hj => s.queue_modQueue_ne c l _ hj, s.xfer_modQueue c l _, rfl, ⟨rfl, rfl, rfl, rfl, rfl, rfl⟩⟩
        rw [State.queue_modQueue_self]
        split
        · exact ⟨_, _, _, rfl⟩
        · exact ⟨_, _, _, rfl⟩
      generalize (s.modQueue c l fun q =>
          if (s.queue c l).flow e then { q with off := true, offAt := s.now } else { q with off := false, turnedOnAt := some s.now }) = z at hflow
      split
      · exact hflow
      · rw [State.sendLinkctl_only]
        exact ⟨hflow.queue, hflow.others, hflow.xfer, hflow.regs, hflow.mem⟩

theorem FlowOnly.packets {c l : Nat} {s u : State} (h : FlowOnly c l s u) : (u.queue c l).packets = (s.queue c l).packets := by
  obtain ⟨_, _, _, hq⟩ := h.queue
  rw [hq]

theorem FlowOnly.stored {c l : Nat} {s u : State} (h : FlowOnly c l s u) : (u.queue c l).stored = (s.queue c l).stored := by
  obtain ⟨_, _, _, hq⟩ := h.queue
  rw [hq]
  rfl

theorem FlowOnly.reg {c l : Nat} {s u : State} (h : FlowOnly c l s u) (a : Nat) : u.reg a = s.reg a := by rw [State.reg, h.regs, State.reg]

theorem FlowOnly.reads {c l : Nat} {s u : State} (h : FlowOnly c l s u) : (u.queue c l).reads = (s.queue c l).reads := by
  obtain ⟨_, _, _, hq⟩ := h.queue
  rw [hq]

/-! ## Words -/

/-- A word taken by a queue that is not full: one word more is stored, and no packet is counted yet (R175, R181). -/
theorem State.writeWord_taken (s : State) {c l : Nat} {e : StageLink} (w : QWord) (mb ver : BitVec 16) (ht : (s.queue c l).tail = false)
    (hf : (s.queue c l).full e = false) :
    let u := s.writeWord c l e w mb ver
    (u.queue c l).stored = (s.queue c l).stored + 1 ∧ (u.queue c l).packets = (s.queue c l).packets ∧ (∀ id, u.xfer c id = s.xfer c id)
      ∧ (∀ j, j ≠ l → u.queue c j = s.queue c j) ∧ sameMemory s u := by
  intro u
  obtain ⟨f, hf, hu⟩ : ∃ f : Queue → Queue, (∀ q, (f q).stored = q.stored + 1 ∧ (f q).packets = q.packets) ∧ u = (s.modQueue c l f).flowUpdate c l := by
    refine ⟨fun q =>
      if w.last then
        { q with
          written := q.written ++ [⟨q.partialWords ++ [{ w with at_ := s.now }], if q.partialWords = [] then mb else q.partialMb,
            if q.partialWords = [] then ver else q.partialVer⟩]
          partialWords := []
          enteredAt := some s.now }
      else { q with partialWords := q.partialWords ++ [{ w with at_ := s.now }], partialMb := mb, partialVer := ver }, fun q => ?_, ?_⟩
    · dsimp only
      split
      · refine ⟨?_, rfl⟩
        simp [Queue.stored, pktWords]
        omega
      · refine ⟨?_, rfl⟩
        simp [Queue.stored, pktWords]
        omega
    · unfold u State.writeWord
      dsimp only
      rw [if_neg (by rw [ht]; decide), if_neg (by rw [hf]; decide)]
  have hflow := (s.modQueue c l f).flowUpdate_only c l
  rw [← hu] at hflow
  obtain ⟨hs, hp⟩ := hf (s.queue c l)
  refine ⟨?_, ?_, fun id => (hflow.xfer id).trans (s.xfer_modQueue c l f id), fun j hj => (hflow.others j hj).trans (s.queue_modQueue_ne c l f hj), hflow.mem⟩
  · rw [hflow.stored, State.queue_modQueue_self, hs]
  · rw [hflow.packets, State.queue_modQueue_self, hp]

/-- A word for a full queue is an overrun (R181). -/
theorem State.writeWord_overrun (s : State) {c l : Nat} {e : StageLink} (w : QWord) (mb ver : BitVec 16) (ht : (s.queue c l).tail = false)
    (hf : (s.queue c l).full e = true) :
    s.writeWord c l e w mb ver = (s.modQueue c l fun q => { q with overrun := true }).ctxFault c 6 := by
  unfold State.writeWord
  dsimp only
  rw [if_neg (by rw [ht]; decide), if_pos hf]

theorem State.detect_mem (s : State) (f : PendFault) : f ∈ (s.detect f).cycle.faults := by
  unfold State.detect
  split
  · assumption
  · simp

theorem State.detect_rest (s : State) (f : PendFault) :
    (∀ c j, (s.detect f).queue c j = s.queue c j) ∧ (s.detect f).regs = s.regs ∧ sameMemory s (s.detect f) := by
  unfold State.detect
  split
  · exact ⟨fun _ _ => rfl, rfl, ⟨rfl, rfl, rfl, rfl, rfl, rfl⟩⟩
  · exact ⟨fun _ _ => rfl, rfl, ⟨rfl, rfl, rfl, rfl, rfl, rfl⟩⟩

theorem State.pusher_xfer {s : State} {c l id len mb ver : Nat} {x : Xfer} (h : s.pusher c l = some (id, x, len, mb, ver)) : s.xfer c id = some x := by
  unfold State.pusher at h
  obtain ⟨j, -, hj⟩ := List.exists_of_findSome?_eq_some h
  cases hx : s.xfer c j with
  | none => rw [hx] at hj; exact absurd hj (by simp)
  | some y =>
    rw [hx, Option.bind_some] at hj
    split at hj
    · split at hj
      · simp only [Option.some.injEq, Prod.mk.injEq] at hj
        obtain ⟨rfl, rfl, -⟩ := hj
        exact hx
      · exact absurd hj (by simp)
    · exact absurd hj (by simp)

theorem exec_queueWordWrite_next {s : State} {c l id len mb ver : Nat} {x : Xfer} {e : StageLink} (hp : s.pusher c l = some (id, x, len, mb, ver))
    (he : Table.get? (s.ctx c).links l = some e) (ht : (s.queue c l).tail = false) (hm : s.mayEnter c l x = true) (hw : s.onWay c id (x.words / 64) = false)
    (hl : x.words / 64 ∉ x.lost) :
    exec (.queueWordWrite c l id) s = .next ((s.modXfer c id fun y => { y with words := y.words + 1 }).writeWord c l e (x.word len x.words)
      (BitVec.ofNat 16 mb) (BitVec.ofNat 16 ver)) := by
  rw [exec_queueWordWrite, execQueueWordWrite, hp, he]
  dsimp only
  rw [if_pos ⟨rfl, hm, by rw [hw]; decide, hl⟩, if_neg (by rw [ht]; simp)]

/-! ## Flushes -/

/-- Transfers dropped one after another. -/
theorem State.dropAll_spec (s : State) (c : Nat) (ids : List Nat) :
    let u := forAll ids (fun id t => t.dropXfer c id) s
    (∀ j, u.queue c j = s.queue c j) ∧ u.regs = s.regs ∧ sameMemory s u := by
  refine forAll_induct (P := fun u => (∀ j, u.queue c j = s.queue c j) ∧ u.regs = s.regs ∧ sameMemory s u) (fun id t h => ?_) ids
    ⟨fun _ => rfl, rfl, ⟨rfl, rfl, rfl, rfl, rfl, rfl⟩⟩
  obtain ⟨h1, h2, h3⟩ := h
  exact ⟨fun j => (t.queue_dropXfer c id j).trans (h1 j), h2, h3⟩

/-- A flush empties the queue and leaves its status (R186, R187). -/
theorem State.flushQueue_spec (s : State) (c l : Nat) :
    let u := s.flushQueue c l
    (∃ q, u.queue c l = q ∧ q.packets = [] ∧ q.written = [] ∧ q.partialWords = [] ∧ q.reads = [] ∧ q.overrun = false)
      ∧ (∀ j, j ≠ l → u.queue c j = s.queue c j) ∧ sameMemory s u
      ∧ u.reg (ctxA c Off.CTX_QFLUSH_STS) = ins (ins (ins (s.reg (ctxA c Off.CTX_QFLUSH_STS)) 31 0 (min (s.queue c l).stored (2 ^ 32 - 1))) 41 32 l)
          42 42 (b2n !(s.queue c l).flushed.tail) := by
  intro u
  obtain ⟨h1, h2, h3⟩ := (s.modQueue c l fun q => { q.flushed with order := q.order.filter fun id => id ∉ s.uncounted c l }).dropAll_spec c (s.uncounted c l)
  have hu : u = ((((forAll (s.uncounted c l) (fun id t => t.dropXfer c id)
      (s.modQueue c l fun q => { q.flushed with order := q.order.filter fun id => id ∉ s.uncounted c l })).wf (ctxA c Off.CTX_QFLUSH_STS) 31 0
        (min (s.queue c l).stored (2 ^ 32 - 1))).wf (ctxA c Off.CTX_QFLUSH_STS) 41 32 l).wf (ctxA c Off.CTX_QFLUSH_STS) 42 42
          (b2n !(s.queue c l).flushed.tail)).flowUpdate c l := rfl
  generalize forAll (s.uncounted c l) (fun id t => t.dropXfer c id)
      (s.modQueue c l fun q => { q.flushed with order := q.order.filter fun id => id ∉ s.uncounted c l }) = z at h1 h2 h3 hu
  have hflow := (((z.wf (ctxA c Off.CTX_QFLUSH_STS) 31 0 (min (s.queue c l).stored (2 ^ 32 - 1))).wf (ctxA c Off.CTX_QFLUSH_STS) 41 32 l).wf
    (ctxA c Off.CTX_QFLUSH_STS) 42 42 (b2n !(s.queue c l).flushed.tail)).flowUpdate_only c l
  rw [← hu] at hflow
  obtain ⟨off, offAt, on, hq⟩ := hflow.queue
  have hzq : z.queue c l = { (s.queue c l).flushed with order := (s.queue c l).order.filter fun id => id ∉ s.uncounted c l } :=
    (h1 l).trans (s.queue_modQueue_self c l _)
  rw [State.queue_wf, State.queue_wf, State.queue_wf, hzq] at hq
  refine ⟨⟨_, hq, rfl, rfl, rfl, rfl, rfl⟩, fun j hj => ?_, ?_, ?_⟩
  · rw [hflow.others j hj, State.queue_wf, State.queue_wf, State.queue_wf]
    exact (h1 j).trans (s.queue_modQueue_ne c l _ hj)
  · exact (((s.modQueue_spares (c := c) l _).core.mem.trans h3).trans
      (((onlyRegs.wf _ _ _ _ _).trans (onlyRegs.wf _ _ _ _ _)).trans (onlyRegs.wf _ _ _ _ _)).core.mem).trans hflow.mem
  · have hregs : z.reg (ctxA c Off.CTX_QFLUSH_STS) = s.reg (ctxA c Off.CTX_QFLUSH_STS) := by
      have hz : z.regs = s.regs := h2
      rw [State.reg, hz, State.reg]
    rw [hflow.reg, State.wf_eq, State.reg_setReg_self, State.wf_eq, State.reg_setReg_self, State.wf_eq, State.reg_setReg_self, hregs]

theorem qflush_reg : CtxReg Off.CTX_QFLUSH := ⟨by decide, by decide, by decide +kernel⟩

theorem State.write8_qflush {s : State} {src : HostSrc} {c l : Nat} (hc : c < 1024) (hl : l < 1024) (hw : WriteReaches s src (ctxA c Off.CTX_QFLUSH)) :
    s.write8 src (ctxA c Off.CTX_QFLUSH) (field 0 (l % 1024) ||| field 10 1) = (s.countVf src .eight).writeFlush c l := by
  obtain ⟨r, -, hr⟩ := qflush_reg.write (field 0 (l % 1024) ||| field 10 1) hc hw
  have hgo : fld (field 0 (l % 1024) ||| field 10 1) 10 10 = 1 := by
    rw [BitVec.or_comm, fld, field_or_toNat (by omega) (by decide) (by decide), bits]
    omega
  have hlink : fld (field 0 (l % 1024) ||| field 10 1) 9 0 = l := by
    rw [BitVec.or_comm, fld, field_or_toNat (by omega) (by decide) (by decide), bits]
    omega
  rw [hr]
  unfold State.writeCtx
  simp only [offOf_ctxA qflush_reg.low, ctxOf_ctxA qflush_reg.low]
  rw [if_neg (by decide), if_neg (by decide), if_neg (by decide), if_pos trivial, if_pos hgo, hlink]

/-- Settles O20: words, packets and freed space change their queue alone; a flush leaves its status behind. -/
theorem queueBlockKeepsPacketsInOrder : Obligations.QueueBlockKeepsPacketsInOrder := by
  unfold Obligations.QueueBlockKeepsPacketsInOrder
  refine ⟨⟨fun s c l id len mb ver x e hp he ht hm hw hl => ?_, fun s c l p r e hwr he htok hcross => ?_, fun s c l => ?_⟩, fun s src c l hc hl hw => ?_⟩
  · have hrun := exec_queueWordWrite_next hp he ht hm hw hl
    have hx := State.xfer_modXfer_self (State.pusher_xfer hp) fun y => { y with words := y.words + 1 }
    have hq := s.queue_modXfer c id fun y => { y with words := y.words + 1 }
    have hover := (s.modXfer_spares (c := c) id fun y => { y with words := y.words + 1 })
    have hregs := (s.modXfer_rest c id fun y => { y with words := y.words + 1 }).1
    generalize (s.modXfer c id fun y => { y with words := y.words + 1 }) = z at hrun hx hq hover hregs
    refine ⟨fun hf => ?_, fun hf => ?_⟩
    · obtain ⟨h1, h2, h3, h4, h5⟩ := z.writeWord_taken (c := c) (l := l) (e := e) (x.word len x.words) (BitVec.ofNat 16 mb) (BitVec.ofNat 16 ver) (by rw [hq]; exact ht)
        (by rw [hq]; exact hf)
      rw [hq] at h1 h2
      refine ⟨_, hrun, h1, h2, ?_, fun j hj => (h4 j hj).trans (hq j), hover.core.mem.trans h5⟩
      rw [h3, hx]
      rfl
    · rw [z.writeWord_overrun _ _ _ (by rw [hq]; exact ht) (by rw [hq]; exact hf)] at hrun
      obtain ⟨d1, d2, d3⟩ := (z.modQueue c l fun q => { q with overrun := true }).detect_rest ⟨c, 6, none⟩
      refine ⟨_, hrun, State.detect_mem _ _, ?_, .of_regs (.refl _ s) (d2.trans hregs), (hover.core.mem.trans (z.modQueue_spares l _).core.mem).trans d3⟩
      rw [State.ctxFault, d1, State.queue_modQueue_self, hq]
  · have hrun : exec (.packetArrival c l) s = .next ((if e.txEn then (s.modQueue c l fun q => { q with packets := q.packets ++ [p], written := r }).countPush c l
        else s.modQueue c l fun q => { q with packets := q.packets ++ [p], written := r }).addTokens c e.arrTile e.arrCtr 1) := by
      rw [exec_packetArrival, execPacketArrival, hwr, he]
      dsimp only
      rw [if_neg (by omega)]
    have hover : sparesTiles c s (s.modQueue c l fun q => { q with packets := q.packets ++ [p], written := r }) := s.modQueue_spares l _
    have hq := s.queue_modQueue c l fun q => { q with packets := q.packets ++ [p], written := r }
    have hregs : (s.modQueue c l fun q => { q with packets := q.packets ++ [p], written := r }).regs = s.regs := rfl
    generalize (s.modQueue c l fun q => { q with packets := q.packets ++ [p], written := r }) = z at hrun hover hq hregs
    have hz2 : ∃ y, y = (if e.txEn then z.countPush c l else z) ∧ sparesTiles c z y ∧ (∀ j, y.queue c j = z.queue c j) ∧ y.regs = z.regs := by
      refine ⟨_, rfl, ?_⟩
      unfold State.countPush
      split
      · split
        · exact ⟨.refl z, fun _ => rfl, rfl⟩
        · exact ⟨z.modXfer_spares _ _, z.queue_modXfer c _ _, (z.modXfer_rest c _ _).1⟩
      · exact ⟨.refl z, fun _ => rfl, rfl⟩
    obtain ⟨y, hy, hyover, hyq, hyregs⟩ := hz2
    rw [← hy] at hrun
    have hfit : y.tokens c e.arrTile e.arrCtr + 1 ≤ 65535 := by
      rw [hyover.tokens, hover.tokens]
      omega
    rw [y.addTokens_fit hfit] at hrun
    have hlast : ∀ j, (y.withTokens c e.arrTile e.arrCtr 1).queue c j = y.queue c j := fun j => by
      rw [State.withTokens, State.modTile, State.modCtx_eq, State.queue, State.ctx_setCtx_self]
      rfl
    refine ⟨_, hrun, ?_, ?_, ?_, fun j hj => ?_, .of_regs (.refl _ s) (hyregs.trans hregs), ((hover.core.trans hyover.core).trans (y.withTokens_core _ _ _ _)).mem⟩
    · rw [hlast, hyq, hq, if_pos rfl]
    · rw [hlast, hyq, hq, if_pos rfl]
    · rw [State.withTokens_tokens _ _ _ _ hfit, if_pos rfl, hyover.tokens, hover.tokens]
    · rw [hlast, hyq, hq, if_neg hj]
  · have hflow := (s.modQueue c l fun q => { q with reads := q.reads.filter fun r => s.now < s.crossedFrom r.1 }).flowUpdate_only c l
    refine ⟨_, rfl, ?_, ?_, fun j hj => (hflow.others j hj).trans (s.queue_modQueue_ne c l _ hj), hflow.mem⟩
    · rw [hflow.reads, State.queue_modQueue_self]
    · rw [hflow.packets, State.queue_modQueue_self]
  · have hrun : exec (.queueFlush src c l) s = .next ((s.countVf src .eight).writeFlush c l) := by
      rw [exec_queueFlush, execQueueFlush, State.write8_qflush hc hl hw]
    have hctx := s.countVf_ctx src c
    have hcf : ∀ hi lo, (s.countVf src .eight).cf c Off.CTX_QFLUSH_STS hi lo = s.cf c Off.CTX_QFLUSH_STS hi lo := s.countVf_cf src c (by decide) (by decide)
    have hz := (s.countVf_frame src).1.core.mem
    have wrote : ∀ {l : List Nat} {u : State}, onlyRegs (s.countVf src .eight) u → sameRegsBut l (s.countVf src .eight) u → wroteRegs src l s u :=
      fun h1 h2 => wroteRegs.step h1 h2
    generalize s.countVf src .eight = z at hrun hctx hcf hz wrote
    have hqz : ∀ j, z.queue c j = s.queue c j := fun j => by rw [State.queue, hctx, State.queue]
    refine ⟨fun hidle => ?_, fun hrunning => ?_⟩
    · rw [State.writeFlush, if_neg (by rw [hctx, hidle]; decide)] at hrun
      obtain ⟨⟨q, hq, h1, h2, h3, h4, h5⟩, hothers, hmem, hreg⟩ := (z.cw c Off.CTX_QFLUSH_STS 43 43 0).flushQueue_spec c l
      have hqw : ∀ j, (z.cw c Off.CTX_QFLUSH_STS 43 43 0).queue c j = s.queue c j := fun j => by rw [State.cw_eq, State.queue_wf, hqz]
      rw [hqw] at hreg
      refine ⟨_, hrun, ?_⟩
      dsimp only
      rw [hq]
      refine ⟨h1, h2, h3, h4, h5, fun j hj => (hothers j hj).trans (hqw j), ?_, ?_, ?_, ?_, (hz.trans (onlyRegs.wf z _ _ _ _).core.mem).trans hmem⟩
      all_goals rw [State.cf_eq, State.rf_eq, hreg]
      · rw [fld_ins_below _ 42 42 _ 31 0 (by decide) (by decide) (by decide) (by decide), fld_ins_below _ 41 32 _ 31 0 (by decide) (by decide) (by decide) (by decide),
          fld_ins_self _ 31 0 _ (by decide) (by decide)]
        omega
      · rw [fld_ins_below _ 42 42 _ 41 32 (by decide) (by decide) (by decide) (by decide), fld_ins_self _ 41 32 _ (by decide) (by decide)]
        omega
      · rw [fld_ins_self _ 42 42 _ (by decide) (by decide)]
        cases (s.queue c l).flushed.tail <;> rfl
      · rw [fld_ins_above _ 42 42 _ 43 43 (by decide) (by decide) (by decide), fld_ins_above _ 41 32 _ 43 43 (by decide) (by decide) (by decide),
          fld_ins_above _ 31 0 _ 43 43 (by decide) (by decide) (by decide), State.cw_eq, State.wf_eq, State.reg_setReg_self, fld_ins_self _ 43 43 _ (by decide) (by decide)]
        decide
    · rw [State.writeFlush, if_pos (by rw [hctx]; exact hrunning)] at hrun
      refine ⟨_, hrun, State.rf_wf_self _ _ 43 43 _ (by decide) (by decide), ?_,
        wrote (onlyRegs.wf _ _ _ _ _) (sameRegsBut.wf (.refl [ctxA c Off.CTX_QFLUSH_STS] z) List.mem_cons_self 43 43 1)⟩
      rw [State.cw_eq, State.cf_eq, State.rf_wf_below _ _ 43 43 _ 42 0 (by decide) (by decide) (by decide) (by decide), ← hcf, State.cf_eq]

end Sys2Proof.Machine
end

section
/-! SUPPORT. Host writes that store, that a lock refuses, and that only count (R9, R426, R428, R430, R431, R444). -/

namespace Sys2Proof.Machine

/-! ## The path of a write of any size -/

/-- What counting an access of any size changes. -/
theorem State.countVf_frame_any (s : State) (src : HostSrc) (size : AccSize) :
    onlyRegs s (s.countVf src size) ∧ sameRegsBut (pcieOf src) s (s.countVf src size) := by
  have kept : onlyRegs s s ∧ sameRegsBut (pcieOf src) s s := ⟨rfl, .refl _ s⟩
  have counted : ∀ b n k, src = .vf b n → onlyRegs s (s.cWrap n Off.CTX_BYTES_PCIE 63 0 k) ∧ sameRegsBut (pcieOf src) s (s.cWrap n Off.CTX_BYTES_PCIE 63 0 k) := by
    rintro b n k rfl
    exact ⟨rfl, (sameRegsBut.refl _ s).wf List.mem_cons_self _ _ _⟩
  cases src with
  | pf b => exact kept
  | mgmt => exact kept
  | vf b n =>
    cases size with
    | eight => exact counted b n 8 rfl
    | low => exact counted b n 4 rfl
    | high => exact counted b n 4 rfl
    | bad => exact kept

theorem State.reg_countVf_any (s : State) (src : HostSrc) (size : AccSize) {a : Nat} (h : a % 2 ^ 12 ≠ Off.CTX_BYTES_PCIE) :
    (s.countVf src size).reg a = s.reg a := by
  refine (s.countVf_frame_any src size).2 a ?_
  cases src with
  | pf b => exact List.not_mem_nil
  | mgmt => exact List.not_mem_nil
  | vf b n =>
    have hne : homeAddr a ≠ homeAddr (ctxA n Off.CTX_BYTES_PCIE) := homeAddr_ne_of_mod (by rwa [ctxA_mod n (by decide)])
    simpa [pcieOf] using hne

theorem wroteRegs.after {src : HostSrc} {size : AccSize} {l : List Nat} {s u : State} (h : onlyRegs (s.countVf src size) u)
    (hr : sameRegsBut l (s.countVf src size) u) : wroteRegs src l s u := by
  obtain ⟨c1, c2⟩ := s.countVf_frame_any src size
  exact ⟨c1.trans h, c2.trans hr⟩

theorem exec_registerWrite_now {s : State} (src : HostSrc) (a : Nat) (size : AccSize) (v : Word) (h : s.cycle.issued = false) :
    exec (.registerWrite src a size v) s = .next (s.hostWriteNow src a (if a % 8 = 0 then size else .bad) v) := by
  rw [exec_registerWrite, execRegisterWrite, State.hostWrite, h]
  rfl

/-- A write of a size that R428 accepts, to a page that is ready. -/
theorem exec_registerWrite_reaches {s : State} {src : HostSrc} {a : Nat} {k : PageKind} {size : AccSize} (v : Word) (hw : WriteReaches s src a)
    (hk : pageOf a = some k) (hg : k ≠ .guest) (ha : a % 8 = 0) (hsize : size ≠ .bad) :
    exec (.registerWrite src a size v) s = .next ((s.countVf src size).pageWrite src a size v) := by
  obtain ⟨h0, h1, h2, h3, h4⟩ := hw
  rw [exec_registerWrite_now src a size v h0, if_pos ha]
  unfold State.hostWriteNow
  rw [if_neg (by rw [h1, h2]; decide), hk]
  cases k <;> simp_all

/-! ## Registers that store -/

theorem ins_whole (w v : Word) : ins w 63 0 (fld v 63 0) = v := by
  have hf : fld v 63 0 = v.toNat := by
    rw [fld, bits, pow_zero, Nat.div_one]
    exact Nat.mod_eq_of_lt v.isLt
  apply BitVec.eq_of_toNat_eq
  have h := fld_ins_self w 63 0 (fld v 63 0) (by decide) (by decide)
  rw [fld, bits, pow_zero, Nat.div_one, Nat.mod_eq_of_lt (ins w 63 0 (fld v 63 0)).isLt, hf] at h
  rw [hf, h]
  exact Nat.mod_eq_of_lt v.isLt

theorem and_zero_word (w : Word) : w &&& 0 = 0 := by simp

theorem zero_and_word (w : Word) : 0 &&& w = 0 := by simp

theorem or_zero_word (w : Word) : w ||| 0 = w := by simp

/-- A register of one field that takes a whole word. -/
def RegDef.Whole (r : RegDef) (acc : Access) : Prop := ∃ n, r.fields = [⟨63, 0, acc, n⟩]

theorem RegDef.Whole.plain {r : RegDef} {acc : Access} (h : r.Whole acc) (hacc : acc = .rw ∨ acc = .wos) (s : State) (a : Nat) (v : Word) :
    s.plainWrite a r v = s.setReg a v := by
  obtain ⟨n, hf⟩ := h
  have hbits : statusBits r = 0 ∧ w1sBits r = 0 := by
    unfold statusBits w1sBits forAll
    rw [hf]
    rcases hacc with rfl | rfl <;> exact ⟨rfl, rfl⟩
  have hstore : storeWord r (s.reg a) v = v := by
    unfold storeWord forAll
    rw [hf]
    rcases hacc with rfl | rfl <;> exact ins_whole _ v
  unfold State.plainWrite State.stored
  dsimp only
  rw [hbits.1, hbits.2, hstore, and_zero_word, or_zero_word, zero_and_word, if_pos rfl]

/-- The scratch register of a page or of a window. -/
structure ScratchReg (a : Nat) (k : PageKind) : Prop where
  page : pageOf a = some k
  own : k ≠ .guest
  off : offOf a = Off.PG_SCRATCH
  mod : a % 2 ^ 12 = Off.PG_SCRATCH
  defined : ∃ r, regAt a = some r ∧ r.Whole .rw

theorem scratch_defined (k : PageKind) (h : k ≠ .guest) : ∃ r, findReg (pageRegs k) Off.PG_SCRATCH = some r ∧ r.Whole .rw := by
  cases k with
  | guest => exact absurd rfl h
  | _ => exact ⟨_, rfl, _, rfl⟩

theorem scratchReg_bar0 {die block : Nat} {k : PageKind} (hd : die < 64) (hb : block < 64) (hk : pageAt die block = some k) (hg : k ≠ .guest) :
    ScratchReg (bar0 die block Off.PG_SCRATCH) k := by
  refine ⟨(pageOf_bar0 hd hb (by decide)).trans hk, hg, offOf_bar0 hd hb (by decide), bar0_mod die block (by decide), ?_⟩
  obtain ⟨r, hr, hw⟩ := scratch_defined k hg
  exact ⟨r, by rw [regAt_bar0 hd hb (by decide), hk, Option.bind_some, hr], hw⟩

theorem scratchReg_ctxA {c : Nat} (hc : c < 1024) : ScratchReg (ctxA c Off.PG_SCRATCH) .ctx := by
  refine ⟨pageOf_ctxA hc (by decide), by decide, offOf_ctxA (by decide), ctxA_mod c (by decide), ?_⟩
  obtain ⟨r, hr, hw⟩ := scratch_defined .ctx (by decide)
  exact ⟨r, (regAt_ctxA hc (by decide)).trans hr, hw⟩

/-- The word that a write of part of a register which reads as `cur` acts as. -/
def halfWord (cur v : Word) (size : AccSize) : Word :=
  match size with
  | .low => ins cur 31 0 (fld v 31 0)
  | .high => ins cur 63 32 (fld v 31 0)
  | .eight | .bad => v

theorem RegDef.Whole.merge {r : RegDef} (h : r.Whole .rw) (cur v : Word) (size : AccSize) : mergeWord r cur v size = halfWord cur v size := by
  obtain ⟨n, hf⟩ := h
  have hkeep : ins (0 : Word) 63 0 (fld cur 63 0) = cur := ins_whole 0 cur
  unfold mergeWord forAll
  rw [hf]
  simp only [List.foldl_cons, List.foldl_nil, hkeep]
  rfl

/-- A scratch register takes what is written. -/
theorem ScratchReg.pageWrite {a : Nat} {k : PageKind} (h : ScratchReg a k) (s : State) (src : HostSrc) (size : AccSize) (v : Word) :
    s.pageWrite src a size v = s.setReg a (halfWord (s.reg a) v size) := by
  obtain ⟨r, hr, hwhole⟩ := h.defined
  have hview : s.view a (s.srcPort src) = s.reg a := by
    unfold State.view State.viewHdr
    rw [h.page, hr, h.off]
    cases k <;> rfl
  have hhdr : ∀ w, s.writeHdr k a r w = s.plainWrite a r w := fun w => by
    unfold State.writeHdr
    rw [h.off]
    cases k <;> rfl
  have hfree : ∀ w, s.violates a r size w = false := fun w => by
    obtain ⟨n, hf⟩ := hwhole
    unfold State.violates State.lockedField
    rw [hf]
    simp
  unfold State.pageWrite
  rw [hr]
  dsimp only
  rw [hfree, if_neg Bool.false_ne_true, hview, hwhole.merge]
  unfold State.writeReg
  rw [h.page, hr, h.off]
  exact (if_pos (by decide)).trans ((hhdr _).trans (hwhole.plain (Or.inl rfl) s a _))

/-! ## Locked and write-once registers -/

theorem RegDef.Whole.violates {r : RegDef} (h : r.Whole .wos) (s : State) (a : Nat) (v : Word) :
    s.violates a r .eight v = (s.assetWritten && decide (s.reg a ≠ v)) := by
  obtain ⟨n, hf⟩ := h
  have hfld : ∀ w : Word, fld w 63 0 = w.toNat := fun w => by
    rw [fld, bits, pow_zero, Nat.div_one]
    exact Nat.mod_eq_of_lt w.isLt
  unfold State.violates State.lockedField covers
  rw [hf]
  simp only [List.any_cons, List.any_nil, Bool.or_false, Bool.true_and, hfld]
  congr 1
  rw [decide_eq_decide]
  exact not_congr BitVec.toNat_inj

/-- What a refused rewrite leaves: the count, the offset, the source and the status bit on the page, and the register as it was (R431). -/
theorem State.lockViolation_spec (s : State) (src : HostSrc) {a : Nat} (hp : pageBase a % 2 ^ 12 = 0) :
    let u := s.lockViolation src a
    let e := pageBase a + Off.PG_ERR_LOCK
    u.rf e 15 0 = satPlus 16 (s.rf e 15 0) 1 ∧ u.rf e 27 16 = offOf a % 2 ^ 12 ∧ u.rf e 29 28 = srcCode src
      ∧ u.rf (pageBase a + Off.PG_STS) 1 1 = 1
      ∧ ∀ b, b % 2 ^ 12 ∉ [Off.PG_ERR_LOCK, Off.PG_STS, Off.PG_IRQ_RAW, Off.PG_IRQ_EN] → u.reg b = s.reg b := by
  intro u e
  have he : e % 2 ^ 12 = Off.PG_ERR_LOCK := by
    simp only [e, Off.PG_ERR_LOCK]
    omega
  have hsts : (pageBase a + Off.PG_STS) % 2 ^ 12 = Off.PG_STS := by
    simp only [Off.PG_STS]
    omega
  have hsrc : srcCode src % 2 ^ 2 = srcCode src := by
    cases src with
    | pf b => cases b <;> rfl
    | vf b n => cases b <;> rfl
    | mgmt => rfl
  have hsat : satPlus 16 (s.rf e 15 0) 1 % 2 ^ 16 = satPlus 16 (s.rf e 15 0) 1 := by
    unfold satPlus
    omega
  generalize hs0 : (s.wf (pageBase a + Off.PG_STS) 1 1 1).noteRaised (pageBase a + Off.PG_STS) 2 = s0
  have hs0sts : s0.rf (pageBase a + Off.PG_STS) 1 1 = 1 := by
    rw [← hs0]
    exact State.rf_wf_self _ _ 1 1 _ (by decide) (by decide)
  have hs0reg : ∀ b, b % 2 ^ 12 ≠ Off.PG_STS → s0.reg b = s.reg b := fun b hb => by
    rw [← hs0]
    exact s.reg_wf_of_mod 1 1 1 (by rwa [hsts])
  generalize hs1 : ((s0.sat e 15 0 1).wf e 27 16 (offOf a)).wf e 29 28 (srcCode src) = s1
  have hs1e : s1.reg e = ins (ins (ins (s.reg e) 15 0 (satPlus 16 (s.rf e 15 0) 1)) 27 16 (offOf a)) 29 28 (srcCode src) := by
    have hold : s0.reg e = s.reg e := hs0reg e (by rw [he]; decide)
    have hs : (s0.sat e 15 0 1).reg e = ins (s.reg e) 15 0 (satPlus 16 (s.rf e 15 0) 1) := by
      rw [← hold, State.rf_eq, ← hold]
      exact s0.reg_setReg_self e _
    rw [← hs1, State.wf_eq, State.reg_setReg_self, State.wf_eq, State.reg_setReg_self, hs]
  have hs1reg : ∀ b, b % 2 ^ 12 ≠ Off.PG_ERR_LOCK → s1.reg b = s0.reg b := fun b hb => by
    have hne : b % 2 ^ 12 ≠ e % 2 ^ 12 := by rwa [he]
    rw [← hs1, State.reg_wf_of_mod _ _ _ _ hne, State.reg_wf_of_mod _ _ _ _ hne, State.reg_sat_of_mod _ _ _ _ hne]
  have hu : u = s1.raisePg (a / 2 ^ 18) (a / 2 ^ 12 % 64) 63 := by rw [← hs1, ← hs0]; rfl
  have hlast : ∀ b, b % 2 ^ 12 ≠ Off.PG_IRQ_RAW → b % 2 ^ 12 ≠ Off.PG_IRQ_EN → u.reg b = s1.reg b := fun b h1 h2 => by
    rw [hu]
    exact s1.reg_raisePg _ _ 63 h1 h2
  have hue : u.reg e = s1.reg e := hlast e (by rw [he]; decide) (by rw [he]; decide)
  refine ⟨?_, ?_, ?_, ?_, fun b hb => ?_⟩
  · rw [State.rf_eq, hue, hs1e, fld_ins_below _ 29 28 _ 15 0 (by decide) (by decide) (by decide) (by decide),
      fld_ins_below _ 27 16 _ 15 0 (by decide) (by decide) (by decide) (by decide), fld_ins_self _ 15 0 _ (by decide) (by decide)]
    exact hsat
  · rw [State.rf_eq, hue, hs1e, fld_ins_below _ 29 28 _ 27 16 (by decide) (by decide) (by decide) (by decide), fld_ins_self _ 27 16 _ (by decide) (by decide)]
  · rw [State.rf_eq, hue, hs1e, fld_ins_self _ 29 28 _ (by decide) (by decide)]
    exact hsrc
  · rw [State.rf_eq, hlast _ (by rw [hsts]; decide) (by rw [hsts]; decide), hs1reg _ (by rw [hsts]; decide), ← State.rf_eq]
    exact hs0sts
  · simp only [List.mem_cons, List.not_mem_nil, or_false, not_or] at hb
    obtain ⟨b1, b2, b3, b4⟩ := hb
    rw [hlast b b3 b4, hs1reg b b1, hs0reg b b2]

/-! ## The address register of a port -/

/-- The register of a port stands on its Eave die's page. -/
theorem portReg_mac {p : Nat} (hp : p < 64) :
    let a := portReg p Off.EAV_MAC
    pageOf a = some .eav ∧ a < 2 ^ 24 ∧ a % 8 = 0 ∧ offOf a = Off.EAV_MAC + 0x40 * (p % 8) ∧ pageBase a = bar0 (portDie p) 0 0
      ∧ a % 2 ^ 12 = Off.EAV_MAC + 0x40 * (p % 8) ∧ ∃ r n, regAt a = some r ∧ r.fields = [⟨47, 0, .rwl, n⟩] := by
  have hall : ∀ p < 64, pageAt (portDie p) 0 = some .eav ∧ portDie p < 64 := by decide +kernel
  have hreg : ∀ i < 8, ∃ r ∈ findReg (pageRegs .eav) (Off.EAV_MAC + 0x40 * i), r.fields = [⟨47, 0, .rwl, 0⟩] := by decide +kernel
  obtain ⟨hpage, hdie⟩ := hall p hp
  have hlt : Off.EAV_MAC + 0x40 * (p % 8) < 4096 := by
    simp only [Off.EAV_MAC]
    omega
  intro a
  have hoff : offOf a = Off.EAV_MAC + 0x40 * (p % 8) := offOf_bar0 hdie (by decide) hlt
  refine ⟨(pageOf_bar0 hdie (by decide) hlt).trans hpage, bar0_lt hdie (by decide) hlt, ?_, hoff, ?_, bar0_mod _ 0 hlt, ?_⟩
  · simp only [a, portReg, bar0, Off.EAV_MAC]
    omega
  · rw [pageBase, hoff]
    simp only [a, portReg, bar0, Off.EAV_MAC]
    omega
  · obtain ⟨r, hr, hf⟩ := hreg (p % 8) (by omega)
    exact ⟨r, 0, by rw [show a = bar0 (portDie p) 0 (Off.EAV_MAC + 0x40 * (p % 8)) from rfl, regAt_bar0 hdie (by decide) hlt, hpage, Option.bind_some]; exact hr, hf⟩

/-- A write of the address of a port: taken while it changes no locked field, refused else (R431). -/
theorem State.pageWrite_mac (s : State) (src : HostSrc) {p : Nat} (hp : p < 64) (v : Word) :
    let a := portReg p Off.EAV_MAC
    (s.rf (bar0 (portDie p) 0 0 + Off.PG_LOCK) 0 0 = 0 → (s.pageWrite src a .eight v).rf a 47 0 = fld v 47 0 ∧ onlyRegs s (s.pageWrite src a .eight v)
        ∧ sameRegsBut [a] s (s.pageWrite src a .eight v))
      ∧ (s.rf (bar0 (portDie p) 0 0 + Off.PG_LOCK) 0 0 = 1 → s.rf a 47 0 ≠ fld v 47 0 → s.pageWrite src a .eight v = s.lockViolation src a) := by
  intro a
  obtain ⟨hpage, -, -, hoff, hbase, -, r, n, hr, hf⟩ := portReg_mac hp
  have hviol : s.violates a r .eight v = (decide (s.rf (bar0 (portDie p) 0 0 + Off.PG_LOCK) 0 0 = 1) && decide (s.rf a 47 0 ≠ fld v 47 0)) := by
    unfold State.violates State.lockedField covers
    rw [hf, hbase]
    simp only [List.any_cons, List.any_nil, Bool.or_false, Bool.true_and]
    rfl
  refine ⟨fun hopen => ?_, fun hlocked hne => ?_⟩
  · have hrun : s.pageWrite src a .eight v = s.plainWrite a r v := by
      unfold State.pageWrite
      rw [hr]
      dsimp only [mergeWord]
      rw [hviol, hopen]
      refine (if_neg (by simp)).trans ?_
      unfold State.writeReg State.writeEav
      rw [hpage, hr, hoff]
      have h1 : ¬ Off.EAV_MAC + 0x40 * (p % 8) < 0x80 := by simp only [Off.EAV_MAC]; omega
      have h2 : ¬ Off.EAV_MAC + 0x40 * (p % 8) = Off.EAV_CLR := by simp only [Off.EAV_MAC, Off.EAV_CLR]; omega
      have h3 : ¬ (0x180 ≤ Off.EAV_MAC + 0x40 * (p % 8) ∧ Off.EAV_MAC + 0x40 * (p % 8) < 0x1C0) := by simp only [Off.EAV_MAC]; omega
      have h4 : ¬ (0x400 ≤ Off.EAV_MAC + 0x40 * (p % 8) ∧ (Off.EAV_MAC + 0x40 * (p % 8) - 0x400) % 0x40 = 0) := by simp only [Off.EAV_MAC]; omega
      dsimp only
      rw [if_neg h1, if_neg h2, if_neg h3, if_neg h4]
    have hbits : statusBits r = 0 ∧ w1sBits r = 0 := by
      unfold statusBits w1sBits forAll
      rw [hf]
      exact ⟨rfl, rfl⟩
    have hstore : storeWord r (s.reg a) v = ins (s.reg a) 47 0 (fld v 47 0) := by
      unfold storeWord forAll
      rw [hf]
      rfl
    have hset : s.pageWrite src a .eight v = s.setReg a (ins (s.reg a) 47 0 (fld v 47 0)) := by
      rw [hrun, State.plainWrite, State.stored, hbits.1, hbits.2, hstore, and_zero_word, or_zero_word, zero_and_word, if_pos rfl]
    rw [hset]
    refine ⟨?_, onlyRegs.setReg _ _ _, sameRegsBut.setReg _ _ _⟩
    rw [State.rf_eq, State.reg_setReg_self, fld_ins_self _ 47 0 _ (by decide) (by decide)]
    exact Nat.mod_eq_of_lt (bits_lt _ 47 0)
  · unfold State.pageWrite
    rw [hr]
    dsimp only [mergeWord]
    rw [hviol, hlocked, decide_eq_true hne]
    rfl

theorem assetReg : ∃ r, regAt Off.RDG_ASSET = some r ∧ r.Whole .wos := ⟨_, rfl, _, rfl⟩

/-- A write of the asset register: taken once (R9). -/
theorem State.pageWrite_asset (s : State) (src : HostSrc) (v : Word) :
    (s.assetWritten = false → s.pageWrite src Off.RDG_ASSET .eight v = { s.setReg Off.RDG_ASSET v with assetWritten := true })
      ∧ (s.assetWritten = true → s.reg Off.RDG_ASSET ≠ v → s.pageWrite src Off.RDG_ASSET .eight v = s.lockViolation src Off.RDG_ASSET) := by
  obtain ⟨r, hr, hwhole⟩ := assetReg
  refine ⟨fun h => ?_, fun h hne => ?_⟩
  · unfold State.pageWrite
    rw [hr]
    dsimp only [mergeWord]
    rw [hwhole.violates, h, Bool.false_and, if_neg Bool.false_ne_true]
    unfold State.writeReg
    rw [hr, show pageOf Off.RDG_ASSET = some .rdg from rfl, show offOf Off.RDG_ASSET = Off.RDG_ASSET from rfl]
    refine (if_neg (by decide)).trans ?_
    unfold State.writeRdg
    rw [show offOf Off.RDG_ASSET = Off.RDG_ASSET from rfl]
    dsimp only
    rw [if_neg (by decide), if_neg (by decide), if_neg (by decide), if_neg (by decide), if_neg (by decide), if_pos rfl, hwhole.plain (Or.inr rfl)]
  · unfold State.pageWrite
    rw [hr]
    dsimp only [mergeWord]
    rw [hwhole.violates, h]
    exact if_pos (by simp [hne])

/-! ## Accesses that only count -/

/-- A count in a field of PG_ERR of a page, with the access counted (R397, R426, R428). -/
theorem wroteRegs.errCount {s : State} {src : HostSrc} {size : AccSize} {a hi lo : Nat} (ha : a % 2 ^ 12 = Off.PG_ERR) (h : hi < 64) (hl : lo + 15 = hi) :
    let u := (s.countVf src size).sat a hi lo 1
    u.rf a hi lo = satPlus 16 (s.rf a hi lo) 1 ∧ wroteRegs src [a] s u := by
  intro u
  have hreg : (s.countVf src size).rf a hi lo = s.rf a hi lo := by
    rw [State.rf_eq, s.reg_countVf_any src size (by rw [ha]; decide), State.rf_eq]
  have hw : hi + 1 - lo = 16 := by omega
  refine ⟨?_, wroteRegs.after rfl ((sameRegsBut.refl _ _).wf List.mem_cons_self _ _ _)⟩
  have hsat : satPlus 16 (s.rf a hi lo) 1 % 2 ^ 16 = satPlus 16 (s.rf a hi lo) 1 := by
    unfold satPlus
    omega
  refine (State.rf_wf_self (s.countVf src size) a hi lo _ (by omega) h).trans ?_
  rw [hreg, hw, hsat]

theorem pageBase_mod (a : Nat) {off : Nat} (ho : off < 2 ^ 12) : (pageBase a + off) % 2 ^ 12 = off := by
  unfold pageBase offOf
  split <;> omega

/-- Settles O21: each kind of access, by the branch of the write path that takes it. -/
theorem registerWritesAndRefusals : Obligations.RegisterWritesAndRefusals := by
  unfold Obligations.RegisterWritesAndRefusals
  refine ⟨fun s src a v hwhere hw => ?_, ⟨fun s src p v hp hw => ?_, fun s src v hw => ?_⟩, fun s src a size v k hk hg hi hsrc hrec hfence => ?_,
    fun s src a size v hi ha => ?_⟩
  · obtain ⟨k, hreg⟩ : ∃ k, ScratchReg a k := by
      rcases hwhere with ⟨die, block, k, hd, hb, hk, hg, rfl⟩ | ⟨c, hc, rfl⟩
      · exact ⟨k, scratchReg_bar0 hd hb hk hg⟩
      · exact ⟨.ctx, scratchReg_ctxA hc⟩
    have hmod : a % 8 = 0 := by
      have := hreg.mod
      simp only [Off.PG_SCRATCH] at this
      omega
    have stores : ∀ size, size ≠ .bad → Completes (.registerWrite src a size v) s fun u => u.reg a = halfWord (s.reg a) v size ∧ wroteRegs src [a] s u :=
      fun size hsize => by
        refine ⟨_, exec_registerWrite_reaches v hw hreg.page hreg.own hmod hsize, ?_⟩
        rw [hreg.pageWrite, s.reg_countVf_any src size (by rw [hreg.mod]; decide)]
        exact ⟨State.reg_setReg_self _ _ _, wroteRegs.after (onlyRegs.setReg _ _ _) (sameRegsBut.setReg _ _ _)⟩
    exact ⟨stores .eight (by decide), stores .low (by decide), stores .high (by decide)⟩
  · intro a pg
    obtain ⟨hpage, hlow, hmod8, hoff, hbase, hmod, -⟩ := portReg_mac hp
    have hrun : exec (.registerWrite src a .eight v) s = .next (s.pageWrite src a .eight v) := by
      rw [exec_registerWrite_reaches v hw hpage (by decide) hmod8 (by decide), (hw.uncounted hlow).1]
    obtain ⟨hopen, hlocked⟩ := s.pageWrite_mac src hp v
    refine ⟨fun h => ?_, fun h hne => ?_⟩
    · obtain ⟨h1, h2, h3⟩ := hopen h
      exact ⟨_, hrun, h1, hw.wrote hlow h2 h3⟩
    · rw [hlocked h hne] at hrun
      have hoffmod : offOf a % 2 ^ 12 = offOf a := by
        rw [hoff]
        simp only [Off.EAV_MAC]
        omega
      have hspec := s.lockViolation_spec src (a := a) (by rw [hbase, bar0_mod _ _ (by decide)])
      rw [hbase] at hspec
      obtain ⟨h1, h2, h3, h4, h5⟩ := hspec
      refine ⟨_, hrun, h5 a ?_, h1, h2.trans hoffmod, h3, h4⟩
      rw [hmod]
      simp only [Off.EAV_MAC, Off.PG_ERR_LOCK, Off.PG_STS, Off.PG_IRQ_RAW, Off.PG_IRQ_EN, List.mem_cons, List.not_mem_nil, or_false, not_or]
      omega
  · have hrun : exec (.registerWrite src Off.RDG_ASSET .eight v) s = .next (s.pageWrite src Off.RDG_ASSET .eight v) := by
      rw [exec_registerWrite_reaches v hw (k := .rdg) rfl (by decide) rfl (by decide), (hw.uncounted (by decide)).1]
    obtain ⟨hfirst, hagain⟩ := s.pageWrite_asset src v
    refine ⟨fun h => ?_, fun h hne => ?_⟩
    · rw [hfirst h] at hrun
      exact ⟨_, hrun, s.reg_setReg_self _ _, rfl⟩
    · rw [hagain h hne] at hrun
      obtain ⟨-, -, -, -, h5⟩ := s.lockViolation_spec src (a := Off.RDG_ASSET) rfl
      exact ⟨_, hrun, h5 _ (by decide)⟩
  · intro e bad
    have he : e % 2 ^ 12 = Off.PG_ERR := pageBase_mod a (by decide)
    have hsize : (if a % 8 = 0 then size else AccSize.bad) = .bad ↔ bad = true := by
      simp only [bad, Bool.or_eq_true, decide_eq_true_eq]
      split <;> simp [*]
    have hrun : exec (.registerWrite src a size v) s = .next (if bad = true then (s.countVf src (if a % 8 = 0 then size else .bad)).sat e 31 16 1
        else if s.pageReady a (s.srcPort src) = false then (s.countVf src (if a % 8 = 0 then size else .bad)).sat e 47 32 1
        else (s.countVf src (if a % 8 = 0 then size else .bad)).pageWrite src a (if a % 8 = 0 then size else .bad) v) := by
      rw [exec_registerWrite_now src a size v hi]
      generalize (if a % 8 = 0 then size else AccSize.bad) = z at hsize
      unfold State.hostWriteNow
      rw [if_neg (by rw [hsrc, hrec]; decide), hk]
      cases k <;> simp_all [e]
    refine ⟨fun hbad => ?_, fun hbad hready => ?_, fun hbad hready hnone => ?_⟩
    · rw [if_pos hbad] at hrun
      exact ⟨_, hrun, wroteRegs.errCount he (by decide) rfl⟩
    · rw [if_neg (by rw [hbad]; decide), if_pos hready] at hrun
      exact ⟨_, hrun, wroteRegs.errCount he (by decide) rfl⟩
    · rw [if_neg (by rw [hbad]; decide), if_neg (by rw [hready]; decide), State.pageWrite, hnone] at hrun
      exact ⟨_, hrun, wroteRegs.errCount he (by decide) rfl⟩
  · refine ⟨_, ?_, rfl⟩
    rw [exec_registerWrite, execRegisterWrite, if_pos ha, State.hostWrite, if_pos hi]

end Sys2Proof.Machine
end

section
/-! SUPPORT. A context reset (R402): what of the context it keeps, and its registers. -/

namespace Sys2Proof.Machine

/-! ## Descriptor and binding -/

/-- The descriptor and the binding of every context stand as they did. -/
def keepsBinding (s t : State) : Prop := ∀ k, (t.ctx k).cfg = (s.ctx k).cfg ∧ (t.ctx k).boundB = (s.ctx k).boundB

theorem keepsBinding.refl (s : State) : keepsBinding s s := fun _ => ⟨rfl, rfl⟩

theorem keepsBinding.trans {s t u : State} (h : keepsBinding s t) (g : keepsBinding t u) : keepsBinding s u := fun k =>
  ⟨(g k).1.trans (h k).1, (g k).2.trans (h k).2⟩

theorem keepsBinding.of_ctxs {s t : State} (h : t.ctxs = s.ctxs) : keepsBinding s t := fun k => by
  rw [State.ctx, h]
  exact ⟨rfl, rfl⟩

theorem keepsBinding.forAll {α : Type} (l : List α) (f : α → State → State) (hf : ∀ a s, keepsBinding s (f a s)) (s : State) :
    keepsBinding s (forAll l f s) :=
  forAll_induct (P := keepsBinding s) (fun a t h => h.trans (hf a t)) l (.refl s)

theorem keepsBinding.ite {s t u : State} (p : Prop) [Decidable p] (h : keepsBinding s t) (g : keepsBinding s u) :
    keepsBinding s (if p then t else u) := by split <;> assumption

theorem keepsBinding.modCtx (s : State) (c : Nat) {f : Ctx → Ctx} (hf : ∀ x, (f x).cfg = x.cfg ∧ (f x).boundB = x.boundB) :
    keepsBinding s (s.modCtx c f) := fun k => by
  rw [State.modCtx_eq, State.ctx_setCtx]
  split
  · next h => rw [h]; exact hf _
  · exact ⟨rfl, rfl⟩

theorem State.modLaunch_binding (s : State) (c : Nat) (q : BitVec 32) (f : Running → Running) : keepsBinding s (s.modLaunch c q f) :=
  .modCtx s c (f := fun x => { x with
      running := x.running.map fun r => if r.seq = q then f r else r
      ended := if (x.running.map (·.seq)) = some q then x.ended else x.ended.map fun r => if r.seq = q then f r else r }) fun _ => ⟨rfl, rfl⟩

theorem State.modQueue_binding (s : State) (c l : Nat) (f : Queue → Queue) : keepsBinding s (s.modQueue c l f) :=
  .modCtx s c (f := fun k => { k with queues := Table.put Queue.init k.queues l (f (Table.getD Queue.init k.queues l)) }) fun _ => ⟨rfl, rfl⟩

theorem State.dropXfer_binding (s : State) (c id : Nat) : keepsBinding s (s.dropXfer c id) :=
  .modCtx s c (f := fun k => { k with xfers := Table.erase k.xfers id }) fun _ => ⟨rfl, rfl⟩

theorem State.sendCtl_binding (s : State) (node typ obj d : Nat) (ep : BitVec 16) (m : CtlMsg) : keepsBinding s (s.sendCtl node typ obj d ep m) := by
  unfold State.sendCtl State.postCtl
  split
  · exact .of_ctxs rfl
  · split
    · exact .of_ctxs rfl
    · split <;> exact .of_ctxs rfl

theorem State.sendDecides_binding (s : State) (c v : Nat) (x : Slot) (g : Group) (q : BitVec 32) (d : Decision) :
    keepsBinding s (s.sendDecides c v x g q d) := .forAll _ _ (fun _ t => t.sendCtl_binding _ _ _ _ _ _) s

theorem State.holdVote_binding (s : State) (g : Nat) (q : BitVec 32) (v : Nat) (x : VoteRec) : keepsBinding s (s.holdVote g q v x) := by
  unfold State.holdVote
  split
  · exact .refl s
  · exact .ite _ (.refl s) (.of_ctxs rfl)

theorem State.clearVotes_binding (s : State) (g : Nat) (q : BitVec 32) (v : Nat) : keepsBinding s (s.clearVotes g q v) := by
  unfold State.clearVotes
  split
  · exact .refl s
  · exact .of_ctxs rfl

theorem State.deadDecide_binding (s : State) (c v : Nat) (r : Running) (x : Slot) : keepsBinding s (s.deadDecide c v r x) := by
  unfold State.deadDecide
  split
  · split
    · exact .refl s
    · refine keepsBinding.trans ?_ (State.sendDecides_binding _ _ _ _ _ _ _)
      exact (s.modLaunch_binding c _ _).trans (State.clearVotes_binding _ _ _ _)
  · exact .refl s

theorem State.faultVote_binding (s : State) (c v : Nat) (r : Running) (x : Slot) : keepsBinding s (s.faultVote c v r x) := by
  unfold State.faultVote
  split
  · refine .ite _ (.refl s) (.ite _ ?_ (s.sendCtl_binding _ _ _ _ _ _))
    exact (s.holdVote_binding _ _ _ _).trans (State.deadDecide_binding _ c v r x)
  · exact .refl s

theorem State.chargeAll_binding (s : State) (c n : Nat) : keepsBinding s (s.chargeAll c n) := by
  have tile : ∀ (t : State) (u : Nat), keepsBinding t (t.chargeTile c u n) := fun t u => by
    unfold State.chargeTile
    split
    · exact .refl t
    · exact .ite _ (.of_ctxs rfl) (.refl t)
  exact (keepsBinding.forAll (s.ctx c).tiles (fun e t => t.chargeTile c e.1 n) (fun e t => tile t _) s).trans (.modCtx _ c fun _ => ⟨rfl, rfl⟩)

theorem State.flowUpdate_binding (s : State) (c l : Nat) : keepsBinding s (s.flowUpdate c l) := by
  obtain he | ⟨f, he | ⟨k, he⟩⟩ := s.flowUpdate_cases c l
  · rw [he]
    exact .refl s
  · rw [he]
    exact s.modQueue_binding c l f
  · rw [he]
    exact (s.modQueue_binding c l f).trans (.of_ctxs (State.sendLinkctl_none_ctxs _ k))

theorem State.flushQueue_binding (s : State) (c l : Nat) : keepsBinding s (s.flushQueue c l) := by
  unfold State.flushQueue
  extract_lets q a gone s1 s2
  have h1 : keepsBinding s s1 := (s.modQueue_binding c l _).trans (.forAll gone (fun id t => t.dropXfer c id) (fun _ t => t.dropXfer_binding c _) _)
  have h2 : keepsBinding s1 s2 := .of_ctxs (((s1.wf_keeps a 31 0 _).trans (State.wf_keeps _ a 41 32 l)).trans (State.wf_keeps _ a 42 42 _)).1
  exact (h1.trans h2).trans (s2.flowUpdate_binding c l)

theorem State.refreshPromise_binding (s : State) (c : Nat) : keepsBinding s (s.refreshPromise c) := fun k => by
  obtain ⟨xs, qs, h⟩ := s.refreshPromise_ctx c k
  rw [h]
  exact ⟨rfl, rfl⟩

/-- A context that is stopped keeps its descriptor and its binding. -/
theorem State.stopCtx_binding (s : State) (c : Nat) : keepsBinding s (s.stopCtx c) := by
  have votes : ∀ u : State, keepsBinding u (u.faultVotes c) := fun u =>
    .forAll _ _ (fun r t => .forAll _ _ (fun e w => w.faultVote_binding c _ _ _) t) _
  have flushed : ∀ u : State, keepsBinding u (u.flushQueues c) := fun u => .forAll _ _ (fun e t => t.flushQueue_binding c _) u
  have stopped : ∀ u : State, keepsBinding u ((u.modCtx c (Ctx.stopped (s.orphans c))).dropPackets c) := fun u =>
    (keepsBinding.modCtx u c (f := Ctx.stopped (s.orphans c)) fun _ => ⟨rfl, rfl⟩).trans (.of_ctxs rfl)
  unfold State.stopCtx
  exact ((((s.chargeAll_binding c _).trans (votes _)).trans (stopped _)).trans (flushed _)).trans (State.refreshPromise_binding _ c)

/-! ## The reset of a context -/

/-- A context of which a reset has left nothing but descriptor, binding and orphans. -/
structure Ctx.Bare (x : Ctx) : Prop where
  torn : x.Torn
  plan : x.plan = none
  tiles : x.tiles = []
  links : x.links = []
  rings : x.rings = []
  held : x.held = []
  mailbox : x.mailbox = []

theorem Ctx.cleared_bare {x : Ctx} (h : ∀ e ∈ x.xfers, e.2.orphan = true) : x.cleared.Bare :=
  ⟨⟨rfl, rfl, rfl, rfl, h, fun _ he => absurd he List.not_mem_nil⟩, rfl, rfl, rfl, rfl, rfl, rfl⟩

/-- A register of a window that another register's address does not name keeps its value while the promise is brought up to date. -/
theorem State.reg_refreshPromise_ne (s : State) (c : Nat) {a : Nat} (h : homeAddr a ≠ homeAddr (ctxA c Off.CTX_PROMISE)) :
    (s.refreshPromise c).reg a = s.reg a := by
  have hwf : ∀ (t : State) hi lo v, (t.wf (ctxA c Off.CTX_PROMISE) hi lo v).reg a = t.reg a := fun t hi lo v => t.reg_setReg_ne _ h
  have hsat : ∀ (t : State) hi lo, (t.sat (ctxA c Off.CTX_PROMISE) hi lo 1).reg a = t.reg a := fun t hi lo => hwf t hi lo _
  unfold State.refreshPromise
  extract_lets b old new s1
  have h1 : s1.reg a = s.reg a := hwf s 1 0 new
  split
  · rfl
  · split
    · exact (hsat s1 15 8).trans h1
    · split
      · exact (hsat s1 31 16).trans h1
      · exact h1

/-- The registers of a window after its reset. -/
theorem State.reg_resetWindow (s : State) (c : Nat) {off : Nat} (ho : off < 2 ^ 16) (hk : ctxKeeps off = false) :
    (s.resetWindow c).reg (ctxA c off) = regReset (ctxA c off) := by
  have hin : inWindow c (ctxA c off) = true := by
    unfold inWindow ctxA
    simp
    omega
  rw [State.resetWindow, State.reg_resetRegs, homeAddr_ctxA, if_pos]
  rw [hin, offOf_ctxA ho, hk]
  rfl

/-- The context that a reset leaves, with its registers and the groups. -/
theorem State.ctxReset_spec {s : State} {c : Nat} (hc : c < 1024) (hphase : (s.ctx c).phase ≠ .resetting) :
    let u := s.ctxReset c
    (u.ctx c).phase = .resetting ∧ (u.ctx c).cfg = (s.ctx c).cfg ∧ (u.ctx c).boundB = (s.ctx c).boundB ∧ (u.ctx c).Bare
      ∧ (∀ e ∈ u.groups, e.2.ctx ≠ c)
      ∧ ∀ off, off < 2 ^ 16 → ctxKeeps off = false → off ≠ Off.CTX_PROMISE → u.reg (ctxA c off) = regReset (ctxA c off) := by
  intro u
  generalize hs0 : ({ s with cycle :=
      { s.cycle with
        faults := s.cycle.faults.filter fun f => f.ctx ≠ c
        done := s.cycle.done.filter fun e => e.1 ≠ RingOf.ctx c } } : State) = s0
  have hctx0 : s0.ctx c = s.ctx c := by rw [← hs0]; rfl
  have htorn := s0.stopCtx_torn c
  obtain ⟨hcfg, hbound⟩ := s0.stopCtx_binding c c
  rw [hctx0] at hcfg hbound
  generalize hs1 : (s0.stopCtx c).modCtx c Ctx.cleared = s1
  have hctx1 : s1.ctx c = ((s0.stopCtx c).ctx c).cleared := by rw [← hs1, State.modCtx_self]
  generalize hs2 : ({ s1 with groups := s1.groups.filter fun e => e.2.ctx ≠ c } : State) = s2
  have hctx2 : s2.ctx c = s1.ctx c := by rw [← hs2]; rfl
  have hgroups : ∀ e ∈ s2.groups, e.2.ctx ≠ c := fun e he => by
    rw [← hs2] at he
    exact of_decide_eq_true (List.mem_filter.mp he).2
  generalize hs3 : (s2.resetWindow c).modCtx c (fun x => { x with phase := .resetting }) = s3
  have hu : u = s3.refreshPromise c := by
    rw [← hs3, ← hs2, ← hs1, ← hs0]
    simp only [u, State.ctxReset]
    exact if_neg (by rintro (h | h); exacts [Nat.not_le.mpr hc h, hphase h])
  have hctx3 : s3.ctx c = { ((s0.stopCtx c).ctx c).cleared with phase := .resetting } := by
    rw [← hs3, State.modCtx_self]
    change { s2.ctx c with phase := CtxPhase.resetting } = _
    rw [hctx2, hctx1]
  have hgroups3 : s3.groups = s2.groups := by rw [← hs3]; rfl
  have hreg3 : ∀ off, off < 2 ^ 16 → ctxKeeps off = false → s3.reg (ctxA c off) = regReset (ctxA c off) := fun off ho hk => by
    rw [← hs3]
    exact s2.reg_resetWindow c ho hk
  obtain ⟨t1, t2, t3, t4, t5, t6, t7⟩ := Ctx.cleared_bare (htorn.xfers)
  have hbare3 : (s3.ctx c).Bare := by
    rw [hctx3]
    exact ⟨t1.congr rfl rfl rfl rfl rfl rfl, t2, t3, t4, t5, t6, t7⟩
  obtain ⟨xs, qs, hlast⟩ := s3.refreshPromise_ctx c c
  have htorn4 := State.refreshPromise_torn (c := c) hbare3.torn
  obtain ⟨-, b2, b3, b4, b5, b6, b7⟩ := hbare3
  refine ⟨?_, ?_, ?_, ?_, ?_, fun off ho hk hp => ?_⟩
  · rw [hu, hlast, hctx3]
  · rw [hu, hlast, hctx3]
    exact hcfg
  · rw [hu, hlast, hctx3]
    exact hbound
  · rw [hu]
    refine ⟨htorn4, ?_, ?_, ?_, ?_, ?_, ?_⟩ <;> rw [hlast] <;> assumption
  · have hg : u.groups = s2.groups := by
      rw [hu, ← hgroups3]
      exact (congrArg State.groups (s3.refreshPromise_core c) :)
    rw [hg]
    exact hgroups
  · rw [hu, s3.reg_refreshPromise_ne c, hreg3 off ho hk]
    rw [homeAddr_ctxA, homeAddr_ctxA]
    intro e
    unfold ctxA at e
    omega

/-- Settles O28: RDG_CTX_RESET leaves the bare context with its descriptor and binding, and the end of the reset its phase. -/
theorem contextResetKeepsTheDescriptor : Obligations.ContextResetKeepsTheDescriptor := by
  unfold Obligations.ContextResetKeepsTheDescriptor
  intro done
  refine ⟨fun s src c hc hw hphase => ?_, fun s c hphase => ?_⟩
  · have hrun := exec_ctxReset_reaches hc hw
    rw [(hw.uncounted (by decide)).1] at hrun
    obtain ⟨h1, h2, h3, ⟨ht, hplan, htiles, hlinks, hrings, hheld, hmail⟩, h5, h6⟩ := State.ctxReset_spec hc hphase
    exact ⟨_, hrun, h1, h2, h3, ht.running, ht.queue, hplan, ht.xfers, htiles, hlinks, hrings, hheld, hmail, h5, h6⟩
  · refine ⟨s.modCtx c fun x => { x with phase := .normal }, ?_, State.modCtx_self _ c _, rfl, fun k hk => ?_⟩
    · rw [exec_contextResetDone, execContextResetDone, if_pos hphase]
    · rw [State.modCtx_eq, State.ctx_setCtx, if_neg hk]

end Sys2Proof.Machine
end

section
/-! SUPPORT. Supplies, PERST# and package warm reset (R31, R37, R415, R417). -/

namespace Sys2Proof.Machine

/-! ## Every context changed -/

theorem Table.get?_iff_mem {α : Type} {t : Table α} (h : Table.rises t) (k : Nat) (v : α) : Table.get? t k = some v ↔ (k, v) ∈ t := by
  refine ⟨Table.mem_of_get?, fun hm => ?_⟩
  induction t with
  | nil => exact absurd hm List.not_mem_nil
  | cons a r ih =>
    obtain ⟨hhead, htail⟩ := List.pairwise_cons.mp h
    rw [Table.get?]
    rcases List.mem_cons.mp hm with rfl | hr
    · exact if_pos rfl
    · have hlt : a.1 < k := hhead _ hr
      rw [if_neg (by omega), ih htail hr]

/-- What a key of a canonical table holds after every entry is changed. -/
theorem Table.getD_mapVals_filter {α : Type} [DecidableEq α] {d : α} {t : Table α} (h : Table.wf d t = true) (f : α → α) (hd : f d = d) (k : Nat) :
    Table.getD d ((Table.mapVals (fun _ x => f x) t).filter fun (e : Nat × α) => decide (e.2 ≠ d)) k = f (Table.getD d t k) := by
  have hrises := ((Table.wf_iff d t).mp h).1
  have hnew : Table.rises ((Table.mapVals (fun _ x => f x) t).filter fun (e : Nat × α) => decide (e.2 ≠ d)) :=
    Table.rises_filter (Table.rises_mapVals hrises _) _
  have hmem : ∀ w, (k, w) ∈ ((Table.mapVals (fun _ x => f x) t).filter fun (e : Nat × α) => decide (e.2 ≠ d)) ↔ ∃ v, (k, v) ∈ t ∧ f v = w ∧ w ≠ d := fun w => by
    simp only [Table.mapVals, List.mem_filter, List.mem_map, Prod.mk.injEq, Prod.exists, decide_eq_true_eq]
    constructor
    · rintro ⟨⟨j, v, hv, rfl, rfl⟩, hw⟩
      exact ⟨v, hv, rfl, hw⟩
    · rintro ⟨v, hv, rfl, hw⟩
      exact ⟨⟨k, v, hv, rfl, rfl⟩, hw⟩
  unfold Table.getD
  cases hv : Table.get? t k with
  | none =>
    cases hw : Table.get? ((Table.mapVals (fun _ x => f x) t).filter fun (e : Nat × α) => decide (e.2 ≠ d)) k with
    | none => exact hd.symm
    | some w =>
      obtain ⟨v, hmv, -, -⟩ := (hmem w).mp (Table.mem_of_get? hw)
      rw [(Table.get?_iff_mem hrises k v).mpr hmv] at hv
      exact absurd hv (by simp)
  | some v =>
    have hin := (Table.get?_iff_mem hrises k v).mp hv
    by_cases hf : f v = d
    · cases hw : Table.get? ((Table.mapVals (fun _ x => f x) t).filter fun (e : Nat × α) => decide (e.2 ≠ d)) k with
      | none => exact hf.symm
      | some w =>
        obtain ⟨v', hmv, hfv, hne⟩ := (hmem w).mp (Table.mem_of_get? hw)
        have hsame : v' = v := by
          rw [(Table.get?_iff_mem hrises k v').mpr hmv] at hv
          exact Option.some.inj hv
        rw [hsame, hf] at hfv
        exact absurd hfv.symm hne
    · rw [(Table.get?_iff_mem hnew k (f v)).mpr ((hmem _).mpr ⟨v, hin, rfl, hf⟩)]
      rfl

theorem State.ctx_mapCtxs {s : State} (h : Table.wf Ctx.init s.ctxs = true) {f : Ctx → Ctx} (hf : f Ctx.init = Ctx.init) (c : Nat) :
    (s.mapCtxs f).ctx c = f (s.ctx c) := Table.getD_mapVals_filter h f hf c

theorem State.refreshAll_ctx (s : State) (k : Nat) : ∃ xs qs, s.refreshAll.ctx k = { s.ctx k with xfers := xs, queues := qs } := by
  refine forAll_induct (P := fun t => ∃ xs qs, t.ctx k = { s.ctx k with xfers := xs, queues := qs }) (fun c t h => ?_) _ ⟨_, _, rfl⟩
  obtain ⟨xs, qs, ht⟩ := h
  obtain ⟨xs', qs', hr⟩ := t.refreshPromise_ctx c k
  exact ⟨xs', qs', by rw [hr, ht]⟩

theorem onlyRegs.sat (s : State) (a hi lo n : Nat) : onlyRegs s (s.sat a hi lo n) := rfl

/-! ## PERST# -/

theorem State.perst_setPerst (s : State) (b low : Bool) : (s.setPerst b low).perst b = low := by cases b <;> rfl

/-- What the PERST# of the port that does not manage the package does beside the registers of its physical function. -/
theorem State.perstOther_rest (s : State) (b : Bool) :
    let u := ((((s.setPerst b true).setHostLink b none).resetPf b).resetVfs b)
    u.perst b = true ∧ u.hostLink b = false ∧ u.hostLink (!b) = s.hostLink (!b) ∧ u.heldOf (.pf b) = [] ∧ u.mailOf (.pf b) = [] ∧ sameMemory s u
      ∧ u.ctxs = (s.mapCtxs fun x => if x.boundB = b then { x with rebinding := false } else x).ctxs := by
  cases b with
  | false => exact ⟨rfl, rfl, rfl, rfl, rfl, ⟨rfl, rfl, rfl, rfl, rfl, rfl⟩, rfl⟩
  | true => exact ⟨rfl, rfl, rfl, rfl, rfl, ⟨rfl, rfl, rfl, rfl, rfl, rfl⟩, rfl⟩

theorem State.perstOther_reg (s : State) (b : Bool) {a : Nat} (h : offOf (homeAddr a) < 0x700 ∨ 0x768 < offOf (homeAddr a)) :
    ((((s.setPerst b true).setHostLink b none).resetPf b).resetVfs b).reg a = s.reg a := by
  have hkept : ((s.setPerst b true).setHostLink b none).reg a = s.reg a := by cases b <;> rfl
  have hd : ridgeOf b < 64 := by cases b <;> decide
  refine Eq.trans ?_ hkept
  refine State.reg_resetPf_other _ b fun off hfrom hto e => ?_
  rw [e, offOf_bar0 hd (by decide) (by omega)] at h
  omega

/-! ## Warm reset -/

/-- What a warm reset leaves of the machine (R417). -/
theorem State.warmReset_spec {s : State} (h : Table.wf Ctx.init s.ctxs = true) :
    let u := s.warmReset
    u.tb = s.tb ∧ (∀ c, ∃ xs qs, u.ctx c = { (s.ctx c).warm with xfers := xs, queues := qs }) ∧ u.warmActive = true ∧ u.pstate = 0 ∧ u.groups = []
      ∧ u.scratch = [] ∧ u.halted = false ∧ u.selfRefresh = true ∧ u.routes = s.routes := by
  intro u
  have hflush : onlyStacks s s.flushCache :=
    (onlyStacks.forAll s.cache _ (fun e t => onlyStacks.forAll e.2 _ (fun w v => onlyStacks.forAll _ _ (fun _ y => y.stackPut_stacks _ _ _ _) v) t) s).trans
      (State.cache_stacks _ [])
  have htb : s.flushCache.tb = s.tb := (congrArg State.tb hflush :)
  have hctxs : s.flushCache.ctxs = s.ctxs := (congrArg State.ctxs hflush :)
  have hroutes : s.flushCache.routes = s.routes := (congrArg State.routes hflush :)
  obtain ⟨s2, hu, htb2, hctxs2, hactive, hpstate, hgroups, hscratch, hhalted, hself, hroutes2⟩ : ∃ s2 : State, u = s2.warmFields.relock.refreshAll
      ∧ s2.tb = s.flushCache.tb ∧ s2.ctxs = (s.flushCache.mapCtxs Ctx.warm).ctxs ∧ s2.warmActive = true ∧ s2.pstate = 0 ∧ s2.groups = []
      ∧ s2.scratch = [] ∧ s2.halted = false ∧ s2.selfRefresh = true ∧ s2.routes = s.flushCache.routes :=
    ⟨_, rfl, rfl, rfl, rfl, rfl, rfl, rfl, rfl, rfl, rfl⟩
  have hfields : onlyRegs s2 s2.warmFields.relock := by
    have hwf : ∀ (t : State) (a hi lo v : Nat), onlyRegs s2 t → onlyRegs s2 (t.wf a hi lo v) := fun t a hi lo v ht => ht.trans (onlyRegs.wf t a hi lo v)
    have h1 : onlyRegs s2 ((((s2.wf Off.RDG_CLK 6 6 0).wf Off.RDG_SAG 9 9 0).wf Off.RDG_THERM 2 2 0).wf Off.RDG_BOOT 2 2 0) :=
      hwf _ _ _ _ _ (hwf _ _ _ _ _ (hwf _ _ _ _ _ (hwf _ _ _ _ _ rfl)))
    have h2 : onlyRegs s2 s2.warmFields :=
      forAll_induct (P := onlyRegs s2) (fun r t ht => hwf t _ 13 13 0 ht) _ (forAll_induct (P := onlyRegs s2) (fun d t ht => hwf t _ 7 0 0 ht) _ h1)
    refine forAll_induct (P := onlyRegs s2) (fun e t ht => ?_) _ h2
    split
    · exact ht.trans (onlyRegs.setReg t _ _)
    · exact ht
  have hcore : sameCore s2 u := by
    rw [hu]
    exact hfields.core.trans (State.refreshAll_core _)
  refine ⟨(congrArg State.tb hcore :).trans (htb2.trans htb), fun c => ?_, (congrArg State.warmActive hcore :).trans hactive,
    (congrArg State.pstate hcore :).trans hpstate, (congrArg State.groups hcore :).trans hgroups, (congrArg State.scratch hcore :).trans hscratch,
    (congrArg State.halted hcore :).trans hhalted, (congrArg State.selfRefresh hcore :).trans hself,
    (congrArg State.routes hcore :).trans (hroutes2.trans hroutes)⟩
  obtain ⟨xs, qs, hlast⟩ := s2.warmFields.relock.refreshAll_ctx c
  have hkept : s2.warmFields.relock.ctx c = s2.ctx c := (congrArg (State.ctx · c) hfields :)
  have hwarm : s2.ctx c = (s.ctx c).warm := by
    have hcan : Table.wf Ctx.init s.flushCache.ctxs = true := by rw [hctxs]; exact h
    have hmap := State.ctx_mapCtxs hcan (f := Ctx.warm) rfl c
    have hold : s.flushCache.ctx c = s.ctx c := by rw [State.ctx, hctxs, State.ctx]
    rw [State.ctx, hctxs2, ← hold]
    exact hmap
  exact ⟨xs, qs, by rw [hu, hlast, hkept, hwarm]⟩

/-! ## The reset register -/

theorem exec_pkgResetWrite_reaches {s : State} {src : HostSrc} (code : Nat) (go : Bool) (hw : WriteReaches s src Off.RDG_PKG_RESET) :
    exec (.pkgResetWrite src code go) s = .next (s.pkgReset (code % 2 ^ 16) go) := by
  obtain ⟨r, hr, hf⟩ : ∃ r, regAt Off.RDG_PKG_RESET = some r ∧ r.free = true :=
    ⟨(regAt Off.RDG_PKG_RESET).get (by decide), Option.eq_some_of_isSome _, by decide⟩
  have hgo : b2n go < 2 := by cases go <;> decide
  have hcode : fld (field 0 (code % 2 ^ 16) ||| field 16 (b2n go)) 15 0 = code % 2 ^ 16 := by
    rw [BitVec.or_comm, fld, field_or_toNat (by omega) (by omega) (by decide), bits]
    omega
  have hbit : decide (fld (field 0 (code % 2 ^ 16) ||| field 16 (b2n go)) 16 16 = 1) = go := by
    rw [BitVec.or_comm, fld, field_or_toNat (by omega) (by omega) (by decide), bits]
    cases go with
    | false => exact decide_eq_false (by rw [show b2n false = 0 from rfl]; omega)
    | true => exact decide_eq_true (by rw [show b2n true = 1 from rfl]; omega)
  rw [exec_pkgResetWrite, execPkgResetWrite, State.write8_low _ hw (by decide) (k := .rdg) (by decide) (by decide) hr hf, State.writeReg_pkgReset, hcode, hbit]

theorem State.reg_wf_twice (s : State) (a h1 l1 v1 h2 l2 v2 : Nat) :
    ((s.wf a h1 l1 v1).wf a h2 l2 v2).reg a = ins (ins (s.reg a) h1 l1 v1) h2 l2 v2 := by
  rw [State.wf_eq, State.reg_setReg_self, State.wf_eq, State.reg_setReg_self]

/-- The end of a warm reset sets divider and count (R417). -/
theorem State.warmEnd_regs (s : State) (forced : Bool) :
    let y := ((s.wf Off.RDG_CLK 4 4 (b2n forced)).wf Off.RDG_CLK 3 2 (if forced then 2 else s.rf Off.RDG_CLK 1 0)).sat Off.RDG_BOOT 31 16 1
    y.rf Off.RDG_CLK 4 4 = b2n forced ∧ y.rf Off.RDG_CLK 3 2 = (if forced then 2 else s.rf Off.RDG_CLK 1 0)
      ∧ y.rf Off.RDG_BOOT 31 16 = satPlus 16 (s.rf Off.RDG_BOOT 31 16) 1 := by
  intro y
  generalize hz : (s.wf Off.RDG_CLK 4 4 (b2n forced)).wf Off.RDG_CLK 3 2 (if forced then 2 else s.rf Off.RDG_CLK 1 0) = z
  have hclk : y.reg Off.RDG_CLK = ins (ins (s.reg Off.RDG_CLK) 4 4 (b2n forced)) 3 2 (if forced then 2 else s.rf Off.RDG_CLK 1 0) := by
    rw [← s.reg_wf_twice, hz, show y = z.sat Off.RDG_BOOT 31 16 1 from by rw [← hz]]
    exact z.reg_sat_of_mod 31 16 1 (by decide)
  have hboot : z.rf Off.RDG_BOOT 31 16 = s.rf Off.RDG_BOOT 31 16 := by
    rw [State.rf_eq, ← hz, State.reg_wf_of_mod _ _ _ _ (by decide), State.reg_wf_of_mod _ _ _ _ (by decide), State.rf_eq]
  have hb : b2n forced % 2 = b2n forced := by cases forced <;> rfl
  have he : (if forced then 2 else s.rf Off.RDG_CLK 1 0) % 4 = if forced then 2 else s.rf Off.RDG_CLK 1 0 := by
    have hlt : s.rf Off.RDG_CLK 1 0 < 2 ^ 2 := bits_lt _ 1 0
    split <;> omega
  have hs : satPlus 16 (s.rf Off.RDG_BOOT 31 16) 1 % 2 ^ 16 = satPlus 16 (s.rf Off.RDG_BOOT 31 16) 1 := by
    unfold satPlus
    omega
  refine ⟨?_, ?_, ?_⟩
  · rw [State.rf_eq, hclk, fld_ins_above _ 3 2 _ 4 4 (by decide) (by decide) (by decide), fld_ins_self _ 4 4 _ (by decide) (by decide)]
    exact hb
  · rw [State.rf_eq, hclk, fld_ins_self _ 3 2 _ (by decide) (by decide)]
    exact he
  · rw [show y = z.sat Off.RDG_BOOT 31 16 1 from by rw [← hz]]
    refine (State.rf_wf_self z Off.RDG_BOOT 31 16 _ (by decide) (by decide)).trans ?_
    rw [hboot]
    exact hs

/-- Settles O27: each reset by what it keeps of the package. -/
theorem packageResets : Obligations.PackageResets := by
  unfold Obligations.PackageResets
  refine ⟨fun s => ⟨⟨_, rfl, rfl⟩, ⟨_, rfl, rfl, rfl, rfl, rfl, rfl, rfl, rfl, rfl⟩, fun hen hoff => ?_, fun hon => ?_, fun hoff => ?_, fun hon => ?_,
    fun b => ⟨_, rfl, rfl⟩⟩, fun s src hi hw hsag => ⟨fun hfw => ?_, fun hfw => ?_⟩, fun s src code go hw hbad => ?_, fun s hactive => ?_⟩
  · refine ⟨{ s.coldReset with pwrgd := true }, ?_, rfl, rfl, rfl, rfl, rfl, fun _ => rfl, rfl, rfl, rfl⟩
    rw [exec_pkgPwrgd, execPkgPwrgd, if_pos (by simp [hen, hoff])]
  · refine ⟨(s.setPerst s.roleB true).coldReset, ?_, ?_, rfl, rfl, rfl, rfl, rfl, ?_⟩
    · rw [exec_perstMgmtAssert, execPerstMgmtAssert, if_pos hon]
    · exact (rfl : (s.setPerst s.roleB true).coldReset.perst s.roleB = (s.setPerst s.roleB true).perst s.roleB).trans (s.perst_setPerst _ _)
    · cases s.roleB <;> rfl
  · refine ⟨s.setPerst s.roleB true, ?_, rfl⟩
    rw [exec_perstMgmtAssert, execPerstMgmtAssert, if_neg (by rw [hoff]; decide)]
  · have hrun : exec .perstOtherAssert s = .next ((((s.setPerst (!s.roleB) true).setHostLink (!s.roleB) none).resetPf (!s.roleB)).resetVfs (!s.roleB)) := by
      rw [exec_perstOtherAssert, execPerstOtherAssert]
      exact if_pos hon
    obtain ⟨h1, h2, h3, h4, h5, h6, h7⟩ := s.perstOther_rest (!s.roleB)
    rw [Bool.not_not] at h3
    refine ⟨_, hrun, h1, h2, h3, fun hi c => ?_, h4, h5, h6, fun a ha => s.perstOther_reg _ ha⟩
    rw [State.ctx, h7]
    refine (State.ctx_mapCtxs hi.ctxs (f := fun x => if x.boundB = !s.roleB then { x with rebinding := false } else x) (by cases s.roleB <;> rfl) c).trans ?_
    have hrole : ∀ a r : Bool, decide (a = r) = !decide (a = !r) := by decide
    rw [hrole]
    by_cases hb : (s.ctx c).boundB = !s.roleB
    · rw [if_pos hb, decide_eq_true hb, Bool.not_true, Bool.and_false]
    · rw [if_neg hb, decide_eq_false hb, Bool.not_false, Bool.and_true]
  · have hrun := exec_pkgResetWrite_go hw
    rw [(hw.uncounted (by decide)).1, State.pkgReset_go hsag hfw] at hrun
    have hz : onlyRegs s (s.wf Off.RDG_PKG_RESET 17 17 0) := onlyRegs.wf _ _ _ _ _
    generalize s.wf Off.RDG_PKG_RESET 17 17 0 = z at hrun hz
    have hctxs : z.ctxs = s.ctxs := (congrArg State.ctxs hz :)
    obtain ⟨h1, h2, h3, h4, h5, h6, h7, h8, h9⟩ := State.warmReset_spec (s := z) (by rw [hctxs]; exact hi.ctxs)
    refine ⟨_, hrun, h1.trans (congrArg State.tb hz :), fun c => ?_, h3, h4, h5, h6, h7, h8, h9.trans (congrArg State.routes hz :)⟩
    obtain ⟨xs, qs, hctx⟩ := h2 c
    have hold : z.ctx c = s.ctx c := by rw [State.ctx, hctxs, State.ctx]
    rw [hctx, hold]
    exact ⟨rfl, rfl, rfl, rfl, rfl⟩
  · have hrun := exec_pkgResetWrite_reaches 0x5741 true hw
    rw [State.pkgReset, if_neg (by omega)] at hrun
    dsimp only at hrun
    have hfw' : (s.wf Off.RDG_PKG_RESET 17 17 0).rf Off.RDG_FWACT 0 0 = 1 := by
      rw [State.rf_eq, State.reg_wf_of_mod _ _ _ _ (by decide)]
      exact hfw
    rw [if_neg (by decide), if_pos hfw] at hrun
    refine ⟨_, hrun, State.rf_wf_self _ _ 18 18 _ (by decide) (by decide), ?_,
      hw.wrote (by decide) ((onlyRegs.wf _ _ _ _ _).trans (onlyRegs.wf _ _ _ _ _)) (((sameRegsBut.refl _ s).wf List.mem_cons_self _ _ _).wf List.mem_cons_self _ _ _)⟩
    rw [State.rf_wf_below _ _ 18 18 _ 17 17 (by decide) (by decide) (by decide) (by decide)]
    exact State.rf_wf_self _ _ 17 17 _ (by decide) (by decide)
  · have hrun := exec_pkgResetWrite_reaches code go hw
    rw [State.pkgReset, if_pos hbad] at hrun
    exact ⟨_, hrun, State.rf_wf_self _ _ 17 17 _ (by decide) (by decide), hw.wrote (by decide) (onlyRegs.wf _ _ _ _ _) ((sameRegsBut.refl _ s).wf List.mem_cons_self _ _ _)⟩
  · obtain ⟨f, hf⟩ : ∃ f, decide (s.rf Off.RDG_THERM 0 0 = 1 ∨ s.rf Off.RDG_SAG 2 0 = 3) = f := ⟨_, rfl⟩
    obtain ⟨h1, h2, h3⟩ := s.warmEnd_regs f
    have hy : onlyRegs s (((s.wf Off.RDG_CLK 4 4 (b2n f)).wf Off.RDG_CLK 3 2 (if f then 2 else s.rf Off.RDG_CLK 1 0)).sat Off.RDG_BOOT 31 16 1) :=
      (onlyRegs.wf _ _ _ _ _).trans ((onlyRegs.wf _ _ _ _ _).trans (onlyRegs.sat _ _ _ _ _))
    have hrun : exec .warmResetEnd s = .next ({ ((s.wf Off.RDG_CLK 4 4 (b2n f)).wf Off.RDG_CLK 3 2 (if f then 2 else s.rf Off.RDG_CLK 1 0)).sat
        Off.RDG_BOOT 31 16 1 with warmActive := false, selfRefresh := false, entered := if f then [3] else [] }.refreshAll) := by
      rw [exec_warmResetEnd, execWarmResetEnd, if_pos hactive, ← hf]
    generalize ((s.wf Off.RDG_CLK 4 4 (b2n f)).wf Off.RDG_CLK 3 2 (if f then 2 else s.rf Off.RDG_CLK 1 0)).sat Off.RDG_BOOT 31 16 1 = y at h1 h2 h3 hy hrun
    obtain ⟨z, hz, hzregs, hzmem, hactive', hself⟩ : ∃ z, z = ({ y with warmActive := false, selfRefresh := false, entered := if f then [3] else [] } : State)
        ∧ z.regs = y.regs ∧ sameMemory y z ∧ z.warmActive = false ∧ z.selfRefresh = false := ⟨_, rfl, rfl, ⟨rfl, rfl, rfl, rfl, rfl, rfl⟩, rfl, rfl⟩
    rw [← hz] at hrun
    have hrf : ∀ a hi lo, a % 2 ^ 12 ≠ Off.CTX_PROMISE → z.refreshAll.rf a hi lo = y.rf a hi lo := fun a hi lo ha => by
      rw [State.rf_eq, z.reg_refreshAll ha, State.reg, hzregs]
      rfl
    have hcore := z.refreshAll_core
    refine ⟨_, hrun, ?_⟩
    beta_reduce
    intro forced
    have hforced : ∀ a b : Nat, (if forced then a else b) = if f then a else b := fun a b => by
      rw [← hf]
      simp only [forced, decide_eq_true_eq]
    refine ⟨(congrArg State.warmActive hcore :).trans hactive', (congrArg State.selfRefresh hcore :).trans hself, ?_, ?_, ?_,
      (hy.core.mem.trans hzmem).trans hcore.mem⟩
    · rw [hrf _ _ _ (by decide), h1, hforced]
      cases f <;> rfl
    · rw [State.eff, hrf _ _ _ (by decide), h2, hforced]
    · rw [hrf _ _ _ (by decide), h3]

end Sys2Proof.Machine
end

section
/-! SUPPORT. Firmware, host links, management bus and test access port (R31, R32, R36, R403, R420, R422). -/

namespace Sys2Proof.Machine

/-- What each step brings about for its element and no step undoes holds of every element in the end. -/
theorem forAll_each {α : Type} {Q : α → State → Prop} {f : α → State → State} (hf : ∀ a t, Q a (f a t)) (hk : ∀ a b t, Q a t → Q a (f b t))
    (l : List α) (s : State) : ∀ a ∈ l, Q a (forAll l f s) := by
  intro a ha
  unfold forAll
  induction l generalizing s with
  | nil => exact absurd ha List.not_mem_nil
  | cons b r ih =>
    rw [List.foldl_cons]
    rcases List.mem_cons.mp ha with rfl | hr
    · exact forAll_induct (P := Q a) (fun b t h => hk a b t h) r (hf a s)
    · exact ih _ hr

/-- An interrupt raised in one context leaves the registers of another. -/
theorem State.raiseCtx_raw_other (s : State) {c d : Nat} (h : d ≠ c) (b : Nat) :
    (s.raiseCtx c b).reg (ctxA d Off.CTX_IRQ_RAW) = s.reg (ctxA d Off.CTX_IRQ_RAW) := by
  have hen : homeAddr (ctxA d Off.CTX_IRQ_RAW) ≠ homeAddr (ctxA c Off.CTX_IRQ_EN) :=
    homeAddr_ne_of_mod (by rw [ctxA_mod d (by decide), ctxA_mod c (by decide)]; decide)
  have hraw : homeAddr (ctxA d Off.CTX_IRQ_RAW) ≠ homeAddr (ctxA c Off.CTX_IRQ_RAW) := by
    rw [homeAddr_ctxA, homeAddr_ctxA]
    unfold ctxA
    omega
  have hset : ∀ raw en, (s.setCtxIrq c raw en).reg (ctxA d Off.CTX_IRQ_RAW) = s.reg (ctxA d Off.CTX_IRQ_RAW) := fun raw en => by
    unfold State.setCtxIrq
    refine (State.reg_forAll _ _ (fun b t => ?_) _).trans ((State.reg_setReg_ne _ _ hen).trans (s.reg_setReg_ne _ hraw))
    split <;> rfl
  exact hset _ _

/-- An interrupt raised in every context stands in each. -/
theorem State.raiseEach (s : State) {b : Nat} (hb : b < 64) {c : Nat} (hc : c < 1024) :
    (forAll (List.range 1024) (fun c t => t.raiseCtx c b) s).cf c Off.CTX_IRQ_RAW b b = 1 := by
  have own : ∀ c t, (State.raiseCtx t c b).cf c Off.CTX_IRQ_RAW b b = 1 := fun c t => by
    rw [State.cf_eq, State.rf_eq, State.raiseCtx_raw]
    exact fld_or_bit _ hb
  refine forAll_each (Q := fun c t => t.cf c Off.CTX_IRQ_RAW b b = 1) own (fun c d t h => ?_) _ s c (List.mem_range.mpr hc)
  by_cases hd : c = d
  · subst hd
    exact own c t
  · rw [State.cf_eq, State.rf_eq, t.raiseCtx_raw_other hd]
    exact h

/-- Sending an interrupt message leaves the registers. -/
theorem State.reg_sendMsix (s : State) (m : Msix) (a : Nat) : (s.sendMsix m).reg a = s.reg a := rfl

/-- An interrupt message that is sent stands among the sent ones. -/
theorem State.sent_sendMsix (s : State) (m : Msix) : m ∈ (s.sendMsix m).msix := List.mem_append_right _ List.mem_cons_self

/-- FWACT_DONE raised in every context, with the vector of the physical function. -/
def State.announceActivated (s : State) (ridgeB : Bool) : State :=
  (forAll (List.range 1024) (fun c t => t.raiseCtx c 6) s).sendMsix ⟨ridgeB, none, 8⟩

theorem State.announceActivated_spec (s : State) (ridgeB : Bool) :
    sameCore s (s.announceActivated ridgeB) ∧ (∀ a, a % 2 ^ 12 ∉ stopWrites → (s.announceActivated ridgeB).reg a = s.reg a)
      ∧ (∀ c, c < 1024 → (s.announceActivated ridgeB).cf c Off.CTX_IRQ_RAW 6 6 = 1) ∧ ⟨ridgeB, none, 8⟩ ∈ (s.announceActivated ridgeB).msix := by
  unfold State.announceActivated
  refine ⟨(sameCore.forAll _ _ (fun c t => t.raiseCtx_core c 6) s).trans (State.sendMsix_core _ _), fun a ha => ?_, fun c hc => ?_,
    State.sent_sendMsix _ _⟩
  · rw [State.reg_sendMsix]
    exact State.reg_forAll _ _ (fun c t => t.reg_raiseCtx c 6 ha) s
  · rw [State.cf_eq, State.rf_eq, State.reg_sendMsix, ← State.rf_eq, ← State.cf_eq]
    exact s.raiseEach (by decide) hc

/-- The end of an activation announces it in every context, and begins the warm reset that waited for it. -/
theorem execFirmwareActivationEnd_running {s : State} (h : s.rf Off.RDG_FWACT 0 0 = 1) :
    execFirmwareActivationEnd s
      = .next (if (((s.wf Off.RDG_FWACT 0 0 0).refreshAll).announceActivated s.roleB).rf Off.RDG_PKG_RESET 18 18 = 1
          then (((s.wf Off.RDG_FWACT 0 0 0).refreshAll).announceActivated s.roleB).warmReset
          else ((s.wf Off.RDG_FWACT 0 0 0).refreshAll).announceActivated s.roleB) := by
  unfold execFirmwareActivationEnd State.announceActivated
  rw [if_pos h]

/-- Settles O31: firmware activation by its register and its interrupts, the pins and ports by what each command sets. -/
theorem firmwareAndHostPorts : Obligations.FirmwareAndHostPorts := by
  unfold Obligations.FirmwareAndHostPorts
  refine ⟨⟨fun s hrel hup => ?_, fun s hact hwait => ?_, fun s b p hup => ?_⟩, fun s => ⟨fun b w r inv hal hp hw => ?_, fun b hl hal => ?_,
    fun b addr hr => ?_, fun ir => ⟨_, rfl, rfl⟩, ?_, ?_, fun h => ?_, fun h => ?_⟩⟩
  · have hrun : exec .firmwareActivation s = .next s.activate := by
      rw [exec_firmwareActivation, execFirmwareActivation, if_pos ⟨hrel, hup⟩]
    by_cases h : s.rf Off.RDG_FWACT 0 0 = 1
    · rw [State.activate, if_pos h] at hrun
      exact ⟨_, hrun, h, (sameCore.refl s).mem⟩
    · rw [State.activate, if_neg h] at hrun
      refine ⟨_, hrun, ?_, ((onlyRegs.wf s Off.RDG_FWACT 0 0 1).core.trans (State.refreshAll_core _)).mem⟩
      rw [State.rf_eq, State.reg_refreshAll _ (by decide), ← State.rf_eq]
      exact State.rf_wf_self _ _ 0 0 _ (by decide) (by decide)
  · generalize hs1 : (s.wf Off.RDG_FWACT 0 0 0).refreshAll = s1
    have hcore1 : sameCore s s1 := by
      rw [← hs1]
      exact (onlyRegs.wf s Off.RDG_FWACT 0 0 0).core.trans (State.refreshAll_core _)
    have hact1 : s1.rf Off.RDG_FWACT 0 0 = 0 := by
      rw [← hs1, State.rf_eq, State.reg_refreshAll _ (by decide), ← State.rf_eq]
      exact State.rf_wf_self _ _ 0 0 _ (by decide) (by decide)
    have hwait1 : s1.rf Off.RDG_PKG_RESET 18 18 = 0 := by
      rw [← hs1, State.rf_eq, State.reg_refreshAll _ (by decide), State.reg_wf_of_mod _ _ _ _ (by decide)]
      exact hwait
    obtain ⟨hcore2, hreg, hirq, hsent⟩ := s1.announceActivated_spec s.roleB
    have hrun : exec .firmwareActivationEnd s = .next (s1.announceActivated s.roleB) := by
      rw [exec_firmwareActivationEnd, execFirmwareActivationEnd_running hact, hs1, if_neg]
      rw [State.rf_eq, hreg _ (by decide), ← State.rf_eq, hwait1]
      decide
    refine ⟨_, hrun, ?_, hirq, hsent, (hcore1.trans hcore2).mem⟩
    rw [State.rf_eq, hreg _ (by decide), ← State.rf_eq, hact1]
  · refine ⟨_, ?_, rfl⟩
    rw [exec_pldmFirmwareUpdate, execPldmFirmwareUpdate, if_neg (by rw [hup]; decide)]
    split <;> rfl
  · refine ⟨s.setHostLink b (some ⟨w, r, inv.filter (· < 16)⟩), ?_, ?_, ?_, rfl⟩
    · rw [exec_hostLinkUp, execHostLinkUp, if_pos ⟨hal, by rw [hp]; decide, hw⟩]
    · cases b <;> rfl
    · cases b <;> rfl
  · refine ⟨_, ?_, rfl⟩
    rw [exec_configurationRequest, execConfigurationRequest, if_pos ⟨hl, hal⟩]
  · refine ⟨_, ?_, rfl⟩
    rw [exec_dynamicAddressAssignment, execDynamicAddressAssignment, if_neg (by rw [hr]; decide)]
    rfl
  · refine ⟨_, ?_, rfl⟩
    rw [exec_testAccessPort, execTestAccessPort, Bool.or_true]
  · refine ⟨_, ?_, rfl⟩
    rw [exec_testAccessPort, execTestAccessPort, Bool.or_false]
  · refine ⟨_, ?_, rfl⟩
    rw [exec_testAccessPort, execTestAccessPort, if_neg (by rw [h]; decide)]
  · rw [exec_testAccessPort, execTestAccessPort, if_pos h]

end Sys2Proof.Machine
end

section
/-! SUPPORT. The logical links (R298 to R303, R305, R310, R312): fault windows, replays, moves, failed ports, pause and foreign frames. -/

namespace Sys2Proof.Machine

/-! ## Registers and tables -/

theorem Table.getD_mapVals {α : Type} {d : α} (f : Nat → α → α) (t : Table α) (k : Nat) (hd : f k d = d) :
    Table.getD d (Table.mapVals f t) k = f k (Table.getD d t k) := by
  unfold Table.getD
  rw [Table.get?_mapVals]
  cases Table.get? t k with
  | none => exact hd.symm
  | some v => rfl

/-- A counter takes its count, and saturates. -/
theorem State.rf_sat_self (s : State) (a hi lo n : Nat) (h : lo ≤ hi) (h64 : hi < 64) :
    (s.sat a hi lo n).rf a hi lo = satPlus (hi + 1 - lo) (s.rf a hi lo) n := by
  have hpos : 0 < 2 ^ (hi + 1 - lo) := Nat.two_pow_pos _
  have hsat : satPlus (hi + 1 - lo) (s.rf a hi lo) n % 2 ^ (hi + 1 - lo) = satPlus (hi + 1 - lo) (s.rf a hi lo) n :=
    Nat.mod_eq_of_lt (by unfold satPlus; omega)
  exact (State.rf_wf_self s a hi lo _ h h64).trans hsat

theorem sameRegsBut.sat {l : List Nat} {s t : State} (h : sameRegsBut l s t) {a : Nat} (ha : a ∈ l) (hi lo n : Nat) :
    sameRegsBut l s (t.sat a hi lo n) := (h.wf ha hi lo _).of_regs rfl

/-- A bit that stands still stands after another is put. -/
theorem fld_or_keeps {w x : Word} {n : Nat} (h : fld w n n = 1) : fld (w ||| x) n n = 1 := by
  unfold fld bits at h ⊢
  rw [show n + 1 - n = 1 from by omega] at h ⊢
  have hw : w.toNat.testBit n = true := by
    rw [Nat.testBit_eq_decide_div_mod_eq, decide_eq_true_eq]
    exact h
  have hor : (w ||| x).toNat.testBit n = true := by rw [BitVec.toNat_or, Nat.testBit_or, hw, Bool.true_or]
  rw [Nat.testBit_eq_decide_div_mod_eq, decide_eq_true_eq] at hor
  exact hor

/-! ## Classes of links -/

theorem State.lc_modLc (s : State) (k n j m : Nat) (f : LinkClass → LinkClass) :
    (s.modLc k n f).lc j m = if j = k ∧ m = n then f (s.lc k n) else s.lc j m := by
  unfold State.modLc State.lc
  rw [State.link_modLink]
  by_cases hj : j = k
  · subst hj
    rw [if_pos rfl]
    dsimp only
    rw [Table.getD_put]
    simp
  · rw [if_neg hj, if_neg fun h => hj h.1]

theorem State.lc_modLc_self (s : State) (k n : Nat) (f : LinkClass → LinkClass) : (s.modLc k n f).lc k n = f (s.lc k n) := by
  rw [s.lc_modLc, if_pos ⟨rfl, rfl⟩]

/-- A change of a link that keeps its classes keeps every class. -/
theorem State.lc_modLink (s : State) (k j m : Nat) {f : Link → Link} (h : (f (s.link k)).classes = (s.link k).classes) :
    (s.modLink k f).lc j m = s.lc j m := by
  unfold State.lc
  rw [State.link_modLink]
  split
  next hj => rw [h, hj]
  next => rfl

/-- Each class of a link changed. -/
theorem State.lc_mapClasses (s : State) (k m : Nat) {f : Link → Link} {g : Nat → LinkClass → LinkClass}
    (hf : (f (s.link k)).classes = (s.link k).classes.mapVals g) (hg : g m LinkClass.init = LinkClass.init) :
    (s.modLink k f).lc k m = g m (s.lc k m) := by
  rw [State.lc, State.link_modLink_self, hf, Table.getD_mapVals _ _ _ hg, State.lc]

/-! ## What the upkeep of links touches -/

/-- The registers that it writes, by their offset in a page. -/
def linkWrites : List Nat := [Off.CTX_PROMISE, Off.PG_IRQ_RAW, Off.PG_IRQ_EN]

/-- Links, fault windows, promises, faults of the cycle and interrupts of pages may have changed, and no interrupt that stood is gone. -/
structure Rewired (s t : State) : Prop where
  core : t = { s with regs := t.regs, cycle := t.cycle, msix := t.msix, ctxs := t.ctxs, links := t.links, faultWins := t.faultWins,
                      replayCount := t.replayCount, strandFaults := t.strandFaults }
  reg : ∀ a, a % 2 ^ 12 ∉ linkWrites → t.reg a = s.reg a
  irq : ∀ a n, a % 2 ^ 12 = Off.PG_IRQ_RAW → s.rf a n n = 1 → t.rf a n n = 1
  faults : ∀ f ∈ s.cycle.faults, f ∈ t.cycle.faults

namespace Rewired
variable {s t u : State}

theorem refl (s : State) : Rewired s s := ⟨rfl, fun _ _ => rfl, fun _ _ _ h => h, fun _ h => h⟩

theorem trans (h : Rewired s t) (g : Rewired t u) : Rewired s u :=
  ⟨by rw [g.core, h.core], fun a ha => (g.reg a ha).trans (h.reg a ha), fun a n ha hn => g.irq a n ha (h.irq a n ha hn),
    fun f hf => g.faults f (h.faults f hf)⟩

theorem forAll {α : Type} (l : List α) (f : α → State → State) (hf : ∀ a s, Rewired s (f a s)) (s : State) :
    Rewired s (Machine.forAll l f s) := forAll_induct (P := Rewired s) (fun a t h => h.trans (hf a t)) l (.refl s)

/-- Where no register has changed. -/
theorem of_regs
    (hc : t = { s with cycle := t.cycle, ctxs := t.ctxs, links := t.links, faultWins := t.faultWins, replayCount := t.replayCount, strandFaults := t.strandFaults })
    (hf : ∀ f ∈ s.cycle.faults, f ∈ t.cycle.faults := by exact fun _ h => h) : Rewired s t := by
  have hr : ∀ a, t.reg a = s.reg a := fun a => by rw [State.reg, State.reg, show t.regs = s.regs from (congrArg State.regs hc :)]
  refine ⟨?_, fun a _ => hr a, fun a n _ h => ?_, hf⟩
  · rw [hc]
  · rw [State.rf_eq, hr]
    exact h

theorem memory (h : Rewired s t) : sameMemory s t := by
  rw [h.core]
  exact ⟨rfl, rfl, rfl, rfl, rfl, rfl⟩

theorem now (h : Rewired s t) : t.now = s.now := (congrArg State.now h.core :)

theorem routes (h : Rewired s t) : t.routes = s.routes := (congrArg State.routes h.core :)

theorem linkPorts (h : Rewired s t) (k : Nat) : t.linkPorts k = s.linkPorts k := by
  unfold State.linkPorts State.routeOfKey
  rw [h.routes]

end Rewired

theorem State.reg_congr (s : State) {a b : Nat} (h : homeAddr a = homeAddr b) : s.reg a = s.reg b := by rw [State.reg, State.reg, h]

/-- A raised interrupt takes no other away, on its page or another. -/
theorem State.raisePg_keepsIrq (s : State) (d b n : Nat) {a m : Nat} (ha : a % 2 ^ 12 = Off.PG_IRQ_RAW) (h : s.rf a m m = 1) :
    (s.raisePg d b n).rf a m m = 1 := by
  rw [State.rf_eq] at h ⊢
  by_cases hp : homeAddr a = homeAddr (bar0 d b Off.PG_IRQ_RAW)
  · rw [State.reg_congr _ hp, State.raisePg_raw]
    rw [State.reg_congr _ hp] at h
    exact fld_or_keeps h
  · have hen : homeAddr a ≠ homeAddr (bar0 d b Off.PG_IRQ_EN) := homeAddr_ne_of_mod (by rw [ha, bar0_mod d b (by decide)]; decide)
    have hset : ∀ raw en, (s.setPgIrq d b raw en).reg a = s.reg a := fun raw en => by
      rw [State.reg, (s.setPgIrq_spec d b raw en).2.2]
      exact (State.reg_setReg_ne _ _ hen).trans (s.reg_setReg_ne _ hp)
    rw [State.raisePg, State.reg_of_noteRaised, hset]
    exact h

theorem State.modLink_rewired (s : State) (k : Nat) (f : Link → Link) : Rewired s (s.modLink k f) := .of_regs rfl

theorem State.modLc_rewired (s : State) (k n : Nat) (f : LinkClass → LinkClass) : Rewired s (s.modLc k n f) := s.modLink_rewired k _

theorem State.refreshPromise_rewired (s : State) (c : Nat) : Rewired s (s.refreshPromise c) where
  core := by
    have h := s.refreshPromise_core c
    unfold sameCore at h
    rw [h]
  reg a ha := s.reg_refreshPromise c fun e => ha (by rw [e]; decide)
  irq a n ha hn := by
    rw [State.rf_eq, s.reg_refreshPromise c (by rw [ha]; decide)]
    exact hn
  faults f hf := by
    rw [(s.refreshPromise_keepsFaults (c := c) c).2]
    exact hf

theorem State.openWindow_rewired (s : State) (w : Elem) : Rewired s (s.openWindow w) := by
  unfold State.openWindow
  split
  · exact .refl s
  · refine Rewired.trans (t := { s with faultWins := w :: s.faultWins }) (.of_regs rfl) (.forAll _ _ (fun e t => ?_) _)
    exact Rewired.trans (t := t.modCtx e.1 _) (.of_regs rfl) (State.refreshPromise_rewired _ _)

theorem State.closeWindow_rewired (s : State) (w : Elem) : Rewired s (s.closeWindow w) := by
  unfold State.closeWindow
  refine Rewired.trans (t := { s with faultWins := s.faultWins.filter (· ≠ w) }) (.of_regs rfl) (.forAll _ _ (fun e t => ?_) _)
  exact t.refreshPromise_rewired e.1

theorem State.ctxFault_rewired (s : State) (c code : Nat) : Rewired s (s.ctxFault c code) := by
  have hf : ∀ f ∈ s.cycle.faults, f ∈ (s.ctxFault c code).cycle.faults := fun f hf => by
    unfold State.ctxFault State.detect
    split
    · exact hf
    · exact List.mem_append_left _ hf
  refine .of_regs ?_ hf
  rw [State.ctxFault, (s.detected_detect ⟨c, code, none⟩).2]

theorem State.raisePg_rewired (s : State) (d b n : Nat) : Rewired s (s.raisePg d b n) where
  core := by
    have h := s.raisePg_core d b n
    unfold sameCore at h
    rw [h]
  reg a ha := s.reg_raisePg d b n (fun e => ha (by rw [e]; decide)) (fun e => ha (by rw [e]; decide))
  irq _ _ ha hm := s.raisePg_keepsIrq d b n ha hm
  faults f hf := by
    have h : (s.raisePg d b n).cycle.faults = s.cycle.faults := by
      have hnote : ∀ (t : State) a w, (t.noteRaised a w).cycle.faults = t.cycle.faults := fun _ _ _ => rfl
      unfold State.raisePg
      rw [hnote]
      unfold State.setPgIrq
      dsimp only
      split
      · rw [State.setReg_cycle, State.setReg_cycle]
      · split
        · rw [State.setReg_cycle, State.setReg_cycle]
        · rw [State.sendMsix_cycle, State.setReg_cycle, State.setReg_cycle]
    rwa [h]

theorem State.linkDown_rewired (s : State) (k p : Nat) : Rewired s (s.linkDown k p) := by
  have hclose : ∀ t : State, Rewired t (t.closeLink k) := fun t =>
    (t.closeWindow_rewired _).trans (Rewired.forAll (List.range 8) (fun c t => t.closeWindow (.linkClass k c)) (fun _ t => t.closeWindow_rewired _) _)
  exact (((s.modLink_rewired k _).trans (hclose _)).trans (State.raisePg_rewired _ _ _ 2)).trans
    (Rewired.forAll _ (fun c t => t.ctxFault c 17) (fun c t => t.ctxFault_rewired c 17) _)

theorem State.linkLoss_rewired (s : State) (k p : Nat) : Rewired s (s.linkLoss k p) := by
  unfold State.linkLoss
  split
  · exact .refl s
  · split
    · exact s.linkDown_rewired k p
    · split
      · exact (s.modLink_rewired k _).trans (State.openWindow_rewired _ _)
      · exact .refl s

theorem State.refreshPromise_faultWins (s : State) (c : Nat) : (s.refreshPromise c).faultWins = s.faultWins :=
  (congrArg State.faultWins (s.refreshPromise_core c) :)

/-- A window that opens stands open. -/
theorem State.openWindow_mem (s : State) (w : Elem) : w ∈ (s.openWindow w).faultWins := by
  unfold State.openWindow
  split
  next h => exact h
  next =>
    refine forAll_induct (P := fun t => w ∈ t.faultWins) (fun e t h => ?_) s.ctxs List.mem_cons_self
    rw [State.refreshPromise_faultWins]
    exact h

/-! ## Replays -/

/-- Where the replay of a class goes on when one from sequence number `n` is asked for. -/
def LinkClass.replayFrom (l : LinkClass) (n : BitVec 32) : BitVec 32 :=
  match l.replay with
  | none => n
  | some p => if earlierMod 32 n.toNat p.toNat then n else p

/-- A class with a replay from sequence number `n` that ends with number `e`. -/
def LinkClass.replaying (n e : BitVec 32) (l : LinkClass) : LinkClass := { l with replay := some (l.replayFrom n), replayEnd := e }

theorem State.startReplay_none {s : State} {k c : Nat} (h : (s.lc k c).held = []) (n : BitVec 32) : s.startReplay k c n = s := by
  unfold State.startReplay
  dsimp only
  rw [h]
  rfl

theorem State.startReplay_some {s : State} {k c : Nat} {z : HeldFrame} (h : (s.lc k c).held.getLast? = some z) (n : BitVec 32) :
    ∃ r t, t = s.modLc k c (LinkClass.replaying n z.seq) ∧ s.startReplay k c n = { t with replayCount := r }.openReplay k c := by
  unfold State.startReplay
  extract_lets l
  rw [show l.held.getLast? = some z from h]
  dsimp -zeta only
  extract_lets s1 s2
  have hs1 : s1 = s.modLc k c (LinkClass.replaying n z.seq) := by
    refine congrArg (s.modLc k c) (funext fun x => ?_)
    obtain ⟨_, _, _, _, _, _, _, _, _, _, replay, _⟩ := x
    cases replay <;> rfl
  have hs2 : ∃ r, s2 = { s1 with replayCount := r } := by
    unfold s2
    split
    · exact ⟨s1.replayCount, rfl⟩
    · split
      · exact ⟨s1.replayCount, rfl⟩
      · exact ⟨_, rfl⟩
  obtain ⟨r, hr⟩ := hs2
  exact ⟨r, s1, hs1, by rw [hr]⟩

theorem State.openReplay_spec (s : State) (k c : Nat) :
    Rewired s (s.openReplay k c) ∧ (s.openReplay k c).links = s.links
      ∧ (Elem.link k ∈ (s.openReplay k c).faultWins ∨ Elem.linkClass k c ∈ (s.openReplay k c).faultWins) := by
  unfold State.openReplay
  split
  next h => exact ⟨.refl s, rfl, .inl h⟩
  next => exact ⟨s.openWindow_rewired _, (s.openWindow_links _).2, .inr (s.openWindow_mem _)⟩

/-- The start of a replay changes one class of one link, which replays where it holds a frame (R299, R300). -/
theorem State.startReplay_spec (s : State) (k c : Nat) (n : BitVec 32) :
    Rewired s (s.startReplay k c n)
      ∧ (∀ j m, ¬(j = k ∧ m = c) → (s.startReplay k c n).lc j m = s.lc j m)
      ∧ ((s.lc k c).held ≠ [] → (∃ e, (s.startReplay k c n).lc k c = (s.lc k c).replaying n e)
          ∧ (Elem.link k ∈ (s.startReplay k c n).faultWins ∨ Elem.linkClass k c ∈ (s.startReplay k c n).faultWins))
      ∧ ∀ j, ∃ t, (s.startReplay k c n).link j = { s.link j with classes := t } := by
  cases hl : (s.lc k c).held.getLast? with
  | none =>
    have hnil : (s.lc k c).held = [] := List.getLast?_eq_none_iff.mp hl
    rw [State.startReplay_none hnil]
    exact ⟨.refl s, fun _ _ _ => rfl, fun h => absurd hnil h, fun j => ⟨_, rfl⟩⟩
  | some z =>
    obtain ⟨r, s1, hs1, hr⟩ := State.startReplay_some hl n
    obtain ⟨h2, hlinks, hwin⟩ := State.openReplay_spec { s1 with replayCount := r } k c
    have h1 : Rewired s s1 := by
      rw [hs1]
      exact s.modLc_rewired k c _
    have hlink : ∀ j, (s.startReplay k c n).link j = s1.link j := fun j => by rw [hr, State.link, hlinks, State.link]
    have hlc : ∀ j m, (s.startReplay k c n).lc j m = s1.lc j m := fun j m => by rw [State.lc, hlink, State.lc]
    refine ⟨?_, fun j m hj => ?_, fun _ => ⟨⟨z.seq, ?_⟩, ?_⟩, fun j => ?_⟩
    · rw [hr]
      exact (h1.trans (t := s1) (.of_regs rfl)).trans h2
    · rw [hlc, hs1, State.lc_modLc, if_neg hj]
    · rw [hlc, hs1, State.lc_modLc_self]
    · rw [hr]
      exact hwin
    · rw [hlink, hs1, State.modLc, State.link_modLink]
      by_cases hj : j = k
      · rw [if_pos hj, hj]
        exact ⟨_, rfl⟩
      · rw [if_neg hj]
        exact ⟨_, rfl⟩

/-! ## Moves -/

/-- A replay started in each class of a link. -/
def State.replayEach (s : State) (k : Nat) : State := forAll (List.range 8) (fun c t => t.startReplay k c (t.lc k c).una) s

/-- A replay that starts in one class leaves what every class holds and every replay that runs. -/
theorem State.startReplay_class (s : State) (k c m : Nat) (n : BitVec 32) :
    ((s.startReplay k c n).lc k m).held = (s.lc k m).held
      ∧ ((m = c ∨ (s.lc k m).replay.isSome = true) → (s.lc k m).held ≠ [] → ((s.startReplay k c n).lc k m).replay.isSome = true) := by
  obtain ⟨-, hother, hown, -⟩ := s.startReplay_spec k c n
  by_cases hm : m = c
  · subst hm
    by_cases hh : (s.lc k m).held = []
    · rw [State.startReplay_none hh]
      exact ⟨rfl, fun _ h => absurd hh h⟩
    · obtain ⟨⟨e, he⟩, -⟩ := hown hh
      rw [he]
      exact ⟨rfl, fun _ _ => rfl⟩
  · rw [hother k m fun h => hm h.2]
    exact ⟨rfl, fun h _ => h.resolve_left hm⟩

theorem State.replayEach_spec (s : State) (k : Nat) :
    Rewired s (s.replayEach k) ∧ (∃ t, (s.replayEach k).link k = { s.link k with classes := t })
      ∧ (∀ c, ((s.replayEach k).lc k c).held = (s.lc k c).held)
      ∧ ∀ c, c < 8 → (s.lc k c).held ≠ [] → ((s.replayEach k).lc k c).replay.isSome = true := by
  have hheld : ∀ c, ((s.replayEach k).lc k c).held = (s.lc k c).held := fun c =>
    forAll_induct (P := fun t => (t.lc k c).held = (s.lc k c).held) (fun m t h => (t.startReplay_class k m c _).1.trans h) (List.range 8) rfl
  refine ⟨.forAll _ _ (fun c t => (t.startReplay_spec k c _).1) s, ?_, hheld, fun c hc hne => ?_⟩
  · refine forAll_induct (P := fun t => ∃ x, t.link k = { s.link k with classes := x }) (fun c t h => ?_) (List.range 8) ⟨_, rfl⟩
    obtain ⟨y, hy⟩ := h
    obtain ⟨x, hx⟩ := (t.startReplay_spec k c (t.lc k c).una).2.2.2 k
    exact ⟨x, by rw [hx, hy]⟩
  · refine forAll_each (Q := fun c t => (t.lc k c).held ≠ [] → (t.lc k c).replay.isSome = true) (fun m t h => ?_) (fun m b t h hm => ?_) _ s c
      (List.mem_range.mpr hc) (by rw [← State.replayEach, hheld]; exact hne)
    · rw [(t.startReplay_class k m m _).1] at h
      exact (t.startReplay_class k m m _).2 (.inl rfl) h
    · rw [(t.startReplay_class k b m _).1] at hm
      exact (t.startReplay_class k b m _).2 (.inr (h hm)) hm

/-- A link goes on at its port as it is: everything it holds is replayed there (R310). -/
theorem State.replayAll_spec (s : State) (k : Nat) :
    Rewired s (s.replayAll k) ∧ ((s.replayAll k).link k).moving = false ∧ ((s.replayAll k).link k).onSecondary = (s.link k).onSecondary
      ∧ ∀ c, c < 8 → (s.lc k c).held ≠ [] → ((s.replayAll k).lc k c).replay.isSome = true ∧ ((s.replayAll k).lc k c).held = (s.lc k c).held := by
  obtain ⟨s1, hs1⟩ : ∃ s1, s1 = s.modLink k fun l => { l with moving := false, movedUntil := true, since := s.now } := ⟨_, rfl⟩
  have hall : s.replayAll k = if ((s1.replayEach k).link k).classes.all (fun e => e.2.held = []) then
      ((s1.replayEach k).modLink k fun l => { l with movedUntil := false }).closeWindow (.link k) else s1.replayEach k := by
    rw [hs1]
    rfl
  have h1 : Rewired s s1 := by
    rw [hs1]
    exact s.modLink_rewired k _
  have hlink1 : (s1.link k).moving = false ∧ (s1.link k).onSecondary = (s.link k).onSecondary := by
    rw [hs1, State.link_modLink_self]
    exact ⟨rfl, rfl⟩
  have hlc1 : ∀ c, s1.lc k c = s.lc k c := fun c => by
    rw [hs1]
    exact s.lc_modLink k k c rfl
  obtain ⟨h2, ⟨x, hlink2⟩, hheld, hreplay⟩ := s1.replayEach_spec k
  have hclasses : ∀ c, c < 8 → (s.lc k c).held ≠ [] → ((s1.replayEach k).lc k c).replay.isSome = true ∧ ((s1.replayEach k).lc k c).held = (s.lc k c).held :=
    fun c hc hne => ⟨hreplay c hc (by rwa [hlc1]), (hheld c).trans (by rw [hlc1])⟩
  generalize s1.replayEach k = s2 at hall h2 hlink2 hclasses
  rw [hall]
  split
  · generalize hs3 : s2.modLink k (fun l => { l with movedUntil := false }) = s3
    have h3 : Rewired s2 s3 := by
      rw [← hs3]
      exact s2.modLink_rewired k _
    have hclose := (s3.closeWindow_links (.link k)).link k
    have hlink3 : s3.link k = { s2.link k with movedUntil := false } := by rw [← hs3, State.link_modLink_self]
    have hlc3 : ∀ c, (s3.closeWindow (.link k)).lc k c = s2.lc k c := fun c => by rw [State.lc, hclose, hlink3, State.lc]
    refine ⟨((h1.trans h2).trans h3).trans (s3.closeWindow_rewired _), ?_, ?_, fun c hc hne => ?_⟩
    · rw [hclose, hlink3, hlink2]
      exact hlink1.1
    · rw [hclose, hlink3, hlink2]
      exact hlink1.2
    · rw [hlc3]
      exact hclasses c hc hne
  · rw [hlink2]
    exact ⟨h1.trans h2, hlink1.1, hlink1.2, hclasses⟩

end Sys2Proof.Machine
end

section
/-! SUPPORT. Failed ports, moves, pause, clock and foreign frames (R288, R289, R296, R303, R305, R310, R312). -/

namespace Sys2Proof.Machine

/-! ## The registers of a port -/

theorem eavReg_mod (p : Nat) {off : Nat} (h : off < 2 ^ 12) : bar0 (portDie p) 0 off % 2 ^ 12 = off := bar0_mod _ _ h

/-- EAV_PSTS of a port is none of the registers below the ports' blocks, and no promise. -/
theorem portSts_ne (p : Nat) {off : Nat} (h : off < 0x400) : portReg p Off.EAV_PSTS % 2 ^ 12 ≠ off := by
  have : portReg p Off.EAV_PSTS % 2 ^ 12 = Off.EAV_PSTS + 0x40 * (p % 8) := portReg_mod (by decide)
  simp only [Off.EAV_PSTS] at this ⊢
  omega

theorem portSts_quiet (p : Nat) : portReg p Off.EAV_PSTS % 2 ^ 12 ∉ linkWrites := by
  have h := portSts_mod p
  have h1 := portSts_ne p (off := Off.PG_IRQ_RAW) (by decide)
  have h2 := portSts_ne p (off := Off.PG_IRQ_EN) (by decide)
  have h3 : portReg p Off.EAV_PSTS % 2 ^ 12 ≠ Off.CTX_PROMISE := fun e => by
    simp only [Off.CTX_PROMISE] at e
    omega
  simp only [linkWrites, List.mem_cons, List.not_mem_nil, or_false, not_or]
  exact ⟨h3, h1, h2⟩

theorem Rewired.portFailed {s t : State} (h : Rewired s t) (p : Nat) : t.portFailed p = s.portFailed p :=
  State.portFailed_congr (h.reg _ (portSts_quiet p))

theorem Rewired.reroute {s t : State} (h : Rewired s t) (p hi lo : Nat) :
    t.rf (bar0 (portDie p) 0 Off.EAV_REROUTE) hi lo = s.rf (bar0 (portDie p) 0 Off.EAV_REROUTE) hi lo := by
  rw [State.rf_eq, State.rf_eq, h.reg _ (by rw [eavReg_mod p (by decide)]; decide)]

theorem State.portDown_reg (s : State) (p a : Nat) : (s.portDown p).reg a = (s.wf (portReg p Off.EAV_PSTS) 0 0 0).reg a := by
  unfold State.portDown
  dsimp only
  split <;> rfl

/-! ## A port that fails -/

/-- A port that fails shows it, and the links on it have lost it (R303). -/
theorem State.portFails_spec (s : State) {p : Nat} (hp : p < 64) :
    (s.portFails p).portUpNow p = false ∧ (s.portFails p).portFailed p = true
      ∧ (s.portFails p).rf (bar0 (portDie p) 0 Off.PG_IRQ_RAW) 0 0 = 1 ∧ (s.portFails p).rf (bar0 (portDie p) 0 Off.EAV_REROUTE) 21 16 = p := by
  obtain ⟨s0, hs0⟩ : ∃ s0, s0 = (s.portDown p).wf (portReg p Off.EAV_PSTS) 1 1 1 := ⟨_, rfl⟩
  obtain ⟨s1, hs1⟩ : ∃ s1, s1 = (s0.wf (bar0 (portDie p) 0 Off.EAV_REROUTE) 21 16 p).raisePg (portDie p) 0 0 := ⟨_, rfl⟩
  have hfails : s.portFails p = forAll (s1.linksOf p) (fun k t => t.linkLoss k p) s1 := by
    rw [hs1, hs0, State.portFails]
  rw [hfails]
  have h : Rewired s1 (forAll (s1.linksOf p) (fun k t => t.linkLoss k p) s1) := .forAll _ _ (fun k t => t.linkLoss_rewired k p) s1
  have hsts : s1.reg (portReg p Off.EAV_PSTS) = ins (ins (s.reg (portReg p Off.EAV_PSTS)) 0 0 0) 1 1 1 := by
    rw [hs1, State.reg_raisePg _ _ _ _ (portSts_ne p (by decide)) (portSts_ne p (by decide)),
      State.reg_wf_of_mod _ _ _ _ (by rw [eavReg_mod p (by decide)]; exact portSts_ne p (by decide)), hs0, State.wf_eq, State.reg_setReg_self,
      State.portDown_reg, State.wf_eq, State.reg_setReg_self]
  have hraw : s1.rf (bar0 (portDie p) 0 Off.PG_IRQ_RAW) 0 0 = 1 := by
    rw [hs1]
    exact State.raisePg_bit _ _ _ (by decide)
  have hrer : s1.rf (bar0 (portDie p) 0 Off.EAV_REROUTE) 21 16 = p := by
    rw [hs1, State.rf_eq, State.reg_raisePg _ _ _ _ (by rw [eavReg_mod p (by decide)]; decide) (by rw [eavReg_mod p (by decide)]; decide), ← State.rf_eq,
      State.rf_wf_self _ _ 21 16 _ (by decide) (by decide)]
    exact Nat.mod_eq_of_lt hp
  refine ⟨?_, ?_, h.irq _ 0 (eavReg_mod p (by decide)) hraw, (h.reroute p 21 16).trans hrer⟩
  · rw [State.portUpNow, State.rf_eq, h.reg _ (portSts_quiet p), hsts, fld_ins_below _ 1 1 _ 0 0 (by decide) (by decide) (by decide) (by decide),
      fld_ins_self _ 0 0 _ (by decide) (by decide)]
    decide
  · rw [h.portFailed p, State.portFailed, State.rf_eq, hsts, fld_ins_self _ 1 1 _ (by decide) (by decide)]
    decide

/-! ## One link that has lost a side -/

/-- A link taken as failed on the side it is active on. -/
def Link.sideLost (l : Link) : Link := if l.onSecondary then { l with failedS := true } else { l with failedP := true }

theorem Link.sideLost_spec (l : Link) :
    (if l.onSecondary then l.sideLost.failedS = true else l.sideLost.failedP = true) ∧ l.sideLost.onSecondary = l.onSecondary
      ∧ l.sideLost.down = l.down ∧ (if l.onSecondary then l.sideLost.failedP = l.failedP else l.sideLost.failedS = l.failedS) := by
  unfold Link.sideLost
  cases l.onSecondary <;> exact ⟨rfl, rfl, rfl, rfl⟩

/-- What the loss of the active side leaves of a link that is not DOWN (R303, R310, R312). -/
theorem State.linkLoss_active {s : State} {k p : Nat} (hp : s.activePort k = some p) (hd : (s.link k).down = false)
    (hf : s.sideFailed k (s.link k).onSecondary = true) :
    ((s.linkLoss k p).link k).failedS = (s.link k).failedS ∧ ((s.linkLoss k p).link k).failedP = (s.link k).failedP
      ∧ (s.sideFailed k (!(s.link k).onSecondary) = false → Elem.link k ∈ (s.linkLoss k p).faultWins ∧ ((s.linkLoss k p).link k).moving = true
          ∧ ((s.linkLoss k p).link k).down = false)
      ∧ (s.sideFailed k (!(s.link k).onSecondary) = true → ((s.linkLoss k p).link k).down = true) := by
  have hboth : (s.sideFailed k false ∧ s.sideFailed k true) ↔ s.sideFailed k (!(s.link k).onSecondary) = true := by
    generalize (s.link k).onSecondary = b at hf ⊢
    cases b
    · simp [hf]
    · simp [hf]
  unfold State.linkLoss
  rw [if_neg (by rw [hd]; decide)]
  split
  next h =>
    have hother := hboth.mp h
    rw [(s.linkDown_spec k p).2.1]
    exact ⟨rfl, rfl, fun e => absurd hother (by rw [e]; decide), fun _ => rfl⟩
  next h =>
    rw [(State.openWindow_links _ _).link k, State.link_modLink_self]
    exact ⟨rfl, rfl, fun _ => ⟨State.openWindow_mem _ _, rfl, hd⟩, fun e => absurd (hboth.mpr e) h⟩

/-- LINK_SILENCE_TIMEOUT past its conditions (R303). -/
theorem execLinkSilenceTimeout_lost {s : State} {k p : Nat} (hp : s.activePort k = some p) (ha : s.linkActive k = true)
    (hf : s.sideFailed k (s.link k).onSecondary = false) (ht : max (s.link k).lastRx (s.link k).since + s.cyc 6000 ≤ s.now) :
    execLinkSilenceTimeout k s = .next (((s.modLink k Link.sideLost).wf (bar0 (portDie p) 0 Off.EAV_REROUTE) 21 16 p).linkLoss k p) := by
  unfold execLinkSilenceTimeout
  rw [hp]
  dsimp only
  rw [if_neg (by simp [ha, hf, Nat.not_lt.2 ht])]
  rfl

/-- Silence on the active port of a link (R303). -/
theorem State.silence_spec {s : State} {k p : Nat} (hp : s.activePort k = some p) (hp64 : p < 64) (ha : s.linkActive k = true) :
    let u := ((s.modLink k Link.sideLost).wf (bar0 (portDie p) 0 Off.EAV_REROUTE) 21 16 p).linkLoss k p
    (if (s.link k).onSecondary then (u.link k).failedS = true else (u.link k).failedP = true)
      ∧ u.rf (bar0 (portDie p) 0 Off.EAV_REROUTE) 21 16 = p
      ∧ (s.sideFailed k (!(s.link k).onSecondary) = false → Elem.link k ∈ u.faultWins ∧ (u.link k).moving = true ∧ (u.link k).down = false ∧ sameMemory s u)
      ∧ (s.sideFailed k (!(s.link k).onSecondary) = true → (u.link k).down = true) := by
  obtain ⟨hlost, hside, hdown, hkept⟩ := (s.link k).sideLost_spec
  obtain ⟨t0, ht0⟩ : ∃ t0, t0 = s.modLink k Link.sideLost := ⟨_, rfl⟩
  obtain ⟨t, ht⟩ : ∃ t, t = t0.wf (bar0 (portDie p) 0 Off.EAV_REROUTE) 21 16 p := ⟨_, rfl⟩
  have h0 : Rewired s t0 := by
    rw [ht0]
    exact s.modLink_rewired k _
  have hwf : onlyRegs t0 t := by
    rw [ht]
    exact onlyRegs.wf t0 _ 21 16 p
  rw [← ht0, ← ht]
  intro u
  have hlink : t.link k = (s.link k).sideLost := by
    rw [State.link, show t.links = t0.links from (congrArg State.links hwf :), ← State.link, ht0, State.link_modLink_self]
  have hports : t.linkPorts k = s.linkPorts k := by
    unfold State.linkPorts State.routeOfKey
    rw [show t.routes = t0.routes from (congrArg State.routes hwf :), h0.routes]
  have hfailed : ∀ q, t.portFailed q = s.portFailed q := fun q => by
    refine (State.portFailed_congr ?_).trans (h0.portFailed q)
    rw [ht, State.reg_wf_of_mod _ _ _ _ (by rw [eavReg_mod p (by decide)]; exact portSts_ne q (by decide))]
  have hmem : sameMemory s t := h0.memory.trans hwf.core.mem
  have hrer : t.rf (bar0 (portDie p) 0 Off.EAV_REROUTE) 21 16 = p := by
    rw [ht, State.rf_wf_self _ _ 21 16 _ (by decide) (by decide)]
    exact Nat.mod_eq_of_lt hp64
  have hactive : t.activePort k = some p := by
    rw [← hp, State.activePort, State.activePort, hports, hlink, hside]
  have hd : (t.link k).down = false := by
    rw [hlink, hdown]
    simp only [State.linkActive, Bool.and_eq_true, Bool.not_eq_true'] at ha
    exact ha.1
  have hown : t.sideFailed k (t.link k).onSecondary = true := by
    rw [hlink, hside, State.sideFailed, hlink]
    revert hlost
    generalize (s.link k).onSecondary = b
    intro hlost
    cases b
    · simp only [Bool.false_eq_true, if_false] at hlost ⊢
      rw [hlost, Bool.true_or]
    · simp only [if_true] at hlost ⊢
      rw [hlost, Bool.true_or]
  have hother : t.sideFailed k (!(t.link k).onSecondary) = s.sideFailed k (!(s.link k).onSecondary) := by
    rw [hlink, hside, State.sideFailed, State.sideFailed, hlink, hports]
    simp only [hfailed]
    revert hkept
    generalize (s.link k).onSecondary = b
    intro hkept
    cases b
    · simp only [Bool.false_eq_true, if_false, Bool.not_false, if_true] at hkept ⊢
      rw [hkept]
    · simp only [Bool.false_eq_true, if_false, Bool.not_true, if_true] at hkept ⊢
      rw [hkept]
  obtain ⟨hS, hP, hmove, hgone⟩ := State.linkLoss_active hactive hd hown
  rw [hother] at hmove hgone
  have hrew := t.linkLoss_rewired k p
  refine ⟨?_, (hrew.reroute p 21 16).trans hrer, fun h => ?_, hgone⟩
  · rw [hlink] at hS hP
    rw [show (u.link k).failedS = _ from hS, show (u.link k).failedP = _ from hP]
    exact hlost
  · obtain ⟨h1, h2, h3⟩ := hmove h
    exact ⟨h1, h2, h3, hmem.trans hrew.memory⟩

/-! ## A link that moves -/

theorem execLinkMove_moves {s : State} {k p q : Nat} (hp : s.activePort k = some p) (hq : s.otherPort k = some q) (hd : (s.link k).down = false)
    (hm : (s.link k).moving = true) (hf : s.sideFailed k (!(s.link k).onSecondary) = false) (hup : s.portUpNow q = true) :
    execLinkMove k s = .next (s.moveLink k p) := by
  unfold execLinkMove
  rw [hp, hq]
  dsimp only
  rw [if_pos (by simp [hd, hm, hf, hup])]

/-- A move takes a link to its other port, and all it holds is replayed there (R310). -/
theorem State.moveLink_spec {s : State} {k p q : Nat} (hq : s.otherPort k = some q) :
    (s.moveLink k p).activePort k = some q ∧ ((s.moveLink k p).link k).moving = false
      ∧ (s.moveLink k p).rf (bar0 (portDie p) 0 Off.EAV_REROUTE) 15 0 = satPlus 16 (s.rf (bar0 (portDie p) 0 Off.EAV_REROUTE) 15 0) 1
      ∧ (s.moveLink k p).rf (bar0 (portDie p) 0 Off.PG_IRQ_RAW) 1 1 = 1
      ∧ (∀ c, c < 8 → (s.lc k c).held ≠ [] → ((s.moveLink k p).lc k c).replay.isSome = true ∧ ((s.moveLink k p).lc k c).held = (s.lc k c).held)
      ∧ sameMemory s (s.moveLink k p) := by
  obtain ⟨s1, hs1⟩ : ∃ s1, s1 = s.modLink k fun l => { l with onSecondary := !l.onSecondary } := ⟨_, rfl⟩
  obtain ⟨s2, hs2⟩ : ∃ s2, s2 = s1.sat (bar0 (portDie p) 0 Off.EAV_REROUTE) 15 0 1 := ⟨_, rfl⟩
  obtain ⟨s3, hs3⟩ : ∃ s3, s3 = s2.raisePg (portDie p) 0 1 := ⟨_, rfl⟩
  have hmove : s.moveLink k p = s3.replayAll k := by
    rw [hs3, hs2, hs1]
    rfl
  have h1 : Rewired s s1 := by
    rw [hs1]
    exact s.modLink_rewired k _
  have hlink1 : s1.link k = { s.link k with onSecondary := !(s.link k).onSecondary } := by rw [hs1, State.link_modLink_self]
  have hlinks2 : s2.links = s1.links := by
    rw [hs2]
    exact (congrArg State.links (onlyRegs.sat s1 _ 15 0 1) :)
  have hroutes2 : s2.routes = s1.routes := by
    rw [hs2]
    exact (congrArg State.routes (onlyRegs.sat s1 _ 15 0 1) :)
  have hmem2 : sameMemory s1 s2 := by
    rw [hs2]
    exact (onlyRegs.sat s1 _ 15 0 1).core.mem
  have h3 : Rewired s2 s3 := by
    rw [hs3]
    exact s2.raisePg_rewired _ 0 1
  have hl3 : s3.link k = s1.link k := by
    have h := s2.raisePg_links (portDie p) 1
    rw [← hs3] at h
    rw [h.link k, State.link, hlinks2, State.link]
  have hlc3 : ∀ c, s3.lc k c = s.lc k c := fun c => by rw [State.lc, hl3, hlink1, State.lc]
  obtain ⟨h4, hmoving, hsec, hreplay⟩ := s3.replayAll_spec k
  rw [hmove]
  refine ⟨?_, hmoving, ?_, h4.irq _ 1 (eavReg_mod p (by decide)) ?_, fun c hc hne => ?_, ((h1.memory.trans hmem2).trans h3.memory).trans h4.memory⟩
  · have hports : (s3.replayAll k).linkPorts k = s.linkPorts k := by
      unfold State.linkPorts State.routeOfKey
      rw [h4.routes, h3.routes, hroutes2, h1.routes]
    rw [← hq, State.activePort, State.otherPort, hports, hsec, hl3, hlink1]
    refine congrArg (fun f => (s.linkPorts k).map f) (funext fun x => ?_)
    cases (s.link k).onSecondary <;> rfl
  · have hreg1 : s1.rf (bar0 (portDie p) 0 Off.EAV_REROUTE) 15 0 = s.rf (bar0 (portDie p) 0 Off.EAV_REROUTE) 15 0 := h1.reroute p 15 0
    rw [h4.reroute, h3.reroute, hs2, State.rf_sat_self _ _ 15 0 _ (by decide) (by decide), hreg1]
  · rw [hs3]
    exact State.raisePg_bit _ _ _ (by decide)
  · obtain ⟨ha, hb⟩ := hreplay c hc (by rwa [hlc3])
    exact ⟨ha, hb.trans (by rw [hlc3])⟩

/-- With both sides failed and nothing in flight the link is DOWN and empty (R312). -/
theorem State.linkLoss_both {s : State} {k : Nat} (p c : Nat) (hd : (s.link k).down = false) (h1 : s.sideFailed k false = true)
    (h2 : s.sideFailed k true = true) (hx : s.ctxsOnLink k = []) :
    ((s.linkLoss k p).link k).down = true ∧ ((s.linkLoss k p).lc k c).held = [] ∧ ((s.linkLoss k p).lc k c).txq = []
      ∧ (s.linkLoss k p).rf (bar0 (portDie p) 0 Off.PG_IRQ_RAW) 2 2 = 1 := by
  have hloss : s.linkLoss k p = s.linkDown k p := by rw [State.linkLoss, if_neg (by rw [hd]; decide), if_pos ⟨h1, h2⟩]
  have hlink := (s.linkDown_spec k p).2.1
  have hlc : (s.linkDown k p).lc k c = { s.lc k c with held := [], txq := [], replay := none } := by
    rw [State.lc, hlink]
    exact Table.getD_mapVals (fun _ (x : LinkClass) => { x with held := [], txq := [], replay := none }) _ _ rfl
  rw [hloss, hlc, hlink]
  refine ⟨rfl, rfl, rfl, ?_⟩
  rw [State.linkDown, hx]
  exact State.raisePg_bit _ _ _ (by decide)

/-! ## Pause and clock -/

/-- A port that is up pauses a priority that flow control runs on, or resumes it (R305). -/
theorem execPauseFrame_acts {s : State} {p prio : Nat} (quanta : Nat) (hup : s.portUpNow p = true) (hon : s.pfcOn p prio = true) :
    execPauseFrame p prio quanta s = .next (s.modPort p fun x => { x with
      pausedUntil := if quanta = 0 then Table.erase x.pausedUntil prio
        else Table.set x.pausedUntil prio (s.now + s.cyc (s.pauseNs p quanta)) }) := by
  rw [execPauseFrame, if_pos ⟨hup, hon⟩]

theorem State.port_sendPause (s : State) (p prio quanta q : Nat) : (s.sendPause p prio quanta).port q = s.port q := rfl

theorem pfcOn_high (s : State) (p : Nat) {prio : Nat} (h : 6 ≤ prio) : s.pfcOn p prio = false := by
  simp [State.pfcOn, Nat.not_lt.2 h]

/-- A frame of an EtherType that the port does not know counts once (R288, R296). -/
theorem State.countForeign (s : State) (a hi lo : Nat) (h : lo ≤ hi) (h64 : hi < 64) :
    (s.sat a hi lo 1).rf a hi lo = satPlus (hi + 1 - lo) (s.rf a hi lo) 1 ∧ onlyRegs s (s.sat a hi lo 1) ∧ sameRegsBut [a] s (s.sat a hi lo 1) :=
  ⟨s.rf_sat_self a hi lo 1 h h64, .sat s a hi lo 1, (sameRegsBut.refl _ s).sat List.mem_cons_self hi lo 1⟩

/-- Settles O51: the loss of a side decides between a move and DOWN, and pause, clock and foreign frames touch only their port. -/
theorem linksMovePauseAndKeepTime : Obligations.LinksMovePauseAndKeepTime := by
  unfold Obligations.LinksMovePauseAndKeepTime
  refine ⟨⟨fun s k p hp h64 ha hf ht => ?_, fun s p h64 hup => ?_, fun s k p q hp hq _ hd hm hf hup => ?_, fun s k p c _ _ hd h1 h2 hx =>
    State.linkLoss_both p c hd h1 h2 hx⟩, fun s p h64 => ⟨fun prio quanta hup hlt hbit => ?_, fun prio quanta h6 => ?_, fun prio t ht hle => ?_,
    fun prio hup hon hdue => ?_, fun prio h => ?_, fun b h1 h2 hup => ?_, fun b h => ?_, fun h => ?_, fun etype hup hal h1 h2 => ?_⟩⟩
  · exact ⟨_, execLinkSilenceTimeout_lost hp ha hf ht, State.silence_spec hp h64 ha⟩
  · exact ⟨_, by rw [exec_portSignalLoss, execPortSignalLoss, if_pos hup], s.portFails_spec h64⟩
  · exact ⟨_, execLinkMove_moves hp hq hd hm hf hup, State.moveLink_spec hq⟩
  · have hon : s.pfcOn p prio = true := by
      rw [State.pfcOn, hbit, decide_eq_true hlt]
      rfl
    refine ⟨_, execPauseFrame_acts quanta hup hon, ?_, fun q hq => ?_, rfl⟩
    · rw [State.port_modPort_self]
      dsimp only
      split
      · rw [Table.get?_erase, if_pos rfl]
      · rw [Table.get?_set, if_pos rfl]
        rfl
    · rw [State.port_modPort_self]
      dsimp only
      split
      · rw [Table.get?_erase, if_neg hq]
      · rw [Table.get?_set, if_neg hq]
  · refine ⟨s, ?_, rfl⟩
    rw [exec_pauseFrame, execPauseFrame, if_neg (by simp [pfcOn_high s p h6])]
  · refine ⟨s.modPort p fun x => { x with pausedUntil := Table.erase x.pausedUntil prio }, ?_, ?_, rfl⟩
    · rw [exec_pauseExpiry, execPauseExpiry, ht, if_pos (by simpa using hle)]
    · rw [State.port_modPort_self, Table.get?_erase, if_pos rfl]
  · refine ⟨_, by rw [exec_pauseRepeat, execPauseRepeat, if_pos ⟨hup, hon, hdue⟩], ?_, rfl⟩
    rw [State.port_sendPause, State.port_modPort_self, Table.get?_set, if_pos rfl]
  · refine ⟨s, ?_, rfl⟩
    rw [exec_pauseRepeat, execPauseRepeat, if_neg]
    rintro ⟨hup, -, hdue⟩
    rcases h with h | h
    · exact absurd hup (by rw [h]; decide)
    · exact absurd hdue (by rw [h]; decide)
  · exact ⟨_, by rw [exec_ptpFrame, execPtpFrame, if_pos ⟨h1, h2, hup⟩], rfl⟩
  · exact ⟨s, by rw [exec_ptpFrame, execPtpFrame, if_neg (by rw [h]; simp)], rfl⟩
  · exact ⟨_, by rw [exec_ppsSecond, execPpsSecond, if_pos h], rfl⟩
  · have hpass : ¬(!s.portUpNow p ∨ !s.alive (portDie p) ∨ etype = 0x88F7
        ∨ etype.toNat = s.rf (bar0 (portDie p) 0 Off.EAV_ETYPE) 15 0) := by
      rw [hup, hal]
      rintro (h | h | h | h)
      · exact absurd h (by decide)
      · exact absurd h (by decide)
      · exact h1 h
      · exact h2 h
    refine ⟨⟨_, ?_, s.countForeign _ 47 32 (by decide) (by decide)⟩, ⟨_, ?_, s.countForeign _ 31 0 (by decide) (by decide)⟩⟩
    · rw [exec_otherEthertypeFrame, execOtherEthertypeFrame, if_neg hpass, if_pos rfl]
      rfl
    · rw [exec_otherEthertypeFrame, execOtherEthertypeFrame, if_neg hpass, if_neg (by decide)]

end Sys2Proof.Machine
end

section
/-! SUPPORT. Frames sent, held and replayed (R290, R298 to R302). -/

namespace Sys2Proof.Machine

theorem onlyRegs.wrap (s : State) (a hi lo n : Nat) : onlyRegs s (s.wrap a hi lo n) := rfl

/-! ## A frame on the wire -/

/-- Only the ports' tables differ between two states. -/
def onlyPorts (s t : State) : Prop := t = { s with ports := t.ports }

theorem onlyPorts.trans {s t u : State} (h : onlyPorts s t) (g : onlyPorts t u) : onlyPorts s u := by
  unfold onlyPorts at *
  rw [g, h]

theorem State.modPort_only (s : State) (p : Nat) (f : Port → Port) : onlyPorts s (s.modPort p f) := rfl

theorem State.takeShare_spec (s : State) (p c n : Nat) :
    onlyPorts s (s.takeShare p c n) ∧ ((s.takeShare p c n).port p).busyUntil = (s.port p).busyUntil := by
  unfold State.takeShare
  split
  · exact ⟨rfl, rfl⟩
  · exact ⟨s.modPort_only p _, by rw [State.port_modPort_self]⟩

/-- The shaping or the share of a class as a frame takes it. -/
def State.shaped (s : State) (p c n : Nat) : State :=
  if 2 ≤ c then s.takeShare p c n else s.modPort p fun x => { x with bucket := s.shapeTokens p - n, bucketAt := s.now }

theorem State.shaped_spec (s : State) (p c n : Nat) :
    onlyPorts s (s.shaped p c n) ∧ ((s.shaped p c n).port p).busyUntil = (s.port p).busyUntil := by
  unfold State.shaped
  split
  · exact s.takeShare_spec p c n
  · exact ⟨s.modPort_only p _, by rw [State.port_modPort_self]⟩

/-- A port busy with a frame of `n` bytes. -/
def State.occupied (s : State) (p n : Nat) : State :=
  s.modPort p fun x => { x with busyUntil := s.now + ceilDiv (n * 8) (max 1 (s.portRate p * effDiv s.eff)) }

/-- The header that a frame leaves with (R298, R299, R302). -/
def State.sentHdr (s : State) (k : Nat) (f : Frame) (again : Bool) (seq : BitVec 32) : FrameHdr := { f.hdr with
  kalive := s.keepAlive
  replay := again
  seq := if f.hdr.cls = 1 then 0 else seq
  ackv := decide (f.hdr.cls ≠ 1)
  ack := if f.hdr.cls = 1 then 0 else (s.lc k f.hdr.cls).exp
  pepoch := ((s.routeOfKey k).map fun r => r.pepoch).getD 0 }

/-- A frame put on the wire of a port and counted there. -/
def State.putWire (s : State) (p : Nat) (e : EthFrame) (w : Frame) : State :=
  { s with wire := s.wire ++ [WireFrame.data p e w] }.wrap (portReg p Off.EAV_TXCNT) 63 0 1

/-- A frame counted as a replay, or for its context. -/
def State.countSent (s : State) (p : Nat) (f : Frame) (again : Bool) : State :=
  if again then s.sat (portReg p Off.EAV_REPLAY) 31 0 1
  else
    match frameCtx f with
    | none => s
    | some c => s.cWrap c Off.CTX_BYTES_ETX 63 0 (wireBytes f.hdr.len)

/-- The link of a frame of class `c` once it has left. -/
def State.noteSent (s : State) (k c now : Nat) : State :=
  if c = 1 then s
  else (s.wakeLink k).modLink k fun x => { x with
    lastTx := now
    classes := x.classes.mapVals fun m y => if m = c then { y with ackDue := false } else y }

theorem State.onWire_eq (s : State) (k p : Nat) (f : Frame) (again : Bool) (seq : BitVec 32) :
    s.onWire k p f again seq
      = (((((s.occupied p (wireBytes f.hdr.len)).shaped p f.hdr.cls (wireBytes f.hdr.len)).putWire p
            ((s.occupied p (wireBytes f.hdr.len)).ethernet k p ⟨s.sentHdr k f again seq, f.body⟩) ⟨s.sentHdr k f again seq, f.body⟩).countSent p f again).noteSent
          k f.hdr.cls (s.occupied p (wireBytes f.hdr.len)).now) := by
  unfold State.onWire State.noteSent State.countSent State.putWire State.shaped State.occupied State.sentHdr
  rfl

theorem State.countSent_only (s : State) (p : Nat) (f : Frame) (again : Bool) : onlyRegs s (s.countSent p f again) := by
  unfold State.countSent
  split
  · exact .sat s _ 31 0 1
  · split
    · rfl
    · exact onlyRegs.wrap s _ 63 0 _

theorem State.wakeLink_spec (s : State) (k : Nat) : s.wakeLink k = { s with links := (s.wakeLink k).links } ∧ ∀ j m, (s.wakeLink k).lc j m = s.lc j m := by
  unfold State.wakeLink
  split
  · exact ⟨rfl, fun _ _ => rfl⟩
  · exact ⟨rfl, fun j m => s.lc_modLink k j m rfl⟩

theorem State.noteSent_spec (s : State) (k c now : Nat) :
    s.noteSent k c now = { s with links := (s.noteSent k c now).links } ∧ ∀ j m, ∃ b, (s.noteSent k c now).lc j m = { s.lc j m with ackDue := b } := by
  unfold State.noteSent
  split
  · exact ⟨rfl, fun j m => ⟨_, rfl⟩⟩
  · obtain ⟨h1, h2⟩ := s.wakeLink_spec k
    generalize s.wakeLink k = t at h1 h2
    refine ⟨?_, fun j m => ?_⟩
    · rw [h1]
      rfl
    · by_cases hj : j = k
      · subst hj
        refine ⟨if m = c then false else (s.lc j m).ackDue, ?_⟩
        rw [t.lc_mapClasses j m (g := fun m y => if m = c then { y with ackDue := false } else y) rfl (by
          split <;> rfl), h2]
        split <;> rfl
      · refine ⟨(s.lc j m).ackDue, ?_⟩
        rw [State.lc, State.link_modLink, if_neg hj, ← State.lc, h2]

/-- A frame that leaves: what stands on the wire, and what it leaves of classes, port and memory (R275, R290, R298, R299, R302). -/
theorem State.onWire_spec (s : State) (k p : Nat) (f : Frame) (again : Bool) (seq : BitVec 32) :
    (∃ w, (s.onWire k p f again seq).wire = s.wire ++ [.data p (s.ethernet k p w) w] ∧ w.body = f.body ∧ w.hdr.replay = again
        ∧ w.hdr.kalive = s.keepAlive ∧ (f.hdr.cls ≠ 1 → w.hdr.seq = seq ∧ w.hdr.ackv = true ∧ w.hdr.ack = (s.lc k f.hdr.cls).exp))
      ∧ (∀ j m, ∃ b, (s.onWire k p f again seq).lc j m = { s.lc j m with ackDue := b })
      ∧ ((s.onWire k p f again seq).port p).busyUntil
          = s.now + ceilDiv (wireBytes f.hdr.len * 8) (max 1 (s.portRate p * effDiv s.eff))
      ∧ sameMemory s (s.onWire k p f again seq) := by
  rw [State.onWire_eq]
  have h0 : onlyPorts s (s.occupied p (wireBytes f.hdr.len)) := s.modPort_only p _
  have heth : ∀ w, (s.occupied p (wireBytes f.hdr.len)).ethernet k p w = s.ethernet k p w := fun w => rfl
  have hbusy : ((s.occupied p (wireBytes f.hdr.len)).port p).busyUntil
      = s.now + ceilDiv (wireBytes f.hdr.len * 8) (max 1 (s.portRate p * effDiv s.eff)) := by
    rw [State.occupied, State.port_modPort_self]
  rw [heth]
  generalize hw : (⟨s.sentHdr k f again seq, f.body⟩ : Frame) = w
  generalize s.occupied p (wireBytes f.hdr.len) = s0 at h0 hbusy ⊢
  obtain ⟨h1, hbusy1⟩ := s0.shaped_spec p f.hdr.cls (wireBytes f.hdr.len)
  generalize s0.shaped p f.hdr.cls (wireBytes f.hdr.len) = s1 at h1 hbusy1 ⊢
  have h2 : onlyRegs { s1 with wire := s1.wire ++ [.data p (s.ethernet k p w) w] } (s1.putWire p (s.ethernet k p w) w) := onlyRegs.wrap _ _ 63 0 1
  generalize s1.putWire p (s.ethernet k p w) w = s2 at h2 ⊢
  have h3 := s2.countSent_only p f again
  generalize s2.countSent p f again = s3 at h3 ⊢
  obtain ⟨h4, hlc⟩ := s3.noteSent_spec k f.hdr.cls s0.now
  generalize s3.noteSent k f.hdr.cls s0.now = u at h4 hlc ⊢
  have h01 := h0.trans h1
  have hlinks : s3.links = s.links :=
    ((congrArg State.links h3 :).trans (congrArg State.links h2 :)).trans (congrArg State.links h01 :)
  have hlc3 : ∀ j m, s3.lc j m = s.lc j m := fun j m => by rw [State.lc, State.link, hlinks, ← State.link, ← State.lc]
  refine ⟨⟨w, ?_, ?_⟩, fun j m => ?_, ?_, ?_⟩
  · have hwire1 : s1.wire = s.wire := (congrArg State.wire h01 :)
    rw [show u.wire = s3.wire from (congrArg State.wire h4 :), show s3.wire = s2.wire from (congrArg State.wire h3 :),
      show s2.wire = s1.wire ++ [.data p (s.ethernet k p w) w] from (congrArg State.wire h2 :), hwire1]
  · rw [← hw]
    refine ⟨rfl, rfl, rfl, fun hc => ⟨if_neg hc, decide_eq_true hc, if_neg hc⟩⟩
  · obtain ⟨b, hb⟩ := hlc j m
    exact ⟨b, by rw [hb, hlc3]⟩
  · have hports : u.ports = s1.ports :=
      ((congrArg State.ports h4 :).trans (congrArg State.ports h3 :)).trans (congrArg State.ports h2 :)
    rw [State.port, hports, ← State.port, hbusy1, hbusy]
  · have m1 : sameMemory s s1 := by
      rw [h01]
      exact ⟨rfl, rfl, rfl, rfl, rfl, rfl⟩
    have m2 : sameMemory s1 s2 := by
      rw [h2]
      exact ⟨rfl, rfl, rfl, rfl, rfl, rfl⟩
    have m4 : sameMemory s3 u := by
      rw [h4]
      exact ⟨rfl, rfl, rfl, rfl, rfl, rfl⟩
    exact ((m1.trans m2).trans h3.core.mem).trans m4

/-- A new frame leaves, and all but class 1 hold it (R299, R301). -/
theorem State.sendNew_spec {s : State} {k c p : Nat} {x : TxFrame} {r : List TxFrame} (hq : (s.lc k c).txq = x :: r) :
    let l := s.lc k c
    let u := s.sendNew k c p
    (∃ w, u.wire = s.wire ++ [.data p (s.ethernet k p w) w] ∧ w.body = x.frame.body ∧ w.hdr.replay = false ∧ w.hdr.kalive = s.keepAlive
          ∧ (x.frame.hdr.cls ≠ 1 → w.hdr.seq = l.next ∧ w.hdr.ackv = true ∧ w.hdr.ack = (s.lc k x.frame.hdr.cls).exp))
      ∧ (u.lc k c).txq = r ∧ (u.lc k c).exp = l.exp
      ∧ (u.port p).busyUntil = s.now + ceilDiv (wireBytes x.frame.hdr.len * 8) (max 1 (s.portRate p * effDiv s.eff))
      ∧ (c ≠ 1 → (u.lc k c).next = l.next + 1 ∧ (u.lc k c).held = l.held ++ [⟨l.next, s.now, x.frame, x.owner, x.stage⟩]
          ∧ (u.lc k c).sent = l.sent + BitVec.ofNat 64 (hdrCredit x.frame.hdr))
      ∧ sameMemory s u := by
  intro l u
  have hu : u = (s.onWire k p x.frame false l.next).modLc k c fun l' =>
      if c = 1 then { l' with txq := r }
      else { l' with
        txq := r
        next := l'.next + 1
        sent := l'.sent + BitVec.ofNat 64 (hdrCredit x.frame.hdr)
        held := l'.held ++ [⟨l.next, s.now, x.frame, x.owner, x.stage⟩] } := by
    unfold u State.sendNew
    rw [hq]
  obtain ⟨hwire, hlc, hbusy, hmem⟩ := s.onWire_spec k p x.frame false l.next
  obtain ⟨b, hb⟩ := hlc k c
  generalize s.onWire k p x.frame false l.next = t at hu hwire hbusy hmem hb
  rw [hu, State.lc_modLc_self, hb]
  refine ⟨hwire, ?_, ?_, hbusy, fun hc => ?_, hmem⟩
  · split <;> rfl
  · split <;> rfl
  · rw [if_neg hc]
    exact ⟨rfl, rfl, rfl⟩

/-- The next frame of a replay leaves again, and the replay goes on behind it (R299). -/
theorem State.sendAgain_spec {s : State} {k c p : Nat} {n : BitVec 32} {z : HeldFrame}
    (hz : (s.lc k c).held.find? (fun f => !earlierMod 32 f.seq.toNat n.toNat) = some z) :
    let l := s.lc k c
    let u := s.sendAgain k c p n
    (∃ w, u.wire = s.wire ++ [.data p (s.ethernet k p w) w] ∧ w.body = z.frame.body ∧ w.hdr.replay = true ∧ (z.frame.hdr.cls ≠ 1 → w.hdr.seq = z.seq))
      ∧ (u.lc k c).replay = (if z.seq = l.replayEnd ∨ laterMod 32 z.seq.toNat l.replayEnd.toNat = true then none else some (z.seq + 1))
      ∧ (u.lc k c).next = l.next ∧ (u.lc k c).txq = l.txq ∧ sameMemory s u := by
  intro l u
  have hu : u = (s.onWire k p z.frame true z.seq).modLc k c fun l => { l with
      held := l.held.map fun f => if f.seq = z.seq then { f with sentAt := s.now } else f
      replay := if z.seq = l.replayEnd ∨ laterMod 32 z.seq.toNat l.replayEnd.toNat then none else some (z.seq + 1) } := by
    unfold u State.sendAgain
    rw [hz]
  obtain ⟨⟨w, hwire, hbody, hagain, -, hseq⟩, hlc, -, hmem⟩ := s.onWire_spec k p z.frame true z.seq
  obtain ⟨b, hb⟩ := hlc k c
  generalize s.onWire k p z.frame true z.seq = t at hu hwire hmem hb
  rw [hu, State.lc_modLc_self, hb]
  exact ⟨⟨w, hwire, hbody, hagain, fun hc => (hseq hc).1⟩, rfl, rfl, rfl, hmem⟩

/-! ## Timers -/

/-- A LINKCTL frame queued for a link (R302). -/
theorem State.sendLinkctl_spec (s : State) (k : Nat) :
    (∃ x, ((s.sendLinkctl k none).lc k 1).txq = (s.lc k 1).txq ++ [x] ∧ x.frame.hdr.typ = 0 ∧ x.frame.hdr.dst = keyNode k)
      ∧ ((s.sendLinkctl k none).link k).lastCtl = s.now ∧ (∀ c, ((s.sendLinkctl k none).lc k c).ackDue = false)
      ∧ s.sendLinkctl k none = { s with links := (s.sendLinkctl k none).links } := by
  obtain ⟨x, hx, hcls, htyp, hdst⟩ : ∃ x : TxFrame,
      (s.sendLinkctl k none = (s.modLc k x.frame.hdr.cls fun l => { l with txq := l.txq ++ [x] }).modLink k fun l => { l with
        lastCtl := s.now
        classes := l.classes.mapVals fun _ x => { x with ackDue := false } }) ∧ x.frame.hdr.cls = 1 ∧ x.frame.hdr.typ = 0 ∧ x.frame.hdr.dst = keyNode k :=
    ⟨⟨_, none, none⟩, rfl, rfl, rfl, rfl⟩
  rw [hcls] at hx
  generalize ht : s.modLc k 1 (fun l => { l with txq := l.txq ++ [x] }) = t at hx
  have hlc : ∀ c, (s.sendLinkctl k none).lc k c = { t.lc k c with ackDue := false } := fun c => by
    rw [hx]
    exact t.lc_mapClasses k c (g := fun _ x => { x with ackDue := false }) rfl rfl
  refine ⟨⟨x, ?_, htyp, hdst⟩, ?_, fun c => ?_, ?_⟩
  · rw [hlc, ← ht, State.lc_modLc_self]
  · rw [hx, State.link_modLink_self]
  · rw [hlc]
  · rw [hx, ← ht]
    rfl

/-! ## Checkpoint triggers -/

theorem onlyRegs.ite {s t u : State} {p : Prop} [Decidable p] (h : onlyRegs s t) (g : onlyRegs s u) : onlyRegs s (if p then t else u) := by
  split
  · exact h
  · exact g

/-- A checkpoint trigger writes CTX_CKPT_STS and nothing else (R359). -/
theorem State.ckptTrigger_frame (s : State) (c b : Nat) :
    onlyRegs s (s.ckptTrigger c b) ∧ sameRegsBut [ctxA c Off.CTX_CKPT_STS] s (s.ckptTrigger c b) := by
  unfold State.ckptTrigger
  extract_lets a gap s1
  have h1 : onlyRegs s s1 := onlyRegs.wf s a 4 2 _
  have r1 : sameRegsBut [a] s s1 := (sameRegsBut.refl _ s).wf List.mem_cons_self 4 2 _
  split
  · exact ⟨rfl, .refl _ s⟩
  · split
    · exact ⟨h1, r1⟩
    · exact ⟨h1.trans (onlyRegs.wf s1 a 0 0 1), r1.wf List.mem_cons_self 0 0 1⟩

/-- Of the registers a source of triggers writes CTX_CKPT_STS alone (R359). -/
theorem State.triggerCkpts_frame (s : State) (b die : Nat) :
    onlyRegs s (s.triggerCkpts b die) ∧ ∀ a, a % 2 ^ 12 ≠ Off.CTX_CKPT_STS → (s.triggerCkpts b die).reg a = s.reg a := by
  refine forAll_induct (P := fun t => onlyRegs s t ∧ ∀ a, a % 2 ^ 12 ≠ Off.CTX_CKPT_STS → t.reg a = s.reg a) (fun e t h => ?_) s.ctxs ⟨rfl, fun _ _ => rfl⟩
  obtain ⟨h1, h2⟩ := h
  obtain ⟨g1, g2⟩ := t.ckptTrigger_frame e.1 b
  split
  · refine ⟨h1.trans g1, fun a ha => (g2 a fun hm => ha ?_).trans (h2 a ha)⟩
    have hmem := List.mem_singleton.mp hm
    refine Decidable.byContradiction fun hne => absurd hmem (homeAddr_ne_of_mod fun e' => hne ?_)
    rw [e', ctxA_mod e.1 (by decide)]
  · exact ⟨h1, h2⟩

theorem State.replayRateWindow_over {s : State} {e : Nat} (h : s.periodOver (.replays e) = true) :
    execReplayRateWindow e s
      = if s.rf (bar0 (eaveDie e) 0 Off.EAV_REPLAY_WARN) 31 0 < Table.getD 0 s.replayCount e then
          .next ((({ s with replayCount := Table.erase s.replayCount e }.newPeriod (.replays e)).raisePg (eaveDie e) 0 3).triggerCkpts 1 (eaveDie e))
        else .next ({ s with replayCount := Table.erase s.replayCount e }.newPeriod (.replays e)) := by
  unfold execReplayRateWindow
  rw [if_neg (by rw [h]; decide)]

/-- Settles O50: a class sends its next new frame or the next of its replay, and the timers start replays and queue LINKCTL frames. -/
theorem framesAreHeldUntilAcknowledged : Obligations.FramesAreHeldUntilAcknowledged := by
  unfold Obligations.FramesAreHeldUntilAcknowledged
  refine ⟨fun s k c p hp hmay hserved => ?_, fun s k c f r hheld hk hd ht => ?_, fun s k p hp hact hdue => ?_, fun s e he hover => ?_⟩
  · intro l
    have hgo : s.mayStart k c ∧ !s.servedBefore p c := by
      rw [hmay, hserved]
      decide
    refine ⟨fun x r hnone hq => ⟨_, ?_, State.sendNew_spec hq⟩, fun n z hn hz => ⟨_, ?_, State.sendAgain_spec hz⟩⟩
    · rw [exec_frameTransmit, execFrameTransmit, hp]
      dsimp only
      rw [if_pos hgo, show (s.lc k c).replay = none from hnone]
    · rw [exec_frameTransmit, execFrameTransmit, hp]
      dsimp only
      rw [if_pos hgo, show (s.lc k c).replay = some n from hn]
  · have hne : (s.lc k c).held ≠ [] := by
      rw [hheld]
      exact List.cons_ne_nil f r
    have hrun : exec (.replayTimer k c) s = .next (s.startReplay k c (s.lc k c).una) := by
      rw [exec_replayTimer, execReplayTimer, hheld]
      dsimp only
      rw [if_neg (by simp [hk, hd, Nat.not_lt.2 ht])]
    obtain ⟨hrew, -, hown, -⟩ := s.startReplay_spec k c (s.lc k c).una
    obtain ⟨⟨e, he⟩, hwin⟩ := hown hne
    refine ⟨_, hrun, ?_, fun hnone => ?_, hwin, hrew.memory⟩
    · rw [he, LinkClass.replaying]
    · rw [he, LinkClass.replaying, LinkClass.replayFrom, hnone]
  · refine ⟨s.sendLinkctl k none, ?_, s.sendLinkctl_spec k⟩
    rw [exec_linkctlTimer, execLinkctlTimer, hp]
    dsimp only
    rw [if_pos]
    refine ⟨hact, hdue.imp_left fun h => ?_⟩
    obtain ⟨x, hx, hack⟩ := h
    exact List.any_eq_true.mpr ⟨x, hx, hack⟩
  · obtain ⟨s1, hs1⟩ : ∃ s1, s1 = { s with replayCount := Table.erase s.replayCount e }.newPeriod (.replays e) := ⟨_, rfl⟩
    have hrun := State.replayRateWindow_over hover
    rw [← hs1] at hrun
    have hcount : Table.getD 0 s1.replayCount e = 0 := by
      rw [hs1, State.newPeriod, Table.getD, Table.get?_erase, if_pos rfl]
      rfl
    by_cases hlt : s.rf (bar0 (eaveDie e) 0 Off.EAV_REPLAY_WARN) 31 0 < Table.getD 0 s.replayCount e
    · rw [if_pos hlt] at hrun
      have hraise := s1.raisePg_core (eaveDie e) 0 3
      have hbit := s1.raisePg_bit (eaveDie e) 0 (n := 3) (by decide)
      generalize s1.raisePg (eaveDie e) 0 3 = s2 at hrun hraise hbit
      obtain ⟨hregs, hreg⟩ := s2.triggerCkpts_frame 1 (eaveDie e)
      refine ⟨_, hrun, ?_, fun _ => ?_, fun h => absurd hlt (Nat.not_lt.2 h)⟩
      · rw [show (s2.triggerCkpts 1 (eaveDie e)).replayCount = s2.replayCount from (congrArg State.replayCount hregs :),
          show s2.replayCount = s1.replayCount from (congrArg State.replayCount hraise :)]
        exact hcount
      · rw [State.rf_eq, hreg _ (by rw [bar0_mod _ _ (by decide)]; decide), ← State.rf_eq]
        exact hbit
    · rw [if_neg hlt] at hrun
      refine ⟨_, hrun, hcount, fun h => absurd h hlt, fun _ => ?_⟩
      rw [hs1]
      rfl

end Sys2Proof.Machine
end

section
/-! SUPPORT. Checkpoints to storage (R359 to R361). -/

namespace Sys2Proof.Machine

/-- An enabled trigger that no gap holds back names its cause and, with none pending or written, sets PEND (R359). -/
theorem State.ckptTrigger_cause {s : State} {c b : Nat} (hb : b < 7) (hen : bitAt (s.cf c Off.CTX_CKPT_CTL 5 0) b = true)
    (hgap : (s.ctx c).ckptEnd = none) (hpriv : b < 3 ∨ s.privileged c = true) :
    (s.ckptTrigger c b).cf c Off.CTX_CKPT_STS 4 2 = b + 1
      ∧ (s.cf c Off.CTX_CKPT_STS 0 0 = 0 → s.cf c Off.CTX_CKPT_STS 1 1 = 0 → (s.ckptTrigger c b).cf c Off.CTX_CKPT_STS 0 0 = 1) := by
  unfold State.ckptTrigger
  extract_lets a gap s1
  have hgo : ¬(!bitAt (s.cf c Off.CTX_CKPT_CTL 5 0) b ∨ gap ∨ (3 ≤ b ∧ !s.privileged c)) := by
    rw [hen, show gap = false from by unfold gap; rw [hgap]; rfl]
    rintro (h | h | ⟨h3, h⟩)
    · exact absurd h (by decide)
    · exact absurd h (by decide)
    · rcases hpriv with hp | hp
      · omega
      · rw [hp] at h
        exact absurd h (by decide)
  rw [if_neg hgo]
  have h1 : s1.rf a 4 2 = b + 1 := (State.rf_wf_self s a 4 2 _ (by decide) (by decide)).trans (Nat.mod_eq_of_lt (by omega))
  split
  next h =>
    exact ⟨h1, fun h0 hw => absurd h (by
      rw [← State.cf_eq, ← State.cf_eq, h0, hw]
      decide)⟩
  next =>
    refine ⟨?_, fun _ _ => State.rf_wf_self s1 a 0 0 1 (by decide) (by decide)⟩
    have habove := fld_ins_above (s1.reg a) 0 0 1 4 2 (by decide) (by decide) (by decide)
    rw [State.cf_eq, State.rf_eq, State.wf_eq, State.reg_setReg_self, habove]
    exact h1

/-- CHECKPOINT_DONE where an image is sealed and being written (R360). -/
def State.ckptWritten (s : State) (c bytes : Nat) (step : BitVec 48) (img : SealedImage) : State :=
  ((({ s with images := s.images ++
      [HostImage.mk ((s.reg (ctxA c Off.CTX_CKPT_DEST)).toNat + if (s.ctx c).boundB then 2 ^ 64 else 0) c step img] }.wf (ctxA c Off.CTX_CKPT_STS) 1 1 0).wf
        (ctxA c Off.CTX_CKPT_STS) 52 5 step.toNat).cSat c Off.CTX_CKPT_COUNT 31 0 1).cWrap c Off.CTX_BYTES_PCIE 63 0 bytes

theorem execCheckpointDone_sealed {s : State} {c : Nat} {step : BitVec 48} {img : SealedImage} (bytes : Nat) (h : (s.ctx c).sealed_ = some (step, img))
    (hw : s.cf c Off.CTX_CKPT_STS 1 1 = 1) :
    execCheckpointDone c bytes s = .next (((s.ckptWritten c bytes step img).modCtx c fun x =>
      { x with sealed_ := none, ckptEnd := some s.now, ckptCommits := 0, ckptTimer := s.now }).raiseCtx c 4) := by
  unfold execCheckpointDone
  rw [h]
  dsimp only
  rw [if_neg (by rw [← State.cf_eq, hw]; decide)]
  rfl

theorem State.ckptWritten_spec (s : State) (c bytes : Nat) (step : BitVec 48) (img : SealedImage) :
    let t := s.ckptWritten c bytes step img
    t.cf c Off.CTX_CKPT_STS 1 1 = 0 ∧ t.cf c Off.CTX_CKPT_STS 52 5 = step.toNat
      ∧ t.cf c Off.CTX_CKPT_COUNT 31 0 = satPlus 32 (s.cf c Off.CTX_CKPT_COUNT 31 0) 1
      ∧ t.reg (ctxA c Off.CTX_BYTES_PCIE) = s.reg (ctxA c Off.CTX_BYTES_PCIE) + BitVec.ofNat 64 bytes
      ∧ (∃ i, t.images = s.images ++ [i] ∧ i.ctx = c ∧ i.step = step ∧ i.image = img) ∧ sameMemory s t := by
  obtain ⟨i, s0, hi, hs0, ht⟩ : ∃ (i : HostImage) (s0 : State), (i.ctx = c ∧ i.step = step ∧ i.image = img)
      ∧ s0 = { s with images := s.images ++ [i] }
      ∧ s.ckptWritten c bytes step img = ((((s0.wf (ctxA c Off.CTX_CKPT_STS) 1 1 0).wf (ctxA c Off.CTX_CKPT_STS) 52 5 step.toNat).sat
        (ctxA c Off.CTX_CKPT_COUNT) 31 0 1).wrap (ctxA c Off.CTX_BYTES_PCIE) 63 0 bytes) := ⟨_, _, ⟨rfl, rfl, rfl⟩, rfl, rfl⟩
  have hreg0 : ∀ a, s0.reg a = s.reg a := fun a => by
    rw [hs0]
    rfl
  have hmem0 : sameMemory s s0 := by
    rw [hs0]
    exact ⟨rfl, rfl, rfl, rfl, rfl, rfl⟩
  have him0 : s0.images = s.images ++ [i] := by rw [hs0]
  rw [ht]
  obtain ⟨s1, hs1⟩ : ∃ s1, s1 = s0.wf (ctxA c Off.CTX_CKPT_STS) 1 1 0 := ⟨_, rfl⟩
  obtain ⟨s2, hs2⟩ : ∃ s2, s2 = s1.wf (ctxA c Off.CTX_CKPT_STS) 52 5 step.toNat := ⟨_, rfl⟩
  obtain ⟨s3, hs3⟩ : ∃ s3, s3 = s2.sat (ctxA c Off.CTX_CKPT_COUNT) 31 0 1 := ⟨_, rfl⟩
  rw [← hs1, ← hs2, ← hs3]
  have hregs : onlyRegs s0 (s3.wrap (ctxA c Off.CTX_BYTES_PCIE) 63 0 bytes) := by
    rw [hs3, hs2, hs1]
    exact (((onlyRegs.wf s0 _ 1 1 0).trans (onlyRegs.wf _ _ 52 5 _)).trans (onlyRegs.sat _ _ 31 0 1)).trans (onlyRegs.wrap _ _ 63 0 _)
  have ne : ∀ {x y : Nat}, x < 2 ^ 12 → y < 2 ^ 12 → x ≠ y → ctxA c x % 2 ^ 12 ≠ ctxA c y % 2 ^ 12 := fun hx hy h => by
    rwa [ctxA_mod c hx, ctxA_mod c hy]
  have hwrap : ∀ off, off < 2 ^ 12 → off ≠ Off.CTX_BYTES_PCIE → (s3.wrap (ctxA c Off.CTX_BYTES_PCIE) 63 0 bytes).reg (ctxA c off) = s3.reg (ctxA c off) :=
    fun off h hne => s3.reg_setReg_ne _ (homeAddr_ne_of_mod (ne h (by decide) hne))
  have hsat : ∀ off, off < 2 ^ 12 → off ≠ Off.CTX_CKPT_COUNT → s3.reg (ctxA c off) = s2.reg (ctxA c off) := fun off h hne => by
    rw [hs3]
    exact State.reg_sat_of_mod _ _ _ _ (ne h (by decide) hne)
  have hsts : ∀ off, off < 2 ^ 12 → off ≠ Off.CTX_CKPT_STS → s2.reg (ctxA c off) = s.reg (ctxA c off) := fun off h hne => by
    rw [hs2, State.reg_wf_of_mod _ _ _ _ (ne h (by decide) hne), hs1, State.reg_wf_of_mod _ _ _ _ (ne h (by decide) hne), hreg0]
  have hown : s2.reg (ctxA c Off.CTX_CKPT_STS) = ins (s1.reg (ctxA c Off.CTX_CKPT_STS)) 52 5 step.toNat := by
    rw [hs2, State.wf_eq, State.reg_setReg_self]
  have hlow : fld (s1.reg (ctxA c Off.CTX_CKPT_STS)) 1 1 = 0 := by
    rw [hs1]
    exact State.rf_wf_self s0 _ 1 1 0 (by decide) (by decide)
  refine ⟨?_, ?_, ?_, ?_, ⟨i, ?_, hi⟩, hmem0.trans hregs.core.mem⟩
  · rw [State.cf_eq, State.rf_eq, hwrap _ (by decide) (by decide), hsat _ (by decide) (by decide), hown,
      fld_ins_below _ 52 5 _ 1 1 (by decide) (by decide) (by decide) (by decide), hlow]
  · rw [State.cf_eq, State.rf_eq, hwrap _ (by decide) (by decide), hsat _ (by decide) (by decide), hown,
      fld_ins_self _ 52 5 _ (by decide) (by decide)]
    exact Nat.mod_eq_of_lt step.isLt
  · rw [State.cf_eq, State.rf_eq, hwrap _ (by decide) (by decide), ← State.rf_eq, hs3, State.rf_sat_self _ _ 31 0 _ (by decide) (by decide),
      State.rf_eq, hsts _ (by decide) (by decide)]
    rfl
  · rw [State.reg_wrap64, hsat _ (by decide) (by decide), hsts _ (by decide) (by decide)]
    exact BitVec.eq_of_toNat_eq (by simp)
  · rw [show (s3.wrap (ctxA c Off.CTX_BYTES_PCIE) 63 0 bytes).images = s0.images from (congrArg State.images hregs :)]
    exact him0

/-- Settles O37: a trigger is CTX_CKPT_STS and nothing else, and a checkpoint that completes hands over what its COMMIT sealed. -/
theorem checkpointsTriggerAndComplete : Obligations.CheckpointsTriggerAndComplete := by
  unfold Obligations.CheckpointsTriggerAndComplete
  refine ⟨fun s c b d hsrc hen hgap hc hraised => ?_, fun s c sec hc hsec hne hgap hdue hen hpriv => ?_, fun s c bytes step img hc hw hseal => ?_⟩
  · have hb : b < 3 := by rcases hsrc with h | h | h <;> omega
    have hsource : s.ckptSource c b d = true := by
      rcases hsrc with ⟨rfl, h1, h2⟩ | ⟨rfl, h1⟩ | ⟨rfl, h1, g, hg, k, hk, hd⟩
      · rw [State.ckptSource, decide_eq_true h1, decide_eq_true h2]
        rfl
      · rw [State.ckptSource, decide_eq_true h1]
      · rw [State.ckptSource, decide_eq_true h1, Bool.true_and, hg]
        exact List.any_eq_true.mpr ⟨k, hk, decide_eq_true hd⟩
    obtain ⟨h1, h2⟩ := State.ckptTrigger_cause (by omega) hen hgap (.inl hb)
    refine ⟨s.ckptTrigger c b, ?_, h1, h2, s.ckptTrigger_frame c b⟩
    rw [exec_checkpointTrigger, execCheckpointTrigger, if_pos ⟨hsource, hraised⟩]
  · obtain ⟨s1, hs1⟩ : ∃ s1, s1 = s.modCtx c fun x => { x with ckptTimer := s.now } := ⟨_, rfl⟩
    have hreg : ∀ a, s1.reg a = s.reg a := fun a => by
      rw [hs1]
      rfl
    have hctx : s1.ctx c = { s.ctx c with ckptTimer := s.now } := by rw [hs1, State.modCtx_self]
    have hrun : exec (.checkpointTimer c) s = .next (s1.ckptTrigger c 4) := by
      rw [exec_checkpointTimer, execCheckpointTimer]
      rw [hsec, hgap, if_neg, hs1]
      rintro (h | h)
      · exact hne h
      · rw [Option.getD_none, Nat.max_zero] at h
        omega
    obtain ⟨h1, h2⟩ := s1.ckptTrigger_frame c 4
    have hcore : sameMemory s s1 := by
      rw [hs1]
      exact (s.modCtx_core c _).mem
    refine ⟨_, hrun, ?_, ?_, fun a ha => (h2 a ha).trans (hreg a), hcore.trans h1.core.mem⟩
    · rw [State.ctx, show (s1.ckptTrigger c 4).ctxs = s1.ctxs from (congrArg State.ctxs h1 :), ← State.ctx, hctx]
    · refine (State.ckptTrigger_cause (by decide) ?_ (by rw [hctx]; exact hgap) (.inr ?_)).1
      · rw [State.cf_eq, State.rf_eq, hreg]
        exact hen
      · rw [← hpriv]
        refine congrArg (List.any (List.range 16)) (funext fun j => decide_eq_decide.mpr ?_)
        rw [State.rf_eq, hreg, State.rf_eq]
  · have hrun := execCheckpointDone_sealed bytes hseal hw
    obtain ⟨hsts, hstep, hcount, hbytes, himg, hmem⟩ := s.ckptWritten_spec c bytes step img
    generalize s.ckptWritten c bytes step img = t at hrun hsts hstep hcount hbytes himg hmem
    obtain ⟨t1, ht1⟩ : ∃ t1, t1 = t.modCtx c fun x => { x with sealed_ := none, ckptEnd := some s.now, ckptCommits := 0, ckptTimer := s.now } := ⟨_, rfl⟩
    rw [← ht1] at hrun
    have hres := t1.raiseCtx_results c c 4
    have hreg : ∀ off, off < 2 ^ 12 → off ∉ stopWrites → (t1.raiseCtx c 4).reg (ctxA c off) = t.reg (ctxA c off) := fun off h hn => by
      rw [t1.reg_raiseCtx c 4 (by rwa [ctxA_mod c h]), ht1]
      rfl
    refine ⟨_, hrun, ?_, ?_, ?_, ?_, ?_, ?_, ?_, ?_⟩
    · rw [State.cf_eq, State.rf_eq, hreg _ (by decide) (by decide)]
      exact hsts
    · rw [State.cf_eq, State.rf_eq, hreg _ (by decide) (by decide)]
      exact hstep
    · rw [State.cf_eq, State.rf_eq, hreg _ (by decide) (by decide)]
      exact hcount
    · rw [hreg _ (by decide) (by decide)]
      exact hbytes
    · rw [show (t1.raiseCtx c 4).images = t1.images from (congrArg State.images hres.rest :), ht1]
      exact himg
    · rw [hres.ctx, ht1, State.modCtx_self]
    · rw [State.cf_eq, State.rf_eq, State.raiseCtx_raw]
      exact fld_or_bit _ (by decide)
    · refine hmem.trans (sameMemory.trans ?_ (t1.raiseCtx_core c 4).mem)
      rw [ht1]
      exact (t.modCtx_core c _).mem

end Sys2Proof.Machine
end

section
/-! SUPPORT. Strands, edges and dies that are lost (R320 to R322, R325 to R331). -/

namespace Sys2Proof.Machine

/-! ## Registers of edges -/

theorem btnReg_mod (d : Nat) {dir off : Nat} (hd : dir < 4) (ho : off + 0x60 < 2 ^ 12) : btnReg d dir off % 2 ^ 12 = off + 0x20 * dir :=
  bar0_mod d 2 (by omega)

theorem homeAddr_btn (d : Nat) {dir off : Nat} (hd : dir < 4) (ho : off + 0x60 < 2 ^ 12) : homeAddr (btnReg d dir off) = btnReg d dir off :=
  homeAddr_bar0 (by omega) (by omega)

/-- The registers of an edge, those of its other side, and those of another purpose stand apart. -/
theorem homeAddr_btn_ne {d dir off e dir' o : Nat} (h1 : dir < 4) (h2 : off + 0x60 < 2 ^ 12) (h3 : dir' < 4) (h4 : o + 0x60 < 2 ^ 12)
    (h : d ≠ e ∨ off + 0x20 * dir ≠ o + 0x20 * dir') : homeAddr (btnReg d dir off) ≠ homeAddr (btnReg e dir' o) := by
  rw [homeAddr_btn d h1 h2, homeAddr_btn e h3 h4]
  unfold btnReg bar0
  omega

theorem btn_quiet (d : Nat) {dir off : Nat} (hd : dir < 4) (ho : off = Off.BTN_EDGE_STS ∨ off = Off.BTN_RETIRE ∨ off = Off.BTN_CRC ∨ off = Off.BTN_STRAND_WARN) :
    btnReg d dir off % 2 ^ 12 ∉ linkWrites := by
  have hlt : off + 0x60 < 2 ^ 12 := by rcases ho with rfl | rfl | rfl | rfl <;> decide
  rw [btnReg_mod d hd hlt]
  simp only [linkWrites, List.mem_cons, List.not_mem_nil, or_false, not_or, Off.CTX_PROMISE, Off.PG_IRQ_RAW, Off.PG_IRQ_EN]
  simp only [Off.BTN_EDGE_STS, Off.BTN_RETIRE, Off.BTN_CRC, Off.BTN_STRAND_WARN] at ho
  omega

theorem neighbour_ne {d dir n : Nat} (h : neighbour d dir = some n) : n ≠ d := by
  unfold neighbour at h
  split at h <;> simp only [Option.ite_none_right_eq_some, Option.some.injEq, reduceCtorEq] at h <;> omega

theorem neighbour_back {d dir n : Nat} (hd : d < 64) (hdir : dir < 4) (h : neighbour d dir = some n) :
    neighbour n (opposite dir) = some d ∧ n < 64 ∧ opposite dir < 4 ∧ opposite (opposite dir) = dir := by
  have hall : ∀ d < 64, ∀ dir < 4, ∀ n ∈ neighbour d dir,
      neighbour n (opposite dir) = some d ∧ n < 64 ∧ opposite dir < 4 ∧ opposite (opposite dir) = dir := by decide
  exact hall d hd dir hdir n h

/-! ## Faults of strands -/

theorem Rewired.dies {s t : State} (h : Rewired s t) : t.dies = s.dies := (congrArg State.dies h.core :)

theorem State.refreshPromise_strandFaults (s : State) (c : Nat) : (s.refreshPromise c).strandFaults = s.strandFaults :=
  (congrArg State.strandFaults (s.refreshPromise_core c) :)

theorem State.openWindow_strandFaults (s : State) (w : Elem) : (s.openWindow w).strandFaults = s.strandFaults := by
  unfold State.openWindow
  split
  · rfl
  · refine forAll_induct (P := fun t => t.strandFaults = s.strandFaults) (fun e t h => ?_) s.ctxs rfl
    rw [State.refreshPromise_strandFaults]
    exact h

/-- The windows left after one closes. -/
theorem State.closeWindow_wins (s : State) (w : Elem) :
    (s.closeWindow w).faultWins = s.faultWins.filter (· ≠ w) ∧ (s.closeWindow w).strandFaults = s.strandFaults := by
  unfold State.closeWindow
  refine forAll_induct (P := fun t => t.faultWins = s.faultWins.filter (· ≠ w) ∧ t.strandFaults = s.strandFaults) (fun e t h => ?_) s.ctxs ⟨rfl, rfl⟩
  rw [State.refreshPromise_faultWins, State.refreshPromise_strandFaults]
  exact h

theorem State.strandFault_spec (s : State) (d dir strand : Nat) :
    Rewired s (s.strandFault d dir strand) ∧ Elem.edge d dir ∈ (s.strandFault d dir strand).faultWins
      ∧ strandKey d dir strand ∈ (s.strandFault d dir strand).strandFaults := by
  obtain ⟨t, ht⟩ : ∃ t, t = { s with strandFaults := insertNat (strandKey d dir strand) s.strandFaults } := ⟨_, rfl⟩
  have hf : s.strandFault d dir strand = t.openWindow (.edge d dir) := by
    rw [ht]
    rfl
  have h1 : Rewired s t := by
    rw [ht]
    exact .of_regs rfl
  rw [hf]
  refine ⟨h1.trans (t.openWindow_rewired _), t.openWindow_mem _, ?_⟩
  rw [State.openWindow_strandFaults, ht]
  exact mem_insertNat.mpr (.inl rfl)

theorem State.strandsOver_rewired (s : State) (d dir : Nat) (ended : Nat → Bool) : Rewired s (s.strandsOver d dir ended) := by
  unfold State.strandsOver
  extract_lets s1
  have h1 : Rewired s s1 := .of_regs rfl
  split
  · exact h1
  · exact h1.trans (s1.closeWindow_rewired _)

/-- Which faults of an edge stand once some of them are over (R320, R445). -/
theorem State.strandsOver_spec (s : State) (d dir : Nat) (ended : Nat → Bool) :
    (∀ k, k ∈ (s.strandsOver d dir ended).strandFaults ↔ k ∈ s.strandFaults ∧ ¬(k / 8 = d * 4 + dir ∧ ended (k % 8) = true))
      ∧ ((∃ k ∈ (s.strandsOver d dir ended).strandFaults, k / 8 = d * 4 + dir) → (s.strandsOver d dir ended).faultWins = s.faultWins)
      ∧ ((∀ k ∈ (s.strandsOver d dir ended).strandFaults, k / 8 ≠ d * 4 + dir) → Elem.edge d dir ∉ (s.strandsOver d dir ended).faultWins) := by
  obtain ⟨s1, hs1⟩ : ∃ s1, s1 = { s with strandFaults := s.strandFaults.filter fun k => !(decide (k / 8 = d * 4 + dir) && ended (k % 8)) } := ⟨_, rfl⟩
  have hover : s.strandsOver d dir ended = if s1.strandFaults.any (fun k => k / 8 = d * 4 + dir) then s1 else s1.closeWindow (.edge d dir) := by
    rw [hs1]
    rfl
  have hmem : ∀ k, k ∈ s1.strandFaults ↔ k ∈ s.strandFaults ∧ ¬(k / 8 = d * 4 + dir ∧ ended (k % 8) = true) := fun k => by
    rw [hs1, List.mem_filter, Bool.not_eq_true', ← Bool.not_eq_true, Bool.and_eq_true, decide_eq_true_iff]
  have hwins : s1.faultWins = s.faultWins := by rw [hs1]
  rw [hover]
  split
  next h =>
    refine ⟨hmem, fun _ => hwins, fun hno => ?_⟩
    obtain ⟨k, hk, he⟩ := List.any_eq_true.mp h
    exact absurd (of_decide_eq_true he) (hno k hk)
  next h =>
    obtain ⟨h1, h2⟩ := s1.closeWindow_wins (.edge d dir)
    rw [h1, h2]
    refine ⟨hmem, fun hsome => ?_, fun _ hin => ?_⟩
    · obtain ⟨k, hk, he⟩ := hsome
      exact absurd (List.any_eq_true.mpr ⟨k, hk, decide_eq_true he⟩) h
    · exact absurd rfl (of_decide_eq_true (List.mem_filter.mp hin).2)

/-! ## An edge that goes DOWN -/

theorem State.refreshAll_rewired (s : State) : Rewired s s.refreshAll := Rewired.forAll _ _ (fun c t => t.refreshPromise_rewired c) s

theorem State.markedPair_rewired (s : State) (a b : Nat) : Rewired s (s.markedPair a b) := by
  unfold State.markedPair
  split
  · exact s.refreshAll_rewired
  · exact .refl s

/-- Of the registers outside a list only promises and interrupts may have changed, and no interrupt that stood is gone. -/
structure keepsEdges (l : List Nat) (s t : State) : Prop where
  mem : sameMemory s t
  reg : ∀ a, a % 2 ^ 12 ∉ linkWrites → homeAddr a ∉ l → t.reg a = s.reg a
  irq : ∀ a n, a % 2 ^ 12 = Off.PG_IRQ_RAW → s.rf a n n = 1 → t.rf a n n = 1

theorem keepsEdges.trans {l : List Nat} {s t u : State} (h : keepsEdges l s t) (g : keepsEdges l t u) : keepsEdges l s u :=
  ⟨h.mem.trans g.mem, fun a h1 h2 => (g.reg a h1 h2).trans (h.reg a h1 h2), fun a n ha hn => g.irq a n ha (h.irq a n ha hn)⟩

theorem keepsEdges.mono {l m : List Nat} {s t : State} (h : keepsEdges l s t) (hs : ∀ a ∈ l, a ∈ m) : keepsEdges m s t :=
  ⟨h.mem, fun a h1 h2 => h.reg a h1 fun hm => h2 (hs _ hm), h.irq⟩

theorem Rewired.edges {s t : State} (h : Rewired s t) (l : List Nat) : keepsEdges l s t := ⟨h.memory, fun a h1 _ => h.reg a h1, h.irq⟩

/-- A write of the state of an edge. -/
theorem State.wf_edges (s : State) (d dir hi lo v : Nat) (hdir : dir < 4) :
    keepsEdges [btnReg d dir Off.BTN_EDGE_STS] s (s.wf (btnReg d dir Off.BTN_EDGE_STS) hi lo v) := by
  refine ⟨(onlyRegs.wf s _ hi lo v).core.mem, fun a _ ha => s.reg_setReg_ne _ ?_, fun a n ha hn => ?_⟩
  · rw [homeAddr_btn d hdir (by decide)]
    exact fun e => ha (List.mem_singleton.mpr e)
  · rw [State.rf_eq, State.reg_wf_of_mod _ _ _ _ (by
      rw [ha, btnReg_mod d hdir (by decide)]
      simp only [Off.PG_IRQ_RAW, Off.BTN_EDGE_STS]
      omega)]
    exact hn

/-- An edge that goes DOWN at one of its dies (R322). -/
theorem State.edgeFalls_spec {s : State} {d dir n : Nat} (hdir : dir < 4) (hn : neighbour d dir = some n) :
    keepsEdges [btnReg d dir Off.BTN_EDGE_STS] s (s.edgeFalls d dir)
      ∧ (s.edgeFalls d dir).reg (btnReg d dir Off.BTN_EDGE_STS) = ins (s.reg (btnReg d dir Off.BTN_EDGE_STS)) 1 0 2
      ∧ (s.edgeFalls d dir).rf (bar0 d 2 Off.PG_IRQ_RAW) 2 2 = 1
      ∧ (s.edgeFalls d dir).die d = { s.die d with marked := insertNat n (s.die d).marked } ∧ ∀ j, j ≠ d → (s.edgeFalls d dir).die j = s.die j := by
  obtain ⟨s1, hs1⟩ : ∃ s1, s1 = s.wf (btnReg d dir Off.BTN_EDGE_STS) 1 0 2 := ⟨_, rfl⟩
  obtain ⟨s2, hs2⟩ : ∃ s2, s2 = s1.raisePg d 2 2 := ⟨_, rfl⟩
  obtain ⟨s3, hs3⟩ : ∃ s3, s3 = s2.modDie d fun x => { x with marked := insertNat n x.marked } := ⟨_, rfl⟩
  obtain ⟨u, hu⟩ : ∃ u, u = ((s3.strandsOver d dir fun _ => true).strandsOver n (opposite dir) fun _ => true).markedPair d n := ⟨_, rfl⟩
  have hfalls : s.edgeFalls d dir = u := by
    rw [hu, hs3, hs2, hs1, State.edgeFalls, hn]
  have h1 := s.wf_edges d dir 1 0 2 hdir
  rw [← hs1] at h1
  have h2 : Rewired s1 s2 := by
    rw [hs2]
    exact s1.raisePg_rewired d 2 2
  have h3 : keepsEdges [btnReg d dir Off.BTN_EDGE_STS] s2 s3 := by
    rw [hs3]
    exact ⟨⟨rfl, rfl, rfl, rfl, rfl, rfl⟩, fun _ _ _ => rfl, fun _ _ _ h => h⟩
  have h4 : Rewired s3 u := by
    rw [hu]
    exact ((s3.strandsOver_rewired d dir _).trans (State.strandsOver_rewired _ n _ _)).trans (State.markedPair_rewired _ d n)
  have hdies : ∀ j, u.die j = if j = d then { s.die d with marked := insertNat n (s.die d).marked } else s.die j := fun j => by
    have e1 : ∀ j, s2.die j = s.die j := fun j => by
      rw [State.die, h2.dies, show s1.dies = s.dies from by rw [hs1]; exact (congrArg State.dies (onlyRegs.wf s _ 1 0 2) :), ← State.die]
    rw [State.die, h4.dies, ← State.die, hs3, State.die_modDie, e1, e1]
  rw [hfalls]
  refine ⟨((h1.trans (h2.edges _)).trans h3).trans (h4.edges _), ?_, ?_, ?_, fun j hj => ?_⟩
  · rw [h4.reg _ (btn_quiet d hdir (.inl rfl)), hs3]
    refine (h2.reg _ (btn_quiet d hdir (.inl rfl))).trans ?_
    rw [hs1, State.wf_eq, State.reg_setReg_self]
  · refine h4.irq _ 2 (bar0_mod d 2 (by decide)) ?_
    rw [hs3, hs2]
    exact s1.raisePg_bit d 2 (by decide)
  · rw [hdies, if_pos rfl]
  · rw [hdies, if_neg hj]

/-! ## Strands that fail -/

/-- A strand marked as failed at one end of its edge, with the interrupt there (R321). -/
def State.markStrand (s : State) (d dir strand : Nat) : State :=
  (s.wf (btnReg d dir Off.BTN_EDGE_STS) 9 2 (Nat.lor (s.rf (btnReg d dir Off.BTN_EDGE_STS) 9 2) (2 ^ strand))).raisePg d 2 1

/-- EDGE_STS with a strand marked as failed. -/
def stsMarked (w : Word) (strand : Nat) : Word := ins w 9 2 (Nat.lor (fld w 9 2) (2 ^ strand))

theorem State.markStrand_spec {s : State} {d dir strand : Nat} (hdir : dir < 4) :
    keepsEdges [btnReg d dir Off.BTN_EDGE_STS] s (s.markStrand d dir strand)
      ∧ (s.markStrand d dir strand).reg (btnReg d dir Off.BTN_EDGE_STS) = stsMarked (s.reg (btnReg d dir Off.BTN_EDGE_STS)) strand
      ∧ (s.markStrand d dir strand).rf (bar0 d 2 Off.PG_IRQ_RAW) 1 1 = 1 ∧ (s.markStrand d dir strand).dies = s.dies := by
  obtain ⟨s1, hs1⟩ : ∃ s1, s1 = s.wf (btnReg d dir Off.BTN_EDGE_STS) 9 2 (Nat.lor (s.rf (btnReg d dir Off.BTN_EDGE_STS) 9 2) (2 ^ strand)) := ⟨_, rfl⟩
  have hmark : s.markStrand d dir strand = s1.raisePg d 2 1 := by rw [hs1, State.markStrand]
  have h1 := s.wf_edges d dir 9 2 (Nat.lor (s.rf (btnReg d dir Off.BTN_EDGE_STS) 9 2) (2 ^ strand)) hdir
  rw [← hs1] at h1
  have h2 := s1.raisePg_rewired d 2 1
  rw [hmark]
  refine ⟨h1.trans (h2.edges _), ?_, s1.raisePg_bit d 2 (by decide), h2.dies.trans ?_⟩
  · rw [h2.reg _ (btn_quiet d hdir (.inl rfl)), hs1, State.wf_eq, State.reg_setReg_self]
    rfl
  · rw [hs1]
    exact (congrArg State.dies (onlyRegs.wf s _ 9 2 _) :)

theorem bitAt_eq_testBit (n k : Nat) : bitAt n k = n.testBit k := (Nat.testBit_eq_decide_div_mod_eq ..).symm

/-- Which strands a marked register shows as failed. -/
theorem stsMarked_bit (w : Word) {strand j : Nat} (hj : j < 8) :
    bitAt (fld (stsMarked w strand) 9 2) j = (bitAt (fld w 9 2) j || decide (j = strand)) := by
  unfold stsMarked
  rw [fld_ins_self _ 9 2 _ (by decide) (by decide), bitAt_eq_testBit, bitAt_eq_testBit]
  rw [Nat.testBit_mod_two_pow, decide_eq_true (show j < 9 + 1 - 2 from hj), Bool.true_and]
  rw [show Nat.lor (fld w 9 2) (2 ^ strand) = fld w 9 2 ||| 2 ^ strand from rfl, Nat.testBit_or, Nat.testBit_two_pow]
  congr 1
  exact decide_eq_decide.mpr eq_comm

theorem stsMarked_state (w : Word) (strand : Nat) : fld (stsMarked w strand) 1 0 = fld w 1 0 :=
  fld_ins_below _ 9 2 _ 1 0 (by decide) (by decide) (by decide) (by decide)

/-- Both ends of an edge show a strand as failed, and its other strands as they stood. -/
structure StrandMarked (d dir n strand : Nat) (s t : State) : Prop where
  here : t.reg (btnReg d dir Off.BTN_EDGE_STS) = stsMarked (s.reg (btnReg d dir Off.BTN_EDGE_STS)) strand
  there : t.reg (btnReg n (opposite dir) Off.BTN_EDGE_STS) = stsMarked (s.reg (btnReg n (opposite dir) Off.BTN_EDGE_STS)) strand
  retire : ∀ e dir', dir' < 4 → t.reg (btnReg e dir' Off.BTN_RETIRE) = s.reg (btnReg e dir' Off.BTN_RETIRE)

theorem StrandMarked.used {d dir n strand : Nat} {s t : State} (h : StrandMarked d dir n strand s t) (hdir : dir < 4) (hn : neighbour d dir = some n)
    (hopp : opposite dir < 4) {j : Nat} (hj : j < 8) : t.strandUsed d dir j = (s.strandUsed d dir j && decide (j ≠ strand)) := by
  unfold State.strandUsed
  dsimp only
  rw [hn, Option.any_some, Option.any_some]
  simp only [State.rf_eq, h.here, h.there, h.retire d dir hdir, h.retire n (opposite dir) hopp, stsMarked_bit _ hj, decide_eq_true hj, Bool.true_and]
  generalize bitAt (fld (s.reg (btnReg d dir Off.BTN_EDGE_STS)) 9 2) j = x
  generalize bitAt (fld (s.reg (btnReg n (opposite dir) Off.BTN_EDGE_STS)) 9 2) j = y
  generalize bitAt (fld (s.reg (btnReg d dir Off.BTN_RETIRE)) 7 0) j = v
  generalize bitAt (fld (s.reg (btnReg n (opposite dir) Off.BTN_RETIRE)) 7 0) j = w
  by_cases hjs : j = strand
  · simp [hjs]
  · simp [hjs]

/-- One strand less is in use (R321). -/
theorem StrandMarked.strands {d dir n strand : Nat} {s t : State} (h : StrandMarked d dir n strand s t) (hdir : dir < 4) (hn : neighbour d dir = some n)
    (hopp : opposite dir < 4) (hused : s.strandUsed d dir strand = true) : t.strands d dir + 1 = s.strands d dir := by
  have hs : strand < 8 := by
    simp only [State.strandUsed, Bool.and_eq_true, decide_eq_true_eq] at hused
    exact hused.1.1
  have hmem : strand ∈ (List.range 8).filter (s.strandUsed d dir) := List.mem_filter.mpr ⟨List.mem_range.mpr hs, hused⟩
  have hnodup : ((List.range 8).filter (s.strandUsed d dir)).Nodup := List.nodup_range.filter _
  have heq : (List.range 8).filter (t.strandUsed d dir) = ((List.range 8).filter (s.strandUsed d dir)).erase strand := by
    rw [hnodup.erase_eq_filter, List.filter_filter]
    refine List.filter_congr fun j hj => ?_
    rw [h.used hdir hn hopp (List.mem_range.mp hj), Bool.and_comm]
    by_cases hjs : j = strand <;> simp [hjs]
  have hpos := List.length_pos_of_mem hmem
  unfold State.strands
  rw [heq, List.length_erase_of_mem hmem]
  omega

/-- A strand that has failed at both ends, before the edge falls. -/
def State.strandFailed (s : State) (d dir n strand : Nat) : State :=
  ((s.markStrand d dir strand).markStrand n (opposite dir) strand).strandFault d dir strand

theorem State.strandFailed_spec {s : State} {d dir n strand : Nat} (hd : d < 64) (hdir : dir < 4) (hn : neighbour d dir = some n) :
    StrandMarked d dir n strand s (s.strandFailed d dir n strand) ∧ (s.strandFailed d dir n strand).dies = s.dies
      ∧ keepsEdges [btnReg d dir Off.BTN_EDGE_STS, btnReg n (opposite dir) Off.BTN_EDGE_STS] s (s.strandFailed d dir n strand)
      ∧ (s.strandFailed d dir n strand).rf (bar0 d 2 Off.PG_IRQ_RAW) 1 1 = 1 ∧ (s.strandFailed d dir n strand).rf (bar0 n 2 Off.PG_IRQ_RAW) 1 1 = 1 := by
  obtain ⟨-, -, hopp, -⟩ := neighbour_back hd hdir hn
  have hne : d ≠ n := (neighbour_ne hn).symm
  obtain ⟨k1, r1, i1, d1⟩ := State.markStrand_spec (s := s) (d := d) (strand := strand) hdir
  generalize ht1 : s.markStrand d dir strand = t1 at k1 r1 i1 d1
  obtain ⟨k2, r2, i2, d2⟩ := State.markStrand_spec (s := t1) (d := n) (strand := strand) hopp
  generalize ht2 : t1.markStrand n (opposite dir) strand = t2 at k2 r2 i2 d2
  obtain ⟨k3, -, -⟩ := t2.strandFault_spec d dir strand
  have hfailed : s.strandFailed d dir n strand = t2.strandFault d dir strand := by rw [State.strandFailed, ht1, ht2]
  generalize t2.strandFault d dir strand = u at k3 hfailed
  rw [hfailed]
  have hab : homeAddr (btnReg d dir Off.BTN_EDGE_STS) ∉ [btnReg n (opposite dir) Off.BTN_EDGE_STS] := fun h => by
    have h' := List.mem_singleton.mp h
    rw [← homeAddr_btn n hopp (off := Off.BTN_EDGE_STS) (by decide)] at h'
    exact homeAddr_btn_ne hdir (by decide) hopp (by decide) (.inl hne) h'
  have hba : homeAddr (btnReg n (opposite dir) Off.BTN_EDGE_STS) ∉ [btnReg d dir Off.BTN_EDGE_STS] := fun h => by
    have h' := List.mem_singleton.mp h
    rw [← homeAddr_btn d hdir (off := Off.BTN_EDGE_STS) (by decide)] at h'
    exact homeAddr_btn_ne hopp (by decide) hdir (by decide) (.inl hne.symm) h'
  have hretire : ∀ e dir' e2 dir2, dir' < 4 → dir2 < 4 → homeAddr (btnReg e dir' Off.BTN_RETIRE) ∉ [btnReg e2 dir2 Off.BTN_EDGE_STS] :=
    fun e dir' e2 dir2 h1 h2 h => by
      have h' := List.mem_singleton.mp h
      rw [← homeAddr_btn e2 h2 (off := Off.BTN_EDGE_STS) (by decide)] at h'
      refine homeAddr_btn_ne h1 (by decide) h2 (by decide) (.inr ?_) h'
      simp only [Off.BTN_RETIRE, Off.BTN_EDGE_STS]
      omega
  refine ⟨⟨?_, ?_, fun e dir' h' => ?_⟩, (k3.dies.trans d2).trans d1, ?_, ?_, ?_⟩
  · rw [k3.reg _ (btn_quiet d hdir (.inl rfl)), k2.reg _ (btn_quiet d hdir (.inl rfl)) hab, r1]
  · rw [k3.reg _ (btn_quiet n hopp (.inl rfl)), r2, k1.reg _ (btn_quiet n hopp (.inl rfl)) hba]
  · have hq := btn_quiet e h' (off := Off.BTN_RETIRE) (.inr (.inl rfl))
    rw [k3.reg _ hq, k2.reg _ hq (hretire e dir' n (opposite dir) h' hopp), k1.reg _ hq (hretire e dir' d dir h' hdir)]
  · exact ((k1.mono fun a h => List.mem_cons.mpr (.inl (List.mem_singleton.mp h))).trans
      (k2.mono fun a h => List.mem_cons.mpr (.inr h))).trans (k3.edges _)
  · exact k3.irq _ 1 (bar0_mod d 2 (by decide)) (k2.irq _ 1 (bar0_mod d 2 (by decide)) i1)
  · exact k3.irq _ 1 (bar0_mod n 2 (by decide)) i2

theorem execStrandFail_used {s : State} {d dir n strand : Nat} (hn : neighbour d dir = some n) (hup : s.edgeUp d dir = true)
    (hused : s.strandUsed d dir strand = true) :
    execStrandFail d dir strand s = if (s.strandFailed d dir n strand).strands d dir < 7 then
      .next (((s.strandFailed d dir n strand).edgeFalls d dir).edgeFalls n (opposite dir)) else .next (s.strandFailed d dir n strand) := by
  unfold execStrandFail
  rw [hn]
  dsimp only
  rw [if_pos ⟨hup, hused⟩]
  rfl

/-- What a failed strand leaves of its edge (R321, R322). -/
theorem State.strandFail_spec {s : State} {d dir n strand : Nat} (hd : d < 64) (hdir : dir < 4) (hn : neighbour d dir = some n) (hup : s.edgeUp d dir = true)
    (hused : s.strandUsed d dir strand = true) :
    Completes (.strandFail d dir strand) s fun u =>
      let a := btnReg d dir Off.BTN_EDGE_STS
      let b := btnReg n (opposite dir) Off.BTN_EDGE_STS
      bitAt (u.rf a 9 2) strand = true ∧ bitAt (u.rf b 9 2) strand = true ∧ u.rf (bar0 d 2 Off.PG_IRQ_RAW) 1 1 = 1
        ∧ u.rf (bar0 n 2 Off.PG_IRQ_RAW) 1 1 = 1
        ∧ (s.strands d dir ≤ 7 → u.rf a 1 0 = 2 ∧ u.rf b 1 0 = 2 ∧ n ∈ (u.die d).marked ∧ d ∈ (u.die n).marked)
        ∧ (s.strands d dir = 8 → u.rf a 1 0 = 1 ∧ u.rf b 1 0 = s.rf b 1 0 ∧ u.dies = s.dies) ∧ sameMemory s u := by
  obtain ⟨hback, hn64, hopp, hopp2⟩ := neighbour_back hd hdir hn
  have hne : d ≠ n := (neighbour_ne hn).symm
  have hs : strand < 8 := by
    simp only [State.strandUsed, Bool.and_eq_true, decide_eq_true_eq] at hused
    exact hused.1.1
  have hst : s.rf (btnReg d dir Off.BTN_EDGE_STS) 1 0 = 1 := by
    simp only [State.edgeUp, hn, Bool.and_eq_true, decide_eq_true_eq] at hup
    exact hup.1.1
  obtain ⟨hmark, hdies, hkeep, hi1, hi2⟩ := State.strandFailed_spec (s := s) (strand := strand) hd hdir hn
  have hcount := hmark.strands hdir hn hopp hused
  have hrun := execStrandFail_used hn hup hused
  generalize s.strandFailed d dir n strand = t at hmark hdies hkeep hi1 hi2 hcount hrun
  have hown : ∀ w : Word, bitAt (fld (stsMarked w strand) 9 2) strand = true := fun w => by
    rw [stsMarked_bit w hs, decide_eq_true rfl, Bool.or_true]
  by_cases h7 : s.strands d dir ≤ 7
  · rw [if_pos (by omega)] at hrun
    obtain ⟨k1, r1, -, m1, o1⟩ := State.edgeFalls_spec (s := t) hdir hn
    generalize t.edgeFalls d dir = t1 at hrun k1 r1 m1 o1
    obtain ⟨k2, r2, -, m2, o2⟩ := State.edgeFalls_spec (s := t1) hopp hback
    generalize t1.edgeFalls n (opposite dir) = u at hrun k2 r2 m2 o2
    have hab : homeAddr (btnReg d dir Off.BTN_EDGE_STS) ∉ [btnReg n (opposite dir) Off.BTN_EDGE_STS] := fun h => by
      have h' := List.mem_singleton.mp h
      rw [← homeAddr_btn n hopp (off := Off.BTN_EDGE_STS) (by decide)] at h'
      exact homeAddr_btn_ne hdir (by decide) hopp (by decide) (.inl hne) h'
    have hba : homeAddr (btnReg n (opposite dir) Off.BTN_EDGE_STS) ∉ [btnReg d dir Off.BTN_EDGE_STS] := fun h => by
      have h' := List.mem_singleton.mp h
      rw [← homeAddr_btn d hdir (off := Off.BTN_EDGE_STS) (by decide)] at h'
      exact homeAddr_btn_ne hopp (by decide) hdir (by decide) (.inl hne.symm) h'
    have hA : u.reg (btnReg d dir Off.BTN_EDGE_STS) = ins (stsMarked (s.reg (btnReg d dir Off.BTN_EDGE_STS)) strand) 1 0 2 := by
      rw [k2.reg _ (btn_quiet d hdir (.inl rfl)) hab, r1, hmark.here]
    have hB : u.reg (btnReg n (opposite dir) Off.BTN_EDGE_STS) = ins (stsMarked (s.reg (btnReg n (opposite dir) Off.BTN_EDGE_STS)) strand) 1 0 2 := by
      rw [r2, k1.reg _ (btn_quiet n hopp (.inl rfl)) hba, hmark.there]
    have hbits : ∀ w : Word, bitAt (fld (ins (stsMarked w strand) 1 0 2) 9 2) strand = true ∧ fld (ins (stsMarked w strand) 1 0 2) 1 0 = 2 := fun w => by
      rw [fld_ins_above _ 1 0 2 9 2 (by decide) (by decide) (by decide), fld_ins_self _ 1 0 2 (by decide) (by decide)]
      exact ⟨hown w, rfl⟩
    refine ⟨u, hrun, ?_⟩
    beta_reduce
    intro a b
    rw [State.rf_eq u a 9 2, State.rf_eq u b 9 2, State.rf_eq u a 1 0, State.rf_eq u b 1 0, hA, hB]
    refine ⟨(hbits _).1, (hbits _).1, ?_, ?_, fun _ => ⟨(hbits _).2, (hbits _).2, ?_, ?_⟩, fun h => absurd h7 (by omega), ?_⟩
    · exact k2.irq _ 1 (bar0_mod d 2 (by decide)) (k1.irq _ 1 (bar0_mod d 2 (by decide)) hi1)
    · exact k2.irq _ 1 (bar0_mod n 2 (by decide)) (k1.irq _ 1 (bar0_mod n 2 (by decide)) hi2)
    · rw [o2 d hne, m1]
      exact mem_insertNat.mpr (.inl rfl)
    · rw [m2]
      exact mem_insertNat.mpr (.inl rfl)
    · exact (hkeep.mem.trans k1.mem).trans k2.mem
  · have hle : s.strands d dir ≤ 8 := (List.length_filter_le _ _).trans (by simp)
    rw [if_neg (by omega)] at hrun
    refine ⟨t, hrun, ?_⟩
    beta_reduce
    intro a b
    rw [State.rf_eq t a 9 2, State.rf_eq t b 9 2, State.rf_eq t a 1 0, State.rf_eq t b 1 0, hmark.here, hmark.there]
    refine ⟨hown _, hown _, hi1, hi2, fun h => absurd h h7, fun _ => ⟨?_, ?_, hdies⟩, hkeep.mem⟩
    · rw [stsMarked_state]
      exact hst
    · rw [stsMarked_state]
      rfl

end Sys2Proof.Machine
end

section
/-! SUPPORT. Dies that are lost and fenced, and the takeover (R325 to R331). -/

namespace Sys2Proof.Machine

/-! ## What the fence of a die leaves standing -/

/-- Dies stand as they did, no interrupt and no fault of the cycle is gone, and no port that was down is up. -/
structure keepsFence (s t : State) : Prop where
  dies : t.dies = s.dies
  irq : ∀ a n, a % 2 ^ 12 = Off.PG_IRQ_RAW → s.rf a n n = 1 → t.rf a n n = 1
  faults : ∀ f ∈ s.cycle.faults, f ∈ t.cycle.faults
  down : ∀ p, s.portUpNow p = false → t.portUpNow p = false

namespace keepsFence
variable {s t u : State}

theorem refl (s : State) : keepsFence s s := ⟨rfl, fun _ _ _ h => h, fun _ h => h, fun _ h => h⟩

theorem trans (h : keepsFence s t) (g : keepsFence t u) : keepsFence s u :=
  ⟨g.dies.trans h.dies, fun a n ha hn => g.irq a n ha (h.irq a n ha hn), fun f hf => g.faults f (h.faults f hf), fun p hp => g.down p (h.down p hp)⟩

theorem forAll {α : Type} (l : List α) (f : α → State → State) (hf : ∀ a s, keepsFence s (f a s)) (s : State) : keepsFence s (Machine.forAll l f s) :=
  forAll_induct (P := keepsFence s) (fun a t h => h.trans (hf a t)) l (.refl s)

theorem iter (f : Nat → State → State) (hf : ∀ k s, keepsFence s (f k s)) (n : Nat) (s : State) : keepsFence s (Machine.iter f n s) := by
  induction n with
  | zero => exact .refl s
  | succ n ih => exact ih.trans (hf n _)

theorem of_fields (h1 : t.dies = s.dies) (h2 : t.regs = s.regs) (h3 : t.cycle = s.cycle) : keepsFence s t := by
  have hreg : ∀ a, t.reg a = s.reg a := fun a => by rw [State.reg, State.reg, h2]
  refine ⟨h1, fun a n _ h => ?_, fun f h => by rwa [h3], fun p h => ?_⟩
  · rw [State.rf_eq, hreg]
    exact h
  · rw [State.portUpNow, State.rf_eq, hreg]
    exact h

end keepsFence

theorem Rewired.fence {s t : State} (h : Rewired s t) : keepsFence s t :=
  ⟨h.dies, h.irq, h.faults, fun p hp => by
    rw [State.portUpNow, State.rf_eq, h.reg _ (portSts_quiet p)]
    exact hp⟩

/-- A write of a register that is neither an interrupt source nor the state of a port. -/
theorem State.setReg_fence (s : State) {a : Nat} (w : Word) (h1 : a % 2 ^ 12 ≠ Off.PG_IRQ_RAW) (h2 : a % 2 ^ 12 < 0x400) : keepsFence s (s.setReg a w) := by
  refine ⟨rfl, fun b n hb hn => ?_, fun _ h => h, fun p hp => ?_⟩
  · rw [State.rf_eq, s.reg_setReg_ne w (homeAddr_ne_of_mod (by rw [hb]; exact h1.symm))]
    exact hn
  · rw [State.portUpNow, State.rf_eq, s.reg_setReg_ne w (homeAddr_ne_of_mod (portSts_ne p h2))]
    exact hp

theorem State.sat_fence (s : State) {a : Nat} (hi lo n : Nat) (h1 : a % 2 ^ 12 ≠ Off.PG_IRQ_RAW) (h2 : a % 2 ^ 12 < 0x400) : keepsFence s (s.sat a hi lo n) :=
  (s.setReg_fence _ h1 h2).trans ⟨rfl, fun _ _ _ h => h, fun _ h => h, fun _ h => h⟩

/-! ## The ports of a fenced die -/

/-- A port's state set, its bit UP cleared or left, lifts no port. -/
theorem State.sts_fence (s : State) (p hi lo v : Nat) (h : fld (ins (s.reg (portReg p Off.EAV_PSTS)) hi lo v) 0 0 = 0 ∨ s.portUpNow p = false ∧ 0 < lo ∧ lo ≤ hi ∧ hi < 64) :
    keepsFence s (s.wf (portReg p Off.EAV_PSTS) hi lo v) := by
  refine ⟨rfl, fun a n ha hn => ?_, fun _ h => h, fun q hq => ?_⟩
  · rw [State.rf_eq, State.reg_wf_of_mod _ _ _ _ (by rw [ha]; exact (portSts_ne p (by decide)).symm)]
    exact hn
  · rw [State.portUpNow, State.rf_eq] at hq ⊢
    by_cases he : homeAddr (portReg q Off.EAV_PSTS) = homeAddr (portReg p Off.EAV_PSTS)
    · rw [State.reg_congr _ he, State.wf_eq, State.reg_setReg_self]
      rcases h with h | ⟨hdown, h1, h2, h3⟩
      · rw [h]
        decide
      · rw [fld_ins_below _ hi lo v 0 0 h2 h3 (by decide) h1]
        exact hdown
    · rw [State.wf_eq, State.reg_setReg_ne _ _ he]
      exact hq

theorem State.portDown_fence (s : State) (p : Nat) : keepsFence s (s.portDown p) ∧ (s.portDown p).portUpNow p = false := by
  have hzero : fld (ins (s.reg (portReg p Off.EAV_PSTS)) 0 0 0) 0 0 = 0 := by
    rw [fld_ins_self _ 0 0 0 (by decide) (by decide)]
    rfl
  obtain ⟨t, ht⟩ : ∃ t, t = s.wf (portReg p Off.EAV_PSTS) 0 0 0 := ⟨_, rfl⟩
  have h1 : keepsFence s t := by
    rw [ht]
    exact s.sts_fence p 0 0 0 (.inl hzero)
  refine ⟨?_, ?_⟩
  · have hdown : s.portDown p = if s.rf Off.RDG_PTP 5 0 = p then { t with ptpLocked := false } else t := by
      rw [ht]
      rfl
    rw [hdown]
    split
    · exact h1.trans (.of_fields rfl rfl rfl)
    · exact h1
  · rw [State.portUpNow, State.rf_eq, State.portDown_reg, State.wf_eq, State.reg_setReg_self, hzero]
    decide

theorem State.portFails_fence (s : State) (p : Nat) : keepsFence s (s.portFails p) ∧ (s.portFails p).portUpNow p = false := by
  obtain ⟨h0, hdown0⟩ := s.portDown_fence p
  generalize hs0 : s.portDown p = s0 at h0 hdown0
  have h1 := s0.sts_fence p 1 1 1 (.inr ⟨hdown0, by decide, by decide, by decide⟩)
  generalize hs1 : s0.wf (portReg p Off.EAV_PSTS) 1 1 1 = s1 at h1
  have h2 : keepsFence s1 (s1.wf (bar0 (portDie p) 0 Off.EAV_REROUTE) 21 16 p) :=
    s1.setReg_fence _ (by rw [eavReg_mod p (by decide)]; decide) (by rw [eavReg_mod p (by decide)]; decide)
  generalize hs2 : s1.wf (bar0 (portDie p) 0 Off.EAV_REROUTE) 21 16 p = s2 at h2
  have h3 := (s2.raisePg_rewired (portDie p) 0 0).fence
  generalize hs3 : s2.raisePg (portDie p) 0 0 = s3 at h3
  have h4 : keepsFence s3 (forAll (s3.linksOf p) (fun k t => t.linkLoss k p) s3) := .forAll _ _ (fun k t => (t.linkLoss_rewired k p).fence) s3
  have hfails : s.portFails p = forAll (s3.linksOf p) (fun k t => t.linkLoss k p) s3 := by rw [State.portFails, hs0, hs1, hs2, hs3]
  have hrest := ((h1.trans h2).trans h3).trans h4
  rw [hfails]
  exact ⟨h0.trans hrest, hrest.down p hdown0⟩

/-! ## What else goes with a die -/

theorem State.modCtx_fence (s : State) (c : Nat) (f : Ctx → Ctx) : keepsFence s (s.modCtx c f) := .of_fields rfl rfl rfl

theorem State.modXfer_fence (s : State) (c id : Nat) (f : Xfer → Xfer) : keepsFence s (s.modXfer c id f) := by
  unfold State.modXfer
  split
  · exact .refl s
  · exact s.modCtx_fence c _

theorem State.discarded_fence (s : State) (d : Nat) (f : PurlinPacket) : keepsFence s (s.discarded d f) := by
  have hq : keepsFence s (s.unqueuePush f.owner.1 f.owner.2) := by
    unfold State.unqueuePush
    split
    · exact .refl s
    · split
      · split
        · exact s.modCtx_fence _ _
        · exact .refl s
      · exact .refl s
  unfold State.discarded
  split
  · exact .refl s
  · exact hq.trans (State.modXfer_fence _ _ _ _)

theorem State.cutPackets_fence (s : State) (d : Nat) : keepsFence s (s.cutPackets d) := by
  unfold State.cutPackets
  extract_lets gone
  refine keepsFence.trans ?_ (.forAll gone (fun f t => t.discarded d f) (fun f t => t.discarded_fence d f) _)
  exact .of_fields rfl rfl rfl

theorem State.dropEdges_fence (s : State) (d : Nat) : keepsFence s (s.dropEdges d) := by
  refine keepsFence.iter _ (fun dir t => ?_) 4 s
  split
  · exact .refl t
  · exact ((t.strandsOver_rewired d dir _).trans (State.strandsOver_rewired _ _ _ _)).fence

theorem State.dropThatch_fence (s : State) (t : Nat) : keepsFence s (s.dropThatch t) := by
  unfold State.dropThatch
  refine keepsFence.trans ?_ (State.closeWindow_rewired _ (.stack t)).fence
  exact .of_fields rfl rfl rfl

theorem State.siteOff_fence (s : State) (i : Nat) : keepsFence s (s.siteOff i) := by
  have hmod : ∀ off, off < 2 ^ 12 → dmrReg i off % 2 ^ 12 = off := fun off h => bar0_mod _ _ h
  unfold State.siteOff
  split
  · have h1 := s.setReg_fence (ins (s.reg (dmrReg i Off.DMR_CTL)) 0 0 0) (a := dmrReg i Off.DMR_CTL) (by rw [hmod _ (by decide)]; decide) (by rw [hmod _ (by decide)]; decide)
    have h2 : ∀ t : State, keepsFence t (t.wf (dmrReg i Off.DMR_STS) 0 0 1) := fun t =>
      t.setReg_fence _ (by rw [hmod _ (by decide)]; decide) (by rw [hmod _ (by decide)]; decide)
    have h3 : ∀ (t : State) f, keepsFence t (t.modSite i f) := fun _ _ => .of_fields rfl rfl rfl
    exact ((h1.trans (h2 _)).trans (h3 _ _)).trans (State.raisePg_rewired _ _ _ 1).fence
  · exact .refl s

/-! ## FENCE_NOTICE -/

/-- The contexts that a fenced die faults. -/
def State.fenceHits (s : State) (d : Nat) : List Nat := (s.ctxs.filter fun e => e.2.losesDie d && decide (e.2.phase = .normal)).map (·.1)

/-- What goes with a fenced die of each kind. -/
def State.fencedKind (s : State) (d : Nat) : State :=
  match dieKind d with
  | .eave => forAll ((List.range 8).map fun i => 8 * eaveIdx d + i) (fun p (t : State) => if t.portUpNow p then t.portFails p else t) s
  | .dormer => s.siteOff (if d = 7 then 0 else 1)
  | .thatch => s.dropThatch (thatchIdx d)
  | _ => s

/-- The routes that a fence changes, counted. -/
def State.countDetours (s : State) (n : List Nat) : State := forAll n.zipIdx (fun e t => if e.1 = 0 then t else t.sat (bar0 e.2 1 Off.PRL_DETOUR) 31 0 e.1) s

/-- The routes from each die that the fence of `d` changes. -/
def State.fenceDetours (s : State) (d : Nat) : List Nat := (List.range 64).map fun a => if a = d ∨ (s.die a).fenced then 0 else s.detours d a

theorem State.fenceDie_eq (s : State) (d cause : Nat) :
    ∃ t, t = ((s.modDie d fun x => { x with fenced := true, cause := cause }).raiseRdg 8).countDetours (s.fenceDetours d) ∧ s.fenceDie d cause = (let v := (((forAll (t.fenceHits d) (fun c t => t.ctxFault c 18) t).fencedKind d).cutPackets d).dropEdges d
        if decide (d = s.mgr) then { v with takeoverActive := true }.refreshAll else v) := by
  refine ⟨_, rfl, ?_⟩
  unfold State.fenceDie State.fencedKind State.countDetours State.fenceHits State.fenceDetours
  rfl

theorem State.fencedKind_fence (s : State) (d : Nat) : keepsFence s (s.fencedKind d) := by
  have port : ∀ p (t : State), keepsFence t (if t.portUpNow p then t.portFails p else t) := fun p t => by
    split
    · exact (t.portFails_fence p).1
    · exact .refl t
  unfold State.fencedKind
  split
  · exact .forAll _ _ port s
  · exact s.siteOff_fence _
  · exact s.dropThatch_fence _
  · exact .refl s

/-- The ports of a fenced Eave die are down (R328). -/
theorem State.fencedKind_ports {d : Nat} (hk : dieKind d = .eave) (s : State) {i : Nat} (hi : i < 8) : (s.fencedKind d).portUpNow (8 * eaveIdx d + i) = false := by
  have own : ∀ p (t : State), (if t.portUpNow p then t.portFails p else t).portUpNow p = false := fun p t => by
    split
    · exact (t.portFails_fence p).2
    next h => exact Bool.not_eq_true _ ▸ h
  have keep : ∀ p q (t : State), t.portUpNow p = false → (if t.portUpNow q then t.portFails q else t).portUpNow p = false := fun p q t h => by
    split
    · exact (t.portFails_fence q).1.down p h
    · exact h
  unfold State.fencedKind
  rw [hk]
  exact forAll_each (Q := fun p t => t.portUpNow p = false) own keep _ s _ (List.mem_map.mpr ⟨i, List.mem_range.mpr hi, rfl⟩)

theorem State.raisePg_ctxs (s : State) (d b n : Nat) : (s.raisePg d b n).ctxs = s.ctxs := (s.setPgIrq_spec d b _ _).2.1

theorem State.countDetours_spec (s : State) (n : List Nat) : keepsFence s (s.countDetours n) ∧ (s.countDetours n).ctxs = s.ctxs := by
  refine forAll_induct (P := fun t => keepsFence s t ∧ t.ctxs = s.ctxs) (fun e t h => ?_) n.zipIdx ⟨.refl s, rfl⟩
  obtain ⟨h1, h2⟩ := h
  split
  · exact ⟨h1, h2⟩
  · refine ⟨h1.trans (t.sat_fence 31 0 _ ?_ ?_), (congrArg State.ctxs (onlyRegs.sat t _ 31 0 _) :).trans h2⟩
    · rw [bar0_mod _ _ (by decide)]
      decide
    · rw [bar0_mod _ _ (by decide)]
      decide

/-- The contexts that the fence hits have the fault (table *Effect of a fenced die*). -/
theorem State.fenceHits_faulted {s : State} {d c : Nat} (hl : (s.ctx c).losesDie d = true)
    (hp : (s.ctx c).phase = .normal) : c ∈ s.fenceHits d := by
  have hinit : Ctx.init.losesDie d = false := by
    unfold Ctx.losesDie
    split <;> simp [Ctx.init, Ctx.queueOn]
  cases hc : Table.get? s.ctxs c with
  | none =>
    rw [State.ctx, Table.getD, hc] at hl
    exact absurd hl (by rw [Option.getD_none, hinit]; decide)
  | some x =>
    have hx : s.ctx c = x := by rw [State.ctx, Table.getD, hc, Option.getD_some]
    rw [hx] at hl hp
    refine List.mem_map.mpr ⟨(c, x), List.mem_filter.mpr ⟨Table.mem_of_get? hc, ?_⟩, rfl⟩
    rw [hl, hp]
    rfl

/-- A fence notice (R325 to R330). -/
theorem State.fenceDie_spec (s : State) (d cause : Nat) :
    let u := s.fenceDie d cause
    (u.die d).fenced = true ∧ (u.die d).cause = cause ∧ (∀ j, j ≠ d → u.die j = s.die j) ∧ u.rf Off.PG_IRQ_RAW 8 8 = 1
      ∧ (∀ c, (s.ctx c).losesDie d = true → (s.ctx c).phase = .normal → (⟨c, 18, none⟩ : PendFault) ∈ u.cycle.faults)
      ∧ (dieKind d = .eave → ∀ i, i < 8 → u.portUpNow (8 * eaveIdx d + i) = false)
      ∧ (d = s.mgr → u.takeoverActive = true) := by
  intro u
  obtain ⟨t, ht, hu⟩ := s.fenceDie_eq d cause
  obtain ⟨s0, hs0⟩ : ∃ s0, s0 = s.modDie d fun x => { x with fenced := true, cause := cause } := ⟨_, rfl⟩
  obtain ⟨s1, hs1⟩ : ∃ s1, s1 = s0.raiseRdg 8 := ⟨_, rfl⟩
  rw [← hs0, ← hs1] at ht
  have h1 : keepsFence s0 s1 := by
    rw [hs1]
    exact (s0.raisePg_rewired 0 0 8).fence
  obtain ⟨h2, hctx2⟩ := s1.countDetours_spec (s.fenceDetours d)
  rw [← ht] at h2 hctx2
  have hctxs : t.ctxs = s.ctxs := by
    rw [hctx2, hs1, State.raiseRdg, State.raisePg_ctxs, hs0]
    rfl
  obtain ⟨t1, ht1⟩ : ∃ t1, t1 = forAll (t.fenceHits d) (fun c t => t.ctxFault c 18) t := ⟨_, rfl⟩
  have h3 : keepsFence t t1 := by
    rw [ht1]
    exact .forAll _ _ (fun c t => (t.ctxFault_rewired c 18).fence) t
  have hfaults : ∀ c ∈ t.fenceHits d, (⟨c, 18, none⟩ : PendFault) ∈ t1.cycle.faults := by
    rw [ht1]
    exact forAll_each (Q := fun c (t : State) => (⟨c, 18, none⟩ : PendFault) ∈ t.cycle.faults) (fun c t => t.detect_mem _)
      (fun c b t h => (t.ctxFault_rewired b 18).faults _ h) _ t
  have h4 := t1.fencedKind_fence d
  have hports : dieKind d = .eave → ∀ i, i < 8 → (t1.fencedKind d).portUpNow (8 * eaveIdx d + i) = false := fun hk i hi => State.fencedKind_ports hk t1 hi
  rw [← ht1] at hu
  generalize t1.fencedKind d = t2 at hu h4 hports
  have h5 := (t2.cutPackets_fence d).trans (State.dropEdges_fence _ d)
  generalize (t2.cutPackets d).dropEdges d = t3 at hu h5
  have h6 : keepsFence t3 u ∧ (d = s.mgr → u.takeoverActive = true) := by
    unfold u
    rw [hu]
    dsimp only
    split
    next hm =>
      refine ⟨keepsFence.trans ?_ (State.refreshAll_rewired _).fence, fun _ => ?_⟩
      · exact .of_fields rfl rfl rfl
      · exact (congrArg State.takeoverActive (State.refreshAll_core _) :)
    next hm => exact ⟨.refl t3, fun h => absurd (decide_eq_true h) hm⟩
  have hall := (((h2.trans h3).trans h4).trans h5).trans h6.1
  have hdies : ∀ j, u.die j = if j = d then { s.die d with fenced := true, cause := cause } else s.die j := fun j => by
    rw [State.die, (h1.trans hall).dies, ← State.die, hs0, State.die_modDie]
  refine ⟨?_, ?_, fun j hj => ?_, hall.irq _ 8 (by decide) ?_, fun c hl hp => ?_, fun hk i hi => ?_, h6.2⟩
  · rw [hdies, if_pos rfl]
  · rw [hdies, if_pos rfl]
  · rw [hdies, if_neg hj]
  · rw [hs1]
    exact s0.raiseRdg_bit (by decide)
  · have hc : t.ctx c = s.ctx c := by rw [State.ctx, hctxs, State.ctx]
    exact ((h4.trans h5).trans h6.1).faults _ (hfaults c (State.fenceHits_faulted (by rw [hc]; exact hl) (by rw [hc]; exact hp)))
  · exact (h5.trans h6.1).down _ (hports hk i hi)

/-! ## The takeover -/

/-- Only links, registers and what the cycle counts differ, and no interrupt that stood is gone. -/
structure onlySends (s t : State) : Prop where
  core : t = { s with links := t.links, regs := t.regs, cycle := t.cycle }
  irq : ∀ a n, a % 2 ^ 12 = Off.PG_IRQ_RAW → s.rf a n n = 1 → t.rf a n n = 1

theorem onlySends.refl (s : State) : onlySends s s := ⟨rfl, fun _ _ _ h => h⟩

theorem onlySends.trans {s t u : State} (h : onlySends s t) (g : onlySends t u) : onlySends s u :=
  ⟨by rw [g.core, h.core], fun a n ha hn => g.irq a n ha (h.irq a n ha hn)⟩

theorem State.postCtl_sends (s : State) (node typ obj c : Nat) (ep : BitVec 16) (m : CtlMsg) : onlySends s (s.postCtl node typ obj c ep m) := by
  have hq : ∀ k f o st, onlySends s (s.enqueue k f o st) := fun k f o st => ⟨rfl, fun _ _ _ h => h⟩
  have hdrop : ∀ e, onlySends s (s.dropNoRoute e) := fun e =>
    ⟨rfl, (s.sat_fence 15 0 1 (a := bar0 (eaveDie e) 0 Off.EAV_DROP) (by rw [bar0_mod _ _ (by decide)]; decide) (by rw [bar0_mod _ _ (by decide)]; decide)).irq⟩
  unfold State.postCtl
  split
  · exact hq _ _ _ _
  · split
    · exact hdrop _
    · exact hq _ _ _ _

/-- What the other Ridge sends behind a takeover (R331). -/
theorem State.sendUnsent_spec (s : State) : onlySends { s with unsent := [] } s.sendUnsent :=
  forAll_induct (P := onlySends { s with unsent := [] }) (fun _ t h => h.trans (t.postCtl_sends _ _ _ _ _ _)) s.unsent (.refl _)

/-- The takeover hands over role and time base and drops the fenced Ridge's host port (R330, R331). -/
theorem State.takeover_spec (s : State) :
    let u := (({ (s.setHostLink s.roleB none).setI3c s.roleB none with roleB := !s.roleB }.mgmtBehind (!s.roleB) fun _ => 0).raiseRdg 9).sendUnsent
    u.roleB = !s.roleB ∧ u.hostLink s.roleB = false ∧ u.hostLink (!s.roleB) = s.hostLink (!s.roleB) ∧ u.rf Off.PG_IRQ_RAW 9 9 = 1
      ∧ u.unsent = [] ∧ u.ctxs = s.ctxs ∧ sameMemory s u := by
  obtain ⟨s1, hs1⟩ : ∃ s1, s1 = { (s.setHostLink s.roleB none).setI3c s.roleB none with roleB := !s.roleB } := ⟨_, rfl⟩
  obtain ⟨s2, hs2⟩ : ∃ s2, s2 = s1.mgmtBehind (!s.roleB) fun _ => 0 := ⟨_, rfl⟩
  obtain ⟨s3, hs3⟩ : ∃ s3, s3 = s2.raiseRdg 9 := ⟨_, rfl⟩
  rw [← hs1, ← hs2, ← hs3]
  intro u
  have h1 : s1.roleB = !s.roleB ∧ s1.hostLink s.roleB = false ∧ s1.hostLink (!s.roleB) = s.hostLink (!s.roleB) ∧ s1.ctxs = s.ctxs ∧ sameMemory s s1 := by
    rw [hs1]
    generalize s.roleB = b
    cases b <;> exact ⟨rfl, rfl, rfl, rfl, rfl, rfl, rfl, rfl, rfl, rfl⟩
  have h2 : s2 = { s1 with mgmtCmds := s2.mgmtCmds } := by
    rw [hs2]
    unfold State.mgmtBehind
    split <;> rfl
  have h3 : sameCore s2 s3 := by
    rw [hs3]
    exact s2.raiseRdg_core 9
  have hctx3 : s3.ctxs = s2.ctxs := by
    rw [hs3]
    exact State.raisePg_ctxs _ _ _ _
  have hraw : s3.rf Off.PG_IRQ_RAW 9 9 = 1 := by
    rw [hs3]
    exact s2.raiseRdg_bit (by decide)
  obtain ⟨h4, hirq⟩ := s3.sendUnsent_spec
  obtain ⟨r1, r2, r3, r4, r5⟩ := h1
  have link : ∀ b, u.hostLink b = s1.hostLink b := fun b => by
    unfold State.hostLink
    rw [show u.linkA = s3.linkA from (congrArg State.linkA h4 :), show u.linkB = s3.linkB from (congrArg State.linkB h4 :),
      show s3.linkA = s2.linkA from (congrArg State.linkA h3 :), show s3.linkB = s2.linkB from (congrArg State.linkB h3 :),
      show s2.linkA = s1.linkA from (congrArg State.linkA h2 :), show s2.linkB = s1.linkB from (congrArg State.linkB h2 :)]
  have m2 : sameMemory s1 s2 := by
    rw [h2]
    exact ⟨rfl, rfl, rfl, rfl, rfl, rfl⟩
  have m4 : sameMemory s3 u := by
    unfold u
    rw [h4]
    exact ⟨rfl, rfl, rfl, rfl, rfl, rfl⟩
  refine ⟨?_, (link _).trans r2, (link _).trans r3, hirq _ 9 (by decide) hraw, (congrArg State.unsent h4 :), ?_, ((r5.trans m2).trans h3.mem).trans m4⟩
  · exact (((congrArg State.roleB h4 :).trans (congrArg State.roleB h3 :)).trans (congrArg State.roleB h2 :)).trans r1
  · exact (((congrArg State.ctxs h4 :).trans hctx3).trans (congrArg State.ctxs h2 :)).trans r4

/-! ## Edges and dies -/

theorem strandKey_div (d dir : Nat) {j : Nat} (hj : j < 8) : strandKey d dir j / 8 = d * 4 + dir ∧ strandKey d dir j % 8 = j := by
  unfold strandKey
  omega

theorem strandKey_of_div {d dir k : Nat} (h : k / 8 = d * 4 + dir) : k = strandKey d dir (k % 8) := by
  unfold strandKey
  omega

/-- Settles O54: strands and edges fall at both their ends, a fence keeps every other die, and the takeover hands over the role. -/
theorem edgesAndDiesAreLost : Obligations.EdgesAndDiesAreLost := by
  unfold Obligations.EdgesAndDiesAreLost
  refine ⟨⟨fun s d dir strand hd hdir hup hused => ⟨?_, fun n hn => State.strandFail_spec hd hdir hn hup hused⟩, fun s d dir strand h8 hin => ?_,
    fun s d dir n hd hdir hn hal hst => ?_, fun s d dir hd hdir hover => ?_⟩, fun s d hal => ?_, fun s d cause hinv hd hsd hdue hiss => ?_,
    fun s d cause h => ?_, fun s d cause hsd hdue hiss => ?_, fun s hact hf ho => ⟨fun hiss => ?_, fun hiss => ?_⟩, fun s hact hf => ?_⟩
  · obtain ⟨s1, hs1⟩ : ∃ s1, s1 = s.sat (btnReg d dir Off.BTN_CRC) 31 0 1 := ⟨_, rfl⟩
    obtain ⟨s2, hs2⟩ : ∃ s2, s2 = { s1 with flitCount := Table.put 0 s1.flitCount (d * 4 + dir) (Table.getD 0 s1.flitCount (d * 4 + dir) + 1) } := ⟨_, rfl⟩
    obtain ⟨hrew, hwin, hkey⟩ := s2.strandFault_spec d dir strand
    have hrun : exec (.flitCrcFail d dir strand) s = .next (s2.strandFault d dir strand) := by
      rw [exec_flitCrcFail, execFlitCrcFail, if_pos ⟨hup, hused⟩, hs2, hs1]
    have h1 : onlyRegs s s1 := by
      rw [hs1]
      exact .sat s _ 31 0 1
    have hm : sameMemory s1 s2 := by
      rw [hs2]
      exact ⟨rfl, rfl, rfl, rfl, rfl, rfl⟩
    refine ⟨_, hrun, ?_, hwin, hkey, ?_, (h1.core.mem.trans hm).trans hrew.memory⟩
    · rw [State.rf_eq, hrew.reg _ (btn_quiet d hdir (.inr (.inr (.inl rfl)))), hs2]
      refine (show fld (s1.reg _) 31 0 = _ from ?_)
      rw [hs1]
      exact s.rf_sat_self _ 31 0 1 (by decide) (by decide)
    · rw [show (s2.strandFault d dir strand).flitCount = s2.flitCount from (congrArg State.flitCount hrew.core :), hs2, Table.getD_put_self,
        show s1.flitCount = s.flitCount from (congrArg State.flitCount h1 :)]
  · have hrun : exec (.flitReplayCaughtUp d dir strand) s = .next (s.strandsOver d dir fun k => k = strand) := by
      rw [exec_flitReplayCaughtUp, execFlitReplayCaughtUp, if_pos ⟨hin, h8⟩]
    obtain ⟨hmem, hstay, hclose⟩ := s.strandsOver_spec d dir fun k => k = strand
    have hrew := s.strandsOver_rewired d dir fun k => k = strand
    generalize s.strandsOver d dir (fun k => k = strand) = u at hrun hmem hstay hclose hrew
    have hothers : ∀ j, j < 8 → j ≠ strand → (strandKey d dir j ∈ u.strandFaults ↔ strandKey d dir j ∈ s.strandFaults) := fun j hj hne => by
      rw [hmem]
      refine ⟨fun h => h.1, fun h => ⟨h, fun ⟨_, he⟩ => hne ?_⟩⟩
      rw [(strandKey_div d dir hj).2] at he
      exact of_decide_eq_true he
    refine ⟨u, hrun, fun h => ?_, hothers, fun h => ?_, fun h => ?_, hrew.memory⟩
    · obtain ⟨h1, h2⟩ := strandKey_div d dir h8
      exact ((hmem _).mp h).2 ⟨h1, by rw [h2]; exact decide_eq_true rfl⟩
    · obtain ⟨j, hj, hne, hjin⟩ := h
      exact hstay ⟨_, (hothers j hj hne).mpr hjin, (strandKey_div d dir hj).1⟩
    · refine hclose fun k hk hdiv => ?_
      obtain ⟨hks, hnot⟩ := (hmem k).mp hk
      have hne : k % 8 ≠ strand := fun he => hnot ⟨hdiv, decide_eq_true he⟩
      exact h (k % 8) (Nat.mod_lt _ (by decide)) hne (strandKey_of_div hdiv ▸ hks)
  · have hrun : exec (.edgeDown d dir) s = .next (s.edgeFalls d dir) := by
      rw [exec_edgeDown, execEdgeDown, if_pos ⟨hal, hst⟩]
    obtain ⟨hk, hsts, hirq, hmark, -⟩ := State.edgeFalls_spec (s := s) hdir hn
    refine ⟨_, hrun, ?_, hirq, ?_, hk.mem⟩
    · rw [State.rf_eq, hsts, fld_ins_self _ 1 0 _ (by decide) (by decide)]
      rfl
    · rw [hmark]
      exact mem_insertNat.mpr (.inl rfl)
  · obtain ⟨s1, hs1⟩ : ∃ s1, s1 = { s with flitCount := Table.erase s.flitCount (d * 4 + dir) }.newPeriod (.flits d dir) := ⟨_, rfl⟩
    have hrun : exec (.strandWarnWindow d dir) s
        = if s.rf (btnReg d dir Off.BTN_STRAND_WARN) 31 0 < Table.getD 0 s.flitCount (d * 4 + dir) then .next (s1.raisePg d 2 0) else .next s1 := by
      rw [exec_strandWarnWindow, execStrandWarnWindow, if_neg (by rw [hover]; decide), hs1]
    have hcount : Table.getD 0 s1.flitCount (d * 4 + dir) = 0 := by
      rw [hs1, State.newPeriod, Table.getD, Table.get?_erase, if_pos rfl]
      rfl
    by_cases hlt : s.rf (btnReg d dir Off.BTN_STRAND_WARN) 31 0 < Table.getD 0 s.flitCount (d * 4 + dir)
    · rw [if_pos hlt] at hrun
      refine ⟨_, hrun, ?_, fun _ => s1.raisePg_bit d 2 (by decide), fun h => absurd hlt (Nat.not_lt.2 h)⟩
      rw [show (s1.raisePg d 2 0).flitCount = s1.flitCount from (congrArg State.flitCount (s1.raisePg_core d 2 0) :)]
      exact hcount
    · rw [if_neg hlt] at hrun
      refine ⟨_, hrun, hcount, fun h => absurd h hlt, fun _ => ?_⟩
      rw [hs1]
      rfl
  · obtain ⟨s1, hs1⟩ : ∃ s1, s1 = s.modDie d fun x => { x with powered := false } := ⟨_, rfl⟩
    have hrun : exec (.dieClockSupplyLoss d) s = .next (s1.markedPair d d) := by
      rw [exec_dieClockSupplyLoss, execDieClockSupplyLoss, if_pos hal, hs1]
    have hrew := s1.markedPair_rewired d d
    have hdies : ∀ j, (s1.markedPair d d).die j = if j = d then { s.die d with powered := false } else s.die j := fun j => by
      rw [State.die, hrew.dies, ← State.die, hs1, State.die_modDie]
    have hm : sameMemory s s1 := by
      rw [hs1]
      exact ⟨rfl, rfl, rfl, rfl, rfl, rfl⟩
    refine ⟨_, hrun, ?_, fun j hj => ?_, fun hne => ?_, hm.trans hrew.memory⟩
    · rw [hdies, if_pos rfl]
    · rw [hdies, if_neg hj]
    · have hmgr : s1.mgr = s.mgr := by
        rw [hs1]
        rfl
      rw [State.markedPair, if_neg (by rw [hmgr]; exact fun h => h.elim hne hne), hs1]
      rfl
  · obtain ⟨h1, h2, h3, h4, h5, h6, h7⟩ := s.fenceDie_spec d cause
    refine ⟨s.fenceDie d cause, ?_, h1, h2, h3, h4, h5, h6, h7⟩
    rw [exec_fenceNotice, execFenceNotice, if_neg (by rw [hsd, hdue]; decide), if_neg (by rw [hiss]; decide)]
  · refine ⟨s, ?_, rfl⟩
    rw [exec_fenceNotice, execFenceNotice, if_pos (h.imp_right fun h => by rw [h]; rfl)]
  · refine ⟨_, ?_, rfl⟩
    rw [exec_fenceNotice, execFenceNotice, if_neg (by rw [hsd, hdue]; decide), if_pos hiss]
  · refine ⟨_, ?_, rfl⟩
    rw [exec_takeover, execTakeover, if_pos ⟨hact, hf, by rw [ho]; rfl⟩, if_pos hiss]
  · refine ⟨_, ?_, s.takeover_spec⟩
    rw [exec_takeover, execTakeover, if_pos ⟨hact, hf, by rw [ho]; rfl⟩, if_neg (by rw [hiss]; decide)]
  · obtain ⟨s1, hs1⟩ : ∃ s1, s1 = { s with takeoverActive := false } := ⟨_, rfl⟩
    refine ⟨s1.refreshAll, ?_, ?_, ?_⟩
    · rw [exec_takeoverComplete, execTakeoverComplete, if_pos ⟨hact, by rw [hf]; rfl⟩, hs1]
    · rw [show s1.refreshAll.takeoverActive = s1.takeoverActive from (congrArg State.takeoverActive s1.refreshAll_core :), hs1]
    · have hm : sameMemory s s1 := by
        rw [hs1]
        exact ⟨rfl, rfl, rfl, rfl, rfl, rfl⟩
      exact hm.trans s1.refreshAll_core.mem

end Sys2Proof.Machine
end

section
/-! SUPPORT. The end of unit operations (R54, R103, R104, R115, R116, R126, R152, R240). -/

namespace Sys2Proof.Machine

/-! ## Writes of scratchpads -/

/-- What a write leaves in scratchpads depends on them alone. -/
theorem State.padWrite_scratch {s t : State} (h : t.scratch = s.scratch) (base off : Nat) (data : List Byte) (p : Bool) :
    (t.padWrite base off data p).scratch = (s.padWrite base off data p).scratch := by
  unfold State.padWrite
  dsimp only
  split
  · exact h
  · dsimp only
    rw [h]

theorem State.applyWrites_scratch {s t : State} (h : t.scratch = s.scratch) (base : Nat) (l : List ScratchWrite) :
    (t.applyWrites base l).scratch = (s.applyWrites base l).scratch := by
  unfold State.applyWrites forAll
  induction l generalizing s t with
  | nil => exact h
  | cons w r ih =>
    rw [List.foldl_cons, List.foldl_cons]
    exact ih (State.padWrite_scratch h base w.at_ w.data w.poison)

/-! ## Counters of a context -/

section
variable (c : Nat) {o a : Nat}

theorem State.reg_cSat_other (s : State) (hi lo n : Nat) (h1 : a < 2 ^ 12) (h2 : o < 2 ^ 12) (h : a ≠ o) :
    (s.cSat c o hi lo n).reg (ctxA c a) = s.reg (ctxA c a) :=
  State.reg_sat_of_mod s hi lo n (by rw [ctxA_mod c h1, ctxA_mod c h2]; exact h)

theorem State.reg_cWrap_other (s : State) (hi lo n : Nat) (h1 : a < 2 ^ 12) (h2 : o < 2 ^ 12) (h : a ≠ o) :
    (s.cWrap c o hi lo n).reg (ctxA c a) = s.reg (ctxA c a) :=
  s.reg_setReg_ne _ (homeAddr_ne_of_mod (by rw [ctxA_mod c h1, ctxA_mod c h2]; exact h))

end

/-- The counters that a unit operation advances when it ends. -/
def unitCounters : List Nat :=
  [Off.CTX_MX_SAT, Off.CTX_ROWGATE, Off.CTX_POISON_OPS, Off.CTX_SFU_NAN, Off.CTX_MASKED_ROWS, Off.CTX_SLOT_OVERFLOW]

/-- What a unit operation counts when it ends (R115, R116, R126, R132, R152, R240). -/
def State.countOp (s : State) (c : Nat) (o : UnitOp) : State :=
  (((((s.cSat c Off.CTX_MX_SAT 31 0 o.sat).cWrap c Off.CTX_ROWGATE 63 0 o.gate).cSat c Off.CTX_POISON_OPS 31 0 o.poisonOps).cSat c
    Off.CTX_SFU_NAN 31 0 o.sfuNan).cSat c Off.CTX_MASKED_ROWS 31 0 o.masked).cSat c Off.CTX_SLOT_OVERFLOW 31 0 o.overflow

theorem State.countOp_spec (s : State) (c : Nat) (o : UnitOp) :
    let z := s.countOp c o
    z.cf c Off.CTX_MX_SAT 31 0 = satPlus 32 (s.cf c Off.CTX_MX_SAT 31 0) o.sat
      ∧ z.reg (ctxA c Off.CTX_ROWGATE) = s.reg (ctxA c Off.CTX_ROWGATE) + BitVec.ofNat 64 o.gate
      ∧ z.cf c Off.CTX_POISON_OPS 31 0 = satPlus 32 (s.cf c Off.CTX_POISON_OPS 31 0) o.poisonOps
      ∧ z.cf c Off.CTX_SFU_NAN 31 0 = satPlus 32 (s.cf c Off.CTX_SFU_NAN 31 0) o.sfuNan
      ∧ z.cf c Off.CTX_MASKED_ROWS 31 0 = satPlus 32 (s.cf c Off.CTX_MASKED_ROWS 31 0) o.masked
      ∧ z.cf c Off.CTX_SLOT_OVERFLOW 31 0 = satPlus 32 (s.cf c Off.CTX_SLOT_OVERFLOW 31 0) o.overflow
      ∧ onlyRegs s z ∧ sameRegsBut (unitCounters.map (ctxA c)) s z := by
  obtain ⟨s1, hs1⟩ : ∃ s1, s1 = s.cSat c Off.CTX_MX_SAT 31 0 o.sat := ⟨_, rfl⟩
  obtain ⟨s2, hs2⟩ : ∃ s2, s2 = s1.cWrap c Off.CTX_ROWGATE 63 0 o.gate := ⟨_, rfl⟩
  obtain ⟨s3, hs3⟩ : ∃ s3, s3 = s2.cSat c Off.CTX_POISON_OPS 31 0 o.poisonOps := ⟨_, rfl⟩
  obtain ⟨s4, hs4⟩ : ∃ s4, s4 = s3.cSat c Off.CTX_SFU_NAN 31 0 o.sfuNan := ⟨_, rfl⟩
  obtain ⟨s5, hs5⟩ : ∃ s5, s5 = s4.cSat c Off.CTX_MASKED_ROWS 31 0 o.masked := ⟨_, rfl⟩
  obtain ⟨s6, hs6⟩ : ∃ s6, s6 = s5.cSat c Off.CTX_SLOT_OVERFLOW 31 0 o.overflow := ⟨_, rfl⟩
  have hz : s.countOp c o = s6 := by rw [hs6, hs5, hs4, hs3, hs2, hs1, State.countOp]
  have r1 : ∀ a, a < 2 ^ 12 → a ≠ Off.CTX_MX_SAT → s1.reg (ctxA c a) = s.reg (ctxA c a) := fun a h h' => by
    rw [hs1]; exact s.reg_cSat_other c _ _ _ h (by decide) h'
  have r2 : ∀ a, a < 2 ^ 12 → a ≠ Off.CTX_ROWGATE → s2.reg (ctxA c a) = s1.reg (ctxA c a) := fun a h h' => by
    rw [hs2]; exact s1.reg_cWrap_other c _ _ _ h (by decide) h'
  have r3 : ∀ a, a < 2 ^ 12 → a ≠ Off.CTX_POISON_OPS → s3.reg (ctxA c a) = s2.reg (ctxA c a) := fun a h h' => by
    rw [hs3]; exact s2.reg_cSat_other c _ _ _ h (by decide) h'
  have r4 : ∀ a, a < 2 ^ 12 → a ≠ Off.CTX_SFU_NAN → s4.reg (ctxA c a) = s3.reg (ctxA c a) := fun a h h' => by
    rw [hs4]; exact s3.reg_cSat_other c _ _ _ h (by decide) h'
  have r5 : ∀ a, a < 2 ^ 12 → a ≠ Off.CTX_MASKED_ROWS → s5.reg (ctxA c a) = s4.reg (ctxA c a) := fun a h h' => by
    rw [hs5]; exact s4.reg_cSat_other c _ _ _ h (by decide) h'
  have r6 : ∀ a, a < 2 ^ 12 → a ≠ Off.CTX_SLOT_OVERFLOW → s6.reg (ctxA c a) = s5.reg (ctxA c a) := fun a h h' => by
    rw [hs6]; exact s5.reg_cSat_other c _ _ _ h (by decide) h'
  have own : ∀ (t : State) off n, (t.cSat c off 31 0 n).cf c off 31 0 = satPlus 32 (fld (t.reg (ctxA c off)) 31 0) n :=
    fun t off n => t.rf_sat_self _ 31 0 n (by decide) (by decide)
  rw [hz]
  refine ⟨?_, ?_, ?_, ?_, ?_, ?_, ?_, ?_⟩
  · rw [State.cf_eq, State.rf_eq, r6 _ (by decide) (by decide), r5 _ (by decide) (by decide), r4 _ (by decide) (by decide),
      r3 _ (by decide) (by decide), r2 _ (by decide) (by decide), hs1]
    exact own s _ _
  · rw [r6 _ (by decide) (by decide), r5 _ (by decide) (by decide), r4 _ (by decide) (by decide), r3 _ (by decide) (by decide), hs2]
    refine (State.reg_wrap64 s1 _ _).trans ?_
    rw [r1 _ (by decide) (by decide)]
    exact BitVec.eq_of_toNat_eq (by simp)
  · rw [State.cf_eq, State.rf_eq, r6 _ (by decide) (by decide), r5 _ (by decide) (by decide), r4 _ (by decide) (by decide), hs3]
    refine (own s2 _ _).trans ?_
    rw [r2 _ (by decide) (by decide), r1 _ (by decide) (by decide)]
    rfl
  · rw [State.cf_eq, State.rf_eq, r6 _ (by decide) (by decide), r5 _ (by decide) (by decide), hs4]
    refine (own s3 _ _).trans ?_
    rw [r3 _ (by decide) (by decide), r2 _ (by decide) (by decide), r1 _ (by decide) (by decide)]
    rfl
  · rw [State.cf_eq, State.rf_eq, r6 _ (by decide) (by decide), hs5]
    refine (own s4 _ _).trans ?_
    rw [r4 _ (by decide) (by decide), r3 _ (by decide) (by decide), r2 _ (by decide) (by decide), r1 _ (by decide) (by decide)]
    rfl
  · rw [hs6]
    refine (own s5 _ _).trans ?_
    rw [r5 _ (by decide) (by decide), r4 _ (by decide) (by decide), r3 _ (by decide) (by decide), r2 _ (by decide) (by decide),
      r1 _ (by decide) (by decide)]
    rfl
  · rw [hs6, hs5, hs4, hs3, hs2, hs1]
    exact (((((onlyRegs.sat _ _ _ _ _).trans (onlyRegs.wrap _ _ _ _ _)).trans (onlyRegs.sat _ _ _ _ _)).trans (onlyRegs.sat _ _ _ _ _)).trans
      (onlyRegs.sat _ _ _ _ _)).trans (onlyRegs.sat _ _ _ _ _)
  · have mem : ∀ off ∈ unitCounters, ctxA c off ∈ unitCounters.map (ctxA c) := fun off h => List.mem_map_of_mem h
    have one : sameRegsBut (unitCounters.map (ctxA c)) s s1 := by
      rw [hs1]; exact (sameRegsBut.refl _ s).sat (mem _ (by decide)) _ _ _
    have two : sameRegsBut (unitCounters.map (ctxA c)) s s2 := by
      rw [hs2]; exact (one.wf (mem Off.CTX_ROWGATE (by decide)) 63 0 _).of_regs rfl
    have three : sameRegsBut (unitCounters.map (ctxA c)) s s3 := by
      rw [hs3]; exact two.sat (mem _ (by decide)) _ _ _
    have four : sameRegsBut (unitCounters.map (ctxA c)) s s4 := by
      rw [hs4]; exact three.sat (mem _ (by decide)) _ _ _
    have five : sameRegsBut (unitCounters.map (ctxA c)) s s5 := by
      rw [hs5]; exact four.sat (mem _ (by decide)) _ _ _
    rw [hs6]
    exact five.sat (mem _ (by decide)) _ _ _

/-! ## Tiles and their units -/

/-- A unit that is freed changes nothing else of its tile. -/
theorem Tile.setUnit_none (x : Tile) (k : UnitKind) :
    (x.setUnit k none).unit k = none ∧ (x.setUnit k none).tokens = x.tokens ∧ (x.setUnit k none).pos = x.pos ∧ (x.setUnit k none).flags = x.flags
      ∧ (x.setUnit k none).nsum = x.nsum ∧ (x.setUnit k none).ssum = x.ssum := by
  cases k with
  | matrix => exact ⟨rfl, rfl, rfl, rfl, rfl, rfl⟩
  | vector => exact ⟨rfl, rfl, rfl, rfl, rfl, rfl⟩
  | special => exact ⟨rfl, rfl, rfl, rfl, rfl, rfl⟩
  | stream n =>
    refine ⟨?_, rfl, rfl, rfl, rfl, rfl⟩
    exact (Table.get?_erase x.streams n n).trans (if_pos rfl)

/-- A tile's verdict flags and sums once an operation has ended (R240, R244). -/
def Tile.summed (x : Tile) (o : UnitOp) : Tile :=
  { x with
    flags := x.flags ||| o.flags
    nsum := match o.nsum with
      | none => x.nsum
      | some v => fadd x.nsum v
    ssum := match o.ssum with
      | none => x.ssum
      | some v => fadd x.ssum v }

theorem Tile.unit_summed (x : Tile) (o : UnitOp) (k : UnitKind) : (x.summed o).unit k = x.unit k := by
  cases k <;> rfl

theorem State.opCounts_eq (s : State) (c t : Nat) (o : UnitOp) : s.opCounts c t o = (s.countOp c o).modTile c t fun x => x.summed o := by
  unfold State.opCounts State.countOp Tile.summed
  rfl

/-- A unit operation that has ended, but for its token and the contribution it leaves. -/
def State.opEnded (s : State) (c t : Nat) (k : UnitKind) (o : UnitOp) : State :=
  ((s.modTile c t fun x => x.setUnit k none).applyWrites (s.padBase c t) o.writes).opCounts c t o

/-- The contribution that an MMA_COLL leaves behind its product, and the token. -/
def State.handOn (z : State) (c t : Nat) (o : UnitOp) : State :=
  let y := match o.inst with
    | none => z
    | some i => z.contribute c t i
  match o.ctr with
    | none => y
    | some n => y.addTokens c t n 1

theorem execUnitOperationComplete_ended {s : State} {c t : Nat} {k : UnitKind} {o : UnitOp} (h : (s.tile c t).unit k = some o) (he : o.endAt ≤ s.now) :
    execUnitOperationComplete c t k s = .next ((s.opEnded c t k o).handOn c t o) := by
  unfold execUnitOperationComplete
  rw [h]
  dsimp only
  rw [if_neg (Nat.not_lt.2 he)]
  unfold State.handOn State.opEnded
  rfl

theorem onlyRegs.keeps {s u : State} (h : onlyRegs s u) : keepsCtxs s u := ⟨(congrArg State.ctxs h :), (congrArg State.tb h :)⟩

theorem reg_of_regs {s u : State} (h : u.regs = s.regs) (a : Nat) : u.reg a = s.reg a := by rw [State.reg, h, State.reg]

/-- One tile is changed, scratchpads are written, registers count, and the tile is changed once more: what stands then. -/
theorem sandwich_spec {s1 s2 s3 : State} (s : State) {c t : Nat} {f g : Tile → Tile} (h1 : s1 = s.modTile c t f) (h2 : onlyPads s1 s2) (h3 : onlyRegs s2 s3) :
    let z := s3.modTile c t g
    z.tile c t = g (f (s.tile c t)) ∧ z.scratch = s2.scratch ∧ z.regs = s3.regs ∧ (∀ v, v ≠ t → z.tile c v = s.tile c v)
      ∧ (∀ j, j ≠ c → z.ctx j = s.ctx j) ∧ z.mem = s.mem ∧ z.cache = s.cache ∧ z.hostMem = s.hostMem := by
  have k := h2.keeps.trans h3.keeps
  have hm : sameMemory s2 (s3.modTile c t g) := by
    unfold onlyRegs at h3
    rw [h3]
    exact ⟨rfl, rfl, rfl, rfl, rfl, rfl⟩
  have hp : s2.mem = s1.mem ∧ s2.cache = s1.cache ∧ s2.hostMem = s1.hostMem := by
    unfold onlyPads at h2
    rw [h2]
    exact ⟨rfl, rfl, rfl⟩
  obtain ⟨m1, -, m2, m3, -, m4⟩ := hm
  obtain ⟨p1, p2, p3⟩ := hp
  refine ⟨?_, m3, rfl, fun v hv => ?_, fun j hj => ?_, ?_, ?_, ?_⟩
  · rw [State.tile_modTile_self, k.tile, h1, State.tile_modTile_self]
  · rw [State.tile_modTile, if_neg fun e => hv e.2, k.tile, h1, State.tile_modTile, if_neg fun e => hv e.2]
  · rw [State.modTile_eq, State.ctx_setCtx, if_neg hj, k.ctx, h1, State.modTile_eq, State.ctx_setCtx, if_neg hj]
  · rw [m1, p1, h1]; rfl
  · rw [m2, p2, h1]; rfl
  · rw [m4, p3, h1]; rfl

theorem writesDue_spec (s : State) {c t : Nat} {p : UnitOp} (h : (s.tile c t).matrix = some p) :
    let v := s.writesDue c t
    (v.tile c t).matrix = some { p with writes := p.writes.filter fun w => !w.due.any (· ≤ s.now) }
      ∧ v.scratch = (s.applyWrites (s.padBase c t) (p.writes.filter fun w => w.due.any (· ≤ s.now))).scratch ∧ v.mem = s.mem ∧ v.regs = s.regs := by
  intro v
  obtain ⟨f, hf⟩ : ∃ f : Tile → Tile, f = fun x => { x with matrix := some { p with writes := p.writes.filter fun w => !w.due.any (· ≤ s.now) } } := ⟨_, rfl⟩
  have hv : v = (s.modTile c t f).applyWrites (s.padBase c t) (p.writes.filter fun w => w.due.any (· ≤ s.now)) := by
    rw [hf]
    simp only [v, State.writesDue, h]
  have hp := (s.modTile c t f).applyWrites_only (s.padBase c t) (p.writes.filter fun w => w.due.any (· ≤ s.now))
  rw [hv]
  refine ⟨?_, State.applyWrites_scratch (s := s) (t := s.modTile c t f) rfl _ _, ?_, ?_⟩
  · rw [hp.keeps.tile, State.tile_modTile_self, hf]
  · exact (congrArg State.mem hp :)
  · exact (congrArg State.regs hp :)

/-- Settles O52: the unit is freed, the output is written, the counts are counted, and the tile takes the flags and sums; the contribution
and the token follow. -/
theorem unitOperationEndsAtItsLatency : Obligations.UnitOperationEndsAtItsLatency := by
  intro s c t k o hc hk he
  refine ⟨_, execUnitOperationComplete_ended hk he, ?_⟩
  obtain ⟨s1, h1⟩ : ∃ s1, s1 = s.modTile c t fun x => x.setUnit k none := ⟨_, rfl⟩
  obtain ⟨s2, h2⟩ : ∃ s2, s2 = s1.applyWrites (s.padBase c t) o.writes := ⟨_, rfl⟩
  obtain ⟨s3, h3⟩ : ∃ s3, s3 = s2.countOp c o := ⟨_, rfl⟩
  have hz : s.opEnded c t k o = s3.modTile c t fun x => x.summed o := by rw [State.opEnded, ← h1, ← h2, State.opCounts_eq, h3]
  have hpads : onlyPads s1 s2 := by rw [h2]; exact State.applyWrites_only _ _ _
  have hcount := s2.countOp_spec c o
  rw [← h3] at hcount
  obtain ⟨csat, cgate, cpois, cnan, cmask, cover, conly, cregs⟩ := hcount
  have hregs : s2.regs = s.regs := (congrArg State.regs hpads :).trans (by rw [h1]; rfl)
  have back : ∀ a, s2.reg a = s.reg a := reg_of_regs hregs
  have cf : ∀ off hi lo, s2.cf c off hi lo = s.cf c off hi lo := fun off hi lo => by rw [State.cf_eq, State.rf_eq, back]; rfl
  obtain ⟨htile, hscratch, hzregs, hothers, hctxs, hmem, hcache, hhost⟩ := sandwich_spec s (g := fun x => x.summed o) h1 hpads conly
  rw [← hz] at htile hscratch hzregs hothers hctxs hmem hcache hhost
  generalize s.opEnded c t k o = z at *
  have hreg : ∀ a, z.reg a = s3.reg a := reg_of_regs hzregs
  have zcf : ∀ off hi lo, z.cf c off hi lo = s3.cf c off hi lo := fun off hi lo => by rw [State.cf_eq, State.rf_eq, hreg]; rfl
  obtain ⟨hunit, htok, hpos, hflags, hnsum, hssum⟩ := (s.tile c t).setUnit_none k
  have htoks : (z.tile c t).tokens = (s.tile c t).tokens := by rw [htile]; exact htok
  refine ⟨⟨z, ?_, htoks, ?_, ?_, ?_, ?_, ?_, ?_, ?_, ?_, ?_, ?_, ?_, hothers, hctxs, hmem, hcache, hhost, fun a ha => ?_, ?_⟩, fun hi n hn hfit => ?_,
    fun p hp => writesDue_spec s hp⟩
  · rw [htile, Tile.unit_summed]; exact hunit
  · rw [htile]; exact hpos
  · rw [htile, Tile.summed, hflags]
  · rw [htile, Tile.summed, hnsum] <;> rfl
  · rw [htile, Tile.summed, hssum] <;> rfl
  · rw [hscratch, h2]; exact State.applyWrites_scratch (by rw [h1]; rfl) _ _
  · rw [zcf, csat, cf]
  · rw [hreg, cgate, back]
  · rw [zcf, cpois, cf]
  · rw [zcf, cnan, cf]
  · rw [zcf, cmask, cf]
  · rw [zcf, cover, cf]
  · rw [hreg, cregs a ha, back]
  · unfold State.handOn <;> rfl
  · have heq : z.tokens c t n = s.tokens c t n := by rw [State.tokens, htoks, State.tokens]
    simp only [State.handOn, hi, hn]
    have hroom : z.tokens c t n + 1 ≤ 65535 := by rw [heq]; exact hfit
    rw [State.addTokens_fit _ hroom, State.withTokens_tokens _ _ _ _ hroom, if_pos rfl, heq]

end Sys2Proof.Machine
end

section
/-! SUPPORT. Re-reads of sectors and the requests that wait for them (R210, R211); correction rates and refresh (R207, R213). -/

namespace Sys2Proof.Machine

/-! ## What a served request does to the re-reads that are due -/

/-- The sectors still to be read once more are those of before. -/
def keepsRereads (s t : State) : Prop := t.rereads = s.rereads

namespace keepsRereads
variable {s t u : State}

theorem refl (s : State) : keepsRereads s s := rfl

theorem trans (h : keepsRereads s t) (g : keepsRereads t u) : keepsRereads s u := Eq.trans g h

theorem core (h : sameCore s t) : keepsRereads s t := (congrArg State.rereads h :)

theorem pads (h : onlyPads s t) : keepsRereads s t := (congrArg State.rereads h :)

theorem forAll {α : Type} (l : List α) (f : α → State → State) (hf : ∀ a s, keepsRereads s (f a s)) (s : State) : keepsRereads s (forAll l f s) :=
  forAll_induct (P := keepsRereads s) (fun a t h => h.trans (hf a t)) l (refl s)

end keepsRereads

theorem State.corrected_rereads (s : State) (t n : Nat) : keepsRereads s (s.corrected t n) := by
  have hce : ∀ (x : State) n, keepsRereads x { x with ceCount := n } := fun _ _ => rfl
  exact (keepsRereads.core (s.sat_core _ 31 0 n)).trans (hce _ _)

theorem State.stackPut_rereads (s : State) (t sec : Nat) (d : List Byte) (p : Bool) : keepsRereads s (s.stackPut t sec d p) := rfl

/-- A re-read counted on its die and in the running second (R211, R213). -/
def State.rereadOnce (s : State) (t : Nat) : State :=
  let s1 := s.sat (bar0 (thatchDie t) 0 Off.THC_ECC_CE) 63 32 1
  { s1 with ceCount := Table.put 0 s1.ceCount t (Table.getD 0 s1.ceCount t + 1) }

/-- A sector lost, counted and named at its die (R211). -/
def State.loseSector (s : State) (t sec : Nat) : State :=
  ((s.stackPut t sec (s.memBytes (t * 2 ^ 36 + sec * 64) 64) true).sat (bar0 (thatchDie t) 0 Off.THC_ECC_UE) 31 0 1).wf
    (bar0 (thatchDie t) 0 Off.THC_ECC_LAST) 35 0 sec

/-- A sector whose re-read is right after corrections (R211). -/
def State.mendSector (s : State) (t sec n : Nat) : State := { s.corrected t n with upsets := Table.erase s.upsets (sectorKey t sec) }

section
variable {s : State} {t sec : Nat}

theorem State.reread_dead (h : s.upset t sec = some .dead) : s.reread t sec = ((s.rereadOnce t).loseSector t sec).raisePg (thatchDie t) 0 0 := by
  unfold State.reread
  rw [h]
  rfl

theorem State.reread_again {n : Nat} (h : s.upset t sec = some (.again n)) : s.reread t sec = (s.rereadOnce t).mendSector t sec n := by
  unfold State.reread
  rw [h]
  rfl

theorem State.reread_other (h1 : s.upset t sec ≠ some .dead) (h2 : ∀ n, s.upset t sec ≠ some (.again n)) : s.reread t sec = s.rereadOnce t := by
  unfold State.reread
  dsimp only
  split
  · next h => exact absurd h h1
  · next n h => exact absurd h (h2 n)
  · rfl

end

theorem State.reread_rereads (s : State) (t sec : Nat) : keepsRereads s (s.reread t sec) := by
  have hce : ∀ (x : State) n, keepsRereads x { x with ceCount := n } := fun _ _ => rfl
  have h1 : keepsRereads s (s.rereadOnce t) := (keepsRereads.core (s.sat_core _ 63 32 1)).trans (hce _ _)
  match h : s.upset t sec with
  | some .dead =>
    have h2 : ∀ x : State, keepsRereads x (x.loseSector t sec) := fun x =>
      (x.stackPut_rereads t sec _ true).trans (.core ((State.sat_core _ _ 31 0 1).trans (State.setReg_core _ _ _)))
    rw [State.reread_dead h]
    exact (h1.trans (h2 _)).trans (.core (State.raisePg_core _ _ _ _))
  | some (.again n) =>
    have hup : ∀ (x : State) n, keepsRereads x { x with upsets := n } := fun _ _ => rfl
    have h2 : ∀ x : State, keepsRereads x (x.mendSector t sec n) := fun x => (x.corrected_rereads t n).trans (hup _ _)
    rw [State.reread_again h]
    exact h1.trans (h2 _)
  | some (.corrected _) => rw [State.reread_other (by rw [h]; simp) (by rw [h]; simp)]; exact h1
  | none => rw [State.reread_other (by rw [h]; simp) (by rw [h]; simp)]; exact h1

theorem State.meetSector_rereads (s : State) (t sec : Nat) : keepsRereads s (s.meetSector t sec) := by
  unfold State.meetSector
  split
  · rfl
  · rfl
  · exact s.reread_rereads t sec

theorem State.writeBack_rereads (s : State) (t : Nat) (w : Way) : keepsRereads s (s.writeBack t w) :=
  .forAll w.dirty (fun d t' => t'.stackPut t (w.line * 4 + d.1) d.2.1 d.2.2) (fun _ _ => rfl) s

theorem State.cacheTouch_rereads (s : State) (t l : Nat) (a : Bool) : keepsRereads s (s.cacheTouch t l a).1 := by
  unfold State.cacheTouch
  dsimp only
  split
  · rfl
  · split
    · rfl
    · exact keepsRereads.trans (t := s.wrap _ 63 0 1) rfl (keepsRereads.forAll _ (fun w t' => t'.writeBack t w) (fun w t' => t'.writeBack_rereads t w) _)

theorem State.slice_rereads (s : State) (t l n : Nat) (w a : Bool) : keepsRereads s (s.slice t l n w a) := by
  unfold State.slice
  refine keepsRereads.trans ?_ (State.cacheTouch_rereads _ _ _ _)
  split
  · rfl
  · exact keepsRereads.forAll _ _ (fun sec u => u.meetSector_rereads t sec) s

theorem State.putSector_rereads (s : State) (t sec : Nat) (d : List Byte) (p : Bool) : keepsRereads s (s.putSector t sec d p) := by
  unfold State.putSector
  split <;> rfl

theorem State.dpaPutIn_rereads (s : State) (a : Nat) (d : List Byte) (p : Bool) : keepsRereads s (s.dpaPutIn a d p) := by
  unfold State.dpaPutIn
  split
  · split
    · exact State.putSector_rereads _ _ _ _ _
    · rfl
  · exact .pads (State.padWrite_only _ _ _ _ _)
  · rfl

theorem State.windowErr_rereads (s : State) (t : Nat) : keepsRereads s (s.windowErr t) := by
  unfold State.windowErr
  have h := s.sat_core (bar0 (thatchDie t) 0 Off.THC_WINDOW_ERR) 31 0 1
  generalize s.sat (bar0 (thatchDie t) 0 Off.THC_WINDOW_ERR) 31 0 1 = u at h
  exact .core (h.trans (u.raisePg_core (thatchDie t) 0 2))

theorem State.unreach_rereads (s : State) (d b : Nat) : keepsRereads s (s.unreach d b) := by
  unfold State.unreach
  split
  · exact .core (s.sat_core _ 63 32 1)
  · rfl

theorem State.modXfer_rereads (s : State) (c id : Nat) (f : Xfer → Xfer) : keepsRereads s (s.modXfer c id f) := by
  unfold State.modXfer
  split <;> rfl

theorem State.inject_rereads (s : State) (a b cls : Nat) (o : Nat × Nat) (part n : Nat) (r : Option (Nat × Nat)) :
    keepsRereads s (s.inject a b cls o part n r) := by
  unfold State.inject
  split <;> rfl

theorem State.writeMap_rereads (s : State) (base : Nat) (t : ByteMap) : keepsRereads s (s.writeMap base t) := rfl

theorem State.land_rereads (s : State) (c : Nat) (x : Xfer) (g : Seg) : keepsRereads s (s.land c x g) := by
  unfold State.land
  dsimp only
  split
  · split
    · exact State.writeMap_rereads _ _ _
    · exact .pads (State.putLinear_only _ _ _ _ _)
  · split
    · exact State.writeMap_rereads _ _ _
    · exact .pads (State.putLinear_only _ _ _ _ _)
  · rfl

theorem State.sendPage_rereads (s : State) (c id : Nat) : keepsRereads s (s.sendPage c id) := by
  unfold State.sendPage
  split
  · rfl
  · split
    · split
      · exact .forAll _ (fun f t => t.enqueue _ f _) (fun _ _ => rfl) s
      · rfl
    · rfl

theorem State.landOf_rereads (s : State) (c id k : Nat) : keepsRereads s (s.landOf c id k) := by
  unfold State.landOf
  split
  · rfl
  · split
    · rfl
    · exact ((s.land_rereads c _ _).trans (State.modXfer_rereads _ _ _ _)).trans (State.sendPage_rereads _ _ _)

theorem State.respond_rereads (s : State) (c id k : Nat) (x : Xfer) (g : Seg) : keepsRereads s (s.respond c id k x g) := by
  unfold State.respond
  dsimp only
  split
  · split
    · exact State.inject_rereads _ _ _ _ _ _ _ _
    · exact s.landOf_rereads c id k
  · exact s.landOf_rereads c id k

/-- What every served request counts and answers once the slice has done its part. -/
theorem keepsRereads.answered {s t : State} (h : keepsRereads s t) (c id k : Nat) (x : Xfer) (g : Seg) (off n m : Nat) (f : Xfer → Xfer) :
    keepsRereads s ((((t.cWrap c off 63 0 n).cSat c Off.CTX_MEM_POISON 31 0 m).modXfer c id f).respond c id k x g) :=
  (h.trans (t := t) ((keepsRereads.trans (t := (t.cWrap c off 63 0 n).cSat c Off.CTX_MEM_POISON 31 0 m) rfl (State.modXfer_rereads _ _ _ _)))).trans
    (State.respond_rereads _ _ _ _ _ _)

theorem State.serveRead_rereads (s : State) (c id k : Nat) (x : Xfer) (g : Seg) : keepsRereads s (s.serveRead c id k x g) := by
  unfold State.serveRead
  dsimp only
  refine keepsRereads.answered ?_ c id k x g _ _ _ _
  split
  · exact s.slice_rereads _ _ _ _ _
  · exact s.windowErr_rereads _
  · exact s.unreach_rereads _ _
  · rfl

theorem State.serveWrite_rereads (s : State) (c id k : Nat) (x : Xfer) (g : Seg) : keepsRereads s (s.serveWrite c id k x g) := by
  unfold State.serveWrite
  dsimp only
  refine (keepsRereads.trans ?_ (State.modXfer_rereads _ _ _ _)).trans (State.respond_rereads _ _ _ _ _ _)
  split
  · exact (s.slice_rereads _ _ _ _ _).trans (.forAll _ _ (fun _ u => u.dpaPutIn_rereads _ _ _) _)
  · exact s.windowErr_rereads _
  · exact s.unreach_rereads _ _
  · rfl

theorem State.atomOne_rereads (s : State) (op a src cmp : Nat) (bad : Bool) : keepsRereads s (s.atomOne op a src cmp bad).1 := by
  unfold State.atomOne
  dsimp only
  split
  · rfl
  · split
    · exact s.dpaPutIn_rereads _ _ _
    · exact s.dpaPutIn_rereads _ _ _

/-- A fold that carries a state beside other things keeps its re-reads when each step does. -/
theorem keepsRereads.foldl {α β : Type} (f : State × β → α → State × β) (hf : ∀ x a, keepsRereads x.1 (f x a).1) (l : List α) (x : State × β) :
    keepsRereads x.1 (l.foldl f x).1 := by
  induction l generalizing x with
  | nil => exact .refl _
  | cons a r ih => exact (hf x a).trans (ih (f x a))

theorem State.serveAtomic_rereads (s : State) (c id k : Nat) (x : Xfer) (g : Seg) : keepsRereads s (s.serveAtomic c id k x g) := by
  unfold State.serveAtomic
  dsimp only
  refine keepsRereads.answered ?_ c id k x g _ _ _ _
  split
  · next t l _ =>
    have h1 : keepsRereads s ((s.slice t l g.len false true).wrap (bar0 (thatchDie t) 0 Off.THC_ATOMIC) 63 0 (g.len / atomWidth x.kind.atop)) :=
      (s.slice_rereads _ _ _ _ _).trans (.core (State.wrap_core _ _ 63 0 _))
    refine h1.trans (keepsRereads.foldl _ (fun y i => ?_) _ (_, _))
    exact y.1.atomOne_rereads _ _ _ _ _
  · exact s.windowErr_rereads _
  · exact s.unreach_rereads _ _
  · rfl

theorem State.resume_rereads (s : State) (r : Reread) : keepsRereads s (s.resume r) := by
  unfold State.resume
  split
  · rfl
  · refine .forAll _ _ (fun k u => ?_) s
    split
    · split
      · exact u.serveRead_rereads _ _ _ _ _
      · split
        · exact u.serveWrite_rereads _ _ _ _ _
        · exact u.serveAtomic_rereads _ _ _ _ _
    · rfl

/-! ## What a re-read counts and leaves (R211, R213) -/

section
variable (s : State) (t sec : Nat)

theorem State.rereadOnce_regs : (s.rereadOnce t).regs = (s.sat (bar0 (thatchDie t) 0 Off.THC_ECC_CE) 63 32 1).regs := rfl

theorem State.rereadOnce_kept : (s.rereadOnce t).poison = s.poison ∧ (s.rereadOnce t).upsets = s.upsets := by
  have h := s.sat_core (bar0 (thatchDie t) 0 Off.THC_ECC_CE) 63 32 1
  unfold State.rereadOnce
  generalize s.sat (bar0 (thatchDie t) 0 Off.THC_ECC_CE) 63 32 1 = u at h ⊢
  exact ⟨(congrArg State.poison h :), (congrArg State.upsets h :)⟩

theorem State.loseSector_regs : (s.loseSector t sec).regs =
    ((s.sat (bar0 (thatchDie t) 0 Off.THC_ECC_UE) 31 0 1).wf (bar0 (thatchDie t) 0 Off.THC_ECC_LAST) 35 0 sec).regs := by
  unfold State.loseSector
  have h : (s.stackPut t sec (s.memBytes (t * 2 ^ 36 + sec * 64) 64) true).regs = s.regs := rfl
  generalize s.stackPut t sec (s.memBytes (t * 2 ^ 36 + sec * 64) 64) true = u at h
  rw [State.wf_eq, State.wf_eq, State.setReg, State.setReg, State.sat_eq, State.sat_eq, State.wf_eq, State.wf_eq, State.rf_eq, State.rf_eq]
  simp only [State.noteCount, State.setReg, State.reg, h]

theorem State.loseSector_kept : (s.loseSector t sec).poison = insertNat (sectorKey t sec) s.poison
    ∧ (s.loseSector t sec).upsets = Table.erase s.upsets (sectorKey t sec) := ⟨rfl, rfl⟩

theorem State.mendSector_kept (n : Nat) : (s.mendSector t sec n).poison = s.poison ∧ (s.mendSector t sec n).regs = (s.corrected t n).regs
    ∧ (s.mendSector t sec n).upsets = Table.erase s.upsets (sectorKey t sec) := ⟨rfl, rfl, rfl⟩

end

/-- The corrections and the re-reads of a die are counted each in its half of THC_ECC_CE. -/
theorem State.rf_sat_halves (s : State) (a n : Nat) :
    (s.sat a 63 32 n).rf a 63 32 = satPlus 32 (s.rf a 63 32) n ∧ (s.sat a 63 32 n).rf a 31 0 = s.rf a 31 0
      ∧ (s.sat a 31 0 n).rf a 31 0 = satPlus 32 (s.rf a 31 0) n ∧ (s.sat a 31 0 n).rf a 63 32 = s.rf a 63 32 := by
  refine ⟨s.rf_sat_self a 63 32 n (by decide) (by decide), ?_, s.rf_sat_self a 31 0 n (by decide) (by decide), ?_⟩
  · rw [State.sat_eq, State.rf_eq, State.reg_of_noteCount, State.wf_eq, State.reg_setReg_self, fld_ins_below _ 63 32 _ 31 0 (by decide) (by decide) (by decide) (by decide), State.rf_eq]
  · rw [State.sat_eq, State.rf_eq, State.reg_of_noteCount, State.wf_eq, State.reg_setReg_self, fld_ins_above _ 31 0 _ 63 32 (by decide) (by decide) (by decide), State.rf_eq]


section
variable {s : State} {t sec : Nat}

/-- Every re-read counts in THC_ECC_CE.REREAD. -/
theorem State.reread_counts (s : State) (t sec : Nat) (a : Nat) (ha : a = bar0 (thatchDie t) 0 Off.THC_ECC_CE) :
    (s.reread t sec).rf a 63 32 = satPlus 32 (s.rf a 63 32) 1 := by
  obtain ⟨h1, h2, -, -⟩ := s.rf_sat_halves a 1
  have once : (s.rereadOnce t).rf a 63 32 = satPlus 32 (s.rf a 63 32) 1 := by
    rw [State.rf_eq, reg_of_regs (s.rereadOnce_regs t), ← ha, ← State.rf_eq, h1]
  match h : s.upset t sec with
  | some .dead =>
    have hm : a % 2 ^ 12 = Off.THC_ECC_CE := by rw [ha]; exact bar0_mod _ _ (by decide)
    have hraise := ((s.rereadOnce t).loseSector t sec).reg_raisePg (thatchDie t) 0 0 (a := a) (by rw [hm]; decide) (by rw [hm]; decide)
    rw [State.reread_dead h, State.rf_eq, hraise, reg_of_regs (State.loseSector_regs _ _ _),
      State.reg_wf_of_mod _ _ _ _ (by rw [hm, bar0_mod _ _ (by decide)]; decide), State.reg_sat_of_mod _ _ _ _ (by rw [hm, bar0_mod _ _ (by decide)]; decide),
      ← State.rf_eq, once]
  | some (.again n) =>
    rw [State.reread_again h, State.rf_eq, reg_of_regs ((State.mendSector_kept _ _ _ _).2.1), reg_of_regs (State.corrected_regs _ _ _), ← State.rf_eq, ← ha,
      ((s.rereadOnce t).rf_sat_halves a n).2.2.2, once]
  | some (.corrected _) => rw [State.reread_other (by rw [h]; simp) (by rw [h]; simp), once]
  | none => rw [State.reread_other (by rw [h]; simp) (by rw [h]; simp), once]

/-- A re-read that fails poisons the sector, counts it as lost, names it and raises the interrupt (R211). -/
theorem State.reread_lost (h : s.upset t sec = some .dead) (hsec : sec < 2 ^ 30) :
    let d := thatchDie t
    let z := s.reread t sec
    z.rf (bar0 d 0 Off.THC_ECC_UE) 31 0 = satPlus 32 (s.rf (bar0 d 0 Off.THC_ECC_UE) 31 0) 1
      ∧ z.rf (bar0 d 0 Off.THC_ECC_LAST) 35 0 = sec ∧ sectorKey t sec ∈ z.poison ∧ z.upset t sec = none
      ∧ z.rf (bar0 d 0 Off.PG_IRQ_RAW) 0 0 = 1 := by
  intro d z
  have hz : z = ((s.rereadOnce t).loseSector t sec).raisePg d 0 0 := State.reread_dead h
  have hraise : ∀ {a}, a % 2 ^ 12 ≠ Off.PG_IRQ_RAW → a % 2 ^ 12 ≠ Off.PG_IRQ_EN → z.reg a = ((s.rereadOnce t).loseSector t sec).reg a := fun h1 h2 => by
    rw [hz]; exact State.reg_raisePg _ d 0 0 h1 h2
  have hcore : sameCore ((s.rereadOnce t).loseSector t sec) z := by rw [hz]; exact State.raisePg_core _ d 0 0
  obtain ⟨hpoison, hupsets⟩ := (s.rereadOnce t).loseSector_kept t sec
  refine ⟨?_, ?_, ?_, ?_, by rw [hz]; exact State.raisePg_bit _ d 0 (by decide)⟩
  · have hm : bar0 d 0 Off.THC_ECC_UE % 2 ^ 12 = Off.THC_ECC_UE := bar0_mod _ _ (by decide)
    have hfirst : (s.rereadOnce t).rf (bar0 d 0 Off.THC_ECC_UE) 31 0 = s.rf (bar0 d 0 Off.THC_ECC_UE) 31 0 := by
      rw [State.rf_eq, reg_of_regs (s.rereadOnce_regs t), State.reg_sat_of_mod _ _ _ _ (by rw [hm, bar0_mod _ _ (by decide)]; decide), State.rf_eq]
    rw [State.rf_eq, hraise (by rw [hm]; decide) (by rw [hm]; decide), reg_of_regs (State.loseSector_regs _ _ _),
      State.reg_wf_of_mod _ _ _ _ (by rw [hm, bar0_mod _ _ (by decide)]; decide), ← State.rf_eq]
    refine (State.rf_sat_self _ _ 31 0 1 (by decide) (by decide)).trans ?_
    rw [hfirst]
  · have hm : bar0 d 0 Off.THC_ECC_LAST % 2 ^ 12 = Off.THC_ECC_LAST := bar0_mod _ _ (by decide)
    rw [State.rf_eq, hraise (by rw [hm]; decide) (by rw [hm]; decide), reg_of_regs (State.loseSector_regs _ _ _), ← State.rf_eq]
    refine (State.rf_wf_self _ _ 35 0 sec (by decide) (by decide)).trans (Nat.mod_eq_of_lt ?_)
    omega
  · rw [show z.poison = _ from (congrArg State.poison hcore :), hpoison, mem_insertNat]
    exact Or.inl rfl
  · rw [State.upset, show z.upsets = _ from (congrArg State.upsets hcore :), hupsets, Table.get?_erase, if_pos rfl]

/-- A re-read that is right after corrections is absorbed (R211). -/
theorem State.reread_absorbed {n : Nat} (h : s.upset t sec = some (.again n)) :
    let d := thatchDie t
    let z := s.reread t sec
    z.reg (bar0 d 0 Off.THC_ECC_UE) = s.reg (bar0 d 0 Off.THC_ECC_UE) ∧ z.reg (bar0 d 0 Off.THC_ECC_LAST) = s.reg (bar0 d 0 Off.THC_ECC_LAST)
      ∧ z.poison = s.poison ∧ z.upset t sec = none ∧ z.rf (bar0 d 0 Off.THC_ECC_CE) 31 0 = satPlus 32 (s.rf (bar0 d 0 Off.THC_ECC_CE) 31 0) n := by
  intro d z
  have hz : z = (s.rereadOnce t).mendSector t sec n := State.reread_again h
  obtain ⟨hpoison, hregs, hupsets⟩ := (s.rereadOnce t).mendSector_kept t sec n
  have hreg : ∀ a, a % 2 ^ 12 ≠ Off.THC_ECC_CE → z.reg a = s.reg a := fun a ha => by
    have hce : a % 2 ^ 12 ≠ bar0 (thatchDie t) 0 Off.THC_ECC_CE % 2 ^ 12 := by rw [bar0_mod _ _ (by decide)]; exact ha
    rw [hz, reg_of_regs hregs, reg_of_regs (State.corrected_regs _ _ _), State.reg_sat_of_mod _ _ _ _ hce, reg_of_regs (s.rereadOnce_regs t),
      State.reg_sat_of_mod _ _ _ _ hce]
  refine ⟨hreg _ (by rw [bar0_mod _ _ (by decide)]; decide), hreg _ (by rw [bar0_mod _ _ (by decide)]; decide), ?_, ?_, ?_⟩
  · rw [hz, hpoison]; exact (s.rereadOnce_kept t).1
  · rw [State.upset, hz, hupsets, Table.get?_erase, if_pos rfl]
  · rw [hz, State.rf_eq, reg_of_regs hregs, reg_of_regs (State.corrected_regs _ _ _), ← State.rf_eq,
      ((s.rereadOnce t).rf_sat_halves _ n).2.2.1, State.rf_eq, reg_of_regs (s.rereadOnce_regs t), ← State.rf_eq, (s.rf_sat_halves _ 1).2.1]

end

/-- An ended re-read lets the requests that waited for its sector go on, and closes the window of the stack with the last one. -/
theorem execEccReread_spec {s : State} {t sec : Nat} (h : ∃ r ∈ s.rereads, r.stack = t ∧ r.sector = sec) :
    Completes (.eccReread t sec) s fun u =>
      let z := State.reread { s with rereads := s.rereads.filter fun r => !(r.stack = t ∧ r.sector = sec) } t sec
      let w := forAll (s.rereads.filter fun r => r.stack = t ∧ r.sector = sec) (fun r x => x.resume r) z
      u = (if w.rereads.any fun r => r.stack = t then w else w.closeWindow (.stack t)) ∧ ∀ r ∈ u.rereads, ¬(r.stack = t ∧ r.sector = sec) := by
  have hown : s.rereads.filter (fun r => decide (r.stack = t ∧ r.sector = sec)) ≠ [] := by
    obtain ⟨r, hr, hp⟩ := h
    exact List.ne_nil_of_mem (List.mem_filter.mpr ⟨hr, decide_eq_true hp⟩)
  refine ⟨_, (if_neg hown : execEccReread t sec s = _), ?_⟩
  beta_reduce
  intro z w
  refine ⟨rfl, fun r hr => ?_⟩
  have hw : w.rereads = s.rereads.filter fun r => !(r.stack = t ∧ r.sector = sec) :=
    (State.reread_rereads _ t sec).trans (keepsRereads.forAll _ (fun r x => x.resume r) (fun r x => x.resume_rereads r) z)
  have hclose : (w.closeWindow (.stack t)).rereads = w.rereads := (congrArg State.rereads (w.closeWindow_rewired _).core :)
  have hmem : r ∈ w.rereads := by
    revert hr
    change r ∈ (if _ then w else w.closeWindow (.stack t)).rereads → _
    split
    · exact id
    · exact fun hr => hclose ▸ hr
  rw [hw, List.mem_filter] at hmem
  exact fun hp => by simp [hp] at hmem


/-! ## Correction rates and refresh (R207, R213) -/

/-- A second of corrections ends: they are counted afresh, and CE_RATE is raised where there were more than THC_CE_WARN. -/
theorem execCeRateWindow_spec {s : State} {t : Nat} (h : s.periodOver (.corrections t) = true) :
    Completes (.ceRateWindow t) s fun u =>
      Table.getD 0 u.ceCount t = 0
        ∧ (s.rf (bar0 (thatchDie t) 0 Off.THC_CE_WARN) 31 0 < Table.getD 0 s.ceCount t → u.rf (bar0 (thatchDie t) 0 Off.PG_IRQ_RAW) 1 1 = 1)
        ∧ (Table.getD 0 s.ceCount t ≤ s.rf (bar0 (thatchDie t) 0 Off.THC_CE_WARN) 31 0 → u.regs = s.regs) ∧ sameMemory s u := by
  obtain ⟨s1, hs1⟩ : ∃ s1, s1 = State.newPeriod { s with ceCount := Table.put 0 s.ceCount t 0 } (.corrections t) := ⟨_, rfl⟩
  have hrun : execCeRateWindow t s = if s.rf (bar0 (thatchDie t) 0 Off.THC_CE_WARN) 31 0 < Table.getD 0 s.ceCount t then
      .next ((s1.raisePg (thatchDie t) 0 1).triggerCkpts 0 (thatchDie t)) else .next s1 := by
    rw [execCeRateWindow, h, hs1]
    rfl
  have hzero : Table.getD 0 s1.ceCount t = 0 := by
    rw [hs1]
    show Table.getD 0 (Table.put 0 s.ceCount t 0) t = 0
    rw [Table.getD_put, if_pos rfl]
  have hmem : sameMemory s s1 := by rw [hs1]; exact ⟨rfl, rfl, rfl, rfl, rfl, rfl⟩
  by_cases hwarn : s.rf (bar0 (thatchDie t) 0 Off.THC_CE_WARN) 31 0 < Table.getD 0 s.ceCount t
  · rw [if_pos hwarn] at hrun
    have hcore := s1.raisePg_core (thatchDie t) 0 1
    have hbit := s1.raisePg_bit (thatchDie t) 0 (n := 1) (by decide)
    generalize s1.raisePg (thatchDie t) 0 1 = s2 at hrun hcore hbit
    obtain ⟨honly, hreg⟩ := s2.triggerCkpts_frame 0 (thatchDie t)
    refine ⟨_, hrun, ?_, fun _ => ?_, fun hle => absurd hwarn (Nat.not_lt.2 hle), hmem.trans (hcore.trans honly.core).mem⟩
    · rw [show (s2.triggerCkpts 0 (thatchDie t)).ceCount = s1.ceCount from (congrArg State.ceCount (hcore.trans honly.core) :)]
      exact hzero
    · rw [State.rf_eq, hreg _ (by rw [bar0_mod _ _ (by decide)]; decide), ← State.rf_eq]
      exact hbit
  · rw [if_neg hwarn] at hrun
    exact ⟨_, hrun, hzero, fun hlt => absurd hlt hwarn, fun _ => by rw [hs1]; rfl, hmem⟩

/-- The rate follows the temperature with its hysteresis (R207). -/
theorem refreshRate_spec (old temp : Nat) :
    (95 ≤ temp → refreshRate old temp = 2) ∧ (85 ≤ temp → temp < 94 → refreshRate old temp = 1) ∧ (temp ≤ 83 → refreshRate old temp = 0) := by
  unfold refreshRate
  refine ⟨fun h => if_pos h, fun h1 h2 => ?_, fun h => ?_⟩
  · rw [if_neg (by omega), if_neg (by omega), if_pos h1]
  · rw [if_neg (by omega), if_neg (by omega), if_neg (by omega), if_neg (by omega)]

/-- A reading of a stack's temperature sets it and the rate; 95 °C raises MEM_HOT. -/
theorem execRefreshRateChange_spec (s : State) (t temp : Nat) :
    Completes (.refreshRateChange t temp) s fun u =>
      let a := bar0 (thatchDie t) 0 Off.THC_TEMP
      u.rf a 7 0 = min temp 255 ∧ (95 ≤ temp → u.rf a 9 8 = 2 ∧ u.rf (bar0 (thatchDie t) 0 Off.PG_IRQ_RAW) 3 3 = 1)
        ∧ (85 ≤ temp → temp < 94 → u.rf a 9 8 = 1) ∧ (temp ≤ 83 → u.rf a 9 8 = 0) ∧ sameMemory s u := by
  obtain ⟨a, ha⟩ : ∃ a, a = bar0 (thatchDie t) 0 Off.THC_TEMP := ⟨_, rfl⟩
  obtain ⟨r, hr⟩ : ∃ r, r = refreshRate (s.rf a 9 8) temp := ⟨_, rfl⟩
  obtain ⟨s1, hs1⟩ : ∃ s1, s1 = (s.wf a 9 8 r).wf a 7 0 (min temp 255) := ⟨_, rfl⟩
  obtain ⟨s2, hs2⟩ : ∃ s2 : State, s2 = { s1 with memTemp := Table.put 0 s1.memTemp t temp } := ⟨_, rfl⟩
  have hrun : execRefreshRateChange t temp s = .next (if 95 ≤ temp then s2.raisePg (thatchDie t) 0 3 else s2) := by
    rw [execRefreshRateChange, hs2, hs1, hr, ha]
  obtain ⟨hot, warm, cool⟩ := refreshRate_spec (s.rf a 9 8) temp
  rw [← hr] at hot warm cool
  have hback : s2.regs = s1.regs := by rw [hs2]
  have htemp : s2.rf a 7 0 = min temp 255 := by
    rw [State.rf_eq, reg_of_regs hback, hs1, ← State.rf_eq, State.rf_wf_self _ _ 7 0 _ (by decide) (by decide)]
    omega
  have hrate : s2.rf a 9 8 = r % 4 := by
    rw [State.rf_eq, reg_of_regs hback, hs1, State.wf_eq, State.reg_setReg_self, fld_ins_above _ 7 0 _ 9 8 (by decide) (by decide) (by decide), ← State.rf_eq,
      State.rf_wf_self _ _ 9 8 _ (by decide) (by decide)]
    rfl
  have hmem : sameMemory s s2 := by
    have h1 := ((onlyRegs.wf s a 9 8 r).trans (onlyRegs.wf _ a 7 0 (min temp 255))).core.mem
    rw [← hs1] at h1
    rw [hs2]
    exact h1.trans ⟨rfl, rfl, rfl, rfl, rfl, rfl⟩
  have hm : a % 2 ^ 12 = Off.THC_TEMP := by rw [ha]; exact bar0_mod _ _ (by decide)
  rw [← ha]
  by_cases h95 : 95 ≤ temp
  · rw [if_pos h95] at hrun
    have hreg := s2.reg_raisePg (thatchDie t) 0 3 (a := a) (by rw [hm]; decide) (by rw [hm]; decide)
    refine ⟨_, hrun, ?_, fun _ => ⟨?_, s2.raisePg_bit _ 0 (by decide)⟩, fun _ h => absurd h (by omega), fun h => absurd h (by omega),
      hmem.trans (s2.raisePg_core _ 0 3).mem⟩
    · rw [State.rf_eq, hreg, ← State.rf_eq, htemp]
    · rw [State.rf_eq, hreg, ← State.rf_eq, hrate, hot h95]
  · rw [if_neg h95] at hrun
    exact ⟨_, hrun, htemp, fun h => absurd h h95, fun h1 h2 => by rw [hrate, warm h1 h2], fun h => by rw [hrate, cool h], hmem⟩

theorem State.strike_only (s : State) (t : Nat) (l : List (Nat × Upset)) : s.strike t l = { s with upsets := (s.strike t l).upsets } := by
  refine forAll_induct (P := fun u : State => u = { s with upsets := u.upsets }) (fun e u h => ?_) l rfl
  split
  · exact h
  · rw [h]

/-- A stack that does not refresh itself is refreshed at its interval. -/
theorem execRefreshTick_due {s : State} {t : Nat} (errors : List (Nat × Upset)) (h1 : s.selfRefresh = false) (h2 : s.alive (thatchDie t) = true)
    (h3 : Table.getD 0 s.refreshAt t + s.refreshInterval t ≤ s.now) :
    Completes (.refreshTick t errors) s fun u =>
      Table.getD 0 u.refreshes t = Table.getD 0 s.refreshes t + 1 ∧ Table.getD 0 u.refreshAt t = s.now
        ∧ u = { s with refreshes := u.refreshes, refreshAt := u.refreshAt, upsets := u.upsets } ∧ (errors = [] → u.upsets = s.upsets) := by
  obtain ⟨z, hz⟩ : ∃ z : State, z = { s with refreshes := Table.put 0 s.refreshes t (Table.getD 0 s.refreshes t + 1), refreshAt := Table.put 0 s.refreshAt t s.now } :=
    ⟨_, rfl⟩
  have hrun : execRefreshTick t errors s = .next (z.strike t errors) := by
    rw [execRefreshTick, if_neg (by rw [h1, h2]; simp; omega), hz]
  have hu := z.strike_only t errors
  have hnil : errors = [] → (z.strike t errors).upsets = z.upsets := fun h => by rw [h]; rfl
  refine ⟨_, hrun, ?_⟩
  generalize z.strike t errors = u at hu hnil
  have hz1 : u.refreshes = z.refreshes := (congrArg State.refreshes hu :)
  have hz2 : u.refreshAt = z.refreshAt := (congrArg State.refreshAt hu :)
  have hup : z.upsets = s.upsets := by rw [hz]
  refine ⟨?_, ?_, ?_, fun h => (hnil h).trans hup⟩
  · rw [hz1, hz, Table.getD_put, if_pos rfl]
  · rw [hz2, hz, Table.getD_put, if_pos rfl]
  · rw [hz1, hz2, hu, hz]

/-- Settles O17: the served requests leave the re-reads that are due, so that only the ended one's are gone; the rest follows the definitions. -/
theorem memoryUpkeep : Obligations.MemoryUpkeep :=
  ⟨fun _ _ _ h => execEccReread_spec h,
    fun s t sec _ hsec => ⟨s.reread_counts t sec _ rfl, fun h => State.reread_lost h hsec, fun _ h => State.reread_absorbed h⟩,
    fun s t _ => ⟨execCeRateWindow_spec, execRefreshRateChange_spec s t, fun errors h1 h2 h3 => execRefreshTick_due errors h1 h2 h3,
      fun _ h => ⟨s, if_pos (Or.inl h), rfl⟩⟩,
    fun _ h1 h2 => ⟨_, if_pos (by rw [h1, h2]; exact ⟨rfl, rfl⟩), rfl⟩⟩

end Sys2Proof.Machine
end

section
/-! SUPPORT. Writes by device physical address: the parts of an access, and what a write of the device leaves (R201, R203, R212, R214). -/

namespace Sys2Proof.Machine

/-! ## The parts of an access -/

/-- A part of an access lies in one block and in the access. -/
structure PartOf (w a len : Nat) (p : Nat × Nat × Nat) : Prop where
  low : a ≤ p.1
  high : p.1 + p.2.2 ≤ a + len
  off : p.2.1 = p.1 - a
  block : p.1 + p.2.2 ≤ (p.1 / w + 1) * w
  some : 0 < p.2.2

theorem blockParts_part {w a len : Nat} (hw : 0 < w) {p : Nat × Nat × Nat} (h : p ∈ blockParts w a len) : PartOf w a len p := by
  unfold blockParts at h
  rw [List.mem_map] at h
  obtain ⟨i, hi, hp⟩ := h
  rw [List.mem_range] at hi
  have hlen : len ≠ 0 := fun e => by rw [if_pos e] at hi; omega
  rw [if_neg hlen] at hi
  have hle : a / w + i ≤ (a + len - 1) / w := by
    have := Nat.div_le_div_right (c := w) (show a ≤ a + len - 1 by omega)
    omega
  have hstart : (a / w + i) * w ≤ a + len - 1 := (Nat.mul_le_mul_right w hle).trans (Nat.div_mul_le_self _ w)
  have hnext : (a / w + i + 1) * w = (a / w + i) * w + w := Nat.succ_mul _ w
  have hbelow : a < (a / w + i + 1) * w := by
    have := Nat.lt_div_mul_add hw (a := a)
    have : a / w * w ≤ (a / w + i) * w := Nat.mul_le_mul_right w (by omega)
    omega
  dsimp only at hp
  generalize hb : (a / w + i) * w = b at *
  generalize hc : (a / w + i + 1) * w = c at *
  have hdiv : max a b / w = a / w + i := by
    refine Nat.div_eq_of_lt_le (by rw [hb]; exact Nat.le_max_right _ _) ?_
    rw [hc]
    omega
  subst hp
  refine ⟨Nat.le_max_left _ _, ?_, rfl, ?_, ?_⟩
  · dsimp only; omega
  · dsimp only
    rw [hdiv, hc]
    omega
  · dsimp only; omega

/-! ## What a write of the device leaves -/

theorem inPadWindow_of_pad {a d p o : Nat} (h : dpaLoc a = .pad d p o) : inPadWindow a = true := by
  unfold dpaLoc at h
  unfold inPadWindow
  dsimp only at h
  split at h
  · cases h
  · split at h
    · cases h
    · split at h
      · cases h
      · split at h
        · simp only [Bool.and_eq_true, decide_eq_true_eq]; omega
        · cases h

/-- An access within 256 bytes is in the scratchpad window where its first byte is. -/
theorem inPadWindow_block {a b : Nat} (h1 : a ≤ b) (h2 : b < (a / 256 + 1) * 256) (h : inPadWindow a = false) : inPadWindow b = false := by
  unfold inPadWindow at *
  simp only [Bool.and_eq_false_iff, decide_eq_false_iff_not, Nat.not_le, Nat.not_lt] at *
  omega

theorem State.dpaPutIn_stacks (s : State) {a : Nat} (h : inPadWindow a = false) (data : List Byte) (p : Bool) : onlyStacks s (s.dpaPutIn a data p) := by
  unfold State.dpaPutIn
  split
  · exact .ite _ (s.putSector_stacks _ _ _ _) (.refl s)
  · next hl => exact absurd (inPadWindow_of_pad hl) (by rw [h]; decide)
  · exact .refl s

theorem State.putSector_regs (s : State) (t sec : Nat) (d : List Byte) (p : Bool) : (s.putSector t sec d p).regs = s.regs := by
  unfold State.putSector
  split <;> rfl

theorem State.dpaPutIn_regs (s : State) (a : Nat) (data : List Byte) (p : Bool) : (s.dpaPutIn a data p).regs = s.regs := by
  unfold State.dpaPutIn
  split
  · split
    · exact s.putSector_regs _ _ _ _
    · rfl
  · exact (s.padWrite_only _ _ _ _).regs
  · rfl

/-- A write of the device touches the stacks alone: scratchpads are out of its reach (R203). -/
theorem State.devWrite_stacks (s : State) (a : Nat) (data : List Byte) (p : Bool) : onlyStacks s (s.devWrite a data p) := by
  refine forAll_induct_mem (P := onlyStacks s) _ (fun r hr t ht => ?_) (.refl s)
  split
  · exact ht
  · next hpad =>
    have hpart := blockParts_part (w := 256) (by decide) hr
    refine forAll_induct_mem (P := onlyStacks s) _ (fun q hq u hu => hu.trans (u.dpaPutIn_stacks ?_ _ _)) (ht.trans (t.touch_stacks _ _ _ _))
    have hsub := blockParts_part (w := 64) (by decide) hq
    refine inPadWindow_block hsub.low ?_ (by simpa using hpad)
    have := hsub.high
    have := hsub.some
    have := hpart.block
    omega

/-- Of the registers a write of the device writes those of the stacks alone. -/
theorem State.devWrite_others (s : State) (a : Nat) (data : List Byte) (p : Bool) : keepsOthers s (s.devWrite a data p) := by
  refine keepsOthers.forAll _ _ (fun r t => ?_) s
  split
  · exact .refl t
  · exact (t.touch_others _ _ _ _).trans (.forAll _ _ (fun q u => .of_regs (u.dpaPutIn_regs _ _ _)) _)

/-! ## The records of an issue -/

theorem State.evlogPut_stacks (s : State) (l : LogOf) (r : List Nat) : onlyStacks s (s.evlogPut l r) := by
  unfold State.evlogPut
  dsimp only
  refine .ite _ (s.sat_stacks _ 31 0 1) ?_
  split
  · exact s.sat_stacks _ 31 0 1
  · exact ((onlyStacks.ite _ ((s.wrap_stacks _ 63 32 1).trans (State.sat_stacks _ _ 31 0 1)) (.refl s)).trans (State.devWrite_stacks _ _ _ _)).trans
      (State.wrap_stacks _ _ 31 0 1)

/-- What an issue records leaves scratchpads and groups. -/
theorem State.logged_kept (s : State) (c t : Nat) (e : EntryBits) :
    (s.logged c t e).scratch = s.scratch ∧ (s.logged c t e).groups = s.groups := by
  have hslip : ∀ (u : State) n, sameCore u (u.recordSlip c n) := fun u n => (State.maxF_core u _ 31 0 _).trans (State.wrap_core _ _ 63 0 n)
  obtain ⟨y, z, hy, hz, hu⟩ : ∃ y z, onlyStacks s y ∧ sameCore y z ∧ s.logged c t e = z.noteIssue :=
    ⟨_, _, onlyStacks.ite _ (s.evlogPut_stacks _ _) (.refl s), .ite _ (hslip _ _) (.refl _), rfl⟩
  rw [hu]
  exact ⟨(congrArg State.scratch hz :).trans (congrArg State.scratch hy :), (congrArg State.groups hz :).trans (congrArg State.groups hy :)⟩

end Sys2Proof.Machine
end

section
/-! SUPPORT. MMA_COLL joins its collective, chunks complete (R87, R260, R261, R267, R270, R272, R277). -/

namespace Sys2Proof.Machine

/-! ## Pieces (R267) -/

theorem pieceAt_spec (d L : Nat) (h : 0 < d) :
    (pieceAt d L 0).1 = 0 ∧ (pieceAt d L d).1 = L ∧ ∀ k, (pieceAt d L k).1 + (pieceAt d L k).2 = (pieceAt d L (k + 1)).1 := by
  unfold pieceAt
  dsimp only
  refine ⟨by rw [Nat.zero_mul, Nat.zero_min], Nat.min_eq_right ?_, fun k => ?_⟩
  · have hceil : L ≤ ceilDiv L (64 * d) * (64 * d) := by
      unfold ceilDiv
      have := Nat.lt_div_mul_add (a := L + (64 * d) - 1) (b := 64 * d) (by omega)
      omega
    calc L ≤ ceilDiv L (64 * d) * (64 * d) := hceil
      _ = d * (ceilDiv L (64 * d) * 64) := by rw [Nat.mul_comm d, Nat.mul_assoc]
  · have : k * (ceilDiv L (64 * d) * 64) ≤ (k + 1) * (ceilDiv L (64 * d) * 64) := Nat.mul_le_mul_right _ (Nat.le_succ k)
    omega

/-! ## Instances -/

theorem State.inst_modInst {s : State} {c id : Nat} {x : Inst} (h : s.inst c id = some x) (f : Inst → Inst) : (s.modInst c id f).inst c id = some (f x) := by
  rw [State.modInst, h, State.inst, State.modCtx_self, Table.get?_set, if_pos rfl]

theorem State.modInst_spares (s : State) (c id : Nat) (f : Inst → Inst) : sparesTiles c s (s.modInst c id f) := by
  unfold State.modInst
  split
  · exact .refl s
  · exact s.modCtx_spares (fun _ => rfl) (fun _ => rfl)

theorem State.modInst_regs (s : State) (c id : Nat) (f : Inst → Inst) : (s.modInst c id f).regs = s.regs := by
  unfold State.modInst
  split <;> rfl

/-- A finished collective is gone, any other stays as it is. -/
theorem State.retireInst_spec (s : State) (c id : Nat) :
    sparesTiles c s (s.retireInst c id) ∧ (s.retireInst c id).regs = s.regs ∧ ((s.retireInst c id).inst c id = none ∨ s.retireInst c id = s) := by
  unfold State.retireInst
  split
  · exact ⟨.refl s, rfl, Or.inr rfl⟩
  · split
    · exact ⟨.refl s, rfl, Or.inr rfl⟩
    · split
      · refine ⟨s.modCtx_spares (fun _ => rfl) (fun _ => rfl), rfl, Or.inl ?_⟩
        rw [State.inst, State.modCtx_self, Table.get?_erase, if_pos rfl]
      · exact ⟨.refl s, rfl, Or.inr rfl⟩

/-! ## Completion of chunks (R261, R270) -/

/-- A chunk token: it is added, counted and noted, and nothing else of the tiles, registers or memories changes. -/
theorem State.chunkToken_spec {s : State} {c id t k : Nat} {g : Group} {x : Inst} {y : InstTile} (hx : s.inst c id = some x)
    (hy : Table.get? x.tiles t = some y) (hroom : s.tokens c t g.ctr < 65535) :
    let u := s.chunkToken c id t k g
    u.tokens c t g.ctr = s.tokens c t g.ctr + 1 ∧ u.reg (ctxA c Off.CTX_COLL_CHUNKS) = s.reg (ctxA c Off.CTX_COLL_CHUNKS) + 1
      ∧ sameRegsBut [ctxA c Off.CTX_COLL_CHUNKS] s u ∧ (∀ v, v ≠ t → u.tile c v = s.tile c v) ∧ (∀ j, j ≠ c → u.ctx j = s.ctx j)
      ∧ (∀ x' y', u.inst c id = some x' → Table.get? x'.tiles t = some y' → y'.given = y.given ++ [k]) ∧ sameCore s u := by
  obtain ⟨f, hf⟩ : ∃ f : Inst → Inst, f = fun x => { x with tiles := x.tiles.mapVals fun u y => if u = t then { y with given := y.given ++ [k] } else y } :=
    ⟨_, rfl⟩
  obtain ⟨s1, h1⟩ : ∃ s1, s1 = s.modInst c id f := ⟨_, rfl⟩
  obtain ⟨s2, h2⟩ : ∃ s2, s2 = s1.cWrap c Off.CTX_COLL_CHUNKS 63 0 1 := ⟨_, rfl⟩
  have over1 : sparesTiles c s s1 := by rw [h1]; exact s.modInst_spares c id f
  have only2 : onlyRegs s1 s2 := by rw [h2]; exact .wrap _ _ _ _ _
  have hregs1 : s1.regs = s.regs := by rw [h1]; exact s.modInst_regs c id f
  have htok : s2.tokens c t g.ctr = s.tokens c t g.ctr := by rw [State.tokens, only2.keeps.tile, over1.tile, State.tokens]
  have hfit : s2.tokens c t g.ctr + 1 ≤ 65535 := by rw [htok]; exact hroom
  obtain ⟨s3, h3⟩ : ∃ s3, s3 = s2.withTokens c t g.ctr 1 := ⟨_, rfl⟩
  have hu : s.chunkToken c id t k g = s3.retireInst c id := by
    rw [h3, ← State.addTokens_fit _ hfit, h2, h1, hf, State.chunkToken]
  obtain ⟨over4, hregs4, hgone⟩ := s3.retireInst_spec c id
  rw [hu]
  generalize s3.retireInst c id = u at over4 hregs4 hgone
  have hregs : u.regs = s2.regs := by rw [hregs4, h3]; rfl
  have hinst3 : s3.inst c id = some (f x) := by
    have hi1 : s1.inst c id = some (f x) := by rw [h1]; exact State.inst_modInst hx f
    rw [h3, State.inst, State.withTokens, State.modTile_eq, State.ctx_setCtx_self]
    show Table.get? (s2.ctx c).insts id = _
    rw [only2.keeps.ctx]
    exact hi1
  refine ⟨?_, ?_, fun a ha => ?_, fun v hv => ?_, fun j hj => ?_, fun x' y' hx' hy' => ?_, ?_⟩
  · rw [over4.tokens, h3, State.withTokens_tokens _ _ _ _ hfit, if_pos rfl, htok]
  · rw [reg_of_regs hregs, h2]
    refine (State.reg_wrap64 s1 _ 1).trans ?_
    rw [reg_of_regs hregs1]
    exact BitVec.eq_of_toNat_eq (by simp)
  · have hw : sameRegsBut [ctxA c Off.CTX_COLL_CHUNKS] s1 s2 := by
      rw [h2]
      exact ((sameRegsBut.refl _ s1).wf (List.mem_singleton.mpr rfl) 63 0 _).of_regs rfl
    rw [reg_of_regs hregs, hw a ha, reg_of_regs hregs1]
  · rw [over4.tile, h3, State.withTokens_tile _ _ _ _ _ hv, only2.keeps.tile, over1.tile]
  · rw [over4.ctx j hj, h3, State.withTokens_ctx _ _ _ _ _ hj, only2.keeps.ctx, over1.ctx j hj]
  · rcases hgone with hnone | hsame
    · rw [hnone] at hx'; cases hx'
    · rw [hsame, hinst3, Option.some.injEq] at hx'
      rw [← hx', hf] at hy'
      dsimp only at hy'
      rw [Table.get?_mapVals, hy, Option.map_some, if_pos rfl, Option.some.injEq] at hy'
      rw [← hy']
  · exact ((over1.core.trans only2.core).trans (by rw [h3]; exact s2.withTokens_core c t g.ctr 1)).trans over4.core

theorem State.putPBytes_only (s : State) (base at_ : Nat) (l : List PByte) : onlyPads s (s.putPBytes base at_ l) := s.applyWrites_only _ _

theorem State.padByte_putPBytes (s : State) (base at_ : Nat) (l : List PByte) {i : Nat} (hi : i < l.length) (ho : at_ + i < padSize) :
    (s.putPBytes base at_ l).padByte base (at_ + i) = (l.getD i (0, false)).1 := by
  rw [State.putPBytes, State.padByte_lineWrites base ho _ _ _ _ (Nat.lt_succ_self _), if_pos (by omega), Nat.add_sub_cancel_left,
    List.getD_eq_getElem?_getD, List.getElem?_map, List.getD_eq_getElem?_getD]
  cases l[i]? <;> rfl

theorem State.writeResult_only (s : State) (c t : Nat) (x : Inst) (y : InstTile) (at_ : Nat) (part : Nat × Nat × List PByte) :
    onlyPads s (s.writeResult c t x y at_ part) := by
  unfold State.writeResult
  split
  · exact .refl s
  · dsimp only
    split
    · exact s.putPBytes_only _ _ _
    · exact .refl s

/-- What COLL_CHUNK_COMPLETE leaves beside the bytes of the result. -/
structure ChunkGiven (c id t k : Nat) (g : Group) (y : InstTile) (s u : State) : Prop where
  token : u.tokens c t g.ctr = s.tokens c t g.ctr + 1
  count : u.reg (ctxA c Off.CTX_COLL_CHUNKS) = s.reg (ctxA c Off.CTX_COLL_CHUNKS) + 1
  regs : sameRegsBut [ctxA c Off.CTX_COLL_CHUNKS] s u
  tiles : ∀ v, v ≠ t → u.tile c v = s.tile c v
  ctxs : ∀ j, j ≠ c → u.ctx j = s.ctx j
  given : ∀ x' y', u.inst c id = some x' → Table.get? x'.tiles t = some y' → y'.given = y.given ++ [k]
  mem : u.mem = s.mem
  cache : u.cache = s.cache
  host : u.hostMem = s.hostMem

/-- A chunk whose result has been written into scratchpad gives its token. -/
theorem State.chunkToken_given {s z : State} {c id t k : Nat} {g : Group} {x : Inst} {y : InstTile} (h : onlyPads s z) (hx : s.inst c id = some x)
    (hy : Table.get? x.tiles t = some y) (hroom : s.tokens c t g.ctr < 65535) :
    ChunkGiven c id t k g y s (z.chunkToken c id t k g) ∧ (z.chunkToken c id t k g).scratch = z.scratch := by
  have htok : z.tokens c t g.ctr = s.tokens c t g.ctr := by rw [State.tokens, h.keeps.tile, State.tokens]
  have hinst : z.inst c id = some x := by rw [State.inst, h.keeps.ctx]; exact hx
  have hroomz : z.tokens c t g.ctr < 65535 := by rw [htok]; exact hroom
  obtain ⟨h1, h2, h3, h4, h5, h6, hcore⟩ := State.chunkToken_spec (k := k) hinst hy hroomz
  refine ⟨⟨h1.trans (by rw [htok]), ?_, fun a ha => (h3 a ha).trans (reg_of_regs h.regs a), fun v hv => (h4 v hv).trans (h.keeps.tile c v),
    fun j hj => (h5 j hj).trans (h.keeps.ctx j), h6, ?_, ?_, ?_⟩, (congrArg State.scratch hcore :)⟩
  · rw [h2, reg_of_regs h.regs]
  · exact (congrArg State.mem hcore :).trans (congrArg State.mem h :)
  · exact (congrArg State.cache hcore :).trans (congrArg State.cache h :)
  · exact (congrArg State.hostMem hcore :).trans (congrArg State.hostMem h :)

section
variable {s : State} {c id t k : Nat} {x : Inst} {g : Group} {y : InstTile}

theorem execCollChunkComplete_ring (hx : s.inst c id = some x) (hg : s.instGroup x = some g) (hy : Table.get? x.tiles t = some y)
    (hk : (x.chunksOf g t).find? (fun k => k ∉ y.given) = some k) (h3 : x.op = 3) {a : List PByte} (ha : Table.get? x.areas t = some a)
    (hlen : a.length = y.size) (hread : s.ringRead c t x = true) :
    execCollChunkComplete c id t s = .next ((s.putPBytes (s.padBase c t) (y.resLine * 64) a).chunkToken c id t 0 g) := by
  unfold execCollChunkComplete
  simp only [hx, hg, hy, hk, h3, if_true, ha, Option.filter_some, hlen, decide_true, hread]

theorem execCollChunkComplete_reds (hx : s.inst c id = some x) (hg : s.instGroup x = some g) (hy : Table.get? x.tiles t = some y)
    (hk : (x.chunksOf g t).find? (fun k => k ∉ y.given) = some k) (h3 : x.op ≠ 3) {r : Red} (hr : (x.reds g)[k]? = some r) {l : List (Nat × Nat × List PByte)}
    (hl : r.result = some l) :
    execCollChunkComplete c id t s = .next ((forAll l (fun part u => u.writeResult c t x y (k * g.chunk) part) s).chunkToken c id t k g) := by
  unfold execCollChunkComplete
  simp only [hx, hg, hy, hk, if_neg h3, hr, Option.bind_some, hl]

theorem execCollChunkComplete_waits (hx : s.inst c id = some x) (hg : s.instGroup x = some g) (hy : Table.get? x.tiles t = some y)
    (hk : (x.chunksOf g t).find? (fun k => k ∉ y.given) = some k) (h3 : x.op ≠ 3) {r : Red} (hr : (x.reds g)[k]? = some r) (hl : r.result = none) :
    execCollChunkComplete c id t s = .next s := by
  unfold execCollChunkComplete
  simp only [hx, hg, hy, hk, if_neg h3, hr, Option.bind_some, hl]

/-- The chunk of a RING_PASS is the only one of its tile. -/
theorem chunksOf_ring (h3 : x.op = 3) (hk : (x.chunksOf g t).find? (fun k => k ∉ y.given) = some k) : k = 0 := by
  have hmem := List.mem_of_find?_eq_some hk
  rw [Inst.chunksOf, if_pos h3] at hmem
  exact List.mem_singleton.mp hmem

end

/-! ## MMA_COLL joins its collective (R87, R272, R277) -/

/-- The open collective that the next MMA_COLL of a tile on a group joins, if a tile has made it. -/
def State.foundInst (s : State) (c t : Nat) (g : Group) (k : CollOp) : Option (Nat × Inst) :=
  (s.ctx c).insts.find? fun e => e.2.group = k.group ∧ e.2.epoch = g.epoch ∧ e.2.ordinal = Table.getD 0 (s.tile c t).instCount k.group

/-- The number of that collective. -/
def State.instId (s : State) (c t : Nat) (g : Group) (k : CollOp) : Nat := ((s.foundInst c t g k).map (·.1)).getD (s.ctx c).nextInst

/-- Tile `t` of context `c` has joined a collective between two states. -/
structure Joined (c t : Nat) (g : Group) (k : CollOp) (y : InstTile) (s u : State) : Prop where
  count : Table.getD 0 (u.tile c t).instCount k.group = Table.getD 0 (s.tile c t).instCount k.group + 1
  inst : ∃ x, u.inst c (s.instId c t g k) = some x ∧ Table.get? x.tiles t = some y
    ∧ (s.foundInst c t g k = none → x.group = k.group ∧ x.ordinal = Table.getD 0 (s.tile c t).instCount k.group ∧ x.seq = g.seq ∧ x.epoch = g.epoch
        ∧ x.op = k.op ∧ x.redFmt = k.redFmt)
  own : Table.get? u.groups k.group = some (if s.foundInst c t g k = none then { g with seq := g.seq + 1 } else g)
  others : ∀ j, j ≠ k.group → Table.get? u.groups j = Table.get? s.groups j
  ctxs : ∀ j, j ≠ c → u.ctx j = s.ctx j
  pads : u.scratch = s.scratch

theorem Table.get?_of_mem {α : Type} {t : Table α} {e : Nat × α} (h : e ∈ t) : ∃ v, Table.get? t e.1 = some v := by
  induction t with
  | nil => cases h
  | cons a r ih =>
    obtain ⟨k, v⟩ := a
    rw [Table.get?]
    split
    · exact ⟨v, rfl⟩
    · next hne =>
      rcases List.mem_cons.mp h with heq | hmem
      · rw [heq] at hne; exact absurd rfl hne
      · exact ih hmem

section
variable {s : State} {c t : Nat} {g : Group} {k : CollOp} (y : InstTile)

theorem State.joinInst_joined (hg : Table.get? s.groups k.group = some g) :
    (s.joinInst c t g k y).2 = s.instId c t g k ∧ (s.joinInst c t g k y).1.now = s.now ∧ Joined c t g k y s (s.joinInst c t g k y).1 := by
  obtain ⟨f, hf⟩ : ∃ f : Tile → Tile, f = fun z => { z with
      instCount := Table.put 0 z.instCount k.group (Table.getD 0 (s.tile c t).instCount k.group + 1),
      poolOrd := if g.pool = 0 then z.poolOrd else Table.put 0 z.poolOrd g.pool (Table.getD 0 (s.tile c t).poolOrd g.pool + 1) } := ⟨_, rfl⟩
  have hcount : Table.getD 0 (f (s.tile c t)).instCount k.group = Table.getD 0 (s.tile c t).instCount k.group + 1 := by
    rw [hf, Table.getD_put, if_pos rfl]
  obtain ⟨s1, h1⟩ : ∃ s1, s1 = s.modTile c t f := ⟨_, rfl⟩
  have htile : s1.tile c t = f (s.tile c t) := by rw [h1, State.tile_modTile_self]
  have hinsts : (s1.ctx c).insts = (s.ctx c).insts := by rw [h1, State.modTile_eq, State.ctx_setCtx_self]; rfl
  have hctxs : ∀ j, j ≠ c → s1.ctx j = s.ctx j := fun j hj => by rw [h1, State.modTile_eq, State.ctx_setCtx, if_neg hj]
  have hgroups : s1.groups = s.groups := by rw [h1]; rfl
  have hpads : s1.scratch = s.scratch := by rw [h1]; rfl
  have hnow : s1.now = s.now := by rw [h1]; rfl
  match hfound : s.foundInst c t g k with
  | some e =>
    obtain ⟨z, hz⟩ : ∃ z : Inst → Inst, z = fun z => { z with tiles := Table.set z.tiles t y } := ⟨_, rfl⟩
    have hrun : s.joinInst c t g k y = (s1.modInst c e.1 z, e.1) := by
      rw [State.foundInst] at hfound
      rw [State.joinInst, hfound, h1, hf, hz]
    have hid : s.instId c t g k = e.1 := by rw [State.instId, hfound]; rfl
    obtain ⟨x, hx⟩ : ∃ x, s1.inst c e.1 = some x := by
      rw [State.inst, hinsts]
      exact Table.get?_of_mem (List.mem_of_find?_eq_some hfound)
    have hspare := s1.modInst_spares c e.1 z
    rw [hrun]
    refine ⟨hid.symm, (congrArg State.now hspare.core :).trans hnow, ⟨?_, ⟨z x, ?_, ?_, fun hn => ?_⟩, ?_, fun j _ => ?_, fun j hj => (hspare.ctx j hj).trans (hctxs j hj), ?_⟩⟩
    · rw [hspare.tile, htile, hcount]
    · rw [hid]; exact State.inst_modInst hx z
    · rw [hz, Table.get?_set, if_pos rfl]
    · rw [hfound] at hn; cases hn
    · rw [if_neg (by rw [hfound]; simp), show (s1.modInst c e.1 z).groups = s1.groups from (congrArg State.groups hspare.core :), hgroups, hg]
    · rw [show (s1.modInst c e.1 z).groups = s1.groups from (congrArg State.groups hspare.core :), hgroups]
    · exact (congrArg State.scratch hspare.core :).trans hpads
  | none =>
    obtain ⟨z, hz⟩ : ∃ z : Inst, z = { group := k.group, ordinal := Table.getD 0 (s.tile c t).instCount k.group, seq := g.seq, epoch := g.epoch, poolOrd := Table.getD 0 (s.tile c t).poolOrd g.pool, op := k.op, redFmt := k.redFmt, tiles := [(t, y)], received := [], arriving := [], areas := [], performed := [] } :=
      ⟨_, rfl⟩
    obtain ⟨s2, h2⟩ : ∃ s2, s2 = s1.modCtx c fun q => { q with insts := Table.set q.insts (s.ctx c).nextInst z, nextInst := (s.ctx c).nextInst + 1 } := ⟨_, rfl⟩
    have hrun : s.joinInst c t g k y = ({ s2 with groups := Table.set s1.groups k.group { g with seq := g.seq + 1 } }, (s.ctx c).nextInst) := by
      rw [State.foundInst] at hfound
      rw [State.joinInst, hfound, h2, h1, hf, hz]
    have hid : s.instId c t g k = (s.ctx c).nextInst := by rw [State.instId, hfound]; rfl
    have hspare : sparesTiles c s1 s2 := by rw [h2]; exact s1.modCtx_spares (fun _ => rfl) (fun _ => rfl)
    have hinst : s2.inst c (s.ctx c).nextInst = some z := by rw [h2, State.inst, State.modCtx_self, Table.get?_set, if_pos rfl]
    rw [hrun]
    have hgnow : ∀ (u : State) l, ({ u with groups := l } : State).now = u.now := fun _ _ => rfl
    refine ⟨hid.symm, (hgnow _ _).trans ((congrArg State.now hspare.core :).trans hnow), ⟨?_, ⟨z, by rw [hid]; exact hinst, ?_, fun _ => ?_⟩, ?_, fun j hj => ?_, fun j hj => (hspare.ctx j hj).trans (hctxs j hj), ?_⟩⟩
    · exact (congrArg (fun q => Table.getD 0 q.instCount k.group) ((hspare.tile t).trans htile)).trans hcount
    · rw [hz]; exact if_pos rfl
    · rw [hz]; exact ⟨rfl, rfl, rfl, rfl, rfl, rfl⟩
    · rw [if_pos hfound, Table.get?_set, if_pos rfl]
    · rw [Table.get?_set, if_neg hj, hgroups]
    · exact (congrArg State.scratch hspare.core :).trans hpads

end

/-- An operation put on the array of a tile and its entry issued: what stands of the tile, its instances, the groups and scratchpads. -/
structure OnArray (c t : Nat) (op : UnitOp) (s u : State) : Prop where
  matrix : (u.tile c t).matrix = some op
  prevA : (u.tile c t).prevA = s.now
  count : (u.tile c t).instCount = (s.tile c t).instCount
  insts : (u.ctx c).insts = (s.ctx c).insts
  groups : u.groups = s.groups
  ctxs : ∀ j, j ≠ c → u.ctx j = s.ctx j
  pads : u.scratch = s.scratch

theorem State.issue_onArray (s : State) (c t : Nat) (e : EntryBits) (op : UnitOp) :
    OnArray c t op s ((s.modTile c t fun z => z.setUnit .matrix (some op)).issue c t e) := by
  obtain ⟨s1, h1⟩ : ∃ s1, s1 = s.modTile c t fun z => z.setUnit .matrix (some op) := ⟨_, rfl⟩
  have hissued := s1.issued_issue c t e
  rw [← h1]
  generalize s1.issue c t e = u at hissued
  obtain ⟨hframe, htile, -⟩ := hissued
  obtain ⟨⟨honly, hctxs⟩, hctx, -⟩ := hframe
  obtain ⟨hscratch, hgroups⟩ := s1.logged_kept c t e
  have hhold : ∀ x : Tile, (if eIsHold e then x.consume e else x).matrix = x.matrix ∧ (if eIsHold e then x.consume e else x).instCount = x.instCount := fun x => by
    split
    · exact ⟨rfl, rfl⟩
    · exact ⟨rfl, rfl⟩
  have hbefore : s1.tile c t = (s.tile c t).setUnit .matrix (some op) := by rw [h1, State.tile_modTile_self]
  refine ⟨?_, ?_, ?_, ?_, ?_, fun j hj => ?_, ?_⟩
  · rw [htile]
    exact (hhold _).1.trans (by rw [hbefore]; rfl)
  · rw [htile, h1]; rfl
  · rw [htile]
    exact (hhold _).2.trans (by rw [hbefore]; rfl)
  · rw [hctx, State.ctx_logged, h1, State.modTile_eq, State.ctx_setCtx_self]; rfl
  · rw [show u.groups = _ from (congrArg State.groups honly :), hgroups, h1]; rfl
  · rw [hctxs j hj, State.ctx_logged, h1, State.modTile_eq, State.ctx_setCtx, if_neg hj]
  · rw [show u.scratch = _ from (congrArg State.scratch honly :), hscratch, h1]; rfl

/-- A RING_PASS is under way: its transfer has started, or its area is the received one. -/
theorem State.startRing_spec (s : State) (c t id : Nat) (g : Group) (data : List PByte) :
    let u := s.startRing c t id g data
    (u.tile c t = s.tile c t) ∧ (∀ x, s.inst c id = some x → ∃ l, u.inst c id = some { x with areas := l }) ∧ u.groups = s.groups
      ∧ (∀ j, j ≠ c → u.ctx j = s.ctx j) ∧ u.scratch = s.scratch := by
  unfold State.startRing
  dsimp only
  split
  · next h => exact ⟨rfl, fun x hx => absurd (h.symm.trans hx) (by simp), rfl, fun _ _ => rfl, rfl⟩
  · next x h =>
    split
    · have hspare := s.modInst_spares c id fun y => { y with areas := Table.set y.areas t data }
      refine ⟨hspare.tile t, fun x' hx' => ⟨_, State.inst_modInst hx' _⟩, (congrArg State.groups hspare.core :), hspare.ctx, (congrArg State.scratch hspare.core :)⟩
    · refine ⟨State.newXfer_tile _ _ _ _ _, fun x' hx' => ⟨x'.areas, ?_⟩, rfl, fun j hj => ?_, rfl⟩
      · rw [State.inst, State.startXfer, State.newXfer, State.modCtx_self]
        exact hx'
      · rw [State.startXfer, State.newXfer, State.modCtx_eq, State.ctx_setCtx, if_neg hj]

/-- MMA_COLL on a group that serves it issues. -/
theorem execMmaColl_issues {s : State} {c t : Nat} {e : EntryBits} {g : Group} (he : s.dueClass c t 0x18 = some e) (hm : (s.tile c t).matrix = none)
    (hg : Table.get? s.groups (collOp e).group = some g) (hc : g.ctx = c) (hopen : (s.openInsts c t (collOp e).group g).length < 2)
    (htile : g.hasTile t = true) (hserves : g.serves (collOp e).op = true) (hbad : (collOp e).op = 2 → gatherBad e g.members.length = false)
    (hpool : g.pool = 0 ∨ (Table.getD 0 (s.tile c t).poolOrd g.pool).toNat % g.npool = g.order) :
    execMmaColl c t s = .next (s.issueColl c t e g) := by
  have hfilter : (Table.get? s.groups (collOp e).group).filter (fun g => g.ctx = c) = some g := by
    rw [hg, Option.filter_some, if_pos (decide_eq_true hc)]
  unfold execMmaColl
  rw [he]
  dsimp only
  rw [hm, hfilter]
  dsimp only
  rw [if_neg (by simp), if_neg (Nat.not_le.2 hopen), if_neg, if_neg]
  · rintro ⟨h1, h2⟩
    exact hpool.elim h1 h2
  · rintro (h | h | ⟨h1, h2⟩)
    · rw [htile] at h; exact absurd h (by simp)
    · rw [hserves] at h; exact absurd h (by simp)
    · rw [hbad h1] at h2; exact absurd h2 (by simp)

/-- What an issued MMA_COLL has brought about. -/
theorem State.issueColl_spec {s : State} {c t : Nat} {e : EntryBits} {g : Group} (hg : Table.get? s.groups (collOp e).group = some g) :
    let k := collOp e
    let u := s.issueColl c t e g
    (u.tile c t).matrix = some { (s.mmaUnit c t e).begun e (s.tile c t).pos s.now with inst := if k.op = 3 then none else some (s.instId c t g k) }
      ∧ (u.tile c t).prevA = s.now
      ∧ ∃ y, y.resLine = k.resLine ∧ Joined c t g k y s u := by
  intro k u
  obtain ⟨y, hy⟩ : ∃ y : InstTile, y = { size := if decide (k.op = 3) then (bArea (mmaOp e)).2 else outSize (mmaOp e), outLine := (mmaOp e).cLine, resLine := k.resLine, contrib := if decide (k.op = 3) then some (s.takePBytes (s.padBase c t) (bArea (mmaOp e)).1 (bArea (mmaOp e)).2) else none, given := [] } :=
    ⟨_, rfl⟩
  obtain ⟨hid, hnow, hjoin⟩ := State.joinInst_joined (c := c) (t := t) y hg
  obtain ⟨op, hop⟩ : ∃ op : UnitOp, op = { (s.mmaUnit c t e).begun e (s.tile c t).pos s.now with inst := if decide (k.op = 3) then none else some (s.joinInst c t g k y).2 } :=
    ⟨_, rfl⟩
  have harray := (s.joinInst c t g k y).1.issue_onArray c t e op
  obtain ⟨v, hv⟩ : ∃ v, v = ((s.joinInst c t g k y).1.modTile c t fun z => z.setUnit .matrix (some op)).issue c t e := ⟨_, rfl⟩
  have hu : u = if decide (k.op = 3) then v.startRing c t (s.joinInst c t g k y).2 g (s.takePBytes (s.padBase c t) (bArea (mmaOp e)).1 (bArea (mmaOp e)).2) else v := by
    rw [hv, hop, hy]
    rfl
  rw [← hv] at harray
  rw [hid] at hu hop
  have hop' : op = { (s.mmaUnit c t e).begun e (s.tile c t).pos s.now with inst := if k.op = 3 then none else some (s.instId c t g k) } := by
    rw [hop]
    by_cases h3 : k.op = 3
    · rw [if_pos (decide_eq_true h3), if_pos h3]
    · rw [if_neg (by simp [h3]), if_neg h3]
  have hv1 : (v.tile c t).matrix = some { (s.mmaUnit c t e).begun e (s.tile c t).pos s.now with inst := if k.op = 3 then none else some (s.instId c t g k) } := by
    rw [← hop']; exact harray.matrix
  have hv2 : (v.tile c t).prevA = s.now := harray.prevA.trans hnow
  obtain ⟨hcount, ⟨x, hx, hxy, hnew⟩, hown, hothers, hctxs, hpads⟩ := hjoin
  have hvx : v.inst c (s.instId c t g k) = some x := by rw [State.inst, harray.insts]; exact hx
  have hvj : Joined c t g k y s v :=
    ⟨by rw [harray.count]; exact hcount, ⟨x, hvx, hxy, hnew⟩, by rw [harray.groups]; exact hown, fun j hj => by rw [harray.groups]; exact hothers j hj,
      fun j hj => (harray.ctxs j hj).trans (hctxs j hj), harray.pads.trans hpads⟩
  have hline : y.resLine = k.resLine := by rw [hy]
  by_cases h3 : k.op = 3
  · rw [if_pos (decide_eq_true h3)] at hu
    obtain ⟨rtile, rinst, rgroups, rctxs, rpads⟩ :=
      v.startRing_spec c t (s.instId c t g k) g (s.takePBytes (s.padBase c t) (bArea (mmaOp e)).1 (bArea (mmaOp e)).2)
    rw [← hu] at rtile rinst rgroups rctxs rpads
    obtain ⟨l, hl⟩ := rinst x hvx
    refine ⟨by rw [rtile]; exact hv1, by rw [rtile]; exact hv2, y, hline, ⟨by rw [rtile]; exact hvj.count, ⟨_, hl, hxy, hnew⟩, by rw [rgroups]; exact hvj.own,
      fun j hj => by rw [rgroups]; exact hvj.others j hj, fun j hj => (rctxs j hj).trans (hvj.ctxs j hj), rpads.trans hvj.pads⟩⟩
  · rw [if_neg (by simp [h3])] at hu
    rw [hu]
    exact ⟨hv1, hv2, y, hline, hvj⟩

/-- Settles O53: an entry joins the collective that its turn names, and a complete chunk writes its result before its token. -/
theorem collectivesJoinAndComplete : Obligations.CollectivesJoinAndComplete := by
  refine ⟨fun s c t e g he hm => ?_, fun s c id t x g y k _ hx hg hy hk hroom => ?_, pieceAt_spec⟩
  · intro k hg hc hopen htile hserves hbad hpool n found id
    refine ⟨_, execMmaColl_issues he hm hg hc hopen htile hserves hbad hpool, ?_⟩
    obtain ⟨hmat, hprev, y, hline, hjoin⟩ := s.issueColl_spec (c := c) (t := t) hg
    obtain ⟨z, hz, hzy, hnew⟩ := hjoin.inst
    exact ⟨hmat, hprev, hjoin.count, ⟨z, hz, by rw [hzy, ← hline]; rfl, hnew⟩, hjoin.own, hjoin.others, hjoin.ctxs, hjoin.pads⟩
  · intro frame
    have frame_of : ∀ u, ChunkGiven c id t k g y s u → frame u := fun u h =>
      ⟨h.token, h.count, h.regs, h.tiles, h.ctxs, h.given, h.mem, h.cache, h.host⟩
    refine ⟨fun h3 a ha hlen hread => ?_, fun h3 r l hr hl => ?_, fun h3 r hr hnone => ?_⟩
    · have hk0 := chunksOf_ring h3 hk
      obtain ⟨hgiven, hscratch⟩ := State.chunkToken_given (k := 0) (s.putPBytes_only (s.padBase c t) (y.resLine * 64) a) hx hy hroom
      refine ⟨_, execCollChunkComplete_ring hx hg hy hk h3 ha hlen hread, frame_of _ (hk0 ▸ hgiven), fun i hi ho => ?_⟩
      rw [State.padByte, if_pos ho, hscratch, ← s.padByte_putPBytes (s.padBase c t) (y.resLine * 64) a hi ho, State.padByte, if_pos ho]
    · have hpads : onlyPads s (forAll l (fun part u => u.writeResult c t x y (k * g.chunk) part) s) := .forAll l _ (fun p v => v.writeResult_only c t x y _ p) s
      obtain ⟨hgiven, hscratch⟩ := State.chunkToken_given (k := k) hpads hx hy hroom
      exact ⟨_, execCollChunkComplete_reds hx hg hy hk h3 hr hl, frame_of _ hgiven, hscratch⟩
    · exact ⟨s, execCollChunkComplete_waits hx hg hy hk h3 hr hnone, rfl⟩

end Sys2Proof.Machine
end

section
/-! SUPPORT. Memory as the sum of its bytes: what stands in a sector, and what accesses and writes by device physical address change
(R199 to R204, R209 to R215). -/

namespace Sys2Proof.Machine

/-! ## Places of addresses -/

theorem dpaLoc_cases {a : Nat} (P : Prop) (h1 : a < 2 ^ 40 → P) (h2 : ¬ a < 2 ^ 40 → a < 2 ^ 41 → P) (h3 : ¬ a < 2 ^ 41 → a < 3 * 2 ^ 40 → P)
    (h4 : ¬ a < 3 * 2 ^ 40 → P) : P := by
  by_cases g1 : a < 2 ^ 40
  · exact h1 g1
  · by_cases g2 : a < 2 ^ 41
    · exact h2 g1 g2
    · by_cases g3 : a < 3 * 2 ^ 40
      · exact h3 g2 g3
      · exact h4 g3

theorem dpaLoc_mem_lt {a k i b t l : Nat} (h : dpaLoc a = .mem k i b t l) : a < 3 * 2 ^ 40 := by
  refine Decidable.byContradiction fun hn => ?_
  have hp := (dpaLoc_pad hn (by rw [h]; simp)).2
  rw [h] at hp
  cases hp

/-- The band and the byte of its block that a place of memory has. -/
theorem dpaLoc_mem_local {a k i b t l : Nat} (h : dpaLoc a = .mem k i b t l) : l < 2 ^ 36 ∧ b = l / 2 ^ 30 ∧ l % 256 = a % 256 := by
  have hlt := dpaLoc_mem_lt h
  refine dpaLoc_cases (a := a) _ (fun g => ?_) (fun g1 g2 => ?_) (fun g1 g2 => ?_) (fun g => absurd hlt g)
  · rw [dpaLoc_all g, Loc.mem.injEq] at h
    obtain ⟨-, -, hb, -, hl⟩ := h
    omega
  · rw [dpaLoc_quarter g1 g2, Loc.mem.injEq] at h
    obtain ⟨-, -, hb, -, hl⟩ := h
    omega
  · rw [dpaLoc_stack g1 g2, Loc.mem.injEq] at h
    obtain ⟨-, -, hb, -, hl⟩ := h
    omega

/-- Within a block of 256 bytes the places follow one another. -/
theorem dpaLoc_add {a k i b t l j : Nat} (h : dpaLoc a = .mem k i b t l) (hj : a % 256 + j < 256) : dpaLoc (a + j) = .mem k i b t (l + j) := by
  have hlt := dpaLoc_mem_lt h
  refine dpaLoc_cases (a := a) _ (fun g => ?_) (fun g1 g2 => ?_) (fun g1 g2 => ?_) (fun g => absurd hlt g)
  · rw [dpaLoc_all g, Loc.mem.injEq] at h
    obtain ⟨hk, hi, hb, ht, hl⟩ := h
    rw [dpaLoc_all (by omega), show (a + j) / 2 ^ 34 = a / 2 ^ 34 by omega, show (a + j) % 2 ^ 34 / 256 = a % 2 ^ 34 / 256 by omega,
      show (a + j) % 2 ^ 34 % 256 = a % 2 ^ 34 % 256 + j by omega, hb, ht, ← hl, ← hk, ← hi, hb, ← Nat.add_assoc]
  · rw [dpaLoc_quarter g1 g2, Loc.mem.injEq] at h
    obtain ⟨hk, hi, hb, ht, hl⟩ := h
    rw [dpaLoc_quarter (by omega) (by omega), show (a + j) % 2 ^ 40 / 2 ^ 38 = a % 2 ^ 40 / 2 ^ 38 by omega,
      show (a + j) % 2 ^ 38 / 2 ^ 32 = a % 2 ^ 38 / 2 ^ 32 by omega, show (a + j) % 2 ^ 32 / 256 = a % 2 ^ 32 / 256 by omega,
      show (a + j) % 2 ^ 32 % 256 = a % 2 ^ 32 % 256 + j by omega, hb, ht, ← hl, ← hk, hi, hb, ← Nat.add_assoc]
  · rw [dpaLoc_stack g1 g2, Loc.mem.injEq] at h
    obtain ⟨hk, hi, hb, ht, hl⟩ := h
    rw [dpaLoc_stack (by omega) (by omega), show (a + j) % 2 ^ 40 / 2 ^ 36 = a % 2 ^ 40 / 2 ^ 36 by omega,
      show (a + j) % 2 ^ 36 / 2 ^ 30 = a % 2 ^ 36 / 2 ^ 30 by omega, show (a + j) % 2 ^ 36 = a % 2 ^ 36 + j by omega, hb, ht, hl, ← hk, ← hi, ht]

theorem stacksOf_disjoint {q r i j : Nat} (hq : q < 4) (hr : r < 4) (hi : i < 4) (hj : j < 4) (h : (stacksOf 1 q).getD i 0 = (stacksOf 1 r).getD j 0) :
    q = r := by
  have hall : ∀ q < 4, ∀ r < 4, ∀ i < 4, ∀ j < 4, (stacksOf 1 q).getD i 0 = (stacksOf 1 r).getD j 0 → q = r := by decide
  exact hall q hq r hr i hi j hj h

/-- The set of a window's stacks follows from its kind and one of them. -/
theorem dpaLoc_mem_set {a k i b t l : Nat} (h : dpaLoc a = .mem k i b t l) :
    (k = 1 ∧ i = 0) ∨ (k = 2 ∧ i < 4 ∧ ∃ x < 4, t = (stacksOf 1 i).getD x 0) ∨ (k = 3 ∧ i = t) := by
  have hlt := dpaLoc_mem_lt h
  refine dpaLoc_cases (a := a) _ (fun g => ?_) (fun g1 g2 => ?_) (fun g1 g2 => ?_) (fun g => absurd hlt g)
  · rw [dpaLoc_all g, Loc.mem.injEq] at h
    obtain ⟨hk, hi, -⟩ := h
    exact Or.inl ⟨hk.symm, hi.symm⟩
  · rw [dpaLoc_quarter g1 g2, Loc.mem.injEq] at h
    obtain ⟨hk, hi, -, ht, -⟩ := h
    exact Or.inr (Or.inl ⟨hk.symm, by omega, _, xorGroups_lt 2 _ 12, by rw [← ht, ← hi]⟩)
  · rw [dpaLoc_stack g1 g2, Loc.mem.injEq] at h
    obtain ⟨hk, hi, -, ht, -⟩ := h
    exact Or.inr (Or.inr ⟨hk.symm, hi.symm.trans ht⟩)

/-- A kind of window, a stack and a byte of it are one place. -/
theorem dpaLoc_same {a b k i i' bd bd' t l : Nat} (ha : dpaLoc a = .mem k i bd t l) (hb : dpaLoc b = .mem k i' bd' t l) : dpaLoc a = dpaLoc b := by
  have hband : bd = bd' := (dpaLoc_mem_local ha).2.1.trans (dpaLoc_mem_local hb).2.1.symm
  have hset : i = i' := by
    rcases dpaLoc_mem_set ha with ⟨hk, hi⟩ | ⟨hk, hi, x, hx, ht⟩ | ⟨hk, hi⟩ <;> rcases dpaLoc_mem_set hb with ⟨hk', hi'⟩ | ⟨hk', hi', y, hy, ht'⟩ | ⟨hk', hi'⟩ <;>
      first | omega | exact stacksOf_disjoint hi hi' hx hy (ht.symm.trans ht')
  rw [ha, hb, hband, hset]

/-! ## Sectors -/

/-- The 64 bytes that stand in a sector: those that its slice holds, or the stack's. -/
def State.sectorData (s : State) (t q : Nat) : List Byte := (s.sector t q).1

theorem State.sectorData_eq (s : State) (t q : Nat) :
    s.sectorData t q = match (s.wayOf t (q / 4)).bind fun w => w.dirty.find? fun d => d.1 = q % 4 with
      | some d => d.2.1
      | none => s.memBytes (t * 2 ^ 36 + q * 64) 64 := by
  unfold State.sectorData State.sector
  cases (s.wayOf t (q / 4)).bind fun w => w.dirty.find? fun d => d.1 = q % 4 <;> rfl

theorem State.sectorData_congr {s u : State} (hm : u.mem = s.mem) (hc : u.cache = s.cache) (t q : Nat) : u.sectorData t q = s.sectorData t q := by
  have hw : u.wayOf t (q / 4) = s.wayOf t (q / 4) := by rw [State.wayOf, hc, State.wayOf]
  have hb : u.memBytes (t * 2 ^ 36 + q * 64) 64 = s.memBytes (t * 2 ^ 36 + q * 64) 64 := by rw [State.memBytes, hm, State.memBytes]
  rw [State.sectorData_eq, State.sectorData_eq, hw, hb]

theorem State.memBytes_length (s : State) (k n : Nat) : (s.memBytes k n).length = n := by rw [State.memBytes, List.length_map, List.length_range]

theorem State.sectorData_length {s : State} (h : Cache.wf s.cache) (t q : Nat) : (s.sectorData t q).length = 64 := by
  rw [State.sectorData_eq]
  split
  · next d hd =>
    obtain ⟨w, hw, hdw⟩ := Option.bind_eq_some_iff.mp hd
    have hmem := List.mem_of_find?_eq_some hw
    have hset : setOk (cacheKey t (q / 4)) (Table.getD [] s.cache (cacheKey t (q / 4))) := by
      rw [Table.getD] at hmem ⊢
      cases hget : Table.get? s.cache (cacheKey t (q / 4)) with
      | none => rw [hget] at hmem; cases hmem
      | some ws => exact h.2 (cacheKey t (q / 4), ws) (Table.mem_of_get? hget)
    exact ((hset.2.2 w hmem).2.2 d (List.mem_of_find?_eq_some hdw)).2
  · exact s.memBytes_length _ _

/-- No byte of a sector changes. -/
def keepsSectors (s u : State) : Prop := ∀ t q, u.sectorData t q = s.sectorData t q

theorem keepsSectors.refl (s : State) : keepsSectors s s := fun _ _ => rfl

theorem keepsSectors.trans {s t u : State} (h : keepsSectors s t) (g : keepsSectors t u) : keepsSectors s u := fun a b => (g a b).trans (h a b)

theorem cacheKey_inj {t t' l l' : Nat} (h : cacheKey t l = cacheKey t' l') : t = t' := by
  unfold cacheKey at h
  omega

/-- A lookup that takes no new line leaves every line that the slice holds. -/
theorem State.wayOf_cacheTouch (s : State) (t line t' line' : Nat) : (s.cacheTouch t line false).1.wayOf t' line' = s.wayOf t' line' := by
  unfold State.cacheTouch
  dsimp only
  split
  · next w hw =>
    have hline : w.line = line := by simpa using List.find?_some hw
    show (Table.getD [] (Table.put [] s.cache (cacheKey t line) (w :: _)) (cacheKey t' line')).find? _ = _
    rw [State.wayOf, Table.getD_put]
    split
    · next hk =>
      rw [hk]
      by_cases hl : line' = line
      · rw [hl, hw]
        exact List.find?_cons_of_pos (p := fun w : Way => decide (w.line = line)) (decide_eq_true hline)
      · rw [List.find?_cons_of_neg (by rw [hline]; simp [Ne.symm hl]), List.find?_filter]
        congr 1
        funext v
        by_cases hv : v.line = line'
        · simp [hv, hl]
        · simp [hv]
    · rfl
  · rfl

theorem State.cacheTouch_keepsSectors (s : State) (t line : Nat) : keepsSectors s (s.cacheTouch t line false).1 := fun t' q => by
  have hb : (s.cacheTouch t line false).1.memBytes (t' * 2 ^ 36 + q * 64) 64 = s.memBytes (t' * 2 ^ 36 + q * 64) 64 := by
    rw [State.memBytes, State.cacheTouch_mem, State.memBytes]
  rw [State.sectorData_eq, State.sectorData_eq, State.wayOf_cacheTouch, hb]


/-- What a slice does to its stack for a read, or for a write that takes no line: its bytes stay. -/
structure SlicePass (s u : State) : Prop where
  mem : keepsMem s u
  sectors : Memory.wf s.mem = true → keepsSectors s u

namespace SlicePass
variable {s t u : State}

theorem refl (s : State) : SlicePass s s := ⟨.refl s, fun _ => .refl s⟩

theorem trans (h : SlicePass s t) (g : SlicePass t u) : SlicePass s u :=
  ⟨h.mem.trans g.mem, fun hw => (h.sectors hw).trans (g.sectors (by rw [h.mem hw]; exact hw))⟩

theorem ite (p : Prop) [Decidable p] (h : SlicePass s t) (g : SlicePass s u) : SlicePass s (if p then t else u) := by
  split
  · exact h
  · exact g

theorem forAll {α : Type} (l : List α) (f : α → State → State) (hf : ∀ a s, SlicePass s (f a s)) (s : State) : SlicePass s (forAll l f s) :=
  forAll_induct (P := SlicePass s) (fun a t h => h.trans (hf a t)) l (refl s)

/-- A step that leaves the cache and canonical memory leaves every sector. -/
theorem of_cache (hm : keepsMem s u) (hc : u.cache = s.cache) : SlicePass s u := ⟨hm, fun hw => State.sectorData_congr (hm hw) hc⟩

end SlicePass

theorem State.reread_cache (s : State) (t sec : Nat) : (s.reread t sec).cache = s.cache := by
  have hce : ∀ (x : State) n, ({ x with ceCount := n } : State).cache = x.cache := fun _ _ => rfl
  have h1 : (s.rereadOnce t).cache = s.cache := (hce _ _).trans (congrArg State.cache (s.sat_core _ 63 32 1) :)
  match h : s.upset t sec with
  | some .dead =>
    have hput : ∀ (x : State) d, (x.stackPut t sec d true).cache = x.cache := fun _ _ => rfl
    have hraise := ((s.rereadOnce t).loseSector t sec).raisePg_core (thatchDie t) 0 0
    rw [State.reread_dead h, show (((s.rereadOnce t).loseSector t sec).raisePg (thatchDie t) 0 0).cache = _ from (congrArg State.cache hraise :), State.loseSector,
      State.wf_eq, State.setReg_cache, show (State.sat _ _ 31 0 1).cache = _ from (congrArg State.cache (State.sat_core _ _ 31 0 1) :), hput]
    exact h1
  | some (.again n) =>
    have hup : ∀ (x : State) n, ({ x with upsets := n } : State).cache = x.cache := fun _ _ => rfl
    have hco : ∀ x : State, (x.corrected t n).cache = x.cache := fun x => (hce _ _).trans (congrArg State.cache (x.sat_core _ 31 0 n) :)
    rw [State.reread_again h]
    exact ((hup _ _).trans (hco _)).trans h1
  | some (.corrected _) => rw [State.reread_other (by rw [h]; simp) (by rw [h]; simp)]; exact h1
  | none => rw [State.reread_other (by rw [h]; simp) (by rw [h]; simp)]; exact h1

theorem State.meetSector_pass (s : State) (t sec : Nat) : SlicePass s (s.meetSector t sec) := by
  refine .of_cache (s.meetSector_keepsMem t sec) ?_
  unfold State.meetSector
  split
  · rfl
  · have hce : ∀ (x : State) n, ({ x with ceCount := n } : State).cache = x.cache := fun _ _ => rfl
    unfold State.corrected
    exact (hce _ _).trans (congrArg State.cache (s.sat_core _ 31 0 _) :)
  · exact s.reread_cache t sec

theorem State.slice_pass (s : State) (t l n : Nat) (write : Bool) : SlicePass s (s.slice t l n write false) := by
  unfold State.slice
  have hmeet : SlicePass s (if (s.wayOf t (l / 256)).isSome then s else forAll (missReads l n write false) (fun sec u => u.meetSector t sec) s) :=
    .ite _ (.refl s) (.forAll _ _ (fun sec u => u.meetSector_pass t sec) s)
  dsimp only
  generalize (if (s.wayOf t (l / 256)).isSome then s else forAll (missReads l n write false) (fun sec u => u.meetSector t sec) s) = z at hmeet ⊢
  exact hmeet.trans ⟨.of_mem (z.cacheTouch_mem t (l / 256)), fun _ => z.cacheTouch_keepsSectors t (l / 256)⟩

theorem State.windowErr_pass (s : State) (t : Nat) : SlicePass s (s.windowErr t) := by
  have h := (s.sat_core (bar0 (thatchDie t) 0 Off.THC_WINDOW_ERR) 31 0 1)
  unfold State.windowErr
  generalize s.sat (bar0 (thatchDie t) 0 Off.THC_WINDOW_ERR) 31 0 1 = u at h
  have g := h.trans (u.raisePg_core (thatchDie t) 0 2)
  exact .of_cache (.of_mem (congrArg State.mem g :)) (congrArg State.cache g :)

theorem State.touch_pass (s : State) (a n : Nat) (write : Bool) : SlicePass s (s.touch a n write false) := by
  unfold State.touch
  split
  · exact .ite _ (s.windowErr_pass _) (.ite _ (s.slice_pass _ _ _ _) (.refl s))
  · exact .refl s
  · exact .refl s

/-! ## A sector written -/

theorem List.eq_map_range_getD {α : Type} (d : α) (l : List α) {n : Nat} (h : l.length = n) : ((List.range n).map fun i => l.getD i d) = l := by
  refine List.ext_getElem (by rw [List.length_map, List.length_range, h]) fun i h1 h2 => ?_
  rw [List.getElem_map, List.getElem_range, List.getD_eq_getElem?_getD, List.getElem?_eq_getElem h2, Option.getD_some]

theorem State.memBytes_stackPut (s : State) {t q t' q' : Nat} {d : List Byte} (p : Bool) (hd : d.length = 64) (hq : q < 2 ^ 30) (hq' : q' < 2 ^ 30) :
    (s.stackPut t q d p).memBytes (t' * 2 ^ 36 + q' * 64) 64 = if t' = t ∧ q' = q then d else s.memBytes (t' * 2 ^ 36 + q' * 64) 64 := by
  have htake : d.take 64 = d := List.take_of_length_le (by omega)
  have hmem : (s.stackPut t q d p).mem = putBytes s.mem (t * 2 ^ 36 + q * 64) d := by
    show putBytes s.mem (t * 2 ^ 36 + q * 64) (d.take 64) = _
    rw [htake]
  rw [State.memBytes, hmem]
  split
  · next h =>
    refine Eq.trans (List.map_congr_left fun i hi => ?_) (List.eq_map_range_getD 0 d hd)
    rw [List.mem_range] at hi
    rw [getD_putBytes, h.1, h.2, if_pos (by omega), Nat.add_sub_cancel_left]
  · next h =>
    refine List.map_congr_left fun i hi => ?_
    rw [List.mem_range] at hi
    rw [getD_putBytes, if_neg (by omega)]

/-- A line of the cache with one of its sectors written. -/
def Way.putDirty (w : Way) (line k : Nat) (d : List Byte) (p : Bool) : Way :=
  if w.line = line then { w with dirty := (k, sectorBytes d, p) :: w.dirty.filter fun x => x.1 ≠ k } else w

theorem Way.putDirty_line (w : Way) (line k : Nat) (d : List Byte) (p : Bool) : (w.putDirty line k d p).line = w.line := by
  unfold Way.putDirty
  split <;> rfl

theorem Way.putDirty_find (w : Way) (line k : Nat) (d : List Byte) (p : Bool) (j : Nat) (h : w.line = line) :
    (w.putDirty line k d p).dirty.find? (fun x => x.1 = j) = if j = k then some (k, sectorBytes d, p) else w.dirty.find? fun x => x.1 = j := by
  rw [Way.putDirty, if_pos h]
  dsimp only
  by_cases hj : j = k
  · rw [if_pos hj]
    exact List.find?_cons_of_pos (p := fun x : Nat × List Byte × Bool => decide (x.1 = j)) (decide_eq_true hj.symm)
  · rw [if_neg hj]
    refine (List.find?_cons_of_neg (p := fun x : Nat × List Byte × Bool => decide (x.1 = j)) (by simpa using fun e => hj e.symm)).trans ?_
    rw [List.find?_filter]
    congr 1
    funext x
    by_cases hx : x.1 = j
    · simp [hx, hj]
    · simp [hx]

section
variable {s : State} {t q : Nat} {w : Way}

theorem State.wayOf_putSector (h : s.wayOf t (q / 4) = some w) (d : List Byte) (p : Bool) (t' line' : Nat) :
    (s.putSector t q d p).wayOf t' line' = if cacheKey t' line' = cacheKey t (q / 4) then (s.wayOf t' line').map fun v => v.putDirty w.line (q % 4) d p
      else s.wayOf t' line' := by
  have hcache : (s.putSector t q d p).cache = Table.put [] s.cache (cacheKey t (q / 4))
      ((Table.getD [] s.cache (cacheKey t (q / 4))).map fun v => v.putDirty w.line (q % 4) d p) := by
    unfold State.putSector
    rw [h]
    rfl
  rw [State.wayOf, hcache, Table.getD_put]
  split
  · next hk =>
    rw [List.find?_map, State.wayOf, hk]
    congr 2
    funext v
    simp only [Function.comp, Way.putDirty_line]
  · rfl

theorem State.putSector_mem (h : s.wayOf t (q / 4) = some w) (d : List Byte) (p : Bool) : (s.putSector t q d p).mem = s.mem := by
  unfold State.putSector
  rw [h]

theorem State.putSector_stack (h : s.wayOf t (q / 4) = none) (d : List Byte) (p : Bool) : s.putSector t q d p = s.stackPut t q d p := by
  unfold State.putSector
  rw [h]

end

/-- A sector written holds what was written, and no other sector changes. -/
theorem State.sectorData_putSector (s : State) {t q t' q' : Nat} {d : List Byte} (p : Bool) (hd : d.length = 64) (hq : q < 2 ^ 30) (hq' : q' < 2 ^ 30) :
    (s.putSector t q d p).sectorData t' q' = if t' = t ∧ q' = q then d else s.sectorData t' q' := by
  match h : s.wayOf t (q / 4) with
  | none =>
    have hway : (s.stackPut t q d p).wayOf t' (q' / 4) = s.wayOf t' (q' / 4) := rfl
    rw [State.putSector_stack h, State.sectorData_eq, hway, State.memBytes_stackPut s p hd hq hq', State.sectorData_eq]
    split
    · next x hx =>
      rw [if_neg]
      rintro ⟨rfl, rfl⟩
      rw [h] at hx
      cases hx
    · rfl
  | some w =>
    have hline : w.line = q / 4 := by simpa using List.find?_some h
    have hmem : (s.putSector t q d p).memBytes (t' * 2 ^ 36 + q' * 64) 64 = s.memBytes (t' * 2 ^ 36 + q' * 64) 64 := by
      rw [State.memBytes, State.putSector_mem h, State.memBytes]
    have hdata : sectorBytes d = d := List.eq_map_range_getD 0 d hd
    rw [State.sectorData_eq, State.wayOf_putSector h, hmem, State.sectorData_eq]
    by_cases hk : cacheKey t' (q' / 4) = cacheKey t (q / 4)
    · rw [if_pos hk]
      have ht := cacheKey_inj hk
      subst ht
      cases hv : s.wayOf t' (q' / 4) with
      | none =>
        rw [if_neg]
        · rfl
        · rintro ⟨-, rfl⟩
          rw [hv] at h
          cases h
      | some v =>
        have hvline : v.line = q' / 4 := by simpa using List.find?_some hv
        rw [Option.map_some, Option.bind_some, Option.bind_some]
        by_cases hl : v.line = w.line
        · rw [Way.putDirty_find _ _ _ _ _ _ hl]
          by_cases hj : q' % 4 = q % 4
          · rw [if_pos hj, if_pos ⟨rfl, by omega⟩]
            exact hdata
          · rw [if_neg hj, if_neg (by rintro ⟨-, rfl⟩; exact hj rfl)]
        · rw [Way.putDirty, if_neg hl, if_neg (by rintro ⟨-, rfl⟩; exact hl (by omega))]
    · rw [if_neg hk, if_neg (by rintro ⟨rfl, rfl⟩; exact hk rfl)]

/-! ## Bytes by device physical address -/

/-- What decides which addresses reach memory stands as it was. -/
def keepsReach (s u : State) : Prop := u.bands = s.bands ∧ u.dies = s.dies ∧ u.pwrgd = s.pwrgd

namespace keepsReach
variable {s t u : State}

theorem refl (s : State) : keepsReach s s := ⟨rfl, rfl, rfl⟩

theorem trans (h : keepsReach s t) (g : keepsReach t u) : keepsReach s u :=
  ⟨g.1.trans h.1, g.2.1.trans h.2.1, g.2.2.trans h.2.2⟩

theorem memOk (h : keepsReach s u) (k b t : Nat) : u.memOk k b t = s.memOk k b t := by
  obtain ⟨h1, h2, h3⟩ := h
  rw [State.memOk, State.bandKind, State.alive, State.die, h1, h2, h3, State.memOk, State.bandKind, State.alive, State.die]

end keepsReach

theorem onlyStacks.reach {s u : State} (h : onlyStacks s u) : keepsReach s u :=
  ⟨(congrArg State.bands h :), (congrArg State.dies h :), (congrArg State.pwrgd h :)⟩

theorem State.dpaByte_mem (s : State) {a k i b t l : Nat} (h : dpaLoc a = .mem k i b t l) :
    (s.dpaByte a).1 = if s.memOk k b t then (s.sectorData t (l / 64)).getD (l % 64) 0 else Config.poisonByte a := by
  rw [State.dpaByte, h]
  dsimp only
  split <;> rfl

theorem State.dpaByte_pad (s : State) {a d p o : Nat} (h : dpaLoc a = .pad d p o) :
    (s.dpaByte a).1 = if o < padSize then Table.getD 0 s.scratch (padKey d p o) else 0 := by
  rw [State.dpaByte, h]
  dsimp only
  split <;> rfl

/-- Of the addresses in `R` those of memory read what `f` gives, and every address at another place reads as before. -/
structure Stored (f : Nat → Byte) (R : Nat → Prop) (s u : State) : Prop where
  reach : keepsReach s u
  inside : ∀ x, R x → ∀ k i b t l, dpaLoc x = .mem k i b t l → s.memOk k b t = true → (u.dpaByte x).1 = f x
  outside : ∀ x, (∀ y, R y → dpaLoc x ≠ dpaLoc y) → (u.dpaByte x).1 = (s.dpaByte x).1

namespace Stored
variable {f : Nat → Byte} {R R' : Nat → Prop} {s t u : State}

theorem refl (s : State) : Stored f (fun _ => False) s s := ⟨.refl s, fun _ h => h.elim, fun _ _ => rfl⟩

/-- What is stored later stands beside what was stored before. -/
theorem trans (h : Stored f R s t) (g : Stored f R' t u) : Stored f (fun x => R x ∨ R' x) s u := by
  refine ⟨h.reach.trans g.reach, fun x hx k i b w l hl hok => ?_, fun x hx => ?_⟩
  · have hok' : t.memOk k b w = true := by rw [h.reach.memOk]; exact hok
    by_cases hr : R' x
    · exact g.inside x hr k i b w l hl hok'
    · rw [g.outside x fun y hy he => hr (by rw [dpaMapIsInjective x y (by rw [hl]; simp) he]; exact hy)]
      exact h.inside x (hx.resolve_right hr) k i b w l hl hok
  · rw [g.outside x fun y hy => hx y (Or.inr hy), h.outside x fun y hy => hx y (Or.inl hy)]

/-- A range may be named more widely where every address of memory of it has been stored. -/
theorem widen (h : Stored f R s u) (hsub : ∀ x, R x → R' x) (hall : ∀ x, R' x → ∀ k i b t l, dpaLoc x = .mem k i b t l → R x) : Stored f R' s u :=
  ⟨h.reach, fun x hx k i b t l hl => h.inside x (hall x hx k i b t l hl) k i b t l hl, fun x hx => h.outside x fun y hy => hx y (hsub y hy)⟩

theorem congr (h : Stored f R s u) (hR : ∀ x, R x ↔ R' x) : Stored f R' s u := h.widen (fun x => (hR x).mp) (fun x hx _ _ _ _ _ _ => (hR x).mpr hx)

end Stored

/-- Sectors and scratchpads that stay keep every byte. -/
theorem Stored.of_sectors {f : Nat → Byte} {s u : State} (hr : keepsReach s u) (hs : keepsSectors s u) (hp : u.scratch = s.scratch) :
    Stored f (fun _ => False) s u := by
  refine ⟨hr, fun _ h => h.elim, fun x _ => ?_⟩
  match hl : dpaLoc x with
  | .mem k i b t l => rw [u.dpaByte_mem hl, s.dpaByte_mem hl, hr.memOk, hs]
  | .pad d p o => rw [u.dpaByte_pad hl, s.dpaByte_pad hl, hp]
  | .hole => rw [State.dpaByte, State.dpaByte, hl]

/-- A read of the device, or a write before it stores, keeps every byte. -/
theorem State.touch_stored {f : Nat → Byte} {s : State} (hw : Memory.wf s.mem = true) (a n : Nat) (write : Bool) :
    Stored f (fun _ => False) s (s.touch a n write false) :=
  .of_sectors (s.touch_stacks a n write false).reach ((s.touch_pass a n write).sectors hw) (congrArg State.scratch (s.touch_stacks a n write false) :)

/-! ## Writes within a sector -/

theorem List.getD_splice (x d : List Byte) (o j : Nat) (ho : o + d.length ≤ x.length) :
    (x.take o ++ d ++ x.drop (o + d.length)).getD j 0 = if o ≤ j ∧ j < o + d.length then d.getD (j - o) 0 else x.getD j 0 := by
  have htake : (x.take o).length = o := by rw [List.length_take]; omega
  simp only [List.getD_eq_getElem?_getD]
  by_cases h1 : j < o
  · rw [if_neg (by omega), List.getElem?_append_left (by rw [List.length_append, htake]; omega), List.getElem?_append_left (by rw [htake]; exact h1),
      List.getElem?_take, if_pos h1]
  · by_cases h2 : j < o + d.length
    · rw [if_pos ⟨by omega, h2⟩, List.getElem?_append_left (by rw [List.length_append, htake]; exact h2), List.getElem?_append_right (by rw [htake]; omega), htake]
    · rw [if_neg (by omega), List.getElem?_append_right (by rw [List.length_append, htake]; omega), List.length_append, htake, List.getElem?_drop,
        show o + d.length + (j - (o + d.length)) = j by omega]

theorem State.putSector_scratch (s : State) (t q : Nat) (d : List Byte) (p : Bool) : (s.putSector t q d p).scratch = s.scratch :=
  (congrArg State.scratch (s.putSector_stacks t q d p) :)

/-- Bytes written inside one sector of memory. -/
theorem State.dpaPutIn_mem_stored {s : State} {f : Nat → Byte} (hc : Cache.wf s.cache) {a k i b t l : Nat} {data : List Byte} (p : Bool)
    (hl : dpaLoc a = .mem k i b t l) (hfit : a % 64 + data.length ≤ 64) (hf : ∀ j, j < data.length → data.getD j 0 = f (a + j)) :
    Stored f (fun x => a ≤ x ∧ x < a + data.length) s (s.dpaPutIn a data p) := by
  obtain ⟨hl36, hb, hl256⟩ := dpaLoc_mem_local hl
  by_cases hok : s.memOk k b t = true
  · obtain ⟨d, hd⟩ : ∃ d, d = (s.sectorData t (l / 64)).take (l % 64) ++ data ++ (s.sectorData t (l / 64)).drop (l % 64 + data.length) := ⟨_, rfl⟩
    have hlen : (s.sectorData t (l / 64)).length = 64 := State.sectorData_length hc t (l / 64)
    have hdlen : d.length = 64 := by rw [hd, List.length_append, List.length_append, List.length_take, List.length_drop, hlen]; omega
    obtain ⟨bad, hu⟩ : ∃ bad, s.dpaPutIn a data p = s.putSector t (l / 64) d bad := by
      refine ⟨p || ((s.sector t (l / 64)).2 && decide (data.length < 64)), ?_⟩
      rw [State.dpaPutIn, hl]
      dsimp only
      rw [if_pos hok, hd]
      rfl
    have hreach : keepsReach s (s.putSector t (l / 64) d bad) := (s.putSector_stacks _ _ _ _).reach
    have hbyte : ∀ j, d.getD j 0 = if l % 64 ≤ j ∧ j < l % 64 + data.length then data.getD (j - l % 64) 0 else (s.sectorData t (l / 64)).getD j 0 := fun j => by
      rw [hd]; exact List.getD_splice _ _ _ _ (by omega)
    rw [hu]
    refine ⟨hreach, fun x hx k' i' b' t' l' hl' hok' => ?_, fun x hx => ?_⟩
    · have hadd := dpaLoc_add (j := x - a) hl (by omega)
      rw [show a + (x - a) = x by omega, hl', Loc.mem.injEq] at hadd
      obtain ⟨rfl, -, rfl, rfl, rfl⟩ := hadd
      rw [State.dpaByte_mem _ hl', hreach.memOk, if_pos hok', State.sectorData_putSector s bad hdlen (by omega) (by omega),
        if_pos ⟨rfl, by omega⟩, hbyte, if_pos (by omega), show (l + (x - a)) % 64 - l % 64 = x - a by omega, hf _ (by omega),
        show a + (x - a) = x by omega]
    · match hl' : dpaLoc x with
      | .mem k' i' b' t' l' =>
        obtain ⟨hl36', hb', -⟩ := dpaLoc_mem_local hl'
        rw [State.dpaByte_mem _ hl', State.dpaByte_mem _ hl', hreach.memOk]
        by_cases hok' : s.memOk k' b' t' = true
        · rw [if_pos hok', if_pos hok', State.sectorData_putSector s bad hdlen (by omega) (by omega)]
          split
          · next hsame =>
            obtain ⟨rfl, hq⟩ := hsame
            rw [hbyte]
            split
            · next hin =>
              exfalso
              have hadd := dpaLoc_add (j := l' % 64 - l % 64) hl (by omega)
              rw [show l + (l' % 64 - l % 64) = l' by omega] at hadd
              have hkind : k' = k := by
                have hbb : b' = b := by omega
                rw [hbb, State.memOk, Bool.and_eq_true, decide_eq_true_eq] at hok'
                rw [State.memOk, Bool.and_eq_true, decide_eq_true_eq] at hok
                exact hok'.1.symm.trans hok.1
              rw [hkind] at hl'
              exact hx (a + (l' % 64 - l % 64)) (by omega) (dpaLoc_same hl' hadd)
            · rw [hq]
          · rfl
        · rw [if_neg hok', if_neg hok']
      | .pad d' p' o' => rw [State.dpaByte_pad _ hl', State.dpaByte_pad _ hl', State.putSector_scratch]
      | .hole => rw [State.dpaByte, State.dpaByte, hl']
  · have hu : s.dpaPutIn a data p = s := by
      rw [State.dpaPutIn, hl]
      dsimp only
      rw [if_neg hok]
    rw [hu]
    refine ⟨.refl s, fun x hx k' i' b' t' l' hl' hok' => ?_, fun _ _ => rfl⟩
    have hadd := dpaLoc_add (j := x - a) hl (by omega)
    rw [show a + (x - a) = x by omega, hl', Loc.mem.injEq] at hadd
    obtain ⟨rfl, -, rfl, rfl, -⟩ := hadd
    exact absurd hok' hok

/-! ## Writes into scratchpads and holes -/

theorem dpaLoc_pad_bounds {a d p o : Nat} (h : dpaLoc a = .pad d p o) : ¬ a < 3 * 2 ^ 40 ∧ a < 3 * 2 ^ 40 + 2 ^ 36 ∧ d = (a - 3 * 2 ^ 40) / 2 ^ 30
    ∧ p = a % 2 ^ 30 / 2 ^ 18 ∧ o = a % 2 ^ 18 ∧ dieKind d = .rafter ∧ p < 2304 := by
  have hge : ¬ a < 3 * 2 ^ 40 := fun hlt => dpaLoc_cases (a := a) False (fun g => by rw [dpaLoc_all g] at h; cases h)
    (fun g1 g2 => by rw [dpaLoc_quarter g1 g2] at h; cases h) (fun g1 g2 => by rw [dpaLoc_stack g1 g2] at h; cases h) fun g => g hlt
  obtain ⟨hlt, heq⟩ := dpaLoc_pad hge (by rw [h]; simp)
  have hrest : dpaLoc a = if a < 3 * 2 ^ 40 + 2 ^ 36 then
      if dieKind ((a - 3 * 2 ^ 40) / 2 ^ 30) = .rafter ∧ a % 2 ^ 30 / 2 ^ 18 < 2304 then
        .pad ((a - 3 * 2 ^ 40) / 2 ^ 30) (a % 2 ^ 30 / 2 ^ 18) (a % 2 ^ 18) else .hole
      else .hole := (if_neg (by omega)).trans ((if_neg (by omega)).trans (if_neg hge))
  rw [if_pos hlt] at hrest
  split at hrest
  · next hk =>
    rw [h, Loc.pad.injEq] at hrest
    obtain ⟨rfl, rfl, rfl⟩ := hrest
    exact ⟨hge, hlt, rfl, rfl, rfl, hk⟩
  · rw [h] at hrest; cases hrest

/-- Within a block of 256 bytes the places of a scratchpad follow one another. -/
theorem dpaLoc_pad_add {a d p o j : Nat} (h : dpaLoc a = .pad d p o) (hj : a % 256 + j < 256) : dpaLoc (a + j) = .pad d p (o + j) := by
  obtain ⟨hge, hlt, hd, hp, ho, hk⟩ := dpaLoc_pad_bounds h
  have hrest : dpaLoc (a + j) = if a + j < 3 * 2 ^ 40 + 2 ^ 36 then
      if dieKind ((a + j - 3 * 2 ^ 40) / 2 ^ 30) = .rafter ∧ (a + j) % 2 ^ 30 / 2 ^ 18 < 2304 then
        .pad ((a + j - 3 * 2 ^ 40) / 2 ^ 30) ((a + j) % 2 ^ 30 / 2 ^ 18) ((a + j) % 2 ^ 18) else .hole
      else .hole := (if_neg (by omega)).trans ((if_neg (by omega)).trans (if_neg (by omega)))
  rw [hrest, if_pos (by omega), show (a + j - 3 * 2 ^ 40) / 2 ^ 30 = d by omega, show (a + j) % 2 ^ 30 / 2 ^ 18 = p by omega,
    show (a + j) % 2 ^ 18 = o + j by omega, if_pos hk]

/-- The bytes of a block that begins at no place of memory are none of memory. -/
theorem dpaLoc_block_mem {a j k i b t l : Nat} (hj : a % 256 + j < 256) (h : dpaLoc (a + j) = .mem k i b t l) : ∃ k i b t l, dpaLoc a = .mem k i b t l := by
  have hlt : a < 3 * 2 ^ 40 := by have := dpaLoc_mem_lt h; omega
  exact dpaLoc_cases (a := a) _ (fun g => ⟨_, _, _, _, _, dpaLoc_all g⟩) (fun g1 g2 => ⟨_, _, _, _, _, dpaLoc_quarter g1 g2⟩)
    (fun g1 g2 => ⟨_, _, _, _, _, dpaLoc_stack g1 g2⟩) (fun g => absurd hlt g)

theorem State.padWrite_scratch_at (s : State) (base off : Nat) (data : List Byte) (p : Bool) (k : Nat) (h : k < base + off ∨ base + off + data.length ≤ k) :
    Table.getD 0 (s.padWrite base off data p).scratch k = Table.getD 0 s.scratch k := by
  have hlen : (data.take (padSize - off)).length ≤ data.length := List.length_take_le' _ _
  unfold State.padWrite
  dsimp only
  split
  · rfl
  · rw [getD_putBytes, if_neg (by omega)]

/-- Bytes written inside one sector stand there, and no byte at another place changes. -/
theorem State.dpaPutIn_stored {s : State} {f : Nat → Byte} (hc : Cache.wf s.cache) {a : Nat} {data : List Byte} (p : Bool)
    (hfit : a % 64 + data.length ≤ 64) (hf : ∀ j, j < data.length → data.getD j 0 = f (a + j)) :
    Stored f (fun x => a ≤ x ∧ x < a + data.length) s (s.dpaPutIn a data p) := by
  have nomem : (∀ k i b t l, dpaLoc a ≠ .mem k i b t l) → ∀ x, a ≤ x ∧ x < a + data.length → ∀ k i b t l, dpaLoc x ≠ .mem k i b t l := fun hn x hx k i b t l hl => by
    obtain ⟨k', i', b', t', l', hl'⟩ := dpaLoc_block_mem (a := a) (j := x - a) (by omega) (by rw [show a + (x - a) = x by omega]; exact hl)
    exact hn _ _ _ _ _ hl'
  match hl : dpaLoc a with
  | .mem k i b t l => exact State.dpaPutIn_mem_stored hc p hl hfit hf
  | .pad d tile o =>
    have hu : s.dpaPutIn a data p = s.padWrite (padKey d tile 0) o data p := by rw [State.dpaPutIn, hl]
    have honly := s.padWrite_only (padKey d tile 0) o data p
    have hreach : keepsReach s (s.padWrite (padKey d tile 0) o data p) :=
      ⟨(congrArg State.bands honly :), (congrArg State.dies honly :), (congrArg State.pwrgd honly :)⟩
    have hsec : keepsSectors s (s.padWrite (padKey d tile 0) o data p) :=
      State.sectorData_congr (congrArg State.mem honly :) (congrArg State.cache honly :)
    rw [hu]
    refine ⟨hreach, fun x hx k i b t l hlx _ => absurd hlx (nomem (by rw [hl]; simp) x hx k i b t l), fun x hx => ?_⟩
    match hlx : dpaLoc x with
    | .mem k i b t l => rw [State.dpaByte_mem _ hlx, State.dpaByte_mem _ hlx, hreach.memOk, hsec]
    | .pad d' tile' o' =>
      rw [State.dpaByte_pad _ hlx, State.dpaByte_pad _ hlx]
      obtain ⟨-, -, -, hp, ho, -, htile⟩ := dpaLoc_pad_bounds hl
      obtain ⟨-, -, -, hp', ho', -, htile'⟩ := dpaLoc_pad_bounds hlx
      have hnot : padKey d' tile' o' < padKey d tile 0 + o ∨ padKey d tile 0 + o + data.length ≤ padKey d' tile' o' := by
        refine Decidable.byContradiction fun hn => ?_
        have hadd := dpaLoc_pad_add (j := padKey d' tile' o' - (padKey d tile 0 + o)) hl (by unfold padKey at hn ⊢; omega)
        refine hx (a + (padKey d' tile' o' - (padKey d tile 0 + o))) (by unfold padKey at hn ⊢; omega) (hlx.trans (Eq.trans ?_ hadd.symm))
        rw [Loc.pad.injEq]
        unfold padKey at hn ⊢
        omega
      rw [State.padWrite_scratch_at _ _ _ _ _ _ hnot]
    | .hole => rw [State.dpaByte, State.dpaByte, hlx]
  | .hole =>
    have hu : s.dpaPutIn a data p = s := by rw [State.dpaPutIn, hl]
    rw [hu]
    exact ⟨.refl s, fun x hx k i b t l hlx _ => absurd hlx (nomem (by rw [hl]; simp) x hx k i b t l), fun _ _ => rfl⟩

/-! ## Writes of any length -/

/-- Good states and what is stored between them. -/
theorem Stored.forAll_parts {α : Type} {f : Nat → Byte} {q : List Instr} (R : α → Nat → Prop) (g : α → State → State) (l : List α)
    (hf : ∀ a ∈ l, ∀ s, s.Good q → Stored f (R a) s (g a s) ∧ (g a s).Good q) {s : State} (hs : s.Good q) :
    Stored f (fun x => ∃ a ∈ l, R a x) s (forAll l g s) ∧ (forAll l g s).Good q := by
  unfold forAll
  induction l generalizing s with
  | nil => exact ⟨(Stored.refl s).congr fun x => ⟨False.elim, fun ⟨_, h, _⟩ => by cases h⟩, hs⟩
  | cons a r ih =>
    obtain ⟨h1, g1⟩ := hf a List.mem_cons_self s hs
    obtain ⟨h2, g2⟩ := ih (fun b hb => hf b (List.mem_cons_of_mem a hb)) g1
    refine ⟨(h1.trans h2).congr fun x => ?_, g2⟩
    rw [List.exists_mem_cons_iff]

/-- Every address of an access lies in one of its parts. -/
theorem blockParts_cover {w a len x : Nat} (hw : 0 < w) (h : a ≤ x ∧ x < a + len) : ∃ p ∈ blockParts w a len, p.1 ≤ x ∧ x < p.1 + p.2.2 := by
  have hle : a / w ≤ x / w := Nat.div_le_div_right h.1
  have hup : x / w ≤ (a + len - 1) / w := Nat.div_le_div_right (by omega)
  have hlow : x / w * w ≤ x := Nat.div_mul_le_self x w
  have hhigh : x < (x / w + 1) * w := by rw [Nat.succ_mul]; exact Nat.lt_div_mul_add hw
  refine ⟨_, List.mem_map_of_mem (List.mem_range.mpr (show x / w - a / w < _ by rw [if_neg (by omega)]; omega)), ?_⟩
  dsimp only
  rw [show a / w + (x / w - a / w) = x / w by omega]
  omega

theorem List.getD_take_drop (l : List Byte) {o n j : Nat} (hj : j < n) : ((l.drop o).take n).getD j 0 = l.getD (o + j) 0 := by
  rw [List.getD_eq_getElem?_getD, List.getElem?_take, if_pos hj, List.getElem?_drop, ← List.getD_eq_getElem?_getD]

/-- A write of the device stores its bytes and changes no other. -/
theorem State.devWrite_stored {s : State} {q : List Instr} (hs : s.Good q) {f : Nat → Byte} {a : Nat} {data : List Byte} (p : Bool)
    (hf : ∀ j, j < data.length → data.getD j 0 = f (a + j)) :
    Stored f (fun x => (a ≤ x ∧ x < a + data.length) ∧ inPadWindow x = false) s (s.devWrite a data p) := by
  have hmem : ∀ x k i b t l, dpaLoc x = .mem k i b t l → inPadWindow x = false := fun x k i b t l hl => by
    have := dpaLoc_mem_lt hl
    unfold inPadWindow
    simp only [Bool.and_eq_false_iff, decide_eq_false_iff_not]
    omega
  have hparts := Stored.forAll_parts (q := q) (f := f) (fun (r : Nat × Nat × Nat) x => (r.1 ≤ x ∧ x < r.1 + r.2.2) ∧ inPadWindow r.1 = false)
    (fun p' t => if inPadWindow p'.1 then t else
      forAll (sectorParts p'.1 p'.2.2) (fun q u => u.dpaPutIn q.1 ((data.drop (p'.2.1 + q.2.1)).take q.2.2) p) (t.touch p'.1 p'.2.2 true false))
    (requestParts a data.length) (fun r hr t ht => ?_) hs
  · refine hparts.1.congr fun x => ⟨?_, ?_⟩
    · rintro ⟨r, hr, hx, hpad⟩
      have hpart := blockParts_part (w := 256) (by decide) hr
      have := hpart.low
      have := hpart.high
      have := hpart.block
      exact ⟨⟨by omega, by omega⟩, inPadWindow_block hx.1 (by omega) hpad⟩
    · rintro ⟨hx, hpad⟩
      obtain ⟨r, hr, hin⟩ := blockParts_cover (w := 256) (by decide) hx
      have hpart := blockParts_part (w := 256) (by decide) hr
      have := hpart.block
      refine ⟨r, hr, hin, ?_⟩
      unfold inPadWindow at hpad ⊢
      simp only [Bool.and_eq_false_iff, decide_eq_false_iff_not] at hpad ⊢
      omega
  · have hpart := blockParts_part (w := 256) (by decide) hr
    by_cases hpad : inPadWindow r.1 = true
    · rw [if_pos hpad]
      refine ⟨(Stored.refl t).congr fun x => ⟨False.elim, fun h => ?_⟩, ht⟩
      rw [hpad] at h
      exact absurd h.2 (by simp)
    · rw [if_neg hpad]
      have htouch := State.touch_stored (f := f) (State.good_iff q t |>.mp ht).1.mem r.1 r.2.2 true
      have hgood := t.touch_good r.1 r.2.2 true false ht
      have hstep : ∀ v ∈ sectorParts r.1 r.2.2, ∀ u : State, u.Good q →
          Stored f (fun x => v.1 ≤ x ∧ x < v.1 + v.2.2) u (u.dpaPutIn v.1 ((data.drop (r.2.1 + v.2.1)).take v.2.2) p)
            ∧ (u.dpaPutIn v.1 ((data.drop (r.2.1 + v.2.1)).take v.2.2) p).Good q := fun v hv u hu => by
        have hsub := blockParts_part (w := 64) (by decide) hv
        have hlow := hsub.low
        have hhigh := hsub.high
        have hblock := hsub.block
        have hoff := hsub.off
        have hlow' := hpart.low
        have hhigh' := hpart.high
        have hoff' := hpart.off
        have hlen : ((data.drop (r.2.1 + v.2.1)).take v.2.2).length = v.2.2 := by rw [List.length_take, List.length_drop]; omega
        have hst := State.dpaPutIn_stored (s := u) (f := f) (State.good_iff q u |>.mp hu).1.cache (a := v.1) (data := (data.drop (r.2.1 + v.2.1)).take v.2.2) p
          (by rw [hlen]; omega) (fun j hj => by
            rw [hlen] at hj
            rw [List.getD_take_drop _ hj, hf _ (by omega)]
            congr 1
            omega)
        rw [hlen] at hst
        exact ⟨hst, u.dpaPutIn_good _ _ _ hu⟩
      obtain ⟨hput, hgood'⟩ := Stored.forAll_parts (f := f) (fun (v : Nat × Nat × Nat) x => v.1 ≤ x ∧ x < v.1 + v.2.2)
        (fun v u => u.dpaPutIn v.1 ((data.drop (r.2.1 + v.2.1)).take v.2.2) p) (sectorParts r.1 r.2.2) hstep hgood
      refine ⟨(htouch.trans hput).congr fun x => ⟨?_, ?_⟩, hgood'⟩
      · rintro (h | ⟨v, hv, hx⟩)
        · exact h.elim
        · have hsub := blockParts_part (w := 64) (by decide) hv
          have := hsub.low
          have := hsub.high
          exact ⟨⟨by omega, by omega⟩, by simpa using hpad⟩
      · rintro ⟨hx, -⟩
        exact Or.inr (blockParts_cover (w := 64) (by decide) hx)

end Sys2Proof.Machine
end

section
/-! SUPPORT. Accesses of the aperture (R201, R214, R379, R381, R397). -/

namespace Sys2Proof.Machine

theorem State.aperFill_looked (s : State) (c va n : Nat) : Looked c s (s.aperFill c va n) :=
  .forAll _ _ (fun _ t => t.fillTlb_looked c _) s

theorem State.aperTouch_looked (s : State) (c va n : Nat) : Looked c s (s.aperTouch c va n) := by
  refine .forAll _ _ (fun p t => ?_) s
  split
  · exact .refl c t
  · exact t.devTouch_looked c _ _

/-- What the pages of a host write store: stacks alone, none of their registers but those of the stacks. -/
theorem State.aperStore_frame (s : State) (c va : Nat) (data : List Byte) :
    (s.aperStore c va data).ctxs = s.ctxs ∧ keepsOthers s (s.aperStore c va data) := by
  refine forAll_induct (P := fun t : State => t.ctxs = s.ctxs ∧ keepsOthers s t) (fun p t h => ?_) _ ⟨rfl, .refl s⟩
  obtain ⟨hctxs, hregs⟩ := h
  split
  · exact ⟨hctxs, hregs⟩
  · exact ⟨(t.devWrite_keeps _ _ _).1.trans hctxs, hregs.trans (t.devWrite_others _ _ _)⟩

/-- One byte written stands at the address that the context address translates to. -/
theorem State.aperStore_byte {z : State} {q : List Instr} (hz : z.Good q) {c va a k i bd t l : Nat} {b : Byte} (hx : z.aperXlate c va true = some a)
    (hl : dpaLoc a = .mem k i bd t l) (hok : z.memOk k bd t = true) : ((z.aperStore c va [b]).dpaByte a).1 = b := by
  have hpieces : pagePieces va 1 = [(va, 1)] := by
    have hlast : (va / 65536 + 1) * 65536 = va / 65536 * 65536 + 65536 := Nat.succ_mul _ _
    unfold pagePieces
    rw [if_neg (by decide), show va + 1 - 1 = va by omega, show va / 65536 - va / 65536 + 1 = 1 by omega]
    show [(max va ((va / 65536 + 0) * 65536), min (va + 1) ((va / 65536 + 0 + 1) * 65536) - max va ((va / 65536 + 0) * 65536))] = _
    rw [Nat.add_zero, show max va (va / 65536 * 65536) = va by omega, show min (va + 1) ((va / 65536 + 1) * 65536) - va = 1 by omega]
  have hrun : z.aperStore c va [b] = z.devWrite a [b] false := by
    unfold State.aperStore
    rw [List.length_singleton, hpieces]
    simp only [forAll, List.foldl_cons, List.foldl_nil, hx, Nat.sub_self, List.drop_zero]
    rfl
  have hstored := State.devWrite_stored hz (f := fun _ => b) (a := a) (data := [b]) false fun j hj => by
    rw [List.length_singleton] at hj
    rw [show j = 0 by omega]
    rfl
  have hpad : inPadWindow a = false := by
    have := dpaLoc_mem_lt hl
    unfold inPadWindow
    simp only [Bool.and_eq_false_iff, decide_eq_false_iff_not]
    omega
  rw [hrun]
  exact hstored.inside a ⟨⟨Nat.le_refl a, by rw [List.length_singleton]; omega⟩, hpad⟩ k i bd t l hl hok

section
variable {s : State} {portB : Bool} {c off : Nat} (hc : c < 1024) (hb : (s.ctx c).boundB = portB) (hp : s.portUsable portB = true)
include hc hb hp

theorem execApertureAccess_read {len : Nat} (hoff : off + len ≤ 2 ^ 32)
    (hok : (s.cWrap c Off.CTX_BYTES_PCIE 63 0 len).aperOk c (s.aperAddr c off) len false = true) :
    execApertureAccess portB c off (.read len) s
      = .next (((s.cWrap c Off.CTX_BYTES_PCIE 63 0 len).aperFill c (s.aperAddr c off) len).aperTouch c (s.aperAddr c off) len) := by
  unfold execApertureAccess
  rw [if_pos ⟨hc, hb, hp, hoff⟩]
  exact if_pos hok

theorem execApertureAccess_write {data : List Byte} (hoff : off + data.length ≤ 2 ^ 32)
    (hok : (s.cWrap c Off.CTX_BYTES_PCIE 63 0 data.length).aperOk c (s.aperAddr c off) data.length true = true) :
    execApertureAccess portB c off (.write data) s
      = .next (((s.cWrap c Off.CTX_BYTES_PCIE 63 0 data.length).aperFill c (s.aperAddr c off) data.length).aperStore c (s.aperAddr c off) data) := by
  unfold execApertureAccess
  rw [if_pos ⟨hc, hb, hp, hoff⟩]
  exact if_pos hok

theorem execApertureAccess_misses {op : AperOp} (hoff : off + aperBytes op ≤ 2 ^ 32)
    (hno : (s.cWrap c Off.CTX_BYTES_PCIE 63 0 (aperBytes op)).aperOk c (s.aperAddr c off) (aperBytes op) (aperWrites op) = false) :
    execApertureAccess portB c off op s = .next ((s.cWrap c Off.CTX_BYTES_PCIE 63 0 (aperBytes op)).cSat c Off.CTX_APERTURE 47 16 1) := by
  unfold execApertureAccess
  rw [if_pos ⟨hc, hb, hp, hoff⟩]
  exact if_neg (by rw [hno]; simp)

end

/-- Settles O44: the access is counted, passes as the device's own where it reaches memory, and only counts where it does not. -/
theorem apertureAccessReachesContextMemory : Obligations.ApertureAccessReachesContextMemory := by
  intro s portB c off op hc hb hp hoff va s0
  have hgood : s.Inv → s0.Good s.pending := fun h => s.cWrap_good c _ 63 0 _ ((State.good_iff _ s).mpr ⟨h, rfl⟩)
  refine ⟨?_, fun len ho hok => ?_, fun data ho hok => ?_, fun hno => ?_⟩
  · refine (State.reg_wrap64 s _ _).trans (BitVec.eq_of_toNat_eq ?_)
    simp
  · subst ho
    refine ⟨_, execApertureAccess_read hc hb hp hoff hok, (s0.aperFill_looked c va len).trans (State.aperTouch_looked _ c va len)⟩
  · subst ho
    have hfill := s0.aperFill_looked c va data.length
    obtain ⟨hctxs, hregs⟩ := (s0.aperFill c va data.length).aperStore_frame c va data
    refine ⟨_, execApertureAccess_write hc hb hp hoff hok, s0.aperFill c va data.length, hfill, rfl, hctxs, fun o ho => ?_, fun b a k i bd t l hd hinv hx hl hmem => ?_⟩
    · obtain ⟨-, -, -, -, hreg⟩ := hfill
      exact (hregs _ (offStacks_ctxA c o)).trans (hreg c o hc ho)
    · subst hd
      exact State.aperStore_byte (s0.aperFill_good c va _ (hgood hinv)) hx hl hmem
  · refine ⟨_, execApertureAccess_misses hc hb hp hoff hno, ?_, (onlyRegs.wrap s _ 63 0 _).trans (onlyRegs.sat _ _ 47 16 1), ?_⟩
    · refine (State.rf_sat_self s0 _ 47 16 1 (by decide) (by decide)).trans ?_
      have hback : s0.reg (ctxA c Off.CTX_APERTURE) = s.reg (ctxA c Off.CTX_APERTURE) :=
        s.reg_cWrap_other c 63 0 _ (by decide) (by decide) (by decide)
      rw [State.rf_eq, hback]
      rfl
    · have h1 : sameRegsBut [ctxA c Off.CTX_BYTES_PCIE, ctxA c Off.CTX_APERTURE] s s0 :=
        ((sameRegsBut.refl _ s).wf (List.mem_cons_self) 63 0 _).of_regs rfl
      exact h1.sat (List.mem_cons_of_mem _ List.mem_cons_self) 47 16 1

end Sys2Proof.Machine
end

section
/-! SUPPORT. Dormer sites behind Flashing (R333 to R337). -/

namespace Sys2Proof.Machine

/-! ## Writes sector by sector -/

/-- Of the machine memories alone differ, with what slices hold and what is poisoned. -/
def onlyBytes (s t : State) : Prop :=
  t = { s with mem := t.mem, poison := t.poison, upsets := t.upsets, cache := t.cache, scratch := t.scratch, scratchPoison := t.scratchPoison }

theorem onlyBytes.refl (s : State) : onlyBytes s s := rfl

theorem onlyBytes.trans {s t u : State} (h : onlyBytes s t) (g : onlyBytes t u) : onlyBytes s u := by
  unfold onlyBytes at *
  rw [g, h]

theorem State.putSector_bytes (s : State) (t q : Nat) (d : List Byte) (p : Bool) : onlyBytes s (s.putSector t q d p) := by
  unfold State.putSector
  split <;> rfl

theorem onlyPads.bytes {s t : State} (h : onlyPads s t) : onlyBytes s t := by
  unfold onlyPads at h
  rw [h]
  rfl

theorem State.dpaPutIn_bytes (s : State) (a : Nat) (data : List Byte) (p : Bool) : onlyBytes s (s.dpaPutIn a data p) := by
  unfold State.dpaPutIn
  split
  · split
    · exact s.putSector_bytes _ _ _ _
    · rfl
  · exact (s.padWrite_only _ _ _ _).bytes
  · rfl

theorem dpaPutLoop_bytes (p : Bool) (fuel a : Nat) (data : List Byte) (s : State) : onlyBytes s (dpaPutLoop p fuel a data s) := by
  induction fuel generalizing a data s with
  | zero => exact .refl s
  | succ n ih =>
    unfold dpaPutLoop
    split
    · exact .refl s
    · exact (s.dpaPutIn_bytes _ _ _).trans (ih _ _ _)

theorem State.dpaWrite_bytes (s : State) (a : Nat) (data : List Byte) (p : Bool) : onlyBytes s (s.dpaWrite a data p) := dpaPutLoop_bytes p _ a data s

/-- With as many steps as there are sectors, all bytes are stored. -/
theorem dpaPutLoop_stored {f : Nat → Byte} {q : List Instr} (p : Bool) (fuel : Nat) : ∀ (a : Nat) (data : List Byte) (s : State), s.Good q →
    a % 64 + data.length ≤ 64 * fuel → (∀ j, j < data.length → data.getD j 0 = f (a + j)) →
    Stored f (fun x => a ≤ x ∧ x < a + data.length) s (dpaPutLoop p fuel a data s) := by
  induction fuel with
  | zero =>
    intro a data s _ hlen _
    exact (Stored.refl s).congr fun x => ⟨False.elim, fun h => by omega⟩
  | succ n ih =>
    intro a data s hs hlen hf
    unfold dpaPutLoop
    split
    · exact (Stored.refl s).congr fun x => ⟨False.elim, fun h => by rw [List.length_nil] at h; omega⟩
    · have htake : (data.take (64 - a % 64)).length = min (64 - a % 64) data.length := List.length_take
      have hdrop : (data.drop (64 - a % 64)).length = data.length - (64 - a % 64) := List.length_drop
      have hput := State.dpaPutIn_stored (f := f) (State.good_iff q s |>.mp hs).1.cache (a := a) (data := data.take (64 - a % 64)) p (by omega) fun j hj => by
        rw [← hf j (by omega), List.getD_eq_getElem?_getD, List.getElem?_take, if_pos (by omega), ← List.getD_eq_getElem?_getD]
      have hrest := ih (a + (64 - a % 64)) (data.drop (64 - a % 64)) _ (s.dpaPutIn_good a (data.take (64 - a % 64)) p hs) (by omega) fun j hj => by
        rw [List.getD_eq_getElem?_getD, List.getElem?_drop, ← List.getD_eq_getElem?_getD, hf _ (by omega)]
        congr 1
        omega
      refine (hput.trans hrest).congr fun x => ?_
      omega

/-- A write stores its bytes and changes no other. -/
theorem State.dpaWrite_stored {s : State} {q : List Instr} (hs : s.Good q) {f : Nat → Byte} {a : Nat} {data : List Byte} (p : Bool)
    (hf : ∀ j, j < data.length → data.getD j 0 = f (a + j)) : Stored f (fun x => a ≤ x ∧ x < a + data.length) s (s.dpaWrite a data p) :=
  dpaPutLoop_stored p _ a data s hs (by omega) hf

/-! ## Violations (R337) -/

theorem offStacks_block {d b off : Nat} (hb : 0 < b) (hb' : b < 64) (ho : off < 2 ^ 12) : offStacks (bar0 d b off) := by
  rintro r ⟨t, ht, o, ho', rfl⟩
  have ho2 : o < 2 ^ 12 := (by decide : ∀ o ∈ stackOffs, o < 2 ^ 12) o ho'
  have hd : ∀ t < 16, thatchDie t < 63 := by decide
  have := hd t ht
  rw [homeAddr_bar0 ho (by omega), homeAddr_bar0 ho2 (by omega)]
  unfold bar0
  omega

/-- The registers of the event log of the physical function. -/
def pfLogOffs : List Nat := [Off.PF_EVLOG_BASE, Off.PF_EVLOG_BASE + 8, Off.PF_EVLOG_BASE + 16, Off.PF_EVLOG_BASE + 24]

/-- A record in the log of the physical function writes the registers of the log and of the stacks alone. -/
theorem State.evlogPut_pf_reg (s : State) (r : List Nat) {a : Nat} (h1 : offStacks a) (h2 : a % 2 ^ 12 ∉ pfLogOffs) : (s.evlogPut .pf r).reg a = s.reg a := by
  have hne : ∀ k, k < 4 → a % 2 ^ 12 ≠ LogOf.pf.addr k % 2 ^ 12 := fun k hk e => h2 (by
    have hall : ∀ k < 4, LogOf.pf.addr k % 2 ^ 12 ∈ pfLogOffs := by decide
    rw [e]; exact hall k hk)
  have sat : ∀ (u : State) k hi lo n, k < 4 → (u.sat (LogOf.pf.addr k) hi lo n).reg a = u.reg a := fun u k hi lo n hk => u.reg_sat_of_mod hi lo n (hne k hk)
  have wrap : ∀ (u : State) k hi lo n, k < 4 → (u.wrap (LogOf.pf.addr k) hi lo n).reg a = u.reg a := fun u k hi lo n hk =>
    u.reg_setReg_ne _ (homeAddr_ne_of_mod (hne k hk))
  unfold State.evlogPut
  dsimp only
  split
  · exact sat s 3 31 0 1 (by decide)
  · rw [wrap _ 2 31 0 1 (by decide), State.devWrite_others _ _ _ _ a h1]
    split
    · rw [sat _ 3 31 0 1 (by decide), wrap _ 2 63 32 1 (by decide)]
    · rfl

/-- A violation is counted with its kind and address, and raises VIOLATION. -/
theorem State.violation_spec (s : State) (i : Nat) {kind : Nat} (addr : Nat) (hk : kind < 8) :
    let z := s.violation i kind addr
    z.rf (dmrReg i Off.DMR_VIOL) 31 0 = satPlus 32 (s.rf (dmrReg i Off.DMR_VIOL) 31 0) 1 ∧ z.rf (dmrReg i Off.DMR_VLAST) 2 0 = kind
      ∧ z.rf (dmrReg i Off.DMR_VLAST) 50 3 = addr % 2 ^ 48 ∧ z.rf (bar0 (siteDie i) 0x30 Off.PG_IRQ_RAW) 0 0 = 1 ∧ z.sites = s.sites ∧ z.ctxs = s.ctxs
      ∧ ∀ off ∈ [Off.DMR_CTL, Off.DMR_STS], z.reg (dmrReg i off) = s.reg (dmrReg i off) := by
  obtain ⟨s1, h1⟩ : ∃ s1, s1 = s.sat (dmrReg i Off.DMR_VIOL) 31 0 1 := ⟨_, rfl⟩
  obtain ⟨s2, h2⟩ : ∃ s2, s2 = s1.wf (dmrReg i Off.DMR_VLAST) 2 0 kind := ⟨_, rfl⟩
  obtain ⟨s3, h3⟩ : ∃ s3, s3 = s2.wf (dmrReg i Off.DMR_VLAST) 50 3 (addr % 2 ^ 48) := ⟨_, rfl⟩
  obtain ⟨s4, h4⟩ : ∃ s4, s4 = s3.evlogPut .pf [s.now, kind + i * 8 + addr % 2 ^ 48 * 16, 0, 1] := ⟨_, rfl⟩
  have hz : s.violation i kind addr = s4.raisePg (siteDie i) 0x30 0 := by
    rw [h4, h3, h2, h1, State.violation]
  have hlog : onlyStacks s3 s4 := by rw [h4]; exact s3.evlogPut_stacks _ _
  have hraise := s4.raisePg_core (siteDie i) 0x30 0
  have hreg : ∀ off, off < 2 ^ 12 → off ∉ pfLogOffs → off ≠ Off.PG_IRQ_RAW → off ≠ Off.PG_IRQ_EN →
      (s4.raisePg (siteDie i) 0x30 0).reg (dmrReg i off) = s3.reg (dmrReg i off) := fun off ho hl hr he => by
    have hm : dmrReg i off % 2 ^ 12 = off := dmrReg_mod i ho
    rw [State.reg_raisePg _ _ _ _ (by rw [hm]; exact hr) (by rw [hm]; exact he), h4]
    exact State.evlogPut_pf_reg _ _ (offStacks_block (by decide) (by decide) ho) (by rw [hm]; exact hl)
  have honly : onlyRegs s s3 := by
    rw [h3, h2, h1]
    exact ((onlyRegs.sat _ _ _ _ _).trans (onlyRegs.wf _ _ _ _ _)).trans (onlyRegs.wf _ _ _ _ _)
  have hsites : s3.sites = s.sites := (congrArg State.sites honly :)
  have hctxs : s3.ctxs = s.ctxs := (congrArg State.ctxs honly :)
  rw [hz]
  refine ⟨?_, ?_, ?_, State.raisePg_bit _ _ _ (by decide), ?_, ?_, fun off ho => ?_⟩
  · rw [State.rf_eq, hreg _ (by decide) (by decide) (by decide) (by decide), h3,
      State.reg_wf_of_mod _ _ _ _ (by rw [dmrReg_mod i (by decide), dmrReg_mod i (by decide)]; decide), h2,
      State.reg_wf_of_mod _ _ _ _ (by rw [dmrReg_mod i (by decide), dmrReg_mod i (by decide)]; decide), h1]
    exact s.rf_sat_self _ 31 0 1 (by decide) (by decide)
  · rw [State.rf_eq, hreg _ (by decide) (by decide) (by decide) (by decide), h3, ← State.rf_eq,
      State.rf_wf_below _ _ 50 3 _ 2 0 (by decide) (by decide) (by decide) (by decide), h2]
    exact (s1.rf_wf_self _ 2 0 kind (by decide) (by decide)).trans (Nat.mod_eq_of_lt hk)
  · rw [State.rf_eq, hreg _ (by decide) (by decide) (by decide) (by decide), h3]
    exact (s2.rf_wf_self _ 50 3 _ (by decide) (by decide)).trans (Nat.mod_mod_of_dvd _ (dvd_refl _))
  · rw [show (s4.raisePg (siteDie i) 0x30 0).sites = s4.sites from (congrArg State.sites hraise :),
      show s4.sites = s3.sites from (congrArg State.sites hlog :), hsites]
  · rw [State.raisePg_ctxs, h4, State.evlogPut_ctxs, hctxs]
  · have hoff : off < 2 ^ 12 ∧ off ∉ pfLogOffs ∧ off ≠ Off.PG_IRQ_RAW ∧ off ≠ Off.PG_IRQ_EN ∧ off ≠ Off.DMR_VLAST ∧ off ≠ Off.DMR_VIOL :=
      (by decide : ∀ off ∈ [Off.DMR_CTL, Off.DMR_STS], off < 2 ^ 12 ∧ off ∉ pfLogOffs ∧ off ≠ Off.PG_IRQ_RAW ∧ off ≠ Off.PG_IRQ_EN ∧ off ≠ Off.DMR_VLAST
        ∧ off ≠ Off.DMR_VIOL) off ho
    obtain ⟨o1, o2, o3, o4, o5, o6⟩ := hoff
    have hm : dmrReg i off % 2 ^ 12 = off := dmrReg_mod i o1
    rw [hreg off o1 o2 o3 o4, h3, State.reg_wf_of_mod _ _ _ _ (by rw [hm, dmrReg_mod i (by decide)]; exact o5), h2,
      State.reg_wf_of_mod _ _ _ _ (by rw [hm, dmrReg_mod i (by decide)]; exact o5), h1,
      State.reg_sat_of_mod _ _ _ _ (by rw [hm, dmrReg_mod i (by decide)]; exact o6)]

/-! ## Requests -/

theorem State.flashing_bad_lt {s : State} {i : Nat} {r : GuestReq} {k a : Nat} (h : s.flashing i r = .bad k a) : k < 8 := by
  have hspan : ∀ p : Nat × Nat, ∀ hit : List Window, (match hit.find? fun w => w.permits r with
      | some w => Judged.memory (w.dpa + (p.1 - w.base))
      | none => .bad (if hit = [] then 1 else 2) p.1) = .bad k a → k < 8 := fun p hit h => by
    split at h
    · cases h
    · rw [Judged.bad.injEq] at h
      rw [← h.1]
      split <;> decide
  unfold State.flashing at h
  cases r with
  | register =>
    dsimp only at h
    split at h
    · cases h
    · rw [Judged.bad.injEq] at h; omega
  | frame =>
    dsimp only at h
    split at h
    · cases h
    · rw [Judged.bad.injEq] at h; omega
  | read => exact hspan _ _ h
  | write => exact hspan _ _ h
  | atomic => exact hspan _ _ h

/-- A blocked request leaves its violation, and poison where an answer is due. -/
theorem State.block_spec (s : State) (i : Nat) (r : GuestReq) {k : Nat} (a : Nat) (hk : k < 8) :
    let u := s.block i r k a
    u.rf (dmrReg i Off.DMR_VIOL) 31 0 = satPlus 32 (s.rf (dmrReg i Off.DMR_VIOL) 31 0) 1 ∧ u.rf (dmrReg i Off.DMR_VLAST) 2 0 = k
      ∧ u.rf (dmrReg i Off.DMR_VLAST) 50 3 = a % 2 ^ 48 ∧ u.rf (bar0 (siteDie i) 0x30 Off.PG_IRQ_RAW) 0 0 = 1
      ∧ (∀ at_ n, r = .read at_ n → (u.site i).answers = (s.site i).answers ++ [none])
      ∧ (∀ at_ d, r = .write at_ d → u.site i = s.site i) ∧ u.ctxs = s.ctxs := by
  obtain ⟨h1, h2, h3, h4, hsites, hctxs, -⟩ := s.violation_spec i a hk
  obtain ⟨z, hz⟩ : ∃ z, z = s.violation i k a := ⟨_, rfl⟩
  rw [← hz] at h1 h2 h3 h4 hsites hctxs
  have hsite : z.site i = s.site i := by rw [State.site, hsites, State.site]
  have hblock : s.block i r k a = z ∨ (s.block i r k a = z.answer i none ∧ ∀ at_ d, r ≠ .write at_ d) := by
    unfold State.block
    rw [← hz]
    cases r with
    | read => exact Or.inr ⟨rfl, fun _ _ => by simp⟩
    | write => exact Or.inl rfl
    | atomic => exact Or.inr ⟨rfl, fun _ _ => by simp⟩
    | register die block off w v =>
      dsimp only
      split
      · exact Or.inl rfl
      · exact Or.inr ⟨rfl, fun _ _ => by simp⟩
    | frame => exact Or.inl rfl
  have hread : ∀ at_ n, r = .read at_ n → s.block i r k a = z.answer i none := fun at_ n hr => by rw [hz, hr]; rfl
  rcases hblock with hu | ⟨hu, hw⟩
  · refine ⟨by rw [hu]; exact h1, by rw [hu]; exact h2, by rw [hu]; exact h3, by rw [hu]; exact h4, fun at_ n hr => ?_, fun _ _ _ => by rw [hu]; exact hsite,
      by rw [hu]; exact hctxs⟩
    rw [hread at_ n hr, State.answer, State.site_modSite_self, hsite]
  · refine ⟨by rw [hu]; exact h1, by rw [hu]; exact h2, by rw [hu]; exact h3, by rw [hu]; exact h4, fun at_ n hr => ?_, fun at_ d hr => absurd hr (hw at_ d),
      by rw [hu]; exact hctxs⟩
    rw [hu, State.answer, State.site_modSite_self, hsite]

/-- The state in which an admitted request is served: its tokens are taken. -/
def State.taken (s : State) (i : Nat) (r : GuestReq) : State :=
  s.modSite i fun x => { x with bucket := s.guestTokens i - reqBytes r, bucketAt := s.now }

/-- What a slice and the route to it are does not follow the sites. -/
theorem State.modSite_sees (s : State) (i : Nat) (f : Site → Site) : (∀ j r, (s.modSite i f).flashing j r = s.flashing j r)
    ∧ (∀ d a, (s.modSite i f).reach d a = s.reach d a) ∧ (s.modSite i f).mgr = s.mgr := ⟨fun _ _ => rfl, fun _ _ => rfl, rfl⟩

section
variable {s : State} {i : Nat} (hon : s.siteOn i = true) (hp : s.pwrgd = true)
include hon hp

theorem execGuestRequest_bad {r : GuestReq} {k a : Nat} (h : s.flashing i r = .bad k a) : execGuestRequest i r s = .next (s.block i r k a) := by
  unfold execGuestRequest
  rw [if_neg (by rw [hon, hp]; simp), h]

theorem execGuestRequest_memory {r : GuestReq} {dpa : Nat} (h : s.flashing i r = .memory dpa) :
    execGuestRequest i r s = if (s.site i).waiting = [] ∧ s.guestOk i r then .next (s.admitGuest i r)
      else .next (s.modSite i fun x => { x with waiting := x.waiting ++ [r] }) := by
  unfold execGuestRequest
  rw [if_neg (by rw [hon, hp]; simp), h]

theorem execGuestRequest_network {r : GuestReq} {node : Nat} (h : s.flashing i r = .network node) (hw : (s.site i).waiting = []) (hok : s.guestOk i r = true) :
    execGuestRequest i r s = .next (s.admitGuest i r) := by
  unfold execGuestRequest
  rw [if_neg (by rw [hon, hp]; simp), h]
  exact if_pos ⟨hw, hok⟩

end

/-- A run within a block of 256 bytes is one request. -/
theorem splitRun_block {a n : Nat} (h : a % 256 + n ≤ 256) (h0 : 0 < n) (f : Nat) : splitRun (f + 2) a n 0 = [⟨a, n, 0⟩] := by
  rw [splitRun, if_neg (by omega), show min n (256 - a % 256) = n by omega]
  dsimp only
  rw [splitRun, if_pos (Nat.sub_self n)]

theorem State.reach_ok {s : State} {d a t l : Nat} (h : s.reach d a = .ok t l) : ∃ k i b, dpaLoc a = .mem k i b t l ∧ s.memOk k b t = true := by
  unfold State.reach at h
  split at h
  · next k i b t' l' hl =>
    split at h
    · cases h
    · next hk =>
      split at h
      · next hal =>
        rw [Reach.ok.injEq] at h
        obtain ⟨rfl, rfl⟩ := h
        refine ⟨k, i, b, hl, ?_⟩
        rw [State.memOk, Bool.and_eq_true, decide_eq_true_eq]
        exact ⟨Decidable.not_not.mp hk, hal.1⟩
      · cases h
  · cases h
  · cases h

section
variable {s : State} {i : Nat} {dpa : Nat}

theorem State.admitGuest_read {at_ n : Nat} (hf : s.flashing i (.read at_ n) = .memory dpa) (hblock : dpa % 256 + n ≤ 256) (h0 : 0 < n) :
    s.admitGuest i (.read at_ n) =
      let v := s.taken i (.read at_ n)
      let w := v.guestTouch dpa n false false
      w.1.answer i (if (w.1.devRead dpa n).2 || !w.2 then none else some (w.1.devRead dpa n).1) := by
  have hserve : (s.taken i (.read at_ n)).serveGuest i (.read at_ n) = (s.taken i (.read at_ n)).guestRead i dpa n := by
    unfold State.serveGuest
    rw [State.taken, (s.modSite_sees i _).1, hf]
  rw [State.admitGuest, ← State.taken, hserve, State.guestRead, splitRun_block hblock h0]
  simp only [forAll, List.foldl_cons, List.foldl_nil, List.any_cons, List.any_nil, Bool.or_false]

theorem State.admitGuest_write {at_ : Nat} {d : List Byte} (hf : s.flashing i (.write at_ d) = .memory dpa) (hblock : dpa % 256 + d.length ≤ 256)
    (h0 : 0 < d.length) :
    s.admitGuest i (.write at_ d) =
      let w := (s.taken i (.write at_ d)).guestTouch dpa d.length true false
      if w.2 then w.1.dpaWrite dpa d false else w.1 := by
  have hserve : (s.taken i (.write at_ d)).serveGuest i (.write at_ d) = (s.taken i (.write at_ d)).guestWrite dpa d := by
    unfold State.serveGuest
    rw [State.taken, (s.modSite_sees i _).1, hf]
  rw [State.admitGuest, ← State.taken, hserve, State.guestWrite, splitRun_block hblock h0]
  simp only [forAll, List.foldl_cons, List.foldl_nil, List.drop_zero, List.take_length]

theorem State.guestTouch_ok {t l : Nat} (h : s.reach s.mgr dpa = .ok t l) (n : Nat) (w a : Bool) : s.guestTouch dpa n w a = (s.slice t l n w a, true) := by
  unfold State.guestTouch
  rw [h]

/-- A request that reaches no slice is counted where the manual says so, and memory stays. -/
theorem State.guestTouch_not (h : ∀ t l, s.reach s.mgr dpa ≠ .ok t l) (n : Nat) (w a : Bool) :
    (s.guestTouch dpa n w a).2 = false ∧ (s.guestTouch dpa n w a).1.sites = s.sites ∧ sameMemory s (s.guestTouch dpa n w a).1 := by
  unfold State.guestTouch
  split
  · next t l hr => exact absurd hr (h t l)
  · next t _ =>
    have h1 := s.sat_core (bar0 (thatchDie t) 0 Off.THC_WINDOW_ERR) 31 0 1
    dsimp only
    unfold State.windowErr
    generalize s.sat (bar0 (thatchDie t) 0 Off.THC_WINDOW_ERR) 31 0 1 = u at h1
    have h2 := h1.trans (u.raisePg_core (thatchDie t) 0 2)
    exact ⟨rfl, (congrArg State.sites h2 :), h2.mem⟩
  · refine ⟨rfl, ?_, ?_⟩
    · dsimp only
      unfold State.unreach
      split
      · exact (congrArg State.sites (s.sat_core _ 63 32 1) :)
      · rfl
    · dsimp only
      unfold State.unreach
      split
      · exact (s.sat_core _ 63 32 1).mem
      · exact (sameCore.refl s).mem
  · exact ⟨rfl, rfl, (sameCore.refl s).mem⟩

end

/-- A guest read within a block passes its slice, and answers what stands in memory then. -/
theorem State.guestRead_spec {s : State} {i dpa at_ n t l : Nat} (hf : s.flashing i (.read at_ n) = .memory dpa) (hblock : dpa % 256 + n ≤ 256)
    (h0 : 0 < n) (hr : s.reach s.mgr dpa = .ok t l) :
    let u := s.admitGuest i (.read at_ n)
    ∃ z : State, Looked 0 s z ∧ z.ctxs = s.ctxs ∧ u = { z with sites := u.sites }
      ∧ u.site i = { s.site i with bucket := s.guestTokens i - n, bucketAt := s.now,
                                   answers := (s.site i).answers ++ [if (z.devRead dpa n).2 then none else some (z.devRead dpa n).1] } := by
  obtain ⟨v, hv⟩ : ∃ v, v = s.taken i (.read at_ n) := ⟨_, rfl⟩
  have hsees := s.modSite_sees i fun x => { x with bucket := s.guestTokens i - n, bucketAt := s.now }
  have hreach : v.reach v.mgr dpa = .ok t l := by rw [hv]; exact hr
  have hvs : v = { s with sites := v.sites } := by rw [hv]; rfl
  have hvsite : v.site i = { s.site i with bucket := s.guestTokens i - n, bucketAt := s.now } := by rw [hv, State.taken, State.site_modSite_self]; rfl
  obtain ⟨hk, hi, hb, hl, -⟩ := State.reach_ok hr
  obtain ⟨w, hw⟩ : ∃ w, w = v.slice t l n false false := ⟨_, rfl⟩
  have hstacks : onlyStacks v w := by rw [hw]; exact v.slice_stacks t l n false false
  have hothers : keepsOthers v w := by rw [hw]; exact v.slice_others (dpaLoc_stack_lt hl) l n false false
  have hmem : keepsMem v w := by rw [hw]; exact v.slice_keepsMem t l n false
  have hctxs : w.ctxs = v.ctxs := by rw [hw]; exact (v.slice_keeps t l n false false).1
  have hu := State.admitGuest_read hf hblock h0
  rw [← hv] at hu
  dsimp only at hu
  rw [State.guestTouch_ok hreach, ← hw] at hu
  simp only [Bool.not_true, Bool.or_false] at hu
  obtain ⟨z, hz⟩ : ∃ z : State, z = { w with sites := s.sites } := ⟨_, rfl⟩
  have hzread : z.devRead dpa n = w.devRead dpa n := by rw [hz]; rfl
  have hzstacks : onlyStacks s z := by
    unfold onlyStacks at hstacks ⊢
    rw [hz, hstacks, hvs]
  have hwsite : w.site i = v.site i := by rw [State.site, show w.sites = v.sites from (congrArg State.sites hstacks :), State.site]
  refine ⟨z, hzstacks.looked (fun a ha => ?_) (fun hm => ?_) 0, by rw [hz]; exact hctxs.trans (by rw [hv]; rfl), ?_, ?_⟩
  · have hza : z.reg a = w.reg a := by rw [hz]; rfl
    have hva : v.reg a = s.reg a := by rw [hv]; rfl
    rw [hza, hothers a ha, hva]
  · have hzm : z.mem = w.mem := by rw [hz]
    have hvm : v.mem = s.mem := by rw [hv]; rfl
    rw [hzm, hmem (by rw [hvm]; exact hm), hvm]
  · rw [hu, hz]
    rfl
  · rw [hu, State.answer, State.site_modSite_self, hwsite, hvsite, hzread]

/-- A guest write within a block stands in memory, and no byte at another place changes. -/
theorem State.guestWrite_spec {s : State} {i dpa at_ t l : Nat} {d : List Byte} (hinv : s.Inv) (hf : s.flashing i (.write at_ d) = .memory dpa)
    (hblock : dpa % 256 + d.length ≤ 256) (h0 : 0 < d.length) (hr : s.reach s.mgr dpa = .ok t l) :
    let u := s.admitGuest i (.write at_ d)
    u.site i = { s.site i with bucket := s.guestTokens i - d.length, bucketAt := s.now }
      ∧ (∀ j, j < d.length → (u.dpaByte (dpa + j)).1 = d.getD j 0)
      ∧ (∀ b, (∀ j, j < d.length → dpaLoc b ≠ dpaLoc (dpa + j)) → (u.dpaByte b).1 = (s.dpaByte b).1) ∧ u.ctxs = s.ctxs := by
  obtain ⟨v, hv⟩ : ∃ v, v = s.taken i (.write at_ d) := ⟨_, rfl⟩
  have hreach : v.reach v.mgr dpa = .ok t l := by rw [hv]; exact hr
  have hvsite : v.site i = { s.site i with bucket := s.guestTokens i - d.length, bucketAt := s.now } := by rw [hv, State.taken, State.site_modSite_self]; rfl
  have hvbyte : ∀ a, v.dpaByte a = s.dpaByte a := fun a => by rw [hv]; rfl
  have hvgood : v.Good s.pending := by rw [hv]; exact s.modSite_good i _ ((State.good_iff _ s).mpr ⟨hinv, rfl⟩)
  obtain ⟨k, i', b, hl, hok⟩ := State.reach_ok hr
  obtain ⟨w, hw⟩ : ∃ w, w = v.slice t l d.length true false := ⟨_, rfl⟩
  have hstacks : onlyStacks v w := by rw [hw]; exact v.slice_stacks t l d.length true false
  have hctxs : w.ctxs = v.ctxs := by rw [hw]; exact (v.slice_keeps t l d.length true false).1
  have hwgood : w.Good s.pending := by rw [hw]; exact v.slice_good t l d.length true false hvgood
  have hu := State.admitGuest_write hf hblock h0
  rw [← hv] at hu
  dsimp only at hu
  rw [State.guestTouch_ok hreach, ← hw, if_pos rfl] at hu
  have hbytes := w.dpaWrite_bytes dpa d false
  have hpass : Stored (fun x => d.getD (x - dpa) 0) (fun _ => False) v w :=
    .of_sectors hstacks.reach (by rw [hw]; exact (v.slice_pass t l d.length true).sectors (State.good_iff _ v |>.mp hvgood).1.mem) (congrArg State.scratch hstacks :)
  have hstored := hpass.trans (State.dpaWrite_stored hwgood (f := fun x => d.getD (x - dpa) 0) (a := dpa) (data := d) false fun j _ => by
    rw [Nat.add_sub_cancel_left])
  rw [← hu] at hstored hbytes
  refine ⟨?_, fun j hj => ?_, fun b hb => ?_, ?_⟩
  · rw [State.site, show (s.admitGuest i (.write at_ d)).sites = w.sites from (congrArg State.sites hbytes :), show w.sites = v.sites from (congrArg State.sites hstacks :),
      ← State.site, hvsite]
  · have hokv : v.memOk k b t = true := by rw [hv]; exact hok
    refine (hstored.inside (dpa + j) (Or.inr (by omega)) _ _ _ _ _ (dpaLoc_add hl (by omega)) hokv).trans ?_
    rw [Nat.add_sub_cancel_left]
  · rw [hstored.outside b, hvbyte]
    rintro y (h | h)
    · exact h.elim
    · have := hb (y - dpa) (by omega)
      rwa [show dpa + (y - dpa) = y by omega] at this
  · rw [show (s.admitGuest i (.write at_ d)).ctxs = w.ctxs from (congrArg State.ctxs hbytes :), hctxs, hv]
    rfl

/-- A site that draws too much power is off, which is a violation. -/
theorem State.siteOff_spec {s : State} {i : Nat} (hon : s.siteOn i = true) :
    let z := s.siteOff i
    z.rf (dmrReg i Off.DMR_CTL) 0 0 = 0 ∧ z.rf (dmrReg i Off.DMR_STS) 0 0 = 1 ∧ (z.site i).waiting = [] ∧ z.reg (dmrReg i Off.DMR_VIOL) = s.reg (dmrReg i Off.DMR_VIOL) := by
  obtain ⟨s1, h1⟩ : ∃ s1, s1 = s.wf (dmrReg i Off.DMR_CTL) 0 0 0 := ⟨_, rfl⟩
  obtain ⟨s2, h2⟩ : ∃ s2, s2 = s1.wf (dmrReg i Off.DMR_STS) 0 0 1 := ⟨_, rfl⟩
  obtain ⟨s3, h3⟩ : ∃ s3, s3 = s2.modSite i fun x => { x with waiting := [] } := ⟨_, rfl⟩
  have hz : s.siteOff i = s3.raisePg (siteDie i) 0x30 1 := by rw [State.siteOff, if_pos hon, h3, h2, h1]
  have hregs : s3.regs = s2.regs := by rw [h3]; rfl
  have hreg : ∀ off, off < 2 ^ 12 → off ≠ Off.PG_IRQ_RAW → off ≠ Off.PG_IRQ_EN → (s3.raisePg (siteDie i) 0x30 1).reg (dmrReg i off) = s2.reg (dmrReg i off) := fun off ho hr he => by
    have hm : dmrReg i off % 2 ^ 12 = off := dmrReg_mod i ho
    rw [State.reg_raisePg _ _ _ _ (by rw [hm]; exact hr) (by rw [hm]; exact he), reg_of_regs hregs]
  rw [hz]
  refine ⟨?_, ?_, ?_, ?_⟩
  · rw [State.rf_eq, hreg _ (by decide) (by decide) (by decide), h2,
      State.reg_wf_of_mod _ _ _ _ (by rw [dmrReg_mod i (by decide), dmrReg_mod i (by decide)]; decide), ← State.rf_eq, h1,
      State.rf_wf_self _ _ 0 0 _ (by decide) (by decide)]
    rfl
  · rw [State.rf_eq, hreg _ (by decide) (by decide) (by decide), ← State.rf_eq, h2, State.rf_wf_self _ _ 0 0 _ (by decide) (by decide)]
    rfl
  · rw [State.site, show (s3.raisePg (siteDie i) 0x30 1).sites = s3.sites from (congrArg State.sites (s3.raisePg_core (siteDie i) 0x30 1) :), ← State.site, h3,
      State.site_modSite_self]
  · rw [hreg _ (by decide) (by decide) (by decide), h2, State.reg_wf_of_mod _ _ _ _ (by rw [dmrReg_mod i (by decide), dmrReg_mod i (by decide)]; decide), h1,
      State.reg_wf_of_mod _ _ _ _ (by rw [dmrReg_mod i (by decide), dmrReg_mod i (by decide)]; decide)]

theorem execOverpower_spec {s : State} {i : Nat} (hon : s.siteOn i = true) : Completes (.overpower i) s fun u =>
    u.siteOn i = false ∧ u.rf (dmrReg i Off.DMR_CTL) 0 0 = 0 ∧ (u.site i).waiting = [] ∧ u.rf (dmrReg i Off.DMR_VLAST) 2 0 = 5
      ∧ u.rf (dmrReg i Off.DMR_VIOL) 31 0 = satPlus 32 (s.rf (dmrReg i Off.DMR_VIOL) 31 0) 1 := by
  obtain ⟨hctl, hsts, hwait, hviol⟩ := State.siteOff_spec hon
  generalize hz : s.siteOff i = z at hctl hsts hwait hviol
  obtain ⟨v1, v2, -, -, hsites, -, hregs⟩ := z.violation_spec i (kind := 5) 0 (by decide)
  refine ⟨z.violation i 5 0, ?_, ?_, ?_, ?_, v2, ?_⟩
  · show execOverpower i s = _
    rw [execOverpower, if_pos hon, hz]
  · rw [State.siteOn, State.rf_eq, hregs Off.DMR_STS (by decide), ← State.rf_eq, hsts]
    rfl
  · rw [State.rf_eq, hregs Off.DMR_CTL (by decide), ← State.rf_eq, hctl]
  · rw [State.site, hsites, ← State.site, hwait]
  · rw [v1, State.rf_eq, hviol, ← State.rf_eq]

/-- A guest frame within a network window goes to the link of its node. -/
theorem State.admitGuest_frame {s : State} {i node : Nat} {d : List Byte} (hf : s.flashing i (.frame node d) = .network node)
    (hr : (Table.get? s.routes node).isSome = true) :
    s.admitGuest i (.frame node d)
      = (s.taken i (.frame node d)).enqueue (linkKey node) ⟨(s.taken i (.frame node d)).header node 7 8 0 i 0 d.length true, .raw d⟩ none := by
  obtain ⟨r, hr'⟩ := Option.isSome_iff_exists.mp hr
  have hroute : Table.get? (s.taken i (.frame node d)).routes node = some r := hr'
  rw [State.admitGuest, ← State.taken, State.serveGuest, State.taken, (s.modSite_sees i _).1, hf, ← State.taken]
  dsimp only
  rw [hroute]

/-- Settles O55: Flashing judges by the registers alone; a permitted request takes its tokens and is served at its slice. -/
theorem flashingGuardsTheSites : Obligations.FlashingGuardsTheSites := by
  intro s i _ hon hp
  refine ⟨fun r k a h => ⟨_, execGuestRequest_bad hon hp h, s.block_spec i r a (State.flashing_bad_lt h)⟩, fun r dpa h => ⟨fun hwait => ?_, fun hw hok hinv => ⟨?_, ?_⟩⟩,
    fun node d h hw hok hr => ?_, fun r rest hrest => ⟨fun hok => ?_, fun hok => ?_⟩, execOverpower_spec hon⟩
  · refine ⟨_, (execGuestRequest_memory hon hp h).trans (if_neg ?_), State.site_modSite_self s i _, rfl⟩
    rintro ⟨h1, h2⟩
    rcases hwait with h3 | h3
    · exact h3 h1
    · rw [h3] at h2; exact absurd h2 (by simp)
  · rintro at_ n rfl hblock h0
    intro answered
    have hrun := (execGuestRequest_memory hon hp h).trans (if_pos ⟨hw, hok⟩)
    refine ⟨fun ⟨t, l, hr⟩ => ⟨_, hrun, State.guestRead_spec h hblock h0 hr⟩, fun hno => ⟨_, hrun, ?_⟩⟩
    obtain ⟨v, hv⟩ : ∃ v, v = s.taken i (.read at_ n) := ⟨_, rfl⟩
    have hvsite : v.site i = { s.site i with bucket := s.guestTokens i - n, bucketAt := s.now } := by rw [hv, State.taken, State.site_modSite_self]; rfl
    obtain ⟨hfalse, hsites, hmem⟩ := State.guestTouch_not (s := v) (dpa := dpa) (by rw [hv]; exact hno) n false false
    have hu := State.admitGuest_read h hblock h0
    rw [← hv] at hu
    dsimp only at hu
    rw [hfalse, if_pos (by simp)] at hu
    rw [hu]
    refine ⟨?_, sameMemory.trans (t := v) (by rw [hv]; exact ⟨rfl, rfl, rfl, rfl, rfl, rfl⟩) hmem⟩
    rw [State.answer, State.site_modSite_self, State.site, hsites, ← State.site, hvsite]
  · rintro at_ d rfl hblock h0 ⟨t, l, hr⟩
    exact ⟨_, (execGuestRequest_memory hon hp h).trans (if_pos ⟨hw, hok⟩), State.guestWrite_spec hinv h hblock h0 hr⟩
  · obtain ⟨v, hv⟩ : ∃ v, v = s.taken i (.frame node d) := ⟨_, rfl⟩
    refine ⟨_, (execGuestRequest_network hon hp h hw hok).trans (by rw [State.admitGuest_frame h hr, ← hv]), ⟨v.header node 7 8 0 i 0 d.length true, .raw d⟩, ?_, rfl, rfl, rfl, rfl, ?_⟩
    · rw [State.enqueue]
      refine (congrArg LinkClass.txq (v.lc_modLc_self (linkKey node) 7 _)).trans ?_
      rw [hv]
      rfl
    · exact sameMemory.trans (t := v) (by rw [hv]; exact ⟨rfl, rfl, rfl, rfl, rfl, rfl⟩) ⟨rfl, rfl, rfl, rfl, rfl, rfl⟩
  · refine ⟨_, ?_, s.modSite i fun x => { x with waiting := rest }, rfl, State.site_modSite_self s i _, rfl⟩
    show execGuestAdmit i s = _
    unfold execGuestAdmit
    rw [hrest]
    exact if_pos hok
  · refine ⟨s, ?_, rfl⟩
    show execGuestAdmit i s = _
    unfold execGuestAdmit
    rw [hrest]
    exact if_neg (by rw [hok]; simp)

end Sys2Proof.Machine
end

section
/-! SUPPORT. Ligger engines: their registers, their jobs, and what the commands do to memory (R210 to R214, R224 to R227, R356, R358). -/

namespace Sys2Proof.Machine

/-! ## Engines -/

/-- The registers of an engine stand apart from those that accesses of stacks write. -/
theorem offStacks_lig {t n off : Nat} (hn : n < 4) (ho : off < 2 ^ 11) (h : 0x200 ≤ off) : offStacks (ligReg t n off) := by
  refine offStacks_of_mod fun hm => ?_
  have hmod : ligReg t n off % 2 ^ 12 = off + 0x40 * n := bar0_mod _ _ (by omega)
  have hall : ∀ o ∈ stackOffs, o < 0x200 := by decide
  have := hall _ (hmod ▸ hm)
  omega

theorem ligReg_mod {t n off : Nat} (hn : n < 4) (ho : off < 2 ^ 11) : ligReg t n off % 2 ^ 12 = off + 0x40 * n := bar0_mod _ _ (by omega)

/-- A command of an engine: it runs, it has its action to do, its die works. -/
theorem State.ligJob_some {s : State} {t n op : Nat} {j : LigJob} (h : s.ligJob t n op = some j) :
    Table.get? s.ligger (ligKey t n) = some j ∧ s.ligState t n = 1 ∧ j.done = false := by
  unfold State.ligJob at h
  split at h
  · next hc =>
    obtain ⟨hget, hp⟩ := Option.filter_eq_some_iff.mp h
    simp only [Bool.and_eq_true, decide_eq_true_eq, Bool.not_eq_true'] at hp
    exact ⟨hget, hc.2, hp.2⟩
  · cases h

/-- Of the engines' commands alone something differs. -/
def onlyLigger (s u : State) : Prop := u = { s with ligger := u.ligger }

theorem State.modLig_only (s : State) (t n : Nat) (f : LigJob → LigJob) : onlyLigger s (s.modLig t n f) := rfl

theorem State.get?_modLig {s : State} {t n : Nat} {j : LigJob} (h : Table.get? s.ligger (ligKey t n) = some j) (f : LigJob → LigJob) :
    Table.get? (s.modLig t n f).ligger (ligKey t n) = some (f j) := by
  unfold State.modLig
  rw [Table.get?_mapVals, h, Option.map_some, if_pos rfl]

/-! ## What a command leaves beside memory -/

/-- The commands of the engines and every register that accesses of stacks do not write stand as they were; contexts too. -/
structure Worked (s u : State) : Prop where
  ligger : u.ligger = s.ligger
  ctxs : u.ctxs = s.ctxs
  regs : keepsOthers s u

namespace Worked
variable {s t u : State}

theorem refl (s : State) : Worked s s := ⟨rfl, rfl, .refl s⟩

theorem trans (h : Worked s t) (g : Worked t u) : Worked s u := ⟨g.ligger.trans h.ligger, g.ctxs.trans h.ctxs, h.regs.trans g.regs⟩

theorem forAll {α : Type} (l : List α) (f : α → State → State) (hf : ∀ a s, Worked s (f a s)) (s : State) : Worked s (forAll l f s) :=
  forAll_induct (P := Worked s) (fun a t h => h.trans (hf a t)) l (refl s)

theorem ite (p : Prop) [Decidable p] (h : Worked s t) (g : Worked s u) : Worked s (if p then t else u) := by
  split
  · exact h
  · exact g

/-- The state of an engine and its counts. -/
theorem engineReg (h : Worked s u) {w n off : Nat} (hn : n < 4) (ho : off < 2 ^ 11) (h2 : 0x200 ≤ off) :
    u.reg (ligReg w n off) = s.reg (ligReg w n off) := h.regs _ (offStacks_lig hn ho h2)

end Worked

theorem State.devWrite_worked (s : State) (a : Nat) (d : List Byte) (p : Bool) : Worked s (s.devWrite a d p) :=
  ⟨(congrArg State.ligger (s.devWrite_stacks a d p) :), (s.devWrite_keeps a d p).1, s.devWrite_others a d p⟩

theorem State.touch_worked (s : State) (a n : Nat) (w al : Bool) : Worked s (s.touch a n w al) :=
  ⟨(congrArg State.ligger (s.touch_stacks a n w al) :), (s.touch_keeps a n w al).1, s.touch_others a n w al⟩

theorem onlyBytes.worked {s u : State} (h : onlyBytes s u) : Worked s u :=
  ⟨(congrArg State.ligger h :), (congrArg State.ctxs h :), .of_regs (congrArg State.regs h :)⟩

theorem State.ligPut_worked (s : State) (a : Nat) (d : List Byte) : Worked s (s.ligPut a d) := by
  unfold State.ligPut
  split
  · exact (s.dpaWrite_bytes a d false).worked
  · exact s.devWrite_worked a d false

theorem State.ligFill_worked (s : State) (l : List (Nat × Nat × Nat)) (f : Nat → Byte) : Worked s (s.ligFill l f) :=
  .forAll _ _ (fun _ u => u.devWrite_worked _ _ _) s

theorem State.ligTouch_worked (s : State) (l : List (Nat × Nat × Nat)) : Worked s (s.ligTouch l) :=
  .forAll _ _ (fun _ u => u.touch_worked _ _ _ _) s

theorem copyBlocks_worked (l : List (Nat × Nat × Nat)) (d : List Byte) (s : State) : Worked s (copyBlocks l d s) := by
  induction l generalizing d s with
  | nil => exact .refl s
  | cons p r ih => exact (s.ligPut_worked _ _).trans (ih _ _)

theorem State.enqueue_worked (s : State) (k : Nat) (f : Frame) (o : Option (Nat × Nat)) : Worked s (s.enqueue k f o) := ⟨rfl, rfl, .of_regs rfl⟩

theorem State.rewrite_worked (s : State) (l : List Nat) : Worked s (s.rewrite l) := by
  refine .forAll _ _ (fun a u => ?_) s
  split
  · split
    · split
      · exact ⟨rfl, rfl, .of_regs rfl⟩
      · exact .refl u
    · exact .refl u
  · exact .refl u

theorem State.rebuildPage_worked (s : State) (t c k node : Nat) (gen : BitVec 48) (j : LigJob) : Worked s (s.rebuildPage t c k node gen j) :=
  (Worked.forAll _ _ (fun _ u => u.touch_worked _ _ _ _) s).trans (.forAll _ _ (fun _ v => v.enqueue_worked _ _ _) _)

/-! ## What a command leaves of memory -/

/-- Every byte reads as before. -/
def keepsBytes (s u : State) : Prop := ∀ a, (u.dpaByte a).1 = (s.dpaByte a).1

theorem keepsBytes.trans {s t u : State} (h : keepsBytes s t) (g : keepsBytes t u) : keepsBytes s u := fun a => (g a).trans (h a)

/-- Bytes at places that no address of `R` has read as before. -/
def KeptOutside (R : Nat → Prop) (s u : State) : Prop := ∀ x, (∀ y, R y → dpaLoc x ≠ dpaLoc y) → (u.dpaByte x).1 = (s.dpaByte x).1

/-- A step that leaves memory, the stacks and what reaches them leaves every byte. -/
theorem keepsBytes.of_same {s u : State} (hm : u.mem = s.mem) (hc : u.cache = s.cache) (hp : u.scratch = s.scratch) (hr : keepsReach s u) : keepsBytes s u :=
  fun a => (Stored.of_sectors (f := fun _ => 0) hr (State.sectorData_congr hm hc) hp).outside a fun _ h => h.elim

/-- A good state passes to a good one with every byte kept. -/
def PassesBytes (q : List Instr) (s u : State) : Prop := s.Good q → keepsBytes s u ∧ u.Good q

namespace PassesBytes
variable {q : List Instr} {s t u : State}

theorem refl (s : State) : PassesBytes q s s := fun h => ⟨fun _ => rfl, h⟩

theorem trans (h : PassesBytes q s t) (g : PassesBytes q t u) : PassesBytes q s u := fun hs =>
  have ⟨h1, h2⟩ := h hs
  have ⟨g1, g2⟩ := g h2
  ⟨h1.trans g1, g2⟩

theorem forAll {α : Type} (l : List α) (f : α → State → State) (hf : ∀ a s, PassesBytes q s (f a s)) (s : State) : PassesBytes q s (forAll l f s) :=
  forAll_induct (P := PassesBytes q s) (fun a t h => h.trans (hf a t)) l (refl s)

end PassesBytes

theorem State.touch_passes {q : List Instr} (s : State) (a n : Nat) (w : Bool) : PassesBytes q s (s.touch a n w false) := fun hs =>
  ⟨fun x => (State.touch_stored (f := fun _ => 0) (State.good_iff q s |>.mp hs).1.mem a n w).outside x fun _ h => h.elim, s.touch_good a n w false hs⟩

theorem State.ligTouch_passes {q : List Instr} (s : State) (l : List (Nat × Nat × Nat)) : PassesBytes q s (s.ligTouch l) :=
  .forAll _ _ (fun _ u => u.touch_passes _ _ _) s

theorem State.enqueue_passes {q : List Instr} (s : State) (k : Nat) (f : Frame) (o : Option (Nat × Nat)) : PassesBytes q s (s.enqueue k f o) := fun hs =>
  ⟨keepsBytes.of_same rfl rfl rfl ⟨rfl, rfl, rfl⟩, s.enqueue_good k f o none hs⟩

theorem State.rebuildPage_passes {q : List Instr} (s : State) (t c k node : Nat) (gen : BitVec 48) (j : LigJob) :
    PassesBytes q s (s.rebuildPage t c k node gen j) :=
  (PassesBytes.forAll _ _ (fun _ u => u.touch_passes _ _ _) s).trans (.forAll _ _ (fun _ v => v.enqueue_passes _ _ _) _)

theorem State.rewrite_bytes (s : State) (l : List Nat) : keepsBytes s (s.rewrite l) := by
  refine forAll_induct (P := keepsBytes s) (fun a u h => h.trans ?_) l fun _ => rfl
  split
  · split
    · split
      · exact keepsBytes.of_same rfl rfl rfl ⟨rfl, rfl, rfl⟩
      · exact fun _ => rfl
    · exact fun _ => rfl
  · exact fun _ => rfl

/-- Blocks filled hold what `f` gives, and no byte at another place changes. -/
theorem State.ligFill_stored {q : List Instr} {s : State} (hs : s.Good q) (l : List (Nat × Nat × Nat)) (f : Nat → Byte) :
    Stored f (fun x => ∃ p ∈ l, (p.1 ≤ x ∧ x < p.1 + p.2.2) ∧ inPadWindow x = false) s (s.ligFill l f) := by
  refine (Stored.forAll_parts (q := q) (fun (p : Nat × Nat × Nat) x => (p.1 ≤ x ∧ x < p.1 + p.2.2) ∧ inPadWindow x = false) _ l (fun p _ u hu => ?_) hs).1
  have hlen : ((List.range p.2.2).map fun i => f (p.1 + i)).length = p.2.2 := by rw [List.length_map, List.length_range]
  have hst := State.devWrite_stored hu (f := f) (a := p.1) (data := (List.range p.2.2).map fun i => f (p.1 + i)) false fun j hj => by
    rw [hlen] at hj
    rw [List.getD_eq_getElem?_getD, List.getElem?_map, List.getElem?_range hj]
    rfl
  rw [hlen] at hst
  exact ⟨hst, u.devWrite_good _ _ _ hu⟩

/-- A block written holds what is written, in memory, and no byte at another place changes. -/
theorem State.ligPut_stored {q : List Instr} {s : State} (hs : s.Good q) {f : Nat → Byte} {a : Nat} {d : List Byte}
    (hf : ∀ j, j < d.length → d.getD j 0 = f (a + j)) : Stored f (fun x => a ≤ x ∧ x < a + d.length) s (s.ligPut a d) := by
  unfold State.ligPut
  split
  · exact State.dpaWrite_stored hs false hf
  · refine (State.devWrite_stored hs false hf).widen (fun x h => h.1) fun x h k i b t l hl => ⟨h, ?_⟩
    have := dpaLoc_mem_lt hl
    unfold inPadWindow
    simp only [Bool.and_eq_false_iff, decide_eq_false_iff_not]
    omega

theorem copyBlocks_outside {q : List Instr} (l : List (Nat × Nat × Nat)) (d : List Byte) {s : State} (hs : s.Good q) :
    KeptOutside (fun x => ∃ p ∈ l, p.1 ≤ x ∧ x < p.1 + p.2.2) s (copyBlocks l d s) := by
  induction l generalizing d s with
  | nil => exact fun _ _ => rfl
  | cons p r ih =>
    intro x hx
    have hlen : ((List.range p.2.2).map fun i => d.getD i 0).length = p.2.2 := by rw [List.length_map, List.length_range]
    have hput := State.ligPut_stored hs (f := fun x => ((List.range p.2.2).map fun i => d.getD i 0).getD (x - p.1) 0) (a := p.1)
      (d := (List.range p.2.2).map fun i => d.getD i 0) fun j _ => by rw [Nat.add_sub_cancel_left]
    rw [hlen] at hput
    refine (ih (d.drop p.2.2) (s.ligPut_good p.1 _ hs) x fun y ⟨b, hb, hy⟩ => hx y ⟨b, List.mem_cons_of_mem p hb, hy⟩).trans ?_
    exact hput.outside x fun y hy => hx y ⟨p, List.mem_cons_self, hy⟩

end Sys2Proof.Machine
end

section
/-! SUPPORT. The commands of the Ligger engines (R224 to R227, R356, R358). -/

namespace Sys2Proof.Machine

/-! ## Counts and the end of a step -/

section
variable {t n : Nat} (s : State)

theorem State.ligErr_only (m : Nat) : onlyRegs s (s.ligErr t n m) := .wf _ _ _ _ _

theorem State.ligErr_counts (m : Nat) : (s.ligErr t n m).rf (ligReg t n Off.THC_LIG_STS) 35 4 = satPlus 32 (s.rf (ligReg t n Off.THC_LIG_STS) 35 4) m := by
  unfold State.ligErr
  dsimp only
  refine (s.rf_wf_self _ 35 4 _ (by decide) (by decide)).trans (Nat.mod_eq_of_lt ?_)
  unfold satPlus
  omega

theorem State.ligErr_state (m : Nat) : (s.ligErr t n m).ligState t n = s.ligState t n :=
  s.rf_wf_below _ 35 4 _ 2 0 (by decide) (by decide) (by decide) (by decide)

end

/-- An engine's command has gone on by `k` blocks. -/
structure Went (t n k : Nat) (j : LigJob) (crc total : Nat) (u : State) : Prop where
  job : Table.get? u.ligger (ligKey t n) = some { j with crc := crc, at_ := j.at_ + k, done := decide (total ≤ j.at_ + k) }
  state : u.ligState t n = 1

/-- The last of a command's actions on a step is to count its blocks. -/
theorem State.ligStep_went {z : State} {t n k crc total : Nat} {j : LigJob} (h : Table.get? z.ligger (ligKey t n) = some { j with crc := crc })
    (hs : z.ligState t n = 1) : Went t n k j crc total (z.ligStep t n k total) ∧ onlyLigger z (z.ligStep t n k total) :=
  ⟨⟨State.get?_modLig h _, hs⟩, z.modLig_only t n _⟩

namespace onlyLigger
variable {s u : State}

theorem regs (h : onlyLigger s u) : u.regs = s.regs := (congrArg State.regs h :)

theorem ctxs (h : onlyLigger s u) : u.ctxs = s.ctxs := (congrArg State.ctxs h :)

theorem ctx (h : onlyLigger s u) (c : Nat) : u.ctx c = s.ctx c := by rw [State.ctx, h.ctxs, State.ctx]

theorem hostMem (h : onlyLigger s u) : u.hostMem = s.hostMem := (congrArg State.hostMem h :)

theorem rf (h : onlyLigger s u) (a hi lo : Nat) : u.rf a hi lo = s.rf a hi lo := by rw [State.rf_eq, reg_of_regs h.regs, State.rf_eq]

theorem bytes (h : onlyLigger s u) : keepsBytes s u :=
  .of_same (congrArg State.mem h :) (congrArg State.cache h :) (congrArg State.scratch h :)
    ⟨(congrArg State.bands h :), (congrArg State.dies h :), (congrArg State.pwrgd h :)⟩

end onlyLigger

theorem onlyRegs.bytes {s u : State} (h : onlyRegs s u) : keepsBytes s u :=
  .of_same (congrArg State.mem h :) (congrArg State.cache h :) (congrArg State.scratch h :)
    ⟨(congrArg State.bands h :), (congrArg State.dies h :), (congrArg State.pwrgd h :)⟩

theorem KeptOutside.after {R : Nat → Prop} {s t u : State} (h : KeptOutside R s t) (g : keepsBytes t u) : KeptOutside R s u :=
  fun x hx => (g x).trans (h x hx)

theorem Stored.kept {f : Nat → Byte} {R : Nat → Prop} {s u : State} (h : Stored f R s u) : KeptOutside R s u := h.outside

/-- What blocks of a list name, address by address. -/
theorem KeptOutside.blocks {R : Nat → Prop} {s u : State} {l : List (Nat × Nat × Nat)} (h : KeptOutside R s u)
    (hR : ∀ y, R y → ∃ b ∈ l, b.1 ≤ y ∧ y < b.1 + b.2.2) (a : Nat) (ha : ∀ b ∈ l, ∀ i, i < b.2.2 → dpaLoc a ≠ dpaLoc (b.1 + i)) :
    (u.dpaByte a).1 = (s.dpaByte a).1 := h a fun y hy => by
  obtain ⟨b, hb, h1, h2⟩ := hR y hy
  have := ha b hb (y - b.1) (by omega)
  rwa [show b.1 + (y - b.1) = y by omega] at this

theorem LigJob.next_part {j : LigJob} {t k : Nat} {b : Nat × Nat × Nat} (h : b ∈ j.next t k) : PartOf 256 j.base j.len b :=
  blockParts_part (by decide) (List.mem_filter.mp (List.mem_of_mem_drop (List.mem_of_mem_take h))).1

/-- A block of memory that was stored holds what was stored. -/
theorem Stored.single {f : Nat → Byte} {R : Nat → Prop} {s u : State} (h : Stored f R s u) {j : LigJob} {t k : Nat} {b : Nat × Nat × Nat}
    (hl : j.next t k = [b]) (hR : ∀ x, b.1 ≤ x → x < b.1 + b.2.2 → inPadWindow x = false → R x) {kd q w g o : Nat} (hloc : dpaLoc b.1 = .mem kd q w g o)
    (hok : s.memOk kd w g = true) {i : Nat} (hi : i < b.2.2) : (u.dpaByte (b.1 + i)).1 = f (b.1 + i) := by
  have hpart : PartOf 256 j.base j.len b := LigJob.next_part (t := t) (k := k) (by rw [hl]; exact List.mem_singleton.mpr rfl)
  have hadd := dpaLoc_add (j := i) hloc (by have := hpart.block; omega)
  refine h.inside _ (hR _ (Nat.le_add_right _ _) (by omega) ?_) _ _ _ _ _ hadd hok
  have := dpaLoc_mem_lt hadd
  unfold inPadWindow
  simp only [Bool.and_eq_false_iff, decide_eq_false_iff_not]
  omega

/-! ## Ends -/

theorem State.ligMem_pads {s : State} {j : LigJob} (h : j.pads = true) (t n : Nat) (act : State) : s.ligMem t n j act = s.ligDone t n true := if_pos h

theorem State.ligMem_mem {s : State} {j : LigJob} (h : j.pads = false) (t n : Nat) (act : State) : s.ligMem t n j act = act := if_neg (by rw [h]; simp)

/-! ## What a step of each command brings about -/

section
variable {s z : State} {t n k op : Nat} {j : LigJob} (hn : n < 4) (hj : s.ligJob t n op = some j) (hw : Worked s z)
include hn hj hw

theorem Worked.state : z.ligState t n = 1 ∧ Table.get? z.ligger (ligKey t n) = some { j with crc := j.crc } := by
  obtain ⟨hget, hstate, -⟩ := State.ligJob_some hj
  refine ⟨?_, by rw [hw.ligger]; exact hget⟩
  rw [State.ligState, State.rf_eq, hw.engineReg hn (by decide) (by decide)]
  exact hstate

/-- Behind a step the command has gone on, and of the rest all stands as its action left it. -/
theorem Worked.step (total : Nat) : Went t n k j j.crc total (z.ligStep t n k total) ∧ (z.ligStep t n k total).ctxs = s.ctxs
    ∧ onlyLigger z (z.ligStep t n k total) := by
  obtain ⟨hstate, hget⟩ := hw.state hn hj
  obtain ⟨hwent, honly⟩ := State.ligStep_went (k := k) (total := total) hget hstate
  exact ⟨hwent, honly.ctxs.trans hw.ctxs, honly⟩

/-- Behind a step that counts sectors the command has gone on, and they are counted. -/
theorem Worked.errStep (m total : Nat) :
    let u := (z.ligErr t n m).ligStep t n k total
    Went t n k j j.crc total u ∧ u.ctxs = s.ctxs ∧ onlyLigger (z.ligErr t n m) u
      ∧ u.rf (ligReg t n Off.THC_LIG_STS) 35 4 = satPlus 32 (s.rf (ligReg t n Off.THC_LIG_STS) 35 4) m := by
  obtain ⟨hstate, hget⟩ := hw.state hn hj
  have hreg := z.ligErr_only (t := t) (n := n) m
  have hcount := z.ligErr_counts (t := t) (n := n) m
  have hstate' : (z.ligErr t n m).ligState t n = 1 := (z.ligErr_state m).trans hstate
  have hget' : Table.get? (z.ligErr t n m).ligger (ligKey t n) = some { j with crc := j.crc } := by
    rw [show (z.ligErr t n m).ligger = z.ligger from (congrArg State.ligger hreg :)]; exact hget
  obtain ⟨hwent, honly⟩ := State.ligStep_went (k := k) (total := total) hget' hstate'
  refine ⟨hwent, honly.ctxs.trans ((congrArg State.ctxs hreg :).trans hw.ctxs), honly, ?_⟩
  rw [honly.rf, hcount, State.rf_eq, hw.engineReg hn (by decide) (by decide), ← State.rf_eq]

end

/-! ## RESTORE (R357, R358) -/

/-- What a restored page or record leaves: the engines' commands, the other contexts and the registers that no stack writes. -/
structure Restored (c : Nat) (s u : State) : Prop where
  ligger : u.ligger = s.ligger
  ctxs : ∀ m, m ≠ c → u.ctx m = s.ctx m
  regs : keepsOthers s u

namespace Restored
variable {c : Nat} {s t u : State}

theorem refl (s : State) : Restored c s s := ⟨rfl, fun _ _ => rfl, .refl s⟩

theorem trans (h : Restored c s t) (g : Restored c t u) : Restored c s u :=
  ⟨g.ligger.trans h.ligger, fun m hm => (g.ctxs m hm).trans (h.ctxs m hm), h.regs.trans g.regs⟩

theorem forAll {α : Type} (l : List α) (f : α → State → State) (hf : ∀ a s, Restored c s (f a s)) (s : State) : Restored c s (forAll l f s) :=
  forAll_induct (P := Restored c s) (fun a t h => h.trans (hf a t)) l (refl s)

end Restored

theorem Worked.restored {s u : State} (h : Worked s u) (c : Nat) : Restored c s u := ⟨h.ligger, fun m _ => by rw [State.ctx, h.ctxs, State.ctx], h.regs⟩

theorem State.devTouch_worked (s : State) (a n : Nat) : Worked s (s.devTouch a n) := .forAll _ _ (fun _ u => u.touch_worked _ _ _ _) s

theorem State.walkTouch_worked (s : State) (c va : Nat) : Worked s (s.walkTouch c va) := by
  unfold State.walkTouch
  split
  · next g _ _ =>
    have h1 := s.devTouch_worked (g.ttRoot + va / 2 ^ 32 * 8) 8
    dsimp only
    split
    · exact h1
    · exact .ite _ (.ite _ (h1.trans (State.devTouch_worked _ _ _)) ((h1.trans (State.devTouch_worked _ _ _)).trans (State.devTouch_worked _ _ _))) h1
  · exact .refl s

theorem State.modCtx_restored (s : State) (c : Nat) (f : Ctx → Ctx) : Restored c s (s.modCtx c f) :=
  ⟨rfl, fun m hm => by rw [State.modCtx_eq, State.ctx_setCtx, if_neg hm], .of_regs rfl⟩

theorem State.fillTlb_restored (s : State) (c va : Nat) : Restored c s (s.fillTlb c va) := by
  have h := (s.walkTouch_worked c va).restored c
  unfold State.fillTlb
  dsimp only
  split
  · exact h
  · exact h.trans (State.modCtx_restored _ c _)

theorem iter_restored {c : Nat} (f : Nat → State → State) (hf : ∀ i s, Restored c s (f i s)) (k : Nat) (s : State) : Restored c s (iter f k s) := by
  induction k with
  | zero => exact .refl s
  | succ n ih => exact ih.trans (hf n _)

theorem State.vaWrite_restored (s : State) (c va : Nat) (data : List Byte) : Restored c s (s.vaWrite c va data) := by
  unfold State.vaWrite
  refine iter_restored _ (fun i t => ?_) _ s
  dsimp only
  split
  · split
    · exact t.fillTlb_restored c _
    · exact (t.fillTlb_restored c _).trans ((State.devWrite_worked _ _ _ _).restored c)
  · exact .refl t

theorem State.restoreBytes_restored (s : State) (t c va : Nat) (j : LigJob) (data : List Byte) : Restored c s (s.restoreBytes t c va j data) := by
  unfold State.restoreBytes
  refine .forAll _ _ (fun p u => ?_) s
  split
  · exact .refl u
  · exact (u.devWrite_worked _ _ _).restored c

theorem State.restorePage_restored (s : State) (t c : Nat) (j : LigJob) (p : Nat × List Byte) : Restored c s (s.restorePage t c j p) := by
  unfold State.restorePage
  split
  · exact .refl s
  · next m _ =>
    have h := s.restoreBytes_restored t c m.va j p.2
    dsimp only
    split
    · exact h
    · split
      · exact h.trans (State.vaWrite_restored _ c _ _)
      · exact h

/-- The record of an image restored: with the last page, where the context keeps one. -/
theorem State.restoreRecord_restored (s : State) (t c : Nat) (j : LigJob) (r : List Byte) : Restored c s (s.restoreRecord t c j r)
    ∧ (s.reg (ctxA c Off.CTX_SNAP_ADDR) ≠ 0 → ((s.restoreRecord t c j r).ctx c).snapFresh = false) := by
  unfold State.restoreRecord
  dsimp only
  split
  · next h => exact ⟨.refl s, fun hne => absurd (BitVec.eq_of_toNat_eq h) hne⟩
  · exact ⟨(s.restoreBytes_restored t c _ j _).trans (State.modCtx_restored _ c _), fun _ => by rw [State.modCtx_self]⟩

theorem execRestore_spec {s : State} {t n k : Nat} {j : LigJob} (hn : n < 4) (hj : s.ligJob t n 7 = some j) (hp : j.pads = false) (img : SealedImage) (hok : img.ok = true) :
    Completes (.restore t n k img) s fun u =>
      Went t n k j j.crc img.pages.length u ∧ (∀ m, m ≠ bits j.aux2 9 0 → u.ctx m = s.ctx m)
        ∧ (img.pages.length ≤ j.at_ + k → s.reg (ctxA (bits j.aux2 9 0) Off.CTX_SNAP_ADDR) ≠ 0 → (u.ctx (bits j.aux2 9 0)).snapFresh = false) := by
  obtain ⟨c, hc⟩ : ∃ c, c = bits j.aux2 9 0 := ⟨_, rfl⟩
  obtain ⟨s1, h1⟩ : ∃ s1, s1 = forAll ((img.pages.drop j.at_).take k) (fun p u => u.restorePage t c j p) s := ⟨_, rfl⟩
  obtain ⟨s2, h2⟩ : ∃ s2, s2 = if img.pages.length ≤ j.at_ + k then s1.restoreRecord t c j img.record else s1 := ⟨_, rfl⟩
  have hrun : execRestore t n k img s = .next (s2.ligStep t n k img.pages.length) := by
    unfold execRestore
    rw [hj]
    dsimp only
    rw [hok, ← hc, State.ligMem_mem hp, h2, h1]
    rfl
  have hpages : Restored c s s1 := by rw [h1]; exact .forAll _ _ (fun p u => u.restorePage_restored t c j p) s
  have hrec := s1.restoreRecord_restored t c j img.record
  have hboth : Restored c s s2 := by
    rw [h2]
    split
    · exact hpages.trans hrec.1
    · exact hpages
  obtain ⟨hget, hstate, -⟩ := State.ligJob_some hj
  have hstate2 : s2.ligState t n = 1 := by
    rw [State.ligState, State.rf_eq, hboth.regs _ (offStacks_lig hn (by decide) (by decide))]
    exact hstate
  obtain ⟨hwent, honly⟩ := State.ligStep_went (z := s2) (k := k) (crc := j.crc) (total := img.pages.length) (by rw [hboth.ligger]; exact hget) hstate2
  rw [← hc]
  refine ⟨_, hrun, hwent, fun m hm => (honly.ctx m).trans (hboth.ctxs m hm), fun hlast hne => ?_⟩
  rw [honly.ctx, h2, if_pos hlast]
  refine hrec.2 ?_
  rw [hpages.regs _ (offStacks_ctxA c _)]
  exact hne

/-! ## REBUILD (R356) -/

theorem execRebuild_spec {q : List Instr} {s : State} (hs : s.Good q) {t n k : Nat} {j : LigJob} (hn : n < 4) (hj : s.ligJob t n 8 = some j) (hp : j.pads = false)
    (hbusy : bitAt (leNat (s.devRead j.aux2 8).1) 49 = true → bitAt (leNat (s.devRead j.aux2 8).1) 48 = true)
    (hbad : bitAt (leNat (s.devRead j.aux2 8).1) 51 = false) :
    Completes (.rebuild t n k) s fun u => Went t n k j j.crc (s.heldPages (bits j.aux 29 20)) u ∧ keepsBytes s u ∧ u.ctxs = s.ctxs := by
  obtain ⟨w, hwd⟩ : ∃ w, w = leNat (s.devRead j.aux2 8).1 := ⟨_, rfl⟩
  rw [← hwd] at hbusy hbad
  obtain ⟨s1, h1⟩ : ∃ s1, s1 = forAll (((List.range (s.heldPages (bits j.aux 29 20))).drop j.at_).take k)
      (fun p u => u.rebuildPage t (bits j.aux 29 20) p (bits j.aux 19 0) (BitVec.ofNat 48 w) j) s := ⟨_, rfl⟩
  obtain ⟨key, fr, hsend⟩ : ∃ key fr, execRebuild t n k s
      = .next ((if s.heldPages (bits j.aux 29 20) ≤ j.at_ + k ∧ stackOf j.aux2 = some t then s1.enqueue key fr none else s1).ligStep t n k
        (s.heldPages (bits j.aux 29 20))) := by
    refine ⟨s1.mirrorKey (bits j.aux 19 0) 0, s1.mirrorFrame (bits j.aux 29 20) (bits j.aux 19 0) (s1.mirrorKey (bits j.aux 19 0) 0)
      ⟨BitVec.ofNat 48 w, 2, false, true, false, 0, 0, (s.devRead (j.aux2 + 64) 256).1⟩ true 0, ?_⟩
    unfold execRebuild
    rw [hj]
    dsimp only
    rw [← hwd, if_neg, State.ligMem_mem hp, h1]
    rintro (⟨h49, h48⟩ | h51)
    · rw [hbusy h49] at h48; exact absurd h48 (by simp)
    · rw [hbad] at h51; exact absurd h51 (by simp)
  have hwork : Worked s s1 := by rw [h1]; exact .forAll _ _ (fun p u => u.rebuildPage_worked _ _ _ _ _ _) s
  have hpass : PassesBytes q s s1 := by rw [h1]; exact .forAll _ _ (fun p u => u.rebuildPage_passes _ _ _ _ _ _) s
  have hwork2 : Worked s (if s.heldPages (bits j.aux 29 20) ≤ j.at_ + k ∧ stackOf j.aux2 = some t then s1.enqueue key fr none else s1) :=
    .ite _ (hwork.trans (s1.enqueue_worked key fr none)) hwork
  have hpass2 : keepsBytes s (if s.heldPages (bits j.aux 29 20) ≤ j.at_ + k ∧ stackOf j.aux2 = some t then s1.enqueue key fr none else s1) := by
    split
    · exact ((hpass.trans (s1.enqueue_passes key fr none)) hs).1
    · exact (hpass hs).1
  obtain ⟨hwent, hctxs, honly⟩ := hwork2.step hn hj (k := k) (s.heldPages (bits j.aux 29 20))
  exact ⟨_, hsend, hwent, hpass2.trans honly.bytes, hctxs⟩

end Sys2Proof.Machine
end

section
/-! SUPPORT. The commands of the Ligger engines on blocks of memory (R224 to R226), and their ends (R227). -/

namespace Sys2Proof.Machine

/-! ## Copies -/

theorem State.ligPut_host (s : State) (a : Nat) (d : List Byte) : (s.ligPut a d).hostMem = s.hostMem := by
  unfold State.ligPut
  split
  · exact (congrArg State.hostMem (s.dpaWrite_bytes a d false) :)
  · exact (congrArg State.hostMem (s.devWrite_stacks a d false) :)

theorem copyBlocks_host (l : List (Nat × Nat × Nat)) (d : List Byte) (s : State) : (copyBlocks l d s).hostMem = s.hostMem := by
  induction l generalizing d s with
  | nil => rfl
  | cons p r ih => exact (ih _ _).trans (s.ligPut_host _ _)

/-- Writes to host memory depend on what host memory holds and on what is written. -/
theorem forAll_hostPut {s u : State} (h : u.hostMem = s.hostMem) (portB : Bool) (at_ : Nat × Nat × Nat → Nat) {f g : Nat × Nat × Nat → List Byte} (hfg : ∀ p, f p = g p)
    (l : List (Nat × Nat × Nat)) :
    (forAll l (fun p v => v.hostPut portB (at_ p) (f p)) u).hostMem = (forAll l (fun p v => v.hostPut portB (at_ p) (g p)) s).hostMem := by
  unfold forAll
  induction l generalizing s u with
  | nil => exact h
  | cons p r ih => exact ih (by rw [show f = g from funext hfg]; exact congrArg (fun m => putBytes m _ (g p)) h)

theorem keepsBytes.read {s u : State} (h : keepsBytes s u) (a n : Nat) : (u.dpaRead a n).1 = (s.dpaRead a n).1 := by
  rw [State.dpaRead, State.dpaRead]
  dsimp only
  rw [List.map_map, List.map_map]
  exact List.map_congr_left fun i _ => h (a + i)

section
variable {q : List Instr} {s : State} (hs : s.Good q) {t n k : Nat} {j : LigJob} (hn : n < 4)
include hs hn

theorem execCopyIn_spec (hj : s.ligJob t n 0 = some j) (hb : s.padRangeBusy t j = false) (data : List Byte) :
    Completes (.copyIn t n k data) s fun u =>
      Went t n k j j.crc (j.blocks t).length u ∧ KeptOutside (fun x => ∃ p ∈ j.next t k, p.1 ≤ x ∧ x < p.1 + p.2.2) s u
        ∧ (∀ b kd q w g o, j.next t k = [b] → dpaLoc b.1 = .mem kd q w g o → s.memOk kd w g = true → ∀ i, i < b.2.2 → (u.dpaByte (b.1 + i)).1 = data.getD i 0)
        ∧ u.hostMem = s.hostMem ∧ u.ctxs = s.ctxs := by
  have hrun : execCopyIn t n k data s = .next ((copyBlocks (j.next t k) data s).ligStep t n k (j.blocks t).length) := by
    unfold execCopyIn
    rw [hj]
    exact if_neg (by rw [hb]; simp)
  obtain ⟨hwent, hctxs, honly⟩ := (copyBlocks_worked (j.next t k) data s).step hn hj (k := k) (j.blocks t).length
  refine ⟨_, hrun, hwent, (copyBlocks_outside (j.next t k) data hs).after honly.bytes, fun b kd q' w g o hl hloc hok i hi => ?_,
    honly.hostMem.trans (copyBlocks_host _ _ s), hctxs⟩
  have hlen : ((List.range b.2.2).map fun i => data.getD i 0).length = b.2.2 := by rw [List.length_map, List.length_range]
  have hput := State.ligPut_stored hs (f := fun x => data.getD (x - b.1) 0) (a := b.1) (d := (List.range b.2.2).map fun i => data.getD i 0) fun m hm => by
    rw [hlen] at hm
    rw [List.getD_eq_getElem?_getD, List.getElem?_map, List.getElem?_range hm, Nat.add_sub_cancel_left]
    rfl
  rw [hlen] at hput
  rw [honly.bytes, hl]
  refine (hput.single hl (fun x h1 h2 _ => ⟨h1, h2⟩) hloc hok hi).trans ?_
  rw [Nat.add_sub_cancel_left]

theorem execCopyOut_spec (hj : s.ligJob t n 1 = some j) (hb : s.padRangeBusy t j = false) :
    Completes (.copyOut t n k) s fun u =>
      Went t n k j j.crc (j.blocks t).length u ∧ keepsBytes s u
        ∧ u.rf (ligReg t n Off.THC_LIG_STS) 35 4
          = satPlus 32 (s.rf (ligReg t n Off.THC_LIG_STS) 35 4) ((s.ligTouch (j.next t k)).poisonedSectors (j.next t k))
        ∧ u.ctxs = s.ctxs
        ∧ u.hostMem = (forAll (j.next t k) (fun p v => v.hostPut j.portB (j.aux + p.2.1) (s.dpaRead p.1 p.2.2).1) s).hostMem := by
  obtain ⟨s1, h1⟩ : ∃ s1, s1 = s.ligTouch (j.next t k) := ⟨_, rfl⟩
  obtain ⟨s2, h2⟩ : ∃ s2, s2 = forAll (j.next t k) (fun p u => u.hostPut j.portB (j.aux + p.2.1) (s1.dpaRead p.1 p.2.2).1) s1 := ⟨_, rfl⟩
  have hrun : execCopyOut t n k s = .next ((s2.ligErr t n (s1.poisonedSectors (j.next t k))).ligStep t n k (j.blocks t).length) := by
    unfold execCopyOut
    rw [hj]
    dsimp only
    rw [if_neg (by rw [hb]; simp), h2, h1]
  have hput : ∀ (p : Nat × Nat × Nat) (u : State), Worked u (u.hostPut j.portB (j.aux + p.2.1) (s1.dpaRead p.1 p.2.2).1) := fun _ _ => ⟨rfl, rfl, .of_regs rfl⟩
  have hput' : ∀ (p : Nat × Nat × Nat) (u : State), keepsBytes u (u.hostPut j.portB (j.aux + p.2.1) (s1.dpaRead p.1 p.2.2).1) := fun _ _ => .of_same rfl rfl rfl ⟨rfl, rfl, rfl⟩
  have hwork : Worked s s2 := by rw [h2, h1]; exact (s.ligTouch_worked _).trans (h1 ▸ Worked.forAll _ _ hput _)
  have htouch : keepsBytes s s1 := by rw [h1]; exact (s.ligTouch_passes (q := q) _ hs).1
  have hbytes : keepsBytes s1 s2 := by rw [h2]; exact forAll_induct (P := keepsBytes s1) (fun p u h => h.trans (hput' p u)) _ fun _ => rfl
  have hhost : s2.hostMem = (forAll (j.next t k) (fun p v => v.hostPut j.portB (j.aux + p.2.1) (s.dpaRead p.1 p.2.2).1) s).hostMem := by
    rw [h2]
    refine forAll_hostPut ?_ j.portB (fun p : Nat × Nat × Nat => j.aux + p.2.1) (fun p : Nat × Nat × Nat => htouch.read p.1 p.2.2) _
    rw [h1]
    exact forAll_induct (P := fun u : State => u.hostMem = s.hostMem) (fun (p : Nat × Nat × Nat) u h => (congrArg State.hostMem (u.touch_stacks p.1 p.2.2 false false) :).trans h) _ rfl
  obtain ⟨hwent, hctxs, honly, herr⟩ := hwork.errStep hn hj (k := k) (s1.poisonedSectors (j.next t k)) (j.blocks t).length
  have herrs := s2.ligErr_only (t := t) (n := n) (s1.poisonedSectors (j.next t k))
  rw [← h1]
  exact ⟨_, hrun, hwent, ((htouch.trans hbytes).trans herrs.bytes).trans honly.bytes, herr, hctxs,
    honly.hostMem.trans ((congrArg State.hostMem herrs :).trans hhost)⟩

/-! ## Fills and tests -/

/-- A step that fills its blocks. -/
theorem State.ligFill_spec {op : Nat} (hj : s.ligJob t n op = some j) (f : Nat → Byte) :
    let u := (s.ligFill (j.next t k) f).ligStep t n k (j.blocks t).length
    Went t n k j j.crc (j.blocks t).length u ∧ KeptOutside (fun x => ∃ p ∈ j.next t k, p.1 ≤ x ∧ x < p.1 + p.2.2) s u
      ∧ (∀ b kd q w g o, j.next t k = [b] → dpaLoc b.1 = .mem kd q w g o → s.memOk kd w g = true → ∀ i, i < b.2.2 → (u.dpaByte (b.1 + i)).1 = f (b.1 + i))
      ∧ u.ctxs = s.ctxs := by
  have hst := State.ligFill_stored hs (j.next t k) f
  obtain ⟨hwent, hctxs, honly⟩ := (s.ligFill_worked (j.next t k) f).step hn hj (k := k) (j.blocks t).length
  refine ⟨hwent, ?_, fun b kd q w g o hl hloc hok i hi => ?_, hctxs⟩
  · refine KeptOutside.after (fun x hx => hst.outside x fun y ⟨p, hp, hy⟩ => hx y ⟨p, hp, hy.1⟩) honly.bytes
  · rw [honly.bytes]
    exact hst.single hl (fun x h1 h2 h3 => ⟨b, by rw [hl]; exact List.mem_singleton.mpr rfl, ⟨h1, h2⟩, h3⟩) hloc hok hi

theorem execTest_spec (hj : s.ligJob t n 4 = some j) (hp : j.pads = false) (fails : List Nat) :
    Completes (.test t n k fails) s fun u =>
      Went t n k j j.crc (j.blocks t).length u ∧ KeptOutside (fun x => ∃ p ∈ j.next t k, p.1 ≤ x ∧ x < p.1 + p.2.2) s u
        ∧ u.rf (ligReg t n Off.THC_LIG_STS) 35 4 = satPlus 32 (s.rf (ligReg t n Off.THC_LIG_STS) 35 4) fails.length ∧ u.ctxs = s.ctxs
        ∧ ∀ i r a, s.rf (ligReg t n Off.THC_LIG_STS) 35 4 = 0 → fails = i :: r → (sectorsOf (j.next t k))[i]? = some a →
            u.reg (ligReg t n Off.THC_LIG_RES) = BitVec.ofNat 64 a := by
  obtain ⟨z, hz⟩ : ∃ z, z = s.ligFill (j.next t k) Config.testLeaves := ⟨_, rfl⟩
  obtain ⟨s1, h1⟩ : ∃ s1, s1 = z.ligErr t n fails.length := ⟨_, rfl⟩
  have hwork : Worked s z := by rw [hz]; exact s.ligFill_worked _ _
  have hst : Stored Config.testLeaves (fun x => ∃ p ∈ j.next t k, (p.1 ≤ x ∧ x < p.1 + p.2.2) ∧ inPadWindow x = false) s z := by
    rw [hz]; exact State.ligFill_stored hs _ _
  obtain ⟨hstate, hget⟩ := hwork.state hn hj
  have herrs : onlyRegs z s1 := by rw [h1]; exact z.ligErr_only _
  have hcount : s1.rf (ligReg t n Off.THC_LIG_STS) 35 4 = satPlus 32 (s.rf (ligReg t n Off.THC_LIG_STS) 35 4) fails.length := by
    rw [h1, State.ligErr_counts, State.rf_eq, hwork.engineReg hn (by decide) (by decide), ← State.rf_eq]
  have hstate1 : s1.ligState t n = 1 := by rw [h1]; exact (z.ligErr_state _).trans hstate
  obtain ⟨v, hv⟩ : ∃ v, execTest t n k fails s = .next (v.ligStep t n k (j.blocks t).length) ∧ (v = s1 ∨ ∃ w, v = s1.setReg (ligReg t n Off.THC_LIG_RES) w)
      ∧ ∀ i r a, s.rf (ligReg t n Off.THC_LIG_STS) 35 4 = 0 → fails = i :: r → (sectorsOf (j.next t k))[i]? = some a →
          v = s1.setReg (ligReg t n Off.THC_LIG_RES) (BitVec.ofNat 64 a) := by
    unfold execTest
    rw [hj]
    dsimp only
    rw [State.ligMem_mem hp, ← hz, ← h1]
    match hfirst : fails.head?.bind fun i => (sectorsOf (j.next t k))[i]? with
    | none =>
      refine ⟨s1, rfl, Or.inl rfl, fun i r a _ hf hi => ?_⟩
      rw [hf, List.head?_cons, Option.bind_some, hi] at hfirst
      cases hfirst
    | some a =>
      by_cases hzero : s.rf (ligReg t n Off.THC_LIG_STS) 35 4 = 0
      · refine ⟨_, rfl, Or.inr ⟨BitVec.ofNat 64 a, if_pos hzero⟩, fun i r b _ hf hi => ?_⟩
        rw [hf, List.head?_cons, Option.bind_some, hi, Option.some.injEq] at hfirst
        rw [← hfirst]
        exact if_pos hzero
      · exact ⟨_, rfl, Or.inl (if_neg hzero), fun _ _ _ h _ _ => absurd h hzero⟩
  obtain ⟨hrun, hvs, hres⟩ := hv
  have hvonly : onlyRegs s1 v := by
    rcases hvs with rfl | ⟨w, rfl⟩
    · rfl
    · exact .setReg _ _ _
  have hvreg : v.reg (ligReg t n Off.THC_LIG_STS) = s1.reg (ligReg t n Off.THC_LIG_STS) := by
    rcases hvs with rfl | ⟨w, rfl⟩
    · rfl
    · exact s1.reg_setReg_ne _ (homeAddr_ne_of_mod (by rw [ligReg_mod hn (by decide), ligReg_mod hn (by decide)]; simp only [Off.THC_LIG_RES, Off.THC_LIG_STS]; omega))
  have hboth := herrs.trans hvonly
  obtain ⟨hwent, honly⟩ := State.ligStep_went (z := v) (t := t) (n := n) (k := k) (crc := j.crc) (total := (j.blocks t).length) (j := j)
    (by rw [show v.ligger = z.ligger from (congrArg State.ligger hboth :)]; exact hget) (by rw [State.ligState, State.rf_eq, hvreg]; exact hstate1)
  refine ⟨_, hrun, hwent, ?_, ?_, honly.ctxs.trans ((congrArg State.ctxs hboth :).trans hwork.ctxs), fun i r a h0 hf hi => ?_⟩
  · refine KeptOutside.after (KeptOutside.after (fun x hx => hst.outside x fun y ⟨p, hp, hy⟩ => hx y ⟨p, hp, hy.1⟩) hboth.bytes) honly.bytes
  · rw [honly.rf, State.rf_eq, hvreg, ← State.rf_eq, hcount]
  · rw [reg_of_regs honly.regs, hres i r a h0 hf hi, State.reg_setReg_self]

/-! ## Reads of the engine -/

theorem execVerify_spec (hj : s.ligJob t n 5 = some j) (hp : j.pads = false) :
    Completes (.verify t n k) s fun u =>
      let crc := crc64From j.crc ((j.next t k).flatMap fun p => (s.dpaRead p.1 p.2.2).1)
      Went t n k j crc (j.blocks t).length u ∧ keepsBytes s u
        ∧ u.rf (ligReg t n Off.THC_LIG_STS) 35 4
          = satPlus 32 (s.rf (ligReg t n Off.THC_LIG_STS) 35 4) ((s.ligTouch (j.next t k)).poisonedSectors (j.next t k))
        ∧ u.ctxs = s.ctxs ∧ ((j.blocks t).length ≤ j.at_ + k → u.reg (ligReg t n Off.THC_LIG_RES) = BitVec.ofNat 64 crc) := by
  obtain ⟨crc, hcrc⟩ : ∃ crc, crc = crc64From j.crc ((j.next t k).flatMap fun p => (s.dpaRead p.1 p.2.2).1) := ⟨_, rfl⟩
  obtain ⟨s0, h0⟩ : ∃ s0, s0 = s.ligTouch (j.next t k) := ⟨_, rfl⟩
  obtain ⟨e, he⟩ : ∃ e, e = s0.ligErr t n (s0.poisonedSectors (j.next t k)) := ⟨_, rfl⟩
  obtain ⟨s1, h1⟩ : ∃ s1, s1 = e.modLig t n fun j => { j with crc := crc } := ⟨_, rfl⟩
  obtain ⟨s2, h2⟩ : ∃ s2, s2 = if (j.blocks t).length ≤ j.at_ + k then s1.setReg (ligReg t n Off.THC_LIG_RES) (BitVec.ofNat 64 crc) else s1 := ⟨_, rfl⟩
  have hrun : execVerify t n k s = .next (s2.ligStep t n k (j.blocks t).length) := by
    unfold execVerify
    rw [hj]
    dsimp only
    rw [State.ligMem_mem hp, h2, h1, he, h0, hcrc]
  have hwork : Worked s s0 := by rw [h0]; exact s.ligTouch_worked _
  have htouch : keepsBytes s s0 := by rw [h0]; exact (s.ligTouch_passes (q := q) _ hs).1
  obtain ⟨hstate, hget⟩ := hwork.state hn hj
  have honly0 : onlyRegs s0 e := by rw [he]; exact s0.ligErr_only _
  have honly1 : onlyLigger e s1 := by rw [h1]; exact e.modLig_only t n _
  have honly2 : onlyRegs s1 s2 := by
    rw [h2]
    exact .ite (.setReg _ _ _) rfl
  have hsts : s2.reg (ligReg t n Off.THC_LIG_STS) = e.reg (ligReg t n Off.THC_LIG_STS) := by
    refine Eq.trans ?_ (reg_of_regs honly1.regs _)
    rw [h2]
    split
    · exact s1.reg_setReg_ne _ (homeAddr_ne_of_mod (by rw [ligReg_mod hn (by decide), ligReg_mod hn (by decide)]; simp only [Off.THC_LIG_RES, Off.THC_LIG_STS]; omega))
    · rfl
  have hget2 : Table.get? s2.ligger (ligKey t n) = some { j with crc := crc } := by
    rw [show s2.ligger = s1.ligger from (congrArg State.ligger honly2 :), h1]
    refine State.get?_modLig ?_ _
    rw [show e.ligger = s0.ligger from (congrArg State.ligger honly0 :)]
    exact hget
  have hstate2 : s2.ligState t n = 1 := by
    rw [State.ligState, State.rf_eq, hsts, he]
    exact (s0.ligErr_state _).trans hstate
  obtain ⟨hwent, honly⟩ := State.ligStep_went (k := k) (total := (j.blocks t).length) hget2 hstate2
  refine ⟨_, hrun, ?_⟩
  beta_reduce
  rw [← hcrc, ← h0]
  refine ⟨hwent, (((htouch.trans honly0.bytes).trans honly1.bytes).trans honly2.bytes).trans honly.bytes, ?_,
    honly.ctxs.trans ((congrArg State.ctxs honly2 :).trans (honly1.ctxs.trans ((congrArg State.ctxs honly0 :).trans hwork.ctxs))), fun hlast => ?_⟩
  · rw [honly.rf, State.rf_eq, hsts, ← State.rf_eq, he, State.ligErr_counts, State.rf_eq, hwork.engineReg hn (by decide) (by decide), ← State.rf_eq]
  · rw [reg_of_regs honly.regs, h2, if_pos hlast, State.reg_setReg_self]

theorem execScrub_spec (hj : s.ligJob t n 6 = some j) (hp : j.pads = false) :
    Completes (.scrub t n k) s fun u =>
      Went t n k j j.crc (j.blocks t).length u ∧ keepsBytes s u
        ∧ u.rf (ligReg t n Off.THC_LIG_STS) 35 4 = satPlus 32 (s.rf (ligReg t n Off.THC_LIG_STS) 35 4)
          (((s.ligTouch (j.next t k)).rewrite (sectorsOf (j.next t k))).poisonedSectors (j.next t k))
        ∧ u.ctxs = s.ctxs := by
  obtain ⟨s1, h1⟩ : ∃ s1, s1 = (s.ligTouch (j.next t k)).rewrite (sectorsOf (j.next t k)) := ⟨_, rfl⟩
  have hrun : execScrub t n k s = .next ((s1.ligErr t n (s1.poisonedSectors (j.next t k))).ligStep t n k (j.blocks t).length) := by
    unfold execScrub
    rw [hj]
    dsimp only
    rw [State.ligMem_mem hp, h1]
  have hwork : Worked s s1 := by rw [h1]; exact (s.ligTouch_worked _).trans (State.rewrite_worked _ _)
  have hbytes : keepsBytes s s1 := by rw [h1]; exact (s.ligTouch_passes (q := q) _ hs).1.trans (State.rewrite_bytes _ _)
  obtain ⟨hwent, hctxs, honly, herr⟩ := hwork.errStep hn hj (k := k) (s1.poisonedSectors (j.next t k)) (j.blocks t).length
  rw [← h1]
  exact ⟨_, hrun, hwent, (hbytes.trans (s1.ligErr_only _).bytes).trans honly.bytes, herr, hctxs⟩

end

end Sys2Proof.Machine
end

section
/-! SUPPORT and O56. The ends of the Ligger engines' commands and what the host writes to them (R224, R227). -/

namespace Sys2Proof.Machine

/-- A command of an engine is over: its action is done, it still shows RUNNING, contexts and memory stay. -/
structure Ended (t n : Nat) (j : LigJob) (failed : Bool) (s u : State) : Prop where
  job : Table.get? u.ligger (ligKey t n) = some { j with done := true, failed := failed }
  state : u.ligState t n = 1
  ctxs : u.ctxs = s.ctxs
  memory : sameMemory s u

section
variable {s : State} {t n k op : Nat} {j : LigJob}

theorem State.ligDone_ended (h : s.ligJob t n op = some j) (failed : Bool) : Ended t n j failed s (s.ligDone t n failed) :=
  ⟨State.get?_modLig (State.ligJob_some h).1 _, (State.ligJob_some h).2.1, rfl, ⟨rfl, rfl, rfl, rfl, rfl, rfl⟩⟩

/-! ## Ranges that a command does not take (R224) -/

theorem execCopyIn_busy (hj : s.ligJob t n 0 = some j) (hb : s.padRangeBusy t j = true) (data : List Byte) :
    Completes (.copyIn t n k data) s (Ended t n j true s) := by
  refine ⟨_, ?_, State.ligDone_ended hj true⟩
  show execCopyIn t n k data s = _
  unfold execCopyIn
  rw [hj]
  exact if_pos hb

theorem execCopyOut_busy (hj : s.ligJob t n 1 = some j) (hb : s.padRangeBusy t j = true) : Completes (.copyOut t n k) s (Ended t n j true s) := by
  refine ⟨_, ?_, State.ligDone_ended hj true⟩
  show execCopyOut t n k s = _
  unfold execCopyOut
  rw [hj]
  exact if_pos hb

section
variable (hp : j.pads = true)
include hp

theorem execFillConst_pads (hj : s.ligJob t n 2 = some j) : Completes (.fillConst t n k) s (Ended t n j true s) := by
  refine ⟨_, ?_, State.ligDone_ended hj true⟩
  show execFillConst t n k s = _
  unfold execFillConst
  rw [hj]
  dsimp only
  rw [State.ligMem_pads hp]

theorem execTest_pads (hj : s.ligJob t n 4 = some j) (fails : List Nat) : Completes (.test t n k fails) s (Ended t n j true s) := by
  refine ⟨_, ?_, State.ligDone_ended hj true⟩
  show execTest t n k fails s = _
  unfold execTest
  rw [hj]
  dsimp only
  rw [State.ligMem_pads hp]

theorem execVerify_pads (hj : s.ligJob t n 5 = some j) : Completes (.verify t n k) s (Ended t n j true s) := by
  refine ⟨_, ?_, State.ligDone_ended hj true⟩
  show execVerify t n k s = _
  unfold execVerify
  rw [hj]
  dsimp only
  rw [State.ligMem_pads hp]

theorem execScrub_pads (hj : s.ligJob t n 6 = some j) : Completes (.scrub t n k) s (Ended t n j true s) := by
  refine ⟨_, ?_, State.ligDone_ended hj true⟩
  show execScrub t n k s = _
  unfold execScrub
  rw [hj]
  dsimp only
  rw [State.ligMem_pads hp]

theorem execRepair_pads (hj : s.ligJob t n 9 = some j) (ok : Bool) : Completes (.repair t n ok) s (Ended t n j true s) := by
  refine ⟨_, ?_, State.ligDone_ended hj true⟩
  show execRepair t n ok s = _
  unfold execRepair
  rw [hj]
  dsimp only
  rw [State.ligMem_pads hp]

end

/-! ## Commands on memory that end at once -/

theorem execFillRng_format (hj : s.ligJob t n 3 = some j) (hf : j.fmt ≠ 0 ∧ j.fmt ≠ 1 ∧ j.fmt ≠ 2 ∧ j.fmt ≠ 8) :
    Completes (.fillRng t n k) s (Ended t n j true s) := by
  refine ⟨_, ?_, State.ligDone_ended hj true⟩
  show execFillRng t n k s = _
  unfold execFillRng
  rw [hj]
  exact if_pos hf

theorem execRestore_refused (hj : s.ligJob t n 7 = some j) {img : SealedImage} (hok : img.ok = false) :
    Completes (.restore t n k img) s (Ended t n j true s) := by
  refine ⟨_, ?_, State.ligDone_ended hj true⟩
  show execRestore t n k img s = _
  unfold execRestore
  rw [hj]
  exact if_pos (by rw [hok]; rfl)

theorem execRebuild_refused (hj : s.ligJob t n 8 = some j)
    (hbad : (bitAt (leNat (s.devRead j.aux2 8).1) 49 = true ∧ bitAt (leNat (s.devRead j.aux2 8).1) 48 = false) ∨ bitAt (leNat (s.devRead j.aux2 8).1) 51 = true) :
    Completes (.rebuild t n k) s (Ended t n j true s) := by
  refine ⟨_, ?_, State.ligDone_ended hj true⟩
  show execRebuild t n k s = _
  unfold execRebuild
  rw [hj]
  refine if_pos ?_
  simpa using hbad

theorem execRepair_ended (hj : s.ligJob t n 9 = some j) (hp : j.pads = false) (ok : Bool) : Completes (.repair t n ok) s (Ended t n j (!ok) s) := by
  refine ⟨_, ?_, State.ligDone_ended hj (!ok)⟩
  show execRepair t n ok s = _
  unfold execRepair
  rw [hj]
  dsimp only
  rw [State.ligMem_mem hp]

/-! ## The end of a command (R224) -/

theorem execLiggerCommandDone_spec (hn : n < 4) (hget : Table.get? s.ligger (ligKey t n) = some j) (hdone : j.done = true)
    (hlive : s.alive (thatchDie t) = true) (hrun : s.ligState t n = 1) :
    Completes (.liggerCommandDone t n) s fun u =>
      u.ligState t n = (if j.failed then 3 else 2) ∧ Table.get? u.ligger (ligKey t n) = none
        ∧ u.rf (bar0 (thatchDie t) 0 Off.PG_IRQ_RAW) (4 + n) (4 + n) = 1 ∧ sameMemory s u := by
  obtain ⟨z, hz⟩ : ∃ z, z = ({ s with ligger := Table.erase s.ligger (ligKey t n) } : State).setLig t n (if j.failed then 3 else 2) := ⟨_, rfl⟩
  have hexec : execLiggerCommandDone t n s = .next (z.raisePg (thatchDie t) 0 (4 + n)) := by
    unfold execLiggerCommandDone
    rw [hget, Option.filter_some, if_pos hdone, hz]
    exact if_pos ⟨hlive, hrun⟩
  have hcore := z.raisePg_core (thatchDie t) 0 (4 + n)
  have hmod := ligReg_mod (t := t) (off := Off.THC_LIG_STS) hn (by decide)
  have hstate : z.ligState t n = if j.failed then 3 else 2 := by
    rw [hz]
    refine (State.rf_wf_self _ _ _ _ _ (by decide) (by decide)).trans (Nat.mod_eq_of_lt ?_)
    split <;> decide
  have hmem : sameMemory s z := by rw [hz]; exact ⟨rfl, rfl, rfl, rfl, rfl, rfl⟩
  refine ⟨_, hexec, ?_, ?_, z.raisePg_bit _ 0 (by omega), hmem.trans ?_⟩
  · rw [State.ligState, State.rf_eq, z.reg_raisePg, ← State.rf_eq]
    · exact hstate
    · rw [hmod]; simp only [Off.THC_LIG_STS, Off.PG_IRQ_RAW]; omega
    · rw [hmod]; simp only [Off.THC_LIG_STS, Off.PG_IRQ_EN]; omega
  · rw [(congrArg State.ligger hcore :), hz]
    exact (Table.get?_erase _ _ _).trans (if_pos rfl)
  · exact ⟨(congrArg State.mem hcore :), (congrArg State.poison hcore :), (congrArg State.cache hcore :), (congrArg State.scratch hcore :),
      (congrArg State.scratchPoison hcore :), (congrArg State.hostMem hcore :)⟩

/-! ## RESUME and ABORT (R227) -/

theorem ligCtl_lt (ht : t < 16) (hn : n < 4) : ligReg t n Off.THC_LIG_CTL < 2 ^ 24 :=
  bar0_lt ((by decide : ∀ t < 16, thatchDie t < 64) t ht) (by decide) (by simp only [Off.THC_LIG_CTL]; omega)

/-- The control register of an engine acts when it is written. -/
theorem State.write8_ligCtl {src : HostSrc} (ht : t < 16) (hn : n < 4) (hw : WriteReaches s src (ligReg t n Off.THC_LIG_CTL)) (v : Word) :
    s.write8 src (ligReg t n Off.THC_LIG_CTL) v
      = let s1 := if fld v 0 0 = 1 then s.ligResume t n else s
        if fld v 1 1 = 1 then s1.ligAbort t n else s1 := by
  have hall : ∀ t < 16, pageAt (thatchDie t) 0 = some .thc ∧ thatchDie t < 64 ∧ thatchIdx (thatchDie t) = t := by decide +kernel
  have hreg : ∀ n < 4, ∃ r ∈ findReg (pageRegs .thc) (Off.THC_LIG_CTL + 0x40 * n), r.free = true := by decide +kernel
  obtain ⟨hpage, hdie, hidx⟩ := hall t ht
  obtain ⟨r, hr, hfree⟩ := hreg n hn
  have hlt : Off.THC_LIG_CTL + 0x40 * n < 4096 := by simp only [Off.THC_LIG_CTL]; omega
  have hoff : offOf (ligReg t n Off.THC_LIG_CTL) = Off.THC_LIG_CTL + 0x40 * n := offOf_bar0 hdie (by decide) hlt
  have hkind : pageOf (ligReg t n Off.THC_LIG_CTL) = some .thc := (pageOf_bar0 hdie (by decide) hlt).trans hpage
  have hat : regAt (ligReg t n Off.THC_LIG_CTL) = some r := by
    rw [show ligReg t n Off.THC_LIG_CTL = bar0 (thatchDie t) 0 (Off.THC_LIG_CTL + 0x40 * n) from rfl, regAt_bar0 hdie (by decide) hlt, hpage, Option.bind_some]
    exact hr
  have hd : ligReg t n Off.THC_LIG_CTL / 2 ^ 18 = thatchDie t := by
    simp only [ligReg, bar0, Off.THC_LIG_CTL]
    omega
  refine (State.write8_low v hw (bar0_lt hdie (by decide) hlt) hkind (by decide) hat hfree).trans ?_
  unfold State.writeReg State.writeThc
  rw [hkind, hat, hoff, hd]
  have h1 : ¬ Off.THC_LIG_CTL + 0x40 * n < 0x80 := by simp only [Off.THC_LIG_CTL]; omega
  have h2 : ¬ Off.THC_LIG_CTL + 0x40 * n = Off.THC_MEM_CLR := by simp only [Off.THC_LIG_CTL, Off.THC_MEM_CLR]; omega
  have h3 : ¬ Off.THC_LIG_CTL + 0x40 * n < 0x200 := by simp only [Off.THC_LIG_CTL]; omega
  have h4 : (Off.THC_LIG_CTL + 0x40 * n - 0x200) % 0x40 = 0x38 := by simp only [Off.THC_LIG_CTL]; omega
  have h5 : (Off.THC_LIG_CTL + 0x40 * n - 0x200) / 0x40 = n := by simp only [Off.THC_LIG_CTL]; omega
  dsimp only
  rw [if_neg h1, if_neg h2, if_neg h3, hidx, h4, h5]
  rfl

section
variable {src : HostSrc} (ht : t < 16) (hn : n < 4) (hw : WriteReaches s src (ligReg t n Off.THC_LIG_CTL))
include ht hn hw

theorem execLiggerResume_run : execLiggerResume src t n s = .next (s.ligResume t n) := by
  unfold execLiggerResume
  rw [Nat.mod_eq_of_lt ht, Nat.mod_eq_of_lt hn, State.write8_ligCtl ht hn hw]
  have h0 : fld (field 0 1) 0 0 = 1 := by decide
  have h1 : fld (field 0 1) 1 1 ≠ 1 := by decide
  dsimp only
  rw [if_neg h1, if_pos h0]

theorem execLiggerAbort_run : execLiggerAbort src t n s = .next (s.ligAbort t n) := by
  unfold execLiggerAbort
  rw [Nat.mod_eq_of_lt ht, Nat.mod_eq_of_lt hn, State.write8_ligCtl ht hn hw]
  have h0 : fld (field 1 1) 0 0 ≠ 1 := by decide
  have h1 : fld (field 1 1) 1 1 = 1 := by decide
  dsimp only
  rw [if_pos h1, if_neg h0]

theorem execLiggerResume_paused (hp : s.ligState t n = 4) :
    Completes (.liggerResume src t n) s fun u => u.ligState t n = 1 ∧ wroteRegs src [ligReg t n Off.THC_LIG_STS] s u := by
  refine ⟨_, (execLiggerResume_run ht hn hw).trans (congrArg Host.Outcome.next (if_pos hp)), State.rf_wf_self _ _ _ _ _ (by decide) (by decide), ?_⟩
  exact hw.wrote (ligCtl_lt ht hn) (.wf _ _ _ _ _)
    ((sameRegsBut.refl _ _).wf (List.mem_singleton.mpr rfl) _ _ _)

theorem execLiggerResume_idle (hp : s.ligState t n ≠ 4) : Completes (.liggerResume src t n) s fun u => wroteRegs src [] s u :=
  ⟨_, (execLiggerResume_run ht hn hw).trans (congrArg Host.Outcome.next (if_neg hp)),
    hw.wrote (ligCtl_lt ht hn) rfl (.refl _ _)⟩

theorem execLiggerAbort_spec (hp : s.ligState t n = 1 ∨ s.ligState t n = 4) :
    Completes (.liggerAbort src t n) s fun u =>
      u.ligState t n = 5 ∧ Table.get? u.ligger (ligKey t n) = none ∧ sameRegsBut (ligReg t n Off.THC_LIG_STS :: pcieOf src) s u ∧ sameMemory s u := by
  refine ⟨_, (execLiggerAbort_run ht hn hw).trans (congrArg Host.Outcome.next (if_pos hp)), State.rf_wf_self _ _ _ _ _ (by decide) (by decide),
    (Table.get?_erase _ _ _).trans (if_pos rfl), ?_, ⟨rfl, rfl, rfl, rfl, rfl, rfl⟩⟩
  refine hw.others (ligCtl_lt ht hn) ?_
  exact sameRegsBut.wf (t := { s with ligger := Table.erase s.ligger (ligKey t n) }) (fun _ _ => rfl) (List.mem_singleton.mpr rfl) _ _ _

end
end

/-! ## Obligation O56 -/

section
variable {q : List Instr} {s : State} (hs : s.Good q) {t n k : Nat} {j : LigJob} (hn : n < 4)
include hs hn

theorem execFillConst_spec (hj : s.ligJob t n 2 = some j) (hp : j.pads = false) :
    Completes (.fillConst t n k) s fun u =>
      Went t n k j j.crc (j.blocks t).length u ∧ KeptOutside (fun x => ∃ p ∈ j.next t k, p.1 ≤ x ∧ x < p.1 + p.2.2) s u
        ∧ (∀ b kd q w g o, j.next t k = [b] → dpaLoc b.1 = .mem kd q w g o → s.memOk kd w g = true → ∀ i, i < b.2.2 →
            (u.dpaByte (b.1 + i)).1 = (leBytes 8 j.aux).getD ((b.1 + i) % 8) 0) ∧ u.ctxs = s.ctxs := by
  refine ⟨_, ?_, State.ligFill_spec hs hn hj fun a => (leBytes 8 j.aux).getD (a % 8) 0⟩
  show execFillConst t n k s = _
  unfold execFillConst
  rw [hj]
  dsimp only
  rw [State.ligMem_mem hp]

theorem execFillRng_spec (hj : s.ligJob t n 3 = some j) (hp : j.pads = false) (hf : j.fmt = 0 ∨ j.fmt = 1 ∨ j.fmt = 2 ∨ j.fmt = 8) :
    Completes (.fillRng t n k) s fun u =>
      Went t n k j j.crc (j.blocks t).length u ∧ KeptOutside (fun x => ∃ p ∈ j.next t k, p.1 ≤ x ∧ x < p.1 + p.2.2) s u
        ∧ (∀ b kd q w g o, j.next t k = [b] → dpaLoc b.1 = .mem kd q w g o → s.memOk kd w g = true → ∀ i, i < b.2.2 →
            (u.dpaByte (b.1 + i)).1 = (j.fillElem ((b.1 + i - j.base) / elemBytes j.fmt)).getD ((b.1 + i - j.base) % elemBytes j.fmt) 0) ∧ u.ctxs = s.ctxs := by
  refine ⟨_, ?_, State.ligFill_spec hs hn hj fun a => (j.fillElem ((a - j.base) / elemBytes j.fmt)).getD ((a - j.base) % elemBytes j.fmt) 0⟩
  show execFillRng t n k s = _
  unfold execFillRng
  rw [hj]
  dsimp only
  rw [if_neg (by omega), State.ligMem_mem hp]

end

end Sys2Proof.Machine
end

section
/-! O56: the Ligger engines act on the sectors of their range and on no other byte. -/

namespace Sys2Proof.Machine

/-- A command that is over at once, in the words of the statement. -/
theorem Completes.ended {i : Instr} {s : State} {t n : Nat} {j : LigJob} {failed : Bool} (h : Completes i s (Ended t n j failed s)) :
    Completes i s fun u => Table.get? u.ligger (ligKey t n) = some { j with done := true, failed := failed } ∧ u.ligState t n = 1 ∧ u.ctxs = s.ctxs
      ∧ sameMemory s u := by
  obtain ⟨u, hrun, hjob, hstate, hctxs, hmem⟩ := h
  exact ⟨u, hrun, hjob, hstate, hctxs, hmem⟩

/-- The commands of which a range in the scratchpad window is refused (R224). -/
theorem windowCommand_ended {s : State} {t n k op : Nat} {j : LigJob} (hp : j.pads = true) {i : Instr} (hj : s.ligJob t n op = some j)
    (hi : (op, i) ∈ [(2, Instr.fillConst t n k), (4, .test t n k []), (5, .verify t n k), (6, .scrub t n k), (9, .repair t n true)]) :
    Completes i s (Ended t n j true s) := by
  simp only [List.mem_cons, Prod.mk.injEq, List.not_mem_nil, or_false] at hi
  rcases hi with ⟨rfl, rfl⟩ | ⟨rfl, rfl⟩ | ⟨rfl, rfl⟩ | ⟨rfl, rfl⟩ | ⟨rfl, rfl⟩
  · exact execFillConst_pads hp hj
  · exact execTest_pads hp hj []
  · exact execVerify_pads hp hj
  · exact execScrub_pads hp hj
  · exact execRepair_pads hp hj true

/-- Settles O56: each command by the rule of its action on memory (`Stored`, `KeptOutside`, `keepsBytes`) and by what a step of the engine leaves. -/
theorem liggerEnginesActOnTheirSectors : Obligations.LiggerEnginesActOnTheirSectors := by
  refine ⟨fun s t n k j hinv ht hn => ?_, fun s t n j _ hn hget hdone hlive hrun => execLiggerCommandDone_spec hn hget hdone hlive hrun,
    fun s src t n ht hn hw => ⟨execLiggerResume_paused ht hn hw, execLiggerResume_idle ht hn hw, execLiggerAbort_spec ht hn hw⟩⟩
  have hs : s.Good s.pending := (State.good_iff _ s).mpr ⟨hinv, rfl⟩
  have hwent : ∀ {crc total u}, Went t n k j crc total u →
      Table.get? u.ligger (ligKey t n) = some { j with crc := crc, at_ := j.at_ + k, done := decide (total ≤ j.at_ + k) } ∧ u.ligState t n = 1 :=
    fun h => ⟨h.job, h.state⟩
  have hout : ∀ {u : State}, KeptOutside (fun x => ∃ p ∈ j.next t k, p.1 ≤ x ∧ x < p.1 + p.2.2) s u →
      ∀ a, (∀ b ∈ j.next t k, ∀ i, i < b.2.2 → dpaLoc a ≠ dpaLoc (b.1 + i)) → (u.dpaByte a).1 = (s.dpaByte a).1 := fun h => h.blocks fun _ hy => hy
  intro l went ended total bytes outside single errs
  refine ⟨fun hb => ⟨fun data hj => (execCopyIn_busy hj hb data).ended, fun hj => (execCopyOut_busy hj hb).ended⟩, fun hb => ⟨fun data hj => ?_, fun hj => ?_⟩,
    fun hp op i hj hi => (windowCommand_ended hp hj hi).ended, fun hp => ⟨fun hj => ?_, fun hj => ?_, fun fails hj => ?_, fun hj => ?_, fun hj => ?_, fun img hj => ?_,
      fun hj => ?_, fun ok hj => (execRepair_ended hj hp ok).ended⟩⟩
  · obtain ⟨u, hrun, h1, h2, h3, h4, h5⟩ := execCopyIn_spec hs hn (k := k) hj hb data
    exact ⟨u, hrun, hwent h1, hout h2, h3, h4, h5⟩
  · obtain ⟨u, hrun, h1, h2, h3, h4, h5⟩ := execCopyOut_spec hs hn (k := k) hj hb
    exact ⟨u, hrun, hwent h1, h2, h3, h4, h5⟩
  · obtain ⟨u, hrun, h1, h2, h3, h4⟩ := execFillConst_spec hs hn (k := k) hj hp
    exact ⟨u, hrun, hwent h1, hout h2, h3, h4⟩
  · intro w
    refine ⟨fun hf => ?_, fun h0 h1 h2 h8 => (execFillRng_format hj ⟨h0, h1, h2, h8⟩).ended⟩
    obtain ⟨u, hrun, h1, h2, h3, h4⟩ := execFillRng_spec hs hn (k := k) hj hp hf
    exact ⟨u, hrun, hwent h1, hout h2, h3, h4⟩
  · obtain ⟨u, hrun, h1, h2, h3, h4, h5⟩ := execTest_spec hs hn (k := k) hj hp fails
    exact ⟨u, hrun, hwent h1, hout h2, h3, h4, h5⟩
  · obtain ⟨u, hrun, h1, h2, h3, h4, h5⟩ := execVerify_spec hs hn (k := k) hj hp
    refine ⟨u, hrun, ?_⟩
    beta_reduce
    intro crc
    exact ⟨hwent h1, h2, h3, h4, h5⟩
  · obtain ⟨u, hrun, h1, h2, h3, h4⟩ := execScrub_spec hs hn (k := k) hj hp
    exact ⟨u, hrun, hwent h1, h2, h3, h4⟩
  · intro c
    refine ⟨fun hok => (execRestore_refused hj hok).ended, fun hok => ?_⟩
    obtain ⟨u, hrun, h1, h2, h3⟩ := execRestore_spec hn (k := k) hj hp img hok
    exact ⟨u, hrun, hwent h1, h2, h3⟩
  · intro w
    refine ⟨fun hbad => (execRebuild_refused hj hbad).ended, fun hbusy hbad => ?_⟩
    obtain ⟨u, hrun, h1, h2, h3⟩ := execRebuild_spec hs hn (k := k) hj hp hbusy hbad
    exact ⟨u, hrun, hwent h1, h2, h3⟩

end Sys2Proof.Machine
end

section
/-! O25: a refused write of BTN_RETIRE keeps the mask (R321). -/

namespace Sys2Proof.Machine

/-- Refutes O25: the statement has BTN_RETIRE.MASK take every mask that is written; a mask that leaves fewer than 7 strands is ignored and only sets
BAD (R321). On a package that is ready the mask 0xFF leaves none, and the register keeps its 0. -/
theorem not_packageAndDieRegisterWrites : ¬ Obligations.PackageAndDieRegisterWrites := by
  unfold Obligations.PackageAndDieRegisterWrites
  intro h
  obtain ⟨-, -, hretire, -, -⟩ := h
  have hreach : WriteReaches (State.ready []) (.pf false) (btnReg 1 0 Off.BTN_RETIRE) := by
    refine ⟨rfl, ?_, ?_, ?_, ?_⟩ <;> decide +kernel
  obtain ⟨t, hrun, hmask, -⟩ := hretire _ _ 1 0 255 (by decide) (by decide) (by decide) (by decide) hreach
  cases hrun
  revert hmask
  decide +kernel

end Sys2Proof.Machine
end

section
/-! SUPPORT. What an accepted frame's payload does, by its type: bytes poured into context memory (R400), STAGE (R176), GUEST (R336), mirrors (R349,
R350, R353), relays (R295). -/

namespace Sys2Proof.Machine

/-! ## Bytes poured into context memory -/

/-- What a write through translation leaves of contexts and registers: of context `c` all but the translation cache, of registers those of stacks. -/
structure Poured (c : Nat) (s u : State) : Prop where
  others : ∀ k, k ≠ c → u.ctx k = s.ctx k
  own : u.ctx c = { s.ctx c with tlb := (u.ctx c).tlb }
  regs : keepsOthers s u

namespace Poured
variable {c : Nat} {s t u : State}

theorem refl (s : State) : Poured c s s := ⟨fun _ _ => rfl, rfl, .refl s⟩

theorem trans (h : Poured c s t) (g : Poured c t u) : Poured c s u :=
  ⟨fun k hk => (g.others k hk).trans (h.others k hk), by rw [g.own, h.own], h.regs.trans g.regs⟩

theorem forAll {α : Type} (l : List α) (f : α → State → State) (hf : ∀ a s, Poured c s (f a s)) (s : State) : Poured c s (forAll l f s) :=
  forAll_induct (P := Poured c s) (fun a t h => h.trans (hf a t)) l (refl s)

theorem of_ctxs (h : u.ctxs = s.ctxs) (hr : keepsOthers s u) : Poured c s u :=
  ⟨fun k _ => by rw [State.ctx, h, State.ctx], by rw [State.ctx, h, State.ctx], hr⟩

end Poured

theorem State.dpaPutIn_ctxs (s : State) (a : Nat) (data : List Byte) (p : Bool) : (s.dpaPutIn a data p).ctxs = s.ctxs := by
  unfold State.dpaPutIn
  split
  · split
    · exact (congrArg State.ctxs (s.putSector_stacks _ _ _ _) :)
    · rfl
  · exact (congrArg State.ctxs (s.padWrite_only _ _ _ _) :)
  · rfl

theorem State.raiseCtx_ctxs (s : State) (c b : Nat) : (s.raiseCtx c b).ctxs = s.ctxs := by
  refine forAll_induct (P := fun t : State => t.ctxs = s.ctxs) (fun b t h => ?_) (List.range 7) rfl
  split
  · exact h
  · exact h

theorem State.fillTlb_poured (s : State) (c va : Nat) : Poured c s (s.fillTlb c va) where
  others := (s.fillTlb_restored c va).ctxs
  own := by
    obtain ⟨l, hl⟩ := s.fillTlb_butTlb c va c
    rw [hl]
  regs := (s.fillTlb_restored c va).regs

theorem State.usePlace_poured (s : State) (c va : Nat) (plain : Bool) : Poured c s (s.usePlace c va plain) := by
  unfold State.usePlace
  split
  · exact .refl s
  · exact s.fillTlb_poured c _

theorem State.vaPutP_poured (s : State) (c va : Nat) (plain : Bool) (l : List PByte) : Poured c s (s.vaPutP c va plain l) := by
  refine Poured.forAll _ _ (fun p t => ?_) s
  dsimp only
  split
  · exact t.usePlace_poured c _ _
  · have htouch : ∀ (v : State) a n, Poured c v (v.touch a n true false) := fun v a n => .of_ctxs (v.touch_worked a n _ _).ctxs (v.touch_worked a n _ _).regs
    refine ((t.usePlace_poured c p.1 plain).trans (htouch _ _ _)).trans (Poured.forAll _ _ (fun q u => ?_) _)
    · exact .of_ctxs (u.dpaPutIn_ctxs _ _ _) (.of_regs (u.dpaPutIn_regs _ _ _))

/-! ## INGEST (R400) -/

section
variable {s : State} {c : Nat} (hp : (s.ctx c).phase = .normal)
include hp

/-- Behind an INGEST frame of a context in service: what is written, what is counted of it, and behind the last frame the count and the interrupt. -/
theorem State.takeIngest_spec (data : List PByte) (last : Bool) :
    ∃ s1 s2, Poured c s s1 ∧ (s2 = s1 ∨ s2 = s1.cSat c Off.CTX_INGEST 63 32 1)
      ∧ ((s.cf c Off.CTX_INGEST_WIN 55 32 + 1) * 65536 - leNat ((data.take 8).map (·.1)) % 2 ^ 40 < (data.drop 8).length → s2 = s1.cSat c Off.CTX_INGEST 63 32 1)
      ∧ s.takeIngest c data last = if last then (s2.cWrap c Off.CTX_INGEST 31 0 1).raiseCtx c 5 else s2 := by
  obtain ⟨room, hroom⟩ : ∃ room, room = (s.cf c Off.CTX_INGEST_WIN 55 32 + 1) * 65536 - leNat ((data.take 8).map (·.1)) % 2 ^ 40 := ⟨_, rfl⟩
  obtain ⟨a, ha⟩ : ∃ a, a = s.cf c Off.CTX_INGEST_WIN 31 0 * 65536 + leNat ((data.take 8).map (·.1)) % 2 ^ 40 := ⟨_, rfl⟩
  refine ⟨s.vaPutP c a false ((data.drop 8).take room), if room < (data.drop 8).length ∨ !s.putOk c a ((data.drop 8).take room).length false then
    (s.vaPutP c a false ((data.drop 8).take room)).cSat c Off.CTX_INGEST 63 32 1 else s.vaPutP c a false ((data.drop 8).take room),
    s.vaPutP_poured c _ _ _, ?_, fun h => if_pos (Or.inl (by rw [hroom]; exact h)), ?_⟩
  · split
    · exact Or.inr rfl
    · exact Or.inl rfl
  · unfold State.takeIngest
    rw [if_neg (by rw [hp]; simp), hroom, ha]

/-- The last frame of an INGEST (R400). -/
theorem State.takeIngest_last (data : List PByte) :
    let u := s.takeIngest c data true
    u.cf c Off.CTX_INGEST 31 0 = (s.cf c Off.CTX_INGEST 31 0 + 1) % 2 ^ 32 ∧ u.cf c Off.CTX_IRQ_RAW 5 5 = 1 ∧ (∀ k, k ≠ c → u.ctx k = s.ctx k)
      ∧ u.ctx c = { s.ctx c with tlb := (u.ctx c).tlb } := by
  obtain ⟨s1, s2, hpour, hs2, -, heq⟩ := s.takeIngest_spec hp data true
  rw [heq, if_pos rfl]
  have honly : onlyRegs s1 s2 := by
    rcases hs2 with rfl | rfl
    · rfl
    · exact .sat _ _ _ _ _
  have hctxs : ((s2.cWrap c Off.CTX_INGEST 31 0 1).raiseCtx c 5).ctxs = s1.ctxs :=
    (State.raiseCtx_ctxs _ c 5).trans (congrArg State.ctxs (honly.trans (.wrap s2 _ _ _ _)) :)
  have hcount : s2.rf (ctxA c Off.CTX_INGEST) 31 0 = s.rf (ctxA c Off.CTX_INGEST) 31 0 := by
    have h1 : s1.rf (ctxA c Off.CTX_INGEST) 31 0 = s.rf (ctxA c Off.CTX_INGEST) 31 0 := by
      rw [State.rf_eq, hpour.regs _ (offStacks_ctxA c _), State.rf_eq]
    rcases hs2 with rfl | rfl
    · exact h1
    · exact (s1.rf_sat_halves _ 1).2.1.trans h1
  refine ⟨?_, ?_, fun k hk => ?_, ?_⟩
  · rw [State.cf_eq, State.rf_eq, State.reg_raiseCtx _ _ _ (by rw [ctxA_mod c (by decide)]; decide), State.cf_eq, ← hcount, ← State.rf_eq]
    exact State.rf_wf_self _ _ _ _ _ (by decide) (by decide)
  · rw [State.cf_eq, State.rf_eq, State.raiseCtx_raw]
    exact fld_or_bit _ (by decide)
  · rw [State.ctx, hctxs]
    exact hpour.others k hk
  · rw [State.ctx, hctxs]
    exact hpour.own

/-- Data beyond the window are counted, whatever frame of the packet it is. -/
theorem State.takeIngest_beyond {data : List PByte} (hlong : (s.cf c Off.CTX_INGEST_WIN 55 32 + 1) * 65536
      < leNat ((data.take 8).map (·.1)) % 2 ^ 40 + (data.length - 8)) (hbody : 8 < data.length) (last : Bool) :
    (s.takeIngest c data last).cf c Off.CTX_INGEST 63 32 = satPlus 32 (s.cf c Off.CTX_INGEST 63 32) 1 := by
  obtain ⟨s1, s2, hpour, -, hs2, heq⟩ := s.takeIngest_spec hp data last
  have hcount : s2.rf (ctxA c Off.CTX_INGEST) 63 32 = satPlus 32 (s.rf (ctxA c Off.CTX_INGEST) 63 32) 1 := by
    rw [hs2 (by rw [List.length_drop]; omega), State.cSat_eq, (s1.rf_sat_halves _ 1).1, State.rf_eq, hpour.regs _ (offStacks_ctxA c _), ← State.rf_eq]
  rw [heq, State.cf_eq, State.cf_eq, ← hcount]
  split
  · rw [State.rf_eq, State.reg_raiseCtx _ _ _ (by rw [ctxA_mod c (by decide)]; decide), State.cWrap_eq, State.wrap_eq, State.reg_of_noteCount, State.wf_eq,
      State.reg_setReg_self, fld_ins_above _ 31 0 _ 63 32 (by decide) (by decide) (by decide), State.rf_eq]
  · rfl

end

theorem State.takeIngest_faulted {s : State} {c : Nat} (hp : (s.ctx c).phase ≠ .normal) (data : List PByte) (last : Bool) :
    s.takeIngest c data last = s := if_pos hp

/-! ## STAGE (R176) -/

/-- A frame for a link that does not take any is discarded, and its last one counted. -/
theorem State.takeStage_closed {s : State} {c l : Nat} (h : ∀ e, Table.get? (s.ctx c).links l = some e → e.rxEn = false) (src port : Nat) (data : List PByte)
    (last : Bool) :
    let u := s.takeStage c l src port data last
    onlyRegs s u ∧ u.rf (bar0 (portDie port) 0 Off.EAV_DROP) 63 48 = satPlus 16 (s.rf (bar0 (portDie port) 0 Off.EAV_DROP) 63 48) (if last then 1 else 0) := by
  have hnone : (Table.get? (s.ctx c).links l).filter (·.rxEn) = none := by
    match he : Table.get? (s.ctx c).links l with
    | none => rfl
    | some e => exact (Option.filter_some ..).trans (if_neg (by rw [h e he]; simp))
  have heq : s.takeStage c l src port data last = if last then s.eavSat port Off.EAV_DROP 63 48 else s := by
    unfold State.takeStage
    rw [hnone]
  rw [heq]
  split
  · exact ⟨.sat _ _ _ _ _, s.rf_sat_self _ 63 48 1 (by decide) (by decide)⟩
  · refine ⟨rfl, ?_⟩
    have : s.rf (bar0 (portDie port) 0 Off.EAV_DROP) 63 48 < 2 ^ 16 := bits_lt _ 63 48
    unfold satPlus
    omega

/-- A packet longer than the link takes faults its context (R173). -/
theorem State.takeStage_tooLong {s : State} {c l : Nat} {e : StageLink} (he : Table.get? (s.ctx c).links l = some e) (hrx : e.rxEn = true)
    (hp : (s.ctx c).phase = .normal) (ht : (s.queue c l).tail = false) (hk : (s.queue c l).skipping = false) (hw : (s.queue c l).partialWords = [])
    (src port : Nat) (data : List PByte) (last : Bool) (hlen : e.maxLen < leNat ((cutP data (4, 2)).map (·.1)) % 4096 + 1) :
    (⟨c, 5, none⟩ : PendFault) ∈ (s.takeStage c l src port data last).cycle.faults := by
  unfold State.takeStage
  rw [he, Option.filter_some, if_pos hrx]
  dsimp only
  rw [ht, hk, hw, if_neg (by simp), if_neg (by rw [hp]; simp), if_neg (by simp), if_neg (by simp), if_pos hlen]
  exact State.detect_mem _ _

/-! ## GUEST (R336) -/

section
variable {s : State} {i src : Nat} (hi : i < 2) (hon : s.siteOn i = true) (data : List Byte)
include hi hon

theorem State.takeGuest_admitted (hw : ∃ w, w < 16 ∧ (s.window i w).kind = 2 ∧ (s.window i w).rd = true ∧ (s.window i w).dpa % 2 ^ 20 = src) :
    s.takeGuest i src data = s.answer i (some data) := by
  obtain ⟨w, hlt, hk, hr, hd⟩ := hw
  unfold State.takeGuest
  rw [if_neg (by rw [hon]; simp; omega)]
  refine if_pos ?_
  refine List.any_eq_true.mpr ⟨s.window i w, List.mem_map.mpr ⟨w, List.mem_range.mpr hlt, rfl⟩, ?_⟩
  rw [hr, decide_eq_true hk, decide_eq_true hd]
  rfl

theorem State.takeGuest_refused (hw : ∀ w, w < 16 → (s.window i w).kind = 2 → (s.window i w).rd = true → (s.window i w).dpa % 2 ^ 20 ≠ src) :
    s.takeGuest i src data = s.violation i 4 src := by
  unfold State.takeGuest
  rw [if_neg (by rw [hon]; simp; omega), if_neg]
  intro hany
  obtain ⟨x, hx, hp⟩ := List.any_eq_true.mp hany
  obtain ⟨w, hlt, rfl⟩ := List.mem_map.mp hx
  simp only [Bool.and_eq_true, decide_eq_true_eq] at hp
  exact hw w (List.mem_range.mp hlt) hp.1.1 hp.1.2 hp.2

end

/-! ## Mirrors (R349, R350) -/

section
variable {s : State} {c src : Nat} {m : MirrorMsg} {g : MirrorGen} (hg : (s.ctx c).mirrorGen = some g) (hend : g.endSent = true) (hgen : g.gen = m.gen)
  (hsrc : src = s.buddy c)
include hg hend hgen hsrc

/-- The state behind an acknowledgement, its last fields apart. -/
theorem State.takeMirrorAck_eq :
    s.takeMirrorAck c src m
      = let s1 := (s.modCtx c fun x => { x with mirrorGen := none, mirrorDoneAt := s.now }).wf (ctxA c Off.CTX_MIR_STS) 50 50 (b2n m.err)
        if m.err then s1.ctxFault c 19 else (s1.wf (ctxA c Off.CTX_MIR_STS) 47 0 g.gen.toNat).wf (ctxA c Off.CTX_MIR_STS) 49 49 1 := by
  unfold State.takeMirrorAck
  rw [hg]
  exact if_neg (by simp [hsrc, hend, hgen])

theorem State.takeMirrorAck_spec :
    let u := s.takeMirrorAck c src m
    u.cf c Off.CTX_MIR_STS 50 50 = b2n m.err
      ∧ (m.err = false → (u.ctx c).mirrorGen = none ∧ (u.ctx c).mirrorDoneAt = s.now ∧ u.cf c Off.CTX_MIR_STS 47 0 = g.gen.toNat
          ∧ u.cf c Off.CTX_MIR_STS 49 49 = 1 ∧ sameMemory s u)
      ∧ (m.err = true → (⟨c, 19, none⟩ : PendFault) ∈ u.cycle.faults) := by
  rw [State.takeMirrorAck_eq hg hend hgen hsrc]
  obtain ⟨z, hz⟩ : ∃ z, z = s.modCtx c fun x => { x with mirrorGen := none, mirrorDoneAt := s.now } := ⟨_, rfl⟩
  rw [← hz]
  have hctx : z.ctx c = { s.ctx c with mirrorGen := none, mirrorDoneAt := s.now } := by rw [hz, State.modCtx_self]
  have hmem : sameMemory s z := by rw [hz]; exact ⟨rfl, rfl, rfl, rfl, rfl, rfl⟩
  have hb : b2n m.err < 2 := by cases m.err <;> decide
  have hown : (z.wf (ctxA c Off.CTX_MIR_STS) 50 50 (b2n m.err)).rf (ctxA c Off.CTX_MIR_STS) 50 50 = b2n m.err :=
    (State.rf_wf_self _ _ _ _ _ (by decide) (by decide)).trans (Nat.mod_eq_of_lt hb)
  dsimp only
  cases herr : m.err with
  | true =>
    rw [herr] at hown
    rw [if_pos rfl]
    refine ⟨?_, fun h => (by cases h), fun _ => State.detect_mem _ _⟩
    rw [State.cf_eq, State.rf_eq, ((z.wf _ _ _ _).ctxFault_rewired c 19).reg _ (by rw [ctxA_mod c (by decide)]; decide), ← State.rf_eq]
    exact hown
  | false =>
    rw [herr] at hown
    obtain ⟨z1, h1⟩ : ∃ z1, z1 = z.wf (ctxA c Off.CTX_MIR_STS) 50 50 (b2n false) := ⟨_, rfl⟩
    obtain ⟨z2, h2⟩ : ∃ z2, z2 = z1.wf (ctxA c Off.CTX_MIR_STS) 47 0 g.gen.toNat := ⟨_, rfl⟩
    rw [← h1] at hown ⊢
    rw [← h2, if_neg (by simp)]
    have hgen2 : z2.rf (ctxA c Off.CTX_MIR_STS) 47 0 = g.gen.toNat := by
      rw [h2]
      exact (State.rf_wf_self _ _ _ _ _ (by decide) (by decide)).trans (Nat.mod_eq_of_lt g.gen.isLt)
    have hother : z2.rf (ctxA c Off.CTX_MIR_STS) 50 50 = b2n false := by
      rw [h2, State.rf_eq, State.wf_eq, State.reg_setReg_self, fld_ins_above _ 47 0 _ 50 50 (by decide) (by decide) (by decide), ← State.rf_eq]
      exact hown
    have honly : onlyRegs z (z2.wf (ctxA c Off.CTX_MIR_STS) 49 49 1) := by
      have hz1 : onlyRegs z z1 := by rw [h1]; exact .wf _ _ _ _ _
      have hz2 : onlyRegs z1 z2 := by rw [h2]; exact .wf _ _ _ _ _
      exact (hz1.trans hz2).trans (.wf _ _ _ _ _)
    have hctx2 : (z2.wf (ctxA c Off.CTX_MIR_STS) 49 49 1).ctx c = { s.ctx c with mirrorGen := none, mirrorDoneAt := s.now } := by
      rw [← hctx, State.ctx, (congrArg State.ctxs honly :), State.ctx]
    refine ⟨?_, fun _ => ⟨by rw [hctx2], by rw [hctx2], ?_, ?_, hmem.trans ?_⟩, fun h => (by cases h)⟩
    · rw [State.cf_eq, State.rf_eq, State.wf_eq, State.reg_setReg_self, fld_ins_above _ 49 49 _ 50 50 (by decide) (by decide) (by decide), ← State.rf_eq]
      exact hother
    · exact (State.rf_wf_below _ _ _ _ _ _ _ (by decide) (by decide) (by decide) (by decide)).trans hgen2
    · exact State.rf_wf_self _ _ _ _ _ (by decide) (by decide)
    · exact ⟨(congrArg State.mem honly :), (congrArg State.poison honly :), (congrArg State.cache honly :), (congrArg State.scratch honly :),
        (congrArg State.scratchPoison honly :), (congrArg State.hostMem honly :)⟩

end

end Sys2Proof.Machine
end

section
/-! SUPPORT. Control messages and collective data of an accepted frame: the rules of the group table (R246, R248, R266, R277, R280, R283). -/

namespace Sys2Proof.Machine

/-! ## What a group does not let in (R283) -/

theorem State.groupFor_some {s : State} {c gi : Nat} {g : Group} (hg : Table.get? s.groups gi = some g) (hc : g.ctx = c) : s.groupFor c gi = some g := by
  unfold State.groupFor
  rw [hg, Option.filter_some]
  exact if_pos (decide_eq_true hc)

/-- No group of this index belongs to the context in this epoch. -/
def State.noGroup (s : State) (c gi : Nat) (ep : BitVec 16) : Prop := ∀ g, Table.get? s.groups gi = some g → g.ctx = c → g.epoch ≠ ep

theorem State.groupFor_stale {s : State} {c gi : Nat} {ep : BitVec 16} (h : s.noGroup c gi ep) {g : Group} (hg : s.groupFor c gi = some g) : g.epoch ≠ ep := by
  obtain ⟨h1, h2⟩ := Option.filter_eq_some_iff.mp hg
  exact h g h1 (of_decide_eq_true h2)

/-- What is discarded is counted once, in the upper or in the lower half of CTX_STALE_EPOCH. -/
theorem State.countStale (s : State) (c : Nat) :
    ((s.cSat c Off.CTX_STALE_EPOCH 31 0 1).cf c Off.CTX_STALE_EPOCH 31 0 = satPlus 32 (s.cf c Off.CTX_STALE_EPOCH 31 0) 1
        ∧ onlyRegs s (s.cSat c Off.CTX_STALE_EPOCH 31 0 1))
      ∧ (s.cSat c Off.CTX_STALE_EPOCH 63 32 1).cf c Off.CTX_STALE_EPOCH 63 32 = satPlus 32 (s.cf c Off.CTX_STALE_EPOCH 63 32) 1
        ∧ onlyRegs s (s.cSat c Off.CTX_STALE_EPOCH 63 32 1) := by
  obtain ⟨h1, -, h2, -⟩ := s.rf_sat_halves (ctxA c Off.CTX_STALE_EPOCH) 1
  exact ⟨⟨h2, .sat _ _ _ _ _⟩, h1, .sat _ _ _ _ _⟩

section
variable {s : State} {c gi src typ : Nat} {ep : BitVec 16}

theorem State.takeVote_stale (h : s.noGroup c gi ep) (seq : BitVec 32) (v : Nat) (fl : BitVec 8) (n q : BitVec 32) (step : BitVec 48) :
    s.takeCtl c gi src 4 ep (.vote seq v fl n q step) = s.cSat c Off.CTX_STALE_EPOCH 31 0 1 := by
  unfold State.takeCtl
  dsimp only
  rw [if_neg (by decide)]
  split
  · rfl
  · next g hg => exact if_pos (State.groupFor_stale h hg)

theorem State.takeDecide_stale (h : s.noGroup c gi ep) (seq : BitVec 32) (v code : Nat) (fl : BitVec 8) (n q : BitVec 32) :
    s.takeCtl c gi src 5 ep (.decide seq v code fl n q) = s.cSat c Off.CTX_STALE_EPOCH 31 0 1 := by
  unfold State.takeCtl
  dsimp only
  rw [if_neg (by decide)]
  split
  · rfl
  · next g hg => exact if_pos (State.groupFor_stale h hg)

theorem State.takeColl_stale (h : s.noGroup c gi ep) (ring : Bool) (m : CollMsg) (poison : Word) :
    s.takeColl c gi ep ring m poison = s.cSat c Off.CTX_STALE_EPOCH 31 0 1 := by
  unfold State.takeColl
  split
  · rfl
  · next g hg => exact if_pos (State.groupFor_stale h hg)

end

/-! ## Votes and decisions of a group (R246, R248) -/

section
variable {s : State} {c gi src : Nat} {g : Group} (hg : Table.get? s.groups gi = some g) (hc : g.ctx = c)
include hg hc

theorem State.takeCtl_vote (seq : BitVec 32) (v : Nat) (fl : BitVec 8) (n q : BitVec 32) (step : BitVec 48) :
    s.takeCtl c gi src 4 g.epoch (.vote seq v fl n q step) = s.takeVote c gi seq v ⟨src, fl, n, q, step⟩ := by
  unfold State.takeCtl
  dsimp only
  rw [if_neg (by decide), State.groupFor_some hg hc]
  exact if_neg (fun h => h rfl)

theorem State.takeCtl_decide (seq : BitVec 32) (v code : Nat) (fl : BitVec 8) (n q : BitVec 32) :
    s.takeCtl c gi src 5 g.epoch (.decide seq v code fl n q) = s.takeDecide c gi seq v ⟨code, fl, n, q⟩ := by
  unfold State.takeCtl
  dsimp only
  rw [if_neg (by decide), State.groupFor_some hg hc]
  exact if_neg (fun h => h rfl)

end

theorem State.takeVote_closed {s : State} {c gi : Nat} {seq : BitVec 32} {v : Nat} (h : (s.ctx c).openLaunch gi seq v = none) (x : VoteRec) :
    s.takeVote c gi seq v x = s.cSat c Off.CTX_STALE_EPOCH 63 32 1 := by rw [State.takeVote, h]

theorem State.takeDecide_closed {s : State} {c gi : Nat} {seq : BitVec 32} {v : Nat} (h : (s.ctx c).openLaunch gi seq v = none) (d : Decision) :
    s.takeDecide c gi seq v d = s.cSat c Off.CTX_STALE_EPOCH 63 32 1 := by rw [State.takeDecide, h]

theorem State.takeDecide_open {s : State} {c gi : Nat} {seq : BitVec 32} {v : Nat} {r : Running} (h : (s.ctx c).openLaunch gi seq v = some r)
    (hp : (s.ctx c).phase = .normal) (d : Decision) : s.takeDecide c gi seq v d = s.noteDue c ⟨r.seq, v, d⟩ := by
  rw [State.takeDecide, h]
  exact if_neg (fun hne => hne hp)

/-- A vote that a group holds beside the others. -/
def Group.withVote (g : Group) (seq : BitVec 32) (v : Nat) (x : VoteRec) : Group := { g with votes := g.votes ++ [(seq, v, x)] }

/-- A vote of a member that has not voted yet is held. -/
theorem State.holdVote_new {s : State} {gi : Nat} {g : Group} (hg : Table.get? s.groups gi = some g) {seq : BitVec 32} {v : Nat} {x : VoteRec}
    (hnew : ∀ y ∈ g.votes, ¬(y.1 = seq ∧ y.2.1 = v ∧ y.2.2.node = x.node)) :
    s.holdVote gi seq v x = { s with groups := Table.set s.groups gi (g.withVote seq v x) } := by
  unfold State.holdVote
  rw [hg]
  refine if_neg fun hany => ?_
  obtain ⟨y, hy, hn⟩ := List.any_eq_true.mp hany
  obtain ⟨z, hz, rfl⟩ := List.mem_map.mp hy
  obtain ⟨hmem, hkey⟩ := List.mem_filter.mp hz
  simp only [decide_eq_true_eq] at hkey hn
  exact hnew z hmem ⟨hkey.1, hkey.2, hn⟩

theorem State.sendDecides_ctxs (s : State) (c v : Nat) (sl : Slot) (g : Group) (seq : BitVec 32) (d : Decision) : (s.sendDecides c v sl g seq d).ctxs = s.ctxs := by
  refine forAll_induct (P := fun t : State => t.ctxs = s.ctxs) (fun m t h => ?_) _ rfl
  unfold State.sendCtl
  split
  · exact h
  · exact (congrArg State.ctxs (t.postCtl_sends _ _ _ _ _ _).core :).trans h

theorem State.clearVotes_ctxs (s : State) (gi : Nat) (seq : BitVec 32) (v : Nat) : (s.clearVotes gi seq v).ctxs = s.ctxs := by
  unfold State.clearVotes
  split <;> rfl

theorem Ctx.launchWith_running {k : Ctx} {r : Running} (h : k.running = some r) : k.launchWith (fun y => decide (y.seq = r.seq)) = some r := by
  unfold Ctx.launchWith Ctx.launches
  rw [h]
  exact List.find?_cons_of_pos (decide_eq_true rfl)

theorem State.slotGroup_own {s : State} {c gi : Nat} {g : Group} {x : Slot} (hg : Table.get? s.groups gi = some g) (hc : g.ctx = c) (hgroup : x.group = gi)
    (hepoch : x.epoch = g.epoch) : s.slotGroup c x = some g := by
  unfold State.slotGroup
  rw [hgroup, hg]
  exact if_pos ⟨hc, hepoch.symm⟩

section
variable {s : State} {c gi : Nat} {g : Group} {seq : BitVec 32} {v : Nat} {r : Running} {x : Slot} (hg : Table.get? s.groups gi = some g) (hc : g.ctx = c)
  (hrun : (s.ctx c).running = some r) (hp : (s.ctx c).phase = .normal) (hx : r.slot? v = some x) (hepoch : x.epoch = g.epoch) (hgroup : x.group = gi)
  (hseq : x.seq = some seq)
include hg hc hrun hp hx hepoch hgroup hseq

/-- The root of a launch's slot waits for the ballot of its group. -/
theorem State.rootDecide_waits (hb : g.ballot seq v = none) : s.rootDecide c r.seq v = s := by
  unfold State.rootDecide
  rw [Ctx.launchWith_running hrun]
  dsimp only
  rw [hx]
  dsimp only
  rw [if_neg (fun h => h hp), State.slotGroup_own hg hc hgroup hepoch, hseq]
  dsimp only
  rw [hb]

/-- With the last vote it decides. -/
theorem State.rootDecide_decides {l : List VoteRec} (hb : g.ballot seq v = some l) :
    s.rootDecide c r.seq v = (((s.modLaunch c r.seq fun y => { y with skipped := y.skipped || decide ((tally l r.normLimit r.skipped).code = 2) }).clearVotes
      x.group seq v).sendDecides c v x g seq (tally l r.normLimit r.skipped)).noteDue c ⟨r.seq, v, tally l r.normLimit r.skipped⟩ := by
  unfold State.rootDecide
  rw [Ctx.launchWith_running hrun]
  dsimp only
  rw [hx]
  dsimp only
  rw [if_neg (fun h => h hp), State.slotGroup_own hg hc hgroup hepoch, hseq]
  dsimp only
  rw [hb]

end

/-- What an open slot tells of its launch. -/
theorem Ctx.openLaunch_slot {k : Ctx} {gi : Nat} {seq : BitVec 32} {v : Nat} {r : Running} {x : Slot} (h : k.openLaunch gi seq v = some r)
    (hx : r.slot? v = some x) : x.group = gi ∧ x.seq = some seq := by
  have := List.find?_some h
  rw [hx] at this
  simp only [Option.any_some, Bool.and_eq_true, decide_eq_true_eq] at this
  exact ⟨this.1.1, this.1.2.1⟩

/-- A new vote for an open slot of the running launch: the root decides with the last of the members' votes, else it only holds it. -/
theorem State.takeVote_open {s : State} {c gi : Nat} {g : Group} {seq : BitVec 32} {v : Nat} {r : Running} {x : Slot} {y : VoteRec}
    (hg : Table.get? s.groups gi = some g) (hc : g.ctx = c) (hrun : (s.ctx c).running = some r) (hp : (s.ctx c).phase = .normal)
    (hopen : (s.ctx c).openLaunch gi seq v = some r) (hx : r.slot? v = some x) (hepoch : x.epoch = g.epoch)
    (hnew : ∀ z ∈ g.votes, ¬(z.1 = seq ∧ z.2.1 = v ∧ z.2.2.node = y.node)) :
    let u := s.takeVote c gi seq v y
    ((g.withVote seq v y).ballot seq v = none → Table.get? u.groups gi = some (g.withVote seq v y) ∧ u.ctxs = s.ctxs)
      ∧ ∀ l, (g.withVote seq v y).ballot seq v = some l → (u.ctx c).due = insertDue ⟨r.seq, v, tally l r.normLimit r.skipped⟩ (s.ctx c).due := by
  obtain ⟨z, hz⟩ : ∃ z : State, z = { s with groups := Table.set s.groups gi (g.withVote seq v y) } := ⟨_, rfl⟩
  obtain ⟨hgroup, hseq⟩ := Ctx.openLaunch_slot hopen hx
  have heq : s.takeVote c gi seq v y = z.rootDecide c r.seq v := by rw [State.takeVote, hopen, hz, ← State.holdVote_new hg hnew]
  have hctxs : z.ctxs = s.ctxs := by rw [hz]
  have hctx : z.ctx c = s.ctx c := by rw [State.ctx, hctxs, State.ctx]
  have hgz : Table.get? z.groups gi = some (g.withVote seq v y) := by rw [hz]; exact (Table.get?_set _ _ _ _).trans (if_pos rfl)
  have hrunz : (z.ctx c).running = some r := by rw [hctx]; exact hrun
  have hpz : (z.ctx c).phase = .normal := by rw [hctx]; exact hp
  intro u
  refine ⟨fun hb => ?_, fun l hl => ?_⟩
  · have hu : u = z := heq.trans (State.rootDecide_waits (g := g.withVote seq v y) hgz hc hrunz hpz hx hepoch hgroup hseq hb)
    rw [hu]
    exact ⟨hgz, hctxs⟩
  · obtain ⟨w, hw⟩ : ∃ w, w = (z.modLaunch c r.seq fun k => { k with skipped := k.skipped || decide ((tally l r.normLimit r.skipped).code = 2) }) := ⟨_, rfl⟩
    obtain ⟨w2, hw2⟩ : ∃ w2, w2 = (w.clearVotes x.group seq v).sendDecides c v x (g.withVote seq v y) seq (tally l r.normLimit r.skipped) := ⟨_, rfl⟩
    have hu : u = w2.noteDue c ⟨r.seq, v, tally l r.normLimit r.skipped⟩ := by
      rw [hw2, hw]
      exact heq.trans (State.rootDecide_decides (g := g.withVote seq v y) hgz hc hrunz hpz hx hepoch hgroup hseq hl)
    have hdue : (w2.ctx c).due = (s.ctx c).due := by
      rw [State.ctx, hw2, State.sendDecides_ctxs, State.clearVotes_ctxs, hw, ← State.ctx, State.modLaunch, State.modCtx_self, hctx]
    rw [hu, State.noteDue, State.modCtx_self, hdue]

/-! ## Collective data (R266, R277, R280) -/

section
variable {s : State} {c gi : Nat} {g : Group} (hg : Table.get? s.groups gi = some g) (hc : g.ctx = c) (ring : Bool) (m : CollMsg) (poison : Word)
include hg hc

/-- A pooled piece out of turn (R280). -/
theorem State.takeColl_outOfTurn (hpool : g.pool ≠ 0) (hturn : m.ordinal.toNat % g.npool ≠ g.order) :
    (⟨c, 15, none⟩ : PendFault) ∈ (s.takeColl c gi g.epoch ring m poison).cycle.faults := by
  unfold State.takeColl
  rw [State.groupFor_some hg hc]
  dsimp only
  rw [if_neg (fun h => h rfl), if_pos ⟨hpool, hturn⟩]
  exact State.detect_mem _ _

section
variable (hpool : g.pool = 0)
include hpool

theorem State.takeColl_unmatched (hm : s.matchInst c gi g m.seq m.tile ring = none) :
    s.takeColl c gi g.epoch ring m poison = s.cSat c Off.CTX_STALE_EPOCH 63 32 1 := by
  unfold State.takeColl
  rw [State.groupFor_some hg hc]
  dsimp only
  rw [if_neg (fun h => h rfl), if_neg (fun h => h.1 hpool), hm]

theorem State.takeColl_area {id : Nat} {x : Inst} (hm : s.matchInst c gi g m.seq m.tile true = some (id, x)) :
    s.takeColl c gi g.epoch true m poison = s.takeArea c id gi m (withPoison poison 64 m.data) := by
  unfold State.takeColl
  rw [State.groupFor_some hg hc]
  dsimp only
  rw [if_neg (fun h => h rfl), if_neg (fun h => h.1 hpool), hm]
  rfl

end
end

section
variable {s : State} {c id : Nat} {x : Inst} {y : InstTile} {m : CollMsg} (hx : s.inst c id = some x) (hy : Table.get? x.tiles m.tile = some y) (gi : Nat)
  (data : List PByte)
include hx hy

/-- An area of another length than the tile's own faults the context (R266). -/
theorem State.takeArea_wrongSize (h : y.size ≠ m.total) : (⟨c, 14, none⟩ : PendFault) ∈ (s.takeArea c id gi m data).cycle.faults := by
  unfold State.takeArea
  rw [hx, Option.bind_some, hy, Option.any_some, if_pos (decide_eq_true h)]
  exact State.detect_mem _ _

/-- An area of the tile's length joins what has arrived of it (R277). -/
theorem State.takeArea_joins (h : y.size = m.total) :
    ∃ x', (s.takeArea c id gi m data).inst c id = some x' ∧ Table.getD [] x'.areas m.tile = Table.getD [] x.areas m.tile ++ data := by
  refine ⟨{ x with areas := Table.set x.areas m.tile (Table.getD [] x.areas m.tile ++ data) }, ?_, ?_⟩
  · unfold State.takeArea
    rw [hx, Option.bind_some, hy, Option.any_some, if_neg (by simpa using h)]
    exact State.inst_modInst hx _
  · exact congrArg (Option.getD · []) ((Table.get?_set _ _ _ _).trans (if_pos rfl))

end

end Sys2Proof.Machine
end

section
/-! SUPPORT. What acknowledgements, negative acknowledgements and LINKCTL frames leave as it is (R299, R302). -/

namespace Sys2Proof.Machine

/-! ## Acknowledged frames and replays -/

/-- The registers that acknowledgements write, by their offset in a page: the contract misses of a stage that ended late, promises, interrupts, and
the counts of negative acknowledgements of the eight ports of a die. -/
def heardWrites : List Nat :=
  [Off.CTX_CONTRACT_MISS, Off.CTX_PROMISE, Off.CTX_IRQ_RAW, Off.CTX_IRQ_EN, Off.PG_IRQ_RAW, Off.PG_IRQ_EN] ++ (List.range 8).map fun i => Off.EAV_REPLAY + 0x40 * i

theorem State.lc_of_links {s t : State} (h : t.links = s.links) (k c : Nat) : t.lc k c = s.lc k c := by
  unfold State.lc State.link
  rw [h]

/-- What has been held for retransmission may be free, and replays may have begun or ended; stages and faults may have ended with them. -/
structure Heard (s t : State) : Prop where
  core : t = { s with regs := t.regs, cycle := t.cycle, msix := t.msix, ctxs := t.ctxs, links := t.links, faultWins := t.faultWins,
                      replayCount := t.replayCount, strandFaults := t.strandFaults }
  reg : ∀ a, a % 2 ^ 12 ∉ heardWrites → t.reg a = s.reg a
  roads : ∀ a, (t.ctx a).links = (s.ctx a).links
  lcs : ∀ k c, ∃ una held replay e, t.lc k c = { s.lc k c with una := una, held := held, replay := replay, replayEnd := e }
  lastRx : ∀ k, (t.link k).lastRx = (s.link k).lastRx

namespace Heard
variable {s t u : State}

theorem refl (s : State) : Heard s s := ⟨rfl, fun _ _ => rfl, fun _ => rfl, fun _ _ => ⟨_, _, _, _, rfl⟩, fun _ => rfl⟩

theorem trans (h : Heard s t) (g : Heard t u) : Heard s u where
  core := by rw [g.core, h.core]
  reg a ha := (g.reg a ha).trans (h.reg a ha)
  roads a := (g.roads a).trans (h.roads a)
  lcs k c := by
    obtain ⟨a1, b1, c1, d1, h1⟩ := h.lcs k c
    obtain ⟨a2, b2, c2, d2, h2⟩ := g.lcs k c
    exact ⟨a2, b2, c2, d2, by rw [h2, h1]⟩
  lastRx k := (g.lastRx k).trans (h.lastRx k)

theorem forAll {α : Type} (l : List α) (f : α → State → State) (hf : ∀ a s, Heard s (f a s)) (s : State) : Heard s (Machine.forAll l f s) :=
  forAll_induct (P := Heard s) (fun a t h => h.trans (hf a t)) l (refl s)

theorem ite {p : Prop} [Decidable p] (h : Heard s t) (g : Heard s u) : Heard s (if p then t else u) := by
  split
  · exact h
  · exact g

/-- Windows and promises, the links as they were. -/
theorem of_rewired (h : Rewired s t) (hl : t.links = s.links) (hr : ∀ a, (t.ctx a).links = (s.ctx a).links) : Heard s t where
  core := h.core
  reg a ha := h.reg a fun hm => ha (by
    unfold heardWrites
    simp only [linkWrites, List.mem_cons, List.not_mem_nil, or_false] at hm
    rcases hm with hm | hm | hm <;> rw [hm] <;> simp)
  roads := hr
  lcs k c := ⟨_, _, _, _, by rw [State.lc_of_links hl]⟩
  lastRx k := by rw [State.link, hl, State.link]

theorem now (h : Heard s t) : t.now = s.now := (congrArg State.now h.core :)

theorem memory (h : Heard s t) : sameMemory s t := by
  rw [h.core]
  exact ⟨rfl, rfl, rfl, rfl, rfl, rfl⟩

end Heard

theorem State.refreshPromise_roadsOf (s : State) (c a : Nat) : ((s.refreshPromise c).ctx a).links = (s.ctx a).links := by
  obtain ⟨xs, qs, h⟩ := s.refreshPromise_ctx c a
  rw [h]

theorem State.modCtx_heard (s : State) (c : Nat) {f : Ctx → Ctx} (hf : (f (s.ctx c)).links = (s.ctx c).links) : Heard s (s.modCtx c f) where
  core := rfl
  reg _ _ := rfl
  roads a := by
    rw [State.modCtx_eq, State.ctx_setCtx]
    split
    · next h => rw [hf, h]
    · rfl
  lcs _ _ := ⟨_, _, _, _, rfl⟩
  lastRx _ := rfl

theorem State.refreshPromise_heard (s : State) (c : Nat) : Heard s (s.refreshPromise c) :=
  .of_rewired (s.refreshPromise_rewired c) (s.refreshPromise_links c).2 (s.refreshPromise_roadsOf c)

theorem State.closeWindow_heard (s : State) (w : Elem) : Heard s (s.closeWindow w) := by
  unfold State.closeWindow
  have h0 : Heard s { s with faultWins := s.faultWins.filter (· ≠ w) } := .of_rewired (.of_regs rfl) rfl fun _ => rfl
  exact h0.trans (.forAll _ _ (fun (e : Nat × Ctx) t => t.refreshPromise_heard e.1) _)

theorem Ctx.linkOrder_links (x : Ctx) : x.linkOrder.links = x.links := by
  obtain ⟨xs, qs, h⟩ := x.linkOrder_rest
  rw [h]

theorem State.openWindow_heard (s : State) (w : Elem) : Heard s (s.openWindow w) := by
  unfold State.openWindow
  have h0 : Heard s { s with faultWins := w :: s.faultWins } := .of_rewired (.of_regs rfl) rfl fun _ => rfl
  refine .ite (.refl s) (h0.trans (.forAll _ _ (fun e t => ?_) _))
  refine (t.modCtx_heard e.1 ?_).trans (State.refreshPromise_heard _ e.1)
  exact Ctx.linkOrder_links _

theorem State.modLink_heard (s : State) (k : Nat) {f : Link → Link} (hc : (f (s.link k)).classes = (s.link k).classes) (hr : (f (s.link k)).lastRx = (s.link k).lastRx) :
    Heard s (s.modLink k f) where
  core := rfl
  reg _ _ := rfl
  roads _ := rfl
  lcs j m := ⟨_, _, _, _, by rw [s.lc_modLink k j m hc]⟩
  lastRx j := by
    rw [State.link_modLink]
    split
    · next h => rw [hr, h]
    · rfl

theorem State.modLc_heard (s : State) (k n : Nat) {f : LinkClass → LinkClass}
    (hf : ∃ una held replay e, f (s.lc k n) = { s.lc k n with una := una, held := held, replay := replay, replayEnd := e }) : Heard s (s.modLc k n f) where
  core := rfl
  reg _ _ := rfl
  roads _ := rfl
  lcs j m := by
    rw [State.lc_modLc]
    split
    · next h => rw [h.1, h.2]; exact hf
    · exact ⟨_, _, _, _, rfl⟩
  lastRx j := by
    rw [State.modLc, State.link_modLink]
    split
    · next h => rw [h]
    · rfl

/-- Registers alone, off a stage's miss. -/
theorem Heard.of_onlyRegs {s t : State} (h : onlyRegs s t) (hr : ∀ a, a % 2 ^ 12 ∉ heardWrites → t.reg a = s.reg a) : Heard s t where
  core := by rw [h]
  reg := hr
  roads a := by rw [State.ctx, (congrArg State.ctxs h :), State.ctx]
  lcs k c := ⟨_, _, _, _, by rw [State.lc_of_links (s := s) (t := t) (congrArg State.links h :)]⟩
  lastRx k := by rw [State.link, (congrArg State.links h :), State.link]

theorem State.sat_heard (s : State) {a : Nat} (ha : a % 2 ^ 12 ∈ heardWrites) (hi lo n : Nat) : Heard s (s.sat a hi lo n) :=
  .of_onlyRegs (.sat _ _ _ _ _) fun b hb => State.reg_sat_of_mod s hi lo n fun e => hb (by rw [e]; exact ha)

theorem State.reg_raiseCtx_other (s : State) (c b : Nat) {a : Nat} (h1 : a % 2 ^ 12 ≠ Off.CTX_IRQ_RAW) (h2 : a % 2 ^ 12 ≠ Off.CTX_IRQ_EN) :
    (s.raiseCtx c b).reg a = s.reg a := by
  have hset : ∀ raw en, (s.setCtxIrq c raw en).reg a = s.reg a := fun raw en => by
    unfold State.setCtxIrq
    refine (State.reg_forAll _ _ (fun b t => ?_) _).trans
      ((State.reg_setReg_ne _ _ (homeAddr_ne_of_mod ?_)).trans (s.reg_setReg_ne _ (homeAddr_ne_of_mod ?_)))
    · split <;> rfl
    · rw [ctxA_mod c (by decide)]; exact h2
    · rw [ctxA_mod c (by decide)]; exact h1
  exact hset _ _

theorem State.raiseCtx_heard (s : State) (c b : Nat) : Heard s (s.raiseCtx c b) where
  core := by rw [s.raiseCtx_core c b]
  reg a ha := s.reg_raiseCtx_other c b (fun e => ha (by rw [e]; decide)) (fun e => ha (by rw [e]; decide))
  roads a := by rw [State.ctx, s.raiseCtx_ctxs, State.ctx]
  lcs k m := ⟨_, _, _, _, by rw [State.lc_of_links (s := s) (t := s.raiseCtx c b) (congrArg State.links (s.raiseCtx_core c b) :)]⟩
  lastRx k := by rw [State.link, (congrArg State.links (s.raiseCtx_core c b) :), State.link]

theorem State.maxF_heard (s : State) {a : Nat} (ha : a % 2 ^ 12 ∈ heardWrites) (hi lo v : Nat) : Heard s (s.maxF a hi lo v) :=
  .of_onlyRegs (s.maxF_onlyRegs _ _ _ _) fun b hb => by
    rw [State.maxF_eq, State.reg_of_noteCount, State.wf_eq]
    exact s.reg_setReg_ne _ (homeAddr_ne_of_mod fun e => hb (by rw [e]; exact ha))

theorem State.stageOver_heard (s : State) (c by_ : Nat) : Heard s (s.stageOver c by_) := by
  have hin : ctxA c Off.CTX_CONTRACT_MISS % 2 ^ 12 ∈ heardWrites := by rw [ctxA_mod c (by decide)]; decide
  have hmax : ∀ (t : State) v, Heard t (t.maxF (ctxA c Off.CTX_CONTRACT_MISS) 63 32 v) := fun t v => t.maxF_heard hin 63 32 v
  have hmiss : ∀ v, Heard s (((s.cSat c Off.CTX_CONTRACT_MISS 31 0 1).maxF (ctxA c Off.CTX_CONTRACT_MISS) 63 32 v).raiseCtx c 2) := fun v => by
    have h1 := s.sat_heard hin 31 0 1
    rw [State.cSat_eq]
    generalize s.sat (ctxA c Off.CTX_CONTRACT_MISS) 31 0 1 = z at *
    exact (h1.trans (hmax z v)).trans (State.raiseCtx_heard _ c 2)
  unfold State.stageOver State.countMiss
  exact .ite (.refl s) (.ite (hmiss _) (.refl s))

theorem State.replayAbsorbed_heard (s : State) (k c : Nat) : Heard s (s.replayAbsorbed k c) := by
  unfold State.replayAbsorbed
  have h := s.closeWindow_heard (.linkClass k c)
  exact .ite ((h.trans (State.modLink_heard _ k rfl rfl)).trans (State.closeWindow_heard _ _)) h

theorem State.ackClass_heard (s : State) (k c : Nat) (a : BitVec 32) : Heard s (s.ackClass k c a) := by
  unfold State.ackClass
  refine .ite ?_ (.refl s)
  have h1 := Heard.forAll (((s.lc k c).held.filter fun f => earlierMod 32 f.seq.toNat a.toNat).filterMap (·.stage)) (fun x t => t.stageOver x.1 x.2)
    (fun x t => t.stageOver_heard _ _) s
  have h2 := h1.trans (State.modLc_heard _ k c (f := fun x => { x with
    una := a
    held := x.held.filter fun f => !earlierMod 32 f.seq.toNat a.toNat
    replay := x.replay.map fun p => if earlierMod 32 p.toNat a.toNat then a else p }) ⟨_, _, _, _, rfl⟩)
  exact .ite ((h2.trans (State.modLc_heard _ k c ⟨_, _, _, _, rfl⟩)).trans (State.replayAbsorbed_heard _ k c)) h2

theorem State.startReplay_heard (s : State) (k c : Nat) (n : BitVec 32) : Heard s (s.startReplay k c n) := by
  unfold State.startReplay
  dsimp only
  split
  · exact .refl s
  · next z _ =>
    have h1 : Heard s (s.modLc k c fun x => { x with
      replay := match x.replay with
        | none => some n
        | some p => some (if earlierMod 32 n.toNat p.toNat then n else p)
      replayEnd := z.seq }) := s.modLc_heard k c ⟨_, _, _, _, rfl⟩
    have hcount : ∀ (t : State) l, Heard t { t with replayCount := l } := fun t l => .of_rewired (.of_regs rfl) rfl fun _ => rfl
    have hopen : ∀ t : State, Heard t (t.openReplay k c) := fun t => .ite (.refl t) (t.openWindow_heard _)
    refine Heard.trans (.ite h1 ?_) (hopen _)
    split
    · exact h1
    · exact h1.trans (hcount _ _)

theorem State.nakClass_heard (s : State) (k c p : Nat) (n : BitVec 32) : Heard s (s.nakClass k c p n) := by
  have hin : portReg p Off.EAV_REPLAY % 2 ^ 12 ∈ heardWrites := by
    unfold heardWrites portReg
    rw [bar0_mod _ _ (by simp only [Off.EAV_REPLAY]; omega)]
    exact List.mem_append_right _ (List.mem_map.mpr ⟨p % 8, List.mem_range.mpr (Nat.mod_lt _ (by decide)), rfl⟩)
  unfold State.nakClass
  have h1 := s.sat_heard hin 63 32 1
  exact .ite (h1.trans (State.startReplay_heard _ k c n)) h1

/-- What one step of many brings about and all keep, holds behind them. -/
theorem forAll_reaches {α : Type} {Q : State → Prop} (l : List α) {f : α → State → State} (hk : ∀ a ∈ l, ∀ t, Q t → Q (f a t)) {x : α} (hx : x ∈ l) (h : ∀ t, Q (f x t)) (s : State) :
    Q (forAll l f s) := by
  induction l generalizing s with
  | nil => cases hx
  | cons a l ih =>
    rcases List.mem_cons.mp hx with rfl | hx
    · exact forAll_induct_mem (P := Q) l (fun b hb t ht => hk b (List.mem_cons_of_mem _ hb) t ht) (h s)
    · exact ih (fun b hb => hk b (List.mem_cons_of_mem _ hb)) hx _

/-! ## LINKCTL records (R302) -/

/-- The credit of a class after a record of it. -/
def recCredit (x : ClassRec) (held : Word) : Word := if laterMod 64 x.freed.toNat held.toNat then x.freed else held

/-- A record of a LINKCTL frame taken: the acknowledgement, then the credit. -/
def State.takeRec (s : State) (k : Nat) (r : ClassRec × Nat) : State :=
  (if r.1.ackv then s.ackClass k r.2 r.1.ack else s).modLc k r.2 fun x => if laterMod 64 r.1.freed.toNat x.freedHeld.toNat then { x with freedHeld := r.1.freed } else x

theorem Heard.freedHeld {s t : State} (h : Heard s t) (k c : Nat) : (t.lc k c).freedHeld = (s.lc k c).freedHeld := by
  obtain ⟨_, _, _, _, e⟩ := h.lcs k c
  rw [e]

/-- The stage links of every context stand as they did. -/
def keepsRoads (s t : State) : Prop := ∀ a, (t.ctx a).links = (s.ctx a).links

theorem keepsRoads.trans {s t u : State} (h : keepsRoads s t) (g : keepsRoads t u) : keepsRoads s u := fun a => (g a).trans (h a)

theorem keepsRoads.forAll {α : Type} (l : List α) (f : α → State → State) (hf : ∀ a s, keepsRoads s (f a s)) (s : State) : keepsRoads s (Machine.forAll l f s) :=
  forAll_induct (P := keepsRoads s) (fun a t h => h.trans (hf a t)) l fun _ => rfl

theorem State.modLc_roads (s : State) (k n : Nat) (f : LinkClass → LinkClass) : keepsRoads s (s.modLc k n f) := fun _ => rfl

/-- The acknowledgement of a record. -/
def State.takeAck (s : State) (k : Nat) (r : ClassRec × Nat) : State := if r.1.ackv then s.ackClass k r.2 r.1.ack else s

theorem State.takeAck_heard (s : State) (k : Nat) (r : ClassRec × Nat) : Heard s (s.takeAck k r) := .ite (s.ackClass_heard k r.2 r.1.ack) (.refl s)

theorem State.takeRec_eq (s : State) (k : Nat) (r : ClassRec × Nat) :
    s.takeRec k r = (s.takeAck k r).modLc k r.2 fun x => if laterMod 64 r.1.freed.toNat x.freedHeld.toNat then { x with freedHeld := r.1.freed } else x := rfl

theorem State.takeRec_roads (s : State) (k : Nat) (r : ClassRec × Nat) : keepsRoads s (s.takeRec k r) := by
  rw [State.takeRec_eq]
  exact keepsRoads.trans (s.takeAck_heard k r).roads (State.modLc_roads _ _ _ _)

theorem State.takeRec_freedHeld (s : State) (k : Nat) (r : ClassRec × Nat) :
    ((s.takeRec k r).lc k r.2).freedHeld = recCredit r.1 (s.lc k r.2).freedHeld := by
  rw [State.takeRec_eq, State.lc_modLc_self, ← (s.takeAck_heard k r).freedHeld k r.2]
  unfold recCredit
  split <;> rfl

theorem State.takeRec_freedHeld_other (s : State) (k : Nat) (r : ClassRec × Nat) {i : Nat} (hi : r.2 ≠ i) :
    ((s.takeRec k r).lc k i).freedHeld = (s.lc k i).freedHeld := by
  rw [State.takeRec_eq, State.lc_modLc, if_neg fun h => hi h.2.symm]
  exact (s.takeAck_heard k r).freedHeld k i

/-- The records of distinct classes: each class has the credit of its own. -/
theorem State.takeRecs_freedHeld (k : Nat) (l : List (ClassRec × Nat)) {x : ClassRec} {i : Nat} (hl : (l.map (·.2)).Nodup) (hx : (x, i) ∈ l) (s : State) :
    ((forAll l (fun r t => t.takeRec k r) s).lc k i).freedHeld = recCredit x (s.lc k i).freedHeld := by
  induction l generalizing s with
  | nil => cases hx
  | cons r l ih =>
    rw [List.map_cons, List.nodup_cons] at hl
    obtain ⟨hr, hl⟩ := hl
    rcases List.mem_cons.mp hx with rfl | hx
    · have hlater : ∀ t : State, ((forAll l (fun r t => t.takeRec k r) t).lc k i).freedHeld = (t.lc k i).freedHeld := fun t =>
        forAll_induct_mem (P := fun u : State => (u.lc k i).freedHeld = (t.lc k i).freedHeld) l (fun r hm u h =>
          (u.takeRec_freedHeld_other k r fun e => hr (List.mem_map.mpr ⟨r, hm, e⟩)).trans h) rfl
      exact (hlater (s.takeRec k (x, i))).trans (s.takeRec_freedHeld k (x, i))
    · refine (ih hl hx (s.takeRec k r)).trans ?_
      rw [s.takeRec_freedHeld_other k r fun e => hr (List.mem_map.mpr ⟨(x, i), hx, e.symm⟩)]

theorem State.takeRecs_eq (s : State) (k port : Nat) (recs : List ClassRec) :
    s.takeRecs k port recs = forAll ((recs.zipIdx.filter fun r => r.2 ≠ 1).filter fun r => r.1.nak) (fun r t => t.nakClass k r.2 port r.1.ack)
      (forAll (recs.zipIdx.filter fun r => r.2 ≠ 1) (fun r t => t.takeRec k r) s) := rfl

/-- The records of a frame (R302): each class but class 1 has the credit of its own, and the stage links stay. -/
theorem State.takeRecs_spec (s : State) (k port : Nat) (recs : List ClassRec) :
    (∀ i x, i ≠ 1 → recs[i]? = some x → ((s.takeRecs k port recs).lc k i).freedHeld = recCredit x (s.lc k i).freedHeld)
      ∧ ∀ a, ((s.takeRecs k port recs).ctx a).links = (s.ctx a).links := by
  rw [State.takeRecs_eq]
  obtain ⟨z, hz⟩ : ∃ z, z = forAll (recs.zipIdx.filter fun r => r.2 ≠ 1) (fun r t => t.takeRec k r) s := ⟨_, rfl⟩
  have hnak := Heard.forAll ((recs.zipIdx.filter fun r => r.2 ≠ 1).filter fun r => r.1.nak) (fun r t => t.nakClass k r.2 port r.1.ack)
    (fun r t => State.nakClass_heard t k r.2 port r.1.ack) z
  have hroads : keepsRoads s z := by
    rw [hz]
    exact keepsRoads.forAll (recs.zipIdx.filter fun r => r.2 ≠ 1) (fun r t => t.takeRec k r) (fun r t => t.takeRec_roads k r) s
  rw [← hz]
  refine ⟨fun i x hi hx => (hnak.freedHeld k i).trans ?_, fun a => (hnak.roads a).trans (hroads a)⟩
  rw [hz]
  refine State.takeRecs_freedHeld k _ ?_ ?_ s
  · refine List.Nodup.sublist (List.Sublist.map _ List.filter_sublist) ?_
    rw [List.zipIdx_map_snd]
    exact List.nodup_range'
  · exact List.mem_filter.mpr ⟨List.mem_zipIdx_iff_getElem?.mpr hx, decide_eq_true hi⟩

/-! ## LINKCTL flow states (R302) -/

/-- What one entry of a stage-link table takes from the flow records of a node. -/
def State.takeFlow (s : State) (src a : Nat) (flows : List FlowRec) (h : Nat × StageLink) : State :=
  if h.2.txEn && h.2.remote && decide (h.2.destNode = src) then
    s.modQueue a h.1 fun q => { q with seenOff := flows.any fun r => decide (r.ctx = a ∧ r.link = h.2.destLink) && !r.on }
  else s

theorem State.takeFlows_eq (s : State) (src : Nat) (flows : List FlowRec) :
    s.takeFlows src flows = forAll s.ctxs (fun e t => forAll e.2.links (fun h u => u.takeFlow src e.1 flows h) t) s := rfl

theorem State.takeFlow_keeps (s : State) (src : Nat) (flows : List FlowRec) {a b l : Nat} {h : Nat × StageLink} (hne : b ≠ a ∨ h.1 ≠ l) :
    ((s.takeFlow src b flows h).queue a l).seenOff = (s.queue a l).seenOff := by
  unfold State.takeFlow
  split
  · by_cases hb : b = a
    · subst hb
      rw [State.queue_modQueue_ne _ _ _ _ fun e => (hne.resolve_left fun h => h rfl) e.symm]
    · rw [State.queue, State.modQueue, State.modCtx_eq, State.ctx_setCtx, if_neg (Ne.symm hb), ← State.queue]
  · rfl

section
variable {a l src : Nat} {flows : List FlowRec} {e : StageLink} (hen : e.txEn = true) (hrem : e.remote = true) (hsrc : e.destNode = src)
include hen hrem hsrc

theorem State.takeFlow_sets (s : State) :
    ((s.takeFlow src a flows (l, e)).queue a l).seenOff = flows.any fun r => decide (r.ctx = a ∧ r.link = e.destLink) && !r.on := by
  unfold State.takeFlow
  rw [if_pos (by rw [hen, hrem, hsrc]; simp), State.queue_modQueue_self]

/-- A transmit half whose consumer is the sender of the frame sees the flow state of its record (R302). -/
theorem State.takeFlows_spec {s : State} (hinv : Table.wf Ctx.init s.ctxs = true) (hl : Table.get? (s.ctx a).links l = some e)
    (hone : ∀ y ∈ (s.ctx a).links, y.1 = l → y.2 = e) :
    ((s.takeFlows src flows).queue a l).seenOff = flows.any fun r => decide (r.ctx = a ∧ r.link = e.destLink) && !r.on := by
  obtain ⟨off, hoff⟩ : ∃ off, off = flows.any fun r => decide (r.ctx = a ∧ r.link = e.destLink) && !r.on := ⟨_, rfl⟩
  have hrises := ((Table.wf_iff Ctx.init s.ctxs).mp hinv).1
  have hmem : (a, s.ctx a) ∈ s.ctxs := by
    match hk : Table.get? s.ctxs a with
    | none =>
      have hinit : s.ctx a = Ctx.init := by rw [State.ctx, Table.getD, hk, Option.getD_none]
      rw [hinit] at hl
      cases hl
    | some x =>
      have hx : s.ctx a = x := by rw [State.ctx, Table.getD, hk, Option.getD_some]
      rw [hx]
      exact Table.mem_of_get? hk
  have hkey : ∀ x ∈ s.ctxs, x.1 = a → x.2 = s.ctx a := fun x hx he => by
    have h1 := (Table.get?_iff_mem hrises a x.2).mpr (by rw [← he]; exact hx)
    have h2 := (Table.get?_iff_mem hrises a (s.ctx a)).mpr hmem
    exact Option.some.inj (h1.symm.trans h2)
  have hkeep : ∀ x ∈ s.ctxs, ∀ h ∈ x.2.links, ∀ t : State, (t.queue a l).seenOff = off → ((t.takeFlow src x.1 flows h).queue a l).seenOff = off := by
    intro x hx h hh t ht
    by_cases heq : x.1 = a ∧ h.1 = l
    · have he : h.2 = e := hone h (by rw [← hkey x hx heq.1]; exact hh) heq.2
      have hpair : h = (l, e) := Prod.ext heq.2 he
      rw [hpair, heq.1, hoff]
      exact t.takeFlow_sets hen hrem hsrc
    · exact (t.takeFlow_keeps src flows (by rcases not_and_or.mp heq with h | h <;> simp [h])).trans ht
  rw [State.takeFlows_eq, ← hoff]
  refine forAll_reaches (Q := fun u : State => (u.queue a l).seenOff = off) s.ctxs (fun x hx t ht => forAll_induct_mem (P := fun u : State => (u.queue a l).seenOff = off) x.2.links
      (fun h hh u hu => hkeep x hx h hh u hu) ht) hmem (fun t => ?_) s
  refine forAll_reaches (Q := fun u : State => (u.queue a l).seenOff = off) (s.ctx a).links (fun h hh u hu => hkeep _ hmem h hh u hu) (Table.mem_of_get? hl) (fun u => ?_) t
  rw [hoff]
  exact u.takeFlow_sets hen hrem hsrc

end

end Sys2Proof.Machine
end

section
/-! O49: the payload of an accepted frame acts by its type. -/

namespace Sys2Proof.Machine

/-- The address of a relayed frame, dropped or sent on (R295). -/
theorem State.takeRelayed_noRoute {s : State} {final : Nat} (hf : final ≠ s.node) (hr : Table.get? s.routes final = none) (port : Nat) (h : FrameHdr)
    (orig typ : Nat) (m : CtlMsg) :
    let u := s.takeRelayed port h final orig typ m
    u.rf (bar0 (portDie port) 0 Off.EAV_RELAY) 63 32 = satPlus 32 (s.rf (bar0 (portDie port) 0 Off.EAV_RELAY) 63 32) 1 ∧ u.links = s.links := by
  have heq : s.takeRelayed port h final orig typ m = (s.sat (bar0 (portDie port) 0 Off.EAV_RELAY) 63 32 1).raisePg (portDie port) 0 4 := by
    unfold State.takeRelayed
    dsimp only
    rw [if_neg hf, hr]
  rw [heq]
  refine ⟨?_, (congrArg State.links (State.raisePg_core _ _ _ _) :).trans (congrArg State.links (onlyRegs.sat s (bar0 (portDie port) 0 Off.EAV_RELAY) 63 32 1) :)⟩
  rw [State.rf_eq, State.reg_raisePg _ _ _ _ (by rw [eavReg_mod _ (by decide)]; decide) (by rw [eavReg_mod _ (by decide)]; decide), ← State.rf_eq]
  exact (s.rf_sat_halves _ 1).1

theorem State.takeRelayed_onward {s : State} {final : Nat} (hf : final ≠ s.node) (hr : (Table.get? s.routes final).isSome = true) (port : Nat) (h : FrameHdr)
    (orig typ : Nat) (m : CtlMsg) :
    let u := s.takeRelayed port h final orig typ m
    u.rf (bar0 (portDie port) 0 Off.EAV_RELAY) 31 0 = satPlus 32 (s.rf (bar0 (portDie port) 0 Off.EAV_RELAY) 31 0) 1
      ∧ (u.lc (linkKey final) h.cls).txq
        = (s.lc (linkKey final) h.cls).txq ++ [⟨⟨{ h with dst := final, src := s.node }, .relayed final orig typ m⟩, none, none⟩] := by
  obtain ⟨e, he⟩ := Option.isSome_iff_exists.mp hr
  obtain ⟨z, hz⟩ : ∃ z, z = s.sat (bar0 (portDie port) 0 Off.EAV_RELAY) 31 0 1 := ⟨_, rfl⟩
  have heq : s.takeRelayed port h final orig typ m
      = z.enqueue (linkKey final) ⟨{ h with dst := final, src := s.node }, .relayed final orig typ m⟩ none := by
    unfold State.takeRelayed
    dsimp only
    rw [if_neg hf, he, hz]
  have honly : onlyRegs s z := by rw [hz]; exact .sat _ _ _ _ _
  rw [heq]
  refine ⟨?_, ?_⟩
  · show z.rf (bar0 (portDie port) 0 Off.EAV_RELAY) 31 0 = _
    rw [hz]
    exact (s.rf_sat_halves _ 1).2.2.1
  · unfold State.enqueue
    rw [State.lc_modLc_self, State.lc_of_links (s := s) (t := z) (congrArg State.links honly :)]

/-! ## Delivery by type -/

section
variable {s : State} {f : RxFrame}

theorem deliverFrame_ctl {m : CtlMsg} (h : f.frame.body = .ctl m) :
    deliverFrame f s = s.takeCtl f.frame.hdr.ctx f.frame.hdr.obj f.frame.hdr.src f.frame.hdr.typ f.frame.hdr.oepoch m := by
  unfold deliverFrame
  rw [h]

theorem deliverFrame_coll {m : CollMsg} (h : f.frame.body = .coll m) (ht : f.frame.hdr.typ = 2 ∨ f.frame.hdr.typ = 3) :
    deliverFrame f s = s.takeColl f.frame.hdr.ctx f.frame.hdr.obj f.frame.hdr.oepoch (decide (f.frame.hdr.typ = 3)) m f.frame.hdr.poison := by
  unfold deliverFrame
  rw [h]
  exact if_pos ht

theorem deliverFrame_stage {d : List Byte} (h : f.frame.body = .raw d) (ht : f.frame.hdr.typ = 1) :
    deliverFrame f s = s.takeStage f.frame.hdr.ctx f.frame.hdr.obj f.frame.hdr.src f.port (withPoison f.frame.hdr.poison 0 d) f.frame.hdr.last := by
  unfold deliverFrame
  rw [h]
  dsimp only
  rw [ht]
  rfl

theorem deliverFrame_ingest {d : List Byte} (h : f.frame.body = .raw d) (ht : f.frame.hdr.typ = 7) :
    deliverFrame f s = s.takeIngest f.frame.hdr.ctx (withPoison f.frame.hdr.poison 0 d) f.frame.hdr.last := by
  unfold deliverFrame
  rw [h]
  dsimp only
  rw [ht]
  rfl

theorem deliverFrame_guest {d : List Byte} (h : f.frame.body = .raw d) (ht : f.frame.hdr.typ = 8) :
    deliverFrame f s = s.takeGuest f.frame.hdr.ctx f.frame.hdr.src d := by
  unfold deliverFrame
  rw [h]
  dsimp only
  rw [ht]
  rfl

theorem deliverFrame_linkctl {recs : List ClassRec} {flows : List FlowRec} (h : f.frame.body = .linkctl recs flows) {k : Nat} (hk : s.frameKey f.frame.hdr = some k) :
    deliverFrame f s = s.takeLinkctl k f.port recs flows := by
  unfold deliverFrame
  rw [h]
  dsimp only
  rw [hk]

theorem deliverFrame_mirrorAck {m : MirrorMsg} (h : f.frame.body = .mirror m) (hk : m.kind = 3) :
    deliverFrame f s = s.takeMirrorAck f.frame.hdr.ctx f.frame.hdr.src m := by
  unfold deliverFrame
  rw [h]
  exact if_pos hk

theorem deliverFrame_mirror {m : MirrorMsg} (h : f.frame.body = .mirror m) (hk : m.kind ≠ 3) (hr : m.rebuild = false) :
    deliverFrame f s = s.takeMirror f.frame.hdr.ctx f.frame.hdr.src m (withPoison f.frame.hdr.poison 16 m.data) := by
  unfold deliverFrame
  rw [h]
  exact (if_neg hk).trans (if_neg (by rw [hr]; decide))

theorem deliverFrame_rebuild {m : MirrorMsg} (h : f.frame.body = .mirror m) (hk : m.kind ≠ 3) (hr : m.rebuild = true) :
    deliverFrame f s = s.takeRebuild f.frame.hdr.ctx f.frame.hdr.src m (withPoison f.frame.hdr.poison 16 m.data) := by
  unfold deliverFrame
  rw [h]
  exact (if_neg hk).trans (if_pos hr)

theorem deliverFrame_relayed {final orig t : Nat} {m : CtlMsg} (h : f.frame.body = .relayed final orig t m) :
    deliverFrame f s = s.takeRelayed f.port f.frame.hdr final orig t m := by
  unfold deliverFrame
  rw [h]

end

/-! ## Bytes and their poison -/

theorem withPoison_bytes (w : Word) (off : Nat) (d : List Byte) : (withPoison w off d).map (·.1) = d := by
  unfold withPoison
  rw [List.map_map]
  exact (List.map_congr_left fun _ _ => rfl).trans (List.zipIdx_map_fst 0 d)

theorem withPoison_length (w : Word) (off : Nat) (d : List Byte) : (withPoison w off d).length = d.length := by
  unfold withPoison
  rw [List.length_map, List.length_zipIdx]

theorem withPoison_take (w : Word) (off n : Nat) (d : List Byte) : ((withPoison w off d).take n).map (·.1) = d.take n := by
  rw [List.map_take, withPoison_bytes]

theorem withPoison_cut (w : Word) (off lo n : Nat) (d : List Byte) : (cutP (withPoison w off d) (lo, n)).map (·.1) = (d.drop lo).take n := by
  unfold cutP
  rw [List.map_take, List.map_drop, withPoison_bytes]

/-! ## LINKCTL (R302) -/

theorem State.takeFlows_links (s : State) (src : Nat) (flows : List FlowRec) : (s.takeFlows src flows).links = s.links := by
  rw [State.takeFlows_eq]
  refine forAll_induct (P := fun t : State => t.links = s.links) (fun e t ht => ?_) s.ctxs rfl
  refine forAll_induct (P := fun t : State => t.links = s.links) (fun h u hu => ?_) e.2.links ht
  unfold State.takeFlow
  split
  · exact hu
  · exact hu

/-- A LINKCTL frame: the credits of its classes, and to the transmit halves of its sender's consumers their flow states. -/
theorem State.takeLinkctl_spec (s : State) (k port : Nat) (recs : List ClassRec) (flows : List FlowRec) :
    let u := s.takeLinkctl k port recs flows
    (∀ i x, i ≠ 1 → recs[i]? = some x → (u.lc k i).freedHeld
        = if laterMod 64 x.freed.toNat (s.lc k i).freedHeld.toNat then x.freed else (s.lc k i).freedHeld)
      ∧ (s.Inv → k % 17 = 0 → ∀ a l e, Table.get? (s.ctx a).links l = some e → (∀ y ∈ (s.ctx a).links, y.1 = l → y.2 = e) → e.txEn = true →
          e.remote = true → e.destNode = keyNode k →
          (u.queue a l).seenOff = flows.any fun r => decide (r.ctx = a ∧ r.link = e.destLink) && !r.on) := by
  obtain ⟨hcredit, hroads⟩ := s.takeRecs_spec k port recs
  have hlinks : (s.takeLinkctl k port recs flows).links = (s.takeRecs k port recs).links := by
    unfold State.takeLinkctl
    dsimp only
    split
    · exact State.takeFlows_links _ _ _
    · rfl
  refine ⟨fun i x hi hx => ?_, fun hinv hk a l e hl hone hen hrem hdest => ?_⟩
  · rw [State.lc_of_links hlinks]
    exact hcredit i x hi hx
  · have hgood := (State.good_iff _ _).mp (State.takeRecs_good s k port recs ((State.good_iff _ s).mpr ⟨hinv, rfl⟩))
    have heq : s.takeLinkctl k port recs flows = (s.takeRecs k port recs).takeFlows (keyNode k) flows := if_pos hk
    rw [heq]
    refine State.takeFlows_spec hen hrem hdest hgood.1.ctxs ?_ ?_
    · rw [hroads a]
      exact hl
    · rw [hroads a]
      exact hone

/-! ## Obligation O49 -/

/-- Settles O49: each type of payload by the rule of the function that takes it. -/
theorem framePayloadsAct : Obligations.FramePayloadsAct := by
  intro s f hport hctx h c u ctlOr stale
  have hu : u = deliverFrame f s := rfl
  clear_value u
  obtain ⟨hlow, hhigh⟩ := s.countStale c
  refine ⟨fun hsort hno => ?_, fun seq v fl n q step hv g hg hc hep => ?_, fun seq v code fl n q hv g hg hc hep => ?_, fun e hv => ?_,
    fun m hb ht g hg hc hep => ?_, fun d hb ht => ?_, fun d hb ht => ?_, fun d hb ht hsite hon => ?_, fun m hb hk g hg hend hgen hsrc => ?_,
    fun m hb hk hr => ?_, fun m hb hk hr => ?_, fun final orig t m hb => ?_, fun recs flows hb k hk => ?_⟩
  · have hstale : u = s.cSat c Off.CTX_STALE_EPOCH 31 0 1 := by
      rcases hsort with ⟨seq, v, fl, n, q, step, ht, hb⟩ | ⟨seq, v, code, fl, n, q, ht, hb⟩ | ⟨m, hb, ht⟩
      · rw [hu, deliverFrame_ctl hb, ht]
        exact State.takeVote_stale hno _ _ _ _ _ _
      · rw [hu, deliverFrame_ctl hb, ht]
        exact State.takeDecide_stale hno _ _ _ _ _ _
      · rw [hu, deliverFrame_coll hb ht]
        exact State.takeColl_stale hno _ _ _
    show u.cf c Off.CTX_STALE_EPOCH 31 0 = _ ∧ onlyRegs s u
    rw [hstale]
    exact hlow
  · obtain ⟨ht, hb⟩ := hv
    have heq : u = s.takeVote c h.obj seq v ⟨h.src, fl, n, q, step⟩ := by
      rw [hu, deliverFrame_ctl hb, ht, ← hep]
      exact State.takeCtl_vote hg hc _ _ _ _ _ _
    refine ⟨fun hnone => ?_, fun r x hrun hp hopen hx hepoch hnew => ?_⟩
    · show u.cf c Off.CTX_STALE_EPOCH 63 32 = _ ∧ onlyRegs s u
      rw [heq, State.takeVote_closed hnone]
      exact hhigh
    · rw [heq]
      exact State.takeVote_open hg hc hrun hp hopen hx hepoch hnew
  · obtain ⟨ht, hb⟩ := hv
    have heq : u = s.takeDecide c h.obj seq v ⟨code, fl, n, q⟩ := by
      rw [hu, deliverFrame_ctl hb, ht, ← hep]
      exact State.takeCtl_decide hg hc _ _ _ _ _ _
    refine ⟨fun hnone => ?_, fun r hopen hp => heq.trans (State.takeDecide_open hopen hp _)⟩
    show u.cf c Off.CTX_STALE_EPOCH 63 32 = _ ∧ onlyRegs s u
    rw [heq, State.takeDecide_closed hnone]
    exact hhigh
  · obtain ⟨ht, hb⟩ := hv
    rw [hu, deliverFrame_ctl hb, ht]
    unfold State.takeCtl
    dsimp only
    by_cases hm : s.rf Off.RDG_MGMT 0 0 = 1 ∧ s.rf Off.RDG_MGMT 20 1 = h.src
    · rw [if_pos ⟨rfl, hm⟩, if_pos hm]
    · rw [if_neg fun hh => hm hh.2, if_neg hm]
  · have heq : u = s.takeColl c h.obj g.epoch (decide (h.typ = 3)) m h.poison := by
      rw [hu, deliverFrame_coll hb ht, ← hep]
    refine ⟨fun hpool hturn => ?_, fun hpool hm => ?_, fun id x y hpool ht3 hm hx hy => ?_⟩
    · rw [heq]
      exact State.takeColl_outOfTurn hg hc _ _ _ hpool hturn
    · show u.cf c Off.CTX_STALE_EPOCH 63 32 = _ ∧ onlyRegs s u
      rw [heq, State.takeColl_unmatched hg hc _ _ _ hpool hm]
      exact hhigh
    · have harea : u = s.takeArea c id h.obj m (withPoison h.poison 64 m.data) := by
        rw [heq, ht3]
        exact State.takeColl_area hg hc m h.poison hpool hm
      rw [harea]
      exact ⟨State.takeArea_wrongSize hx hy _ _, State.takeArea_joins hx hy _ _⟩
  · rw [hu, deliverFrame_stage hb ht]
    refine ⟨fun hclosed => State.takeStage_closed hclosed _ _ _ _, fun e he hrx hp htail hskip hwords hlen => ?_⟩
    exact State.takeStage_tooLong he hrx hp htail hskip hwords _ _ _ _ (by rw [withPoison_cut]; exact hlen)
  · rw [hu, deliverFrame_ingest hb ht]
    refine ⟨fun hp => State.takeIngest_faulted hp _ _, fun hp hlast => ?_, fun hp hlong hbody => ?_⟩
    · rw [hlast]
      exact State.takeIngest_last hp _
    · exact State.takeIngest_beyond hp (by rw [withPoison_take, withPoison_length]; exact hlong) (by rw [withPoison_length]; exact hbody) _
  · rw [hu, deliverFrame_guest hb ht]
    refine ⟨fun hw => ?_, fun hw => ?_⟩
    · rw [State.takeGuest_admitted hsite hon d hw]
      exact ⟨State.site_modSite_self _ _ _, rfl, ⟨rfl, rfl, rfl, rfl, rfl, rfl⟩⟩
    · rw [State.takeGuest_refused hsite hon d hw]
      obtain ⟨h1, h2, -, -, h5, -, -⟩ := s.violation_spec c h.src (kind := 4) (by decide)
      exact ⟨h1, h2, by rw [State.site, h5, State.site]⟩
  · rw [hu, deliverFrame_mirrorAck hb hk]
    exact State.takeMirrorAck_spec hg hend hgen hsrc
  · have heq : u = s.takeMirror c h.src m (withPoison h.poison 16 m.data) := hu.trans (deliverFrame_mirror hb hk hr)
    refine ⟨fun hoff => heq.trans (if_pos (Or.inl hoff)), fun hin hp hsrc => heq.trans ?_⟩
    exact (if_neg (by rw [hin, hp]; simp)).trans (if_pos hsrc)
  · have heq : u = s.takeRebuild c h.src m (withPoison h.poison 16 m.data) := hu.trans (deliverFrame_rebuild hb hk hr)
    refine ⟨fun hno => heq.trans (if_pos (or_assoc.mp (Or.inl hno))), fun hsrc hrun hp hkind p hpage hregion => heq.trans ?_⟩
    unfold State.takeRebuild
    rw [if_neg (by rw [hrun, hp, hsrc]; simp), if_pos hkind, hpage]
    dsimp only
    rw [hregion]
  · have heq : u = s.takeRelayed f.port h final orig t m := hu.trans (deliverFrame_relayed hb)
    rw [heq]
    refine ⟨fun hf => if_pos hf, fun hf hr => State.takeRelayed_noRoute hf hr _ _ _ _ _, fun hf hr => ?_⟩
    obtain ⟨h1, h2⟩ := State.takeRelayed_onward hf hr f.port h orig t m
    exact ⟨h1, _, h2, rfl, rfl⟩
  · have heq : u = s.takeLinkctl k f.port recs flows := hu.trans (deliverFrame_linkctl hb hk)
    rw [heq]
    exact State.takeLinkctl_spec s k f.port recs flows

end Sys2Proof.Machine
end

section
/-! O48: the receive checks and the sequence rule decide every arriving frame (R296 to R298). -/

namespace Sys2Proof.Machine

/-! ## The counts of FEC and FCS -/

/-- What the decoder of a port has corrected and what it could not, counted. -/
def State.fecCounted (s : State) (f : RxFrame) : State :=
  (s.sat (portReg f.port Off.EAV_FECCNT) 31 0 f.fecCorr).sat (portReg f.port Off.EAV_FECCNT) 63 32 f.fecUncorr

theorem State.fecCounted_spec (s : State) (f : RxFrame) :
    let a := portReg f.port Off.EAV_FECCNT
    onlyRegs s (s.fecCounted f) ∧ sameRegsBut [a] s (s.fecCounted f) ∧ (s.fecCounted f).rf a 31 0 = satPlus 32 (s.rf a 31 0) f.fecCorr := by
  unfold State.fecCounted
  generalize portReg f.port Off.EAV_FECCNT = a
  obtain ⟨z, hz⟩ : ∃ z, z = s.sat a 31 0 f.fecCorr := ⟨_, rfl⟩
  have h1 : onlyRegs s z := by rw [hz]; exact .sat _ _ _ _ _
  have h2 : sameRegsBut [a] s z := by rw [hz]; exact (sameRegsBut.refl _ _).sat (List.mem_singleton.mpr rfl) _ _ _
  have h3 : z.rf a 31 0 = satPlus 32 (s.rf a 31 0) f.fecCorr := by rw [hz]; exact (s.rf_sat_halves a _).2.2.1
  rw [← hz]
  exact ⟨h1.trans (.sat _ _ _ _ _), h2.sat (List.mem_singleton.mpr rfl) _ _ _, (z.rf_sat_halves a _).2.1.trans h3⟩

/-- A register of a page of another offset than the ports' FEC counts. -/
theorem State.fecCounted_other (s : State) (f : RxFrame) {a : Nat} (h : ∀ i < 8, a % 2 ^ 12 ≠ Off.EAV_FECCNT + 0x40 * i) : (s.fecCounted f).reg a = s.reg a := by
  refine (s.fecCounted_spec f).2.1 a fun hm => ?_
  rw [List.map_singleton, List.mem_singleton] at hm
  exact homeAddr_ne_of_mod (by rw [portReg_mod (by decide)]; exact h _ (Nat.mod_lt _ (by decide))) hm

theorem mod_ne_fec {p off : Nat} (ho : off + 0x1C0 < 2 ^ 12) (h : off % 0x40 ≠ Off.EAV_FECCNT % 0x40) : ∀ i < 8, portReg p off % 2 ^ 12 ≠ Off.EAV_FECCNT + 0x40 * i :=
  fun i _ => by
    rw [portReg_mod (by omega)]
    simp only [Off.EAV_FECCNT] at *
    omega

/-! ## The checks (R296) -/

/-- The checks read nothing that the counts change. -/
theorem State.checks_fecCounted (s : State) (f : RxFrame) : (s.fecCounted f).checks f = s.checks f := by
  have honly := (s.fecCounted_spec f).1
  have hmac : (s.fecCounted f).reg (portReg f.port Off.EAV_MAC) = s.reg (portReg f.port Off.EAV_MAC) :=
    s.fecCounted_other f (mod_ne_fec (by decide) (by decide))
  have hety : (s.fecCounted f).reg (bar0 (portDie f.port) 0 Off.EAV_ETYPE) = s.reg (bar0 (portDie f.port) 0 Off.EAV_ETYPE) :=
    s.fecCounted_other f (by rw [eavReg_mod _ (by decide)]; decide)
  have hnode : (s.fecCounted f).node = s.node := by
    rw [State.node, State.rf_eq, s.fecCounted_other f (by decide), ← State.rf_eq, State.node]
  have hmatch : (s.fecCounted f).macMatch f = s.macMatch f := by
    unfold State.macMatch
    rw [State.rf_eq, State.rf_eq _ (bar0 (portDie f.port) 0 Off.EAV_ETYPE), State.rf_eq _ (bar0 (portDie f.port) 0 Off.EAV_ETYPE), hmac, hety]
    rfl
  have hroutes : (s.fecCounted f).routes = s.routes := (congrArg State.routes honly :)
  have hkey : (s.fecCounted f).frameKey f.frame.hdr = s.frameKey f.frame.hdr := by rw [State.frameKey, hroutes, State.frameKey]
  unfold State.checks
  dsimp only
  rw [hmatch, hkey, hroutes, hnode]

theorem State.frameKey_fecCounted (s : State) (f : RxFrame) : (s.fecCounted f).frameKey f.frame.hdr = s.frameKey f.frame.hdr := by
  rw [State.frameKey, (congrArg State.routes (s.fecCounted_spec f).1 :), State.frameKey]

/-- A failed check advances a counter of EAV_DROP. -/
theorem State.checks_drop {s : State} {f : RxFrame} {off hi lo : Nat} (h : s.checks f = some (off, hi, lo)) : off = Off.EAV_DROP ∧ lo ≤ hi ∧ hi < 64 := by
  unfold State.checks at h
  dsimp only at h
  split at h
  · cases h; exact ⟨rfl, by decide, by decide⟩
  · split at h
    · cases h; exact ⟨rfl, by decide, by decide⟩
    · split at h
      · cases h; exact ⟨rfl, by decide, by decide⟩
      · split at h
        · cases h; exact ⟨rfl, by decide, by decide⟩
        · split at h
          · cases h; exact ⟨rfl, by decide, by decide⟩
          · cases h

/-! ## What `receive` does with a frame -/

section
variable {s : State} {f : RxFrame} {deliver : State → State}

theorem State.receive_down (h : s.portUpNow f.port = false ∨ s.alive (portDie f.port) = false) : s.receive f deliver = s := by
  refine if_pos ?_
  rcases h with h | h <;> rw [h] <;> simp

section
variable (hup : s.portUpNow f.port = true) (hlive : s.alive (portDie f.port) = true)
include hup hlive

theorem State.receive_damaged (h : f.fcsOk = false ∨ 0 < f.fecUncorr) :
    s.receive f deliver = (s.fecCounted f).sat (portReg f.port Off.EAV_RXERR) 31 0 1 := by
  unfold State.receive
  rw [if_neg (by rw [hup, hlive]; simp)]
  refine if_pos ?_
  rcases h with h | h
  · rw [h]; simp
  · exact Or.inr h

section
variable (hfcs : f.fcsOk = true) (hfec : f.fecUncorr = 0)
include hfcs hfec

theorem State.receive_refused {off hi lo : Nat} (h : s.checks f = some (off, hi, lo)) : s.receive f deliver = (s.fecCounted f).eavSat f.port off hi lo := by
  unfold State.receive
  rw [if_neg (by rw [hup, hlive]; simp)]
  dsimp only
  rw [if_neg (by rw [hfcs, hfec]; simp), show ((s.sat (portReg f.port Off.EAV_FECCNT) 31 0 f.fecCorr).sat (portReg f.port Off.EAV_FECCNT) 63 32 f.fecUncorr)
    = s.fecCounted f from rfl, s.checks_fecCounted f, h]

theorem State.receive_checked (h : s.checks f = none) {k : Nat} (hk : s.frameKey f.frame.hdr = some k) :
    s.receive f deliver = ((s.fecCounted f).sawFrame k f.port f.frame).sequence k f deliver := by
  unfold State.receive
  rw [if_neg (by rw [hup, hlive]; simp)]
  dsimp only
  rw [if_neg (by rw [hfcs, hfec]; simp), show ((s.sat (portReg f.port Off.EAV_FECCNT) 31 0 f.fecCorr).sat (portReg f.port Off.EAV_FECCNT) 63 32 f.fecUncorr)
    = s.fecCounted f from rfl, s.checks_fecCounted f, h]
  dsimp only
  rw [s.frameKey_fecCounted f, hk]

end
end
end

/-- Links and contexts apart, nothing differs between two states. -/
def onlyLinksCtxs (s t : State) : Prop := t = { s with links := t.links, ctxs := t.ctxs }

theorem onlyLinksCtxs.trans {s t u : State} (h : onlyLinksCtxs s t) (g : onlyLinksCtxs t u) : onlyLinksCtxs s u := by
  unfold onlyLinksCtxs at *
  rw [g, h]

theorem State.modLink_linksCtxs (s : State) (k : Nat) (f : Link → Link) : onlyLinksCtxs s (s.modLink k f) := rfl

theorem State.mapCtxs_linksCtxs (s : State) (f : Ctx → Ctx) : onlyLinksCtxs s (s.mapCtxs f) := rfl

theorem State.wakeLink_linksCtxs (s : State) (k : Nat) : onlyLinksCtxs s (s.wakeLink k) := by
  unfold State.wakeLink
  split
  · rfl
  · exact s.modLink_linksCtxs k _

/-- What arrives on a link is noted there (R303, R411): contexts may lose deadlines, and of the link only times and KALIVE change. -/
theorem State.sawFrame_spec (s : State) (k p : Nat) (f : Frame) :
    let u := s.sawFrame k p f
    onlyLinksCtxs s u ∧ (∀ j m, u.lc j m = s.lc j m) ∧ (s.activePort k = some p → (u.link k).lastRx = s.now) := by
  obtain ⟨z, hz⟩ : ∃ z, z = (s.wakeLink k).modLink k fun l => { l with
    lastRx := if s.activePort k = some p then s.now else l.lastRx
    lastData := if f.hdr.cls = 1 then l.lastData else s.now
    peerKalive := f.hdr.kalive } := ⟨_, rfl⟩
  have h1 : onlyLinksCtxs s z := by rw [hz]; exact (s.wakeLink_linksCtxs k).trans (State.modLink_linksCtxs _ _ _)
  have h2 : ∀ j m, z.lc j m = s.lc j m := fun j m => by rw [hz, State.lc_modLink _ _ _ _ rfl, (s.wakeLink_spec k).2]
  have h3 : s.activePort k = some p → (z.link k).lastRx = s.now := fun h => by
    rw [hz, State.link_modLink_self]
    exact if_pos h
  unfold State.sawFrame
  dsimp only
  rw [← hz]
  split
  · exact ⟨h1.trans (z.mapCtxs_linksCtxs _), h2, h3⟩
  · exact ⟨h1, h2, h3⟩

/-! ## The sequence rule (R298) -/

/-- A frame accepted (R297): what its payload finds, delivery apart. -/
def State.credited (s : State) (k : Nat) (f : RxFrame) : State :=
  let h := f.frame.hdr
  let s1 := if h.ackv then s.ackClass k h.cls h.ack else s
  let s3 := (s1.modLc k h.cls fun l => { l with exp := l.exp + 1, nakSent := false, ackDue := true }).modLc k h.cls
    fun l => { l with freed := l.freed + BitVec.ofNat 64 (hdrCredit h) }
  match frameCtx f.frame with
  | none => s3
  | some c => s3.cWrap c Off.CTX_BYTES_ERX 63 0 (wireBytes h.len)

section
variable {s : State} {k : Nat} {f : RxFrame} {deliver : State → State} (hcls : f.frame.hdr.cls ≠ 1)
include hcls

theorem State.sequence_turn (hseq : f.frame.hdr.seq = (s.lc k f.frame.hdr.cls).exp) (hka : s.keepAlive = true → f.frame.hdr.cls < 2) :
    s.sequence k f deliver = deliver (s.credited k f) := by
  unfold State.sequence
  dsimp only
  rw [if_neg hcls, if_pos hseq, if_neg fun h => absurd (hka h.1) (by omega)]
  unfold State.acceptFrame
  dsimp only
  rw [if_neg fun h => absurd (hka h.1) (by omega)]
  rfl

section
variable (hseq : f.frame.hdr.seq ≠ (s.lc k f.frame.hdr.cls).exp)
include hseq

theorem State.sequence_later (hlater : laterMod 32 f.frame.hdr.seq.toNat (s.lc k f.frame.hdr.cls).exp.toNat = true) :
    s.sequence k f deliver = if (s.lc k f.frame.hdr.cls).nakSent then s else s.sendLinkctl k (some f.frame.hdr.cls) := by
  unfold State.sequence
  dsimp only
  rw [if_neg hcls, if_neg hseq, if_pos hlater]

theorem State.sequence_duplicate (hlater : laterMod 32 f.frame.hdr.seq.toNat (s.lc k f.frame.hdr.cls).exp.toNat = false) :
    s.sequence k f deliver = (s.sat (portReg f.port Off.EAV_RXERR) 63 32 1).modLc k f.frame.hdr.cls fun l => { l with ackDue := true } := by
  unfold State.sequence
  dsimp only
  rw [if_neg hcls, if_neg hseq, if_neg (by rw [hlater]; simp)]

end
end

/-- A negative acknowledgement queued for a class: of that class nothing else changes, and of the machine only the link. -/
theorem State.sendNak_spec (s : State) (k : Nat) {c : Nat} (hc : c ≠ 1) :
    let u := s.sendLinkctl k (some c)
    (u.lc k c).exp = (s.lc k c).exp ∧ (u.lc k c).nakSent = true ∧ sameMemory s u := by
  obtain ⟨x, hx⟩ : ∃ x : TxFrame, s.sendLinkctl k (some c) = (((s.modLc k 1 fun l => { l with txq := l.txq ++ [x] }).modLink k fun l => { l with
        lastCtl := s.now
        classes := l.classes.mapVals fun _ x => { x with ackDue := false } }).modLc k c fun x => { x with nakSent := true }) := ⟨⟨_, none, none⟩, rfl⟩
  generalize ht : s.modLc k 1 (fun l => { l with txq := l.txq ++ [x] }) = t at hx
  have htlc : t.lc k c = s.lc k c := by rw [← ht, State.lc_modLc, if_neg fun h => hc h.2]
  have hlc : (s.sendLinkctl k (some c)).lc k c = { t.lc k c with ackDue := false, nakSent := true } := by
    rw [hx, State.lc_modLc_self, t.lc_mapClasses k c (g := fun _ x => { x with ackDue := false }) rfl rfl]
  refine ⟨by rw [hlc, htlc], by rw [hlc], ?_⟩
  rw [hx, ← ht]
  exact (((s.modLc_rewired k 1 _).trans (State.modLink_rewired _ k _)).trans (State.modLc_rewired _ k c _)).memory

/-- Behind an accepted frame: the next one is awaited, an acknowledgement is due, its bytes are free again and counted. -/
theorem State.credited_spec (s : State) (k : Nat) (f : RxFrame) :
    let h := f.frame.hdr
    let z := s.credited k f
    (z.lc k h.cls).exp = (s.lc k h.cls).exp + 1 ∧ (z.lc k h.cls).ackDue = true
      ∧ (z.lc k h.cls).freed = (s.lc k h.cls).freed + BitVec.ofNat 64 (hdrCredit h) ∧ (z.link k).lastRx = (s.link k).lastRx
      ∧ (∀ c, frameCtx f.frame = some c → z.reg (ctxA c Off.CTX_BYTES_ERX) = BitVec.ofNat 64 ((s.reg (ctxA c Off.CTX_BYTES_ERX)).toNat + wireBytes h.len))
      ∧ sameMemory s z ∧ z.groups = s.groups ∧ z.routes = s.routes := by
  intro h z
  obtain ⟨s1, h1⟩ : ∃ s1, s1 = if h.ackv then s.ackClass k h.cls h.ack else s := ⟨_, rfl⟩
  have hheard : Heard s s1 := by
    rw [h1]
    exact .ite (s.ackClass_heard k h.cls h.ack) (.refl s)
  obtain ⟨s2, h2⟩ : ∃ s2, s2 = s1.modLc k h.cls fun l => { l with exp := l.exp + 1, nakSent := false, ackDue := true } := ⟨_, rfl⟩
  obtain ⟨s3, h3⟩ : ∃ s3, s3 = s2.modLc k h.cls fun l => { l with freed := l.freed + BitVec.ofNat 64 (hdrCredit h) } := ⟨_, rfl⟩
  obtain ⟨una, held, replay, e, hlc1⟩ := hheard.lcs k h.cls
  have hlc3 : s3.lc k h.cls = { s1.lc k h.cls with
      exp := (s.lc k h.cls).exp + 1, nakSent := false, ackDue := true, freed := (s.lc k h.cls).freed + BitVec.ofNat 64 (hdrCredit h) } := by
    rw [h3, State.lc_modLc_self, h2, State.lc_modLc_self, hlc1]
  have hlast : (s3.link k).lastRx = (s.link k).lastRx := by
    rw [← hheard.lastRx k, h3, State.modLc, State.link_modLink_self, h2, State.modLc, State.link_modLink_self]
  have hlinks3 : s3 = { s1 with links := s3.links } := by rw [h3, h2]; rfl
  have hreg : ∀ a, a % 2 ^ 12 ∉ heardWrites → s3.reg a = s.reg a := fun a ha =>
    (reg_of_regs (congrArg State.regs hlinks3 :) a).trans (hheard.reg a ha)
  have hz : z = match frameCtx f.frame with
      | none => s3
      | some c => s3.cWrap c Off.CTX_BYTES_ERX 63 0 (wireBytes h.len) := by
    rw [h3, h2, h1]
    rfl
  have honly : onlyRegs s3 z := by
    rw [hz]
    split
    · rfl
    · exact .wrap _ _ _ _ _
  have hlcz : z.lc k h.cls = s3.lc k h.cls := State.lc_of_links (congrArg State.links honly :) _ _
  have hmem3 : sameMemory s1 s3 := by rw [hlinks3]; exact ⟨rfl, rfl, rfl, rfl, rfl, rfl⟩
  have hmemz : sameMemory s3 z := ⟨(congrArg State.mem honly :), (congrArg State.poison honly :), (congrArg State.cache honly :),
    (congrArg State.scratch honly :), (congrArg State.scratchPoison honly :), (congrArg State.hostMem honly :)⟩
  refine ⟨by rw [hlcz, hlc3], by rw [hlcz, hlc3], by rw [hlcz, hlc3], ?_, fun c hc => ?_, (hheard.memory.trans hmem3).trans hmemz, ?_, ?_⟩
  · rw [State.link, (congrArg State.links honly :), ← State.link]
    exact hlast
  · rw [hz, hc]
    exact (s3.reg_wrap64 _ _).trans (by rw [hreg _ (by rw [ctxA_mod c (by decide)]; decide)])
  · exact (congrArg State.groups honly :).trans ((congrArg State.groups hlinks3 :).trans (congrArg State.groups hheard.core :))
  · exact (congrArg State.routes honly :).trans ((congrArg State.routes hlinks3 :).trans (congrArg State.routes hheard.core :))

/-! ## Obligation O48 -/

/-- Every command of a frame type receives the frame. -/
theorem exec_arrival {f : RxFrame} (s : State) :
    ∀ r ∈ [(Instr.linkctl f, 0, true), (.stage f, 1, true), (.coll f, 2, true), (.ring f, 3, true), (.vote f, 4, true), (.decide f, 5, true),
        (.mirror f, 6, decide (mirrorSort f = 0)), (.mirrorAck f, 6, decide (mirrorSort f = 1)), (.rebuildFrame f, 6, decide (mirrorSort f = 2)),
        (.ingest f, 7, true), (.guest f, 8, true), (.mgmt f, 9, true), (.relayed f, 10, true)],
      f.frame.hdr.typ = r.2.1 → r.2.2 = true → exec r.1 s = .next (s.receive f (deliverFrame f)) := by
  have harrive : ∀ t, f.frame.hdr.typ = t → s.arrive t f = s.receive f (deliverFrame f) := fun t ht => if_pos ht
  have hmirror : ∀ n, f.frame.hdr.typ = 6 → decide (mirrorSort f = n) = true → s.arriveMirror n f = s.receive f (deliverFrame f) := fun n ht hn =>
    (if_pos (of_decide_eq_true hn)).trans (harrive 6 ht)
  intro r hr ht hflag
  simp only [List.mem_cons, List.not_mem_nil, or_false] at hr
  rcases hr with rfl | rfl | rfl | rfl | rfl | rfl | rfl | rfl | rfl | rfl | rfl | rfl | rfl
  case inr.inr.inr.inr.inr.inr.inl => exact congrArg Host.Outcome.next (hmirror 0 ht hflag)
  case inr.inr.inr.inr.inr.inr.inr.inl => exact congrArg Host.Outcome.next (hmirror 1 ht hflag)
  case inr.inr.inr.inr.inr.inr.inr.inr.inl => exact congrArg Host.Outcome.next (hmirror 2 ht hflag)
  all_goals exact congrArg Host.Outcome.next (harrive _ ht)

/-- Settles O48: the first failed check or the sequence rule decides what `receive` does with a frame. -/
theorem receiveChecksDecideAFrame : Obligations.ReceiveChecksDecideAFrame := by
  intro s f hport hctx r hr htyp hflag h d fec bad
  have hrun := exec_arrival (f := f) s r hr htyp hflag
  obtain ⟨honly, hothers, hfecrf⟩ := s.fecCounted_spec f
  have hbad : (s.fecCounted f).reg bad = s.reg bad := s.fecCounted_other f (mod_ne_fec (by decide) (by decide))
  have hmem : sameMemory s (s.fecCounted f) := ⟨(congrArg State.mem honly :), (congrArg State.poison honly :), (congrArg State.cache honly :),
    (congrArg State.scratch honly :), (congrArg State.scratchPoison honly :), (congrArg State.hostMem honly :)⟩
  have hlink : ∀ k c, (s.fecCounted f).lc k c = s.lc k c := State.lc_of_links (congrArg State.links honly :)
  have hactive : ∀ k, (s.fecCounted f).activePort k = s.activePort k := fun k => by
    unfold State.activePort State.linkPorts State.routeOfKey State.link
    rw [(congrArg State.routes honly :), (congrArg State.links honly :)]
  have hne : fec % 2 ^ 12 ≠ bad % 2 ^ 12 := by
    rw [portReg_mod (by decide), portReg_mod (by decide)]
    simp only [Off.EAV_FECCNT, Off.EAV_RXERR]
    omega
  have hwide : ∀ a, sameRegsBut [fec, a] s (s.fecCounted f) := fun a b hb => hothers b fun hm => hb (List.mem_cons.mpr (Or.inl (List.mem_singleton.mp hm)))
  refine ⟨fun hdown => ⟨_, hrun, State.receive_down hdown⟩, fun hup hlive => ⟨fun hdamaged => ?_, fun hfcs hfec => ⟨fun off hi lo hcheck => ?_,
    fun k hcheck hk hcls => ?_⟩⟩⟩
  · refine ⟨_, hrun, ?_⟩
    rw [State.receive_damaged hup hlive hdamaged]
    refine ⟨?_, ?_, honly.trans (.sat _ _ _ _ _), ?_⟩
    · rw [(State.rf_sat_halves _ _ _).2.2.1, State.rf_eq, hbad, ← State.rf_eq]
    · rw [State.rf_eq, State.reg_sat_of_mod _ _ _ _ hne, ← State.rf_eq]
      exact hfecrf
    · exact (hwide bad).sat (List.mem_cons_of_mem _ (List.mem_singleton.mpr rfl)) _ _ _
  · obtain ⟨rfl, hlo, hhi⟩ := State.checks_drop hcheck
    refine ⟨_, hrun, ?_⟩
    rw [State.receive_refused hup hlive hfcs hfec hcheck]
    refine ⟨?_, honly.trans (.sat _ _ _ _ _), ?_⟩
    · refine ((s.fecCounted f).rf_sat_self _ hi lo 1 hlo hhi).trans ?_
      rw [State.rf_eq, s.fecCounted_other f (by rw [eavReg_mod _ (by decide)]; decide), ← State.rf_eq]
    · exact (hwide _).sat (List.mem_cons_of_mem _ (List.mem_singleton.mpr rfl)) _ _ _
  · have hrec := State.receive_checked (deliver := deliverFrame f) hup hlive hfcs hfec hcheck hk
    obtain ⟨z, hz⟩ : ∃ z, z = (s.fecCounted f).sawFrame k f.port f.frame := ⟨_, rfl⟩
    obtain ⟨hseen, hzlc, hzlast⟩ := (s.fecCounted f).sawFrame_spec k f.port f.frame
    rw [← hz] at hrec hseen hzlc hzlast
    have hlc : ∀ j m, z.lc j m = s.lc j m := fun j m => (hzlc j m).trans (hlink j m)
    have hzmem : sameMemory s z := hmem.trans (by rw [hseen]; exact ⟨rfl, rfl, rfl, rfl, rfl, rfl⟩)
    have hzreg : ∀ a, z.reg a = (s.fecCounted f).reg a := reg_of_regs (congrArg State.regs hseen :)
    rw [hrec] at hrun
    refine ⟨fun hseq hka => ?_, fun hlater hseq => ?_, fun hlater hseq => ?_⟩
    · have hzka : z.keepAlive = s.keepAlive := (congrArg State.keepAlive hseen :).trans (congrArg State.keepAlive honly :)
      rw [State.sequence_turn hcls (by rw [hlc]; exact hseq) (by rw [hzka]; exact hka)] at hrun
      obtain ⟨h1, h2, h3, h4, h5, h6, h7, h8⟩ := z.credited_spec k f
      refine ⟨_, hrun, _, rfl, h1.trans (by rw [hlc]), h2, h3.trans (by rw [hlc]), fun ha => ?_, fun c hc => (h5 c hc).trans ?_, hzmem.trans h6,
        h7.trans ?_, h8.trans ?_⟩
      · exact h4.trans ((hzlast ((hactive k).trans ha)).trans (congrArg State.now honly :))
      · rw [hzreg, s.fecCounted_other f (by rw [ctxA_mod c (by decide)]; decide)]
      · exact (congrArg State.groups hseen :).trans (congrArg State.groups honly :)
      · exact (congrArg State.routes hseen :).trans (congrArg State.routes honly :)
    · rw [State.sequence_later hcls (by rw [hlc]; exact hseq) (by rw [hlc]; exact hlater)] at hrun
      refine ⟨_, hrun, ?_⟩
      split
      · next hn => exact ⟨by rw [hlc], hn, hzmem⟩
      · obtain ⟨h1, h2, h3⟩ := z.sendNak_spec k hcls
        exact ⟨h1.trans (by rw [hlc]), h2, hzmem.trans h3⟩
    · rw [State.sequence_duplicate hcls (by rw [hlc]; exact hseq) (by rw [hlc]; exact hlater)] at hrun
      obtain ⟨y, hy⟩ : ∃ y, y = z.sat bad 63 32 1 := ⟨_, rfl⟩
      have hyonly : onlyRegs z y := by rw [hy]; exact .sat _ _ _ _ _
      have hyrf : y.rf bad 63 32 = satPlus 32 (s.rf bad 63 32) 1 := by
        rw [hy, (z.rf_sat_halves bad 1).1, State.rf_eq, hzreg, hbad, ← State.rf_eq]
      rw [← hy] at hrun
      have hrew := y.modLc_rewired k h.cls fun l => { l with ackDue := true }
      refine ⟨_, hrun, ?_, hyrf, (hzmem.trans ?_).trans hrew.memory⟩
      · rw [State.lc_modLc_self, State.lc_of_links (s := z) (t := y) (congrArg State.links hyonly :), hlc]
      · exact ⟨(congrArg State.mem hyonly :), (congrArg State.poison hyonly :), (congrArg State.cache hyonly :), (congrArg State.scratch hyonly :),
          (congrArg State.scratchPoison hyonly :), (congrArg State.hostMem hyonly :)⟩

end Sys2Proof.Machine
end

section
/-! SUPPORT. The power state, the sag actions and the role of the Ridges outlast what links, windows and fences do. -/

namespace Sys2Proof.Machine

/-- What the power states, the sag levels and the management role consist of. -/
structure PowerView where
  pstate : Nat
  psTarget : Option Nat
  halted : Bool
  haltSince : Option Nat
  keepAlive : Bool
  selfRefresh : Bool
  entered : List Nat
  bufLimited : Bool
  roleB : Bool

def State.power (s : State) : PowerView :=
  ⟨s.pstate, s.psTarget, s.halted, s.haltSince, s.keepAlive, s.selfRefresh, s.entered, s.bufLimited, s.roleB⟩

/-- RDG_PSTATE stands in a page that no access of a stack writes. -/
theorem offStacks_pstate : offStacks Off.RDG_PSTATE := by
  rintro _ ⟨t, ht, o, ho, rfl⟩
  exact (by decide : ∀ t < 16, ∀ o ∈ stackOffs, homeAddr Off.RDG_PSTATE ≠ homeAddr (bar0 (thatchDie t) 0 o)) t ht o ho

/-- They stand as they did, with the register that shows the power state. -/
structure keepsPower (s t : State) : Prop where
  power : t.power = s.power
  reg : t.reg Off.RDG_PSTATE = s.reg Off.RDG_PSTATE

namespace keepsPower
variable {s t u : State}

theorem refl (s : State) : keepsPower s s := ⟨rfl, rfl⟩

theorem trans (h : keepsPower s t) (g : keepsPower t u) : keepsPower s u := ⟨g.power.trans h.power, g.reg.trans h.reg⟩

theorem forAll {α : Type} (l : List α) (f : α → State → State) (hf : ∀ a s, keepsPower s (f a s)) (s : State) : keepsPower s (Machine.forAll l f s) :=
  forAll_induct (P := keepsPower s) (fun a t h => h.trans (hf a t)) l (refl s)

theorem iter (f : Nat → State → State) (hf : ∀ k s, keepsPower s (f k s)) (n : Nat) (s : State) : keepsPower s (Machine.iter f n s) := by
  induction n with
  | zero => exact .refl s
  | succ n ih => exact ih.trans (hf n _)

theorem ite {p : Prop} [Decidable p] (h : keepsPower s t) (g : keepsPower s u) : keepsPower s (if p then t else u) := by
  split
  · exact h
  · exact g

/-- Where the registers stand, too. -/
theorem of_regs (hp : t.power = s.power) (hr : t.regs = s.regs) : keepsPower s t := ⟨hp, reg_of_regs hr _⟩

/-- Where only registers differ, by their offsets. -/
theorem of_onlyRegs (h : onlyRegs s t) (hr : t.reg Off.RDG_PSTATE = s.reg Off.RDG_PSTATE) : keepsPower s t := ⟨(congrArg State.power h :), hr⟩

theorem of_rewired (h : Rewired s t) : keepsPower s t := ⟨(congrArg State.power h.core :), h.reg _ (by decide)⟩

theorem of_heard (h : Heard s t) : keepsPower s t := ⟨(congrArg State.power h.core :), h.reg _ (by decide)⟩

theorem of_stacks (h : onlyStacks s t) (hr : keepsOthers s t) : keepsPower s t :=
  ⟨(congrArg State.power h :), hr _ offStacks_pstate⟩

theorem pstate (h : keepsPower s t) : t.pstate = s.pstate := congrArg PowerView.pstate h.power
theorem psTarget (h : keepsPower s t) : t.psTarget = s.psTarget := congrArg PowerView.psTarget h.power
theorem halted (h : keepsPower s t) : t.halted = s.halted := congrArg PowerView.halted h.power
theorem haltSince (h : keepsPower s t) : t.haltSince = s.haltSince := congrArg PowerView.haltSince h.power
theorem keepAlive (h : keepsPower s t) : t.keepAlive = s.keepAlive := congrArg PowerView.keepAlive h.power
theorem selfRefresh (h : keepsPower s t) : t.selfRefresh = s.selfRefresh := congrArg PowerView.selfRefresh h.power
theorem entered (h : keepsPower s t) : t.entered = s.entered := congrArg PowerView.entered h.power
theorem roleB (h : keepsPower s t) : t.roleB = s.roleB := congrArg PowerView.roleB h.power

theorem mgr (h : keepsPower s t) : t.mgr = s.mgr := by rw [State.mgr, h.roleB, State.mgr]

theorem rf (h : keepsPower s t) (hi lo : Nat) : t.rf Off.RDG_PSTATE hi lo = s.rf Off.RDG_PSTATE hi lo := by rw [State.rf_eq, h.reg, State.rf_eq]

end keepsPower

/-! ## Registers -/

section
variable (s : State) {a : Nat} (ha : a % 2 ^ 12 ≠ Off.RDG_PSTATE)
include ha

theorem State.setReg_power (w : Word) : keepsPower s (s.setReg a w) := ⟨rfl, s.reg_setReg_ne _ (homeAddr_ne_of_mod fun e => ha e.symm)⟩

theorem State.wf_power (hi lo v : Nat) : keepsPower s (s.wf a hi lo v) := s.setReg_power ha _

theorem State.sat_power (hi lo n : Nat) : keepsPower s (s.sat a hi lo n) :=
  .of_onlyRegs (.sat _ _ _ _ _) (State.reg_sat_of_mod s hi lo n fun e => ha e.symm)

end

/-! ## A fence -/

theorem State.raisePg_power (s : State) (d b n : Nat) : keepsPower s (s.raisePg d b n) := .of_rewired (s.raisePg_rewired d b n)

theorem portReg_pstate (p : Nat) {off : Nat} (ho : off + 0x1c0 < 2 ^ 12) (h : 0x400 ≤ off) : portReg p off % 2 ^ 12 ≠ Off.RDG_PSTATE := by
  rw [portReg_mod ho]
  simp only [Off.RDG_PSTATE]
  omega

theorem State.portDown_power (s : State) (p : Nat) : keepsPower s (s.portDown p) := by
  have h := s.wf_power (portReg_pstate p (off := Off.EAV_PSTS) (by decide) (by decide)) 0 0 0
  have hoff : ∀ t : State, keepsPower t { t with ptpLocked := false } := fun _ => ⟨rfl, rfl⟩
  exact .ite (h.trans (hoff _)) h

theorem State.portFails_power (s : State) (p : Nat) : keepsPower s (s.portFails p) := by
  have h1 := (s.portDown_power p).trans (State.wf_power _ (portReg_pstate p (off := Off.EAV_PSTS) (by decide) (by decide)) 1 1 1)
  have h2 := h1.trans (State.wf_power _ (a := bar0 (portDie p) 0 Off.EAV_REROUTE) (by rw [eavReg_mod p (by decide)]; decide) 21 16 p)
  have h3 := h2.trans (State.raisePg_power _ (portDie p) 0 0)
  exact h3.trans (.forAll _ _ (fun k t => .of_rewired (t.linkLoss_rewired k p)) _)

theorem State.modXfer_power (s : State) (c id : Nat) (f : Xfer → Xfer) : keepsPower s (s.modXfer c id f) := by
  unfold State.modXfer
  split
  · exact .refl s
  · exact .of_regs rfl rfl

theorem State.discarded_power (s : State) (d : Nat) (f : PurlinPacket) : keepsPower s (s.discarded d f) := by
  have hq : keepsPower s (s.unqueuePush f.owner.1 f.owner.2) := by
    unfold State.unqueuePush
    split
    · exact .refl s
    · split
      · exact .ite (.of_regs rfl rfl) (.refl s)
      · exact .refl s
  unfold State.discarded
  exact .ite (.refl s) (hq.trans (State.modXfer_power _ _ _ _))

theorem State.cutPackets_power (s : State) (d : Nat) : keepsPower s (s.cutPackets d) := by
  unfold State.cutPackets
  extract_lets gone
  refine keepsPower.trans ?_ (.forAll gone (fun f t => t.discarded d f) (fun f t => t.discarded_power d f) _)
  exact .of_regs rfl rfl

theorem State.dropEdges_power (s : State) (d : Nat) : keepsPower s (s.dropEdges d) := by
  refine keepsPower.iter _ (fun dir t => ?_) 4 s
  split
  · exact .refl t
  · exact .of_rewired ((t.strandsOver_rewired d dir _).trans (State.strandsOver_rewired _ _ _ _))

theorem State.dropThatch_power (s : State) (t : Nat) : keepsPower s (s.dropThatch t) := by
  unfold State.dropThatch
  refine keepsPower.trans ?_ (.of_rewired (State.closeWindow_rewired _ (.stack t)))
  exact .of_regs rfl rfl

theorem dmrReg_pstate (i : Nat) {off : Nat} (ho : off < 2 ^ 12) (h : off ≠ Off.RDG_PSTATE) : dmrReg i off % 2 ^ 12 ≠ Off.RDG_PSTATE := by
  rw [show dmrReg i off % 2 ^ 12 = off from bar0_mod _ _ ho]
  exact h

theorem State.siteOff_power (s : State) (i : Nat) : keepsPower s (s.siteOff i) := by
  unfold State.siteOff
  refine .ite ?_ (.refl s)
  have h1 := s.wf_power (dmrReg_pstate i (off := Off.DMR_CTL) (by decide) (by decide)) 0 0 0
  have h2 := h1.trans (State.wf_power _ (dmrReg_pstate i (off := Off.DMR_STS) (by decide) (by decide)) 0 0 1)
  have hsite : ∀ (t : State) f, keepsPower t (t.modSite i f) := fun _ _ => .of_regs rfl rfl
  exact (h2.trans (hsite _ _)).trans (State.raisePg_power _ _ _ 1)

theorem State.fencedKind_power (s : State) (d : Nat) : keepsPower s (s.fencedKind d) := by
  unfold State.fencedKind
  split
  · exact .forAll _ _ (fun p t => .ite (t.portFails_power p) (.refl t)) s
  · exact s.siteOff_power _
  · exact s.dropThatch_power _
  · exact .refl s

/-- A fence that does not hit the managing Ridge leaves the power state and the role. -/
theorem State.fenceDie_power (s : State) (d cause : Nat) : keepsPower s (s.fenceDie d cause) := by
  obtain ⟨t, ht, hu⟩ := s.fenceDie_eq d cause
  have h1 : keepsPower s t := by
    have hdie : keepsPower s (s.modDie d fun x => { x with fenced := true, cause := cause }) := .of_regs rfl rfl
    rw [ht]
    refine (hdie.trans (State.raisePg_power _ 0 0 8)).trans (.forAll _ _ (fun e v => ?_) _)
    exact .ite (.refl v) (v.sat_power (by rw [bar0_mod _ _ (by decide)]; decide) _ _ _)
  have h2 : keepsPower t (forAll (t.fenceHits d) (fun c t => t.ctxFault c 18) t) := .forAll _ _ (fun c v => .of_rewired (v.ctxFault_rewired c 18)) t
  have h3 := (((h1.trans h2).trans (State.fencedKind_power _ d)).trans (State.cutPackets_power _ d)).trans (State.dropEdges_power _ d)
  have htake : ∀ v : State, keepsPower v { v with takeoverActive := true }.refreshAll := fun v =>
    keepsPower.trans (t := { v with takeoverActive := true }) (.of_regs rfl rfl) (.of_rewired (State.refreshAll_rewired _))
  rw [hu]
  exact .ite (h3.trans (htake _)) h3

end Sys2Proof.Machine
end

section

/-! SUPPORT. Bring-up: readiness of dies, trained edges and ports, discovery and the die table (R420 to R422, R287, R323, R324). -/

namespace Sys2Proof.Machine

/-- What one step of many brings about from what all of them keep, and all the later ones keep, holds behind them. -/
theorem forAll_reaches_from {α : Type} {I Q : State → Prop} {f : α → State → State} (l : List α) (hi : ∀ a t, I t → I (f a t)) (hk : ∀ a t, Q t → Q (f a t))
    {x : α} (hx : x ∈ l) (h : ∀ t, I t → Q (f x t)) (s : State) (h0 : I s) : Q (forAll l f s) := by
  induction l generalizing s with
  | nil => cases hx
  | cons a l ih =>
    rcases List.mem_cons.mp hx with rfl | hx
    · exact forAll_induct (P := Q) hk l (h s h0)
    · exact ih hx _ (hi a s h0)

theorem State.die_modDie_ne (s : State) {d e : Nat} (f : Die → Die) (h : e ≠ d) : (s.modDie d f).die e = s.die e := by rw [State.die_modDie, if_neg h]

/-! ## Ridges, Thatch dies and Rafter dies -/

theorem State.setReady_self (s : State) (d : Nat) : ((s.setReady d).die d).ready = true := congrArg Die.ready (s.die_modDie_self d _)

theorem State.setReady_others (s : State) {d j : Nat} (h : j ≠ d) : (s.setReady d).die j = s.die j := s.die_modDie_ne _ h

theorem State.reg_setReady (s : State) (d a : Nat) : (s.setReady d).reg a = s.reg a := rfl

theorem State.die_wf (s : State) (a hi lo v d : Nat) : (s.wf a hi lo v).die d = s.die d := rfl

/-- Bits 0 and 1 of a register written. -/
theorem State.twoBits_spec (s : State) (a : Nat) (v w : Bool) :
    ((s.wf a 0 0 (b2n v)).wf a 1 1 (b2n w)).rf a 0 0 = b2n v ∧ ((s.wf a 0 0 (b2n v)).wf a 1 1 (b2n w)).rf a 1 1 = b2n w
      ∧ sameRegsBut [a] s ((s.wf a 0 0 (b2n v)).wf a 1 1 (b2n w)) ∧ ∀ d, ((s.wf a 0 0 (b2n v)).wf a 1 1 (b2n w)).die d = s.die d := by
  have hmod : ∀ b : Bool, b2n b % 2 = b2n b := by decide
  refine ⟨?_, ?_, ((sameRegsBut.refl [a] s).wf List.mem_cons_self _ _ _).wf List.mem_cons_self _ _ _, fun d => ?_⟩
  · rw [State.rf_wf_below _ a 1 1 _ 0 0 (by decide) (by decide) (by decide) (by decide), State.rf_wf_self _ a 0 0 _ (by decide) (by decide)]
    exact hmod v
  · rw [State.rf_wf_self _ a 1 1 _ (by decide) (by decide)]
    exact hmod w
  · exact (State.die_wf _ a 1 1 _ d).trans (s.die_wf a 0 0 _ d)

theorem exec_ridgeBootDone_boots (s : State) (b : Bool) (ha : s.alive (ridgeOf b) = true) (hr : (s.die (ridgeOf b)).ready = false) :
    exec (.ridgeBootDone b) s = .next (((s.wf (bar0 (ridgeOf b) 0 Off.RDG_BOOT) 0 0 (b2n ((s.flash b).primary || (s.flash b).secondary))).wf
      (bar0 (ridgeOf b) 0 Off.RDG_BOOT) 1 1 (b2n (!(s.flash b).primary && (s.flash b).secondary))).setReady (ridgeOf b)) :=
  if_neg (by rw [ha, hr]; decide)

theorem State.writeRftBoot_spec (s : State) (r : Nat) :
    (s.writeRftBoot r).dies = s.dies ∧ (s.writeRftBoot r).rafters = s.rafters ∧ (s.writeRftBoot r).fusedSpares = s.fusedSpares
      ∧ sameRegsBut [bar0 (rafterDie r) 0 Off.RFT_BOOT] s (s.writeRftBoot r) :=
  ⟨rfl, rfl, rfl, sameRegsBut.setReg s _ _⟩

theorem exec_rafterReady_warm (s : State) {r : Nat} (spares failed : List Nat) (hr : r < 36) (hm : s.mayReady (rafterDie r) = true) (h : (s.rafter r).spares ≠ []) :
    exec (.rafterReady r spares failed) s = .next ((s.writeRftBoot r).setReady (rafterDie r)) :=
  (if_neg (by simp [hr, hm])).trans (if_neg h)

theorem State.rafter_setReady (s : State) (d r : Nat) : (s.setReady d).rafter r = s.rafter r := rfl

theorem State.rafter_wf (s : State) (a hi lo v r : Nat) : (s.wf a hi lo v).rafter r = s.rafter r := rfl

theorem State.rafter_of_rafters {s t : State} (h : t.rafters = s.rafters) (r : Nat) : t.rafter r = s.rafter r := by rw [State.rafter, State.rafter, h]

/-- The state of a Rafter die behind its self-test. -/
def State.selfTested (s : State) (r : Nat) (sp failed : List Nat) : State :=
  { s.modRafter r fun _ => selfTest sp (tileIds failed) with fusedSpares := Table.set s.fusedSpares r sp }

theorem State.selfTested_spec (s : State) (r : Nat) (sp failed : List Nat) :
    (s.selfTested r sp failed).rafter r = selfTest sp (tileIds failed) ∧ Table.get? (s.selfTested r sp failed).fusedSpares r = some sp
      ∧ (s.selfTested r sp failed).regs = s.regs :=
  ⟨s.rafter_modRafter_self r fun _ => selfTest sp (tileIds failed), (Table.get?_set s.fusedSpares r r sp).trans (if_pos rfl), rfl⟩

theorem State.retired_regs (s : State) (r n : Nat) :
    sameRegsBut [bar0 (rafterDie r) 0 Off.RFT_RETIRE, bar0 (rafterDie r) 0 Off.RFT_BOOT] s ((s.wf (bar0 (rafterDie r) 0 Off.RFT_RETIRE) 20 14 n).writeRftBoot r) := by
  have h1 := (sameRegsBut.refl [bar0 (rafterDie r) 0 Off.RFT_RETIRE, bar0 (rafterDie r) 0 Off.RFT_BOOT] s).wf List.mem_cons_self 20 14 n
  obtain ⟨-, -, -, h2⟩ := (s.wf (bar0 (rafterDie r) 0 Off.RFT_RETIRE) 20 14 n).writeRftBoot_spec r
  exact fun a ha => ((h2.mono (by simp)) a ha).trans (h1 a ha)

theorem exec_rafterReady_cold (s : State) {r : Nat} (spares failed : List Nat) (hr : r < 36) (hm : s.mayReady (rafterDie r) = true) (h : (s.rafter r).spares = [])
    {sp : List Nat} (hsp : (Table.get? s.fusedSpares r).getD (tileIds spares) = sp) (hlen : sp.length = 64) :
    exec (.rafterReady r spares failed) s = .next ((((s.selfTested r sp failed).wf (bar0 (rafterDie r) 0 Off.RFT_RETIRE) 20 14
      (sp.filter (selfTest sp (tileIds failed)).freeSpare).length).writeRftBoot r).setReady (rafterDie r)) := by
  subst hsp
  exact (if_neg (by simp [hr, hm])).trans ((if_pos h).trans (if_neg (not_not_intro hlen)))

/-! ## Eave dies -/

theorem State.restartPort_reg (s : State) (p : Nat) {a : Nat} (h : a % 2 ^ 12 ≠ portReg p Off.EAV_PSTS % 2 ^ 12) : (s.restartPort p).reg a = s.reg a := by
  rw [State.restartPort, State.reg_wf_of_mod _ _ _ _ h, State.portDown_reg, State.reg_wf_of_mod _ _ _ _ h]

theorem State.reg_modPort (s : State) (p : Nat) (f : Port → Port) (a : Nat) : (s.modPort p f).reg a = s.reg a := rfl

/-- The lanes of the mode are powered once both fields of EAV_PCTL are written. -/
def State.pctlTaken (s : State) (p : Nat) (v : Word) : State :=
  (((s.settlePort p).wf (portReg p Off.EAV_PCTL) 17 0 (fld v 17 0)).wf (portReg p Off.EAV_PCTL) 41 32 (fld v 41 32)).modPort p
    fun x => { x with lanes := List.range (modeLanes (fld v 1 0)) }

theorem State.pctlTaken_reg (s : State) (p : Nat) (v : Word) {a : Nat} (h : a % 2 ^ 12 ≠ portReg p Off.EAV_PCTL % 2 ^ 12) : (s.pctlTaken p v).reg a = s.reg a :=
  calc (s.pctlTaken p v).reg a
      = (((s.settlePort p).wf (portReg p Off.EAV_PCTL) 17 0 (fld v 17 0)).wf (portReg p Off.EAV_PCTL) 41 32 (fld v 41 32)).reg a := State.reg_modPort _ _ _ _
    _ = (s.settlePort p).reg a := (State.reg_wf_of_mod _ _ _ _ h).trans (State.reg_wf_of_mod _ _ _ _ h)
    _ = s.reg a := State.reg_modPort _ _ _ _

theorem State.pctlTaken_mode (s : State) (p : Nat) (v : Word) : (s.pctlTaken p v).rf (portReg p Off.EAV_PCTL) 17 0 = fld v 17 0 := by
  have h1 : ((s.settlePort p).wf (portReg p Off.EAV_PCTL) 17 0 (fld v 17 0)).rf (portReg p Off.EAV_PCTL) 17 0 = fld v 17 0 := by
    rw [State.rf_wf_self _ _ _ _ _ (by decide) (by decide)]
    exact Nat.mod_eq_of_lt (Nat.mod_lt _ (by decide))
  calc (s.pctlTaken p v).rf (portReg p Off.EAV_PCTL) 17 0
      = (((s.settlePort p).wf (portReg p Off.EAV_PCTL) 17 0 (fld v 17 0)).wf (portReg p Off.EAV_PCTL) 41 32 (fld v 41 32)).rf (portReg p Off.EAV_PCTL) 17 0 :=
        congrArg (fun w => fld w 17 0) (State.reg_modPort _ _ _ _)
    _ = _ := State.rf_wf_below _ _ 41 32 _ 17 0 (by decide) (by decide) (by decide) (by decide)
    _ = fld v 17 0 := h1

theorem State.writePctl_low (s : State) (p : Nat) (v : Word) : s.writePctl p true v = (s.pctlTaken p v).restartPort p := by
  unfold State.writePctl State.pctlTaken
  exact if_pos rfl

/-- One port of an Eave die as the port configuration sets it. -/
def State.portSet (e : Nat) (b : List Byte) (i : Nat) (t : State) : State :=
  (t.setReg (portReg (8 * e + i) Off.EAV_LANE_INV) (portImages b (8 * e + i)).2).writePctl (8 * e + i) true (portImages b (8 * e + i)).1

theorem portReg_mod_ne {p q off off' : Nat} (ho : off + 0x1c0 < 2 ^ 12) (ho' : off' + 0x1c0 < 2 ^ 12) (h : off % 0x40 ≠ off' % 0x40) :
    portReg p off % 2 ^ 12 ≠ portReg q off' % 2 ^ 12 := by
  rw [portReg_mod ho, portReg_mod ho']
  omega

theorem State.portSet_reg (e : Nat) (b : List Byte) (i : Nat) (t : State) {a : Nat} (h1 : a % 2 ^ 12 ≠ portReg (8 * e + i) Off.EAV_LANE_INV % 2 ^ 12)
    (h2 : a % 2 ^ 12 ≠ portReg (8 * e + i) Off.EAV_PCTL % 2 ^ 12) (h3 : a % 2 ^ 12 ≠ portReg (8 * e + i) Off.EAV_PSTS % 2 ^ 12) : (State.portSet e b i t).reg a = t.reg a := by
  rw [State.portSet, State.writePctl_low, State.restartPort_reg _ _ h3, State.pctlTaken_reg _ _ _ h2]
  exact t.reg_setReg_ne _ (homeAddr_ne_of_mod h1)

theorem State.portSet_self (e : Nat) (b : List Byte) (i : Nat) (t : State) :
    (State.portSet e b i t).rf (portReg (8 * e + i) Off.EAV_PCTL) 17 0 = fld (portImages b (8 * e + i)).1 17 0
      ∧ (State.portSet e b i t).rf (portReg (8 * e + i) Off.EAV_LANE_INV) 15 0 = fld (portImages b (8 * e + i)).2 15 0 := by
  rw [State.portSet, State.writePctl_low]
  constructor
  · rw [State.rf_eq, State.restartPort_reg _ _ (portReg_mod_ne (by decide) (by decide) (by decide)), ← State.rf_eq, State.pctlTaken_mode]
  · rw [State.rf_eq, State.restartPort_reg _ _ (portReg_mod_ne (by decide) (by decide) (by decide)), State.pctlTaken_reg _ _ _ (portReg_mod_ne (by decide) (by decide) (by decide)),
      State.reg_setReg_self]

/-- Setting one port leaves the registers of another of the eight. -/
theorem State.portSet_other (e : Nat) (b : List Byte) {i j : Nat} (hi : i < 8) (hj : j < 8) (hne : i ≠ j) (t : State) :
    (State.portSet e b j t).reg (portReg (8 * e + i) Off.EAV_PCTL) = t.reg (portReg (8 * e + i) Off.EAV_PCTL)
      ∧ (State.portSet e b j t).reg (portReg (8 * e + i) Off.EAV_LANE_INV) = t.reg (portReg (8 * e + i) Off.EAV_LANE_INV) := by
  have hself : ∀ {off}, off + 0x1c0 < 2 ^ 12 → portReg (8 * e + i) off % 2 ^ 12 ≠ portReg (8 * e + j) off % 2 ^ 12 := fun h => by
    rw [portReg_mod h, portReg_mod h]
    omega
  have hoff := fun off off' (ho : off + 0x1c0 < 2 ^ 12) (ho' : off' + 0x1c0 < 2 ^ 12) (h : off % 0x40 ≠ off' % 0x40) =>
    portReg_mod_ne (p := 8 * e + i) (q := 8 * e + j) ho ho' h
  exact ⟨State.portSet_reg e b j t (hoff _ _ (by decide) (by decide) (by decide)) (hself (by decide)) (hoff _ _ (by decide) (by decide) (by decide)),
    State.portSet_reg e b j t (hself (by decide)) (hoff _ _ (by decide) (by decide) (by decide)) (hoff _ _ (by decide) (by decide) (by decide))⟩

theorem State.pctlTaken_dies (s : State) (p : Nat) (v : Word) : (s.pctlTaken p v).dies = s.dies := by
  have hwf : ∀ (t : State) (a hi lo n : Nat), (t.wf a hi lo n).dies = t.dies := fun _ _ _ _ _ => rfl
  have hport : ∀ (t : State) (f : Port → Port), (t.modPort p f).dies = t.dies := fun _ _ => rfl
  rw [State.pctlTaken, hport, hwf, hwf]
  exact hport s _

theorem State.restartPort_dies (s : State) (p : Nat) : (s.restartPort p).dies = s.dies := by
  have hwf : ∀ (t : State) (a hi lo n : Nat), (t.wf a hi lo n).dies = t.dies := fun _ _ _ _ _ => rfl
  rw [State.restartPort, hwf]
  exact (s.portDown_fence p).1.dies

theorem State.portSet_dies (e : Nat) (b : List Byte) (i : Nat) (t : State) : (State.portSet e b i t).dies = t.dies := by
  rw [State.portSet, State.writePctl_low, State.restartPort_dies, State.pctlTaken_dies]
  rfl

theorem State.portConfig_none (s : State) (e : Nat) (h : (s.flash s.roleB).portCfg = none) : s.portConfig e = s.wf Off.RDG_BOOT 2 2 0 := by
  unfold State.portConfig
  rw [h]

theorem State.portConfig_bad (s : State) (e : Nat) {signed : Bool} {b : List Byte} (h : (s.flash s.roleB).portCfg = some (signed, b)) (hb : portCfgOk signed b = false) :
    s.portConfig e = s.wf Off.RDG_BOOT 2 2 0 := by
  unfold State.portConfig
  rw [h]
  exact if_neg (by rw [hb]; decide)

theorem State.portConfig_ok (s : State) (e : Nat) {signed : Bool} {b : List Byte} (h : (s.flash s.roleB).portCfg = some (signed, b)) (hb : portCfgOk signed b = true) :
    s.portConfig e = (forAll (List.range 8) (State.portSet e b) s).wf Off.RDG_BOOT 2 2 1 := by
  unfold State.portConfig
  rw [h]
  exact if_pos hb

theorem State.portConfig_dies (s : State) (e : Nat) : (s.portConfig e).dies = s.dies := by
  have hwf : ∀ (t : State) (n : Nat), (t.wf Off.RDG_BOOT 2 2 n).dies = t.dies := fun _ _ => rfl
  cases h : (s.flash s.roleB).portCfg with
  | none => rw [s.portConfig_none e h, hwf]
  | some p =>
    cases hb : portCfgOk p.1 p.2 with
    | false => rw [s.portConfig_bad e h hb, hwf]
    | true =>
      rw [s.portConfig_ok e h hb, hwf]
      exact forAll_induct (P := fun t => t.dies = s.dies) (fun i t ht => (State.portSet_dies e p.2 i t).trans ht) (List.range 8) rfl

theorem State.portConfig_boot (s : State) (e : Nat) : (s.portConfig e).rf Off.RDG_BOOT 2 2 = (s.flash s.roleB).portCfg.elim 0 fun p => b2n (portCfgOk p.1 p.2) := by
  have hself : ∀ t : State, ∀ v, (t.wf Off.RDG_BOOT 2 2 v).rf Off.RDG_BOOT 2 2 = v % 2 := fun t v => t.rf_wf_self Off.RDG_BOOT 2 2 v (by decide) (by decide)
  cases h : (s.flash s.roleB).portCfg with
  | none =>
    rw [s.portConfig_none e h, hself]
    rfl
  | some p =>
    cases hb : portCfgOk p.1 p.2 with
    | false =>
      rw [s.portConfig_bad e h hb, hself]
      exact (congrArg b2n hb).symm
    | true =>
      rw [s.portConfig_ok e h hb, hself]
      exact (congrArg b2n hb).symm

theorem State.portConfig_ports (s : State) (e : Nat) {b : List Byte} (h : (s.flash s.roleB).portCfg = some (true, b)) (hb : portCfgOk true b = true) {i : Nat} (hi : i < 8) :
    (s.portConfig e).rf (portReg (8 * e + i) Off.EAV_PCTL) 17 0 = fld (portImages b (8 * e + i)).1 17 0
      ∧ (s.portConfig e).rf (portReg (8 * e + i) Off.EAV_LANE_INV) 15 0 = fld (portImages b (8 * e + i)).2 15 0 := by
  have hboot : ∀ {off}, 0x400 ≤ off → off + 0x1c0 < 2 ^ 12 → portReg (8 * e + i) off % 2 ^ 12 ≠ Off.RDG_BOOT % 2 ^ 12 := fun h1 h2 => by
    rw [portReg_mod h2]
    simp only [Off.RDG_BOOT]
    omega
  rw [s.portConfig_ok e h hb, State.rf_eq, State.rf_eq, State.reg_wf_of_mod _ _ _ _ (hboot (by decide) (by decide)), State.reg_wf_of_mod _ _ _ _ (hboot (by decide) (by decide))]
  refine forAll_reaches (Q := fun t => fld (t.reg (portReg (8 * e + i) Off.EAV_PCTL)) 17 0 = fld (portImages b (8 * e + i)).1 17 0
    ∧ fld (t.reg (portReg (8 * e + i) Off.EAV_LANE_INV)) 15 0 = fld (portImages b (8 * e + i)).2 15 0) (List.range 8) (fun j hj t ht => ?_) (List.mem_range.mpr hi)
    (fun t => State.portSet_self e b i t) s
  by_cases hij : i = j
  · rw [← hij]
    exact State.portSet_self e b i t
  · obtain ⟨h1, h2⟩ := State.portSet_other e b hi (List.mem_range.mp hj) hij t
    rw [h1, h2]
    exact ht

/-! ## Discovery -/

theorem State.rf_modDie (s : State) (d : Nat) (f : Die → Die) (a hi lo : Nat) : (s.modDie d f).rf a hi lo = s.rf a hi lo := rfl

theorem State.learn_spec (s : State) (d x y : Nat) (hx : x < 8) (hy : y < 8) :
    (s.learn d x y).rf (bar0 d 1 Off.PRL_COORD) 2 0 = x ∧ (s.learn d x y).rf (bar0 d 1 Off.PRL_COORD) 5 3 = y ∧ sameRegsBut [bar0 d 1 Off.PRL_COORD] s (s.learn d x y) := by
  obtain ⟨a, ha⟩ : ∃ a, a = bar0 d 1 Off.PRL_COORD := ⟨_, rfl⟩
  have hl : s.learn d x y = (((s.wf a 2 0 x).wf a 5 3 y).wf a 11 6 (y * 8 + x)).modDie d fun k => { k with coord := some (x, y), prlReady := true, reported := true } := by
    rw [ha]
    rfl
  rw [hl, ← ha]
  refine ⟨?_, ?_, ((((sameRegsBut.refl [a] s).wf List.mem_cons_self 2 0 x).wf List.mem_cons_self 5 3 y).wf List.mem_cons_self 11 6 _).of_regs rfl⟩
  · rw [State.rf_modDie]
    calc _ = ((s.wf a 2 0 x).wf a 5 3 y).rf a 2 0 := State.rf_wf_below _ a 11 6 _ 2 0 (by decide) (by decide) (by decide) (by decide)
      _ = (s.wf a 2 0 x).rf a 2 0 := State.rf_wf_below _ a 5 3 _ 2 0 (by decide) (by decide) (by decide) (by decide)
      _ = x % 8 := State.rf_wf_self _ a 2 0 x (by decide) (by decide)
      _ = x := Nat.mod_eq_of_lt hx
  · rw [State.rf_modDie]
    calc _ = ((s.wf a 2 0 x).wf a 5 3 y).rf a 5 3 := State.rf_wf_below _ a 11 6 _ 5 3 (by decide) (by decide) (by decide) (by decide)
      _ = y % 8 := State.rf_wf_self _ a 5 3 y (by decide) (by decide)
      _ = y := Nat.mod_eq_of_lt hy

theorem State.learn_self (s : State) (d x y : Nat) : (s.learn d x y).die d = { s.die d with coord := some (x, y), prlReady := true, reported := true } := by
  unfold State.learn
  rw [State.die_modDie_self, State.die_wf, State.die_wf, State.die_wf]

theorem State.learn_others (s : State) (d x y : Nat) {j : Nat} (h : j ≠ d) : (s.learn d x y).die j = s.die j := by
  unfold State.learn
  rw [State.die_modDie_ne _ _ h, State.die_wf, State.die_wf, State.die_wf]

/-- A die that a wave has reached: its kind is checked, and the edge of the first wave is noted. -/
def State.waved (s : State) (die dir kind : Nat) : State :=
  s.modDie die fun k => { k with wrongKind := k.wrongKind || decide (kind ≠ dieKindCode die), waveFrom := some (k.waveFrom.getD dir) }

theorem exec_discoveryWave_first (s : State) {die dir kind : Nat} {p : Nat × Nat} (h : s.waveOn die dir = some p) (hc : (s.die die).coord = none) :
    exec (.discoveryWave die dir kind) s = .next ((s.waved die dir kind).learn die p.1 p.2) := by
  change execDiscoveryWave die dir kind s = _
  unfold execDiscoveryWave
  rw [h, hc]
  rfl

theorem exec_discoveryWave_later (s : State) {die dir kind : Nat} {p q : Nat × Nat} (h : s.waveOn die dir = some p) (hc : (s.die die).coord = some q) :
    exec (.discoveryWave die dir kind) s
      = .next ((s.waved die dir kind).modDie die fun k => { k with conflict := k.conflict || decide (q ≠ p), reported := true }) := by
  change execDiscoveryWave die dir kind s = _
  unfold execDiscoveryWave
  rw [h, hc]
  rfl

/-! ## The die table -/

/-- A die checked against the table: fenced where it is marked LOST. -/
def State.tabled (d : Nat) (t : State) : State :=
  match t.tableCause d with
  | none => t
  | some k => t.fenceDie d k

theorem State.tabled_power (d : Nat) (t : State) : keepsPower t (State.tabled d t) := by
  unfold State.tabled
  split
  · exact .refl t
  · exact t.fenceDie_power d _

theorem State.tableCause_mgr (s : State) : s.tableCause s.mgr = none := if_pos (.inl rfl)

theorem State.tabled_others (d : Nat) (t : State) {j : Nat} (h : j ≠ d) : (State.tabled d t).die j = t.die j := by
  unfold State.tabled
  split
  · rfl
  · obtain ⟨-, -, hothers, -⟩ := t.fenceDie_spec d _
    exact hothers j h

theorem State.tabled_mgr (d : Nat) (t : State) : (State.tabled d t).die t.mgr = t.die t.mgr := by
  by_cases h : t.mgr = d
  · rw [State.tabled, ← h, t.tableCause_mgr]
  · exact State.tabled_others d t h

/-- A die that is fenced stays fenced in the table. -/
theorem State.tabled_fenced (d : Nat) (t : State) {j : Nat} (h : (t.die j).fenced = true) : ((State.tabled d t).die j).fenced = true := by
  by_cases hj : j = d
  · subst hj
    unfold State.tabled
    split
    · exact h
    · exact (t.fenceDie_spec j _).1
  · rw [State.tabled_others d t hj]
    exact h

/-- A die without a report is fenced. -/
theorem State.tabled_lost (d : Nat) (t : State) (hm : d ≠ t.mgr) (hk : dieKind d ≠ .dormer) (hr : (t.die d).reported = false) :
    ((State.tabled d t).die d).fenced = true := by
  by_cases hf : (t.die d).fenced = true
  · exact State.tabled_fenced d t hf
  · have hc : t.tableCause d = some 1 :=
      (if_neg (by rintro (h | h | h) <;> contradiction)).trans (if_pos (by rw [hr]; rfl))
    rw [State.tabled, hc]
    exact (t.fenceDie_spec d 1).1

/-- The state from which the table is built: the managing Ridge knows its own position. -/
def State.placed (s : State) : State := if (s.die s.mgr).coord.isNone then s.learn s.mgr (s.mgr % 8) (s.mgr / 8) else s

theorem State.learn_mgr (s : State) (d x y : Nat) : (s.learn d x y).mgr = s.mgr := by
  have hwf : ∀ (t : State) (a hi lo n : Nat), (t.wf a hi lo n).mgr = t.mgr := fun _ _ _ _ _ => rfl
  have hdie : ∀ (t : State) (f : Die → Die), (t.modDie d f).mgr = t.mgr := fun _ _ => rfl
  rw [State.learn, hdie, hwf, hwf, hwf]

theorem State.placed_mgr (s : State) : s.placed.mgr = s.mgr := by
  unfold State.placed
  split
  · exact s.learn_mgr _ _ _
  · rfl

theorem State.placed_spec (s : State) : (s.placed.die s.mgr).coord.isSome = true ∧ (s.placed.die s.mgr).fenced = (s.die s.mgr).fenced
    ∧ ∀ j, j ≠ s.mgr → s.placed.die j = s.die j := by
  unfold State.placed
  split
  · refine ⟨?_, ?_, fun j h => s.learn_others _ _ _ h⟩
    · exact congrArg (fun k : Die => k.coord.isSome) (s.learn_self s.mgr _ _)
    · rw [s.learn_self]
  · next h =>
    refine ⟨?_, rfl, fun _ _ => rfl⟩
    rw [← Option.not_isNone, Bool.not_eq_true _ |>.mp h]
    rfl

theorem exec_dieTableBuild_tables (s : State) (ha : s.alive s.mgr = true) (hs : s.shutdown = false) (hi : s.cycle.issued = false) :
    exec .dieTableBuild s = .next (forAll (List.range 64) State.tabled s.placed) :=
  (if_neg (by rw [ha, hs]; decide)).trans (if_neg (by rw [hi]; decide))

theorem State.tabled_all (s : State) :
    ((forAll (List.range 64) State.tabled s.placed).die s.mgr) = s.placed.die s.mgr
      ∧ ∀ d, d < 64 → d ≠ s.mgr → dieKind d ≠ .dormer → (s.die d).reported = false → ((forAll (List.range 64) State.tabled s.placed).die d).fenced = true := by
  obtain ⟨-, -, hsame⟩ := s.placed_spec
  have hmgr : ∀ d t, State.mgr t = s.mgr → (State.tabled d t).mgr = s.mgr := fun d t h => (State.tabled_power d t).mgr.trans h
  constructor
  · refine (forAll_induct (P := fun t => t.mgr = s.mgr ∧ t.die s.mgr = s.placed.die s.mgr) (fun d t ht => ⟨hmgr d t ht.1, ?_⟩) (List.range 64) ⟨s.placed_mgr, rfl⟩).2
    rw [← ht.2, ← ht.1]
    exact State.tabled_mgr d t
  · intro d hd hne hk hr
    refine forAll_reaches_from (I := fun t => t.mgr = s.mgr ∧ ((t.die d).fenced = true ∨ (t.die d).reported = false)) (Q := fun t => (t.die d).fenced = true) (List.range 64)
      (fun j t ht => ⟨hmgr j t ht.1, ?_⟩) (fun j t ht => State.tabled_fenced j t ht) (List.mem_range.mpr hd) (fun t ht => ?_) s.placed
      ⟨s.placed_mgr, .inr (by rw [hsame d hne]; exact hr)⟩
    · rcases ht.2 with hf | hrep
      · exact .inl (State.tabled_fenced j t hf)
      · by_cases hj : d = j
        · subst hj
          exact .inl (State.tabled_lost d t (by rw [ht.1]; exact hne) hk hrep)
        · exact .inr (by rw [State.tabled_others j t hj]; exact hrep)
    · rcases ht.2 with hf | hrep
      · exact State.tabled_fenced d t hf
      · exact State.tabled_lost d t (by rw [ht.1]; exact hne) hk hrep

/-! ## Ports -/

/-- A link goes on at a port that has come up. -/
def State.portBack (k : Nat) (t : State) : State :=
  let u := t.modLink k fun l => { l with since := t.now }
  if (u.link k).moving ∧ !u.sideFailed k (u.link k).onSecondary then u.replayAll k else u

theorem State.portBack_rewired (k : Nat) (t : State) : Rewired t (State.portBack k t) := by
  have h := t.modLink_rewired k fun l => { l with since := t.now }
  unfold State.portBack
  dsimp only
  split
  · exact h.trans (State.replayAll_spec _ k).1
  · exact h

theorem exec_portUp_trained (s : State) {p : Nat} (hp : p < 64) (ha : s.alive (portDie p) = true) (hr : (s.die (portDie p)).ready = true) (hm : s.rf (portReg p Off.EAV_PCTL) 1 0 ≠ 0)
    (h0 : s.rf (portReg p Off.EAV_PSTS) 1 0 = 0) : ∃ l, exec (.portUp p) s = .next (forAll l State.portBack (s.wf (portReg p Off.EAV_PSTS) 0 0 1)) :=
  ⟨_, if_pos ⟨hp, ha, hr, hm, h0⟩⟩

theorem fld_above_of_zero {w : Word} (h : fld w 1 0 = 0) : fld w 1 1 = 0 := by
  unfold fld bits at h ⊢
  omega

/-! ## The obligation -/

/-- Settles O30: dies become ready, edges, ports and the wave come up, and the table fences what has not reported. -/
theorem bringUp : Obligations.BringUp := by
  refine ⟨⟨?_, ?_, ?_, ?_⟩, ?_, ?_, ?_, ?_, ?_⟩
  · intro s b ha hr
    obtain ⟨h0, h1, hr', hdie⟩ := s.twoBits_spec (bar0 (ridgeOf b) 0 Off.RDG_BOOT) ((s.flash b).primary || (s.flash b).secondary) (!(s.flash b).primary && (s.flash b).secondary)
    exact ⟨_, exec_ridgeBootDone_boots s b ha hr, State.setReady_self _ _, h0, h1, fun d hd => (State.setReady_others _ hd).trans (hdie d), hr'⟩
  · intro s t ht hm
    exact ⟨s.setReady (thatchDie t), if_pos ⟨ht, hm⟩, s.setReady_self _, fun d hd => s.setReady_others hd, rfl⟩
  · intro s e he hm
    obtain ⟨z, hz⟩ : ∃ z, z = s.setReady (eaveDie e) := ⟨_, rfl⟩
    have hready : (z.die (eaveDie e)).ready = true := by
      rw [hz]
      exact congrArg Die.ready (State.die_modDie_self _ _ _)
    have hflash : (z.flash z.roleB) = s.flash s.roleB := by
      rw [hz]
      rfl
    refine ⟨z.portConfig e, ?_, ?_, ?_, fun b hb hok i hi => z.portConfig_ports e (by rw [hflash]; exact hb) hok hi⟩
    · rw [hz]
      exact if_pos ⟨he, hm⟩
    · rw [State.die, z.portConfig_dies e]
      exact hready
    · rw [z.portConfig_boot e, hflash]
      cases (s.flash s.roleB).portCfg <;> rfl
  · intro s r spares failed hr hm sp only
    refine ⟨fun h hlen => ?_, fun h => ?_⟩
    · obtain ⟨hself, hfused, hregs⟩ := s.selfTested_spec r sp failed
      refine ⟨_, exec_rafterReady_cold s spares failed hr hm h rfl hlen, State.setReady_self _ _, ?_, ?_, ?_⟩
      · rw [State.rafter_setReady, State.rafter_of_rafters (State.writeRftBoot_spec _ r).2.1, State.rafter_wf]
        exact hself
      · exact hfused
      · intro a ha
        rw [State.reg_setReady, State.retired_regs _ r _ a ha]
        exact reg_of_regs hregs a
    · refine ⟨_, exec_rafterReady_warm s spares failed hr hm h, State.setReady_self _ _, rfl, ?_⟩
      obtain ⟨-, -, -, hregs⟩ := s.writeRftBoot_spec r
      exact (hregs.mono (by simp)).of_regs rfl
  · intro s p hp ha hr hm h0
    obtain ⟨l, hl⟩ := exec_portUp_trained s hp ha hr hm h0
    obtain ⟨z, hz⟩ : ∃ z, z = s.wf (portReg p Off.EAV_PSTS) 0 0 1 := ⟨_, rfl⟩
    rw [← hz] at hl
    have hh := Rewired.forAll l State.portBack (fun k t => State.portBack_rewired k t) z
    have hreg := hh.reg _ (portSts_quiet p)
    refine ⟨_, hl, ?_, ?_, ?_⟩
    · rw [State.portUpNow, State.rf_eq, hreg, hz, ← State.rf_eq, State.rf_wf_self _ _ 0 0 _ (by decide) (by decide)]
      decide
    · have h11 : fld (s.reg (portReg p Off.EAV_PSTS)) 1 1 = 0 := fld_above_of_zero h0
      rw [State.portFailed, State.rf_eq, hreg, hz, State.wf_eq, State.reg_setReg_self, fld_ins_above _ 0 0 _ 1 1 (by decide) (by decide) (by decide), h11]
      decide
    · have hs : sameMemory s z := by
        rw [hz]
        exact ⟨rfl, rfl, rfl, rfl, rfl, rfl⟩
      exact hs.trans hh.memory
  · intro s d dir n hd hdir hn ha hna h0
    obtain ⟨a, hae⟩ : ∃ a, a = btnReg d dir Off.BTN_EDGE_STS := ⟨_, rfl⟩
    obtain ⟨b, hbe⟩ : ∃ b, b = btnReg n (opposite dir) Off.BTN_EDGE_STS := ⟨_, rfl⟩
    have hex : exec (.edgeTrained d dir) s = .next ((s.wf a 1 0 1).wf b 1 0 1) := by
      change execEdgeTrained d dir s = _
      unfold execEdgeTrained
      rw [hn, hae, hbe]
      exact if_pos ⟨hd, ha, hna, h0⟩
    rw [← hae, ← hbe]
    have hb : ((s.wf a 1 0 1).wf b 1 0 1).rf b 1 0 = 1 := State.rf_wf_self _ b 1 0 1 (by decide) (by decide)
    refine ⟨_, hex, ?_, hb, (onlyRegs.wf s _ _ _ _).trans (onlyRegs.wf _ _ _ _ _),
      ((sameRegsBut.refl _ s).wf List.mem_cons_self _ _ _).wf (List.mem_cons_of_mem _ List.mem_cons_self) _ _ _⟩
    by_cases hab : homeAddr a = homeAddr b
    · rw [State.rf_eq, State.reg_congr _ hab]
      exact hb
    · rw [State.rf_eq, State.wf_eq, State.reg_setReg_ne _ _ hab]
      exact State.rf_wf_self _ a 1 0 1 (by decide) (by decide)
  · intro s d dir k p hd hw hx hy
    refine ⟨fun hc => ?_, fun q hq => ?_⟩
    · obtain ⟨h2, h3, h4⟩ := (s.waved d dir k).learn_spec d p.1 p.2 hx hy
      have h1 := (s.waved d dir k).learn_self d p.1 p.2
      have hwd : (s.waved d dir k).die d = { s.die d with wrongKind := (s.die d).wrongKind || decide (k ≠ dieKindCode d), waveFrom := some ((s.die d).waveFrom.getD dir) } :=
        State.die_modDie_self _ _ _
      rw [hwd] at h1
      exact ⟨_, exec_discoveryWave_first s hw hc, by rw [h1], by rw [h1], by rw [h1], by rw [h1], h2, h3, fun a ha => h4 a ha⟩
    · have hwd : (s.waved d dir k).die d = { s.die d with wrongKind := (s.die d).wrongKind || decide (k ≠ dieKindCode d), waveFrom := some ((s.die d).waveFrom.getD dir) } :=
        State.die_modDie_self _ _ _
      have hu := (s.waved d dir k).die_modDie_self d fun k => { k with conflict := k.conflict || decide (q ≠ p), reported := true }
      rw [hwd] at hu
      exact ⟨_, exec_discoveryWave_later s hw hq, (congrArg Die.coord hu).trans hq, congrArg Die.conflict hu, rfl⟩
  · intro d dir n hd hdir hn
    have h : ∀ d < 64, ∀ dir < 4, ∀ n ∈ neighbour d dir, hopCoord (n % 8, n / 8) (opposite dir) = (d % 8, d / 8) := by decide
    exact h d hd dir hdir n hn
  · intro s ha hs hi
    obtain ⟨hmgr, hlost⟩ := s.tabled_all
    obtain ⟨hcoord, hfenced, -⟩ := s.placed_spec
    refine ⟨_, exec_dieTableBuild_tables s ha hs hi, ?_, ?_, hlost⟩
    · rw [hmgr]
      exact hcoord
    · rw [hmgr, hfenced]
      unfold State.alive at ha
      simp only [Bool.and_eq_true, Bool.not_eq_true'] at ha
      exact ha.2

end Sys2Proof.Machine

end

section

/-! SUPPORT. What arriving frames leave of the power state (R408 to R411): contexts, memory, links and tables move, the power state and its register stay. -/

namespace Sys2Proof.Machine

/-! ## Registers of contexts, ports, dies and logs -/

section
variable (s : State) {a : Nat} (ha : homeAddr Off.RDG_PSTATE ≠ homeAddr a)
include ha

theorem State.wf_apart (hi lo v : Nat) : keepsPower s (s.wf a hi lo v) := ⟨rfl, s.reg_setReg_ne _ ha⟩

theorem State.sat_apart (hi lo n : Nat) : keepsPower s (s.sat a hi lo n) := .of_onlyRegs (.sat _ _ _ _ _) (s.reg_setReg_ne _ ha)

theorem State.wrap_apart (hi lo n : Nat) : keepsPower s (s.wrap a hi lo n) := .of_onlyRegs (.wrap _ _ _ _ _) (s.reg_setReg_ne _ ha)

end

theorem ctxA_apart (c off : Nat) : homeAddr Off.RDG_PSTATE ≠ homeAddr (ctxA c off) := by
  have h := ctxA_ge c off
  have hle : homeAddr Off.RDG_PSTATE < 2 ^ 24 := by decide
  rw [homeAddr_ctxA]
  omega

theorem State.cSat_power (s : State) (c off hi lo n : Nat) : keepsPower s (s.cSat c off hi lo n) := s.sat_apart (ctxA_apart c off) hi lo n

theorem State.cWrap_power (s : State) (c off hi lo n : Nat) : keepsPower s (s.cWrap c off hi lo n) := s.wrap_apart (ctxA_apart c off) hi lo n

theorem State.eavDrop_power (s : State) (d hi lo n : Nat) : keepsPower s (s.sat (bar0 d 0 Off.EAV_DROP) hi lo n) :=
  s.sat_power (by rw [bar0_mod _ _ (by decide)]; decide) hi lo n

theorem bar0_apart {d b off : Nat} (hb : b < 64) (ho : off < 2 ^ 12) (h : b ≠ 0 ∨ d ≠ 0 ∧ d ≠ 63) : homeAddr Off.RDG_PSTATE ≠ homeAddr (bar0 d b off) := by
  have hps : homeAddr Off.RDG_PSTATE = 0x90 := by decide
  have hself : homeAddr (bar0 d b off) = bar0 d b off := by
    unfold homeAddr bar0
    exact if_neg fun h => absurd h.1 (by omega)
  rw [hps, hself]
  unfold bar0
  omega

theorem portDie_ends (p : Nat) : portDie p ≠ 0 ∧ portDie p ≠ 63 := by
  unfold portDie eaveDie
  split <;> decide

theorem LogOf.addr_apart (l : LogOf) {k : Nat} (hk : k < 4) : homeAddr Off.RDG_PSTATE ≠ homeAddr (l.addr k) := by
  cases l with
  | ctx c => exact ctxA_apart c _
  | pf =>
    have h : ∀ k < 4, homeAddr Off.RDG_PSTATE ≠ homeAddr (LogOf.addr .pf k) := by decide
    exact h k hk

/-! ## Fields of the state -/

theorem State.modCtx_power (s : State) (c : Nat) (f : Ctx → Ctx) : keepsPower s (s.modCtx c f) := ⟨rfl, rfl⟩

theorem State.mapCtxs_power (s : State) (f : Ctx → Ctx) : keepsPower s (s.mapCtxs f) := ⟨rfl, rfl⟩

theorem State.modQueue_power (s : State) (c l : Nat) (f : Queue → Queue) : keepsPower s (s.modQueue c l f) := s.modCtx_power c _

theorem State.modLaunch_power (s : State) (c : Nat) (q : BitVec 32) (f : Running → Running) : keepsPower s (s.modLaunch c q f) := s.modCtx_power c _

theorem State.modPort_power (s : State) (p : Nat) (f : Port → Port) : keepsPower s (s.modPort p f) := ⟨rfl, rfl⟩

theorem State.modSite_power (s : State) (i : Nat) (f : Site → Site) : keepsPower s (s.modSite i f) := ⟨rfl, rfl⟩

theorem State.modLink_power (s : State) (k : Nat) (f : Link → Link) : keepsPower s (s.modLink k f) := ⟨rfl, rfl⟩

theorem State.modLc_power (s : State) (k n : Nat) (f : LinkClass → LinkClass) : keepsPower s (s.modLc k n f) := s.modLink_power k _

theorem State.enqueue_power (s : State) (k : Nat) (f : Frame) (owner : Option (Nat × Nat)) (stage : Option (Nat × Nat)) : keepsPower s (s.enqueue k f owner stage) :=
  s.modLc_power k _ _

theorem State.detect_power (s : State) (f : PendFault) : keepsPower s (s.detect f) := .ite (.refl s) ⟨rfl, rfl⟩

theorem State.ctxFault_power (s : State) (c code : Nat) : keepsPower s (s.ctxFault c code) := s.detect_power _

theorem State.complete_power (s : State) (r : RingOf) (x : Completion) : keepsPower s (s.complete r x) := ⟨rfl, rfl⟩

/-! ## Memory and scratchpads -/

theorem onlyPads.power {s t : State} (h : onlyPads s t) : keepsPower s t := .of_regs (congrArg State.power h :) (congrArg State.regs h :)

theorem State.touch_power (s : State) (a n : Nat) (write alloc : Bool) : keepsPower s (s.touch a n write alloc) := .of_stacks (s.touch_stacks a n write alloc) (s.touch_others a n write alloc)

theorem State.devTouch_power (s : State) (a n : Nat) : keepsPower s (s.devTouch a n) := .forAll _ _ (fun _ t => t.touch_power _ _ _ _) s

theorem State.devWrite_power (s : State) (a : Nat) (d : List Byte) (p : Bool) : keepsPower s (s.devWrite a d p) := .of_stacks (s.devWrite_stacks a d p) (s.devWrite_others a d p)

theorem State.dpaPutIn_power (s : State) (a : Nat) (d : List Byte) (p : Bool) : keepsPower s (s.dpaPutIn a d p) := by
  refine .of_regs ?_ (s.dpaPutIn_regs a d p)
  unfold State.dpaPutIn
  split
  · split
    · exact (congrArg State.power (s.putSector_stacks _ _ _ _) :)
    · rfl
  · exact (s.padWrite_only _ _ _ _).power.power
  · rfl

theorem State.walkTouch_power (s : State) (c va : Nat) : keepsPower s (s.walkTouch c va) := by
  unfold State.walkTouch
  split
  · have h1 := fun a => s.devTouch_power a 8
    dsimp only
    split
    · exact h1 _
    · exact .ite (.ite ((h1 _).trans (State.devTouch_power _ _ 8)) (((h1 _).trans (State.devTouch_power _ _ 8)).trans (State.devTouch_power _ _ 8))) (h1 _)
  · exact .refl s

theorem State.fillTlb_power (s : State) (c va : Nat) : keepsPower s (s.fillTlb c va) := by
  unfold State.fillTlb
  dsimp only
  split
  · exact s.walkTouch_power c va
  · exact (s.walkTouch_power c va).trans (State.modCtx_power _ c _)

theorem State.vaWrite_power (s : State) (c va : Nat) (data : List Byte) : keepsPower s (s.vaWrite c va data) := by
  refine keepsPower.iter _ (fun i t => ?_) _ s
  dsimp only
  split
  · split
    · exact t.fillTlb_power c _
    · exact (t.fillTlb_power c _).trans (State.devWrite_power _ _ _ _)
  · exact .refl t

theorem State.setNibble_power (s : State) (c table k v : Nat) : keepsPower s (s.setNibble c table k v) := s.vaWrite_power c _ _

theorem State.usePlace_power (s : State) (c va : Nat) (plain : Bool) : keepsPower s (s.usePlace c va plain) := by
  unfold State.usePlace
  split
  · exact .refl s
  · exact s.fillTlb_power c _

theorem State.vaPutP_power (s : State) (c va : Nat) (plain : Bool) (l : List PByte) : keepsPower s (s.vaPutP c va plain l) := by
  refine keepsPower.forAll _ _ (fun p t => ?_) s
  dsimp only
  split
  · exact t.usePlace_power c _ _
  · exact ((t.usePlace_power c _ _).trans (State.touch_power _ _ _ _ _)).trans (keepsPower.forAll _ _ (fun _ u => u.dpaPutIn_power _ _ _) _)

theorem State.evlogPut_power (s : State) (l : LogOf) (r : List Nat) : keepsPower s (s.evlogPut l r) := by
  have h2 := LogOf.addr_apart l (k := 2) (by decide)
  have h3 := LogOf.addr_apart l (k := 3) (by decide)
  unfold State.evlogPut
  dsimp only
  refine .ite (s.sat_apart h3 31 0 1) ?_
  split
  · exact s.sat_apart h3 31 0 1
  · exact ((keepsPower.ite ((s.wrap_apart h2 63 32 1).trans (State.sat_apart _ h3 31 0 1)) (.refl s)).trans (State.devWrite_power _ _ _ _)).trans (State.wrap_apart _ h2 31 0 1)

/-! ## STAGE, INGEST and GUEST -/

theorem State.sendLinkctl_power (s : State) (k : Nat) (nak : Option Nat) : keepsPower s (s.sendLinkctl k nak) := by
  have h := fun f g => (s.enqueue_power k f none none).trans (State.modLink_power _ k g)
  unfold State.sendLinkctl
  dsimp only
  split
  · exact h _ _
  · exact (h _ _).trans (State.modLc_power _ k _ _)

theorem State.flowUpdate_power (s : State) (c l : Nat) : keepsPower s (s.flowUpdate c l) := by
  unfold State.flowUpdate
  split
  · exact .refl s
  · dsimp only
    refine .ite (.refl s) ?_
    split
    · exact s.modQueue_power c l _
    · exact (s.modQueue_power c l _).trans (State.sendLinkctl_power _ _ _)

theorem State.tailWord_power (s : State) (c l : Nat) (last : Bool) : keepsPower s (s.tailWord c l last) := by
  have h1 : keepsPower s (if s.rf (ctxA c Off.CTX_QFLUSH_STS) 41 32 = l then s.sat (ctxA c Off.CTX_QFLUSH_STS) 31 0 1 else s) :=
    .ite (s.sat_apart (ctxA_apart c _) 31 0 1) (.refl s)
  unfold State.tailWord
  dsimp only
  refine .ite ?_ h1
  have h2 := h1.trans (State.modQueue_power _ c l fun q => { q with tail := false })
  exact .ite (h2.trans (State.wf_apart _ (ctxA_apart c _) 42 42 1)) h2

theorem State.writeWord_power (s : State) (c l : Nat) (e : StageLink) (w : QWord) (mb ver : BitVec 16) : keepsPower s (s.writeWord c l e w mb ver) := by
  unfold State.writeWord
  exact .ite (s.tailWord_power c l _) (.ite ((s.modQueue_power c l _).trans (State.ctxFault_power _ c 6)) ((s.modQueue_power c l _).trans (State.flowUpdate_power _ c l)))

theorem State.writeWords_power (s : State) (c l : Nat) (e : StageLink) (ws : List QWord) (mb ver : BitVec 16) : keepsPower s (s.writeWords c l e ws mb ver) :=
  .forAll _ _ (fun _ t => .ite (.refl t) (t.writeWord_power c l e _ mb ver)) s

theorem State.takeStage_power (s : State) (c l src port : Nat) (data : List PByte) (last : Bool) : keepsPower s (s.takeStage c l src port data last) := by
  unfold State.takeStage
  split
  · exact .ite (s.eavDrop_power _ 63 48 1) (.refl s)
  · have h := s.modQueue_power c l fun x => { x with peer := some src }
    dsimp only
    exact .ite (h.trans (State.writeWords_power _ c l _ _ _ _)) (.ite (.refl s) (.ite (.ite (h.trans (State.modQueue_power _ c l _)) h)
      (.ite (h.trans (State.writeWords_power _ c l _ _ _ _)) (.ite ((h.trans (State.modQueue_power _ c l _)).trans (State.ctxFault_power _ c 5))
        (h.trans (State.writeWords_power _ c l _ _ _ _))))))

theorem State.takeIngest_power (s : State) (c : Nat) (data : List PByte) (last : Bool) : keepsPower s (s.takeIngest c data last) := by
  unfold State.takeIngest
  refine .ite (.refl s) ?_
  have h1 := fun va l => s.vaPutP_power c va false l
  have h2 := fun (p : Prop) [Decidable p] va l => keepsPower.ite (p := p) ((h1 va l).trans (State.cSat_power _ c Off.CTX_INGEST 63 32 1)) (h1 va l)
  exact .ite (((h2 _ _ _).trans (State.cWrap_power _ c Off.CTX_INGEST 31 0 1)).trans (.of_heard (State.raiseCtx_heard _ c 5))) (h2 _ _ _)

theorem State.violation_power (s : State) (site kind addr : Nat) : keepsPower s (s.violation site kind addr) := by
  have hd : ∀ {off}, off < 2 ^ 12 → homeAddr Off.RDG_PSTATE ≠ homeAddr (dmrReg site off) := fun h => bar0_apart (by decide) h (.inl (by decide))
  exact ((((s.sat_apart (hd (by decide)) 31 0 1).trans (State.wf_apart _ (hd (by decide)) 2 0 kind)).trans
    (State.wf_apart _ (hd (by decide)) 50 3 _)).trans (State.evlogPut_power _ .pf _)).trans (State.raisePg_power _ _ 0x30 0)

theorem State.takeGuest_power (s : State) (site src : Nat) (data : List Byte) : keepsPower s (s.takeGuest site src data) :=
  .ite (.refl s) (.ite (s.modSite_power site _) (s.violation_power site 4 src))

/-! ## LINKCTL -/

theorem State.takeRec_power (s : State) (k : Nat) (r : ClassRec × Nat) : keepsPower s (s.takeRec k r) := by
  rw [State.takeRec_eq]
  exact (keepsPower.of_heard (s.takeAck_heard k r)).trans (State.modLc_power _ k r.2 _)

theorem State.takeRecs_power (s : State) (k port : Nat) (recs : List ClassRec) : keepsPower s (s.takeRecs k port recs) := by
  rw [State.takeRecs_eq]
  have hnak := fun t => keepsPower.forAll ((recs.zipIdx.filter fun r => r.2 ≠ 1).filter fun r => r.1.nak) (fun r t => t.nakClass k r.2 port r.1.ack)
    (fun r t => .of_heard (State.nakClass_heard t k r.2 port r.1.ack)) t
  exact (keepsPower.forAll (recs.zipIdx.filter fun r => r.2 ≠ 1) (fun r t => t.takeRec k r) (fun r t => State.takeRec_power t k r) s).trans (hnak _)

theorem State.takeFlows_power (s : State) (src : Nat) (flows : List FlowRec) : keepsPower s (s.takeFlows src flows) := by
  refine keepsPower.forAll _ _ (fun e t => keepsPower.forAll _ _ (fun h u => ?_) t) s
  split
  · exact u.modQueue_power e.1 h.1 _
  · exact .refl u

theorem State.takeLinkctl_power (s : State) (k port : Nat) (recs : List ClassRec) (flows : List FlowRec) : keepsPower s (s.takeLinkctl k port recs flows) :=
  .ite ((s.takeRecs_power k port recs).trans (State.takeFlows_power _ _ flows)) (s.takeRecs_power k port recs)

/-! ## Votes, decisions and control frames -/

theorem State.postCtl_power (s : State) (node typ obj c : Nat) (ep : BitVec 16) (m : CtlMsg) : keepsPower s (s.postCtl node typ obj c ep m) := by
  unfold State.postCtl
  split
  · exact s.enqueue_power _ _ none _
  · split
    · exact s.eavDrop_power _ 15 0 1
    · exact s.enqueue_power _ _ none _

theorem State.sendCtl_power (s : State) (node typ obj c : Nat) (ep : BitVec 16) (m : CtlMsg) : keepsPower s (s.sendCtl node typ obj c ep m) :=
  .ite ⟨rfl, rfl⟩ (s.postCtl_power node typ obj c ep m)

theorem State.sendDecides_power (s : State) (c v : Nat) (sl : Slot) (g : Group) (seq : BitVec 32) (d : Decision) : keepsPower s (s.sendDecides c v sl g seq d) :=
  .forAll _ _ (fun _ t => t.sendCtl_power _ _ _ _ _ _) s

theorem State.clearVotes_power (s : State) (gi : Nat) (seq : BitVec 32) (v : Nat) : keepsPower s (s.clearVotes gi seq v) := by
  unfold State.clearVotes
  split
  · exact .refl s
  · exact ⟨rfl, rfl⟩

theorem State.holdVote_power (s : State) (gi : Nat) (seq : BitVec 32) (v : Nat) (x : VoteRec) : keepsPower s (s.holdVote gi seq v x) := by
  unfold State.holdVote
  split
  · exact .refl s
  · exact .ite (.refl s) ⟨rfl, rfl⟩

theorem State.deadDecide_power (s : State) (c v : Nat) (r : Running) (sl : Slot) : keepsPower s (s.deadDecide c v r sl) := by
  unfold State.deadDecide
  split
  · split
    · exact .refl s
    · exact ((s.modLaunch_power c _ _).trans (State.clearVotes_power _ _ _ _)).trans (State.sendDecides_power _ c v _ _ _ _)
  · exact .refl s

theorem State.rootDecide_power (s : State) (c : Nat) (q : BitVec 32) (v : Nat) : keepsPower s (s.rootDecide c q v) := by
  unfold State.rootDecide
  split
  · exact .refl s
  · split
    · exact .refl s
    · refine .ite (s.deadDecide_power c v _ _) ?_
      split
      · split
        · exact .refl s
        · exact (((s.modLaunch_power c _ _).trans (State.clearVotes_power _ _ _ _)).trans (State.sendDecides_power _ c v _ _ _ _)).trans (State.modCtx_power _ c _)
      · exact .refl s

theorem State.takeVote_power (s : State) (c gi : Nat) (seq : BitVec 32) (v : Nat) (x : VoteRec) : keepsPower s (s.takeVote c gi seq v x) := by
  unfold State.takeVote
  split
  · exact s.cSat_power c _ 63 32 1
  · exact (s.holdVote_power gi seq v x).trans (State.rootDecide_power _ c _ v)

theorem State.takeDecide_power (s : State) (c gi : Nat) (seq : BitVec 32) (v : Nat) (d : Decision) : keepsPower s (s.takeDecide c gi seq v d) := by
  unfold State.takeDecide
  split
  · exact s.cSat_power c _ 63 32 1
  · exact .ite (.refl s) (s.modCtx_power c _)

theorem State.takeCtl_power (s : State) (c gi src typ : Nat) (epoch : BitVec 16) (m : CtlMsg) : keepsPower s (s.takeCtl c gi src typ epoch m) := by
  have hstale := s.cSat_power c Off.CTX_STALE_EPOCH 31 0 1
  cases m with
  | vote seq v flags nsum ssum step =>
    refine .ite (.refl s) ?_
    split
    · exact hstale
    · exact .ite hstale (s.takeVote_power c gi seq v _)
  | decide seq v code flags nsum ssum =>
    refine .ite (.refl s) ?_
    split
    · exact hstale
    · exact .ite hstale (s.takeDecide_power c gi seq v _)
  | mgmt entry => exact .ite ⟨rfl, rfl⟩ (.refl s)
  | mgmtDone _ => exact .refl s

/-! ## Collectives -/

theorem State.collSts_power (s : State) (c group code : Nat) : keepsPower s (s.collSts c group code) :=
  .ite ((s.wf_apart (ctxA_apart c _) 11 0 group).trans (State.wf_apart _ (ctxA_apart c _) 15 12 code)) (.refl s)

theorem State.modInst_power (s : State) (c id : Nat) (f : Inst → Inst) : keepsPower s (s.modInst c id f) := by
  unfold State.modInst
  split
  · exact .refl s
  · exact s.modCtx_power c _

theorem State.retireInst_power (s : State) (c id : Nat) : keepsPower s (s.retireInst c id) := by
  unfold State.retireInst
  split
  · exact .refl s
  · split
    · exact .refl s
    · exact .ite (s.modCtx_power c _) (.refl s)

theorem State.startXfer_power (s : State) (c t p : Nat) (engine ctr : Option Nat) (kind : XKind) (size rate : Nat) (segs : List Seg) (cache : Bool) :
    keepsPower s (s.startXfer c t p engine ctr kind size rate segs cache) := by
  unfold State.startXfer State.newXfer
  exact s.modCtx_power c _

theorem State.sendLeg_power (s : State) (c : Nat) (x : Inst) (g : Group) (l : Leg) (data : List PByte) : keepsPower s (s.sendLeg c x g l data) := by
  unfold State.sendLeg
  exact .forAll _ _ (fun _ t => t.startXfer_power c _ _ _ _ _ _ _ _ _) s

theorem State.progress_power (s : State) (c id : Nat) : keepsPower s (s.progress c id) := by
  unfold State.progress
  split
  · exact .refl s
  · split
    · exact .refl s
    · refine .ite ((s.collSts_power c _ 1).trans (State.ctxFault_power _ c 14)) ?_
      have hsend := fun (l : List (Leg × List PByte)) x g t => keepsPower.forAll l (fun p t => State.sendLeg t c x g p.1 p.2) (fun p t => t.sendLeg_power c x g p.1 p.2) t
      exact ((s.modInst_power c id _).trans (hsend _ _ _ _)).trans (State.retireInst_power _ c id)

theorem State.stagePart_power (s : State) (c id : Nat) (g : Group) (m : CollMsg) (data : List PByte) : keepsPower s (s.stagePart c id g m data) := by
  unfold State.stagePart
  split
  · exact .refl s
  · split
    · exact .refl s
    · dsimp only
      split
      · exact .refl s
      · exact (s.applyWrites_only _ _).power.trans (State.modInst_power _ c id _)

theorem State.takePiece_power (s : State) (c id : Nat) (g : Group) (m : CollMsg) (data : List PByte) : keepsPower s (s.takePiece c id g m data) := by
  have h := (s.stagePart_power c id g m data).trans (State.modInst_power _ c id fun x => { x with arriving := x.arriving ++ [(m.tag, m.off, data)] })
  unfold State.takePiece
  dsimp only
  split
  · exact h
  · exact (h.trans (State.modInst_power _ c id _)).trans (State.progress_power _ c id)

theorem State.takeArea_power (s : State) (c id gi : Nat) (m : CollMsg) (data : List PByte) : keepsPower s (s.takeArea c id gi m data) :=
  .ite ((s.collSts_power c gi 1).trans (State.ctxFault_power _ c 14)) (s.modInst_power c id _)

theorem State.takeColl_power (s : State) (c gi : Nat) (epoch : BitVec 16) (ring : Bool) (m : CollMsg) (poison : Word) : keepsPower s (s.takeColl c gi epoch ring m poison) := by
  unfold State.takeColl
  split
  · exact s.cSat_power c _ 31 0 1
  · refine .ite (s.cSat_power c _ 31 0 1) (.ite ((s.collSts_power c gi 2).trans (State.ctxFault_power _ c 15)) ?_)
    split
    · exact s.cSat_power c _ 63 32 1
    · exact .ite (s.takeArea_power c _ gi m _) (s.takePiece_power c _ _ m _)

/-! ## Mirrors and rebuilds -/

theorem State.heldBad_power (s : State) (c : Nat) : keepsPower s (s.heldBad c) := .ite (.refl s) (s.vaWrite_power c _ _)

theorem State.heldNibbles_power (s : State) (c : Nat) (f : Nat → Nat) : keepsPower s (s.heldNibbles c f) := .iter _ (fun _ t => t.setNibble_power c _ _ _) _ s

theorem State.heldStart_power (s : State) (c : Nat) (full : Bool) : keepsPower s (s.heldStart c full) :=
  .ite (((s.heldNibbles_power c _).trans (State.vaWrite_power _ c _ _)).trans (State.modCtx_power _ c _)) (s.heldBad_power c)

theorem State.heldData_power (s : State) (c : Nat) (m : MirrorMsg) (data : List PByte) : keepsPower s (s.heldData c m data) :=
  .ite ((s.vaPutP_power c _ true data).trans (State.setNibble_power _ c _ _ _)) (s.heldBad_power c)

theorem State.mirrorReply_power (s : State) (c src : Nat) (gen : BitVec 48) (err : Bool) : keepsPower s (s.mirrorReply c src gen err) := s.enqueue_power _ _ none none

theorem State.heldEnd_power (s : State) (c src : Nat) (m : MirrorMsg) : keepsPower s (s.heldEnd c src m) :=
  .ite (s.mirrorReply_power c src m.gen true) (.ite ((s.heldBad_power c).trans (State.mirrorReply_power _ c src m.gen true))
    ((((s.heldNibbles_power c _).trans (State.vaWrite_power _ c _ _)).trans (State.vaWrite_power _ c _ _)).trans (State.mirrorReply_power _ c src m.gen false)))

theorem State.takeMirror_power (s : State) (c src : Nat) (m : MirrorMsg) (data : List PByte) : keepsPower s (s.takeMirror c src m data) := by
  refine .ite (.refl s) (.ite (s.heldBad_power c) ?_)
  split
  · exact s.heldStart_power c m.full
  · exact s.heldData_power c m data
  · exact s.heldEnd_power c src m
  · exact .refl s

theorem State.takeMirrorAck_power (s : State) (c src : Nat) (m : MirrorMsg) : keepsPower s (s.takeMirrorAck c src m) := by
  unfold State.takeMirrorAck
  split
  · exact .refl s
  · refine .ite (.refl s) ?_
    have h := (s.modCtx_power c fun x => { x with mirrorGen := none, mirrorDoneAt := s.now }).trans (State.wf_apart _ (ctxA_apart c Off.CTX_MIR_STS) 50 50 (b2n m.err))
    exact .ite (h.trans (State.ctxFault_power _ c 19)) ((h.trans (State.wf_apart _ (ctxA_apart c _) 47 0 _)).trans (State.wf_apart _ (ctxA_apart c _) 49 49 1))

theorem State.takeRebuild_power (s : State) (c src : Nat) (m : MirrorMsg) (data : List PByte) : keepsPower s (s.takeRebuild c src m data) := by
  refine .ite (.refl s) (.ite ?_ (.ite (.ite (.refl s) ((s.vaWrite_power c _ _).trans (State.modCtx_power _ c _))) (.refl s)))
  split
  · exact .refl s
  · split
    · exact s.vaPutP_power c _ false data
    · exact (s.vaPutP_power c _ false data).trans (State.setNibble_power _ c _ _ _)

/-! ## Delivery and the return to ACTIVE -/

theorem State.takeRelayed_power (s : State) (port : Nat) (h : FrameHdr) (final orig typ : Nat) (m : CtlMsg) : keepsPower s (s.takeRelayed port h final orig typ m) := by
  have hr := fun hi lo => s.sat_apart (bar0_apart (b := 0) (off := Off.EAV_RELAY) (by decide) (by decide) (.inr (portDie_ends port))) hi lo 1
  refine .ite (s.takeCtl_power _ _ _ _ _ m) ?_
  split
  · exact (hr 63 32).trans (State.raisePg_power _ _ 0 4)
  · exact (hr 31 0).trans (State.enqueue_power _ _ _ none none)

theorem deliverFrame_power (f : RxFrame) (s : State) : keepsPower s (deliverFrame f s) := by
  unfold deliverFrame
  dsimp only
  split
  · split
    · exact s.takeStage_power _ _ _ _ _ _
    · exact s.takeIngest_power _ _ _
    · exact s.takeGuest_power _ _ _
    · exact .refl s
  · split
    · exact .refl s
    · exact s.takeLinkctl_power _ _ _ _
  · exact s.takeCtl_power _ _ _ _ _ _
  · exact .ite (s.takeColl_power _ _ _ _ _ _) (.refl s)
  · exact .ite (s.takeMirrorAck_power _ _ _) (.ite (s.takeRebuild_power _ _ _ _) (s.takeMirror_power _ _ _ _))
  · exact s.takeRelayed_power _ _ _ _ _ _

theorem State.setFill_power (s : State) (p prio n : Nat) : keepsPower s (s.setFill p prio n) := by
  have h := s.modPort_power p fun x => { x with fill := Table.put 0 x.fill prio n }
  have hp : ∀ (t : State) q, keepsPower t (t.sendPause p prio q) := fun _ _ => ⟨rfl, rfl⟩
  exact .ite ((h.trans (State.modPort_power _ p _)).trans (hp _ _)) (.ite ((h.trans (State.modPort_power _ p _)).trans (hp _ _)) h)

/-- The byte count of a frame that waited (R397). -/
theorem State.ingressCounted_power (s : State) (o : Option Nat) (n : Nat) : keepsPower s (match o with
    | none => s
    | some c => s.cWrap c Off.CTX_BYTES_ERX 63 0 n) := by
  cases o with
  | none => exact .refl s
  | some c => exact s.cWrap_power c _ 63 0 n

theorem State.acceptFrame_power (s : State) (k : Nat) (f : RxFrame) : keepsPower s (s.acceptFrame k f (deliverFrame f)) := by
  have h1 : keepsPower s (if f.frame.hdr.ackv then s.ackClass k f.frame.hdr.cls f.frame.hdr.ack else s) := .ite (.of_heard (s.ackClass_heard k _ _)) (.refl s)
  have h2 := fun g => h1.trans (State.modLc_power _ k f.frame.hdr.cls g)
  unfold State.acceptFrame
  dsimp only
  refine .ite ((h2 _).trans (State.modPort_power _ _ _)) ?_
  exact (((h2 _).trans (State.modLc_power _ k _ _)).trans (State.ingressCounted_power _ (frameCtx f.frame) _)).trans (deliverFrame_power f _)

theorem State.sequence_power (s : State) (k : Nat) (f : RxFrame) : keepsPower s (s.sequence k f (deliverFrame f)) := by
  unfold State.sequence
  dsimp only
  have hrx : portReg f.port Off.EAV_RXERR % 2 ^ 12 ≠ Off.RDG_PSTATE := portReg_pstate f.port (by decide) (by decide)
  exact .ite (deliverFrame_power f s) (.ite (.ite ((s.modPort_power _ _).trans (State.setFill_power _ _ _ _)) (s.acceptFrame_power k f))
    (.ite (.ite (.refl s) (s.sendLinkctl_power k _)) ((s.sat_power hrx 63 32 1).trans (State.modLc_power _ k _ _))))

theorem State.drainPort_power (s : State) (p : Nat) : keepsPower s (s.drainPort p) := by
  unfold State.drainPort
  dsimp only
  refine (((s.modPort_power p _).trans (keepsPower.forAll _ _ (fun f t => ?_) _)).trans (keepsPower.forAll _ _ (fun f t => ?_) _)).trans
    (keepsPower.forAll _ _ (fun prio t => t.setFill_power p prio 0) _)
  · split
    · exact .refl t
    · exact ((t.modLc_power _ _ _).trans (State.ingressCounted_power _ (frameCtx f.frame) _)).trans (deliverFrame_power f _)
  · split
    · exact .refl t
    · exact t.sequence_power _ f

theorem State.refuseLaunch_power (s : State) (c : Nat) (l : Launch) (status : Nat) : keepsPower s (s.refuseLaunch c l status) :=
  (s.modCtx_power c _).trans (State.complete_power _ _ _)

theorem State.passLaunches_power (s : State) (c : Nat) (l : List Launch) : keepsPower s (s.passLaunches c l) := by
  induction l generalizing s with
  | nil => exact .refl s
  | cons x r ih => exact .ite ((s.refuseLaunch_power c x 3).trans (ih _)) (.refl s)

end Sys2Proof.Machine

end

section

/-! SUPPORT. The divider and the power states: writes of RDG_CLK and RDG_PSTATE, divider changes and the ends of power-state commands (R406 to R411). -/

namespace Sys2Proof.Machine

/-! ## Writes of RDG_CLK and RDG_PSTATE -/

theorem rdgClk : RdgReg Off.RDG_CLK :=
  ⟨by decide, by decide, by decide, by decide, (regAt Off.RDG_CLK).get (by decide), Option.eq_some_of_isSome _, by decide⟩

theorem rdgPstate : RdgReg Off.RDG_PSTATE :=
  ⟨by decide, by decide, by decide, by decide, (regAt Off.RDG_PSTATE).get (by decide), Option.eq_some_of_isSome _, by decide⟩

theorem State.write8_clk {s : State} {src : HostSrc} (v : Word) (hw : WriteReaches s src Off.RDG_CLK) : s.write8 src Off.RDG_CLK v = s.writeClk v := by
  obtain ⟨r, hr⟩ := rdgClk.write v hw
  have hoff : offOf Off.RDG_CLK = Off.RDG_CLK := by decide
  rw [hr]
  unfold State.writeRdg
  simp only [hoff]
  exact if_pos trivial

theorem State.write8_pstate {s : State} {src : HostSrc} (v : Word) (hw : WriteReaches s src Off.RDG_PSTATE) :
    s.write8 src Off.RDG_PSTATE v = s.writePstate (fld v 1 0) := by
  obtain ⟨r, hr⟩ := rdgPstate.write v hw
  have hoff : offOf Off.RDG_PSTATE = Off.RDG_PSTATE := by decide
  rw [hr]
  unfold State.writeRdg
  simp only [hoff]
  rw [if_neg (by decide), if_pos trivial]
  exact if_pos trivial

/-- BAD of a register is bit `n`: setting it leaves the fields below. -/
theorem State.bad_spec (s : State) (a n : Nat) (hn : n < 64) :
    (s.wf a n n 1).rf a n n = 1 ∧ (∀ hi lo, lo ≤ hi → hi < n → (s.wf a n n 1).rf a hi lo = s.rf a hi lo) ∧ onlyRegs s (s.wf a n n 1)
      ∧ sameRegsBut [a] s (s.wf a n n 1) := by
  refine ⟨?_, fun hi lo h1 h2 => s.rf_wf_below a n n 1 hi lo (le_refl _) hn h1 h2, .wf s a n n 1, (sameRegsBut.refl [a] s).wf List.mem_cons_self n n 1⟩
  rw [s.rf_wf_self a n n 1 (le_refl _) hn, Nat.add_sub_cancel_left]
  decide

/-- A divider write is refused. -/
theorem State.writeClk_bad (s : State) {v : Word} {d : Nat} (h1 : fld v 1 0 = d) (h5 : fld v 5 5 = 0)
    (h : ¬(s.anyBusy = false ∧ s.rf Off.RDG_CLK 4 4 = 0 ∧ d ≠ 3)) : s.writeClk v = s.wf Off.RDG_CLK 6 6 1 := by
  have hok : (!s.anyBusy && decide (s.rf Off.RDG_CLK 4 4 = 0) && decide (d ≠ 3)) = false := by
    by_contra hc
    simp only [Bool.not_eq_false, Bool.and_eq_true, Bool.not_eq_true', decide_eq_true_eq] at hc
    exact h ⟨hc.1.1, hc.1.2, hc.2⟩
  unfold State.writeClk
  simp only [h1, h5, hok]
  exact if_pos rfl

/-- A divider write is taken. -/
theorem State.writeClk_div (s : State) {v : Word} {d : Nat} (h1 : fld v 1 0 = d) (h5 : fld v 5 5 = 0) (hb : s.anyBusy = false) (hf : s.rf Off.RDG_CLK 4 4 = 0) (hd : d ≠ 3) :
    s.writeClk v = { (s.wf Off.RDG_CLK 6 6 0).wf Off.RDG_CLK 1 0 d with divPend := some ⟨d, false, s.now⟩ } := by
  have hf' : fld (s.reg Off.RDG_CLK) 4 4 = 0 := hf
  unfold State.writeClk
  simp [h1, h5, hb, hf', hd]

/-- A RESTORE is refused. -/
theorem State.writeClk_kept (s : State) {v : Word} (h1 : fld v 1 0 = s.rf Off.RDG_CLK 1 0) (h5 : fld v 5 5 = 1)
    (h : ¬(s.rf Off.RDG_SAG 2 0 < 3 ∧ s.rf Off.RDG_THERM 0 0 = 0)) : s.writeClk v = s.wf Off.RDG_CLK 6 6 1 := by
  have hok : (decide (s.rf Off.RDG_SAG 2 0 < 3) && decide (s.rf Off.RDG_THERM 0 0 = 0)) = false := by
    by_contra hc
    simp only [Bool.not_eq_false, Bool.and_eq_true, decide_eq_true_eq] at hc
    exact h hc
  have hset : decide (s.rf Off.RDG_CLK 1 0 ≠ s.rf Off.RDG_CLK 1 0) = false := decide_eq_false fun hne => hne rfl
  unfold State.writeClk
  simp only [h1, h5, hok, hset]
  exact if_pos rfl

/-- A RESTORE is taken. -/
theorem State.writeClk_restore (s : State) {v : Word} (h1 : fld v 1 0 = s.rf Off.RDG_CLK 1 0) (h5 : fld v 5 5 = 1)
    (hs : s.rf Off.RDG_SAG 2 0 < 3) (ht : s.rf Off.RDG_THERM 0 0 = 0) :
    s.writeClk v = { s.wf Off.RDG_CLK 6 6 0 with
      divPend := some ⟨(s.wf Off.RDG_CLK 6 6 0).rf Off.RDG_CLK 1 0, true, (s.wf Off.RDG_CLK 6 6 0).now⟩
      entered := (s.wf Off.RDG_CLK 6 6 0).entered.filter (· ≠ 3) } := by
  have hok : (decide (s.rf Off.RDG_SAG 2 0 < 3) && decide (s.rf Off.RDG_THERM 0 0 = 0)) = true := by rw [decide_eq_true hs, decide_eq_true ht]; rfl
  have hset : decide (s.rf Off.RDG_CLK 1 0 ≠ s.rf Off.RDG_CLK 1 0) = false := decide_eq_false fun hne => hne rfl
  unfold State.writeClk
  simp only [h1, h5, hok, hset]
  rfl

theorem State.anyRunning_false {s : State} : (s.ctxs.any fun e => e.2.running.isSome) = false ↔ ∀ e ∈ s.ctxs, e.2.running = none := by
  rw [List.any_eq_false]
  exact forall₂_congr fun e _ => by rw [Bool.not_eq_true, Option.isSome_eq_false_iff, Option.isNone_iff_eq_none]

/-- A power-state command may be taken (R409). -/
def State.takesPstate (s : State) (cmd : Nat) : Prop :=
  s.psTarget = none ∧ pstateFrom s.pstate cmd = true ∧ s.rf Off.RDG_SAG 2 0 < 2 ∧ s.countedIn Off.RDG_SAG 0 ≠ 1 ∧ ∀ e ∈ s.ctxs, e.2.running = none

theorem State.takesPstate_iff (s : State) (cmd : Nat) : s.takesPstate cmd ↔
    ¬(s.countedIn Off.RDG_SAG 0 = 1 ∨ s.psTarget.isSome ∨ !pstateFrom s.pstate cmd ∨ 2 ≤ s.rf Off.RDG_SAG 2 0 ∨ s.ctxs.any fun e => e.2.running.isSome) := by
  rw [State.takesPstate, ← State.anyRunning_false]
  simp only [not_or, Bool.not_eq_true, Bool.not_eq_true', Bool.not_eq_false, ne_eq, Option.isSome_eq_false_iff, Option.isNone_iff_eq_none, not_le]
  tauto

theorem State.writePstate_taken {s : State} {cmd : Nat} (h : s.takesPstate cmd) :
    s.writePstate cmd = State.noteCount { (s.wf Off.RDG_PSTATE 5 5 0).wf Off.RDG_PSTATE 4 2 4 with psTarget := some cmd } Off.RDG_PSTATE 0 1 :=
  if_neg ((s.takesPstate_iff cmd).mp h)

theorem State.writePstate_bad {s : State} {cmd : Nat} (h : ¬s.takesPstate cmd) : s.writePstate cmd = s.wf Off.RDG_PSTATE 5 5 1 :=
  if_pos (by_contra fun hn => h ((s.takesPstate_iff cmd).mpr hn))

/-! ## The change of the divider -/

theorem State.settleBuckets_regs (s : State) : s.settleBuckets.regs = s.regs := by
  have hsite : (iter (fun i t => State.settleSite t i) 2 s).regs = s.regs := rfl
  refine forAll_induct (P := fun t => t.regs = s.regs) (fun e t ht => ?_) s.ports hsite
  exact ht

theorem State.settleBuckets_frame (s : State) : s.settleBuckets = { s with ports := s.settleBuckets.ports, sites := s.settleBuckets.sites } := by
  have hsite : iter (fun i t => State.settleSite t i) 2 s = { s with ports := s.ports, sites := (iter (fun i t => State.settleSite t i) 2 s).sites } := rfl
  refine forAll_induct (P := fun t => t = { s with ports := t.ports, sites := t.sites }) (fun e t ht => ?_) s.ports hsite
  rw [ht]
  rfl

/-- The registers of the divider behind a change. -/
def State.divided (s : State) (p : DivChange) : State :=
  let s1 := (s.settleBuckets.wf Off.RDG_CLK 3 2 p.div).setReg Off.RDG_CLK_AT s.tb
  { (if p.restore then s1.wf Off.RDG_CLK 4 4 0 else s1) with divPend := none }

theorem exec_dividerChange_takes (s : State) {p : DivChange} (hp : s.divPend = some p) (hi : s.cycle.issued = false) :
    exec .dividerChange s = .next (s.divided p).refreshAll := by
  change execDividerChange s = _
  unfold execDividerChange
  rw [hp]
  exact if_neg (by rw [hi]; decide)

theorem State.divided_spec (s : State) (p : DivChange) (hd : p.div < 4) :
    (s.divided p).rf Off.RDG_CLK 3 2 = p.div ∧ (s.divided p).reg Off.RDG_CLK_AT = s.tb ∧ (s.divided p).divPend = none
      ∧ (s.divided p).rf Off.RDG_CLK 4 4 = (if p.restore then 0 else s.rf Off.RDG_CLK 4 4) ∧ (s.divided p).rf Off.RDG_CLK 1 0 = s.rf Off.RDG_CLK 1 0
      ∧ sameMemory s (s.divided p) := by
  obtain ⟨z, hz⟩ : ∃ z, z = s.settleBuckets := ⟨_, rfl⟩
  have hreg : ∀ a, z.reg a = s.reg a := fun a => by
    rw [hz]
    exact reg_of_regs s.settleBuckets_regs a
  have hmem : sameMemory s z := by
    have h := s.settleBuckets_frame
    rw [hz, h]
    exact ⟨rfl, rfl, rfl, rfl, rfl, rfl⟩
  obtain ⟨y, hy⟩ : ∃ y, y = (z.wf Off.RDG_CLK 3 2 p.div).setReg Off.RDG_CLK_AT s.tb := ⟨_, rfl⟩
  have hclk : y.reg Off.RDG_CLK = (z.wf Off.RDG_CLK 3 2 p.div).reg Off.RDG_CLK := by
    rw [hy]
    exact State.reg_setReg_ne _ _ (by decide)
  have h32 : y.rf Off.RDG_CLK 3 2 = p.div := by
    rw [State.rf_eq, hclk, ← State.rf_eq, z.rf_wf_self Off.RDG_CLK 3 2 p.div (by decide) (by decide)]
    exact Nat.mod_eq_of_lt hd
  have h44 : y.rf Off.RDG_CLK 4 4 = s.rf Off.RDG_CLK 4 4 := by
    rw [State.rf_eq, hclk, State.wf_eq, State.reg_setReg_self, fld_ins_above _ 3 2 _ 4 4 (by decide) (by decide) (by decide), hreg, State.rf_eq]
  have h10 : y.rf Off.RDG_CLK 1 0 = s.rf Off.RDG_CLK 1 0 := by
    rw [State.rf_eq, hclk, ← State.rf_eq, z.rf_wf_below Off.RDG_CLK 3 2 _ 1 0 (by decide) (by decide) (by decide) (by decide), State.rf_eq, hreg, State.rf_eq]
  have hat : y.reg Off.RDG_CLK_AT = s.tb := by
    rw [hy]
    exact State.reg_setReg_self _ _ _
  have hymem : sameMemory s y := by
    rw [hy]
    exact hmem
  have hdiv : s.divided p = { (if p.restore then y.wf Off.RDG_CLK 4 4 0 else y) with divPend := none } := by
    rw [hy, hz]
    rfl
  rw [hdiv]
  cases p.restore with
  | false => exact ⟨h32, hat, rfl, h44, h10, hymem⟩
  | true =>
    refine ⟨?_, ?_, rfl, y.rf_wf_self Off.RDG_CLK 4 4 0 (by decide) (by decide), ?_, hymem⟩
    · exact (y.rf_wf_below Off.RDG_CLK 4 4 0 3 2 (by decide) (by decide) (by decide) (by decide)).trans h32
    · exact (y.reg_setReg_ne _ (by decide)).trans hat
    · exact (y.rf_wf_below Off.RDG_CLK 4 4 0 1 0 (by decide) (by decide) (by decide) (by decide)).trans h10

/-! ## The ends of power-state commands -/

theorem State.writeBack_power (s : State) (t : Nat) (w : Way) : keepsPower s (s.writeBack t w) := by
  refine keepsPower.forAll _ _ (fun d u => ?_) s
  exact .of_regs rfl rfl

theorem State.flushCache_power (s : State) : keepsPower s s.flushCache := by
  have h : keepsPower s (forAll s.cache (fun e t => forAll e.2 (fun w u => u.writeBack (e.1 / 65536) w) t) s) :=
    .forAll _ _ (fun e t => .forAll _ _ (fun w u => u.writeBack_power _ w) t) s
  exact h.trans ⟨rfl, rfl⟩

theorem State.mapCtxs_plan (s : State) {f : Ctx → Ctx} (hf : ∀ x, (f x).plan = none) (c : Nat) : ((s.mapCtxs f).ctx c).plan = none := by
  unfold State.ctx Table.getD
  cases h : Table.get? (s.mapCtxs f).ctxs c with
  | none => rfl
  | some x =>
    have hmem := List.mem_of_mem_filter (Table.mem_of_get? h)
    obtain ⟨e, -, he⟩ := List.mem_map.mp hmem
    have hx : f e.2 = x := congrArg Prod.snd he
    change x.plan = none
    rw [← hx]
    exact hf e.2

theorem State.enterDormant_spec (s : State) :
    let u := s.enterDormant
    u.pstate = s.pstate ∧ u.psTarget = s.psTarget ∧ u.reg Off.RDG_PSTATE = s.reg Off.RDG_PSTATE ∧ u.selfRefresh = true ∧ u.keepAlive = true ∧ u.scratch = [] ∧ u.cache = []
      ∧ ∀ c, (u.ctx c).plan = none := by
  have h := s.flushCache_power.trans (State.mapCtxs_power s.flushCache Ctx.unplanned)
  exact ⟨h.pstate, h.psTarget, h.reg, rfl, rfl, rfl, rfl, s.flushCache.mapCtxs_plan fun _ => rfl⟩

/-- Every port drains that holds frames. -/
def State.drainAll (s : State) : State :=
  forAll (List.range 64) (fun p t => if (t.port p).ingress = [] ∧ (t.port p).rxbuf = [] then t else t.drainPort p) s

theorem State.drainAll_power (s : State) : keepsPower s s.drainAll := by
  refine keepsPower.forAll _ _ (fun p t => ?_) s
  exact .ite (.refl t) (t.drainPort_power p)

/-- The launches whose ready cycle has passed complete. -/
def State.passAll (s : State) : State := forAll s.ctxs (fun e t => t.passLaunches e.1 e.2.queue) s

theorem State.passAll_power (s : State) : keepsPower s s.passAll := by
  refine keepsPower.forAll _ _ (fun e t => ?_) s
  exact t.passLaunches_power e.1 e.2.queue

theorem State.enterActive_spec (s : State) :
    let u := s.enterActive
    u.pstate = s.pstate ∧ u.psTarget = s.psTarget ∧ u.reg Off.RDG_PSTATE = s.reg Off.RDG_PSTATE ∧ (s.halted = false → u.selfRefresh = false ∧ u.keepAlive = false) := by
  have h := s.passAll_power
  have hu : s.enterActive = if s.passAll.halted then s.passAll else ({ s.passAll with selfRefresh := false, keepAlive := false } : State).drainAll := rfl
  intro u
  have hu : u = if s.passAll.halted then s.passAll else ({ s.passAll with selfRefresh := false, keepAlive := false } : State).drainAll := hu
  clear_value u
  generalize s.passAll = z at h hu
  cases hh : z.halted with
  | true =>
    rw [if_pos hh] at hu
    subst hu
    exact ⟨h.pstate, h.psTarget, h.reg, fun hs => absurd (h.halted.symm.trans hh) (by rw [hs]; decide)⟩
  | false =>
    rw [if_neg (by rw [hh]; decide)] at hu
    have hd := State.drainAll_power { z with selfRefresh := false, keepAlive := false }
    rw [← hu] at hd
    exact ⟨hd.pstate.trans h.pstate, hd.psTarget.trans h.psTarget, hd.reg.trans h.reg, fun _ => ⟨hd.selfRefresh, hd.keepAlive⟩⟩

/-- The commanded state has been reached. -/
def State.reached (s : State) (t : Nat) : State := { s.wf Off.RDG_PSTATE 4 2 t with pstate := t, psTarget := none }

theorem exec_pstateDone_reached (s : State) {t : Nat} (h : s.psTarget = some t) :
    exec .pstateDone s = .next (State.raiseRdg (if t = 3 then (s.reached t).enterDormant else if t = 0 then (s.reached t).enterActive else s.reached t) 12) := by
  change execPstateDone s = _
  unfold execPstateDone
  rw [h]
  rfl

/-- PSTATE is raised: the state and its register stay. -/
theorem State.raised_spec (s : State) {t : Nat} (h1 : s.pstate = t) (h2 : s.psTarget = none) (h3 : s.rf Off.RDG_PSTATE 4 2 = t) :
    (s.raiseRdg 12).pstate = t ∧ (s.raiseRdg 12).psTarget = none ∧ (s.raiseRdg 12).rf Off.RDG_PSTATE 4 2 = t ∧ (s.raiseRdg 12).rf Off.PG_IRQ_RAW 12 12 = 1 := by
  have h := s.raisePg_power 0 0 12
  refine ⟨h.pstate.trans h1, h.psTarget.trans h2, ?_, s.raiseRdg_bit (by decide)⟩
  exact (h.rf 4 2).trans h3

theorem pstateDone_completes (s : State) {t : Nat} (h : s.psTarget = some t) (ht : t ≤ 3) : Completes .pstateDone s fun u =>
    u.pstate = t ∧ u.psTarget = none ∧ u.rf Off.RDG_PSTATE 4 2 = t ∧ u.rf Off.PG_IRQ_RAW 12 12 = 1
      ∧ (t = 3 → u.selfRefresh = true ∧ u.keepAlive = true ∧ u.scratch = [] ∧ u.cache = [] ∧ ∀ c, (u.ctx c).plan = none)
      ∧ (t = 0 → s.halted = false → u.selfRefresh = false ∧ u.keepAlive = false) := by
  have hex := exec_pstateDone_reached s h
  have hcmd : (s.reached t).rf Off.RDG_PSTATE 4 2 = t := by
    have h42 := s.rf_wf_self Off.RDG_PSTATE 4 2 t (by decide) (by decide)
    rw [Nat.mod_eq_of_lt (by omega)] at h42
    exact h42
  have hhalt : (s.reached t).halted = s.halted := rfl
  obtain ⟨z, hz⟩ : ∃ z, z = s.reached t := ⟨_, rfl⟩
  have h1 : z.pstate = t := by rw [hz]; rfl
  have h2 : z.psTarget = none := by rw [hz]; rfl
  rw [← hz] at hex hcmd hhalt
  have hcmd' : fld (z.reg Off.RDG_PSTATE) 4 2 = t := hcmd
  by_cases h3 : t = 3
  · rw [if_pos h3] at hex
    obtain ⟨d1, d2, d3, d4, d5, d6, d7, d8⟩ := z.enterDormant_spec
    generalize z.enterDormant = y at hex d1 d2 d3 d4 d5 d6 d7 d8
    obtain ⟨r1, r2, r3, r4⟩ := y.raised_spec (d1.trans h1) (d2.trans h2) (by rw [State.rf_eq, d3]; exact hcmd')
    have hc := y.raisePg_core 0 0 12
    have hctx := y.raisePg_ctxs 0 0 12
    refine ⟨_, hex, r1, r2, r3, r4, fun _ => ⟨(congrArg State.selfRefresh hc :).trans d4, (congrArg State.keepAlive hc :).trans d5, (congrArg State.scratch hc :).trans d6,
      (congrArg State.cache hc :).trans d7, fun c => ?_⟩, fun h0 => absurd (h3.symm.trans h0) (by decide)⟩
    have hsame : (y.raiseRdg 12).ctx c = y.ctx c := by
      unfold State.ctx
      exact congrArg (fun l => Table.getD Ctx.init l c) hctx
    rw [hsame]
    exact d8 c
  · rw [if_neg h3] at hex
    by_cases h0 : t = 0
    · rw [if_pos h0] at hex
      obtain ⟨d1, d2, d3, d4⟩ := z.enterActive_spec
      generalize z.enterActive = y at hex d1 d2 d3 d4
      obtain ⟨r1, r2, r3, r4⟩ := y.raised_spec (d1.trans h1) (d2.trans h2) (by rw [State.rf_eq, d3]; exact hcmd')
      have hc := y.raisePg_core 0 0 12
      refine ⟨_, hex, r1, r2, r3, r4, fun h => absurd h h3, fun _ hs => ?_⟩
      obtain ⟨e1, e2⟩ := d4 (hhalt.trans hs)
      exact ⟨(congrArg State.selfRefresh hc :).trans e1, (congrArg State.keepAlive hc :).trans e2⟩
    · rw [if_neg h0] at hex
      obtain ⟨r1, r2, r3, r4⟩ := z.raised_spec h1 h2 hcmd
      exact ⟨_, hex, r1, r2, r3, r4, fun h => absurd h h3, fun h => absurd h h0⟩

/-! ## The obligation -/

/-- The commands of a power state, as writes of RDG_PSTATE. -/
theorem exec_pstate {s : State} {src : HostSrc} (hw : WriteReaches s src Off.RDG_PSTATE) {r : Instr × Nat}
    (hr : r ∈ [(Instr.pstateActive src, 0), (.pstateHold src, 1), (.pstateNap src, 2), (.pstateDormant src, 3)]) : exec r.1 s = .next (s.writePstate r.2) := by
  have h : ∀ v : Word, (.next (s.write8 src Off.RDG_PSTATE v) : Out) = .next (s.writePstate (fld v 1 0)) := fun v => congrArg Host.Outcome.next (State.write8_pstate v hw)
  simp only [List.mem_cons, List.not_mem_nil, or_false] at hr
  rcases hr with rfl | rfl | rfl | rfl
  · exact h 0
  · exact h 1
  · exact h 2
  · exact h 3

/-- Settles O22: writes of RDG_CLK and RDG_PSTATE, and what they bring about. -/
theorem dividerAndPowerStates : Obligations.DividerAndPowerStates := by
  refine ⟨⟨?_, ?_, ?_⟩, ?_, ?_, fun s t h ht => pstateDone_completes s h ht⟩
  · intro s src div hw ok
    have hfld : ∀ d < 4, fld (field 0 d) 1 0 = d ∧ fld (field 0 d) 5 5 = 0 := by decide
    obtain ⟨h1, h5⟩ := hfld (div % 4) (Nat.mod_lt _ (by decide))
    have hex : exec (.clkDivWrite src div) s = .next (s.writeClk (field 0 (div % 4))) := congrArg Host.Outcome.next (State.write8_clk _ hw)
    constructor
    · rintro ⟨hb, hf, hd⟩
      rw [s.writeClk_div h1 h5 hb hf hd] at hex
      obtain ⟨y, hy⟩ : ∃ y, y = s.wf Off.RDG_CLK 6 6 0 := ⟨_, rfl⟩
      have h66 : y.rf Off.RDG_CLK 6 6 = 0 := by
        rw [hy]
        exact s.rf_wf_self Off.RDG_CLK 6 6 0 (by decide) (by decide)
      have h52 : y.rf Off.RDG_CLK 5 2 = s.rf Off.RDG_CLK 5 2 := by
        rw [hy]
        exact s.rf_wf_below Off.RDG_CLK 6 6 0 5 2 (by decide) (by decide) (by decide) (by decide)
      have hy' : onlyRegs s y ∧ sameRegsBut [Off.RDG_CLK] s y := by
        rw [hy]
        exact ⟨.wf s _ _ _ _, (sameRegsBut.refl _ s).wf List.mem_cons_self 6 6 0⟩
      rw [← hy] at hex
      have habove : ∀ hi lo, 1 < lo → (y.wf Off.RDG_CLK 1 0 (div % 4)).rf Off.RDG_CLK hi lo = y.rf Off.RDG_CLK hi lo := fun hi lo h => by
        rw [State.rf_eq, State.wf_eq, State.reg_setReg_self, fld_ins_above _ 1 0 _ hi lo (by decide) (by decide) h, State.rf_eq]
      have h10 : (y.wf Off.RDG_CLK 1 0 (div % 4)).rf Off.RDG_CLK 1 0 = div % 4 := by
        rw [y.rf_wf_self Off.RDG_CLK 1 0 _ (by decide) (by decide)]
        exact Nat.mod_mod _ _
      refine ⟨_, hex, h10, (habove 6 6 (by decide)).trans h66, (habove 5 2 (by decide)).trans h52, ?_, hw.others (by decide) ?_⟩
      · have h := hy'.1.trans (.wf y Off.RDG_CLK 1 0 (div % 4))
        generalize y.wf Off.RDG_CLK 1 0 (div % 4) = x at h
        rw [h]
      · exact (hy'.2.wf List.mem_cons_self 1 0 (div % 4)).of_regs rfl
    · intro hn
      rw [s.writeClk_bad h1 h5 hn] at hex
      obtain ⟨b1, b2, b3, b4⟩ := s.bad_spec Off.RDG_CLK 6 (by decide)
      exact ⟨_, hex, b1, b2 5 0 (by decide) (by decide), hw.wrote (by decide) b3 b4⟩
  · intro s src hw ok
    have hfld : ∀ d < 4, fld (field 5 1 ||| field 0 d) 1 0 = d ∧ fld (field 5 1 ||| field 0 d) 5 5 = 1 := by decide
    obtain ⟨h1, h5⟩ := hfld (s.rf Off.RDG_CLK 1 0) (Nat.mod_lt _ (by decide))
    have hex : exec (.clkRestore src) s = .next (s.writeClk (field 5 1 ||| field 0 (s.rf Off.RDG_CLK 1 0))) := congrArg Host.Outcome.next (State.write8_clk _ hw)
    constructor
    · rintro ⟨hs, ht⟩
      rw [s.writeClk_restore h1 h5 hs ht] at hex
      have h10 := s.rf_wf_below Off.RDG_CLK 6 6 0 1 0 (by decide) (by decide) (by decide) (by decide)
      have h66 := s.rf_wf_self Off.RDG_CLK 6 6 0 (by decide) (by decide)
      have hr := (sameRegsBut.refl [Off.RDG_CLK] s).wf List.mem_cons_self 6 6 0
      have hnow : (s.wf Off.RDG_CLK 6 6 0).now = s.now := rfl
      generalize s.wf Off.RDG_CLK 6 6 0 = y at hex h10 h66 hr hnow
      refine ⟨_, hex, h66, ?_, hw.others (by decide) (hr.of_regs rfl)⟩
      rw [h10, hnow]
    · intro hn
      rw [s.writeClk_kept h1 h5 hn] at hex
      obtain ⟨b1, b2, b3, b4⟩ := s.bad_spec Off.RDG_CLK 6 (by decide)
      exact ⟨_, hex, b1, b2 5 0 (by decide) (by decide), hw.wrote (by decide) b3 b4⟩
  · intro s p hp hd hi
    obtain ⟨d1, d2, d3, d4, d5, d6⟩ := s.divided_spec p hd
    have hex := exec_dividerChange_takes s hp hi
    generalize s.divided p = y at hex d1 d2 d3 d4 d5 d6
    have hreg : ∀ a, a % 2 ^ 12 ≠ Off.CTX_PROMISE → y.refreshAll.reg a = y.reg a := fun a h => y.reg_refreshAll h
    have hclk := hreg Off.RDG_CLK (by decide)
    have hcore := y.refreshAll_core
    refine ⟨_, hex, ?_, (hreg Off.RDG_CLK_AT (by decide)).trans d2, (congrArg State.divPend hcore :).trans d3, ?_, ?_, d6.trans y.refreshAll_rewired.memory⟩
    · rw [State.eff, State.rf_eq, hclk]
      exact d1
    · rw [State.rf_eq, hclk]
      exact d4
    · rw [State.rf_eq, hclk]
      exact d5
  · intro s p hp hi
    refine ⟨s.post .dividerChange, ?_, rfl⟩
    change execDividerChange s = _
    unfold execDividerChange
    rw [hp]
    exact if_pos hi
  · intro s src hw r hr ok
    have hex := exec_pstate hw hr
    constructor
    · intro h
      rw [State.writePstate_taken h] at hex
      obtain ⟨y, hy⟩ : ∃ y, y = s.wf Off.RDG_PSTATE 5 5 0 := ⟨_, rfl⟩
      have h55 : y.rf Off.RDG_PSTATE 5 5 = 0 := by
        rw [hy]
        exact s.rf_wf_self Off.RDG_PSTATE 5 5 0 (by decide) (by decide)
      have hy' : onlyRegs s y ∧ sameRegsBut [Off.RDG_PSTATE] s y := by
        rw [hy]
        exact ⟨.wf s _ _ _ _, (sameRegsBut.refl _ s).wf List.mem_cons_self 5 5 0⟩
      rw [← hy] at hex
      have h42 : (y.wf Off.RDG_PSTATE 4 2 4).rf Off.RDG_PSTATE 4 2 = 4 := y.rf_wf_self Off.RDG_PSTATE 4 2 4 (by decide) (by decide)
      have h55' : (y.wf Off.RDG_PSTATE 4 2 4).rf Off.RDG_PSTATE 5 5 = y.rf Off.RDG_PSTATE 5 5 := by
        rw [State.rf_eq, State.wf_eq, State.reg_setReg_self, fld_ins_above _ 4 2 _ 5 5 (by decide) (by decide) (by decide), State.rf_eq]
      refine ⟨_, hex, h42, h55'.trans h55, ?_, hw.others (by decide) ((hy'.2.wf List.mem_cons_self 4 2 4).of_regs rfl)⟩
      have h := hy'.1.trans (.wf y Off.RDG_PSTATE 4 2 4)
      generalize y.wf Off.RDG_PSTATE 4 2 4 = x at h
      rw [h]
      rfl
    · intro hn
      rw [State.writePstate_bad hn] at hex
      obtain ⟨b1, b2, b3, b4⟩ := s.bad_spec Off.RDG_PSTATE 5 (by decide)
      exact ⟨_, hex, b1, b2 4 0 (by decide) (by decide), hw.wrote (by decide) b3 b4⟩

end Sys2Proof.Machine

end

section

/-! SUPPORT. Supply samples, sag levels and the writes of RDG_SAG that undo them (R26, R412 to R415). -/

namespace Sys2Proof.Machine

theorem forAll_range_succ {β : Type} (n : Nat) (f : Nat → β → β) (s : β) : forAll (List.range (n + 1)) f s = f n (forAll (List.range n) f s) := by
  unfold forAll
  rw [List.range_succ, List.foldl_append, List.foldl_cons, List.foldl_nil]

/-! ## Supply samples -/

/-- The runs of a level put. -/
def State.putRuns (t : State) (l b a : Nat) : State := { t with below := Table.put 0 t.below l b, above := Table.put 0 t.above l a }

theorem State.putRuns_spec (t : State) (l b a : Nat) :
    t.putRuns l b a = { t with below := (t.putRuns l b a).below, above := (t.putRuns l b a).above }
      ∧ (∀ j, Table.getD 0 (t.putRuns l b a).below j = if j = l then b else Table.getD 0 t.below j)
      ∧ ∀ j, Table.getD 0 (t.putRuns l b a).above j = if j = l then a else Table.getD 0 t.above j :=
  ⟨rfl, fun _ => Table.getD_put _ _ _ _ _, fun _ => Table.getD_put _ _ _ _ _⟩

/-- The runs of a level with one more sample. -/
def State.runLevel (v i : Nat) (t : State) : State :=
  t.putRuns (i + 1) (runLength (v < sagEnter (i + 1)) (Table.getD 0 t.below (i + 1))) (runLength (sagLeave (i + 1) ≤ v) (Table.getD 0 t.above (i + 1)))

/-- The runs of the levels 1 to `n` with one more sample. -/
theorem State.runLevels_spec (s : State) (v n : Nat) :
    let u := forAll (List.range n) (State.runLevel v) s
    u = { s with below := u.below, above := u.above }
      ∧ ∀ l, 1 ≤ l →
          Table.getD 0 u.below l = (if l ≤ n then runLength (v < sagEnter l) (Table.getD 0 s.below l) else Table.getD 0 s.below l)
          ∧ Table.getD 0 u.above l = (if l ≤ n then runLength (sagLeave l ≤ v) (Table.getD 0 s.above l) else Table.getD 0 s.above l) := by
  induction n with
  | zero => exact ⟨rfl, fun l hl => ⟨(if_neg (by omega)).symm, (if_neg (by omega)).symm⟩⟩
  | succ n ih =>
    intro u
    have hu : u = State.runLevel v n (forAll (List.range n) (State.runLevel v) s) := forAll_range_succ n _ s
    clear_value u
    generalize forAll (List.range n) (State.runLevel v) s = t at hu ih
    obtain ⟨hframe, hruns⟩ := ih
    obtain ⟨hb, ha⟩ := hruns (n + 1) (by omega)
    rw [if_neg (by omega)] at hb ha
    obtain ⟨hstep, hbelow, habove⟩ := t.putRuns_spec (n + 1) (runLength (v < sagEnter (n + 1)) (Table.getD 0 t.below (n + 1))) (runLength (sagLeave (n + 1) ≤ v) (Table.getD 0 t.above (n + 1)))
    rw [State.runLevel] at hu
    rw [← hu] at hstep hbelow habove
    refine ⟨?_, fun l hl => ?_⟩
    · generalize u.below = b at hstep
      generalize u.above = a at hstep
      rw [hstep, hframe]
    · rw [hbelow, habove, hb, ha]
      by_cases hln : l = n + 1
      · subst hln
        simp
      · obtain ⟨h1, h2⟩ := hruns l hl
        rw [if_neg hln, if_neg hln, h1, h2]
        have hle : l ≤ n + 1 ↔ l ≤ n := by omega
        simp only [hle, and_self]

theorem runLength_prop (p : Prop) [Decidable p] (n : Nat) : runLength p n = if p then min 9 (n + 1) else 0 := by
  unfold runLength
  by_cases h : p <;> simp [h]

/-- The reading of the supply and its least value. -/
def State.supplied (s : State) (v : Nat) : State :=
  ((s.wf Off.RDG_SAG 44 32 (min v 8191)).wf Off.RDG_SAG 28 16 (min (min v 8191) (s.rf Off.RDG_SAG 28 16))).newPeriod .supply

theorem State.supplied_spec (s : State) (v : Nat) :
    (s.supplied v).rf Off.RDG_SAG 44 32 = min v 8191 ∧ (s.supplied v).rf Off.RDG_SAG 28 16 = min (min v 8191) (s.rf Off.RDG_SAG 28 16)
      ∧ s.supplied v = { s with regs := (s.supplied v).regs, periodAt := (s.supplied v).periodAt } ∧ sameRegsBut [Off.RDG_SAG] s (s.supplied v) := by
  obtain ⟨y, hy⟩ : ∃ y, y = s.wf Off.RDG_SAG 44 32 (min v 8191) := ⟨_, rfl⟩
  have h1 : y.rf Off.RDG_SAG 44 32 = min v 8191 := by
    rw [hy, s.rf_wf_self Off.RDG_SAG 44 32 _ (by decide) (by decide)]
    exact Nat.mod_eq_of_lt (by omega)
  have hframe : y = { s with regs := y.regs } := by rw [hy]; rfl
  have hr : sameRegsBut [Off.RDG_SAG] s y := by
    rw [hy]
    exact (sameRegsBut.refl _ s).wf List.mem_cons_self _ _ _
  have hs : s.supplied v = (y.wf Off.RDG_SAG 28 16 (min (min v 8191) (s.rf Off.RDG_SAG 28 16))).newPeriod .supply := by
    rw [hy]
    rfl
  rw [hs]
  refine ⟨?_, ?_, ?_, (hr.wf List.mem_cons_self _ _ _).of_regs rfl⟩
  · rw [State.rf_eq, reg_of_regs (State.newPeriod_regs _ _), State.wf_eq, State.reg_setReg_self, fld_ins_above _ 28 16 _ 44 32 (by decide) (by decide) (by decide)]
    exact h1
  · rw [State.rf_eq, reg_of_regs (State.newPeriod_regs _ _), ← State.rf_eq, y.rf_wf_self Off.RDG_SAG 28 16 _ (by decide) (by decide)]
    exact Nat.mod_eq_of_lt (by omega)
  · rw [hframe]
    rfl

theorem exec_supplySample_reads (s : State) {tabs : List Nat} {v : Nat} (hv : tabs.min? = some v) (hp : s.pwrgd = true) (hs : s.periodOver .supply = true) :
    exec (.supplySample tabs) s = .next (forAll (List.range 6) (State.runLevel v) (s.supplied v)) := by
  change execSupplySample tabs s = _
  unfold execSupplySample
  rw [hv]
  exact if_neg (by rw [hp, hs]; decide)

/-! ## Levels -/

theorem State.setLevel_spec (s : State) (l : Nat) :
    (s.setLevel l).rf Off.RDG_SAG 2 0 = l % 8 ∧ (l < 8 → (s.setLevel l).rf Off.RDG_SAG 5 3 = max (s.rf Off.RDG_SAG 5 3) l)
      ∧ (s.setLevel l).rf Off.PG_IRQ_RAW 10 10 = 1 ∧ sameCore s (s.setLevel l) := by
  obtain ⟨y, hy⟩ : ∃ y, y = s.wf Off.RDG_SAG 2 0 l := ⟨_, rfl⟩
  have h20 : y.rf Off.RDG_SAG 2 0 = l % 8 := by
    rw [hy]
    exact s.rf_wf_self Off.RDG_SAG 2 0 l (by decide) (by decide)
  have h53 : y.rf Off.RDG_SAG 5 3 = s.rf Off.RDG_SAG 5 3 := by
    rw [hy, State.rf_eq, State.wf_eq, State.reg_setReg_self, fld_ins_above _ 2 0 _ 5 3 (by decide) (by decide) (by decide), State.rf_eq]
  have hcore : sameCore s y := by
    rw [hy]
    exact s.setReg_core _ _
  have hl : s.setLevel l = (y.maxF Off.RDG_SAG 5 3 l).raiseRdg 10 := by
    rw [hy]
    rfl
  have hsag : ∀ t : State, (t.raiseRdg 10).reg Off.RDG_SAG = t.reg Off.RDG_SAG := fun t => t.reg_raiseRdg 10 (by decide) (by decide)
  rw [hl]
  refine ⟨?_, fun h8 => ?_, State.raiseRdg_bit _ (by decide), (hcore.trans (y.maxF_core _ _ _ _)).trans (State.raiseRdg_core _ _)⟩
  · rw [State.rf_eq, hsag, State.maxF_eq, State.reg_of_noteCount, ← State.rf_eq, State.rf_wf_below _ _ 5 3 _ 2 0 (by decide) (by decide) (by decide) (by decide), h20]
  · rw [State.rf_eq, hsag, ← State.rf_eq, y.rf_maxF_self Off.RDG_SAG 5 3 l (by decide) (by decide) h8, h53]

/-- A command of the cycle is undone: of what a sag entry speaks of only the commanded state differs. -/
theorem State.undoPstate_spec (s : State) :
    s.undoPstate.reg Off.RDG_SAG = s.reg Off.RDG_SAG ∧ s.undoPstate.entered = s.entered ∧ s.undoPstate.bufLimited = s.bufLimited ∧ s.undoPstate.halted = s.halted
      ∧ s.undoPstate.keepAlive = s.keepAlive ∧ (s.countedIn Off.RDG_PSTATE 0 = 1 → s.undoPstate.psTarget = none) := by
  unfold State.undoPstate
  split
  · refine ⟨?_, rfl, rfl, rfl, rfl, fun _ => rfl⟩
    exact (State.reg_setReg_ne _ _ (by decide)).trans (s.reg_setReg_ne _ (by decide))
  · next h =>
    refine ⟨rfl, rfl, rfl, rfl, rfl, fun hc => ?_⟩
    by_contra hn
    exact h ⟨hc, Option.isSome_iff_ne_none.mpr hn⟩

theorem sagLevelEnter_completes (s : State) {l : Nat} (hp : s.pwrgd = true) (h0 : 0 < l) (hf : s.rf Off.RDG_SAG 2 0 < l) (hb : Table.getD 0 s.below l = 9) (h5 : l ≤ 5)
    (hi : s.cycle.issued = false) : Completes (.sagLevelEnter l) s fun u =>
      u.rf Off.RDG_SAG 2 0 = l ∧ u.rf Off.RDG_SAG 5 3 = max (s.rf Off.RDG_SAG 5 3) l ∧ u.rf Off.PG_IRQ_RAW 10 10 = 1
        ∧ (∀ j, 1 ≤ j → j ≤ l → j ∈ u.entered) ∧ (2 ≤ l → (2 ∈ s.entered → s.bufLimited = true) → u.bufLimited = true)
        ∧ (4 ≤ l → (4 ∈ s.entered → s.halted = true ∧ s.keepAlive = true) → u.halted = true ∧ u.keepAlive = true)
        ∧ (s.countedIn Off.RDG_PSTATE 0 = 1 → u.psTarget = none) ∧ (l = 5 → u.shutdown = true) := by
  have hex : exec (.sagLevelEnter l) s = .next (((s.undoPstate.enterLevel l).setLevel l).noteCount Off.RDG_SAG 0 1) :=
    (if_pos ⟨hp, h0, by omega, hf, hb⟩).trans ((if_neg (by omega)).trans (if_neg (by rw [hi]; decide)))
  obtain ⟨u1, u2, u3, u4, u5, u6⟩ := s.undoPstate_spec
  have he := s.undoPstate.enterLevel_spec l
  generalize s.undoPstate = z at hex he u1 u2 u3 u4 u5 u6
  generalize z.enterLevel l = y at hex he
  obtain ⟨l1, l2, l3, l4⟩ := y.setLevel_spec l
  generalize y.setLevel l = x at hex l1 l2 l3 l4
  have hnote : ∀ a hi lo, (x.noteCount Off.RDG_SAG 0 1).rf a hi lo = x.rf a hi lo := fun _ _ _ => rfl
  have hsag : y.rf Off.RDG_SAG 5 3 = s.rf Off.RDG_SAG 5 3 := by rw [State.rf_eq, he.regs _ (by decide), u1, State.rf_eq]
  refine ⟨_, hex, ?_, ?_, (hnote _ _ _).trans l3, fun j h1 h2 => ?_, fun h2 hs => ?_, fun h4 hs => ?_, fun hc => ?_, fun h => ?_⟩
  · rw [hnote, l1, Nat.mod_eq_of_lt (by omega)]
  · rw [hnote, l2 (by omega), hsag]
  · exact (congrArg State.entered l4 :) ▸ he.entered j h1 h2
  · exact (congrArg State.bufLimited l4 :).trans (he.bufLimited h2 (by rw [u2, u3]; exact hs))
  · obtain ⟨e1, e2⟩ := he.halted h4 (by rw [u2, u4, u5]; exact hs)
    exact ⟨(congrArg State.halted l4 :).trans e1, (congrArg State.keepAlive l4 :).trans e2⟩
  · exact (congrArg State.psTarget l4 :).trans (he.psTarget.trans (u6 hc))
  · exact (congrArg State.shutdown l4 :).trans (he.shutdown h)

/-! ## Writes of RDG_SAG -/

theorem rdgSag : RdgReg Off.RDG_SAG :=
  ⟨by decide, by decide, by decide, by decide, (regAt Off.RDG_SAG).get (by decide), Option.eq_some_of_isSome _, by decide⟩

theorem State.write8_sag {s : State} {src : HostSrc} (v : Word) (hw : WriteReaches s src Off.RDG_SAG) : s.write8 src Off.RDG_SAG v = s.writeSag v := by
  obtain ⟨r, hr⟩ := rdgSag.write v hw
  have hoff : offOf Off.RDG_SAG = Off.RDG_SAG := by decide
  rw [hr]
  unfold State.writeRdg
  simp only [hoff]
  rw [if_neg (by decide), if_neg (by decide), if_pos trivial]

/-- R_PREFETCH alone. -/
theorem State.writeSag_prefetch (s : State) :
    s.writeSag (field 7 1) = if s.rf Off.RDG_SAG 2 0 < 2 then
        { s.wf Off.RDG_SAG 9 9 0 with bufLimited := false, entered := (s.wf Off.RDG_SAG 9 9 0).entered.filter (· ≠ 2) }
      else s.wf Off.RDG_SAG 9 9 1 := by
  have h6 : fld (field 7 1) 6 6 = 0 := by decide
  have h7 : fld (field 7 1) 7 7 = 1 := by decide
  have h8 : fld (field 7 1) 8 8 = 0 := by decide
  by_cases hl : s.rf Off.RDG_SAG 2 0 < 2
  · have h2 : decide (2 ≤ s.rf Off.RDG_SAG 2 0) = false := decide_eq_false (by omega)
    have hlt : decide (s.rf Off.RDG_SAG 2 0 < 2) = true := decide_eq_true hl
    unfold State.writeSag
    simp only [h6, h7, h8, h2, hlt, if_pos hl]
    rfl
  · have h2 : decide (2 ≤ s.rf Off.RDG_SAG 2 0) = true := decide_eq_true (by omega)
    have hlt : decide (s.rf Off.RDG_SAG 2 0 < 2) = false := decide_eq_false hl
    unfold State.writeSag
    simp only [h6, h7, h8, h2, hlt, if_neg hl]
    rfl

/-- R_RESUME alone, refused. -/
theorem State.writeSag_held (s : State) (h : 4 ≤ s.rf Off.RDG_SAG 2 0) : s.writeSag (field 8 1) = s.wf Off.RDG_SAG 9 9 1 := by
  have h6 : fld (field 8 1) 6 6 = 0 := by decide
  have h7 : fld (field 8 1) 7 7 = 0 := by decide
  have h8 : fld (field 8 1) 8 8 = 1 := by decide
  have h4 : decide (4 ≤ s.rf Off.RDG_SAG 2 0) = true := decide_eq_true h
  have hlt : decide (s.rf Off.RDG_SAG 2 0 < 4) = false := decide_eq_false (by omega)
  unfold State.writeSag
  simp only [h6, h7, h8, h4, hlt]
  rfl

/-- R_RESUME alone, taken. -/
theorem State.writeSag_resume (s : State) (h : s.rf Off.RDG_SAG 2 0 < 4) (he : 4 ∈ s.entered) :
    s.writeSag (field 8 1) = ({ s.wf Off.RDG_SAG 9 9 0 with entered := (s.wf Off.RDG_SAG 9 9 0).entered.filter (· ≠ 4) } : State).unhalt := by
  have h6 : fld (field 8 1) 6 6 = 0 := by decide
  have h7 : fld (field 8 1) 7 7 = 0 := by decide
  have h8 : fld (field 8 1) 8 8 = 1 := by decide
  have h4 : decide (4 ≤ s.rf Off.RDG_SAG 2 0) = false := decide_eq_false (by omega)
  have hlt : decide (s.rf Off.RDG_SAG 2 0 < 4) = true := decide_eq_true h
  have he' : decide (4 ∈ (s.wf Off.RDG_SAG 9 9 0).entered) = true := decide_eq_true he
  unfold State.writeSag
  simp only [h6, h7, h8, h4, hlt]
  exact if_pos he'

/-- CLR_MAX alone. -/
theorem State.writeSag_clrMax (s : State) :
    s.writeSag (field 6 1) = (s.wf Off.RDG_SAG 5 3 (s.rf Off.RDG_SAG 2 0)).wf Off.RDG_SAG 28 16 (s.rf Off.RDG_SAG 44 32) := by
  have h6 : fld (field 6 1) 6 6 = 1 := by decide
  have h7 : fld (field 6 1) 7 7 = 0 := by decide
  have h8 : fld (field 6 1) 8 8 = 0 := by decide
  unfold State.writeSag
  simp only [h6, h7, h8]
  rfl

/-- The halt is over, short of what the ports then do. -/
def State.unhalted (s : State) (spans : List (Nat × Nat)) : State :=
  { s with halted := false, haltSpans := spans, haltSince := none, keepAlive := decide (s.pstate = 3), selfRefresh := decide (s.pstate = 3) }

theorem State.unhalted_spec (s : State) (spans : List (Nat × Nat)) :
    (s.unhalted spans).halted = false ∧ (s.unhalted spans).haltSince = none ∧ (s.unhalted spans).keepAlive = decide (s.pstate = 3)
      ∧ (s.unhalted spans).selfRefresh = decide (s.pstate = 3) ∧ (s.unhalted spans).entered = s.entered := ⟨rfl, rfl, rfl, rfl, rfl⟩

/-- The level-4 action is undone: sequencers and memory go on as the power state has it. -/
theorem State.unhalt_spec (s : State) :
    let u := s.unhalt
    u.halted = false ∧ u.haltSince = none ∧ u.keepAlive = decide (s.pstate = 3) ∧ u.selfRefresh = decide (s.pstate = 3) ∧ u.entered = s.entered := by
  obtain ⟨spans, z, hz, hu⟩ : ∃ spans z, z = s.unhalted spans ∧ s.unhalt = if z.keepAlive then z else z.drainAll := ⟨_, _, rfl, rfl⟩
  have hk : keepsPower z s.unhalt := by
    rw [hu]
    exact .ite (.refl z) z.drainAll_power
  obtain ⟨f1, f2, f3, f4, f5⟩ := s.unhalted_spec spans
  rw [← hz] at f1 f2 f3 f4 f5
  exact ⟨hk.halted.trans f1, hk.haltSince.trans f2, hk.keepAlive.trans f3, hk.selfRefresh.trans f4, hk.entered.trans f5⟩

/-! ## The obligation -/

/-- Settles O23: samples and levels, and the writes that undo them. -/
theorem sagLevelsAndTheirUndoing : Obligations.SagLevelsAndTheirUndoing := by
  refine ⟨⟨?_, ?_, ?_⟩, ?_⟩
  · intro s tabs v hv hp hs
    obtain ⟨h1, h2, h3, h4⟩ := s.supplied_spec v
    obtain ⟨hframe, hruns⟩ := (s.supplied v).runLevels_spec v 6
    have hex := exec_supplySample_reads s hv hp hs
    have hbelow : (s.supplied v).below = s.below := (congrArg State.below h3 :)
    have habove : (s.supplied v).above = s.above := (congrArg State.above h3 :)
    generalize s.supplied v = z at hex h1 h2 h3 h4 hframe hruns hbelow habove
    generalize forAll (List.range 6) (State.runLevel v) z = u at hex hframe hruns
    have hregs : u.regs = z.regs := (congrArg State.regs hframe :)
    refine ⟨u, hex, ?_, ?_, fun l hl hl6 => ?_, ?_, fun a ha => (reg_of_regs hregs a).trans (h4 a ha)⟩
    · rw [State.rf_eq, reg_of_regs hregs]
      exact h1
    · rw [State.rf_eq, reg_of_regs hregs]
      exact h2
    · obtain ⟨r1, r2⟩ := hruns l hl
      rw [r1, r2, if_pos hl6, if_pos hl6, hbelow, habove, runLength_prop, runLength_prop]
      exact ⟨rfl, rfl⟩
    · rw [hframe, h3]
  · intro s l hp h0 hf hb
    refine ⟨fun h5 hi => ⟨s.post (.sagLevelEnter l), ?_, rfl⟩, fun h5 hi => sagLevelEnter_completes s hp h0 hf hb h5 hi, fun h6 => ⟨s.off, ?_, rfl⟩⟩
    · exact (if_pos ⟨hp, h0, by omega, hf, hb⟩).trans ((if_neg (by omega)).trans (if_pos hi))
    · exact (if_pos ⟨hp, h0, by omega, hf, hb⟩).trans (if_pos h6)
  · intro s l h0 hf ha
    have hex : exec (.sagLevelLeave l) s = .next (s.setLevel (s.flagBelow l)) := if_pos ⟨h0, hf, ha⟩
    obtain ⟨l1, -, l3, l4⟩ := s.setLevel_spec (s.flagBelow l)
    exact ⟨_, hex, l1, (congrArg State.entered l4 :), (congrArg State.halted l4 :), (congrArg State.bufLimited l4 :), l3⟩
  · intro s src hw
    have hex : ∀ v, (.next (s.write8 src Off.RDG_SAG v) : Out) = .next (s.writeSag v) := fun v => congrArg Host.Outcome.next (State.write8_sag v hw)
    refine ⟨?_, fun h4 => ?_, fun hlt he => ?_, ?_⟩
    · have hrun : exec (.sagRPrefetch src) s = .next (s.writeSag (field 7 1)) := hex _
      have h99 := fun v => s.rf_wf_self Off.RDG_SAG 9 9 v (by decide) (by decide)
      have hr := fun v => (sameRegsBut.refl [Off.RDG_SAG] s).wf List.mem_cons_self 9 9 v
      have hwf : ∀ a v, (s.wf a 9 9 v).halted = s.halted ∧ (s.wf a 9 9 v).bufLimited = s.bufLimited := fun _ _ => ⟨rfl, rfl⟩
      obtain ⟨hhalt, hbuf⟩ := hwf Off.RDG_SAG 1
      rw [State.writeSag_prefetch] at hrun
      by_cases hl : s.rf Off.RDG_SAG 2 0 < 2
      · rw [if_pos hl] at hrun
        refine ⟨_, hrun, (h99 0).trans (if_neg (by omega)).symm, ?_, rfl, hw.others (by decide) ((hr 0).of_regs rfl)⟩
        rw [decide_eq_false (by omega : ¬2 ≤ s.rf Off.RDG_SAG 2 0), Bool.and_false]
      · rw [if_neg hl] at hrun
        refine ⟨_, hrun, (h99 1).trans (if_pos (by omega)).symm, ?_, hhalt, hw.others (by decide) (hr 1)⟩
        rw [decide_eq_true (by omega : 2 ≤ s.rf Off.RDG_SAG 2 0), Bool.and_true]
        exact hbuf
    · have hrun : exec (.sagRResume src) s = .next (s.writeSag (field 8 1)) := hex _
      rw [s.writeSag_held h4] at hrun
      obtain ⟨b1, -, b3, b4⟩ := s.bad_spec Off.RDG_SAG 9 (by decide)
      exact ⟨_, hrun, b1, hw.wrote (by decide) b3 b4⟩
    · have hrun : exec (.sagRResume src) s = .next (s.writeSag (field 8 1)) := hex _
      rw [s.writeSag_resume hlt he] at hrun
      obtain ⟨u1, u2, u3, u4, u5⟩ := State.unhalt_spec { s.wf Off.RDG_SAG 9 9 0 with entered := (s.wf Off.RDG_SAG 9 9 0).entered.filter (· ≠ 4) }
      refine ⟨_, hrun, u1, u2, u3, u4, ?_⟩
      rw [u5]
      exact fun h => of_decide_eq_true (List.mem_filter.mp h).2 rfl
    · have hrun : exec (.sagClrMax src) s = .next (s.writeSag (field 6 1)) := hex _
      rw [State.writeSag_clrMax] at hrun
      obtain ⟨y, hy⟩ : ∃ y, y = s.wf Off.RDG_SAG 5 3 (s.rf Off.RDG_SAG 2 0) := ⟨_, rfl⟩
      have h53 : y.rf Off.RDG_SAG 5 3 = s.rf Off.RDG_SAG 2 0 := by
        rw [hy, s.rf_wf_self Off.RDG_SAG 5 3 _ (by decide) (by decide)]
        exact Nat.mod_eq_of_lt (Nat.mod_lt _ (by decide))
      have h20 : y.rf Off.RDG_SAG 2 0 = s.rf Off.RDG_SAG 2 0 := by
        rw [hy]
        exact s.rf_wf_below Off.RDG_SAG 5 3 _ 2 0 (by decide) (by decide) (by decide) (by decide)
      have hfr : onlyRegs s y ∧ sameRegsBut [Off.RDG_SAG] s y := by
        rw [hy]
        exact ⟨.wf s _ _ _ _, (sameRegsBut.refl _ s).wf List.mem_cons_self _ _ _⟩
      rw [← hy] at hrun
      have hbelow := fun hi lo h1 h2 => y.rf_wf_below Off.RDG_SAG 28 16 (s.rf Off.RDG_SAG 44 32) hi lo (by decide) (by decide) h1 h2
      exact ⟨_, hrun, (hbelow 5 3 (by decide) (by decide)).trans h53, y.rf_wf_self Off.RDG_SAG 28 16 _ (by decide) (by decide), (hbelow 2 0 (by decide) (by decide)).trans h20,
        hw.wrote (by decide) (hfr.1.trans (.wf y _ _ _ _)) (hfr.2.wf List.mem_cons_self _ _ _)⟩

end Sys2Proof.Machine

end
